-- ==== Sys2Proof/Word.lean ====
section
/-! DEFINITION. The plain types of the model: bytes, words, keyed collections, byte memory. -/

namespace Sys2Proof

abbrev Byte := BitVec 8
abbrev Word := BitVec 32
abbrev DWord := BitVec 64

/-- A keyed collection: pairs of a key and a value, keys strictly rising. -/
abbrev Map (α : Type) := List (Nat × α)

/-- Byte memory: the cells that differ from what an unlisted address reads as, addresses strictly rising. -/
abbrev Memory := List Host.Cell

/-- What an unlisted byte of any memory of the model reads as. The spec gives no contents after power-on
(DESIGN CHOICE, unsafe, log entry 5). -/
def Memory.unlisted : Byte := 0

/-- The canonical form: addresses strictly rise and no cell holds what an unlisted address reads as. -/
def Memory.wf : Memory → Bool
  | [] => true
  | [c] => c.2 != Memory.unlisted
  | c :: d :: r => c.2 != Memory.unlisted && decide (c.1 < d.1) && Memory.wf (d :: r)

/-- Registers: the cells that differ from their reset value, addresses strictly rising. -/
abbrev RegFile := Map DWord

end Sys2Proof
end

