-- ==== Sys2Proof/Types.lean ====
section
/-! DEFINITION. The records that commands carry as operands. -/

namespace Sys2Proof

/-- An admission request record (03, Table ADM-5) without its OP, which the command names. -/
structure AdmReq where
  cls : Nat := 0
  prio : Nat := 0
  noDefer : Bool := false
  rotate : Bool := false
  seq : Nat := 0
  domain : Nat := 0
  hbm : Nat := 0
  orang : Nat := 0
  wr : Nat := 0
  ctx : Nat := 0
  clu : Nat := 0
  evc : Nat := 0
  queues : Nat := 0
  link : Nat := 0
  energy : Nat := 0
  maxWaitMs : Nat := 0
  holdS : Nat := 0
  tenantId : Nat := 0
  ticket : Nat := 0
  token : DWord := 0
  deriving DecidableEq, Repr

/-- Where an event waits in the event fabric (10): the ingress table, a router's entry, a router output (0 N, 1 E, 2 S, 3 W,
4 CORE), a neuron engine's input and output queues, a tenant's host output, its output to a node, a cluster's event port
and a sensor port. -/
inductive EvPoint where
  | ingress
  | routerIn (r : Nat)
  | routerOut (r d : Nat)
  | coreIn (c : Nat)
  | coreOut (c : Nat)
  | host (slot : Nat)
  | link (node slot : Nat)
  | cluster (k : Nat)
  | sensor (p : Nat)
  deriving DecidableEq, Repr

/-- A 64-byte command record (09, Table QUE-2) without its OPCODE, which the command names: bits 15:8 of the
first word, CMD_ID, the reserved word and the seven operand words at 0x08 to 0x38. -/
structure CmdRec where
  flags : BitVec 8 := 0
  cmdId : BitVec 16 := 0
  rsvd : Word := 0
  w08 : DWord := 0
  w10 : DWord := 0
  w18 : DWord := 0
  w20 : DWord := 0
  w28 : DWord := 0
  w30 : DWord := 0
  w38 : DWord := 0
  deriving DecidableEq, Repr

/-- An access of the device to host memory that the host answered with an error (15, R327): a device read by its tag, a
T3 move, or the ring or writeback of a queue. -/
inductive HostAccess where
  | read (tag : Nat)
  | move (id : Nat)
  | ring (slot queue : Nat)
  deriving DecidableEq, Repr

/-- Where a register access of the host goes (15; 27, Tables REG-1 and REG-3): a word of PF BAR0; a word of a tenant window,
which is the BAR0 of function f, or PF tenant window `win` for f = 0; a word of a function's MSI-X BAR; or a field of its
configuration space, taken apart from its neighbours: Command, MSI-X Message Control, the power state, SR-IOV Control with NumVFs
in [31:16], the BAR2 size, and the two AER status registers. -/
inductive RegTarget where
  | bar0 (off : Nat)
  | window (f : Nat) (win : Option Nat) (off : Nat)
  | msix (f off : Nat)
  | cfgCommand (f : Nat)
  | cfgMsix (f : Nat)
  | cfgPower (f : Nat)
  | cfgSriov
  | cfgRebar
  | cfgAerUnc (f : Nat)
  | cfgAerCor (f : Nat)
  deriving DecidableEq, Repr

end Sys2Proof
end

