-- ==== Sys2Proof/Syntax.lean ====
section
/-! DEFINITION. The command set of the ZT80: `Instr` has one constructor for each row of
spec/opcode_table.json, in the table's order.  The table gives no row any bits, so the operands are the
model's own: the registers, records, words and measurements that the command's rule reads from outside
the block.  Unit numbers, indices, times and energies are natural numbers; words that software or a
wire presents as bits are bit vectors.  `WellFormed` gives the range of each operand. -/

namespace Sys2Proof

/-- The commands, one constructor per row of the opcode table; each docstring is the row's summary and
the rule it names. -/
inductive Instr where
  /-- WIDE_REGISTER_LOW_READ (R6). A read of the lowest word of a register wider than 32 bits latches every higher word for that requester. -/
  | wideRegisterLowRead (target : RegTarget)
  /-- REGISTER_WRITE (R8). A write to a register that has no row of its own is applied under its access code, with RO and reserved bits ignored and WO actions taken only on 1. -/
  | registerWrite (target : RegTarget) (value : Word)
  /-- STAGED_COMMIT_APPLY (R10). At a block's next safe point after a COMMIT, every field of the staged group is applied together, unless the block refuses the commit. -/
  | stagedCommitApply (commit : Nat)
  /-- ADMIT (R62). The Gatehouse evaluates an ADMIT through the stages of Table ADM-7 and grants, defers or refuses a new tenant. -/
  | gateAdmit (win : (Option Nat)) (f : Nat) (req : AdmReq)
  /-- MODIFY (R62). The Gatehouse changes the named tenant's reservation vector; a raise passes the evaluation stages and is never deferred. -/
  | modify (win : (Option Nat)) (f : Nat) (req : AdmReq)
  /-- ATTACH (R70). A PARKED or DORMANT tenant is re-attached when its token matches, and its held completions are counted for replay. -/
  | attach (win : (Option Nat)) (f : Nat) (req : AdmReq)
  /-- DETACH (R554). The named tenant is parked at once and its grace timer starts. -/
  | detach (win : (Option Nat)) (f : Nat) (req : AdmReq)
  /-- RELEASE (R71). Work in flight ends ABORTED_BY_TENANT, every allocation is released and zeroisation begins. -/
  | release (win : (Option Nat)) (f : Nat) (req : AdmReq)
  /-- QUERY (R66). Returns the position and wait estimate of a deferred request the function owns. -/
  | query (win : (Option Nat)) (f : Nat) (req : AdmReq)
  /-- WITHDRAW (R66). Removes a deferred request, answered ABORTED_BY_TENANT. -/
  | withdraw (win : (Option Nat)) (f : Nat) (req : AdmReq)
  /-- DEFER_MAX_WAIT_EXPIRE (R66). An entry that has waited MAX_WAIT_MS is removed with a refusal notice. -/
  | deferMaxWaitExpire (ticket : Nat)
  /-- TW_NTC_CONS_WRITE (R61). The driver's notice consumer write is applied unless it moves backward or past the producer. -/
  | twNtcConsWrite (win : (Option Nat)) (f : Nat) (value : Word)
  /-- ATTACH_LOCKOUT_EXPIRE (R72). The 1 s ATTACH lockout of a tenant ID after 8 failures ends. -/
  | attachLockoutExpire (id : Nat)
  /-- GRACE_EXPIRE (R69). Grace ends: non-DURABLE allocations are released and the tenant becomes DORMANT or RELEASING with its vector cut. -/
  | graceExpire (slot : Nat)
  /-- ZEROISE_COMPLETE (R71). Zeroisation of a released tenant or object completes, capacity is returned and the slot becomes FREE. -/
  | zeroiseComplete (job : Nat)
  /-- ALLOC (R86). Allocates an object, checks its flags and places each page in its initial tier, returning a handle. -/
  | alloc (slot : Nat) (q : Nat) (rec : CmdRec)
  /-- FREE (R101). Advances the object's generation, abandons its moves and releases its pages once their leases end. -/
  | free (slot : Nat) (q : Nat) (rec : CmdRec)
  /-- PLACE (R88). Moves a range of pages to a named tier, reissuing once if a write cancels the move. -/
  | place (slot : Nat) (q : Nat) (rec : CmdRec)
  /-- FLUSH (R95). Writes a new durable image of a DURABLE object in T2. -/
  | flush (slot : Nat) (q : Nat) (rec : CmdRec)
  /-- FLUSH_JOURNAL_COMMIT (R95). The journal record committing a durable image is programmed and the new image takes force. -/
  | flushJournalCommit (flight : Nat)
  /-- REG_HOST (R97). Registers a host memory region as T3 and returns its region number. -/
  | regHost (slot : Nat) (q : Nat) (rec : CmdRec)
  /-- DEREG_HOST (R98). Moves every page out of a host region and then deregisters it, or refuses when pages cannot be placed. -/
  | deregHost (slot : Nat) (q : Nat) (rec : CmdRec)
  /-- QUERY_OBJ (R191). Writes an object's bytes per tier, page states and lease total to a host buffer. -/
  | queryObj (slot : Nat) (q : Nat) (rec : CmdRec)
  /-- WRITE (R191). Copies data from host memory into an object at a given offset. -/
  | write (slot : Nat) (q : Nat) (rec : CmdRec)
  /-- READ (R191). Copies data from an object into host memory. -/
  | read (slot : Nat) (q : Nat) (rec : CmdRec)
  /-- MOVE_COMMIT (R84). A tier move whose destination is wholly written and checked commits and switches the home in one step. -/
  | moveCommit (move : Nat)
  /-- DEMOTION_SCAN (R93). When free T1 is below TIER_WM_LOW, holdings are demoted in class and recency order until TIER_WM_HIGH is reached. -/
  | demotionScan
  /-- T3_MOVE_STALL_TIMEOUT (R102). A move to or from T3 stalled for HIF_STALL_TO is abandoned with ABORTED_HOST_STALL and the region enters back-off. -/
  | t3MoveStallTimeout (move : Nat)
  /-- T3_BACKOFF_EXPIRE (R102). A host region's TIER_T3_BACKOFF ends and it may again receive demotions. -/
  | t3BackoffExpire (slot : Nat) (region : Nat)
  /-- PEER_MOVE_TIMEOUT (R103). A T4 move without progress for TIER_PEER_TO is abandoned and completes FAULT_TIMEOUT. -/
  | peerMoveTimeout (move : Nat) (elapsedMs : Nat)
  /-- PEER_LOSS_TIMEOUT (R99). An owner that has not reached a peer for TIER_PEER_LOSS poisons every page homed there. -/
  | peerLossTimeout (node : Nat)
  /-- PEER_HOLD_EXPIRE (R99). A holder that has not heard from an owner for TIER_PEER_LOSS releases and zeroises its pages. -/
  | peerHoldExpire (node : Nat)
  /-- PFX_LOOKUP (R110). The Parterre hashes a turn's full blocks and pins the longest resident prefix under the allowed scopes. -/
  | pfxLookup (ctx : Nat)
  /-- BLOCK_PUBLISH (R113). A completed block whose pages are resident in T1 is entered into the index, or left private, resolving duplicates. -/
  | blockPublish (ctx : Nat) (block : Nat)
  /-- PFX_TTL_EVICT (R117). An evictable entry whose LAST_USE is older than the domain's TTL is evicted. -/
  | pfxTtlEvict (entry : Nat)
  /-- KV_MOVE_ISSUE (R119). At a page's issue time, or early when a move engine is idle, the tier engine issues its move. -/
  | kvMoveIssue (step : Nat) (ctx : Nat) (block : Nat) (group : Nat)
  /-- KV_PAGE_DEADLINE (R120). A page not resident in T0 at its deadline is counted late. -/
  | kvPageDeadline (step : Nat) (ctx : Nat) (block : Nat) (group : Nat)
  /-- DIR_ANNOUNCE (R121). A directory records the publications or evictions of SITE-domain blocks announced by a member. -/
  | dirAnnounce (src : Nat) (dom : Nat) (kg : Nat) (publish : Bool) (hashes : (List DWord))
  /-- DIR_QUERY (R121). A directory answers a query for following hashes, or forwards the miss upward. -/
  | dirQuery (src : Nat) (rtag : Nat) (dom : Nat) (kg : Nat) (id : Nat) (hashes : (List DWord))
  /-- DIR_ANSWER (R121). A querying worker receives the holder of a matched run and issues REMOTE_PIN. -/
  | dirAnswer (src : Nat) (matched : Nat) (dom : Nat) (kg : Nat) (id : Nat) (holder : Nat) (status : Nat)
  /-- REMOTE_PIN (R121). A holder compares full hashes and pins the leading run for a remote lease. -/
  | remotePin (src : Nat) (rtag : Nat) (dom : Nat) (kg : Nat) (req : Nat) (tenant : Nat) (hashes : (List (BitVec 128)))
  /-- PIN_ANSWER (R122). The requester records the remotely pinned run and its lease. -/
  | pinAnswer (src : Nat) (pinned : Nat) (dom : Nat) (kg : Nat) (req : Nat) (lease : Nat)
  /-- REMOTE_UNPIN (R122). A holder drops the pins of a remote lease. -/
  | remoteUnpin (src : Nat) (lease : Nat)
  /-- REMOTE_LEASE_EXPIRE (R122). A holder drops a remote lease whose requester has been silent for TIER_PEER_LOSS. -/
  | remoteLeaseExpire (lease : Nat)
  /-- DIRECTORY_ANNOUNCE_DUE (R121). A worker sends its batched publications and evictions to its chassis manager within 1 ms. -/
  | directoryAnnounceDue
  /-- PFX_DOM_ROTATE (R124). Raises a domain's KEYGEN and makes older entries EVICTING, or is refused or ignored. -/
  | pfxDomRotate (dom : Nat)
  /-- PFX_DOM_PURGE (R124). Makes every entry of a domain EVICTING without changing the key. -/
  | pfxDomPurge (dom : Nat)
  /-- MODEL_LOAD (R127). Checks a model descriptor and registers it in a model slot. -/
  | modelLoad (slot : Nat) (q : Nat) (rec : CmdRec)
  /-- MODEL_UNLOAD (R128). Frees a model slot unless a context names it. -/
  | modelUnload (slot : Nat) (q : Nat) (rec : CmdRec)
  /-- CTX_OPEN (R129). Takes a free context record and binds it to a model slot and queue. -/
  | ctxOpen (slot : Nat) (q : Nat) (rec : CmdRec)
  /-- CTX_CLEAR (R129). Empties a context, dropping pins and private pages, at the end of any running step. -/
  | ctxClear (slot : Nat) (q : Nat) (rec : CmdRec)
  /-- CTX_CLOSE (R129). Empties and frees a context record. -/
  | ctxClose (slot : Nat) (q : Nat) (rec : CmdRec)
  /-- TURN (R193). Checks and queues a turn on a context and starts fetching its token IDs. -/
  | turn (slot : Nat) (q : Nat) (rec : CmdRec)
  /-- CANCEL (R129). Ends the named turns at the end of the current step with ABORTED_BY_TENANT. -/
  | cancel (slot : Nat) (q : Nat) (rec : CmdRec)
  /-- STEP_PLAN (R131). When a group's free time is within SCH_HORIZON the batch former ranks READY contexts, forms a batch and fixes S and the group durations. -/
  | stepPlan (after : (Option Nat))
  /-- PREEMPT_EXPIRE (R161). A launch still running when its preemption notice expires is stopped and its step cut. -/
  | preemptExpire (launch : Nat)
  /-- STEP_START (R203). At S the queue engine runs the model's step program on the chosen cluster group. -/
  | stepStart (step : Nat)
  /-- STEP_END (R130). At the last group's end, token completions are written, stop conditions judged and contexts return to READY or IDLE. -/
  | stepEnd (step : Nat)
  /-- RESERVE_WINDOW_BOUNDARY (R67). An aligned 10 ms window begins and reserved cluster time is counted afresh. -/
  | reserveWindowBoundary
  /-- TW_CTX_SEL_WRITE (R143). Snapshots the selected context record into TW_CTX_DATA, or denies it. -/
  | twCtxSelWrite (f : Nat) (win : (Option Nat)) (value : Word)
  /-- LAUNCH_START (R144). A launch that has been granted clusters starts each member with the launch register state. -/
  | launchStart (launch : Nat) (yieldUs : Nat)
  /-- LAUNCH_END (R164). When every rank has completed END, or a fault ends it, the group writes the launch report. -/
  | launchEnd (launch : Nat) (elapsedNs : Nat)
  /-- WAIT_LIMIT_EXPIRE (R159). A move, semaphore, barrier or KV wait reaching WAIT_LIMIT ends the launch FAULT_TIMEOUT. -/
  | waitLimitExpire (cluster : Nat)
  /-- TIME_LIMIT_EXPIRE (R159). A launch reaching its TIME_LIMIT ends FAULT_TIMEOUT. -/
  | timeLimitExpire (launch : Nat)
  /-- TILE_MOVE_COMPLETE (R156). A tile move completes and a TWAIT waiting on its token returns or ends the launch. -/
  | tileMoveComplete (cluster : Nat) (num : Nat)
  /-- KV_PAGE_DELIVERED (R148). A KV page becomes whole in its delivery slot and a KVWAIT on it returns. -/
  | kvPageDelivered (step : Nat) (ctx : Nat) (block : Nat) (group : Nat)
  /-- NOP (R170). Does nothing. -/
  | clNop (cluster : Nat) (word : (BitVec 56))
  /-- ADD (R170). Writes sa + sb, wrapping. -/
  | clAdd (cluster : Nat) (word : (BitVec 56))
  /-- SUB (R170). Writes sa − sb, wrapping. -/
  | clSub (cluster : Nat) (word : (BitVec 56))
  /-- MUL (R170). Writes the low 64 bits of sa × sb. -/
  | clMul (cluster : Nat) (word : (BitVec 56))
  /-- MULH (R170). Writes the high 64 bits of a signed product. -/
  | clMulh (cluster : Nat) (word : (BitVec 56))
  /-- MULHU (R170). Writes the high 64 bits of an unsigned product. -/
  | clMulhu (cluster : Nat) (word : (BitVec 56))
  /-- DIV (R170). Writes the signed quotient, with the defined divide-by-zero result. -/
  | clDiv (cluster : Nat) (word : (BitVec 56))
  /-- DIVU (R170). Writes the unsigned quotient. -/
  | clDivu (cluster : Nat) (word : (BitVec 56))
  /-- REM (R170). Writes the signed remainder. -/
  | clRem (cluster : Nat) (word : (BitVec 56))
  /-- REMU (R170). Writes the unsigned remainder. -/
  | clRemu (cluster : Nat) (word : (BitVec 56))
  /-- AND (R170). Writes the bitwise AND. -/
  | clAnd (cluster : Nat) (word : (BitVec 56))
  /-- OR (R170). Writes the bitwise OR. -/
  | clOr (cluster : Nat) (word : (BitVec 56))
  /-- XOR (R170). Writes the bitwise XOR. -/
  | clXor (cluster : Nat) (word : (BitVec 56))
  /-- SHL (R170). Shifts left by sb[5:0]. -/
  | clShl (cluster : Nat) (word : (BitVec 56))
  /-- SHR (R170). Shifts logically right by sb[5:0]. -/
  | clShr (cluster : Nat) (word : (BitVec 56))
  /-- SAR (R170). Shifts arithmetically right by sb[5:0]. -/
  | clSar (cluster : Nat) (word : (BitVec 56))
  /-- MIN (R170). Writes the signed minimum. -/
  | clMin (cluster : Nat) (word : (BitVec 56))
  /-- MAX (R170). Writes the signed maximum. -/
  | clMax (cluster : Nat) (word : (BitVec 56))
  /-- MINU (R170). Writes the unsigned minimum. -/
  | clMinu (cluster : Nat) (word : (BitVec 56))
  /-- MAXU (R170). Writes the unsigned maximum. -/
  | clMaxu (cluster : Nat) (word : (BitVec 56))
  /-- ADDI (R170). Adds a sign-extended immediate. -/
  | clAddi (cluster : Nat) (word : (BitVec 56))
  /-- ANDI (R170). ANDs a sign-extended immediate. -/
  | clAndi (cluster : Nat) (word : (BitVec 56))
  /-- ORI (R170). ORs a sign-extended immediate. -/
  | clOri (cluster : Nat) (word : (BitVec 56))
  /-- XORI (R170). XORs a sign-extended immediate. -/
  | clXori (cluster : Nat) (word : (BitVec 56))
  /-- SHLI (R170). Shifts left by an immediate. -/
  | clShli (cluster : Nat) (word : (BitVec 56))
  /-- SHRI (R170). Shifts logically right by an immediate. -/
  | clShri (cluster : Nat) (word : (BitVec 56))
  /-- SARI (R170). Shifts arithmetically right by an immediate. -/
  | clSari (cluster : Nat) (word : (BitVec 56))
  /-- LI (R170). Loads a sign-extended immediate. -/
  | clLi (cluster : Nat) (word : (BitVec 56))
  /-- LIH (R170). Loads the high 32 bits of a register. -/
  | clLih (cluster : Nat) (word : (BitVec 56))
  /-- CMP (R170). Sets a predicate by a condition on two registers. -/
  | clCmp (cluster : Nat) (word : (BitVec 56))
  /-- CMPI (R170). Sets a predicate by a condition against an immediate. -/
  | clCmpi (cluster : Nat) (word : (BitVec 56))
  /-- PLOG (R166). Performs the predicate operation selected by SUB. -/
  | clPlog (cluster : Nat) (word : (BitVec 56))
  /-- MOVSYS (R170). Reads a system value into a scalar register. -/
  | clMovsys (cluster : Nat) (word : (BitVec 56))
  /-- CLRFL (R155). Clears the selected cluster FLAGS bits. -/
  | clClrfl (cluster : Nat) (word : (BitVec 56))
  /-- TDSET (R170). Loads a tile descriptor register unchecked. -/
  | clTdset (cluster : Nat) (word : (BitVec 56))
  /-- TDGET (R170). Copies a tile descriptor into a scalar register. -/
  | clTdget (cluster : Nat) (word : (BitVec 56))
  /-- TDADD (R170). Adds to a descriptor's BASE modulo 65,536. -/
  | clTdadd (cluster : Nat) (word : (BitVec 56))
  /-- HSET (R170). Loads a handle register unchecked. -/
  | clHset (cluster : Nat) (word : (BitVec 56))
  /-- HGET (R170). Copies a handle into a scalar register. -/
  | clHget (cluster : Nat) (word : (BitVec 56))
  /-- HMOV (R170). Copies one handle register to another. -/
  | clHmov (cluster : Nat) (word : (BitVec 56))
  /-- BR (R171). Branches relative to the current index. -/
  | clBr (cluster : Nat) (word : (BitVec 56))
  /-- BZ (R171). Branches when sa is zero. -/
  | clBz (cluster : Nat) (word : (BitVec 56))
  /-- BNZ (R171). Branches when sa is nonzero. -/
  | clBnz (cluster : Nat) (word : (BitVec 56))
  /-- LOOP (R171). Decrements sa and branches while it is nonzero. -/
  | clLoop (cluster : Nat) (word : (BitVec 56))
  /-- CALL (R171). Writes the return index and branches. -/
  | clCall (cluster : Nat) (word : (BitVec 56))
  /-- JR (R171). Branches to the index in sa. -/
  | clJr (cluster : Nat) (word : (BitVec 56))
  /-- END (R172). Stops the rank's issue and completes after its moves, collectives and injections. -/
  | clEnd (cluster : Nat) (word : (BitVec 56))
  /-- TLD (R173). Starts a move from an object into a tile and returns a token. -/
  | clTld (cluster : Nat) (word : (BitVec 56))
  /-- TST (R173). Starts a move from a tile into an object and returns a token. -/
  | clTst (cluster : Nat) (word : (BitVec 56))
  /-- TCP (R173). Starts a copy between tiles of the tile store. -/
  | clTcp (cluster : Nat) (word : (BitVec 56))
  /-- TPUT (R173). Starts a copy of a local tile to a remote rank's tile. -/
  | clTput (cluster : Nat) (word : (BitVec 56))
  /-- TGET (R173). Starts a copy of a remote rank's tile into a local tile. -/
  | clTget (cluster : Nat) (word : (BitVec 56))
  /-- TZERO (R173). Starts zeroing every line of a tile's rows. -/
  | clTzero (cluster : Nat) (word : (BitVec 56))
  /-- TWAIT (R156). Waits for the move of a token, reporting its status. -/
  | clTwait (cluster : Nat) (word : (BitVec 56))
  /-- SADV (R174). Advances a stream window by one segment and starts fetching the new segment. -/
  | clSadv (cluster : Nat) (word : (BitVec 56))
  /-- MMA (R175). Accumulates the product of two tiles into an accumulator. -/
  | clMma (cluster : Nat) (word : (BitVec 56))
  /-- MMAZ (R175). Zeroes an accumulator and accumulates a tile product. -/
  | clMmaz (cluster : Nat) (word : (BitVec 56))
  /-- AZERO (R175). Sets an accumulator to +0.0. -/
  | clAzero (cluster : Nat) (word : (BitVec 56))
  /-- ALD (R176). Loads a tile into an accumulator widened to FP32. -/
  | clAld (cluster : Nat) (word : (BitVec 56))
  /-- AST (R176). Stores an accumulator into a tile converted to its format. -/
  | clAst (cluster : Nat) (word : (BitVec 56))
  /-- VADD (R177). Adds two vectors lane by lane. -/
  | clVadd (cluster : Nat) (word : (BitVec 56))
  /-- VSUB (R177). Subtracts two vectors lane by lane. -/
  | clVsub (cluster : Nat) (word : (BitVec 56))
  /-- VMUL (R177). Multiplies two vectors lane by lane. -/
  | clVmul (cluster : Nat) (word : (BitVec 56))
  /-- VFMA (R177). Fused multiply-add of three vectors. -/
  | clVfma (cluster : Nat) (word : (BitVec 56))
  /-- VDIV (R177). Divides two vectors lane by lane. -/
  | clVdiv (cluster : Nat) (word : (BitVec 56))
  /-- VSQRT (R177). Square root of each lane. -/
  | clVsqrt (cluster : Nat) (word : (BitVec 56))
  /-- VMIN (R155). Lane-wise minimum. -/
  | clVmin (cluster : Nat) (word : (BitVec 56))
  /-- VMAX (R155). Lane-wise maximum. -/
  | clVmax (cluster : Nat) (word : (BitVec 56))
  /-- VSGN (R177). Negate, absolute value or copy-sign per SUB. -/
  | clVsgn (cluster : Nat) (word : (BitVec 56))
  /-- VSFU (R178). Special function per SUB on each lane. -/
  | clVsfu (cluster : Nat) (word : (BitVec 56))
  /-- VLOG (R177). Lane-wise logic or shift per SUB. -/
  | clVlog (cluster : Nat) (word : (BitVec 56))
  /-- VCMP (R177). Writes a predicate from a lane condition. -/
  | clVcmp (cluster : Nat) (word : (BitVec 56))
  /-- VSEL (R177). Selects lanes of two vectors by a predicate. -/
  | clVsel (cluster : Nat) (word : (BitVec 56))
  /-- VMOV (R166). Moves, broadcasts, iotas, extracts or inserts per SUB. -/
  | clVmov (cluster : Nat) (word : (BitVec 56))
  /-- VCVT (R177). Converts lanes between lane types. -/
  | clVcvt (cluster : Nat) (word : (BitVec 56))
  /-- VLD (R179). Loads and decodes 64 columns of a tile row into a vector. -/
  | clVld (cluster : Nat) (word : (BitVec 56))
  /-- VST (R179). Encodes a vector into 64 columns of a tile row. -/
  | clVst (cluster : Nat) (word : (BitVec 56))
  /-- VLDA (R179). Loads 64 columns of an accumulator row into a vector. -/
  | clVlda (cluster : Nat) (word : (BitVec 56))
  /-- VSTA (R179). Writes active lanes into 64 columns of an accumulator row. -/
  | clVsta (cluster : Nat) (word : (BitVec 56))
  /-- VRED (R180). Reduces the active lanes of a vector by a fixed tree. -/
  | clVred (cluster : Nat) (word : (BitVec 56))
  /-- ARED (R180). Reduces accumulator rows into vector lanes by a fixed tree. -/
  | clAred (cluster : Nat) (word : (BitVec 56))
  /-- FENCE (R157). Waits until every earlier move of the cluster has completed and committed. -/
  | clFence (cluster : Nat) (word : (BitVec 56))
  /-- SIGNAL (R181). Adds a value to a rank's semaphore after earlier moves are visible. -/
  | clSignal (cluster : Nat) (word : (BitVec 56))
  /-- SWAIT (R181). Waits until an own semaphore reaches a value. -/
  | clSwait (cluster : Nat) (word : (BitVec 56))
  /-- SREAD (R181). Reads an own semaphore. -/
  | clSread (cluster : Nat) (word : (BitVec 56))
  /-- BAR (R181). Waits until every rank has issued the same barrier. -/
  | clBar (cluster : Nat) (word : (BitVec 56))
  /-- KVWAIT (R182). Waits until a KV page is whole in its slot. -/
  | clKvwait (cluster : Nat) (word : (BitVec 56))
  /-- KVREL (R182). Releases the oldest page's delivery slot. -/
  | clKvrel (cluster : Nat) (word : (BitVec 56))
  /-- KVINFO (R182). Returns a KV page's descriptor. -/
  | clKvinfo (cluster : Nat) (word : (BitVec 56))
  /-- EVINJ (R183). Injects one event word into the cluster's event port. -/
  | clEvinj (cluster : Nat) (word : (BitVec 56))
  /-- EVINJV (R183). Injects one event word per active lane. -/
  | clEvinjv (cluster : Nat) (word : (BitVec 56))
  /-- CALLR (R185). Starts an all-reduce of a tile across the launch's ranks. -/
  | clCallr (cluster : Nat) (word : (BitVec 56))
  /-- CBCAST (R184). Starts a broadcast of a root rank's tile. -/
  | clCbcast (cluster : Nat) (word : (BitVec 56))
  /-- CAGATH (R184). Starts an all-gather of every rank's tile. -/
  | clCagath (cluster : Nat) (word : (BitVec 56))
  /-- CRDSC (R185). Starts a reduce-scatter of row blocks across ranks. -/
  | clCrdsc (cluster : Nat) (word : (BitVec 56))
  /-- TOKOUT (R186). Records a batch entry's generated token for the step. -/
  | clTokout (cluster : Nat) (word : (BitVec 56))
  /-- EOT (R186). Ends a batch entry's turn at step end with stop reason PROGRAM. -/
  | clEot (cluster : Nat) (word : (BitVec 56))
  /-- TW_DB_PROD_WRITE (R190). A doorbell write sets the command producer index, or is ignored when out of range, and fetching proceeds. -/
  | twDbProdWrite (f : Nat) (win : (Option Nat)) (q : Nat) (value : Word)
  /-- TW_CQ_HEAD_WRITE (R195). The driver's completion consumer index is applied unless it moves backward or past the tail. -/
  | twCqHeadWrite (f : Nat) (win : (Option Nat)) (q : Nat) (value : Word)
  /-- TW_QSIG_WRITE (R199). Adds a signed value to the queue's semaphore 0. -/
  | twQsigWrite (f : Nat) (win : (Option Nat)) (q : Nat) (value : Word)
  /-- TW_Q_COMMIT (R189). Commits a queue's ring configuration, resetting its indices and replaying held completions before it becomes ACTIVE. -/
  | twQCommit (f : Nat) (win : (Option Nat)) (q : Nat) (value : Word)
  /-- VECTOR_MODERATION_EXPIRE (R195). A vector raise deferred by MOD_US is made at the end of the interval. -/
  | vectorModerationExpire (slot : Nat) (q : Nat)
  /-- HELD_SLOT_FREED (R197). A held-store slot frees and a waiting command start, POST or plan may proceed. -/
  | heldSlotFreed (slot : Nat) (q : Nat)
  /-- QPROG_RUN (R202). Starts a queue program on the queue, or refuses it while one runs. -/
  | qprogRun (slot : Nat) (q : Nat) (rec : CmdRec)
  /-- QPROG_STOP (R201). Stops the queue's program at its next fence point. -/
  | qprogStop (slot : Nat) (q : Nat) (rec : CmdRec)
  /-- QPROG_FENCE_TIMEOUT (R201). A program that reaches no fence point within 10 ms of a stop request stops at an instruction boundary. -/
  | qprogFenceTimeout (key : Nat)
  /-- QOP (R198). Performs the scalar operation whose cluster major is SUB. -/
  | qpQop (key : Nat) (word : (BitVec 56))
  /-- QP_ADDI (R198). Adds a sign-extended immediate. -/
  | qpAddi (key : Nat) (word : (BitVec 56))
  /-- QP_LI (R198). Loads a sign-extended immediate. -/
  | qpLi (key : Nat) (word : (BitVec 56))
  /-- QP_LIH (R198). Loads the high 32 bits of a register. -/
  | qpLih (key : Nat) (word : (BitVec 56))
  /-- QP_CMP (R198). Sets a predicate by a condition on two registers. -/
  | qpCmp (key : Nat) (word : (BitVec 56))
  /-- QP_CMPI (R198). Sets a predicate by a condition against an immediate. -/
  | qpCmpi (key : Nat) (word : (BitVec 56))
  /-- QP_HSET (R198). Loads a handle register. -/
  | qpHset (key : Nat) (word : (BitVec 56))
  /-- QP_HGET (R198). Copies a handle into a scalar register. -/
  | qpHget (key : Nat) (word : (BitVec 56))
  /-- QP_BR (R171). Branches relative to the current index. -/
  | qpBr (key : Nat) (word : (BitVec 56))
  /-- QP_BZ (R171). Branches when sa is zero. -/
  | qpBz (key : Nat) (word : (BitVec 56))
  /-- QP_BNZ (R171). Branches when sa is nonzero. -/
  | qpBnz (key : Nat) (word : (BitVec 56))
  /-- QP_LOOP (R171). Decrements sa and branches while nonzero. -/
  | qpLoop (key : Nat) (word : (BitVec 56))
  /-- QP_CALL (R171). Writes the return index and branches. -/
  | qpCall (key : Nat) (word : (BitVec 56))
  /-- QP_JR (R171). Branches to the index in sa. -/
  | qpJr (key : Nat) (word : (BitVec 56))
  /-- QP_END (R202). Ends the program with a RESULT after an implied fence. -/
  | qpEnd (key : Nat) (word : (BitVec 56))
  /-- LD (R198). Loads 8 bytes from an object. -/
  | qpLd (key : Nat) (word : (BitVec 56))
  /-- ST (R198). Stores 8 bytes into an object. -/
  | qpSt (key : Nat) (word : (BitVec 56))
  /-- CMD (R199). Issues a command record from an object and returns a token. -/
  | qpCmd (key : Nat) (word : (BitVec 56))
  /-- CWAIT (R199). Waits for a command token and returns its status. -/
  | qpCwait (key : Nat) (word : (BitVec 56))
  /-- CRES (R199). Returns the RESULT of a completed command. -/
  | qpCres (key : Nat) (word : (BitVec 56))
  /-- LAUNCH (R204). Checks a launch record and issues the launch, returning a token. -/
  | qpLaunch (key : Nat) (word : (BitVec 56))
  /-- LAUNCHS (R203). Launches one layer group of the step on its cluster group. -/
  | qpLaunchs (key : Nat) (word : (BitVec 56))
  /-- LWAIT (R199). Waits for a launch token and returns its status. -/
  | qpLwait (key : Nat) (word : (BitVec 56))
  /-- LREP (R199). Copies a launch report into an object. -/
  | qpLrep (key : Nat) (word : (BitVec 56))
  /-- QP_SIGNAL (R199). Adds a value to a local queue's semaphore. -/
  | qpSignal (key : Nat) (word : (BitVec 56))
  /-- QP_SWAIT (R198). Waits until an own queue semaphore reaches a value. -/
  | qpSwait (key : Nat) (word : (BitVec 56))
  /-- QP_FENCE (R201). Waits until every command and launch the program issued has completed. -/
  | qpFence (key : Nat) (word : (BitVec 56))
  /-- PARK (R200). Sleeps until a selected wake cause. -/
  | qpPark (key : Nat) (word : (BitVec 56))
  /-- PARK_WAKE (R200). A wake cause of a parked program occurs, including its timeout, and the program resumes. -/
  | parkWake (key : Nat)
  /-- TIME (R198). Reads the timebase. -/
  | qpTime (key : Nat) (word : (BitVec 56))
  /-- KVRES (R203). Returns the first layer group to run in a step. -/
  | qpKvres (key : Nat) (word : (BitVec 56))
  /-- POST (R197). Writes a KIND 4 user completion with STATUS DONE. -/
  | qpPost (key : Nat) (word : (BitVec 56))
  /-- EV_CORE_LOAD (R225). Loads weights and parameters into an event core and resets its neuron state. -/
  | evCoreLoad (slot : Nat) (q : Nat) (rec : CmdRec)
  /-- EV_CORE_CLEAR (R226). Sets V and r_end of an event core's neurons to 0 between input events. -/
  | evCoreClear (slot : Nat) (q : Nat) (rec : CmdRec)
  /-- EV_ROUTE (R218). Replaces the tenant's entries in the STAGED bank of every table. -/
  | evRoute (slot : Nat) (q : Nat) (rec : CmdRec)
  /-- EV_COMMIT (R218). Requests a routing bank flip and completes when the tenant's routes are in force. -/
  | evCommit (slot : Nat) (q : Nat) (rec : CmdRec)
  /-- EVF_COMMIT (R218). A register write requests a routing bank flip. -/
  | evfCommit (value : Word)
  /-- EV_INJECT (R209). Injects event words read from host memory. -/
  | evInject (slot : Nat) (q : Nat) (rec : CmdRec)
  /-- EV_RING (R216). Configures the tenant's host event ring. -/
  | evRing (slot : Nat) (q : Nat) (rec : CmdRec)
  /-- EV_TELEM (R224). Enables or disables a telemetry source and its period. -/
  | evTelem (slot : Nat) (q : Nat) (rec : CmdRec)
  /-- EV_CORE_READ (R225). Writes a snapshot of an event core's neuron state. -/
  | evCoreRead (slot : Nat) (q : Nat) (rec : CmdRec)
  /-- EVENT_ROUTE_HOP (R213). A router matches an event against its bank and forwards copies to outputs, dropping misses and over-hop events. -/
  | eventRouteHop (point : EvPoint)
  /-- NEURON_INPUT_EVENT (R211). A neuron engine applies an input event to every enabled neuron and emits output events. -/
  | neuronInputEvent (core : Nat)
  /-- EV_RING_VECTOR_TICK (R216). The host event ring's vector is raised at most once per 10 µs while tail differs from head. -/
  | evRingVectorTick (slot : Nat)
  /-- TW_EV_HEAD_WRITE (R216). The driver advances the host event ring head, freeing room for replay. -/
  | twEvHeadWrite (f : Nat) (win : (Option Nat)) (value : Word)
  /-- EV_BATCH_TIMEOUT (R217). A link event batch leaves 1 µs after its first word. -/
  | evBatchTimeout (node : Nat) (slot : Nat)
  /-- EV_BATCH (R217). A received event batch enters the ingress table stamped with the receiver's epoch. -/
  | evBatch (tenant : Nat) (words : (List Word))
  /-- EVENT_BANK_FLIP (R218). At a router epoch with the other bank STAGED, E takes the staged bank and the old bank starts DRAINING. -/
  | eventBankFlip
  /-- EVENT_BANK_DRAINED (R218). A DRAINING bank's in-flight count reaches 0 and resync begins. -/
  | eventBankDrained
  /-- EVENT_BANK_RESYNC_DONE (R218). The resync copy completes and the bank becomes STAGED, applying held writes. -/
  | eventBankResyncDone
  /-- SPILL_WAIT_EXPIRE (R220). An output blocked for 20 µs moves its tenant's queued events to the spill FIFO. -/
  | spillWaitExpire (point : EvPoint)
  /-- SPILL_REPLAY (R221). A spill point with room for half its capacity replays its FIFO in order, re-stamping stale epochs. -/
  | spillReplay (point : EvPoint) (slot : Nat)
  /-- NEURON_SLEEP (R223). A neuron engine with no input for 2 µs sleeps. -/
  | neuronSleep (core : Nat)
  /-- TELEMETRY_TICK (R224). A telemetry source's period ends and it emits its count or delta event. -/
  | telemetryTick (slot : Nat) (source : Nat) (measured : Int)
  /-- ESP_OWNER_WRITE (R231). The PF sets or clears a sensor port's owner, assigning a key range or clearing the mapping. -/
  | espOwnerWrite (port : Nat) (value : (BitVec 16))
  /-- ESP_SYNC_WORD (R233). A SYNC word counts toward or confirms word alignment lock. -/
  | espSyncWord (port : Nat) (aligned : Bool)
  /-- ESP_IDLE_WORD (R233). An IDLE word is discarded. -/
  | espIdleWord (port : Nat)
  /-- ESP_EXT_WORD (R233). A reserved EXTENSION word is counted and discarded. -/
  | espExtWord (port : Nat)
  /-- ESP_CLOCK_LOSS (R233). The sensor clock absent for 1 µs loses lock. -/
  | espClockLoss (port : Nat)
  /-- ESP_PIXEL_WORD (R235). A PIXEL word is stamped, mapped to a key and injected, or dropped by ROI, polarity, settle or FIFO overrun. -/
  | espPixelWord (port : Nat) (value : (BitVec 30))
  /-- ESP_TIME_HIGH_WORD (R234). A TIME_HIGH word is latched with its TB. -/
  | espTimeHighWord (port : Nat) (value : (BitVec 30))
  /-- ESP_STATUS_WORD (R234). A STATUS word is latched and may set SENSOR_ERR. -/
  | espStatusWord (port : Nat) (value : (BitVec 30))
  /-- ESP_OVERRUN_MARKER (R237). When the FIFO can accept again, a marker event reporting the dropped words is inserted. -/
  | espOverrunMarker (port : Nat)
  /-- ESP_MAP (R242). Stages a pixel-to-key mapping that applies at the governing group's boundary. -/
  | espMap (slot : Nat) (q : Nat) (rec : CmdRec)
  /-- ESP_I3C (R236). Accepts an I3C list, run at once if immediate or staged for a boundary. -/
  | espI3c (slot : Nat) (q : Nat) (rec : CmdRec)
  /-- I3C_NACK_RETRY (R236). A NACKed transfer is retried every 100 µs and the list fails after 1 ms. -/
  | i3cNackRetry (port : Nat)
  /-- I3C_TRANSFER_DONE (R236). An I3C transfer completes and the list proceeds or completes. -/
  | i3cTransferDone (port : Nat) (data : Word)
  /-- ESP_SETTLE_END (R236). SETTLE_US after the list's last transfer, PIXEL words are accepted again. -/
  | espSettleEnd (port : Nat)
  /-- ESP_IBI (R236). An in-band interrupt's payload is latched. -/
  | espIbi (port : Nat) (payload : Word)
  /-- ESP_HOT_JOIN (R236). A Hot-Join request is answered with ENTDAA. -/
  | espHotJoin (port : Nat)
  /-- WIN_CFG (R239). Configures or releases a window group and binds taps, staged if the group runs. -/
  | winCfg (slot : Nat) (q : Nat) (rec : CmdRec)
  /-- WIN_RING (R241). Configures the window ring. -/
  | winRing (slot : Nat) (q : Nat) (rec : CmdRec)
  /-- WINDOW_BOUNDARY (R238). A group boundary moves counting to the other bank and applies staged group changes. -/
  | windowBoundary (group : Nat)
  /-- WINDOW_FINALISE (R241). At boundary plus LATE the closing bank is finalised and its record published to the window and ring. -/
  | windowFinalise (group : Nat)
  /-- ESP_OVERCURRENT_TRIP (R243). An over-current trip switches the camera supply off and latches PWR_FAULT. -/
  | espOvercurrentTrip (port : Nat)
  /-- CAM_PRESENCE_CHANGE (R520). CAM_PRSNT_N changes and the camera supply switches off or returns. -/
  | camPresenceChange (port : Nat) (present : Bool)
  /-- CODEWORD_UNCORRECTABLE (R246). An uncorrectable codeword discards its five flits. -/
  | codewordUncorrectable (port : Nat)
  /-- DATA_FLIT (R249). A DATA flit that checks and has the expected SEQ is delivered to its VC, otherwise discarded with RETRY_REQ. -/
  | dataFlit (port : Nat) (hdr : (BitVec 128)) (payload : (BitVec 864)) (crc : Word)
  /-- IDLE_FLIT (R251). An IDLE flit updates the acknowledgement state. -/
  | idleFlit (port : Nat) (acked : Nat)
  /-- RETRY_REQ (R250). The sender retransmits in order from the named SEQ. -/
  | retryReq (port : Nat) (acked : Nat) (expected : Nat)
  /-- RETRY_ACK_TIMEOUT (R250). No acknowledgement advance for 2 µs replays from the oldest unacknowledged flit, retraining after 8. -/
  | retryAckTimeout (port : Nat)
  /-- CREDIT (R252). A CREDIT flit updates the sender's credits per VC. -/
  | credit (port : Nat) (acked : Nat) (freed : (List Nat))
  /-- CREDIT_PERIODIC_SEND (R252). A receiver sends a CREDIT flit at least every 1 µs. -/
  | creditPeriodicSend (port : Nat)
  /-- HELLO (R259). A peer's HELLO is checked and the port goes UP, or is held for a duplicate ID. -/
  | hello (port : Nat) (version : Nat) (node : Nat) (peerPort : Nat) (lanes : Nat) (epoch : Nat) (cold : Bool) (startSeq : Nat) (credits : (List Nat))
  /-- LANE_MAP (R260). A peer's retired-lane mask sets the port width and triggers a fast retrain. -/
  | laneMap (port : Nat) (mask : (BitVec 8))
  /-- DOWN_NOTICE (R267). The peer announces the port going down. -/
  | downNotice (port : Nat) (reason : Nat)
  /-- ESCAPE_WAIT_EXPIRE (R254). A flit unable to advance for LNK_ESC_WAIT is moved to class 7. -/
  | escapeWaitExpire (port : Nat)
  /-- FLIT_AGE_EXPIRE (R255). A flit waiting 100 µs at one router output is dropped. -/
  | flitAgeExpire (port : Nat)
  /-- STALE (R258). A STALE answer completes the request ABORTED_TARGET_RESET and teaches the new node epoch. -/
  | stale (src : Nat) (rtag : Nat) (epoch : Nat)
  /-- LNK_PORT_EN (R258). Enables or disables a link port. -/
  | lnkPortEn (port : Nat) (en : Bool)
  /-- LNK_PORT_RETRAIN (R260). Requests a retrain of a link port. -/
  | lnkPortRetrain (port : Nat)
  /-- LNK_PORT_FULL_EQ (R260). Requests full equalisation of a link port. -/
  | lnkPortFullEq (port : Nat)
  /-- PORT_DETECT_RETRY (R258). A port in DETECT without signal retries every 100 ms. -/
  | portDetectRetry (port : Nat)
  /-- PORT_SIGNAL_DETECT (R258). Signal on at least 2 lanes moves the port to EQUALISE. -/
  | portSignalDetect (port : Nat) (lanes : (BitVec 8))
  /-- PORT_LANES_LOCK (R258). Lanes lock and the port moves to ALIGN. -/
  | portLanesLock (port : Nat)
  /-- PORT_ALIGN_DONE (R260). Codewords decode cleanly for 10 µs and the port exchanges HELLO. -/
  | portAlignDone (port : Nat)
  /-- PORT_RETRAIN_TIMEOUT (R260). A retrain failing at LNK_RETRAIN_TO counts a failure and records diagnostic lanes. -/
  | portRetrainTimeout (port : Nat) (failed : (BitVec 8)) (above : (BitVec 8))
  /-- PORT_LOCK_LOSS (R258). A port loses lock and retrains. -/
  | portLockLoss (port : Nat)
  /-- LNK_RT_WRITE (R261). A route entry write lands in the STAGED bank, or is ignored with BAD when it names absent ports. -/
  | lnkRtWrite (index : Nat) (value : DWord)
  /-- LNK_RT_COMMIT (R262). Commits the staged route bank and its flip time. -/
  | lnkRtCommit (value : Word)
  /-- ROUTE_FLIP (R262). A manager's ROUTE_FLIP sets the site-wide flip time. -/
  | routeFlip (src : Nat) (newE : Nat) (time : Nat)
  /-- ROUTE_FLIP_TIME (R262). When TB reaches the flip time the injection epoch takes the staged bank. -/
  | routeFlipTime
  /-- ROUTE_BANK_RELEASE (R262). A draining route bank becomes STAGED once empty and 4 ms after the flip. -/
  | routeBankRelease
  /-- PING (R262). A PING is answered with PONG. -/
  | ping (src : Nat) (rtag : Nat) (time : Nat)
  /-- PONG (R262). A PONG returns the peer's time and tag. -/
  | pong (src : Nat) (rtag : Nat) (time : Nat)
  /-- PAGE_PUT (R263). A holder opens a peer-tier move into its lending pool, or refuses it. -/
  | pagePut (src : Nat) (rtag : Nat) (move : Nat) (handle : DWord) (page : Nat) (stored : Nat) (crc : Word)
  /-- PAGE_GET (R263). A holder answers with the page's BULK_DATA and MOVE_DONE. -/
  | pageGet (src : Nat) (rtag : Nat) (byLease : Bool) (move : Nat) (handle : DWord) (page : Nat)
  /-- MOVE_DONE (R263). The owner commits or abandons the peer move by its status. -/
  | moveDone (src : Nat) (rtag : Nat) (move : Nat) (status : Word) (stored : Nat) (crc : Word)
  /-- PAGE_RELEASE (R263). A holder releases held pages. -/
  | pageRelease (src : Nat) (move : Nat) (handle : DWord) (first : Nat) (count : Nat)
  /-- BULK_DATA (R263). Stores a chunk of a page at its offset, idempotently. -/
  | bulkData (src : Nat) (rtag : Nat) (move : Nat) (off : Nat) (data : (List Byte))
  /-- PEER_MOVE_STALL (R263). A holder receiving no flit of a move for TIER_PEER_TO discards the partial page. -/
  | peerMoveStall (src : Nat) (move : Nat)
  /-- COLL_PART (R265). A sled adds its ranks' values to incoming partials and forwards them along the chain. -/
  | collPart (src : Nat) (seq : Nat) (span : Nat) (off : Nat) (partials : (List Word))
  /-- COLL_DATA (R265). A sled writes final collective data into its ranks' tiles. -/
  | collData (src : Nat) (seq : Nat) (span : Nat) (off : Nat) (data : (List Byte))
  /-- SPAN_PUT (R264). Writes data into a remote rank's tile store. -/
  | spanPut (src : Nat) (rtag : Nat) (rank : Nat) (span : Nat) (off : Nat) (data : (List Byte))
  /-- SPAN_GET (R264). Answers with SPAN_DATA from a rank's tile store. -/
  | spanGet (src : Nat) (rtag : Nat) (rank : Nat) (span : Nat) (off : Nat) (len : Nat)
  /-- SPAN_SIGNAL (R264). Adds a value to a rank's semaphore across sleds. -/
  | spanSignal (src : Nat) (rank : Nat) (span : Nat) (sem : Nat) (value : Word)
  /-- SPAN_BAR (R264). Records a sled's arrival at a span barrier. -/
  | spanBar (src : Nat) (index : Nat) (span : Nat) (count : Nat)
  /-- SPAN_DATA (R264). Delivers data answering a SPAN_GET. -/
  | spanData (src : Nat) (rtag : Nat) (span : Nat) (off : Nat) (data : (List Byte))
  /-- SPAN_ACK (R264). Acknowledges applied SPAN_PUTs, releasing held signals and barriers. -/
  | spanAck (src : Nat) (span : Nat) (highest : Nat)
  /-- TIME_SYNC_TICK (R268). Every 1 ms a sled sends SYNC_REQ to its time parent, entering holdover after 3 misses. -/
  | timeSyncTick
  /-- SYNC_REQ (R266). A parent answers a child's SYNC_REQ with SYNC_RESP carrying its stamps. -/
  | syncReq (port : Nat) (seq : Nat) (t1 : Nat) (rpl : Bool)
  /-- SYNC_RESP (R266). The child computes offset and delay and steps or slews TB. -/
  | syncResp (port : Nat) (seq : Nat) (t2 : Nat) (t3 : Nat) (t4 : Nat) (locked : Bool) (stratum : Nat) (rpl : Bool)
  /-- BEACON_TICK (R272). A manager floods a BEACON through its scope every 10 ms. -/
  | beaconTick
  /-- BEACON (R274). A member adopts or keeps its manager, or a manager with lower term or key resigns. -/
  | beacon (src : Nat) (hops : Nat) (level : Nat) (resign : Bool) (stall : Bool) (node : Nat) (term : Nat) (key : Nat) (gen : Nat) (stratum : Nat) (roll : Nat) (seq : Nat) (locked : Bool)
  /-- MANAGER_LOSS (R272). No BEACON of a level for 30 ms, or a RESIGN beacon, loses the manager. -/
  | managerLoss (level : Nat)
  /-- CANDIDATE_WAIT_EXPIRE (R273). A candidate's random wait ends and it floods CANDIDATE with a new term. -/
  | candidateWaitExpire (level : Nat)
  /-- CANDIDATE (R273). A candidate records a rival and re-floods when the rival's key is lower. -/
  | candidate (src : Nat) (hops : Nat) (level : Nat) (node : Nat) (term : Nat) (key : Nat) (seq : Nat)
  /-- ELECTION_TIMEOUT (R273). 20 ms after its CANDIDATE the highest-key candidate becomes manager and withholds the reserve. -/
  | electionTimeout (level : Nat)
  /-- HIE_RESIGN (R273). A manager resigns with a final RESIGN beacon. -/
  | hieResign
  /-- JOIN (R276). A manager checks a member's JOIN tag, merges its blocks and answers. -/
  | join (src : Nat) (rtag : Nat) (level : Nat) (cont : Bool) (start : Nat) (build : Nat) (fw : Nat) (ledger : Nat) (total : Nat) (idx : Nat) (bases : (List Nat)) (tag : (BitVec 128))
  /-- JOIN_ACK (R275). A member records acceptance or refusal of its JOIN. -/
  | joinAck (src : Nat) (rtag : Nat) (status : Word) (term : Nat) (tag : (BitVec 128))
  /-- JOIN_SERIES_TIMEOUT (R276). An incomplete JOIN series is discarded after 100 ms and resent. -/
  | joinSeriesTimeout (node : Nat)
  /-- STATUS_TICK (R275). A member reports STATUS to its manager every 100 ms. -/
  | statusTick
  /-- STATUS (R278). A manager records a member's capacity, ports and energy snapshot. -/
  | status (src : Nat) (rtag : Nat) (hbm : Nat) (clu : Nat) (lend1 : Nat) (lend2 : Nat) (ports : (List Nat)) (sledUj : Nat) (snapTb : Nat) (tenantMj : Nat) (meterOk : Bool)
  /-- ROUTE_SET (R278). A sled stages route entries of a generation. -/
  | routeSet (src : Nat) (rtag : Nat) (table : Nat) (first : Nat) (gen : Nat) (entries : (List DWord))
  /-- TOPOLOGY_RECOMPUTE (R278). Within 50 ms of a topology change the manager computes and sends route sets and a flip. -/
  | topologyRecompute
  /-- POOL_REQ (R280). A manager allots tenant ID blocks on request. -/
  | poolReq (src : Nat) (rtag : Nat) (wanted : Nat)
  /-- POOL_GRANT (R280). A sled adds granted tenant ID blocks to its pool. -/
  | poolGrant (src : Nat) (rtag : Nat) (term : Nat) (bases : (List Nat))
  /-- POOL_BLOCK_RETURN (R280). A worker returns a block whose IDs have all been free for 1 h. -/
  | poolBlockReturn (base : Nat)
  /-- POOL_MAP_REPLICATE (R281). A row manager replicates the site allotment map every 1 s. -/
  | poolMapReplicate (blocks : (List (Nat × Nat)))
  /-- SPAN_HOLD (R282). A member evaluates stage 4 for a span request, holds capacity and votes. -/
  | spanHold (src : Nat) (rtag : Nat) (id : Nat) (txn : Nat) (modify : Bool) (cls : Nat) (words : (List Nat)) (domain : Nat) (keys : Nat)
  /-- SPAN_VOTE (R282). A manager collects votes and commits or aborts the span. -/
  | spanVote (src : Nat) (rtag : Nat) (txn : Nat) (status : Word) (amount : Nat)
  /-- SPAN_COMMIT (R282). A member commits or drops its span hold. -/
  | spanCommit (src : Nat) (rtag : Nat) (txn : Nat) (commit : Bool)
  /-- SPAN_VOTE_TIMEOUT (R289). A manager lacking a vote at 10 ms aborts the span transaction. -/
  | spanVoteTimeout (txn : Nat)
  /-- SPAN_COMMIT_TIMEOUT (R289). A member with no SPAN_COMMIT within 100 ms drops its hold. -/
  | spanCommitTimeout (mgr : Nat) (txn : Nat)
  /-- SPAN_REQUEST_TIMEOUT (R289). A requester hearing nothing for 150 ms answers REFUSED_BUSY. -/
  | spanRequestTimeout (f : Nat)
  /-- TENANT_OP (R283). A member applies the home sled's park, attach, release or dormant transition. -/
  | tenantOp (src : Nat) (rtag : Nat) (id : Nat) (op : Nat) (home : Nat)
  /-- SPAN_HOME_LOSS (R283). A member whose home is silent for TIER_PEER_LOSS parks its slot. -/
  | spanHomeLoss (slot : Nat)
  /-- KEY_WRAP (R283). A member unwraps and installs a SITE-domain key. -/
  | keyWrap (src : Nat) (rtag : Nat) (dom : Nat) (kg : Nat) (term : Nat) (key : (BitVec 192))
  /-- LEND_QUERY (R284). A chassis manager names the member with the most free lending room. -/
  | lendQuery (node : Nat) (answer : (Option Nat))
  /-- LEDGER_FWD (R285). A manager stores a forwarded ledger record and acknowledges it. -/
  | ledgerFwd (src : Nat) (rtag : Nat) (origin : Nat) (index : Nat) (record : (List Word))
  /-- ACK (R432). An ACK completes a hierarchy request, carrying the overhead ratio for STATUS. -/
  | ack (src : Nat) (rtag : Nat) (echoed : Nat) (status : Word) (ratio : Nat) (second : Nat) (valid : Bool)
  /-- HIE_REQUEST_TIMEOUT (R283). An unanswered class 0 or 2 hierarchy request is resent up to 3 times, then treated as lost. -/
  | hieRequestTimeout (tag : Nat)
  /-- ROLL_START (R286). The operator starts a rollout on the site manager. -/
  | rollStart (workers : (List Nat)) (chassis : (List Nat)) (rows : (List Nat))
  /-- ROLL_HALT (R287). The operator halts the rollout. -/
  | rollHalt
  /-- ROLL_RESUME (R287). The rollout continues with the next sled not reported. -/
  | rollResume
  /-- ROLL_OFFER (R286). A sled opens a PEER update session and fetches the offered image. -/
  | rollOffer (src : Nat) (rtag : Nat) (wave : Nat) (move : Nat) (version : Nat) (size : Nat) (digest : (List Nat))
  /-- ROLL_ACTIVATE (R286). A sled activates the fetched image. -/
  | rollActivate (src : Nat) (rtag : Nat) (move : Nat)
  /-- ROLL_CONFIRM (R286). A sled confirms after the soak. -/
  | rollConfirm (src : Nat) (rtag : Nat) (move : Nat)
  /-- ROLL_REPORT (R287). The site manager records a sled's result and advances or halts the wave. -/
  | rollReport (src : Nat) (rtag : Nat) (move : Nat) (status : Word)
  /-- ROLL_DRAIN_EXPIRE (R286). HIE_ROLL_DRAIN_S passes and a sled activates despite active tenants. -/
  | rollDrainExpire
  /-- ROLL_SOAK_EXPIRE (R286). HIE_ROLL_SOAK_S after restart the sled confirms and reports. -/
  | rollSoakExpire
  /-- ROLL_REPORT_TIMEOUT (R287). A sled with no report within soak plus 600 s counts as a failure. -/
  | rollReportTimeout (node : Nat)
  /-- PPS_IN_PULSE (R279). The time root steers TB to a 1PPS pulse. -/
  | ppsInPulse
  /-- PPS_OUT_SECOND (R517). A locked sled drives PPS_OUT at each whole second of TB. -/
  | ppsOutSecond
  /-- HIE_SITE_SECRET_WRITE (R275). The operator writes the site secret. -/
  | hieSiteSecretWrite (index : Nat) (value : Word)
  /-- WAIT_MONITOR_THRESHOLD (R301). A wait longer than FLT_PRG_THRESH_US is counted by level, and an upward wait as an order violation. -/
  | waitMonitorThreshold (level : Nat) (us : Nat) (upward : Bool)
  /-- TW_LEASE_WRITE (R318). A lease write makes the function's lease LIVE and ends host-absent mode for the PF. -/
  | twLeaseWrite (f : Nat) (win : (Option Nat)) (value : Word)
  /-- TW_LEASE_PERIOD_WRITE (R318). Sets the lease period when in range and renews the lease. -/
  | twLeasePeriodWrite (f : Nat) (win : (Option Nat)) (value : Word)
  /-- LEASE_EXPIRE (R319). A VF lease expires and its tenant is parked, regions revoked and rings discarded. -/
  | leaseExpire (f : Nat)
  /-- PF_LEASE_EXPIRE (R320). The PF lease expires and the sled enters host-absent mode, parking every tenant. -/
  | pfLeaseExpire
  /-- WRITE_STALL_TIMEOUT (R324). A function's write queue head waiting HIF_STALL_TO makes it write-stalled. -/
  | writeStallTimeout (f : Nat) (withheld : Bool)
  /-- WRITE_STALL_EXIT (R326). A write-stalled function whose blocking state has cleared writes held completions, then pending MSI-X messages. -/
  | writeStallExit (f : Nat)
  /-- READ_STALL_TIMEOUT (R325). A read not wholly completed within HIF_STALL_TO becomes read-stalled. -/
  | readStallTimeout (tag : Nat)
  /-- DMA_READ_COMPLETE (R315). All bytes of a device read arrive and the entry, token list or page is consumed. -/
  | dmaReadComplete (tag : Nat) (data : (List Nat))
  /-- UNEXPECTED_COMPLETION (R325). A completion arriving after its read timed out is discarded and counted. -/
  | unexpectedCompletion (f : Nat)
  /-- HOST_REQUEST_ERROR (R327). An Unsupported Request or Completer Abort revokes a region or puts a queue in ERROR. -/
  | hostRequestError (acc : HostAccess)
  /-- POISONED_COMPLETION (R327). A poisoned completion poisons a T3 page or puts a queue in ERROR. -/
  | poisonedCompletion (acc : HostAccess)
  /-- MSIX_UNMASK (R312). Unmasking a vector sends its pending message. -/
  | msixUnmask (f : Nat) (vec : Nat)
  /-- VF_FLR (R328). A VF FLR parks its tenant, revokes regions, discards rings and expires its lease. -/
  | vfFlr (f : Nat)
  /-- VF_ENABLE_CLEAR (R328). Clearing VF Enable resets every VF as an FLR. -/
  | vfEnableClear
  /-- PF_FLR (R329). A PF FLR resets every VF and the PF, expires the PF lease and enters host-absent mode. -/
  | pfFlr
  /-- CONVENTIONAL_RESET (R329). PERST_N, hot reset, link disable or link down acts as a PF FLR and retrains the link. -/
  | conventionalReset (kind : Nat) (speed : Nat) (width : Nat)
  /-- BME_CLEAR (R331). Clearing Bus Master Enable makes the function a blocking state. -/
  | bmeClear (f : Nat)
  /-- D3HOT_ENTRY (R331). A function entering D3hot becomes a blocking state. -/
  | d3hotEntry (f : Nat)
  /-- IDE_STREAM_INSECURE (R317). An IDE stream entering Insecure blocks the function's traffic. -/
  | ideStreamInsecure (stream : Nat) (first : Nat) (last : Nat)
  /-- IDE_KM_KEY_PROG (R317). Programs IDE keys through IDE_KM inside an SPDM session. -/
  | ideKmKeyProg (stream : Nat) (keySet : Nat) (key : (BitVec 256))
  /-- SPDM_GET_VERSION (R316). The responder returns its SPDM versions. -/
  | spdmGetVersion
  /-- SPDM_GET_CAPABILITIES (R316). The responder returns its capabilities. -/
  | spdmGetCapabilities
  /-- SPDM_NEGOTIATE_ALGORITHMS (R316). The responder selects algorithms. -/
  | spdmNegotiateAlgorithms (asym : Nat) (hash : Nat) (dhe : Nat) (aead : Nat)
  /-- SPDM_GET_DIGESTS (R316). The responder returns certificate chain digests. -/
  | spdmGetDigests
  /-- SPDM_GET_CERTIFICATE (R316). The responder returns part of a certificate chain. -/
  | spdmGetCertificate (slot : Nat) (offset : Nat) (length : Nat)
  /-- SPDM_CHALLENGE (R316). The responder signs a challenge. -/
  | spdmChallenge (slot : Nat) (nonce : Nat)
  /-- SPDM_GET_MEASUREMENTS (R484). The responder returns the measurement indices. -/
  | spdmGetMeasurements (index : Nat) (sign : Bool) (slot : Nat) (nonce : Nat)
  /-- SPDM_KEY_EXCHANGE (R316). The responder begins a secure session. -/
  | spdmKeyExchange (slot : Nat) (exchange : Nat)
  /-- SPDM_FINISH (R316). The responder completes session establishment. -/
  | spdmFinish (verifies : Bool)
  /-- SPDM_KEY_UPDATE (R316). The responder updates session keys. -/
  | spdmKeyUpdate (op : Nat) (tag : Nat)
  /-- SPDM_HEARTBEAT (R316). The responder answers a session heartbeat. -/
  | spdmHeartbeat
  /-- SPDM_END_SESSION (R316). The responder ends a session. -/
  | spdmEndSession
  /-- HIF_RESTART_WARM (R330). A keyed restart write with COLD 0 requests a warm start. -/
  | hifRestartWarm (key : Nat)
  /-- HIF_RESTART_COLD (R330). A keyed restart write with COLD 1 requests a cold start. -/
  | hifRestartCold (key : Nat)
  /-- MAIN_GOOD (R340). Main held at 46 V for 10 ms with SLED_EN asserted begins a cold start from STANDBY. -/
  | mainGood (sledEn : Bool)
  /-- SLED_EN_DEASSERT (R516). SLED_EN deasserted for 1 ms runs the main-loss sequence and enters STANDBY. -/
  | sledEnDeassert
  /-- QUIESCE_TIMEOUT (R344). A QUIESCE exceeding 50 ms turns the warm start into a cold start. -/
  | quiesceTimeout
  /-- RAIL_REGULATION_TIMEOUT (R341). A rail not in regulation within 5 ms is retried once, then fails step 1. -/
  | railRegulationTimeout (rail : Nat)
  /-- START_STEP_COMPLETE (R346). A start step completes, records its duration and begins every step that follows it. -/
  | startStepComplete (n : Nat) (ok : Bool) (found : (List Nat))
  /-- START_LIMIT_EXPIRE (R346). A start whose step 14 has not completed within 60 s cold or 10 s warm fails. -/
  | startLimitExpire
  /-- START_RETRY (R348). 1 s after a failed start the next warm, cold or SAFE outcome begins. -/
  | startRetry
  /-- RST_SAFE_EXIT (R350). A keyed write leaves SAFE, clears the fail counters and begins a cold start. -/
  | rstSafeExit (key : Nat)
  /-- ROOT_LOCK_LOSS (R355). Loss of ROOT lock for 10 µs drops MAIN rails and begins a cold start. -/
  | rootLockLoss
  /-- OVERTEMP_TRIP (R356). A die at 110 °C latches OVERTEMP and removes MAIN rails. -/
  | overtempTrip
  /-- OVERTEMP_CLEAR (R356). Every die below 85 °C clears the latch and a cold start follows. -/
  | overtempClear
  /-- POWER_CAP_TICK (R337). Every 1 ms CAP_K is adjusted from metered main input power. -/
  | powerCapTick
  /-- THERMAL_TICK (R338). Every 1 ms each compute die's THERM_K is adjusted from its hottest sensor. -/
  | thermalTick (west : Int) (east : Int)
  /-- HK_TRANSACTION (R343). A housekeeping link transaction is retried on CRC failure and retrains or takes the link down. -/
  | hkTransaction (ok : Bool)
  /-- RST_UNIT (R353). The PF resets one unit with a keyed write, or the write is refused. -/
  | rstUnit (type : Nat) (index : Nat) (key : Nat)
  /-- UNIT_RESET_DEFERRED (R351). A reset requested within 1 ms of the previous one is performed when the spacing has passed. -/
  | unitResetDeferred (type : Nat) (index : Nat)
  /-- RESET_NOTICE (R352). A unit's reset notice aborts requests still waiting on it and gives its new epoch. -/
  | resetNotice (type : Nat) (index : Nat)
  /-- WATCHDOG_EXPIRE (R481). The firmware watchdog resets the management core, which rechecks and reruns its image. -/
  | watchdogExpire
  /-- WATCHDOG_READY_TIMEOUT (R354). Firmware not ready 2 s after a watchdog restart begins a warm start. -/
  | watchdogReadyTimeout
  /-- FW_READY_SET (R481). Firmware reports ready and held management functions, DOE requests and mailbox replies resume. -/
  | fwReadySet
  /-- IC_CONVERSION_END (R363). An integrating conversion ends and its result goes to the scan, pair or urgent register. -/
  | icConversionEnd (n : Nat) (nv : Int)
  /-- SD_MODULATOR_CLIP (R358). A clipping modulator is reset within 64 MOD cycles. -/
  | sdModulatorClip (ch : Nat)
  /-- ADC_URG_FINISH (R367). A FINISH urgent request waits for the converter's current slot or abandons it beyond 21.5 ms. -/
  | adcUrgFinish (conv : (Option Nat)) (input : Nat) (period : Nat)
  /-- ADC_URG_DROP (R368). A DROP urgent request starts on an idle converter or is discarded. -/
  | adcUrgDrop (conv : (Option Nat)) (input : Nat) (period : Nat)
  /-- ADC_SD_COMMIT (R376). Commits the ΣΔ group, including gains, at the decimator output boundary. -/
  | adcSdCommit
  /-- ADC_IC_COMMIT (R364). Commits the scan, pair and period group for the next mains cycle boundary. -/
  | adcIcCommit
  /-- ADC_SD_CAL_START (R370). Starts ΣΔ self-calibration of all eight channels. -/
  | adcSdCalStart
  /-- SD_CAL_COMPLETE (R372). ΣΔ self-calibration ends, loading coefficients or recording a self-check failure. -/
  | sdCalComplete (zeros : (List Nat)) (refs : (List Nat))
  /-- ADC_IC_CAL_START (R371). Starts integrating converter self-calibration. -/
  | adcIcCalStart
  /-- REFERENCE_CHECK_TICK (R374). Every 10 s the next converter converts the reference check input. -/
  | referenceCheckTick
  /-- ADC_SYSCAL_ZERO (R375). Starts the zero phase of system calibration. -/
  | adcSyscalZero (ic : Bool) (target : Nat) (input : Nat) (gain : Nat)
  /-- ADC_SYSCAL_FULL (R375). Starts the full-scale phase of system calibration, or rejects it. -/
  | adcSyscalFull (ic : Bool) (target : Nat) (input : Nat) (gain : Nat)
  /-- SYSCAL_PHASE_COMPLETE (R375). After 16 averaged outputs the phase sets its coefficient or fails. -/
  | syscalPhaseComplete
  /-- ADC_SYSCAL_SAVE (R375). A keyed write persists every coefficient to NOR. -/
  | adcSyscalSave (key : Nat)
  /-- AUTORANGE_UP (R376). After 1 s below the low threshold the current channel's gain steps up. -/
  | autorangeUp (ch : Nat)
  /-- DEC_OUTPUT (R381). A channel's decimated output is formed, flagged and latched, with autorange-down and CF accumulation. -/
  | decOutput (ch : Nat) (ones : (List Bool))
  /-- DEC_COMMIT (R384). Commits the decimation group or rejects it whole. -/
  | decCommit
  /-- MTR_SYNC_EDGE (R389). A rising MTR_SYNC edge requests a sync two MOD edges later, or is ignored. -/
  | mtrSyncEdge (frac : Nat)
  /-- DEC_CTRL_SYNC (R390). A register write requests a sync at the next MOD edge. -/
  | decCtrlSync
  /-- DEC_CTRL_ARM (R390). Arms a timed sync at DEC_SYNC_AT. -/
  | decCtrlArm
  /-- DEC_SYNC_INSTANT (R388). A sync takes effect, aligned or stepping, restarting SEQ and marking outputs. -/
  | decSyncInstant
  /-- DEC_CAPTURE_START (R393). Starts capturing the next outputs of masked channels. -/
  | decCaptureStart (mask : Nat)
  /-- MTR_CYCLE_END (R402). At a cycle boundary the meters compute per-cycle quantities, accumulate energy and apply holds. -/
  | mtrCycleEnd (sled : Bool) (cross : Bool) (len : Nat) (samples : (List (List Int)))
  /-- FREQ_LOSS_TIMEOUT (R399). 40 ms without a zero crossing makes the frequency invalid. -/
  | freqLossTimeout
  /-- MTR_HALF_CYCLE (R410). Each half cycle the one-cycle RMS is refreshed and sag, swell and interruption events open or close. -/
  | mtrHalfCycle (elem : Nat) (samples : (List Int))
  /-- CF_PULSE_EMIT (R407). A due CF pulse, or one from backlog, is emitted when its output is free. -/
  | cfPulseEmit (k : Nat)
  /-- CF_PULSE_END (R407). A CF pulse's width elapses and the output falls. -/
  | cfPulseEnd (k : Nat)
  /-- MTR_FRAM_FLUSH_TICK (R406). Every 1 s energy registers and remainders are written to FRAM. -/
  | mtrFramFlushTick
  /-- MTR_ECLR (R406). A keyed write clears every energy register and CF count at the next cycle boundary. -/
  | mtrEclr (key : Nat)
  /-- MTR_COMMIT (R401). Commits the metering group for the next cycle boundary, or rejects it. -/
  | mtrCommit
  /-- MTR_CAL_GAIN (R414). Starts gain calibration of an element over N usable cycles. -/
  | mtrCalGain (elem : Nat) (n : Nat)
  /-- MTR_CAL_PHASE (R415). Starts phase calibration of an element over N usable cycles. -/
  | mtrCalPhase (elem : Nat) (n : Nat)
  /-- SLED_P1MS_TICK (R413). Every 1 ms the sled meter sends its mean power to the power cap. -/
  | sledP1msTick
  /-- MTR_CYC_SEQ_READ (R403). Reading MTR_CYC_SEQ latches the value registers for that requester. -/
  | mtrCycSeqRead (requester : Nat)
  /-- RECONCILE_TICK (R421). Each whole second tenant estimates are reconciled against the sled meter and throttles paced. -/
  | reconcileTick
  /-- ACCOUNTING_PERIOD_BOUNDARY (R425). At a period boundary period charges and throttles reset and exhaustion clears. -/
  | accountingPeriodBoundary
  /-- OVERHEAD_ROUND (R431). The chassis manager computes the overhead ratio for a second and sends it in ACKs. -/
  | overheadRound
  /-- OVERHEAD_MISS_TIMEOUT (R432). A second with no VALID ratio within 2 s is counted and charged no overhead. -/
  | overheadMissTimeout (sec : Nat)
  /-- NRG_COMMIT (R427). Commits the energy group at the next reconciliation, or refuses a cap below reservations. -/
  | nrgCommit
  /-- TW_NRG_SEQ_READ (R435). Reading TW_NRG_SEQ latches the tenant-window energy registers. -/
  | twNrgSeqRead (f : Nat) (win : (Option Nat)) (requester : Nat)
  /-- PNL_UPDATE_FULL (R443). Requests a FULL update of the named zones. -/
  | pnlUpdateFull (party : Nat) (zones : Nat)
  /-- PNL_UPDATE_PARTIAL (R443). Requests a PARTIAL update of the named zones. -/
  | pnlUpdatePartial (party : Nat) (zones : Nat)
  /-- PNL_UPDATE_CLEAR (R443). Requests a CLEAR update of the named zones. -/
  | pnlUpdateClear (party : Nat) (zones : Nat)
  /-- PANEL_FRAME_BOUNDARY (R445). Each 20 ms frame drives pixels from the tables, completes updates and publishes energy figures. -/
  | panelFrameBoundary
  /-- PANEL_RAIL_STEP (R441). The next panel rail is enabled or checked, or lowered in reverse order. -/
  | panelRailStep (ok : Bool)
  /-- PANEL_RAIL_HOLD_EXPIRE (R446). After PNL_RAIL_HOLD_MS with no scanning the rails fall. -/
  | panelRailHoldExpire
  /-- PANEL_RAIL_FAULT (R456). A rail out of window stops driving, lowers rails and schedules a retry. -/
  | panelRailFault
  /-- PANEL_RAIL_RETRY (R456). 100 ms after a rail fault the sequence is tried again, or the panel is retired. -/
  | panelRailRetry
  /-- PNL_FB_WRITE (R447). A frame memory write is accepted, or dropped while its zone updates or the writer does not own it. -/
  | pnlFbWrite (party : Nat) (offset : Nat) (value : Word)
  /-- PNL_TBL_COMMIT (R438). Checks a staged table set and applies it when the panel is idle, or rejects it. -/
  | pnlTblCommit (key : Nat)
  /-- PNL_COMMIT (R453). Commits the panel configuration and frontlight group. -/
  | pnlCommit
  /-- PNL_BODY_OWN_WRITE (R451). The PF names the owner of the body zone. -/
  | pnlBodyOwnWrite (owner : Nat)
  /-- PNL_WAKE_PRESS (R454). A debounced press starts a wake period and redraws the status zone. -/
  | pnlWakePress
  /-- PNL_WAKE_EXPIRE (R454). The wake period ends and the frontlight returns to its setting. -/
  | pnlWakeExpire
  /-- MAIN_LOSS (R463). Main below 44 V runs the hardware main-loss sequence and energy hand-off. -/
  | mainLoss
  /-- AUX_LOSS (R459). Aux below 10.2 V changes AUX_GOOD, or with main lost is a Lodge loss. -/
  | auxLoss
  /-- LODGE_LOSS (R466). Loss of both supplies spends the Lodge store on flush, ledger, panel decision, discharge and banner. -/
  | lodgeLoss
  /-- AUX_RETURN (R470). Aux returns; holdup finishes its actions and the Lodge die continues as supplied. -/
  | auxReturn
  /-- LODGE_POWER_UP (R380). The Lodge die powers up, loads coefficients, configuration and energy, and runs calibration and the cold panel sequence. -/
  | lodgePowerUp (aux : Bool) (main : Bool)
  /-- HOLDUP_STORE_REFRESH (R461). Every 1 s the Lodge store voltage is converted and checked. -/
  | holdupStoreRefresh
  /-- MAIN_STORE_CHECK (R465). Every 1 s the main store is checked and T2 writes refused while it fails. -/
  | mainStoreCheck (ok : Bool)
  /-- UPD_BEGIN (R477). Opens an update session and marks the inactive slot INCOMPLETE. -/
  | updBegin
  /-- UPD_WRITE (R478). DMAs and programs a chunk of the image into the inactive slot. -/
  | updWrite (programOk : Bool)
  /-- UPD_END (R477). Closes the session and marks the slot UNVERIFIED. -/
  | updEnd
  /-- UPD_VERIFY (R473). Checks the inactive slot's image and marks it VERIFIED or BAD. -/
  | updVerify (readOk : Bool)
  /-- UPD_ACTIVATE (R477). Writes the trial marker and descriptor and optionally begins a warm start. -/
  | updActivate (now : Bool)
  /-- UPD_CONFIRM (R479). Confirms the trial slot, clears the marker and raises the fuse epoch. -/
  | updConfirm
  /-- UPD_ABORT (R477). Closes the session leaving the slot INCOMPLETE. -/
  | updAbort
  /-- UPD_REVERT (R477). Sets the trial counter to 0 so the next start reverts. -/
  | updRevert
  /-- UPD_SESSION_IDLE_TIMEOUT (R477). A HOST session idle for 60 s is aborted. -/
  | updSessionIdleTimeout
  /-- AUTO_CONFIRM_EXPIRE (R479). FW_AUTO_CONFIRM_S after a trial start firmware confirms by itself. -/
  | autoConfirmExpire
  /-- FW_TRACE_SEL_WRITE (R483). Snapshots a trace record into FW_TRACE_DATA. -/
  | fwTraceSelWrite (index : Nat)
  /-- FW_CERT_COMMIT (R484). A keyed write installs the alias certificate chain or rejects it. -/
  | fwCertCommit (key : Nat)
  /-- HBM_CORRECTED_ERROR (R488). A corrected HBM error is counted and a row with 8 corrections in 1 h starts a repair. -/
  | hbmCorrectedError (pch : Nat) (row : Nat)
  /-- ROW_REPAIR_COMPLETE (R488). A post-package row repair completes and a REPAIR record is queued. -/
  | rowRepairComplete (pch : Nat) (row : Nat)
  /-- HBM_UNCORRECTED_ERROR (R489). An uncorrected HBM error poisons its page and may start a repair or retire the pseudo-channel. -/
  | hbmUncorrectedError (pch : Nat) (row : Nat) (slot : Nat) (obj : Nat) (page : Nat)
  /-- LANE_SER_INTERVAL (R491). Each second a lane's symbol error ratio is judged toward criterion 1. -/
  | laneSerInterval (lane : Nat) (symbols : Nat)
  /-- UNIT_FAULT (R492). A unit fault is handled transiently, quarantined for a test on a second fault, or retired. -/
  | unitFault (type : Nat) (index : Nat) (block : Nat) (lost : Bool) (slot : Nat) (obj : Nat) (page : Nat)
  /-- TARGETED_TEST_COMPLETE (R502). A quarantined unit's full test ends, returning it to service or retiring it. -/
  | targetedTestComplete (type : Nat) (index : Nat) (passed : Bool)
  /-- FLASH_OP_TIMEOUT (R300). A flash channel operation exceeding 20 ms ends FAULT_TIMEOUT and is a channel fault. -/
  | flashOpTimeout (move : Nat)
  /-- HUB_DIE_FAULT (R494). A hub die fault is logged and recorded, ending the affected operation without retirement. -/
  | hubDieFault (src : Nat) (flight : (Option Nat)) (ctx : (Option Nat)) (prog : (Option Nat))
  /-- LEDGER_PROGRAM_COMPLETE (R498). A queued ledger record is programmed into NOR, compacting the ledger when 90% full. -/
  | ledgerProgramComplete (ok : Bool)
  /-- LEDGER_RETRY_TICK (R498). After a NOR programming failure the ledger retries every 10 s. -/
  | ledgerRetryTick
  /-- IST_SLICE_START (R500). A test slice starts on a unit idle long enough, or is forced when coverage is behind. -/
  | istSliceStart (type : Nat) (index : Nat) (forced : Bool)
  /-- IST_SLICE_END (R500). A slice completes, zeroes the tile store and may report an error. -/
  | istSliceEnd (type : Nat) (index : Nat) (failed : Bool)
  /-- PATROL_SCRUB_READ (R503). The patrol scrub reads the next HBM word and writes back corrections at low priority. -/
  | patrolScrubRead (corrected : (Option (Nat × Nat)))
  /-- LANE_EYE_CHECK (R504). Hourly each lane's eye margin is read and a weak lane scheduled for retrain. -/
  | laneEyeCheck (lane : Nat) (margin : Nat) (trained : Nat)
  /-- FLT_UNIT_SEL_WRITE (R505). Snapshots the selected unit's fault state. -/
  | fltUnitSelWrite (type : Nat) (index : Nat)
  /-- FLT_LDG_SEL_WRITE (R505). Snapshots the selected ledger record. -/
  | fltLdgSelWrite (index : Nat)
  /-- STRAP_SAMPLE (R510). The Lodge die samples the straps and applies ROLE_ELIG changes after two equal samples. -/
  | strapSample (straps : Nat) (eligible : Bool) (cables : (BitVec 4))
  /-- LDG_LOCATION_WRITE (R515). The chassis writes the sled's location through the sideband. -/
  | ldgLocationWrite (value : Word)
  /-- SIDEBAND_ADDRESS_WRITE (R514). A sideband address write selects words, writing them when WRITE is set. -/
  | sidebandAddressWrite (bytes : (List Byte))
  /-- SIDEBAND_READ (R514). A sideband read returns the addressed words. -/
  | sidebandRead (length : Nat)
  /-- SETDASA (R513). Assigns the sideband target a dynamic address from its static address. -/
  | setdasa (static : Nat) (dynamic : Nat)
  /-- SETAASA (R513). Makes static addresses the dynamic addresses. -/
  | setaasa
  /-- ENTDAA (R513). Takes part in dynamic address assignment. -/
  | entdaa (dynamic : Nat)
  /-- RSTDAA (R513). Resets the dynamic address. -/
  | rstdaa
  /-- GETPID (R513). Returns the target's provisioned ID. -/
  | getpid
  /-- GETBCR (R513). Returns the bus characteristics register. -/
  | getbcr
  /-- GETDCR (R513). Returns the device characteristics register. -/
  | getdcr
  /-- GETSTATUS (R513). Returns the target's status. -/
  | getstatus
  /-- SVC_PRESENCE_CHANGE (R521). SVC_PRSNT_N changes and the TAPs are held in reset or released. -/
  | svcPresenceChange (present : Bool)
  /-- EXTEST (R521). Boundary-scan EXTEST on the package when unlocked, otherwise BYPASS. -/
  | extest (package : Bool) (din : (List Bool))
  /-- IDCODE (R521). Returns each TAP's identification code. -/
  | idcode (package : Bool)
  /-- SAMPLE_PRELOAD (R521). Boundary-scan sample on the package when unlocked. -/
  | samplePreload (package : Bool) (din : (List Bool))
  /-- REGACC (R522). Reads or writes a PF BAR0 register through JTAG, denied outside SAFE blocks while locked. -/
  | regacc (word : DWord)
  /-- UNLOCK (R523). Returns a nonce and unlocks the sled on a valid debug signature. -/
  | unlock (signature : (List Byte))
  /-- BYPASS (R521). Selects the one-bit bypass register. -/
  | bypass (package : Bool) (din : (List Bool))
  /-- PERSIST_WRITE_COMPLETE (R12). The NOR or FRAM programming of a written PST field finishes and its block's write-complete indication reads 1, making the value durable. -/
  | persistWriteComplete (target : Nat)
  /-- XTAL_STOP (R355). The crystal stops and the Lodge die sets its clock failure, so that no start can begin. -/
  | xtalStop
  /-- XTAL_RETURN (R355). The crystal runs again, clearing the Lodge clock failure and allowing starts to begin. -/
  | xtalReturn
  deriving DecidableEq, Repr

end Sys2Proof
end

