-- ==== Sys2Proof/Decode.lean ====
section
/-! DEFINITION. The decoder. spec/opcode_table.json gives no row any bits ("fields" is empty in every row), so no
word spells a command by the table and the table's decoder refuses every word.  The 64-bit words of cluster programs and
queue programs do spell commands, by chapters 08 and 09: their decoder and encoder follow. -/

namespace Sys2Proof

/-- The command that `nbits` bits spell by the opcode table's numbering: none, since the table gives no row a
bit (log entry 2). -/
def decodeTableWord (_nbits _w : Nat) : Option Instr := none

/-! ### Instruction words (08, Tables CLU-12 and CLU-13; 09, Table QUE-7) -/

/-- The command of cluster or queue program `unit` that a program word spells: bits 63 to 56 are the major, and a major that is not
defined spells none. -/
def decodeProgram (unit : Nat) (word : BitVec 64) : Option Instr :=
  let w := word.extractLsb' 0 56
  match (word.extractLsb' 56 8).toNat with
  | 0x00 => some (.clNop unit w)
  | 0x01 => some (.clAdd unit w)
  | 0x02 => some (.clSub unit w)
  | 0x03 => some (.clMul unit w)
  | 0x04 => some (.clMulh unit w)
  | 0x05 => some (.clMulhu unit w)
  | 0x06 => some (.clDiv unit w)
  | 0x07 => some (.clDivu unit w)
  | 0x08 => some (.clRem unit w)
  | 0x09 => some (.clRemu unit w)
  | 0x0A => some (.clAnd unit w)
  | 0x0B => some (.clOr unit w)
  | 0x0C => some (.clXor unit w)
  | 0x0D => some (.clShl unit w)
  | 0x0E => some (.clShr unit w)
  | 0x0F => some (.clSar unit w)
  | 0x10 => some (.clMin unit w)
  | 0x11 => some (.clMax unit w)
  | 0x12 => some (.clMinu unit w)
  | 0x13 => some (.clMaxu unit w)
  | 0x18 => some (.clAddi unit w)
  | 0x19 => some (.clAndi unit w)
  | 0x1A => some (.clOri unit w)
  | 0x1B => some (.clXori unit w)
  | 0x1C => some (.clShli unit w)
  | 0x1D => some (.clShri unit w)
  | 0x1E => some (.clSari unit w)
  | 0x1F => some (.clLi unit w)
  | 0x20 => some (.clLih unit w)
  | 0x21 => some (.clCmp unit w)
  | 0x22 => some (.clCmpi unit w)
  | 0x23 => some (.clPlog unit w)
  | 0x24 => some (.clMovsys unit w)
  | 0x25 => some (.clClrfl unit w)
  | 0x26 => some (.clTdset unit w)
  | 0x27 => some (.clTdget unit w)
  | 0x28 => some (.clTdadd unit w)
  | 0x29 => some (.clHset unit w)
  | 0x2A => some (.clHget unit w)
  | 0x2B => some (.clHmov unit w)
  | 0x30 => some (.clBr unit w)
  | 0x31 => some (.clBz unit w)
  | 0x32 => some (.clBnz unit w)
  | 0x33 => some (.clLoop unit w)
  | 0x34 => some (.clCall unit w)
  | 0x35 => some (.clJr unit w)
  | 0x36 => some (.clEnd unit w)
  | 0x40 => some (.clTld unit w)
  | 0x41 => some (.clTst unit w)
  | 0x42 => some (.clTcp unit w)
  | 0x43 => some (.clTput unit w)
  | 0x44 => some (.clTget unit w)
  | 0x45 => some (.clTzero unit w)
  | 0x46 => some (.clTwait unit w)
  | 0x47 => some (.clSadv unit w)
  | 0x50 => some (.clMma unit w)
  | 0x51 => some (.clMmaz unit w)
  | 0x52 => some (.clAzero unit w)
  | 0x53 => some (.clAld unit w)
  | 0x54 => some (.clAst unit w)
  | 0x60 => some (.clVadd unit w)
  | 0x61 => some (.clVsub unit w)
  | 0x62 => some (.clVmul unit w)
  | 0x63 => some (.clVfma unit w)
  | 0x64 => some (.clVdiv unit w)
  | 0x65 => some (.clVsqrt unit w)
  | 0x66 => some (.clVmin unit w)
  | 0x67 => some (.clVmax unit w)
  | 0x68 => some (.clVsgn unit w)
  | 0x69 => some (.clVsfu unit w)
  | 0x6A => some (.clVlog unit w)
  | 0x6B => some (.clVcmp unit w)
  | 0x6C => some (.clVsel unit w)
  | 0x6D => some (.clVmov unit w)
  | 0x6E => some (.clVcvt unit w)
  | 0x6F => some (.clVld unit w)
  | 0x70 => some (.clVst unit w)
  | 0x71 => some (.clVlda unit w)
  | 0x72 => some (.clVsta unit w)
  | 0x78 => some (.clVred unit w)
  | 0x79 => some (.clAred unit w)
  | 0x80 => some (.clFence unit w)
  | 0x81 => some (.clSignal unit w)
  | 0x82 => some (.clSwait unit w)
  | 0x83 => some (.clSread unit w)
  | 0x84 => some (.clBar unit w)
  | 0x88 => some (.clKvwait unit w)
  | 0x89 => some (.clKvrel unit w)
  | 0x8A => some (.clKvinfo unit w)
  | 0x90 => some (.clEvinj unit w)
  | 0x91 => some (.clEvinjv unit w)
  | 0xA0 => some (.clCallr unit w)
  | 0xA1 => some (.clCbcast unit w)
  | 0xA2 => some (.clCagath unit w)
  | 0xA3 => some (.clCrdsc unit w)
  | 0xA8 => some (.clTokout unit w)
  | 0xA9 => some (.clEot unit w)
  | 0xC0 => some (.qpQop unit w)
  | 0xC1 => some (.qpAddi unit w)
  | 0xC2 => some (.qpLi unit w)
  | 0xC3 => some (.qpLih unit w)
  | 0xC4 => some (.qpCmp unit w)
  | 0xC5 => some (.qpCmpi unit w)
  | 0xC6 => some (.qpHset unit w)
  | 0xC7 => some (.qpHget unit w)
  | 0xC8 => some (.qpBr unit w)
  | 0xC9 => some (.qpBz unit w)
  | 0xCA => some (.qpBnz unit w)
  | 0xCB => some (.qpLoop unit w)
  | 0xCC => some (.qpCall unit w)
  | 0xCD => some (.qpJr unit w)
  | 0xCE => some (.qpEnd unit w)
  | 0xD0 => some (.qpLd unit w)
  | 0xD1 => some (.qpSt unit w)
  | 0xD8 => some (.qpCmd unit w)
  | 0xD9 => some (.qpCwait unit w)
  | 0xDA => some (.qpCres unit w)
  | 0xE0 => some (.qpLaunch unit w)
  | 0xE1 => some (.qpLaunchs unit w)
  | 0xE2 => some (.qpLwait unit w)
  | 0xE3 => some (.qpLrep unit w)
  | 0xE8 => some (.qpSignal unit w)
  | 0xE9 => some (.qpSwait unit w)
  | 0xEA => some (.qpFence unit w)
  | 0xEB => some (.qpPark unit w)
  | 0xEC => some (.qpTime unit w)
  | 0xF0 => some (.qpKvres unit w)
  | 0xF1 => some (.qpPost unit w)
  | _ => none

/-- The unit and the program word of a command that a program issues. -/
def encodeProgram (i : Instr) : Option (Nat × BitVec 64) :=
  match i with
  | .clNop unit w => some (unit, 0x00#8 ++ w)
  | .clAdd unit w => some (unit, 0x01#8 ++ w)
  | .clSub unit w => some (unit, 0x02#8 ++ w)
  | .clMul unit w => some (unit, 0x03#8 ++ w)
  | .clMulh unit w => some (unit, 0x04#8 ++ w)
  | .clMulhu unit w => some (unit, 0x05#8 ++ w)
  | .clDiv unit w => some (unit, 0x06#8 ++ w)
  | .clDivu unit w => some (unit, 0x07#8 ++ w)
  | .clRem unit w => some (unit, 0x08#8 ++ w)
  | .clRemu unit w => some (unit, 0x09#8 ++ w)
  | .clAnd unit w => some (unit, 0x0A#8 ++ w)
  | .clOr unit w => some (unit, 0x0B#8 ++ w)
  | .clXor unit w => some (unit, 0x0C#8 ++ w)
  | .clShl unit w => some (unit, 0x0D#8 ++ w)
  | .clShr unit w => some (unit, 0x0E#8 ++ w)
  | .clSar unit w => some (unit, 0x0F#8 ++ w)
  | .clMin unit w => some (unit, 0x10#8 ++ w)
  | .clMax unit w => some (unit, 0x11#8 ++ w)
  | .clMinu unit w => some (unit, 0x12#8 ++ w)
  | .clMaxu unit w => some (unit, 0x13#8 ++ w)
  | .clAddi unit w => some (unit, 0x18#8 ++ w)
  | .clAndi unit w => some (unit, 0x19#8 ++ w)
  | .clOri unit w => some (unit, 0x1A#8 ++ w)
  | .clXori unit w => some (unit, 0x1B#8 ++ w)
  | .clShli unit w => some (unit, 0x1C#8 ++ w)
  | .clShri unit w => some (unit, 0x1D#8 ++ w)
  | .clSari unit w => some (unit, 0x1E#8 ++ w)
  | .clLi unit w => some (unit, 0x1F#8 ++ w)
  | .clLih unit w => some (unit, 0x20#8 ++ w)
  | .clCmp unit w => some (unit, 0x21#8 ++ w)
  | .clCmpi unit w => some (unit, 0x22#8 ++ w)
  | .clPlog unit w => some (unit, 0x23#8 ++ w)
  | .clMovsys unit w => some (unit, 0x24#8 ++ w)
  | .clClrfl unit w => some (unit, 0x25#8 ++ w)
  | .clTdset unit w => some (unit, 0x26#8 ++ w)
  | .clTdget unit w => some (unit, 0x27#8 ++ w)
  | .clTdadd unit w => some (unit, 0x28#8 ++ w)
  | .clHset unit w => some (unit, 0x29#8 ++ w)
  | .clHget unit w => some (unit, 0x2A#8 ++ w)
  | .clHmov unit w => some (unit, 0x2B#8 ++ w)
  | .clBr unit w => some (unit, 0x30#8 ++ w)
  | .clBz unit w => some (unit, 0x31#8 ++ w)
  | .clBnz unit w => some (unit, 0x32#8 ++ w)
  | .clLoop unit w => some (unit, 0x33#8 ++ w)
  | .clCall unit w => some (unit, 0x34#8 ++ w)
  | .clJr unit w => some (unit, 0x35#8 ++ w)
  | .clEnd unit w => some (unit, 0x36#8 ++ w)
  | .clTld unit w => some (unit, 0x40#8 ++ w)
  | .clTst unit w => some (unit, 0x41#8 ++ w)
  | .clTcp unit w => some (unit, 0x42#8 ++ w)
  | .clTput unit w => some (unit, 0x43#8 ++ w)
  | .clTget unit w => some (unit, 0x44#8 ++ w)
  | .clTzero unit w => some (unit, 0x45#8 ++ w)
  | .clTwait unit w => some (unit, 0x46#8 ++ w)
  | .clSadv unit w => some (unit, 0x47#8 ++ w)
  | .clMma unit w => some (unit, 0x50#8 ++ w)
  | .clMmaz unit w => some (unit, 0x51#8 ++ w)
  | .clAzero unit w => some (unit, 0x52#8 ++ w)
  | .clAld unit w => some (unit, 0x53#8 ++ w)
  | .clAst unit w => some (unit, 0x54#8 ++ w)
  | .clVadd unit w => some (unit, 0x60#8 ++ w)
  | .clVsub unit w => some (unit, 0x61#8 ++ w)
  | .clVmul unit w => some (unit, 0x62#8 ++ w)
  | .clVfma unit w => some (unit, 0x63#8 ++ w)
  | .clVdiv unit w => some (unit, 0x64#8 ++ w)
  | .clVsqrt unit w => some (unit, 0x65#8 ++ w)
  | .clVmin unit w => some (unit, 0x66#8 ++ w)
  | .clVmax unit w => some (unit, 0x67#8 ++ w)
  | .clVsgn unit w => some (unit, 0x68#8 ++ w)
  | .clVsfu unit w => some (unit, 0x69#8 ++ w)
  | .clVlog unit w => some (unit, 0x6A#8 ++ w)
  | .clVcmp unit w => some (unit, 0x6B#8 ++ w)
  | .clVsel unit w => some (unit, 0x6C#8 ++ w)
  | .clVmov unit w => some (unit, 0x6D#8 ++ w)
  | .clVcvt unit w => some (unit, 0x6E#8 ++ w)
  | .clVld unit w => some (unit, 0x6F#8 ++ w)
  | .clVst unit w => some (unit, 0x70#8 ++ w)
  | .clVlda unit w => some (unit, 0x71#8 ++ w)
  | .clVsta unit w => some (unit, 0x72#8 ++ w)
  | .clVred unit w => some (unit, 0x78#8 ++ w)
  | .clAred unit w => some (unit, 0x79#8 ++ w)
  | .clFence unit w => some (unit, 0x80#8 ++ w)
  | .clSignal unit w => some (unit, 0x81#8 ++ w)
  | .clSwait unit w => some (unit, 0x82#8 ++ w)
  | .clSread unit w => some (unit, 0x83#8 ++ w)
  | .clBar unit w => some (unit, 0x84#8 ++ w)
  | .clKvwait unit w => some (unit, 0x88#8 ++ w)
  | .clKvrel unit w => some (unit, 0x89#8 ++ w)
  | .clKvinfo unit w => some (unit, 0x8A#8 ++ w)
  | .clEvinj unit w => some (unit, 0x90#8 ++ w)
  | .clEvinjv unit w => some (unit, 0x91#8 ++ w)
  | .clCallr unit w => some (unit, 0xA0#8 ++ w)
  | .clCbcast unit w => some (unit, 0xA1#8 ++ w)
  | .clCagath unit w => some (unit, 0xA2#8 ++ w)
  | .clCrdsc unit w => some (unit, 0xA3#8 ++ w)
  | .clTokout unit w => some (unit, 0xA8#8 ++ w)
  | .clEot unit w => some (unit, 0xA9#8 ++ w)
  | .qpQop unit w => some (unit, 0xC0#8 ++ w)
  | .qpAddi unit w => some (unit, 0xC1#8 ++ w)
  | .qpLi unit w => some (unit, 0xC2#8 ++ w)
  | .qpLih unit w => some (unit, 0xC3#8 ++ w)
  | .qpCmp unit w => some (unit, 0xC4#8 ++ w)
  | .qpCmpi unit w => some (unit, 0xC5#8 ++ w)
  | .qpHset unit w => some (unit, 0xC6#8 ++ w)
  | .qpHget unit w => some (unit, 0xC7#8 ++ w)
  | .qpBr unit w => some (unit, 0xC8#8 ++ w)
  | .qpBz unit w => some (unit, 0xC9#8 ++ w)
  | .qpBnz unit w => some (unit, 0xCA#8 ++ w)
  | .qpLoop unit w => some (unit, 0xCB#8 ++ w)
  | .qpCall unit w => some (unit, 0xCC#8 ++ w)
  | .qpJr unit w => some (unit, 0xCD#8 ++ w)
  | .qpEnd unit w => some (unit, 0xCE#8 ++ w)
  | .qpLd unit w => some (unit, 0xD0#8 ++ w)
  | .qpSt unit w => some (unit, 0xD1#8 ++ w)
  | .qpCmd unit w => some (unit, 0xD8#8 ++ w)
  | .qpCwait unit w => some (unit, 0xD9#8 ++ w)
  | .qpCres unit w => some (unit, 0xDA#8 ++ w)
  | .qpLaunch unit w => some (unit, 0xE0#8 ++ w)
  | .qpLaunchs unit w => some (unit, 0xE1#8 ++ w)
  | .qpLwait unit w => some (unit, 0xE2#8 ++ w)
  | .qpLrep unit w => some (unit, 0xE3#8 ++ w)
  | .qpSignal unit w => some (unit, 0xE8#8 ++ w)
  | .qpSwait unit w => some (unit, 0xE9#8 ++ w)
  | .qpFence unit w => some (unit, 0xEA#8 ++ w)
  | .qpPark unit w => some (unit, 0xEB#8 ++ w)
  | .qpTime unit w => some (unit, 0xEC#8 ++ w)
  | .qpKvres unit w => some (unit, 0xF0#8 ++ w)
  | .qpPost unit w => some (unit, 0xF1#8 ++ w)
  | _ => none

/-- The low 56 bits of a format R instruction. -/
def packR (pg : BitVec 3) (pn : BitVec 1) (d a b c : BitVec 5) (sub : BitVec 8) (ty : BitVec 4) (rm : BitVec 3) (f : BitVec 1)
    (mod : BitVec 16) : BitVec 56 := pg ++ pn ++ d ++ a ++ b ++ c ++ sub ++ ty ++ rm ++ f ++ mod

/-- The low 56 bits of a format I instruction. -/
def packI (pg : BitVec 3) (pn : BitVec 1) (d a b c : BitVec 5) (imm : BitVec 32) : BitVec 56 := pg ++ pn ++ d ++ a ++ b ++ c ++ imm

end Sys2Proof
end

