-- ==== Sys2Proof/Config.lean ====
section
/-! DEFINITION. What an implementation fixes and the values the spec leaves open.  An opaque constant has no
body: nothing can be proved of its value, so a statement that mentions one holds for every value. -/

namespace Sys2Proof.Config

/-- Values the hardware draws or produces and the spec does not determine: random numbers, contents the
spec leaves undefined, sizes a codec produces.  Applied to the counter `State.free`, which advances by one
each time (log entry 4). -/
opaque freeNat : Nat → Nat

/-- The same as bits of any width. -/
def freeBits (w k : Nat) : BitVec w := BitVec.ofNat w (freeNat k)

/-- Domain keys that the hub die drew, by 16 × domain + KEYGEN; no register, record or message returns one
(05; log entry 4). -/
opaque domainKey : Nat → BitVec 128

/-- Which FP32 value near the exact result the special function unit gives, by function and operand: the spec
bounds the error and leaves the value (08, R178; log entry 32). -/
opaque sfuPick : Nat → Word → Nat

/-- What a byte of a cluster's tile store holds at launch, by launch of the cluster and byte address: the spec leaves
it unspecified (07; log entry 41). -/
opaque tileFill : Nat → Nat → BitVec 8

/-- Bytes of a page as the page codec stores it, and bytes of the page that stored bytes stand for; the spec bounds the
size and does not give the code (04, R91; log entry 75). -/
opaque packByte : List (BitVec 8) → Nat → BitVec 8
opaque unpackByte : List (BitVec 8) → Nat → BitVec 8

/-- The authentication tag of a JOIN or JOIN_ACK, and the key that a KEY_WRAP carries, as functions of the site secret, the
bytes and the two node IDs: HMAC-SHA-384, HKDF and AES key wrap are not computed here (13, R275, Table HIE-3; log entry
79). -/
opaque joinTag : BitVec 256 → Nat → Nat → Nat → BitVec 128
opaque unwrapKey : BitVec 256 → Nat → Nat → BitVec 192 → Option (BitVec 128)
opaque wrapKey : BitVec 256 → Nat → Nat → BitVec 128 → BitVec 192

/-- SHA-384 of bytes of a memory from an offset, as the number whose byte i is output byte i; the fuse hash of a signing key;
whether the ECDSA signature of an image header verifies: neither SHA-384 nor ECDSA is computed here (23, R473; log entry
88). -/
opaque sha384 : List (Nat × BitVec 8) → Nat → Nat → Nat
opaque fuseHash : Nat → Nat
opaque signatureOk : List (BitVec 8) → Bool

/-- The device identity chain of certificate slot 0, the digest of the boot ROM, the public key of the alias key as a function
of the running image's digest, whether a chain's leaf key is that key, and the responder's signature by certificate slot over
what it signs (15, R316; 23, R484; log entry 88). -/
opaque deviceChain : List Nat
opaque romDigest : Nat
opaque aliasKey : Nat → Nat
opaque leafKey : List (Nat × BitVec 8) → Nat
opaque signature : Nat → List Nat → Nat

/-- The Orangery die, modulo 128, that a page of a slot's object is put on; the last argument is the number of the attempt,
since a retired die is passed over (04; log entry 90). -/
opaque flashDie : Nat → Nat → Nat → Nat → Nat

/-- The Lodge die temperature, in 1/16 °C, that a VALUE of input 9 stands for: the sensor's scale is not given (17, R373; log
entry 93). -/
opaque lodgeTemp : Int → Int

/-- The trimmed ratio of a ΣΔ channel's gain stage to its nominal gain, by channel and gain code, in 2^-32: not
given (17, R370; log entry 93). -/
opaque gainTrim : Nat → Nat → Nat

/-- Stage 2 of the decimation chain, by response and stage 1 results from the newest: the coefficients of the ROM responses
are not given (18, R381; log entry 94). -/
opaque stage2 : Nat → List Int → Int

/-- Rows of a glyph of the panel's glyph ROM, by character and row, the leftmost pixel in bit 7; the level of a pixel of the default
page, by the records it lists; bytes of the factory waveform table set that the spec does not give; PNL_TEMP, in 1/16 °C, of a VALUE
of the thermistor input: ROMs and curves that are not given (21; log entry 98). -/
opaque glyph : Nat → Nat → BitVec 8
opaque pagePixel : List Nat → Nat → BitVec 2
opaque factoryTable : Nat → BitVec 8
opaque thermistor : Int → Int

/-- Row repair spares that a pseudo-channel has as built (24, R488). -/
opaque rowSpares : Nat → Nat

/-- The digest of the Lodge tables region, as a function of what of it the model holds, and of the persistent configuration, as a function
of its cells (23, Table FW-10; log entry 88). -/
opaque lodgeDigest : List Nat → Nat
opaque configDigest : List (Nat × BitVec 64) → Nat

/-- Blocks of an Orangery die, and words of an HBM pseudo-channel that the patrol scrub reads: sizes that are not given (24, R493, R503;
log entry 103). -/
opaque dieBlocks : Nat
opaque channelWords : Nat

/-- The sideband target's provisioned ID, characteristics and status, and the manufacturer identity in the IDCODEs, which the spec does
not give; whether a signature made by the debug key covers a nonce, DEV_BUILD and DEV_REV (25, R513, R521, R523; log entry 110). -/
opaque sbPid : Nat
opaque sbBcr : Nat
opaque sbDcr : Nat
opaque sbStatus : Nat → Nat
opaque jedecId : Nat
opaque debugSignature : Nat → Nat → Nat → List (BitVec 8) → Bool

end Sys2Proof.Config
end

