-- ==== Sys2Proof/Machine/Blocks.lean ====
section
/-! DEFINITION. The state of each block of the sled, as plain data: tenants and their allocations, the prefix
index, request contexts and steps, queues and queue programs. -/

namespace Sys2Proof.Machine

/-! ### Registers (00) -/

/-- The higher words a requester latched by reading the lowest word of a wide register (00, R6). -/
structure Latch where
  requester : Nat
  /-- Address of the lowest word; tenant windows are numbered apart by `window`. -/
  window : Option Nat
  addr : Nat
  words : List Word
  deriving DecidableEq, Repr

/-- A status triple (00, R13), kept apart while a piece of work gathers outcomes (00, R14). -/
structure Status where
  code : Nat
  res : Nat
  detail : Nat
  deriving DecidableEq, Repr

/-! ### Tenancy (03) -/

/-- A reservation vector (03, Table ADM-3), without the slot and spill, which are derived. -/
structure Vec where
  hbm : Nat := 0
  orang : Nat := 0
  wr : Nat := 0
  ctx : Nat := 0
  clu : Nat := 0
  evc : Nat := 0
  link : Nat := 0
  energy : Nat := 0
  queues : Nat := 0
  deriving DecidableEq, Repr

/-- Tenant states other than FREE (03, Table ADM-1); a FREE slot is absent from the slot map. -/
inductive TState where
  | active | parked | dormant | releasing
  deriving DecidableEq, Repr

/-- One grant: an admission or a raise, in order of evaluation (03, R74). -/
structure Grant where
  seq : Nat
  vec : Vec
  deriving DecidableEq, Repr

/-! ### Memory tiers (04) -/

/-- The state of one page, or of a tile object as a whole (04, Table TIER-5). -/
structure Page where
  /-- Home tier, 1 to 4. -/
  tier : Nat
  /-- Host region of a T3 home, or peer node of a T4 home. -/
  loc : Nat := 0
  /-- Destination tier and place of a move in progress. -/
  mv : Option (Nat × Nat) := none
  readLeases : Nat := 0
  stepLeases : Nat := 0
  poison : Bool := false
  /-- Converted to MXFP4 (R92). -/
  lossy : Bool := false
  /-- Bytes the codec stores for it below T1. -/
  stored : Nat := 0
  lastUse : Nat := 0
  deriving DecidableEq, Repr

/-- A window on a STREAM object (04, R89). -/
structure Window where
  holder : Nat
  seg : Nat
  deriving DecidableEq, Repr

/-- The durable image of an object (04, R95). -/
structure Durable where
  data : Memory
  stored : Nat
  deriving DecidableEq, Repr

/-- An object (04). `base` is the state of every page that `pages` does not list. -/
structure Obj where
  size : Nat
  tile : Bool
  flags : Nat
  elem : Nat
  elemAlt : Nat
  segPages : Nat
  gen : Nat
  base : Page
  pages : Map Page := []
  data : Memory := []
  durable : Option Durable := none
  windows : List Window := []
  /-- FREE has run; the pages wait for their leases to end (R101). -/
  freed : Bool := false
  deriving DecidableEq, Repr

/-- A registered host region (04, R97). -/
structure Region where
  base : Nat
  size : Nat
  fn : Nat
  revoked : Bool := false
  backoff : Option Nat := none
  deriving DecidableEq, Repr

/-- Who asked for a move (04, R84, R100, R104). -/
inductive MoveFor where
  | demotion
  | promotion (ctx : Option Nat)
  | place (flight : Nat)
  | flush (flight : Nat)
  | dereg (flight : Nat)
  /-- A promotion that a READ, a WRITE or a tile move waits on. -/
  | access (flight : Nat)
  /-- The fetch of a remote block's page into an image (05, R116, R125). -/
  | image (ctx block group : Nat)
  /-- A tile move of a cluster waits on it. -/
  | tile (cluster token : Nat)
  | retire
  deriving DecidableEq, Repr

/-- A tier move in flight. -/
structure Move where
  id : Nat
  slot : Nat
  obj : Nat
  page : Nat
  src : Nat
  dst : Nat
  dstLoc : Nat
  cause : MoveFor
  reissued : Bool := false
  since : Nat
  /-- Other commands that wait on the same promotion. -/
  waiters : List Nat := []
  /-- Pieces of 64 KiB that the peer of a T4 move has still to answer for, and the stored size sent (12, R263). -/
  parts : Nat := 0
  stored : Option Nat := none
  deriving DecidableEq, Repr

/-! ### Completions and queues (09) -/

/-- A completion record (09, Table QUE-5); `report` is the launch report that follows a KIND 3 entry. -/
structure Completion where
  status : Word
  cmdId : Nat
  kind : Nat
  stop : Nat := 0
  replayed : Bool := false
  seq : Nat := 0
  aux : Nat := 0
  result : Nat := 0
  time : Nat := 0
  report : List Word := []
  deriving DecidableEq, Repr

/-- A completion in the held store, with its queue and whether its command set IRQ (09, R196). -/
structure Held where
  queue : Nat
  irq : Bool
  entry : Completion
  deriving DecidableEq, Repr

/-- Queue states (09, Table QUE-1). -/
inductive QState where
  | unconfigured | active | stopped | error
  deriving DecidableEq, Repr

/-- A committed ring configuration (09, Table QUE-11). -/
structure QCfg where
  crBase : Nat := 0
  cqBase : Nat := 0
  wb : Nat := 0
  crLog : Nat := 0
  cqLog : Nat := 0
  vector : Nat := 0
  modUs : Nat := 0
  deriving DecidableEq, Repr

/-- One queue of a tenant (09, R188). -/
structure Queue where
  st : QState := .unconfigured
  gid : Nat := 0
  engine : Nat := 0
  cfg : QCfg := ⟨0, 0, 0, 0, 0, 0, 0⟩
  /-- A commit waiting for an empty ring, with the staged values it took. -/
  commit : Option QCfg := none
  prod : Nat := 0
  cons : Nat := 0
  head : Nat := 0
  tail : Nat := 0
  seq : Nat := 0
  sems : Map DWord := []
  /-- End of the moderation interval, and whether a raise falls due at its end (R195). -/
  modUntil : Nat := 0
  raiseDue : Bool := false
  /-- A held-store slot was lacking and fetching waits (R197). -/
  slotWait : Bool := false
  /-- Held entries that a commit still has to replay before fetching goes on (R196). -/
  replaying : Nat := 0
  deriving DecidableEq, Repr

/-- Where a command came from: its queue's ring, or a queue program under a command token. -/
inductive CmdSrc where
  | ring
  /-- The tier engine's own flush of a DURABLE object (04, R95). -/
  | auto
  | prog (token : Nat)
  deriving DecidableEq, Repr

/-- A command that has started and not completed. -/
structure Flight where
  id : Nat
  slot : Nat
  queue : Nat
  src : CmdSrc
  op : Nat
  cmdId : Nat
  irq : Bool
  post : Bool
  /-- Tier moves still to end, and the worst status so far. -/
  left : Nat := 0
  status : Status := ⟨0, 0, 0⟩
  /-- Operands the end of the command needs. -/
  args : List Nat := []
  /-- Data that arrived from host memory before the command could use them. -/
  data : Option (List Nat) := none
  deriving DecidableEq, Repr

/-- What a device read of host memory is for (15, R315). -/
inductive ReadFor where
  | write (flight : Nat)
  | turn (flight : Nat)
  | inject (flight : Nat)
  /-- The management core's chunk of an image (23). -/
  | update
  deriving DecidableEq, Repr

/-- A device read of host memory not yet completed. -/
structure HostRead where
  tag : Nat
  fn : Nat
  slot : Nat
  use : ReadFor
  iova : Nat
  len : Nat
  since : Nat
  deriving DecidableEq, Repr

/-- Why a queue program sleeps (09, R200). -/
structure Park where
  wake : Nat
  wakeAt : Option Nat
  dest : Nat
  /-- Causes that have come and not yet woken it. -/
  met : Nat := 0
  deriving DecidableEq, Repr

/-- A token of a queue program: its number and, once the work ended, its status word and RESULT. -/
structure Token where
  num : Nat
  status : Option Word := none
  result : Nat := 0
  report : List Word := []
  deriving DecidableEq, Repr

/-- The register files of a queue program (09). -/
structure QRegs where
  s : Map DWord := []
  p : Map Bool := []
  h : Map DWord := []
  deriving DecidableEq, Repr

/-- A queue program, or a step program when `step` is some (09, R201 to R203). -/
structure QProg where
  slot : Nat
  queue : Nat
  step : Option Nat := none
  engine : Nat := 0
  obj : DWord
  /-- Its instructions. -/
  code : List DWord := []
  regs : QRegs := ⟨[], [], []⟩
  pc : Nat := 0
  /-- QPROG_STOP or parking asked it to stop at its next fence point, since this time. -/
  stopReq : Option Nat := none
  /-- QPROG_STOP asked: the program ends when it stops. -/
  stopEnd : Bool := false
  /-- Stopped at a fence by parking; it resumes after re-attach. -/
  stopped : Bool := false
  parked : Option Park := none
  cmds : List Token := []
  launches : List Token := []
  cmdNext : Nat := 0
  launchNext : Nat := 0
  /-- The flight of the QPROG_RUN that started it. -/
  flight : Nat := 0
  /-- Its CMD, LAUNCH or POST waits for a held-store slot (R197). -/
  slotWait : Bool := false
  deriving DecidableEq, Repr

/-! ### The prefix store (05) -/

/-- Index entry states other than FREE (05, Table PFX-4). -/
inductive EState where
  | published | evicting
  deriving DecidableEq, Repr

/-- An index entry (05, Table PFX-3). -/
structure Entry where
  hash : BitVec 128
  dom : Nat
  keygen : Nat
  owner : Nat
  /-- Slot of the PUBLISHER; none for an ORPHAN entry. -/
  publisher : Option Nat
  st : EState := .published
  pins : Nat := 0
  children : Nat := 0
  parent : Option Nat := none
  /-- Object index, in the publisher's object table, of the block's pages. -/
  block : Nat
  lastUse : Nat := 0
  cause : Nat := 0
  /-- Handle of an ORPHAN entry's pages while they had a publisher. -/
  handle : DWord := 0
  deriving DecidableEq, Repr

/-- Pins of a remote requester (05, R121, R122). -/
structure RLease where
  id : Nat
  node : Nat
  entries : List Nat
  heard : Nat
  deriving DecidableEq, Repr

/-- One directory entry of a manager (05, R121). -/
structure DirEnt where
  hash : DWord
  dom : Nat
  keygen : Nat
  holder : Nat
  deriving DecidableEq, Repr

/-- A directory query, or a pin request to a holder, that a lookup waits on (05, R121). -/
structure DirWait where
  id : Nat
  ctx : Nat
  /-- The turn whose lookup it is. -/
  turn : Nat
  /-- The holder asked to pin; none for a query. -/
  holder : Option Nat
  dom : Nat
  keygen : Nat
  scope : Nat
  /-- Block number of the first hash. -/
  first : Nat
  hashes : List (BitVec 128)
  deriving DecidableEq, Repr

/-- One page of a step's KV schedule (05, R119). -/
structure KvPage where
  step : Nat
  ctx : Nat
  block : Nat
  group : Nat
  deadline : Nat
  issue : Nat
  /-- Home tier at issue. -/
  tier : Nat
  issued : Bool := false
  late : Bool := false
  delivered : Bool := false
  deriving DecidableEq, Repr

/-- The prefix store (05). -/
structure Pfx where
  entries : Map Entry := []
  /-- Domain keys drawn or delivered since manufacture, by 16 × domain + KEYGEN. -/
  keys : Map (BitVec 128) := []
  /-- KEYGEN in force, by domain. -/
  keygen : Map Nat := []
  leases : List RLease := []
  nextLease : Nat := 1
  dir : List DirEnt := []
  waits : List DirWait := []
  /-- Queries passed to the manager above: their ID here, and the asker, its ID and its RTAG. -/
  relays : List (Nat × Nat × Nat × Nat) := []
  nextQuery : Nat := 0
  /-- Publications (true) and evictions of SITE blocks not yet announced. -/
  announce : List (Bool × Nat × Nat × DWord) := []
  announceAt : Option Nat := none
  kv : List KvPage := []
  /-- Page objects of ORPHAN entries, by entry, charged to no tenant (R118). -/
  orphans : Map Obj := []
  deriving DecidableEq, Repr

/-! ### Contexts, models and steps (06) -/

/-- One layer group of a model descriptor (06, Table SCH-1). -/
structure GroupDesc where
  prog : DWord
  c0 : Nat
  c1 : Nat
  c2 : Nat
  deriving DecidableEq, Repr

/-- A loaded model slot (06, R127). -/
structure Model where
  slot : Nat
  handle : DWord
  tag : BitVec 128
  kvFormat : Nat
  kvFlags : Nat
  kvBytes : Nat
  maxLen : Nat
  maxBatch : Nat
  minFill : Nat
  maxPadded : Nat
  chunk : Nat
  clusters : Nat
  stepProg : DWord
  actBytes : Nat
  groups : List GroupDesc
  deriving DecidableEq, Repr

/-- Context states other than FREE (06, Table SCH-3). -/
inductive CState where
  | idle | ready | running | frozen
  deriving DecidableEq, Repr

/-- A block of a context: a pinned index entry, a block of a remote lease, or private pages (an object). -/
inductive BlockRef where
  | entry (n : Nat)
  | remote (lease holder n : Nat)
  | priv (obj : Nat)
  deriving DecidableEq, Repr

/-- One full block of a context's chain: its hash, the scope and the KEYGEN it was hashed under (05, R107). -/
structure Link where
  hash : BitVec 128
  scope : Nat
  keygen : Nat
  deriving DecidableEq, Repr

/-- A turn: the operands of its TURN and what it has gathered (09, Table QUE-4; 00, R14). -/
structure Turn where
  /-- The flight of its TURN command. -/
  flight : Nat
  cmdId : Nat
  irq : Bool
  seq : Nat
  scope : Nat
  cls : Nat
  tokens : Bool
  count : Nat
  maxNew : Nat
  stops : List Nat
  input : List Nat := []
  fetched : Bool := false
  /-- The lookup of stage 2 has run and the turn is bound (02, Table DEV-30). -/
  matched : Bool := false
  cancelled : Bool := false
  outcomes : List Status := []
  deriving DecidableEq, Repr

/-- What a context keeps of a step that was cut (06, R137; 02, R53). -/
structure Resume where
  /-- The step that was cut, the first group not completed, and its input tokens in the step. -/
  step : Nat
  first : Nat
  tokens : Nat
  produces : Bool
  /-- The cut was a reset, so the resume step is its one repeat; the cluster that reset. -/
  retry : Bool := false
  avoid : Option Nat := none
  deriving DecidableEq, Repr

/-- A request context (06, Table SCH-2). -/
structure Ctx where
  st : CState := .idle
  slot : Nat
  model : Nat
  queue : Nat
  cls : Nat := 0
  prio : Nat := 0
  durable : Bool := false
  cut : Bool := false
  needPrefill : Bool := false
  length : Nat := 0
  turnSeq : Nat := 0
  turnNew : Nat := 0
  lastToken : Nat := 0
  readySince : Nat := 0
  stepS : Nat := 0
  lateUs : Nat := 0
  delayUs : Nat := 0
  preempts : Nat := 0
  retries : Nat := 0
  stop : Nat := 0
  lastStatus : Word := 0
  steps : Nat := 0
  user : BitVec 128 := 0
  /-- Token IDs in the context, in order. -/
  ids : List Nat := []
  /-- Token IDs the next steps take as input, in order: a generated token fed back, then turn input (R42). -/
  todo : List Nat := []
  /-- The first of them is a generated token. -/
  fed : Bool := false
  /-- Turns taken so far, which numbers them from 1 (log entry 22). -/
  turns : Nat := 0
  /-- Since when it ranked first but was not planned (R138), and the resource it waits on. -/
  blockedSince : Option (Nat × Nat) := none
  blocks : List BlockRef := []
  /-- The chain of its full blocks, in order (05, R105). -/
  chain : List Link := []
  /-- Scope at which the current turn's blocks are published; 3 none (05, R107, R108). -/
  pub : Nat := 3
  /-- Full blocks whose publication is due, by block number (02, R44). -/
  due : List Nat := []
  act : Option Nat := none
  /-- Handle of the device's own block list object; its value is not stated (log entry 42). -/
  blocksHandle : DWord := 0
  turn : Option Turn := none
  waiting : List Turn := []
  /-- The state to return to at re-attach (R130). -/
  frozenFrom : CState := .idle
  /-- CTX_CLEAR (false) and CTX_CLOSE (true) commands waiting for the step to end, with their flights. -/
  clearing : List (Bool × Nat) := []
  /-- Lease images in T1 of pinned blocks' pages, by block number and group (05, R116). -/
  images : List (Nat × Nat) := []
  step : Option Nat := none
  /-- Data of the lease images, by 65,536 × (256 × block + group) + offset. -/
  imageData : Memory := []
  /-- The step a cut left unfinished (R137). -/
  resume : Option Resume := none
  deriving DecidableEq, Repr

/-- Kinds of step (09, R203). -/
inductive StepKind where
  | decode | prefill | resume
  deriving DecidableEq, Repr

/-- One entry of a step's batch. -/
structure StepEntry where
  ctx : Nat
  /-- Input tokens of the context in the step. -/
  tokens : Nat
  /-- The step must generate a token for it (R135, R186). -/
  produces : Bool
  /-- A held-store slot is reserved for its token completion (09, R197). -/
  reserved : Bool
  deriving DecidableEq, Repr

/-- How a running step is to end before its last group: at a cut, or at a reset (R137; 02, R53). -/
inductive StepCut where
  | cut (first : Nat)
  | reset (first : Nat) (st : Status) (cluster : Option Nat)
  deriving DecidableEq, Repr

/-- A planned or running step (06, R131 to R137). -/
structure Step where
  model : Nat
  kind : StepKind
  entries : List StepEntry
  clusters : List Nat
  /-- The step it follows on the same cluster group. -/
  after : Option Nat
  standing : Nat
  startS : Nat
  /-- First group to run, and the durations in ns from it on. -/
  first : Nat
  taus : List Nat
  tokens : Nat
  lmax : Nat
  running : Bool := false
  started : Nat := 0
  engine : Nat := 0
  /-- Groups completed. -/
  done : Nat := 0
  /-- Start of the group that runs. -/
  groupAt : Nat := 0
  /-- When preemption notice was given. -/
  notice : Option Nat := none
  cutAt : Option StepCut := none
  /-- A running group was discarded. -/
  lost : Bool := false
  /-- This step repeats a group that a reset interrupted. -/
  isRetry : Bool := false
  /-- Tokens and end-of-turn marks recorded, by batch entry (08, R186). -/
  tokOut : Map Nat := []
  eot : List Nat := []
  /-- Failing statuses of its launches and its program. -/
  words : List Status := []
  /-- The step program has ended. -/
  ended : Bool := false
  /-- Pages under step leases, by slot and object (R85). -/
  leases : List (Nat × Nat) := []
  deriving DecidableEq, Repr

/-- The batch former (06). -/
structure Sch where
  models : Map Model := []
  ctxs : Map Ctx := []
  steps : Map Step := []
  nextStep : Nat := 0
  /-- Start of the 10 ms window in force, and cluster-nanoseconds used in it by slot (03, R67). -/
  window : Nat := 0
  used : Map Nat := []
  /-- Prefill nanoseconds of the window, by first cluster of the group (R135). -/
  prefill : Map Nat := []
  deriving DecidableEq, Repr

/-! ### Clusters and launches (07) -/

/-- A decoded tile descriptor (07, Table CLU-3). -/
structure Tile where
  base : Nat
  rows : Nat
  cols : Nat
  fmt : Nat
  stride : Nat
  alt : Nat
  deriving DecidableEq, Repr

/-- What a move in flight does, with the operands captured at issue (07, R156; 08, R169). -/
inductive TileOp where
  /-- From an object: slot, object, offset and row stride in bytes. -/
  | load (slot obj off rs : Nat) (dst : Tile)
  | store (src : Tile) (slot obj off rs : Nat)
  /-- Between tile stores of clusters of this sled. -/
  | copy (from_ : Nat) (src : Tile) (to_ : Nat) (dst : Tile)
  | zero (dst : Tile)
  /-- To or from a rank of another sled. -/
  | put (rank : Nat) (src dst : Tile)
  | get (rank : Nat) (src dst : Tile)
  /-- A collective, by its position in the launch's sequence. -/
  | coll (pos : Nat)
  deriving DecidableEq, Repr

/-- A tile move or collective in flight. -/
structure TileMove where
  /-- Number of its issue in the cluster; the token is this modulo 65,536. -/
  num : Nat
  index : Nat
  major : Nat
  op : TileOp
  /-- What other sleds have not yet answered: bytes of a get, or 1. -/
  left : Nat := 0
  /-- RTAG of its last flit (12, R264). -/
  tag : Nat := 0
  status : Status := ⟨0, 0, 0⟩
  deriving DecidableEq, Repr

/-- What holds a rank's issue (08, sync class). -/
inductive Wait where
  | move (token : Nat) (check : Bool) (d : Nat)
  | sem (n : Nat) (v : DWord)
  | bar
  | fence
  | fin
  | kv (page : Nat) (d : Nat)
  deriving DecidableEq, Repr

/-- A signal that waits for the signaller's earlier moves (07, Table CLU-6). -/
structure Signal where
  rank : Nat
  sem : Nat
  delta : Word
  /-- Moves of the cluster issued before it. -/
  before : Nat
  deriving DecidableEq, Repr

/-- A collective as one rank issued it (08, R184). -/
structure Coll where
  major : Nat
  sub : Nat
  root : Nat
  a : Tile
  b : Option Tile
  deriving DecidableEq, Repr

/-- A cluster in a launch (07, Table CLU-1); the maps list what is not zero. -/
structure Cluster where
  launch : Nat
  rank : Nat
  pc : Nat := 0
  s : Map DWord := []
  p : Map DWord := []
  /-- Lane n of register r, by 64 × r + n. -/
  v : Map Word := []
  t : Map DWord := []
  /-- Element (row, column) of accumulator a, by 16,384 × a + 128 × row + column. -/
  a : Map Word := []
  h : Map DWord := []
  /-- Bytes of the tile store written since launch, by byte address, and the number of this launch of the cluster, by
  which the rest are free values (log entry 41). -/
  tile : Map Byte := []
  fill : Nat
  sems : Map DWord := []
  flags : Nat := 0
  /-- Generators of R152, by lane, once drawn from. -/
  rng : Map Word := []
  moves : List TileMove := []
  /-- Moves that ended in class 0x2 or above and were not waited on. -/
  failed : List TileMove := []
  /-- Moves issued. -/
  issued : Nat := 0
  sigs : List Signal := []
  bars : Nat := 0
  colls : List Coll := []
  /-- Oldest page not released (08, R182). -/
  kvRel : Nat := 0
  /-- Events in the cluster's event port (08, R183). -/
  port : List Word := []
  wait : Option (Wait × Nat) := none
  ended : Bool := false
  deriving DecidableEq, Repr

/-- A page of a launch's delivery ring (08, Table CLU-25). -/
structure LPage where
  ctx : Nat
  block : Nat
  entry : Nat
  valid : Nat
  priv : Bool
  deriving DecidableEq, Repr

/-- The fault that ends a launch (07, R162). -/
structure LFault where
  st : Status
  rank : Nat
  cluster : Nat
  index : Nat
  major : Nat
  since : Nat
  deriving DecidableEq, Repr

/-- A launch that waits for clusters or runs (07; 09, Table QUE-8). -/
structure Launch where
  slot : Nat
  /-- The program that issued it, and its launch token. -/
  prog : Nat
  token : Nat
  report : Bool
  /-- Step and group, for LAUNCHS. -/
  step : Option (Nat × Nat) := none
  handle : DWord
  code : List DWord := []
  handles : List DWord
  args : List DWord
  seed : DWord
  group : Nat
  slots : Nat := 0
  /-- Node and clusters of each sled of a span, and this sled's place among them (R160). -/
  span : List (Nat × Nat) := []
  place : Nat := 0
  spanId : Nat := 0
  /-- µs and ms (07, R159). -/
  waitLimit : Nat
  timeLimit : Nat
  issuedAt : Nat
  started : Option Nat := none
  clusters : List Nat := []
  /-- Clusters not to run on again (07, R163). -/
  avoid : List Nat := []
  fault : Option LFault := none
  /-- When preemption notice was given. -/
  notice : Option Nat := none
  retried : Bool := false
  startWait : Nat := 0
  kvWait : Nat := 0
  flags : Nat := 0
  outcomes : List Status := []
  pages : List LPage := []
  /-- Barriers that the other sleds of a span have come to, by node (12, SPAN_BAR). -/
  barsIn : List (Nat × Nat) := []
  /-- Barriers announced to them. -/
  barSent : Nat := 0
  /-- Collective data that came before every rank of this sled had issued: whether final, position, offset, words. -/
  collIn : List (Bool × Nat × Nat × List Nat) := []
  /-- Pages under read leases. -/
  leases : List (Nat × Nat × Nat) := []
  deriving DecidableEq, Repr

/-! ### Event fabric (10) -/

/-- An event with its timestamp word, its owner's slot, when it came to where it waits, and its router hops. -/
structure Ev where
  word : Word
  ts : Option Word := none
  slot : Nat
  since : Nat := 0
  hops : Nat := 0
  deriving DecidableEq, Repr

/-- A route entry (10, Table EVF-4) in a bank of a table: router 0 to 511, or 512 for the ingress table. -/
structure Route where
  bank : Nat
  slot : Nat
  node : Nat
  key : Nat
  mask : Nat
  outs : Nat
  aux : Nat
  deriving DecidableEq, Repr

/-- Events gathered for one node and one owner (10, R217). -/
structure Batch where
  node : Nat
  slot : Nat
  events : List Ev
  since : Nat
  deriving DecidableEq, Repr

/-- The state of a neuron (10). -/
structure Neuron where
  v : Int
  tLast : Nat
  rEnd : Nat
  deriving DecidableEq, Repr

/-- An event core (10). -/
structure ECore where
  slot : Option Nat := none
  epoch : Nat := 0
  asleep : Bool := false
  /-- The flight of the EV_CORE_LOAD that is loading it. -/
  loading : Option Nat := none
  /-- Its weights or parameters must be loaded again (R227). -/
  reload : Bool := false
  axonBlk : Option Nat := none
  outBlk : Nat := 0
  weights : Memory := []
  params : Memory := []
  /-- t_last of the neurons that `neurons` does not list, whose V and r_end are 0. -/
  t0 : Nat := 0
  neurons : Map Neuron := []
  lastIn : Nat := 0
  deriving DecidableEq, Repr

/-- A telemetry source of a tenant (10, R224). -/
structure Telem where
  key : Nat
  period : Nat
  /-- The value that events have accounted for. -/
  seen : Option Int
  since : Nat
  deriving DecidableEq, Repr

/-- A route write that waits for the other bank to be STAGED: its flight, none for the device's own removal. -/
structure RouteWrite where
  slot : Nat
  flight : Option Nat
  routes : List Route
  deriving DecidableEq, Repr

/-- The event fabric (10). -/
structure Fab where
  routes : List Route := []
  queued : List (EvPoint × Ev) := []
  /-- Spill FIFOs: the spill point and the event, oldest first. -/
  spilled : List (EvPoint × Ev) := []
  batches : List Batch := []
  cores : Map ECore := []
  telem : Map Telem := []
  writes : List RouteWrite := []
  /-- EV_COMMIT flights waiting for a flip, and a flip asked for by EVF_COMMIT or the device. -/
  commits : List Nat := []
  flip : Bool := false
  /-- Nodes lost, whose events are dropped (10, When a destination sled is lost). -/
  lost : List Nat := []
  deriving DecidableEq, Repr

/-- A ring in host memory that the fabric writes (10, R216; 11, R241). -/
structure EvRing where
  base : Nat
  wb : Nat
  log : Nat
  vec : Nat
  /-- Parking discards the configuration (R229, 11). -/
  live : Bool := true
  lastVec : Option Nat := none
  deriving DecidableEq, Repr

/-! ### Sensor ports and windows (11) -/

/-- A pixel mapping (11, R235, Table ESP-4). -/
structure PixMap where
  sx : Nat
  sy : Nat
  pol : Nat
  group : Nat
  base : Nat
  x0 : Nat
  x1 : Nat
  y0 : Nat
  y1 : Nat
  marker : Nat
  settle : Nat
  deriving DecidableEq, Repr

/-- An I3C list that waits or runs (11, R236). -/
structure I3cList where
  flight : Nat
  entries : List DWord
  immediate : Bool
  acceptedAt : Nat
  idx : Nat := 0
  /-- First attempt of the transfer that runs. -/
  since : Nat := 0
  data : List Nat := []
  /-- The settings epoch it began. -/
  epoch : Nat := 0
  deriving DecidableEq, Repr

/-- An event sensor port (11). -/
structure Port where
  map : Option PixMap := none
  /-- Staged mapping: its flight, when it was accepted. -/
  nextMap : Option (Nat × Nat × PixMap) := none
  staged : Option I3cList := none
  run : Option I3cList := none
  /-- A staged list's settings gap: begun, and its end once the list has made its last transfer. -/
  settling : Bool := false
  settleEnd : Option Nat := none
  fifo : List Ev := []
  /-- Time of the first word dropped and how many (R237); a relock has 0. -/
  above : Option (Nat × Nat) := none
  syncRun : Nat := 0
  everLocked : Bool := false
  /-- When the settings epoch last changed, and its value before. -/
  epochAt : Nat := 0
  epochPrev : Nat := 0
  /-- A list whose boundary has come and that waits for the controller. -/
  ready : Option I3cList := none
  /-- An over-current trip keeps the supply off until PWR_EN is written 1 again (R243). -/
  tripped : Bool := false
  deriving DecidableEq, Repr

/-- A configuration of a window group (11, Table ESP-4). -/
structure GroupCfg where
  first : Nat
  count : Nat
  period : Nat
  phase : Nat
  late : Nat
  deriving DecidableEq, Repr

/-- What a window group counts in one window (11, R238, Table ESP-3). -/
structure Bank where
  cfg : GroupCfg
  start : Nat
  len : Nat
  counts : Map Nat := []
  sums : Map Int := []
  sat : List Nat := []
  lateIn : Bool := false
  settle : Bool := false
  above : List Nat := []
  mixed : List Nat := []
  /-- Settings epochs of the ports at its end. -/
  epochs : Nat × Nat := (0, 0)
  deriving DecidableEq, Repr

/-- A window group of a tenant (11). -/
structure Group where
  slot : Nat
  cfg : GroupCfg
  /-- A staged change; none inside releases the group. -/
  next : Option (Option GroupCfg) := none
  seq : Nat := 0
  cur : Bank
  closing : Option Bank := none
  lost : Nat := 0
  deriving DecidableEq, Repr

/-! ### Links (12) -/

/-- A DATA flit above the link level: the fields of Table LNK-1 but KIND, AV, SEQ, ACK and RPL. -/
structure Flit where
  cls : Nat
  vc : Nat := 0
  epoch : Nat := 0
  dst : Nat
  src : Nat
  tenant : Nat := 0
  hops : Nat := 0
  ocls : Nat := 0
  nepoch : Nat := 0
  rtag : Nat := 0
  payload : BitVec 864
  deriving DecidableEq, Repr

/-- A flit at a router output, since when, and the port and virtual channel whose buffer it fills here; none for a flit
injected here. -/
structure QFlit where
  flit : Flit
  since : Nat
  origin : Option (Nat × Nat) := none
  deriving DecidableEq, Repr

/-- A link port (12). LNK_PORT_STATUS holds its state, width and retired lanes. The maps are indexed by virtual channel,
2 × class + VC. -/
structure LPort where
  /-- SEQ of the next flit sent, and expected next. -/
  txSeq : Nat := 0
  rxSeq : Nat := 0
  /-- Flits are discarded until the one with the expected SEQ comes (R250). -/
  seeking : Bool := false
  /-- The retry buffer, oldest first. -/
  unacked : List (Nat × Flit) := []
  /-- Replays since the acknowledgement last advanced, and when it did. -/
  replays : Nat := 0
  ackAt : Nat := 0
  queue : List QFlit := []
  /-- The virtual channel that the round robin of R255 granted last. -/
  turn : Nat := 11
  /-- Credits (R252): the peer's depths and freed counts, flits sent, and flits freed here. -/
  depth : Map Nat := []
  freedPeer : Map Nat := []
  sent : Map Nat := []
  freed : Map Nat := []
  /-- The peer's retired lanes (R260). -/
  peerMask : Nat := 0
  /-- The next equalisation is full (LNK_PORT_CTRL). -/
  fullEq : Bool := false
  /-- START_SEQ of the peer. -/
  peerStart : Nat := 0
  deriving DecidableEq, Repr

/-- Which piece of work a request onto the links belongs to. -/
inductive ReqFor where
  | move (id : Nat)
  | query (id : Nat)
  | tile (launch cluster num : Nat)
  | coll (launch pos : Nat)
  | hier (id : Nat)
  deriving DecidableEq, Repr

/-- A request that carried an RTAG, and the node epoch it carried (R258). -/
structure Req where
  tag : Nat
  dest : Nat
  epoch : Nat
  use : ReqFor
  deriving DecidableEq, Repr

/-- What this sled knows of another node. -/
structure PeerInfo where
  /-- Its node epoch; 0 not learned. -/
  epoch : Nat := 0
  heard : Nat := 0
  startSeq : Option Nat := none
  deriving DecidableEq, Repr

/-- A page that arrives from another node, or that this sled holds for it (R263). -/
structure Xfer where
  node : Nat
  move : Nat
  handle : DWord
  page : Nat
  stored : Nat
  crc : Word
  data : Memory := []
  /-- RTAG of its flits. -/
  tag : Nat := 0
  /-- Offsets and lengths that have come. -/
  got : List (Nat × Nat) := []
  whole : Bool := false
  /-- The tier that holds it here. -/
  tier : Nat := 1
  heard : Nat
  deriving DecidableEq, Repr

/-- The time exchange (R266, R268). -/
structure TimeSync where
  seq : Nat := 0
  /-- T1 of the exchange that waits for its answer. -/
  t1 : Option Nat := none
  misses : Nat := 0
  /-- The first lock after the start has been made. -/
  locked : Bool := false
  /-- TB of the last rising edge of PPS_IN (26, Table ELC-8). -/
  pps : Option Nat := none
  /-- Still to slew, and the part of a µs that TB has gained, in hundredths of a link tick. -/
  slew : Int := 0
  phase : Int := 0
  deriving DecidableEq, Repr

/-- The links (12). -/
structure Lnk where
  ports : Map LPort := []
  peers : Map PeerInfo := []
  /-- Route entries, by 512 × bank + index: ROW from 0, CHASSIS from 32, SLED from 96. -/
  routes : Map DWord := []
  /-- Route writes held until the other bank is STAGED (R262). -/
  held : List (Nat × DWord) := []
  /-- The flip time and the new E, where one was named. -/
  flipAt : Option (Nat × Option Nat) := none
  flippedAt : Nat := 0
  /-- The newest route generation, and the entries of it that are staged (R278). -/
  rtGen : Nat := 0
  rtHave : List Nat := []
  reqs : List Req := []
  nextTag : Nat := 1
  /-- Pages held for other nodes, and pages on their way here. -/
  lent : List Xfer := []
  fetches : List Xfer := []
  sync : TimeSync := {}
  /-- The last PONG: node, tag and the peer's TB. -/
  pong : Option (Nat × Nat × Nat) := none
  deriving DecidableEq, Repr

/-! ### Managers and workers (13) -/

/-- A hierarchy request that waits for its answer (Table HIE-3). -/
structure HReq where
  tag : Nat
  dest : Nat
  type : Nat
  xs : List Nat
  since : Nat
  tries : Nat := 0
  deriving DecidableEq, Repr

/-- This sled's own candidacy at a level (R273). -/
structure Election where
  term : Nat
  since : Nat
  bestKey : Nat
  bestNode : Nat
  deriving DecidableEq, Repr

/-- What a manager knows of a member from its STATUS (R275, R278; 20, R430). -/
structure Member where
  hbm : Nat := 0
  clu : Nat := 0
  lend1 : Nat := 0
  lend2 : Nat := 0
  /-- Peer node of each port, 0 none. -/
  ports : List Nat := []
  heard : Nat := 0
  /-- Snapshots of its sled energy, newest first: TB in µs and µJ. -/
  snaps : List (Nat × Nat) := []
  meterOk : Bool := false
  deriving DecidableEq, Repr

/-- A JOIN series under way at its manager (R276). -/
structure JoinSeries where
  node : Nat
  level : Nat
  since : Nat
  total : Nat
  next : Nat
  bases : List Nat
  deriving DecidableEq, Repr

/-- A rollout at the site manager (R286, R287). -/
structure Rollout where
  /-- MOVE_ID, version, size and SHA-384 digest of the image. -/
  move : Nat := 0
  version : Nat := 0
  size : Nat := 0
  digest : List Nat := []
  /-- Sleds offered to and when, and sleds reported with their status codes. -/
  sent : List (Nat × Nat) := []
  reported : List (Nat × Nat) := []
  failures : Nat := 0
  /-- Sleds of each wave (Table HIE-2). -/
  plan : List (List Nat) := []
  deriving DecidableEq, Repr

/-- A rollout at a sled that follows an OFFER (R286). -/
structure Follow where
  mgr : Nat
  rtag : Nat
  wave : Nat
  move : Nat
  version : Nat
  size : Nat
  digest : List Nat
  /-- Bytes of the image that have come. -/
  data : Memory := []
  got : List (Nat × Nat) := []
  /-- ACTIVATE has come, and since when it waits for its tenants to leave. -/
  drainAt : Option Nat := none
  activated : Bool := false
  deriving DecidableEq, Repr

/-! ### A tenant slot -/

/-- A tenant slot that is not FREE. -/
structure Tenant where
  id : Nat
  /-- Other sleds that hold slots of the tenant, and the home sled of a member's slot (13, R282, R283). -/
  members : List Nat := []
  home : Option Nat := none
  cls : Nat
  prio : Nat := 0
  domain : Nat := 0
  st : TState := .active
  vec : Vec := ⟨0, 0, 0, 0, 0, 0, 0, 0, 0⟩
  spill : Nat := 0
  /-- The attach token; it stands for the keyed digest the Gatehouse keeps (R55, log entry 12). -/
  token : DWord := 0
  /-- Function of record (R62). -/
  recFn : Nat := 0
  /-- Function it is attached through. -/
  fn : Option Nat := none
  admSeq : Nat := 0
  admAt : Nat := 0
  holdS : Nat := 0
  graceAt : Option Nat := none
  grants : List Grant := []
  /-- The tenant's own registers and counters of its window, by window offset. -/
  regs : RegFile := []
  objs : Map Obj := []
  gens : Map Nat := []
  hiIdx : Nat := 0
  regions : Map Region := []
  queues : Map Queue := []
  held : List Held := []
  /-- Day of the timebase and bytes written to T2 in it (04, R91, R94). -/
  wrDay : Nat := 0
  wrUsed : Nat := 0
  /-- Held-store slots reserved by work in flight (09, R197). -/
  heldResv : Nat := 0
  /-- New events are refused until spill use falls below half (10, R222). -/
  evRefusing : Bool := false
  evRing : Option EvRing := none
  winRing : Option EvRing := none
  deriving DecidableEq, Repr

/-- A mailbox reply or a notice (03, Table ADM-6). -/
structure Reply where
  status : Word := 0
  op : Nat := 0
  deferFull : Bool := false
  rotated : Bool := false
  seq : Nat := 0
  amount : Nat := 0
  tenantId : Nat := 0
  slot : Nat := 0
  st : Nat := 0
  token : DWord := 0
  ticket : Nat := 0
  queuePos : Nat := 0
  estWaitMs : Nat := 0
  spill : Nat := 0
  held : Nat := 0
  deriving DecidableEq, Repr

/-- A mailbox request: the operation, the window GO was written through (a tenant slot for a PF tenant
window), and the record. -/
structure MbReq where
  op : Nat
  fn : Nat
  win : Option Nat := none
  req : AdmReq
  deriving DecidableEq, Repr

/-- A deferred request (03, R65). -/
structure Deferred where
  ticket : Nat
  arrived : Nat
  mb : MbReq
  deriving DecidableEq, Repr

/-- Capacity being zeroised, and what it frees when it ends: a tenant slot (03, R71), an object of a slot (04,
R101), or the pages of an ORPHAN entry (05, R118). -/
structure ZeroJob where
  id : Nat
  slot : Option Nat
  vec : Vec
  spill : Nat
  obj : Option (Nat × Nat) := none
  orphan : Option Nat := none
  deriving DecidableEq, Repr

/-- ATTACH failures of one tenant ID (03, R72). -/
structure AttachFail where
  times : List Nat := []
  lockUntil : Option Nat := none
  deriving DecidableEq, Repr

/-- Capacity a span member holds until its manager decides (13, R282). -/
structure SpanHold where
  /-- The span transaction and the manager that asked. -/
  txn : Nat
  mgr : Nat
  /-- The tenant ID, the key range as TW_EV_KEYS, and whether it is a MODIFY. -/
  id : Nat
  keys : Nat := 0
  modify : Bool := false
  cls : Nat
  domain : Nat := 0
  /-- The vector asked for, and what of it is held. -/
  vec : Vec
  held : Vec
  spill : Nat
  since : Nat
  deriving DecidableEq, Repr

/-- A span transaction at its manager (13, R282). -/
structure SpanTxn where
  txn : Nat
  /-- The requester first, then the others in the order of the member list. -/
  members : List Nat
  votes : List (Nat × Status × Nat) := []
  since : Nat
  deriving DecidableEq, Repr

/-- A span request whose mailbox waits (13, R282, R289): the request, the slot of a MODIFY, the members, the manager, and
the failing vote and member once known. -/
structure SpanAsk where
  mb : MbReq
  slot : Option Nat
  members : List Nat
  mgr : Nat
  since : Nat
  deriving DecidableEq, Repr

/-- Managers and workers (13). The maps by level have levels 0 to 2. -/
structure Hie where
  /-- ORIGIN_SEQ last seen of each origin, and this sled's own. -/
  seen : Map Nat := []
  originSeq : Nat := 0
  /-- By level: last BEACON, key of the manager followed, when its STALL began, highest term seen, the end of the wait of
  a candidate, its candidacy, and when a manager was first known. -/
  heard : Map Nat := []
  key : Map Nat := []
  stall : Map Nat := []
  term : Map Nat := []
  waits : Map Nat := []
  elect : Map Election := []
  since : Map Nat := []
  members : Map Member := []
  /-- Sleds that have ever joined (R281). -/
  known : List Nat := []
  series : List JoinSeries := []
  reqs : List HReq := []
  /-- Tenant ID blocks known to be held, and by which node (R281). -/
  allot : Map Nat := []
  /-- When a tenant ID last became free (R280). -/
  freed : Map Nat := []
  spans : List SpanTxn := []
  asks : List SpanAsk := []
  nextTxn : Nat := 1
  /-- TENANT_OP messages kept for a node's next JOIN (R283). -/
  kept : List (Nat × List Nat) := []
  /-- Route generation of the routes this sled computes. -/
  gen : Nat := 0
  /-- Ledger records of other nodes, by 2^32 × node + index, and the index this sled's manager acknowledged (R285). -/
  ledger : Map (List Word) := []
  acked : Nat := 0
  secret : BitVec 256 := 0
  roll : Rollout := ⟨0, 0, 0, [], [], [], 0, []⟩
  follow : Option Follow := none
  deriving DecidableEq, Repr

/-- The Gatehouse (03). -/
structure Adm where
  holds : List SpanHold := []
  tenants : Map Tenant := []
  deferred : List Deferred := []
  nextTicket : Nat := 1
  nextAdm : Nat := 1
  zero : List ZeroJob := []
  nextZero : Nat := 0
  attachFails : Map AttachFail := []
  /-- Tenant ID blocks held, as first ID and count (13, R280). -/
  pool : List (Nat × Nat) := [(1, 0xFFFE)]
  /-- Mailbox requests waiting for firmware, in arrival order (R60, R77). -/
  waiting : List MbReq := []
  /-- What ADM_CAP of T1 and T2 is lowered by for the lending pool (13, R284). -/
  lentCap : Nat × Nat := (0, 0)
  deriving DecidableEq, Repr

/-! ### Energy (20) -/

/-- Charges of a reconciled second that wait for an overhead ratio (20, R432): by tenant ID, and of the device account. -/
structure NrgSecond where
  sec : Nat
  tenants : List (Nat × Nat)
  device : Nat
  deriving DecidableEq, Repr

/-- Energy accounting (20). Activity is a list of seven counters, by class of Table NRG-1. -/
structure Nrg where
  /-- Energy charged to tenants other than tenant 0 in the last reconciled second, in mJ (R430). -/
  tenantMj : Nat := 0
  /-- The sled meter was available in the last whole second. -/
  meterOk : Bool := false
  /-- As chassis manager: the last second for which an overhead ratio was computed, and the ratio in 1/65,536 (R431). -/
  ratio : Option (Nat × Nat) := none
  /-- Activity of the device, tenant 0. -/
  act : List Nat := [0, 0, 0, 0, 0, 0, 0]
  /-- Activity at the start of the second: of the device, and by slot. -/
  actAt : List Nat := [0, 0, 0, 0, 0, 0, 0]
  slotAt : Map (List Nat) := []
  /-- Held T1 use summed over the µs of the second, by slot. -/
  area : Map Nat := []
  /-- Tenants whose slot became FREE in the second: activity in it and summed use. -/
  gone : List (List Nat × Nat) := []
  /-- Metered sled energy and the feed meter's total active import at the start of the second, in µJ; whether either meter was
  not available in it. -/
  sledAt : Nat := 0
  feedAt : Nat := 0
  sledBad : Bool := false
  feedBad : Bool := false
  /-- No second has begun since the last start. -/
  fresh : Bool := false
  /-- The last 60 ratios of reconciled seconds, newest first, in 1/65,536. -/
  ratios : List Nat := []
  /-- Reconciled seconds that wait for an overhead ratio. -/
  waiting : List NrgSecond := []
  /-- Energy metered but not reconciled at a main loss, charged at the next start (22, R464). -/
  owed : Nat := 0
  /-- Feed energy of the last seconds, in µJ, where the feed meter was available. -/
  feed : List (Nat × Nat) := []
  /-- This sled's metered energy in the last seconds, in µJ, where its sled meter was available. -/
  own : List (Nat × Nat) := []
  deriving DecidableEq, Repr

/-! ### Host interface (15) -/

/-- A posted write waiting in a function's write queue. -/
inductive HostWrite where
  /-- Data of a command such as READ, whose flight ends when they leave. -/
  | data (flight : Nat) (iova : Nat) (bytes : List Nat)
  /-- A completion entry at a ring index, with its command's IRQ, then the tail writeback. -/
  | entry (slot queue index : Nat) (irq : Bool) (c : Completion)
  | writeback (slot queue tail : Nat)
  | msix (vec : Nat)
  /-- Bytes that no command waits for: event and window ring entries and their writebacks. -/
  | raw (slot iova : Nat) (bytes : List Nat)
  deriving DecidableEq, Repr

/-- One PCIe function: the PF is function 0, VF k is function k (15). -/
structure Fn where
  leaseLive : Bool := false
  leaseAt : Nat := 0
  /-- Bus Master Enable, Memory Space Enable and MSI-X Enable of configuration space. -/
  bme : Bool := false
  mse : Bool := false
  msixEn : Bool := false
  d3hot : Bool := false
  wrStalled : Bool := false
  ideInsecure : Bool := false
  /-- Posted writes waiting because the function is in a blocking state or write-stalled. -/
  wq : List HostWrite := []
  wqSince : Nat := 0
  /-- MSI-X vectors whose Vector Control is not masked (log entry 83), and those pending. -/
  unmasked : List Nat := []
  pendingVec : List Nat := []
  /-- Mailbox (03, R59). -/
  mbBusy : Bool := false
  mbReplied : Bool := false
  mbIgnored : Bool := false
  reply : Option Reply := none
  notices : Map Reply := []
  ntcProd : Nat := 0
  ntcCons : Nat := 0
  /-- Words of the MSI-X table but for Vector Control, by word offset (R308). -/
  msix : RegFile := []
  /-- AER uncorrectable and correctable error status (R327). -/
  aerUnc : Nat := 0
  aerCor : Nat := 0
  /-- The function's own registers and outcome counters, by window offset. -/
  regs : RegFile := []
  deriving DecidableEq, Repr

/-- What leaves the block: the writes and messages other agents see, in order (log entry 8). -/
inductive Output where
  | host (fn : Nat) (w : HostWrite)
  /-- A message of this sled to itself: type, destination node and fields (log entry 72). -/
  | link (type dest : Nat) (fields : List Nat)
  /-- A flit on a link port: header, payload and CRC (12, Table LNK-1). -/
  | flit (port : Nat) (hdr : BitVec 128) (payload : BitVec 864) (crc : Word)
  /-- Words read by a requester over a register port. -/
  | read (requester : Nat) (words : List Word)
  /-- Bits shifted out of TDO, or a sideband answer. -/
  | serial (port : Nat) (bytes : List Nat)
  | pin (name : String) (level : Nat)
  /-- An answer of the DOE mailbox: its SPDM request code and its contents (15, R316). -/
  | doe (code : Nat) (fields : List Nat)
  /-- An I3C transfer of a sensor port (11). -/
  | i3c (port : Nat) (entry : DWord)
  deriving DecidableEq, Repr

/-! ### Converters (17) -/

/-- An exact number, as an integer over a natural number. -/
structure Ratio where
  num : Int
  den : Nat
  deriving DecidableEq, Repr

/-- Who asked for an urgent conversion (17, Table ADC-5). -/
inductive UrgBy where
  | pf | panelTh | holdup
  | panelVcom (zone : Nat)
  deriving DecidableEq, Repr

/-- An urgent request that waits (17, R369); times of the Lodge die are Lodge PLL cycles, 640 to a µs. -/
structure Urg where
  who : UrgBy
  input : Nat
  period : Nat
  since : Nat
  deriving DecidableEq, Repr

/-- What a conversion of an integrating converter is for. -/
inductive ConvUse where
  | own | ref | sys
  | urgent (who : UrgBy)
  | cal (phase : Nat)
  deriving DecidableEq, Repr

/-- A conversion in progress; inputs 16 and 17 are the internal references. -/
structure Conv where
  use : ConvUse
  input : Nat
  start : Nat
  stop : Nat
  fallback : Bool
  deriving DecidableEq, Repr

/-- A slot of a converter (17, R366): the scan step it serves, none for a pair, and its times. -/
structure Slot where
  step : Option Nat
  start : Nat
  stop : Nat
  deriving DecidableEq, Repr

/-- An integrating converter (17). -/
structure Ic where
  conv : Option Conv := none
  slot : Option Slot := none
  urg : Option Urg := none
  /-- Next scan step to look at. -/
  next : Nat := 0
  /-- Phase of a self-calibration under way, with the offset and the +2 V result found so far. -/
  cal : Option (Nat × Ratio × Ratio) := none
  refDue : Bool := false
  /-- The last reference check failed. -/
  refFail : Bool := false
  /-- It has never passed its self-check; its coefficients. -/
  uncal : Bool := false
  off : Ratio := ⟨0, 1⟩
  gain : Ratio := ⟨1, 1⟩
  deriving DecidableEq, Repr

/-- A phase of a system calibration under way (17, R375). -/
structure SysCal where
  /-- Integrating rather than ΣΔ; the channel or converter, the input and the gain. -/
  ic : Bool
  unit : Nat
  input : Nat
  gain : Nat
  full : Bool
  /-- Outputs still to wait out, results averaged and their sum; whether one was not usable. -/
  skip : Nat
  count : Nat := 0
  sum : Ratio := ⟨0, 1⟩
  bad : Bool := false
  deriving DecidableEq, Repr

/-- The ADC block (17). -/
structure Adc where
  ics : Map Ic := []
  /-- SEQ of the pair streams. -/
  seq : Map Nat := []
  /-- Converter of the next reference check. -/
  refNext : Nat := 0
  /-- Converters still to calibrate one at a time; a joint calibration of step 10 or of power-up runs. -/
  calQueue : List Nat := []
  joint : Bool := false
  /-- A ΣΔ self-calibration runs, since this time; channels whose integrator clipped in it. -/
  sdCal : Option Nat := none
  sdClip : List Nat := []
  /-- ΣΔ coefficients of gain 1 by channel, and channels that never passed. -/
  sdOff : Map Ratio := []
  sdGain : Map Ratio := []
  sdUncal : List Nat := []
  /-- System calibration: offset and gain by target, those durable and those being written, and targets whose ZERO phase
  has passed. -/
  sys : Map (Ratio × Ratio) := []
  nvSys : Map (Ratio × Ratio) := []
  saving : Option (Map (Ratio × Ratio)) := none
  zeroOk : List Nat := []
  syscal : Option SysCal := none
  /-- The scan and the pairs restart at the next safe point (R379). -/
  again : Bool := false
  /-- Lodge die temperature last read, in 1/16 °C. -/
  temp : Int := 0
  /-- Since when each current channel has stayed below the low threshold. -/
  low : Map Nat := []
  /-- Last results of the internal requesters: 0 panel thermistor, 3 and 4 the panel commons. -/
  urgDone : Map Word := []
  deriving DecidableEq, Repr

/-! ### Decimation (18) -/

/-- An output that is unsettled, missing or over range: the instant of its input and its word. -/
structure DecOut where
  when_ : Int
  word : Word
  /-- A gain change is among the causes of its marking. -/
  byGain : Bool := false
  deriving DecidableEq, Repr

/-- A channel of the decimation chain (18). -/
structure DecCh where
  seq : Nat := 0
  /-- MOD cycles and ones of the modulator window under way; whether a window of the span set OVR. -/
  winLen : Nat := 0
  winOnes : Nat := 0
  ovrSpan : Bool := false
  /-- A gain change is among the causes of the marking under way. -/
  byGain : Bool := false
  /-- Stage 1 state: the newest modulator bits, newest first; stage 2 state: the newest stage 1 results. -/
  taps : List Bool := []
  fir : List Int := []
  /-- Marked outputs that the metering cycle may still meet, newest first. -/
  outs : List DecOut := []
  deriving DecidableEq, Repr

/-- The decimation chain (18). Instants are Lodge PLL cycles. -/
structure Dec where
  chs : Map DecCh := []
  /-- The instant that output boundaries count from: the last stepping sync instant (R383, R388). -/
  origin : Nat := 0
  /-- Synchronisation requests that wait: their instant, and whether DEC_CTRL.ARM asked. -/
  syncs : List (Nat × Bool) := []
  /-- Capture memory and how many outputs each channel has stored. -/
  cap : Map Word := []
  capGot : Map Nat := []
  /-- The chain waits for the ΣΔ self-calibration of a Lodge power-up (R395). -/
  stopped : Bool := false
  deriving DecidableEq, Repr

/-! ### Metering (19) -/

/-- Decimated samples of a DC or sled cycle: how many, the sums of v·i, v² and i² in units of 1/65,536 LSB², and whether a
sample was not usable, by a gain change, or over range. -/
structure MtrAcc where
  n : Nat := 0
  vi : Int := 0
  vv : Nat := 0
  ii : Nat := 0
  bad : Bool := false
  byGain : Bool := false
  above : Bool := false
  deriving DecidableEq, Repr

/-- Quantities of a cycle, in µV, µA, µW, µvar and µVA. -/
structure MtrVal where
  v : Nat := 0
  i : Nat := 0
  p : Int := 0
  q : Int := 0
  s : Nat := 0
  deriving DecidableEq, Repr

/-- A CF output (19, R407): what has accumulated since the last pulse fell due, in µW times Lodge PLL cycles; a pulse that is due;
the level, and the TB of the last rise and fall. -/
structure CfOut where
  acc : Nat := 0
  due : Bool := false
  high : Bool := false
  width : Nat := 0
  rise : Option Nat := none
  fall : Option Nat := none
  deriving DecidableEq, Repr

/-- A voltage event in progress (19, R410); the extreme is in µV. -/
structure PqEvent where
  swell : Bool
  start : Nat
  cfgSeq : Nat
  extreme : Nat
  deriving DecidableEq, Repr

/-- A harmonic window in progress (19, R409): sums of |X_h|² by 64 × channel + h, in µV² or µA². -/
structure Harm where
  start : Nat
  cycles : Nat := 0
  usable : Nat := 0
  incomplete : Bool := false
  sums : Map Nat := []
  deriving DecidableEq, Repr

/-- A calibration procedure in progress (19, R414, R415): cycles wanted, used and seen, and the two sums. -/
structure MtrCal where
  phase : Bool
  elem : Nat
  n : Nat
  got : Nat := 0
  seen : Nat := 0
  a : Int := 0
  b : Int := 0
  deriving DecidableEq, Repr

/-- The metering engine (19). -/
structure Mtr where
  /-- Length of the last mains cycle in Lodge PLL cycles; cycles in range in a row; TB of the last crossing. -/
  line : Option Nat := none
  good : Nat := 0
  crossAt : Nat := 0
  /-- Start of the feed meter's cycle, in Lodge PLL cycles. -/
  cycAt : Nat := 0
  /-- The cycle in progress was abandoned by a block reset. -/
  lost : Bool := false
  /-- The last pair A word that is not MISSING, and when it came. -/
  pairA : Option (Nat × Word) := none
  /-- Last quarter of the previous cycle's samples, by voltage channel. -/
  tail : Map (List Int) := []
  /-- DC cycle and sled cycle in progress; v·i and samples of the current millisecond of the sled meter. -/
  dc : MtrAcc := {}
  sled : MtrAcc := {}
  ms : Int := 0
  msN : Nat := 0
  /-- Consecutive unusable cycles, by element and 3 for the sled meter, and whether a gain change was a cause; quantities of
  the last usable cycle. -/
  held : Map (Nat × Bool) := []
  last : Map MtrVal := []
  /-- Energy below one LSB, by 5 × element + register, and 20, 21 for the sled meter, in µW times Lodge PLL cycles. -/
  rem : Map Nat := []
  /-- Energy registers, remainders and pulse counts as FRAM holds them, by register address and by remainder. -/
  nvE : Map Nat := []
  nvRem : Map Nat := []
  clear : Bool := false
  cf : Map CfOut := []
  /-- CF energy of the current cycle accumulated from decimated samples. -/
  cfSeen : Nat := 0
  harm : Option Harm := none
  /-- The last published window, by channel. -/
  harmOut : Map (List Nat) := []
  /-- Sum of squares of the last half cycle, by element, and events in progress. -/
  half : Map Nat := []
  events : Map PqEvent := []
  cal : Option MtrCal := none
  /-- Register values that a procedure has found, taken at the next cycle boundary (R416). -/
  found : List (Nat × Nat) := []
  saving : Bool := false
  /-- Mean power last sent to the power cap, in mW, not yet used. -/
  toCap : Option Int := none
  deriving DecidableEq, Repr

/-! ### Status panel (21) -/

/-- What the pixels of a zone show but for those written one by one: one level; the status zone's text, from its fields (R450);
the default page, from the retirement records it lists (R451). -/
inductive Paint where
  | flat (level : Nat)
  | status (fields : List Nat)
  | page (records : List Nat)
  deriving DecidableEq, Repr

/-- The pixels of a zone in a frame memory (R436): a ground and the levels written since, by pixel 400y + x. -/
structure Image where
  base : Paint := .flat 3
  px : Map Nat := []
  deriving DecidableEq, Repr

/-- An update in the running slot of a zone (R443, R444). Every selected pixel's counter is `frame` plus 1 once it drives. -/
structure PnlUpd where
  mode : Nat
  /-- Modes of the updates that follow it before any pending one, for a retry and the cold panel sequence. -/
  queue : List Nat := []
  retried : Bool := false
  /-- It is being driven; its common has been read back. -/
  driving : Bool := false
  asked : Bool := false
  band : Nat := 0
  phase : Bool := false
  toggled : Bool := false
  frame : Nat := 0
  /-- Compensation frames still to drive, and driven. -/
  comp : Nat := 0
  compDone : Nat := 0
  /-- Numbers of pixels of each PREV and NEXT level that are driven, by 4 × PREV + NEXT. -/
  counts : List Nat := []
  /-- Its start has been put off for want of energy (22, R462). -/
  waited : Bool := false
  deriving DecidableEq, Repr

/-- Residuals of a stopped update: numbers of pixels by net drive r, as r plus 3 (R452). -/
structure Resid where
  nets : List (Int × Nat) := []
  deriving DecidableEq, Repr

/-- Rails of the panel (R441): down, awaiting the temperature, rising with rails up so far, up, falling. -/
inductive PnlRails where
  | down
  | reading
  | rising (n : Nat)
  | up
  | falling (n : Nat)
  deriving DecidableEq, Repr

/-- The status panel (21). Zone 0 and zone 1 by number. -/
structure Pnl where
  prev : Map Image := []
  next : Map Image := []
  /-- CLEAR updates completed in a row while PREV_VALID is 0. -/
  clears : Map Nat := []
  run : Map PnlUpd := []
  pend : Map Nat := []
  resid : Map Resid := []
  rails : PnlRails := .down
  /-- A temperature reading is under way while the rails are up. -/
  reading : Bool := false
  /-- When the last valid temperature was read. -/
  tempAt : Option Nat := none
  /-- Since when the rails are up with no scanning. -/
  holdAt : Option Nat := none
  /-- When a rail failed, and whether the one retry runs. -/
  failAt : Option Nat := none
  retrying : Bool := false
  /-- Codes the commons are set to; commons whose readback is awaited. -/
  codes : Map Nat := []
  checking : List Nat := []
  /-- The table set in force, none for the factory set; the set that waits for an idle panel; whether a set is acceptable. -/
  table : Option (Map Nat) := none
  waiting : Option (Map Nat) := none
  tableOk : Bool := true
  wakeUntil : Option Nat := none
  /-- Power loss: the frontlight is off; updates stop at their next checkpoint (22). -/
  lost : Bool := false
  park : Bool := false
  /-- Zones of an interrupted update, as FRAM records them. -/
  cut : List Nat := []
  deriving DecidableEq, Repr

/-! ### Power loss and holdup (22) -/

/-- What the Lodge die does about its supplies: it is supplied; a Lodge loss is in force and the panel finishes or stops and its rails
fall; the OFF banner is drawn; it has stopped. -/
inductive Holdup where
  | supplied
  | panel
  | banner
  | off
  deriving DecidableEq, Repr

/-- The holdup block (22). -/
structure Hld where
  ph : Holdup := .supplied
  /-- E_left after actions 1 to 4, in µJ. -/
  left : Nat := 0
  /-- FLUSH commands that a main loss ended: slot, queue, CMD_ID, and whether IRQ was set (R465). -/
  flushes : List (Nat × Nat × Nat × Bool) := []
  deriving DecidableEq, Repr

/-! ### Faults, retirement and in-service test (24) -/

/-- A ledger record (24, Table FLT-6); its INDEX is given when it is programmed. -/
structure LedgerRec where
  index : Nat := 0
  kind : Nat
  type : Nat
  res : Nat
  unit : Nat
  tb : Nat
  criterion : Nat := 0
  cause : Nat
  node : Nat
  fw : Nat
  removed : Nat := 0
  /-- EVIDENCE, as six 32-bit words (Table FLT-7). -/
  evidence : List Nat := []
  retCount : Nat
  deriving DecidableEq, Repr

/-- Faults, retirement, the ledger and the in-service test (24). Units are a type of Table FLT-1 and an index; times are
TB, newest first. -/
structure Flt where
  retired : List (Nat × Nat) := []
  quarantined : List (Nat × Nat) := []
  /-- Unit faults: type, index, TB. Terrace dies are type 11, Pergola dies type 12. -/
  faults : List (Nat × Nat × Nat) := []
  /-- HBM rows, as pseudo-channel and row: corrections, repairs under way, and repairs made; uncorrected errors. -/
  corrections : List (Nat × Nat × Nat) := []
  repairing : List (Nat × Nat) := []
  repaired : List (Nat × Nat × Nat) := []
  uncorrected : List (Nat × Nat) := []
  /-- Repairs ever made, by pseudo-channel; each uses a spare. -/
  sparesUsed : Map Nat := []
  /-- Consecutive seconds of criterion 1, by 8 × port + lane, and the worst second's corrected symbols. -/
  laneBad : Map Nat := []
  laneWorst : Map Nat := []
  /-- Retrains in a row that named a lane, by lane. -/
  laneNamed : Map Nat := []
  /-- Retired blocks of a flash die; uncorrectable blocks, as die, block and TB; channel resets. -/
  badBlocks : Map Nat := []
  flashUe : List (Nat × Nat × Nat) := []
  chanResets : List (Nat × Nat) := []
  /-- Self-check results of converters, as type, index, offset and gain of the last two. -/
  checks : List (Nat × Nat × Nat × Nat) := []
  /-- Hub die faults: source and TB. -/
  hub : List (Nat × Nat) := []
  /-- Units waiting for a targeted test. -/
  testing : List (Nat × Nat) := []
  /-- Units whose test follows a failing slice or step 7, by 1024 × type + index: the slice, or 0xFFFF. -/
  sliced : Map Nat := []
  /-- The FRAM queue of the ledger, RETIRE records that wait for an entry of it, and the bank in force. -/
  queue : List LedgerRec := []
  late : List LedgerRec := []
  /-- When programming of the ledger last failed, until it is tried again. -/
  ldgFailAt : Option Nat := none
  nor : List LedgerRec := []
  generation : Nat := 1
  retCount : Nat := 0
  /-- In-service test, by 1024 × type + index: slices done of the current cover, when the last cover ended, when the
  running slice began, the last forced slice. -/
  cover : Map Nat := []
  coverAt : Map Nat := []
  /-- When coverage began: step 7 of the last cold start. -/
  coverBase : Nat := 0
  slices : Map Nat := []
  forcedAt : Map Nat := []
  /-- Words of the patrol scrub read in this round. -/
  scrubbed : Nat := 0
  /-- Ports whose retrain waits for an idle moment. -/
  weak : List Nat := []
  deriving DecidableEq, Repr

/-! ### Firmware (23) -/

/-- What the boot descriptor says of a slot (23, Table FW-4, Table FW-5). -/
structure SlotInfo where
  st : Nat := 0
  version : Nat := 0
  epoch : Nat := 0
  code : Nat := 0
  deriving DecidableEq, Repr

/-- A valid copy of the boot descriptor (23, Table FW-4). -/
structure Desc where
  seq : Nat
  confirmed : Nat
  a : SlotInfo
  b : SlotInfo
  deriving DecidableEq, Repr

/-- Firmware, NOR slots and fuses (23). -/
structure Fw where
  /-- Bytes of slots A and B. -/
  slotA : Memory := []
  slotB : Memory := []
  /-- The two copies of the boot descriptor; none where MAGIC or CRC fails. -/
  desc0 : Option Desc := none
  desc1 : Option Desc := none
  /-- The trial marker in FRAM: slot and counter. -/
  marker : Option (Nat × Nat) := none
  /-- Fuses: the security epoch, and revoked signing keys. -/
  fuse : Nat := 0
  revoked : List Nat := []
  /-- Of the running copy: the slot, none for the recovery service, and whether it runs on trial. -/
  slot : Option Nat := some 0
  trial : Bool := false
  /-- When the session's last operation was. -/
  lastOp : Nat := 0
  /-- The WRITE under way: where its next 4 KiB block comes from, bytes left, and whether what it programs will read back. -/
  opAt : Nat := 0
  opLeft : Nat := 0
  programOk : Bool := true
  /-- Watchdog restarts, newest first; FW_WDT_MS in force. -/
  restarts : List Nat := []
  wdtMs : Nat := 500
  /-- When step 14 of a trial start completed. -/
  trialDone : Option Nat := none
  /-- The operator's chain for certificate slot 1. -/
  chain : Memory := []
  deriving DecidableEq, Repr

/-! ### Starts and resets (16) -/

/-- A reset notice not yet sent (16, R352): the unit, its epoch before the reset, and the launch, flights and moves that
waited for it then. -/
structure Notice where
  type : Nat
  index : Nat
  epoch : Nat
  launches : List Nat := []
  flights : List Nat := []
  moves : List Nat := []
  deriving DecidableEq, Repr

/-- Clocks, power and starts (16). -/
structure Rst where
  notices : List Notice := []
  /-- When the start in force began. -/
  began : Nat := 0
  /-- A QUIESCE under way: since when, and the cause of its warm start. -/
  quiesce : Option (Nat × Nat) := none
  /-- Start steps that run, and since when. -/
  steps : Map Nat := []
  /-- Rails retried once in this start. -/
  railRetry : List Nat := []
  /-- The next start after a failed one: when the failure was, the cause, and whether it is warm; SAFE as cause 16. -/
  retry : Option (Nat × Nat × Bool) := none
  /-- Cause of a cold start that waits for the conditions of R340. -/
  due : Option Nat := none
  /-- What the MAIN domain held is lost since the last step 14. -/
  dark : Bool := false
  /-- Unit epochs by 2048 × type + index, when a reset of the unit completes or completed, and resets that wait for the
  spacing of R351. -/
  epochs : Map Nat := []
  resetAt : Map Nat := []
  deferred : List Nat := []
  /-- A reset written through RST_UNIT is busy until then. -/
  busyUntil : Nat := 0
  /-- Housekeeping link: failed retries of the transaction under way. -/
  hkRetries : Nat := 0
  xtalOk : Bool := true
  /-- Main has been at 46 V for 10 ms; SLED_EN is asserted. -/
  mainGood : Bool := true
  sledEn : Bool := true
  /-- Slot straps SLOT_ID and SLOT_PAR on the contacts, and ROLE_ELIG as sampled last (25, R510). -/
  straps : Nat := 16
  elig : Bool := false
  deriving DecidableEq, Repr

/-- A log record (23, R482, Table FW-7). -/
structure LogRec where
  seq : Nat
  tb : Nat
  sev : Nat
  code : Nat
  status : Word := 0
  tenant : Nat := 0
  unit : Nat := 0xFFFF
  args : List Nat := []
  deriving DecidableEq, Repr

/-- A trace record (23, R483). -/
structure TraceRec where
  seq : Nat
  id : Nat
  source : Nat
  unit : Nat
  tb : Nat
  args : List Nat
  deriving DecidableEq, Repr

/-- A DOE request (15, R316): its SPDM request code, and the fields that the responder uses. -/
structure DoeReq where
  code : Nat
  fields : List Nat
  deriving DecidableEq, Repr

/-- The host interface (15), what is not kept by function. -/
structure Hif where
  /-- VFs that VF Enable shows, 0 when it is clear, and VF Memory Space Enable. -/
  vfs : Nat := 0
  vfMse : Bool := false
  /-- Size of PF BAR2 in MiB from the next reset of the PF on (R309). -/
  bar2Next : Nat := 1024
  /-- RID association of each IDE stream, as first and last function, and the keys, by 2 × stream + key set. -/
  ideCover : Map (Nat × Nat) := []
  ideKeys : Map (BitVec 256) := []
  ideLost : List Nat := []
  /-- DOE requests held while firmware is down. -/
  held : List DoeReq := []
  /-- SPDM: the version is agreed, algorithms are agreed, a key exchange waits for FINISH, a session is open, and how
  often its keys were updated. -/
  verOk : Bool := false
  algOk : Bool := false
  exchanging : Bool := false
  session : Bool := false
  keyUpdates : Nat := 0
  deriving DecidableEq, Repr

/-! ### Sideband and service port (25) -/

/-- The sideband's own selections (27, R550) and the I3C target's dynamic address (25, R513). -/
structure Sideband where
  dyn : Option Nat := none
  /-- The start and the words of an address write with WRITE clear that no read has used. -/
  addr : Option (Nat × Nat) := none
  ldgSel : Nat := 0
  ldgStatus : Nat := 0
  ldgData : List Word := []
  deriving DecidableEq, Repr

/-- The service port J6 (25, R521 to R523): a probe is present, what the next Capture-DR of REGACC returns, the nonce that a
signature must cover, the package TAP's boundary cells and whether EXTEST drives them. -/
structure Tap where
  present : Bool := false
  capture : DWord := 0
  nonce : Option Nat := none
  cells : List Bool := []
  drives : Bool := false
  /-- The service port's own selections and the snapshots that they select, by cell (27, R550). -/
  sel : RegFile := []
  deriving DecidableEq, Repr

end Sys2Proof.Machine
end

