-- ==== Sys2Proof/Machine/RegMap.lean ====
section
/-! DEFINITION. The register map: every register of PF BAR0 (27, Tables REG-1 and REG-5) and of the tenant
window (27, Table REG-3), one row each, transcribed from the register tables of the chapters (Tables DEV-3,
DEV-27, DEV-28, ADM-10, TIER-9, REG-2, PFX-12, PFX-13, SCH-9, SCH-10, QUE-11, EVF-11, EVF-12, ESP-7, ESP-8,
LNK-9, LNK-10, HIE-6, HIE-7, NRG-5, NRG-6, HIF-8, HIF-9, HIF-10, CLK-2, PWR-4, RST-6, ADC-9, ADC-10, DEC-6,
DEC-7, MTR-5, MTR-6, PNL-9, PNL-10, HLD-8, HLD-9, FW-12, FW-14, FLT-9, FLT-10, FLT-11, PRG-6, CON-17, ADM-12,
TIER-10, PFX-14, SCH-11, CLU-10, EVF-13, LNK-11, PRG-7).  A row gives the offset, the strides of an array, the
bits of each access code, and what the Cold and Warm columns say.  A cell is one 32-bit or 64-bit register of
an array, named by the address of its low word. -/

namespace Sys2Proof.Machine

/-- What a reset column says (00, Table DEV-7). -/
inductive OnStart where
  /-- The field takes this number. -/
  | num (n : Nat)
  /-- The field keeps its value. -/
  | kept
  /-- The field is loaded from FRAM or NOR. -/
  | load
  /-- Fuses, straps or measurement set the field. -/
  | hw
  deriving DecidableEq, Repr

/-- One row of a register table. -/
structure RegRow where
  name : String
  base : Nat
  stride1 : Nat
  count1 : Nat
  stride2 : Nat
  count2 : Nat
  /-- 64-bit cells (00, R6). -/
  wide : Bool
  /-- The bits of each access code (00, Table DEV-6); every other bit is RO or reserved. -/
  rw : Nat
  rw1c : Nat
  wo : Nat
  stg : Nat
  /-- PST: kept in FRAM or NOR. -/
  pst : Bool
  /-- The value at `State.reset`: the Cold column's number, or for `load`, `kept` and `hw` the factory value
  the spec gives, else zero (DESIGN CHOICE, log entry 6). -/
  init : Nat
  cold : OnStart
  warm : OnStart
  deriving DecidableEq, Repr

/-- A row written on one line. -/
def reg (name : String) (base stride1 count1 stride2 count2 : Nat) (wide : Bool) (rw rw1c wo stg : Nat)
    (pst : Bool) (init : Nat) (cold warm : OnStart) : RegRow :=
  ⟨name, base, stride1, count1, stride2, count2, wide, rw, rw1c, wo, stg, pst, init, cold, warm⟩

/-- The word address `a` belongs to a cell of the row. -/
def RegRow.covers (r : RegRow) (a : Nat) : Bool :=
  let o := a - r.base
  let p := o % r.stride1
  let q := p % r.stride2
  decide (r.base ≤ a) && decide (o / r.stride1 < r.count1) && decide (p / r.stride2 < r.count2) &&
    (q == 0 || (r.wide && q == 4))

/-- The cell of the row that the word address `a` belongs to, and whether `a` is its high word. -/
def RegRow.cell (r : RegRow) (a : Nat) : Nat × Bool :=
  let q := (a - r.base) % r.stride1 % r.stride2
  (a - q, q == 4)

/-- Rows of the DEV block. -/
def rowsDev : List RegRow := [
  reg "DEV_REV" 4 0x1000000 1 0x1000000 1 false 0 0 0 0 false 0xb0b0b (.hw) (.kept),
  reg "DEV_BUILD" 0x10 0x1000000 1 0x1000000 1 false 0 0 0 0 false 0x11127 (.hw) (.kept),
  reg "DEV_CAPS" 0x14 0x1000000 1 0x1000000 1 false 0 0 0 0 false 0x20800fff (.num 545263615) (.kept)]

/-- Rows of the CLK block. -/
def rowsClk : List RegRow := [
  reg "CLK_STATUS" 0x10010 0x1000000 1 0x1000000 1 false 0 0 0 0 false 0 (.hw) (.hw),
  reg "CLK_TB" 0x10018 0x1000000 1 0x1000000 1 true 0 0 0 0 false 0 (.hw) (.hw),
  reg "CLK_TB_LODGE_OFS" 0x10020 0x1000000 1 0x1000000 1 false 0 0 0 0 false 0 (.num 0) (.num 0),
  reg "CLK_THR_SRC" 0x10030 0x1000000 1 0x1000000 1 false 0 0 0 0 false 0 (.num 0) (.num 0),
  reg "CLK_THR_FORCE" 0x10034 0x1000000 1 0x1000000 1 false 0x13f 0 0 0 false 0 (.num 0) (.num 0),
  reg "CLK_THR_CL" 0x10100 4 128 0x1000000 1 false 0 0 0 0 false 0 (.num 0) (.num 0),
  reg "CLK_SWALLOW" 0x10400 8 128 0x1000000 1 true 0 0 0 0 false 0 (.num 0) (.kept),
  reg "PWR_STATE" 0x10800 0x1000000 1 0x1000000 1 false 0 0 0 0 false 0 (.hw) (.hw),
  reg "PWR_DOMAIN" 0x10804 0x1000000 1 0x1000000 1 false 0 0 0 0 false 0 (.hw) (.hw),
  reg "PWR_STATUS" 0x10808 0x1000000 1 0x1000000 1 false 0 0 0 0 false 0 (.hw) (.hw),
  reg "PWR_CAP_W" 0x10810 0x1000000 1 0x1000000 1 false 0 0 0 0x7ff true 0x4e2 (.load) (.kept),
  reg "PWR_CAP_HYST_W" 0x10814 0x1000000 1 0x1000000 1 false 0 0 0 0xff true 0x14 (.load) (.kept),
  reg "PWR_CAP_COMMIT" 0x10818 0x1000000 1 0x1000000 1 false 0 0 1 0 false 0 (.num 0) (.num 0),
  reg "PWR_PENDING" 0x1081c 0x1000000 1 0x1000000 1 false 0 0 0 0 false 0 (.num 0) (.num 0),
  reg "PWR_THERM_C" 0x10820 0x1000000 1 0x1000000 1 false 0x7f 0 0 0 true 0x5f (.load) (.kept),
  reg "PWR_HK_STATUS" 0x10824 0x1000000 1 0x1000000 1 false 0 0 0 0 false 0 (.hw) (.hw),
  reg "PWR_HK_CRC_ERR" 0x10830 0x1000000 1 0x1000000 1 true 0 0 0 0 false 0 (.num 0) (.kept),
  reg "PWR_HK_RETRAIN" 0x10838 0x1000000 1 0x1000000 1 true 0 0 0 0 false 0 (.num 0) (.kept),
  reg "PWR_HK_DOWN_READS" 0x10840 0x1000000 1 0x1000000 1 true 0 0 0 0 false 0 (.num 0) (.kept),
  reg "RST_START_STATUS" 0x10c00 0x1000000 1 0x1000000 1 false 0 0 0 0 false 0 (.hw) (.hw),
  reg "RST_LAST_CAUSE" 0x10c04 0x1000000 1 0x1000000 1 false 0 0 0 0 true 0 (.load) (.load),
  reg "RST_FAILS" 0x10c08 0x1000000 1 0x1000000 1 false 0 0 0 0 true 0 (.load) (.load),
  reg "RST_FAIL_INFO" 0x10c0c 0x1000000 1 0x1000000 1 false 0 0 0 0 true 0 (.load) (.load),
  reg "RST_SAFE_EXIT" 0x10c10 0x1000000 1 0x1000000 1 false 0 0 0xffff 0 false 0 (.num 0) (.num 0),
  reg "RST_STEP_MS" 0x10c40 4 15 0x1000000 1 false 0 0 0 0 false 0 (.hw) (.hw),
  reg "RST_UNIT" 0x10c80 0x1000000 1 0x1000000 1 false 0 0 0xffff7fff 0 false 0 (.num 0) (.num 0),
  reg "RST_UNIT_STATUS" 0x10c84 0x1000000 1 0x1000000 1 false 0 2 0 0 false 0 (.num 0) (.num 0),
  reg "RST_EPOCH_SEL" 0x10c88 0x1000000 1 0x1000000 1 false 0x7fff 0 0 0 false 0 (.num 0) (.num 0),
  reg "RST_EPOCH_DATA" 0x10c8c 0x1000000 1 0x1000000 1 false 0 0 0 0 false 0 (.num 0) (.num 0),
  reg "RST_STALE_REPLY" 0x10c90 0x1000000 1 0x1000000 1 true 0 0 0 0 false 0 (.num 0) (.kept),
  reg "RST_ABORTS" 0x10c98 0x1000000 1 0x1000000 1 true 0 0 0 0 false 0 (.num 0) (.kept),
  reg "RST_REQ_IGNORED" 0x10ca0 0x1000000 1 0x1000000 1 true 0 0 0 0 false 0 (.num 0) (.kept),
  reg "RST_STARTS" 0x10ca8 0x1000000 1 0x1000000 1 true 0 0 0 0 true 0 (.load) (.load)]

/-- Rows of the HIF block. -/
def rowsHif : List RegRow := [
  reg "HIF_LINK_STATUS" 0x20010 0x1000000 1 0x1000000 1 false 0 0 0 0 false 0 (.hw) (.hw),
  reg "HIF_STALL_TO" 0x20014 0x1000000 1 0x1000000 1 false 0x3fff 0 0 0 true 0x32 (.load) (.kept),
  reg "HIF_HOST_ABSENT" 0x20018 0x1000000 1 0x1000000 1 false 0 0 0 0 false 1 (.num 1) (.num 1),
  reg "HIF_ABSENT_SINCE" 0x20020 0x1000000 1 0x1000000 1 true 0 0 0 0 false 0 (.hw) (.hw),
  reg "HIF_RESTART" 0x20028 0x1000000 1 0x1000000 1 false 0 0 0x1ffff 0 false 0 (.num 0) (.num 0),
  reg "HIF_CLK_MODE" 0x2002c 0x1000000 1 0x1000000 1 false 1 0 0 0 true 0 (.load) (.kept),
  reg "HIF_FN_STATUS" 0x20100 4 32 0x1000000 1 false 0 0 0 0 false 0 (.hw) (.hw),
  reg "HIF_WR_STALL" 0x20200 0x1000000 1 0x1000000 1 true 0 0 0 0 false 0 (.num 0) (.kept),
  reg "HIF_RD_STALL" 0x20208 0x1000000 1 0x1000000 1 true 0 0 0 0 false 0 (.num 0) (.kept),
  reg "HIF_STALL_ABORT" 0x20210 0x1000000 1 0x1000000 1 true 0 0 0 0 false 0 (.num 0) (.kept),
  reg "HIF_LEASE_EXPIRED" 0x20218 0x1000000 1 0x1000000 1 true 0 0 0 0 false 0 (.num 0) (.kept),
  reg "HIF_FLR" 0x20220 0x1000000 1 0x1000000 1 true 0 0 0 0 false 0 (.num 0) (.kept),
  reg "HIF_UR_CA" 0x20228 0x1000000 1 0x1000000 1 true 0 0 0 0 false 0 (.num 0) (.kept),
  reg "HIF_POISON_RX" 0x20230 0x1000000 1 0x1000000 1 true 0 0 0 0 false 0 (.num 0) (.kept),
  reg "HIF_IDE_FAIL" 0x20238 0x1000000 1 0x1000000 1 true 0 0 0 0 false 0 (.num 0) (.kept),
  reg "HIF_DOE_BUSY" 0x20240 0x1000000 1 0x1000000 1 true 0 0 0 0 false 0 (.num 0) (.kept),
  reg "HIF_UNEXP_CPL" 0x20248 0x1000000 1 0x1000000 1 true 0 0 0 0 false 0 (.num 0) (.kept)]

/-- Rows of the ADM block. -/
def rowsAdm : List RegRow := [
  reg "ADM_CAP" 0x30100 4 16 0x1000000 1 false 0 0 0 0 false 0 (.hw) (.kept),
  reg "ADM_RESV" 0x30140 4 16 0x1000000 1 false 0 0 0 0 false 0 (.num 0) (.kept),
  reg "ADM_FREE" 0x30180 4 16 0x1000000 1 false 0 0 0 0 false 0 (.hw) (.kept),
  reg "ADM_ZERO" 0x301c0 4 16 0x1000000 1 false 0 0 0 0 false 0 (.num 0) (.num 0),
  reg "ADM_DEFER" 0x30200 0x1000000 1 0x1000000 1 false 0 0 0 0 false 0 (.num 0) (.num 0),
  reg "ADM_START_SEQ" 0x30204 0x1000000 1 0x1000000 1 false 0 0 0 0 true 0 (.load) (.load),
  reg "ADM_GRACE" 0x30208 0x1000000 1 0x1000000 1 false 0x1ffff 0 0 0 true 0x12c (.load) (.kept),
  reg "ADM_NTC_DROP" 0x3020c 0x1000000 1 0x1000000 1 false 0 0 0 0 false 0 (.num 0) (.kept),
  reg "ADM_ATTACH_FAIL" 0x30210 0x1000000 1 0x1000000 1 false 0 0 0 0 false 0 (.num 0) (.kept),
  reg "ADM_QUOTA" 0x31000 0x40 32 4 12 false 0 0 0 0xffffffff true 0 (.load) (.kept),
  reg "ADM_QUOTA_COMMIT" 0x31800 0x1000000 1 0x1000000 1 false 0 0 1 0 false 0 (.num 0) (.num 0),
  reg "ADM_POLICY" 0x32000 0x10 64 4 4 false 0 0 0 0xffffffff true 0 (.load) (.kept),
  reg "ADM_POLICY_COMMIT" 0x32400 0x1000000 1 0x1000000 1 false 0 0 1 0 false 0 (.num 0) (.num 0),
  reg "ADM_PENDING" 0x32404 0x1000000 1 0x1000000 1 false 0 0 0 0 false 0 (.num 0) (.num 0)]

/-- Rows of the TIER block. -/
def rowsTier : List RegRow := [
  reg "TIER_WM_LOW" 0x40010 0x1000000 1 0x1000000 1 false 0 0 0 0xffffffff false 0x800 (.num 2048) (.kept),
  reg "TIER_WM_HIGH" 0x40014 0x1000000 1 0x1000000 1 false 0 0 0 0xffffffff false 0x1000 (.num 4096) (.kept),
  reg "TIER_WM_COMMIT" 0x40018 0x1000000 1 0x1000000 1 false 0 0 1 0 false 0 (.num 0) (.num 0),
  reg "TIER_PENDING" 0x4001c 0x1000000 1 0x1000000 1 false 0 2 0 0 false 0 (.num 0) (.num 0),
  reg "TIER_T3_BACKOFF" 0x40020 0x1000000 1 0x1000000 1 false 0xffff 0 0 0 false 0x3e8 (.num 1000) (.kept),
  reg "TIER_PEER_TO" 0x40024 0x1000000 1 0x1000000 1 false 0x3ff 0 0 0 false 0xa (.num 10) (.kept),
  reg "TIER_PEER_LOSS" 0x40028 0x1000000 1 0x1000000 1 false 0xffff 0 0 0 false 0x7d0 (.num 2000) (.kept),
  reg "TIER_FREE_T1" 0x40040 0x1000000 1 0x1000000 1 false 0 0 0 0 false 0 (.hw) (.hw),
  reg "TIER_MOVES_DONE" 0x40100 0x1000000 1 0x1000000 1 true 0 0 0 0 false 0 (.num 0) (.kept),
  reg "TIER_MOVE_ABANDON" 0x40108 0x1000000 1 0x1000000 1 true 0 0 0 0 false 0 (.num 0) (.kept),
  reg "TIER_MOVE_CANCEL" 0x40110 0x1000000 1 0x1000000 1 true 0 0 0 0 false 0 (.num 0) (.kept),
  reg "TIER_DEMOTE_BLOCKED" 0x40118 0x1000000 1 0x1000000 1 true 0 0 0 0 false 0 (.num 0) (.kept),
  reg "TIER_LATE_PAGES" 0x40120 0x1000000 1 0x1000000 1 true 0 0 0 0 false 0 (.num 0) (.kept),
  reg "TIER_POISONED" 0x40128 0x1000000 1 0x1000000 1 true 0 0 0 0 false 0 (.num 0) (.kept),
  reg "TIER_T3_STALLS" 0x40130 0x1000000 1 0x1000000 1 true 0 0 0 0 false 0 (.num 0) (.kept),
  reg "TIER_STALE_REPLY" 0x40138 0x1000000 1 0x1000000 1 true 0 0 0 0 false 0 (.num 0) (.kept),
  reg "TIER_RAW_BYTES" 0x40140 0x1000000 1 0x1000000 1 true 0 0 0 0 false 0 (.num 0) (.kept),
  reg "TIER_STORED_BYTES" 0x40148 0x1000000 1 0x1000000 1 true 0 0 0 0 false 0 (.num 0) (.kept)]

/-- Rows of the FLS block. -/
def rowsFls : List RegRow := [
  reg "FLS_MOUNT" 0x50010 0x1000000 1 0x1000000 1 false 0 0 0 0 false 0 (.hw) (.hw),
  reg "FLS_USABLE" 0x50014 0x1000000 1 0x1000000 1 false 0 0 0 0 false 0 (.hw) (.hw),
  reg "FLS_CH_STATUS" 0x50100 4 32 0x1000000 1 false 0 0 0 0 false 0 (.hw) (.kept)]

/-- Rows of the PFX block. -/
def rowsPfx : List RegRow := [
  reg "PFX_TTL" 0x60010 0x1000000 1 0x1000000 1 false 0x1ffff 0 0 0 true 0x5a0 (.load) (.kept),
  reg "PFX_MARGIN" 0x60014 0x1000000 1 0x1000000 1 false 0x3ff 0 0 0 false 0 (.num 0) (.kept),
  reg "PFX_EARLY" 0x60018 0x1000000 1 0x1000000 1 false 0x3ff 0 0 0 false 0x32 (.num 50) (.kept),
  reg "PFX_DOM_CTRL" 0x60020 0x1000000 1 0x1000000 1 false 0 0 0x3fff 0 false 0 (.num 0) (.num 0),
  reg "PFX_DOM_STATUS" 0x60024 0x1000000 1 0x1000000 1 false 0 6 0 0 false 0 (.num 0) (.num 0),
  reg "PFX_DOM_COMMIT" 0x60028 0x1000000 1 0x1000000 1 false 0 0 1 0 false 0 (.num 0) (.num 0),
  reg "PFX_PENDING" 0x6002c 0x1000000 1 0x1000000 1 false 0 0 0 0 false 0 (.num 0) (.num 0),
  reg "PFX_ENTRIES" 0x60040 0x1000000 1 0x1000000 1 false 0 0 0 0 false 0 (.hw) (.kept),
  reg "PFX_LOOKUPS" 0x60100 0x1000000 1 0x1000000 1 true 0 0 0 0 false 0 (.num 0) (.kept),
  reg "PFX_HASHED_BLOCKS" 0x60108 0x1000000 1 0x1000000 1 true 0 0 0 0 false 0 (.num 0) (.kept),
  reg "PFX_HIT_BLOCKS" 0x60110 0x1000000 1 0x1000000 1 true 0 0 0 0 false 0 (.num 0) (.kept),
  reg "PFX_PUBLISHES" 0x60118 0x1000000 1 0x1000000 1 true 0 0 0 0 false 0 (.num 0) (.kept),
  reg "PFX_DUP_PUBLISH" 0x60120 0x1000000 1 0x1000000 1 true 0 0 0 0 false 0 (.num 0) (.kept),
  reg "PFX_PUB_REFUSED" 0x60128 0x1000000 1 0x1000000 1 true 0 0 0 0 false 0 (.num 0) (.kept),
  reg "PFX_SCOPE_DOWN" 0x60130 0x1000000 1 0x1000000 1 true 0 0 0 0 false 0 (.num 0) (.kept),
  reg "PFX_ABANDON_DEMOTE" 0x60138 0x1000000 1 0x1000000 1 true 0 0 0 0 false 0 (.num 0) (.kept),
  reg "PFX_PIN_SAT" 0x60140 0x1000000 1 0x1000000 1 true 0 0 0 0 false 0 (.num 0) (.kept),
  reg "PFX_CACHE_PROBES" 0x60148 0x1000000 1 0x1000000 1 true 0 0 0 0 false 0 (.num 0) (.kept),
  reg "PFX_CACHE_HITS" 0x60150 0x1000000 1 0x1000000 1 true 0 0 0 0 false 0 (.num 0) (.kept),
  reg "PFX_EVICT" 0x60160 8 6 0x1000000 1 true 0 0 0 0 false 0 (.num 0) (.kept),
  reg "PFX_LATE_PAGES" 0x60190 8 5 0x1000000 1 true 0 0 0 0 false 0 (.num 0) (.kept),
  reg "PFX_LATE_ISSUE" 0x601b8 0x1000000 1 0x1000000 1 true 0 0 0 0 false 0 (.num 0) (.kept),
  reg "PFX_DIR_QUERIES" 0x601c0 0x1000000 1 0x1000000 1 true 0 0 0 0 false 0 (.num 0) (.kept),
  reg "PFX_DIR_HITS" 0x601c8 0x1000000 1 0x1000000 1 true 0 0 0 0 false 0 (.num 0) (.kept),
  reg "PFX_REMOTE_FAIL" 0x601d0 0x1000000 1 0x1000000 1 true 0 0 0 0 false 0 (.num 0) (.kept),
  reg "PFX_DOM_CFG" 0x64000 4 4096 0x1000000 1 false 0 0 0 0xffff07 true 0 (.load) (.kept)]

/-- Rows of the SCH block. -/
def rowsSch : List RegRow := [
  reg "SCH_HORIZON" 0x70010 0x1000000 1 0x1000000 1 false 0 0 0 0x3fff false 0xc8 (.num 200) (.kept),
  reg "SCH_PREFILL_SHARE" 0x70014 0x1000000 1 0x1000000 1 false 0 0 0 0x7f false 0x10 (.num 16) (.kept),
  reg "SCH_AGE_MS" 0x70018 0x1000000 1 0x1000000 1 false 0 0 0 0x3fff false 0x64 (.num 100) (.kept),
  reg "SCH_COMMIT" 0x7001c 0x1000000 1 0x1000000 1 false 0 0 1 0 false 0 (.num 0) (.num 0),
  reg "SCH_PENDING" 0x70020 0x1000000 1 0x1000000 1 false 0 0 0 0 false 0 (.num 0) (.num 0),
  reg "SCH_MODEL_CNT" 0x70040 0x1000000 1 0x1000000 1 false 0 0 0 0 false 0 (.num 0) (.kept),
  reg "SCH_CTX_STATE_CNT" 0x70080 4 5 0x1000000 1 false 0 0 0 0 false 0 (.num 0) (.kept),
  reg "SCH_BIN_READY" 0x700c0 4 13 0x1000000 1 false 0 0 0 0 false 0 (.num 0) (.num 0),
  reg "SCH_STEPS_DECODE" 0x70100 0x1000000 1 0x1000000 1 true 0 0 0 0 false 0 (.num 0) (.kept),
  reg "SCH_STEPS_PREFILL" 0x70108 0x1000000 1 0x1000000 1 true 0 0 0 0 false 0 (.num 0) (.kept),
  reg "SCH_STEPS_RESUME" 0x70110 0x1000000 1 0x1000000 1 true 0 0 0 0 false 0 (.num 0) (.kept),
  reg "SCH_BATCH_SLOTS" 0x70118 0x1000000 1 0x1000000 1 true 0 0 0 0 false 0 (.num 0) (.kept),
  reg "SCH_BATCH_CAP" 0x70120 0x1000000 1 0x1000000 1 true 0 0 0 0 false 0 (.num 0) (.kept),
  reg "SCH_KV_USEFUL" 0x70128 0x1000000 1 0x1000000 1 true 0 0 0 0 false 0 (.num 0) (.kept),
  reg "SCH_KV_PADDED" 0x70130 0x1000000 1 0x1000000 1 true 0 0 0 0 false 0 (.num 0) (.kept),
  reg "SCH_CLUSTER_BUSY" 0x70138 0x1000000 1 0x1000000 1 true 0 0 0 0 false 0 (.num 0) (.kept),
  reg "SCH_CLUSTER_AVAIL" 0x70140 0x1000000 1 0x1000000 1 true 0 0 0 0 false 0 (.num 0) (.kept),
  reg "SCH_OVERRUN_US" 0x70148 0x1000000 1 0x1000000 1 true 0 0 0 0 false 0 (.num 0) (.kept),
  reg "SCH_READY_WAIT_US" 0x70150 0x1000000 1 0x1000000 1 true 0 0 0 0 false 0 (.num 0) (.kept),
  reg "SCH_PREEMPT_NOTICE" 0x70158 0x1000000 1 0x1000000 1 true 0 0 0 0 false 0 (.num 0) (.kept),
  reg "SCH_PREEMPT_IMMEDIATE" 0x70160 0x1000000 1 0x1000000 1 true 0 0 0 0 false 0 (.num 0) (.kept),
  reg "SCH_RECOMPUTE_US" 0x70168 0x1000000 1 0x1000000 1 true 0 0 0 0 false 0 (.num 0) (.kept),
  reg "SCH_MERGE" 0x70170 0x1000000 1 0x1000000 1 true 0 0 0 0 false 0 (.num 0) (.kept),
  reg "SCH_JOIN_DEFER" 0x70178 0x1000000 1 0x1000000 1 true 0 0 0 0 false 0 (.num 0) (.kept)]

/-- Rows of the QUE block. -/
def rowsQue : List RegRow := [
  reg "QUE_ENG_STATUS" 0x80100 4 64 0x1000000 1 false 0 0 0 0 false 0 (.hw) (.kept),
  reg "QUE_CMDS" 0x80200 0x1000000 1 0x1000000 1 true 0 0 0 0 false 0 (.num 0) (.kept),
  reg "QUE_REPLAYED" 0x80210 0x1000000 1 0x1000000 1 true 0 0 0 0 false 0 (.num 0) (.kept),
  reg "QUE_STALE_REPLY" 0x80218 0x1000000 1 0x1000000 1 true 0 0 0 0 false 0 (.num 0) (.kept)]

/-- Rows of the EVF block. -/
def rowsEvf : List RegRow := [
  reg "EVF_EPOCH" 0x90010 0x1000000 1 0x1000000 1 false 0 0 0 0 false 0 (.num 0) (.kept),
  reg "EVF_INFLIGHT" 0x90014 4 2 0x1000000 1 false 0 0 0 0 false 0 (.num 0) (.num 0),
  reg "EVF_COMMIT" 0x9001c 0x1000000 1 0x1000000 1 false 0 0 1 0 false 0 (.num 0) (.num 0),
  reg "EVF_FLIPS" 0x90020 0x1000000 1 0x1000000 1 false 0 0 0 0 false 0 (.num 0) (.kept),
  reg "EVF_INJECTED" 0x90100 0x1000000 1 0x1000000 1 true 0 0 0 0 false 0 (.num 0) (.kept),
  reg "EVF_CORE_EVENTS" 0x90108 0x1000000 1 0x1000000 1 true 0 0 0 0 false 0 (.num 0) (.kept),
  reg "EVF_SPIKES" 0x90110 0x1000000 1 0x1000000 1 true 0 0 0 0 false 0 (.num 0) (.kept),
  reg "EVF_SYN_UPDATES" 0x90118 0x1000000 1 0x1000000 1 true 0 0 0 0 false 0 (.num 0) (.kept),
  reg "EVF_KEY_DROP" 0x90120 0x1000000 1 0x1000000 1 true 0 0 0 0 false 0 (.num 0) (.kept),
  reg "EVF_ROUTE_MISS" 0x90128 0x1000000 1 0x1000000 1 true 0 0 0 0 false 0 (.num 0) (.kept),
  reg "EVF_AXON_MISS" 0x90130 0x1000000 1 0x1000000 1 true 0 0 0 0 false 0 (.num 0) (.kept),
  reg "EVF_HOP_DROP" 0x90138 0x1000000 1 0x1000000 1 true 0 0 0 0 false 0 (.num 0) (.kept),
  reg "EVF_SPILLED" 0x90140 0x1000000 1 0x1000000 1 true 0 0 0 0 false 0 (.num 0) (.kept),
  reg "EVF_REPLAYED" 0x90148 0x1000000 1 0x1000000 1 true 0 0 0 0 false 0 (.num 0) (.kept),
  reg "EVF_RESTAMP" 0x90150 0x1000000 1 0x1000000 1 true 0 0 0 0 false 0 (.num 0) (.kept),
  reg "EVF_REFUSED" 0x90158 0x1000000 1 0x1000000 1 true 0 0 0 0 false 0 (.num 0) (.kept),
  reg "EVF_HOST_DROP" 0x90160 0x1000000 1 0x1000000 1 true 0 0 0 0 false 0 (.num 0) (.kept),
  reg "EVF_LINK_DROP" 0x90168 0x1000000 1 0x1000000 1 true 0 0 0 0 false 0 (.num 0) (.kept),
  reg "EVF_DEAD_ROUTE" 0x90170 0x1000000 1 0x1000000 1 true 0 0 0 0 false 0 (.num 0) (.kept),
  reg "EVF_RESET_DROP" 0x90178 0x1000000 1 0x1000000 1 true 0 0 0 0 false 0 (.num 0) (.kept),
  reg "EVF_STALE_REPLY" 0x90180 0x1000000 1 0x1000000 1 true 0 0 0 0 false 0 (.num 0) (.kept),
  reg "EVF_WAKES" 0x90188 0x1000000 1 0x1000000 1 true 0 0 0 0 false 0 (.num 0) (.kept),
  reg "EVF_SAT" 0x90190 0x1000000 1 0x1000000 1 true 0 0 0 0 false 0 (.num 0) (.kept),
  reg "EVF_MARKER_IN" 0x90198 0x1000000 1 0x1000000 1 true 0 0 0 0 false 0 (.num 0) (.kept),
  reg "EVF_CORE_STATUS" 0x91000 4 512 0x1000000 1 false 0 0 0 0 false 0 (.hw) (.kept),
  reg "EVF_ROUTER_USED" 0x92000 4 513 0x1000000 1 false 0 0 0 0 false 0 (.num 0) (.kept)]

/-- Rows of the ESP block. -/
def rowsEsp : List RegRow := [
  reg "ESP_CTRL" 0xa0000 0x100 2 0x1000000 1 false 3 0 0 0 false 0 (.num 0) (.kept),
  reg "ESP_STATUS" 0xa0004 0x100 2 0x1000000 1 false 0 0x1a 0 0 false 0 (.num 0) (.kept),
  reg "ESP_OWNER" 0xa0008 0x100 2 0x1000000 1 false 0xffff 0 0 0 true 0 (.load) (.kept),
  reg "ESP_SET_EPOCH" 0xa000c 0x100 2 0x1000000 1 false 0 0 0 0 false 0 (.num 0) (.kept),
  reg "ESP_SENSOR_TIME" 0xa0010 0x100 2 0x1000000 1 false 0 0 0 0 false 0 (.num 0) (.kept),
  reg "ESP_SENSOR_TB" 0xa0018 0x100 2 0x1000000 1 true 0 0 0 0 false 0 (.num 0) (.kept),
  reg "ESP_SENSOR_STATUS" 0xa0020 0x100 2 0x1000000 1 false 0 0 0 0 false 0 (.num 0) (.kept),
  reg "ESP_IBI" 0xa0024 0x100 2 0x1000000 1 false 0 0 0 0 false 0 (.num 0) (.kept),
  reg "ESP_I3C_STATUS" 0xa0028 0x100 2 0x1000000 1 false 0 0 0 0 false 0 (.num 0) (.kept),
  reg "ESP_FIFO_LEVEL" 0xa002c 0x100 2 0x1000000 1 false 0 0 0 0 false 0 (.num 0) (.num 0),
  reg "ESP_WORDS" 0xa0080 0x100 2 0x1000000 1 true 0 0 0 0 false 0 (.num 0) (.kept),
  reg "ESP_PIX" 0xa0088 0x100 2 0x1000000 1 true 0 0 0 0 false 0 (.num 0) (.kept),
  reg "ESP_OVR_DROP" 0xa0090 0x100 2 0x1000000 1 true 0 0 0 0 false 0 (.num 0) (.kept),
  reg "ESP_ROI_DROP" 0xa0098 0x100 2 0x1000000 1 true 0 0 0 0 false 0 (.num 0) (.kept),
  reg "ESP_POL_DROP" 0xa00a0 0x100 2 0x1000000 1 true 0 0 0 0 false 0 (.num 0) (.kept),
  reg "ESP_SETTLE_DROP" 0xa00a8 0x100 2 0x1000000 1 true 0 0 0 0 false 0 (.num 0) (.kept),
  reg "ESP_ALIGN_ERR" 0xa00b0 0x100 2 0x1000000 1 true 0 0 0 0 false 0 (.num 0) (.kept),
  reg "ESP_EXT_WORDS" 0xa00b8 0x100 2 0x1000000 1 true 0 0 0 0 false 0 (.num 0) (.kept),
  reg "ESP_TIME_BACK" 0xa00c0 0x100 2 0x1000000 1 true 0 0 0 0 false 0 (.num 0) (.kept),
  reg "ESP_TAP_LATE" 0xa0400 0x1000000 1 0x1000000 1 true 0 0 0 0 false 0 (.num 0) (.kept),
  reg "ESP_WIN_LOST" 0xa0408 0x1000000 1 0x1000000 1 true 0 0 0 0 false 0 (.num 0) (.kept)]

/-- Rows of the LNK block. -/
def rowsLnk : List RegRow := [
  reg "LNK_NODE_ID" 0xb0010 0x1000000 1 0x1000000 1 false 0xffff 0 0 0 true 0 (.load) (.kept),
  reg "LNK_NODE_EPOCH" 0xb0014 0x1000000 1 0x1000000 1 false 0 0 0 0 false 0 (.hw) (.hw),
  reg "LNK_EPOCH" 0xb0018 0x1000000 1 0x1000000 1 false 0 0 0 0 false 0 (.num 0) (.kept),
  reg "LNK_INFLIGHT" 0xb001c 4 2 0x1000000 1 false 0 0 0 0 false 0 (.num 0) (.num 0),
  reg "LNK_FLIP_AT" 0xb0028 0x1000000 1 0x1000000 1 true 0 0 0 0xffffffffffffffff false 0 (.num 0) (.kept),
  reg "LNK_RT_COMMIT" 0xb0030 0x1000000 1 0x1000000 1 false 0 0 1 0 false 0 (.num 0) (.num 0),
  reg "LNK_RT_STATUS" 0xb0034 0x1000000 1 0x1000000 1 false 0 4 0 0 false 0 (.num 0) (.num 0),
  reg "LNK_ESC_WAIT" 0xb0038 0x1000000 1 0x1000000 1 false 0x7f 0 0 0 false 2 (.num 2) (.kept),
  reg "LNK_ESCAPES" 0xb0100 0x1000000 1 0x1000000 1 true 0 0 0 0 false 0 (.num 0) (.kept),
  reg "LNK_AGE_DROP" 0xb0108 0x1000000 1 0x1000000 1 true 0 0 0 0 false 0 (.num 0) (.kept),
  reg "LNK_HOP_DROP" 0xb0110 0x1000000 1 0x1000000 1 true 0 0 0 0 false 0 (.num 0) (.kept),
  reg "LNK_NOROUTE" 0xb0118 0x1000000 1 0x1000000 1 true 0 0 0 0 false 0 (.num 0) (.kept),
  reg "LNK_BAD_TYPE" 0xb0120 0x1000000 1 0x1000000 1 true 0 0 0 0 false 0 (.num 0) (.kept),
  reg "LNK_SYNC_DISCARD" 0xb0128 0x1000000 1 0x1000000 1 true 0 0 0 0 false 0 (.num 0) (.kept),
  reg "LNK_RT_ROW" 0xb0400 8 32 0x1000000 1 true 0 0 0 0xffffffffffffffff false 0 (.num 0) (.kept),
  reg "LNK_RT_CHASSIS" 0xb0500 8 64 0x1000000 1 true 0 0 0 0xffffffffffffffff false 0 (.num 0) (.kept),
  reg "LNK_RT_SLED" 0xb0700 8 16 0x1000000 1 true 0 0 0 0xffffffffffffffff false 0 (.num 0) (.kept),
  reg "LNK_TIME_PARENT" 0xb0800 0x1000000 1 0x1000000 1 false 0x7f 0 0 0 false 0 (.num 0) (.kept),
  reg "LNK_TIME_STATUS" 0xb0804 0x1000000 1 0x1000000 1 false 0 0 0 0 false 0 (.num 0) (.kept),
  reg "LNK_TIME_OFFSET" 0xb0808 0x1000000 1 0x1000000 1 false 0 0 0 0 false 0 (.num 0) (.num 0),
  reg "LNK_TIME_DELAY" 0xb080c 0x1000000 1 0x1000000 1 false 0 0 0 0 false 0 (.num 0) (.num 0),
  reg "LNK_PORT_CTRL" 0xb1000 0x100 18 0x1000000 1 false 1 0 6 0 false 1 (.num 1) (.kept),
  reg "LNK_PORT_STATUS" 0xb1004 0x100 18 0x1000000 1 false 0 0x4000000 0 0 false 0 (.hw) (.kept),
  reg "LNK_PEER" 0xb1008 0x100 18 0x1000000 1 false 0 0 0 0 false 0 (.num 0) (.kept),
  reg "LNK_LANE_DIAG" 0xb100c 0x100 18 0x1000000 1 false 0 0 0 0 false 0 (.num 0) (.kept),
  reg "LNK_LOOP_NS" 0xb1010 0x100 18 0x1000000 1 false 0 0 0 0 false 0 (.num 0) (.kept),
  reg "LNK_FLITS_TX" 0xb1040 0x100 18 0x1000000 1 true 0 0 0 0 false 0 (.num 0) (.kept),
  reg "LNK_FLITS_RX" 0xb1048 0x100 18 0x1000000 1 true 0 0 0 0 false 0 (.num 0) (.kept),
  reg "LNK_FEC_CORR" 0xb1050 0x100 18 0x1000000 1 true 0 0 0 0 false 0 (.num 0) (.kept),
  reg "LNK_FEC_UNCORR" 0xb1058 0x100 18 0x1000000 1 true 0 0 0 0 false 0 (.num 0) (.kept),
  reg "LNK_CRC_ERR" 0xb1060 0x100 18 0x1000000 1 true 0 0 0 0 false 0 (.num 0) (.kept),
  reg "LNK_REPLAY" 0xb1068 0x100 18 0x1000000 1 true 0 0 0 0 false 0 (.num 0) (.kept),
  reg "LNK_RETRAIN" 0xb1070 0x100 18 0x1000000 1 true 0 0 0 0 false 0 (.num 0) (.kept),
  reg "LNK_RETRAIN_FAIL" 0xb1078 0x100 18 0x1000000 1 true 0 0 0 0 false 0 (.num 0) (.kept),
  reg "LNK_DOWN_DROP" 0xb1080 0x100 18 0x1000000 1 true 0 0 0 0 false 0 (.num 0) (.kept)]

/-- Rows of the HIE block. -/
def rowsHie : List RegRow := [
  reg "HIE_CTRL" 0xc0010 0x1000000 1 0x1000000 1 false 5 0 2 0 true 0 (.load) (.kept),
  reg "HIE_STATUS" 0xc0014 0x1000000 1 0x1000000 1 false 0 0 0 0 false 0 (.hw) (.hw),
  reg "HIE_PRIO" 0xc0018 0x1000000 1 0x1000000 1 false 0xff 0 0 0 true 0x80 (.load) (.kept),
  reg "HIE_TERM" 0xc0020 4 3 0x1000000 1 false 0 0 0 0 false 0 (.num 0) (.num 0),
  reg "HIE_MGR" 0xc0030 4 3 0x1000000 1 false 0 0 0 0 false 0 (.num 0) (.num 0),
  reg "HIE_RESERVE" 0xc0040 4 4 0x1000000 1 false 0 0 0 0 false 0 (.num 0) (.num 0),
  reg "HIE_LEND_T1" 0xc0050 0x1000000 1 0x1000000 1 false 0xffffffff 0 0 0 true 0 (.load) (.kept),
  reg "HIE_LEND_T2" 0xc0054 0x1000000 1 0x1000000 1 false 0xffffffff 0 0 0 true 0 (.load) (.kept),
  reg "HIE_POOL" 0xc0060 0x1000000 1 0x1000000 1 false 0 0 0 0 false 0 (.load) (.kept),
  reg "HIE_SITE_SIZE" 0xc0064 0x1000000 1 0x1000000 1 false 0 0 0 0 true 0 (.load) (.kept),
  reg "HIE_SITE_SECRET" 0xc0100 4 8 0x1000000 1 false 0 0 0xffffffff 0 true 0 (.load) (.kept),
  reg "HIE_ROLL_CTRL" 0xc0200 0x1000000 1 0x1000000 1 false 0x1f00 0 7 0 true 0x200 (.load) (.kept),
  reg "HIE_ROLL_CANARY" 0xc0204 0x1000000 1 0x1000000 1 false 0xffffffff 0 0 0 true 1 (.load) (.kept),
  reg "HIE_ROLL_SOAK_S" 0xc0208 0x1000000 1 0x1000000 1 false 0xffffffff 0 0 0 true 0x258 (.load) (.kept),
  reg "HIE_ROLL_DRAIN_S" 0xc020c 0x1000000 1 0x1000000 1 false 0xffffffff 0 0 0 true 0 (.load) (.kept),
  reg "HIE_ROLL_FAIL_MAX" 0xc0210 0x1000000 1 0x1000000 1 false 0xffffffff 0 0 0 true 0 (.load) (.kept),
  reg "HIE_ROLL_STATUS" 0xc0214 0x1000000 1 0x1000000 1 false 0 0 0 0 true 0 (.load) (.kept),
  reg "HIE_ROLL_FIRST_FAIL" 0xc0218 0x1000000 1 0x1000000 1 false 0 0 0 0 true 0 (.load) (.kept),
  reg "HIE_LDG_SEL" 0xc0300 0x1000000 1 0x1000000 1 false 0xfffffff 0 0 0 false 0 (.num 0) (.num 0),
  reg "HIE_LDG_STATUS" 0xc0304 0x1000000 1 0x1000000 1 false 0 0 0 0 false 0 (.num 0) (.num 0),
  reg "HIE_LDG_DATA" 0xc0340 4 16 0x1000000 1 false 0 0 0 0 false 0 (.num 0) (.num 0),
  reg "HIE_ELECTIONS" 0xc0400 0x1000000 1 0x1000000 1 true 0 0 0 0 false 0 (.num 0) (.kept),
  reg "HIE_BEACON_MISS" 0xc0408 0x1000000 1 0x1000000 1 true 0 0 0 0 false 0 (.num 0) (.kept),
  reg "HIE_JOIN_REFUSED" 0xc0410 0x1000000 1 0x1000000 1 true 0 0 0 0 false 0 (.num 0) (.kept),
  reg "HIE_FLIP_MISS" 0xc0418 0x1000000 1 0x1000000 1 true 0 0 0 0 false 0 (.num 0) (.kept),
  reg "HIE_SPAN_ADMITS" 0xc0420 0x1000000 1 0x1000000 1 true 0 0 0 0 false 0 (.num 0) (.kept),
  reg "HIE_SPAN_REFUSED" 0xc0428 0x1000000 1 0x1000000 1 true 0 0 0 0 false 0 (.num 0) (.kept),
  reg "HIE_LEDGER_FWD" 0xc0430 0x1000000 1 0x1000000 1 true 0 0 0 0 false 0 (.num 0) (.kept)]

/-- Rows of the NRG block. -/
def rowsNrg : List RegRow := [
  reg "NRG_CTRL" 0xd0010 0x1000000 1 0x1000000 1 false 1 0 0 0 true 0 (.load) (.kept),
  reg "NRG_PERIOD_S" 0xd0014 0x1000000 1 0x1000000 1 false 0 0 0 0x1ffff true 0xe10 (.load) (.kept),
  reg "NRG_ADMIT_W" 0xd0018 0x1000000 1 0x1000000 1 false 0 0 0 0x7ff true 0x3e8 (.load) (.kept),
  reg "NRG_STATIC_SHARE" 0xd001c 0x1000000 1 0x1000000 1 false 0 0 0 0x7f true 0x20 (.load) (.kept),
  reg "NRG_PACE_STEP" 0xd0020 0x1000000 1 0x1000000 1 false 0 0 0 0x1f true 4 (.load) (.kept),
  reg "NRG_COEF" 0xd0040 4 7 0x1000000 1 false 0 0 0 0xffffffff true 0 (.load) (.kept),
  reg "NRG_COMMIT" 0xd0060 0x1000000 1 0x1000000 1 false 0 0 1 0 false 0 (.num 0) (.num 0),
  reg "NRG_PENDING" 0xd0064 0x1000000 1 0x1000000 1 false 0 0 0 0 false 0 (.num 0) (.num 0),
  reg "NRG_STATUS" 0xd0068 0x1000000 1 0x1000000 1 false 0 8 0 0 false 0 (.num 0) (.kept),
  reg "NRG_PERIOD_SEQ" 0xd0070 0x1000000 1 0x1000000 1 false 0 0 0 0 true 0 (.load) (.kept),
  reg "NRG_RATIO" 0xd0074 0x1000000 1 0x1000000 1 false 0 0 0 0 false 0 (.num 0) (.num 0),
  reg "NRG_OVH_RATIO" 0xd0078 0x1000000 1 0x1000000 1 false 0 0 0 0 false 0 (.num 0) (.kept),
  reg "NRG_SLED_UJ" 0xd0100 0x1000000 1 0x1000000 1 true 0 0 0 0 true 0 (.load) (.kept),
  reg "NRG_DEVICE_UJ" 0xd0108 0x1000000 1 0x1000000 1 true 0 0 0 0 true 0 (.load) (.kept),
  reg "NRG_DEVICE_OVH_UJ" 0xd0110 0x1000000 1 0x1000000 1 true 0 0 0 0 true 0 (.load) (.kept),
  reg "NRG_SCALED_S" 0xd0200 0x1000000 1 0x1000000 1 true 0 0 0 0 false 0 (.num 0) (.kept),
  reg "NRG_UNREC_S" 0xd0208 0x1000000 1 0x1000000 1 true 0 0 0 0 false 0 (.num 0) (.kept),
  reg "NRG_OVH_MISS" 0xd0210 0x1000000 1 0x1000000 1 true 0 0 0 0 false 0 (.num 0) (.kept),
  reg "NRG_OVH_NEG" 0xd0218 0x1000000 1 0x1000000 1 true 0 0 0 0 false 0 (.num 0) (.kept),
  reg "NRG_REFUSED" 0xd0220 0x1000000 1 0x1000000 1 true 0 0 0 0 false 0 (.num 0) (.kept)]

/-- Rows of the FW block. -/
def rowsFw : List RegRow := [
  reg "FW_VERSION" 0xe0000 0x1000000 1 0x1000000 1 false 0 0 0 0 false 0 (.hw) (.hw),
  reg "FW_EPOCH" 0xe0004 0x1000000 1 0x1000000 1 false 0 0 0 0 false 0 (.hw) (.hw),
  reg "FW_BOOT" 0xe0008 0x1000000 1 0x1000000 1 false 0 0 0 0 false 0 (.hw) (.hw),
  reg "FW_DIGEST" 0xe0010 4 12 0x1000000 1 false 0 0 0 0 false 0 (.hw) (.hw),
  reg "FW_SLOT" 0xe0040 8 2 0x1000000 1 false 0 0 0 0 false 0 (.hw) (.hw),
  reg "FW_SLOT_VERSION" 0xe0044 8 2 0x1000000 1 false 0 0 0 0 false 0 (.hw) (.hw),
  reg "FW_DESC_SEQ" 0xe0050 0x1000000 1 0x1000000 1 false 0 0 0 0 false 0 (.hw) (.hw),
  reg "FW_UPD_CMD" 0xe0100 0x1000000 1 0x1000000 1 false 0 0 0x1f 0 false 0 (.num 0) (.num 0),
  reg "FW_UPD_SRC" 0xe0108 0x1000000 1 0x1000000 1 true 0xffffffffffffffff 0 0 0 false 0 (.num 0) (.num 0),
  reg "FW_UPD_OFS" 0xe0110 0x1000000 1 0x1000000 1 false 0xffffffff 0 0 0 false 0 (.num 0) (.num 0),
  reg "FW_UPD_LEN" 0xe0114 0x1000000 1 0x1000000 1 false 0xffffffff 0 0 0 false 0 (.num 0) (.num 0),
  reg "FW_UPD_STATUS" 0xe0118 0x1000000 1 0x1000000 1 false 0 0 0 0 false 0 (.num 0) (.num 0),
  reg "FW_UPD_RESULT" 0xe011c 0x1000000 1 0x1000000 1 false 0 0 0 0 false 0 (.num 0) (.num 0),
  reg "FW_UPD_WRITTEN" 0xe0120 0x1000000 1 0x1000000 1 false 0 0 0 0 false 0 (.num 0) (.num 0),
  reg "FW_AUTO_CONFIRM_S" 0xe0130 0x1000000 1 0x1000000 1 false 0x1ffff 0 0 0 true 0 (.load) (.kept),
  reg "FW_WDT_MS" 0xe0140 0x1000000 1 0x1000000 1 false 0x7ff 0 0 0 true 0x1f4 (.load) (.kept),
  reg "FW_READY" 0xe0144 0x1000000 1 0x1000000 1 false 0 0 0 0 false 0 (.num 0) (.num 0),
  reg "FW_NOTICE" 0xe0150 0x1000000 1 0x1000000 1 false 0 0x1f 0 0 false 0 (.num 0) (.num 0),
  reg "FW_LOG_SEQ" 0xe0200 0x1000000 1 0x1000000 1 false 0 0 0 0 false 0 (.num 0) (.kept),
  reg "FW_LOG_MIN_SEV" 0xe0204 0x1000000 1 0x1000000 1 false 7 0 0 0 true 1 (.load) (.kept),
  reg "FW_TRACE_EN" 0xe0300 4 8 0x1000000 1 false 0xffffffff 0 0 0 false 0 (.num 0) (.kept),
  reg "FW_TRACE_SEQ" 0xe0320 0x1000000 1 0x1000000 1 true 0 0 0 0 false 0 (.num 0) (.kept),
  reg "FW_TRACE_SEL" 0xe0328 0x1000000 1 0x1000000 1 false 0x7fff 0 0 0 false 0 (.num 0) (.num 0),
  reg "FW_TRACE_DATA" 0xe0340 4 8 0x1000000 1 false 0 0 0 0 false 0 (.num 0) (.num 0),
  reg "FW_CERT_COMMIT" 0xe0380 0x1000000 1 0x1000000 1 false 0 0 0xffff 0 false 0 (.num 0) (.num 0),
  reg "FW_CERT_STATUS" 0xe0384 0x1000000 1 0x1000000 1 false 0 2 0 0 false 0 (.load) (.kept),
  reg "FW_WDT_RESTARTS" 0xe0400 0x1000000 1 0x1000000 1 true 0 0 0 0 false 0 (.num 0) (.kept),
  reg "FW_TRIALS" 0xe0408 0x1000000 1 0x1000000 1 true 0 0 0 0 false 0 (.num 0) (.kept),
  reg "FW_REVERTS" 0xe0410 0x1000000 1 0x1000000 1 true 0 0 0 0 false 0 (.num 0) (.kept),
  reg "FW_CONFIRMS" 0xe0418 0x1000000 1 0x1000000 1 true 0 0 0 0 false 0 (.num 0) (.kept),
  reg "FW_CHECK_FAIL" 0xe0420 0x1000000 1 0x1000000 1 true 0 0 0 0 false 0 (.num 0) (.kept),
  reg "FW_UPD_REFUSED" 0xe0428 0x1000000 1 0x1000000 1 true 0 0 0 0 false 0 (.num 0) (.kept),
  reg "FW_CERT" 0xe1000 4 1024 0x1000000 1 false 0xffffffff 0 0 0 false 0 (.num 0) (.kept)]

/-- Rows of the FLT block, part 1. -/
def rowsFlt1 : List RegRow := [
  reg "FLT_NOTICE" 0xf0000 0x1000000 1 0x1000000 1 false 0 7 0 0 false 0 (.num 0) (.num 0),
  reg "FLT_STATUS" 0xf0004 0x1000000 1 0x1000000 1 false 0 0 0 0 false 0 (.num 0) (.kept),
  reg "FLT_INSVC" 0xf0010 4 11 0x1000000 1 false 0 0 0 0 false 0 (.hw) (.hw),
  reg "FLT_RET_CL" 0xf0100 4 4 0x1000000 1 false 0 0 0 0 false 0 (.load) (.kept),
  reg "FLT_RET_EVC" 0xf0120 4 16 0x1000000 1 false 0 0 0 0 false 0 (.load) (.kept),
  reg "FLT_RET_PCH" 0xf0160 4 8 0x1000000 1 false 0 0 0 0 false 0 (.load) (.kept),
  reg "FLT_RET_LANE" 0xf0180 4 5 0x1000000 1 false 0 0 0 0 false 0 (.load) (.kept),
  reg "FLT_RET_FLS" 0xf01a0 4 4 0x1000000 1 false 0 0 0 0 false 0 (.load) (.kept),
  reg "FLT_RET_MISC" 0xf01b0 4 3 0x1000000 1 false 0 0 0 0 false 0 (.load) (.kept),
  reg "FLT_UNIT_SEL" 0xf01c0 0x1000000 1 0x1000000 1 false 0x3fff 0 0 0 false 0 (.num 0) (.num 0),
  reg "FLT_UNIT_DATA" 0xf01c4 0x1000000 1 0x1000000 1 false 0 0 0 0 false 0 (.num 0) (.num 0),
  reg "FLT_LDG_NEXT" 0xf0200 0x1000000 1 0x1000000 1 false 0 0 0 0 false 0 (.load) (.kept),
  reg "FLT_LDG_QUEUED" 0xf0204 0x1000000 1 0x1000000 1 false 0 0 0 0 false 0 (.load) (.kept),
  reg "FLT_LDG_SEL" 0xf0208 0x1000000 1 0x1000000 1 false 0xffffffff 0 0 0 false 0 (.num 0) (.num 0),
  reg "FLT_LDG_STATUS" 0xf020c 0x1000000 1 0x1000000 1 false 0 0 0 0 false 0 (.num 0) (.num 0),
  reg "FLT_LDG_DATA" 0xf0240 4 16 0x1000000 1 false 0 0 0 0 false 0 (.num 0) (.num 0),
  reg "FLT_HBM_CE" 0xf0300 0x1000000 1 0x1000000 1 true 0 0 0 0 false 0 (.num 0) (.kept),
  reg "FLT_HBM_UE" 0xf0308 0x1000000 1 0x1000000 1 true 0 0 0 0 false 0 (.num 0) (.kept),
  reg "FLT_HBM_PPR" 0xf0310 0x1000000 1 0x1000000 1 true 0 0 0 0 false 0 (.num 0) (.kept),
  reg "FLT_UNIT_FAULTS" 0xf0318 0x1000000 1 0x1000000 1 true 0 0 0 0 false 0 (.num 0) (.kept),
  reg "FLT_FLS_BAD_BLOCKS" 0xf0320 0x1000000 1 0x1000000 1 true 0 0 0 0 false 0 (.num 0) (.kept),
  reg "FLT_HUB_FAULTS" 0xf0328 0x1000000 1 0x1000000 1 true 0 0 0 0 false 0 (.num 0) (.kept),
  reg "FLT_RETIREMENTS" 0xf0330 0x1000000 1 0x1000000 1 true 0 0 0 0 false 0 (.num 0) (.kept),
  reg "FLT_LDG_COMPACTIONS" 0xf0338 0x1000000 1 0x1000000 1 true 0 0 0 0 false 0 (.num 0) (.kept),
  reg "FLT_LDG_DROP" 0xf0340 0x1000000 1 0x1000000 1 true 0 0 0 0 false 0 (.num 0) (.kept),
  reg "FLT_PRG_THRESH_US" 0xf0800 0x1000000 1 0x1000000 1 false 0xfffff 0 0 0 false 0x64 (.num 100) (.kept),
  reg "FLT_PRG_STALL_CNT" 0xf0810 8 6 0x1000000 1 true 0 0 0 0 false 0 (.num 0) (.kept),
  reg "FLT_PRG_STALL_MAX_US" 0xf0840 4 6 0x1000000 1 false 0xffffffff 0 0 0 false 0 (.num 0) (.kept),
  reg "FLT_PRG_ORDER_VIOL" 0xf0860 0x1000000 1 0x1000000 1 true 0 0 0 0 false 0 (.num 0) (.kept),
  reg "FLT_PRG_INJ_REFUSED" 0xf0868 0x1000000 1 0x1000000 1 true 0 0 0 0 false 0 (.num 0) (.kept),
  reg "FLT_PRG_L7_DROP" 0xf0870 0x1000000 1 0x1000000 1 true 0 0 0 0 false 0 (.num 0) (.kept),
  reg "FLT_PRG_ESC_DROP" 0xf0878 0x1000000 1 0x1000000 1 true 0 0 0 0 false 0 (.num 0) (.kept),
  reg "FLT_PRG_ESC_USE" 0xf0880 0x1000000 1 0x1000000 1 false 0 0 0 0 false 0 (.num 0) (.kept),
  reg "IST_CTRL" 0xf8000 0x1000000 1 0x1000000 1 false 1 0 0 0 true 0 (.load) (.kept),
  reg "IST_COV_AGE_S" 0xf8010 0x1000000 1 0x1000000 1 false 0 0 0 0 false 0 (.num 0) (.kept),
  reg "IST_SCRUB_DONE" 0xf8014 0x1000000 1 0x1000000 1 false 0 0 0 0 false 0 (.num 0) (.kept),
  reg "IST_QUAR" 0xf8018 0x1000000 1 0x1000000 1 false 0 0 0 0 false 0 (.num 0) (.num 0),
  reg "IST_SLICES" 0xf8100 0x1000000 1 0x1000000 1 true 0 0 0 0 false 0 (.num 0) (.kept),
  reg "IST_YIELDS" 0xf8108 0x1000000 1 0x1000000 1 true 0 0 0 0 false 0 (.num 0) (.kept),
  reg "IST_FORCED" 0xf8110 0x1000000 1 0x1000000 1 true 0 0 0 0 false 0 (.num 0) (.kept)]

/-- Rows of the FLT block, part 2. -/
def rowsFlt2 : List RegRow := [
  reg "IST_FAILS" 0xf8118 0x1000000 1 0x1000000 1 true 0 0 0 0 false 0 (.num 0) (.kept),
  reg "IST_LANE_MARGIN" 0xf8120 0x1000000 1 0x1000000 1 true 0 0 0 0 false 0 (.num 0) (.kept)]

/-- Rows of the FLT block. -/
def rowsFlt : List RegRow := rowsFlt1 ++ rowsFlt2

/-- Rows of the LDG block. -/
def rowsLdg : List RegRow := [
  reg "LDG_LOCATION" 0x100040 0x1000000 1 0x1000000 1 false 0 0 0 0 true 0 (.load) (.kept),
  reg "LDG_STRAP" 0x100044 0x1000000 1 0x1000000 1 false 0 0x8000 0 0 false 0 (.hw) (.hw)]

/-- Rows of the ADC block. -/
def rowsAdc : List RegRow := [
  reg "ADC_SD_CFG" 0x110000 4 8 0x1000000 1 false 0 0 0 0x3f013f true 0 (.load) (.kept),
  reg "ADC_SD_COMMIT" 0x110020 0x1000000 1 0x1000000 1 false 0 0 1 0 false 0 (.num 0) (.num 0),
  reg "ADC_PENDING" 0x110024 0x1000000 1 0x1000000 1 false 0 0 0 0 false 0 (.num 0) (.num 0),
  reg "ADC_SD_STATUS" 0x110040 4 8 0x1000000 1 false 0 8 0 0 false 0 (.kept) (.kept),
  reg "ADC_IC_CFG" 0x110100 0x1000000 1 0x1000000 1 false 0 0 0 0xffff true 0 (.load) (.kept),
  reg "ADC_IC_COMMIT" 0x110104 0x1000000 1 0x1000000 1 false 0 0 1 0 false 0 (.num 0) (.num 0),
  reg "ADC_IC_STATUS" 0x110110 4 4 0x1000000 1 false 0 0 0 0 false 0 (.kept) (.kept),
  reg "ADC_SCAN" 0x110180 4 32 0x1000000 1 false 0 0 0 0x3ff true 0 (.load) (.kept),
  reg "ADC_IC_RES" 0x110200 8 4 0x1000000 1 true 0 0 0 0 false 0x80000000 (.kept) (.kept),
  reg "ADC_PAIR_RES" 0x110240 8 2 0x1000000 1 true 0 0 0 0 false 0x80000000 (.kept) (.kept),
  reg "ADC_PAIR_TB" 0x110250 8 2 0x1000000 1 true 0 0 0 0 false 0 (.kept) (.kept),
  reg "ADC_SCAN_RES" 0x110300 8 32 0x1000000 1 true 0 0 0 0 false 0x80000000 (.kept) (.kept),
  reg "ADC_URG" 0x110400 0x1000000 1 0x1000000 1 false 0 0 0x7ff 0 false 0 (.num 0) (.num 0),
  reg "ADC_URG_STATUS" 0x110404 0x1000000 1 0x1000000 1 false 0 0 0 0 false 0 (.num 0) (.kept),
  reg "ADC_URG_RES" 0x110408 0x1000000 1 0x1000000 1 true 0 0 0 0 false 0x80000000 (.kept) (.kept),
  reg "ADC_URG_WAIT_US" 0x110410 0x1000000 1 0x1000000 1 false 0 0 0 0 false 0 (.num 0) (.kept),
  reg "ADC_CAL_CTRL" 0x110500 0x1000000 1 0x1000000 1 false 4 0 3 0 true 0 (.load) (.kept),
  reg "ADC_CAL_STATUS" 0x110504 0x1000000 1 0x1000000 1 false 0 0 0 0 false 0 (.kept) (.kept),
  reg "ADC_CAL_TEMP" 0x110508 0x1000000 1 0x1000000 1 false 0 0 0 0 false 0 (.kept) (.kept),
  reg "ADC_SYSCAL" 0x110510 0x1000000 1 0x1000000 1 false 0 0 0x37ff 0 false 0 (.num 0) (.num 0),
  reg "ADC_SYSCAL_REF" 0x110514 0x1000000 1 0x1000000 1 false 0xffffff 0 0 0 false 0 (.num 0) (.kept),
  reg "ADC_SYSCAL_STATUS" 0x110518 0x1000000 1 0x1000000 1 false 0 0 0 0 false 0 (.num 0) (.kept),
  reg "ADC_SYSCAL_SAVE" 0x11051c 0x1000000 1 0x1000000 1 false 0 0 0xffff 0 false 0 (.num 0) (.num 0),
  reg "ADC_SYSCAL_SAVE_STATUS" 0x110520 0x1000000 1 0x1000000 1 false 0 0 0 0 false 0 (.num 0) (.kept),
  reg "ADC_DROPCNT" 0x110600 0x1000000 1 0x1000000 1 true 0 0 0 0 false 0 (.num 0) (.kept),
  reg "ADC_URG_REJECT" 0x110608 0x1000000 1 0x1000000 1 true 0 0 0 0 false 0 (.num 0) (.kept),
  reg "ADC_MISSING" 0x110610 8 4 0x1000000 1 true 0 0 0 0 false 0 (.num 0) (.kept),
  reg "ADC_SD_RESETS" 0x110640 8 8 0x1000000 1 true 0 0 0 0 false 0 (.num 0) (.kept),
  reg "ADC_RANGE_CHG" 0x110680 0x1000000 1 0x1000000 1 true 0 0 0 0 false 0 (.num 0) (.kept),
  reg "ADC_CAL_FAIL" 0x110688 0x1000000 1 0x1000000 1 true 0 0 0 0 false 0 (.num 0) (.kept)]

/-- Rows of the DEC block. -/
def rowsDec : List RegRow := [
  reg "DEC_CFG" 0x120000 4 8 0x1000000 1 false 0 0 0 0xfff true 0 (.load) (.kept),
  reg "DEC_MODE" 0x120020 0x1000000 1 0x1000000 1 false 0 0 0 3 true 0 (.load) (.kept),
  reg "DEC_COMMIT" 0x120024 0x1000000 1 0x1000000 1 false 0 0 1 0 false 0 (.num 0) (.num 0),
  reg "DEC_PENDING" 0x120028 0x1000000 1 0x1000000 1 false 0 0 0 0 false 0 (.num 0) (.kept),
  reg "DEC_CTRL" 0x12002c 0x1000000 1 0x1000000 1 false 2 0 1 0 false 0 (.num 0) (.kept),
  reg "DEC_SYNC_AT" 0x120030 0x1000000 1 0x1000000 1 true 0xffffffffffffffff 0 0 0 false 0 (.num 0) (.kept),
  reg "DEC_SYNC_TB" 0x120038 0x1000000 1 0x1000000 1 true 0 0 0 0 false 0 (.hw) (.kept),
  reg "DEC_SYNC_FRAC" 0x120040 0x1000000 1 0x1000000 1 false 0 0 0 0 false 0 (.hw) (.kept),
  reg "DEC_STATUS" 0x120044 0x1000000 1 0x1000000 1 false 0 3 0 0 false 0 (.num 0) (.kept),
  reg "DEC_CH_STATUS" 0x120060 4 8 0x1000000 1 false 0 0x60 0 0 false 0 (.hw) (.kept),
  reg "DEC_OUT" 0x120100 8 8 0x1000000 1 true 0 0 0 0 false 0x80000000 (.kept) (.kept),
  reg "DEC_CAP_CTRL" 0x120200 0x1000000 1 0x1000000 1 false 0xff 0 0x100 0 false 0 (.num 0) (.kept),
  reg "DEC_CAP_SEL" 0x120204 0x1000000 1 0x1000000 1 false 0x1fff 0 0 0 false 0 (.num 0) (.kept),
  reg "DEC_CAP_DATA" 0x120208 0x1000000 1 0x1000000 1 false 0 0 0 0 false 0 (.num 0) (.kept),
  reg "DEC_SAT" 0x120400 8 8 0x1000000 1 true 0 0 0 0 false 0 (.num 0) (.kept),
  reg "DEC_UNSETTLED" 0x120440 0x1000000 1 0x1000000 1 true 0 0 0 0 false 0 (.num 0) (.kept),
  reg "DEC_SYNC_STEPS" 0x120448 0x1000000 1 0x1000000 1 true 0 0 0 0 false 0 (.num 0) (.kept),
  reg "DEC_SYNC_ALIGNED" 0x120450 0x1000000 1 0x1000000 1 true 0 0 0 0 false 0 (.num 0) (.kept),
  reg "DEC_SYNC_IGNORED" 0x120458 0x1000000 1 0x1000000 1 true 0 0 0 0 false 0 (.num 0) (.kept),
  reg "DEC_CFG_REJECT" 0x120460 0x1000000 1 0x1000000 1 true 0 0 0 0 false 0 (.num 0) (.kept)]

/-- Rows of the MTR block, part 1. -/
def rowsMtr1 : List RegRow := [
  reg "MTR_CFG" 0x130000 0x1000000 1 0x1000000 1 false 0 0 0 0x1ff true 0x110 (.load) (.kept),
  reg "MTR_VNOM" 0x130004 0x1000000 1 0x1000000 1 false 0 0 0 0xffffffff true 0 (.load) (.kept),
  reg "MTR_IB" 0x130008 0x1000000 1 0x1000000 1 false 0 0 0 0xffffffff true 0 (.load) (.kept),
  reg "MTR_CF_CONST" 0x13000c 0x1000000 1 0x1000000 1 false 0 0 0 0xfffff true 0x2710 (.load) (.kept),
  reg "MTR_CF_WIDTH" 0x130010 0x1000000 1 0x1000000 1 false 0 0 0 0xff true 0x50 (.load) (.kept),
  reg "MTR_COMMIT" 0x130014 0x1000000 1 0x1000000 1 false 0 0 1 0 false 0 (.num 0) (.num 0),
  reg "MTR_STATUS" 0x130018 0x1000000 1 0x1000000 1 false 0 0x2002 0 0 false 0 (.kept) (.kept),
  reg "MTR_CFG_SEQ" 0x13001c 0x1000000 1 0x1000000 1 false 0 0 0 0 true 0 (.load) (.kept),
  reg "MTR_FREQ" 0x130020 0x1000000 1 0x1000000 1 false 0 0 0 0 false 0 (.num 0) (.kept),
  reg "MTR_K" 0x130040 4 8 0x1000000 1 false 0 0 0 0xffffffff true 0 (.load) (.kept),
  reg "MTR_SLED_KV" 0x130060 0x1000000 1 0x1000000 1 false 0 0 0 0 true 0 (.load) (.kept),
  reg "MTR_PHCAL" 0x130064 4 3 0x1000000 1 false 0 0 0 0xffff true 0 (.load) (.kept),
  reg "MTR_CYC_SEQ" 0x130100 0x1000000 1 0x1000000 1 false 0 0 0 0 false 0 (.num 0) (.kept),
  reg "MTR_CYC_FLAGS" 0x130104 0x1000000 1 0x1000000 1 false 0 0 0 0 false 0 (.num 0) (.kept),
  reg "MTR_VAL" 0x130110 0x20 4 4 6 false 0 0 0 0 false 0x80000000 (.num 2147483648) (.kept),
  reg "MTR_IN" 0x130190 0x1000000 1 0x1000000 1 false 0 0 0 0 false 0x80000000 (.num 2147483648) (.kept),
  reg "MTR_IN_CALC" 0x130194 0x1000000 1 0x1000000 1 false 0 0 0 0 false 0x80000000 (.num 2147483648) (.kept),
  reg "MTR_E" 0x130200 0x28 4 8 5 true 0 0 0 0 false 0 (.load) (.kept),
  reg "MTR_SLED_E" 0x130300 8 2 0x1000000 1 true 0 0 0 0 false 0 (.load) (.kept),
  reg "MTR_SLED_V" 0x130310 0x1000000 1 0x1000000 1 false 0 0 0 0 false 0x80000000 (.num 2147483648) (.kept),
  reg "MTR_SLED_I" 0x130314 0x1000000 1 0x1000000 1 false 0 0 0 0 false 0x80000000 (.num 2147483648) (.kept),
  reg "MTR_SLED_P1MS" 0x130318 0x1000000 1 0x1000000 1 false 0 0 0 0 false 0x80000000 (.num 2147483648) (.kept),
  reg "MTR_ECLR" 0x130320 0x1000000 1 0x1000000 1 false 0 0 0xffff 0 false 0 (.num 0) (.num 0),
  reg "MTR_CF_CNT" 0x130400 8 3 0x1000000 1 true 0 0 0 0 false 0 (.load) (.kept),
  reg "MTR_CF_BACKLOG" 0x130418 4 3 0x1000000 1 false 0 0 0 0 false 0 (.num 0) (.kept),
  reg "MTR_HARM_SEL" 0x130500 0x1000000 1 0x1000000 1 false 7 0 0 0 false 0 (.num 0) (.kept),
  reg "MTR_HARM_HDR" 0x130504 4 3 0x1000000 1 false 0 0 0 0 false 0 (.num 0) (.kept),
  reg "MTR_HARM_TB" 0x130510 0x1000000 1 0x1000000 1 true 0 0 0 0 false 0 (.num 0) (.kept),
  reg "MTR_HARM_DATA" 0x130540 4 33 0x1000000 1 false 0 0 0 0 false 0 (.num 0) (.kept),
  reg "MTR_EVT_PROD" 0x130600 0x1000000 1 0x1000000 1 false 0 0 0 0 false 0 (.num 0) (.kept),
  reg "MTR_EVT_CONS" 0x130604 0x1000000 1 0x1000000 1 false 0xffffffff 0 0 0 false 0 (.num 0) (.kept),
  reg "MTR_CAL" 0x130700 0x1000000 1 0x1000000 1 false 0 0 0xff0f 0 false 0 (.num 0) (.num 0),
  reg "MTR_CAL_REF_V" 0x130704 0x1000000 1 0x1000000 1 false 0xffffffff 0 0 0 false 0 (.num 0) (.kept),
  reg "MTR_CAL_REF_I" 0x130708 0x1000000 1 0x1000000 1 false 0xffffffff 0 0 0 false 0 (.num 0) (.kept),
  reg "MTR_CAL_REF_PF" 0x13070c 0x1000000 1 0x1000000 1 false 0xffff 0 0 0 false 0 (.num 0) (.kept),
  reg "MTR_CAL_STATUS" 0x130710 0x1000000 1 0x1000000 1 false 0 0 0 0 false 0 (.num 0) (.kept),
  reg "MTR_EVT" 0x130800 0x20 64 4 8 false 0 0 0 0 false 0 (.num 0) (.kept),
  reg "MTR_HOLD_CYCLES" 0x131000 0x1000000 1 0x1000000 1 true 0 0 0 0 false 0 (.kept) (.kept),
  reg "MTR_GAP_CYCLES" 0x131008 0x1000000 1 0x1000000 1 true 0 0 0 0 false 0 (.kept) (.kept),
  reg "MTR_UNAVAIL_US" 0x131010 0x1000000 1 0x1000000 1 true 0 0 0 0 false 0 (.kept) (.kept)]

/-- Rows of the MTR block, part 2. -/
def rowsMtr2 : List RegRow := [
  reg "MTR_FREQ_LOSS" 0x131018 0x1000000 1 0x1000000 1 true 0 0 0 0 false 0 (.kept) (.kept),
  reg "MTR_EVT_DROP" 0x131020 0x1000000 1 0x1000000 1 true 0 0 0 0 false 0 (.kept) (.kept),
  reg "MTR_CFG_REJECT" 0x131028 0x1000000 1 0x1000000 1 true 0 0 0 0 false 0 (.kept) (.kept)]

/-- Rows of the MTR block. -/
def rowsMtr : List RegRow := rowsMtr1 ++ rowsMtr2

/-- Rows of the PNL block. -/
def rowsPnl : List RegRow := [
  reg "PNL_CFG" 0x140000 0x1000000 1 0x1000000 1 false 0 0 0 0x3fffffff true 0x3e80000 (.load) (.kept),
  reg "PNL_FL" 0x140004 0x1000000 1 0x1000000 1 false 0 0 0 0x1ff true 0 (.load) (.kept),
  reg "PNL_COMMIT" 0x140008 0x1000000 1 0x1000000 1 false 0 0 1 0 false 0 (.num 0) (.num 0),
  reg "PNL_PENDING" 0x14000c 0x1000000 1 0x1000000 1 false 0 0 0 0 false 0 (.num 0) (.kept),
  reg "PNL_FL_WAKE" 0x140010 0x1000000 1 0x1000000 1 false 0x3ffff 0 0 0 true 0x1e00 (.load) (.kept),
  reg "PNL_BODY_OWN" 0x140014 0x1000000 1 0x1000000 1 false 3 0 0 0 true 0 (.load) (.kept),
  reg "PNL_UPDATE" 0x140020 0x1000000 1 0x1000000 1 false 0 0 0xf 0 false 0 (.num 0) (.num 0),
  reg "PNL_UPD_STATUS" 0x140024 4 2 0x1000000 1 false 0 0 0 0 false 0 (.num 0) (.kept),
  reg "PNL_STATUS" 0x140030 0x1000000 1 0x1000000 1 false 0 0x400 0 0 false 0 (.hw) (.kept),
  reg "PNL_TEMP" 0x140034 0x1000000 1 0x1000000 1 false 0 0 0 0 false 0 (.kept) (.kept),
  reg "PNL_FRAME" 0x140038 0x1000000 1 0x1000000 1 false 0 0 0 0 false 0 (.num 0) (.kept),
  reg "PNL_E_FINISH_UJ" 0x140040 0x1000000 1 0x1000000 1 false 0 0 0 0 false 0 (.num 0) (.kept),
  reg "PNL_E_CKPT_UJ" 0x140044 0x1000000 1 0x1000000 1 false 0 0 0 0 false 0 (.num 0) (.kept),
  reg "PNL_CKPT_FRAMES" 0x140048 0x1000000 1 0x1000000 1 false 0 0 0 0 false 0 (.num 0) (.kept),
  reg "PNL_PHASE" 0x14004c 0x1000000 1 0x1000000 1 false 0 0 0 0 true 0 (.load) (.kept),
  reg "PNL_LEDGER" 0x140050 8 2 0x1000000 1 true 0 0 0 0 true 0 (.load) (.kept),
  reg "PNL_TBL_STATUS" 0x140060 0x1000000 1 0x1000000 1 false 0 0x10000 0 0 false 0 (.load) (.kept),
  reg "PNL_TBL_COMMIT" 0x140064 0x1000000 1 0x1000000 1 false 0 0 0xffff 0 false 0 (.num 0) (.num 0),
  reg "PNL_UPDATES" 0x140100 0x1000000 1 0x1000000 1 true 0 0 0 0 false 0 (.num 0) (.kept),
  reg "PNL_REFUSED" 0x140108 0x1000000 1 0x1000000 1 true 0 0 0 0 false 0 (.num 0) (.kept),
  reg "PNL_FB_BUSY_DROP" 0x140110 0x1000000 1 0x1000000 1 true 0 0 0 0 false 0 (.num 0) (.kept),
  reg "PNL_FB_DENIED" 0x140118 0x1000000 1 0x1000000 1 true 0 0 0 0 false 0 (.num 0) (.kept),
  reg "PNL_COMP_FRAMES" 0x140120 0x1000000 1 0x1000000 1 true 0 0 0 0 false 0 (.num 0) (.kept),
  reg "PNL_RAIL_FAIL" 0x140128 0x1000000 1 0x1000000 1 true 0 0 0 0 false 0 (.num 0) (.kept),
  reg "PNL_VCOM_SKIP" 0x140130 0x1000000 1 0x1000000 1 true 0 0 0 0 false 0 (.num 0) (.kept),
  reg "PNL_INTERRUPTS" 0x140138 0x1000000 1 0x1000000 1 true 0 0 0 0 false 0 (.num 0) (.kept),
  reg "PNL_WAKE_CNT" 0x140140 0x1000000 1 0x1000000 1 true 0 0 0 0 false 0 (.num 0) (.kept),
  reg "PNL_TBL" 0x142000 4 2336 0x1000000 1 false 0xffffffff 0 0 0 false 0 (.num 0) (.kept)]

/-- Rows of the HLD block. -/
def rowsHld : List RegRow := [
  reg "HLD_STATUS" 0x150000 0x1000000 1 0x1000000 1 false 0 0 0 0 false 0 (.hw) (.hw),
  reg "HLD_VSTORE" 0x150004 0x1000000 1 0x1000000 1 false 0 0 0 0 false 0 (.hw) (.kept),
  reg "HLD_E_AVAIL_UJ" 0x150008 0x1000000 1 0x1000000 1 false 0 0 0 0 false 0 (.hw) (.kept),
  reg "HLD_C_UF" 0x15000c 0x1000000 1 0x1000000 1 false 0 0 0 0 true 0x3ac (.load) (.kept),
  reg "HLD_P_HOLD_MW" 0x150010 0x1000000 1 0x1000000 1 false 0 0 0 0 true 0xc8 (.load) (.kept),
  reg "HLD_RESERVE_UJ" 0x150014 0x1000000 1 0x1000000 1 false 0xffffffff 0 0 0 true 0x4e20 (.load) (.kept),
  reg "HLD_LAST" 0x150040 4 8 0x1000000 1 false 0 0 0 0 true 0 (.load) (.kept),
  reg "HLD_MAIN_LOSSES" 0x150100 0x1000000 1 0x1000000 1 true 0 0 0 0 false 0 (.kept) (.kept),
  reg "HLD_LODGE_LOSSES" 0x150108 0x1000000 1 0x1000000 1 true 0 0 0 0 false 0 (.kept) (.kept),
  reg "HLD_FINISHES" 0x150110 0x1000000 1 0x1000000 1 true 0 0 0 0 false 0 (.kept) (.kept),
  reg "HLD_CKPT_STOPS" 0x150118 0x1000000 1 0x1000000 1 true 0 0 0 0 false 0 (.kept) (.kept),
  reg "HLD_BANNERS" 0x150120 0x1000000 1 0x1000000 1 true 0 0 0 0 false 0 (.kept) (.kept),
  reg "HLD_BANNER_SKIP" 0x150128 0x1000000 1 0x1000000 1 true 0 0 0 0 false 0 (.kept) (.kept),
  reg "HLD_PANEL_WAIT" 0x150130 0x1000000 1 0x1000000 1 true 0 0 0 0 false 0 (.kept) (.kept)]

/-- Rows of the tenant window, part 1. -/
def rowsTw1 : List RegRow := [
  reg "TW_ID" 0 0x1000000 1 0x1000000 1 false 0 0 0 0 false 0 (.num 0) (.kept),
  reg "TW_RESV" 0x40 4 12 0x1000000 1 false 0 0 0 0 false 0 (.num 0) (.kept),
  reg "TW_USE" 0x100 8 5 0x1000000 1 true 0 0 0 0 false 0 (.num 0) (.kept),
  reg "TW_PIN_BYTES" 0x128 0x1000000 1 0x1000000 1 true 0 0 0 0 false 0 (.num 0) (.kept),
  reg "TW_DURABLE_BYTES" 0x130 0x1000000 1 0x1000000 1 true 0 0 0 0 false 0 (.num 0) (.kept),
  reg "TW_OBJECTS" 0x138 0x1000000 1 0x1000000 1 false 0 0 0 0 false 0 (.num 0) (.kept),
  reg "TW_SPILL_USE" 0x140 0x1000000 1 0x1000000 1 true 0 0 0 0 false 0 (.num 0) (.kept),
  reg "TW_SPILL_PEAK" 0x148 0x1000000 1 0x1000000 1 true 0 0 0 0 false 0 (.num 0) (.kept),
  reg "TW_CTX_SEL" 0x200 0x1000000 1 0x1000000 1 false 0x3fff 0 0 0 false 0 (.num 0) (.num 0),
  reg "TW_CTX_STATUS" 0x204 0x1000000 1 0x1000000 1 false 0 0 0 0 false 0 (.num 0) (.num 0),
  reg "TW_CTX_DATA" 0x300 4 64 0x1000000 1 false 0 0 0 0 false 0 (.num 0) (.num 0),
  reg "TW_EV_CORE_MAP" 0x800 4 16 0x1000000 1 false 0 0 0 0 false 0 (.num 0) (.kept),
  reg "TW_EV_KEYS" 0x840 0x1000000 1 0x1000000 1 false 0 0 0 0 false 0 (.num 0) (.kept),
  reg "TW_EV_HEAD" 0x848 0x1000000 1 0x1000000 1 false 0xffffffff 0 0 0 false 0 (.num 0) (.num 0),
  reg "TW_EV_TAIL" 0x84c 0x1000000 1 0x1000000 1 false 0 0 0 0 false 0 (.num 0) (.num 0),
  reg "TW_LEASE" 0x1000 0x1000000 1 0x1000000 1 false 0 0 0xffffffff 0 false 0 (.num 0) (.num 0),
  reg "TW_LEASE_PERIOD" 0x1004 0x1000000 1 0x1000000 1 false 0xffff 0 0 0 false 0x7d0 (.num 2000) (.num 2000),
  reg "TW_LEASE_STATUS" 0x1008 0x1000000 1 0x1000000 1 false 0 0 0 0 false 0 (.num 0) (.num 0),
  reg "TW_LEASE_LEFT" 0x100c 0x1000000 1 0x1000000 1 false 0 0 0 0 false 0 (.num 0) (.num 0),
  reg "TW_VEC_BASE" 0x1010 0x1000000 1 0x1000000 1 false 0x7ff 0 0 0 false 0 (.num 0) (.kept),
  reg "TW_OUT_CNT" 0x2000 4 256 0x1000000 1 false 0 0 0 0 false 0 (.num 0) (.kept),
  reg "TW_OUT_LAST" 0x2400 0x1000000 1 0x1000000 1 false 0 0 0 0 false 0 (.num 0) (.kept),
  reg "TW_LATE_PAGES" 0x2410 0x1000000 1 0x1000000 1 true 0 0 0 0 false 0 (.num 0) (.kept),
  reg "TW_LATE_US" 0x2418 0x1000000 1 0x1000000 1 true 0 0 0 0 false 0 (.num 0) (.kept),
  reg "TW_DEMOTED_PAGES" 0x2420 0x1000000 1 0x1000000 1 true 0 0 0 0 false 0 (.num 0) (.kept),
  reg "TW_LOSSY_PAGES" 0x2428 0x1000000 1 0x1000000 1 true 0 0 0 0 false 0 (.num 0) (.kept),
  reg "TW_POISONED" 0x2430 0x1000000 1 0x1000000 1 true 0 0 0 0 false 0 (.num 0) (.kept),
  reg "TW_PFX_HITS" 0x2440 0x1000000 1 0x1000000 1 true 0 0 0 0 false 0 (.num 0) (.kept),
  reg "TW_PFX_PUBS" 0x2448 0x1000000 1 0x1000000 1 true 0 0 0 0 false 0 (.num 0) (.kept),
  reg "TW_PFX_PUB_BYTES" 0x2450 0x1000000 1 0x1000000 1 true 0 0 0 0 false 0 (.num 0) (.kept),
  reg "TW_PFX_PUB_REFUSED" 0x2458 0x1000000 1 0x1000000 1 true 0 0 0 0 false 0 (.num 0) (.kept),
  reg "TW_SCH_TOKENS" 0x2460 0x1000000 1 0x1000000 1 true 0 0 0 0 false 0 (.num 0) (.kept),
  reg "TW_SCH_STEPS" 0x2468 0x1000000 1 0x1000000 1 true 0 0 0 0 false 0 (.num 0) (.kept),
  reg "TW_SCH_READY_US" 0x2470 0x1000000 1 0x1000000 1 true 0 0 0 0 false 0 (.num 0) (.kept),
  reg "TW_SCH_CLUSTER_NS" 0x2478 0x1000000 1 0x1000000 1 true 0 0 0 0 false 0 (.num 0) (.kept),
  reg "TW_CL_LAUNCHES" 0x2480 0x1000000 1 0x1000000 1 true 0 0 0 0 false 0 (.num 0) (.kept),
  reg "TW_CL_FAULTS" 0x2488 0x1000000 1 0x1000000 1 true 0 0 0 0 false 0 (.num 0) (.kept),
  reg "TW_CL_FLAGS" 0x2490 0x1000000 1 0x1000000 1 false 0 0x7f 0 0 false 0 (.num 0) (.kept),
  reg "TW_CL_RELAUNCH" 0x2498 0x1000000 1 0x1000000 1 true 0 0 0 0 false 0 (.num 0) (.kept),
  reg "TW_CL_PREEMPTS" 0x24a0 0x1000000 1 0x1000000 1 true 0 0 0 0 false 0 (.num 0) (.kept)]

/-- Rows of the tenant window, part 2. -/
def rowsTw2 : List RegRow := [
  reg "TW_Q_CMDS" 0x24b0 0x1000000 1 0x1000000 1 true 0 0 0 0 false 0 (.num 0) (.kept),
  reg "TW_Q_HELD_WAIT" 0x24b8 0x1000000 1 0x1000000 1 true 0 0 0 0 false 0 (.num 0) (.kept),
  reg "TW_Q_REPLAYED" 0x24c0 0x1000000 1 0x1000000 1 true 0 0 0 0 false 0 (.num 0) (.kept),
  reg "TW_Q_DB_BAD" 0x24c8 0x1000000 1 0x1000000 1 true 0 0 0 0 false 0 (.num 0) (.kept),
  reg "TW_QP_FAULTS" 0x24d0 0x1000000 1 0x1000000 1 true 0 0 0 0 false 0 (.num 0) (.kept),
  reg "TW_EV_INJECTED" 0x24e0 0x1000000 1 0x1000000 1 true 0 0 0 0 false 0 (.num 0) (.kept),
  reg "TW_EV_KEY_DROP" 0x24e8 0x1000000 1 0x1000000 1 true 0 0 0 0 false 0 (.num 0) (.kept),
  reg "TW_EV_SPILLED" 0x24f0 0x1000000 1 0x1000000 1 true 0 0 0 0 false 0 (.num 0) (.kept),
  reg "TW_EV_REPLAYED" 0x24f8 0x1000000 1 0x1000000 1 true 0 0 0 0 false 0 (.num 0) (.kept),
  reg "TW_EV_REFUSED" 0x2500 0x1000000 1 0x1000000 1 true 0 0 0 0 false 0 (.num 0) (.kept),
  reg "TW_EV_REFRAC" 0x2508 0x1000000 1 0x1000000 1 true 0 0 0 0 false 0 (.num 0) (.kept),
  reg "TW_EV_SYN" 0x2510 0x1000000 1 0x1000000 1 true 0 0 0 0 false 0 (.num 0) (.kept),
  reg "TW_EV_LOAD_DROP" 0x2518 0x1000000 1 0x1000000 1 true 0 0 0 0 false 0 (.num 0) (.kept),
  reg "TW_EV_PARK_DROP" 0x2520 0x1000000 1 0x1000000 1 true 0 0 0 0 false 0 (.num 0) (.kept),
  reg "TW_LNK_TX_BYTES" 0x2540 0x1000000 1 0x1000000 1 true 0 0 0 0 false 0 (.num 0) (.kept),
  reg "TW_LNK_RX_BYTES" 0x2548 0x1000000 1 0x1000000 1 true 0 0 0 0 false 0 (.num 0) (.kept),
  reg "TW_LNK_INJ_WAIT_US" 0x2550 0x1000000 1 0x1000000 1 true 0 0 0 0 false 0 (.num 0) (.kept),
  reg "TW_PRG_INJ_REFUSED" 0x2560 0x1000000 1 0x1000000 1 true 0 0 0 0 false 0 (.num 0) (.kept),
  reg "TW_PRG_L7_DROP" 0x2568 0x1000000 1 0x1000000 1 true 0 0 0 0 false 0 (.num 0) (.kept),
  reg "TW_HIF_RD_BYTES" 0x2580 0x1000000 1 0x1000000 1 true 0 0 0 0 false 0 (.num 0) (.kept),
  reg "TW_HIF_WR_BYTES" 0x2588 0x1000000 1 0x1000000 1 true 0 0 0 0 false 0 (.num 0) (.kept),
  reg "TW_HIF_STALLS" 0x2590 0x1000000 1 0x1000000 1 true 0 0 0 0 false 0 (.num 0) (.kept),
  reg "TW_DB_PROD" 0x10000 0x10 16 0x1000000 1 false 0xffffffff 0 0 0 false 0 (.num 0) (.num 0),
  reg "TW_CQ_HEAD" 0x10004 0x10 16 0x1000000 1 false 0xffffffff 0 0 0 false 0 (.num 0) (.num 0),
  reg "TW_QSIG" 0x10008 0x10 16 0x1000000 1 false 0 0 0xffffffff 0 false 0 (.num 0) (.num 0),
  reg "TW_CR_BASE" 0x20000 0x40 16 0x1000000 1 true 0 0 0 0xffffffffffffffff false 0 (.num 0) (.num 0),
  reg "TW_CQ_BASE" 0x20008 0x40 16 0x1000000 1 true 0 0 0 0xffffffffffffffff false 0 (.num 0) (.num 0),
  reg "TW_CQ_WB" 0x20010 0x40 16 0x1000000 1 true 0 0 0 0xffffffffffffffff false 0 (.num 0) (.num 0),
  reg "TW_Q_CFG" 0x20018 0x40 16 0x1000000 1 false 0 0 0 0xffff1f1f false 0 (.num 0) (.num 0),
  reg "TW_Q_COMMIT" 0x2001c 0x40 16 0x1000000 1 false 0 0 1 0 false 0 (.num 0) (.num 0),
  reg "TW_Q_STATUS" 0x20020 0x40 16 0x1000000 1 false 0 0 0 0 false 0 (.num 0) (.num 0),
  reg "TW_CR_CONS" 0x20024 0x40 16 0x1000000 1 false 0 0 0 0 false 0 (.num 0) (.num 0),
  reg "TW_CQ_TAIL" 0x20028 0x40 16 0x1000000 1 false 0 0 0 0 false 0 (.num 0) (.num 0),
  reg "TW_Q_HELD" 0x20030 0x40 16 0x1000000 1 false 0 0 0 0 false 0 (.num 0) (.kept),
  reg "TW_Q_GID" 0x20034 0x40 16 0x1000000 1 false 0 0 0 0 false 0 (.hw) (.kept),
  reg "TW_NRG_PERIOD_UJ" 0x40000 0x1000000 1 0x1000000 1 true 0 0 0 0 true 0 (.load) (.kept),
  reg "TW_NRG_TOTAL_UJ" 0x40008 0x1000000 1 0x1000000 1 true 0 0 0 0 true 0 (.load) (.kept),
  reg "TW_NRG_OVH_UJ" 0x40010 0x1000000 1 0x1000000 1 true 0 0 0 0 true 0 (.load) (.kept),
  reg "TW_NRG_OVER_UJ" 0x40018 0x1000000 1 0x1000000 1 true 0 0 0 0 true 0 (.load) (.kept),
  reg "TW_NRG_LAST_UJ" 0x40020 0x1000000 1 0x1000000 1 false 0 0 0 0 false 0 (.num 0) (.num 0)]

/-- Rows of the tenant window, part 3. -/
def rowsTw3 : List RegRow := [
  reg "TW_NRG_BUDGET_J" 0x40024 0x1000000 1 0x1000000 1 false 0 0 0 0 false 0 (.num 0) (.kept),
  reg "TW_NRG_K" 0x40028 0x1000000 1 0x1000000 1 false 0 0 0 0 false 0 (.num 0) (.kept),
  reg "TW_NRG_SEQ" 0x4002c 0x1000000 1 0x1000000 1 false 0 0 0 0 false 0 (.num 0) (.kept),
  reg "TW_NRG_ACT" 0x40040 8 7 0x1000000 1 true 0 0 0 0 false 0 (.num 0) (.kept),
  reg "TW_MB_CTRL" 0x80080 0x1000000 1 0x1000000 1 false 0 8 1 0 false 0 (.num 0) (.num 0),
  reg "TW_NTC_PROD" 0x80084 0x1000000 1 0x1000000 1 false 0 0 0 0 false 0 (.num 0) (.num 0),
  reg "TW_NTC_CONS" 0x80088 0x1000000 1 0x1000000 1 false 0xffffffff 0 0 0 false 0 (.num 0) (.num 0),
  reg "TW_HIE_SPAN_FAIL" 0x900 0x1000000 1 0x1000000 1 false 0 0 0 0 false 0 (.num 0) (.kept),
  reg "TW_MB_SPAN_CNT" 0x80100 0x1000000 1 0x1000000 1 false 0x3f 0 0 0 false 0 (.num 0) (.num 0),
  reg "TW_MB_SPAN" 0x80104 4 32 0x1000000 1 false 0xffffffff 0 0 0 false 0 (.num 0) (.num 0),
  reg "TW_WIN_HDR" 0x30000 0x20 64 4 8 false 0 0 0 0 false 0 (.num 0) (.kept),
  reg "TW_TAP" 0x38000 8 4096 0x1000000 1 true 0 0 0 0 false 0 (.num 0) (.kept),
  reg "TW_WIN_TAIL" 0x37ff0 0x1000000 1 0x1000000 1 false 0 0 0 0 false 0 (.num 0) (.num 0),
  reg "TW_WIN_HEAD" 0x37ff4 0x1000000 1 0x1000000 1 false 0xffffffff 0 0 0 false 0 (.num 0) (.num 0)]

/-- Rows of the tenant window. -/
def rowsTw : List RegRow := rowsTw1 ++ rowsTw2 ++ rowsTw3

/-- The rows of the 64 KiB page that holds a PF BAR0 address (27, Table REG-1). -/
def pageRows (page : Nat) : List RegRow :=
  match page with
  | 0 => rowsDev
  | 1 => rowsClk
  | 2 => rowsHif
  | 3 => rowsAdm
  | 4 => rowsTier
  | 5 => rowsFls
  | 6 => rowsPfx
  | 7 => rowsSch
  | 8 => rowsQue
  | 9 => rowsEvf
  | 10 => rowsEsp
  | 11 => rowsLnk
  | 12 => rowsHie
  | 13 => rowsNrg
  | 14 => rowsFw
  | 15 => rowsFlt
  | 16 => rowsLdg
  | 17 => rowsAdc
  | 18 => rowsDec
  | 19 => rowsMtr
  | 20 => rowsPnl
  | 21 => rowsHld
  | _ => []

/-- The row of a PF BAR0 word address; an address no row covers reads zero and ignores writes (27, R546). -/
def regRow (a : Nat) : Option RegRow := (pageRows (a / 65536)).find? (fun r => r.covers a)

/-- The row of a tenant-window word address. -/
def twRow (a : Nat) : Option RegRow := rowsTw.find? (fun r => r.covers a)

/-- Cells of an array whose reset value is not the row's own: factory values given per element, and what fuses and
measurement set on this build. -/
def regSpecial : List (Nat × Nat) := [
  (0x31000, 0xffffffff), (0x31004, 0xffffffff), (0x31008, 0xffffffff), (0x3100c, 0xffffffff), (0x31010, 0xffffffff), (0x31014, 0xffffffff),
  (0x31018, 0xffffffff), (0x3101c, 0xffffffff), (0x31020, 0xffffffff), (0x31024, 0xffffffff), (0x31028, 0xffffffff), (0x3102c, 0xffffffff),
  (0xd0040, 0x455ac000), (0xd0044, 0x41f00000), (0xd0048, 0x43160000), (0xd004c, 0x43c80000), (0xd0050, 0x42200000), (0xd0054, 0x3fc00000),
  (0xd0058, 0x41c80000), (0x30104, 0x1f780), (0x3012c, 0x1f780), (0x30108, 0x3000), (0x3010c, 0x2f7600), (0x30110, 0x4000),
  (0x30114, 0x800), (0x30118, 0x200), (0x3011c, 0xff), (0x30120, 0x36ee80), (0x30124, 0x400), (0x30128, 0x1000),
  (0x150000, 7), (0x150004, 0x5dc0), (0x150008, 0x38cca), (0xf0010, 0xe0), (0xf0014, 0x60), (0xf0018, 0xc),
  (0xf001c, 0x80), (0xf0020, 0x200), (0xf0024, 0x40), (0xf0028, 0x80), (0xf002c, 0x20), (0xf0030, 8),
  (0xf0034, 4), (0xf0038, 1), (0xf0200, 1), (0x10010, 0x5f), (0x10800, 3), (0x10804, 0xfff3),
  (0x10824, 1), (0x10c00, 0x3fff00), (0x10ca8, 1), (0x30204, 1), (0xb1004, 1), (0xb1104, 1),
  (0xb1204, 1), (0xb1304, 1), (0xb1404, 1), (0xb1504, 1), (0xb1604, 1), (0xb1704, 1),
  (0xb1804, 1), (0xb1904, 1), (0xb1a04, 1), (0xb1b04, 1), (0xb1c04, 0x1000000), (0xb1d04, 0x1000000),
  (0xb1e04, 0x1000000), (0xb1f04, 0x1000000), (0xb2004, 0x1000000), (0xb2104, 0x1000000), (0xb0014, 1), (0xc0014, 0x10),
  (0xe0000, 0x2040000), (0xe0040, 5), (0xe0044, 0x2040000), (0xe0050, 1), (0xe0144, 1), (0x50014, 0x3000),
  (0x50100, 0x400), (0x50104, 0x400), (0x50108, 0x400), (0x5010c, 0x400), (0x50110, 0x400), (0x50114, 0x400),
  (0x50118, 0x400), (0x5011c, 0x400), (0x50120, 0x400), (0x50124, 0x400), (0x50128, 0x400), (0x5012c, 0x400),
  (0x50130, 0x400), (0x50134, 0x400), (0x50138, 0x400), (0x5013c, 0x400), (0x50140, 0x400), (0x50144, 0x400),
  (0x50148, 0x400), (0x5014c, 0x400), (0x50150, 0x400), (0x50154, 0x400), (0x50158, 0x400), (0x5015c, 0x400),
  (0x50160, 0x400), (0x50164, 0x400), (0x50168, 0x400), (0x5016c, 0x400), (0x50170, 0x400), (0x50174, 0x400),
  (0x50178, 0x400), (0x5017c, 0x400), (0x50010, 5), (0x120000, 0x438), (0x120004, 0x438), (0x120008, 0x438),
  (0x12000c, 0x438), (0x120010, 0x438), (0x120014, 0x438), (0x120018, 0x438), (0x12001c, 0x438), (0x130004, 0x38270),
  (0x130008, 0x2710), (0x130060, 0x42000000), (0x140030, 0x1c0), (0x100044, 0x1000b0)]

/-- The value a PF BAR0 cell holds while nothing has changed it since reset. -/
def regInit (a : Nat) : BitVec 64 :=
  match (regSpecial.find? (fun c => c.1 == a)) with
  | some c => BitVec.ofNat 64 c.2
  | none =>
    match regRow a with
    | some r => BitVec.ofNat 64 r.init
    | none => 0

/-- The value a tenant-window cell holds at reset. -/
def twInit (a : Nat) : BitVec 64 :=
  match twRow a with
  | some r => BitVec.ofNat 64 r.init
  | none => 0

/-! ### The addresses by name -/

namespace Reg

abbrev DEV_REV : Nat := 4
abbrev DEV_BUILD : Nat := 0x10
abbrev DEV_CAPS : Nat := 0x14
abbrev CLK_STATUS : Nat := 0x10010
abbrev CLK_TB : Nat := 0x10018
abbrev CLK_TB_LODGE_OFS : Nat := 0x10020
abbrev CLK_THR_SRC : Nat := 0x10030
abbrev CLK_THR_FORCE : Nat := 0x10034
abbrev CLK_THR_CL (i : Nat) : Nat := 0x10100 + 4 * i
abbrev CLK_SWALLOW (i : Nat) : Nat := 0x10400 + 8 * i
abbrev PWR_STATE : Nat := 0x10800
abbrev PWR_DOMAIN : Nat := 0x10804
abbrev PWR_STATUS : Nat := 0x10808
abbrev PWR_CAP_W : Nat := 0x10810
abbrev PWR_CAP_HYST_W : Nat := 0x10814
abbrev PWR_CAP_COMMIT : Nat := 0x10818
abbrev PWR_PENDING : Nat := 0x1081c
abbrev PWR_THERM_C : Nat := 0x10820
abbrev PWR_HK_STATUS : Nat := 0x10824
abbrev PWR_HK_CRC_ERR : Nat := 0x10830
abbrev PWR_HK_RETRAIN : Nat := 0x10838
abbrev PWR_HK_DOWN_READS : Nat := 0x10840
abbrev RST_START_STATUS : Nat := 0x10c00
abbrev RST_LAST_CAUSE : Nat := 0x10c04
abbrev RST_FAILS : Nat := 0x10c08
abbrev RST_FAIL_INFO : Nat := 0x10c0c
abbrev RST_SAFE_EXIT : Nat := 0x10c10
abbrev RST_STEP_MS (i : Nat) : Nat := 0x10c40 + 4 * i
abbrev RST_UNIT : Nat := 0x10c80
abbrev RST_UNIT_STATUS : Nat := 0x10c84
abbrev RST_EPOCH_SEL : Nat := 0x10c88
abbrev RST_EPOCH_DATA : Nat := 0x10c8c
abbrev RST_STALE_REPLY : Nat := 0x10c90
abbrev RST_ABORTS : Nat := 0x10c98
abbrev RST_REQ_IGNORED : Nat := 0x10ca0
abbrev RST_STARTS : Nat := 0x10ca8
abbrev HIF_LINK_STATUS : Nat := 0x20010
abbrev HIF_STALL_TO : Nat := 0x20014
abbrev HIF_HOST_ABSENT : Nat := 0x20018
abbrev HIF_ABSENT_SINCE : Nat := 0x20020
abbrev HIF_RESTART : Nat := 0x20028
abbrev HIF_CLK_MODE : Nat := 0x2002c
abbrev HIF_FN_STATUS (i : Nat) : Nat := 0x20100 + 4 * i
abbrev HIF_WR_STALL : Nat := 0x20200
abbrev HIF_RD_STALL : Nat := 0x20208
abbrev HIF_STALL_ABORT : Nat := 0x20210
abbrev HIF_LEASE_EXPIRED : Nat := 0x20218
abbrev HIF_FLR : Nat := 0x20220
abbrev HIF_UR_CA : Nat := 0x20228
abbrev HIF_POISON_RX : Nat := 0x20230
abbrev HIF_IDE_FAIL : Nat := 0x20238
abbrev HIF_DOE_BUSY : Nat := 0x20240
abbrev HIF_UNEXP_CPL : Nat := 0x20248
abbrev ADM_CAP (i : Nat) : Nat := 0x30100 + 4 * i
abbrev ADM_RESV (i : Nat) : Nat := 0x30140 + 4 * i
abbrev ADM_FREE (i : Nat) : Nat := 0x30180 + 4 * i
abbrev ADM_ZERO (i : Nat) : Nat := 0x301c0 + 4 * i
abbrev ADM_DEFER : Nat := 0x30200
abbrev ADM_START_SEQ : Nat := 0x30204
abbrev ADM_GRACE : Nat := 0x30208
abbrev ADM_NTC_DROP : Nat := 0x3020c
abbrev ADM_ATTACH_FAIL : Nat := 0x30210
abbrev ADM_QUOTA (i j : Nat) : Nat := 0x31000 + 0x40 * i + 4 * j
abbrev ADM_QUOTA_COMMIT : Nat := 0x31800
abbrev ADM_POLICY (i j : Nat) : Nat := 0x32000 + 0x10 * i + 4 * j
abbrev ADM_POLICY_COMMIT : Nat := 0x32400
abbrev ADM_PENDING : Nat := 0x32404
abbrev TIER_WM_LOW : Nat := 0x40010
abbrev TIER_WM_HIGH : Nat := 0x40014
abbrev TIER_WM_COMMIT : Nat := 0x40018
abbrev TIER_PENDING : Nat := 0x4001c
abbrev TIER_T3_BACKOFF : Nat := 0x40020
abbrev TIER_PEER_TO : Nat := 0x40024
abbrev TIER_PEER_LOSS : Nat := 0x40028
abbrev TIER_FREE_T1 : Nat := 0x40040
abbrev TIER_MOVES_DONE : Nat := 0x40100
abbrev TIER_MOVE_ABANDON : Nat := 0x40108
abbrev TIER_MOVE_CANCEL : Nat := 0x40110
abbrev TIER_DEMOTE_BLOCKED : Nat := 0x40118
abbrev TIER_LATE_PAGES : Nat := 0x40120
abbrev TIER_POISONED : Nat := 0x40128
abbrev TIER_T3_STALLS : Nat := 0x40130
abbrev TIER_STALE_REPLY : Nat := 0x40138
abbrev TIER_RAW_BYTES : Nat := 0x40140
abbrev TIER_STORED_BYTES : Nat := 0x40148
abbrev FLS_MOUNT : Nat := 0x50010
abbrev FLS_USABLE : Nat := 0x50014
abbrev FLS_CH_STATUS (i : Nat) : Nat := 0x50100 + 4 * i
abbrev PFX_TTL : Nat := 0x60010
abbrev PFX_MARGIN : Nat := 0x60014
abbrev PFX_EARLY : Nat := 0x60018
abbrev PFX_DOM_CTRL : Nat := 0x60020
abbrev PFX_DOM_STATUS : Nat := 0x60024
abbrev PFX_DOM_COMMIT : Nat := 0x60028
abbrev PFX_PENDING : Nat := 0x6002c
abbrev PFX_ENTRIES : Nat := 0x60040
abbrev PFX_LOOKUPS : Nat := 0x60100
abbrev PFX_HASHED_BLOCKS : Nat := 0x60108
abbrev PFX_HIT_BLOCKS : Nat := 0x60110
abbrev PFX_PUBLISHES : Nat := 0x60118
abbrev PFX_DUP_PUBLISH : Nat := 0x60120
abbrev PFX_PUB_REFUSED : Nat := 0x60128
abbrev PFX_SCOPE_DOWN : Nat := 0x60130
abbrev PFX_ABANDON_DEMOTE : Nat := 0x60138
abbrev PFX_PIN_SAT : Nat := 0x60140
abbrev PFX_CACHE_PROBES : Nat := 0x60148
abbrev PFX_CACHE_HITS : Nat := 0x60150
abbrev PFX_EVICT (i : Nat) : Nat := 0x60160 + 8 * i
abbrev PFX_LATE_PAGES (i : Nat) : Nat := 0x60190 + 8 * i
abbrev PFX_LATE_ISSUE : Nat := 0x601b8
abbrev PFX_DIR_QUERIES : Nat := 0x601c0
abbrev PFX_DIR_HITS : Nat := 0x601c8
abbrev PFX_REMOTE_FAIL : Nat := 0x601d0
abbrev PFX_DOM_CFG (i : Nat) : Nat := 0x64000 + 4 * i
abbrev SCH_HORIZON : Nat := 0x70010
abbrev SCH_PREFILL_SHARE : Nat := 0x70014
abbrev SCH_AGE_MS : Nat := 0x70018
abbrev SCH_COMMIT : Nat := 0x7001c
abbrev SCH_PENDING : Nat := 0x70020
abbrev SCH_MODEL_CNT : Nat := 0x70040
abbrev SCH_CTX_STATE_CNT (i : Nat) : Nat := 0x70080 + 4 * i
abbrev SCH_BIN_READY (i : Nat) : Nat := 0x700c0 + 4 * i
abbrev SCH_STEPS_DECODE : Nat := 0x70100
abbrev SCH_STEPS_PREFILL : Nat := 0x70108
abbrev SCH_STEPS_RESUME : Nat := 0x70110
abbrev SCH_BATCH_SLOTS : Nat := 0x70118
abbrev SCH_BATCH_CAP : Nat := 0x70120
abbrev SCH_KV_USEFUL : Nat := 0x70128
abbrev SCH_KV_PADDED : Nat := 0x70130
abbrev SCH_CLUSTER_BUSY : Nat := 0x70138
abbrev SCH_CLUSTER_AVAIL : Nat := 0x70140
abbrev SCH_OVERRUN_US : Nat := 0x70148
abbrev SCH_READY_WAIT_US : Nat := 0x70150
abbrev SCH_PREEMPT_NOTICE : Nat := 0x70158
abbrev SCH_PREEMPT_IMMEDIATE : Nat := 0x70160
abbrev SCH_RECOMPUTE_US : Nat := 0x70168
abbrev SCH_MERGE : Nat := 0x70170
abbrev SCH_JOIN_DEFER : Nat := 0x70178
abbrev QUE_ENG_STATUS (i : Nat) : Nat := 0x80100 + 4 * i
abbrev QUE_CMDS : Nat := 0x80200
abbrev QUE_REPLAYED : Nat := 0x80210
abbrev QUE_STALE_REPLY : Nat := 0x80218
abbrev EVF_EPOCH : Nat := 0x90010
abbrev EVF_INFLIGHT (i : Nat) : Nat := 0x90014 + 4 * i
abbrev EVF_COMMIT : Nat := 0x9001c
abbrev EVF_FLIPS : Nat := 0x90020
abbrev EVF_INJECTED : Nat := 0x90100
abbrev EVF_CORE_EVENTS : Nat := 0x90108
abbrev EVF_SPIKES : Nat := 0x90110
abbrev EVF_SYN_UPDATES : Nat := 0x90118
abbrev EVF_KEY_DROP : Nat := 0x90120
abbrev EVF_ROUTE_MISS : Nat := 0x90128
abbrev EVF_AXON_MISS : Nat := 0x90130
abbrev EVF_HOP_DROP : Nat := 0x90138
abbrev EVF_SPILLED : Nat := 0x90140
abbrev EVF_REPLAYED : Nat := 0x90148
abbrev EVF_RESTAMP : Nat := 0x90150
abbrev EVF_REFUSED : Nat := 0x90158
abbrev EVF_HOST_DROP : Nat := 0x90160
abbrev EVF_LINK_DROP : Nat := 0x90168
abbrev EVF_DEAD_ROUTE : Nat := 0x90170
abbrev EVF_RESET_DROP : Nat := 0x90178
abbrev EVF_STALE_REPLY : Nat := 0x90180
abbrev EVF_WAKES : Nat := 0x90188
abbrev EVF_SAT : Nat := 0x90190
abbrev EVF_MARKER_IN : Nat := 0x90198
abbrev EVF_CORE_STATUS (i : Nat) : Nat := 0x91000 + 4 * i
abbrev EVF_ROUTER_USED (i : Nat) : Nat := 0x92000 + 4 * i
abbrev ESP_CTRL (i : Nat) : Nat := 0xa0000 + 0x100 * i
abbrev ESP_STATUS (i : Nat) : Nat := 0xa0004 + 0x100 * i
abbrev ESP_OWNER (i : Nat) : Nat := 0xa0008 + 0x100 * i
abbrev ESP_SET_EPOCH (i : Nat) : Nat := 0xa000c + 0x100 * i
abbrev ESP_SENSOR_TIME (i : Nat) : Nat := 0xa0010 + 0x100 * i
abbrev ESP_SENSOR_TB (i : Nat) : Nat := 0xa0018 + 0x100 * i
abbrev ESP_SENSOR_STATUS (i : Nat) : Nat := 0xa0020 + 0x100 * i
abbrev ESP_IBI (i : Nat) : Nat := 0xa0024 + 0x100 * i
abbrev ESP_I3C_STATUS (i : Nat) : Nat := 0xa0028 + 0x100 * i
abbrev ESP_FIFO_LEVEL (i : Nat) : Nat := 0xa002c + 0x100 * i
abbrev ESP_WORDS (i : Nat) : Nat := 0xa0080 + 0x100 * i
abbrev ESP_PIX (i : Nat) : Nat := 0xa0088 + 0x100 * i
abbrev ESP_OVR_DROP (i : Nat) : Nat := 0xa0090 + 0x100 * i
abbrev ESP_ROI_DROP (i : Nat) : Nat := 0xa0098 + 0x100 * i
abbrev ESP_POL_DROP (i : Nat) : Nat := 0xa00a0 + 0x100 * i
abbrev ESP_SETTLE_DROP (i : Nat) : Nat := 0xa00a8 + 0x100 * i
abbrev ESP_ALIGN_ERR (i : Nat) : Nat := 0xa00b0 + 0x100 * i
abbrev ESP_EXT_WORDS (i : Nat) : Nat := 0xa00b8 + 0x100 * i
abbrev ESP_TIME_BACK (i : Nat) : Nat := 0xa00c0 + 0x100 * i
abbrev ESP_TAP_LATE : Nat := 0xa0400
abbrev ESP_WIN_LOST : Nat := 0xa0408
abbrev LNK_NODE_ID : Nat := 0xb0010
abbrev LNK_NODE_EPOCH : Nat := 0xb0014
abbrev LNK_EPOCH : Nat := 0xb0018
abbrev LNK_INFLIGHT (i : Nat) : Nat := 0xb001c + 4 * i
abbrev LNK_FLIP_AT : Nat := 0xb0028
abbrev LNK_RT_COMMIT : Nat := 0xb0030
abbrev LNK_RT_STATUS : Nat := 0xb0034
abbrev LNK_ESC_WAIT : Nat := 0xb0038
abbrev LNK_ESCAPES : Nat := 0xb0100
abbrev LNK_AGE_DROP : Nat := 0xb0108
abbrev LNK_HOP_DROP : Nat := 0xb0110
abbrev LNK_NOROUTE : Nat := 0xb0118
abbrev LNK_BAD_TYPE : Nat := 0xb0120
abbrev LNK_SYNC_DISCARD : Nat := 0xb0128
abbrev LNK_RT_ROW (i : Nat) : Nat := 0xb0400 + 8 * i
abbrev LNK_RT_CHASSIS (i : Nat) : Nat := 0xb0500 + 8 * i
abbrev LNK_RT_SLED (i : Nat) : Nat := 0xb0700 + 8 * i
abbrev LNK_TIME_PARENT : Nat := 0xb0800
abbrev LNK_TIME_STATUS : Nat := 0xb0804
abbrev LNK_TIME_OFFSET : Nat := 0xb0808
abbrev LNK_TIME_DELAY : Nat := 0xb080c
abbrev LNK_PORT_CTRL (i : Nat) : Nat := 0xb1000 + 0x100 * i
abbrev LNK_PORT_STATUS (i : Nat) : Nat := 0xb1004 + 0x100 * i
abbrev LNK_PEER (i : Nat) : Nat := 0xb1008 + 0x100 * i
abbrev LNK_LANE_DIAG (i : Nat) : Nat := 0xb100c + 0x100 * i
abbrev LNK_LOOP_NS (i : Nat) : Nat := 0xb1010 + 0x100 * i
abbrev LNK_FLITS_TX (i : Nat) : Nat := 0xb1040 + 0x100 * i
abbrev LNK_FLITS_RX (i : Nat) : Nat := 0xb1048 + 0x100 * i
abbrev LNK_FEC_CORR (i : Nat) : Nat := 0xb1050 + 0x100 * i
abbrev LNK_FEC_UNCORR (i : Nat) : Nat := 0xb1058 + 0x100 * i
abbrev LNK_CRC_ERR (i : Nat) : Nat := 0xb1060 + 0x100 * i
abbrev LNK_REPLAY (i : Nat) : Nat := 0xb1068 + 0x100 * i
abbrev LNK_RETRAIN (i : Nat) : Nat := 0xb1070 + 0x100 * i
abbrev LNK_RETRAIN_FAIL (i : Nat) : Nat := 0xb1078 + 0x100 * i
abbrev LNK_DOWN_DROP (i : Nat) : Nat := 0xb1080 + 0x100 * i
abbrev HIE_CTRL : Nat := 0xc0010
abbrev HIE_STATUS : Nat := 0xc0014
abbrev HIE_PRIO : Nat := 0xc0018
abbrev HIE_TERM (i : Nat) : Nat := 0xc0020 + 4 * i
abbrev HIE_MGR (i : Nat) : Nat := 0xc0030 + 4 * i
abbrev HIE_RESERVE (i : Nat) : Nat := 0xc0040 + 4 * i
abbrev HIE_LEND_T1 : Nat := 0xc0050
abbrev HIE_LEND_T2 : Nat := 0xc0054
abbrev HIE_POOL : Nat := 0xc0060
abbrev HIE_SITE_SIZE : Nat := 0xc0064
abbrev HIE_SITE_SECRET (i : Nat) : Nat := 0xc0100 + 4 * i
abbrev HIE_ROLL_CTRL : Nat := 0xc0200
abbrev HIE_ROLL_CANARY : Nat := 0xc0204
abbrev HIE_ROLL_SOAK_S : Nat := 0xc0208
abbrev HIE_ROLL_DRAIN_S : Nat := 0xc020c
abbrev HIE_ROLL_FAIL_MAX : Nat := 0xc0210
abbrev HIE_ROLL_STATUS : Nat := 0xc0214
abbrev HIE_ROLL_FIRST_FAIL : Nat := 0xc0218
abbrev HIE_LDG_SEL : Nat := 0xc0300
abbrev HIE_LDG_STATUS : Nat := 0xc0304
abbrev HIE_LDG_DATA (i : Nat) : Nat := 0xc0340 + 4 * i
abbrev HIE_ELECTIONS : Nat := 0xc0400
abbrev HIE_BEACON_MISS : Nat := 0xc0408
abbrev HIE_JOIN_REFUSED : Nat := 0xc0410
abbrev HIE_FLIP_MISS : Nat := 0xc0418
abbrev HIE_SPAN_ADMITS : Nat := 0xc0420
abbrev HIE_SPAN_REFUSED : Nat := 0xc0428
abbrev HIE_LEDGER_FWD : Nat := 0xc0430
abbrev NRG_CTRL : Nat := 0xd0010
abbrev NRG_PERIOD_S : Nat := 0xd0014
abbrev NRG_ADMIT_W : Nat := 0xd0018
abbrev NRG_STATIC_SHARE : Nat := 0xd001c
abbrev NRG_PACE_STEP : Nat := 0xd0020
abbrev NRG_COEF (i : Nat) : Nat := 0xd0040 + 4 * i
abbrev NRG_COMMIT : Nat := 0xd0060
abbrev NRG_PENDING : Nat := 0xd0064
abbrev NRG_STATUS : Nat := 0xd0068
abbrev NRG_PERIOD_SEQ : Nat := 0xd0070
abbrev NRG_RATIO : Nat := 0xd0074
abbrev NRG_OVH_RATIO : Nat := 0xd0078
abbrev NRG_SLED_UJ : Nat := 0xd0100
abbrev NRG_DEVICE_UJ : Nat := 0xd0108
abbrev NRG_DEVICE_OVH_UJ : Nat := 0xd0110
abbrev NRG_SCALED_S : Nat := 0xd0200
abbrev NRG_UNREC_S : Nat := 0xd0208
abbrev NRG_OVH_MISS : Nat := 0xd0210
abbrev NRG_OVH_NEG : Nat := 0xd0218
abbrev NRG_REFUSED : Nat := 0xd0220
abbrev FW_VERSION : Nat := 0xe0000
abbrev FW_EPOCH : Nat := 0xe0004
abbrev FW_BOOT : Nat := 0xe0008
abbrev FW_DIGEST (i : Nat) : Nat := 0xe0010 + 4 * i
abbrev FW_SLOT (i : Nat) : Nat := 0xe0040 + 8 * i
abbrev FW_SLOT_VERSION (i : Nat) : Nat := 0xe0044 + 8 * i
abbrev FW_DESC_SEQ : Nat := 0xe0050
abbrev FW_UPD_CMD : Nat := 0xe0100
abbrev FW_UPD_SRC : Nat := 0xe0108
abbrev FW_UPD_OFS : Nat := 0xe0110
abbrev FW_UPD_LEN : Nat := 0xe0114
abbrev FW_UPD_STATUS : Nat := 0xe0118
abbrev FW_UPD_RESULT : Nat := 0xe011c
abbrev FW_UPD_WRITTEN : Nat := 0xe0120
abbrev FW_AUTO_CONFIRM_S : Nat := 0xe0130
abbrev FW_WDT_MS : Nat := 0xe0140
abbrev FW_READY : Nat := 0xe0144
abbrev FW_NOTICE : Nat := 0xe0150
abbrev FW_LOG_SEQ : Nat := 0xe0200
abbrev FW_LOG_MIN_SEV : Nat := 0xe0204
abbrev FW_TRACE_EN (i : Nat) : Nat := 0xe0300 + 4 * i
abbrev FW_TRACE_SEQ : Nat := 0xe0320
abbrev FW_TRACE_SEL : Nat := 0xe0328
abbrev FW_TRACE_DATA (i : Nat) : Nat := 0xe0340 + 4 * i
abbrev FW_CERT_COMMIT : Nat := 0xe0380
abbrev FW_CERT_STATUS : Nat := 0xe0384
abbrev FW_WDT_RESTARTS : Nat := 0xe0400
abbrev FW_TRIALS : Nat := 0xe0408
abbrev FW_REVERTS : Nat := 0xe0410
abbrev FW_CONFIRMS : Nat := 0xe0418
abbrev FW_CHECK_FAIL : Nat := 0xe0420
abbrev FW_UPD_REFUSED : Nat := 0xe0428
abbrev FW_CERT (i : Nat) : Nat := 0xe1000 + 4 * i
abbrev FLT_NOTICE : Nat := 0xf0000
abbrev FLT_STATUS : Nat := 0xf0004
abbrev FLT_INSVC (i : Nat) : Nat := 0xf0010 + 4 * i
abbrev FLT_RET_CL (i : Nat) : Nat := 0xf0100 + 4 * i
abbrev FLT_RET_EVC (i : Nat) : Nat := 0xf0120 + 4 * i
abbrev FLT_RET_PCH (i : Nat) : Nat := 0xf0160 + 4 * i
abbrev FLT_RET_LANE (i : Nat) : Nat := 0xf0180 + 4 * i
abbrev FLT_RET_FLS (i : Nat) : Nat := 0xf01a0 + 4 * i
abbrev FLT_RET_MISC (i : Nat) : Nat := 0xf01b0 + 4 * i
abbrev FLT_UNIT_SEL : Nat := 0xf01c0
abbrev FLT_UNIT_DATA : Nat := 0xf01c4
abbrev FLT_LDG_NEXT : Nat := 0xf0200
abbrev FLT_LDG_QUEUED : Nat := 0xf0204
abbrev FLT_LDG_SEL : Nat := 0xf0208
abbrev FLT_LDG_STATUS : Nat := 0xf020c
abbrev FLT_LDG_DATA (i : Nat) : Nat := 0xf0240 + 4 * i
abbrev FLT_HBM_CE : Nat := 0xf0300
abbrev FLT_HBM_UE : Nat := 0xf0308
abbrev FLT_HBM_PPR : Nat := 0xf0310
abbrev FLT_UNIT_FAULTS : Nat := 0xf0318
abbrev FLT_FLS_BAD_BLOCKS : Nat := 0xf0320
abbrev FLT_HUB_FAULTS : Nat := 0xf0328
abbrev FLT_RETIREMENTS : Nat := 0xf0330
abbrev FLT_LDG_COMPACTIONS : Nat := 0xf0338
abbrev FLT_LDG_DROP : Nat := 0xf0340
abbrev FLT_PRG_THRESH_US : Nat := 0xf0800
abbrev FLT_PRG_STALL_CNT (i : Nat) : Nat := 0xf0810 + 8 * i
abbrev FLT_PRG_STALL_MAX_US (i : Nat) : Nat := 0xf0840 + 4 * i
abbrev FLT_PRG_ORDER_VIOL : Nat := 0xf0860
abbrev FLT_PRG_INJ_REFUSED : Nat := 0xf0868
abbrev FLT_PRG_L7_DROP : Nat := 0xf0870
abbrev FLT_PRG_ESC_DROP : Nat := 0xf0878
abbrev FLT_PRG_ESC_USE : Nat := 0xf0880
abbrev IST_CTRL : Nat := 0xf8000
abbrev IST_COV_AGE_S : Nat := 0xf8010
abbrev IST_SCRUB_DONE : Nat := 0xf8014
abbrev IST_QUAR : Nat := 0xf8018
abbrev IST_SLICES : Nat := 0xf8100
abbrev IST_YIELDS : Nat := 0xf8108
abbrev IST_FORCED : Nat := 0xf8110
abbrev IST_FAILS : Nat := 0xf8118
abbrev IST_LANE_MARGIN : Nat := 0xf8120
abbrev LDG_LOCATION : Nat := 0x100040
abbrev LDG_STRAP : Nat := 0x100044
abbrev ADC_SD_CFG (i : Nat) : Nat := 0x110000 + 4 * i
abbrev ADC_SD_COMMIT : Nat := 0x110020
abbrev ADC_PENDING : Nat := 0x110024
abbrev ADC_SD_STATUS (i : Nat) : Nat := 0x110040 + 4 * i
abbrev ADC_IC_CFG : Nat := 0x110100
abbrev ADC_IC_COMMIT : Nat := 0x110104
abbrev ADC_IC_STATUS (i : Nat) : Nat := 0x110110 + 4 * i
abbrev ADC_SCAN (i : Nat) : Nat := 0x110180 + 4 * i
abbrev ADC_IC_RES (i : Nat) : Nat := 0x110200 + 8 * i
abbrev ADC_PAIR_RES (i : Nat) : Nat := 0x110240 + 8 * i
abbrev ADC_PAIR_TB (i : Nat) : Nat := 0x110250 + 8 * i
abbrev ADC_SCAN_RES (i : Nat) : Nat := 0x110300 + 8 * i
abbrev ADC_URG : Nat := 0x110400
abbrev ADC_URG_STATUS : Nat := 0x110404
abbrev ADC_URG_RES : Nat := 0x110408
abbrev ADC_URG_WAIT_US : Nat := 0x110410
abbrev ADC_CAL_CTRL : Nat := 0x110500
abbrev ADC_CAL_STATUS : Nat := 0x110504
abbrev ADC_CAL_TEMP : Nat := 0x110508
abbrev ADC_SYSCAL : Nat := 0x110510
abbrev ADC_SYSCAL_REF : Nat := 0x110514
abbrev ADC_SYSCAL_STATUS : Nat := 0x110518
abbrev ADC_SYSCAL_SAVE : Nat := 0x11051c
abbrev ADC_SYSCAL_SAVE_STATUS : Nat := 0x110520
abbrev ADC_DROPCNT : Nat := 0x110600
abbrev ADC_URG_REJECT : Nat := 0x110608
abbrev ADC_MISSING (i : Nat) : Nat := 0x110610 + 8 * i
abbrev ADC_SD_RESETS (i : Nat) : Nat := 0x110640 + 8 * i
abbrev ADC_RANGE_CHG : Nat := 0x110680
abbrev ADC_CAL_FAIL : Nat := 0x110688
abbrev DEC_CFG (i : Nat) : Nat := 0x120000 + 4 * i
abbrev DEC_MODE : Nat := 0x120020
abbrev DEC_COMMIT : Nat := 0x120024
abbrev DEC_PENDING : Nat := 0x120028
abbrev DEC_CTRL : Nat := 0x12002c
abbrev DEC_SYNC_AT : Nat := 0x120030
abbrev DEC_SYNC_TB : Nat := 0x120038
abbrev DEC_SYNC_FRAC : Nat := 0x120040
abbrev DEC_STATUS : Nat := 0x120044
abbrev DEC_CH_STATUS (i : Nat) : Nat := 0x120060 + 4 * i
abbrev DEC_OUT (i : Nat) : Nat := 0x120100 + 8 * i
abbrev DEC_CAP_CTRL : Nat := 0x120200
abbrev DEC_CAP_SEL : Nat := 0x120204
abbrev DEC_CAP_DATA : Nat := 0x120208
abbrev DEC_SAT (i : Nat) : Nat := 0x120400 + 8 * i
abbrev DEC_UNSETTLED : Nat := 0x120440
abbrev DEC_SYNC_STEPS : Nat := 0x120448
abbrev DEC_SYNC_ALIGNED : Nat := 0x120450
abbrev DEC_SYNC_IGNORED : Nat := 0x120458
abbrev DEC_CFG_REJECT : Nat := 0x120460
abbrev MTR_CFG : Nat := 0x130000
abbrev MTR_VNOM : Nat := 0x130004
abbrev MTR_IB : Nat := 0x130008
abbrev MTR_CF_CONST : Nat := 0x13000c
abbrev MTR_CF_WIDTH : Nat := 0x130010
abbrev MTR_COMMIT : Nat := 0x130014
abbrev MTR_STATUS : Nat := 0x130018
abbrev MTR_CFG_SEQ : Nat := 0x13001c
abbrev MTR_FREQ : Nat := 0x130020
abbrev MTR_K (i : Nat) : Nat := 0x130040 + 4 * i
abbrev MTR_SLED_KV : Nat := 0x130060
abbrev MTR_PHCAL (i : Nat) : Nat := 0x130064 + 4 * i
abbrev MTR_CYC_SEQ : Nat := 0x130100
abbrev MTR_CYC_FLAGS : Nat := 0x130104
abbrev MTR_VAL (i j : Nat) : Nat := 0x130110 + 0x20 * i + 4 * j
abbrev MTR_IN : Nat := 0x130190
abbrev MTR_IN_CALC : Nat := 0x130194
abbrev MTR_E (i j : Nat) : Nat := 0x130200 + 0x28 * i + 8 * j
abbrev MTR_SLED_E (i : Nat) : Nat := 0x130300 + 8 * i
abbrev MTR_SLED_V : Nat := 0x130310
abbrev MTR_SLED_I : Nat := 0x130314
abbrev MTR_SLED_P1MS : Nat := 0x130318
abbrev MTR_ECLR : Nat := 0x130320
abbrev MTR_CF_CNT (i : Nat) : Nat := 0x130400 + 8 * i
abbrev MTR_CF_BACKLOG (i : Nat) : Nat := 0x130418 + 4 * i
abbrev MTR_HARM_SEL : Nat := 0x130500
abbrev MTR_HARM_HDR (i : Nat) : Nat := 0x130504 + 4 * i
abbrev MTR_HARM_TB : Nat := 0x130510
abbrev MTR_HARM_DATA (i : Nat) : Nat := 0x130540 + 4 * i
abbrev MTR_EVT_PROD : Nat := 0x130600
abbrev MTR_EVT_CONS : Nat := 0x130604
abbrev MTR_CAL : Nat := 0x130700
abbrev MTR_CAL_REF_V : Nat := 0x130704
abbrev MTR_CAL_REF_I : Nat := 0x130708
abbrev MTR_CAL_REF_PF : Nat := 0x13070c
abbrev MTR_CAL_STATUS : Nat := 0x130710
abbrev MTR_EVT (i j : Nat) : Nat := 0x130800 + 0x20 * i + 4 * j
abbrev MTR_HOLD_CYCLES : Nat := 0x131000
abbrev MTR_GAP_CYCLES : Nat := 0x131008
abbrev MTR_UNAVAIL_US : Nat := 0x131010
abbrev MTR_FREQ_LOSS : Nat := 0x131018
abbrev MTR_EVT_DROP : Nat := 0x131020
abbrev MTR_CFG_REJECT : Nat := 0x131028
abbrev PNL_CFG : Nat := 0x140000
abbrev PNL_FL : Nat := 0x140004
abbrev PNL_COMMIT : Nat := 0x140008
abbrev PNL_PENDING : Nat := 0x14000c
abbrev PNL_FL_WAKE : Nat := 0x140010
abbrev PNL_BODY_OWN : Nat := 0x140014
abbrev PNL_UPDATE : Nat := 0x140020
abbrev PNL_UPD_STATUS (i : Nat) : Nat := 0x140024 + 4 * i
abbrev PNL_STATUS : Nat := 0x140030
abbrev PNL_TEMP : Nat := 0x140034
abbrev PNL_FRAME : Nat := 0x140038
abbrev PNL_E_FINISH_UJ : Nat := 0x140040
abbrev PNL_E_CKPT_UJ : Nat := 0x140044
abbrev PNL_CKPT_FRAMES : Nat := 0x140048
abbrev PNL_PHASE : Nat := 0x14004c
abbrev PNL_LEDGER (i : Nat) : Nat := 0x140050 + 8 * i
abbrev PNL_TBL_STATUS : Nat := 0x140060
abbrev PNL_TBL_COMMIT : Nat := 0x140064
abbrev PNL_UPDATES : Nat := 0x140100
abbrev PNL_REFUSED : Nat := 0x140108
abbrev PNL_FB_BUSY_DROP : Nat := 0x140110
abbrev PNL_FB_DENIED : Nat := 0x140118
abbrev PNL_COMP_FRAMES : Nat := 0x140120
abbrev PNL_RAIL_FAIL : Nat := 0x140128
abbrev PNL_VCOM_SKIP : Nat := 0x140130
abbrev PNL_INTERRUPTS : Nat := 0x140138
abbrev PNL_WAKE_CNT : Nat := 0x140140
abbrev PNL_TBL (i : Nat) : Nat := 0x142000 + 4 * i
abbrev HLD_STATUS : Nat := 0x150000
abbrev HLD_VSTORE : Nat := 0x150004
abbrev HLD_E_AVAIL_UJ : Nat := 0x150008
abbrev HLD_C_UF : Nat := 0x15000c
abbrev HLD_P_HOLD_MW : Nat := 0x150010
abbrev HLD_RESERVE_UJ : Nat := 0x150014
abbrev HLD_LAST (i : Nat) : Nat := 0x150040 + 4 * i
abbrev HLD_MAIN_LOSSES : Nat := 0x150100
abbrev HLD_LODGE_LOSSES : Nat := 0x150108
abbrev HLD_FINISHES : Nat := 0x150110
abbrev HLD_CKPT_STOPS : Nat := 0x150118
abbrev HLD_BANNERS : Nat := 0x150120
abbrev HLD_BANNER_SKIP : Nat := 0x150128
abbrev HLD_PANEL_WAIT : Nat := 0x150130
abbrev TW_ID : Nat := 0
abbrev TW_RESV (i : Nat) : Nat := 0x40 + 4 * i
abbrev TW_USE (i : Nat) : Nat := 0x100 + 8 * i
abbrev TW_PIN_BYTES : Nat := 0x128
abbrev TW_DURABLE_BYTES : Nat := 0x130
abbrev TW_OBJECTS : Nat := 0x138
abbrev TW_SPILL_USE : Nat := 0x140
abbrev TW_SPILL_PEAK : Nat := 0x148
abbrev TW_CTX_SEL : Nat := 0x200
abbrev TW_CTX_STATUS : Nat := 0x204
abbrev TW_CTX_DATA (i : Nat) : Nat := 0x300 + 4 * i
abbrev TW_EV_CORE_MAP (i : Nat) : Nat := 0x800 + 4 * i
abbrev TW_EV_KEYS : Nat := 0x840
abbrev TW_EV_HEAD : Nat := 0x848
abbrev TW_EV_TAIL : Nat := 0x84c
abbrev TW_LEASE : Nat := 0x1000
abbrev TW_LEASE_PERIOD : Nat := 0x1004
abbrev TW_LEASE_STATUS : Nat := 0x1008
abbrev TW_LEASE_LEFT : Nat := 0x100c
abbrev TW_VEC_BASE : Nat := 0x1010
abbrev TW_OUT_CNT (i : Nat) : Nat := 0x2000 + 4 * i
abbrev TW_OUT_LAST : Nat := 0x2400
abbrev TW_LATE_PAGES : Nat := 0x2410
abbrev TW_LATE_US : Nat := 0x2418
abbrev TW_DEMOTED_PAGES : Nat := 0x2420
abbrev TW_LOSSY_PAGES : Nat := 0x2428
abbrev TW_POISONED : Nat := 0x2430
abbrev TW_PFX_HITS : Nat := 0x2440
abbrev TW_PFX_PUBS : Nat := 0x2448
abbrev TW_PFX_PUB_BYTES : Nat := 0x2450
abbrev TW_PFX_PUB_REFUSED : Nat := 0x2458
abbrev TW_SCH_TOKENS : Nat := 0x2460
abbrev TW_SCH_STEPS : Nat := 0x2468
abbrev TW_SCH_READY_US : Nat := 0x2470
abbrev TW_SCH_CLUSTER_NS : Nat := 0x2478
abbrev TW_CL_LAUNCHES : Nat := 0x2480
abbrev TW_CL_FAULTS : Nat := 0x2488
abbrev TW_CL_FLAGS : Nat := 0x2490
abbrev TW_CL_RELAUNCH : Nat := 0x2498
abbrev TW_CL_PREEMPTS : Nat := 0x24a0
abbrev TW_Q_CMDS : Nat := 0x24b0
abbrev TW_Q_HELD_WAIT : Nat := 0x24b8
abbrev TW_Q_REPLAYED : Nat := 0x24c0
abbrev TW_Q_DB_BAD : Nat := 0x24c8
abbrev TW_QP_FAULTS : Nat := 0x24d0
abbrev TW_EV_INJECTED : Nat := 0x24e0
abbrev TW_EV_KEY_DROP : Nat := 0x24e8
abbrev TW_EV_SPILLED : Nat := 0x24f0
abbrev TW_EV_REPLAYED : Nat := 0x24f8
abbrev TW_EV_REFUSED : Nat := 0x2500
abbrev TW_EV_REFRAC : Nat := 0x2508
abbrev TW_EV_SYN : Nat := 0x2510
abbrev TW_EV_LOAD_DROP : Nat := 0x2518
abbrev TW_EV_PARK_DROP : Nat := 0x2520
abbrev TW_LNK_TX_BYTES : Nat := 0x2540
abbrev TW_LNK_RX_BYTES : Nat := 0x2548
abbrev TW_LNK_INJ_WAIT_US : Nat := 0x2550
abbrev TW_PRG_INJ_REFUSED : Nat := 0x2560
abbrev TW_PRG_L7_DROP : Nat := 0x2568
abbrev TW_HIF_RD_BYTES : Nat := 0x2580
abbrev TW_HIF_WR_BYTES : Nat := 0x2588
abbrev TW_HIF_STALLS : Nat := 0x2590
abbrev TW_DB_PROD (i : Nat) : Nat := 0x10000 + 0x10 * i
abbrev TW_CQ_HEAD (i : Nat) : Nat := 0x10004 + 0x10 * i
abbrev TW_QSIG (i : Nat) : Nat := 0x10008 + 0x10 * i
abbrev TW_CR_BASE (i : Nat) : Nat := 0x20000 + 0x40 * i
abbrev TW_CQ_BASE (i : Nat) : Nat := 0x20008 + 0x40 * i
abbrev TW_CQ_WB (i : Nat) : Nat := 0x20010 + 0x40 * i
abbrev TW_Q_CFG (i : Nat) : Nat := 0x20018 + 0x40 * i
abbrev TW_Q_COMMIT (i : Nat) : Nat := 0x2001c + 0x40 * i
abbrev TW_Q_STATUS (i : Nat) : Nat := 0x20020 + 0x40 * i
abbrev TW_CR_CONS (i : Nat) : Nat := 0x20024 + 0x40 * i
abbrev TW_CQ_TAIL (i : Nat) : Nat := 0x20028 + 0x40 * i
abbrev TW_Q_HELD (i : Nat) : Nat := 0x20030 + 0x40 * i
abbrev TW_Q_GID (i : Nat) : Nat := 0x20034 + 0x40 * i
abbrev TW_NRG_PERIOD_UJ : Nat := 0x40000
abbrev TW_NRG_TOTAL_UJ : Nat := 0x40008
abbrev TW_NRG_OVH_UJ : Nat := 0x40010
abbrev TW_NRG_OVER_UJ : Nat := 0x40018
abbrev TW_NRG_LAST_UJ : Nat := 0x40020
abbrev TW_NRG_BUDGET_J : Nat := 0x40024
abbrev TW_NRG_K : Nat := 0x40028
abbrev TW_NRG_SEQ : Nat := 0x4002c
abbrev TW_NRG_ACT (i : Nat) : Nat := 0x40040 + 8 * i
abbrev TW_MB_CTRL : Nat := 0x80080
abbrev TW_NTC_PROD : Nat := 0x80084
abbrev TW_NTC_CONS : Nat := 0x80088
abbrev TW_HIE_SPAN_FAIL : Nat := 0x900
abbrev TW_MB_SPAN_CNT : Nat := 0x80100
abbrev TW_MB_SPAN (i : Nat) : Nat := 0x80104 + 4 * i
abbrev TW_WIN_HDR (i j : Nat) : Nat := 0x30000 + 0x20 * i + 4 * j
abbrev TW_TAP (i : Nat) : Nat := 0x38000 + 8 * i
abbrev TW_WIN_TAIL : Nat := 0x37ff0
abbrev TW_WIN_HEAD : Nat := 0x37ff4

end Reg

end Sys2Proof.Machine
end

