-- ==== Sys2Proof/Machine/State.lean ====
section
/-! DEFINITION. The machine's state, its faults and refusals, and the state after reset. -/

namespace Sys2Proof.Machine

/-- Why a step stops with a fault. -/
inductive Fault where
  /-- Raised by a meaning whose operand names a unit, slot or index that the hardware does not have (a
  cluster above 127, a port above 17).  Safe: the hardware has no such unit, so it goes nowhere. -/
  | noSuchUnit
  deriving DecidableEq, Repr

/-- Why a command is refused. -/
inductive Refusal where
  /-- Raised by the dispatch for a command that has no meaning yet.  Safe: nothing follows. -/
  | notModelled (mnemonic : String)
  deriving DecidableEq, Repr

/-- The state of the sled. -/
structure State where
  /-- Commands waiting, first in, first out. -/
  pending : List Instr
  /-- Committed values of the BAR0 registers, by address; a cell not listed holds its reset value. -/
  regs : RegFile
  /-- Staged copies that differ from the committed copy, or belong to a commit in flight (00, R9). -/
  staged : RegFile
  /-- Commits in flight: the address of the COMMIT register and the staged values it took (00, R10). -/
  inflight : List (Nat × RegFile)
  /-- PST cells whose write is not complete, with the value that is still durable (00, R12). -/
  nvOld : RegFile
  latches : List Latch
  /-- Timebase of the hub die, in microseconds (16). -/
  tb : Nat
  /-- The model's own: draws of `Config.freeNat` made so far (log entry 4). -/
  free : Nat
  /-- The model's own: what has left the block, newest first (log entry 8). -/
  out : List Output
  log : List LogRec
  /-- The trace ring, newest first (23, R483). -/
  trace : List TraceRec
  hif : Hif
  fw : Fw
  rst : Rst
  adm : Adm
  fns : Map Fn
  moves : List Move
  nextId : Nat
  flights : List Flight
  reads : List HostRead
  progs : Map QProg
  pfx : Pfx
  sch : Sch
  /-- Size of PF BAR2 in MiB, one tenant window each (15, R309; log entry 24). -/
  bar2 : Nat
  /-- The holder the chassis manager named for new T4 pages, its node ID plus 1; 0 none (13, R284). -/
  lender : Nat
  /-- Firmware is down for a watchdog restart (23, R481). -/
  fwDown : Bool
  flt : Flt
  /-- Clusters a manager withholds (01, R33). -/
  withheld : List Nat
  /-- Tile moves that ended without success, by cluster and token, not yet reported to the cluster (07, R156). -/
  tileFails : List (Nat × Nat × Status)
  /-- Clusters that run a launch, by number (07). -/
  clus : Map Cluster
  launches : Map Launch
  nextLaunch : Nat
  fab : Fab
  ports : Map Port
  groups : Map Group
  lnk : Lnk
  hie : Hie
  nrg : Nrg
  adc : Adc
  dec : Dec
  mtr : Mtr
  pnl : Pnl
  hld : Hld
  sb : Sideband
  tap : Tap
  deriving DecidableEq, Repr

/-- Firmware as shipped: an image in slot A, confirmed, of the spec's example version, with the fields that Table FW-2
fixes and the least payload; the rest of its bytes read zero (log entry 87). -/
def factoryFw : Fw where
  slotA := [(0x000, 0x31), (0x001, 0x4E), (0x002, 0x42), (0x003, 0x4D), (0x004, 0x01), (0x00A, 0x04), (0x00B, 0x02), (0x011, 0x10)]
  desc0 := some ⟨1, 0, ⟨5, 0x02040000, 0, 0⟩, ⟨0, 0, 0, 0⟩⟩

/-- The panel as step 13 of a cold start leaves it: the status zone drawn, and the default page with no record (log entry 98). -/
def shownPanel : Pnl where
  prev := [(0, ⟨.status [0x11127, 0, 3, 0, 0, 0, 0, 0x02040000], []⟩), (1, ⟨.page [], []⟩)]
  next := [(0, ⟨.status [0x11127, 0, 3, 0, 0, 0, 0, 0x02040000], []⟩), (1, ⟨.page [], []⟩)]

/-- The sled right after reset: a cold start has completed with no host present and no tenant (log entry 1). -/
def State.reset : State where
  pending := []
  regs := []
  staged := []
  inflight := []
  nvOld := []
  latches := []
  tb := 0
  free := 0
  out := []
  log := []
  trace := []
  hif := {}
  fw := factoryFw
  rst := {}
  adm := {}
  fns := []
  moves := []
  nextId := 0
  flights := []
  reads := []
  progs := []
  pfx := {}
  sch := {}
  bar2 := 1024
  lender := 0
  fwDown := false
  flt := {}
  withheld := []
  tileFails := []
  clus := []
  launches := []
  nextLaunch := 0
  fab := {}
  ports := []
  groups := []
  lnk := {}
  hie := {}
  nrg := {}
  adc := {}
  dec := {}
  mtr := {}
  pnl := shownPanel
  hld := {}
  sb := {}
  tap := {}

end Sys2Proof.Machine
end

