-- ==== Sys2Proof/Machine/Ops.lean ====
section
/-! DEFINITION. The named operations over keyed collections, byte memory, registers, tenants and functions that
every meaning is written with. -/

namespace Sys2Proof.Machine

open Host (Outcome)

/-- The outcome of a command. -/
abbrev Out := Outcome State Fault Refusal

/-- A command on a unit that the hardware has; any other is a fault. -/
def onUnit (ok : Bool) (s : State) : Out := if ok then .next s else .fault .noSuchUnit

/-! ### Numbers and fields -/

/-- Bits `lo + len - 1` to `lo` of a number (00, R4). -/
def bits (x lo len : Nat) : Nat := x / 2 ^ lo % 2 ^ len

/-- `x` with bits `lo + len - 1` to `lo` set to `v`. -/
def setBits (x lo len v : Nat) : Nat := x - bits x lo len * 2 ^ lo + v % 2 ^ len * 2 ^ lo

/-- A truth value as one bit. -/
def b2n (b : Bool) : Nat := if b then 1 else 0

/-- A time that was set has come. -/
def timeCame (t : Option Nat) (now : Nat) : Bool := t.any (fun x => decide (x ≤ now))

/-- The quotient rounded up. -/
def cdiv (a b : Nat) : Nat := (a + b - 1) / b

/-- The signed value of the low `w` bits. -/
def signed (w x : Nat) : Int := if x % 2 ^ w < 2 ^ (w - 1) then (x % 2 ^ w : Nat) else ((x % 2 ^ w : Nat) : Int) - 2 ^ w

/-- An integer modulo `2 ^ w`. -/
def unsigned (w : Nat) (x : Int) : Nat := (x % (2 ^ w : Nat)).toNat

/-! ### Keyed collections -/

/-- The value of a key. -/
def mget {α : Type} : Map α → Nat → Option α
  | [], _ => none
  | (i, v) :: r, k => if i = k then some v else mget r k

/-- Set a key, keeping the keys in rising order. -/
def mput {α : Type} : Map α → Nat → α → Map α
  | [], k, v => [(k, v)]
  | (i, w) :: r, k, v => if k < i then (k, v) :: (i, w) :: r else if k = i then (k, v) :: r else (i, w) :: mput r k v

/-- Remove a key. -/
def mdel {α : Type} : Map α → Nat → Map α
  | [], _ => []
  | (i, w) :: r, k => if i = k then mdel r k else (i, w) :: mdel r k

/-- Change the value of a key that is present. -/
def mupd {α : Type} (m : Map α) (k : Nat) (f : α → α) : Map α :=
  match mget m k with
  | some v => mput m k (f v)
  | none => m

/-- The value of a key in a collection that keeps only what differs from `d`. -/
def mgetD {α : Type} (m : Map α) (d : α) (k : Nat) : α := (mget m k).getD d

/-- Set a key in a collection that keeps only what differs from `d`. -/
def mputD {α : Type} [DecidableEq α] (m : Map α) (d : α) (k : Nat) (v : α) : Map α :=
  if v = d then mdel m k else mput m k v

/-- The canonical form of a collection: its keys strictly rise and lie above a bound. -/
def keysFrom {α : Type} : Nat → Map α → Bool
  | _, [] => true
  | b, (k, _) :: r => decide (b ≤ k) && keysFrom (k + 1) r

/-- Change every value. -/
def mmap {α : Type} (m : Map α) (f : Nat → α → α) : Map α := m.map (fun kv => (kv.1, f kv.1 kv.2))

/-- The lowest key from `lo` that is not in use. -/
def lowestFree (used : List Nat) (lo : Nat) : Nat :=
  ((List.range (used.length + 1)).find? (fun i => !used.contains (lo + i))).getD used.length + lo

/-- The sum of a number over a list. -/
def sumOf {α : Type} (l : List α) (f : α → Nat) : Nat := l.foldl (fun n x => n + f x) 0

/-- Change the elements that satisfy a test. -/
def updWhere {α : Type} (l : List α) (p : α → Bool) (f : α → α) : List α := l.map (fun x => if p x then f x else x)

/-! ### Byte memory -/

/-- The byte at an address. -/
def readByte (m : Memory) (a : Nat) : Byte := mgetD m Memory.unlisted a

/-- Set the byte at an address, keeping the canonical form. -/
def writeByte (m : Memory) (a : Nat) (b : Byte) : Memory := mputD m Memory.unlisted a b

/-- `n` bytes from an address. -/
def readBytes (m : Memory) (a : Nat) : Nat → List Byte
  | 0 => []
  | n + 1 => readByte m a :: readBytes m (a + 1) n

/-- Store bytes from an address upward. -/
def writeBytes (m : Memory) (a : Nat) : List Byte → Memory
  | [] => m
  | b :: r => writeBytes (writeByte m a b) (a + 1) r

/-- The number that `n` bytes hold, least significant byte first (00, R5). -/
def readLE (m : Memory) (a n : Nat) : Nat := (readBytes m a n).foldr (fun b x => b.toNat + 256 * x) 0

/-- The `n` bytes of a number, least significant first. -/
def leBytes (x : Nat) : Nat → List Byte
  | 0 => []
  | n + 1 => BitVec.ofNat 8 x :: leBytes (x / 256) n

/-- Store a number in `n` bytes, least significant first. -/
def writeLE (m : Memory) (a n x : Nat) : Memory := writeBytes m a (leBytes x n)

/-- Copy `n` bytes between memories. -/
def copyBytes (src : Memory) (sa : Nat) (dst : Memory) (da n : Nat) : Memory := writeBytes dst da (readBytes src sa n)

/-- CRC-32 (IEEE 802.3) over bytes. -/
def crcBytes (get : Nat → Nat) : List Nat → Nat → Nat
  | [], c => c
  | a :: r, c => crcBytes get r ((List.range 8).foldl (fun x _ => if x % 2 = 1 then (x / 2) ^^^ 0xEDB88320 else x / 2) (c ^^^ get a))

/-! ### Registers of PF BAR0 -/

namespace State

/-- The committed value of a BAR0 cell. -/
def rd (s : State) (a : Nat) : DWord := mgetD s.regs (regInit a) a

/-- The committed value as a number. -/
def rdN (s : State) (a : Nat) : Nat := (s.rd a).toNat

/-- Set the committed value of a BAR0 cell. -/
def put (s : State) (a : Nat) (v : DWord) : State := { s with regs := mputD s.regs (regInit a) a v }

/-- Set a cell to a number, modulo 2^64. -/
def putN (s : State) (a n : Nat) : State := s.put a (BitVec.ofNat 64 n)

/-- Add to a 64-bit counter. -/
def bumpBy (s : State) (a n : Nat) : State := s.put a (s.rd a + BitVec.ofNat 64 n)

/-- Add 1 to a 64-bit counter. -/
def bump (s : State) (a : Nat) : State := s.bumpBy a 1

/-- Add to a 32-bit counter, which wraps. -/
def bump32 (s : State) (a : Nat) : State := s.putN a ((s.rdN a + 1) % 2 ^ 32)

/-- A field of a cell. -/
def fld (s : State) (a lo len : Nat) : Nat := bits (s.rdN a) lo len

/-- Set a field of a cell. -/
def setFld (s : State) (a lo len v : Nat) : State := s.putN a (setBits (s.rdN a) lo len v)

/-- One bit of a cell. -/
def bit (s : State) (a i : Nat) : Bool := s.fld a i 1 == 1

/-- Set one bit of a cell. -/
def setBit (s : State) (a i : Nat) (b : Bool) : State := s.setFld a i 1 (b2n b)

/-- The staged copy of a cell (00, R9). -/
def stg (s : State) (a : Nat) : DWord := (mget s.staged a).getD (s.rd a)

/-- Draw a value that the spec leaves open. -/
def draw (s : State) : Nat × State := (Config.freeNat s.free, { s with free := s.free + 1 })

/-- Send something out of the block. -/
def emit (s : State) (o : Output) : State := { s with out := o :: s.out }

/-- A fresh number for a move, a flight or a read. -/
def fresh (s : State) : Nat × State := (s.nextId, { s with nextId := s.nextId + 1 })

/-- Append a log record; the ring keeps the newest 1,024, and records below FW_LOG_MIN_SEV are left out but for those of
severity FAULT (23, R482). -/
def logRec (s : State) (sev code : Nat) (args : List Nat := []) (unit : Nat := 0xFFFF) (status : Word := 0) (tenant : Nat := 0) : State :=
  if sev < s.rdN Reg.FW_LOG_MIN_SEV ∧ sev ≠ 5 then s
  else
    let s := s.bump32 Reg.FW_LOG_SEQ
    { s with log := ⟨s.rdN Reg.FW_LOG_SEQ, s.tb, sev, code, status, tenant, unit, args⟩ :: s.log.take 1023 }

/-- Write a trace record while its ID is enabled; the ring keeps the newest 32,768 (23, R483). -/
def traceRec (s : State) (id source : Nat) (unit : Nat) (args : List Nat) : State :=
  if s.bit (Reg.FW_TRACE_EN (id / 32)) (id % 32) then
    let s := s.bump Reg.FW_TRACE_SEQ
    { s with trace := ⟨s.rdN Reg.FW_TRACE_SEQ % 2 ^ 32, id, source, unit, s.tb, args⟩ :: s.trace.take 32767 }
  else s

end State

/-! ### Staged groups and persistence -/

/-- The staged copies that a group's commit takes now: the cells of the group with a staged copy. -/
def stagedOf (s : State) (inGroup : Nat → Bool) : RegFile := s.staged.filter (fun c => inGroup c.1)

/-- A COMMIT write puts the group's commit in flight with the values staged now (00, R10); a second COMMIT
before the safe point replaces the values. -/
def commitTake (s : State) (commit : Nat) (inGroup : Nat → Bool) : State :=
  { s with inflight := (commit, stagedOf s inGroup) :: s.inflight.filter (fun c => c.1 != commit) }

/-- A PST cell is written: the value durable until the write completes is the old one (00, R12). -/
def notePst (s : State) (a : Nat) (old : DWord) : State :=
  match regRow a with
  | some r => if r.pst && (mget s.nvOld a).isNone then { s with nvOld := mput s.nvOld a old } else s
  | none => s

/-- Apply one staged value; a staged copy written since stays staged (00, R11). -/
def applyCell (s : State) (c : Nat × DWord) : State :=
  let st := s.stg c.1
  let s := notePst s c.1 (s.rd c.1)
  let s := s.put c.1 c.2
  { s with staged := if st = c.2 then mdel s.staged c.1 else mput s.staged c.1 st }

/-- The safe point of a group: a commit in flight is applied, every field together (00, R10). -/
def commitApply (s : State) (commit : Nat) : State :=
  match s.inflight.find? (fun c => c.1 == commit) with
  | some c => { c.2.foldl applyCell s with inflight := s.inflight.filter (fun d => d.1 != commit) }
  | none => s

/-- A refused commit is not applied; its group stays pending while the copies differ (00, R9). -/
def commitDrop (s : State) (commit : Nat) : State :=
  { s with inflight := s.inflight.filter (fun d => d.1 != commit) }

/-- PENDING of a group: a staged copy differs from its committed copy, or a commit is in flight (00, R9). -/
def groupPending (s : State) (commit : Nat) (inGroup : Nat → Bool) : Bool :=
  s.inflight.any (fun c => c.1 == commit) || s.staged.any (fun c => inGroup c.1 && c.2 != s.rd c.1)

/-! ### Status words (00, R13 to R16, R552) -/

/-- The status triple packed into a word; a DONE word is zero, and DETAIL saturates. -/
def Status.word (t : Status) : Word :=
  if t.code = 0 then 0 else BitVec.ofNat 32 (t.code % 256 + 256 * (t.res % 256) + 65536 * min t.detail 0xFFFF)

/-- The status a piece of work carries, of all that apply to it in order of production (00, R14): the highest
code, its first resource, and for DONE_LATE, DONE_RETRIED and DELAYED the sum of the details. -/
def pickStatus (l : List Status) : Status :=
  match l with
  | [] => ⟨0, 0, 0⟩
  | t :: r =>
    let best := r.foldl (fun b x => if b.code < x.code then x else b) t
    if best.code = 0x01 ∨ best.code = 0x02 ∨ best.code = 0x11 then
      { best with detail := min 0xFFFF (sumOf (l.filter (fun x => x.code == best.code)) (fun x => x.detail)) }
    else best

namespace State

/-! ### Tenants and functions -/

/-- The tenant of a slot. -/
def ten (s : State) (slot : Nat) : Option Tenant := mget s.adm.tenants slot

/-- Set the tenant of a slot. -/
def setTen (s : State) (slot : Nat) (t : Tenant) : State :=
  { s with adm := { s.adm with tenants := mput s.adm.tenants slot t } }

/-- Change the tenant of a slot that is not FREE. -/
def updTen (s : State) (slot : Nat) (f : Tenant → Tenant) : State :=
  { s with adm := { s.adm with tenants := mupd s.adm.tenants slot f } }

/-- A register of a tenant's window. -/
def twRd (s : State) (slot off : Nat) : Nat :=
  match s.ten slot with
  | some t => (mgetD t.regs (twInit off) off).toNat
  | none => 0

/-- Set a register of a tenant's window. -/
def twPut (s : State) (slot off v : Nat) : State :=
  s.updTen slot (fun t => { t with regs := mputD t.regs (twInit off) off (BitVec.ofNat 64 v) })

/-- Add to a counter of a tenant's window. -/
def twBump (s : State) (slot off : Nat) (n : Nat := 1) : State := s.twPut slot off (s.twRd slot off + n)

/-- A function. -/
def fn (s : State) (f : Nat) : Fn := mgetD s.fns {} f

/-- Change a function. -/
def updFn (s : State) (f : Nat) (g : Fn → Fn) : State := { s with fns := mput s.fns f (g (s.fn f)) }

/-- A register of a function's own window. -/
def fnRd (s : State) (f off : Nat) : Nat := (mgetD (s.fn f).regs (twInit off) off).toNat

/-- Set a register of a function's own window. -/
def fnPut (s : State) (f off v : Nat) : State :=
  s.updFn f (fun n => { n with regs := mputD n.regs (twInit off) off (BitVec.ofNat 64 v) })

/-- The slot that holds a tenant ID. -/
def slotOf (s : State) (id : Nat) : Option Nat :=
  (s.adm.tenants.find? (fun t => t.2.id == id)).map (·.1)

/-- The slot of the tenant attached through a VF. -/
def attachedVia (s : State) (f : Nat) : Option Nat :=
  (s.adm.tenants.find? (fun t => t.2.fn == some f)).map (·.1)

/-- Count an outcome of a tenant (03, Table ADM-12): TW_OUT_CNT wraps, TW_OUT_LAST keeps the last of the classes
0x1 to 0x4. -/
def outcome (s : State) (slot : Nat) (t : Status) : State :=
  let s := s.twPut slot (Reg.TW_OUT_CNT t.code) ((s.twRd slot (Reg.TW_OUT_CNT t.code) + 1) % 2 ^ 32)
  if t.code < 0x10 then s else s.twPut slot Reg.TW_OUT_LAST t.word.toNat

/-- Count an outcome in a function's own counters (03, R60). -/
def fnOutcome (s : State) (f : Nat) (t : Status) : State :=
  let s := s.fnPut f (Reg.TW_OUT_CNT t.code) ((s.fnRd f (Reg.TW_OUT_CNT t.code) + 1) % 2 ^ 32)
  if t.code < 0x10 then s else s.fnPut f Reg.TW_OUT_LAST t.word.toNat

end State

/-- A function is in a blocking state: bus mastering off, D3hot, or an insecure IDE stream (15, R323); an FLR is over
within its step (log entry 84). -/
def Fn.blocked (n : Fn) : Bool := !n.bme || n.d3hot || n.ideInsecure

/-- Bytes that the device read from host memory for a tenant (15, Table HIF-10; 20, Table NRG-1). -/
def hostIn (slot n : Nat) (s : State) : State := (s.twBump slot Reg.TW_HIF_RD_BYTES n).twBump slot (Reg.TW_NRG_ACT 6) n

/-- Bytes that the device wrote to host memory for a tenant. -/
def hostOut (slot n : Nat) (s : State) : State := (s.twBump slot Reg.TW_HIF_WR_BYTES n).twBump slot (Reg.TW_NRG_ACT 6) n

/-- A write of a function leaves; the bytes of a tenant's data, entries and writebacks are counted (15, Table HIF-10). -/
def sendHost (f : Nat) (w : HostWrite) (s : State) : State :=
  let s := s.emit (.host f w)
  match w with
  | .data flight _ bytes =>
    (match s.flights.find? (fun g => g.id == flight) with
      | some g => hostOut g.slot bytes.length s
      | none => s)
  | .entry slot _ _ _ c => hostOut slot (if c.report.isEmpty then 32 else 64) s
  | .writeback slot _ _ => hostOut slot 4 s
  | .msix _ => s
  | .raw slot _ bytes => hostOut slot bytes.length s

/-- Post a write of a function: it leaves at once, or waits behind the function's queued writes; a message of a
vector already waiting is merged (15, R312, R313). -/
def postWrite (f : Nat) (w : HostWrite) (s : State) : State :=
  let n := s.fn f
  if n.blocked || n.wrStalled || !n.wq.isEmpty then
    if n.wq.contains w && (match w with | .msix _ => true | _ => false) then s
    else s.updFn f (fun n => { n with wq := n.wq ++ [w], wqSince := if n.wq.isEmpty then s.tb else n.wqSince })
  else sendHost f w s

/-- Raise an MSI-X vector of a function; a vector that is masked, or raised in a write stall, becomes pending, and a raise
while its message is pending is merged (15, R312, R560). -/
def raiseVec (f vec : Nat) (s : State) : State :=
  let n := s.fn f
  if !n.msixEn || !n.unmasked.contains vec || n.wrStalled || n.pendingVec.contains vec then
    s.updFn f (fun n => { n with pendingVec := if n.pendingVec.contains vec then n.pendingVec else n.pendingVec ++ [vec] })
  else postWrite f (.msix vec) s

/-- Raise a vector of a tenant's vector space (15, R312). -/
def raiseTen (slot v : Nat) (s : State) : State :=
  match (s.ten slot).bind (fun t => t.fn) with
  | some 0 => raiseVec 0 ((s.twRd slot Reg.TW_VEC_BASE + v) % 2048) s
  | some f => raiseVec f v s
  | none => s

end Sys2Proof.Machine
end

