-- ==== Sys2Proof/Machine/OpsLink.lean ====
section
/-! DEFINITION. The links (12): flits and their payloads, injection, routing, credits and transmission. -/

namespace Sys2Proof.Machine

/-- This sled's node ID. -/
def ownNode (s : State) : Nat := s.fld Reg.LNK_NODE_ID 0 16

/-! ### Messages (Table LNK-6, Table HIE-3, 05 Table PFX-10) -/

/-- The layout of a message: its class, the place and size of each field in bytes, and the place and element size of
the list that follows them. -/
structure Layout where
  cls : Nat
  fields : List (Nat × Nat)
  tail : Option (Nat × Nat) := none

/-- The layout of a message type; none for a reserved type. -/
def layoutOf (type : Nat) : Option Layout :=
  match type with
  | 0x10 | 0x11 => some ⟨0, [(4, 4), (8, 8)], none⟩
  | 0x12 => some ⟨0, [(1, 1), (8, 8)], none⟩
  | 0x20 => some ⟨2, [(4, 4), (8, 8), (0x10, 4), (0x14, 4), (0x18, 4)], none⟩
  | 0x21 => some ⟨2, [(1, 1), (4, 4), (8, 8), (0x10, 4)], none⟩
  | 0x22 => some ⟨1, [(4, 4), (8, 4), (0xC, 4), (0x10, 4)], none⟩
  | 0x23 => some ⟨2, [(4, 4), (8, 8), (0x10, 4), (0x14, 4)], none⟩
  | 0x24 => some ⟨1, [(1, 1)], none⟩
  | 0x30 => some ⟨3, [(2, 2), (4, 4), (8, 4)], some (0xC, 1)⟩
  | 0x40 => some ⟨5, [(1, 1), (2, 2), (4, 4), (8, 4)], some (0xC, 4)⟩
  | 0x41 => some ⟨5, [(1, 1), (2, 2), (4, 4), (8, 4)], some (0xC, 1)⟩
  | 0x42 => some ⟨5, [(1, 1), (2, 2), (4, 4), (8, 4)], some (0xC, 1)⟩
  | 0x43 => some ⟨2, [(2, 2), (4, 4), (8, 4), (0xC, 4)], none⟩
  | 0x44 => some ⟨5, [(2, 2), (4, 4), (8, 1), (0xC, 4)], none⟩
  | 0x45 => some ⟨5, [(2, 2), (4, 4), (8, 4)], none⟩
  | 0x46 => some ⟨1, [(1, 1), (2, 2), (4, 4), (8, 4)], some (0xC, 1)⟩
  | 0x47 => some ⟨1, [(4, 4), (8, 4)], none⟩
  | 0x50 => some ⟨2, [(1, 1), (2, 2), (4, 1)], some (0xC, 8)⟩
  | 0x51 => some ⟨2, [(1, 1), (2, 2), (4, 2)], some (0xC, 8)⟩
  | 0x52 => some ⟨1, [(1, 1), (2, 2), (4, 2), (6, 2), (8, 1)], none⟩
  | 0x53 => some ⟨2, [(1, 1), (2, 2), (4, 2), (6, 2)], some (0xC, 16)⟩
  | 0x54 => some ⟨1, [(1, 1), (2, 2), (4, 2), (8, 4)], none⟩
  | 0x55 => some ⟨2, [(4, 2), (8, 4)], none⟩
  | 0x60 => some ⟨4, [(1, 1), (2, 2)], some (4, 4)⟩
  | 0x68 => some ⟨6, [(2, 2), (8, 8)], none⟩
  | 0x69 => some ⟨6, [(2, 2), (8, 8), (0x10, 8), (0x18, 8), (0x20, 1)], none⟩
  | 0x70 => some ⟨0, [(1, 1), (2, 2), (4, 4), (8, 4), (0xC, 1), (0x10, 4), (0x14, 1), (0x18, 4)], none⟩
  | 0x71 => some ⟨0, [(1, 1), (2, 2), (4, 4), (8, 4), (0x18, 4)], none⟩
  | 0x72 => some ⟨2, [(1, 1), (4, 4), (8, 4), (0xC, 4), (0x10, 4), (0x14, 4), (0x5C, 16)], some (0x20, 2)⟩
  | 0x73 => some ⟨1, [(4, 4), (8, 4), (0x5C, 16)], none⟩
  | 0x74 => some ⟨2, [(4, 4), (8, 4), (0xC, 4), (0x10, 4), (0x40, 8), (0x48, 8), (0x50, 4), (0x54, 1)], some (0x14, 2)⟩
  | 0x75 => some ⟨0, [(1, 1), (2, 1), (3, 1), (4, 4)], some (8, 8)⟩
  | 0x76 => some ⟨2, [(2, 1)], none⟩
  | 0x77 => some ⟨1, [(2, 1), (4, 4)], some (8, 2)⟩
  | 0x78 => some ⟨2, [(2, 2), (4, 4), (8, 4), (0x2C, 4), (0x30, 4)], some (0x10, 4)⟩
  | 0x79 => some ⟨1, [(4, 4), (8, 4), (0xC, 4)], none⟩
  | 0x7A => some ⟨2, [(4, 4), (8, 4)], none⟩
  | 0x7B => some ⟨2, [(2, 2), (4, 4), (8, 4)], none⟩
  | 0x7C => some ⟨2, [(2, 2), (4, 4)], some (8, 1)⟩
  | 0x7D => some ⟨2, [(2, 2), (4, 4)], some (0xC, 4)⟩
  | 0x7E => some ⟨2, [(1, 1), (2, 1), (4, 4), (8, 4), (0xC, 4), (0x40, 4)], some (0x10, 1)⟩
  | 0x7F => some ⟨1, [(2, 1), (4, 4), (8, 4), (0xC, 4), (0x10, 1)], none⟩
  | _ => none

/-- The value `x` in `n` bytes from byte `a`. -/
def placeBytes (a n x : Nat) : Nat := x % 256 ^ n * 256 ^ a

/-- The payload of a message: TYPE, then its fields, then the list (R247). -/
def encodeMsg (type : Nat) (l : Layout) (xs : List Nat) : BitVec 864 :=
  let fixed := sumOf (l.fields.zip xs) (fun f => placeBytes f.1.1 f.1.2 f.2)
  let rest := xs.drop l.fields.length
  let tail := match l.tail with
    | some (a, n) => sumOf ((List.range rest.length).zip rest) (fun e => placeBytes (a + n * e.1) n e.2)
    | none => 0
  BitVec.ofNat 864 (type + fixed + tail)

/-- `n` bytes of a payload from byte `a`, as a number. -/
def payField (p : BitVec 864) (a n : Nat) : Nat := bits p.toNat (8 * a) (8 * n)

/-- `k` elements of `n` bytes from byte `a`. -/
def payList (p : BitVec 864) (a n k : Nat) : List Nat := (List.range k).map (fun i => payField p (a + n * i) n)

/-! ### Flits (R247, Table LNK-1) -/

/-- One step of the CRC for each of the low `n` bits of `x`, least significant first. -/
def crcBits : Nat → Nat → Nat → Nat
  | 0, _, c => c
  | n + 1, x, c => crcBits n (x / 2) (if (c ^^^ x) % 2 = 1 then (c / 2) ^^^ 0xEDB88320 else c / 2)

/-- CRC-32 of `n` bytes given as a little-endian number (R247). -/
def crc32 (n x : Nat) : Word := BitVec.ofNat 32 (crcBits (8 * n) x 0xFFFFFFFF ^^^ 0xFFFFFFFF)

/-- The CRC of a flit's bytes 0 to 123. -/
def flitCrc (hdr : BitVec 128) (p : BitVec 864) : Word := crc32 124 (hdr.toNat + 2 ^ 128 * p.toNat)

/-- The header of a DATA flit. -/
def dataHdr (f : Flit) (seq ack : Nat) (rpl : Bool) : BitVec 128 :=
  BitVec.ofNat 128 (1 + 4 * f.cls + 32 * f.vc + 64 * f.epoch + 128 + 2 ^ 8 * seq + 2 ^ 20 * ack + 2 ^ 32 * f.dst + 2 ^ 48 * f.src +
    2 ^ 64 * f.tenant + 2 ^ 80 * f.hops + 2 ^ 84 * f.ocls + 2 ^ 88 * f.nepoch + 2 ^ 96 * f.rtag + 2 ^ 112 * b2n rpl)

/-- The header of an IDLE (0) or LINK (2) flit. -/
def linkHdr (kind ack : Nat) : BitVec 128 := BitVec.ofNat 128 (kind + 128 + 2 ^ 20 * ack)

/-- The virtual channel of a flit, 2 × class + VC. -/
def Flit.chan (f : Flit) : Nat := 2 * f.cls + f.vc

namespace State
/-- A link port. -/
def lport (s : State) (p : Nat) : LPort := mgetD s.lnk.ports {} p
/-- Change a link port. -/
def updLport (s : State) (p : Nat) (f : LPort → LPort) : State :=
  { s with lnk := { s.lnk with ports := mput s.lnk.ports p (f (s.lport p)) } }
/-- STATE of a port (Table LNK-4). -/
def portState (s : State) (p : Nat) : Nat := s.fld (Reg.LNK_PORT_STATUS p) 0 3
/-- Set STATE. -/
def setPort (s : State) (p st : Nat) : State := s.setFld (Reg.LNK_PORT_STATUS p) 0 3 st
/-- The port is fitted: the sled has two Pergola dies (01; log entry 73). -/
def fitted (s : State) (p : Nat) : Bool := decide (p < 18) && !s.bit (Reg.LNK_PORT_STATUS p) 24
/-- The port carries traffic. -/
def portUp (s : State) (p : Nat) : Bool := decide (p < 18) && s.portState p == 5
/-- What is known of a node. -/
def peer (s : State) (n : Nat) : PeerInfo := mgetD s.lnk.peers {} n
/-- Note something about a node. -/
def updPeer (s : State) (n : Nat) (f : PeerInfo → PeerInfo) : State :=
  { s with lnk := { s.lnk with peers := mput s.lnk.peers n (f (s.peer n)) } }
/-- The routing epoch E. -/
def lnkE (s : State) : Nat := s.fld Reg.LNK_EPOCH 0 1
/-- The other bank can be written (log entry 74). -/
def lnkStaged (s : State) : Bool := decide (s.fld Reg.LNK_EPOCH 1 2 < 2)
end State

/-- ACK: the last SEQ delivered in order. -/
def LPort.ack (p : LPort) : Nat := (p.rxSeq + 4095) % 4096

/-- Send an IDLE or LINK flit. -/
def sendLink (p kind payload : Nat) (s : State) : State :=
  let h := linkHdr kind (s.lport p).ack
  let d := BitVec.ofNat 864 payload
  s.emit (.flit p h d (flitCrc h d))

/-- A CREDIT flit with the freed counts (R252, Table LNK-2). -/
def sendCredit (p : Nat) (s : State) : State :=
  let l := s.lport p
  sendLink p 2 (3 + sumOf (List.range 16) (fun v => placeBytes (2 + 2 * v) 2 (mgetD l.freed 0 v))) s

/-- RETRY_REQ names the expected SEQ (R250). -/
def sendRetry (p : Nat) (s : State) : State := sendLink p 2 (2 + placeBytes 2 2 (s.lport p).rxSeq) s

/-- A flit leaves its buffer: the freed count advances and the peer is told (R252). -/
def freeBuf (o : Option (Nat × Nat)) (s : State) : State :=
  match o with
  | none => s
  | some (p, v) =>
    let s := s.updLport p (fun l => { l with freed := mputD l.freed 0 v ((mgetD l.freed 0 v + 1) % 65536) })
    if s.portUp p then sendCredit p s else s

/-! ### Transmission (R249, R252, R255) -/

/-- Credits for a virtual channel (R252). -/
def LPort.credit (l : LPort) (v : Nat) : Nat := (mgetD l.depth 0 v + mgetD l.freedPeer 0 v + 65536 - mgetD l.sent 0 v) % 65536

/-- The order of grants (R255): classes 0, 6, 7 and 1, then round robin over classes 2 to 5. -/
def LPort.grants (l : LPort) : List Nat :=
  [0, 1, 12, 13, 14, 15, 2, 3] ++ (List.range 8).map (fun i => 4 + (l.turn - 4 + 1 + i) % 8)

/-- The flit that the next slot goes to. -/
def LPort.next (l : LPort) : Option QFlit :=
  if 512 ≤ l.unacked.length then none
  else l.grants.findSome? (fun v => if l.credit v = 0 then none else l.queue.find? (fun q => q.flit.chan == v))

/-- Send a flit: it takes the next SEQ and a credit, and a copy stays in the retry buffer (R249). -/
def transmit (p : Nat) (q : QFlit) (s : State) : State :=
  let l := s.lport p
  let v := q.flit.chan
  let h := dataHdr q.flit l.txSeq l.ack false
  let s := s.updLport p (fun l => { l with
    txSeq := (l.txSeq + 1) % 4096, unacked := l.unacked ++ [(l.txSeq, q.flit)], queue := l.queue.eraseP (fun x => x == q),
    sent := mputD l.sent 0 v ((mgetD l.sent 0 v + 1) % 65536), ackAt := if l.unacked.isEmpty then s.tb else l.ackAt,
    turn := if 4 ≤ v ∧ v < 12 then v else l.turn })
  freeBuf q.origin ((s.bump (Reg.LNK_FLITS_TX p)).emit (.flit p h q.flit.payload (flitCrc h q.flit.payload)))

/-- Send what the port can send. The fuel is the length of its queue. -/
def pump (p : Nat) : Nat → State → State
  | 0, s => s
  | n + 1, s =>
    if !s.portUp p then s
    else match (s.lport p).next with
      | none => s
      | some q => pump p n (transmit p q s)

/-- Send what a port can send. -/
def pumpPort (p : Nat) (s : State) : State := pump p (s.lport p).queue.length s

/-- Put a flit at a port's output. -/
def atOutput (p : Nat) (q : QFlit) (s : State) : State :=
  pumpPort p (s.updLport p (fun l => { l with queue := l.queue ++ [{ q with since := s.tb }] }))

/-! ### Routing (R253, R261, Table LNK-5) -/

/-- The entry that a destination uses: ROW 0 to 31, CHASSIS 32 to 95, SLED 96 to 111. -/
def routeIndex (own dst : Nat) : Nat :=
  if dst / 1024 ≠ own / 1024 then dst / 1024 % 32
  else if dst / 16 ≠ own / 16 then 32 + dst / 16 % 64
  else 96 + dst % 16

/-- A route entry of a bank. -/
def routeEntry (s : State) (bank i : Nat) : DWord := mgetD s.lnk.routes 0 (512 * bank + i)

/-- The class has an order and takes the tree on VC 1 (Table LNK-3). -/
def orderedClass (c : Nat) : Bool := c == 0 || c == 4 || c == 6

/-- The output of a flit and the virtual channel it takes there; none where it is dropped (R253, R254, R261). Which port
of ADAPT it takes is a free value. -/
def routeOf (s : State) (f : Flit) : Option (Nat × Nat) × State :=
  let e := (routeEntry s f.epoch (routeIndex (ownNode s) f.dst)).toNat
  let tree := bits e 18 5
  let up := e.testBit 23
  if !e.testBit 24 then (none, s)
  else if f.cls = 7 then
    if !s.portUp tree || (f.vc == 1 && up) then (none, s) else (some (tree, if up then 0 else 1), s)
  else if orderedClass f.cls then (if s.portUp tree then some (tree, 1) else none, s)
  else
    let ports := (List.range 18).filter (fun p => e.testBit p && s.portUp p)
    match ports with
    | [] => (none, s)
    | [p] => (some (p, f.vc), s)
    | p :: _ => let (n, s) := s.draw; (some (ports.getD (n % ports.length) p, f.vc), s)

/-- Route a flit to an output, or drop it (R261). -/
def routeFlit (q : QFlit) (s : State) : State :=
  match routeOf s q.flit with
  | (none, s) => freeBuf q.origin (s.bump Reg.LNK_NOROUTE)
  | (some (p, v), s) => atOutput p { q with flit := { q.flit with vc := v } } s

/-! ### Injection (R253, R258, Table LNK-11) -/

/-- Charge activity to the device, tenant 0 (20, R419). -/
def chargeDevice (i n : Nat) (s : State) : State :=
  { s with nrg := { s.nrg with act := s.nrg.act.set i (s.nrg.act.getD i 0 + n) } }

/-- Inject a message of a tenant (0 the device) with a request tag; a message to this sled itself stays here (log entry
72). Requests carry the destination's epoch, responses this sled's (R258). -/
def State.sendAs (s : State) (tenant rtag type dest : Nat) (xs : List Nat) : State :=
  if dest = ownNode s then s.emit (.link type dest xs)
  else match layoutOf type with
    | none => s
    | some l =>
      let ne := if l.cls = 1 then s.rdN Reg.LNK_NODE_EPOCH else if l.cls = 2 ∨ l.cls = 3 ∨ l.cls = 5 then (s.peer dest).epoch else 0
      let f : Flit := {
        cls := l.cls, vc := if orderedClass l.cls then 1 else 0, epoch := s.lnkE, dst := dest, src := ownNode s, tenant := tenant,
        nepoch := ne, rtag := rtag, payload := encodeMsg type l xs }
      let s := match s.slotOf tenant with
        | some slot => (s.twBump slot Reg.TW_LNK_TX_BYTES 108).twBump slot (Reg.TW_NRG_ACT 4) 108
        | none => chargeDevice 4 108 s
      routeFlit ⟨f, s.tb, none⟩ s

/-- Send a message of the device. -/
def State.send (s : State) (type dest : Nat) (xs : List Nat) : State := s.sendAs 0 0 type dest xs

/-- Send a request that a response, STALE or the loss of a port will end: it takes the next RTAG. -/
def sendReq (use : ReqFor) (tenant type dest : Nat) (xs : Nat → List Nat) (s : State) : Nat × State :=
  let tag := s.lnk.nextTag
  let s := { s with lnk := { s.lnk with
    nextTag := if tag = 65535 then 1 else tag + 1,
    reqs := s.lnk.reqs.filter (fun (r : Req) => r.tag != tag) ++ [(⟨tag, dest, (s.peer dest).epoch, use⟩ : Req)] } }
  (tag, s.sendAs tenant tag type dest (xs tag))

/-- The sled's JOIN was refused: it takes part in no span, directory, lending or rollout (13, R275). -/
def outcast (s : State) : Bool := s.bit Reg.HIE_STATUS 6

/-- A message from a node shows that it lives (R259; 04, R99; 05, R122). -/
def hear (node : Nat) (s : State) : State :=
  let s := s.updPeer node (fun p => { p with heard := s.tb })
  { s with
    pfx := { s.pfx with leases := updWhere s.pfx.leases (fun l => l.node == node) (fun l => { l with heard := s.tb }) },
    fab := { s.fab with lost := s.fab.lost.filter (fun n => n != node) } }

/-- The links can take an event flit for a node now: false where its tree port is UP without a credit or a retry slot (10,
R220). -/
def linkOpen (s : State) (node : Nat) : Bool :=
  let e := (routeEntry s s.lnkE (routeIndex (ownNode s) node)).toNat
  let p := bits e 18 5
  !(e.testBit 24 && s.portUp p) ||
    (decide ((s.lport p).unacked.length < 512) && (s.lport p).credit 9 != 0 && !(s.lport p).queue.any (fun q => q.flit.cls == 4))

/-! ### Pages as stored bytes (R263) -/

/-- The stored form of a page (04, R91): the codec is not given, so each byte is a free value of the page's bytes. -/
def packPage (page : List Byte) (n : Nat) : List Byte := (List.range n).map (fun i => Config.packByte page i)

/-- The CRC-32 of bytes. -/
def crcOf (bs : List Byte) : Word := crc32 bs.length (readLE (writeBytes [] 0 bs) 0 bs.length)

/-- BULK_DATA flits that cover stored bytes, 96 to a flit. -/
def sendBulk (tenant tag dest move : Nat) (bs : List Byte) (s : State) : State :=
  (List.range (cdiv bs.length 96)).foldl (fun s i =>
    let d := (bs.drop (96 * i)).take 96
    s.sendAs tenant tag 0x30 dest ([d.length, move, 96 * i] ++ d.map (·.toNat))) s

end Sys2Proof.Machine
end

