-- ==== Sys2Proof/Machine/OpsHie.lean ====
section
/-! DEFINITION. Managers and workers (13): roles, scopes, hierarchy requests and JOIN. -/

namespace Sys2Proof.Machine

/-! ### Roles and scopes (Table HIE-1) -/

/-- The node of the manager of a level, 0 chassis, 1 row, 2 site (13, HIE_MGR). -/
def mgrNode (s : State) (l : Nat) : Option Nat :=
  if l < 3 ∧ s.bit (Reg.HIE_MGR l) 16 then some (s.fld (Reg.HIE_MGR l) 0 16) else none

/-- This sled's role: 0 worker, 1 chassis, 2 row, 3 site manager (13, HIE_STATUS). -/
def role (s : State) : Nat := s.fld Reg.HIE_STATUS 2 2

/-- This sled manages a level. -/
def manages (s : State) (l : Nat) : Bool := decide (l < role s)

/-- A node lies in the scope that this sled belongs to at a level. -/
def inScope (s : State) (l node : Nat) : Bool :=
  if l = 0 then node / 16 == ownNode s / 16 else if l = 1 then node / 1024 == ownNode s / 1024 else true

/-- The nearest manager this sled reports to: the chassis manager, or for a manager the next one up (R275). -/
def managerAbove (s : State) : Option Nat := mgrNode s (role s)

/-- Set a field of HIE_STATUS. -/
def hieBit (i : Nat) (b : Bool) (s : State) : State := s.setBit Reg.HIE_STATUS i b

/-! ### Requests (Table HIE-3) -/

/-- Send a hierarchy request that an answer, or its own time-outs, will end. -/
def hieReq (type dest : Nat) (xs : List Nat) (s : State) : State :=
  let (tag, s) := sendReq (.hier 0) 0 type dest (fun _ => xs) s
  { s with hie := { s.hie with reqs := s.hie.reqs.filter (fun r => r.tag != tag) ++ [{ tag := tag, dest := dest, type := type, xs := xs, since := s.tb }] } }

/-- The request that an answer ends; it no longer waits. -/
def takeReq (src tag : Nat) (s : State) : Option HReq × State :=
  (s.hie.reqs.find? (fun r => r.tag == tag && r.dest == src),
    { s with hie := { s.hie with reqs := s.hie.reqs.filter (fun (r : HReq) => !(r.tag == tag && r.dest == src)) } })

/-- ACK echoes a TYPE with a status (Table HIE-3). -/
def hieAck (src rtag type : Nat) (st : Status) (s : State) : State := s.sendAs 0 rtag 0x7F src [type, st.word.toNat]

/-! ### Scope floods (R272) -/

/-- Send a message one hop over every UP port to the neighbours inside a level's scope. -/
def floodOut (l type hops : Nat) (xs : List Nat) (s : State) : State :=
  match layoutOf type with
  | none => s
  | some lay =>
    (List.range 18).foldl (fun s p =>
      let n := s.fld (Reg.LNK_PEER p) 0 16
      if s.portUp p ∧ inScope s l n then
        atOutput p ⟨{ cls := 0, vc := 1, epoch := s.lnkE, dst := n, src := ownNode s, hops := hops, payload := encodeMsg type lay xs }, s.tb, none⟩ s
      else s) s

/-- A flood of this sled's own, under its next ORIGIN_SEQ, which is the last field. -/
def floodOwn (l type : Nat) (xs : List Nat) (s : State) : State :=
  let q := s.hie.originSeq + 1
  floodOut l type 0 (xs ++ [q]) { s with hie := { s.hie with originSeq := q, seen := mput s.hie.seen (ownNode s) q } }

/-- A flood that another sled sent is passed on once, and at most 15 hops (R272); the Boolean says whether it is new. -/
def floodOn (l type hops node seq : Nat) (xs : List Nat) (s : State) : Bool × State :=
  if mget s.hie.seen node = some seq ∨ node = ownNode s then (false, s)
  else
    let s := { s with hie := { s.hie with seen := mput s.hie.seen node seq } }
    (true, if hops < 15 then floodOut l type (hops + 1) xs s else s)

/-! ### Tenant ID blocks (R280) -/

/-- The pool of a standalone sled: every ID. -/
def standalonePool : List (Nat × Nat) := [(1, 0xFFFE)]

/-- First ID and number of IDs of a block base (R280). -/
def blockIds (base : Nat) : Nat × Nat :=
  if base = 0 then (1, 15) else if base = 0xFFF0 then (0xFFF0, 15) else (base, 16)

/-- The bases of the blocks that this sled holds. -/
def heldBlocks (s : State) : List Nat :=
  if s.adm.pool = standalonePool then [] else s.adm.pool.map (fun b => if b.1 = 1 then 0 else b.1)

/-- IDs in use. -/
def usedIds (s : State) : List Nat := s.adm.tenants.map (fun t => t.2.id) ++ s.adm.holds.map (·.id)

/-- A held block has no ID in use. -/
def blockFree (s : State) (b : Nat × Nat) : Bool := !(usedIds s).any (fun i => decide (b.1 ≤ i) && decide (i < b.1 + b.2))

/-- Free IDs of the pool. -/
def freeIds (s : State) : Nat :=
  sumOf s.adm.pool (fun b => b.2) - ((usedIds s).filter (fun i => s.adm.pool.any (fun b => decide (b.1 ≤ i) && decide (i < b.1 + b.2)))).length

/-! ### JOIN (R275, R276) -/

/-- The tag of a message between two nodes, over payload bytes 0x00 to 0x5B. -/
def tagOf (s : State) (type : Nat) (xs : List Nat) (from_ to_ : Nat) : BitVec 128 :=
  match layoutOf type with
  | none => 0
  | some l => Config.joinTag s.hie.secret ((encodeMsg type l xs).toNat % 256 ^ 0x5C) from_ to_

/-- The fields of a JOIN but its tag. -/
def joinFields (s : State) (level : Nat) (cont : Bool) (i : Nat) (bases : List Nat) (tag : Nat) : List Nat :=
  [level + 128 * b2n cont, s.rdN Reg.ADM_START_SEQ, s.rdN Reg.DEV_BUILD, s.rdN Reg.FW_VERSION, s.hie.acked,
    (heldBlocks s).length + 2 ^ 16 * bases.length + 2 ^ 24 * i, tag] ++ bases

/-- Send this sled's JOIN series to its manager at a level: up to 8 block bases in each message (R276). -/
def sendJoin (level mgr : Nat) (s : State) : State :=
  let all := heldBlocks s
  let n := max 1 (cdiv all.length 8)
  (List.range n).foldl (fun s i =>
    let bs := (all.drop (8 * i)).take 8
    let cont := decide (i + 1 < n)
    let tag := tagOf s 0x72 (joinFields s level cont i bs 0) (ownNode s) mgr
    hieReq 0x72 mgr (joinFields s level cont i bs tag.toNat) s) s

/-! ### Ledger records (24, Table FLT-6; R285) -/

/-- A record's sixteen words, the last of them its CRC. -/
def LedgerRec.words (r : LedgerRec) : List Word :=
  let l := ([r.index, r.kind + 16 * r.type + 256 * r.res + 65536 * r.unit, r.tb % 2 ^ 32, r.tb / 2 ^ 32,
    r.criterion + 256 * r.cause + 65536 * r.node, r.fw, r.removed] ++ (r.evidence ++ List.replicate 6 0).take 6 ++ [r.retCount % 65536, 0])
  let crc := crcBytes (fun a => bits (l.getD (a / 4) 0) (8 * (a % 4)) 8) (List.range 0x3C) 0xFFFFFFFF ^^^ 0xFFFFFFFF
  (l ++ [crc]).map (BitVec.ofNat 32)

/-- A manager stores a record under its origin and index, at most 4,096 of a node (R285). -/
def storeRec (origin index : Nat) (record : List Word) (s : State) : State :=
  let l := mput s.hie.ledger (2 ^ 32 * origin + index % 2 ^ 32) record
  let own := (l.filter (fun e => e.1 / 2 ^ 32 == origin)).map (·.1)
  { s with hie := { s.hie with ledger := if 4096 < own.length then (match own.head? with | some k => mdel l k | none => l) else l } }

/-- A record goes to the manager above; without one it waits for the JOIN with the next. A manager stores its own, as the chassis
manager that its sled has. -/
def forwardRec (s : State) (r : LedgerRec) : State :=
  let s := if role s = 0 then s else storeRec (ownNode s) r.index r.words s
  match managerAbove s with
  | some m => if m = ownNode s then s else hieReq 0x7D m ([ownNode s, r.index] ++ r.words.map (·.toNat)) (s.bump Reg.HIE_LEDGER_FWD)
  | none => s

/-- After a JOIN, the records that no manager has acknowledged are sent again. -/
def forwardAll (s : State) : State := (s.flt.nor.filter (fun r => decide (s.hie.acked < r.index))).foldl forwardRec s

end Sys2Proof.Machine
end

