-- ==== Sys2Proof/Machine/OpsQueue.lean ====
section
/-! DEFINITION. Completions (09): how an entry is numbered, delivered, held and replayed, how vectors are moderated,
and how a command that has started ends. -/

namespace Sys2Proof.Machine

/-- A queue of a tenant. -/
def State.que (s : State) (slot q : Nat) : Queue := ((s.ten slot).map (fun t => mgetD t.queues {} q)).getD {}

/-- Change a queue of a tenant. -/
def State.updQue (s : State) (slot q : Nat) (f : Queue → Queue) : State :=
  s.updTen slot (fun t => { t with queues := mput t.queues q (f (mgetD t.queues {} q)) })

/-- Held-store entries an item takes: a launch report counts as one more (09, R194). -/
def Completion.slots (c : Completion) : Nat := if c.report.isEmpty then 1 else 2

/-- Slots of the held store neither used nor reserved (09, R197); an entry whose writeback is not written yet keeps its
slot. -/
def State.heldFree (s : State) (slot : Nat) : Nat :=
  match s.ten slot with
  | none => 0
  | some t =>
    let queued := match t.fn with
      | some f => sumOf (s.fn f).wq (fun w => match w with | .entry i _ _ _ c => if i = slot then c.slots else 0 | _ => 0)
      | none => 0
    4096 - (sumOf t.held (fun h => h.entry.slots) + t.heldResv + queued)

/-- Raise a queue's vector for entries just written, at most once per MOD_US (09, R195). -/
def raiseQueue (slot q : Nat) (irq : Bool) (s : State) : State :=
  let k := s.que slot q
  if !irq && k.cfg.modUs == 0 then s
  else if k.cfg.modUs == 0 then raiseTen slot k.cfg.vector s
  else if s.tb < k.modUntil then s.updQue slot q (fun k => { k with raiseDue := true })
  else raiseTen slot k.cfg.vector (s.updQue slot q (fun k => { k with modUntil := s.tb + k.cfg.modUs, raiseDue := false }))

/-- Write an entry and its writeback into an ACTIVE queue's ring (09, R195). -/
def deliver (slot q : Nat) (irq : Bool) (c : Completion) (s : State) : State :=
  match (s.ten slot).bind (fun t => t.fn) with
  | none => s
  | some f =>
    let k := s.que slot q
    let tail := (k.tail + c.slots) % 2 ^ 32
    let s := postWrite f (.entry slot q k.tail irq c) s
    let s := postWrite f (.writeback slot q tail) s
    raiseQueue slot q irq (s.updQue slot q (fun k => { k with tail := tail }))

/-- The ring has room for the entry (09, R195). -/
def Queue.hasRoom (k : Queue) (n : Nat) : Bool := decide ((k.tail + 2 ^ 32 - k.head) % 2 ^ 32 + n ≤ 2 ^ k.cfg.cqLog)

/-- An entry of the queue can be written now (09, R196): the queue is ACTIVE, the ring has room, nothing of the
queue is held, and its function is not write-stalled. -/
def canDeliver (slot q n : Nat) (s : State) : Bool :=
  let k := s.que slot q
  match s.ten slot with
  | none => false
  | some t =>
    k.st == .active && k.hasRoom n && !t.held.any (fun h => h.queue == q) &&
      (match t.fn with | some f => !(s.fn f).wrStalled | none => false)

/-- Produce a completion: number and time it, then deliver it or hold it (09, R194 to R196). -/
def produce (slot q : Nat) (irq : Bool) (c : Completion) (s : State) : State :=
  let k := s.que slot q
  let c := { c with seq := k.seq, time := s.tb }
  let s := s.updQue slot q (fun k => { k with seq := (k.seq + c.slots) % 2 ^ 32 })
  if canDeliver slot q c.slots s then deliver slot q irq c s
  else s.updTen slot (fun t => { t with held := t.held ++ [⟨q, irq, c⟩] })

/-- Write held entries of a queue in SEQ order while the ring has room, with REPLAYED set (09, R196; 15, R326).
The fuel is the number of held entries. -/
def replay (slot q : Nat) : Nat → State → State
  | 0, s => s
  | n + 1, s =>
    match (s.ten slot).bind (fun t => t.held.find? (fun h => h.queue == q)) with
    | none => s
    | some h =>
      let k := s.que slot q
      if (k.st == .active || decide (0 < k.replaying)) && k.hasRoom h.entry.slots &&
          !(match (s.ten slot).bind (fun t => t.fn) with | some f => (s.fn f).wrStalled | none => true) then
        let s := s.updTen slot (fun t => { t with held := t.held.erase h })
        let s := s.updQue slot q (fun k => { k with
          replaying := k.replaying - 1, st := if k.replaying = 1 then .active else k.st })
        let s := (s.twBump slot Reg.TW_Q_REPLAYED h.entry.slots).bumpBy Reg.QUE_REPLAYED h.entry.slots
        replay slot q n (deliver slot q h.irq { h.entry with replayed := true } s)
      else s

/-- Entries waiting in a function's write queue whose ring they may no longer be written to go back to the held store,
before later ones, and the ring's tail goes back to the first of them (15, R324, R326). -/
def rehold (f : Nat) (p : Nat → Bool) (s : State) : State :=
  let wq := (s.fn f).wq
  let s := s.updFn f (fun n => { n with wq := n.wq.filter (fun w => match w with
    | .entry slot _ _ _ _ => !p slot
    | .writeback slot _ _ => !p slot
    | _ => true) })
  wq.foldr (fun w s => match w with
    | .entry slot q index irq c =>
      if p slot then (s.updTen slot (fun t => { t with held := ⟨q, irq, c⟩ :: t.held })).updQue slot q (fun k => { k with tail := index })
      else s
    | _ => s) s

/-- Replay what a queue holds; with the last entry that its commit found held, the queue's stopped program goes on
(R196, R201). -/
def replayAll (slot q : Nat) (s : State) : State :=
  let s := replay slot q (((s.ten slot).map (fun t => t.held.length)).getD 0) s
  if (s.que slot q).st == .active && (s.que slot q).replaying == 0 then
    { s with progs := mupd s.progs (16 * slot + q) (fun p => { p with stopped := false, stopReq := if p.stopEnd then p.stopReq else none }) }
  else s

/-- Give back reserved held-store slots (09, R197). -/
def unreserve (slot n : Nat) (s : State) : State :=
  s.updTen slot (fun t => { t with heldResv := t.heldResv - n })

/-- Reserve held-store slots for work that starts (09, R197). -/
def reserve (slot n : Nat) (s : State) : State := s.updTen slot (fun t => { t with heldResv := t.heldResv + n })

/-! ### Queue programs and their tokens -/

/-- The program key of a tenant queue's program, and of a step's program. -/
def progKey (slot q : Nat) : Nat := 16 * slot + q
/-- The program key of a step program. -/
def stepProgKey (step : Nat) : Nat := 16384 + step

/-- A cause of a parked program's WAKE mask comes (09, R200); PARK_WAKE resumes it. -/
def wake (key causes : Nat) (s : State) : State :=
  { s with progs := mupd s.progs key (fun p => { p with parked := p.parked.map (fun k => { k with met := k.met ||| (k.wake &&& causes) }) }) }

/-- A token of a program ends with a status word, a RESULT and a report (09, R199). What a program has issued runs on when it
ends (R198): its token is then marked by 65536, and no later program has it. -/
def endToken (key : Nat) (launch : Bool) (num : Nat) (st : Word) (result : Nat) (report : List Word) (s : State) : State :=
  let upd := fun (l : List Token) =>
    updWhere l (fun t => t.num == num) (fun t => { t with status := some st, result := result, report := report })
  if 65536 ≤ num then s
  else wake key 4 { s with progs := mupd s.progs key (fun p =>
    if launch then { p with launches := upd p.launches } else { p with cmds := upd p.cmds }) }

/-! ### Commands in flight -/

/-- A flight. -/
def State.flight (s : State) (id : Nat) : Option Flight := s.flights.find? (fun f => f.id == id)

/-- Change a flight. -/
def State.updFlight (s : State) (id : Nat) (g : Flight → Flight) : State :=
  { s with flights := updWhere s.flights (fun f => f.id == id) g }

/-- The final completion of a command (09, R192 to R199): posted for a ring command, or where POST was set; a
program's token ends; the tenant's outcome is counted; the reserved slot is given back. -/
def finish (id : Nat) (t : Status) (result : Nat) (s : State) : State :=
  match s.flight id with
  | none => s
  | some f =>
    let s := { s with flights := s.flights.filter (fun g => g.id != id) }
    match f.src with
    | .auto => s
    | .ring =>
      let s := unreserve f.slot 1 (s.outcome f.slot t)
      produce f.slot f.queue f.irq { status := t.word, cmdId := f.cmdId, kind := 0, result := result } s
    | .prog tok =>
      let s := unreserve f.slot 1 (s.outcome f.slot t)
      let s := endToken (progKey f.slot f.queue) false tok t.word result [] s
      if f.post then produce f.slot f.queue f.irq { status := t.word, cmdId := f.cmdId, kind := 0, result := result } s else s

/-- Post the data of a command to host memory; its flight completes when they leave (15, R313, R324). -/
def postData (id fn iova : Nat) (bytes : List Nat) (s : State) : State :=
  let n := s.fn fn
  if n.blocked || n.wrStalled || !n.wq.isEmpty then
    s.updFn fn (fun n => { n with wq := n.wq ++ [.data id iova bytes], wqSince := if n.wq.isEmpty then s.tb else n.wqSince })
  else finish id ⟨0, 0, 0⟩ 0 (sendHost fn (.data id iova bytes) s)

/-- A tier move or other part of a command ended with a status; with no part left the command completes. -/
def partDone (id : Nat) (t : Status) (s : State) : State :=
  let s := s.updFlight id (fun f => { f with left := f.left - 1, status := if f.status.code < t.code then t else f.status })
  match s.flight id with
  | some f => if f.left = 0 then finish id f.status 0 s else s
  | none => s

end Sys2Proof.Machine
end

