-- ==== Sys2Proof/Machine/OpsTier.lean ====
section
/-! DEFINITION. Objects, pages, handles, moves and leases (04). -/

namespace Sys2Proof.Machine

/-- Bytes of one page. -/
def pageBytes : Nat := 65536
/-- Bytes of one 2 MiB unit. -/
def unit2M : Nat := 2097152

/-! ### Objects and pages -/

/-- The state of a page. -/
def Obj.page (o : Obj) (i : Nat) : Page := mgetD o.pages o.base i

/-- Set the state of a page. -/
def Obj.setPage (o : Obj) (i : Nat) (p : Page) : Obj := { o with pages := mputD o.pages o.base i p }

/-- Pages of an object; a tile object has one state (04, Table TIER-5). -/
def Obj.count (o : Obj) : Nat := if o.tile then 1 else o.size / pageBytes

/-- A flag of Table TIER-4. -/
def Obj.flag (o : Obj) (i : Nat) : Bool := o.flags.testBit i

/-- The window depth of a STREAM object (04, Table TIER-4). -/
def Obj.depth (o : Obj) : Nat := if bits o.flags 5 3 = 0 then 8 else bits o.flags 5 3

/-- Sum over the pages of an object. -/
def Obj.sumPages (o : Obj) (f : Page → Nat) : Nat :=
  (o.count - o.pages.length) * f o.base + sumOf o.pages (fun kv => f kv.2)

/-- Some page satisfies the test. -/
def Obj.anyPage (o : Obj) (p : Page → Bool) : Bool :=
  (decide (o.pages.length < o.count) && p o.base) || o.pages.any (fun kv => p kv.2)

/-- Bytes of one page, or of a whole tile object rounded up to 64 KiB, in T1 (R87). -/
def Obj.t1Bytes (o : Obj) : Nat := if o.tile then cdiv o.size pageBytes * pageBytes else pageBytes

/-- Stored bytes rounded up to 4 KiB (R91). -/
def round4K (n : Nat) : Nat := cdiv n 4096 * 4096

/-- Bytes an object counts in a tier: T1 with the page map and the window charge (R87, R90), lower tiers stored
bytes rounded up (R91). -/
def Obj.useIn (o : Obj) (t : Nat) : Nat :=
  let pages := o.sumPages (fun p => if p.tier = t then (if t = 1 then o.t1Bytes else round4K p.stored) else 0)
  if t = 1 then
    pages + (if o.tile then 0 else 16 * o.count) +
      (if o.flag 4 && o.anyPage (fun p => decide (1 < p.tier)) then o.depth * o.segPages * pageBytes else 0)
  else pages

/-- Bytes of the lease images in T1 of a slot's contexts, each 64 KiB, while they are READY or running (05, R116). -/
def imageUse (s : State) (slot : Nat) : Nat :=
  sumOf s.sch.ctxs (fun c => if c.2.slot = slot ∧ (c.2.st = .ready ∨ c.2.st = .running) then pageBytes * c.2.images.length else 0)

/-- Bytes a tenant counts in a tier (04, Table TIER-10), index entries included in T1 (05, R109). -/
def tierUse (s : State) (slot t : Nat) : Nat :=
  ((s.ten slot).map (fun n => sumOf n.objs (fun o => o.2.useIn t))).getD 0 +
    (if t = 1 then imageUse s slot else 0) +
    (if t = 1 then 64 * (s.pfx.entries.filter (fun e => e.2.publisher == some slot)).length else 0)

/-- Bytes of durable images of a tenant (R95). -/
def durableUse (s : State) (slot : Nat) : Nat :=
  ((s.ten slot).map (fun n => sumOf n.objs (fun o => (o.2.durable.map (fun d => round4K d.stored)).getD 0))).getD 0

/-- Bytes a tenant has pinned. -/
def pinUse (s : State) (slot : Nat) : Nat :=
  ((s.ten slot).map (fun n => sumOf n.objs (fun o => if o.2.flag 3 then o.2.useIn 1 else 0))).getD 0

/-- Units being zeroised: memory counts HBM and spill together (03, R556). -/
def zeroHbm (s : State) : Nat := sumOf s.adm.zero (fun z => z.vec.hbm + z.spill)

/-- Free T1 in 2 MiB units: what is in service less what tenants use, their spill areas and what is being
zeroised (04, Table TIER-9; log entry 20). -/
def freeT1 (s : State) : Nat :=
  s.rdN (Reg.ADM_CAP 1) - cdiv (sumOf s.adm.tenants (fun t => tierUse s t.1 1)) unit2M
    - sumOf s.adm.tenants (fun t => t.2.spill) - zeroHbm s

/-- Resource ID of a tier (04, Table TIER-1). -/
def tierRes (t : Nat) : Nat := if t = 1 then 1 else if t = 2 then 2 else if t = 4 then 7 else if t = 0 then 5 else 0

/-- The pages of an object that satisfy a test, as numbers. -/
def Obj.pagesWhere (o : Obj) (p : Page → Bool) : List Nat := (List.range o.count).filter (fun i => p (o.page i))

/-! ### Handles (04, Table TIER-2) -/

def handleOf (id gen idx : Nat) : DWord := BitVec.ofNat 64 (id * 2 ^ 48 + gen * 2 ^ 36 + idx)
def hTenant (h : DWord) : Nat := bits h.toNat 48 16
def hGen (h : DWord) : Nat := bits h.toNat 36 12
def hIdx (h : DWord) : Nat := bits h.toNat 0 36

/-- What a handle names: the owner's slot, the object's index and the object. -/
structure Named where
  slot : Nat
  idx : Nat
  obj : Obj
  deriving DecidableEq, Repr

/-- The checks of Table TIER-3 in order, for `slot` using the handle; `detail` is the handle register or 0xFFFF,
`permDetail` what a permission fault carries (R81; 00, Table DEV-12). -/
def checkHandle (s : State) (slot : Nat) (h : DWord) (isWrite : Bool) (off len detail permDetail : Nat) :
    Except Status Named :=
  match s.ten slot, s.slotOf (hTenant h) with
  | some user, some own =>
    match s.ten own with
    | none => .error ⟨0x42, 0, detail⟩
    | some o =>
      if hIdx h = 0 ∨ o.hiIdx < hIdx h then .error ⟨0x42, 0, detail⟩
      else match mget o.objs (hIdx h) with
        | none => .error ⟨0x42, 0, detail⟩
        | some ob =>
          if own ≠ slot ∧ ¬ (ob.flag 13 ∧ o.domain = user.domain) then .error ⟨0x42, 0, detail⟩
          else if hGen h ≠ ob.gen ∨ ob.freed then .error ⟨0x42, tierRes ob.base.tier, detail⟩
          else if isWrite ∧ own ≠ slot then .error ⟨0x43, tierRes ob.base.tier, permDetail⟩
          else if ob.size < off + len then .error ⟨0x43, tierRes ob.base.tier, permDetail⟩
          else .ok ⟨own, hIdx h, ob⟩
  | _, _ => .error ⟨0x42, 0, detail⟩

/-- The object a handle's owner and index name. -/
def handleObj (s : State) (h : DWord) : Option (Nat × Nat) := (s.slotOf (hTenant h)).map (fun o => (o, hIdx h))

/-- An object of a slot. -/
def State.obj (s : State) (slot idx : Nat) : Option Obj := (s.ten slot).bind (fun t => mget t.objs idx)

/-- Set an object. -/
def State.setObj (s : State) (slot idx : Nat) (o : Obj) : State :=
  s.updTen slot (fun t => { t with objs := mput t.objs idx o })

/-- Change an object. -/
def State.updObj (s : State) (slot idx : Nat) (f : Obj → Obj) : State :=
  s.updTen slot (fun t => { t with objs := mupd t.objs idx f })

/-- Give a tenant a new object under its lowest free index (log entry 21): the index, the handle and the state. -/
def newObj (slot : Nat) (o : Obj) (s : State) : Nat × DWord × State :=
  match s.ten slot with
  | none => (0, 0, s)
  | some t =>
    let idx := lowestFree (t.objs.map (·.1)) 1
    let gen := (mget t.gens idx).getD 1
    (idx, handleOf t.id gen idx,
      s.setTen slot { t with objs := mput t.objs idx { o with gen := gen }, hiIdx := max t.hiIdx idx })

/-- The next generation of an index (R80): 4,095 wraps to 1. -/
def nextGen (g : Nat) : Nat := if g ≥ 4095 then 1 else g + 1

/-- Leases held on an object. -/
def Obj.leased (o : Obj) : Bool := o.anyPage (fun p => decide (0 < p.readLeases + p.stepLeases))

/-- Abandon a move: the partial destination is discarded, the home stays (R84). -/
def dropMove (m : Move) (s : State) : State :=
  let s := { s with moves := s.moves.filter (fun n => n.id != m.id) }
  (match m.cause with
  | .image _ _ _ => s
  | _ => s.updObj m.slot m.obj (fun o => o.setPage m.page { o.page m.page with mv := none })).bump Reg.TIER_MOVE_ABANDON

/-- The codec's size of a page: the spec gives its bounds and leaves the size open (R91). -/
def drawStored (s : State) : Nat × State :=
  let (n, s) := s.draw
  (64 + n % 65537, s)

/-- The codec's size of one page of an object, or of all the chunks of a tile object (R91). -/
def drawSize (o : Obj) (s : State) : Nat × State :=
  if o.tile then
    let (n, s) := s.draw
    let k := cdiv o.size pageBytes
    (64 * k + n % (65536 * k + 1), s)
  else drawStored s

/-- The sizes of `k` stored chunks of `total` bytes together, each within R91. -/
def splitStored : Nat → Nat → State → List Nat × State
  | 0, _, s => ([], s)
  | 1, total, s => ([total], s)
  | k + 2, total, s =>
    let lo := max 64 (total - 65600 * (k + 1))
    let hi := min 65600 (total - 64 * (k + 1))
    let (r, s) := s.draw
    let n := lo + r % (hi - lo + 1)
    let (ns, s) := splitStored (k + 1) (total - n) s
    (n :: ns, s)

/-- The pieces of 64 KiB of a page or tile object that a move carries: index, offset and bytes (R91). -/
def pieces (o : Obj) (page : Nat) : List (Nat × Nat × Nat) :=
  if o.tile then (List.range (cdiv o.size pageBytes)).map (fun i => (i, i * pageBytes, min pageBytes (o.size - i * pageBytes)))
  else [(page, page * pageBytes, pageBytes)]

/-- The tenant ID of a slot; 0 for none. -/
def tenId (s : State) (slot : Nat) : Nat := ((s.ten slot).map (·.id)).getD 0

/-- What a move to or from a peer sends (12, R263): PAGE_PUT and BULK_DATA for every piece, or PAGE_GET. -/
def peerMove (m : Move) (o : Obj) (s : State) : State :=
  let h := (handleOf (tenId s m.slot) o.gen m.obj).toNat
  let ps := pieces o m.page
  let set := fun (s : State) (f : Move → Move) => { s with moves := updWhere s.moves (fun n => n.id == m.id) f }
  if m.dst = 4 then
    let (n, s) := if m.src = 1 then drawSize o s else (max (64 * ps.length) (o.page m.page).stored, s)
    let (ns, s) := splitStored ps.length n s
    (ps.zip ns).foldl (fun s p =>
      let bs := packPage (readBytes o.data p.1.2.1 p.1.2.2) p.2
      let (tag, s) := sendReq (.move m.id) (tenId s m.slot) 0x20 m.dstLoc (fun _ => [m.id, h, p.1.1, p.2, (crcOf bs).toNat]) s
      sendBulk (tenId s m.slot) tag m.dstLoc m.id bs s) (set s (fun n' => { n' with parts := ps.length, stored := some n }))
  else if m.src = 4 then
    ps.foldl (fun s p => (sendReq (.move m.id) (tenId s m.slot) 0x21 (o.page m.page).loc (fun _ => [0, m.id, h, p.1]) s).2)
      (set s (fun n => { n with parts := ps.length }))
  else s

/-- Tell the peers that hold pages of an object at T4 that they are free (12, PAGE_RELEASE). -/
def releasePeers (handle : DWord) (o : Obj) (s : State) : State :=
  (o.pagesWhere (fun p => p.tier == 4)).foldl (fun s i =>
    (pieces o i).foldl (fun s p => s.sendAs (hTenant handle) 0 0x23 (o.page i).loc [0, handle.toNat, p.1, 1]) s) s

/-- Start a move of one page. -/
def startMove (slot obj page dst loc : Nat) (cause : MoveFor) (s : State) : State :=
  match s.obj slot obj with
  | none => s
  | some o =>
    let (id, s) := s.fresh
    let p := o.page page
    let s := s.setObj slot obj (o.setPage page { p with mv := some (dst, loc) })
    let m : Move := { id := id, slot := slot, obj := obj, page := page, src := p.tier, dst := dst, dstLoc := loc, cause := cause, since := s.tb }
    peerMove m o { s with moves := s.moves ++ [m] }

/-- Abandon every move that satisfies the test. -/
def dropMoves (p : Move → Bool) (s : State) : State := (s.moves.filter p).foldl (fun s m => dropMove m s) s

/-- Put capacity into zeroisation. -/
def startZero (z : ZeroJob) (s : State) : State :=
  { s with adm := { s.adm with zero := s.adm.zero ++ [{ z with id := s.adm.nextZero }], nextZero := s.adm.nextZero + 1 } }

/-- Release an object whose leases have ended: its pages are zeroised, and only then is its capacity returned
(R101). -/
def releaseObj (slot idx : Nat) (s : State) : State :=
  let s := dropMoves (fun m => m.slot == slot && m.obj == idx) s
  if s.adm.zero.any (fun z => z.obj == some (slot, idx)) then s
  else
    let s := match s.obj slot idx with
      | some o => releasePeers (handleOf (tenId s slot) o.gen idx) o s
      | none => s
    startZero ⟨0, none, {}, 0, some (slot, idx), none⟩ (s.updObj slot idx (fun o => { o with freed := true }))

/-- FREE (R101): the generation advances at once, moves are abandoned, and the pages go when no lease is left. -/
def freeObj (slot idx : Nat) (s : State) : State :=
  match s.obj slot idx with
  | none => s
  | some o =>
    if o.freed then s
    else
    let s := s.updTen slot (fun t => { t with gens := mput t.gens idx (nextGen o.gen) })
    if o.leased then dropMoves (fun m => m.slot == slot && m.obj == idx) (s.setObj slot idx { o with freed := true })
    else releaseObj slot idx s

/-- A lease on a page ends; a freed object goes with its last lease. -/
def endLease (slot idx page : Nat) (step : Bool) (s : State) : State :=
  let s := s.updObj slot idx (fun o =>
    let p := o.page page
    o.setPage page (if step then { p with stepLeases := p.stepLeases - 1 } else { p with readLeases := p.readLeases - 1 }))
  match s.obj slot idx with
  | some o => if o.freed && !o.leased then releaseObj slot idx s else s
  | none => s

/-- A lease on a page begins (R85). -/
def takeLease (slot idx page : Nat) (step : Bool) (s : State) : State :=
  s.updObj slot idx (fun o =>
    let p := { o.page page with lastUse := s.tb }
    o.setPage page (if step then { p with stepLeases := p.stepLeases + 1 } else { p with readLeases := p.readLeases + 1 }))

/-- A page is poisoned, counted once (R97, R99). -/
def poisonPage (slot idx page : Nat) (s : State) : State :=
  match s.obj slot idx with
  | none => s
  | some o =>
    if (o.page page).poison then s
    else ((s.setObj slot idx (o.setPage page { o.page page with poison := true })).bump Reg.TIER_POISONED).twBump slot Reg.TW_POISONED

/-- Poison every page of a slot that satisfies the test. -/
def poisonWhere (slot : Nat) (p : Page → Bool) (s : State) : State :=
  match s.ten slot with
  | none => s
  | some t => t.objs.foldl (fun s o => (o.2.pagesWhere p).foldl (fun s i => poisonPage slot o.1 i s) s) s

/-- Revoke the host regions of a slot that satisfy the test: no DMA any more, pages homed there poisoned, moves
there abandoned (R97). -/
def revokeRegions (slot : Nat) (p : Region → Bool) (s : State) : State :=
  match s.ten slot with
  | none => s
  | some t =>
    let gone := (t.regions.filter (fun r => p r.2)).map (·.1)
    let s := s.updTen slot (fun t => { t with regions := mmap t.regions (fun _ r => if p r then { r with revoked := true } else r) })
    let s := dropMoves (fun m => m.slot == slot && ((m.dst == 3 && gone.contains m.dstLoc))) s
    poisonWhere slot (fun g => g.tier == 3 && gone.contains g.loc) s

/-- Charge activity to a tenant (20, Table NRG-1): 0 cluster cycles, 1 HBM bytes, 2 and 3 stored flash bytes read and
written, 4 link payload bytes, 5 neuron updates, 6 host bytes. -/
def charge (slot i n : Nat) (s : State) : State := s.twBump slot (Reg.TW_NRG_ACT i) n

/-- Bytes a tenant may still write to T2 today (ORANGERY_WRITES is in GB per day). -/
def writeRoom (s : State) (t : Tenant) : Nat :=
  t.vec.wr * 10 ^ 9 - (if t.wrDay = s.tb / 86400000000 then t.wrUsed else 0)

/-- Count bytes written to T2. -/
def chargeWrite (slot n : Nat) (s : State) : State :=
  let day := s.tb / 86400000000
  let s := charge slot 3 n s
  s.updTen slot (fun t => { t with wrDay := day, wrUsed := (if t.wrDay = day then t.wrUsed else 0) + n })

/-- Bytes of T2 that a tenant's reservation still allows: stored pages and durable images count (R91, R95). -/
def orangOwn (s : State) (slot : Nat) (t : Tenant) : Nat := t.vec.orang * 2 ^ 30 - (tierUse s slot 2 + durableUse s slot)

/-- Bytes of T2 that the sled still has. -/
def orangFree (s : State) : Nat :=
  s.rdN (Reg.ADM_CAP 2) * 2 ^ 30 - sumOf s.adm.tenants (fun t => tierUse s t.1 2 + durableUse s t.1)

/-- Bytes of T2 that a tenant may still take. -/
def orangRoom (s : State) (slot : Nat) (t : Tenant) : Nat := min (orangOwn s slot t) (orangFree s)

/-- Bytes of a region in use. -/
def regionUse (t : Tenant) (r : Nat) : Nat :=
  sumOf t.objs (fun o => o.2.sumPages (fun p => if p.tier = 3 ∧ p.loc = r then round4K p.stored else 0))

/-- A region of the tenant that may take `n` bytes: registered, not revoked, not in back-off, with room (R94). -/
def regionFor (t : Tenant) (n : Nat) : Option Nat :=
  (t.regions.find? (fun r => !r.2.revoked && r.2.backoff.isNone && decide (regionUse t r.1 + n ≤ r.2.size))).map (·.1)

/-- T2 writes are refused while the main store check fails (22, R465). -/
def t2Refused (s : State) : Bool := s.bit Reg.HLD_STATUS 4

/-- The first permitted lower tier with room for a page of `n` stored bytes (R94): T2, T3, T4. -/
def lowerTier (s : State) (slot : Nat) (hostOk peerOk : Bool) (peer : Option Nat) (n : Nat) : Option (Nat × Nat) :=
  match s.ten slot with
  | none => none
  | some t =>
    if !t2Refused s ∧ round4K n ≤ orangRoom s slot t ∧ n ≤ writeRoom s t then some (2, 0)
    else match (if hostOk then regionFor t (round4K n) else none) with
      | some r => some (3, r)
      | none => match (if peerOk then peer else none) with
        | some p => some (4, p)
        | none => none

end Sys2Proof.Machine
end

