-- ==== Sys2Proof/Machine/OpsPfx.lean ====
section
/-! DEFINITION. The prefix store's operations (05): chain hashes, index entries, pins and eviction. -/

namespace Sys2Proof.Machine

/-! ### The chain hash (R105): SipHash-2-4 with 128-bit output -/

/-- The four words of SipHash's state. -/
structure Sip where
  v0 : DWord
  v1 : DWord
  v2 : DWord
  v3 : DWord

/-- One round. -/
def Sip.round (v : Sip) : Sip :=
  let v0 := v.v0 + v.v1
  let v1 := v.v1.rotateLeft 13 ^^^ v0
  let v0 := v0.rotateLeft 32
  let v2 := v.v2 + v.v3
  let v3 := v.v3.rotateLeft 16 ^^^ v2
  let v0 := v0 + v3
  let v3 := v3.rotateLeft 21 ^^^ v0
  let v2 := v2 + v1
  let v1 := v1.rotateLeft 17 ^^^ v2
  ⟨v0, v1, v2.rotateLeft 32, v3⟩

/-- Take in one 8-byte word of the message. -/
def Sip.absorb (v : Sip) (m : DWord) : Sip :=
  let v := (Sip.round ⟨v.v0, v.v1, v.v2, v.v3 ^^^ m⟩).round
  { v with v0 := v.v0 ^^^ m }

/-- SipHash-2-4-128 of a message of whole 8-byte words, with its length in bytes (PRESUMED from the published
function, log entry 23). The result's first output byte is its least significant byte. -/
def siphash128 (key : BitVec 128) (msg : List DWord) : BitVec 128 :=
  let k0 := key.extractLsb' 0 64
  let k1 := key.extractLsb' 64 64
  let v : Sip := ⟨k0 ^^^ 0x736f6d6570736575, k1 ^^^ 0x646f72616e646f6d ^^^ 0xee, k0 ^^^ 0x6c7967656e657261,
    k1 ^^^ 0x7465646279746573⟩
  let v := msg.foldl Sip.absorb v
  let v := v.absorb (BitVec.ofNat 64 (8 * msg.length % 256 * 2 ^ 56))
  let v := (Sip.round { v with v2 := v.v2 ^^^ 0xee }).round.round.round
  let lo := v.v0 ^^^ v.v1 ^^^ v.v2 ^^^ v.v3
  let v := (Sip.round { v with v1 := v.v1 ^^^ 0xdd }).round.round.round
  (v.v0 ^^^ v.v1 ^^^ v.v2 ^^^ v.v3) ++ lo

/-- Four bytes reversed: a token ID goes into the message most significant byte first. -/
def swap32 (n : Nat) : Nat := bits n 24 8 + 256 * bits n 16 8 + 65536 * bits n 8 8 + 16777216 * bits n 0 8

/-- Token IDs as 8-byte words of the message. -/
def tokenWords : List Nat → List DWord
  | a :: b :: r => BitVec.ofNat 64 (swap32 a + 2 ^ 32 * swap32 b) :: tokenWords r
  | _ => []

/-- The chain hash of a block (R105, Table PFX-1). -/
def chainHash (key h : BitVec 128) (toks : List Nat) : BitVec 128 :=
  siphash128 key (h.extractLsb' 0 64 :: h.extractLsb' 64 64 :: tokenWords toks)

/-! ### Domains -/

/-- The committed configuration of a domain. -/
def domCfg (s : State) (d : Nat) : Nat := s.rdN (Reg.PFX_DOM_CFG d)
/-- The domain is a SITE domain. -/
def domSite (s : State) (d : Nat) : Bool := (domCfg s d).testBit 2
/-- The key generation in force. -/
def keygen (s : State) (d : Nat) : Nat := mgetD s.pfx.keygen 0 d
/-- The domain key in force. -/
def domKey (s : State) (d : Nat) : BitVec 128 :=
  let i := 16 * d + keygen s d
  (mget s.pfx.keys i).getD (Config.domainKey i)

/-- The hashing domain of a scope (Table PFX-2). -/
def scopeDom (scope d : Nat) : Nat := if scope = 0 then 0 else d

/-! ### Entries -/

namespace State
/-- An index entry. -/
def entry (s : State) (n : Nat) : Option Entry := mget s.pfx.entries n
/-- Change an index entry. -/
def updEntry (s : State) (n : Nat) (f : Entry → Entry) : State :=
  { s with pfx := { s.pfx with entries := mupd s.pfx.entries n f } }
/-- Set an index entry. -/
def setEntry (s : State) (n : Nat) (e : Entry) : State :=
  { s with pfx := { s.pfx with entries := mput s.pfx.entries n e } }
end State

/-- The page object of an entry's block. -/
def entryObj (s : State) (n : Nat) : Option Obj :=
  match s.entry n with
  | none => none
  | some e => match e.publisher with
    | some p => s.obj p e.block
    | none => mget s.pfx.orphans n

/-- The entry is shared beyond its publisher and its domain spans the site (R121). -/
def Entry.announced (s : State) (e : Entry) : Bool := e.owner == 0 && domSite s e.dom

/-- Note a publication or an eviction that the manager must hear of within 1 ms (R121). -/
def announce (pub : Bool) (e : Entry) (s : State) : State :=
  if e.announced s then
    { s with pfx := { s.pfx with
        announce := s.pfx.announce ++ [(pub, e.dom, e.keygen, e.hash.extractLsb' 0 64)],
        announceAt := some (s.pfx.announceAt.getD s.tb) } }
  else s

/-- An EVICTING entry with no pins and no children leaves: its pages are released and zeroised first (R109). -/
def settleEntry (n : Nat) (s : State) : State :=
  match s.entry n with
  | none => s
  | some e =>
    if e.st = .evicting ∧ e.pins = 0 ∧ e.children = 0 then
      match e.publisher with
      | some p => freeObj p e.block s
      | none =>
        if s.adm.zero.any (fun z => z.orphan == some n) then s
        else startZero ⟨0, none, {}, 0, none, some n⟩ (match mget s.pfx.orphans n with
          | some o => releasePeers e.handle o s
          | none => s)
    else s

/-- An entry becomes FREE: its parent's CHILDREN falls by 1, which may let the parent leave (R109, R117). -/
def freeEntry (n : Nat) (s : State) : State :=
  match s.entry n with
  | none => s
  | some e =>
    let s := { s with pfx := { s.pfx with entries := mdel s.pfx.entries n, orphans := mdel s.pfx.orphans n } }
    match e.parent with
    | none => s
    | some p => settleEntry p (s.updEntry p (fun e => { e with children := e.children - 1 }))

/-- Make an entry EVICTING with a cause (R117, Table PFX-8). -/
def evict (n cause : Nat) (s : State) : State :=
  match s.entry n with
  | none => s
  | some e =>
    if e.st = .evicting then s
    else
      let s := s.setEntry n { e with st := .evicting, cause := cause }
      settleEntry n (announce false e (s.bump (Reg.PFX_EVICT cause)))

/-- Make every entry that satisfies the test EVICTING. -/
def evictWhere (p : Entry → Bool) (cause : Nat) (s : State) : State :=
  ((s.pfx.entries.filter (fun e => p e.2)).map (·.1)).foldl (fun s n => evict n cause s) s

/-- The publisher leaves: its entries become ORPHAN and their pages are charged to no tenant (R117, R118). -/
def orphan (slot : Nat) (keep : Nat → Bool) (s : State) : State :=
  let gone := (s.pfx.entries.filter (fun e => e.2.publisher == some slot && !keep e.2.block)).map (·.1)
  gone.foldl (fun s n =>
    match s.entry n with
    | none => s
    | some e =>
      let o := (s.obj slot e.block).map (fun o => { o with freed := true })
      let h := handleOf (tenId s slot) ((o.map (·.gen)).getD 0) e.block
      let s := dropMoves (fun m => m.slot == slot && m.obj == e.block) s
      let s := s.updTen slot (fun t => { t with objs := mdel t.objs e.block, gens := mput t.gens e.block (nextGen ((o.map (·.gen)).getD 0)) })
      let s := { s with pfx := { s.pfx with orphans := match o with | some o => mput s.pfx.orphans n o | none => s.pfx.orphans } }
      settleEntry n (evict n 4 (s.updEntry n (fun e => { e with publisher := none, handle := h })))) s

/-- Drop one pin of an entry (R114). -/
def unpin (n : Nat) (s : State) : State :=
  settleEntry n (s.updEntry n (fun e => { e with pins := e.pins - 1, lastUse := s.tb }))

/-- An evictable entry: PUBLISHED with no pins and no children. -/
def Entry.evictable (e : Entry) : Bool := e.st == .published && e.pins == 0 && e.children == 0

/-- The bucket of a hash (05). -/
def bucketOf (h : BitVec 128) : Nat := (h.extractLsb' 0 25).toNat

/-- Find the PUBLISHED entry of a key (R110). -/
def probe (s : State) (d kg owner : Nat) (h : BitVec 128) : Option (Nat × Entry) :=
  s.pfx.entries.find? (fun e => e.2.hash == h && e.2.dom == d && e.2.keygen == kg && e.2.owner == owner && e.2.st == .published)

/-- Count one index probe; whether the cache holds the entry is not stated (log entry 4). -/
def countProbe (s : State) : State :=
  let (r, s) := s.draw
  let s := s.bump Reg.PFX_CACHE_PROBES
  if r % 2 = 1 then s.bump Reg.PFX_CACHE_HITS else s

/-- Bytes of published blocks, entries included, charged to a tenant (Table PFX-14). -/
def pubBytes (s : State) (slot : Nat) : Nat :=
  sumOf (s.pfx.entries.filter (fun e => e.2.publisher == some slot))
    (fun e => 64 + ((s.obj slot e.2.block).map (fun o => o.useIn 1 + o.useIn 2 + o.useIn 3 + o.useIn 4)).getD 0)

end Sys2Proof.Machine
end

