-- ==== Sys2Proof/Machine/OpsCtx.lean ====
section
/-! DEFINITION. Request contexts and turns (02, 06): blocks and pins of a context, becoming READY, and how turns
end. -/

namespace Sys2Proof.Machine

namespace State
/-- A context that is not FREE. -/
def ctx (s : State) (n : Nat) : Option Ctx := mget s.sch.ctxs n
/-- Set a context. -/
def setCtx (s : State) (n : Nat) (c : Ctx) : State := { s with sch := { s.sch with ctxs := mput s.sch.ctxs n c } }
/-- Change a context that is not FREE. -/
def updCtx (s : State) (n : Nat) (f : Ctx → Ctx) : State := { s with sch := { s.sch with ctxs := mupd s.sch.ctxs n f } }
/-- A context becomes FREE. -/
def delCtx (s : State) (n : Nat) : State := { s with sch := { s.sch with ctxs := mdel s.sch.ctxs n } }
/-- A loaded model slot. -/
def model (s : State) (n : Nat) : Option Model := mget s.sch.models n
/-- A step. -/
def step? (s : State) (n : Nat) : Option Step := mget s.sch.steps n
/-- Set a step. -/
def setStep (s : State) (n : Nat) (t : Step) : State := { s with sch := { s.sch with steps := mput s.sch.steps n t } }
/-- Change a step. -/
def updStep (s : State) (n : Nat) (f : Step → Step) : State := { s with sch := { s.sch with steps := mupd s.sch.steps n f } }
end State

/-! ### Blocks of a context -/

/-- Give back one block of a context: a pin is dropped, private pages are released (R114). -/
def dropBlock (slot : Nat) (s : State) (b : BlockRef) : State :=
  match b with
  | .entry n => unpin n s
  | .remote _ _ _ => s
  | .priv o => freeObj slot o s

/-- The remote leases that blocks rest on, each once. -/
def leasesOf (bs : List BlockRef) : List (Nat × Nat) :=
  (bs.filterMap (fun b => match b with | .remote l h _ => some (l, h) | _ => none)).eraseDups

/-- Drop blocks; remote leases no longer used by the context are released with REMOTE_UNPIN (R122). -/
def dropBlocks (slot : Nat) (gone kept : List BlockRef) (s : State) : State :=
  let s := gone.foldl (dropBlock slot) s
  ((leasesOf gone).filter (fun l => !(leasesOf kept).contains l)).foldl
    (fun s l => { s.send 0x55 l.2 [s.pfx.nextQuery, l.1] with pfx := { s.pfx with nextQuery := (s.pfx.nextQuery + 1) % 65536 } }) s

/-- The blocks a context has pinned (Table SCH-2, PINNED). -/
def Ctx.pinned (c : Ctx) : Nat := (c.blocks.filter (fun b => match b with | .priv _ => false | _ => true)).length

/-- The KV bin of a length (06, Table SCH-5). -/
def binOf (n : Nat) : Nat := if n ≤ 256 then 0 else (n - 1).log2 - 7

/-- Tokens of a block. -/
def blockTokens (ids : List Nat) (i : Nat) : List Nat := (ids.drop (64 * i)).take 64

/-- A context becomes READY: READY_SINCE is set (R130). Its pages below T1 are moved at their issue times (R116,
R119). -/
def becomeReady (cid : Nat) (s : State) : State := s.updCtx cid (fun c => { c with st := .ready, readySince := s.tb })

/-! ### Turns -/

/-- Work of a turn meets an outcome; lateness gathers per resource (R14, R49). -/
def Turn.note (t : Turn) (o : Status) : Turn :=
  if o.code = 1 ∧ t.outcomes.any (fun p => p.code == 1 && p.res == o.res) then
    { t with outcomes := updWhere t.outcomes (fun p => p.code == 1 && p.res == o.res) (fun p => { p with detail := p.detail + o.detail }) }
  else { t with outcomes := t.outcomes ++ [o] }

/-- Note an outcome on a context's current turn. -/
def noteTurn (cid : Nat) (o : Status) (s : State) : State :=
  s.updCtx cid (fun c => { c with turn := c.turn.map (fun t => t.note o) })

/-- CANCEL commands that wait on a turn have one turn less to wait on (09). -/
def cancelDone (cid seq : Nat) (s : State) : State :=
  ((s.flights.filter (fun f => f.op == 0x1C && f.args.head? == some cid && (f.args.drop 1).contains seq)).map (·.id)).foldl
    (fun s id => partDone id ⟨0, 0, 0⟩ s) s

/-- The final completion of a turn, with every outcome counted (R14, Tables QUE-5, QUE-6). -/
def turnEnd (cid : Nat) (c : Ctx) (t : Turn) (all : List Status) (stop new : Nat) (s : State) : State :=
  let st := pickStatus all
  let s := if all.isEmpty then s.outcome c.slot ⟨0, 0, 0⟩ else all.foldl (fun s o => s.outcome c.slot o) s
  let s := s.updCtx cid (fun c => { c with lastStatus := st.word, stop := stop })
  let fin : Completion := { status := st.word, cmdId := t.cmdId, kind := 2, stop := stop, aux := cid, result := new % 2 ^ 32 + 2 ^ 32 * t.seq }
  let s := match s.flight t.flight with
    | none => s
    | some f =>
      let s := unreserve c.slot 1 { s with flights := s.flights.filter (fun g => g.id != f.id) }
      match f.src with
      | .prog tok =>
        let s := endToken (progKey f.slot f.queue) false tok st.word fin.result [] s
        if f.post then produce c.slot c.queue t.irq fin s else s
      | _ => produce c.slot c.queue t.irq fin s
  cancelDone cid t.seq s

/-- A context takes the input of its current turn: it follows a token fed back (R42). -/
def bindTurn (c : Ctx) (t : Turn) : Ctx :=
  let todo := c.todo ++ t.input
  { c with todo := todo, needPrefill := decide (1 < todo.length), turn := some t }

/-- A turn becomes the current one: its counts start afresh (Table SCH-2). -/
def startTurn (c : Ctx) (t : Turn) : Ctx :=
  { c with
    turn := some t, turnSeq := t.seq, turnNew := 0, lateUs := 0, delayUs := 0, preempts := 0, retries := 0,
    steps := 0, cls := t.cls, blockedSince := none }

/-- The current turn ends (R139): its completion is written or held, input not processed is dropped, and the
next waiting turn is taken (R41). -/
def endTurn (cid : Nat) (extra : List Status) (stop : Nat) (s : State) : State :=
  match s.ctx cid with
  | none => s
  | some c =>
    match c.turn with
    | none => s
    | some t =>
      let delay : List Status := if c.delayUs = 0 then [] else [⟨0x11, 5, c.delayUs⟩]
      let s := turnEnd cid c t (t.outcomes ++ delay ++ extra) stop c.turnNew s
      let s := s.updCtx cid (fun c => { c with
        turn := none, todo := if c.fed then c.todo.take 1 else [], needPrefill := false, cut := false, resume := none,
        chain := c.chain.take (c.length / 64),
        st := if c.st = .frozen then .frozen else .idle, frozenFrom := .idle, images := [] })
      match c.waiting with
      | [] => s
      | t :: r => s.updCtx cid (fun c => startTurn { c with waiting := r } t)

/-- Cancelled turns end (09, "When CANCEL meets a turn in flight"): the current one, then waiting ones in order.
The fuel is the number of turns. -/
def applyCancels (cid : Nat) : Nat → State → State
  | 0, s => s
  | n + 1, s =>
    match (s.ctx cid).bind (fun c => c.turn) with
    | some t => if t.cancelled then applyCancels cid n (endTurn cid [⟨0x34, 0, 0⟩] 0 s) else s
    | none => s

/-- Cancelled waiting turns leave the queue. -/
def dropCancelled (cid : Nat) (s : State) : State :=
  match s.ctx cid with
  | none => s
  | some c =>
    let gone := c.waiting.filter (fun t => t.cancelled)
    let s := s.updCtx cid (fun c => { c with waiting := c.waiting.filter (fun t => !t.cancelled) })
    gone.foldl (fun s t => turnEnd cid c t [⟨0x34, 0, 0⟩] 0 0 s) s

/-- Every waiting turn of a context ends with a status. -/
def abortWaiting (cid : Nat) (st : Status) (s : State) : State :=
  match s.ctx cid with
  | none => s
  | some c => c.waiting.foldl (fun s t => turnEnd cid c t [st] 0 0 s) (s.updCtx cid (fun c => { c with waiting := [] }))

/-- Every turn of a context ends with a status. -/
def abortTurns (cid : Nat) (st : Status) (s : State) : State := endTurn cid [st] 0 (abortWaiting cid st s)

/-- A context is emptied to zero tokens: pins dropped, private pages released (06). -/
def emptyCtx (cid : Nat) (s : State) : State :=
  match s.ctx cid with
  | none => s
  | some c =>
    let s := dropBlocks c.slot c.blocks [] s
    s.updCtx cid (fun c => { c with
      length := 0, ids := [], todo := [], fed := false, blocks := [], chain := [], due := [],
      images := [], cut := false, needPrefill := false, resume := none, frozenFrom := .idle,
      st := if c.st = .frozen then .frozen else .idle })

/-- A context is emptied and its record freed, with its activation scratch. -/
def freeCtx (cid : Nat) (s : State) : State :=
  let s := emptyCtx cid s
  match s.ctx cid with
  | none => s
  | some c => (match c.act with | some i => freeObj c.slot i s | none => s).delCtx cid

/-- Contexts of a slot, by number. -/
def ctxsOf (s : State) (slot : Nat) : List Nat := (s.sch.ctxs.filter (fun c => c.2.slot == slot)).map (·.1)

end Sys2Proof.Machine
end

