-- ==== Sys2Proof/Machine/OpsDemote.lean ====
section
/-! DEFINITION. Demotion under pressure (04, R74, R93, R94; 05, R115). -/

namespace Sys2Proof.Machine

/-- A page that demotion may take, with its order within its tenant. -/
structure Cand where
  slot : Nat
  obj : Nat
  page : Nat
  /-- 0 COLD_OK, 1 WARM, 2 HOT, 3 PIN. -/
  rank : Nat
  use : Nat

/-- The index entry whose block an object holds. -/
def entryOf (s : State) (slot idx : Nat) : Option (Nat × Entry) :=
  s.pfx.entries.find? (fun e => e.2.publisher == some slot && e.2.block == idx)

/-- Some READY or running context pins the entry (R115). -/
def pinnedActive (s : State) (n : Nat) : Bool :=
  s.sch.ctxs.any (fun c => (c.2.st == .ready || c.2.st == .running) && c.2.blocks.contains (.entry n))

/-- Demotion order of an object's pages (R93). -/
def Obj.rank (o : Obj) : Nat := if o.flag 3 then 3 else if o.flag 2 then 0 else if o.flag 0 then 2 else 1

/-- The pages of one object that may be selected: home T1, no move, no lease, not pinned. -/
def candsOf (s : State) (slot idx : Nat) (o : Obj) (pinToo : Bool) : List Cand :=
  let e := entryOf s slot idx
  if o.freed || (o.flag 3 && !pinToo) || (match e with | some e => pinnedActive s e.1 | none => false) then []
  else (o.pagesWhere (fun p => p.tier == 1 && p.mv.isNone && p.readLeases == 0 && p.stepLeases == 0)).map (fun i =>
    ⟨slot, idx, i, if e.isSome then 1 else o.rank, match e with | some e => e.2.lastUse | none => (o.page i).lastUse⟩)

/-- Insert in order of a key. -/
def insertBy {α : Type} (le : α → α → Bool) (x : α) : List α → List α
  | [] => [x]
  | y :: r => if le x y then x :: y :: r else y :: insertBy le x r

/-- Sort by an order, keeping the order of equals. -/
def sortBy {α : Type} (le : α → α → Bool) (l : List α) : List α := l.foldr (insertBy le) []

/-- Candidates of one tenant in order: COLD_OK, WARM, HOT (then PIN), least recently used first (R93). -/
def candsOfTenant (s : State) (slot : Nat) (pinToo : Bool) : List Cand :=
  let l := ((s.ten slot).map (fun t => (t.objs.map (fun o => candsOf s slot o.1 o.2 pinToo)).flatten)).getD []
  sortBy (fun a b => decide (a.rank < b.rank) || (a.rank == b.rank && decide (a.use ≤ b.use))) l

/-- Slots of a class, newest admitted first. -/
def slotsNewest (s : State) (p : Tenant → Bool) : List Nat :=
  (sortBy (fun a b => decide (b.2.admSeq ≤ a.2.admSeq)) (s.adm.tenants.filter (fun t => p t.2))).map (·.1)

/-- The order of tenants for demotion (R93): SCAVENGER, ELASTIC from PRIO 0 upward, RESERVED. -/
def demoteOrder (s : State) : List Nat :=
  slotsNewest s (fun t => t.cls == 2) ++
    ((List.range 4).map (fun p => slotsNewest s (fun t => t.cls == 1 && t.prio == p))).flatten ++
    slotsNewest s (fun t => t.cls == 0)

/-- Bytes a RESERVED tenant holds in T1 above its reservation; another tenant's whole holding is borrowed. -/
def borrowed (s : State) (slot : Nat) : Nat :=
  match s.ten slot with
  | none => 0
  | some t => if t.cls = 0 then tierUse s slot 1 - t.vec.hbm * unit2M else tierUse s slot 1

/-- A peer sled that LEND_QUERY named as holder for T4 pages (13, R284); none while the sled has no manager or its JOIN is
refused (13, R275, R288). -/
def lendPeer (s : State) : Option Nat := if s.lender = 0 || s.bit Reg.HIE_STATUS 4 || outcast s then none else some (s.lender - 1)

/-- Demote one page (R94): a move to the first permitted lower tier with room; else its published block is evicted
(R115, R117), else it is skipped and counted. The result says whether T1 is freed. -/
def demotePage (c : Cand) (s : State) : Bool × State :=
  match s.obj c.slot c.obj with
  | none => (false, s)
  | some o =>
    let e := entryOf s c.slot c.obj
    let (n, s) := drawSize o s
    let hostOk := o.flag 11 && (match e with | some e => e.2.owner != 0 | none => true)
    match lowerTier s c.slot hostOk (o.flag 12) (lendPeer s) n with
    | some (t, loc) =>
      let s := startMove c.slot c.obj c.page t loc .demotion s
      (true, s)
    | none =>
      match e with
      | some e => if e.2.evictable then (true, evict e.1 1 s) else (false, s.bump Reg.TIER_DEMOTE_BLOCKED)
      | none => (false, s.bump Reg.TIER_DEMOTE_BLOCKED)

/-- Demote pages of a list until enough bytes are on their way out; answers the bytes still wanted. -/
def demoteList : List Cand → Nat → State → Nat × State
  | [], need, s => (need, s)
  | c :: r, need, s =>
    if need = 0 then (0, s)
    else
      let b := ((s.obj c.slot c.obj).map (·.t1Bytes)).getD pageBytes
      let (done, s) := demotePage c s
      demoteList r (if done then need - b else need) s

/-- Demote from tenants in order until enough bytes are on their way out; a tenant gives what `limit` says. -/
def demoteTenants (pinToo : Bool) (limit : State → Nat → Nat) : List Nat → Nat → State → Nat × State
  | [], need, s => (need, s)
  | t :: r, need, s =>
    let want := min need (limit s t)
    let (rest, s) := demoteList (candsOfTenant s t pinToo) want s
    demoteTenants pinToo limit r (need - (want - rest)) s

/-- Bytes of T1 whose demotion is already on the way. -/
def leaving (s : State) : Nat :=
  sumOf (s.moves.filter (fun m => m.src == 1 && decide (1 < m.dst)))
    (fun m => ((s.obj m.slot m.obj).map (·.t1Bytes)).getD pageBytes)

/-- The scan of R93: below the low watermark, demote until the high watermark will be reached. -/
def demotionScan (s : State) : State :=
  let low := s.rdN Reg.TIER_WM_LOW
  let high := s.rdN Reg.TIER_WM_HIGH
  if freeT1 s < low then
    let need := (high - freeT1 s) * unit2M - leaving s
    (demoteTenants false borrowed (demoteOrder s) need s).2
  else s

/-- Memory held above a reduced capacity is demoted (R74): borrowers, holdings above reservation, and the overflow
of reduced tenants, which reaches PIN pages last. -/
def demoteExcess (slots : List Nat) (s : State) : State :=
  slots.foldl (fun s t => (demoteTenants true borrowed [t] (borrowed s t) s).2) s

end Sys2Proof.Machine
end

