-- ==== Sys2Proof/Machine/OpsLaunch.lean ====
section
/-! DEFINITION. Launches (07, 09): clusters, starting, stopping and reporting. -/

namespace Sys2Proof.Machine

namespace State
/-- A cluster that runs a launch. -/
def clu (s : State) (k : Nat) : Option Cluster := mget s.clus k
/-- Set a cluster. -/
def setClu (s : State) (k : Nat) (c : Cluster) : State := { s with clus := mput s.clus k c }
/-- Change a cluster that runs a launch. -/
def updClu (s : State) (k : Nat) (f : Cluster → Cluster) : State := { s with clus := mupd s.clus k f }
/-- A launch. -/
def lch (s : State) (n : Nat) : Option Launch := mget s.launches n
/-- Set a launch. -/
def setLch (s : State) (n : Nat) (l : Launch) : State := { s with launches := mput s.launches n l }
/-- Change a launch. -/
def updLch (s : State) (n : Nat) (f : Launch → Launch) : State := { s with launches := mupd s.launches n f }
end State

/-! ### Clusters -/

/-- The cluster is in service and not withheld (01, R33). -/
def inService (s : State) (k : Nat) : Bool :=
  decide (k < 128) && !s.flt.retired.contains (3, k) && !s.flt.quarantined.contains (3, k) && !s.withheld.contains k

/-- Clusters in service that are not withheld. -/
def clustersUp (s : State) : Nat := ((List.range 128).filter (inService s)).length

/-- The cluster is held by a launch, or by a planned or running step. -/
def clusterHeld (s : State) (k : Nat) : Bool :=
  (s.clu k).isSome || s.launches.any (fun l => l.2.clusters.contains k) || s.sch.steps.any (fun t => t.2.clusters.contains k)

/-- The cluster is in reset (16, R352). -/
def clusterReset (s : State) (k : Nat) : Bool := decide (s.tb < mgetD s.rst.resetAt 0 k)

/-- Free clusters, lowest first (log entry 40). -/
def freeClusters (s : State) (avoid : List Nat) : List Nat :=
  (List.range 128).filter (fun k => inService s k && !clusterHeld s k && !avoid.contains k && !clusterReset s k)

/-- The swallowed pulses in 64 on a cluster, less the tenant's own throttle (16, R336). -/
def coreK (s : State) (k slot : Nat) : Nat :=
  let force := if s.bit Reg.CLK_THR_FORCE 8 then s.fld Reg.CLK_THR_FORCE 0 6 else 0
  let therm := s.fld Reg.CLK_THR_SRC (if k < 64 then 8 else 16) 6
  min 60 (max (max (s.fld Reg.CLK_THR_SRC 0 6) therm) (max (bits (s.twRd slot Reg.TW_NRG_K) 0 6) force))

/-! ### The window of reserved cluster time (03, R67) -/

/-- Count cluster-nanoseconds of a slot in the window in force. -/
def useClusters (slot ns : Nat) (s : State) : State :=
  { s with sch := { s.sch with used := mput s.sch.used slot ((mget s.sch.used slot).getD 0 + ns) } }

/-- Reserved cluster time a tenant is still owed in the window, counted from the later of the window start and 200 µs
after its work became ready (R67). -/
def owed (s : State) (slot since : Nat) : Nat :=
  match s.ten slot with
  | none => 0
  | some t =>
    if t.cls ≠ 0 then 0
    else
      let start := max s.sch.window (since + 200)
      t.vec.clu * ((s.sch.window + 10000 - start) * 1000) / 16 - (mget s.sch.used slot).getD 0

/-! ### Starting a launch (R144) -/

/-- The register state of Table CLU-2. -/
def launchRegs (l : Launch) (rank size : Nat) : Map DWord :=
  let args := ((List.range 8).zip l.args).map (fun a => (a.1 + 1, a.2))
  (args ++ [(9, BitVec.ofNat 64 rank), (10, BitVec.ofNat 64 size), (11, l.seed), (12, BitVec.ofNat 64 l.slots)]).filter
    (fun r => r.2 != 0)

/-- Ranks of a launch: its group, or every member's of a span (R160). -/
def Launch.size (l : Launch) : Nat := if l.span.isEmpty then l.group else sumOf l.span (fun m => m.2)

/-- The rank of this sled's first cluster (R160). -/
def Launch.firstRank (l : Launch) : Nat := sumOf (l.span.take l.place) (fun m => m.2)

/-- A cluster at launch; what its tile store holds is not specified (log entry 41). -/
def newCluster (id rank fill : Nat) (l : Launch) : Cluster := {
  launch := id, rank := rank, fill := fill, s := launchRegs l rank l.size,
  h := ((List.range 8).zip l.handles).filter (fun h => h.2 != 0) }

/-- The major opcodes of the cluster profile (08). -/
def cluMajors : List Nat :=
  (List.range 0x14) ++ (List.range 0x14).map (· + 0x18) ++ (List.range 7).map (· + 0x30) ++ (List.range 8).map (· + 0x40) ++
  (List.range 5).map (· + 0x50) ++ (List.range 0x13).map (· + 0x60) ++ [0x78, 0x79, 0x80, 0x81, 0x82, 0x83, 0x84, 0x88, 0x89,
    0x8A, 0x90, 0x91, 0xA0, 0xA1, 0xA2, 0xA3, 0xA8, 0xA9]

/-- Record a fault of a rank: it ends the launch, and of several within 2 µs the lowest rank's is kept (R162). -/
def cluFault (k : Nat) (st : Status) (index major : Nat) (s : State) : State :=
  match s.clu k with
  | none => s
  | some c =>
    (s.updLch c.launch (fun l => { l with fault := match l.fault with
      | some f => if c.rank < f.rank then some { f with st := st, rank := c.rank, cluster := k, index := index, major := major } else some f
      | none => some ⟨st, c.rank, k, index, major, s.tb⟩ })).updClu k (fun c => { c with ended := true, wait := none })

/-- FAULT_PROGRAM at an instruction (R166). -/
def progFault (index : Nat) : Status := ⟨0x41, 5, index⟩

/-- The word at an index of a launch's program. -/
def Launch.word (l : Launch) (i : Nat) : Option Nat := (l.code[i]?).map (·.toNat)

/-- Go on at an index: a fetch past the end, or of a word whose major is not defined, raises FAULT_PROGRAM there
(R145, R166). -/
def goTo (k i : Nat) (s : State) : State :=
  let s := s.updClu k (fun c => { c with pc := i })
  match (s.clu k).bind (fun c => s.lch c.launch) with
  | none => s
  | some l =>
    match l.word i with
    | none => cluFault k (progFault i) i 0 s
    | some w => if cluMajors.contains (bits w 56 8) then s else cluFault k (progFault i) i (bits w 56 8) s

/-- Test slices that run on clusters yield to a launch, and are run again later (24, R500). -/
def yieldSlices (cl : List Nat) (s : State) : State :=
  let hit := fun (x : Nat × Nat) => x.1 / 1024 == 3 && cl.contains (x.1 % 1024)
  { s.bumpBy Reg.IST_YIELDS (s.flt.slices.filter hit).length with flt := { s.flt with slices := s.flt.slices.filter (fun x => !hit x) } }

/-- Start a launch on clusters: every member begins with the launch state at index 0 (R144). -/
def startLaunch (id : Nat) (cl : List Nat) (yieldUs : Nat) (s : State) : State :=
  match s.lch id with
  | none => s
  | some l =>
    let waited := s.tb - l.issuedAt
    let l := { l with
      clusters := cl, started := some s.tb, startWait := min 65535 (l.startWait + yieldUs),
      outcomes := if waited = 0 ∨ l.step.isSome then l.outcomes else l.outcomes ++ [⟨0x11, 5, waited⟩] }
    let s := yieldSlices cl (s.setLch id l)
    ((List.range cl.length).zip cl).foldl (fun s rk => goTo rk.2 0 ({ s with free := s.free + 1 }.setClu rk.2 (newCluster id (l.firstRank + rk.1) s.free l))) s

/-! ### Ending a launch (R162, R164) -/

/-- The clusters of a launch stop: moves, signals and waits go with their state, read leases and stream windows end
(R85). -/
def stopClusters (id : Nat) (s : State) : State :=
  match s.lch id with
  | none => s
  | some l =>
    let s := { s with
      clus := s.clus.filter (fun c => c.2.launch != id), tileFails := s.tileFails.filter (fun f => !l.clusters.contains f.1) }
    let s := l.leases.foldl (fun s p => endLease p.1 p.2.1 p.2.2 false s) s
    let s := { s with adm := { s.adm with tenants := mmap s.adm.tenants (fun _ t =>
      if t.objs.any (fun o => o.2.windows.any (fun w => w.holder == id)) then
        { t with objs := mmap t.objs (fun _ o => { o with windows := o.windows.filter (fun w => w.holder != id) }) }
      else t) } }
    s.updLch id (fun l => { l with clusters := [], leases := [], started := none })

/-- The launch report (Table CLU-9). -/
def reportOf (l : Launch) (st : Status) (elapsedNs : Nat) : List Word :=
  let (rank, cluster, index, major) := match l.fault with
    | some f => (f.rank, f.cluster, f.index, f.major)
    | none => (0xFFFF, 0xFF, 0, 0)
  [st.word, BitVec.ofNat 32 (rank + 65536 * cluster), BitVec.ofNat 32 (index + 65536 * major), BitVec.ofNat 32 l.flags,
    BitVec.ofNat 32 elapsedNs, BitVec.ofNat 32 (elapsedNs / 2 ^ 32), BitVec.ofNat 32 l.kvWait, BitVec.ofNat 32 l.startWait]

/-- Groups of a model. -/
def groupsOf (s : State) (model : Nat) : Nat := ((s.model model).map (fun m => m.groups.length)).getD 0

/-- A step's launch of a group ended (R137; 02, R53): a completed group counts; notice given cuts the step at the group
boundary; a reset cuts it at the group. -/
def stepLaunchEnd (step g : Nat) (st : Status) (s : State) : State :=
  match s.step? step with
  | none => s
  | some t =>
    if st.code = 0x30 then
      s.updStep step (fun t => { t with cutAt := some (.reset g st none), lost := true, ended := true })
    else
      let last := decide (g + 1 = groupsOf s t.model)
      let s := s.updStep step (fun t => { t with
        done := g + 1, words := if 0x20 ≤ st.code then t.words ++ [st] else t.words })
      if t.notice.isSome ∧ !last then s.updStep step (fun t => { t with cutAt := some (.cut (g + 1)), ended := true }) else s

/-- End a launch: count it, write its report, and end its token (R164; 09, R194, R199). -/
def closeLaunch (id elapsedNs : Nat) (s : State) : State :=
  match s.lch id with
  | none => s
  | some l =>
    let l := { l with flags := s.clus.foldl (fun f c => if c.2.launch = id then f ||| c.2.flags else f) l.flags }
    let all := l.outcomes ++ (match l.fault with | some f => [f.st] | none => [])
    let st := pickStatus all
    let n := l.clusters.length
    let s := stopClusters id s
    let s := { s with launches := mdel s.launches id }
    let s := (s.twBump l.slot Reg.TW_CL_LAUNCHES).twPut l.slot Reg.TW_CL_FLAGS ((s.twRd l.slot Reg.TW_CL_FLAGS) ||| l.flags)
    let s := if 0x40 ≤ st.code then s.twBump l.slot Reg.TW_CL_FAULTS else s
    let s := if l.step.isSome then s else if all.isEmpty then s.outcome l.slot ⟨0, 0, 0⟩ else all.foldl (fun s o => s.outcome l.slot o) s
    let rep := reportOf l st elapsedNs
    let s := endToken l.prog true l.token st.word 0 rep s
    match l.step with
    | some (t, g) => stepLaunchEnd t g st s
    | none =>
      let s := unreserve l.slot (if l.report then 2 else 1) (useClusters l.slot (n * elapsedNs) s)
      if l.report then produce l.slot (l.prog % 16) false { status := st.word, cmdId := 0, kind := 3, result := l.token % 65536, report := rep } s
      else s

/-- A launch that a reservation takes back stops; one of a LAUNCH waits to be started again, one of a LAUNCHS is
discarded with its group (R161, R137). -/
def preemptLaunch (id notice : Nat) (s : State) : State :=
  match s.lch id with
  | none => s
  | some l =>
    let s := stopClusters id (s.twBump l.slot Reg.TW_CL_PREEMPTS)
    match l.step with
    | none => s.updLch id (fun l => { l with notice := none, issuedAt := s.tb, fault := none, flags := 0, kvWait := 0, outcomes := l.outcomes ++ [⟨0x12, 5, notice⟩] })
    | some (t, g) =>
      let s := { s with launches := mdel s.launches id }
      let s := endToken l.prog true l.token (Status.word ⟨0x12, 5, notice⟩) 0 (reportOf l ⟨0x12, 5, notice⟩ 0) s
      s.updStep t (fun t => { t with cutAt := some (.cut g), lost := true, ended := true })

/-- A cluster of a launch reset (R163): a LAUNCH is started again once on other clusters; a LAUNCHS ends, which cuts its
step. -/
def resetLaunch (id cluster epoch : Nat) (s : State) : State :=
  match s.lch id with
  | none => s
  | some l =>
    if l.step.isNone ∧ !l.retried then
      let s := (stopClusters id s).twBump l.slot Reg.TW_CL_RELAUNCH
      s.updLch id (fun l => { l with
        retried := true, avoid := l.avoid ++ [cluster], issuedAt := s.tb, fault := none, notice := none, flags := 0, kvWait := 0,
        outcomes := l.outcomes ++ [⟨2, 5, 1⟩] })
    else
      let s := s.updLch id (fun l => { l with fault := none, outcomes := l.outcomes ++ [⟨0x30, 5, epoch⟩] })
      let s := closeLaunch id 0 s
      match l.step with
      | some (t, _) => s.updStep t (fun t => { t with cutAt := match t.cutAt with
          | some (.reset g st _) => some (.reset g st (some cluster))
          | x => x })
      | none => s

/-! ### Leaving -/

/-- Launches of a tenant end with a status. -/
def stopLaunches (slot : Nat) (st : Status) (s : State) : State :=
  ((s.launches.filter (fun l => l.2.slot == slot)).map (·.1)).foldl
    (fun s i => closeLaunch i 0 (s.updLch i (fun l => { l with outcomes := l.outcomes ++ [st] }))) s

/-- A context leaves its step: its entry stays in the batch and is no context's any more; a held-store slot reserved for
it is given back. -/
def leaveStep (cid : Nat) (s : State) : State :=
  match s.ctx cid with
  | none => s
  | some c =>
    match c.step with
    | none => s
    | some t =>
      let r := (s.step? t).any (fun t => t.entries.any (fun e => e.ctx == cid && e.reserved))
      let s := s.updStep t (fun t => { t with entries := updWhere t.entries (fun e => e.ctx == cid) (fun e => { e with reserved := false }) })
      let s := s.updCtx cid (fun c => { c with step := none })
      if r then unreserve c.slot 1 s else s

end Sys2Proof.Machine
end

