-- ==== Sys2Proof/Machine/OpsEvent.lean ====
section
/-! DEFINITION. The event fabric (10): events, key ranges, routing, outputs, spill and replay, neurons, and what tenancy
changes do to it. -/

namespace Sys2Proof.Machine

/-! ### Event words (10, Table EVF-1, R210) -/

def evKey (w : Word) : Nat := bits w.toNat 12 20
def evPay (w : Word) : Int := signed 8 (bits w.toNat 4 8)
def evEpoch (w : Word) : Nat := bits w.toNat 3 1
def evMark (w : Word) : Bool := w.getLsbD 1

/-- An event word with REPLAY 0. -/
def evWord (key : Nat) (pay : Int) (epoch : Nat) (mark ts : Bool) : Word :=
  BitVec.ofNat 32 (4096 * key + 16 * unsigned 8 pay + 8 * epoch + 2 * b2n mark + b2n ts)

/-- The word with another EPOCH. -/
def stampWord (epoch : Nat) (w : Word) : Word := BitVec.ofNat 32 (setBits w.toNat 3 1 epoch)

/-- The 64-bit value nearest the timebase that a timestamp word stands for (R210). -/
def extTime (tb ts : Nat) : Nat :=
  let d := (ts + 2 ^ 32 - tb % 2 ^ 32) % 2 ^ 32
  if d < 2 ^ 31 ∨ tb + d < 2 ^ 32 then tb + d else tb + d - 2 ^ 32

/-- The time of an event at a consumer it reached at `arrived`. -/
def Ev.time (e : Ev) (tb arrived : Nat) : Nat := match e.ts with | some t => extTime tb t.toNat | none => arrived

/-- Words an event takes, its timestamp word included. -/
def Ev.words (e : Ev) : List Nat := e.word.toNat :: (match e.ts with | some t => [t.toNat] | none => [])

namespace State
/-- The epoch in force. -/
def evE (s : State) : Nat := s.fld Reg.EVF_EPOCH 0 1
/-- The other bank's state (10, Table EVF-6). At reset the field reads 0, and the bank is as STAGED (log entry 58). -/
def evOther (s : State) : Nat := s.fld Reg.EVF_EPOCH 1 2
/-- The other bank can be written. -/
def evStaged (s : State) : Bool := decide (s.evOther < 2)
/-- An event core. -/
def core (s : State) (c : Nat) : ECore := mgetD s.fab.cores {} c
/-- Set an event core. -/
def setCore (s : State) (c : Nat) (x : ECore) : State := { s with fab := { s.fab with cores := mputD s.fab.cores {} c x } }
/-- Change an event core. -/
def updCore (s : State) (c : Nat) (f : ECore → ECore) : State := s.setCore c (f (s.core c))
/-- The event at the head of a queue. -/
def evHead (s : State) (p : EvPoint) : Option Ev := (s.fab.queued.find? (fun x => x.1 == p)).map (·.2)
/-- Events in a queue. -/
def evCount (s : State) (p : EvPoint) : Nat := (s.fab.queued.filter (fun x => x.1 == p)).length
/-- Put an event at the end of a queue. -/
def evPut (s : State) (p : EvPoint) (e : Ev) : State :=
  { s with fab := { s.fab with queued := s.fab.queued ++ [(p, { e with since := s.tb })] } }
/-- Take the head of a queue. -/
def evPop (s : State) (p : EvPoint) : State :=
  { s with fab := { s.fab with queued := s.fab.queued.eraseP (fun x => x.1 == p) } }
end State

/-- In-flight count of a bank (10): events of its epoch in the fabric's queues and output buffers, not in spill. -/
def inflightOf (s : State) (b : Nat) : Nat :=
  (s.fab.queued.filter (fun x => evEpoch x.2.word == b)).length +
    sumOf s.fab.batches (fun t => (t.events.filter (fun e => evEpoch e.word == b)).length)

/-! ### Key ranges (R208) -/

/-- BASE of a tenant's key range. -/
def keyBase (s : State) (slot : Nat) : Nat := bits (s.twRd slot Reg.TW_EV_KEYS) 0 20
/-- log₂ of its size; 0 when there is none. -/
def keyLog (s : State) (slot : Nat) : Nat := bits (s.twRd slot Reg.TW_EV_KEYS) 20 5

/-- The `n` keys from `key` lie in a tenant's range. -/
def ownsKeys (s : State) (slot key n : Nat) : Bool :=
  let l := keyLog s slot
  l != 0 && decide (keyBase s slot ≤ key) && decide (key + n ≤ keyBase s slot + 2 ^ l)

/-- log₂ of the range that a number of cores needs. -/
def keyNeed (cores : Nat) : Nat := max 12 (if cores ≤ 1 then 10 else (1024 * cores - 1).log2 + 1)

/-- The lowest aligned block of 2^log keys that no tenant holds (log entry 59). -/
def freeKeys (s : State) (log : Nat) : Option Nat :=
  let held := (s.adm.tenants.map (fun t => (keyBase s t.1, keyLog s t.1))).filter (fun r => r.2 != 0)
  ((List.range (2 ^ (20 - log))).map (· * 2 ^ log)).find? (fun b =>
    held.all (fun r => decide (b + 2 ^ log ≤ r.1) || decide (r.1 + 2 ^ r.2 ≤ b)))

/-- Give a tenant a key range. -/
def setKeys (slot base log : Nat) (s : State) : State := s.twPut slot Reg.TW_EV_KEYS (base + 2 ^ 20 * log)

/-- The tenant that a sensor port serves (11, R231). -/
def portOwner (s : State) (p : Nat) : Option Nat :=
  let id := s.rdN (Reg.ESP_OWNER p)
  if id = 0 then none else s.slotOf id

/-- The cores a tenant holds, lowest first. -/
def coresOf (s : State) (slot : Nat) : List Nat := (s.fab.cores.filter (fun c => c.2.slot == some slot)).map (·.1)

/-- A range that nothing needs any more is given back. -/
def dropKeys (slot : Nat) (s : State) : State :=
  if (coresOf s slot).isEmpty && portOwner s 0 != some slot && portOwner s 1 != some slot then setKeys slot 0 0 s else s

/-- The key range is short at stage 4 for a tenant with this range that asks for cores (R208). -/
def keyShort (s : State) (have_ cores : Nat) : Bool := cores != 0 && have_ == 0 && (freeKeys s (keyNeed cores)).isNone

/-- A tenant's event cores follow its EVENT_CORES amount (R58, R208): the lowest free cores come, the highest of its own
go, zeroed (log entry 59). -/
def evResize (slot : Nat) (s : State) : State :=
  match s.ten slot with
  | none => s
  | some t =>
    let have_ := coresOf s slot
    let want := if t.cls = 0 then t.vec.evc else 0
    let s := if want ≠ 0 ∧ keyLog s slot = 0 then
        (match freeKeys s (keyNeed want) with | some b => setKeys slot b (keyNeed want) s | none => s)
      else s
    if have_.length < want then
      let free := (List.range 512).filter (fun c => (s.core c).slot.isNone && !s.flt.retired.contains (4, c) && !s.flt.quarantined.contains (4, c))
      (free.take (want - have_.length)).foldl (fun s c => s.updCore c (fun x => { epoch := x.epoch, slot := some slot })) s
    else dropKeys slot ((have_.drop want).foldl (fun s c => s.updCore c (fun x => { epoch := x.epoch })) s)

/-! ### Drops and spill (R209, R220 to R222) -/

/-- An event refused because its tenant's spill area is full (R222, R298). -/
def refuseEv (slot : Nat) (s : State) : State :=
  (((s.twBump slot Reg.TW_EV_REFUSED).bump Reg.EVF_REFUSED).twBump slot Reg.TW_PRG_INJ_REFUSED).bump Reg.FLT_PRG_INJ_REFUSED

/-- Bytes of a tenant's spill area. -/
def spillArea (s : State) (slot : Nat) : Nat := ((s.ten slot).map (fun t => t.spill * unit2M)).getD 0

/-- The spill use of a tenant changes (14, Table PRG-7); refusal ends below half the area (R222, R298). -/
def setSpillUse (slot use : Nat) (s : State) : State :=
  let s := s.twPut slot Reg.TW_SPILL_USE use
  let s := if s.twRd slot Reg.TW_SPILL_PEAK < use then s.twPut slot Reg.TW_SPILL_PEAK use else s
  if 2 * use < spillArea s slot then s.updTen slot (fun t => { t with evRefusing := false }) else s

/-- Put an event into a spill FIFO, with its time; with the area full it is dropped and injection is refused (R222). -/
def spillEv (p : EvPoint) (e : Ev) (s : State) : State :=
  let use := s.twRd e.slot Reg.TW_SPILL_USE
  let area := spillArea s e.slot
  if area < use + 8 then refuseEv e.slot (s.updTen e.slot (fun t => { t with evRefusing := true }))
  else
    let e := { e with ts := some (BitVec.ofNat 32 (e.time s.tb s.tb)) }
    let s := setSpillUse e.slot (use + 8) { s with fab := { s.fab with spilled := s.fab.spilled ++ [(p, e)] } }
    let s := if area < use + 16 then s.updTen e.slot (fun t => { t with evRefusing := true }) else s
    charge e.slot 1 8 ((s.bump Reg.EVF_SPILLED).twBump e.slot Reg.TW_EV_SPILLED)

/-- A spill FIFO of a tenant at a point is not empty. -/
def spilledAt (s : State) (p : EvPoint) (slot : Nat) : Bool := s.fab.spilled.any (fun x => x.1 == p && x.2.slot == slot)

/-- An event comes to a router output or an output queue: behind a FIFO that is not empty it spills (R220). -/
def evEnqueue (p : EvPoint) (e : Ev) (s : State) : State := if spilledAt s p e.slot then spillEv p e s else s.evPut p e

/-! ### Outputs (R216, R217; 11, R238) -/

/-- The bytes of a list of 32-bit words. -/
def wordBytes (ws : List Nat) : List Nat := ws.flatMap (fun w => (leBytes w 4).map (·.toNat))

/-- The ring can take an entry. -/
def ringOpen (s : State) (slot : Nat) (r : EvRing) (need : Nat) : Bool :=
  match s.ten slot with
  | some t => r.live && t.st == .active && (match t.fn with | some f => !(s.fn f).blocked && !(s.fn f).wrStalled | none => false) &&
      decide ((s.twRd slot Reg.TW_EV_TAIL + 2 ^ 32 - s.twRd slot Reg.TW_EV_HEAD) % 2 ^ 32 + need ≤ 2 ^ r.log)
  | none => false

/-- Write an event into its owner's host ring, then the tail (R216). -/
def ringWrite (slot : Nat) (r : EvRing) (e : Ev) (s : State) : State :=
  match (s.ten slot).bind (fun t => t.fn) with
  | none => s
  | some f =>
    let tail := s.twRd slot Reg.TW_EV_TAIL
    let next := (tail + 1) % 2 ^ 32
    let s := postWrite f (.raw slot (r.base + 8 * (tail % 2 ^ r.log)) (wordBytes [e.word.toNat, e.time s.tb s.tb % 2 ^ 32])) s
    let s := postWrite f (.raw slot r.wb (wordBytes [next])) s
    s.twPut slot Reg.TW_EV_TAIL next

/-- HOST (R216): without a ring the event is dropped; a ring that cannot take it makes it spill at once (R220). -/
def toHost (e : Ev) (s : State) : State :=
  match (s.ten e.slot).bind (fun t => t.evRing) with
  | none => s.bump Reg.EVF_HOST_DROP
  | some r =>
    if spilledAt s (.host e.slot) e.slot || !ringOpen s e.slot r 1 then spillEv (.host e.slot) e s else ringWrite e.slot r e s

/-- A batch leaves (R217, Table EVF-5). -/
def sendBatch (b : Batch) (s : State) : State :=
  let s := { s with fab := { s.fab with batches := s.fab.batches.filter (fun x => !(x.node == b.node && x.slot == b.slot)) } }
  let ws := b.events.flatMap Ev.words
  let id := ((s.ten b.slot).map (fun t => t.id)).getD 0
  s.sendAs id 0 0x60 b.node ([ws.length, id] ++ ws)

/-- Words in a batch. -/
def Batch.size (b : Batch) : Nat := sumOf b.events (fun e => e.words.length)

/-- Add an event to its batch; a full batch leaves, and a timestamp word stays with its event (R217). -/
def addBatch (node : Nat) (e : Ev) (s : State) : State :=
  let find := fun (s : State) => s.fab.batches.find? (fun b => b.node == node && b.slot == e.slot)
  let s := match find s with
    | some b => if 26 < b.size + e.words.length then sendBatch b s else s
    | none => s
  let b := (find s).getD ⟨node, e.slot, [], s.tb⟩
  let b := { b with events := b.events ++ [{ e with since := s.tb }] }
  let s := { s with fab := { s.fab with batches := s.fab.batches.filter (fun x => !(x.node == node && x.slot == e.slot)) ++ [b] } }
  if b.size = 26 then sendBatch b s else s

/-- LINK (R217): a node that is lost drops the event; one that cannot be reached makes it spill at once (R220). -/
def toLink (node : Nat) (e : Ev) (s : State) : State :=
  if s.fab.lost.contains node then s.bump Reg.EVF_LINK_DROP
  else if spilledAt s (.link node e.slot) e.slot || !linkOpen s node then spillEv (.link node e.slot) e s
  else addBatch node e s

/-- Add an event to a tap of a bank, saturating (11, R238). -/
def Bank.add (b : Bank) (i : Nat) (pay : Int) : Bank :=
  let n := (mget b.counts i).getD 0
  let x := (mget b.sums i).getD 0
  let x' := max (-(2 ^ 31 - 1)) (min (2 ^ 31 - 1) (x + pay))
  let above := decide (n = 2 ^ 32 - 1) || x' != x + pay
  { b with
    counts := mput b.counts i (min (2 ^ 32 - 1) (n + 1)), sums := mput b.sums i x',
    sat := if above && !b.sat.contains i then b.sat ++ [i] else b.sat }

/-- TAP (11, R238): the bank of the window that contains the event's time; later than its window's end of counting, the
current window, flagged. A tap bound to no group counts nothing. -/
def toTap (i : Nat) (e : Ev) (s : State) : State :=
  match s.groups.find? (fun g => g.2.slot == e.slot && decide (g.2.cfg.first ≤ i) && decide (i < g.2.cfg.first + g.2.cfg.count)) with
  | none => s
  | some (n, g) =>
    let t := e.time s.tb s.tb
    let pay := evPay e.word
    let set := fun (s : State) (g : Group) => { s with groups := mput s.groups n g }
    if g.cur.start ≤ t then set s { g with cur := g.cur.add i pay }
    else match g.closing with
      | some c =>
        if c.start ≤ t then set s { g with closing := some (c.add i pay) }
        else set (s.bump Reg.ESP_TAP_LATE) { g with cur := { g.cur.add i pay with lateIn := true } }
      | none => set (s.bump Reg.ESP_TAP_LATE) { g with cur := { g.cur.add i pay with lateIn := true } }

/-! ### Routing (R213) -/

/-- The entry matches a key. -/
def Route.hits (r : Route) (key : Nat) : Bool := (key ^^^ r.key) &&& r.mask == 0

/-- A router is retired (R228). -/
def routerDead (s : State) (r : Nat) : Bool := s.flt.retired.contains (4, r)

/-- Match an event at a table (512 the ingress table) in the bank its EPOCH names, and forward the copies. -/
def routeAt (node : Nat) (e : Ev) (s : State) : State :=
  let rs := s.fab.routes.filter (fun r => r.bank == evEpoch e.word && r.node == node && r.hits (evKey e.word))
  if rs.isEmpty then s.bump Reg.EVF_ROUTE_MISS
  else
    let dirs := if node = 512 then [] else (List.range 5).filter (fun d => rs.any (fun r => r.outs.testBit d))
    let s := dirs.foldl (fun s d => evEnqueue (.routerOut node d) e s) s
    rs.foldl (fun s (r : Route) =>
      let s := if node = 512 && r.outs.testBit 4 then
          (if routerDead s r.aux then s.bump Reg.EVF_DEAD_ROUTE else s.evPut (.routerIn r.aux) e) else s
      let s := if r.outs.testBit 5 then toLink r.aux e s else s
      let s := if r.outs.testBit 6 then toTap r.aux e s else s
      if r.outs.testBit 7 then toHost e s else s) s

/-- The router that a direction leads to: 0 N, 1 E, 2 S, 3 W; none off the mesh. -/
def neighbour (r d : Nat) : Option Nat :=
  if d = 0 then (if 16 ≤ r then some (r - 16) else none)
  else if d = 1 then (if r % 16 < 15 then some (r + 1) else none)
  else if d = 2 then (if r + 16 < 512 then some (r + 16) else none)
  else if d = 3 then (if 0 < r % 16 then some (r - 1) else none)
  else none

/-! ### Injection (R209, Table EVF-3) -/

/-- An event comes to the ingress table: dropped while the tenant is parked (R229), outside its keys (R209) or while its
spill area is full (R222); else stamped with E. Answers whether it was admitted. -/
def inject (slot : Nat) (w : Word) (ts : Option Word) (s : State) : Bool × State :=
  match s.ten slot with
  | none => (false, s)
  | some t =>
    if t.st ≠ .active then (false, s.twBump slot Reg.TW_EV_PARK_DROP)
    else if !ownsKeys s slot (evKey w) 1 then (false, (s.bump Reg.EVF_KEY_DROP).twBump slot Reg.TW_EV_KEY_DROP)
    else if t.evRefusing then (false, refuseEv slot s)
    else
      let s := (s.bump Reg.EVF_INJECTED).twBump slot Reg.TW_EV_INJECTED
      (true, s.evPut .ingress { word := stampWord s.evE w, ts := ts, slot := slot })

/-- The events of a list of words; a timestamp word that is missing at the end is a free value (log entry 60). -/
def eventsOf : List Nat → State → List (Word × Option Word) × State
  | [], s => ([], s)
  | [w], s =>
    let x : Word := BitVec.ofNat 32 w
    if x.getLsbD 0 then let (n, s) := s.draw; ([(x, some (BitVec.ofNat 32 n))], s) else ([(x, none)], s)
  | w :: t :: r, s =>
    let x : Word := BitVec.ofNat 32 w
    if x.getLsbD 0 then let (l, s) := eventsOf r s; ((x, some (BitVec.ofNat 32 t)) :: l, s)
    else let (l, s) := eventsOf (t :: r) s; ((x, none) :: l, s)

/-- Inject events in order: how many were admitted. -/
def injectAll (slot : Nat) (es : List (Word × Option Word)) (s : State) : Nat × State :=
  es.foldl (fun (a : Nat × State) e => let (ok, s) := inject slot e.1 e.2 a.2; (a.1 + b2n ok, s)) (0, s)

/-! ### Neurons (R211, R212) -/

/-- A parameter record (Table EVF-2). -/
structure NParam where
  theta : Int
  leak : Nat
  shift : Nat
  refrac : Nat
  bipolar : Bool
  en : Bool

/-- The record of a neuron. -/
def ECore.param (c : ECore) (n : Nat) : NParam :=
  let w := readLE c.params (8 * n) 8
  ⟨(bits w 0 16 : Nat), bits w 16 16, bits w 32 4, bits w 36 8, w.testBit 44, w.testBit 45⟩

/-- The state of a neuron. -/
def ECore.neuron (c : ECore) (n : Nat) : Neuron := mgetD c.neurons ⟨0, c.t0, 0⟩ n

/-- The weight from an axon to a neuron. -/
def ECore.weight (c : ECore) (a n : Nat) : Int := signed 8 (readByte c.weights (256 * a + n)).toNat

/-- What an input event does to a neuron: its state, the payload it emits, and whether V clamped or the event fell in the
refractory period. -/
structure NOut where
  neuron : Neuron
  pay : Option Int := none
  sat : Bool := false
  refrac : Bool := false

/-- R211 for one neuron: weight `w`, payload `x`, time `t`. -/
def neuronIn (p : NParam) (n : Neuron) (t : Nat) (w x : Int) : NOut :=
  let dt := t - n.tLast
  let tl := max t n.tLast
  let mag := max 0 ((n.v.natAbs : Int) - p.leak * dt)
  let v := if n.v < 0 then -mag else mag
  if t < n.rEnd then { neuron := ⟨v, tl, n.rEnd⟩, refrac := true }
  else
    let u := v + w * x
    let v := max (-8388608) (min 8388607 u)
    let sat := v != u
    if p.theta ≤ v then
      let q := min 127 (1 + (v - p.theta) / 2 ^ p.shift)
      { neuron := ⟨v - p.theta - (q - 1) * 2 ^ p.shift, tl, t + p.refrac⟩, pay := some q, sat := sat }
    else if p.bipolar ∧ v ≤ -p.theta then
      let q := min 127 (1 + (-v - p.theta) / 2 ^ p.shift)
      { neuron := ⟨v + p.theta + (q - 1) * 2 ^ p.shift, tl, t + p.refrac⟩, pay := some (-q), sat := sat }
    else { neuron := ⟨v, tl, n.rEnd⟩, sat := sat }

/-- Every enabled neuron of a core under an input event, by number. -/
def coreIn (c : ECore) (a t : Nat) (x : Int) : List (Nat × NOut) :=
  ((List.range 256).filter (fun n => (c.param n).en)).map (fun n => (n, neuronIn (c.param n) (c.neuron n) t (c.weight a n) x))

/-- EV_CORE_LOAD has its data (R225). -/
def coreLoaded (id c axon out : Nat) (w p : Memory) (s : State) : State :=
  finish id ⟨0, 0, 0⟩ 0 (s.updCore c (fun x => { x with
    loading := none, reload := false, axonBlk := some axon, outBlk := out, weights := w.filter (fun b => decide (b.1 < 131072)),
    params := p.filter (fun b => decide (b.1 < 2048)), t0 := s.tb, neurons := [] }))

/-! ### Route sets (R214, R218, R225) -/

/-- Taps of a tenant's groups, staged changes included. -/
def tapOwned (s : State) (slot i : Nat) : Bool :=
  let covers := fun (c : GroupCfg) => decide (c.first ≤ i) && decide (i < c.first + c.count)
  s.groups.any (fun g => g.2.slot == slot && (covers g.2.cfg || (match g.2.next with | some (some c) => covers c | _ => false)))

/-- What R214 asks of one entry, but for the trace. -/
def Route.ok (r : Route) (s : State) : Bool :=
  let l := keyLog s r.slot
  let up := fun (d : Nat) => r.outs.testBit d
  ownsKeys s r.slot (r.key &&& r.mask) 1 && r.mask / 2 ^ l == (2 ^ 20 - 1) / 2 ^ l &&
    (if r.node = 512 then r.outs % 16 == 0 && (!up 4 || decide (r.aux < 512)) && decide (b2n (up 4) + b2n (up 5) + b2n (up 6) ≤ 1)
     else (List.range 4).all (fun d => !up d || (neighbour r.node d).isSome) && decide (b2n (up 5) + b2n (up 6) ≤ 1)) &&
    (!up 6 || (decide (r.aux < 4096) && tapOwned s r.slot r.aux))

/-- Follow a key from routers through a route set: no router twice, no branch longer than the hops left. -/
def traceOk (rs : List Route) (key : Nat) : Nat → List Nat → List Nat → Bool
  | 0, front, _ => front.isEmpty
  | k + 1, front, seen =>
    if front.isEmpty then true
    else if front.any (fun r => seen.contains r) || front != front.eraseDups then false
    else
      let next := front.flatMap (fun r =>
        let hits := rs.filter (fun x => x.node == r && x.hits key)
        ((List.range 4).filter (fun d => hits.any (fun x => x.outs.testBit d))).filterMap (neighbour r))
      traceOk rs key k next (seen ++ front)

/-- The trace of an entry (R214): from its own router, or from the routers the ingress table sends its key to. -/
def Route.traced (r : Route) (rs : List Route) : Bool :=
  let key := r.key &&& r.mask
  let start := if r.node = 512 then (rs.filter (fun x => x.node == 512 && x.hits key && x.outs.testBit 4)).map (·.aux) else [r.node]
  traceOk rs key 65 start []

/-- A record of a route object: the entry, the router or 0x3FF, and whether every other bit is zero. -/
def routeRec (slot bank : Nat) (lo hi : Nat) : Route × Bool :=
  let n := bits hi 0 10
  (⟨bank, slot, if n = 0x3FF then 512 else n, bits lo 0 20, bits lo 20 20, bits lo 40 8, bits lo 48 16⟩,
    decide (hi < 1024) && (decide (n < 512) || n == 0x3FF))

/-- The first record of a route set that breaks R214. -/
def badRoute (s : State) (rs : List (Route × Bool)) : Option Nat :=
  let all := rs.map (·.1)
  (List.range rs.length).find? (fun i => match rs[i]? with
    | some (r, ok) => !(ok && r.ok s && r.traced all)
    | none => false)

/-- Entries short at the lowest-numbered table that the set would overfill (R225). -/
def routeShort (s : State) (slot bank : Nat) (rs : List Route) : Option Nat :=
  (List.range 513).findSome? (fun n =>
    let others := (s.fab.routes.filter (fun r => r.bank == bank && r.node == n && r.slot != slot)).length
    let mine := (rs.filter (fun r => r.node == n)).length
    if 1024 < others + mine ∧ mine ≠ 0 then some (others + mine - 1024) else none)

/-- Write a route set into the STAGED bank, or refuse it for want of room (R218, R225). -/
def applyRoutes (w : RouteWrite) (s : State) : State :=
  let b := 1 - s.evE
  let done := fun (st : Status) (n : Nat) (s : State) => match w.flight with | some f => finish f st n s | none => s
  match routeShort s w.slot b w.routes with
  | some n => done ⟨0x20, 6, n⟩ 0 s
  | none =>
    let s := { s with fab := { s.fab with
      routes := s.fab.routes.filter (fun r => !(r.bank == b && r.slot == w.slot)) ++ w.routes.map (fun (r : Route) => { r with bank := b }) } }
    done ⟨0, 0, 0⟩ w.routes.length s

/-- A route write lands now, or is held until the bank is STAGED (R218). -/
def routeWrite (w : RouteWrite) (s : State) : State :=
  if s.evStaged then applyRoutes w s else { s with fab := { s.fab with writes := s.fab.writes ++ [w] } }

/-! ### Replay (R221) -/

/-- Room of a point for half its capacity: a router output's capacity is not stated and it must be empty (log entry 61). -/
def halfRoom (s : State) (p : EvPoint) (slot : Nat) : Bool :=
  match p with
  | .coreOut _ => decide (s.evCount p ≤ 128)
  | .routerOut _ _ => s.evCount p == 0
  | .host _ => (match (s.ten slot).bind (fun t => t.evRing) with | some r => ringOpen s slot r (2 ^ r.log / 2) | none => false)
  | .link node _ => linkOpen s node
  | _ => false

/-- The point can take one more replayed event. -/
def oneRoom (s : State) (p : EvPoint) (slot : Nat) : Bool :=
  match p with
  | .coreOut _ => decide (s.evCount p < 256)
  | .host _ => (match (s.ten slot).bind (fun t => t.evRing) with | some r => ringOpen s slot r 1 | none => false)
  | .link node _ => linkOpen s node
  | _ => true

/-- A replayed event: REPLAY and TS set, and a stale epoch re-stamped. -/
def replayWord (e : Ev) (s : State) : Ev × State :=
  let w := BitVec.ofNat 32 (setBits (setBits e.word.toNat 2 1 1) 0 1 1)
  if evEpoch w = s.evE then ({ e with word := w }, s) else ({ e with word := stampWord s.evE w }, s.bump Reg.EVF_RESTAMP)

/-- Replay a FIFO in order while the point has room. The fuel is the FIFO's length. -/
def replayFifo (p : EvPoint) (slot : Nat) : Nat → State → State
  | 0, s => s
  | k + 1, s =>
    if !oneRoom s p slot then s
    else match s.fab.spilled.find? (fun x => x.1 == p && x.2.slot == slot) with
      | none => s
      | some (_, e) =>
        let s := { s with fab := { s.fab with spilled := s.fab.spilled.eraseP (fun x => x.1 == p && x.2.slot == slot) } }
        let s := setSpillUse slot (s.twRd slot Reg.TW_SPILL_USE - 8) s
        let s := charge slot 1 8 ((s.bump Reg.EVF_REPLAYED).twBump slot Reg.TW_EV_REPLAYED)
        let (e, s) := replayWord e s
        let s := match p with
          | .host _ => (match (s.ten slot).bind (fun t => t.evRing) with | some r => ringWrite slot r e s | none => s)
          | .link node _ => addBatch node e s
          | _ => s.evPut p e
        replayFifo p slot k s

/-- A node is lost (10, When a destination sled is lost): its spill FIFOs and further events for it are dropped. -/
def loseLink (node : Nat) (s : State) : State :=
  let isFor := fun (p : EvPoint) => match p with | .link n _ => n == node | _ => false
  let gone := s.fab.spilled.filter (fun x => isFor x.1)
  let s := { s with fab := { s.fab with spilled := s.fab.spilled.filter (fun x => !isFor x.1), lost := if s.fab.lost.contains node then s.fab.lost else s.fab.lost ++ [node] } }
  gone.foldl (fun s x => setSpillUse x.2.slot (s.twRd x.2.slot Reg.TW_SPILL_USE - 8) (s.bump Reg.EVF_LINK_DROP)) s

/-! ### Tenancy (R229) -/

/-- Parking: the rings' configurations are discarded, so host-bound events spill and windows are lost (R229; 11). -/
def evPark (slot : Nat) (s : State) : State :=
  s.updTen slot (fun t => { t with
    evRing := t.evRing.map (fun r => { r with live := false }), winRing := none })

/-- Re-attach: spilled host events wait for EV_RING (R229). -/
def evAttach (_slot : Nat) (s : State) : State := s

/-- Take back groups and taps, their banks zeroed (11, R239). -/
def dropGroups (slot : Nat) (s : State) : State := { s with groups := s.groups.filter (fun g => g.2.slot != slot) }

/-- The end of grace, or release (`rel`): cores are cleared, routes removed at a device-initiated flip; at release groups,
taps, spill and the rest go too (R229, R71; 11, R239). -/
def evLeave (rel : Bool) (slot : Nat) (s : State) : State :=
  let s := (coresOf s slot).foldl (fun s c => s.updCore c (fun x => { epoch := x.epoch })) s
  let s := routeWrite ⟨slot, none, []⟩ s
  let s := { s with fab := { s.fab with flip := true } }
  if !rel then dropKeys slot s
  else
    let own := fun p => portOwner s p == some slot
    let s := dropGroups slot { s with
      fab := { s.fab with
        spilled := s.fab.spilled.filter (fun x => x.2.slot != slot), telem := s.fab.telem.filter (fun t => t.1 / 8 != slot),
        writes := s.fab.writes.filter (fun w => !(w.slot == slot && w.flight.isSome)) },
      ports := mmap s.ports (fun p x => if own p then { x with staged := none, nextMap := none, map := none, fifo := [] } else x) }
    s.updTen slot (fun t => { t with evRing := none, winRing := none })

end Sys2Proof.Machine
end

