-- ==== Sys2Proof/Machine/OpsSensor.lean ====
section
/-! DEFINITION. Event sensor ports and window groups (11): mapping, markers, settings epochs, I3C lists, windows. -/

namespace Sys2Proof.Machine

namespace State
/-- A sensor port. -/
def port (s : State) (p : Nat) : Port := mgetD s.ports {} p
/-- Change a sensor port. -/
def updPort (s : State) (p : Nat) (f : Port → Port) : State :=
  let x := f (s.port p)
  { s with ports := mputD s.ports {} p x }.setBit (Reg.ESP_STATUS p) 5 (x.staged.isSome || x.nextMap.isSome)
/-- Change a window group. -/
def updGroup (s : State) (g : Nat) (f : Group → Group) : State := { s with groups := mupd s.groups g f }
end State

/-! ### Mapping (R235, R237) -/

/-- Why a PIXEL word gives no event. -/
inductive PixDrop where
  | roi | pol

/-- The key and payload of a PIXEL word (R235). -/
def mapPixel (m : PixMap) (w : Nat) : Except PixDrop (Nat × Int) :=
  let x := bits w 15 14
  let y := bits w 1 14
  let on := w.testBit 29
  if x < m.x0 ∨ m.x1 < x ∨ y < m.y0 ∨ m.y1 < y then .error .roi
  else
    let cols := (m.x1 - m.x0) / 2 ^ m.sx + 1
    let i := ((y - m.y0) / 2 ^ m.sy) * cols + (x - m.x0) / 2 ^ m.sx
    match m.pol with
    | 0 => .ok (m.base + i, if on then 1 else -1)
    | 1 => .ok (m.base + 2 * i + b2n on, 1)
    | 2 => if on then .ok (m.base + i, 1) else .error .pol
    | _ => if on then .error .pol else .ok (m.base + i, 1)

/-- The highest key a mapping can produce. -/
def PixMap.top (m : PixMap) : Nat :=
  let cells := ((m.x1 - m.x0) / 2 ^ m.sx + 1) * ((m.y1 - m.y0) / 2 ^ m.sy + 1)
  if m.pol = 1 then m.base + 2 * cells - 1 else m.base + cells - 1

/-- FIFO depth in words. -/
def portDepth : Nat := 65536

/-- Insert the marker that is due, once the FIFO has room (R237). -/
def putMarker (p : Nat) (s : State) : State :=
  let x := s.port p
  match x.above, x.map, portOwner s p with
  | some (t, n), some m, some slot =>
    if portDepth ≤ x.fifo.length then s
    else
      let e : Ev := { word := evWord m.marker (min 127 n : Nat) 0 true true, ts := some (BitVec.ofNat 32 t), slot := slot }
      s.updPort p (fun x => { x with fifo := x.fifo ++ [e], above := none })
  | _, _, _ => s

/-- A word finds the FIFO full (R237): it is dropped, and the governing group's window carries OVERRUN. -/
def dropWord (p : Nat) (s : State) : State :=
  let s := (s.bump (Reg.ESP_OVR_DROP p)).updPort p (fun x => { x with
    above := match x.above with
      | some (t, n) => if n = 0 then some (s.tb, 1) else some (t, n + 1)
      | none => some (s.tb, 1) })
  match (s.port p).map with
  | some m => s.updGroup m.group (fun g => { g with cur := { g.cur with above := if g.cur.above.contains p then g.cur.above else g.cur.above ++ [p] } })
  | none => s

/-! ### Settings epochs and lists (R236, R240) -/

/-- A port's settings epoch advances at a time: windows with that time inside are MIXED (R240). -/
def advanceEpoch (p at_ : Nat) (s : State) : State :=
  let e := s.fld (Reg.ESP_SET_EPOCH p) 0 8
  let mix := fun (b : Bank) => if b.start < at_ ∧ at_ < b.start + b.len ∧ !b.mixed.contains p then { b with mixed := b.mixed ++ [p] } else b
  let s := (s.setFld (Reg.ESP_SET_EPOCH p) 0 8 ((e + 1) % 256)).updPort p (fun x => { x with epochAt := at_, epochPrev := if x.epochAt = at_ then x.epochPrev else e })
  { s with groups := mmap s.groups (fun _ g => { g with cur := mix g.cur, closing := g.closing.map mix }) }

/-- The settings epoch in force at a window's end. -/
def epochAtEnd (s : State) (p stop : Nat) : Nat :=
  let x := s.port p
  if stop ≤ x.epochAt ∧ x.epochAt ≠ 0 then x.epochPrev else s.fld (Reg.ESP_SET_EPOCH p) 0 8

/-- The controller begins a list's transfers. -/
def runList (p : Nat) (l : I3cList) (s : State) : State :=
  let s := s.updPort p (fun x => { x with run := some { l with idx := 0, since := s.tb } })
  (s.putN (Reg.ESP_I3C_STATUS p) 1).emit (.i3c p (l.entries.head?.getD 0))

/-- A list begins: the epoch advances, and a staged list opens its settings gap (R236). A list that finds the controller
busy starts when it is free. -/
def startList (p at_ : Nat) (l : I3cList) (s : State) : State :=
  let s := advanceEpoch p at_ s
  let l := { l with epoch := s.fld (Reg.ESP_SET_EPOCH p) 0 8 }
  let s := if l.immediate then s else
    let s := s.updPort p (fun x => { x with settling := true, settleEnd := none })
    { s with groups := mmap s.groups (fun _ g => if portOwner s p = some g.slot then { g with cur := { g.cur with settle := true } } else g) }
  if (s.port p).run.isSome then s.updPort p (fun x => { x with ready := some l }) else runList p l s

/-- A list's last transfer has ended: its settings gap ends SETTLE_US later (R236). -/
def endList (p : Nat) (l : I3cList) (st : Status) (result : Nat) (s : State) : State :=
  let s := s.setFld (Reg.ESP_I3C_STATUS p) 0 1 0
  let s := s.updPort p (fun x => { x with
    run := none, ready := none,
    settleEnd := if l.immediate then x.settleEnd else some (s.tb + (match x.map with | some m => m.settle | none => 0)) })
  finish l.flight st result s

/-- The running list ended; one that waited begins. -/
def closeList (p : Nat) (l : I3cList) (st : Status) (result : Nat) (s : State) : State :=
  let next := (s.port p).ready
  let s := endList p l st result s
  match next with
  | some n => runList p n s
  | none => s

/-- ABORTED_BY_TENANT. -/
def replaced : Status := ⟨0x34, 0, 0⟩

/-- An entry of Table ESP-2 is well formed; a private read only in an immediate list (R236). -/
def entryOk (immediate : Bool) (e : DWord) : Bool :=
  let n := e.toNat
  let op := bits n 0 4
  decide (op ≤ 3) && decide (1 ≤ bits n 24 3) && decide (bits n 24 3 ≤ 4) && (immediate || op != 1) &&
    bits n 11 5 == 0 && bits n 27 5 == 0

/-- ESP_I3C has read its list (R236): run at once, or staged in place of one not yet started. -/
def acceptList (id p : Nat) (entries : List DWord) (immediate : Bool) (s : State) : State :=
  match (List.range entries.length).find? (fun i => !entryOk immediate (entries[i]?.getD 0)) with
  | some i => finish id ⟨0x22, 6, i⟩ 0 s
  | none =>
    let l : I3cList := { flight := id, entries := entries, immediate := immediate, acceptedAt := s.tb }
    if immediate then
      if (s.port p).run.isSome then finish id ⟨0x24, 6, 0⟩ 0 s else startList p s.tb l s
    else
      let s := match (s.port p).staged with | some o => finish o.flight replaced 0 s | none => s
      s.updPort p (fun x => { x with staged := some l })

/-! ### Windows (R238 to R241) -/

/-- The last boundary at or before a time. -/
def lastBoundary (c : GroupCfg) (t : Nat) : Nat := t - (t + c.period - c.phase) % c.period

/-- The first boundary after a time. -/
def nextBoundary (c : GroupCfg) (t : Nat) : Nat := t + c.period - (t + c.period - c.phase) % c.period

/-- The window of a configuration that begins at a time. -/
def newBank (c : GroupCfg) (start : Nat) (settle : Bool) : Bank := { cfg := c, start := start, len := nextBoundary c start - start, settle := settle }

/-- The header of a finalised window (Table ESP-3). -/
def winHeader (g : Nat) (x : Group) (b : Bank) : List Nat :=
  let has := fun (l : List Nat) p => b2n (l.contains p)
  [x.seq % 2 ^ 32,
    g + 2 ^ 8 * b.epochs.1 + 2 ^ 16 * b.epochs.2 + 2 ^ 24 * has b.mixed 0 + 2 ^ 25 * has b.mixed 1 + 2 ^ 26 * has b.above 0 +
      2 ^ 27 * has b.above 1 + 2 ^ 28 * b2n b.settle + 2 ^ 29 * b2n b.lateIn,
    b.start % 2 ^ 32, b.start / 2 ^ 32, b.len, b.cfg.count + 65536 * min 65535 x.lost, b.sat.length, 0]

/-- The value of a tap: COUNT and SUM. -/
def Bank.tap (b : Bank) (i : Nat) : Nat := (mget b.counts i).getD 0 + 2 ^ 32 * unsigned 32 ((mget b.sums i).getD 0)

/-- Free entries of a tenant's window ring, none when it cannot be written. -/
def winRoom (s : State) (slot : Nat) (r : EvRing) : Nat :=
  match (s.ten slot).bind (fun t => t.fn) with
  | some f =>
    if (s.fn f).blocked || (s.fn f).wrStalled then 0
    else 2 ^ r.log - (s.twRd slot Reg.TW_WIN_TAIL + 2 ^ 32 - s.twRd slot Reg.TW_WIN_HEAD) % 2 ^ 32
  | none => 0

/-- Raise a ring's vector, at most once per 10 µs (R216, R241). -/
def ringVector (slot : Nat) (r : EvRing) (s : State) : Option State :=
  if (match r.lastVec with | some t => decide (t + 10 ≤ s.tb) | none => true) then some (raiseTen slot r.vec s) else none

/-- Write a finalised window into the ring, whole, with the tail after it (R241). -/
def ringWindow (slot : Nat) (r : EvRing) (hdr : List Nat) (taps : List Nat) (s : State) : State :=
  match (s.ten slot).bind (fun t => t.fn) with
  | none => s
  | some f =>
    let words := hdr ++ taps.flatMap (fun v => [v % 2 ^ 32, v / 2 ^ 32])
    let n := 1 + cdiv taps.length 4
    let tail := s.twRd slot Reg.TW_WIN_TAIL
    let s := (List.range n).foldl (fun s i =>
      let ws := (words.drop (8 * i)).take 8
      postWrite f (.raw slot (r.base + 32 * ((tail + i) % 2 ^ r.log)) (wordBytes (ws ++ List.replicate (8 - ws.length) 0))) s) s
    let next := (tail + n) % 2 ^ 32
    let s := (postWrite f (.raw slot r.wb (wordBytes [next])) s).twPut slot Reg.TW_WIN_TAIL next
    match ringVector slot r s with
    | some s => s.updTen slot (fun t => { t with winRing := some { r with lastVec := some s.tb } })
    | none => s

/-- A closing bank is finalised: its record goes to the tenant window and to the ring (R238, R241). -/
def finalise (g : Nat) (s : State) : State :=
  match mget s.groups g with
  | none => s
  | some x => match x.closing with
    | none => s
    | some b =>
      let hdr := winHeader g x b
      let taps := (List.range b.cfg.count).map (fun i => b.tap (b.cfg.first + i))
      let s := ((List.range 8).zip hdr).foldl (fun s (w : Nat × Nat) => s.twPut x.slot (Reg.TW_WIN_HDR g w.1) w.2) s
      let s := ((List.range taps.length).zip taps).foldl (fun s (t : Nat × Nat) => s.twPut x.slot (Reg.TW_TAP (b.cfg.first + t.1)) t.2) s
      let s := s.updGroup g (fun x => { x with seq := x.seq + 1, closing := none })
      match (s.ten x.slot).bind (fun t => t.winRing) with
      | none => s.updGroup g (fun x => { x with lost := x.lost + 1 })
      | some r =>
        if winRoom s x.slot r < 1 + cdiv taps.length 4 then
          (s.updGroup g (fun x => { x with lost := x.lost + 1 })).bump Reg.ESP_WIN_LOST
        else ringWindow x.slot r hdr taps (s.updGroup g (fun x => { x with lost := 0 }))

/-- The tenant window no longer shows a group's taps (R239, R241). -/
def zeroTaps (slot : Nat) (c : GroupCfg) (s : State) : State :=
  (List.range c.count).foldl (fun s i => s.twPut slot (Reg.TW_TAP (c.first + i)) 0) s

/-- Release a group: both banks and what it showed are zeroed (R239). -/
def freeGroup (g : Nat) (x : Group) (s : State) : State :=
  let s := (List.range 8).foldl (fun s w => s.twPut x.slot (Reg.TW_WIN_HDR g w) 0) (zeroTaps x.slot x.cfg s)
  { s with groups := mdel s.groups g }

/-- A settings gap is open on a port of a tenant. -/
def settlingFor (s : State) (slot : Nat) : Bool :=
  (List.range 2).any (fun p => portOwner s p == some slot && (s.port p).settling)

/-- Staged changes of a port whose governing group has this boundary take effect (R236, R242). -/
def portBoundary (g at_ p : Nat) (s : State) : State :=
  let s := match (s.port p).nextMap with
    | some (f, t, m) =>
      if m.group = g ∧ t + 5 ≤ at_ then
        finish f ⟨0, 0, 0⟩ 0 (advanceEpoch p at_ (s.updPort p (fun x => { x with map := some m, nextMap := none })))
      else s
    | none => s
  match (s.port p).staged, (s.port p).map with
  | some l, some m =>
    if m.group = g ∧ l.acceptedAt + 5 ≤ at_ then startList p at_ l (s.updPort p (fun x => { x with staged := none })) else s
  | _, _ => s

/-- A group's boundary (R238, R239): counting moves to the other bank, staged changes take effect. -/
def groupBoundary (g : Nat) (s : State) : State :=
  match mget s.groups g with
  | none => s
  | some x =>
    let stop := x.cur.start + x.cur.len
    if s.tb < stop then s
    else
      let s := finalise g s
      match mget s.groups g with
      | none => s
      | some x =>
        let closed := { x.cur with epochs := (epochAtEnd s 0 stop, epochAtEnd s 1 stop) }
        match x.next with
        | some none => freeGroup g x s
        | nx =>
          let c := match nx with | some (some c) => c | _ => x.cfg
          let s := if c = x.cfg then s else zeroTaps x.slot x.cfg s
          let s := { s with groups := mput s.groups g { x with
            cfg := c, next := none, cur := newBank c stop (settlingFor s x.slot), closing := some closed } }
          portBoundary g stop 1 (portBoundary g stop 0 s)

end Sys2Proof.Machine
end

