-- ==== Sys2Proof/Machine/OpsSpan.lean ====
section
/-! DEFINITION. Members of a span (13, R283). -/

namespace Sys2Proof.Machine

/-- The home sled of a span sends a transition to every member (R283): 1 park, 2 attach, 3 release, 4 dormant. -/
def spanOp (slot op : Nat) (s : State) : State :=
  match s.ten slot with
  | none => s
  | some t => t.members.foldl (fun s n => hieReq 0x7B n [t.id, op - 1, s.rdN Reg.ADM_START_SEQ] s) s

end Sys2Proof.Machine
end

