-- ==== Sys2Proof/Machine/OpsGate.lean ====
section
/-! DEFINITION. The Gatehouse (03): amounts, evaluation stages, the deferral queue, notices and cuts. -/

namespace Sys2Proof.Machine

/-! ### Amounts -/

/-- The spill area of a reservation, in 2 MiB units (R57). -/
def spillOf (cls hbm : Nat) : Nat := if cls = 0 then max (cdiv hbm 100) 32 else 32

/-- The amount of a resource in a vector; the slot counts 1 (Table ADM-3). -/
def Vec.amount (v : Vec) (spill n : Nat) : Nat :=
  match n with
  | 1 => v.hbm | 2 => v.orang | 3 => v.wr | 4 => v.ctx | 5 => v.clu | 6 => v.evc | 7 => v.link | 8 => v.energy
  | 9 => 1 | 10 => v.queues | 11 => spill | _ => 0

/-- Lower a resource of a vector. -/
def Vec.less (v : Vec) (n x : Nat) : Vec :=
  match n with
  | 1 => { v with hbm := v.hbm - x } | 2 => { v with orang := v.orang - x } | 3 => { v with wr := v.wr - x }
  | 4 => { v with ctx := v.ctx - x } | 5 => { v with clu := v.clu - x } | 6 => { v with evc := v.evc - x }
  | 7 => { v with link := v.link - x } | 8 => { v with energy := v.energy - x } | _ => v

/-- The resource is reserved for the class (Table ADM-3): the base for every class, the rest for RESERVED. -/
def reservedIn (cls n : Nat) : Bool := cls == 0 || n == 4 || n == 9 || n == 10 || n == 11

/-- What a tenant reserves of a resource. -/
def Tenant.resv (t : Tenant) (n : Nat) : Nat :=
  if t.st != .releasing && reservedIn t.cls n then t.vec.amount t.spill n else 0

/-- Reserved amounts pool HBM and spill under resource 1 (R556). -/
def pooled (f : Nat → Nat) (n : Nat) : Nat := if n = 1 then f 1 + f 11 else f n

/-- ADM_RESV (Table ADM-10, R556), span holds included (13, R282). -/
def admResv (s : State) (n : Nat) : Nat :=
  sumOf s.adm.tenants (fun t => pooled t.2.resv n) + sumOf s.adm.holds (fun h => pooled (fun n => if reservedIn h.cls n then h.held.amount h.spill n else 0) n)

/-- Bytes of ORPHAN pages in a tier (05, R118). -/
def orphanBytes (s : State) (t : Nat) : Nat := sumOf s.pfx.orphans (fun o => o.2.useIn t)

/-- ADM_ZERO (R71, R118, R556). -/
def admZero (s : State) (n : Nat) : Nat :=
  pooled (fun n => sumOf s.adm.zero (fun z => if n = 9 then b2n z.slot.isSome else z.vec.amount z.spill n)) n +
    (if n = 1 then cdiv (orphanBytes s 1) unit2M else if n = 2 then cdiv (orphanBytes s 2) (2 ^ 30) else 0)

/-- ADM_CAP; spill shows the HBM pool (R556). -/
def admCap (s : State) (n : Nat) : Nat := s.rdN (Reg.ADM_CAP (if n = 11 then 1 else n))

/-- ADM_FREE: what remains, or 0 (R74). -/
def admFree (s : State) (n : Nat) : Nat :=
  let n := if n = 11 then 1 else n
  admCap s n - admResv s n - admZero s n

/-- What remains of a function's quota (R62): tenants whose function of record it is count. -/
def quotaFree (s : State) (f n : Nat) : Nat :=
  let n := if n = 11 then 1 else n
  s.rdN (Reg.ADM_QUOTA f n) - sumOf s.adm.tenants (fun t => if t.2.recFn = f then pooled t.2.resv n else 0)

/-- The vector a request asks for. -/
def reqVec (r : AdmReq) : Vec := ⟨r.hbm, r.orang, r.wr, r.ctx, r.clu, r.evc, r.link, r.energy, r.queues⟩

/-- The order of resources at stages 3 and 4. -/
def resOrder : List Nat := [9, 1, 11, 2, 3, 4, 5, 6, 10, 7, 8]

/-! ### Stages of Table ADM-7 -/

/-- Stage 1 for the vector: the first offending field's resource, by offset of the record (R62). -/
def badField (s : State) (cls : Nat) (v : Vec) : Option Nat :=
  (([(1, decide (admCap s 1 < v.hbm)), (2, decide (admCap s 2 < v.orang)), (3, decide (admCap s 3 < v.wr)),
    (4, decide (16384 < v.ctx)), (5, decide (2048 < v.clu)), (6, decide (512 < v.evc) || (cls != 0 && v.evc != 0)),
    (10, decide (v.queues < 1) || decide (16 < v.queues)), (7, decide (255 < v.link)),
    (8, decide (0xFFFFFFFF < v.energy) || (cls == 0 && v.energy == 0xFFFFFFFF))] : List (Nat × Bool)).find? (fun p => p.2)).map (·.1)

/-- A policy rule's first three words. -/
structure Rule where
  fnMask : Nat
  w1 : Nat
  cap : Nat

/-- Rule `i` (Table ADM-11). -/
def ruleAt (s : State) (i : Nat) : Rule := ⟨s.rdN (Reg.ADM_POLICY i 0), s.rdN (Reg.ADM_POLICY i 1), s.rdN (Reg.ADM_POLICY i 2)⟩

def Rule.action (r : Rule) : Nat := bits r.w1 1 2
def Rule.res (r : Rule) : Nat := bits r.w1 19 8

/-- The rule matches a request (R63). -/
def Rule.hits (r : Rule) (f cls dom : Nat) : Bool :=
  r.w1.testBit 0 && r.fnMask.testBit f && (bits r.w1 3 3).testBit cls && (r.w1.testBit 6 || bits r.w1 7 12 == dom)

/-- The resource a refusal by a rule names. -/
def Rule.names (r : Rule) : Nat := if 1 ≤ r.res ∧ r.res ≤ 11 then r.res else 0

/-- Stage 2 without the domain rule: the first DENY or CAP rule that refuses (R63). -/
def policyRefusal (s : State) (f cls dom : Nat) (v : Vec) (spill : Nat) : Option Status :=
  (List.range 64).findSome? (fun i =>
    let r := ruleAt s i
    if !r.hits f cls dom then none
    else if r.action = 0 ∨ (r.action = 1 ∧ r.cap < v.amount spill r.names) then some ⟨0x22, r.names, i⟩
    else none)

/-- The domain rule for ADMIT (R63). -/
def domainRefusal (s : State) (f cls dom : Nat) : Option Status :=
  if f = 0 ∨ dom = 0 ∨ (List.range 64).any (fun i => (ruleAt s i).action == 2 && (ruleAt s i).hits f cls dom) then none
  else some ⟨0x22, 0, 0xFFFE⟩

/-- The resources short of what is wanted, in order, each with its shortfall; HBM and spill share a pool (R556). -/
def shorts (avail want : Nat → Nat) : List (Nat × Nat) :=
  resOrder.filterMap (fun n =>
    let w := if n = 11 then want 1 + want 11 else want n
    if n = 11 ∧ want 11 = 0 then none
    else if avail n < w then some (n, w - avail n) else none)

/-- Stage 4 with the key range, checked together with EVENT_CORES: short by 1 when no block is free (10, R208). -/
def shorts4 (s : State) (keys cores : Nat) (want : Nat → Nat) : List (Nat × Nat) :=
  let l := shorts (admFree s) want
  if keyShort s keys cores && !l.any (fun p => p.1 == 6) then
    let before := fun (p : Nat × Nat) => p.1 != 10 && p.1 != 7 && p.1 != 8
    l.filter before ++ (6, 1) :: l.filter (fun p => !before p)
  else l

/-- What an ADMIT wants reserved. -/
def wanted (cls : Nat) (v : Vec) (n : Nat) : Nat := if reservedIn cls n then v.amount (spillOf cls v.hbm) n else 0

/-- The IDs of the pool not in use, lowest first (R54; log entry 25). -/
def freeId (s : State) : Option Nat :=
  let used := usedIds s
  s.adm.pool.findSome? (fun b => (List.range (min b.2 (used.length + 1))).findSome? (fun i =>
    if used.contains (b.1 + i) then none else some (b.1 + i)))

/-- A slot for a tenant admitted through a function (R309). -/
def slotFor (s : State) (f : Nat) : Option Nat :=
  let used := s.adm.tenants.map (·.1)
  if f = 0 then (List.range (min 1024 s.bar2)).find? (fun i => !used.contains i)
  else (List.range 1024).reverse.find? (fun i => !used.contains i)

/-- Requests of a function in the deferral queue (R61). -/
def deferredOf (s : State) (f : Nat) : Nat := (s.adm.deferred.filter (fun d => d.mb.fn == f)).length

/-- The function's notice ring has room for one more reserved entry (R61, R64). -/
def noticeRoom (s : State) (f : Nat) : Bool :=
  let n := s.fn f
  decide ((n.ntcProd + 2 ^ 32 - n.ntcCons) % 2 ^ 32 + deferredOf s f < 256)

/-- Write a notice into a function's ring and raise its admission vector (R61). -/
def notice (f : Nat) (r : Reply) (s : State) : State :=
  raiseVec f 0 (s.updFn f (fun n =>
    { n with notices := mput n.notices (n.ntcProd % 256) r, ntcProd := (n.ntcProd + 1) % 2 ^ 32 }))

/-- The state code of Table ADM-1. -/
def TState.code : TState → Nat
  | .active => 1 | .parked => 2 | .dormant => 3 | .releasing => 4

/-- A refusal's code for a short resource. -/
def shortCode (n : Nat) : Nat := if n = 8 then 0x23 else 0x20

/-! ### Tenants coming and going -/

/-- Bind a tenant's queues to engines (R188): the lowest free global numbers, each on the lowest engine not retired
with room (log entry 25). -/
def bindQueues (s : State) (n : Nat) : Map Queue :=
  let taken := (s.adm.tenants.map (fun t => t.2.queues.map (fun q => q.2))).flatten
  let go := fun (acc : List (Nat × Nat)) (_ : Nat) =>
    let gid := lowestFree (taken.map (·.gid) ++ acc.map (·.1)) 0
    let load := fun e => (taken.filter (fun q => q.engine == e)).length + (acc.filter (fun a => a.2 == e)).length
    let eng := ((List.range 64).find? (fun e => decide (load e < 64) && !(s.bit (Reg.QUE_ENG_STATUS e) 15) && !s.flt.quarantined.contains (5, e))).getD 0
    acc ++ [(gid, eng)]
  let l := (List.range n).foldl go []
  (List.range l.length).zip (l.map (fun a => ({ gid := a.1, engine := a.2 } : Queue)))

/-- Add queues to a tenant whose QUEUES rose. -/
def moreQueues (s : State) (t : Tenant) (n : Nat) : Map Queue :=
  let have_ := t.queues.length
  t.queues ++ ((bindQueues s (n - have_)).map (fun q => (q.1 + have_, q.2)))

/-- Seconds left in the accounting period (20, R425). -/
def periodLeft (s : State) : Nat :=
  let p := s.rdN Reg.NRG_PERIOD_S * 1000000
  p - s.tb % p

/-- The budget of a tenant admitted now (20, R426). -/
def firstBudget (s : State) (energy : Nat) : Nat :=
  if energy = 0xFFFFFFFF then energy else energy * periodLeft s / (s.rdN Reg.NRG_PERIOD_S * 1000000)

/-- Draw an attach token that is not 0 (03). -/
def drawToken (s : State) : DWord × State :=
  let (n, s) := s.draw
  (BitVec.ofNat 64 (n % (2 ^ 64 - 1) + 1), s)

/-- Enter a new tenant in a slot (R55, R188; 20, R426). -/
def enter (f slot id : Nat) (r : AdmReq) (s : State) : State :=
  let (tok, s) := drawToken s
  let t : Tenant := {
    id := id, cls := r.cls, prio := r.prio, domain := r.domain, vec := reqVec r, spill := spillOf r.cls r.hbm,
    token := tok, recFn := f, fn := some f, admSeq := s.adm.nextAdm, admAt := s.tb, holdS := r.holdS,
    grants := [⟨s.adm.nextAdm, reqVec r⟩], queues := bindQueues s r.queues }
  let s := { s.setTen slot t with adm := { (s.setTen slot t).adm with nextAdm := s.adm.nextAdm + 1 } }
  evResize slot (s.twPut slot Reg.TW_NRG_BUDGET_J (firstBudget s r.energy))

/-! ### Parking (R68) -/

/-- Flush a DURABLE object on the engine's own account (04, R95). -/
def autoFlush (slot idx : Nat) (s : State) : State :=
  let (id, s) := s.fresh
  { s with flights := s.flights ++ [{ id := id, slot := slot, queue := 0, src := .auto, op := 4, cmdId := 0, irq := false, post := false, args := [idx] }] }

/-- Freeze a context at parking (R130). -/
def Ctx.freeze (c : Ctx) : Ctx :=
  if c.st = .frozen then c
  else { c with st := .frozen, images := [], frozenFrom := if c.st = .running then .ready else c.st }

/-- Park a tenant: grace starts, queues stop and lose their rings, programs stop at their next fence, contexts
freeze, DURABLE objects are flushed, events are cut off, and span members follow (R68, R95, R189, R201, R229,
R283). A PARK is a fence point, so a sleeping program stops at once. -/
def parkTenant (slot : Nat) (s : State) : State :=
  match s.ten slot with
  | none => s
  | some t =>
    if t.st ≠ .active then s
    else
      let s := s.traceRec 4 3 0xFFFF [t.id, slot]
      let s := rehold (t.fn.getD 0) (· == slot) s
      let s := s.updTen slot fun t => { t with
        st := .parked, fn := none, graceAt := some (s.tb + s.rdN Reg.ADM_GRACE * 1000000),
        queues := mmap t.queues (fun _ q => { q with st := .stopped, cfg := {}, commit := none, slotWait := false, replaying := 0 }) }
      let s := { s with progs := mmap s.progs (fun _ p =>
        if p.slot = slot ∧ p.step.isNone then
          (if p.parked.isSome then { p with parked := none, stopped := true } else { p with stopReq := some s.tb })
        else p) }
      let s := { s with sch := { s.sch with ctxs := mmap s.sch.ctxs (fun _ c => if c.slot = slot then c.freeze else c) } }
      let s := (t.objs.filter (fun o => o.2.flag 10 && !o.2.freed)).foldl (fun s o => autoFlush slot o.1 s) s
      spanOp slot 1 (evPark slot s)

/-- Re-attach a tenant through a function: queues become UNCONFIGURED, contexts thaw (R70, R130, R189). -/
def attachTenant (slot f : Nat) (s : State) : State :=
  let s := s.traceRec 5 3 0xFFFF [((s.ten slot).map (·.id)).getD 0, slot]
  let s := s.updTen slot (fun t => { t with
    st := .active, fn := some f, recFn := f, graceAt := none,
    queues := mmap t.queues (fun _ q => { q with st := .unconfigured }) })
  let s := (ctxsOf s slot).foldl (fun s c =>
    match s.ctx c with
    | some x =>
      if x.st ≠ .frozen then s
      else if x.step.isSome then s.updCtx c (fun x => { x with st := .running, frozenFrom := .idle })
      else if x.frozenFrom = .ready then becomeReady c (s.updCtx c (fun x => { x with frozenFrom := .idle }))
      else s.updCtx c (fun x => { x with st := .idle })
    | none => s) s
  spanOp slot 2 (evAttach slot s)

/-! ### Release and zeroisation (R69, R71) -/

/-- What of a tenant's capacity is zeroised: its reservation, or for the other classes what it held. -/
def zeroVec (s : State) (slot : Nat) (t : Tenant) : Vec :=
  if t.cls = 0 then t.vec
  else { hbm := cdiv (tierUse s slot 1) unit2M, orang := cdiv (tierUse s slot 2 + durableUse s slot) (2 ^ 30), ctx := t.vec.ctx, queues := t.vec.queues }

/-- The source of a command whose program has ended. -/
def CmdSrc.outlive : CmdSrc → CmdSrc
  | .prog t => .prog (t % 65536 + 65536)
  | c => c

/-- A queue program ends: its QPROG_RUN completes with a status and RESULT (R202). -/
def endProg (key : Nat) (st : Status) (result : Nat) (s : State) : State :=
  match mget s.progs key with
  | none => s
  | some p => finish p.flight st result { s with
      progs := mdel s.progs key
      flights := updWhere s.flights (fun f => progKey f.slot f.queue == key) (fun f => { f with src := f.src.outlive })
      launches := mmap s.launches (fun _ l => if l.prog = key then { l with token := l.token % 65536 + 65536 } else l) }

/-- Every program of a slot's queues ends with a status. -/
def endProgs (slot : Nat) (st : Status) (s : State) : State :=
  ((s.progs.filter (fun p => p.2.slot == slot && p.2.step.isNone)).map (·.1)).foldl (fun s k => endProg k st 0 s) s

/-- Every command in flight of a slot ends with a status. -/
def endFlights (slot : Nat) (st : Status) (s : State) : State :=
  ((s.flights.filter (fun f => f.slot == slot)).map (·.id)).foldl (fun s i => finish i st 0 s) s

/-- Release a tenant (R71): work ends ABORTED_BY_TENANT, published blocks become orphans, every allocation goes, the
token is destroyed, and zeroisation begins. -/
def releaseTenant (slot : Nat) (s : State) : State :=
  match s.ten slot with
  | none => s
  | some _ =>
    let st : Status := ⟨0x34, 0, 0⟩
    let s := stopLaunches slot st s
    let s := (ctxsOf s slot).foldl (fun s c => freeCtx c (leaveStep c (abortTurns c st s))) s
    let s := endFlights slot st (endProgs slot st s)
    let s := (s.sch.models.filter (fun m => m.2.slot == slot)).foldl (fun s m =>
      match handleObj s m.2.handle with | some (o, i) => endLease o i 0 false s | none => s) s
    let s := { s with sch := { s.sch with models := s.sch.models.filter (fun m => m.2.slot != slot) },
                      reads := s.reads.filter (fun r => r.slot != slot) }
    let s := spanOp slot 3 (evLeave true slot s)
    match s.ten slot with
    | none => s
    | some t =>
      let z := zeroVec s slot t
      let s := orphan slot (fun _ => false) s
      let s := dropMoves (fun m => m.slot == slot) s
      let s := { s with adm := { s.adm with zero := s.adm.zero.filter (fun z => !(match z.obj with | some o => o.1 == slot | none => false)) } }
      let s := s.updTen slot (fun t => { t with
        st := .releasing, fn := none, graceAt := none, token := 0, objs := [], regions := [], held := [], heldResv := 0,
        vec := {}, spill := 0, grants := [], queues := mmap t.queues (fun _ q => { q with st := .stopped, cfg := {}, commit := none }) })
      startZero ⟨0, some slot, z, t.spill, none, none⟩ s

/-- The vector a DORMANT tenant keeps (R69). -/
def dormantVec (s : State) (slot : Nat) (t : Tenant) : Vec :=
  let dur := t.objs.filter (fun o => o.2.flag 10)
  { hbm := cdiv (sumOf dur (fun o => o.2.useIn 1)) unit2M,
    orang := cdiv (sumOf dur (fun o => o.2.useIn 2) + durableUse s slot) (2 ^ 30),
    ctx := (s.sch.ctxs.filter (fun c => c.2.slot == slot && c.2.durable)).length,
    queues := t.vec.queues }

/-- The difference of two vectors in what is zeroised: memory, records and cores. -/
def vecCut (a b : Vec) : Vec := { hbm := a.hbm - b.hbm, orang := a.orang - b.orang, ctx := a.ctx - b.ctx, evc := a.evc - b.evc }

/-- A DURABLE object that outlives grace: with the contents of its last FLUSH (04, R95). The host regions go, so pages there
move to their image, or are poisoned where there is none. -/
def Obj.graced (o : Obj) : Obj :=
  let fix := fun (p : Page) =>
    if o.durable.isSome then { p with tier := if p.tier = 3 then 2 else p.tier, loc := if p.tier = 3 then 0 else p.loc, poison := false }
    else if p.tier = 3 then { p with loc := p.loc % 64 + 64, poison := true } else p
  { o with
    data := match o.durable with | some d => d.data | none => o.data
    base := fix o.base, pages := mmap o.pages (fun _ p => fix p) }

/-- Grace ends (R52, R69, R202): programs are discarded, contexts and allocations that are not DURABLE go, and the
tenant becomes DORMANT with its vector cut, or RELEASING when nothing DURABLE remains. -/
def endGrace (slot : Nat) (s : State) : State :=
  let st : Status := ⟨0x31, 9, 0⟩
  let s := endProgs slot st s
  let lost := (ctxsOf s slot).filter (fun c => ((s.ctx c).map (fun x => !x.durable)).getD false)
  let s := lost.foldl (fun s c => freeCtx c (leaveStep c (abortTurns c st s))) s
  match s.ten slot with
  | none => s
  | some t =>
    let keep := fun (o : Obj) => o.flag 10
    if t.objs.any (fun o => keep o.2) || !(ctxsOf s slot).isEmpty then
      let s := orphan slot (fun b => ((s.obj slot b).map keep).getD false) s
      let z := zeroVec s slot t
      let s := ((((s.ten slot).map (fun t => t.objs)).getD []).filter (fun o => !keep o.2)).foldl (fun s o => freeObj slot o.1 s) s
      let v := dormantVec s slot t
      let spill := spillOf t.cls v.hbm
      let s := s.updTen slot (fun t => { t with
        st := .dormant, graceAt := none, vec := v, spill := spill, grants := [⟨t.admSeq, v⟩], regions := [],
        objs := mmap t.objs (fun _ o => if keep o then o.graced else o) })
      spanOp slot 4 (evLeave false slot (startZero ⟨0, none, vecCut z v, t.spill - spill, none, none⟩ s))
    else releaseTenant slot s

/-! ### Reservation cuts (R74, R75) -/

/-- The largest HBM amount that fits with its spill in `t` units (R57). -/
def maxHbm (t : Nat) : Nat := min (t - 32) (100 * t / 101)

/-- Cut one grant of a resource toward the deficit. -/
def cutGrant (n slot : Nat) (g : Grant) (s : State) : State :=
  match s.ten slot with
  | none => s
  | some t =>
    let deficit := admResv s n - admCap s n
    let a := g.vec.amount 0 n
    let c :=
      if n = 1 then
        let x := max (t.vec.hbm - a) (maxHbm (t.vec.hbm + t.spill - deficit))
        t.vec.hbm - x
      else min a (min deficit (t.vec.amount 0 n))
    if deficit = 0 ∨ c = 0 then s
    else
      let v := t.vec.less n c
      s.setTen slot { t with
        vec := v, spill := spillOf t.cls v.hbm,
        grants := updWhere t.grants (fun x => x.seq == g.seq) (fun x => { x with vec := x.vec.less n c }) }

/-- Send a reduction notice: to the attaching function's ring, or held on queue 0 for a tenant attached to none; a
notice without room is counted (R61, R75; 09, R197). -/
def reduceNotice (n slot : Nat) (s : State) : State :=
  match s.ten slot with
  | none => s
  | some t =>
    let amount := t.vec.amount t.spill n
    let st : Status := ⟨0x14, n, amount⟩
    let s := s.outcome slot st
    match t.fn with
    | some f =>
      if noticeRoom s f then
        notice f { status := st.word, op := 0x82, amount := amount, tenantId := t.id, slot := slot, st := t.st.code } s
      else s.bump32 Reg.ADM_NTC_DROP
    | none =>
      if 0 < s.heldFree slot then produce slot 0 false { status := st.word, cmdId := 0, kind := 5, result := amount } s
      else s.bump32 Reg.ADM_NTC_DROP

/-- Cut a resource's reservations, newest grant first, until they fit; then demote what is held above (R74). -/
def cutResource (n : Nat) (s : State) : State :=
  let grants := (s.adm.tenants.filter (fun t => t.2.cls == 0 && t.2.st != .releasing)).map (fun t => t.2.grants.map (fun g => (t.1, g)))
  let order := sortBy (fun a b => decide (b.2.seq ≤ a.2.seq)) grants.flatten
  let before := s.adm.tenants.map (fun t => (t.1, t.2.vec.amount 0 n))
  let s := order.foldl (fun s g => cutGrant n g.1 g.2 s) s
  let hit := (before.filter (fun b => decide (((s.ten b.1).map (fun t => t.vec.amount 0 n)).getD b.2 < b.2))).map (·.1)
  let s := hit.foldl (fun s t => reduceNotice n t s) s
  if n = 1 ∧ freeT1 s = 0 then demoteExcess (demoteOrder s) s else s

/-! ### Deferral (R64 to R66) -/

/-- Entries by PRIO from 3 down, in arrival order within each. -/
def deferIns (d : Deferred) : List Deferred → List Deferred
  | [] => [d]
  | e :: r => if e.mb.req.prio < d.mb.req.prio then d :: e :: r else e :: deferIns d r

/-- The first short resource of an entry now, and its shortfall. -/
def entryShort (s : State) (r : AdmReq) : Option (Nat × Nat) := (shorts4 s 0 r.evc (wanted r.cls (reqVec r))).head?

/-- Time until every request of the list fits, in ms (R66): declared releases return what their tenants reserve. -/
def estWait (s : State) (ahead : List AdmReq) : Nat :=
  let want := fun n => sumOf ahead (fun r => wanted r.cls (reqVec r) n)
  let rel := sortBy (fun a b => decide (a.1 ≤ b.1))
    ((s.adm.tenants.filter (fun t => t.2.holdS != 0 && t.2.st != .releasing)).map (fun t =>
      (max s.tb (t.2.admAt + t.2.holdS * 1000000), t.2)))
  let fits := fun k => (shorts (fun n => admFree s n + sumOf (rel.take k) (fun t => pooled t.2.resv (if n = 11 then 1 else n))) want).isEmpty
  match (List.range (rel.length + 1)).find? fits with
  | none => 0xFFFFFFFF
  | some 0 => 0
  | some k => min 0xFFFFFFFE (cdiv (((rel.drop (k - 1)).head?.map (·.1)).getD s.tb - s.tb) 1000)

/-- The reply fields that name a tenant. -/
def aboutTen (s : State) (slot : Nat) (r : Reply) : Reply :=
  match s.ten slot with
  | some t => { r with tenantId := t.id, slot := slot, st := t.st.code, spill := t.spill }
  | none => { r with slot := slot }

/-- The slot's token, for the reply that issues it. -/
def tokenOf (s : State) (slot : Nat) : DWord := ((s.ten slot).map (fun t => t.token)).getD 0

/-- A tenant comes in through a function; where its lease has expired it is parked at once (R73, R319). -/
def settle (f slot : Nat) (s : State) : State := if (s.fn f).leaseLive then s else parkTenant slot s

/-- The sled is in host-absent mode (15, R320). -/
def hostAbsent (s : State) : Bool := s.bit Reg.HIF_HOST_ABSENT 0

/-- ADMIT and ATTACH through this function are refused REFUSED_BUSY (R55, R65, R320). -/
def fnBusy (s : State) (f : Nat) : Bool := f != 0 && ((s.attachedVia f).isSome || hostAbsent s)

/-- A deferred request ends refused: its notice takes the reserved entry (R61, R65, R66). -/
def deferRefused (d : Deferred) (st : Status) (amount : Nat) (s : State) : State :=
  notice d.mb.fn { status := st.word, op := 0x81, seq := d.mb.req.seq, amount := amount, ticket := d.ticket } (s.fnOutcome d.mb.fn st)

/-- Re-evaluate the deferral queue from its head (R65). The fuel is its length. -/
def reevaluate : Nat → State → State
  | 0, s => s
  | k + 1, s =>
    match s.adm.deferred with
    | [] => s
    | d :: r =>
      let s' := { s with adm := { s.adm with deferred := r } }
      let q := d.mb.req
      if fnBusy s d.mb.fn then
        reevaluate k (deferRefused d ⟨0x24, 9, 0⟩ 0 s')
      else
        match entryShort s q, slotFor s d.mb.fn, freeId s with
        | none, some slot, some id =>
          let s1 := settle d.mb.fn slot (enter d.mb.fn slot id q s')
          let s1 := s1.outcome slot ⟨0, 0, 0⟩
          reevaluate k (notice d.mb.fn (aboutTen s1 slot { op := 0x81, seq := q.seq, ticket := d.ticket, token := tokenOf s1 slot }) s1)
        | _, _, _ => s

/-- At an admission evaluation ADM_CAP withholds what the lending pool of a tier takes, which does not fall below what is lent (13,
R284). -/
def withholdLent (s : State) : State :=
  let used := fun (t unit : Nat) => cdiv (sumOf s.lnk.lent (fun x => if x.tier = t then cdiv x.stored 4096 * 4096 else 0)) unit
  let c1 := s.rdN (Reg.ADM_CAP 1) + s.adm.lentCap.1
  let c2 := s.rdN (Reg.ADM_CAP 2) + s.adm.lentCap.2
  let l1 := min c1 (max (s.rdN Reg.HIE_LEND_T1) (used 1 unit2M))
  let l2 := min c2 (max (s.rdN Reg.HIE_LEND_T2) (used 2 (2 ^ 30)))
  { (s.putN (Reg.ADM_CAP 1) (c1 - l1)).putN (Reg.ADM_CAP 2) (c2 - l2) with adm := { s.adm with lentCap := (l1, l2) } }

/-- Re-evaluate the whole queue. -/
def reevaluateAll (s : State) : State := if s.adm.deferred.isEmpty then s else reevaluate s.adm.deferred.length (withholdLent s)

end Sys2Proof.Machine
end

