-- ==== Sys2Proof/Machine/OpsHold.lean ====
section
/-! DEFINITION. Span transactions (13, R282, R289): what a member holds, and how a request starts one. -/

namespace Sys2Proof.Machine

/-- Some field is raised (R62). -/
def raises (old new : Vec) : Bool := [1, 2, 3, 4, 5, 6, 7, 8, 10].any (fun n => decide (old.amount 0 n < new.amount 0 n))

/-- The request record's words 0x08 to 0x20 as a vector (03, Table ADM-5). -/
def vecOfWords (w : List Nat) : Vec :=
  let x := fun i => w.getD i 0
  ⟨x 0, x 1, x 2, x 3, x 4, bits (x 5) 0 16, bits (x 5) 24 8, x 6, bits (x 5) 16 8⟩

/-- The words of a vector. -/
def Vec.words (v : Vec) : List Nat :=
  [v.hbm, v.orang, v.wr, v.ctx, v.clu, v.evc % 65536 + 65536 * (v.queues % 256) + 16777216 * (v.link % 256), v.energy]

/-- A vector's amounts above another's. -/
def Vec.above (a b : Vec) : Vec :=
  ⟨a.hbm - b.hbm, a.orang - b.orang, a.wr - b.wr, a.ctx - b.ctx, a.clu - b.clu, a.evc - b.evc, a.link - b.link, a.energy - b.energy,
    a.queues - b.queues⟩

/-- The key range of a hold is free here. -/
def keysFree (s : State) (id keys : Nat) : Bool :=
  let base := bits keys 0 20
  let log := bits keys 20 5
  log == 0 || s.adm.tenants.all (fun t =>
    t.2.id == id || keyLog s t.1 == 0 || decide (base + 2 ^ log ≤ keyBase s t.1) || decide (keyBase s t.1 + 2 ^ keyLog s t.1 ≤ base))

/-- A member evaluates stage 4 and holds the capacity if it passes: its vote and AMOUNT (R282). -/
def spanEval (h : SpanHold) (s : State) : Status × Nat × State :=
  let s := withholdLent s
  let old := ((s.slotOf h.id).bind s.ten)
  let cls := if h.modify then ((old.map (·.cls)).getD h.cls) else h.cls
  let oldVec : Vec := if h.modify then (old.map (·.vec)).getD {} else {}
  let oldSpill := if h.modify then (old.map (·.spill)).getD 0 else 0
  let up := h.vec.above oldVec
  let spill := spillOf cls h.vec.hbm - oldSpill
  let want := fun n => if n = 9 then (if h.modify then 0 else 1) else if reservedIn cls n then up.amount spill n else 0
  if h.modify && old.isNone then (⟨0x22, 9, 0xFFFF⟩, 0, s)
  else match (shorts (admFree s) want).head? with
    | some (n, x) => (⟨shortCode n, n, x⟩, x, s)
    | none =>
      if !keysFree s h.id h.keys then (⟨0x20, 6, 1⟩, 1, s)
      else if !h.modify && (slotFor s 1).isNone then (⟨0x20, 9, 1⟩, 1, s)
      else (⟨0, 0, 0⟩, 0, { s with adm := { s.adm with holds := s.adm.holds ++ [{ h with cls := cls, held := up, spill := spill, since := s.tb }] } })

/-- The level whose manager handles a span: the lowest scope that holds every member (R269). -/
def spanLevel (s : State) (ms : List Nat) : Nat := if ms.all (inScope s 0) then 0 else if ms.all (inScope s 1) then 1 else 2

/-- The nodes of TW_MB_SPAN. -/
def spanNodes (s : State) (f : Nat) : List Nat :=
  (List.range (s.fnRd f Reg.TW_MB_SPAN_CNT)).map (fun k => bits (s.fnRd f (Reg.TW_MB_SPAN (k / 2))) (16 * (k % 2)) 16)

/-- Begin a span transaction for a request that passed stages 1 to 3 (R282): none when no manager is reachable, its firmware restarts
(R290) or this sled's JOIN is refused (R275). Where this
sled is the span's manager it sends SPAN_HOLD to every member and evaluates its own; a request to another manager has no
TYPE (log entry 80). -/
def spanBegin (mb : MbReq) (slot : Option Nat) (s : State) : Option State :=
  let ms := ownNode s :: spanNodes s mb.fn
  let l := spanLevel s ms
  let ask := fun (mgr : Nat) (s : State) =>
    { s with hie := { s.hie with asks := s.hie.asks.filter (fun (a : SpanAsk) => a.mb.fn != mb.fn) ++ [⟨mb, slot, ms, mgr, s.tb⟩] } }
  if s.fwDown || outcast s || (mget s.hie.stall l).isSome then none
  else if manages s l then
    match (match slot.bind s.ten with | some t => some t.id | none => freeId s) with
    | none => none
    | some id =>
      let v := reqVec mb.req
      let keys := if slot.isNone ∧ v.evc ≠ 0 then ((freeKeys s (keyNeed v.evc)).map (fun b => b + 2 ^ 20 * keyNeed v.evc)).getD 0
        else (slot.map (fun i => s.twRd i Reg.TW_EV_KEYS)).getD 0
      let txn := s.hie.nextTxn
      let h : SpanHold := {
        txn := txn, mgr := ownNode s, id := id, keys := keys, modify := slot.isSome, cls := mb.req.cls, domain := mb.req.domain, vec := v,
        held := {}, spill := 0, since := s.tb }
      let (st, x, s) := spanEval h (ask (ownNode s) s)
      let t : SpanTxn := { txn := txn, members := ms, votes := [(ownNode s, st, x)], since := s.tb }
      let s := { s with hie := { s.hie with spans := s.hie.spans ++ [t], nextTxn := (txn + 1) % 2 ^ 32 } }
      some (ms.tail.foldl (fun s n =>
        hieReq 0x78 n ([id, txn, b2n slot.isSome + 4 * mb.req.cls, mb.req.domain, keys] ++ v.words) s) s)
  else match mgrNode s l with
    | some m => some ((ask m s).emit (.link 0 m ([mb.op] ++ ms)))
    | none => none

end Sys2Proof.Machine
end

