-- ==== Sys2Proof/Machine/OpsMail.lean ====
section
/-! DEFINITION. The admission mailbox (03, R59 to R66, R70 to R73, R554): how each operation is answered. -/

namespace Sys2Proof.Machine

/-- What the Gatehouse answers: the reply, the state, and the slot whose counters take the outcome. -/
structure Answer where
  st : Status
  reply : Reply := {}
  state : State
  slot : Option Nat := none
  /-- The answer is still to come (a span transaction). -/
  later : Bool := false

/-- A refusal that changes nothing. -/
def refuse (s : State) (code res detail : Nat) (amount : Nat := 0) (full : Bool := false) : Answer :=
  { st := ⟨code, res, detail⟩, reply := { amount := amount, deferFull := full }, state := s }

/-- The status of a deferral, with the queue position. -/
def deferReply (s : State) (d : Deferred) : Status × Reply :=
  let pos := (s.adm.deferred.takeWhile (fun e => e.ticket != d.ticket)).length + 1
  let head := match entryShort s d.mb.req with
    | some e => some e
    | none => s.adm.deferred.head?.bind (fun h => entryShort s h.mb.req)
  (⟨0x10, (head.map (·.1)).getD 0, pos⟩,
    { amount := pos, ticket := d.ticket, queuePos := pos,
      estWaitMs := estWait s ((s.adm.deferred.take pos).map (fun e => e.mb.req)) })

/-- Stages 1 to 3 of an ADMIT (R62, R63). -/
def admitStages (s : State) (f : Nat) (r : AdmReq) : Option (Status × Nat) :=
  let v := reqVec r
  if 3 ≤ r.cls then some (⟨0x22, 0, 0xFFFF⟩, 0)
  else match badField s r.cls v with
    | some n => some (⟨0x22, n, 0xFFFF⟩, 0)
    | none => match policyRefusal s f r.cls r.domain v (spillOf r.cls v.hbm) with
      | some t => some (t, 0)
      | none => match domainRefusal s f r.cls r.domain with
        | some t => some (t, 0)
        | none => match (shorts (quotaFree s f) (wanted r.cls v)).head? with
          | some (n, x) => some (⟨0x21, n, x⟩, x)
          | none => none

/-- A short resource whose amount is within the capacity in service can be met some day (R64). -/
def canEver (s : State) (r : AdmReq) (n : Nat) : Bool :=
  let w := wanted r.cls (reqVec r)
  decide ((if n = 11 then w 1 + w 11 else w n) ≤ admCap s n)

/-- The request names a span (13, R282). -/
def spans (s : State) (mb : MbReq) : Bool :=
  let n := s.fnRd mb.fn Reg.TW_MB_SPAN_CNT
  decide (1 ≤ n ∧ n ≤ 63)

/-- ADMIT (R62 to R64, R73). -/
def answerAdmit (mb : MbReq) (s : State) : Answer :=
  let r := mb.req
  let f := mb.fn
  if fnBusy s f then refuse s 0x24 9 0
  else match admitStages s f r with
    | some (t, x) => refuse s t.code t.res t.detail x
    | none =>
      if spans s mb then
        match spanBegin mb none s with
        | some s' => { st := ⟨0, 0, 0⟩, state := s', later := true }
        | none => refuse s 0x24 9 0
      else match freeId s with
        | none => refuse s 0x20 9 1 1
        | some id =>
          let room := noticeRoom s f && decide (s.adm.deferred.length < 256)
          let put : Unit → Answer := fun _ =>
            let d : Deferred := ⟨s.adm.nextTicket, s.tb, mb⟩
            let s := { s with adm := { s.adm with
              deferred := deferIns d s.adm.deferred,
              nextTicket := if s.adm.nextTicket ≥ 65535 then 1 else s.adm.nextTicket + 1 } }
            let (st, reply) := deferReply s d
            { st := st, reply := reply, state := s }
          match shorts4 s 0 r.evc (wanted r.cls (reqVec r)) with
          | (n, x) :: more =>
            if !r.noDefer && room && ((n, x) :: more).all (fun p => canEver s r p.1) then put ()
            else refuse s (shortCode n) n x x (!room)
          | [] =>
            if s.adm.deferred.any (fun e => decide (r.prio ≤ e.mb.req.prio)) then
              if !r.noDefer && room then put ()
              else
                let (n, x) := (s.adm.deferred.head?.bind (fun h => entryShort s h.mb.req)).getD (0, 0)
                refuse s (shortCode n) n x x (!room)
            else match slotFor s f with
              | none => refuse s 0x20 9 1 1
              | some slot =>
                let s := settle f slot (enter f slot id r s)
                { st := ⟨0, 0, 0⟩, reply := aboutTen s slot { token := tokenOf s slot }, state := s, slot := some slot }

/-- The tenant that MODIFY, DETACH and RELEASE act on (R554). -/
def targetOf (mb : MbReq) (s : State) : Option Nat :=
  if mb.fn ≠ 0 then s.attachedVia mb.fn
  else if mb.req.tenantId ≠ 0 then s.slotOf mb.req.tenantId
  else mb.win

/-- Some field is lowered (R65). -/
def lowers (old new : Vec) : Bool := raises new old

/-- Lower grants, newest first, until they sum to the new amount of a resource (log entry 26). -/
def trimGrants (n target : Nat) (gs : List Grant) : List Grant :=
  let order := sortBy (fun (a b : Grant) => decide (a.seq ≤ b.seq)) gs
  let go := fun (acc : Nat × List Grant) (g : Grant) =>
    let a := g.vec.amount 0 n
    let keep := min a (target - acc.1)
    (acc.1 + keep, acc.2 ++ [{ g with vec := g.vec.less n (a - keep) }])
  (order.foldl go (0, [])).2

/-- A tenant's budget against what it has used: it is exhausted once its charge reaches it (20, R429). -/
def applyBudget (slot : Nat) (s : State) : State :=
  match s.ten slot with
  | none => s
  | some t =>
    let e := s.twRd slot Reg.TW_NRG_PERIOD_UJ
    let b := s.twRd slot Reg.TW_NRG_BUDGET_J
    if t.vec.energy ≠ 0xFFFFFFFF ∧ b * 1000000 ≤ e then s.twPut slot Reg.TW_NRG_K (60 + 256)
    else s.twPut slot Reg.TW_NRG_K (bits (s.twRd slot Reg.TW_NRG_K) 0 6)

/-- A MODIFY takes effect. -/
def modifyTenant (slot : Nat) (v : Vec) (s : State) : State :=
  match s.ten slot with
  | none => s
  | some t =>
    let up : Vec := ⟨v.hbm - t.vec.hbm, v.orang - t.vec.orang, v.wr - t.vec.wr, v.ctx - t.vec.ctx, v.clu - t.vec.clu,
      v.evc - t.vec.evc, v.link - t.vec.link, v.energy - t.vec.energy, v.queues - t.vec.queues⟩
    let gs := (List.range 9).foldl (fun gs n => trimGrants n (v.amount 0 n) gs)
      (if raises t.vec v then t.grants ++ [⟨s.adm.nextAdm, up⟩] else t.grants)
    let s := s.setTen slot { t with
      vec := v, spill := spillOf t.cls v.hbm, grants := gs, queues := moreQueues s t v.queues }
    let s := { s with adm := { s.adm with nextAdm := s.adm.nextAdm + 1 } }
    let s := if v.energy ≠ t.vec.energy then applyBudget slot (s.twPut slot Reg.TW_NRG_BUDGET_J v.energy) else s
    let s := evResize slot s
    let s := if v.hbm < t.vec.hbm then (demoteTenants true borrowed [slot] (borrowed s slot) s).2 else s
    if lowers t.vec v then reevaluateAll s else s

/-- MODIFY (R62, R554). -/
def answerModify (mb : MbReq) (s : State) : Answer :=
  match (targetOf mb s).bind (fun i => (s.ten i).map (fun t => (i, t))) with
  | none => refuse s 0x22 9 0xFFFF
  | some (slot, t) =>
    if t.fn ≠ some mb.fn then refuse s 0x22 9 0xFFFF
    else
      let v := reqVec mb.req
      match badField s t.cls v with
      | some n => { refuse s 0x22 n 0xFFFF with slot := some slot }
      | none =>
        let go : Unit → Answer := fun _ =>
          let s := modifyTenant slot v s
          { st := ⟨0, 0, 0⟩, reply := aboutTen s slot {}, state := s, slot := some slot }
        if !raises t.vec v then go ()
        else if keyLog s slot ≠ 0 ∧ keyLog s slot < keyNeed v.evc ∧ t.vec.evc < v.evc then
          { refuse s 0x22 6 0xFFFF with slot := some slot }
        else
          let want := fun n => wanted t.cls v n - (if reservedIn t.cls n then t.vec.amount t.spill n else 0)
          match policyRefusal s mb.fn t.cls t.domain v (spillOf t.cls v.hbm) with
          | some st => { refuse s st.code st.res st.detail with slot := some slot }
          | none => match (shorts (quotaFree s mb.fn) want).head? with
            | some (n, x) => { refuse s 0x21 n x x with slot := some slot }
            | none =>
              if spans s mb then
                match spanBegin mb (some slot) s with
                | some s' => { st := ⟨0, 0, 0⟩, state := s', later := true, slot := some slot }
                | none => { refuse s 0x24 9 0 with slot := some slot }
              else match (shorts4 s (keyLog s slot) v.evc want).head? with
                | some (n, x) => { refuse s (shortCode n) n x x with slot := some slot }
                | none => go ()

/-- A failed ATTACH: eight within 1 s lock the ID for 1 s (R72). -/
def attachFailed (id : Nat) (s : State) : State :=
  let a := mgetD s.adm.attachFails {} id
  let times := s.tb :: a.times.filter (fun t => decide (s.tb < t + 1000000))
  let a : AttachFail := if 8 ≤ times.length then ⟨[], some (s.tb + 1000000)⟩ else ⟨times, a.lockUntil⟩
  { s with adm := { s.adm with attachFails := mput s.adm.attachFails id a } }

/-- An ATTACH refused under R72 is counted in ADM_ATTACH_FAIL. -/
def attachRefusal (s : State) (code detail : Nat) : Answer := refuse (s.bump32 Reg.ADM_ATTACH_FAIL) code 9 detail

/-- ATTACH (R55, R70, R72, R309). -/
def answerAttach (mb : MbReq) (s : State) : Answer :=
  let id := mb.req.tenantId
  let locked := (mgetD s.adm.attachFails {} id).lockUntil.isSome
  if mb.fn ≠ 0 ∧ hostAbsent s then refuse s 0x24 9 0
  else if fnBusy s mb.fn || locked then attachRefusal s 0x24 0
  else match (s.slotOf id).bind (fun i => (s.ten i).map (fun t => (i, t))) with
    | none => attachRefusal (attachFailed id s) 0x43 0xFFFF
    | some (slot, t) =>
      if t.st = .active ∨ t.st = .releasing then attachRefusal s 0x24 0
      else if mb.req.token = 0 ∨ t.token ≠ mb.req.token then attachRefusal (attachFailed id s) 0x43 0xFFFF
      else if mb.fn = 0 ∧ s.bar2 ≤ slot then refuse s 0x22 9 0xFFFF
      else
        let (tok, s) := if mb.req.rotate then drawToken s else (t.token, s)
        let held := sumOf t.held (fun h => h.entry.slots)
        let s := attachTenant slot mb.fn (s.updTen slot (fun t => { t with token := tok }))
        let s := settle mb.fn slot s
        { st := ⟨0, 0, 0⟩, state := s, slot := some slot,
          reply := aboutTen s slot { rotated := mb.req.rotate, token := if mb.req.rotate then tok else 0, held := held } }

/-- DETACH (R554). -/
def answerDetach (mb : MbReq) (s : State) : Answer :=
  match (targetOf mb s).bind (fun i => (s.ten i).map (fun t => (i, t))) with
  | none => refuse s 0x22 9 0xFFFF
  | some (slot, t) =>
    if t.st = .releasing then refuse s 0x24 9 0
    else
      let s := parkTenant slot s
      { st := ⟨0, 0, 0⟩, reply := aboutTen s slot {}, state := s, slot := some slot }

/-- RELEASE (R71, R554). -/
def answerRelease (mb : MbReq) (s : State) : Answer :=
  match (targetOf mb s).bind (fun i => (s.ten i).map (fun t => (i, t))) with
  | none => refuse s 0x22 9 0xFFFF
  | some (slot, t) =>
    if t.st = .releasing then refuse s 0x24 9 0
    else
      let s := reevaluateAll (releaseTenant slot s)
      { st := ⟨0, 0, 0⟩, reply := aboutTen s slot {}, state := s }

/-- A deferred request that the function owns. -/
def ownedTicket (mb : MbReq) (s : State) : Option Deferred :=
  s.adm.deferred.find? (fun d => d.ticket == mb.req.ticket && d.mb.fn == mb.fn)

/-- QUERY (R66): answered as the deferral was, with the position and estimate of now (log entry 27). -/
def answerQuery (mb : MbReq) (s : State) : Answer :=
  match ownedTicket mb s with
  | none => refuse s 0x22 0 0xFFFF
  | some d => { st := (deferReply s d).1, reply := (deferReply s d).2, state := s }

/-- WITHDRAW (R65, R66). -/
def answerWithdraw (mb : MbReq) (s : State) : Answer :=
  match ownedTicket mb s with
  | none => refuse s 0x22 0 0xFFFF
  | some d =>
    let s := { s with adm := { s.adm with deferred := s.adm.deferred.filter (fun e => e.ticket != d.ticket) } }
    { st := ⟨0x34, 0, 0⟩, reply := { ticket := d.ticket }, state := reevaluateAll s }

/-- How an operation is answered (Table ADM-4); ADMIT and MODIFY are evaluated with the lending pool withheld (13, R284). -/
def answer (mb : MbReq) (s : State) : Answer :=
  match mb.op with
  | 1 => answerAdmit mb (withholdLent s)
  | 2 => answerModify mb (withholdLent s)
  | 3 => answerAttach mb s
  | 4 => answerDetach mb s
  | 5 => answerRelease mb s
  | 6 => answerQuery mb s
  | 7 => answerWithdraw mb s
  | _ => refuse s 0x22 0 0xFFFF

/-- Write a reply into a function's mailbox, raise the admission vector, and count the answer in the attached
tenant's counters, else in the function's (R59, R60). -/
def reply (mb : MbReq) (st : Status) (r : Reply) (slot : Option Nat) (s : State) : State :=
  let r := { r with status := st.word, op := mb.op, seq := mb.req.seq }
  let s := s.updFn mb.fn (fun n => { n with mbBusy := false, mbReplied := true, reply := some r })
  let who := match slot with
    | some i => if ((s.ten i).bind (fun t => t.fn)) = some mb.fn then some i else none
    | none => if mb.fn = 0 then none else s.attachedVia mb.fn
  raiseVec mb.fn 0 (match who with | some i => s.outcome i st | none => s.fnOutcome mb.fn st)

/-- Evaluate a mailbox request (R60); a span transaction leaves the mailbox BUSY until its manager decides. -/
def evaluate (mb : MbReq) (s : State) : State :=
  let a := answer mb s
  if a.later then a.state.updFn mb.fn (fun n => { n with mbBusy := true })
  else reply mb a.st a.reply a.slot a.state

/-- An MMIO write to a function reaches it (15, R310): the function is enabled and not in D3hot, and a PF tenant window
shows a tenant attached through the PF. -/
def reaches (s : State) (f : Nat) (win : Option Nat) : Bool :=
  !(s.fn f).d3hot && (if f = 0 then (s.fn 0).mse else decide (f ≤ s.hif.vfs) && s.hif.vfMse) &&
    (match win with | none => true | some i => f == 0 && ((s.ten i).bind (fun t => t.fn)) == some 0)

/-- The sled is in RUN (16, Table PWR-2). -/
def inRun (s : State) : Bool := s.rdN Reg.PWR_STATE == 3

/-- GO written through a function (R59, R77; 16, R347): ignored while BUSY; kept waiting while firmware is down or a start
runs. -/
def mailboxGo (op f : Nat) (win : Option Nat) (r : AdmReq) (s : State) : State :=
  if !reaches s f win then s
  else if (s.fn f).mbBusy then s.updFn f (fun n => { n with mbIgnored := true })
  else
    let mb : MbReq := ⟨op, f, win, r⟩
    if s.fwDown || !inRun s then
      { s.updFn f (fun n => { n with mbBusy := true, mbReplied := false }) with adm := { s.adm with waiting := s.adm.waiting ++ [mb] } }
    else evaluate mb s

end Sys2Proof.Machine
end

