-- ==== Sys2Proof/Machine/Formats.lean ====
section
/-! DEFINITION. Number formats and arithmetic of the cluster (07, R146 to R155, R558; 08, R178): exact values,
one rounding, saturation, NaN rules and flags.  Values are kept exactly, as a sign, a natural number and a power
of two. -/

namespace Sys2Proof.Machine

/-- A value: NaN (with whether it signals), an infinity, or `(-1)^neg × m × 2^e`; zero keeps its sign. -/
inductive Num where
  | nan (signals : Bool)
  | inf (neg : Bool)
  | fin (neg : Bool) (m : Nat) (e : Int)
  deriving DecidableEq, Repr

/-- Flags of Table CLU-9 as bits. -/
def fInvalid : Nat := 1
def fDivzero : Nat := 2
def fOverflow : Nat := 4
def fUnderflow : Nat := 8
def fInexact : Nat := 16
def fSaturate : Nat := 32
def fNanIn : Nat := 64

/-- A floating-point encoding: exponent and mantissa bits, bias, and its specials: 0 none, 1 IEEE, 2 the single NaN
pattern of E4M3 (Table CLU-4). -/
structure FSpec where
  eb : Nat
  mb : Nat
  bias : Nat
  special : Nat
  canon : Nat

def fp32 : FSpec := ⟨8, 23, 127, 1, 0x7FC00000⟩
def bf16 : FSpec := ⟨8, 7, 127, 1, 0x7FC0⟩
def fp16 : FSpec := ⟨5, 10, 15, 1, 0x7E00⟩
def e4m3 : FSpec := ⟨4, 3, 7, 2, 0x7F⟩
def e5m2 : FSpec := ⟨5, 2, 15, 1, 0x7E⟩
def e3m2 : FSpec := ⟨3, 2, 3, 0, 0⟩
def e2m3 : FSpec := ⟨2, 3, 1, 0, 0⟩
def e2m1 : FSpec := ⟨2, 1, 1, 0, 0⟩

/-- The bits of the largest finite magnitude. -/
def FSpec.maxBits (f : FSpec) : Nat :=
  if f.special = 1 then (2 ^ f.eb - 1) * 2 ^ f.mb - 1 else if f.special = 2 then 0x7E else 2 ^ (f.eb + f.mb) - 1

/-- The value of a magnitude's bits, as multiplier and exponent. -/
def FSpec.magnitude (f : FSpec) (b : Nat) : Nat × Int :=
  let ex := b / 2 ^ f.mb
  let m := b % 2 ^ f.mb
  if ex = 0 then (m, 1 - (f.bias : Int) - f.mb) else (m + 2 ^ f.mb, (ex : Int) - f.bias - f.mb)

/-- Decode an element (R149). -/
def FSpec.decode (f : FSpec) (b : Nat) : Num :=
  let neg := b.testBit (f.eb + f.mb)
  let mag := b % 2 ^ (f.eb + f.mb)
  let top := (2 ^ f.eb - 1) * 2 ^ f.mb
  if f.special = 1 ∧ top ≤ mag then
    (if mag = top then .inf neg else .nan (!(mag.testBit (f.mb - 1))))
  else if f.special = 2 ∧ mag = 0x7F then .nan false
  else .fin neg (f.magnitude mag).1 (f.magnitude mag).2

/-! ### Rounding (Table CLU-5, R150, R152, R558) -/

/-- `m / 2^sh` rounded to an integer in a mode; `u` is the draw's top 24 bits for SR. -/
def roundShift (mode u : Nat) (neg : Bool) (m sh : Nat) : Nat :=
  let q := m / 2 ^ sh
  let r := m % 2 ^ sh
  let up : Bool :=
    match mode with
    | 0 => decide (2 ^ sh < 2 * r) || (2 * r == 2 ^ sh && q % 2 == 1)
    | 2 => neg && r != 0
    | 3 => !neg && r != 0
    | 4 => decide (2 ^ 24 * 2 ^ sh ≤ r * 2 ^ 24 + u * 2 ^ sh)
    | _ => false
  q + b2n up

/-- `m × 2^e` as a rounded multiple of `2^q`, and whether it is exact. -/
def quantize (mode u : Nat) (neg : Bool) (m : Nat) (e q : Int) : Nat × Bool :=
  if q ≤ e then (m * 2 ^ (e - q).toNat, true)
  else
    let sh := (q - e).toNat
    (roundShift mode u neg m sh, m % 2 ^ sh == 0)

/-- `a × 2^ea < b × 2^eb`. -/
def dyadicLt (a : Nat) (ea : Int) (b : Nat) (eb : Int) : Bool :=
  if ea ≤ eb then decide (a < b * 2 ^ (eb - ea).toNat) else decide (a * 2 ^ (ea - eb).toNat < b)

/-- Round a finite value into a format: the bits without sign, and the flags. -/
def FSpec.round (f : FSpec) (mode u : Nat) (neg : Bool) (m : Nat) (e : Int) : Nat × Nat :=
  if m = 0 then (0, 0)
  else
    let emin : Int := 1 - (f.bias : Int)
    let k : Int := (m.log2 : Int) + e
    let q := max k emin - f.mb
    let (n, exact) := quantize mode u neg m e q
    let b := ((q + f.mb + f.bias - 1).toNat) * 2 ^ f.mb + n
    let top := f.magnitude f.maxBits
    if f.special ≠ 1 ∧ dyadicLt top.1 top.2 m e then (f.maxBits, fSaturate)
    else if f.maxBits < b then
      let toMax := mode = 1 ∨ mode = 4 ∨ (mode = 2 ∧ !neg) ∨ (mode = 3 ∧ neg)
      (if toMax then f.maxBits else f.maxBits + 1, fOverflow + fInexact)
    else
      let tiny : Bool :=
        if emin ≤ k then false
        else if k = emin - 1 then decide ((quantize mode u neg m e (k - f.mb)).1 < 2 ^ (f.mb + 1))
        else true
      (b, if exact then 0 else fInexact + (if tiny then fUnderflow else 0))

/-- Encode a value into a floating-point format (R150). -/
def FSpec.encode (f : FSpec) (mode u : Nat) (x : Num) : Nat × Nat :=
  let sign := fun (neg : Bool) => b2n neg * 2 ^ (f.eb + f.mb)
  match x with
  | .nan sig => (f.canon, if sig then fInvalid else 0)
  | .inf neg => if f.special = 1 then (sign neg + f.maxBits + 1, 0) else (sign neg + f.maxBits, fSaturate)
  | .fin neg m e =>
    let (b, fl) := f.round mode u neg m e
    (sign neg + b, fl)

/-- Convert a value to an integer of `w` bits with a fraction of `frac` bits, signed or not (R150). -/
def toInt (w : Nat) (sgn : Bool) (frac : Nat) (mode u : Nat) (x : Num) : Nat × Nat :=
  let hi : Nat := if sgn then 2 ^ (w - 1) - 1 else 2 ^ w - 1
  let lo : Nat := if sgn then 2 ^ (w - 1) else 0
  match x with
  | .nan _ => (0, fInvalid)
  | .inf neg => (if neg then unsigned w (-(lo : Int)) else hi, fSaturate)
  | .fin neg m e =>
    let lim := if neg then lo else hi
    if dyadicLt lim (-(frac : Int)) m e then (if neg then unsigned w (-(lo : Int)) else hi, fSaturate)
    else
      let (n, exact) := quantize mode u neg m e (-(frac : Int))
      (unsigned w (if neg then -(n : Int) else n), if exact then 0 else fInexact)

/-- The value of a two's complement integer with a fraction of `frac` bits. -/
def ofInt (w : Nat) (sgn : Bool) (frac b : Nat) : Num :=
  let i : Int := if sgn then signed w b else ((b % 2 ^ w : Nat) : Int)
  .fin (decide (i < 0)) i.natAbs (-(frac : Int))

/-! ### Arithmetic -/

/-- The sum of two finite values, exact; a zero sum takes the sign IEEE 754 gives. -/
def addFin (mode : Nat) (a b : Bool × Nat × Int) : Bool × Nat × Int :=
  let e := min a.2.2 b.2.2
  let va : Int := (if a.1 then -1 else 1) * ((a.2.1 * 2 ^ (a.2.2 - e).toNat : Nat) : Int)
  let vb : Int := (if b.1 then -1 else 1) * ((b.2.1 * 2 ^ (b.2.2 - e).toNat : Nat) : Int)
  let v := va + vb
  if v = 0 then ((if a.2.1 = 0 ∧ b.2.1 = 0 ∧ a.1 = b.1 then a.1 else decide (mode = 2)), 0, 0)
  else (decide (v < 0), v.natAbs, e)

/-- The flag of a signalling operand. -/
def sig (x : Num) : Nat := match x with | .nan true => fInvalid | _ => 0

/-- The sum of two values, exact, with the flags IEEE 754 raises. -/
def addNum (mode : Nat) (a b : Num) : Num × Nat :=
  match a, b with
  | .nan _, _ => (.nan false, sig a ||| sig b)
  | _, .nan _ => (.nan false, sig b)
  | .inf x, .inf y => if x = y then (.inf x, 0) else (.nan false, fInvalid)
  | .inf x, _ => (.inf x, 0)
  | _, .inf y => (.inf y, 0)
  | .fin x m e, .fin y n f =>
    let r := addFin mode (x, m, e) (y, n, f)
    (.fin r.1 r.2.1 r.2.2, 0)

/-- The negated value. -/
def negNum (x : Num) : Num :=
  match x with
  | .nan s => .nan s
  | .inf n => .inf (!n)
  | .fin n m e => .fin (!n) m e

/-- The product of two values, exact. -/
def mulNum (a b : Num) : Num × Nat :=
  match a, b with
  | .nan _, _ => (.nan false, sig a ||| sig b)
  | _, .nan _ => (.nan false, sig b)
  | .inf x, .inf y => (.inf (x != y), 0)
  | .inf x, .fin y n _ => if n = 0 then (.nan false, fInvalid) else (.inf (x != y), 0)
  | .fin x m _, .inf y => if m = 0 then (.nan false, fInvalid) else (.inf (x != y), 0)
  | .fin x m e, .fin y n f => (.fin (x != y) (m * n) (e + f), 0)

/-- The quotient of two values with 96 bits and a sticky bit, which every rounding of a 32-bit format decides on. -/
def divNum (a b : Num) : Num × Nat :=
  match a, b with
  | .nan _, _ => (.nan false, sig a ||| sig b)
  | _, .nan _ => (.nan false, sig b)
  | .inf _, .inf _ => (.nan false, fInvalid)
  | .inf x, .fin y _ _ => (.inf (x != y), 0)
  | .fin x _ _, .inf y => (.fin (x != y) 0 0, 0)
  | .fin x m e, .fin y n f =>
    if n = 0 then (if m = 0 then (.nan false, fInvalid) else (.inf (x != y), fDivzero))
    else if m = 0 then (.fin (x != y) 0 0, 0)
    else
      let q := m * 2 ^ 160 / n
      let r := m * 2 ^ 160 % n
      (.fin (x != y) (2 * q + b2n (r != 0)) (e - f - 161), 0)

/-- The integer square root by one bit at a time from bit `i` down. -/
def isqrt (x : Nat) : Nat → Nat → Nat
  | 0, r => r
  | i + 1, r => let t := r + 2 ^ i; isqrt x i (if t * t ≤ x then t else r)

/-- The square root of a value with a sticky bit. -/
def sqrtNum (a : Num) : Num × Nat :=
  match a with
  | .nan s => (.nan false, if s then fInvalid else 0)
  | .inf n => if n then (.nan false, fInvalid) else (.inf false, 0)
  | .fin n m e =>
    if m = 0 then (.fin n 0 0, 0)
    else if n then (.nan false, fInvalid)
    else
      let odd : Bool := decide (e % 2 ≠ 0)
      let x := (if odd then 2 * m else m) * 2 ^ 160
      let e' : Int := (if odd then e - 1 else e) - 160
      let r := isqrt x 160 0
      (.fin false (2 * r + b2n (r * r != x)) (e' / 2 - 1), 0)

/-- `a < b` for values that are not NaN; −0 is not below +0. -/
def numLt (a b : Num) : Bool :=
  match a, b with
  | .inf x, .inf y => x && !y
  | .inf x, _ => x
  | _, .inf y => !y
  | .fin x m e, .fin y n f =>
    if m = 0 ∧ n = 0 then false
    else if x && !y then true
    else if !x && y then false
    else if x then dyadicLt n f m e
    else dyadicLt m e n f
  | _, _ => false

/-- The sign of a value. -/
def numNeg (a : Num) : Bool := match a with | .nan _ => false | .inf x => x | .fin x _ _ => x

/-- Minimum and maximum (R155): the other operand where one is NaN; −0 is below +0. -/
def minMax (isMax : Bool) (a b : Num) : Num :=
  match a, b with
  | .nan _, .nan _ => .nan false
  | .nan _, _ => b
  | _, .nan _ => a
  | _, _ =>
    let less := numLt a b || (!numLt b a && numNeg a && !numNeg b)
    if less != isMax then a else b

/-! ### Lane types (08, Table CLU-21) -/

/-- The floating-point encoding of a lane type. -/
def laneSpec (ty : Nat) : FSpec := if ty = 1 then bf16 else if ty = 2 then fp16 else fp32

/-- The value of a lane. -/
def laneNum (ty : Nat) (x : Word) : Num :=
  if ty = 8 then ofInt 32 true 0 x.toNat
  else if ty = 9 then ofInt 32 false 0 x.toNat
  else (laneSpec ty).decode (if ty = 0 then x.toNat else x.toNat % 65536)

/-- A value as a lane of a type, with flags. -/
def numLane (ty mode u : Nat) (x : Num) : Word × Nat :=
  let (b, f) :=
    if ty = 8 then toInt 32 true 0 mode u x
    else if ty = 9 then toInt 32 false 0 mode u x
    else (laneSpec ty).encode mode u x
  (BitVec.ofNat 32 b, f)

/-- FP32 bits of a value, rounded with RNE. -/
def toF32 (x : Num) : Word × Nat := numLane 0 0 0 x

/-- The value of FP32 bits. -/
def f32 (x : Word) : Num := laneNum 0 x

/-! ### Element formats (Table CLU-4, R146, R149 to R151) -/

/-- Bits of an element. -/
def elemBits (fmt : Nat) : Nat :=
  match fmt with
  | 0 => 32 | 1 => 16 | 2 => 16 | 7 => 6 | 8 => 6 | 9 => 4 | 11 => 4 | _ => 8

/-- The format carries block scales. -/
def scaled (fmt : Nat) : Bool := decide (6 ≤ fmt)

/-- The floating-point encoding of an element format. -/
def elemSpec (fmt alt : Nat) : FSpec :=
  match fmt with
  | 0 => fp32 | 1 => bf16 | 2 => fp16 | 3 => e4m3 | 4 => e5m2 | 6 => if alt = 1 then e5m2 else e4m3
  | 7 => e3m2 | 8 => e2m3 | _ => e2m1

/-- MX emax (Table CLU-4). -/
def emax (fmt alt : Nat) : Int :=
  match fmt with
  | 6 => if alt = 1 then 15 else 8 | 7 => 4 | 8 => 2 | 9 => 2 | 11 => 2 | _ => 0

/-- The value of an element without its scale. -/
def elemNum (fmt alt b : Nat) : Num :=
  match fmt with
  | 5 => ofInt 8 true 0 b
  | 10 => ofInt 8 true 6 b
  | 11 => ofInt 4 true 0 b
  | _ => (elemSpec fmt alt).decode b

/-- An element under its block's scale (R149). -/
def scaleNum (s : Nat) (x : Num) : Num :=
  if s = 0xFF then .nan false
  else match x with
    | .fin n m e => .fin n m (e + (s : Int) - 127)
    | y => y

/-- Encode an element without scale (R150). -/
def elemEncode (fmt alt mode u : Nat) (x : Num) : Nat × Nat :=
  match fmt with
  | 5 => toInt 8 true 0 mode u x
  | 10 => toInt 8 true 6 mode u x
  | 11 => toInt 4 true 0 mode u x
  | _ => (elemSpec fmt alt).encode mode u x

/-- The scale exponent of a block (R151): `⌊log₂ m⌋ − emax` of its largest magnitude, clamped. -/
def blockExp (fmt alt : Nat) (xs : List Num) : Int :=
  let big := xs.foldl (fun (acc : Option (Nat × Int)) x =>
    match x with
    | .fin _ m e => if m = 0 then acc else match acc with
        | none => some (m, e)
        | some a => if dyadicLt a.1 a.2 m e then some (m, e) else acc
    | _ => acc) none
  match big with
  | none => -127
  | some a => max (-127) (min 127 ((a.1.log2 : Int) + a.2 - emax fmt alt))

/-- Encode one block of 32 elements (R151): the scale byte, the elements, the flags. `us` are the draws for SR. -/
def encodeBlock (fmt alt mode : Nat) (us : List Nat) (xs : List Num) : Nat × List Nat × Nat :=
  if xs.any (fun x => match x with | .fin _ _ _ => false | _ => true) then (0xFF, xs.map (fun _ => 0), fInvalid)
  else
    let x := blockExp fmt alt xs
    let r := (xs.zip us).map (fun p =>
      match p.1 with
      | .fin n m e => elemEncode fmt alt mode p.2 (.fin n m (e - x))
      | y => elemEncode fmt alt mode p.2 y)
    ((x + 127).toNat, r.map (·.1), r.foldl (fun f p => f ||| p.2) 0)

/-- Bytes of the elements of a row, and of the whole row with its scales (R146). -/
def elemBytes (fmt cols : Nat) : Nat := cdiv (elemBits fmt * cols) 8
def rowBytes (fmt cols : Nat) : Nat := elemBytes fmt cols + (if scaled fmt then cols / 32 else 0)

/-- Element `c` of a row that starts at byte `a` of a store: the bits. -/
def getElem (m : Memory) (a fmt c : Nat) : Nat :=
  let w := elemBits fmt
  bits (readLE m (a + w * c / 8) (cdiv (w * c % 8 + w) 8)) (w * c % 8) w

/-- Set element `c` of a row. -/
def putElem (m : Memory) (a fmt c v : Nat) : Memory :=
  let w := elemBits fmt
  let at_ := a + w * c / 8
  let n := cdiv (w * c % 8 + w) 8
  writeLE m at_ n (setBits (readLE m at_ n) (w * c % 8) w v)

/-- The decoded value of element `c` of a row of `cols` columns. -/
def rowNum (m : Memory) (a fmt alt cols c : Nat) : Num :=
  let x := elemNum fmt alt (getElem m a fmt c)
  if scaled fmt then scaleNum (readByte m (a + elemBytes fmt cols + c / 32)).toNat x else x

/-- FP32 bits of a decoded element (R149): a NaN of a floating-point format keeps its payload in the high mantissa
bits, every other value is exact or overflows. -/
def rowF32 (m : Memory) (a fmt alt cols c : Nat) : Word × Nat :=
  match rowNum m a fmt alt cols c with
  | .nan _ =>
    if scaled fmt then
      (if (readByte m (a + elemBytes fmt cols + c / 32)).toNat = 0xFF then (0x7FC00000#32, 0) else widen (elemSpec fmt alt) (getElem m a fmt c))
    else widen (elemSpec fmt alt) (getElem m a fmt c)
  | x => toF32 x
where
  /-- A NaN widened with its payload (R150). -/
  widen (f : FSpec) (b : Nat) : Word × Nat :=
    (BitVec.ofNat 32 (b2n (b.testBit (f.eb + f.mb)) * 2 ^ 31 + 0x7F800000 + b % 2 ^ f.mb * 2 ^ (23 - f.mb)), 0)

/-! ### Tensor arithmetic (R153, R154) -/

/-- The exact sum of products of one block, with the flags of its special cases, whatever their order (R154). -/
def blockDot (ps : List (Num × Num)) : Num × Nat :=
  let isNan := fun (x : Num) => match x with | .nan _ => true | _ => false
  let isInf := fun (n : Bool) (x : Num) => match x with | .inf m => m == n | _ => false
  let good := (ps.filter (fun p => !isNan p.1 && !isNan p.2)).map (fun p => (mulNum p.1 p.2).1)
  let nanIn := decide (good.length < ps.length)
  let bad := good.any isNan || (good.any (isInf false) && good.any (isInf true))
  let fl := (if nanIn then fNanIn else 0) + (if bad then fInvalid else 0)
  if nanIn || bad then (.nan false, fl)
  else if good.any (isInf false) then (.inf false, 0)
  else if good.any (isInf true) then (.inf true, 0)
  else (good.foldl (fun acc x => (addNum 0 acc x).1) (.fin false 0 0), 0)

/-- One accumulator element: block results rounded once and added in ascending K order (R153). -/
def mulAcc (acc : Word) (blocks : List (List (Num × Num))) : Word × Nat :=
  blocks.foldl (fun (a : Word × Nat) b =>
    let (x, f) := blockDot b
    let (r, g) := toF32 x
    let (y, h) := addNum 0 (f32 a.1) (f32 r)
    let h := match x with | .nan _ => 0 | _ => h
    let (w, k) := toF32 y
    (w, a.2 ||| f ||| g ||| h ||| k)) (acc, 0)

/-! ### Special functions (08, R178) -/

/-- Fixed-point one with 160 fraction bits. -/
def one160 : Nat := 2 ^ 160

/-- `exp x` for `0 ≤ x < 2`, in fixed point, by its series. -/
def expSeries (x : Nat) : Nat → Nat → Nat → Nat → Nat
  | 0, _, _, acc => acc
  | n + 1, k, term, acc => expSeries x n (k + 1) (term * x / (one160 * k)) (acc + term)

/-- ln 2 with 160 fraction bits, by the series of `Σ 1/(k 2^k)`. -/
def ln2 : Nat := (List.range 170).foldl (fun a k => a + one160 / ((k + 1) * 2 ^ (k + 1))) 0

/-- `2^f` for a fraction with 160 bits. -/
def exp2Frac (f : Nat) : Nat := expSeries (f * ln2 / one160) 60 1 one160 0

/-- `log₂` of a number from 1 to below 2 with 160 fraction bits: 64 fraction bits, one by squaring at a time. -/
def log2Frac : Nat → Nat → Nat → Nat
  | 0, _, acc => acc
  | n + 1, x, acc =>
    let y := x * x / one160
    if 2 * one160 ≤ y then log2Frac n (y / 2) (2 * acc + 1) else log2Frac n y (2 * acc)

/-- `2^x` of a finite value, as multiplier and exponent. -/
def exp2Fin (neg : Bool) (m : Nat) (e : Int) : Nat × Int :=
  let fix : Nat := if 0 ≤ e + 160 then m * 2 ^ (e + 160).toNat else m / 2 ^ (-(e + 160)).toNat
  let i := fix / one160
  let f := fix % one160
  if neg then (if f = 0 then (1, -(i : Int)) else (exp2Frac (one160 - f), -(i : Int) - 1 - 160))
  else (if f = 0 then (1, i) else (exp2Frac f, (i : Int) - 160))

/-- `log₂` of a positive finite value: sign, multiplier, exponent. -/
def log2Fin (m : Nat) (e : Int) : Bool × Nat × Int :=
  let k : Int := (m.log2 : Int) + e
  let x := m * 2 ^ 160 / 2 ^ m.log2
  let f := log2Frac 96 x 0
  let v : Int := k * 2 ^ 96 + f
  (decide (v < 0), v.natAbs, -96)

/-- `tanh` of a finite value: `(1 − z) ÷ (1 + z)` with `z = e^(−2|x|)`. -/
def tanhFin (neg : Bool) (m : Nat) (e : Int) : Num :=
  if (m.log2 : Int) + e < -30 then .fin neg m e
  else
    let p := exp2Fin true (2 * m * (one160 * one160 / ln2)) (e - 160)
    let z : Nat := if 0 ≤ p.2 + 160 then p.1 * 2 ^ (p.2 + 160).toNat else p.1 / 2 ^ (-(p.2 + 160)).toNat
    (divNum (.fin neg (one160 - z) 0) (.fin false (one160 + z) 0)).1

/-- One of the FP32 values within 2 ulp of the exact result: the hardware's choice is its own (R178; log entry 32).
`pick` chooses among the two below and the two above. -/
def near (pick : Nat) (x : Num) : Word × Nat :=
  match x with
  | .fin neg _ _ =>
    let (lo, _) := numLane 0 1 0 x
    let mag := lo.toNat % 2 ^ 31
    let m := min (fp32.maxBits + 1) (mag + pick % 4 - 1)
    (BitVec.ofNat 32 (b2n neg * 2 ^ 31 + m), fInexact)
  | _ => toF32 x

/-- A power of two as an exponent. -/
def powerOfTwo (m : Nat) (e : Int) : Option Int := if m ≠ 0 ∧ m = 2 ^ m.log2 then some (m.log2 + e) else none

/-- VSFU (R178): SUB 0 EXP2, 1 LOG2, 2 RCP, 3 RSQRT, 4 TANH. -/
def sfu (sub : Nat) (x : Word) : Word × Nat :=
  let pick := Config.sfuPick sub x
  let nanF : Word × Nat := (0x7FC00000#32, fInvalid)
  match f32 x with
  | .nan s => (0x7FC00000#32, if s then fInvalid else 0)
  | .inf neg =>
    match sub with
    | 0 => toF32 (if neg then .fin false 0 0 else .inf false)
    | 1 => if neg then nanF else toF32 (.inf false)
    | 2 => toF32 (.fin neg 0 0)
    | 3 => if neg then nanF else toF32 (.fin false 0 0)
    | _ => toF32 (.fin neg 1 0)
  | .fin neg m e =>
    match sub with
    | 0 =>
      if (8 : Int) ≤ (m.log2 : Int) + e ∧ m ≠ 0 then (if neg then (let (w, f) := near pick (.fin false 1 (-300)); (w, f ||| fUnderflow)) else (toF32 (.fin false 1 200)))
      else
        let p := exp2Fin neg m e
        if p.1 = 1 then toF32 (.fin false 1 p.2)
        else if m = 0 then toF32 (.fin false 1 0)
        else
          let (v, g) := toF32 (.fin false p.1 p.2)
          if g &&& fOverflow = 0 then (let (w, f) := near pick (.fin false p.1 p.2); (w, f ||| g)) else (v, g)
    | 1 =>
      if m = 0 then ((toF32 (.inf true)).1, fDivzero)
      else if neg then nanF
      else match powerOfTwo m e with
        | some k => toF32 (.fin (decide (k < 0)) k.natAbs 0)
        | none => let l := log2Fin m e; near pick (.fin l.1 l.2.1 l.2.2)
    | 2 =>
      if m = 0 then ((toF32 (.inf neg)).1, fDivzero)
      else
        let q := (divNum (.fin false 1 0) (.fin neg m e)).1
        match powerOfTwo m e with
        | some k => if k % 2 = 0 then toF32 (.fin neg 1 (-k)) else (let (w, f) := near pick q; (w, f ||| (toF32 q).2))
        | none => let (w, f) := near pick q; (w, f ||| (toF32 q).2)
    | 3 =>
      if m = 0 then ((toF32 (.inf neg)).1, fDivzero)
      else if neg then nanF
      else match powerOfTwo m e with
        | some k =>
          if k % 2 = 0 then toF32 (.fin false 1 (-(k / 2)))
          else near pick ((divNum (.fin false 1 0) (sqrtNum (.fin false m e)).1).1)
        | none => near pick ((divNum (.fin false 1 0) (sqrtNum (.fin false m e)).1).1)
    | _ => if m = 0 then toF32 (.fin neg 0 0) else near pick (tanhFin neg m e)

end Sys2Proof.Machine
end

