-- ==== Sys2Proof/Machine/Elections.lean ====
section
/-! DEFINITION. Elections, beacons and roles (13, R269 to R274, R288, R290, R291). -/

namespace Sys2Proof.Machine

/-- The term in force at a level. -/
def termOf (s : State) (l : Nat) : Nat := s.rdN (Reg.HIE_TERM l)
/-- A time or number kept by level. -/
def lvl (m : Map Nat) (l : Nat) : Nat := mgetD m 0 l

/-- This sled's election key (R271). -/
def ownKey (s : State) : Nat :=
  2 ^ 23 * b2n (decide (2048 ≤ admFree s 1) && decide (128 ≤ admFree s 5)) + 2 ^ 15 * s.fld Reg.HIE_PRIO 0 8 + (0x7FFF - ownNode s % 2 ^ 15)

/-- This sled is a candidate at a level (R270). -/
def candidate (s : State) (l : Nat) : Bool :=
  if l = 0 then s.bit Reg.HIE_STATUS 0 && s.bit Reg.HIE_CTRL 0 && !s.bit Reg.RST_START_STATUS 5 && decide (ownNode s < 0x8000) && !s.bit Reg.HIE_STATUS 6
  else decide (role s = l)

/-! ### The reserve (R33) -/

/-- The cluster that stands for one of 60 to 63 and 124 to 127 that is retired: the highest of its die that is neither
retired nor withheld (R33; log entry 81). -/
def reserveFor (s : State) (k : Nat) (taken : List Nat) : Option Nat :=
  let dead := fun c => s.flt.retired.contains (3, c)
  if !dead k then some k
  else ((List.range 64).reverse.map (· + 64 * (k / 64))).find? (fun c => !dead c && !taken.contains c && !(60 ≤ c % 64))

/-- The clusters a manager withholds. -/
def reserveSet (s : State) : List Nat :=
  [60, 61, 62, 63, 124, 125, 126, 127].foldl (fun l k => match reserveFor s k l with | some c => l ++ [c] | none => l) []

/-- Show the withheld clusters in HIE_RESERVE. -/
def showReserve (s : State) : State :=
  (List.range 4).foldl (fun s i =>
    s.putN (Reg.HIE_RESERVE i) (sumOf (s.withheld.filter (fun c => c / 32 == i)) (fun c => 2 ^ (c % 32)))) s

/-- Withhold the reserve: 8 clusters and 4 GiB of HBM leave the capacity (R33). -/
def takeReserve (s : State) : State :=
  if !s.withheld.isEmpty then s
  else
    let l := reserveSet s
    let s := showReserve { s with withheld := l }
    let s := (s.putN (Reg.ADM_CAP 1) (s.rdN (Reg.ADM_CAP 1) - 2048)).putN (Reg.ADM_CAP 5) (s.rdN (Reg.ADM_CAP 5) - 16 * l.length)
    cutResource 5 (cutResource 1 s)

/-- Return the reserve (R33). -/
def dropReserve (s : State) : State :=
  if s.withheld.isEmpty then s
  else
    let n := s.withheld.length
    let s := showReserve { s with withheld := [] }
    let s := (s.putN (Reg.ADM_CAP 1) (s.rdN (Reg.ADM_CAP 1) + 2048)).putN (Reg.ADM_CAP 5) (s.rdN (Reg.ADM_CAP 5) + 16 * n)
    reevaluateAll s

/-! ### Beacons (R272) -/

/-- Flood this sled's BEACON of a level. -/
def sendBeacon (resign : Bool) (l : Nat) (s : State) : State :=
  let t := s.rdN Reg.LNK_TIME_STATUS
  floodOwn l 0x70 [l + 4 * b2n resign + 8 * b2n s.fwDown, ownNode s, termOf s l, ownKey s, bits t 2 4 + 16 * bits t 0 1, s.hie.gen,
    s.fld Reg.HIE_ROLL_STATUS 0 4 + 16 * s.fld Reg.HIE_ROLL_STATUS 4 3] s

/-- BEACON_TICK (R272). -/
def execBeaconTick (s : State) : Out := .next ((List.range (role s)).foldl (fun s l => sendBeacon false l s) s)

/-! ### Losing and following a manager (R272 to R274, R288) -/

/-- HIE_STATUS.STALL shows that a manager's beacons say so. -/
def showStall (s : State) : State := hieBit 7 (!s.hie.stall.isEmpty) s

/-- A level has no manager any more: a candidate draws its wait (R272, R273). -/
def loseManager (l : Nat) (s : State) : State :=
  let s := s.setFld (Reg.HIE_MGR l) 16 1 0
  let s := if l = 0 then hieBit 4 true s else s
  let s := if l = role s ∨ l = 0 then hieBit 5 false s else s
  let s := showStall { s with hie := { s.hie with stall := mdel s.hie.stall l, since := mdel s.hie.since l } }
  if candidate s l ∧ (mget s.hie.elect l).isNone then
    let (n, s) := s.draw
    { s with hie := { s.hie with waits := mput s.hie.waits l (s.tb + n % 2001) } }
  else s

/-- Announce again every SITE entry to the chassis manager (R288; 05, R121). -/
def reannounce (s : State) : State :=
  s.pfx.entries.foldl (fun s e => if e.2.st = .published then announce true e.2 s else s) s

/-- The tree port toward a node. -/
def treePort (s : State) (node : Nat) : Option Nat :=
  let e := routeEntry s s.lnkE (routeIndex (ownNode s) node)
  if e.getLsbD 24 then some (bits e.toNat 18 5) else none

/-- Follow the time of the manager this sled reports to (R279). -/
def followTime (s : State) : State :=
  match managerAbove s with
  | some m => match treePort s m with
    | some p => s.putN Reg.LNK_TIME_PARENT (p + 64 * s.fld Reg.LNK_TIME_PARENT 6 1)
    | none => s
  | none => s

/-- Follow a manager at a level: JOIN it where this sled reports to that level, which SAFE forbids (R275, R288, R291). A site manager ends the use of
the standalone ID pool (R280). -/
def adopt (l node term key : Nat) (s : State) : State :=
  let s := (s.putN (Reg.HIE_MGR l) (node + 65536)).putN (Reg.HIE_TERM l) term
  let s := { s with hie := { s.hie with
    heard := mput s.hie.heard l s.tb, key := mput s.hie.key l key, waits := mdel s.hie.waits l, elect := mdel s.hie.elect l,
    stall := mdel s.hie.stall l, since := if (mget s.hie.since l).isSome then s.hie.since else mput s.hie.since l s.tb } }
  let s := showStall s
  let s := if l = 2 ∧ s.adm.pool = standalonePool then { s with adm := { s.adm with pool := [] } } else s
  let s := if l = 0 then hieBit 4 false s else s
  let s := hieBit 1 (!s.hie.elect.isEmpty) s
  if l = role s ∧ !s.bit Reg.RST_START_STATUS 5 then
    let s := followTime (sendJoin l node (hieBit 5 false s))
    if l = 0 then reannounce s else s
  else s

/-- A rollout that runs halts (R287). -/
def haltRoll (s : State) : State := if s.fld Reg.HIE_ROLL_STATUS 0 4 = 1 then s.setFld Reg.HIE_ROLL_STATUS 0 4 2 else s

/-- Give up every managed level from `l` up; the reserve returns when none is left, and a rollout halts (R33, R274, R287). -/
def stepDown (l : Nat) (s : State) : State :=
  if role s ≤ l then s
  else
    let s := if role s = 3 then haltRoll s else s
    let s := (List.range 3).foldl (fun s i => if l ≤ i ∧ i < role s then s.setFld (Reg.HIE_MGR i) 16 1 0 else s) s
    let s := s.setFld Reg.HIE_STATUS 2 2 l
    let s := s.setFld Reg.LNK_TIME_PARENT 5 1 0
    if l = 0 then dropReserve s else s

/-- Become manager of a level: the role rises, the reserve is withheld and a BEACON goes out at once; the site manager is
the time root (R273, R279, R33). -/
def becomeManager (l term : Nat) (s : State) : State :=
  let s := (s.putN (Reg.HIE_MGR l) (ownNode s + 65536)).putN (Reg.HIE_TERM l) term
  let s := s.setFld Reg.HIE_STATUS 2 2 (l + 1)
  let s := { s with hie := { s.hie with
    heard := mput s.hie.heard l s.tb, key := mput s.hie.key l (ownKey s), elect := mdel s.hie.elect l, since := mput s.hie.since l s.tb } }
  let s := hieBit 1 (!s.hie.elect.isEmpty) (hieBit 5 false (hieBit 4 false s))
  let s := if l = 2 then ((s.putN Reg.LNK_TIME_PARENT (32 + 64 * s.fld Reg.LNK_TIME_PARENT 6 1)).putN Reg.LNK_TIME_STATUS 1) else s
  let s := if l = 2 ∧ s.adm.pool = standalonePool then { s with adm := { s.adm with pool := [] } } else s
  let s := sendBeacon false l (takeReserve s)
  match managerAbove s with
  | some m => if m = ownNode s then s else followTime (sendJoin (l + 1) m s)
  | none => s

/-- The final BEACON of every managed level from `l` up (R273). -/
def sayResign (l : Nat) (s : State) : State :=
  (List.range (role s)).foldl (fun s i => if l ≤ i then sendBeacon true i s else s) s

/-- Resign every level, with a final BEACON (R273). -/
def resign (s : State) : State :=
  let r := role s
  let s := sayResign 0 s
  (List.range r).foldl (fun s l => loseManager l s) (stepDown 0 s)

/-- A BEACON (R272 to R274, R290). -/
def beacon (hops level : Nat) (resign_ stall : Bool) (node term key gen stratum roll seq : Nat) (locked : Bool) (s : State) : State :=
  if !inScope s level node then s
  else
    let xs := [level + 4 * b2n resign_ + 8 * b2n stall, node, term, key, stratum + 16 * b2n locked, gen, roll, seq]
    let (new_, s) := floodOn level 0x70 hops node seq xs s
    if !new_ then s
    else
      let s := { s with hie := { s.hie with term := mput s.hie.term level (max term (lvl s.hie.term level)) } }
      let cur := mgrNode s level
      let better := decide (termOf s level < term) || (decide (termOf s level = term) && decide (lvl s.hie.key level ≤ key))
      if resign_ then (if cur = some node then loseManager level s else s)
      else if manages s level then
        (if better then adopt level node term key (stepDown level (sayResign level s)) else s)
      else if cur = some node then
        let s := if termOf s level ≠ term then s.putN (Reg.HIE_TERM level) term else s
        let since := if stall then some ((mget s.hie.stall level).getD s.tb) else none
        showStall { s with hie := { s.hie with
          heard := mput s.hie.heard level s.tb, key := mput s.hie.key level key,
          stall := match since with | some t => mput s.hie.stall level t | none => mdel s.hie.stall level } }
      else if cur.isNone ∨ better then adopt level node term key s
      else s

/-- BEACON (R274). -/
def execBeacon (src hops level : Nat) (resign stall : Bool) (node term key gen stratum roll seq : Nat) (locked : Bool) (s : State) : Out :=
  onUnit (decide (level < 3)) (beacon hops level resign stall node term key gen stratum roll seq locked (hear src s))

/-- MANAGER_LOSS (R272, R273, R290, R291): no BEACON for 30 ms, which count from step 8 at the earliest, or STALL for more than 2.5 s;
the level below must have had a manager for 30 ms. -/
def managerLoss (l : Nat) (s : State) : State :=
  if manages s l ∨ (mget s.hie.waits l).isSome ∨ (mget s.hie.elect l).isSome ∨ !s.bit Reg.RST_START_STATUS 15 then s
  else
    let below := l == 0 || (match mget s.hie.since (l - 1) with | some t => decide (t + 30000 ≤ s.tb) | none => false)
    let late := decide (lvl s.hie.heard l + 30000 ≤ s.tb) || (match mget s.hie.stall l with | some t => decide (t + 2500000 < s.tb) | none => false)
    if !late || !below then s
    else loseManager l (if (mgrNode s l).isSome then s.bump Reg.HIE_BEACON_MISS else s)

/-- MANAGER_LOSS (R272). -/
def execManagerLoss (level : Nat) (s : State) : Out := onUnit (decide (level < 3)) (managerLoss level s)

/-! ### Elections (R273) -/

/-- Flood this sled's CANDIDATE. -/
def sendCandidate (l term : Nat) (s : State) : State := floodOwn l 0x71 [l, ownNode s, term, ownKey s] s

/-- CANDIDATE_WAIT_EXPIRE (R273). -/
def execCandidateWaitExpire (level : Nat) (s : State) : Out :=
  onUnit (decide (level < 3)) (match mget s.hie.waits level with
    | none => s
    | some t =>
      if s.tb < t then s
      else
        let s := { s with hie := { s.hie with waits := mdel s.hie.waits level } }
        if !candidate s level then s
        else
          let term := lvl s.hie.term level + 1
          let s := { s with hie := { s.hie with
            term := mput s.hie.term level term, elect := mput s.hie.elect level ⟨term, s.tb, ownKey s, ownNode s⟩ } }
          sendCandidate level term (hieBit 1 true (s.bump Reg.HIE_ELECTIONS)))

/-- CANDIDATE (R273): a higher term ends a wait; the highest key of the term is kept, and a lower rival makes this sled
flood again. -/
def candidateIn (hops level node term key seq : Nat) (s : State) : State :=
  if !inScope s level node then s
  else
    let (new_, s) := floodOn level 0x71 hops node seq [level, node, term, key, seq] s
    if !new_ then s
    else
      let higher := decide (lvl s.hie.term level < term)
      let s := { s with hie := { s.hie with
        term := mput s.hie.term level (max term (lvl s.hie.term level)),
        waits := if higher then mdel s.hie.waits level else s.hie.waits } }
      match mget s.hie.elect level with
      | none => s
      | some e =>
        if e.term < term then hieBit 1 false { s with hie := { s.hie with elect := mdel s.hie.elect level } }
        else if term < e.term then s
        else
          let s := if e.bestKey < key then
              { s with hie := { s.hie with elect := mput s.hie.elect level { e with bestKey := key, bestNode := node } } } else s
          if key < ownKey s then sendCandidate level term s else s

/-- CANDIDATE (R273). -/
def execCandidate (src hops level node term key seq : Nat) (s : State) : Out :=
  onUnit (decide (level < 3)) (candidateIn hops level node term key seq (hear src s))

/-- ELECTION_TIMEOUT (R273): 20 ms after its first CANDIDATE, the candidate with the highest key becomes manager. -/
def execElectionTimeout (level : Nat) (s : State) : Out :=
  onUnit (decide (level < 3)) (match mget s.hie.elect level with
    | none => s
    | some e =>
      if s.tb < e.since + 20000 then s
      else if e.bestNode = ownNode s then becomeManager level e.term s
      else hieBit 1 false { s with hie := { s.hie with elect := mdel s.hie.elect level } })

/-- HIE_RESIGN (R273). -/
def execHieResign (s : State) : Out := .next (if role s = 0 then s else resign s)

end Sys2Proof.Machine
end

