-- ==== Sys2Proof/Machine/OpsCmd.lean ====
section
/-! DEFINITION. Commands of a queue (09): how one starts and what the tier commands share (04). -/

namespace Sys2Proof.Machine

/-! ### Fields of a command record -/

def recFence (r : CmdRec) : Bool := r.flags.getLsbD 0
def recIrq (r : CmdRec) : Bool := r.flags.getLsbD 1
def recPost (r : CmdRec) : Bool := r.flags.getLsbD 2
/-- A reserved field of the header is not zero (Table QUE-2). -/
def badHeader (r : CmdRec) : Bool := r.flags.extractLsb' 3 5 != 0 || r.rsvd != 0

/-- FAULT_PROGRAM of a command (R191). -/
def cmdFault : Status := ⟨0x41, 0x0A, 0xFFFF⟩

/-- A REFUSED_POLICY that is not a policy rule's. -/
def policy (res : Nat) : Status := ⟨0x22, res, 0xFFFF⟩

/-- DETAIL of REFUSED_ENERGY when the tenant is exhausted (20, R429). -/
def exhausted (s : State) (slot : Nat) : Option Nat :=
  if (s.twRd slot Reg.TW_NRG_K).testBit 8 then
    some (max 1 (cdiv (s.twRd slot Reg.TW_NRG_PERIOD_UJ) 1000000 - s.twRd slot Reg.TW_NRG_BUDGET_J))
  else none

/-- Refuse new work of an exhausted tenant, counted in NRG_REFUSED (20, R429). -/
def refuseEnergy (id detail : Nat) (s : State) : State := finish id ⟨0x23, 8, detail⟩ 0 (s.bump Reg.NRG_REFUSED)

/-! ### Starting a command (R190 to R192, R197) -/

/-- FENCE is met: every earlier command of the queue has its final completion written or held (R192); a program's does
not wait for the QPROG_RUN of the program itself (log entry 55). -/
def fenceMet (slot q : Nat) (r : CmdRec) (own : Option Nat) (s : State) : Bool :=
  !recFence r || !s.flights.any (fun f => f.slot == slot && f.queue == q && f.src != .auto && some f.id != own)

/-- The queue engine can take the next command of a ring (R190): the queue is ACTIVE and its ring not empty, the
tenant's function can read host memory, and nothing held waits to be replayed. -/
def canFetch (slot q : Nat) (s : State) : Bool :=
  match s.ten slot with
  | none => false
  | some t =>
    let k := mgetD t.queues {} q
    t.st == .active && k.st == .active && k.prod != k.cons && k.replaying == 0 &&
      (match t.fn with | some f => !(s.fn f).blocked | none => false)

/-- A flight for a started command, with its held-store slot (R197). -/
def newFlight (op slot q : Nat) (src : CmdSrc) (r : CmdRec) (s : State) : Nat × State :=
  let (id, s) := s.fresh
  (id, reserve slot 1 { s with flights := s.flights ++ [{ id := id, slot := slot, queue := q, src := src, op := op, cmdId := r.cmdId.toNat, irq := recIrq r, post := recPost r }] })

/-- A configuration commit takes effect (Table QUE-11, R189): a queue that is not ACTIVE becomes so, after the replay of
what it holds. -/
def applyQueueCommit (slot q : Nat) (c : QCfg) (s : State) : State :=
  let k := s.que slot q
  if k.st = .active then s.updQue slot q (fun k => { k with cfg := c, commit := none })
  else
    let left := ((s.ten slot).map (fun t => (t.held.filter (fun h => h.queue == q)).length)).getD 0
    let s := s.updQue slot q (fun k => { k with
      st := if left = 0 then .active else k.st, cfg := c, commit := none, prod := 0, cons := 0, head := 0, tail := 0, replaying := left,
      sems := if k.st = .unconfigured then [] else k.sems })
    replayAll slot q s

/-- Take a command from the front of its queue's ring and run it. A command without a free held-store slot waits and
is counted (R197); a bad header ends it with FAULT_PROGRAM (R191). -/
def ringCmd (op slot q : Nat) (r : CmdRec) (body : Nat → CmdRec → State → State) (s : State) : State :=
  if !canFetch slot q s || !fenceMet slot q r none s then s
  else if s.heldFree slot = 0 then
    if (s.que slot q).slotWait then s
    else (s.updQue slot q (fun k => { k with slotWait := true })).twBump slot Reg.TW_Q_HELD_WAIT
  else
    let s := s.updQue slot q (fun k => { k with cons := (k.cons + 1) % 2 ^ 32, slotWait := false })
    let s := (s.twBump slot Reg.TW_Q_CMDS).bump Reg.QUE_CMDS
    let s := hostIn slot 64 s
    let (id, s) := newFlight op slot q .ring r s
    let s := if badHeader r then finish id cmdFault 0 s else body id r s
    let k := s.que slot q
    match k.commit with
    | some c => if k.prod = k.cons then applyQueueCommit slot q c s else s
    | none => s

/-- The slot and local queue of a flight. -/
def slotOfFlight (s : State) (id : Nat) : Nat := ((s.flight id).map (·.slot)).getD 0

/-- Run a command's body on the object a handle names, or end it with the check's failure (R81, R191). -/
def withObj (id : Nat) (h : DWord) (isWrite : Bool) (off len : Nat) (body : Named → State → State) (s : State) : State :=
  match checkHandle s (slotOfFlight s id) h isWrite off len 0xFFFF 0xFFFF with
  | .error st => finish id st 0 s
  | .ok n => body n s

/-! ### Placement (R86, R87, R90) -/

/-- Bytes of T1 a tenant may still take: within its reservation or ceiling. -/
def hbmRoom (s : State) (slot : Nat) : Nat :=
  ((s.ten slot).map (fun t => t.vec.hbm * unit2M - tierUse s slot 1)).getD 0

/-- Bytes charged to HBM whatever the homes: the page map, and the window while a page is below T1. -/
def Obj.fixedCharge (o : Obj) (below : Bool) : Nat :=
  (if o.tile then 0 else 16 * o.count) + (if o.flag 4 && below then o.depth * o.segPages * pageBytes else 0)

/-- Make room in T1: borrowers are demoted for what is lacking (R86); answers whether it is found. -/
def makeRoom (bytes : Nat) (s : State) : Bool × State :=
  let need := bytes - freeT1 s * unit2M
  if need = 0 then (true, s)
  else
    let (rest, s) := demoteTenants false borrowed (demoteOrder s) need s
    (rest == 0, s)

/-- Pages of `n` stored bytes that fit in a lower tier, up to `want`. -/
def fitsIn (s : State) (slot t : Nat) (loc n want : Nat) : Nat :=
  let b := round4K n
  match s.ten slot with
  | none => 0
  | some ten =>
    if t = 2 then min want (min (orangRoom s slot ten / b) (writeRoom s ten / n))
    else if t = 3 then
      min want ((((mget ten.regions loc).map (fun r => if r.revoked || r.backoff.isSome then 0 else r.size - regionUse ten loc)).getD 0) / b)
    else want

/-- The runs of pages of an object below T1: T2, then T3 in the first region with room, then T4 (R86, R94). The last
number is what found no place. -/
def lowerRuns (s : State) (slot : Nat) (o : Obj) (n want : Nat) : List (Nat × Nat × Nat) × Nat :=
  let a := fitsIn s slot 2 0 n want
  let reg := if o.flag 11 then (s.ten slot).bind (fun t => regionFor t (round4K n)) else none
  let b := match reg with | some r => fitsIn s slot 3 r n (want - a) | none => 0
  let c := if o.flag 12 && (lendPeer s).isSome then want - a - b else 0
  ([(2, 0, a), (3, reg.getD 0, b), (4, (lendPeer s).getD 0, c)].filter (fun r => r.2.2 != 0), want - a - b - c)

/-- Lay out an object: `nT1` pages at home in T1, then the runs below. -/
def layOut (o : Obj) (stored nT1 now : Nat) (runs : List (Nat × Nat × Nat)) : Obj :=
  let all := (if nT1 = 0 then [] else [(1, 0, nT1)]) ++ runs
  match all with
  | [] => o
  | (t, l, _) :: rest =>
    let page := fun (t l : Nat) => ({ tier := t, loc := l, stored := if t = 1 then 0 else stored, lastUse := now } : Page)
    let first := (all.head?.map (fun r => r.2.2)).getD 0
    let put := fun (acc : Nat × Obj) (r : Nat × Nat × Nat) =>
      (acc.1 + r.2.2, (List.range r.2.2).foldl (fun o i => o.setPage (acc.1 + i) (page r.1 r.2.1)) acc.2)
    (rest.foldl put (first, { o with base := page t l, pages := [] })).2

/-- Place an object under R86: the object laid out, or the refusal. -/
def place (slot : Nat) (o : Obj) (s : State) : Except Status Obj × State :=
  let n := o.count
  let per := o.t1Bytes
  let hot := o.flag 0 || o.flag 3
  let room := hbmRoom s slot
  let want := n * per + o.fixedCharge false
  let (stored, s) := drawSize o s
  if o.flag 3 ∧ (s.ten slot).any (fun t => decide (t.vec.hbm * unit2M < pinUse s slot + want)) then
    (.error ⟨0x21, 1, cdiv (pinUse s slot + want - ((s.ten slot).map (fun t => t.vec.hbm)).getD 0 * unit2M) unit2M⟩, s)
  else if hot ∧ room < want then (.error ⟨0x21, 1, cdiv (want - room) unit2M⟩, s)
  else
    let cold := o.flag 2
    let t1ok := !cold || decide (s.rdN Reg.TIER_WM_HIGH < freeT1 s)
    let (all, s) := if t1ok && decide (want ≤ room) then makeRoom want s else (false, s)
    if all then (.ok (layOut o stored n s.tb []), s)
    else if hot then (.error ⟨0x20, 1, cdiv (want - freeT1 s * unit2M) unit2M⟩, s)
    else
      let fixed := o.fixedCharge true
      if room < fixed then (.error ⟨0x21, 1, cdiv (fixed - room) unit2M⟩, s)
      else
        let nT1 := if t1ok && !o.tile then min n (min ((room - fixed) / per) (freeT1 s * unit2M / per)) else 0
        let (runs, left) := lowerRuns s slot o stored (n - nT1)
        if left = 0 then (.ok (layOut o stored nT1 s.tb runs), s)
        else if room < want then (.error ⟨0x21, 1, cdiv (want - room) unit2M⟩, s)
        else (.error ⟨0x20, 1, cdiv (want - freeT1 s * unit2M) unit2M⟩, s)

/-! ### Moves and data -/

/-- Why a read of a page fails: it is poisoned (R97, R99). -/
def poisonStatus (p : Page) : Status := ⟨0x40, tierRes p.tier, p.tier⟩

/-- The pages of a byte range. -/
def pagesOf (o : Obj) (off len : Nat) : List Nat :=
  if o.tile then [0] else if len = 0 then [] else
  (List.range ((off + len - 1) / pageBytes - off / pageBytes + 1)).map (fun i => off / pageBytes + i)

/-- The range covers the whole page. -/
def covers (o : Obj) (off len i : Nat) : Bool :=
  if o.tile then off == 0 && len == o.size
  else decide (off ≤ i * pageBytes) && decide ((i + 1) * pageBytes ≤ off + len)

/-- A write meets a move (R100): the move is abandoned and counted; a PLACE is reissued once, then refused. -/
def cancelMove (m : Move) (s : State) : State :=
  let s := (dropMove m s).bump Reg.TIER_MOVE_CANCEL
  let again : Unit → State := fun _ =>
    let s := startMove m.slot m.obj m.page m.dst m.dstLoc m.cause s
    { s with moves := updWhere s.moves (fun n => n.slot == m.slot && n.obj == m.obj && n.page == m.page) (fun n => { n with reissued := true }) }
  match m.cause with
  | .place f => if m.reissued then partDone f ⟨0x24, tierRes m.dst, 0⟩ s else again ()
  | .access _ | .dereg _ => again ()
  | _ => s

/-- Cancel every move of the pages that a write touches. -/
def cancelMoves (slot obj : Nat) (pages : List Nat) (s : State) : State :=
  (s.moves.filter (fun m => m.slot == slot && m.obj == obj && pages.contains m.page)).foldl (fun s m => cancelMove m s) s

/-- Count bytes of a page access at its home (20, Table NRG-1). -/
def chargeAccess (slot : Nat) (p : Page) (n : Nat) (isWrite : Bool) (s : State) : State :=
  if p.tier = 1 then charge slot 1 n s
  else if p.tier = 2 ∧ !isWrite then charge slot 2 p.stored s
  else if p.tier = 3 ∧ !isWrite then hostIn slot p.stored s
  else s

/-- Bytes of a page of an object, or of a tile object, that a range touches. -/
def touched (o : Obj) (off len i : Nat) : Nat :=
  if o.tile then len else min (off + len) ((i + 1) * pageBytes) - max off (i * pageBytes)

/-- Account for one page that a write touches: a whole-page write below T1 is stored anew at its home, and clears
poison under R86's placement (R88, R91, R97). -/
def writePage (slot idx : Nat) (whole : Bool) (part : Nat) (s : State) (i : Nat) : State :=
  match s.obj slot idx with
  | none => s
  | some o =>
    let p := o.page i
    let n := o.t1Bytes
    if whole ∧ p.poison then
      let (stored, s) := drawSize o s
      let home : Nat × Nat := if n ≤ hbmRoom s slot then (1, 0) else ((lowerTier s slot (o.flag 11) (o.flag 12) (lendPeer s) stored).getD (1, 0))
      let s := s.setObj slot idx (o.setPage i { p with
        tier := home.1, loc := home.2, poison := false, stored := if home.1 = 1 then 0 else stored, lastUse := s.tb })
      if home.1 = 1 then charge slot 1 part s else if home.1 = 2 then chargeWrite slot stored s else if home.1 = 3 then hostOut slot stored s else s
    else if whole ∧ 1 < p.tier then
      let (stored, s) := drawSize o s
      let s := s.setObj slot idx (o.setPage i { p with stored := stored, lastUse := s.tb })
      let s := (s.bumpBy Reg.TIER_RAW_BYTES n).bumpBy Reg.TIER_STORED_BYTES stored
      if p.tier = 2 then chargeWrite slot stored s else if p.tier = 3 then hostOut slot stored s else s
    else chargeAccess slot p part true (s.setObj slot idx (o.setPage i { p with lastUse := s.tb }))

/-- Write bytes into an object whose partly written pages are in T1 (R88, R100). -/
def storeBytes (slot idx off : Nat) (bytes : List Byte) (s : State) : State :=
  match s.obj slot idx with
  | none => s
  | some o =>
    let pages := pagesOf o off bytes.length
    let s := cancelMoves slot idx pages s
    let s := pages.foldl (fun s i => writePage slot idx (covers o off bytes.length i) (touched o off bytes.length i) s i) s
    s.updObj slot idx (fun o => { o with data := writeBytes o.data off bytes })

/-- A write would meet a lease (R85): the resource of the first leased page's home. -/
def leaseBlock (o : Obj) (pages : List Nat) : Option Nat :=
  (pages.find? (fun i => decide (0 < (o.page i).readLeases + (o.page i).stepLeases))).map (fun i => tierRes (o.page i).tier)

/-- Pages that must be promoted before an access (R88): partly written, or read without READONLY, below T1. -/
def mustPromote (o : Obj) (off len : Nat) (isWrite : Bool) : List Nat :=
  (pagesOf o off len).filter (fun i =>
    let p := o.page i
    decide (1 < p.tier) && !p.poison && (if isWrite then !covers o off len i else !o.flag 8))

/-- Start promotions for a flight, joining moves to T1 already under way; the flight waits for each. -/
def promoteFor (id slot idx : Nat) (pages : List Nat) (s : State) : State :=
  let s := s.updFlight id (fun f => { f with left := f.left + pages.length })
  pages.foldl (fun s i =>
    match s.obj slot idx with
    | none => s
    | some o => if (o.page i).mv.isSome then
        { s with moves := updWhere s.moves (fun m => m.slot == slot && m.obj == idx && m.page == i) (fun m => { m with waiters := m.waiters ++ [id] }) }
      else startMove slot idx i 1 0 (.access id) s) s

/-- The context and the turn that a TURN's flight belongs to. -/
def turnOf (s : State) (id : Nat) : Option (Nat × Turn) :=
  s.sch.ctxs.findSome? (fun c =>
    match c.2.turn with
    | some t => if t.flight = id then some (c.1, t) else (c.2.waiting.find? (fun t => t.flight == id)).map (fun t => (c.1, t))
    | none => none)

/-- A turn that never reached its context ends with a status (02, Table DEV-30). -/
def turnFail (id : Nat) (st : Status) (s : State) : State :=
  match turnOf s id with
  | none => finish id st 0 s
  | some (cid, t) =>
    match s.ctx cid with
    | none => s
    | some c =>
      if c.turn = some t then endTurn cid [st] 0 s
      else
        let s := s.updCtx cid (fun c => { c with waiting := c.waiting.filter (fun u => u.flight != id) })
        turnEnd cid c t [st] 0 0 s

/-- Token IDs, 32-bit little-endian (09, R193). -/
def tokensOf : List Nat → List Nat
  | a :: b :: c :: d :: r => (a + 256 * b + 65536 * c + 16777216 * d) :: tokensOf r
  | _ => []

/-- The token IDs of a turn have arrived (02, Table DEV-30, stage 1). -/
def tokensArrive (id : Nat) (toks : List Nat) (s : State) : State :=
  match turnOf s id with
  | none => s
  | some (cid, _) =>
    let upd := fun (t : Turn) => if t.flight = id then { t with input := toks, fetched := true } else t
    s.updCtx cid (fun c => { c with turn := c.turn.map upd, waiting := c.waiting.map upd })

/-- Read bytes of an object for a command whose pages are ready, or end it with the poison of a page. -/
def readReady (id slot idx off len : Nat) (k : Memory → State → State) (s : State) : State :=
  match s.obj slot idx with
  | none => finish id ⟨0x42, 0, 0xFFFF⟩ 0 s
  | some o =>
    let pages := pagesOf o off len
    match pages.find? (fun i => (o.page i).poison) with
    | some i => finish id (poisonStatus (o.page i)) 0 s
    | none => k o.data (pages.foldl (fun s i => chargeAccess (slotOfFlight s id) (o.page i) (touched o off len i) false
        (s.updObj slot idx (fun o => o.setPage i { o.page i with lastUse := s.tb }))) s)

/-- A core whose load ended without success is not loading any more. -/
def loadOver (id : Nat) (s : State) : State :=
  { s with fab := { s.fab with cores := mmap s.fab.cores (fun _ c => if c.loading = some id then { c with loading := none } else c) } }

/-- The pages that an event command reads or writes are ready (10, 11). -/
def eventReady (id : Nat) (f : Flight) (s : State) : State :=
  match f.op, f.args, f.data with
  | 0x30, [ws, wi, ps, pi, core, axon, out], _ =>
    loadOver id (readReady id ws wi 0 131072 (fun w => readReady id ps pi 0 2048 (fun p => coreLoaded id core axon out w p)) s)
  | 0x32, [slot, idx, n], _ =>
    readReady id slot idx 0 (16 * n) (fun m s =>
      let rs := (List.range n).map (fun i => routeRec f.slot 0 (readLE m (16 * i) 8) (readLE m (16 * i + 8) 8))
      match badRoute s rs with
      | some i => finish id ⟨0x22, 6, i⟩ 0 s
      | none => routeWrite ⟨f.slot, some id, rs.map (·.1)⟩ s) s
  | 0x37, [slot, idx], some bytes => finish id ⟨0, 0, 0⟩ 0 (storeBytes slot idx 0 (bytes.map (BitVec.ofNat 8)) s)
  | 0x39, [slot, idx, p, n, imm], _ =>
    readReady id slot idx 0 (8 * n) (fun m =>
      acceptList id p ((List.range n).map (fun i => BitVec.ofNat 64 (readLE m (8 * i) 8))) (imm == 1)) s
  | _, _, _ => s

/-- Finish a WRITE whose data have arrived and whose pages are ready, or a READ whose pages are ready. -/
def accessReady (id : Nat) (s : State) : State :=
  match s.flight id with
  | none => s
  | some f =>
    if f.left ≠ 0 then s
    else if f.status.code ≠ 0 then (if f.op = 0x1B then turnFail id f.status s else finish id f.status 0 (loadOver id s))
    else if 0x30 ≤ f.op then eventReady id f s
    else match f.op, f.args, f.data with
      | 0x1B, [slot, idx, off, len], _ =>
        match s.obj slot idx with
        | some o =>
          let pages := pagesOf o off len
          match pages.find? (fun i => (o.page i).poison) with
          | some i => turnFail id (poisonStatus (o.page i)) s
          | none =>
            let s := pages.foldl (fun s i => chargeAccess f.slot (o.page i) (touched o off len i) false s) s
            tokensArrive id (tokensOf ((readBytes o.data off len).map (·.toNat))) s
        | none => turnFail id ⟨0x42, 0, 0xFFFF⟩ s
      | 8, [slot, idx, off, _], some bytes =>
        finish id ⟨0, 0, 0⟩ 0 (storeBytes slot idx off (bytes.map (BitVec.ofNat 8)) s)
      | 9, [slot, idx, off, len, iova], _ =>
        match s.obj slot idx, (s.ten f.slot).bind (fun t => t.fn) with
        | some o, some fn =>
          let pages := pagesOf o off len
          match pages.find? (fun i => (o.page i).poison) with
          | some i => finish id (poisonStatus (o.page i)) 0 s
          | none =>
            let s := pages.foldl (fun s i => chargeAccess f.slot (o.page i) (touched o off len i) false (s.updObj slot idx (fun o => o.setPage i { o.page i with lastUse := s.tb }))) s
            postData id fn iova ((readBytes o.data off len).map (·.toNat)) s
        | _, _ => finish id ⟨0x31, 9, 0⟩ 0 s
      | _, _, _ => s

/-- A part that a WRITE or READ waits on ended. -/
def accessPart (id : Nat) (st : Status) (s : State) : State :=
  accessReady id (s.updFlight id (fun f => { f with left := f.left - 1, status := if f.status.code < st.code then st else f.status }))

/-- Issue a device read of host memory for a slot (15, R315); the tag is the model's number for it. -/
def hostRead (slot iova len : Nat) (use : ReadFor) (s : State) : State :=
  match (s.ten slot).bind (fun t => t.fn) with
  | none => s
  | some f =>
    let (tag, s) := s.fresh
    { s with reads := s.reads ++ [⟨tag, f, slot, use, iova, len, s.tb⟩] }

end Sys2Proof.Machine
end

