-- ==== Sys2Proof/Machine/OpsMove.lean ====
section
/-! DEFINITION. How tier moves end (04, R84, R92, R102, R103; 05, R125). -/

namespace Sys2Proof.Machine

/-! ### Lossy conversion (R92) -/

/-- Bytes of one block of 32 elements in a typed page. -/
def blockBytes (fmt : Nat) : Nat := 4 * elemBits fmt + (if scaled fmt then 1 else 0)

/-- The values of a block in a typed page. -/
def pageBlock (m : Memory) (a fmt alt : Nat) : List Num :=
  let sc := if scaled fmt then some (readByte m (a + 4 * elemBits fmt)).toNat else none
  (List.range 32).map (fun c =>
    let x := elemNum fmt alt (getElem m a fmt c)
    match sc with | some s => scaleNum s x | none => x)

/-- Put 32 values into a block of a typed page. -/
def putPageBlock (m : Memory) (a fmt alt : Nat) (xs : List Num) : Memory :=
  let us := List.replicate 32 0
  let put := fun (m : Memory) (els : List Nat) => ((List.range 32).zip els).foldl (fun m p => putElem m a fmt p.1 p.2) m
  if scaled fmt then
    let (s, els, _) := encodeBlock fmt alt 0 us xs
    writeByte (put m els) (a + 4 * elemBits fmt) (BitVec.ofNat 8 s)
  else put m (xs.map (fun x => (elemEncode fmt alt 0 0 x).1))

/-- A block quantised to MXFP4 with RNE. -/
def quantizeBlock (xs : List Num) : List Num :=
  let (s, els, _) := encodeBlock 9 0 0 (List.replicate 32 0) xs
  els.map (fun e => scaleNum s (elemNum 9 0 e))

/-- The bytes `a` to `a + n - 1` of a typed object converted to MXFP4, whole blocks only; the rest stay. -/
def lossyBytes (m : Memory) (fmt alt a n : Nat) : Memory :=
  (List.range (n / blockBytes fmt)).foldl (fun m i =>
    let b := a + i * blockBytes fmt
    putPageBlock m b fmt alt (quantizeBlock (pageBlock m b fmt alt))) m

/-- A LOSSY_OK page is converted as it is demoted from T1 (R92). -/
def lossyPage (o : Obj) (i : Nat) : Obj :=
  if o.tile then
    { o with data := (List.range (cdiv o.size pageBytes)).foldl (fun m k => lossyBytes m o.elem o.elemAlt (k * pageBytes) (min pageBytes (o.size - k * pageBytes))) o.data }
  else { o with data := lossyBytes o.data o.elem o.elemAlt (i * pageBytes) pageBytes }

/-! ### Ends of moves -/

/-- A remote block's first fetch failed (05, R125): it and every later matched block are dropped, the context
prefills from there, and the turn notes DONE_RETRIED. -/
def remoteFail (cid b : Nat) (s : State) : State :=
  match s.ctx cid with
  | none => s
  | some c =>
    let s := dropBlocks c.slot (c.blocks.drop b) (c.blocks.take b) s
    let s := s.updCtx cid (fun c =>
      let todo := c.ids.drop (64 * b) ++ c.todo
      { c with
        blocks := c.blocks.take b, ids := c.ids.take (64 * b), length := min c.length (64 * b), todo := todo, fed := false,
        due := c.due.filter (fun i => decide (i < b)), needPrefill := decide (1 < todo.length),
        images := c.images.filter (fun p => decide (p.1 < b)) })
    noteTurn cid ⟨2, 7, 1⟩ (s.bump Reg.PFX_REMOTE_FAIL)

/-- Contexts that hold the block of a page end their turns with a status (R102). -/
def endWaiters (slot obj : Nat) (st : Status) (s : State) : State :=
  let holds := fun (c : Ctx) => c.blocks.any (fun b =>
    match b with
    | .priv o => c.slot == slot && o == obj
    | .entry n => (s.entry n).any (fun e => e.publisher == some slot && e.block == obj)
    | .remote _ _ _ => false)
  ((s.sch.ctxs.filter (fun c => holds c.2 && c.2.turn.isSome)).map (·.1)).foldl (fun s i => endTurn i [st] 0 s) s

/-- A tile move of a cluster ended without success; filled in by the launch operations. -/
def tileMoveFailed (cluster token : Nat) (st : Status) (s : State) : State :=
  { s with tileFails := s.tileFails ++ [(cluster, token, st)] }

/-- A move ended without committing: its home stays at the source, and what required it ends with a status; a
device-initiated move only counts for its owner (R84, R102 to R104). -/
def failMove (m : Move) (st : Status) (s : State) : State :=
  let s := dropMove m s
  let s := m.waiters.foldl (fun s f => accessPart f st s) s
  match m.cause with
  | .demotion | .retire => s.outcome m.slot st
  | .promotion _ => if st.code = 0x32 then endWaiters m.slot m.obj st s else s.outcome m.slot st
  | .place f | .flush f | .dereg f => partDone f st s
  | .access f => accessPart f st s
  | .image c b _ => remoteFail c b s
  | .tile k t => tileMoveFailed k t st s

/-- DEREG_HOST is complete once its region is empty (R98): the region goes. -/
def deregPart (f : Nat) (s : State) : State :=
  match s.flight f with
  | none => s
  | some x =>
    let s := if x.left = 1 ∧ x.status.code = 0 then
        s.updTen x.slot (fun t => { t with regions := (x.args.head?.map (fun r => mdel t.regions r)).getD t.regions })
      else s
    partDone f ⟨0, 0, 0⟩ s

/-- A move commits (R84): the home switches, what is stored is counted, and what waited on it goes on. -/
def commitMove (m : Move) (s : State) : State :=
  let s := { s with moves := s.moves.filter (fun n => n.id != m.id) }
  let s := s.bump Reg.TIER_MOVES_DONE
  match m.cause with
  | .image c b g => s.updCtx c (fun x => { x with images := if x.images.contains (b, g) then x.images else x.images ++ [(b, g)] })
  | _ =>
  match s.obj m.slot m.obj with
  | none => s
  | some o =>
    let p := o.page m.page
    let lossy := m.src == 1 && decide (1 < m.dst) && o.flag 9
    let n := o.t1Bytes
    let (drawn, s) := drawSize o s
    let stored := m.stored.getD drawn
    let p' : Page := { p with
      tier := m.dst, loc := m.dstLoc, mv := none, lossy := decide (1 < m.dst) && (lossy || p.lossy),
      stored := if m.dst = 1 then 0 else if m.src = 1 then stored else p.stored }
    let s := s.setObj m.slot m.obj ((if lossy then lossyPage o m.page else o).setPage m.page p')
    let s := if lossy then s.twBump m.slot Reg.TW_LOSSY_PAGES else s
    let s := if m.src = 1 then (s.bumpBy Reg.TIER_RAW_BYTES n).bumpBy Reg.TIER_STORED_BYTES stored else s
    let s := if m.src = 1 ∨ m.dst = 1 then charge m.slot 1 n s else s
    let s := if m.src = 2 then charge m.slot 2 p.stored s else s
    let s := if m.src = 3 then hostIn m.slot p.stored s else s
    let s := if m.dst = 3 then hostOut m.slot p'.stored s else s
    let s := if m.dst = 2 then chargeWrite m.slot p'.stored s else s
    let s := m.waiters.foldl (fun s f => accessPart f ⟨0, 0, 0⟩ s) s
    match m.cause with
    | .demotion => (s.outcome m.slot ⟨0x13, tierRes m.src, m.dst⟩).twBump m.slot Reg.TW_DEMOTED_PAGES
    | .place f | .flush f => partDone f ⟨0, 0, 0⟩ s
    | .dereg f => deregPart f s
    | .access f => accessPart f ⟨0, 0, 0⟩ s
    | _ => s

/-- A move in flight. -/
def State.move (s : State) (id : Nat) : Option Move := s.moves.find? (fun m => m.id == id)

end Sys2Proof.Machine
end

