-- ==== Sys2Proof/Machine/OpsLookup.lean ====
section
/-! DEFINITION. The lookup of a turn, its directory queries, and the moves of a step's pages (05). -/

namespace Sys2Proof.Machine

/-! ### Managers (13) -/

/-- DOMAIN and KEYGEN as one field of a message (Table PFX-10). -/
def domField (dom kg : Nat) : Nat := dom % 4096 + 4096 * (kg % 16)

/-! ### The lookup (R107 to R112) -/

/-- The widest scope a tenant's lookups may match (R110). -/
def widest (s : State) (dom : Nat) : Nat := if (domCfg s dom).testBit 0 then 1 else 0

/-- The scopes of one block's probe, from the widest still allowed; domain 0 skips scope 1. -/
def scopesFrom (lo dom : Nat) : List Nat := ([0, 1, 2].filter (fun t => decide (lo ≤ t))).filter (fun t => !(dom == 0 && t == 1))

/-- A pinned entry whose pages are moving from T1 to T2: each such move not committed is abandoned (R51). -/
def abandonDemotions (n : Nat) (s : State) : State :=
  match s.entry n with
  | none => s
  | some e =>
    let p := fun (m : Move) => e.publisher == some m.slot && m.obj == e.block && m.src == 1 && m.dst == 2
    (s.moves.filter p).foldl (fun s m => (dropMove m s).bump Reg.PFX_ABANDON_DEMOTE) s

/-- Pin an entry (R111). -/
def pin (n : Nat) (s : State) : State :=
  abandonDemotions n (s.updEntry n (fun e => { e with pins := e.pins + 1, lastUse := s.tb }))

/-- Probe one scope of a block: the pinned entry and its link, or a miss (R110, R111). -/
def probeScope (dom owner : Nat) (h : BitVec 128) (toks : List Nat) (scope : Nat) (s : State) : Option (Nat × Link) × State :=
  let d := scopeDom scope dom
  let x := chainHash (domKey s d) h toks
  let s := countProbe s
  match probe s d (keygen s d) (if scope = 2 then owner else 0) x with
  | none => (none, s)
  | some (n, e) =>
    if e.pins < 65535 then (some (n, ⟨x, scope, keygen s d⟩), pin n s) else (none, s.bump Reg.PFX_PIN_SAT)

/-- Probe the scopes of one block in order until one matches. -/
def probeBlock (dom owner : Nat) (h : BitVec 128) (toks : List Nat) : List Nat → State → Option (Nat × Link) × State
  | [], s => (none, s)
  | t :: r, s =>
    match probeScope dom owner h toks t s with
    | (some x, s) => (some x, s)
    | (none, s) => probeBlock dom owner h toks r s

/-- The loop of R110 over the blocks from `i`; the fuel is the number of blocks that may be tested. -/
def matchRun (dom owner : Nat) (toks : List Nat) : Nat → Nat → Nat → BitVec 128 → State → List (BlockRef × Link) × State
  | 0, _, _, _, s => ([], s)
  | n + 1, i, lo, h, s =>
    match probeBlock dom owner h (blockTokens toks i) (scopesFrom lo dom) s with
    | (none, s) => ([], s)
    | (some (e, l), s) =>
      let (r, s) := matchRun dom owner toks n (i + 1) l.scope l.hash (s.bump Reg.PFX_HASHED_BLOCKS)
      ((.entry e, l) :: r, s)

/-- The hash before block `i` of a context (R105). -/
def hashBefore (s : State) (c : Ctx) (i : Nat) : BitVec 128 :=
  if i = 0 then ((s.model c.model).map (·.tag)).getD 0 else ((c.chain[i - 1]?).map (·.hash)).getD 0

/-- The scope of the last block before `i`; the widest where there is none. -/
def scopeBefore (c : Ctx) (i : Nat) : Nat :=
  match i with
  | 0 => 0
  | i + 1 => match c.chain[i]? with | some l => if l.scope = 3 then 0 else l.scope | none => 0

/-- Blocks that a context holds as pinned published entries, from its start. -/
def Ctx.shared (c : Ctx) : Nat := (c.blocks.takeWhile (fun b => match b with | .priv _ => false | _ => true)).length

/-- The last testable block, plus 1 (R110). -/
def Ctx.testable (c : Ctx) : Nat := (c.ids.length + c.todo.length - 1) / 64

/-- Put matched blocks into a context's block list from block `p`: they replace its own pages for those blocks, and
tokens they cover are no longer input (R112). -/
def installRun (cid p : Nat) (run : List (BlockRef × Link)) (s : State) : State :=
  match s.ctx cid with
  | none => s
  | some c =>
    let m := p + run.length
    let blocks := c.blocks.take p ++ run.map (·.1) ++ c.blocks.drop m
    let s := dropBlocks c.slot ((c.blocks.drop p).take run.length) blocks s
    let toks := c.ids ++ c.todo
    let s := s.updCtx cid (fun c =>
      let c := { c with blocks := blocks, chain := c.chain.take p ++ run.map (·.2), due := c.due.filter (fun i => decide (i < p) || decide (m ≤ i)) }
      if c.length < 64 * m then { c with ids := toks.take (64 * m), todo := toks.drop (64 * m), length := 64 * m, fed := false } else c)
    (s.twBump c.slot Reg.TW_PFX_HITS run.length).bumpBy (if run.any (fun b => match b.1 with | .remote _ _ _ => true | _ => false) then Reg.PFX_DIR_HITS else Reg.PFX_HIT_BLOCKS) run.length

/-- The publication scope of a turn before the context's last block narrows it: 0 PUBLIC to 2 PRIVATE, 3 none
(R107, R108). -/
def turnScope (s : State) (dom req : Nat) : Nat :=
  if req = 2 then (if dom = 0 ∨ (domCfg s dom).testBit 1 then 0 else 1)
  else if req = 0 then (if dom = 0 then 0 else 1)
  else if req = 1 then 2 else 3

/-- Hash the full block `i` under a scope; a turn that publishes nothing keys it as PRIVATE. -/
def hashBlock (s : State) (dom scope : Nat) (h : BitVec 128) (toks : List Nat) : Link :=
  let d := scopeDom scope dom
  ⟨chainHash (domKey s d) h toks, scope, keygen s d⟩

/-- Hash the full blocks of a token list that the chain does not yet hold (R110). The fuel is their number. -/
def extendChain (s : State) (c : Ctx) (dom : Nat) (toks : List Nat) : Nat → List Link → List Link
  | 0, ch => ch
  | n + 1, ch =>
    let h := hashBefore s { c with chain := ch } ch.length
    extendChain s c dom toks n (ch ++ [hashBlock s dom c.pub h (blockTokens toks ch.length)])

/-- Hash a context's full blocks among its tokens and count them. -/
def hashFull (cid : Nat) (toks : List Nat) (s : State) : State :=
  match s.ctx cid with
  | none => s
  | some c =>
    let n := toks.length / 64 - c.chain.length
    let dom := ((s.ten c.slot).map (·.domain)).getD 0
    (s.setCtx cid { c with chain := extendChain s c dom toks n c.chain }).bumpBy Reg.PFX_HASHED_BLOCKS n

/-- The lookup is over: unmatched full blocks are hashed under the publication scope and the turn is bound (02,
Table DEV-30; R108, R110). -/
def finishLookup (cid : Nat) (s : State) : State :=
  match s.ctx cid with
  | none => s
  | some c =>
    match c.turn with
    | none => s
    | some t =>
      let dom := ((s.ten c.slot).map (·.domain)).getD 0
      let want := turnScope s dom t.scope
      let s := if t.scope = 2 ∧ want ≠ 0 then s.bump Reg.PFX_SCOPE_DOWN else s
      let pub := if want = 3 then 3 else max want (scopeBefore c c.chain.length)
      let s := s.updCtx cid (fun c => { c with
        pub := pub, needPrefill := decide (1 < c.todo.length), turn := some { t with matched := true } })
      let s := hashFull cid (c.ids ++ c.todo) s
      if c.st = .frozen then s.updCtx cid (fun c => { c with frozenFrom := .ready }) else becomeReady cid s

/-! ### The directory (R121) -/

/-- The hashes of up to `n` blocks from block `i` under one scope. -/
def followHashes (s : State) (d : Nat) (toks : List Nat) : Nat → Nat → BitVec 128 → List (BitVec 128)
  | 0, _, _ => []
  | n + 1, i, h =>
    let x := chainHash (domKey s d) h (blockTokens toks i)
    x :: followHashes s d toks n (i + 1) x

/-- The scope that a directory query asks under: the widest still allowed whose domain is a SITE domain (log entry
33). -/
def queryScope (s : State) (lo dom : Nat) : Option Nat :=
  (scopesFrom lo dom).find? (fun t => t != 2 && domSite s (scopeDom t dom))

/-- A lookup missed locally: in a SITE domain with a chassis manager it asks the directory for up to 12 following
blocks; otherwise the turn is bound. -/
def askDirectory (cid : Nat) (s : State) : State :=
  match s.ctx cid with
  | none => s
  | some c =>
    let dom := ((s.ten c.slot).map (·.domain)).getD 0
    let i := c.shared
    let n := min 12 (c.testable - i)
    match queryScope s (max (widest s dom) (scopeBefore c i)) dom, (if outcast s then none else mgrNode s 0) with
    | some t, some m =>
      if n = 0 then finishLookup cid s
      else
        let d := scopeDom t dom
        let hs := followHashes s d (c.ids ++ c.todo) n i (hashBefore s c i)
        let id := s.pfx.nextQuery
        let w : DirWait := ⟨id, cid, c.turns, none, d, keygen s d, t, i, hs⟩
        let s := { s with pfx := { s.pfx with waits := s.pfx.waits ++ [w], nextQuery := (id + 1) % 65536 } }
        (sendReq (.query id) 0 0x51 m (fun _ => [hs.length, domField d (keygen s d), id] ++ hs.map (fun h => (h.extractLsb' 0 64).toNat))
          (s.bump Reg.PFX_DIR_QUERIES)).2
    | _, _ => finishLookup cid s

/-- The lookup of a context's current turn (R110). -/
def lookup (cid : Nat) (s : State) : State :=
  let s := commitApply s Reg.PFX_DOM_COMMIT
  match s.ctx cid with
  | none => s
  | some c =>
    match c.turn, s.ten c.slot with
    | some t, some ten =>
      if c.st ≠ .idle ∨ !t.fetched ∨ t.matched ∨ s.pfx.waits.any (fun w => w.ctx == cid && w.turn == c.turns) then s
      else
        let c := bindTurn c t
        let s := (s.setCtx cid c).bump Reg.PFX_LOOKUPS
        let p := c.shared
        let (run, s) := matchRun ten.domain ten.id (c.ids ++ c.todo) (c.testable - p) p (max (widest s ten.domain) (scopeBefore c p)) (hashBefore s c p) s
        let s := installRun cid p run (s.updCtx cid (fun c => { c with chain := c.chain.take p }))
        askDirectory cid s
    | _, _ => s

/-- Take a directory wait away. -/
def dropWait (id : Nat) (s : State) : State :=
  { s with pfx := { s.pfx with waits := s.pfx.waits.filter (fun w => w.id != id) } }

/-- A directory wait is still the current lookup of its context. -/
def DirWait.live (s : State) (w : DirWait) : Bool :=
  match s.ctx w.ctx with
  | some c => c.turn.any (fun t => !t.matched) && c.turns == w.turn
  | none => false

/-- A directory wait ends without pins: the blocks are misses and the turn is bound (R121). -/
def waitMiss (w : DirWait) (s : State) : State :=
  let s := dropWait w.id s
  if w.live s then finishLookup w.ctx s else s

/-! ### Moves of a step's pages (R116, R119) -/

/-- Start the fetch of a lease image in T1 (R116); it leaves the page's home alone. -/
def startImage (cid b g src loc : Nat) (slot obj : Nat) (s : State) : State :=
  let (id, s) := s.fresh
  let m : Move := { id := id, slot := slot, obj := obj, page := g, src := src, dst := 1, dstLoc := loc, cause := .image cid b g, since := s.tb }
  let s := { s with moves := s.moves ++ [m] }
  match (s.ctx cid).bind (fun c => (c.blocks[b]?).map (fun r => (c, r))) with
  | some (c, .remote l h n) =>
    let s := { s with moves := updWhere s.moves (fun x => x.id == id) (fun x => { x with parts := 1 }) }
    (sendReq (.move id) (tenId s c.slot) 0x21 h (fun _ => [1, id, l, n * groupsOf s c.model + g]) s).2
  | _ => match s.obj slot obj with
    | some o => if src = 4 then peerMove m o s else s
    | none => s

/-- An image of the page is in T1 or on its way. -/
def imaged (s : State) (cid b g : Nat) : Bool :=
  (s.ctx cid).any (fun c => c.images.contains (b, g)) || s.moves.any (fun m => m.cause == .image cid b g)

/-- Bring a page whose home is below T1 up: private pages are promoted; pages of pinned blocks are promoted, or
leased as an image where that would take the publisher above its HBM; remote pages are always imaged (R88, R116). -/
def bringUp (cid b g : Nat) (s : State) : State :=
  match s.ctx cid with
  | none => s
  | some c =>
    let promote := fun slot obj (s : State) =>
      match s.obj slot obj with
      | some o => if (o.page g).tier = 1 ∨ (o.page g).mv.isSome then s else startMove slot obj g 1 0 (.promotion (some cid)) s
      | none => s
    match c.blocks[b]? with
    | none => s
    | some (.priv o) => promote c.slot o s
    | some (.entry n) =>
      match s.entry n, entryObj s n with
      | some e, some o =>
        let room := match e.publisher.bind (fun p => s.ten p) with
          | some t => decide (tierUse s (e.publisher.getD 0) 1 + pageBytes ≤ t.vec.hbm * unit2M)
          | none => false
        if (o.page g).tier = 1 then s
        else if room then promote (e.publisher.getD 0) e.block s
        else if imaged s cid b g then s
        else startImage cid b g (o.page g).tier (o.page g).loc (e.publisher.getD 0) e.block s
      | _, _ => s
    | some (.remote l h _) => if imaged s cid b g then s else startImage cid b g 4 h c.slot l s

/-- The home tier of a page that a step needs: 1 where an image stands in T1. -/
def homeTier (s : State) (cid b g : Nat) : Nat :=
  match s.ctx cid with
  | none => 1
  | some c =>
    if c.images.contains (b, g) then 1
    else match c.blocks[b]? with
      | some (.priv o) => ((s.obj c.slot o).map (fun o => (o.page g).tier)).getD 1
      | some (.entry n) => ((entryObj s n).map (fun o => (o.page g).tier)).getD 1
      | some (.remote _ _ _) => 4
      | none => 1

/-- A published block is used: its LAST_USE is set (Table PFX-3). -/
def touchEntry (n : Nat) (s : State) : State := s.updEntry n (fun e => { e with lastUse := s.tb })

/-- A block of a context is delivered to T0. -/
def touchBlock (cid b : Nat) (s : State) : State :=
  match (s.ctx cid).bind (fun c => c.blocks[b]?) with
  | some (.entry n) => touchEntry n s
  | _ => s

/-- The tenant charged for a context's lateness. -/
def ctxSlot (s : State) (cid : Nat) : Nat := ((s.ctx cid).map (·.slot)).getD 0

/-- Change the rows of a step's KV schedule for one page. -/
def updKv (step cid b g : Nat) (f : KvPage → KvPage) (s : State) : State :=
  { s with pfx := { s.pfx with kv := updWhere s.pfx.kv (fun k => k.step == step && k.ctx == cid && k.block == b && k.group == g) f } }

/-- The row of a step's KV schedule for one page. -/
def kvRow (s : State) (step cid b g : Nat) : Option KvPage :=
  s.pfx.kv.find? (fun k => k.step == step && k.ctx == cid && k.block == b && k.group == g)

end Sys2Proof.Machine
end

