-- ==== Sys2Proof/Machine/Contexts.lean ====
section
/-! DEFINITION. Model slots, request contexts and turns: their commands (06, 09). -/

namespace Sys2Proof.Machine

/-! ### MODEL_LOAD and MODEL_UNLOAD (R127, R128) -/

/-- The KV flags a descriptor may set: WARM, COLD_OK, LOSSY_OK, HOST_OK and PEER_OK (Tables SCH-1 and TIER-4). -/
def kvFlagsOk : Nat := 0x1A06

/-- The first byte of a reserved run of bits that is not zero. -/
def rsvdByte (d : Memory) (bit len : Nat) : Option Nat :=
  ((List.range len).find? (fun i => (readByte d ((bit + i) / 8)).getLsbD ((bit + i) % 8))).map (fun i => (bit + i) / 8)

/-- A field outside its range offends at its first byte. -/
def fieldBad (d : Memory) (bit len : Nat) (ok : Nat → Bool) : Option Nat :=
  if ok (bits (readLE d (bit / 8) (cdiv (bit % 8 + len) 8)) (bit % 8) len) then none else some (bit / 8)

/-- A handle field that fails R81. -/
def handleBad (s : State) (slot : Nat) (d : Memory) (off : Nat) : Option Nat :=
  match checkHandle s slot (BitVec.ofNat 64 (readLE d off 8)) false 0 0 0xFFFF 0xFFFF with
  | .ok _ => none
  | .error _ => some off

/-- The first offending byte of a descriptor, in table order (R127). -/
def descriptorBad (s : State) (slot : Nat) (d : Memory) : Option Nat :=
  let between := fun lo hi (x : Nat) => decide (lo ≤ x) && decide (x ≤ hi)
  let head := [
    fieldBad d 0x80 9 (between 1 256), rsvdByte d 0x89 7, fieldBad d 0x90 4 (between 0 11), rsvdByte d 0x94 12,
    fieldBad d 0xA0 32 (fun x => x &&& kvFlagsOk == x),
    fieldBad d 0xC0 11 (between 1 1024), rsvdByte d 0xCB 21,
    fieldBad d 0xE0 32 (between 1 1048576),
    fieldBad d 0x100 11 (between 1 1024), rsvdByte d 0x10B 5, fieldBad d 0x110 8 (between 0 100), rsvdByte d 0x118 8,
    fieldBad d 0x120 32 (between 65536 0xFFFFFFFF),
    fieldBad d 0x140 17 (fun x => between 64 65536 x && x % 64 == 0), rsvdByte d 0x151 15,
    fieldBad d 0x160 8 (between 1 128), rsvdByte d 0x168 24,
    handleBad s slot d 0x30, rsvdByte d 0x1D8 (8 + 32 + 0xC0 * 8)]
  let n := bits (readLE d 0x10 2) 0 9
  let groups := (List.range n).map (fun g => [handleBad s slot d (0x100 + 32 * g), rsvdByte d ((0x114 + 32 * g) * 8) 96])
  (head ++ groups.flatten).findSome? id

/-- A model slot of a descriptor (Table SCH-1). -/
def modelOf (slot : Nat) (h : DWord) (d : Memory) : Model :=
  let f := fun off lo len => bits (readLE d off 4) lo len
  { slot := slot, handle := h, tag := BitVec.ofNat 128 (readLE d 0 16), kvFormat := f 0x10 16 4, kvFlags := f 0x14 0 32,
    kvBytes := f 0x18 0 11, maxLen := f 0x1C 0 32, maxBatch := f 0x20 0 11, minFill := f 0x20 16 8, maxPadded := f 0x24 0 32,
    chunk := f 0x28 0 17, clusters := f 0x2C 0 8, stepProg := BitVec.ofNat 64 (readLE d 0x30 8), actBytes := f 0x38 0 24,
    groups := (List.range (f 0x10 0 9)).map (fun g =>
      ⟨BitVec.ofNat 64 (readLE d (0x100 + 32 * g) 8), f (0x108 + 32 * g) 0 32, f (0x10C + 32 * g) 0 32, f (0x110 + 32 * g) 0 32⟩) }

/-- MODEL_LOAD (R127, R128): a descriptor outside a READONLY tile object is refused at byte 0 (log entry 43). -/
def bodyModelLoad (id : Nat) (r : CmdRec) (s : State) : State :=
  let slot := slotOfFlight s id
  withObj id r.w08 false 0 0 (fun n s =>
    if !n.obj.tile ∨ !n.obj.flag 8 then finish id ⟨0x22, 4, 0⟩ 0 s
    else if (n.obj.page 0).poison then finish id (poisonStatus (n.obj.page 0)) 0 s
    else match descriptorBad s slot n.obj.data with
      | some off => finish id ⟨0x22, 4, off⟩ 0 s
      | none =>
        let m := modelOf slot r.w08 n.obj.data
        let up := clustersUp s
        if up < m.clusters then finish id ⟨0x20, 5, m.clusters - up⟩ 0 s
        else if 64 ≤ (s.sch.models.filter (fun m => m.2.slot == slot)).length then finish id ⟨0x21, 4, 1⟩ 0 s
        else if 1024 ≤ s.sch.models.length then finish id ⟨0x20, 4, 1⟩ 0 s
        else
          let k := lowestFree (s.sch.models.map (·.1)) 0
          let s := takeLease n.slot n.idx 0 false (chargeAccess slot (n.obj.page 0) n.obj.t1Bytes false s)
          finish id ⟨0, 0, 0⟩ k { s with sch := { s.sch with models := mput s.sch.models k m } }) s

/-- MODEL_LOAD (R127). -/
def execModelLoad (slot q : Nat) (rec : CmdRec) (s : State) : Out :=
  onUnit (decide (slot < 1024) && decide (q < 16)) (ringCmd 0x10 slot q rec bodyModelLoad s)

/-- MODEL_UNLOAD (R128). -/
def bodyModelUnload (id : Nat) (r : CmdRec) (s : State) : State :=
  let k := bits r.w18.toNat 0 10
  match s.model k with
  | none => finish id (policy 4) 0 s
  | some m =>
    if m.slot ≠ slotOfFlight s id then finish id (policy 4) 0 s
    else if s.sch.ctxs.any (fun c => c.2.model == k) then finish id ⟨0x24, 4, 0⟩ 0 s
    else
      let s := match handleObj s m.handle with | some (o, i) => endLease o i 0 false s | none => s
      finish id ⟨0, 0, 0⟩ 0 { s with sch := { s.sch with models := mdel s.sch.models k } }

/-- MODEL_UNLOAD (R128). -/
def execModelUnload (slot q : Nat) (rec : CmdRec) (s : State) : Out :=
  onUnit (decide (slot < 1024) && decide (q < 16)) (ringCmd 0x11 slot q rec bodyModelUnload s)

/-! ### CTX_OPEN, CTX_CLEAR, CTX_CLOSE (R129) -/

/-- A tenant may name a model slot: its own, or one whose descriptor is SHARED in its domain (R128). -/
def mayUse (s : State) (slot : Nat) (m : Model) : Bool :=
  m.slot == slot ||
    (match handleObj s m.handle with
    | some (o, i) => (s.obj o i).any (fun ob => ob.flag 13) && ((s.ten o).map (·.domain)) == ((s.ten slot).map (·.domain))
    | none => false)

/-- The activation scratch of a context (R137): PREFILL_CHUNK × ACT_BYTES in whole pages. -/
def scratch (m : Model) (durable : Bool) : Option Obj :=
  if m.chunk * m.actBytes = 0 then none
  else some {
    size := cdiv (m.chunk * m.actBytes) pageBytes * pageBytes, tile := false, flags := 2 + (if durable then 1024 else 0), elem := 0xFF,
    elemAlt := 0, segPages := 0, gen := 0, base := { tier := 1 } }

/-- CTX_OPEN (R129, R191). -/
def bodyCtxOpen (id : Nat) (r : CmdRec) (s : State) : State :=
  let slot := slotOfFlight s id
  let w := r.w18.toNat
  let k := bits w 0 10
  match s.model k, s.ten slot with
  | some m, some t =>
    if !mayUse s slot m then finish id (policy 4) 0 s
    else if t.queues.length ≤ bits w 10 4 then finish id ⟨0x22, 0xA, 0xFFFF⟩ 0 s
    else if t.vec.ctx ≤ (ctxsOf s slot).length then finish id ⟨0x21, 4, 1⟩ 0 s
    else if 16384 ≤ s.sch.ctxs.length then finish id ⟨0x20, 4, 1⟩ 0 s
    else
      let durable := w.testBit 14
      let (act, s) : Except Status (Option Nat) × State := match scratch m durable with
        | none => (.ok none, s)
        | some o => match place slot o s with
          | (.error st, s) => (.error st, s)
          | (.ok o, s) => let (i, _, s) := newObj slot o s; (.ok (some i), s)
      match act with
      | .error st => finish id st 0 s
      | .ok act =>
        let n := lowestFree (s.sch.ctxs.map (·.1)) 0
        let (b, s) := s.draw
        finish id ⟨0, 0, 0⟩ n (s.setCtx n {
          slot := slot, model := k, queue := bits w 10 4, durable := durable, prio := bits w 16 2,
          user := BitVec.ofNat 128 (r.w20.toNat + 2 ^ 64 * r.w28.toNat), act := act, blocksHandle := BitVec.ofNat 64 b })
  | _, _ => finish id (policy 4) 0 s

/-- CTX_OPEN (R129). -/
def execCtxOpen (slot q : Nat) (rec : CmdRec) (s : State) : Out :=
  onUnit (decide (slot < 1024) && decide (q < 16)) (ringCmd 0x18 slot q rec bodyCtxOpen s)

/-- Run a command's body on the tenant's own context; another's fails R191. -/
def withCtx (id cid : Nat) (body : Ctx → State → State) (s : State) : State :=
  match s.ctx cid with
  | some c => if c.slot = slotOfFlight s id then body c s else finish id ⟨0x43, 4, 0xFFFF⟩ 0 s
  | none => finish id ⟨0x43, 4, 0xFFFF⟩ 0 s

/-- Clear or close a context now: its turns end ABORTED_BY_TENANT (R114, R129). -/
def clearNow (cid : Nat) (close : Bool) (s : State) : State :=
  let s := abortTurns cid ⟨0x34, 0, 0⟩ s
  if close then freeCtx cid s else emptyCtx cid s

/-- CTX_CLEAR and CTX_CLOSE: at the end of the current step for a RUNNING context (R129). -/
def clearOrClose (close : Bool) (id : Nat) (r : CmdRec) (s : State) : State :=
  let cid := bits r.w18.toNat 0 14
  withCtx id cid (fun c s =>
    if c.step.isSome then s.updCtx cid (fun c => { c with clearing := c.clearing ++ [(close, id)] })
    else finish id ⟨0, 0, 0⟩ 0 (clearNow cid close s)) s

/-- CTX_CLEAR (R129). -/
def execCtxClear (slot q : Nat) (rec : CmdRec) (s : State) : Out :=
  onUnit (decide (slot < 1024) && decide (q < 16)) (ringCmd 0x19 slot q rec (clearOrClose false) s)

/-- CTX_CLOSE (R129). -/
def execCtxClose (slot q : Nat) (rec : CmdRec) (s : State) : Out :=
  onUnit (decide (slot < 1024) && decide (q < 16)) (ringCmd 0x1A slot q rec (clearOrClose true) s)

/-! ### TURN and CANCEL (R41, R50, R193) -/

/-- A TURN that is not taken: its final completion is a TURN_END (Table QUE-6). -/
def refuseTurn (id cid : Nat) (st : Status) (s : State) : State :=
  match s.flight id with
  | none => s
  | some f =>
    let s := unreserve f.slot 1 ({ s with flights := s.flights.filter (fun g => g.id != id) }.outcome f.slot st)
    let c : Completion := { status := st.word, cmdId := f.cmdId, kind := 2, aux := cid }
    match f.src with
    | .prog tok =>
      let s := endToken (progKey f.slot f.queue) false tok st.word 0 [] s
      if f.post then produce f.slot f.queue f.irq c s else s
    | _ => produce f.slot f.queue f.irq c s

/-- Tokens that a context holds or will take from the turns it has (R50). -/
def knownTokens (c : Ctx) : Nat :=
  c.length +
    (match c.turn with
    | some t => if t.matched then c.todo.length else b2n c.fed + t.count
    | none => b2n c.fed) + sumOf c.waiting (fun t => t.count)

/-- TURN (R41, R50, R193, R429): checked, queued, and the fetch of its token IDs begins. -/
def bodyTurn (id : Nat) (r : CmdRec) (s : State) : State :=
  let slot := slotOfFlight s id
  let w := r.w18.toNat
  let cid := bits w 0 14
  let cls := bits w 16 2
  let count := bits w 32 32
  let maxNew := bits r.w20.toNat 0 32
  if bits w 20 12 ≠ 0 ∨ bits r.w20.toNat 32 32 ≠ 0 ∨ r.w38 ≠ 0 ∨ cls = 3 ∨ r.w10.toNat % 4 ≠ 0 then refuseTurn id cid cmdFault s
  else match s.ctx cid, s.ten slot with
    | some c, some t =>
      if c.slot ≠ slot then refuseTurn id cid ⟨0x43, 4, 0xFFFF⟩ s
      else match exhausted s slot with
        | some d => refuseTurn id cid ⟨0x23, 8, d⟩ (s.bump Reg.NRG_REFUSED)
        | none =>
          let limit := ((s.model c.model).map (·.maxLen)).getD 1048576
          if count < 1 ∨ 262144 < count ∨ maxNew < 1 ∨ 262144 < maxNew ∨ (cls ≠ 0 ∧ cls < t.cls) ∨ limit < knownTokens c + count then
            refuseTurn id cid (policy 4) s
          else if c.turn.isSome ∧ 4 ≤ c.waiting.length then refuseTurn id cid ⟨0x24, 4, 0⟩ s
          else
            let dev := w.testBit 18
            match (if dev then some (checkHandle s slot r.w08 false r.w10.toNat (4 * count) 0xFFFF 0xFFFF) else none) with
            | some (.error st) => refuseTurn id cid st s
            | src =>
              let stops := [bits r.w28.toNat 0 32, bits r.w28.toNat 32 32, bits r.w30.toNat 0 32, bits r.w30.toNat 32 32]
              let f := (s.flight id).getD { id := id, slot := slot, queue := 0, src := .ring, op := 0x1B, cmdId := 0, irq := false, post := false }
              let seq := c.turns % (2 ^ 32 - 1) + 1
              let t : Turn := { flight := id, cmdId := f.cmdId, irq := f.irq, seq := seq, scope := bits w 14 2, cls := max t.cls cls,
                                tokens := w.testBit 19, count := count, maxNew := maxNew, stops := stops }
              let s := s.updCtx cid (fun c =>
                let c := { c with turns := seq }
                if c.turn.isSome then { c with waiting := c.waiting ++ [t] } else startTurn c t)
              match src with
              | some (.ok n) =>
                let s := s.updFlight id (fun f => { f with args := [n.slot, n.idx, r.w10.toNat, 4 * count] })
                accessReady id (promoteFor id n.slot n.idx (mustPromote n.obj r.w10.toNat (4 * count) false) s)
              | _ => hostRead slot r.w10.toNat (4 * count) (.turn id) s
    | _, _ => refuseTurn id cid ⟨0x43, 4, 0xFFFF⟩ s

/-- TURN (R193). -/
def execTurn (slot q : Nat) (rec : CmdRec) (s : State) : Out :=
  onUnit (decide (slot < 1024) && decide (q < 16)) (ringCmd 0x1B slot q rec bodyTurn s)

/-- CANCEL (R129; 09): waiting turns end at once, the current one at the end of its step; CANCEL completes after
them. -/
def bodyCancel (id : Nat) (r : CmdRec) (s : State) : State :=
  let cid := bits r.w18.toNat 0 14
  let seq := bits r.w18.toNat 32 32
  withCtx id cid (fun c s =>
    let all := (match c.turn with | some t => [t] | none => []) ++ c.waiting
    let named := (all.filter (fun t => seq == 0 || t.seq == seq)).map (·.seq)
    if named.isEmpty then finish id ⟨0, 0, 0⟩ 0 s
    else
      let s := s.updFlight id (fun f => { f with args := cid :: named, left := named.length })
      let mark := fun (t : Turn) => if named.contains t.seq then { t with cancelled := true } else t
      let s := s.updCtx cid (fun c => { c with turn := c.turn.map mark, waiting := c.waiting.map mark })
      let s := dropCancelled cid s
      if c.step.isSome then s else applyCancels cid 1 s) s

/-- CANCEL (R129). -/
def execCancel (slot q : Nat) (rec : CmdRec) (s : State) : Out :=
  onUnit (decide (slot < 1024) && decide (q < 16)) (ringCmd 0x1C slot q rec bodyCancel s)

/-! ### The record snapshot (R143) -/

/-- The state code of Table SCH-3. -/
def CState.code : CState → Nat
  | .idle => 1 | .ready => 2 | .running => 3 | .frozen => 4

/-- The handle of a slot's object; 0 where there is none. -/
def handleOfObj (s : State) (slot : Nat) (i : Option Nat) : Nat :=
  match i.bind (fun i => (s.obj slot i).map (fun o => (i, o))), s.ten slot with
  | some (i, o), some t => (handleOf t.id o.gen i).toNat
  | _, _ => 0

/-- The 64 words of a context record (Table SCH-2). -/
def ctxRecord (s : State) (c : Ctx) : List Nat :=
  let maxNew : Nat := match c.turn with | some t => t.maxNew | none => 0
  let two := fun (x : Nat) => [x % 2 ^ 32, x / 2 ^ 32 % 2 ^ 32]
  let priv := (c.blocks.filterMap (fun b => match b with | .priv o => some o | _ => none)).getLast?
  let gid := (s.que c.slot c.queue).gid
  let stops : List Nat := match c.turn with | some t => t.stops | none => List.replicate 4 0xFFFFFFFF
  let id := ((s.ten c.slot).map (·.id)).getD 0
  ([c.st.code + 16 * c.cls + 64 * c.prio + 256 * b2n c.durable + 512 * b2n c.cut + 1024 * b2n c.needPrefill + 65536 * id,
    c.model + 4096 * gid + 2 ^ 24 * c.waiting.length,
    c.length, c.pinned % 65536 + 65536 * binOf (c.length + 1), c.turnSeq, c.turnNew, maxNew, c.lastToken] ++
    stops.take 4 ++ two c.readySince ++ two c.stepS ++ two (handleOfObj s c.slot priv) ++ two c.blocksHandle.toNat ++
    two (handleOfObj s c.slot c.act) ++
    [c.lateUs, c.delayUs, c.preempts % 65536 + 65536 * (c.retries % 256) + 2 ^ 24 * c.stop, c.lastStatus.toNat, c.steps, 0] ++
    two (c.user.toNat % 2 ^ 64) ++ two (c.user.toNat / 2 ^ 64) ++ List.replicate 32 0).take 64

/-- Write the 64 words of TW_CTX_DATA. -/
def putSnapshot (slot : Nat) (ws : List Nat) (s : State) : State :=
  ((List.range 64).zip ws).foldl (fun s w => s.twPut slot (Reg.TW_CTX_DATA w.1) w.2) s

/-- TW_CTX_SEL written through a tenant's window (R143). -/
def selectCtx (slot v : Nat) (s : State) : State :=
  let n := v % 16384
  let s := s.twPut slot Reg.TW_CTX_SEL n
  match s.ctx n with
  | some c =>
    if c.slot = slot then putSnapshot slot (ctxRecord s c) (s.twPut slot Reg.TW_CTX_STATUS 1)
    else putSnapshot slot (List.replicate 64 0) (s.twPut slot Reg.TW_CTX_STATUS 2)
  | none => putSnapshot slot (List.replicate 64 0) (s.twPut slot Reg.TW_CTX_STATUS 2)

/-- The slot whose window a write reaches: a PF tenant window's, or the tenant attached through the function (15,
R309, R310). -/
def windowSlot (s : State) (f : Nat) (win : Option Nat) : Option Nat :=
  if !reaches s f win then none else match win with
    | some w => some w
    | none => if f = 0 then none else s.attachedVia f

/-- Run an effect on the slot a window write reaches. -/
def onWindow (f : Nat) (win : Option Nat) (body : Nat → State → State) (s : State) : Out :=
  onUnit (decide (f < 32)) (match windowSlot s f win with | some i => body i s | none => s)

/-- TW_CTX_SEL_WRITE (R143). -/
def execTwCtxSelWrite (f : Nat) (win : Option Nat) (value : Word) (s : State) : Out :=
  onWindow f win (fun i s => selectCtx i value.toNat s) s

end Sys2Proof.Machine
end

