-- ==== Sys2Proof/Machine/Events.lean ====
section
/-! DEFINITION. The event fabric's commands and events (10). -/

namespace Sys2Proof.Machine

/-- REFUSED_POLICY of an event command for an operand that is no record (R225). -/
def evPolicy : Status := ⟨0x22, 6, 0xFFFF⟩
/-- FAULT_PERMISSION of an event command (R225; 11). -/
def evDenied : Status := ⟨0x43, 6, 0xFFFF⟩

/-! ### Cores (R225, R226) -/

/-- EV_CORE_LOAD: checks, then the objects' pages below T1 are promoted. -/
def bodyCoreLoad (id : Nat) (r : CmdRec) (s : State) : State :=
  let slot := slotOfFlight s id
  let c := bits r.w18.toNat 0 9
  let axon := bits r.w18.toNat 32 11
  let out := bits r.w20.toNat 0 12
  withObj id r.w08 false 0 131072 (fun w => withObj id r.w10 false 0 2048 (fun p s =>
    if (s.core c).slot ≠ some slot then finish id evDenied 0 s
    else if !ownsKeys s slot (512 * axon) 512 || !ownsKeys s slot (256 * out) 256 then finish id evPolicy 0 s
    else
      let s := s.updCore c (fun x => { x with loading := some id })
      let s := s.updFlight id (fun f => { f with args := [w.slot, w.idx, p.slot, p.idx, c, axon, out] })
      let s := promoteFor id w.slot w.idx (mustPromote w.obj 0 131072 false) s
      accessReady id (promoteFor id p.slot p.idx (mustPromote p.obj 0 2048 false) s))) s

/-- EV_CORE_LOAD (R225). -/
def execEvCoreLoad (slot q : Nat) (rec : CmdRec) (s : State) : Out :=
  onUnit (decide (slot < 1024) && decide (q < 16)) (ringCmd 0x30 slot q rec bodyCoreLoad s)

/-- EV_CORE_CLEAR (R226). -/
def bodyCoreClear (id : Nat) (r : CmdRec) (s : State) : State :=
  let c := bits r.w18.toNat 0 9
  if (s.core c).slot ≠ some (slotOfFlight s id) then finish id evDenied 0 s
  else finish id ⟨0, 0, 0⟩ 0 (s.updCore c (fun x => { x with neurons := mmap x.neurons (fun _ n => { n with v := 0, rEnd := 0 }) }))

/-- EV_CORE_CLEAR (R226). -/
def execEvCoreClear (slot q : Nat) (rec : CmdRec) (s : State) : Out :=
  onUnit (decide (slot < 1024) && decide (q < 16)) (ringCmd 0x31 slot q rec bodyCoreClear s)

/-- The snapshot of EV_CORE_READ: V, 4 reserved bytes, t_last, by neuron (R225). -/
def coreImage (c : ECore) : List Nat :=
  (List.range 256).flatMap (fun n =>
    let x := c.neuron n
    ((leBytes (unsigned 32 x.v) 4) ++ (leBytes 0 4) ++ (leBytes x.tLast 8)).map (·.toNat))

/-- EV_CORE_READ: the snapshot is taken at once and stored when its page can be written (R85, R88, R225). -/
def bodyCoreRead (id : Nat) (r : CmdRec) (s : State) : State :=
  let c := bits r.w18.toNat 0 9
  withObj id r.w08 true 0 4096 (fun n s =>
    if (s.core c).slot ≠ some (slotOfFlight s id) then finish id evDenied 0 s
    else match leaseBlock n.obj (pagesOf n.obj 0 4096) with
      | some res => finish id ⟨0x24, res, 0⟩ 0 s
      | none =>
        let s := s.updFlight id (fun f => { f with args := [n.slot, n.idx], data := some (coreImage (s.core c)) })
        accessReady id (promoteFor id n.slot n.idx (mustPromote n.obj 0 4096 true) s)) s

/-- EV_CORE_READ (R225). -/
def execEvCoreRead (slot q : Nat) (rec : CmdRec) (s : State) : Out :=
  onUnit (decide (slot < 1024) && decide (q < 16)) (ringCmd 0x37 slot q rec bodyCoreRead s)

/-! ### Routes (R218, R225) -/

/-- EV_ROUTE: an entry count of 0 needs no object. -/
def bodyRoute (id : Nat) (r : CmdRec) (s : State) : State :=
  let n := bits r.w18.toNat 0 15
  if 16384 < n then finish id evPolicy 0 s
  else if n = 0 then routeWrite ⟨slotOfFlight s id, some id, []⟩ s
  else withObj id r.w08 false 0 (16 * n) (fun o s =>
    let s := s.updFlight id (fun f => { f with args := [o.slot, o.idx, n] })
    accessReady id (promoteFor id o.slot o.idx (mustPromote o.obj 0 (16 * n) false) s)) s

/-- EV_ROUTE (R218). -/
def execEvRoute (slot q : Nat) (rec : CmdRec) (s : State) : Out :=
  onUnit (decide (slot < 1024) && decide (q < 16)) (ringCmd 0x32 slot q rec bodyRoute s)

/-- EV_COMMIT waits for the next flip. -/
def bodyEvCommit (id : Nat) (_r : CmdRec) (s : State) : State := { s with fab := { s.fab with commits := s.fab.commits ++ [id] } }

/-- EV_COMMIT (R218). -/
def execEvCommit (slot q : Nat) (rec : CmdRec) (s : State) : Out :=
  onUnit (decide (slot < 1024) && decide (q < 16)) (ringCmd 0x33 slot q rec bodyEvCommit s)

/-- EVF_COMMIT: a write of 1 requests a flip (R218). -/
def execEvfCommit (value : Word) (s : State) : Out :=
  .next (if value.getLsbD 0 then { s with fab := { s.fab with flip := true } } else s)

/-- Every EV_ROUTE of its tenant that came before an EV_COMMIT has been written or refused (R218). -/
def commitReady (s : State) (id : Nat) : Bool :=
  match s.flight id with
  | none => true
  | some f => !s.flights.any (fun g => g.slot == f.slot && g.op == 0x32 && decide (g.id < id))

/-- EVENT_BANK_FLIP: a requested flip at a router epoch that finds the other bank STAGED (R218); it serves every waiting
request, but for an EV_COMMIT whose tenant's EV_ROUTE is still being read. -/
def bankFlip (s : State) : State :=
  let waiting := s.fab.commits.filter (fun f => commitReady s f)
  if !s.evStaged || (waiting.isEmpty && !s.fab.flip) then s
  else
    let s := (s.putN Reg.EVF_EPOCH (1 - s.evE + 2 * 2)).bump32 Reg.EVF_FLIPS
    let s := s.traceRec 0x09 9 0xFFFF [s.evE]
    let s := { s with fab := { s.fab with commits := s.fab.commits.filter (fun f => !waiting.contains f), flip := false } }
    let n := s.rdN Reg.EVF_FLIPS
    waiting.foldl (fun s f => finish f ⟨0, 0, 0⟩ n s) s

/-- EVENT_BANK_FLIP (R218). -/
def execEventBankFlip (s : State) : Out := .next (bankFlip s)

/-- EVENT_BANK_DRAINED: a DRAINING bank with no event in flight becomes RESYNC (R218). -/
def execEventBankDrained (s : State) : Out :=
  .next (if s.evOther = 2 ∧ inflightOf s (1 - s.evE) = 0 then s.setFld Reg.EVF_EPOCH 1 2 3 else s)

/-- EVENT_BANK_RESYNC_DONE: the ACTIVE bank has been copied; the bank is STAGED and held writes land (R218). -/
def bankResync (s : State) : State :=
  if s.evOther ≠ 3 then s
  else
    let e := s.evE
    let live := s.fab.routes.filter (fun r => r.bank == e)
    let writes := s.fab.writes
    let s := { s with fab := { s.fab with routes := live ++ live.map (fun (r : Route) => { r with bank := 1 - e }), writes := [] } }
    writes.foldl (fun s w => applyRoutes w s) (s.setFld Reg.EVF_EPOCH 1 2 1)

/-- EVENT_BANK_RESYNC_DONE (R218). -/
def execEventBankResyncDone (s : State) : Out := .next (bankResync s)

/-! ### Host events, rings, telemetry -/

/-- EV_INJECT: words are read from host memory (R209). -/
def bodyInject (id : Nat) (r : CmdRec) (s : State) : State :=
  let slot := slotOfFlight s id
  let n := bits r.w18.toNat 0 17
  if n < 1 ∨ 65536 < n then finish id evPolicy 0 s
  else match exhausted s slot with
    | some d => refuseEnergy id d s
    | none => hostRead slot r.w10.toNat (4 * n) (.inject id) s

/-- EV_INJECT (R209). -/
def execEvInject (slot q : Nat) (rec : CmdRec) (s : State) : Out :=
  onUnit (decide (slot < 1024) && decide (q < 16)) (ringCmd 0x34 slot q rec bodyInject s)

/-- The words of an EV_INJECT have arrived: RESULT is the events admitted. -/
def injectArrive (id : Nat) (bytes : List Nat) (s : State) : State :=
  let (es, s) := eventsOf (tokensOf bytes) s
  let (n, s) := injectAll (slotOfFlight s id) es s
  finish id ⟨0, 0, 0⟩ n s

/-- EV_RING (R216, R229): the indices start again at 0. -/
def bodyEvRing (id : Nat) (r : CmdRec) (s : State) : State :=
  let slot := slotOfFlight s id
  let log := bits r.w20.toNat 0 5
  if log < 4 ∨ 16 < log then finish id evPolicy 0 s
  else
    let s := s.updTen slot (fun t => { t with evRing := some ({ base := r.w10.toNat, wb := r.w18.toNat, log := log, vec := bits r.w20.toNat 8 6 } : EvRing) })
    finish id ⟨0, 0, 0⟩ 0 ((s.twPut slot Reg.TW_EV_HEAD 0).twPut slot Reg.TW_EV_TAIL 0)

/-- EV_RING (R216). -/
def execEvRing (slot q : Nat) (rec : CmdRec) (s : State) : Out :=
  onUnit (decide (slot < 1024) && decide (q < 16)) (ringCmd 0x35 slot q rec bodyEvRing s)

/-- What a source of Table EVF-8 counts or measures now; sources 4 and 5 are measured outside this state. -/
def telemValue (s : State) (slot src : Nat) (measured : Int) : Int :=
  match src with
  | 0 => (s.twRd slot Reg.TW_LATE_PAGES : Nat)
  | 1 => (s.twRd slot (Reg.TW_OUT_CNT 0x12) : Nat)
  | 2 => (s.twRd slot Reg.TW_DEMOTED_PAGES : Nat)
  | 3 => (s.twRd slot Reg.TW_NRG_TOTAL_UJ / 1000000 : Nat)
  | 6 => (s.twRd slot Reg.TW_SPILL_USE * 128 / max 1 (spillArea s slot) : Nat)
  | _ => measured

/-- EV_TELEM (R224): a power or temperature source takes its base at its first period (log entry 62). -/
def bodyTelem (id : Nat) (r : CmdRec) (s : State) : State :=
  let slot := slotOfFlight s id
  let src := bits r.w18.toNat 0 8
  let key := bits r.w18.toNat 32 20
  let period := r.w20.toNat
  if 7 ≤ src then finish id evPolicy 0 s
  else if !r.w18.getLsbD 8 then
    finish id ⟨0, 0, 0⟩ 0 { s with fab := { s.fab with telem := mdel s.fab.telem (8 * slot + src) } }
  else if !ownsKeys s slot key 1 ∨ period < 10 ∨ 1000000 < period then finish id evPolicy 0 s
  else
    let seen := if src = 4 ∨ src = 5 then none else some (telemValue s slot src 0)
    finish id ⟨0, 0, 0⟩ 0 { s with fab := { s.fab with telem := mput s.fab.telem (8 * slot + src) ⟨key, period, seen, s.tb⟩ } }

/-- EV_TELEM (R224). -/
def execEvTelem (slot q : Nat) (rec : CmdRec) (s : State) : Out :=
  onUnit (decide (slot < 1024) && decide (q < 16)) (ringCmd 0x36 slot q rec bodyTelem s)

/-- TELEMETRY_TICK: a source's period ends (R224); parking pauses it (R229). -/
def telemTick (slot src : Nat) (measured : Int) (s : State) : State :=
  match mget s.fab.telem (8 * slot + src), s.ten slot with
  | some x, some t =>
    if t.st ≠ .active ∨ s.tb < x.since + x.period then s
    else
      let now := telemValue s slot src measured
      let d := now - x.seen.getD now
      let d := if src = 1 then d % 2 ^ 32 else d
      let pay := if src ≤ 3 then min 127 (max 0 d) else max (-127) (min 127 d)
      let s := { s with fab := { s.fab with telem := mput s.fab.telem (8 * slot + src) { x with seen := some (now - d + pay), since := s.tb } } }
      if src ≤ 3 ∧ d ≤ 0 then s
      else (inject slot (evWord x.key pay 0 false true) (some (BitVec.ofNat 32 s.tb)) s).2
  | _, _ => s

/-- TELEMETRY_TICK (R224). -/
def execTelemetryTick (slot source : Nat) (measured : Int) (s : State) : Out :=
  onUnit (decide (slot < 1024) && decide (source < 7)) (telemTick slot source measured s)

/-- EV_RING_VECTOR_TICK (R216; 11, R241): the vector of a ring that the driver has not emptied, at most once per 10 µs. -/
def ringTick (slot : Nat) (s : State) : State :=
  match s.ten slot with
  | none => s
  | some t =>
    let s := match t.evRing with
      | some r =>
        if !r.live || s.twRd slot Reg.TW_EV_TAIL == s.twRd slot Reg.TW_EV_HEAD then s
        else match ringVector slot r s with
          | some s => s.updTen slot (fun t => { t with evRing := some { r with lastVec := some s.tb } })
          | none => s
      | none => s
    match t.winRing with
    | some r =>
      if s.twRd slot Reg.TW_WIN_TAIL == s.twRd slot Reg.TW_WIN_HEAD then s
      else match ringVector slot r s with
        | some s => s.updTen slot (fun t => { t with winRing := some { r with lastVec := some s.tb } })
        | none => s
    | none => s

/-- EV_RING_VECTOR_TICK (R216). -/
def execEvRingVectorTick (slot : Nat) (s : State) : Out := onUnit (decide (slot < 1024)) (ringTick slot s)

/-- TW_EV_HEAD_WRITE (R216). -/
def execTwEvHeadWrite (f : Nat) (win : Option Nat) (value : Word) (s : State) : Out :=
  onWindow f win (fun slot s => s.twPut slot Reg.TW_EV_HEAD value.toNat) s

/-! ### Events on the move (R211 to R213, R217, R220, R221, R223) -/

/-- The event at the head of a queue makes its next move. -/
def hop (p : EvPoint) (s : State) : State :=
  match p with
  | .cluster k =>
    match s.clu k with
    | some c => match c.port, s.lch c.launch with
      | w :: r, some l => (inject l.slot w none (s.updClu k (fun c => { c with port := r }))).2
      | _, _ => s
    | none => s
  | .sensor n =>
    match (s.port n).fifo with
    | e :: r => (inject e.slot e.word e.ts (s.updPort n (fun x => { x with fifo := r }))).2
    | [] => s
  | _ =>
    match s.evHead p with
    | none => s
    | some e =>
      match p with
      | .ingress => routeAt 512 e (s.evPop p)
      | .routerIn r => routeAt r e (s.evPop p)
      | .coreOut c => routeAt c e (s.evPop p)
      | .routerOut r 4 =>
        let c := s.core r
        if c.loading.isSome then (s.evPop p).twBump e.slot Reg.TW_EV_LOAD_DROP
        else if 32 ≤ s.evCount (.coreIn r) then s
        else
          let s := (s.evPop p).evPut (.coreIn r) e
          let s := if c.asleep then s.bump Reg.EVF_WAKES else s
          s.updCore r (fun x => { x with asleep := false, lastIn := s.tb })
      | .routerOut r d =>
        match neighbour r d with
        | none => s.evPop p
        | some n =>
          if 64 ≤ e.hops then (s.evPop p).bump Reg.EVF_HOP_DROP
          else if routerDead s n then (s.evPop p).bump Reg.EVF_DEAD_ROUTE
          else routeAt n { e with hops := e.hops + 1 } (s.evPop p)
      | _ => s

/-- EVENT_ROUTE_HOP (R213). -/
def execEventRouteHop (point : EvPoint) (s : State) : Out := .next (hop point s)

/-- The outputs of neurons go to the core's output queue, in order (R211, R212); a neuron engine's output is an injection
point, which drops the events of a tenant that is parked (Table EVF-3, R229). -/
def emitSpikes (c slot out : Nat) (xs : List (Nat × NOut)) (s : State) : State :=
  xs.foldl (fun s (x : Nat × NOut) => match x.2.pay with
    | none => s
    | some p =>
      let s := s.bump Reg.EVF_SPIKES
      if !(s.ten slot).any (fun t => t.st == .active) then s.twBump slot Reg.TW_EV_PARK_DROP
      else evEnqueue (.coreOut c) { word := evWord (256 * out + x.1) p s.evE false false, slot := slot } s) s

/-- NEURON_INPUT_EVENT: the engine takes its next input event (R210 to R212); one whose outputs the queue cannot hold
waits. -/
def neuronEvent (k : Nat) (s : State) : State :=
  match s.evHead (.coreIn k) with
  | none => s
  | some e =>
    let c := s.core k
    let key := evKey e.word
    let pop := s.evPop (.coreIn k)
    match c.slot with
    | none => pop.bump Reg.EVF_AXON_MISS
    | some slot =>
      if evMark e.word then pop.bump Reg.EVF_MARKER_IN
      else if c.axonBlk ≠ some (key / 512) ∨ !ownsKeys s slot key 1 then pop.bump Reg.EVF_AXON_MISS
      else
        let xs := coreIn c (key % 512) (e.time s.tb e.since) (evPay e.word)
        let spikes := (xs.filter (fun x => x.2.pay.isSome)).length
        if 256 < s.evCount (.coreOut k) + spikes ∧ !spilledAt s (.coreOut k) slot then s
        else
          let s := pop.updCore k (fun c => { c with neurons := xs.foldl (fun m (x : Nat × NOut) => mput m x.1 x.2.neuron) c.neurons })
          let s := (s.bump Reg.EVF_CORE_EVENTS).bumpBy Reg.EVF_SYN_UPDATES xs.length
          let s := charge slot 5 xs.length (s.twBump slot Reg.TW_EV_SYN xs.length)
          let s := s.bumpBy Reg.EVF_SAT (xs.filter (fun x => x.2.sat)).length
          let s := s.twBump slot Reg.TW_EV_REFRAC (xs.filter (fun x => x.2.refrac)).length
          emitSpikes k slot c.outBlk xs s

/-- NEURON_INPUT_EVENT (R211). -/
def execNeuronInputEvent (core : Nat) (s : State) : Out := onUnit (decide (core < 512)) (neuronEvent core s)

/-- NEURON_SLEEP: no input for 2 µs (R223). -/
def execNeuronSleep (core : Nat) (s : State) : Out :=
  onUnit (decide (core < 512)) (
    if s.evCount (.coreIn core) = 0 ∧ (s.core core).lastIn + 2 ≤ s.tb ∧ !(s.core core).asleep then s.updCore core (fun c => { c with asleep := true })
    else s)

/-- EV_BATCH_TIMEOUT: 1 µs after its first word a batch leaves (R217). -/
def execEvBatchTimeout (node slot : Nat) (s : State) : Out :=
  onUnit (decide (slot < 1024)) (match s.fab.batches.find? (fun b => b.node == node && b.slot == slot) with
    | some b => if b.since + 1 ≤ s.tb then sendBatch b s else s
    | none => s)

/-- EV_BATCH received: it enters the ingress table, stamped with this sled's E; without a slot it is dropped (R217). -/
def evBatch (tenant : Nat) (words : List Word) (s : State) : State :=
  match s.slotOf tenant with
  | none => s.bumpBy Reg.EVF_LINK_DROP (eventsOf (words.map (·.toNat)) s).1.length
  | some slot => let (es, s) := eventsOf (words.map (·.toNat)) s; (injectAll slot es s).2

/-- EV_BATCH (R217). -/
def execEvBatch (tenant : Nat) (words : List Word) (s : State) : Out := .next (evBatch tenant words s)

/-- SPILL_WAIT_EXPIRE: the head of an output queue or a router output has not moved for 20 µs; every queued event of its
tenant there spills (R220). -/
def spillWait (p : EvPoint) (s : State) : State :=
  match p, s.evHead p with
  | .coreOut _, some e | .routerOut _ _, some e =>
    if s.tb < e.since + 20 then s
    else
      let mine := s.fab.queued.filter (fun x => x.1 == p && x.2.slot == e.slot)
      let s := { s with fab := { s.fab with queued := s.fab.queued.filter (fun x => !(x.1 == p && x.2.slot == e.slot)) } }
      mine.foldl (fun s x => spillEv p { x.2 with ts := some (BitVec.ofNat 32 (x.2.time s.tb x.2.since)) } s) s
  | _, _ => s

/-- SPILL_WAIT_EXPIRE (R220). -/
def execSpillWaitExpire (point : EvPoint) (s : State) : Out := .next (spillWait point s)

/-- SPILL_REPLAY (R221). -/
def execSpillReplay (point : EvPoint) (slot : Nat) (s : State) : Out :=
  onUnit (decide (slot < 1024)) (
    if halfRoom s point slot then replayFifo point slot (s.fab.spilled.filter (fun x => x.1 == point && x.2.slot == slot)).length s else s)

end Sys2Proof.Machine
end

