-- ==== Sys2Proof/Machine/OpsFw.lean ====
section
/-! DEFINITION. The management core's images (23): the boot descriptor, the trial marker, image checks, image selection and
how an update operation ends. -/

namespace Sys2Proof.Machine

/-! ### Notices -/

/-- Raise a bit of a notice register on PF vector 0. -/
def pfNotice (reg i : Nat) (s : State) : State := raiseVec 0 0 (s.setBit reg i true)

/-! ### The boot descriptor (R474) -/

/-- The descriptor in force: the valid copy with the higher SEQ, modulo 2^32; the flag tells whether it is copy 1. -/
def Fw.inForce (f : Fw) : Option (Bool × Desc) :=
  match f.desc0, f.desc1 with
  | none, none => none
  | some d, none => some (false, d)
  | none, some d => some (true, d)
  | some d, some e => if (e.seq + 2 ^ 32 - d.seq) % 2 ^ 32 < 2 ^ 31 then some (true, e) else some (false, d)

/-- What the descriptor says of a slot. -/
def Desc.slot (d : Desc) (n : Nat) : SlotInfo := if n = 0 then d.a else d.b

/-- Change what the descriptor says of a slot. -/
def Desc.setSlot (d : Desc) (n : Nat) (i : SlotInfo) : Desc := if n = 0 then { d with a := i } else { d with b := i }

/-- The registers that show the descriptor in force (Table FW-12). -/
def showDesc (s : State) : State :=
  match s.fw.inForce with
  | none => s
  | some (_, d) =>
    let show1 := fun (n : Nat) (s : State) =>
      let i := d.slot n
      (s.putN (Reg.FW_SLOT n) (i.st + 16 * i.code + 4096 * i.epoch)).putN (Reg.FW_SLOT_VERSION n) i.version
    show1 1 (show1 0 (s.putN Reg.FW_DESC_SEQ d.seq))

/-- Write the descriptor: the other copy takes the new one, with SEQ raised by 1; the trace names the slot written about. -/
def writeDesc (d : Desc) (slot : Nat) (s : State) : State :=
  let one := match s.fw.inForce with | some (one, _) => one | none => true
  let d := { d with seq := (d.seq + 1) % 2 ^ 32 }
  let s := { s with fw := if one then { s.fw with desc0 := some d } else { s.fw with desc1 := some d } }
  (showDesc s).traceRec 0x0F 0x40 0xFFFF [d.seq, slot, (d.slot slot).st]

/-- The slot that is not CONFIRMED. -/
def Desc.inactive (d : Desc) : Nat := 1 - d.confirmed

/-- Bytes of a slot. -/
def Fw.image (f : Fw) (n : Nat) : Memory := if n = 0 then f.slotA else f.slotB

/-! ### The trial marker (R475) -/

/-- The marker, valid while its slot is VERIFIED or TRIAL in the descriptor in force. -/
def Fw.validMarker (f : Fw) : Option (Nat × Nat) :=
  match f.marker, f.inForce with
  | some (n, c), some (_, d) => if (d.slot n).st = 3 ∨ (d.slot n).st = 4 then some (n, c) else none
  | _, _ => none

/-- Write or clear the marker. -/
def setMarker (m : Option (Nat × Nat)) (s : State) : State :=
  { s with fw := { s.fw with marker := m } }.setFld Reg.FW_BOOT 2 2 ((m.map (fun (x : Nat × Nat) => x.2)).getD 0)

/-! ### Image checks (R473, Table FW-3) -/

/-- A byte of a header range is not zero. -/
def dirty (m : Memory) (lo hi : Nat) : Bool := m.any (fun c => decide (lo ≤ c.1) && decide (c.1 < hi))

/-- SIZE of a header. -/
def imageSize (m : Memory) : Nat := readLE m 0x010 4
/-- SEC_EPOCH of a header. -/
def imageEpoch (m : Memory) : Nat := readLE m 0x00C 1 % 64
/-- DIGEST of a header. -/
def imageDigest (m : Memory) : Nat := readLE m 0x020 48

/-- The code of the first failing check, 0 for PASS; `readOk` says that NOR was read. -/
def checkImage (s : State) (m : Memory) (readOk : Bool) : Nat :=
  let size := imageSize m
  if !readOk then 8
  else if readLE m 0 4 ≠ 0x4D424E31 ∨ readLE m 4 2 ≠ 1 then 1
  else if 2 ≤ readLE m 6 2 ∨ 64 ≤ readLE m 0x00C 4 ∨ 4 ≤ readLE m 0x014 4 ∨ dirty m 0x01C 0x020 = true ∨ dirty m 0x0B1 0x0C0 = true ∨
      dirty m 0x120 0x1000 = true ∨ size < 4096 ∨ 25161728 < size ∨ size % 4096 ≠ 0 then 2
  else if Config.sha384 m 0x050 97 ≠ Config.fuseHash (readLE m 0x014 1) then 3
  else if s.fw.revoked.contains (readLE m 0x014 1) then 4
  else if !Config.signatureOk (readBytes m 0 0x120) then 5
  else if imageEpoch m < s.fw.fuse then 6
  else if Config.sha384 m 0x1000 size ≠ imageDigest m then 7
  else 0

/-- The boot ROM copies and checks a slot; a failed check is counted and its code shown in FW_BOOT. -/
def copyAndCheck (n : Nat) (readOk : Bool) (s : State) : Nat × State :=
  let code := checkImage s (s.fw.image n) readOk
  (code, if code = 0 then s else (s.bump Reg.FW_CHECK_FAIL).setFld Reg.FW_BOOT 8 8 code)

/-- Run a checked copy (R480): its version, digest and epoch are shown; with another digest, certificate slot 1 reads
empty (R484). -/
def runImage (n : Nat) (trial fallback : Bool) (s : State) : State :=
  let m := s.fw.image n
  let digest := imageDigest m
  let old := (List.range 12).map (fun i => s.rdN (Reg.FW_DIGEST i))
  let new := (List.range 12).map (fun i => digest / 2 ^ (32 * i) % 2 ^ 32)
  let s := (List.range 12).foldl (fun s i => s.putN (Reg.FW_DIGEST i) (new.getD i 0)) s
  let s := if old = new then s else { s.setBit Reg.FW_CERT_STATUS 0 false with fw := { s.fw with chain := [] } }
  let s := (s.putN Reg.FW_VERSION (readLE m 8 4)).putN Reg.FW_EPOCH (imageEpoch m + 256 * s.fw.fuse)
  let s := s.putN Reg.FW_BOOT (n + 2 * b2n trial + 4 * ((s.fw.marker.map (fun (x : Nat × Nat) => x.2)).getD 0) + 16 * b2n fallback + 256 * s.fld Reg.FW_BOOT 8 8)
  { s with fw := { s.fw with slot := some n, trial := trial, trialDone := none } }

/-- Burn fuses up to the security epoch of a confirmed image with RAISE_EPOCH (R479). -/
def raiseEpoch (n : Nat) (s : State) : State :=
  let m := s.fw.image n
  if (readLE m 6 2).testBit 0 ∧ s.fw.fuse < imageEpoch m then
    { s with fw := { s.fw with fuse := imageEpoch m } }.setFld Reg.FW_EPOCH 8 6 (imageEpoch m)
  else s

/-- No slot passes: the recovery service runs from the boot ROM (R485). -/
def runRecovery (s : State) : State :=
  { s.setBit Reg.FW_BOOT 5 true with fw := { s.fw with slot := none, trial := false } }

/-- With no valid descriptor, slots A and B are candidates as VERIFIED, and the first that passes becomes CONFIRMED in a
new descriptor with SEQ 1 (R474). -/
def selectBare (readOk : Bool) (s : State) : Bool × State :=
  let info := fun (n : Nat) (s : State) (st : Nat) => (⟨st, readLE (s.fw.image n) 8 4, imageEpoch (s.fw.image n), 0⟩ : SlotInfo)
  let (ca, s) := copyAndCheck 0 readOk s
  if ca = 0 then (true, runImage 0 false false (writeDesc ⟨0, 0, info 0 s 5, ⟨0, 0, 0, 0⟩⟩ 0 s))
  else
    let (cb, s) := copyAndCheck 1 readOk s
    if cb = 0 then (true, runImage 1 false false (writeDesc ⟨0, 1, ⟨6, 0, 0, ca⟩, info 1 s 5⟩ 1 s))
    else (false, s)

/-- A slot of the descriptor in force changes state. -/
def markSlot (n : Nat) (f : SlotInfo → SlotInfo) (s : State) : State :=
  match s.fw.inForce with
  | none => s
  | some (_, d) => writeDesc (d.setSlot n (f (d.slot n))) n s

/-- The confirmed image, or else a VERIFIED one as fallback (R476). -/
def selectConfirmed (readOk : Bool) (s : State) : Bool × State :=
  match s.fw.inForce with
  | none => selectBare readOk s
  | some (_, d) =>
    let (c, s) := copyAndCheck d.confirmed readOk s
    if c = 0 then (true, raiseEpoch d.confirmed (runImage d.confirmed false false s))
    else if (d.slot d.inactive).st = 3 then
      let (c, s) := copyAndCheck d.inactive readOk s
      if c = 0 then (true, runImage d.inactive false true s) else (false, s)
    else (false, s)

/-- Image selection at step 3 of every start (R476); false when no slot passes. -/
def selectImage (readOk : Bool) (s : State) : Bool × State :=
  let s := if s.fw.validMarker.isNone then setMarker none s else s
  match s.fw.validMarker with
  | none => selectConfirmed readOk s
  | some (n, 0) =>
    let s := (markSlot n (fun i => { i with st := 7 }) s).bump Reg.FW_REVERTS
    selectConfirmed readOk (pfNotice Reg.FW_NOTICE 2 (setMarker none s))
  | some (n, k + 1) =>
    let s := setMarker (some (n, k)) s
    let (c, s) := copyAndCheck n readOk s
    if c = 0 then (true, pfNotice Reg.FW_NOTICE 1 ((runImage n true false s).bump Reg.FW_TRIALS))
    else selectConfirmed readOk (setMarker none (markSlot n (fun i => { i with st := 6, code := c }) s))

/-! ### Update operations (R477, R478) -/

/-- An update operation ends: its status word, BUSY clear, and the notice. -/
def updEnd (op : Nat) (st : Status) (s : State) : State :=
  let s := { (s.putN Reg.FW_UPD_RESULT st.word.toNat).setBit Reg.FW_UPD_STATUS 0 false with fw := { s.fw with opLeft := 0, lastOp := s.tb } }
  pfNotice Reg.FW_NOTICE 0 (s.traceRec 0x0E 0x40 0xFFFF [op, st.word.toNat])

/-- The next 4 KiB block of a WRITE is read from host memory by the PF. -/
def readBlock (s : State) : State :=
  let (tag, s) := s.fresh
  { s with reads := s.reads ++ [⟨tag, 0, 0, .update, s.fw.opAt, 4096, s.tb⟩] }

/-- Put bytes after those written so far into the inactive slot. -/
def slotBytes (bytes : List Nat) (s : State) : State :=
  match s.fw.inForce with
  | none => s
  | some (_, d) =>
    let put := fun (m : Memory) => writeBytes m (s.rdN Reg.FW_UPD_WRITTEN) (bytes.map (BitVec.ofNat 8))
    { s with fw := if d.inactive = 0 then { s.fw with slotA := put s.fw.slotA } else { s.fw with slotB := put s.fw.slotB } }

/-- A block of a WRITE is programmed; the next follows, or the operation ends. Where it does not read back the operation ends
FAULT_UNCORRECTABLE. -/
def updProgram (bytes : List Nat) (s : State) : State :=
  let s := slotBytes bytes s
  if !s.fw.programOk then updEnd 2 ⟨0x40, 0, 0⟩ s
  else
    let s := s.putN Reg.FW_UPD_WRITTEN (s.rdN Reg.FW_UPD_WRITTEN + bytes.length)
    let s := { s with fw := { s.fw with opAt := s.fw.opAt + bytes.length, opLeft := s.fw.opLeft - bytes.length } }
    if s.fw.opLeft = 0 then updEnd 2 ⟨0, 0, 0⟩ s else readBlock s

end Sys2Proof.Machine
end

