-- ==== Sys2Proof/Machine/Tenancy.lean ====
section
/-! DEFINITION. The commands of tenancy and admission (03). -/

namespace Sys2Proof.Machine

/-- ADMIT (R55, R62 to R64). -/
def execGateAdmit (win : Option Nat) (f : Nat) (req : AdmReq) (s : State) : Out :=
  onUnit (decide (f < 32)) (mailboxGo 1 f win req s)

/-- MODIFY (R62, R554). -/
def execModify (win : Option Nat) (f : Nat) (req : AdmReq) (s : State) : Out :=
  onUnit (decide (f < 32)) (mailboxGo 2 f win req s)

/-- ATTACH (R70, R72). -/
def execAttach (win : Option Nat) (f : Nat) (req : AdmReq) (s : State) : Out :=
  onUnit (decide (f < 32)) (mailboxGo 3 f win req s)

/-- DETACH (R554, R68). -/
def execDetach (win : Option Nat) (f : Nat) (req : AdmReq) (s : State) : Out :=
  onUnit (decide (f < 32)) (mailboxGo 4 f win req s)

/-- RELEASE (R71, R554). -/
def execRelease (win : Option Nat) (f : Nat) (req : AdmReq) (s : State) : Out :=
  onUnit (decide (f < 32)) (mailboxGo 5 f win req s)

/-- QUERY (R66). -/
def execQuery (win : Option Nat) (f : Nat) (req : AdmReq) (s : State) : Out :=
  onUnit (decide (f < 32)) (mailboxGo 6 f win req s)

/-- WITHDRAW (R66). -/
def execWithdraw (win : Option Nat) (f : Nat) (req : AdmReq) (s : State) : Out :=
  onUnit (decide (f < 32)) (mailboxGo 7 f win req s)

/-- The deferred request of a ticket that has waited its MAX_WAIT_MS (R66). -/
def waitedOut (ticket : Nat) (s : State) : Option Deferred :=
  s.adm.deferred.find? (fun d => d.ticket == ticket && d.mb.req.maxWaitMs != 0 && decide (d.arrived + 1000 * d.mb.req.maxWaitMs ≤ s.tb))

/-- A deferred request's MAX_WAIT_MS ends (R65, R66): it is removed and refused with the shortfall of now; the queue
is evaluated again. -/
def deferExpire (ticket : Nat) (s : State) : State :=
  match waitedOut ticket s with
  | none => s
  | some d =>
    let (n, x) := (entryShort s d.mb.req).getD ((s.adm.deferred.head?.bind (fun h => entryShort s h.mb.req)).getD (0, 0))
    let s := { s with adm := { s.adm with deferred := s.adm.deferred.filter (fun e => e.ticket != ticket) } }
    reevaluateAll (deferRefused d ⟨shortCode n, n, x⟩ x s)

/-- DEFER_MAX_WAIT_EXPIRE (R66). -/
def execDeferMaxWaitExpire (ticket : Nat) (s : State) : Out := .next (deferExpire ticket s)

/-- A write of TW_NTC_CONS that moves backward or past the producer is ignored (R61). -/
def noticeConsumed (f v : Nat) (s : State) : State :=
  let n := s.fn f
  if (v + 2 ^ 32 - n.ntcCons) % 2 ^ 32 ≤ (n.ntcProd + 2 ^ 32 - n.ntcCons) % 2 ^ 32 then
    s.updFn f (fun n => { n with ntcCons := v % 2 ^ 32 })
  else s

/-- TW_NTC_CONS_WRITE (R61). -/
def execTwNtcConsWrite (win : Option Nat) (f : Nat) (value : Word) (s : State) : Out :=
  onUnit (decide (f < 32)) (if reaches s f win then noticeConsumed f value.toNat s else s)

/-- ATTACH_LOCKOUT_EXPIRE (R72). -/
def execAttachLockoutExpire (id : Nat) (s : State) : Out :=
  .next <| if !timeCame (mgetD s.adm.attachFails {} id).lockUntil s.tb then s else { s with adm := { s.adm with attachFails := mupd s.adm.attachFails id (fun a => { a with lockUntil := none }) } }

/-- GRACE_EXPIRE (R69): only a PARKED tenant has a grace timer, and only one that has run out ends it. -/
def execGraceExpire (slot : Nat) (s : State) : Out :=
  onUnit (decide (slot < 1024)) (match s.ten slot with
    | some t => if t.st = .parked ∧ timeCame t.graceAt s.tb = true then endGrace slot s else s
    | none => s)

/-- A slot becomes FREE: its tenant is still charged for this second (20, R423). -/
def noteGone (slot : Nat) (s : State) : State :=
  let at_ := mgetD s.nrg.slotAt [] slot
  let act := (List.range 7).map (fun i => s.twRd slot (Reg.TW_NRG_ACT i) - at_.getD i 0)
  { s with nrg := { s.nrg with
    gone := (act, mgetD s.nrg.area 0 slot) :: s.nrg.gone, slotAt := mdel s.nrg.slotAt slot, area := mdel s.nrg.area slot } }

/-- Zeroisation ends (R71, R101, R109): an object's capacity returns to its tenant and its index entry becomes FREE; a
released tenant's slot becomes FREE and its ID returns to the pool; the deferral queue is evaluated again (R65). -/
def zeroiseDone (job : Nat) (s : State) : State :=
  match s.adm.zero.find? (fun z => z.id == job) with
  | none => s
  | some z =>
    let s := { s with adm := { s.adm with zero := s.adm.zero.filter (fun y => y.id != job) } }
    let s := match z.obj with
      | some (slot, idx) =>
        let e := entryOf s slot idx
        let s := s.updTen slot (fun t => { t with objs := mdel t.objs idx })
        (match e with | some e => if e.2.st = .evicting then freeEntry e.1 s else s | none => s)
      | none => s
    let s := match z.orphan with | some n => freeEntry n s | none => s
    let s := match z.slot with
      | some slot =>
        let s := noteGone slot s
        { s with
          hie := { s.hie with freed := mput s.hie.freed (tenId s slot) s.tb },
          adm := { s.adm with tenants := mdel s.adm.tenants slot } }
      | none => s
    reevaluateAll s

/-- ZEROISE_COMPLETE (R71). -/
def execZeroiseComplete (job : Nat) (s : State) : Out := .next (zeroiseDone job s)

end Sys2Proof.Machine
end

