-- ==== Sys2Proof/Machine/TierEvents.lean ====
section
/-! DEFINITION. Events of the tier engine (04). -/

namespace Sys2Proof.Machine

/-- MOVE_COMMIT (R84): a move to or from a peer ends by MOVE_DONE instead (12, R263). -/
def execMoveCommit (move : Nat) (s : State) : Out :=
  .next (match s.move move with
    | some m => if m.src = 4 ∨ m.dst = 4 then s else commitMove m s
    | none => s)

/-- A commit of the watermarks at a scan (04, R557). -/
def wmApply (s : State) : State :=
  match s.inflight.find? (fun c => c.1 == Reg.TIER_WM_COMMIT) with
  | none => s
  | some c =>
    let v := fun a => ((mget c.2 a).getD (s.rd a)).toNat
    if v Reg.TIER_WM_LOW < v Reg.TIER_WM_HIGH then commitApply s Reg.TIER_WM_COMMIT
    else (commitDrop s Reg.TIER_WM_COMMIT).setBit Reg.TIER_PENDING 1 true

/-- DEMOTION_SCAN (R93, R557): a watermark commit in flight takes force first, unless the pair is invalid. -/
def execDemotionScan (s : State) : Out := .next (demotionScan (wmApply s))

/-- A stalled move to or from T3 is abandoned, and a region that did not take data enters back-off (R102). -/
def t3Stall (m : Move) (s : State) : State :=
  let st : Status := ⟨0x32, 0, s.rdN Reg.HIF_STALL_TO⟩
  let s := ((s.bump Reg.TIER_T3_STALLS).bump Reg.HIF_STALL_ABORT).twBump m.slot Reg.TW_HIF_STALLS
  let s := if m.dst = 3 then
      s.updTen m.slot (fun t => { t with regions := mupd t.regions m.dstLoc (fun r => { r with backoff := some (s.tb + 1000 * s.rdN Reg.TIER_T3_BACKOFF) }) })
    else s
  failMove m st s

/-- T3_MOVE_STALL_TIMEOUT (R102): a move can have stalled for HIF_STALL_TO only if it began that long ago. -/
def execT3MoveStallTimeout (move : Nat) (s : State) : Out :=
  .next (match s.move move with
    | some m => if (m.src = 3 ∨ m.dst = 3) ∧ m.since + 1000 * s.rdN Reg.HIF_STALL_TO ≤ s.tb then t3Stall m s else s
    | none => s)

/-- T3_BACKOFF_EXPIRE (R102). -/
def execT3BackoffExpire (slot region : Nat) (s : State) : Out :=
  onUnit (decide (slot < 1024) && decide (region < 64))
    (s.updTen slot (fun t => { t with
      regions := mupd t.regions region (fun r => if timeCame r.backoff s.tb then { r with backoff := none } else r) }))

/-- PEER_MOVE_TIMEOUT (R103): DETAIL is the elapsed time in ms; a move began at least TIER_PEER_TO ago. -/
def execPeerMoveTimeout (move elapsedMs : Nat) (s : State) : Out :=
  .next (match s.move move with
    | some m =>
      if (m.src = 4 ∨ m.dst = 4) ∧ m.since + 1000 * s.rdN Reg.TIER_PEER_TO ≤ s.tb then failMove m ⟨0x44, 7, elapsedMs⟩ s else s
    | none => s)

/-- Every page homed at a peer is poisoned, moves there are abandoned (R99), and events for it dropped (10). -/
def losePeer (node : Nat) (s : State) : State :=
  let s := loseLink node s
  let s := (s.adm.tenants.map (·.1)).foldl (fun s i => poisonWhere i (fun p => p.tier == 4 && p.loc == node) s) s
  (s.moves.filter (fun m => m.dst == 4 && m.dstLoc == node)).foldl (fun s m => failMove m ⟨0x44, 7, s.rdN Reg.TIER_PEER_LOSS⟩ s) s

/-- PEER_LOSS_TIMEOUT (R99): a peer not heard from for TIER_PEER_LOSS. -/
def execPeerLossTimeout (node : Nat) (s : State) : Out :=
  .next (if (s.peer node).heard + 1000 * s.rdN Reg.TIER_PEER_LOSS ≤ s.tb then losePeer node s else s)

end Sys2Proof.Machine
end

