-- ==== Sys2Proof/Machine/OpsHost.lean ====
section
/-! DEFINITION. Host stalls, errors, leases and function resets (15): what each does to queued writes, reads, tenants and
regions. -/

namespace Sys2Proof.Machine

/-! ### Errors in AER (R327; bit positions of PCIe, log entry 85) -/

/-- An error is noted in a function's AER status: an uncorrectable bit, and for an advisory error bit 13 of the
correctable status. -/
def aer (f bit : Nat) (advisory : Bool) (s : State) : State :=
  s.updFn f (fun n => { n with
    aerUnc := n.aerUnc ||| 2 ^ bit, aerCor := if advisory then n.aerCor ||| 2 ^ 13 else n.aerCor })

/-! ### Write stalls (R324, R326, R560) -/

/-- HIF_STALL_TO in ms, and the status of what a stall ends. -/
def stallStatus (s : State) : Status := ⟨0x32, 0, s.rdN Reg.HIF_STALL_TO⟩

/-- An operation of a tenant ended ABORTED_HOST_STALL. -/
def countStall (slot : Nat) (s : State) : State := (s.bump Reg.HIF_STALL_ABORT).twBump slot Reg.TW_HIF_STALLS

/-- A command ends ABORTED_HOST_STALL; a token fetch ends its turn. -/
def stallFlight (id : Nat) (s : State) : State :=
  match s.flight id with
  | none => s
  | some f =>
    let s := countStall f.slot s
    if f.op = 0x1B then turnFail id (stallStatus s) s else finish id (stallStatus s) 0 s

/-- Moves from or to T3 regions of a function. -/
def hostMoves (s : State) (f : Nat) (toHost : Bool) : List Move :=
  s.moves.filter (fun m =>
    let reg := if m.dst = 3 then some m.dstLoc else if m.src = 3 then (s.obj m.slot m.obj).map (fun o => (o.page m.page).loc) else none
    (if toHost then m.dst == 3 else m.src == 3) &&
      (match reg.bind (fun r => (s.ten m.slot).bind (fun t => mget t.regions r)) with | some r => r.fn == f | none => false))

/-- Table HIF-4 for what a function's write queue holds: entries are held, data commands end, messages stay pending;
moves to its regions are abandoned. -/
def stallWrites (f : Nat) (s : State) : State :=
  let wq := (s.fn f).wq
  let s := rehold f (fun _ => true) s
  let s := s.updFn f (fun n => { n with
    wq := n.wq.filter (fun w => match w with | .raw _ _ _ => true | _ => false),
    pendingVec := wq.foldl (fun l w => match w with | .msix v => (if l.contains v then l else l ++ [v]) | _ => l) n.pendingVec })
  let s := wq.foldl (fun s w => match w with | .data id _ _ => stallFlight id s | _ => s) s
  (hostMoves s f true).foldl (fun s m => t3Stall m s) s

/-- A function becomes write-stalled, at the check after its write queue's head waited HIF_STALL_TO (R324); `withheld`
says that the host has withheld link credits for that long (log entry 86). -/
def writeStall (f : Nat) (withheld : Bool) (s : State) : State :=
  let n := s.fn f
  if n.wrStalled || !(withheld || (!n.wq.isEmpty && decide (n.wqSince + 1000 * s.rdN Reg.HIF_STALL_TO ≤ s.tb))) then s
  else
    let s := (s.bump Reg.HIF_WR_STALL).traceRec 0x0C 2 f [f, 1]
    stallWrites f (s.updFn f (fun n => { n with wrStalled := true }))

/-- Send every pending message that may go. -/
def sendPending (f : Nat) (s : State) : State :=
  let n := s.fn f
  if !n.msixEn || n.wrStalled then s
  else
    let due := n.pendingVec.filter (fun v => n.unmasked.contains v)
    let s := s.updFn f (fun n => { n with pendingVec := n.pendingVec.filter (fun v => !due.contains v) })
    due.foldl (fun s v => postWrite f (.msix v) s) s

/-- A function that is neither blocked nor stalled writes what its queue holds, in order; then the commands whose data
left complete (R313). -/
def drainFn (f : Nat) (s : State) : State :=
  let n := s.fn f
  if n.blocked || n.wrStalled then s
  else
    let s := s.updFn f (fun n => { n with wq := [] })
    let s := n.wq.foldl (fun s w => sendHost f w s) s
    n.wq.foldl (fun s w => match w with | .data id _ _ => finish id ⟨0, 0, 0⟩ 0 s | _ => s) s

/-- The tenants attached through a function. -/
def tenantsOf (s : State) (f : Nat) : List Nat := (s.adm.tenants.filter (fun t => t.2.fn == some f)).map (·.1)

/-- A function leaves its write stall: its queues write held completions, then its pending messages go (R326, R560). -/
def stallExit (f : Nat) (s : State) : State :=
  let n := s.fn f
  if n.blocked || !n.wrStalled then s
  else
    let s := drainFn f (s.updFn f (fun n => { n with wrStalled := false }))
    let s := (tenantsOf s f).foldl (fun s slot =>
      (((s.ten slot).map (fun t => t.queues.map (·.1))).getD []).foldl (fun s q => replayAll slot q s) s) s
    sendPending f s

/-! ### Reads -/

/-- A device read. -/
def State.hostReadOf (s : State) (tag : Nat) : Option HostRead := s.reads.find? (fun r => r.tag == tag)

/-- A read is no longer outstanding. -/
def dropRead (tag : Nat) (s : State) : State := { s with reads := s.reads.filter (fun r => r.tag != tag) }

/-- What waits on a read ends with a status; a chunk of an image is the management core's (23). -/
def readFails (r : HostRead) (st : Status) (s : State) : State :=
  match r.use with
  | .write id => finish id st 0 s
  | .turn id => turnFail id st s
  | .inject id => finish id st 0 s
  | .update => updEnd 2 st s

/-- A read that times out (R325): HIF_RD_STALL counts it, and its operation ends. -/
def readStall (r : HostRead) (s : State) : State :=
  let s := aer r.fn 14 false ((dropRead r.tag s).bump Reg.HIF_RD_STALL)
  let s := s.traceRec 0x0C 2 r.fn [r.fn, 0]
  let s := match r.use with | .update => s.bump Reg.HIF_STALL_ABORT | _ => countStall r.slot s
  readFails r (stallStatus s) s

/-! ### Host-absent mode (R320) and leases -/

/-- The sled enters host-absent mode. -/
def enterHostAbsent (s : State) : State :=
  let s := if hostAbsent s then s else (s.setBit Reg.HIF_HOST_ABSENT 0 true).putN Reg.HIF_ABSENT_SINCE s.tb
  let slots := s.adm.tenants.map (·.1)
  let s := slots.foldl (fun s i => revokeRegions i (fun _ => true) (parkTenant i s)) s
  reevaluateAll s

/-- A function's lease expires. -/
def leaseGone (f : Nat) (s : State) : State :=
  ((s.updFn f (fun n => { n with leaseLive := false })).bump Reg.HIF_LEASE_EXPIRED).traceRec 3 2 f [f]

/-- A lease write (R318, R321). -/
def leaseWrite (f : Nat) (s : State) : State :=
  let s := s.updFn f (fun n => { n with leaseLive := true, leaseAt := s.tb })
  if f = 0 then s.setBit Reg.HIF_HOST_ABSENT 0 false else s

/-- The lease of a function has run out (R318). -/
def leaseOver (s : State) (f : Nat) : Bool :=
  (s.fn f).leaseLive && decide ((s.fn f).leaseAt + 1000 * s.fnRd f Reg.TW_LEASE_PERIOD < s.tb)

/-! ### Function resets (R328, R329) -/

/-- Every host region of a function is revoked, whoever registered it. -/
def revokeFn (f : Nat) (s : State) : State :=
  (s.adm.tenants.map (·.1)).foldl (fun s i => revokeRegions i (fun r => r.fn == f) s) s

/-- The reset of one function: its tenants are parked, its regions revoked, its queued writes and reads abandoned, its MSI-X
state and configuration space reset, its lease EXPIRED. -/
def resetFn (f : Nat) (s : State) : State :=
  let s := (tenantsOf s f).foldl (fun s i => parkTenant i s) s
  let s := stallWrites f s
  let s := (s.reads.filter (fun r => r.fn == f)).foldl (fun s r =>
    let s := dropRead r.tag s
    let s := match r.use with | .update => s.bump Reg.HIF_STALL_ABORT | _ => countStall r.slot s
    readFails r (stallStatus s) s) s
  let s := (hostMoves s f false).foldl (fun s m => t3Stall m s) s
  let s := revokeFn f s
  let s := s.updFn f (fun n => { n with
    leaseLive := false, bme := false, mse := false, msixEn := false, d3hot := false, wrStalled := false, wq := [],
    unmasked := [], pendingVec := [], aerUnc := 0, aerCor := 0 })
  s.fnPut f Reg.TW_LEASE_PERIOD 2000

/-- The VFs that VF Enable shows are reset and gone (R328). -/
def clearVfs (s : State) : State :=
  let s := (List.range s.hif.vfs).foldl (fun s i => resetFn (i + 1) s) s
  { s with hif := { s.hif with vfs := 0, vfMse := false } }

/-- A reset of the PF: every VF and the PF, then host-absent mode (R329); a new size of BAR2 takes effect (R309). -/
def resetPf (s : State) : State :=
  let s := resetFn 0 (clearVfs s)
  enterHostAbsent { s with bar2 := s.hif.bar2Next }

end Sys2Proof.Machine
end

