-- ==== Sys2Proof/Machine/Operands.lean ====
section
/-! DEFINITION. The fields of a Zaltonte instruction word, the checks made at issue, and the register files of both
profiles (07, 08, 09). -/

namespace Sys2Proof.Machine

/-! ### Fields (Tables CLU-12 and CLU-13) -/

def wMajor (w : Nat) : Nat := bits w 56 8
def wPG (w : Nat) : Nat := bits w 53 3
def wPN (w : Nat) : Nat := bits w 52 1
def wD (w : Nat) : Nat := bits w 47 5
def wA (w : Nat) : Nat := bits w 42 5
def wB (w : Nat) : Nat := bits w 37 5
def wC (w : Nat) : Nat := bits w 32 5
def wSub (w : Nat) : Nat := bits w 24 8
def wTy (w : Nat) : Nat := bits w 20 4
def wRm (w : Nat) : Nat := bits w 17 3
def wF (w : Nat) : Nat := bits w 16 1
def wMod (w : Nat) : Nat := bits w 0 16
/-- The immediate, sign-extended to 64 bits. -/
def wImm (w : Nat) : DWord := (BitVec.ofNat 32 w).signExtend 64
/-- The immediate's bits. -/
def wImmU (w : Nat) : Nat := bits w 0 32

/-! ### Checks at issue (R166, R198) -/

/-- What a register field holds. -/
inductive Fld where
  /-- Unused: reserved, zero. -/
  | no
  /-- An s or v register. -/
  | r32
  /-- A t or h register. -/
  | r16
  /-- A p or a register. -/
  | r8
  /-- A code below a bound. -/
  | code (n : Nat)
  deriving DecidableEq, Repr

/-- A register field passes checks 2 to 4. -/
def Fld.ok (f : Fld) (x : Nat) : Bool :=
  match f with
  | .no => x == 0
  | .r32 => true
  | .r16 => decide (x < 16)
  | .r8 => decide (x < 8)
  | .code n => decide (x < n)

/-- The low word of an instruction. -/
inductive Low where
  /-- Format R: sub-operations, lane types, whether RM and F are used, bits of MOD. -/
  | r (subs : Nat) (tys : List Nat) (rm f : Bool) (mod : Nat)
  /-- Format I: any immediate. -/
  | imm
  /-- Format I: an unsigned immediate below a bound. -/
  | immBelow (n : Nat)
  deriving DecidableEq, Repr

/-- The low word passes checks 3 and 4. -/
def Low.ok (l : Low) (w : Nat) : Bool :=
  match l with
  | .imm => true
  | .immBelow n => decide (wImmU w < n)
  | .r subs tys rm f mod =>
    decide (wSub w < max 1 subs) && (if tys.isEmpty then wTy w == 0 else tys.contains (wTy w)) &&
      (if rm then decide (wRm w < 5) else wRm w == 0) && (f || wF w == 0) && decide (wMod w < 2 ^ mod)

/-- A format R instruction without codes. -/
def plainR : Low := .r 0 [] false false 0

/-- The encoding of an instruction: its register fields and low word. -/
structure Enc where
  d : Fld := .no
  a : Fld := .no
  b : Fld := .no
  c : Fld := .no
  low : Low := plainR
  deriving DecidableEq, Repr

/-- The word passes checks 2 to 4. -/
def Enc.ok (e : Enc) (w : Nat) : Bool :=
  e.d.ok (wD w) && e.a.ok (wA w) && e.b.ok (wB w) && e.c.ok (wC w) && e.low.ok w

/-! ### Conditions (Table CLU-16) -/

/-- A condition on two 64-bit values. -/
def condHolds (c : Nat) (x y : DWord) : Bool :=
  match c with
  | 0 => x == y
  | 1 => x != y
  | 2 => x.slt y
  | 3 => !x.slt y
  | 4 => x.ult y
  | _ => !x.ult y

/-! ### The scalar operations (R170), by cluster major -/

/-- The signed quotient, toward zero. -/
def aluDiv (x y : DWord) : DWord := if y = 0 then -1 else BitVec.ofInt 64 (x.toInt.tdiv y.toInt)
/-- The signed remainder, with the sign of the dividend. -/
def aluRem (x y : DWord) : DWord := if y = 0 then x else BitVec.ofInt 64 (x.toInt.tmod y.toInt)

/-- The operation of a major from 0x01 to 0x13 on two registers. -/
def alu (major : Nat) (x y : DWord) : DWord :=
  let sh := y.toNat % 64
  match major with
  | 0x01 => x + y
  | 0x02 => x - y
  | 0x03 => x * y
  | 0x04 => BitVec.ofInt 64 (x.toInt * y.toInt / 2 ^ 64)
  | 0x05 => BitVec.ofNat 64 (x.toNat * y.toNat / 2 ^ 64)
  | 0x06 => aluDiv x y
  | 0x07 => if y = 0 then -1 else BitVec.ofNat 64 (x.toNat / y.toNat)
  | 0x08 => aluRem x y
  | 0x09 => if y = 0 then x else BitVec.ofNat 64 (x.toNat % y.toNat)
  | 0x0A => x &&& y
  | 0x0B => x ||| y
  | 0x0C => x ^^^ y
  | 0x0D => x <<< sh
  | 0x0E => x >>> sh
  | 0x0F => x.sshiftRight sh
  | 0x10 => if x.slt y then x else y
  | 0x11 => if x.slt y then y else x
  | 0x12 => if x.ult y then x else y
  | _ => if x.ult y then y else x

/-- The operation sets DIVZERO (R170). -/
def aluDivzero (major : Nat) (y : DWord) : Bool := decide (6 ≤ major) && decide (major ≤ 9) && y == 0

/-! ### Registers of a cluster (Table CLU-1) -/

namespace Cluster
/-- An s register; s0 reads zero. -/
def sr (c : Cluster) (i : Nat) : DWord := if i = 0 then 0 else mgetD c.s 0 i
/-- Write an s register; a write to s0 is discarded. -/
def setS (c : Cluster) (i : Nat) (v : DWord) : Cluster := if i = 0 then c else { c with s := mputD c.s 0 i v }
/-- A p register; p0 reads all ones. -/
def pr (c : Cluster) (i : Nat) : DWord := if i = 0 then BitVec.allOnes 64 else mgetD c.p 0 i
/-- Write a p register; a write to p0 is discarded. -/
def setP (c : Cluster) (i : Nat) (v : DWord) : Cluster := if i = 0 then c else { c with p := mputD c.p 0 i v }
/-- Lane `n` of a v register. -/
def vr (c : Cluster) (i n : Nat) : Word := mgetD c.v 0 (64 * i + n)
/-- Write a lane of a v register. -/
def setV (c : Cluster) (i n : Nat) (x : Word) : Cluster := { c with v := mputD c.v 0 (64 * i + n) x }
/-- A tile descriptor register. -/
def tr (c : Cluster) (i : Nat) : DWord := mgetD c.t 0 i
/-- Write a tile descriptor register. -/
def setT (c : Cluster) (i : Nat) (x : DWord) : Cluster := { c with t := mputD c.t 0 i x }
/-- A handle register. -/
def hr (c : Cluster) (i : Nat) : DWord := mgetD c.h 0 i
/-- Write a handle register. -/
def setH (c : Cluster) (i : Nat) (x : DWord) : Cluster := { c with h := mputD c.h 0 i x }
/-- An accumulator element. -/
def acc (c : Cluster) (a row col : Nat) : Word := mgetD c.a 0 (16384 * a + 128 * row + col)
/-- Write an accumulator element. -/
def setAcc (c : Cluster) (a row col : Nat) (x : Word) : Cluster := { c with a := mputD c.a 0 (16384 * a + 128 * row + col) x }
/-- Clear an accumulator to +0.0. -/
def clearAcc (c : Cluster) (a : Nat) : Cluster := { c with a := c.a.filter (fun e => e.1 / 16384 != a) }
/-- A semaphore. -/
def semv (c : Cluster) (i : Nat) : DWord := mgetD c.sems 0 i
/-- Set sticky flags (R155). -/
def flag (c : Cluster) (f : Nat) : Cluster := { c with flags := c.flags ||| f }
end Cluster

/-! ### Registers of a queue program (09) -/

namespace QRegs
/-- An s register. -/
def sr (r : QRegs) (i : Nat) : DWord := if i = 0 then 0 else mgetD r.s 0 i
/-- Write an s register. -/
def setS (r : QRegs) (i : Nat) (v : DWord) : QRegs := if i = 0 then r else { r with s := mputD r.s 0 i v }
/-- A p register, of which only bit 0 is meaningful; p0 is true. -/
def pr (r : QRegs) (i : Nat) : Bool := i == 0 || mgetD r.p false i
/-- Write a p register. -/
def setP (r : QRegs) (i : Nat) (v : Bool) : QRegs := if i = 0 then r else { r with p := mputD r.p false i v }
/-- A handle register. -/
def hr (r : QRegs) (i : Nat) : DWord := mgetD r.h 0 i
/-- Write a handle register. -/
def setH (r : QRegs) (i : Nat) (v : DWord) : QRegs := { r with h := mputD r.h 0 i v }
end QRegs

end Sys2Proof.Machine
end

