-- ==== Sys2Proof/Machine/OpsQprog.lean ====
section
/-! DEFINITION. How queue programs and step programs run (09, R198 to R203). -/

namespace Sys2Proof.Machine

/-- The major opcodes of the queue profile (Table QUE-7). -/
def queMajors : List Nat :=
  (List.range 15).map (· + 0xC0) ++ [0xD0, 0xD1, 0xD8, 0xD9, 0xDA, 0xE0, 0xE1, 0xE2, 0xE3, 0xE8, 0xE9, 0xEA, 0xEB, 0xEC, 0xF0, 0xF1]

/-- The fence points that are instructions, and those just before an issue (R201). -/
def fencePoint (major : Nat) : Bool := [0xEA, 0xEB, 0xE9, 0xD9, 0xE2, 0xD8, 0xE0, 0xF1, 0xE8].contains major

/-- A program. -/
def State.prog (s : State) (k : Nat) : Option QProg := mget s.progs k
/-- Set a program. -/
def State.setProg (s : State) (k : Nat) (p : QProg) : State := { s with progs := mput s.progs k p }
/-- Change a program. -/
def State.updProg (s : State) (k : Nat) (f : QProg → QProg) : State := { s with progs := mupd s.progs k f }

/-- A program ends with a status: a step program's goes to its step (R202, R203). -/
def quitProg (key : Nat) (st : Status) (result : Nat) (s : State) : State :=
  match s.prog key with
  | none => s
  | some p =>
    match p.step with
    | none => endProg key st result s
    | some t =>
      { s with progs := mdel s.progs key }.updStep t (fun t => { t with
        ended := true, words := if st.code = 0 then t.words else t.words ++ [st] })

/-- A program fault (R198). -/
def qFaultWith (key : Nat) (st : Status) (s : State) : State :=
  match s.prog key with
  | none => s
  | some p => quitProg key st 0 (if p.step.isSome then s else s.twBump p.slot Reg.TW_QP_FAULTS)

/-- FAULT_PROGRAM at an instruction. -/
def qFault (key : Nat) (s : State) : State :=
  qFaultWith key ⟨0x41, 0xA, ((s.prog key).map (·.pc)).getD 0⟩ s

/-- Go on at an index; a fetch past the end or of a word outside the profile faults there (R145, R198). -/
def qGoTo (key i : Nat) (s : State) : State :=
  let s := s.updProg key (fun p => { p with pc := i })
  match s.prog key with
  | none => s
  | some p =>
    match p.code[i]? with
    | none => qFault key s
    | some w => if queMajors.contains (wMajor w.toNat) then s else qFault key s

/-- The instruction is done. -/
def qNext (key : Nat) (s : State) : State := qGoTo key (((s.prog key).map (·.pc)).getD 0 + 1) s

/-- A program that was asked to stop stops here (R201): parking keeps it, QPROG_STOP ends it. -/
def stopHere (key : Nat) (s : State) : State :=
  match s.prog key with
  | none => s
  | some p =>
    if p.stopEnd then quitProg key ⟨0x34, 0, 0⟩ 0 s
    else s.setProg key { p with stopReq := none, stopped := true, parked := none }

/-- A program can issue its next instruction: it is not parked or stopped, and its step has not been cut. -/
def QProg.runs (s : State) (p : QProg) : Bool :=
  p.parked.isNone && !p.stopped &&
    (match p.step with | some t => (s.step? t).any (fun t => !t.ended) | none => true)

/-- Issue the instruction `major` with the low 56 bits `w`, which the program holds at its index (R198): it stops at a
fence point when asked to, the encoding is checked, the guard applies, then `body` has its effect. -/
def qIssue (key major : Nat) (w : BitVec 56) (enc : Enc) (also : Nat → Bool) (body : QProg → Nat → State → State) (s : State) : State :=
  let word := major * 2 ^ 56 + w.toNat
  match s.prog key with
  | none => s
  | some p =>
    if !p.runs s || (p.code[p.pc]?).map (·.toNat) != some word then s
    else if p.stopReq.isSome && fencePoint major then stopHere key s
    else if !enc.ok word || !also word then qFault key s
    else if p.regs.pr (wPG word) == decide (wPN word = 1) then qNext key s
    else body p word s

/-- Change a program's registers and go on. -/
def qSet (key : Nat) (f : QRegs → QRegs) (s : State) : State :=
  qNext key (s.updProg key (fun p => { p with regs := f p.regs }))

/-- The instructions of a program object: a READONLY tile object of 8 to 65,536 bytes (09; 07, R145). -/
def codeOf (o : Obj) : Option (List DWord) :=
  if o.tile && o.flag 8 && decide (8 ≤ o.size) && decide (o.size ≤ 65536) then
    some ((List.range (o.size / 8)).map (fun i => BitVec.ofNat 64 (readLE o.data (8 * i) 8)))
  else none

/-- The age of a token in issues, if it is in the window; otherwise it faults (R199). -/
def tokenOk (issued window tok : Nat) : Bool :=
  let age := (issued + 65536 * (issued / 65536 + 1) - 1 - tok % 65536) % 65536
  decide (0 < issued) && decide (age < window) && decide (age < issued)

/-- A token in a list. -/
def findTok (l : List Token) (tok : Nat) : Option Token := l.find? (fun t => t.num == tok % 65536)

/-- Tokens of a list whose work has not ended. -/
def openToks (l : List Token) : Nat := (l.filter (fun t => t.status.isNone)).length

/-- Add a token, keeping those in flight and those the window can still name. -/
def addTok (l : List Token) (num window : Nat) : List Token :=
  let l := l ++ [{ num := num }]
  let old := l.length - window
  (l.take old).filter (fun t => t.status.isNone) ++ l.drop old

/-- A program's read of an object: it is charged, and the pages are used now (20, Table NRG-1). -/
def useRead (slot : Nat) (n : Named) (off len : Nat) (s : State) : State :=
  let pages := pagesOf n.obj off len
  pages.foldl (fun s i => chargeAccess slot (n.obj.page i) (touched n.obj off len i) false
    (s.updObj n.slot n.idx (fun o => o.setPage i { o.page i with lastUse := s.tb }))) s

/-- Bytes that a program reads from an object: FAULT at a bad handle or poison; nothing while a page below T1 is being
promoted (R88, R198). -/
def qRead (key : Nat) (h : DWord) (reg off len : Nat) (body : Memory → State → State) (s : State) : State :=
  match s.prog key with
  | none => s
  | some p =>
    match checkHandle s p.slot h false off len reg p.pc with
    | .error st => qFaultWith key st s
    | .ok n =>
      match (pagesOf n.obj off len).find? (fun i => (n.obj.page i).poison) with
      | some i => qFaultWith key (poisonStatus (n.obj.page i)) s
      | none =>
        match mustPromote n.obj off len false with
        | [] => body n.obj.data (useRead p.slot n off len s)
        | l => l.foldl (fun s i => match s.obj n.slot n.idx with
          | some o => if (o.page i).mv.isSome then s else startMove n.slot n.idx i 1 0 (.promotion none) s
          | none => s) s

/-- Bytes that a program writes to an object (R85, R88, R198): a refusal ends it like a fault. -/
def qWrite (key : Nat) (h : DWord) (reg off : Nat) (bytes : List Byte) (s : State) : State :=
  match s.prog key with
  | none => s
  | some p =>
    match checkHandle s p.slot h true off bytes.length reg p.pc with
    | .error st => qFaultWith key st s
    | .ok n =>
      match leaseBlock n.obj (pagesOf n.obj off bytes.length) with
      | some res => qFaultWith key ⟨0x24, res, 0⟩ s
      | none =>
        match (pagesOf n.obj off bytes.length).find? (fun i => (n.obj.page i).poison && !covers n.obj off bytes.length i) with
        | some i => qFaultWith key (poisonStatus (n.obj.page i)) s
        | none =>
          match mustPromote n.obj off bytes.length true with
          | [] => qNext key (storeBytes n.slot n.idx off bytes s)
          | l => l.foldl (fun s i => match s.obj n.slot n.idx with
            | some o => if (o.page i).mv.isSome then s else startMove n.slot n.idx i 1 0 (.promotion none) s
            | none => s) s

end Sys2Proof.Machine
end

