-- ==== Sys2Proof/Machine/OpsStep.lean ====
section
/-! DEFINITION. The batch former (06): ranking, forming a batch, planning and cutting steps. -/

namespace Sys2Proof.Machine

/-! ### Ranking (R133) -/

/-- The keys of R133, smallest first; the deficit is a fraction. -/
structure Rank where
  standing : Nat
  prio : Nat
  ctxPrio : Nat
  num : Nat
  den : Nat
  since : Nat
  cid : Nat
  deriving DecidableEq, Repr

/-- `a` outranks `b` by the keys of R133. -/
def Rank.outranks (a b : Rank) : Bool :=
  decide (a.standing < b.standing) || (a.standing == b.standing &&
    (decide (b.prio < a.prio) || (a.prio == b.prio &&
      (decide (b.ctxPrio < a.ctxPrio) || (a.ctxPrio == b.ctxPrio &&
        (decide (a.num * b.den < b.num * a.den) || (a.num * b.den == b.num * a.den && decide (a.since < b.since))))))))

/-- The standing of a context's work: 0 RESERVED below its reserved time, 1 ELASTIC, 2 SCAVENGER (R67, R133). -/
def standingOf (s : State) (c : Ctx) : Nat :=
  match s.ten c.slot with
  | none => 2
  | some t => if c.cls = 0 ∧ t.cls = 0 then (if 0 < owed s c.slot c.readySince then 0 else 1) else if c.cls = 2 then 2 else 1

/-- The rank of a context. -/
def rankOf (s : State) (cid : Nat) (c : Ctx) : Rank :=
  let t := (s.ten c.slot)
  let st := standingOf s c
  let age := if st = 1 then (s.tb - c.readySince) / (1000 * max 1 (s.rdN Reg.SCH_AGE_MS)) else 0
  let up := fun p => if st = 1 then max p (min 3 (p + age)) else p
  ⟨st, up ((t.map (·.prio)).getD 0), up c.prio, (mget s.sch.used c.slot).getD 0, max 1 ((t.map (·.vec.clu)).getD 1), c.readySince, cid⟩

/-- A context the batch former may plan: READY with work, its model loaded and not below its clusters, its tenant not
exhausted (R140; 20, R429). -/
def plannable (s : State) (c : Ctx) : Bool :=
  c.st == .ready && c.step.isNone && (c.turn.isSome || c.resume.isSome) &&
    (match s.model c.model with | some m => decide (m.clusters ≤ clustersUp s) | none => false) && (exhausted s c.slot).isNone

/-- READY contexts in rank order; contexts of equal rank go by number (log entry 44). -/
def ranked (s : State) : List (Nat × Ctx) :=
  let l := s.sch.ctxs.filter (fun c => plannable s c.2)
  sortBy (fun a b => !(rankOf s b.1 b.2).outranks (rankOf s a.1 a.2)) l

/-! ### Delivery leads (02, R48, Table DEV-31) -/

/-- Two nodes are in one chassis: bits 14:4 agree (01, R35). -/
def sameChassis (a b : Nat) : Bool := bits a 4 11 == bits b 4 11

/-- The lead of a page by its home tier, in µs. -/
def leadOf (s : State) (tier loc : Nat) : Nat :=
  match tier with
  | 0 => 0 | 1 => 3 | 2 => 153 | 3 => 23
  | _ => if sameChassis loc (ownNode s) then 13 else 28

/-- Node that holds a block's page in T4. -/
def holderOf (s : State) (c : Ctx) (b g : Nat) : Nat :=
  match c.blocks[b]? with
  | some (.remote _ h _) => h
  | some (.priv o) => ((s.obj c.slot o).map (fun o => (o.page g).loc)).getD 0
  | some (.entry n) => ((entryObj s n).map (fun o => (o.page g).loc)).getD 0
  | none => 0

/-- The longest lead of a context's pages that are not in T1. -/
def longestLead (s : State) (cid : Nat) (c : Ctx) : Nat :=
  let groups := groupsOf s c.model
  (List.range c.blocks.length).foldl (fun m b => (List.range groups).foldl (fun m g =>
    let t := homeTier s cid b g
    if t ≤ 1 then m else max m (leadOf s t (holderOf s c b g))) m) 0

/-! ### Forming a batch (R134, R135) -/

/-- Tokens of a context's next decode input. -/
def Ctx.after (c : Ctx) : Nat := c.length + 1

/-- Add contexts in order while the limits hold; answers the batch, the longest length, and whether a limit stopped
it (R134 step 2). -/
def fillBatch (m : Model) (want : Nat) : List (Nat × Ctx) → List (Nat × Ctx) × Nat × Bool → List (Nat × Ctx) × Nat × Bool
  | [], acc => acc
  | x :: r, (l, lm, full) =>
    if full ∨ want ≤ l.length then (l, lm, full)
    else
      let lm' := max lm x.2.after
      if m.maxBatch ≤ l.length ∨ m.maxPadded < (l.length + 1) * lm' then (l, lm, true)
      else fillBatch m want r (l ++ [x], lm', false)

/-- The decode batch of a head (R134), and whether it draws on a neighbouring bin. -/
def decodeBatch (s : State) (m : Model) (cands : List (Nat × Ctx)) (head : Nat × Ctx) : List (Nat × Ctx) × Bool :=
  let same := cands.filter (fun c => standingOf s c.2 == standingOf s head.2)
  let home := binOf head.2.after
  let inBin := fun b => same.filter (fun c => binOf c.2.after == b)
  let (l, lm, full) := fillBatch m (m.maxBatch + 1) (inBin home) ([], 0, false)
  let fill := cdiv (m.maxBatch * m.minFill) 100
  if full ∨ fill ≤ l.length then (l, false)
  else
    let longer := sortBy (fun a b => decide (a.2.length ≤ b.2.length)) (inBin (home + 1))
    let shorter := if home = 0 then [] else sortBy (fun a b => decide (b.2.length ≤ a.2.length)) (inBin (home - 1))
    let (l2, _, _) := fillBatch m fill (longer ++ shorter) (l, lm, false)
    (l2, decide (l.length < l2.length))

/-- Prefill nanoseconds of a cluster group in the window may still grow (R135). -/
def prefillOk (s : State) (first : Nat) : Bool :=
  decide ((mget s.sch.prefill first).getD 0 * 64 ≤ s.rdN Reg.SCH_PREFILL_SHARE * 10000000)

/-- What a plan chooses from a model's joinable contexts: the kind, the first group, the entries as context, tokens and
whether a token is produced, and whether bins were merged. -/
structure Choice where
  kind : StepKind
  first : Nat
  entries : List (Nat × Nat × Bool)
  merged : Bool := false
  retry : Bool := false

/-- Choose a resume step, a prefill step or a decode batch (R134, R135, R137). -/
def choose (s : State) (m : Model) (cands : List (Nat × Ctx)) (firstCluster : Nat) : Option Choice :=
  match cands with
  | [] => none
  | top :: _ =>
    match top.2.resume with
    | some r =>
      let mem := cands.filterMap (fun c => match c.2.resume with
        | some q => if q.step = r.step then some (c.1, q.tokens, q.produces) else none
        | none => none)
      some { kind := .resume, first := r.first, entries := mem, retry := r.retry }
    | none =>
      let fresh := cands.filter (fun c => c.2.resume.isNone)
      let pre := fresh.find? (fun c => c.2.needPrefill)
      let dec := fresh.filter (fun c => !c.2.needPrefill)
      let prefill := fun (c : Nat × Ctx) =>
        let n := min c.2.todo.length m.chunk
        some ({ kind := .prefill, first := 0, entries := [(c.1, n, n == c.2.todo.length)] } : Choice)
      let decode := fun (h : Nat × Ctx) =>
        let (l, merged) := decodeBatch s m dec h
        some ({ kind := .decode, first := 0, entries := l.map (fun c => (c.1, 1, true)), merged := merged } : Choice)
      match pre, dec.head? with
      | some p, some h => if prefillOk s firstCluster && (rankOf s p.1 p.2).outranks (rankOf s h.1 h.2) then prefill p else decode h
      | some p, none => if prefillOk s firstCluster then prefill p else none
      | none, some h => decode h
      | none, none => none

/-! ### Planning (R119, R131) -/

/-- Durations of the groups from `first`, in ns (R131); fractions of a nanosecond are dropped (log entry 45). -/
def tausOf (m : Model) (first t lmax k : Nat) : List Nat :=
  (m.groups.drop first).map (fun g => (g.c0 * 1000 + g.c1 * t + g.c2 * t * lmax) * 64 / (1000 * (64 - k)))

/-- Private pages for the blocks that a context's next tokens reach (Table SCH-1; log entry 46). The fuel is the number
of blocks; a refusal of the placement is answered. -/
def growBlocks (cid upto : Nat) (m : Model) : Nat → State → Option Status × State
  | 0, s => (none, s)
  | n + 1, s =>
    match s.ctx cid with
    | none => (none, s)
    | some c =>
      if cdiv upto 64 ≤ c.blocks.length then (none, s)
      else
        let o : Obj := {
          size := m.groups.length * pageBytes, tile := false, flags := m.kvFlags + (if c.durable then 1024 else 0), elem := m.kvFormat,
          elemAlt := 0, segPages := 0, gen := 0, base := { tier := 1 } }
        match place c.slot o s with
        | (.error st, s) => (some st, s)
        | (.ok o, s) =>
          let (i, _, s) := newObj c.slot o s
          growBlocks cid upto m n (s.updCtx cid (fun c => { c with blocks := c.blocks ++ [.priv i] }))

/-- Allocate what the entries need; an entry whose pages cannot be placed ends its turn with the refusal. -/
def growAll (m : Model) : List (Nat × Nat × Bool) → State → List (Nat × Nat × Bool) × State
  | [], s => ([], s)
  | e :: r, s =>
    match s.ctx e.1 with
    | none => growAll m r s
    | some c =>
      match growBlocks e.1 (c.length + e.2.1) m (cdiv (c.length + e.2.1) 64) s with
      | (some st, s) => growAll m r (endTurn e.1 [st] 0 s)
      | (none, s) => let (l, s) := growAll m r s; (e :: l, s)

/-- Reserve the held-store slots of token completions; an entry without one is left for a later plan (R197). -/
def reserveAll : List (Nat × Nat × Bool) → State → List StepEntry × State
  | [], s => ([], s)
  | e :: r, s =>
    match s.ctx e.1 with
    | none => reserveAll r s
    | some c =>
      let need := e.2.2 && c.turn.any (fun t => t.tokens)
      if need && s.heldFree c.slot == 0 then
        let (l, s) := reserveAll r s
        (l, s.twBump c.slot Reg.TW_Q_HELD_WAIT)
      else
        let (l, s) := reserveAll r (if need then reserve c.slot 1 s else s)
        (⟨e.1, e.2.1, e.2.2, need⟩ :: l, s)

/-- The KV schedule of a step (R119): for each page, its deadline and issue time. -/
def scheduleOf (s : State) (id startS first : Nat) (taus : List Nat) (entries : List StepEntry) : List KvPage :=
  (entries.map (fun e =>
    match s.ctx e.ctx with
    | none => []
    | some c =>
      ((List.range (min c.blocks.length (cdiv (c.length + e.tokens) 64))).map (fun b =>
        (List.range taus.length).map (fun i =>
          let g := first + i
          let d := startS + sumOf (taus.take i) (fun x => x) / 1000
          let t := homeTier s e.ctx b g
          ({ step := id, ctx := e.ctx, block := b, group := g, deadline := d,
             issue := d - leadOf s t (holderOf s c b g) - s.rdN Reg.PFX_MARGIN, tier := t } : KvPage)))).flatten)).flatten

/-- A READY context's wait for clusters or energy ends: it goes to its turn (R138; 20, R429). -/
def flushDelay (cid : Nat) (s : State) : State :=
  match (s.ctx cid).bind (fun c => c.blockedSince) with
  | none => s
  | some (t, res) =>
    let s := s.updCtx cid (fun c => { c with blockedSince := none, delayUs := if res = 5 then c.delayUs + (s.tb - t) else c.delayUs })
    if res = 8 ∧ t < s.tb then noteTurn cid ⟨0x11, 8, s.tb - t⟩ s else s

/-- Enter one context into a planned step (R130, R133). -/
def joinStep (id startS total t : Nat) (e : StepEntry) (s : State) : State :=
  match s.ctx e.ctx with
  | none => s
  | some c =>
    let wait := s.tb - c.readySince
    let s := (flushDelay e.ctx s).updCtx e.ctx (fun c => { c with st := .running, step := some id, stepS := startS })
    let s := (s.bumpBy Reg.SCH_READY_WAIT_US wait).twBump c.slot Reg.TW_SCH_READY_US wait
    useClusters c.slot (total * e.tokens / max 1 t) s

/-- Plan the chosen step on clusters (R131, R134 to R136). -/
def planOn (m : Model) (mi : Nat) (after : Option Nat) (free : Nat) (cl : List Nat) (ch : Choice) (s : State) : State :=
  let (l, s) := growAll m ch.entries s
  let (es, s) := reserveAll l s
  match es with
  | [] => s
  | e :: _ =>
    let id := s.sch.nextStep
    let startS := max free (s.tb + s.rdN Reg.SCH_HORIZON)
    let t := sumOf es (fun e => e.tokens)
    let lens := es.map (fun e => ((s.ctx e.ctx).map (fun c => c.length + e.tokens)).getD 0)
    let lmax := lens.foldl max 0
    let owner := ctxSlot s e.ctx
    let k := cl.foldl (fun k c => max k (coreK s c owner)) 0
    let taus := tausOf m ch.first t lmax k
    let st : Step := {
      model := mi, kind := ch.kind, entries := es, clusters := cl, after := after,
      standing := ((s.ctx e.ctx).map (standingOf s)).getD 2, startS := startS, first := ch.first, taus := taus, tokens := t,
      lmax := lmax, done := ch.first, isRetry := ch.retry }
    let rows := scheduleOf s id startS ch.first taus es
    let s := { s.setStep id st with pfx := { s.pfx with kv := s.pfx.kv ++ rows } }
    let s := { s with sch := { s.sch with nextStep := id + 1 } }
    let dur := sumOf taus (fun x => x)
    let s := es.foldl (fun s e => joinStep id startS (cl.length * dur) t e s) s
    let s := match ch.kind with
      | .decode => ((s.bump Reg.SCH_STEPS_DECODE).bumpBy Reg.SCH_BATCH_SLOTS es.length).bumpBy Reg.SCH_BATCH_CAP m.maxBatch
      | .prefill =>
        let f := cl.headD 0
        { s.bump Reg.SCH_STEPS_PREFILL with sch := { s.sch with prefill := mput s.sch.prefill f ((mget s.sch.prefill f).getD 0 + dur) } }
      | .resume => s.bump Reg.SCH_STEPS_RESUME
    let s := if ch.merged then s.bump Reg.SCH_MERGE else s
    (s.bumpBy Reg.SCH_KV_USEFUL (sumOf lens (fun x => x))).bumpBy Reg.SCH_KV_PADDED (t * lmax)

/-! ### Taking clusters back (R67, R137) -/

/-- A planned step that has not started is given up: its contexts are READY again. -/
def unplan (id : Nat) (s : State) : State :=
  match s.step? id with
  | none => s
  | some t =>
    let s := { s with
      sch := { s.sch with steps := mdel s.sch.steps id }, pfx := { s.pfx with kv := s.pfx.kv.filter (fun k => k.step != id) } }
    t.entries.foldl (fun s e =>
      match s.ctx e.ctx with
      | none => s
      | some c =>
        if c.step ≠ some id then s
        else
          let s := if e.reserved then unreserve c.slot 1 s else s
          let s := s.updCtx e.ctx (fun c => { c with step := none })
          if c.st = .frozen then s else becomeReady e.ctx s) s

/-- Something that holds clusters and may lose them: a step or a launch of LAUNCH. -/
structure Victim where
  isStep : Bool
  id : Nat
  standing : Nat
  prio : Nat
  adm : Nat
  size : Nat

/-- The launch of a step's group in flight. -/
def stepLaunch (s : State) (step : Nat) : Option Nat :=
  (s.launches.find? (fun l => match l.2.step with | some (t, _) => t == step | none => false)).map (·.1)

/-- What may lose its clusters, in the order of R67. -/
def victims (s : State) : List Victim :=
  let tenOf := fun slot => (((s.ten slot).map (fun t => t.prio)).getD 0, ((s.ten slot).map (fun t => t.admSeq)).getD 0)
  let steps := (s.sch.steps.filter (fun t => t.2.standing != 0 && t.2.notice.isNone && !t.2.ended && t.2.after.isNone)).map (fun t =>
    let w := tenOf (ctxSlot s ((t.2.entries.head?.map (·.ctx)).getD 0))
    (⟨true, t.1, t.2.standing, w.1, w.2, t.2.clusters.length⟩ : Victim))
  let ls := (s.launches.filter (fun l => l.2.step.isNone && l.2.started.isSome && l.2.notice.isNone)).filterMap (fun l =>
    let cls := ((s.ten l.2.slot).map (fun t => t.cls)).getD 2
    let w := tenOf l.2.slot
    if cls = 0 then none else some (⟨false, l.1, cls, w.1, w.2, l.2.clusters.length⟩ : Victim))
  sortBy (fun a b => decide (b.standing < a.standing) || (a.standing == b.standing &&
    (decide (a.standing = 1 ∧ a.prio < b.prio) || ((a.standing == 2 || a.prio == b.prio) && decide (b.adm ≤ a.adm))))) (steps ++ ls)

/-- Take clusters from one holder: SCAVENGER work stops at once, ELASTIC work gets notice (R137, R161). -/
def preempt (v : Victim) (s : State) : State :=
  if v.isStep then
    let s := ((s.sch.steps.filter (fun t => t.2.after == some v.id)).map (·.1)).foldl (fun s i => unplan i s) s
    match s.step? v.id with
    | none => s
    | some t =>
      if !t.running then unplan v.id s
      else
        let s := s.updStep v.id (fun t => { t with notice := some s.tb })
        match stepLaunch s v.id with
        | none => s.updStep v.id (fun t => { t with cutAt := some (.cut t.done), ended := true })
        | some l => if v.standing = 2 then preemptLaunch l 0 s else s.updLch l (fun l => { l with notice := some s.tb })
  else if v.standing = 2 then preemptLaunch v.id 0 s
  else s.updLch v.id (fun l => { l with notice := some s.tb })

/-- Take holders' clusters in order until enough are on their way (R67). -/
def takeBack : List Victim → Nat → State → State
  | [], _, s => s
  | v :: r, need, s => if need = 0 then s else takeBack r (need - v.size) (preempt v s)

/-- RESERVED work lacks clusters (R137). -/
def preemptFor (size : Nat) (s : State) : State :=
  takeBack (victims s) (size - (freeClusters s []).length) s

/-! ### A plan -/

/-- Models with too few clusters in service plan no further step: their READY and waiting turns end (R140). -/
def retireModels (s : State) : State :=
  let last := ((s.flt.retired.filter (fun r => r.1 == 3)).getLast?.map (·.2)).getD 0
  let st : Status := ⟨0x33, 5, last⟩
  let dead := (s.sch.models.filter (fun m => decide (clustersUp s < m.2.clusters))).map (·.1)
  ((s.sch.ctxs.filter (fun c => dead.contains c.2.model && c.2.step.isNone && c.2.st == .ready)).map (·.1)).foldl
    (fun s c => abortTurns c st s) s

/-- READY contexts of exhausted tenants wait for energy; others no longer do (20, R429). -/
def noteEnergy (s : State) : State :=
  s.sch.ctxs.foldl (fun s c =>
    if c.2.st = .ready ∧ (exhausted s c.2.slot).isSome ∧ c.2.blockedSince.isNone then
      s.updCtx c.1 (fun x => { x with blockedSince := some (s.tb, 8) })
    else if (c.2.blockedSince.any (fun b => b.2 == 8)) && (exhausted s c.2.slot).isNone then flushDelay c.1 s
    else s) s

/-- Another tenant's work of higher standing holds clusters (R138). -/
def blockedBy (s : State) (c : Ctx) : Bool :=
  let st := standingOf s c
  s.sch.steps.any (fun t => decide (t.2.standing < st) && ctxSlot s ((t.2.entries.head?.map (·.ctx)).getD 0) != c.slot) ||
    s.launches.any (fun l => l.2.step.isNone && l.2.started.isSome && l.2.slot != c.slot &&
      decide (((s.ten l.2.slot).map (fun t => t.cls)).getD 2 < st))

/-- After a plan, the READY context ranked first in its model slot waits for clusters others hold, or does not (R138). -/
def noteDelays (s : State) : State :=
  let l := ranked s
  let tops := s.sch.models.filterMap (fun m => (l.find? (fun c => c.2.model == m.1)).map (·.1))
  l.foldl (fun s c =>
    if tops.contains c.1 ∧ blockedBy s c.2 then
      (if c.2.blockedSince.isNone then s.updCtx c.1 (fun x => { x with blockedSince := some (s.tb, 5) }) else s)
    else flushDelay c.1 s) s

/-- Contexts of a model that can join a step at S; the others are counted (R48, R136). -/
def joinable (s : State) (startS : Nat) (l : List (Nat × Ctx)) : List (Nat × Ctx) × State :=
  let ok := fun (c : Nat × Ctx) => decide (c.2.readySince + longestLead s c.1 c.2 ≤ startS)
  (l.filter ok, s.bumpBy Reg.SCH_JOIN_DEFER (l.filter (fun c => !ok c)).length)

/-- Try to plan a step of a model: on the group of a running step, or on free clusters; RESERVED work that lacks
clusters takes them back (R131, R137). The Boolean says whether the plan is done. -/
def planModel (after : Option (Nat × Step)) (mi : Nat) (s : State) : Bool × State :=
  match s.model mi with
  | none => (false, s)
  | some m =>
    let l := (ranked s).filter (fun c => c.2.model == mi)
    match l with
    | [] => (false, s)
    | top :: _ =>
      let free := match after with
        | some (_, t) => t.started + cdiv (sumOf t.taus (fun x => x)) 1000
        | none => s.tb
      let avoid := match top.2.resume.bind (fun r => r.avoid) with | some k => [k] | none => []
      let cl := match after with | some (_, t) => t.clusters | none => (freeClusters s avoid).take m.clusters
      if cl.length ≠ m.clusters then
        (false, if after.isNone ∧ standingOf s top.2 = 0 then preemptFor m.clusters s else s)
      else
        let (js, s) := joinable s (max free (s.tb + s.rdN Reg.SCH_HORIZON)) l
        match choose s m js (cl.headD 0) with
        | none => (false, s)
        | some ch => (true, planOn m mi (after.map (·.1)) free cl ch s)

/-- Try the model slots in the order of their best contexts until one is planned. -/
def planFirst (after : Option (Nat × Step)) : List Nat → State → State
  | [], s => s
  | m :: r, s =>
    match planModel after m s with
    | (true, s) => s
    | (false, s) => planFirst after r s

/-- STEP_PLAN (R131): for the group of a running step whose predicted free time is within SCH_HORIZON and that has no
step planned, or for free clusters. -/
def stepPlan (after : Option Nat) (s : State) : State :=
  let s := noteEnergy (retireModels (commitApply s Reg.SCH_COMMIT))
  let order := ((ranked s).map (fun c => c.2.model)).eraseDups
  match after with
  | none => noteDelays (planFirst none order s)
  | some i =>
    match s.step? i with
    | none => s
    | some t =>
      if !t.running ∨ t.ended ∨ t.notice.isSome ∨ s.sch.steps.any (fun u => u.2.after == some i) ∨ 128 ≤ (s.sch.steps.filter (fun u => !u.2.running)).length ∨
          s.tb + s.rdN Reg.SCH_HORIZON < t.started + cdiv (sumOf t.taus (fun x => x)) 1000 then s
      else noteDelays (planFirst (some (i, t)) order s)

end Sys2Proof.Machine
end

