-- ==== Sys2Proof/Machine/OpsCluster.lean ====
section
/-! DEFINITION. How a cluster runs (07, 08): issue, tile store, tile moves, waits, signals and the delivery ring. -/

namespace Sys2Proof.Machine

/-! ### Issue (R166, R167) -/

/-- A rank can issue: its launch runs, it neither waits nor has ended, and no fault of 2 µs ago or more ends the launch
(R162). -/
def Cluster.runs (s : State) (c : Cluster) (l : Launch) : Bool :=
  c.wait.isNone && !c.ended && l.started.isSome && (match l.fault with | some f => decide (s.tb < f.since + 2) | none => true)

/-- The guard value as a lane mask. -/
def Cluster.guard (c : Cluster) (w : Nat) : DWord := if wPN w = 1 then ~~~(c.pr (wPG w)) else c.pr (wPG w)

/-- The rank goes on behind its instruction. -/
def cNext (k : Nat) (s : State) : State := goTo k (((s.clu k).map (·.pc)).getD 0 + 1) s

/-- The instruction raises a fault at its own index. -/
def cFaultAt (k : Nat) (c : Cluster) (major : Nat) (st : Status) (s : State) : State := cluFault k st c.pc major s

/-- FAULT_PROGRAM at the instruction. -/
def cProg (k : Nat) (c : Cluster) (major : Nat) (s : State) : State := cFaultAt k c major (progFault c.pc) s

/-- FAULT_PERMISSION at the instruction, for a resource. -/
def cPerm (k : Nat) (c : Cluster) (major res : Nat) (s : State) : State := cFaultAt k c major ⟨0x43, res, c.pc⟩ s

/-- Issue the instruction `major` with the low 56 bits `w`, which the program holds at the rank's index: the encoding is
checked whether or not the guard passes; with no lane of `lanes` active it has no effect. -/
def issue (lanes : DWord) (k major : Nat) (w : BitVec 56) (enc : Enc) (also : Nat → Bool)
    (body : Cluster → Launch → Nat → State → State) (s : State) : Out :=
  onUnit (decide (k < 128)) (match s.clu k with
    | none => s
    | some c =>
      match s.lch c.launch with
      | none => s
      | some l =>
        let word := major * 2 ^ 56 + w.toNat
        if !c.runs s l || l.word c.pc != some word then s
        else if !enc.ok word || !also word then cProg k c major s
        else if c.guard word &&& lanes == 0 then cNext k s
        else body c l word s)

/-- Issue a non-vector instruction: bit 0 of the guard decides. -/
def cIssue (k major : Nat) (w : BitVec 56) (enc : Enc) (also : Nat → Bool)
    (body : Cluster → Launch → Nat → State → State) (s : State) : Out := issue 1 k major w enc also body s

/-- Issue a vector instruction: it has its effect when at least one lane is active. -/
def vIssue (k major : Nat) (w : BitVec 56) (enc : Enc) (also : Nat → Bool)
    (body : Cluster → Launch → Nat → State → State) (s : State) : Out := issue (BitVec.allOnes 64) k major w enc also body s

/-- No further check. -/
def noMore (_ : Nat) : Bool := true

/-- Change the cluster's registers and go on. -/
def cUpd (k : Nat) (f : Cluster → Cluster) (s : State) : State := cNext k (s.updClu k f)

/-! ### The tile store (R146, R147) -/

/-- Bytes of one line. -/
def lineBytes : Nat := 64

namespace Cluster
/-- A byte of the tile store. -/
def byte (c : Cluster) (a : Nat) : Byte := (mget c.tile a).getD (Config.tileFill c.fill a)
/-- `n` bytes from an address. -/
def bytes (c : Cluster) (a n : Nat) : List Byte := (List.range n).map (fun i => c.byte (a + i))
/-- Store bytes from an address upward. -/
def store (c : Cluster) (a : Nat) (bs : List Byte) : Cluster :=
  { c with tile := c.tile.takeWhile (fun e => decide (e.1 < a)) ++ ((List.range bs.length).map (· + a)).zip bs ++
      c.tile.dropWhile (fun e => decide (e.1 < a + bs.length)) }
end Cluster

namespace Tile
/-- Lines of one row. -/
def rowLines (t : Tile) : Nat := cdiv (rowBytes t.fmt t.cols) lineBytes
/-- Bytes of one row, in whole lines. -/
def rowSize (t : Tile) : Nat := t.rowLines * lineBytes
/-- The first byte of a row. -/
def rowAt (t : Tile) (r : Nat) : Nat := (t.base + r * t.stride) * lineBytes
/-- The line after the last row's last. -/
def endLine (t : Tile) : Nat := t.base + (t.rows - 1) * t.stride + t.rowLines
/-- The conditions of R147. -/
def valid (t : Tile) : Bool :=
  decide (t.rowLines ≤ t.stride) && decide (t.endLine ≤ 49152) && decide (t.fmt ≤ 11) && (decide (t.fmt < 6) || t.cols % 32 == 0) &&
    (t.alt == 0 || t.fmt == 6)
/-- A row as bytes from address 0, for the format rules. -/
def rowMem (t : Tile) (c : Cluster) (r : Nat) : Memory := writeBytes [] 0 (c.bytes (t.rowAt r) t.rowSize)
/-- Put a row's bytes back. -/
def putRow (t : Tile) (c : Cluster) (r : Nat) (m : Memory) : Cluster := c.store (t.rowAt r) (readBytes m 0 t.rowSize)
end Tile

/-- A descriptor (Table CLU-3); none where it is not valid. -/
def tileOf (x : DWord) : Option Tile :=
  let n := x.toNat
  let t : Tile := ⟨bits n 0 16, bits n 16 8 + 1, bits n 24 10 + 1, bits n 34 4, bits n 38 16, bits n 54 1⟩
  if t.valid && bits n 55 9 == 0 then some t else none

/-- First line of the delivery ring (07). -/
def ringLine (l : Launch) : Nat := 49152 - 1024 * l.slots

/-- A tile reaches into the delivery ring. -/
def inRing (l : Launch) (t : Tile) : Bool := decide (ringLine l < t.endLine)

/-- Run a body on a valid descriptor, else FAULT_PROGRAM. -/
def withTile (k : Nat) (c : Cluster) (major i : Nat) (body : Tile → State → State) (s : State) : State :=
  match tileOf (c.tr i) with
  | some t => body t s
  | none => cProg k c major s

/-! ### Ranks and clusters of a launch (R160) -/

/-- The cluster of a rank on this sled. -/
def clusterOfRank (l : Launch) (r : Nat) : Option Nat := if l.firstRank ≤ r then l.clusters[r - l.firstRank]? else none

/-- The other sleds of a span. -/
def otherSleds (l : Launch) : List Nat := (l.span.take l.place ++ l.span.drop (l.place + 1)).map (·.1)

/-- The node of a rank of another sled. -/
def remoteRank (l : Launch) (r : Nat) : Option Nat :=
  (l.span.foldl (fun (acc : Nat × Option Nat) m =>
    if acc.2.isNone ∧ acc.1 ≤ r ∧ r < acc.1 + m.2 then (acc.1 + m.2, some m.1) else (acc.1 + m.2, acc.2)) (0, none)).2

/-! ### Waits (Table CLU-6, R159) -/

/-- A rank's wait is over. -/
def wakeRank (k : Nat) (f : Cluster → Cluster) (s : State) : State :=
  cNext k (s.updClu k (fun c => f { c with wait := none }))

/-- A semaphore wait that is now satisfied returns. -/
def checkSem (k : Nat) (s : State) : State :=
  match s.clu k with
  | some c => match c.wait with
    | some (.sem n v, _) => if v.toNat ≤ (c.semv n).toNat then wakeRank k id s else s
    | _ => s
  | none => s

/-- Add a signed 32-bit value to a semaphore of a cluster. -/
def addSem (k sem : Nat) (d : Word) (s : State) : State :=
  checkSem k (s.updClu k (fun c => { c with sems := mputD c.sems 0 sem (c.semv sem + d.signExtend 64) }))

/-- Apply a signal at its target: a rank of this sled, or by message (12, SPAN_SIGNAL). -/
def applySignal (l : Launch) (g : Signal) (s : State) : State :=
  match clusterOfRank l g.rank with
  | some k => addSem k g.sem g.delta s
  | none => match remoteRank l g.rank with
    | some n => s.sendAs (tenId s l.slot) 0 0x44 n [g.rank, l.spanId, g.sem, g.delta.toNat]
    | none => s

/-- Signals whose earlier moves have all completed are applied, in order. -/
def sendSignals (k : Nat) (s : State) : State :=
  match s.clu k with
  | none => s
  | some c =>
    match s.lch c.launch with
    | none => s
    | some l =>
      let ready := fun (g : Signal) => !c.moves.any (fun m => decide (m.num < g.before))
      let s := s.updClu k (fun c => { c with sigs := c.sigs.filter (fun g => !ready g) })
      (c.sigs.filter ready).foldl (fun s g => applySignal l g s) s

/-- Every rank of this sled has come to the barrier with its moves complete. -/
def barHere (s : State) (l : Launch) : Bool :=
  l.clusters.all (fun k => (s.clu k).any (fun c => c.moves.isEmpty && (match c.wait with | some (.bar, _) => true | _ => false)))

/-- Release the barrier when every rank has come (R181); a span's other sleds must have come too. -/
def tryBar (id : Nat) (s : State) : State :=
  match s.lch id with
  | none => s
  | some l =>
    if !barHere s l then s
    else
      let n := ((l.clusters.head?.bind s.clu).map (·.bars)).getD 0 + 1
      let s := if l.barSent < n then
          ((otherSleds l).foldl (fun s m => s.sendAs (tenId s l.slot) 0 0x45 m [l.place, l.spanId, n]) s).updLch id (fun l => { l with barSent := n })
        else s
      if l.span.isEmpty ∨ (otherSleds l).all (fun m => l.barsIn.any (fun b => b.1 == m && decide (n ≤ b.2))) then
        l.clusters.foldl (fun s k => wakeRank k (fun c => { c with bars := c.bars + 1 }) s) s
      else s

/-- A failed move that was never waited on ends the launch with its status (R187). -/
def failedMove (k : Nat) (m : TileMove) (s : State) : State := cluFault k m.status m.index m.major s

/-- The rank has finished (R172). -/
def finishRank (k : Nat) (s : State) : State :=
  match s.clu k with
  | none => s
  | some c =>
    match c.failed with
    | m :: _ => failedMove k m s
    | [] => s.updClu k (fun c => { c with wait := none, ended := true })

/-- Waits of a rank for all of its moves, after one of them ended. -/
def checkDrained (k : Nat) (s : State) : State :=
  match s.clu k with
  | none => s
  | some c =>
    if !c.moves.isEmpty then s
    else match c.wait with
      | some (.fence, _) => wakeRank k id s
      | some (.fin, _) => if c.port.isEmpty then finishRank k s else s
      | some (.bar, _) => tryBar c.launch s
      | _ => s

/-! ### Tile moves (R156, R173) -/

/-- A TWAIT returns with a move's outcome (R156). -/
def moveReported (k : Nat) (check : Bool) (d : Nat) (st : Status) (s : State) : State :=
  match s.clu k with
  | none => s
  | some c =>
    if check then wakeRank k (fun c => c.setS d (st.word.zeroExtend 64)) s
    else if 0x20 ≤ st.code then cFaultAt k c 0x46 st s
    else wakeRank k id s

/-- Issue a move: it takes the next number, its token goes to sd (R156); a failed move it takes out of the window ends
the launch (R187). A cluster with 64 moves in flight stalls. -/
def issueMove (k major : Nat) (c : Cluster) (w : Nat) (op : TileOp) (left : Nat) (s : State) : State :=
  if 64 ≤ c.moves.length then s
  else match c.failed.find? (fun m => decide (m.num + 64 ≤ c.issued)) with
    | some m => failedMove k m s
    | none =>
      cUpd k (fun c => { c.setS (wD w) (BitVec.ofNat 64 (c.issued % 65536)) with
        issued := c.issued + 1, moves := c.moves ++ [{ num := c.issued, index := c.pc, major := major, op := op, left := left }] }) s

/-- Copy rows between tile stores. -/
def copyRows (src : Tile) (c : Cluster) (dst : Tile) (d : Cluster) : Cluster :=
  (List.range src.rows).foldl (fun d r => d.store (dst.rowAt r) (c.bytes (src.rowAt r) src.rowSize)) d

/-- The byte range of an object that a tile move covers (R173). -/
def moveRange (t : Tile) (off rs : Nat) : Nat × Nat := (off, (t.rows - 1) * rs + t.rowSize)

/-- Step and read leases on a page that others hold (R85). -/
def foreignLease (s : State) (l : Launch) (slot obj i : Nat) (p : Page) : Bool :=
  let own := (l.leases.filter (fun x => x == (slot, obj, i))).length
  let ownStep := match l.step with
    | some (t, _) => b2n ((s.step? t).any (fun t => t.leases.contains (slot, obj)))
    | none => 0
  decide (0 < (p.readLeases - own) + (p.stepLeases - ownStep))

/-- Pages of a move that are not where it needs them; promotions are started (R88). -/
def bringIn (k num slot obj : Nat) (pages : List Nat) (s : State) : State :=
  pages.foldl (fun s i => match s.obj slot obj with
    | some o => if (o.page i).mv.isSome then s else startMove slot obj i 1 0 (.tile k num) s
    | none => s) s

/-- What a move does when it completes: none while pages it needs are on their way; otherwise its status and the state
(R156, R158). -/
def moveEffect (k : Nat) (l : Launch) (m : TileMove) (s : State) : Option (Status × State) :=
  let ok : Status := ⟨0, 0, 0⟩
  match s.tileFails.find? (fun f => f.1 == k && f.2.1 == m.num) with
  | some f => some (f.2.2, { s with tileFails := s.tileFails.filter (fun g => g != f) })
  | none =>
  match m.op with
  | .zero t => some (ok, s.updClu k (fun c => (List.range t.rows).foldl (fun c r => c.store (t.rowAt r) (List.replicate t.rowSize 0)) c))
  | .copy a src b dst =>
    match s.clu a, s.clu b with
    | some ca, some cb => some (ok, s.setClu b (copyRows src ca dst cb))
    | _, _ => some (⟨0x44, 5, 0⟩, s)
  | .load slot obj off rs t =>
    match s.obj slot obj with
    | none => some (⟨0x42, 0, m.index⟩, s)
    | some o =>
      let (a, n) := moveRange t off rs
      let need := mustPromote o a n false
      if !need.isEmpty then none
      else match (pagesOf o a n).find? (fun i => (o.page i).poison) with
        | some i => some (poisonStatus (o.page i), s)
        | none =>
          let s := (pagesOf o a n).foldl (fun s i => chargeAccess l.slot (o.page i) (touched o a n i) false s) s
          some (ok, s.updClu k (fun c => (List.range t.rows).foldl (fun c r => c.store (t.rowAt r) (readBytes o.data (off + r * rs) t.rowSize)) c))
  | .store t slot obj off rs =>
    match s.obj slot obj, s.clu k with
    | some o, some c =>
      let (a, n) := moveRange t off rs
      match (pagesOf o a n).find? (fun i => foreignLease s l slot obj i (o.page i)) with
      | some i => some (⟨0x24, tierRes (o.page i).tier, 0⟩, s)
      | none =>
        if !(mustPromote o a n true).isEmpty then none
        else some (ok, (List.range t.rows).foldl (fun s r => storeBytes slot obj (off + r * rs) (c.bytes (t.rowAt r) t.rowSize) s) s)
    | _, _ => some (⟨0x42, 0, m.index⟩, s)
  | .put _ _ _ | .get _ _ _ => if m.left = 0 then some (m.status, s) else none
  | .coll _ => if m.left = 0 then some (m.status, s) else none

/-- A move of a cluster completes (R156): waits on it return, and what waited for all moves goes on. -/
def completeMove (k num : Nat) (s : State) : State :=
  match s.clu k with
  | none => s
  | some c =>
    match s.lch c.launch, c.moves.find? (fun m => m.num == num) with
    | some l, some m =>
      match moveEffect k l m s with
      | none =>
        match m.op with
        | .load slot obj off rs t => match s.obj slot obj with
          | some o => bringIn k num slot obj (mustPromote o off (moveRange t off rs).2 false) s
          | none => s
        | .store t slot obj off rs => match s.obj slot obj with
          | some o => bringIn k num slot obj (mustPromote o off (moveRange t off rs).2 true) s
          | none => s
        | _ => s
      | some (st, s) =>
        let s := if st.code / 16 = 1 then s.outcome l.slot st else s
        let s := s.updClu k (fun c => { c with
          moves := c.moves.filter (fun x => x.num != num),
          failed := if 0x20 ≤ st.code then c.failed ++ [{ m with status := st }] else c.failed })
        let s := sendSignals k s
        match s.clu k with
        | none => s
        | some c =>
          match c.wait with
          | some (.move tok check d, _) =>
            if tok = num % 65536 then moveReported k check d st (s.updClu k (fun c => { c with failed := c.failed.filter (fun x => x.num != num) }))
            else s
          | _ => checkDrained k s
    | _, _ => s

/-! ### The delivery ring (R148, R182) -/

/-- The bytes of a page of a context's block. -/
def pageData (s : State) (cid b g : Nat) : List Byte :=
  match s.ctx cid with
  | none => []
  | some c =>
    match c.blocks[b]? with
    | some (.priv o) => ((s.obj c.slot o).map (fun o => readBytes o.data (g * pageBytes) pageBytes)).getD []
    | some (.entry n) => ((entryObj s n).map (fun o => readBytes o.data (g * pageBytes) pageBytes)).getD []
    | some (.remote _ _ _) => readBytes c.imageData (65536 * (256 * b + g)) pageBytes
    | none => []

/-- First line of the slot of page `n`. -/
def slotLine (l : Launch) (n : Nat) : Nat := 49152 - 1024 * (l.slots - n % max 1 l.slots)

/-- Page `n` of a launch is whole in T0. -/
def pageIn (s : State) (l : Launch) (n : Nat) : Bool :=
  match l.step, l.pages[n]? with
  | some (t, g), some p => (kvRow s t p.ctx p.block g).any (fun k => k.delivered)
  | _, _ => false

/-- Write page `n` into a cluster's slot when it is in T0 and the slot is free for it (R148). -/
def fillSlot (k n : Nat) (s : State) : State :=
  match s.clu k with
  | none => s
  | some c =>
    match s.lch c.launch with
    | none => s
    | some l =>
      match l.step, l.pages[n]? with
      | some (_, g), some p =>
        if pageIn s l n ∧ c.kvRel ≤ n ∧ n < c.kvRel + l.slots then
          s.updClu k (fun c => c.store (slotLine l n * lineBytes) (pageData s p.ctx p.block g))
        else s
      | _, _ => s

/-- A KVWAIT whose page is in its slot returns; its stall is counted (R120, R182). -/
def checkKv (k : Nat) (s : State) : State :=
  match s.clu k with
  | none => s
  | some c =>
    match c.wait, s.lch c.launch with
    | some (.kv n d, since), some l =>
      if pageIn s l n ∧ n < c.kvRel + l.slots then
        let us := s.tb - since
        let s := wakeRank k (fun c => c.setS d (BitVec.ofNat 64 (slotLine l n))) s
        let s := s.updLch c.launch (fun l => { l with kvWait := l.kvWait + us })
        match l.step, l.pages[n]? with
        | some (t, g), some p =>
          match kvRow s t p.ctx p.block g with
          | some r =>
            if r.late ∧ 0 < us then
              let s := noteTurn p.ctx ⟨1, tierRes r.tier, us⟩ (s.updCtx p.ctx (fun x => { x with lateUs := x.lateUs + us }))
              s.twBump (ctxSlot s p.ctx) Reg.TW_LATE_US us
            else s
          | none => s
        | _, _ => s
      else s
    | _, _ => s

end Sys2Proof.Machine
end

