-- ==== Sys2Proof/Machine/OpsColl.lean ====
section
/-! DEFINITION. Collectives (08, R184, R185; 12, R265). -/

namespace Sys2Proof.Machine

/-! ### Tiles as bytes -/

/-- Bytes of a row's elements and scales. -/
def Tile.rowLen (t : Tile) : Nat := rowBytes t.fmt t.cols
/-- A tile's bytes without row padding. -/
def tileBytes (c : Cluster) (t : Tile) : List Byte := (List.range t.rows).flatMap (fun r => c.bytes (t.rowAt r) t.rowLen)

/-- The tile a collective writes. -/
def Coll.dst (g : Coll) : Tile := if g.major = 0xA2 ∨ g.major = 0xA3 then g.b.getD g.a else g.a

/-- The tile whose bytes data offsets count: the gathered, reduced or copied whole. -/
def Coll.whole (g : Coll) : Tile := if g.major = 0xA2 then g.b.getD g.a else g.a

/-- Bytes that each rank receives. -/
def Coll.size (g : Coll) : Nat := g.dst.rows * g.dst.rowLen

/-- The fields that every rank's collective must share (R184). -/
def Coll.params (g : Coll) : List Nat :=
  [g.major, g.sub, g.root, g.a.rows, g.a.cols, g.a.fmt] ++ (match g.b with | some b => [b.rows, b.cols, b.fmt] | none => [])

/-- OP of Table LNK-6. -/
def Coll.op (g : Coll) : Nat := match g.major with | 0xA0 => g.sub | 0xA1 => 3 | 0xA2 => 4 | _ => 5

/-- The collective of a launch at a position, as its first rank here issued it. -/
def collAt (s : State) (l : Launch) (pos : Nat) : Option Coll :=
  ((l.clusters.head?).bind s.clu).bind (fun c => c.colls[pos]?)

/-- Every rank of this sled has issued its collective at the position. -/
def collReady (s : State) (l : Launch) (pos : Nat) : Bool :=
  l.clusters.all (fun k => (s.clu k).any (fun c => decide (pos < c.colls.length)))

/-! ### Receiving data -/

/-- Count bytes a rank has received. -/
def collGot (k pos n : Nat) (s : State) : State :=
  s.updClu k (fun c => { c with moves := updWhere c.moves (fun m => m.op == .coll pos) (fun m => { m with left := m.left - n }) })

/-- Put one byte of a collective's data where a rank of this sled receives it, by that rank's own descriptors. -/
def collByte (pos k rank off : Nat) (b : Byte) (s : State) : State :=
  match (s.clu k).bind (fun c => c.colls[pos]?) with
  | none => s
  | some g =>
    let row := off / max 1 g.whole.rowLen
    let col := off % max 1 g.whole.rowLen
    if (g.major ≠ 0xA3 ∨ row / max 1 g.dst.rows = rank) ∧ row < g.whole.rows then
      let r := if g.major = 0xA3 then row % max 1 g.dst.rows else row
      collGot k pos 1 (s.updClu k (fun c => c.store (g.dst.rowAt r + col) [b]))
    else s

/-- Deliver data of a collective to the ranks of this sled. -/
def collDeliver (id pos off : Nat) (bytes : List Byte) (s : State) : State :=
  match s.lch id with
  | none => s
  | some l =>
    ((List.range l.clusters.length).zip l.clusters).foldl (fun s rk =>
      ((List.range bytes.length).zip bytes).foldl (fun s b => collByte pos rk.2 (l.firstRank + rk.1) (off + b.1) b.2 s) s) s

/-- Send data of a collective to another sled. -/
def collSend (id : Nat) (l : Launch) (pos : Nat) (g : Coll) (node off : Nat) (bytes : List Byte) (s : State) : State :=
  (chunks bytes.length).foldl (fun s i =>
    (sendReq (.coll id pos) (tenId s l.slot) 0x41 node
      (fun _ => [g.op + 16 * g.a.fmt, pos % 65536, l.spanId, off + i] ++ ((bytes.drop i).take 96).map (·.toNat)) s).2) s
where
  /-- Offsets of the flits. -/
  chunks (n : Nat) : List Nat := (List.range (cdiv n 96)).map (· * 96)

/-! ### Reductions (R185, R265) -/

/-- One step of a reduction in FP32: SUB 0 SUM, 1 MAX, 2 MIN. -/
def reduceF32 (sub : Nat) (a b : Word × Nat) : Word × Nat :=
  let (x, f) := if sub = 0 then addNum 0 (f32 a.1) (f32 b.1) else (minMax (sub == 1) (f32 a.1) (f32 b.1), 0)
  let (y, g) := toF32 x
  (y, a.2 ||| b.2 ||| f ||| g)

/-- Element `e` of a tile, in row order, widened to FP32. -/
def tileElem (c : Cluster) (t : Tile) (e : Nat) : Word × Nat :=
  rowF32 (t.rowMem c (e / t.cols)) 0 t.fmt t.alt t.cols (e % t.cols)

/-- Add this sled's ranks, in ascending order, onto a partial. -/
def collPartial (s : State) (l : Launch) (g : Coll) (pos e : Nat) (acc : Option Word) : Word × Nat :=
  let own := l.clusters.filterMap (fun k => (s.clu k).bind (fun c => (c.colls[pos]?).map (fun d => tileElem c d.a e)))
  match acc, own with
  | some p, xs => xs.foldl (reduceF32 g.sub) (p, 0)
  | none, x :: xs => xs.foldl (reduceF32 g.sub) x
  | none, [] => (0, 0)

/-- The bytes of an element in the tile format (formats 0 to 2), with RNE. -/
def collEncode (g : Coll) (x : Word) : List Byte × Nat :=
  let (b, f) := elemEncode g.a.fmt g.a.alt 0 0 (f32 x)
  (leBytes b (elemBits g.a.fmt / 8), f)

/-- Set flags on every rank of this sled. -/
def collFlags (l : Launch) (f : Nat) (s : State) : State := l.clusters.foldl (fun s k => s.updClu k (fun c => c.flag f)) s

/-- The chain's step on this sled for up to 24 elements from element `e`: the partials go to the next sled, or, on the
last, are converted and delivered (R265). -/
def chainStep (id pos : Nat) (g : Coll) (e : Nat) (acc : Option (List Word)) (s : State) : State :=
  match s.lch id with
  | none => s
  | some l =>
    let n := min 24 (g.a.rows * g.a.cols - e)
    let r := (List.range n).map (fun i => collPartial s l g pos (e + i) (acc.map (fun p => p.getD i 0)))
    let s := collFlags l (r.foldl (fun f x => f ||| x.2) 0) s
    match l.span[l.place + 1]? with
    | some next =>
      (sendReq (.coll id pos) (tenId s l.slot) 0x40 next.1
        (fun _ => [g.op + 16 * g.a.fmt, pos % 65536, l.spanId, 4 * e] ++ r.map (fun x => x.1.toNat)) s).2
    | none =>
      let enc := r.map (fun x => collEncode g x.1)
      let s := collFlags l (enc.foldl (fun f x => f ||| x.2) 0) s
      let bytes := enc.flatMap (·.1)
      let off := e * (elemBits g.a.fmt / 8)
      let s := collDeliver id pos off bytes s
      (otherSleds l).foldl (fun s node => collSend id l pos g node off bytes s) s

/-! ### Matching (R184) -/

/-- Data that arrived from another sled for a matched collective. -/
def collTake (id : Nat) (final : Bool) (pos off : Nat) (ws : List Nat) (s : State) : State :=
  match (s.lch id).bind (fun l => collAt s l pos) with
  | none => s
  | some g =>
    if final then collDeliver id pos off (ws.map (BitVec.ofNat 8)) s
    else chainStep id pos g (off / 4) (some (ws.map (BitVec.ofNat 32))) s

/-- COLS or FMT of the two tiles differ, where no rule states the result (log entry 53). -/
def Coll.unstated (g : Coll) : Bool :=
  match g.b with | some b => b.cols != g.a.cols || b.fmt != g.a.fmt || b.alt != g.a.alt | none => false

/-- Free bytes for a destination. -/
def collFree (id pos : Nat) (s : State) : State :=
  match s.lch id with
  | none => s
  | some l => l.clusters.foldl (fun s k =>
      let key := s.free
      collGot k pos (((collAt s l pos).map (·.size)).getD 0) ({ s with free := s.free + 1 }.updClu k (fun c =>
        match c.colls[pos]? with
        | some g => (List.range g.dst.rows).foldl (fun c r => c.store (g.dst.rowAt r) ((List.range g.dst.rowLen).map (fun i =>
            Config.tileFill key (g.dst.rowAt r + i)))) c
        | none => c))) s

/-- Every rank of this sled has come to the collective: a mismatch ends the launch; otherwise this sled's part runs. -/
def collMatch (id pos : Nat) (s : State) : State :=
  match s.lch id with
  | none => s
  | some l =>
    if !collReady s l pos then s
    else match collAt s l pos with
      | none => s
      | some g =>
        let odd := l.clusters.find? (fun k => (s.clu k).any (fun c => (c.colls[pos]?).any (fun d => d.params != g.params)))
        match odd with
        | some k => match (s.clu k).bind (fun c => c.moves.find? (fun m => m.op == .coll pos)) with
          | some m => cluFault k (progFault m.index) m.index m.major s
          | none => s
        | none =>
          if g.unstated then collFree id pos s
          else
            let s := match g.major with
              | 0xA1 =>
                match (clusterOfRank l g.root).bind s.clu with
                | some c =>
                  let bytes := tileBytes c ((c.colls[pos]?).getD g).a
                  (otherSleds l).foldl (fun s node => collSend id l pos g node 0 bytes s) (collDeliver id pos 0 bytes s)
                | none => s
              | 0xA2 =>
                let src : List (Nat × List Byte) := ((List.range l.clusters.length).zip l.clusters).filterMap (fun (rk : Nat × Nat) =>
                  (s.clu rk.2).map (fun c => (rk.1, tileBytes c ((c.colls[pos]?).getD g).a)))
                src.foldl (fun s (x : Nat × List Byte) =>
                  let off := (l.firstRank + x.1) * x.2.length
                  (otherSleds l).foldl (fun s node => collSend id l pos g node off x.2 s) (collDeliver id pos off x.2 s)) s
              | _ =>
                if l.place = 0 then
                  (List.range (cdiv (g.a.rows * g.a.cols) 24)).foldl (fun s i => chainStep id pos g (24 * i) none s) s
                else s
            let early := l.collIn.filter (fun x => x.2.1 == pos)
            let s := s.updLch id (fun l => { l with collIn := l.collIn.filter (fun x => x.2.1 != pos) })
            early.foldl (fun s x => collTake id x.1 pos x.2.2.1 x.2.2.2 s) s

/-- Issue a collective: it takes a token, and runs when every rank of this sled has issued its own. -/
def issueColl (k : Nat) (c : Cluster) (w : Nat) (g : Coll) (s : State) : State :=
  let pos := c.colls.length
  let s' := issueMove k g.major c w (.coll pos) g.size s
  match s'.clu k with
  | none => s'
  | some d =>
    if c.issued < d.issued then collMatch c.launch pos (s'.updClu k (fun c => { c with colls := c.colls ++ [g] })) else s'

end Sys2Proof.Machine
end

