-- ==== Sys2Proof/Machine/OpsPort.lean ====
section
/-! DEFINITION. Link ports (12): retry, width, loss of a port, requests that end with it, and pages held for peers. -/

namespace Sys2Proof.Machine

/-! ### Requests (R258, R267) -/

/-- A tile move of a cluster ends with a status. -/
def failTile (launch k num : Nat) (st : Status) (s : State) : State :=
  if (s.clu k).any (fun c => c.launch == launch) then
    completeMove k num (s.updClu k (fun c => { c with moves := updWhere c.moves (fun m => m.num == num) (fun m => { m with left := 0, status := st }) }))
  else s

/-- A request onto the links ends without an answer. A hierarchy request is resent by its own time-out (14, R299). -/
def abortReq (r : Req) (st : Status) (s : State) : State :=
  let s := { s with lnk := { s.lnk with reqs := s.lnk.reqs.filter (fun x => x.tag != r.tag) } }
  match r.use with
  | .move id => match s.move id with | some m => failMove m st s | none => s
  | .query id => match s.pfx.waits.find? (fun w => w.id == id) with | some w => waitMiss w s | none => s
  | .tile l k n => failTile l k n st s
  | .coll l pos => match s.lch l with
    | none => s
    | some x => x.clusters.foldl (fun s k =>
        match (s.clu k).bind (fun c => c.moves.find? (fun m => m.op == .coll pos)) with
        | some m => failTile l k m.num st s
        | none => s) s
  | .hier _ => s

/-- The request that a flit of this sled belongs to ends (R267); a response answers another sled's. -/
def abortFlit (f : Flit) (st : Status) (s : State) : State :=
  if f.src ≠ ownNode s ∨ (if f.cls = 7 then f.ocls else f.cls) = 1 then s
  else match s.lnk.reqs.find? (fun r => r.tag == f.rtag && r.dest == f.dst) with
    | some r => abortReq r st s
    | none => s

/-- A flit of any kind from the peer of a port that has had its HELLO shows that it lives (R259). -/
def hearPort (p : Nat) (s : State) : State :=
  if s.portState p = 5 ∨ s.portState p = 6 then hear (s.fld (Reg.LNK_PEER p) 0 16) s else s

/-! ### Retry (R249 to R251) -/

/-- An acknowledgement: flits up to it leave the retry buffer, and the measured loop is a free value. -/
def applyAck (p ack : Nat) (s : State) : State :=
  let l := s.lport p
  match l.unacked.findIdx? (fun u => u.1 == ack) with
  | none => s
  | some i =>
    let s := s.updLport p (fun l => { l with unacked := l.unacked.drop (i + 1), replays := 0, ackAt := s.tb })
    let (n, s) := s.draw
    pumpPort p (s.putN (Reg.LNK_LOOP_NS p) (n % 65536))

/-- A port retrains: the retry state is kept (R260). -/
def retrain (p : Nat) (full : Bool) (s : State) : State :=
  ((s.setPort p 6).updLport p (fun l => { l with fullEq := full })).bump (Reg.LNK_RETRAIN p)

/-- Replay from a SEQ of the retry buffer, or from its oldest flit; after 8 replays with no advance the port retrains
(R250). -/
def replayFrom (p : Nat) (seq : Option Nat) (s : State) : State :=
  let l := s.lport p
  let from_ := match seq.bind (fun q => l.unacked.findIdx? (fun u => u.1 == q)) with | some i => i | none => 0
  let again := l.unacked.drop from_
  if again.isEmpty then s
  else
    let s := again.foldl (fun s u =>
      let h := dataHdr u.2 u.1 l.ack true
      s.emit (.flit p h u.2.payload (flitCrc h u.2.payload))) s
    let s := (s.updLport p (fun l => { l with replays := l.replays + 1, ackAt := s.tb })).bump (Reg.LNK_REPLAY p)
    if 8 ≤ l.replays + 1 then retrain p false (s.updLport p (fun l => { l with replays := 0 })) else s

/-! ### Lanes (R260) -/

/-- Retired lanes of this side. -/
def laneMask (s : State) (p : Nat) : Nat := s.fld (Reg.LNK_PORT_STATUS p) 8 8

/-- The widest set of lanes without a retired one: a mask and a count; none where there is none. -/
def laneSet (retired : Nat) : Option (Nat × Nat) :=
  [(0xFF, 8), (0x0F, 4), (0xF0, 4), (0x03, 2), (0x0C, 2), (0x30, 2), (0xC0, 2)].find? (fun c => retired &&& c.1 == 0)

/-- The lanes that both ends use. -/
def lanesOf (s : State) (p : Nat) : Option (Nat × Nat) := laneSet (laneMask s p ||| (s.lport p).peerMask)

/-! ### Losing a port (R267) -/

/-- A port leaves UP or RETRAIN: its retry buffer and queue are discarded and counted, its epoch advances, and the
requests of this sled among them end (R267). -/
def dropPort (p next : Nat) (s : State) : State :=
  let l := s.lport p
  let old := s.fld (Reg.LNK_PORT_STATUS p) 16 8
  let s := s.updLport p (fun l => { depth := [], peerMask := l.peerMask, peerStart := l.peerStart, fullEq := l.fullEq })
  let s := (s.bumpBy (Reg.LNK_DOWN_DROP p) (l.unacked.length + l.queue.length)).setFld (Reg.LNK_PORT_STATUS p) 16 8 ((old + 1) % 256)
  let s := s.setPort p next
  let s := l.queue.foldl (fun s q => freeBuf q.origin s) s
  (l.unacked.map (·.2) ++ l.queue.map (·.flit)).foldl (fun s f => abortFlit f ⟨0x30, 7, old⟩ s) s

/-- Where a port goes that is no longer UP: DETECT while it is enabled and not retired, else DOWN (Table LNK-4). -/
def restPort (s : State) (p : Nat) : Nat := if s.bit (Reg.LNK_PORT_CTRL p) 0 && !s.flt.retired.contains (2, p) then 1 else 0

/-- Ports held as duplicates try again: what they duplicated may be gone (Table LNK-4, R259). -/
def freeDup (s : State) : State :=
  (List.range 18).foldl (fun s p =>
    if s.portState p = 7 && s.bit (Reg.LNK_PORT_STATUS p) 25 then (s.setBit (Reg.LNK_PORT_STATUS p) 25 false).setPort p (restPort s p) else s) s

/-- A port leaves whatever state it is in. -/
def leavePort (p next : Nat) (s : State) : State :=
  if s.portState p = 5 ∨ s.portState p = 6 then freeDup (dropPort p next s) else s.setPort p next

/-- A retired lane on either side changes the width: a fast retrain, or before UP the choice of the width again; with no width
left the port goes DOWN (R260). -/
def widthChange (p : Nat) (s : State) : State :=
  match lanesOf s p with
  | none => leavePort p 0 s
  | some (_, n) =>
    if n = s.fld (Reg.LNK_PORT_STATUS p) 3 4 then s
    else if s.portState p = 5 then retrain p false s
    else if s.portState p = 4 then s.setPort p 3
    else s

/-- The HELLO of this sled (R259, Table LNK-2). -/
def sendHello (p : Nat) (s : State) : State :=
  let role := s.fld Reg.HIE_STATUS 2 2
  let flags := b2n (!s.bit Reg.RST_START_STATUS 4) + 2 * s.fld Reg.HIE_STATUS 0 1 + 4 * role
  let depth := fun v => if v = 6 then 1024 else if v = 7 then 128 else 32
  sendLink p 2 (1 + placeBytes 1 1 1 + placeBytes 2 2 (ownNode s) + placeBytes 4 1 p + placeBytes 5 1 (s.fld (Reg.LNK_PORT_STATUS p) 3 4) +
    placeBytes 6 1 (s.rdN Reg.LNK_NODE_EPOCH) + placeBytes 7 1 flags + placeBytes 8 4 (s.rdN Reg.ADM_START_SEQ) +
    sumOf (List.range 16) (fun v => placeBytes (0xC + 2 * v) 2 (depth v)) + placeBytes 0x2C 4 (s.rdN Reg.DEV_BUILD) +
    placeBytes 0x30 4 (s.rdN Reg.FW_VERSION)) s

/-- DOWN_NOTICE of a port that carries traffic: 0 disabled, 1 reset, 2 retire (Table LNK-2). -/
def sendDown (p reason : Nat) (s : State) : State :=
  if s.portState p = 5 ∨ s.portState p = 6 then sendLink p 2 (5 + placeBytes 1 1 reason) s else s

/-- LANE_MAP with this side's retired lanes. -/
def sendLaneMap (p : Nat) (s : State) : State := sendLink p 2 (4 + placeBytes 1 1 (laneMask s p)) s

/-! ### Route writes (R261, R262) -/

/-- Every port that an entry names is fitted (R261). -/
def rtEntryOk (s : State) (v : DWord) : Bool :=
  (List.range 18).all (fun p => !v.getLsbD p || s.fitted p) && s.fitted (bits v.toNat 18 5)

/-- Set an entry of a bank. -/
def setRoute (bank i : Nat) (v : DWord) (s : State) : State :=
  { s with lnk := { s.lnk with routes := mputD s.lnk.routes 0 (512 * bank + i) v } }

/-- A route write lands in the STAGED bank, is held while it drains, or is ignored (R261, R262); its reserved bits are not
written (00, R7). -/
def routeWriteAt (i : Nat) (v : DWord) (s : State) : State :=
  let v := v &&& 0x1FFFFFF
  if !rtEntryOk s v then s.setBit Reg.LNK_RT_STATUS 2 true
  else if s.lnkStaged then setRoute (1 - s.lnkE) i v s
  else { s with lnk := { s.lnk with held := s.lnk.held ++ [(i, v)] } }.setBit Reg.LNK_RT_STATUS 1 true

/-- The neighbour route of a peer, in both banks (R261). -/
def neighbourRoute (node : Nat) (s : State) : State :=
  let ps := (List.range 18).filter (fun p => s.portUp p && s.fld (Reg.LNK_PEER p) 0 16 == node)
  match ps with
  | [] => s
  | t :: _ =>
    let v : DWord := BitVec.ofNat 64 (sumOf ps (fun p => 2 ^ p) + 2 ^ 18 * t + 2 ^ 24)
    let i := routeIndex (ownNode s) node
    setRoute 1 i v (setRoute 0 i v s)

/-- Flits of a bank held in this sled, copies in the retry buffers included (log entry 76). -/
def bankFlits (s : State) (b : Nat) : Nat :=
  sumOf s.lnk.ports (fun p => (p.2.queue.filter (fun q => q.flit.epoch == b)).length + (p.2.unacked.filter (fun u => u.2.epoch == b)).length)

/-! ### Pages held for peers (R263, R284; 04, R99) -/

/-- Room of the lending pool in a tier, in bytes: 2 MiB units of T1 and 1 GiB units of T2; none while the sled's JOIN is
refused (13, R275). -/
def lendRoom (s : State) (tier : Nat) : Nat :=
  if outcast s then 0
  else (if tier = 1 then s.rdN Reg.HIE_LEND_T1 * unit2M else s.rdN Reg.HIE_LEND_T2 * 2 ^ 30) -
    sumOf s.lnk.lent (fun x => if x.tier = tier then round4K x.stored else 0)

/-- Every byte of the stored page has come. -/
def Xfer.complete (x : Xfer) : Bool :=
  (List.range x.stored).all (fun i => x.got.any (fun g => decide (g.1 ≤ i) && decide (i < g.1 + g.2)))

/-- The stored bytes. -/
def Xfer.bytes (x : Xfer) : List Byte := readBytes x.data 0 x.stored

/-- Put a chunk of a page in its place; a repeat changes nothing (R263). -/
def Xfer.put (x : Xfer) (now off : Nat) (bs : List Byte) : Xfer :=
  { x with data := writeBytes x.data off bs, got := if x.got.contains (off, bs.length) then x.got else x.got ++ [(off, bs.length)], heard := now }

end Sys2Proof.Machine
end

