-- ==== Sys2Proof/Machine/Steps.lean ====
section
/-! DEFINITION. The step cycle's events (06; 09, R203). -/

namespace Sys2Proof.Machine

/-- STEP_PLAN (R131 to R138). -/
def execStepPlan (after : Option Nat) (s : State) : Out := .next (stepPlan after s)

/-- PREEMPT_EXPIRE (R137, R161): a launch still running 200 µs after its notice is stopped. -/
def execPreemptExpire (launch : Nat) (s : State) : Out :=
  .next (match s.lch launch with
    | some l => if l.notice.any (fun t => decide (t + 200 ≤ s.tb)) then preemptLaunch launch 200 s else s
    | none => s)

/-! ### STEP_START (R132, R203) -/

/-- The objects whose pages a step reads: the blocks of its contexts (R46, R85). -/
def stepObjects (s : State) (es : List StepEntry) : List (Nat × Nat) :=
  ((es.map (fun e => match s.ctx e.ctx with
    | none => []
    | some c => c.blocks.filterMap (fun b => match b with
      | .priv o => some (c.slot, o)
      | .entry n => (s.entry n).bind (fun e => e.publisher.map (fun p => (p, e.block)))
      | .remote _ _ _ => none))).flatten).eraseDups

/-- Take or end the step leases of every page of an object. -/
def leaseAll (take : Bool) (s : State) (o : Nat × Nat) : State :=
  match s.obj o.1 o.2 with
  | none => s
  | some ob => (List.range ob.count).foldl (fun s i => if take then takeLease o.1 o.2 i true s else endLease o.1 o.2 i true s) s

/-- A queue engine for a step program: the lowest in service (log entry 47). -/
def stepEngine (s : State) : Option Nat :=
  (List.range 64).find? (fun e => !s.bit (Reg.QUE_ENG_STATUS e) 15 && !s.flt.retired.contains (5, e) && !s.flt.quarantined.contains (5, e))

/-- The step kind in s1. -/
def StepKind.code : StepKind → Nat
  | .decode => 0 | .prefill => 1 | .resume => 2

/-- Start a step program (R203). -/
def startStep (id : Nat) (t : Step) (s : State) : State :=
  match s.model t.model, stepEngine s with
  | some m, some e =>
    let objs := stepObjects s t.entries
    let s := objs.foldl (leaseAll true) s
    let s := s.bumpBy Reg.SCH_OVERRUN_US (s.tb - t.startS)
    let s := s.setStep id { t with running := true, started := s.tb, engine := e, leases := objs, groupAt := s.tb, after := none }
    match checkHandle s m.slot m.stepProg false 0 0 0xFFFF 0xFFFF with
    | .error st => s.updStep id (fun t => { t with words := t.words ++ [st], ended := true })
    | .ok n =>
      match codeOf n.obj with
      | none => s.updStep id (fun t => { t with words := t.words ++ [⟨0x41, 0xA, 0xFFFF⟩], ended := true })
      | some code =>
        let n := fun (x : Nat) => BitVec.ofNat 64 x
        let regs := [(1, n t.kind.code), (2, n t.entries.length), (3, n m.groups.length), (4, n t.tokens), (5, n t.model)].filter (fun r => r.2 != 0)
        qGoTo (stepProgKey id) 0 (s.setProg (stepProgKey id) {
          slot := m.slot, queue := 0, step := some id, engine := e, obj := m.stepProg, code := code, regs := ⟨regs, [], [(0, m.handle)]⟩ })
  | _, _ => s.updStep id (fun t => { t with running := true, words := t.words ++ [⟨0x33, 0xA, 0⟩], ended := true })

/-- STEP_START (R132, R203): at S, or at the group's real free time if that is later. -/
def execStepStart (step : Nat) (s : State) : Out :=
  .next (match s.step? step with
    | none => s
    | some t =>
      let waits := match t.after with | some a => (s.step? a).isSome | none => false
      if t.running || decide (s.tb < t.startS) || waits then s else startStep step t s)

/-! ### STEP_END (R130, R137, R139, R186; 02, R53) -/

/-- A context comes out of a step: cancelled turns and waiting CTX_CLEAR and CTX_CLOSE commands take effect, and work
left makes it READY (R129, R130). -/
def settleCtx (cid : Nat) (s : State) : State :=
  match s.ctx cid with
  | none => s
  | some c =>
    if c.clearing.isEmpty then
      if c.turn.any (fun t => t.matched) then
        (if c.st = .frozen then s.updCtx cid (fun c => { c with frozenFrom := .ready }) else becomeReady cid s)
      else if c.st = .frozen then s else s.updCtx cid (fun c => { c with st := .idle })
    else
      let close := c.clearing.any (fun x => x.1)
      let s := clearNow cid close (s.updCtx cid (fun c => { c with clearing := [] }))
      c.clearing.foldl (fun s x => finish x.2 ⟨0, 0, 0⟩ 0 s) s

/-- End a turn at a step's end if one of Table SCH-7 holds, or a failing status applies (R139). -/
def judge (cid i : Nat) (t : Step) (m : Model) (bad : List Status) (tok : Option Nat) (s : State) : State :=
  match s.ctx cid with
  | none => s
  | some c =>
    match c.turn with
    | none => s
    | some u =>
      if u.cancelled then endTurn cid (bad ++ [⟨0x34, 0, 0⟩]) 0 s
      else if !bad.isEmpty then endTurn cid bad 0 s
      else if t.eot.contains i then endTurn cid [] 1 s
      else if tok.any (fun k => k != 0xFFFFFFFF && u.stops.contains k) then endTurn cid [] 2 s
      else if c.turnNew = u.maxNew then endTurn cid [] 3 s
      else if m.maxLen ≤ c.length then endTurn cid [] 4 s
      else s

/-- One entry of a step that ran to its end (Table SCH-4, steps 5 and 6). -/
def endEntry (id : Nat) (t : Step) (m : Model) (i : Nat) (e : StepEntry) (s : State) : State :=
  match s.ctx e.ctx with
  | none => s
  | some c =>
    if c.step ≠ some id then s
    else
      let total := t.clusters.length * sumOf t.taus (fun x => x)
      let s := (s.twBump c.slot Reg.TW_SCH_STEPS).twBump c.slot Reg.TW_SCH_CLUSTER_NS (total * e.tokens / max 1 t.tokens)
      let old := c.length / 64
      let s := s.updCtx e.ctx (fun c => { c with
        step := none, cut := false, resume := none, steps := c.steps + 1, length := c.length + e.tokens,
        ids := c.ids ++ c.todo.take e.tokens, todo := c.todo.drop e.tokens, fed := false })
      let full := (List.range (((c.length + e.tokens) / 64) - old)).map (· + old)
      let s := match s.ctx e.ctx with | some c => hashFull e.ctx c.ids s | none => s
      let s := s.updCtx e.ctx (fun c => { c with due := c.due ++ full.filter (fun b =>
        (match c.blocks[b]? with | some (.priv _) => true | _ => false) && t.words.isEmpty) })
      let tok := if e.produces then mget t.tokOut i else none
      let bad := if e.produces ∧ tok = none ∧ t.words.isEmpty then [⟨0x41, 5, 0xFFFF⟩] else t.words
      let s := if e.reserved then unreserve c.slot 1 s else s
      let s := match tok with
        | none => s
        | some k =>
          let s := s.updCtx e.ctx (fun c => { c with lastToken := k, turnNew := c.turnNew + 1, todo := k :: c.todo, fed := true })
          let s := s.twBump c.slot Reg.TW_SCH_TOKENS
          match c.turn with
          | some u =>
            if u.tokens then produce c.slot c.queue false { status := 0, cmdId := u.cmdId, kind := 1, aux := e.ctx, result := k + 2 ^ 32 * u.seq } s else s
          | none => s
      let s := s.updCtx e.ctx (fun c => { c with needPrefill := decide (1 < c.todo.length) })
      settleCtx e.ctx (judge e.ctx i t m bad tok s)

/-- One entry of a step that was cut: the context keeps its place and comes back READY (R137). -/
def cutEntry (id : Nat) (t : Step) (first : Nat) (e : StepEntry) (s : State) : State :=
  match s.ctx e.ctx with
  | none => s
  | some c =>
    if c.step ≠ some id then s
    else
      let s := if e.reserved then unreserve c.slot 1 s else s
      let s := s.updCtx e.ctx (fun c => { c with
        step := none, cut := true, preempts := c.preempts + 1, resume := some ⟨id, first, e.tokens, e.produces, t.isRetry, none⟩ })
      let s := noteTurn e.ctx ⟨0x12, 5, if t.standing = 2 then 0 else 200⟩ s
      settleCtx e.ctx (if c.turn.any (fun u => u.cancelled) then endTurn e.ctx [⟨0x34, 0, 0⟩] 0 s else s)

/-- One entry of a step that a reset interrupted: the group is repeated once; a second reset ends the turn (02, R53). -/
def resetEntry (id : Nat) (t : Step) (first : Nat) (st : Status) (cl : Option Nat) (e : StepEntry) (s : State) : State :=
  match s.ctx e.ctx with
  | none => s
  | some c =>
    if c.step ≠ some id then s
    else
      let s := if e.reserved then unreserve c.slot 1 s else s
      let s := s.updCtx e.ctx (fun c => { c with step := none })
      if t.isRetry then settleCtx e.ctx (endTurn e.ctx [st] 0 (s.updCtx e.ctx (fun c => { c with cut := false, resume := none })))
      else
        let s := s.updCtx e.ctx (fun c => { c with
          cut := true, retries := c.retries + 1, resume := some ⟨id, first, e.tokens, e.produces, true, cl⟩ })
        settleCtx e.ctx (noteTurn e.ctx ⟨2, st.res, 1⟩ s)

/-- A step is over: its leases, its schedule and its clusters are given back. -/
def closeStep (id : Nat) (t : Step) (s : State) : State :=
  let s := t.leases.foldl (leaseAll false) s
  let s := s.bumpBy Reg.SCH_CLUSTER_BUSY (t.clusters.length * (s.tb - t.started) * 1600)
  { s with
    sch := { s.sch with steps := mdel s.sch.steps id }, pfx := { s.pfx with kv := s.pfx.kv.filter (fun k => k.step != id) },
    progs := mdel s.progs (stepProgKey id) }

/-- Finish a step whose program has ended or that was cut. -/
def stepEnd (id : Nat) (t : Step) (s : State) : State :=
  match s.model t.model with
  | none => closeStep id t s
  | some m =>
    let s := closeStep id t s
    let each := fun (f : Nat → StepEntry → State → State) (s : State) =>
      ((List.range t.entries.length).zip t.entries).foldl (fun s e => f e.1 e.2 s) s
    match t.cutAt with
    | none => each (endEntry id t m) s
    | some (.cut first) =>
      let s := s.traceRec 0x0A 7 0xFFFF [t.entries.length, first]
      let s := s.bump (if t.standing = 2 then Reg.SCH_PREEMPT_IMMEDIATE else Reg.SCH_PREEMPT_NOTICE)
      let s := if t.lost then s.bumpBy Reg.SCH_RECOMPUTE_US (t.clusters.length * (s.tb - t.groupAt)) else s
      each (fun _ e s => cutEntry id t first e s) s
    | some (.reset first st cl) => each (fun _ e s => resetEntry id t first st cl e s) s

/-- STEP_END (R130, R139): the step program has ended, or the step was cut, and no launch of the step is left. -/
def execStepEnd (step : Nat) (s : State) : Out :=
  .next (match s.step? step with
    | none => s
    | some t => if t.ended && (stepLaunch s step).isNone then stepEnd step t s else s)

/-- RESERVE_WINDOW_BOUNDARY (03, R67): an aligned 10 ms window begins. -/
def execReserveWindowBoundary (s : State) : Out :=
  .next (let w := s.tb / 10000 * 10000
    if s.sch.window < w then { s with sch := { s.sch with window := w, used := [], prefill := [] } } else s)

end Sys2Proof.Machine
end

