-- ==== Sys2Proof/Machine/OpsUnit.lean ====
section
/-! DEFINITION. Resets of units with their epochs (16, R351 to R353), and the retirement of units with the ledger's append
queue (24). -/

namespace Sys2Proof.Machine

/-! ### Epochs (R351) -/

/-- The key of a unit. -/
def unitKey (t i : Nat) : Nat := 2048 * t + i

/-- Units of each type of Table RST-4 as the table numbers them. -/
def unitCount (t : Nat) : Nat := [128, 2, 3, 18, 64, 512, 32, 6].getD t 0

/-- Microseconds within which a reset of each type completes (Table RST-4; log entry 91). -/
def resetTime (t : Nat) : Nat := [20, 2000, 150000, 1000, 100, 50, 20000, 1000].getD t 0

/-- A unit's epoch, where its block shows it. -/
def unitEpoch (s : State) (t i : Nat) : Nat :=
  match t with
  | 3 => s.fld (Reg.LNK_PORT_STATUS i) 16 8
  | 4 => s.fld (Reg.QUE_ENG_STATUS i) 0 8
  | 5 => (s.core i).epoch
  | 6 => s.fld (Reg.FLS_CH_STATUS i) 0 8
  | _ => mgetD s.rst.epochs 0 (unitKey t i)

/-- Set a unit's epoch. -/
def setEpoch (t i e : Nat) (s : State) : State :=
  match t with
  | 3 => s.setFld (Reg.LNK_PORT_STATUS i) 16 8 e
  | 4 => s.setFld (Reg.QUE_ENG_STATUS i) 0 8 e
  | 5 => s.updCore i (fun c => { c with epoch := e })
  | 6 => s.setFld (Reg.FLS_CH_STATUS i) 0 8 e
  | _ => { s with rst := { s.rst with epochs := mputD s.rst.epochs 0 (unitKey t i) e } }

/-- A unit's epoch advances by 1, modulo 256. -/
def bumpEpoch (t i : Nat) (s : State) : State := setEpoch t i ((unitEpoch s t i + 1) % 256) s

/-- A unit of Table RST-4 is retired. -/
def unitRetired (s : State) (t i : Nat) : Bool :=
  let r := fun (k : Nat) => s.flt.retired.contains (k, i)
  match t with
  | 0 => r 3 | 3 => r 2 | 4 => r 5 | 5 => r 4 | 6 => r 7 | _ => false

/-- A unit that the sled does not have. -/
def unitAbsent (s : State) (t i : Nat) : Bool :=
  !decide (i < unitCount t) ||
    (match t with
      | 2 => !s.fitted (6 * i)
      | 3 => !s.fitted i
      | _ => false)

/-- A unit is in reset. -/
def unitInReset (s : State) (t i : Nat) : Bool := decide (s.tb < mgetD s.rst.resetAt 0 (unitKey t i))

/-! ### The Orangery's dies (log entry 90) -/

/-- The die that holds a page: the first it is put on that is not retired. -/
def dieOf (s : State) (slot obj page : Nat) : Nat :=
  ((List.range 128).findSome? (fun k =>
    let d := Config.flashDie slot obj page k % 128
    if s.flt.retired.contains (6, d) then none else some d)).getD 0

/-- T2 moves that read or write a page on a die that satisfies a test. -/
def flashMoves (s : State) (p : Nat → Bool) : List Move :=
  s.moves.filter (fun m => (m.src == 2 || m.dst == 2) && p (dieOf s m.slot m.obj m.page))

/-! ### Queue engines (R205) -/

/-- The queues of an engine go to the lowest other engine in service with room. -/
def moveQueues (e : Nat) (s : State) : State :=
  let mine := (s.adm.tenants.map (fun t => (t.2.queues.filter (fun q => q.2.engine == e)).map (fun q => (t.1, q.1)))).flatten
  mine.foldl (fun s x =>
    let load := fun n => sumOf s.adm.tenants (fun t => (t.2.queues.filter (fun q => q.2.engine == n)).length)
    match (List.range 64).find? (fun n => n != e && !s.bit (Reg.QUE_ENG_STATUS n) 15 && !s.flt.quarantined.contains (5, n) && decide (load n < 64)) with
    | some n => s.updQue x.1 x.2 (fun q => { q with engine := n })
    | none => s) s

/-- The programs that run on an engine. -/
def progsOn (s : State) (e : Nat) : List (Nat × QProg) :=
  s.progs.filter (fun p => (match p.2.step with | some _ => p.2.engine | none => (s.que p.2.slot p.2.queue).engine) == e)

/-- What an engine's programs meet when it resets or retires: tenant programs end with a status, and a step program's step
is cut at the group in progress (R205; 02, R53). -/
def loseProgs (e : Nat) (st : Status) (s : State) : State :=
  (progsOn s e).foldl (fun s p => match p.2.step with
    | none => endProg p.1 st 0 s
    | some t =>
      let s := { s with progs := mdel s.progs p.1 }
      let s := match stepLaunch s t with
        | some l => let s := stopClusters l s; { s with launches := mdel s.launches l }
        | none => s
      s.updStep t (fun t => { t with cutAt := some (.reset t.done st none), lost := true, ended := true })) s

/-! ### Reset effects (R352) -/

/-- Events at a core's queues are dropped and counted (R227). -/
def dropCoreQueues (c : Nat) (reg : Nat) (s : State) : State :=
  let at_ := fun (x : EvPoint × Ev) => x.1 == .coreIn c || x.1 == .coreOut c
  { s.bumpBy reg (s.fab.queued.filter at_).length with fab := { s.fab with queued := s.fab.queued.filter (fun x => !at_ x) } }

/-- The launch that a cluster works for. -/
def launchOn (s : State) (k : Nat) : List Nat := (s.launches.filter (fun l => l.2.clusters.contains k)).map (·.1)

/-- One unit resets: its epoch advances, it discards what it holds, and its notice will come. Dies are reset with their
parts by `resetUnit`; Lodge blocks by their own files. -/
def resetOne (t i : Nat) (s : State) : State :=
  let old := unitEpoch s t i
  let s := { s with rst := { s.rst with resetAt := mput s.rst.resetAt (unitKey t i) (s.tb + resetTime t) } }
  let note := fun (n : Notice) (s : State) => { s with rst := { s.rst with notices := s.rst.notices ++ [n] } }
  let s := match t with
    | 0 => note { type := 0, index := i, epoch := old, launches := launchOn s i } { s with clus := mdel s.clus i }
    | 3 => leavePort i (restPort s i) (sendDown i 1 s)
    | 4 => moveQueues i (loseProgs i ⟨0x30, 0xA, old⟩ (s.bumpBy Reg.RST_ABORTS (progsOn s i).length))
    | 5 =>
      let c := s.core i
      let (n, s) := s.draw
      let s := dropCoreQueues i Reg.EVF_RESET_DROP s
      note { type := 5, index := i, epoch := old, flights := c.loading.toList }
        (s.updCore i (fun c => { c with neurons := [], t0 := 0, loading := none, reload := c.reload || (c.axonBlk.isSome && n % 2 == 1) }))
    | 6 => note { type := 6, index := i, epoch := old, moves := (flashMoves s (fun d => d / 4 == i)).map (·.id) } s
    | _ => s
  (setEpoch t i ((old + 1) % 256) s).traceRec 6 1 i [t, i, (old + 1) % 256]

/-- The units that a reset of a die resets with it (01, R36, R37). -/
def partsOf (s : State) (t i : Nat) : List (Nat × Nat) :=
  match t with
  | 1 => ((List.range 64).map (fun k => (0, 64 * i + k))).filter (fun u => !unitRetired s u.1 u.2)
  | 2 => ((List.range 6).map (fun k => (3, 6 * i + k))).filter (fun u => !unitRetired s u.1 u.2)
  | _ => []

/-- Requests end with a reset notice (R352): a launch is started again or cut its step (R163), a load ends, moves end or are
issued again (R104). -/
def noticeEnd (n : Notice) (s : State) : State :=
  let s := n.launches.foldl (fun s l =>
    if (s.lch l).any (fun x => x.clusters.contains n.index) then (resetLaunch l n.index n.epoch s).bump Reg.RST_ABORTS else s) s
  let s := n.flights.foldl (fun s f => if (s.flight f).isSome then (finish f ⟨0x30, 6, n.epoch⟩ 0 s).bump Reg.RST_ABORTS else s) s
  n.moves.foldl (fun s id => match s.move id with
    | none => s
    | some m =>
      let s := s.bump Reg.RST_ABORTS
      let st : Status := ⟨0x30, 2, n.epoch⟩
      match m.cause with
      | .place _ | .flush _ => failMove m st s
      | _ => { s.outcome m.slot st with moves := updWhere s.moves (fun x => x.id == id) (fun x => { x with reissued := true }) }) s

/-! ### The ledger's append queue (R498) -/

/-- Show how many records wait. -/
def showQueued (s : State) : State := s.putN Reg.FLT_LDG_QUEUED s.flt.queue.length

/-- Queue a record: a RETIRE record takes the entry of the oldest other record of a full queue, or waits for one to be free;
another record that finds the queue full is dropped. -/
def ledgerAdd (r : LedgerRec) (s : State) : State :=
  let put := fun (q : List LedgerRec) (s : State) => showQueued { s with flt := { s.flt with queue := q } }
  let q := s.flt.queue
  if q.length < 16 then put (q ++ [r]) s
  else if r.kind ≠ 1 then s.bump Reg.FLT_LDG_DROP
  else if q.any (fun x => x.kind != 1) then put (q.eraseP (fun x => x.kind != 1) ++ [r]) (s.bump Reg.FLT_LDG_DROP)
  else { s with flt := { s.flt with late := s.flt.late ++ [r] } }

/-- A record of the sled now (Table FLT-6). -/
def ledgerRec (s : State) (kind type res unit criterion removed : Nat) (evidence : List Nat) : LedgerRec := {
  kind := kind, type := type, res := res, unit := unit, tb := s.tb, criterion := criterion, cause := s.fld Reg.RST_LAST_CAUSE 0 4,
  node := ownNode s, fw := s.rdN Reg.FW_VERSION, removed := removed, evidence := evidence, retCount := s.flt.retCount }

/-! ### Retirement (R495, R496, Tables FLT-1 and FLT-5) -/

/-- The resource of each type. -/
def fltRes (t : Nat) : Nat := [1, 7, 7, 5, 6, 0xA, 2, 2, 0, 0, 0].getD t 0

/-- GiB of an Orangery die as built (01). -/
def dieGiB (s : State) : Nat := if s.fld Reg.DEV_BUILD 8 4 = 2 then 192 else 96

/-- Dies of the Orangery in service. -/
def diesIn (s : State) : Nat := ((List.range 128).filter (fun d => !s.flt.retired.contains (6, d))).length

/-- T2 writes per day in GB of the whole Orangery (log entry 6). -/
def fullWrites : Nat := 3110400

/-- Lower a capacity and cut what no longer fits. -/
def lessCap (n x : Nat) (s : State) : State := cutResource n (s.putN (Reg.ADM_CAP n) (s.rdN (Reg.ADM_CAP n) - x))

/-- What an Orangery die's retirement leaves. -/
def lessDie (d : Nat) (s : State) : State :=
  let ch := d / 4
  let s := s.putN (Reg.FLT_INSVC 6) (s.rdN (Reg.FLT_INSVC 6) - 1)
  let s := s.setFld (Reg.FLS_CH_STATUS ch) 8 3 (s.fld (Reg.FLS_CH_STATUS ch) 8 3 - 1)
  let s := s.putN Reg.FLS_USABLE (s.rdN Reg.FLS_USABLE - dieGiB s)
  let s := lessCap 2 (dieGiB s) s
  cutResource 3 (s.putN (Reg.ADM_CAP 3) (fullWrites * diesIn s / 128))

/-- Pages whose home is in a tier and that satisfy a test move within it, off what retires (R490, R495). -/
def evacuate (tier : Nat) (p : Nat → Nat → Nat → Bool) (s : State) : State :=
  let all := (s.adm.tenants.map (fun t => (t.2.objs.map (fun o =>
    (o.2.pagesWhere (fun g => g.tier == tier && g.mv.isNone)).map (fun i => (t.1, o.1, i)))).flatten)).flatten
  (all.filter (fun x => p x.1 x.2.1 x.2.2)).foldl (fun s x => startMove x.1 x.2.1 x.2.2 tier 0 .retire s) s

/-- A retired event core (10, R228): its routes and events go, its owner's load and counters meet the outcome. -/
def retireCore (c : Nat) (s : State) : State :=
  let x := s.core c
  let s := match x.loading with | some f => finish f ⟨0x33, 6, c⟩ 0 s | none => s
  let s := match x.slot with | some o => s.outcome o ⟨0x33, 6, c⟩ | none => s
  let here := fun (p : EvPoint × Ev) => p.1 == .coreIn c || p.1 == .coreOut c || p.1 == .routerIn c || (List.range 5).any (fun d => p.1 == .routerOut c d)
  let s := s.bumpBy Reg.EVF_DEAD_ROUTE (s.fab.queued.filter here).length
  { s with fab := { s.fab with
    queued := s.fab.queued.filter (fun p => !here p), routes := s.fab.routes.filter (fun r => r.node != c),
    cores := mputD s.fab.cores {} c { epoch := x.epoch } } }

/-- The fence of a retiring unit: what is in flight to it ends ABORTED_RETIRED with its index, and its epoch advances
(Table FLT-4, step 1). -/
def fence (t i : Nat) (s : State) : State :=
  match t with
  | 1 =>
    let p := i / 8
    let s := s.setBit (Reg.LNK_PORT_STATUS p) (8 + i % 8) true
    widthChange p (if s.portUp p then sendLaneMap p s else s)
  | 2 =>
    let e := unitEpoch s 3 i
    setEpoch 3 i ((e + 1) % 256) (leavePort i 0 (sendDown i 2 s))
  | 3 =>
    let ls := launchOn s i
    let s := bumpEpoch 0 i s
    ls.foldl (fun s l => closeLaunch l 0 (s.updLch l (fun l => { l with outcomes := l.outcomes ++ [⟨0x33, 5, i⟩] }))) s
  | 4 => bumpEpoch 5 i (retireCore i s)
  | 5 => (moveQueues i (loseProgs i ⟨0x33, 0xA, i⟩ (bumpEpoch 4 i s))).setBit (Reg.QUE_ENG_STATUS i) 15 true
  | 6 => (flashMoves s (fun d => d == i)).foldl (fun s m => failMove m ⟨0x33, 2, i / 4⟩ s) s
  | 7 => ((flashMoves s (fun d => d / 4 == i)).foldl (fun s m => failMove m ⟨0x33, 2, i⟩ s) (bumpEpoch 6 i s)).setBit (Reg.FLS_CH_STATUS i) 12 true
  | 8 => s.setBit (Reg.ADC_SD_STATUS i) 4 true
  | 9 => s.setBit (Reg.ADC_IC_STATUS i) 3 true
  | _ => s

/-- The manager's withheld clusters after a retirement (01, R33). -/
def renewReserve (s : State) : State :=
  if s.withheld.isEmpty then s
  else
    let n := s.withheld.length
    let l := reserveSet s
    let s := showReserve { s with withheld := l }
    s.putN (Reg.ADM_CAP 5) (s.rdN (Reg.ADM_CAP 5) + 16 * n - 16 * l.length)

/-- What a retirement does to capacity and admission (Table FLT-5). -/
def lessUnit (t i : Nat) (s : State) : State :=
  match t with
  | 0 => evacuate 1 (fun _ _ _ => true) (lessCap 1 576 s)
  | 3 =>
    let s := lessCap 5 16 (renewReserve s)
    retireModels s
  | 4 =>
    let s := lessCap 6 1 s
    let slots := s.adm.tenants.map (·.1)
    slots.foldl (fun s x => evResize x s) (slots.foldl (fun s x => evResize x s) s)
  | 5 => lessCap 0xA 64 s
  | 6 => lessDie i s
  | _ => s

/-- Capacity removed, as the ledger records it. -/
def removedBy (s : State) (t i : Nat) : Nat :=
  match t with
  | 0 => 576 | 3 => 16 | 4 => 1 | 5 => 64 | 6 => dieGiB s
  | 7 => dieGiB s * ((List.range 4).filter (fun d => !s.flt.retired.contains (6, 4 * i + d))).length
  | _ => 0

/-- A unit is retired (R495, steps 1 to 3 and 5): it is fenced, capacity falls, the ledger record is queued, and homes are evacuated. -/
def retire (t i criterion : Nat) (evidence : List Nat) (s : State) : State :=
  if s.flt.retired.contains (t, i) then s
  else
    let removed := removedBy s t i
    let dies := if t = 7 then ((List.range 4).map (· + 4 * i)).filter (fun d => !s.flt.retired.contains (6, d)) else []
    let homes := if t = 6 then [i] else dies
    let where_ := fun slot obj page => homes.contains (dieOf s slot obj page)
    let s := fence t i s
    let s := { s with
      flt := { s.flt with
        retired := s.flt.retired ++ dies.map (fun d => (6, d)) ++ [(t, i)], quarantined := s.flt.quarantined.filter (· != (t, i)),
        testing := s.flt.testing.filter (· != (t, i)), retCount := s.flt.retCount + 1 } }
    let s := (s.putN (Reg.FLT_INSVC t) (s.rdN (Reg.FLT_INSVC t) - 1)).putN Reg.IST_QUAR s.flt.quarantined.length
    let s := dies.foldl (fun s d => lessDie d s) (lessUnit t i s)
    let s := if homes.isEmpty then s else evacuate 2 where_ s
    (ledgerAdd (ledgerRec s 1 t (fltRes t) i criterion removed evidence) s).bump Reg.FLT_RETIREMENTS

/-- Evidence of links and flash (Table FLT-7), as 32-bit words. -/
def portEvidence (s : State) (p l : Nat) : List Nat :=
  let worst := mgetD s.flt.laneWorst 0 l
  [worst % 2 ^ 32, worst / 2 ^ 32, s.rdN (Reg.LNK_RETRAIN_FAIL p) % 2 ^ 32, ((laneSet (laneMask s p ||| 2 ^ (l % 8))).map (·.2)).getD 0]

/-- Retired blocks, uncorrectable blocks in 24 h and channel resets in 1 h. -/
def flashEvidence (s : State) (d : Nat) : List Nat :=
  [mgetD s.flt.badBlocks 0 d, ((s.flt.flashUe.filter (fun u => u.1 == d && decide (s.tb ≤ u.2.2 + 86400000000))).map (·.2.1)).eraseDups.length,
    (s.flt.chanResets.filter (fun r => r.1 == d / 4 && decide (s.tb ≤ r.2 + 3600000000))).length]

/-- A lane retires, and its port with the last width (R491, Table FLT-2). -/
def retireLane (l criterion : Nat) (s : State) : State :=
  let p := l / 8
  let s := retire 1 l criterion (portEvidence s p l) s
  if (laneSet (laneMask s p)).isNone then retire 2 p 3 (portEvidence s p l) s else s

/-- A die retires, and its channel with the second (Table FLT-2). -/
def retireDie (d criterion : Nat) (s : State) : State :=
  let s := retire 6 d criterion (flashEvidence s d) s
  if 2 ≤ ((List.range 4).filter (fun k => s.flt.retired.contains (6, d / 4 * 4 + k))).length then
    retire 7 (d / 4) 4 (flashEvidence s d) s
  else s

end Sys2Proof.Machine
end

