-- ==== Sys2Proof/Machine/OpsAdc.lean ====
section
/-! DEFINITION. Exact numbers of the Lodge die, and the integrating converters (17): result words, slots, urgent requests and
calibrations. Every time is in Lodge PLL cycles of 1.5625 ns (R359). -/

namespace Sys2Proof.Machine

/-! ### Exact numbers -/

namespace Ratio
/-- An integer. -/
def ofInt (i : Int) : Ratio := ⟨i, 1⟩
/-- The sum. -/
def add (a b : Ratio) : Ratio := if a.den = b.den then ⟨a.num + b.num, a.den⟩ else ⟨a.num * b.den + b.num * a.den, a.den * b.den⟩
/-- The difference. -/
def sub (a b : Ratio) : Ratio := a.add ⟨-b.num, b.den⟩
/-- The product. -/
def mul (a b : Ratio) : Ratio := ⟨a.num * b.num, a.den * b.den⟩
/-- The quotient; 0 where the divisor is 0. -/
def div (a b : Ratio) : Ratio :=
  if b.num = 0 then ⟨0, 1⟩ else if b.num < 0 then ⟨-(a.num * b.den), a.den * b.num.natAbs⟩ else ⟨a.num * b.den, a.den * b.num.natAbs⟩
/-- `a ≤ b`. -/
def le (a b : Ratio) : Bool := decide (a.num * b.den ≤ b.num * a.den)
/-- The magnitude. -/
def abs (a : Ratio) : Ratio := ⟨a.num.natAbs, a.den⟩
/-- The nearest integer, halves away from zero. -/
def round (a : Ratio) : Int :=
  let q : Nat := (2 * a.num.natAbs + a.den) / (2 * a.den)
  if a.num < 0 then -(q : Int) else (q : Int)
/-- As FP32, to nearest. -/
def f32 (a : Ratio) : Nat :=
  (toF32 (divNum (.fin (decide (a.num < 0)) a.num.natAbs 0) (.fin false a.den 0)).1).1.toNat
end Ratio

/-- The exact value of an FP32 word; NaN and infinities read 0. -/
def ratioOf (w : Nat) : Ratio :=
  match f32 (BitVec.ofNat 32 w) with
  | .fin neg m e =>
    let x : Int := if neg then -(m : Int) else m
    if 0 ≤ e then ⟨x * 2 ^ e.toNat, 1⟩ else ⟨x, 2 ^ (-e).toNat⟩
  | _ => ⟨0, 1⟩

/-! ### Result words (R360, R361, Table ADC-4) -/

/-- The no-data marker and the word of a slot without a conversion. -/
def noData : Word := 0x80000000
/-- See `noData`. -/
def missingWord : Word := 0x80000001

/-- A result word. -/
def resWord (v : Int) (flags : Nat) : Word := BitVec.ofNat 32 (unsigned 24 v * 256 + flags)

/-- VALUE clamped to ±8,388,607, and whether it was. -/
def clampValue (v : Int) : Int × Bool :=
  if 8388607 < v then (8388607, true) else if v < -8388607 then (-8388607, true) else (v, false)

/-- VALUE of a word. -/
def wordValue (w : Word) : Int := signed 24 (w.toNat / 256)

/-- A flag of a word. -/
def wordFlag (w : Word) (i : Nat) : Bool := w.toNat.testBit i

/-! ### Time and periods (R359, Table ADC-3) -/

/-- Lodge PLL cycles now. -/
def pll (s : State) : Nat := 640 * s.tb

/-- The latest measured mains period while the frequency is valid (19, R399). -/
def linePeriod (s : State) : Option Nat := if s.bit Reg.MTR_STATUS 2 then s.mtr.line else none

/-- Length of an integration period that starts now, and whether LINE falls back. -/
def periodLen (s : State) (code : Nat) : Nat × Bool :=
  match code with
  | 0 => (match linePeriod s with | some n => (n, false) | none => (12800000, true))
  | 1 => (12800000, false)
  | 2 => (10666667, false)
  | 3 => (64000000, false)
  | _ => (640000, false)

/-! ### Converters -/

namespace State
/-- An integrating converter. -/
def ic (s : State) (n : Nat) : Ic := mgetD s.adc.ics {} n
/-- Change a converter. -/
def updIc (s : State) (n : Nat) (f : Ic → Ic) : State := { s with adc := { s.adc with ics := mputD s.adc.ics {} n (f (s.ic n)) } }
end State

/-- A converter is retired. -/
def icRetired (s : State) (n : Nat) : Bool := s.bit (Reg.ADC_IC_STATUS n) 3

/-- A converter belongs to a pair (R365): the pair's input and period. -/
def pairOf (s : State) (n : Nat) : Option (Nat × Nat) :=
  let c := s.rdN Reg.ADC_IC_CFG
  if n < 2 then (if c.testBit 0 then some (bits c 2 4, bits c 10 3) else none)
  else if c.testBit 1 then some (bits c 6 4, bits c 13 3) else none

/-- A scan step: converter, input and period; none while it is disabled (R363). -/
def scanStep (s : State) (i : Nat) : Option (Nat × Nat × Nat) :=
  let c := s.rdN (Reg.ADC_SCAN i)
  if c.testBit 0 then some (bits c 1 2, bits c 3 4, bits c 7 3) else none

/-- The next step of a converter from an index on, going round. -/
def nextStep (s : State) (n from_ : Nat) : Option Nat :=
  ((List.range 32).map (fun k => (from_ + k) % 32)).find? (fun i => match scanStep s i with | some (c, _, _) => c == n | none => false)

/-- A converter's next slot begins at a time; a retired converter has none but in a pair (R363, R365, R378). -/
def openSlot (n at_ : Nat) (s : State) : State :=
  match pairOf s n with
  | some (_, p) => s.updIc n (fun c => { c with slot := some ⟨none, at_, at_ + (periodLen s p).1⟩ })
  | none =>
    if icRetired s n then s.updIc n (fun c => { c with slot := none })
    else match nextStep s n (s.ic n).next with
      | none => s.updIc n (fun c => { c with slot := none })
      | some i =>
        let p := match scanStep s i with | some (_, _, p) => p | none => 1
        s.updIc n (fun c => { c with slot := some ⟨some i, at_, at_ + (periodLen s p).1⟩, next := (i + 1) % 32 })

/-- A result goes to the registers of its slot: the pair's stream with its SEQ, or the scan step (R362, R363, R365). -/
def slotResult (n : Nat) (sl : Slot) (w : Word) (s : State) : State :=
  let tb := sl.stop / 640
  let s := if w = missingWord then s.bump (Reg.ADC_MISSING n) else s.putN (Reg.ADC_IC_RES n) (w.toNat + 2 ^ 32 * (tb % 2 ^ 32))
  match sl.step with
  | some i => s.putN (Reg.ADC_SCAN_RES i) (w.toNat + 2 ^ 32 * (tb % 2 ^ 32))
  | none =>
    let p := n / 2
    let q := mgetD s.adc.seq 0 p
    let s := { s with adc := { s.adc with seq := mput s.adc.seq p ((q + 1) % 2 ^ 32) } }
    let s := if p = 0 ∧ w ≠ missingWord ∧ (pairOf s 0).map (·.1) = some 12 then { s with mtr := { s.mtr with pairA := some (tb, w) } } else s
    (s.putN (Reg.ADC_PAIR_RES p) (w.toNat + 2 ^ 32 * q)).putN (Reg.ADC_PAIR_TB p) tb

/-- A converter's slot that it did not use ends (R366). -/
def missSlot (n : Nat) (s : State) : State :=
  match (s.ic n).slot with
  | none => s
  | some sl => slotResult n sl missingWord s

/-- Set the conversion of a converter. -/
def startConv (n : Nat) (use : ConvUse) (input at_ len : Nat) (fb : Bool) (s : State) : State :=
  s.updIc n (fun c => { c with conv := some ⟨use, input, at_, at_ + len, fb⟩ })

/-- Input of each phase of a self-calibration (R371). -/
def calInput (phase : Nat) : Nat := if phase = 0 then 15 else 15 + phase

/-- A converter whose input is free at a time takes what comes next: an urgent request (R369); at the start of a slot a
calibration phase, a reference check, a system calibration; else the slot's own conversion (R366). -/
def fill (n at_ : Nat) (s : State) : State :=
  let c := s.ic n
  if c.conv.isSome then s
  else match c.urg with
    | some u =>
      let wait := (at_ - u.since) / 640
      let s := s.updIc n (fun c => { c with urg := none })
      let s := if u.who = .pf then s.putN Reg.ADC_URG_WAIT_US (wait % 65536) else s
      let (len, fb) := periodLen s u.period
      startConv n (.urgent u.who) u.input at_ len fb s
    | none =>
      let begins := match c.slot with | some sl => sl.start == at_ | none => true
      let (len, fb) := match c.slot with
        | some sl => (sl.stop - sl.start, false)
        | none => periodLen s (if s.adc.joint then 0 else 1)
      if !begins || icRetired s n then s
      else match c.cal with
        | some (k, _, _) => startConv n (.cal k) (calInput k) at_ len fb s
        | none =>
          if c.refDue then startConv n .ref 10 at_ 640000 false s
          else match s.adc.syscal with
            | some x =>
              if x.ic && x.unit == n && decide (x.count < 16) then startConv n .sys x.input at_ len fb s else ownConv n at_ c s
            | none => ownConv n at_ c s
where
  /-- The slot's own conversion. -/
  ownConv (n at_ : Nat) (c : Ic) (s : State) : State :=
    match c.slot with
    | none => s
    | some sl =>
      match sl.step, pairOf s n with
      | some i, _ => (match scanStep s i with
        | some (_, inp, p) => startConv n .own inp at_ (sl.stop - sl.start) (periodLen s p).2 s
        | none => s)
      | none, some (inp, p) => startConv n .own inp at_ (sl.stop - sl.start) (periodLen s p).2 s
      | none, none => s

/-- A slot ends and the next begins. -/
def turnSlot (n at_ : Nat) (s : State) : State := fill n at_ (openSlot n at_ s)

/-- Every converter starts afresh at a safe point (R364): what is in progress is abandoned, the odd converter of a pair
starts half a period later (R365). -/
def restartIcs (at_ : Nat) (s : State) : State :=
  (List.range 4).foldl (fun s n =>
    let s := missSlot n s
    let s := s.updIc n (fun c => { c with
      conv := match c.conv with | some v => (match v.use with | .urgent _ => some v | _ => none) | none => none, slot := none, next := 0,
      cal := c.cal.map (fun (x : Nat × Ratio × Ratio) => (0, x.2)),
      refDue := c.refDue || (match c.conv with | some v => v.use == .ref | none => false) })
    let late := match pairOf s n with | some (_, p) => if n % 2 = 1 then (periodLen s p).1 / 2 else 0 | none => 0
    let s := openSlot n (at_ + late) s
    fill n (at_ + late) s) s

/-! ### Urgent requests (R367 to R369, R378) -/

/-- How a PF request is answered at once. -/
def urgAnswer (who : UrgBy) (code n : Nat) (s : State) : State :=
  if who = .pf then s.putN Reg.ADC_URG_STATUS (256 * code + 65536 * n) else s

/-- When a FINISH request would start on a converter. -/
def finishStart (s : State) (n : Nat) : Nat :=
  match (s.ic n).conv with
  | some v => if v.stop ≤ pll s + 13760000 then v.stop else pll s
  | none => pll s

/-- A converter holds an urgent request, started or waiting. -/
def urgHeld (s : State) (n : Nat) : Bool :=
  (s.ic n).urg.isSome || (match (s.ic n).conv with | some v => (match v.use with | .urgent _ => true | _ => false) | none => false)

/-- A conversion is abandoned for an urgent request; its calibration starts over, its reference check comes later. -/
def abandon (n : Nat) (s : State) : State :=
  match (s.ic n).conv with
  | none => s
  | some v => s.updIc n (fun c => { c with
      conv := none, cal := c.cal.map (fun (x : Nat × Ratio × Ratio) => (0, x.2)), refDue := c.refDue || v.use == .ref })

/-- A FINISH request (R367, R369). -/
def urgFinish (who : UrgBy) (conv : Option Nat) (input period : Nat) (s : State) : State :=
  let free := (List.range 4).filter (fun n => !icRetired s n && !urgHeld s n)
  let best := free.foldl (fun (b : Option Nat) n => match b with
    | some m => if finishStart s n < finishStart s m then some n else b
    | none => some n) none
  let target := match conv with | some n => some n | none => best
  match target with
  | none => urgAnswer who 0x24 0 (s.bump Reg.ADC_URG_REJECT)
  | some n =>
    if icRetired s n then urgAnswer who 0x33 n s
    else if urgHeld s n then urgAnswer who 0x24 n (s.bump Reg.ADC_URG_REJECT)
    else
      let s := if finishStart s n = pll s then abandon n s else s
      let s := if who = .pf then s.putN Reg.ADC_URG_STATUS (1 + 65536 * n) else s
      fill n (pll s) (s.updIc n (fun c => { c with urg := some ⟨who, input, period, pll s⟩ }))

/-- A converter is idle: no enabled step, no pair, and nothing under way (R363, R368). -/
def icIdle (s : State) (n : Nat) : Bool :=
  let c := s.ic n
  !icRetired s n && c.conv.isNone && c.slot.isNone && c.urg.isNone && c.cal.isNone

/-- A DROP request (R368). -/
def urgDrop (who : UrgBy) (conv : Option Nat) (input period : Nat) (s : State) : State :=
  let target := match conv with | some n => some n | none => (List.range 4).find? (icIdle s)
  match target with
  | none => urgAnswer who 0x24 0 (s.bump Reg.ADC_DROPCNT)
  | some n =>
    if icRetired s n then urgAnswer who 0x33 n s
    else if !icIdle s n then urgAnswer who 0x24 n (s.bump Reg.ADC_DROPCNT)
    else
      let s := if who = .pf then s.putN Reg.ADC_URG_STATUS (1 + 65536 * n) else s
      fill n (pll s) (s.updIc n (fun c => { c with urg := some ⟨who, input, period, pll s⟩ }))

/-! ### Self-checks (R372) and retirement (24, Table FLT-2) -/

/-- A self-check of a ΣΔ channel (type 8) or a converter (type 9) failed: it is reported, and the second in a row retires
the unit. -/
def checkFailed (t i : Nat) (off gain : Ratio) (s : State) : State :=
  let s := (s.bump Reg.ADC_CAL_FAIL).setBit Reg.ADC_CAL_STATUS (if t = 8 then i else 8 + i) true
  let o := unsigned 32 off.round
  let g := gain.f32
  match s.flt.checks.find? (fun c => c.1 == t && c.2.1 == i) with
  | some (_, _, o1, g1) =>
    let s := retire t i 1 [o1, g1, o, g] { s with flt := { s.flt with checks := s.flt.checks.filter (fun c => !(c.1 == t && c.2.1 == i)) } }
    if t = 9 then
      (match (s.ic i).urg with
        | some u => urgAnswer u.who 0x33 i (s.updIc i (fun c => { c with urg := none }))
        | none => s)
    else s
  | none => { s with flt := { s.flt with checks := s.flt.checks ++ [(t, i, o, g)] } }

/-- A self-check passed: failures are no longer in a row. -/
def checkPassed (t i : Nat) (s : State) : State :=
  ({ s with flt := { s.flt with checks := s.flt.checks.filter (fun c => !(c.1 == t && c.2.1 == i)) } }).setBit
    Reg.ADC_CAL_STATUS (if t = 8 then i else 8 + i) false

/-! ### Self-calibration of the converters (R371) -/

/-- BUSY of ADC_CAL_CTRL. -/
def showCalBusy (s : State) : State := s.setBit Reg.ADC_CAL_CTRL 3 (s.adc.sdCal.isSome || !s.adc.calQueue.isEmpty)

/-- The next converter of the queue calibrates, or all that are left together; at the end of a joint calibration the scan
and the pairs start afresh. -/
def nextCal (at_ : Nat) (s : State) : State :=
  let s := { s with adc := { s.adc with calQueue := s.adc.calQueue.filter (fun n => !icRetired s n) } }
  match s.adc.calQueue with
  | [] =>
    let s := showCalBusy s
    if s.adc.joint then restartIcs at_ { s with adc := { s.adc with joint := false } } else s
  | n :: _ =>
    if (s.ic n).cal.isSome then showCalBusy s
    else fill n at_ (showCalBusy (s.updIc n (fun c => { c with cal := some (0, ⟨0, 1⟩, ⟨0, 1⟩) })))

/-- Start the self-calibration of the four converters one at a time; ignored while one runs (R373). -/
def icCalStart (s : State) : State :=
  if !s.adc.calQueue.isEmpty then s else nextCal (pll s) { s with adc := { s.adc with calQueue := [0, 1, 2, 3] } }

/-- The joint calibration of step 10 and of power-up: scan and pairs pause, their slots yield MISSING words. -/
def icCalJoint (s : State) : State :=
  let live := (List.range 4).filter (fun n => !icRetired s n)
  let s := { s with adc := { s.adc with joint := true, calQueue := live } }
  let s := (List.range 4).foldl (fun s n => (missSlot n s).updIc n (fun c => { c with
    slot := none, conv := match c.conv with | some v => (match v.use with | .urgent _ => some v | _ => none) | none => none,
    refDue := c.refDue || (match c.conv with | some v => v.use == .ref | none => false) })) s
  let s := live.foldl (fun s n => fill n (pll s) (s.updIc n (fun c => { c with cal := some (0, ⟨0, 1⟩, ⟨0, 1⟩) }))) s
  if live.isEmpty then nextCal (pll s) s else showCalBusy s

/-- The uncorrected VALUE of a mean input in nanovolts, scaled as Table ADC-2 says (R360), and whether it is beyond
±2.5 V. -/
def icRaw (input : Nat) (nv : Int) : Ratio × Bool :=
  let d := if input = 11 ∨ input = 13 then 16 else if input = 12 then 32 else 1
  (⟨8388608 * nv, 2500000000 * d⟩, decide (2500000000 * (d : Int) < nv.natAbs))

/-- v_self of a converter. -/
def icSelf (c : Ic) (raw : Ratio) : Ratio := (raw.sub c.off).mul c.gain

/-- Keys of system calibration targets. -/
def sysKey (ic : Bool) (unit input gain : Nat) : Nat := if ic then 1024 + 16 * unit + input else 8 * unit + gain

/-- System calibration applied (R375). -/
def sysApply (s : State) (key : Nat) (v : Ratio) : Ratio :=
  match mget s.adc.sys key with
  | some (o, g) => (v.sub o).mul g
  | none => v

/-- The result word of a conversion. -/
def icWord (s : State) (n : Nat) (v : Conv) (nv : Int) : Word :=
  let c := s.ic n
  let (raw, above) := icRaw v.input nv
  let (x, sat) := clampValue (sysApply s (sysKey true n v.input 0) (icSelf c raw)).round
  let urg := match v.use with | .urgent _ => true | _ => false
  resWord x (4 * b2n above + 8 * b2n sat + 16 * b2n urg + 32 * b2n v.fallback + 64 * b2n c.uncal)

/-- A calibration of a converter has its three results (R371, R372); the offset found is taken off the two others. -/
def icCalDone (n : Nat) (off pos neg : Ratio) (s : State) : State :=
  let nominal : Ratio := ⟨8388608 * 4, 5⟩
  let g := nominal.div (pos.sub off)
  let full : Ratio := ⟨8388608, 1⟩
  let bad := !(off.abs).le ⟨8388608, 100⟩ || !((g.sub ⟨1, 1⟩).abs).le ⟨3, 100⟩ ||
    !((((pos.sub off).abs).sub ((neg.sub off).abs)).abs).le (full.mul ⟨1, 10000⟩)
  let s := { s with adc := { s.adc with calQueue := s.adc.calQueue.filter (· != n) } }
  let s := s.updIc n (fun c => { c with cal := none })
  if bad then checkFailed 9 n off ((pos.sub off).div nominal) s
  else
    let s := if (s.ic n).refFail then s.setBit Reg.ADC_CAL_STATUS (8 + n) false else checkPassed 9 n s
    (s.updIc n (fun c => { c with off := off, gain := g, uncal := false })).putN Reg.ADC_CAL_TEMP (unsigned 16 s.adc.temp)

/-- A reference check has its result (R374). -/
def refDone (n : Nat) (v : Ratio) (s : State) : State :=
  let s := { s with adc := { s.adc with refNext := (n + 1) % 4 } }
  let nominal : Ratio := ⟨8388608 * 4, 5⟩
  if ((v.sub nominal).abs).le (nominal.mul ⟨5, 10000⟩) then checkPassed 9 n (s.updIc n (fun c => { c with refFail := false }))
  else
    let s := checkFailed 9 n ⟨0, 1⟩ (v.div nominal) (s.updIc n (fun c => { c with refFail := true }))
    if s.adc.calQueue.isEmpty ∧ !icRetired s n then { s with adc := { s.adc with calQueue := [n] } } else s

/-- Input 9 was read in a scan or reference-check slot (R373): a drift of more than 10 °C sets SD_DRIFT, and while AUTO is 1 the
converters calibrate. -/
def tempRead (v : Int) (s : State) : State :=
  let s := { s with adc := { s.adc with temp := Config.lodgeTemp v } }
  let d := s.adc.temp - signed 16 (s.rdN Reg.ADC_CAL_TEMP)
  if d.natAbs ≤ 160 then s
  else
    let s := s.setBit Reg.ADC_CAL_STATUS 12 true
    if s.bit Reg.ADC_CAL_CTRL 2 then icCalStart s else s

/-- One more result of a system calibration (R375). -/
def sysAdd (v : Ratio) (unusable : Bool) (s : State) : State :=
  { s with adc := { s.adc with syscal := s.adc.syscal.map (fun (x : SysCal) =>
    if 0 < x.skip then { x with skip := x.skip - 1 }
    else if 16 ≤ x.count then x
    else { x with count := x.count + 1, sum := x.sum.add v, bad := x.bad || unusable }) } }

/-- Usable energy of the Lodge store in µJ at a voltage in mV (22, R460). -/
def storeEnergy (s : State) (mv : Nat) : Nat := s.rdN Reg.HLD_C_UF * (mv * mv - 81000000) / 2000000

/-- A reading of the Lodge store (22, R460, R461); CHARGED follows the same threshold (log entry 99). -/
def holdupRead (w : Word) (s : State) : State :=
  if wordFlag w 0 || wordFlag w 1 then s
  else
    let mv := (⟨wordValue w * 40000, 8388608⟩ : Ratio).round.toNat
    let s := (s.putN Reg.HLD_VSTORE mv).putN Reg.HLD_E_AVAIL_UJ (storeEnergy s mv)
    (s.setBit Reg.HLD_STATUS 0 (decide (23000 ≤ mv))).setBit Reg.HLD_STATUS 3 (decide (mv < 23000))

/-- A conversion ends: its result goes where its use says (R363 to R374). -/
def convDone (n : Nat) (v : Conv) (nv : Int) (s : State) : State :=
  let w := icWord s n v nv
  let (raw, above) := icRaw v.input nv
  let tb := v.stop / 640
  match v.use with
  | .own =>
    (match (s.ic n).slot with
      | none => s
      | some sl =>
        let s := slotResult n sl w s
        if v.input = 9 ∧ sl.step.isSome then tempRead (wordValue w) s else s)
  | .urgent who =>
    let s := s.putN (Reg.ADC_IC_RES n) (w.toNat + 2 ^ 32 * (tb % 2 ^ 32))
    (match who with
      | .pf => (s.putN Reg.ADC_URG_RES (w.toNat + 2 ^ 32 * (tb % 2 ^ 32))).putN Reg.ADC_URG_STATUS (65536 * n)
      | .panelTh => { s with adc := { s.adc with urgDone := mput s.adc.urgDone 0 w } }
      | .panelVcom z => { s with adc := { s.adc with urgDone := mput s.adc.urgDone (3 + z) w } }
      | .holdup => holdupRead w s)
  | .cal k =>
    (match (s.ic n).cal with
      | none => s
      | some (_, off, pos) =>
        if k = 0 then s.updIc n (fun c => { c with cal := some (1, raw, pos) })
        else if k = 1 then s.updIc n (fun c => { c with cal := some (2, off, raw) })
        else icCalDone n off pos raw s)
  | .ref => refDone n (sysApply s (sysKey true n 10 0) (icSelf (s.ic n) raw)) (s.updIc n (fun c => { c with refDue := false }))
  | .sys => sysAdd (icSelf (s.ic n) raw) above s

/-- The next event of a converter, its conversion's end or its slot's, once its time has come (R363 to R366). -/
def icEvent (n : Nat) (nv : Int) (s : State) : State :=
  let c := s.ic n
  let due := fun (t : Nat) => decide (t / 640 ≤ s.tb)
  match c.conv, c.slot with
  | some v, sl =>
    let first := match sl with | some x => decide (v.stop ≤ x.stop) | none => true
    if first then
      if !due v.stop then s
      else
        let s := convDone n v nv (s.updIc n (fun c => { c with conv := none }))
        let s := match sl with
          | some x =>
            if v.use ≠ .own ∧ x.stop = v.stop then turnSlot n v.stop (missSlot n s)
            else if v.use = .own then turnSlot n v.stop s
            else fill n v.stop s
          | none => if s.adc.joint then fill n v.stop s else turnSlot n v.stop s
        if !s.adc.calQueue.isEmpty || s.adc.joint || !c.cal.isNone then nextCal v.stop s else s
    else (match sl with
      | some x => if due x.stop then openSlot n x.stop (missSlot n s) else s
      | none => s)
  | none, some x => if due x.stop then turnSlot n x.stop (missSlot n s) else s
  | none, none => s

/-- The safe point of the integrating group (R364, R379): a commit in flight is applied and every converter starts afresh. -/
def icSafe (at_ : Nat) (s : State) : State :=
  if s.inflight.any (fun c => c.1 == Reg.ADC_IC_COMMIT) then
    restartIcs at_ (commitApply { s with adc := { s.adc with again := false } } Reg.ADC_IC_COMMIT)
  else if s.adc.again then restartIcs at_ { s with adc := { s.adc with again := false } }
  else s

end Sys2Proof.Machine
end

