-- ==== Sys2Proof/Machine/OpsDec.lean ====
section
/-! DEFINITION. The decimation chain (18): responses, stages, marking, synchronisation, and gains of the ΣΔ channels (17). -/

namespace Sys2Proof.Machine

/-! ### Responses (Table DEC-1) -/

/-- Decimation in MOD cycles. -/
def decRatio (resp : Nat) : Nat := [64, 256, 512, 1024, 2048, 256, 1024, 16].getD resp 64

/-- Settle count S. -/
def settleCount (resp : Nat) : Nat := [3, 6, 9, 12, 14, 4, 16, 0].getD resp 0

namespace State
/-- A channel of the chain. -/
def dch (s : State) (ch : Nat) : DecCh := mgetD s.dec.chs {} ch
/-- Change a channel of the chain. -/
def updDch (s : State) (ch : Nat) (f : DecCh → DecCh) : State := { s with dec := { s.dec with chs := mputD s.dec.chs {} ch (f (s.dch ch)) } }
end State

/-- RESP of a channel. -/
def respOf (s : State) (ch : Nat) : Nat := s.fld (Reg.DEC_CFG ch) 0 3
/-- EN of a channel. -/
def decEn (s : State) (ch : Nat) : Bool := s.bit (Reg.DEC_CFG ch) 11
/-- SHARED mode. -/
def decShared (s : State) : Bool := s.bit Reg.DEC_MODE 0
/-- A ΣΔ channel is retired. -/
def sdRetired (s : State) (ch : Nat) : Bool := s.bit (Reg.ADC_SD_STATUS ch) 4
/-- Gain code in force. -/
def gainOf (s : State) (ch : Nat) : Nat := s.fld (Reg.ADC_SD_STATUS ch) 0 3

/-- The end of a channel's next output (R383). -/
def decDue (s : State) (ch : Nat) : Nat :=
  let r := decRatio (respOf s ch)
  s.dec.origin + 50 * (((s.dch ch).seq + 1) * r + (if decShared s then ch * r / 8 else 0))

/-- Mark the next S outputs of an enabled channel (R386, R387). -/
def unsettle (ch : Nat) (s : State) : State :=
  if decEn s ch then s.setFld (Reg.DEC_CH_STATUS ch) 0 5 (settleCount (respOf s ch)) else s

/-- A gain change takes effect (17, R376); a voltage channel and AUX have gain 1 only, and codes 6 and 7 name no gain
(Table ADC-1, Table ADC-9). -/
def changeGain (ch g : Nat) (s : State) : State :=
  if gainOf s ch = g ∨ 5 < g ∨ ch < 3 ∨ ch = 7 then s
  else (unsettle ch ((s.setFld (Reg.ADC_SD_STATUS ch) 0 3 g).bump Reg.ADC_RANGE_CHG)).updDch ch (fun c => { c with byGain := true })

/-- Apply the part of a commit in flight whose cells satisfy a test. -/
def commitPart (s : State) (commit : Nat) (p : Nat → Bool) : State :=
  match s.inflight.find? (fun c => c.1 == commit) with
  | none => s
  | some c =>
    let rest := c.2.filter (fun x => !p x.1)
    let s := (c.2.filter (fun x => p x.1)).foldl applyCell s
    { s with inflight := s.inflight.filter (fun d => d.1 != commit) ++ (if rest.isEmpty then [] else [(commit, rest)]) }

/-- The safe point of a channel's ΣΔ configuration (R376, R385). -/
def applySd (ch : Nat) (s : State) : State :=
  let a := Reg.ADC_SD_CFG ch
  match s.inflight.find? (fun c => c.1 == Reg.ADC_SD_COMMIT) with
  | none => s
  | some c =>
    if !c.2.any (fun x => x.1 == a) then s
    else
      let sel := s.fld a 4 2
      let s := commitPart s Reg.ADC_SD_COMMIT (· == a)
      let s := if s.fld a 4 2 = sel then s else unsettle ch s
      changeGain ch (s.fld a 0 3) s

/-! ### Capture (R393) -/

/-- A capture ends. -/
def capEnd (trunc : Bool) (s : State) : State :=
  if s.bit Reg.DEC_CAP_CTRL 9 then ((s.setBit Reg.DEC_CAP_CTRL 9 false).setBit Reg.DEC_CAP_CTRL 10 true).setBit Reg.DEC_CAP_CTRL 11 trunc else s

/-- The enabled channels of the capture mask. -/
def capChans (s : State) : List Nat := (List.range 8).filter (fun ch => s.bit Reg.DEC_CAP_CTRL ch && decEn s ch)

/-- Store an output of a captured channel. -/
def capStore (ch : Nat) (w : Word) (s : State) : State :=
  let l := capChans s
  if !s.bit Reg.DEC_CAP_CTRL 9 || !l.contains ch then s
  else
    let n := 8192 / l.length
    let k := mgetD s.dec.capGot 0 ch
    if n ≤ k then s
    else
      let s := { s with dec := { s.dec with
        cap := mputD s.dec.cap 0 (k * l.length + l.idxOf ch) w, capGot := mput s.dec.capGot ch (k + 1) } }
      if l.all (fun c => n ≤ mgetD s.dec.capGot 0 c) then capEnd false s else s

/-! ### Synchronisation (R388) -/

/-- A stepping sync instant: outputs in progress are abandoned, filters cleared, SEQ restarts and outputs are marked. -/
def decStep (at_ : Nat) (s : State) : State :=
  let s := { s with dec := { s.dec with origin := at_ } }
  let s := (List.range 8).foldl (fun (s : State) ch => unsettle ch (s.updDch ch (fun c => { c with
    seq := 0, winLen := 0, winOnes := 0, ovrSpan := false, byGain := false, taps := [], fir := [] }))) s
  capEnd true s

/-- The first MOD edge from an instant on. -/
def modEdge (t : Nat) : Nat := cdiv t 50 * 50

/-- The chain starts at a Lodge power-up, after the ΣΔ self-calibration, as a stepping sync instant (R395). -/
def decStart (s : State) : State :=
  if !s.dec.stopped then s
  else
    let at_ := modEdge (pll s)
    let s := (s.putN Reg.DEC_SYNC_TB (at_ / 640)).putN Reg.DEC_SYNC_FRAC (at_ % 640)
    (decStep at_ { s with dec := { s.dec with stopped := false } }).bump Reg.DEC_SYNC_STEPS

/-- A synchronisation takes effect, aligned or stepping. -/
def decSync (at_ : Nat) (s : State) : State :=
  let r := 50 * decRatio (respOf s 0)
  let s := (s.putN Reg.DEC_SYNC_TB (at_ / 640)).putN Reg.DEC_SYNC_FRAC (at_ % 640)
  if decEn s 0 && decide (s.dec.origin < at_) && (at_ - s.dec.origin) % r == 0 then (capEnd true s).bump Reg.DEC_SYNC_ALIGNED
  else (decStep at_ s).bump Reg.DEC_SYNC_STEPS

end Sys2Proof.Machine
end

