-- ==== Sys2Proof/Machine/OpsMtr.lean ====
section
/-! DEFINITION. The metering engine (19): modes, per-cycle quantities, energy, CF pulses, harmonics and calibration arithmetic.
Samples are in 1/256 LSB of the converter result; quantities of a cycle are in µV, µA, µW, µvar and µVA. -/

namespace Sys2Proof.Machine

/-! ### Modes (Table MTR-1) -/

/-- MODE in force. -/
def mtrMode (s : State) : Nat := s.fld Reg.MTR_CFG 0 3
/-- An AC mode. -/
def mtrAc (s : State) : Bool := let m := mtrMode s; m == 1 || m == 2 || m == 3
/-- FREQ_VALID. -/
def freqValid (s : State) : Bool := s.bit Reg.MTR_STATUS 2
/-- The sled meter is enabled. -/
def sledMeterOn (s : State) : Bool := s.bit Reg.MTR_CFG 8

/-- Elements of a mode: element, voltage channel, current channel. -/
def mtrElems (mode : Nat) : List (Nat × Nat × Nat) :=
  match mode with
  | 1 => [(0, 0, 3), (1, 1, 4), (2, 2, 5)]
  | 2 => [(0, 0, 3), (2, 2, 5)]
  | 3 => [(0, 0, 3)]
  | 4 => [(0, 0, 3)]
  | _ => []

/-- Channels of a mode. -/
def mtrChans (mode : Nat) : List Nat :=
  match mode with
  | 1 => [0, 1, 2, 3, 4, 5, 6]
  | 2 => [0, 2, 3, 5]
  | 3 => [0, 3, 6]
  | 4 => [0, 3]
  | _ => []

/-- The response condition of R401. -/
def respFits (ac : Bool) (resp : Nat) : Bool := decide (1 ≤ resp ∧ resp ≤ 4) || (!ac && resp == 6)

/-- A channel serves its meter (R401, R412). -/
def chanServes (s : State) (ac : Bool) (ch : Nat) : Bool := decEn s ch && !sdRetired s ch && respFits ac (respOf s ch)

/-! ### Scales (R398) -/

/-- µV or µA of a primary value per 1/256 LSB of a ΣΔ channel. -/
def chScale (s : State) (ch : Nat) : Ratio :=
  let k := ratioOf (s.rdN (Reg.MTR_K ch))
  ⟨k.num * 625000, k.den * 2 ^ (gainOf s ch + 31)⟩

/-- µV per 1/256 LSB of a pair A word. -/
def sledScale (s : State) : Ratio :=
  let k := ratioOf (s.rdN Reg.MTR_SLED_KV)
  ⟨k.num * 2500000, k.den * 2 ^ 31⟩

/-- Root mean square, scaled, of a sum of squares. -/
def rmsOf (scale : Ratio) (sum n : Nat) : Nat :=
  if n = 0 then 0 else isqrt (scale.num.natAbs ^ 2 * sum / (scale.den ^ 2 * n)) 80 0

/-- Mean, scaled by two scales, of a sum of products, per million. -/
def meanOf (a b : Ratio) (sum : Int) (n : Nat) : Int :=
  if n = 0 then 0 else (⟨a.num * b.num * sum, a.den * b.den * n * 1000000⟩ : Ratio).round

/-- Sum of products of two lists of samples. -/
def dot : List Int → List Int → Int
  | a :: x, b :: y => a * b + dot x y
  | _, _ => 0

/-- Quantities of a cycle of 256 samples (R402); none of the reactive power while the frequency is not valid. -/
def acVals (sv si : Ratio) (v i tail : List Int) : MtrVal :=
  let u := rmsOf sv (dot v v).natAbs 256
  let c := rmsOf si (dot i i).natAbs 256
  { v := u, i := c, p := meanOf sv si (dot v i) 256, q := meanOf sv si (dot (tail ++ v.take 192) i) 256, s := (u * c + 500000) / 1000000 }

/-- Quantities of a cycle of decimated samples (R402). -/
def dcVals (sv si : Ratio) (a : MtrAcc) : MtrVal :=
  let p := meanOf sv si a.vi a.n
  { v := rmsOf sv a.vv a.n, i := rmsOf si a.ii a.n, p := p, s := p.natAbs }

/-! ### Value registers -/

/-- Micro-units to milli-units, rounded. -/
def milli (x : Int) : Int := (⟨x, 1000⟩ : Ratio).round

/-- Show a signed quantity. -/
def putVal (a : Nat) (x : Int) (s : State) : State := s.putN a (unsigned 32 x)

/-- Power factor in 1/10,000. -/
def pfOf (p : Int) (q : Nat) : Int := if q = 0 then 0 else (⟨p * 10000, q⟩ : Ratio).round

/-- Show an element's quantities (R403). -/
def showVals (p : Nat) (x : MtrVal) (withQ : Bool) (s : State) : State :=
  let s := putVal (Reg.MTR_VAL p 0) (milli x.v) (putVal (Reg.MTR_VAL p 1) (milli x.i) (putVal (Reg.MTR_VAL p 2) (milli x.p) s))
  let s := if withQ then putVal (Reg.MTR_VAL p 3) (milli x.q) s else s
  putVal (Reg.MTR_VAL p 4) (milli x.s) (putVal (Reg.MTR_VAL p 5) (pfOf x.p x.s) s)

/-! ### Energy (R404 to R406) -/

/-- One LSB of the energy registers, in µW times Lodge PLL cycles: 10^(EXP − 1) mWh. -/
def energyLsb (exp : Nat) : Nat := 230400000000000 * 10 ^ exp

/-- The register of an energy and its number in the remainders. -/
def energyReg (k : Nat) : Nat := if k < 20 then Reg.MTR_E (k / 5) (k % 5) else Reg.MTR_SLED_E (k - 20)

/-- Add energy to a register. -/
def addEnergy (k amount : Nat) (s : State) : State :=
  let lsb := energyLsb (s.fld Reg.MTR_CFG 4 2)
  let x := mgetD s.mtr.rem 0 k + amount
  ({ s with mtr := { s.mtr with rem := mputD s.mtr.rem 0 k (x % lsb) } }).bumpBy (energyReg k) (x / lsb)

/-- Accumulate a cycle's quantities of an element or the total (R404). -/
def addCycle (p : Nat) (x : MtrVal) (withQ : Bool) (len : Nat) (s : State) : State :=
  let s := addEnergy (5 * p + (if 0 ≤ x.p then 0 else 1)) (x.p.natAbs * len) s
  let s := if withQ then addEnergy (5 * p + (if 0 ≤ x.q then 2 else 3)) (x.q.natAbs * len) s else s
  addEnergy (5 * p + 4) (x.s * len) s

/-- A change of LSB_EXP rescales every register and remainder exactly (R405). -/
def rescale (old new : Nat) (s : State) : State :=
  (List.range 22).foldl (fun (s : State) k =>
    let a := energyReg k
    let total := s.rdN a * energyLsb old + mgetD s.mtr.rem 0 k
    ({ s with mtr := { s.mtr with rem := mputD s.mtr.rem 0 k (total % energyLsb new) } }).putN a (total / energyLsb new)) s

/-- Registers that the FRAM copy holds. -/
def energyCells : List Nat := (List.range 22).map energyReg ++ (List.range 3).map Reg.MTR_CF_CNT

/-- Write the energy registers to FRAM (R406). -/
def energyFlush (s : State) : State :=
  { s with mtr := { s.mtr with nvE := energyCells.foldl (fun m a => mputD m 0 a (s.rdN a)) [], nvRem := s.mtr.rem } }

/-- Read them back at Lodge power-up (R418). -/
def energyLoad (s : State) : State :=
  energyCells.foldl (fun (s : State) a => s.putN a (mgetD s.mtr.nvE 0 a)) { s with mtr := { s.mtr with rem := s.mtr.nvRem } }

/-- MTR_ECLR takes effect. -/
def energyClear (s : State) : State :=
  energyCells.foldl (fun (s : State) a => s.putN a 0) { s with mtr := { s.mtr with rem := [], clear := false } }

/-! ### CF pulses (R407, R408) -/

namespace State
/-- A CF output. -/
def cfo (s : State) (k : Nat) : CfOut := mgetD s.mtr.cf {} k
/-- Change a CF output. -/
def updCf (s : State) (k : Nat) (f : CfOut → CfOut) : State := { s with mtr := { s.mtr with cf := mputD s.mtr.cf {} k (f (s.cfo k)) } }
end State

/-- An output is low, and has been for 1 ms. -/
def cfFree (s : State) (k : Nat) : Bool :=
  let c := s.cfo k
  !c.high && (match c.fall with | some t => decide (t + 1000 ≤ s.tb) | none => true)

/-- Add to a backlog, which saturates. -/
def cfBacklog (k n : Nat) (s : State) : State :=
  let b := s.rdN (Reg.MTR_CF_BACKLOG k) + n
  if 65535 < b then (s.putN (Reg.MTR_CF_BACKLOG k) 65535).setBit Reg.MTR_STATUS 13 true else s.putN (Reg.MTR_CF_BACKLOG k) b

/-- Energy enters an accumulator, and pulses fall due: one waits for its emission where the output is free, the others go to the
backlog. -/
def cfAdd (k amount : Nat) (s : State) : State :=
  let c := s.rdN Reg.MTR_CF_CONST
  if !s.bit Reg.MTR_CFG 6 ∨ c = 0 then s
  else
    let step := 2304000000000000000000 / c
    let x := (s.cfo k).acc + amount
    let n := x / step
    let first := decide (0 < n) && cfFree s k && !(s.cfo k).due
    let s := s.updCf k (fun o => { o with acc := x % step, due := o.due || first })
    let n := if first then n - 1 else n
    if n = 0 then s else cfBacklog k n s

/-- Accumulate a cycle of the meter that CF counts; what its decimated samples gave already is not counted twice. -/
def cfCycle (x : MtrVal) (len : Nat) (s : State) : State :=
  let e := x.p.natAbs * len - s.mtr.cfSeen
  let s := { s with mtr := { s.mtr with cfSeen := 0 } }
  cfAdd 2 (x.s * len - (x.p.natAbs * len - e)) (cfAdd 1 (x.q.natAbs * len) (cfAdd 0 e s))

/-- The level of an output and its mirror on J6. -/
def cfPin (k : Nat) (high : Bool) (s : State) : State :=
  (s.emit (.pin ("CF" ++ toString (k + 1)) (b2n high))).emit (.pin ("CF" ++ toString (k + 1) ++ "_J6") (b2n high))

/-- CF_EN changes: accumulators start from 0; clearing it drops backlogs, and lets a pulse in progress finish. -/
def cfReset (s : State) : State :=
  (List.range 3).foldl (fun (s : State) k => (s.updCf k (fun c => { c with acc := 0, due := false })).putN (Reg.MTR_CF_BACKLOG k) 0)
    { s with mtr := { s.mtr with cfSeen := 0 } }

/-! ### Harmonics (R409) -/

/-- cos(2πk ÷ 256) for k from 0 to 64, in 2^-40. -/
def cosTable : List Int := [
  1099511627776, 1099180475430, 1098187217867, 1096532453388, 1094217178761, 1091242788621,
  1087611074629, 1083324224394, 1078384820155, 1072795837223, 1066560642194, 1059682990914,
  1052167026225, 1044017275463, 1035238647732, 1025836430950, 1015816288660, 1005184256622,
  993946739174, 982110505377, 969682684934, 956670763901, 943082580171, 928926318760,
  914210506869, 898944008753, 883136020380, 866796063891, 849933981865, 832559931389,
  814684377941, 796318089088, 777472127994, 758157846761, 738386879591, 718171135775,
  697522792521, 676454287619, 654978311948, 633107801833, 610855931251, 588236103898,
  565261945112, 541947293666, 518306193436, 494352884935, 470101796741, 445567536804,
  420764883643, 395708777449, 370414311084, 344896720990, 319171378006, 293253778120,
  267159533123, 240904361213, 214504077523, 187974584598, 161331862813, 134591960745,
  107770985514, 80885093070, 53950478471, 26983366121, 0]

/-- cos(2πk ÷ 256) in 2^-40. -/
def cosAt (k : Nat) : Int :=
  let k := k % 256
  if k ≤ 64 then cosTable.getD k 0 else if k ≤ 128 then -cosTable.getD (128 - k) 0
  else if k ≤ 192 then -cosTable.getD (k - 128) 0 else cosTable.getD (256 - k) 0

/-- The correlation of samples with a cosine of harmonic h, shifted by a number of samples. -/
def correlate (h shift : Nat) : List Int → Nat → Int
  | [], _ => 0
  | x :: r, n => x * cosAt (h * n + shift) + correlate h shift r (n + 1)

/-- |X_h|² of a cycle as an RMS value squared, in µV² or µA². -/
def harmSq (scale : Ratio) (x : List Int) (h : Nat) : Nat :=
  let re := correlate h 0 x 0
  let im := correlate h 64 x 0
  scale.num.natAbs ^ 2 * 2 * (re.natAbs ^ 2 + im.natAbs ^ 2) / (scale.den ^ 2 * 2 ^ 96)

/-- A fraction in 0.01%, as 16 bits. -/
def hundredths (x base : Nat) : Nat := if base = 0 then 0 else min 65535 ((10000 * x + base / 2) / base)

/-- The words of a channel in a published window. -/
def harmWords (sums : Map Nat) (ch n : Nat) : List Nat :=
  if n = 0 then []
  else
    let x := fun (h : Nat) => isqrt (mgetD sums 0 (64 * ch + h) / n) 80 0
    let thd := fun (top : Nat) => isqrt (sumOf ((List.range (top - 1)).map (· + 2)) (fun h => mgetD sums 0 (64 * ch + h)) / n) 80 0
    let x1 := x 1
    let f := fun (h : Nat) => hundredths (x h) x1
    [(milli x1).toNat] ++ (List.range 31).map (fun k => f (2 * (k + 1)) + 65536 * f (2 * (k + 1) + 1)) ++
      [hundredths (thd 40) x1 + 65536 * hundredths (thd 63) x1]

/-- Publish the window in progress. -/
def harmPublish (part : Bool) (s : State) : State :=
  match s.mtr.harm with
  | none => s
  | some w =>
    let out := (mtrChans (mtrMode s)).map (fun ch => (ch, harmWords w.sums ch w.usable))
    let s := { s with mtr := { s.mtr with harm := none, harmOut := out } }
    let s := s.putN (Reg.MTR_HARM_HDR 0) ((s.rdN (Reg.MTR_HARM_HDR 0) + 1) % 2 ^ 32)
    let s := s.putN (Reg.MTR_HARM_HDR 1) (s.rdN Reg.MTR_CFG_SEQ)
    let s := s.putN (Reg.MTR_HARM_HDR 2) (w.usable + 16 * b2n w.incomplete + 32 * b2n (w.usable == 0) + 64 * b2n part)
    s.putN Reg.MTR_HARM_TB w.start

/-- A word of MTR_HARM_DATA: the channel that MTR_HARM_SEL names in the last published window. -/
def harmWord (s : State) (k : Nat) : Nat := (mgetD s.mtr.harmOut [] (s.fld Reg.MTR_HARM_SEL 0 3)).getD k 0

/-- A cycle of an AC mode enters the window in progress; the first cycle of valid frequency starts the first window. -/
def harmCycle (start : Nat) (ok lost : Bool) (samples : List (List Int)) (s : State) : State :=
  match s.mtr.harm, lost with
  | none, true => s
  | w, _ =>
    let w : Harm := w.getD { start := start / 640 }
    let sums := if !ok || lost then w.sums
      else (mtrChans (mtrMode s)).foldl (fun (m : Map Nat) ch =>
        let x := samples.getD ch []
        ((List.range 63).map (· + 1)).foldl (fun (m : Map Nat) h => mputD m 0 (64 * ch + h) (mgetD m 0 (64 * ch + h) + harmSq (chScale s ch) x h)) m) w.sums
    let w : Harm := { w with
      cycles := w.cycles + 1, usable := w.usable + b2n (ok && !lost), incomplete := w.incomplete || !ok || lost, sums := sums }
    let s := { s with mtr := { s.mtr with harm := some w } }
    if (if s.bit Reg.MTR_CFG 3 then 12 else 10) ≤ w.cycles then
      let s := harmPublish false s
      if lost then s else { s with mtr := { s.mtr with harm := some { start := pll s / 640 } } }
    else s

/-! ### Events (R410) -/

/-- Write an event record, unless the ring is full. -/
def evtRecord (type phase cfgSeq start dur extreme : Nat) (s : State) : State :=
  let p := s.rdN Reg.MTR_EVT_PROD
  if (p + 2 ^ 32 - s.rdN Reg.MTR_EVT_CONS) % 2 ^ 32 < 64 then
    let i := p % 64
    let words := [type + 16 * phase, cfgSeq, start % 2 ^ 32, start / 2 ^ 32, dur, extreme, 0, 0]
    let s := (List.range 8).foldl (fun (s : State) j => s.putN (Reg.MTR_EVT i j) (words.getD j 0 % 2 ^ 32)) s
    s.putN Reg.MTR_EVT_PROD ((p + 1) % 2 ^ 32)
  else s.bump Reg.MTR_EVT_DROP

/-- mHz of a cycle length. -/
def freqOf (len : Nat) : Nat := if len = 0 then 0 else (640000000000 + len / 2) / len

/-- The frequency becomes valid or invalid (R399): it is recorded as an event of no length at the change, with the frequency last
measured. -/
def freqChange (valid : Bool) (len : Nat) (s : State) : State :=
  let s := s.setBit Reg.MTR_STATUS 2 valid
  let s := if valid then s else s.bump Reg.MTR_FREQ_LOSS
  evtRecord (if valid then 5 else 4) 3 (s.rdN Reg.MTR_CFG_SEQ) s.tb 0 (freqOf len) (s.putN Reg.MTR_FREQ (if valid then freqOf len else 0))

/-! ### Calibration arithmetic (R414, R415) -/

/-- atan(2^-i) of a turn, in 2^-48. -/
def atanTable : List Int := [
  35184372088832, 20770547670515, 10974586953444, 5570871696862, 2796246208089, 1399486241028,
  699913886760, 349978300884, 174991820497, 87496244017, 43748163730, 21874087080,
  10937044192, 5468522177, 2734261099, 1367130551, 683565276, 341782638,
  170891319, 85445659, 42722830, 21361415, 10680707, 5340354,
  2670177, 1335088, 667544, 333772, 166886, 83443,
  41722, 20861, 10430, 5215, 2608, 1304,
  652, 326, 163, 81, 41, 20,
  10, 5, 3, 1]

/-- Rotate a vector towards the positive x axis, adding up the angle. -/
def rotate (x y z : Int) : Nat → List Int → Int
  | _, [] => z
  | i, a :: r =>
    if 0 ≤ y then rotate (x + (⟨y, 2 ^ i⟩ : Ratio).round) (y - (⟨x, 2 ^ i⟩ : Ratio).round) (z + a) (i + 1) r
    else rotate (x - (⟨y, 2 ^ i⟩ : Ratio).round) (y + (⟨x, 2 ^ i⟩ : Ratio).round) (z - a) (i + 1) r

/-- The angle of a vector in turns, in 2^-48, from −1/2 to 1/2. -/
def angle (y x : Int) : Int :=
  if x = 0 ∧ y = 0 then 0
  else
    let y' := y * 2 ^ 60
    let x' := x * 2 ^ 60
    if 0 ≤ x then rotate x' y' 0 0 atanTable
    else if 0 ≤ y then rotate (-x') (-y') (2 ^ 47) 0 atanTable
    else rotate (-x') (-y') (-2 ^ 47) 0 atanTable

/-- The angle of a signed power factor in 1/10,000, in 2^-48 of a turn; positive for lagging current. -/
def pfAngle (pf : Int) : Int :=
  let c := min pf.natAbs 10000
  let s : Nat := isqrt ((10000 ^ 2 - c ^ 2) * 2 ^ 80) 60 0
  let a := angle (s : Int) ((c : Int) * 2 ^ 40)
  if pf < 0 then -a else a

end Sys2Proof.Machine
end

