-- ==== Sys2Proof/Machine/OpsNrg.lean ====
section
/-! DEFINITION. Energy attribution (20): estimates, charges, pacing and chassis overhead. Energies are in µJ. -/

namespace Sys2Proof.Machine

/-- The meters' energy in µJ: one LSB is 0.36 J times 10^EXP (19, R404). -/
def meterUj (s : State) (a : Nat) : Nat := s.rdN a * (360000 * 10 ^ s.fld Reg.MTR_CFG 4 2)

/-- The estimate of activity, in pJ (R420). -/
def estimate (s : State) (act : List Nat) : Ratio :=
  (List.range 7).foldl (fun e i => e.add ((ratioOf (s.rdN (Reg.NRG_COEF i))).mul (Ratio.ofInt (act.getD i 0 : Nat)))) ⟨0, 1⟩

/-- µJ of pJ, rounded down. -/
def floorUj (x : Ratio) : Nat := x.num.toNat / (x.den * 1000000)

/-- Activity of a slot in the second. -/
def slotAct (s : State) (slot : Nat) : List Nat :=
  (List.range 7).map (fun i => s.twRd slot (Reg.TW_NRG_ACT i) - (mgetD s.nrg.slotAt [] slot).getD i 0)

/-- A charge enters a tenant's registers (R421, R429). -/
def chargeSlot (slot c : Nat) (s : State) : State :=
  let above := (s.twRd slot Reg.TW_NRG_K).testBit 8
  let s := s.twBump slot Reg.TW_NRG_PERIOD_UJ c
  let s := s.twBump slot Reg.TW_NRG_TOTAL_UJ c
  let s := if above then s.twBump slot Reg.TW_NRG_OVER_UJ c else s
  (s.twPut slot Reg.TW_NRG_LAST_UJ (c % 2 ^ 32)).twPut slot Reg.TW_NRG_SEQ ((s.twRd slot Reg.TW_NRG_SEQ + 1) % 2 ^ 32)

/-- Pacing and exhaustion of a tenant after a charge (R428, R429). -/
def pace (slot c : Nat) (s : State) : State :=
  match s.ten slot with
  | none => s
  | some t =>
    if t.vec.energy = 0xFFFFFFFF then s
    else
      let b := s.twRd slot Reg.TW_NRG_BUDGET_J * 1000000
      let k := bits (s.twRd slot Reg.TW_NRG_K) 0 6
      let goal := s.twRd slot Reg.TW_NRG_PERIOD_UJ + c * (periodLeft s / 1000000)
      let step := s.fld Reg.NRG_PACE_STEP 0 5
      let k := if !s.bit Reg.NRG_CTRL 0 then k else if b < goal then min 60 (k + step) else if goal * 100 < 95 * b then k - step else k
      applyBudget slot (s.twPut slot Reg.TW_NRG_K (k + 256 * b2n ((s.twRd slot Reg.TW_NRG_K).testBit 8)))

/-- The ratio E_m ÷ D in 1/65,536, saturating; E_m in µJ and D in pJ. -/
def nrgRatio (em : Nat) (d : Ratio) : Nat :=
  if d.num ≤ 0 then 2 ^ 32 - 1 else min (2 ^ 32 - 1) (em * 1000000 * 65536 * d.den / d.num.toNat)

/-- The charges of a second (R421, R422, R424): what each estimate and share of held memory is charged, in order, what is
left for the device account, and the status bits. -/
def charges (s : State) (em : Nat) (list : List (Ratio × Nat)) (dev : Ratio) (available : Bool) : List Nat × Nat × Nat :=
  let d := list.foldl (fun x y => x.add y.1) dev
  let m : Ratio := ⟨(em * 1000000 : Nat), 1⟩
  if !available then
    let n := s.nrg.ratios.length
    let r : Ratio := if n = 0 then ⟨1, 1⟩ else ⟨(sumOf s.nrg.ratios id : Nat), 65536 * n⟩
    (list.map (fun x => floorUj (x.1.mul r)), floorUj (dev.mul r), 1)
  else if d.le m then
    let left := m.sub d
    let h := sumOf list (fun x => x.2)
    let share : Ratio := if h = 0 then ⟨0, 1⟩ else left.mul ⟨(s.fld Reg.NRG_STATIC_SHARE 0 7 : Nat), 64 * h⟩
    let l := list.map (fun x => floorUj (x.1.add (share.mul (Ratio.ofInt (x.2 : Nat)))))
    (l, em - sumOf l id, 0)
  else
    let l := list.map (fun x => floorUj ((x.1.mul m).div d))
    (l, em - sumOf l id, 2)

/-- The next second begins. -/
def nextSecond (s : State) : State :=
  { s with nrg := { s.nrg with
    actAt := s.nrg.act, slotAt := s.adm.tenants.map (fun t => (t.1, (List.range 7).map (fun i => s.twRd t.1 (Reg.TW_NRG_ACT i)))),
    area := [], gone := [], sledAt := meterUj s (Reg.MTR_SLED_E 0), feedAt := meterUj s (Reg.MTR_E 3 0), sledBad := false, feedBad := false } }

/-- The feed meter takes no part in a second: mode OFF or DC, or an element of the mode is unavailable (R431). -/
def feedOff (s : State) : Bool := !mtrAc s || (mtrElems (mtrMode s)).any (fun e => s.bit Reg.MTR_STATUS (6 + e.1))

/-- The sled meter gives nothing: it is unavailable, or the housekeeping link is down (R424, R434). -/
def sledOff (s : State) : Bool := s.bit Reg.MTR_STATUS 9 || !s.bit Reg.PWR_HK_STATUS 0

/-- Reconcile the second that has just ended (R421 to R424, R428). -/
def reconcile (s : State) : State :=
  let em := meterUj s (Reg.MTR_SLED_E 0) - s.nrg.sledAt
  let ok := !s.nrg.sledBad && !sledOff s
  let slots := s.adm.tenants.map (·.1)
  let list := slots.map (fun i => (estimate s (slotAct s i), mgetD s.nrg.area 0 i)) ++ s.nrg.gone.map (fun g => (estimate s g.1, g.2))
  let dev := estimate s ((List.range 7).map (fun i => s.nrg.act.getD i 0 - s.nrg.actAt.getD i 0))
  let (l, rest, st) := charges s em list dev ok
  let d := list.foldl (fun x y => x.add y.1) dev
  let ratio := nrgRatio em d
  let s := (s.setFld Reg.NRG_STATUS 0 2 st).bumpBy Reg.NRG_SLED_UJ em
  let s := if ok then { s.putN Reg.NRG_RATIO ratio with nrg := { s.nrg with ratios := ratio :: s.nrg.ratios.take 59 } } else s.bump Reg.NRG_UNREC_S
  let s := if st = 2 then s.bump Reg.NRG_SCALED_S else s
  let s := (slots.zip l).foldl (fun s x => chargeSlot x.1 x.2 s) s
  let s := s.bumpBy Reg.NRG_DEVICE_UJ rest
  let sec := s.tb / 1000000 - 1
  let w : NrgSecond := ⟨sec, (slots.zip l).map (fun x => (tenIdOf s x.1, x.2)), rest⟩
  let feed := meterUj s (Reg.MTR_E 3 0) - s.nrg.feedAt
  let s := { s with nrg := { s.nrg with
    tenantMj := sumOf (l.take slots.length) id / 1000, meterOk := ok, waiting := s.nrg.waiting ++ [w],
    own := if ok then (sec, em) :: s.nrg.own.take 3 else s.nrg.own,
    feed := if s.nrg.feedBad || feedOff s then s.nrg.feed else (sec, feed) :: s.nrg.feed.take 3 } }
  (slots.zip l).foldl (fun s x => pace x.1 x.2 s) (nextSecond s)
where
  /-- The tenant ID of a slot. -/
  tenIdOf (s : State) (slot : Nat) : Nat := ((s.ten slot).map (·.id)).getD 0

/-- Charge the overhead of a second (R432). -/
def applyOverhead (sec ratio : Nat) (s : State) : State :=
  match s.nrg.waiting.find? (fun w => w.sec % 2 ^ 32 == sec && decide (s.tb ≤ (w.sec + 1) * 1000000 + 2000000)) with
  | none => s
  | some w =>
    let s := { s with nrg := { s.nrg with waiting := s.nrg.waiting.filter (fun x => x.sec != w.sec) } }
    let s := w.tenants.foldl (fun (s : State) (x : Nat × Nat) => match s.slotOf x.1 with
      | some slot => s.twBump slot Reg.TW_NRG_OVH_UJ (x.2 * ratio / 65536)
      | none => s) s
    ((s.bumpBy Reg.NRG_DEVICE_OVH_UJ (w.device * ratio / 65536)).putN Reg.NRG_OVH_RATIO ratio).setBit Reg.NRG_STATUS 2 true

/-- A member's sled energy at a boundary, in µJ, from its snapshots, newest first (R431). -/
def snapAt (snaps : List (Nat × Nat)) (b : Nat) : Option Nat :=
  let before := snaps.find? (fun x => decide (x.1 ≤ b))
  let after := snaps.reverse.find? (fun x => decide (b ≤ x.1))
  let near := fun (x : Option (Nat × Nat)) => match x with | some y => decide (b ≤ y.1 + 100000 ∧ y.1 ≤ b + 100000) | none => false
  if !near before && !near after then none
  else match before, after with
    | some x, some y => some (if y.1 = x.1 then x.2 else x.2 + (y.2 - x.2) * (b - x.1) / (y.1 - x.1))
    | _, _ => none

/-- The overhead ratio of a second: ρ in 1/65,536, and whether the overhead came out negative; none where it is not computed. -/
def overheadOf (s : State) (sec : Nat) : Option (Nat × Bool) :=
  match s.nrg.feed.find? (fun f => f.1 == sec), s.nrg.own.find? (fun f => f.1 == sec) with
  | some (_, ef), some (_, em) =>
    let parts := (s.hie.members.filter (fun (m : Nat × Member) => m.1 != ownNode s)).map (fun (m : Nat × Member) =>
      match snapAt m.2.snaps (sec * 1000000), snapAt m.2.snaps ((sec + 1) * 1000000) with
      | some a, some b => if m.2.meterOk then some (b - a) else none
      | _, _ => none)
    if parts.any (fun x => x.isNone) then none
    else
      let sum := em + sumOf parts (fun x => x.getD 0)
      if ef < sum then some (0, true) else if sum = 0 then none else some (min (4 * 65536) ((ef - sum) * 65536 / sum), false)
  | _, _ => none

/-- The cells of the energy group. -/
def nrgGroup (a : Nat) : Bool := decide (Reg.NRG_PERIOD_S ≤ a ∧ a ≤ Reg.NRG_PACE_STEP) || decide (Reg.NRG_COEF 0 ≤ a ∧ a < Reg.NRG_COEF 7)

/-- ADM_CAP[0x08] follows the committed group (R427). -/
def showCap (s : State) : State := s.putN (Reg.ADM_CAP 8) (s.rdN Reg.NRG_ADMIT_W * s.rdN Reg.NRG_PERIOD_S)

/-- The registers that a read of TW_NRG_SEQ latches, as 32-bit words (R435). -/
def nrgWords (s : State) (slot : Nat) : List Word :=
  let w := fun (a k : Nat) => BitVec.ofNat 32 (s.twRd slot a / 2 ^ (32 * k))
  [w Reg.TW_NRG_SEQ 0, w Reg.TW_NRG_LAST_UJ 0, w Reg.TW_NRG_BUDGET_J 0, w Reg.TW_NRG_K 0] ++
    ([Reg.TW_NRG_PERIOD_UJ, Reg.TW_NRG_TOTAL_UJ, Reg.TW_NRG_OVH_UJ, Reg.TW_NRG_OVER_UJ] ++ (List.range 7).map Reg.TW_NRG_ACT).flatMap (fun a => [w a 0, w a 1])

end Sys2Proof.Machine
end

