-- ==== Sys2Proof/Machine/Converters.lean ====
section
/-! DEFINITION. Meanings of the commands of the converters (17). -/

namespace Sys2Proof.Machine

/-- IC_CONVERSION_END (R363 to R366): the mean differential input of the conversion, in nanovolts. -/
def execIcConversionEnd (n : Nat) (nv : Int) (s : State) : Out := onUnit (decide (n < 4)) (if s.hld.ph = .supplied then icEvent n nv s else s)

/-- SD_MODULATOR_CLIP (R358, R372). -/
def execSdModulatorClip (ch : Nat) (s : State) : Out :=
  let s1 := unsettle ch (s.bump (Reg.ADC_SD_RESETS ch))
  let s1 := if s1.adc.sdCal.isSome && !(s1.dch ch).ovrSpan && !s1.adc.sdClip.contains ch then
      { s1 with adc := { s1.adc with sdClip := s1.adc.sdClip ++ [ch] } } else s1
  onUnit (decide (ch < 8)) s1

/-- A converter that a request may name. -/
def urgUnit (conv : Option Nat) : Bool := match conv with | some n => decide (n < 4) | none => true

/-- ADC_URG_FINISH (R367, R369); a reserved period is ignored (Table ADC-3). -/
def execAdcUrgFinish (conv : Option Nat) (input period : Nat) (s : State) : Out :=
  onUnit (urgUnit conv && decide (input < 16)) (if 4 < period then s else urgFinish .pf conv input period s)

/-- ADC_URG_DROP (R368, R369). -/
def execAdcUrgDrop (conv : Option Nat) (input period : Nat) (s : State) : Out :=
  onUnit (urgUnit conv && decide (input < 16)) (if 4 < period then s else urgDrop .pf conv input period s)

/-- Cells of the ΣΔ group. -/
def sdGroup (a : Nat) : Bool := decide (Reg.ADC_SD_CFG 0 ≤ a ∧ a < Reg.ADC_SD_CFG 8)

/-- ADC_SD_COMMIT (R376): the values staged now are applied channel by channel at the next output boundary; a channel that the
chain does not run has none, and takes them at once. -/
def execAdcSdCommit (s : State) : Out :=
  let s := commitTake s Reg.ADC_SD_COMMIT sdGroup
  .next ((List.range 8).foldl (fun s ch => if decEn s ch then s else applySd ch s) s)

/-- Cells of the integrating group. -/
def icGroup (a : Nat) : Bool := a == Reg.ADC_IC_CFG || decide (Reg.ADC_SCAN 0 ≤ a ∧ a < Reg.ADC_SCAN 32)

/-- A staged cell of the integrating group names a reserved period. -/
def icReserved (c : Nat × DWord) : Bool :=
  let x := c.2.toNat
  if c.1 = Reg.ADC_IC_CFG then decide (4 < bits x 10 3) || decide (4 < bits x 13 3) else decide (4 < bits x 7 3)

/-- ADC_IC_COMMIT (R364); a group that names a reserved period is ignored (Table ADC-3). -/
def execAdcIcCommit (s : State) : Out :=
  if (stagedOf s icGroup).any icReserved then .next s else .next (commitTake s Reg.ADC_IC_COMMIT icGroup)

/-- A ΣΔ self-calibration starts (R370), unless one runs (R373). -/
def sdCalStart (s : State) : State :=
  if s.adc.sdCal.isSome then s else showCalBusy { s with adc := { s.adc with sdCal := some s.tb, sdClip := [] } }

/-- ADC_SD_CAL_START. -/
def execAdcSdCalStart (s : State) : Out := .next (sdCalStart s)

/-- The self-calibration of one channel has its two counts of ones (R370, R372). -/
def sdCalCh (zeros refs : List Nat) (s : State) (ch : Nat) : State :=
  if sdRetired s ch then s
  else
    let density := fun (ones : Nat) => (⟨2 * (ones : Int) - 24576, 24576⟩ : Ratio)
    let o := density (zeros.getD ch 0)
    let span := (density (refs.getD ch 0)).sub o
    let g := (⟨4, 5⟩ : Ratio).div span
    let bad := !o.abs.le ⟨1, 100⟩ || !((g.sub ⟨1, 1⟩).abs).le ⟨3, 100⟩ || s.adc.sdClip.contains ch
    if bad then checkFailed 8 ch o (span.div ⟨4, 5⟩) s
    else
      let s := checkPassed 8 ch s
      ({ s with adc := { s.adc with sdOff := mput s.adc.sdOff ch o, sdGain := mput s.adc.sdGain ch g, sdUncal := s.adc.sdUncal.filter (· != ch) } })

/-- SD_CAL_COMPLETE: ones counted over 24,576 MOD cycles on zero and on +REF, by channel. -/
def execSdCalComplete (zeros refs : List Nat) (s : State) : Out :=
  if s.adc.sdCal.isNone then .next s
  else
    let s := (List.range 8).foldl (sdCalCh zeros refs) { s with adc := { s.adc with sdCal := none } }
    let s := (s.putN Reg.ADC_CAL_TEMP (unsigned 16 s.adc.temp)).setBit Reg.ADC_CAL_STATUS 12 false
    .next (showCalBusy (decStart ((List.range 8).foldl (fun s ch => unsettle ch s) s)))

/-- ADC_IC_CAL_START (R371, R373). -/
def execAdcIcCalStart (s : State) : Out := .next (icCalStart s)

/-- REFERENCE_CHECK_TICK (R374): the next converter in rotation that is not retired. -/
def execReferenceCheckTick (s : State) : Out :=
  match ((List.range 4).map (fun k => (s.adc.refNext + k) % 4)).find? (fun n => !icRetired s n) with
  | none => .next s
  | some n =>
    let s := s.updIc n (fun c => { c with refDue := true })
    .next (if (s.ic n).slot.isNone then fill n (pll s) s else s)

/-- A phase of a system calibration starts (R375); one that runs keeps on. -/
def sysStart (full : Bool) (ic : Bool) (target input gain : Nat) (s : State) : State :=
  if s.bit Reg.ADC_SYSCAL_STATUS 0 then s
  else
    let key := sysKey ic target input gain
    let ref := signed 24 (s.rdN Reg.ADC_SYSCAL_REF)
    if (ic && decide (3 < target)) || (full && (!s.adc.zeroOk.contains key || decide (ref.natAbs < 2 ^ 21))) then
      s.putN Reg.ADC_SYSCAL_STATUS 6
    else
      let skip := if ic then 1 else settleCount (respOf s target)
      let s := (s.putN Reg.ADC_SYSCAL_STATUS 1)
      let s := { s with adc := { s.adc with syscal := some ⟨ic, target, input, gain, full, skip, 0, ⟨0, 1⟩, false⟩ } }
      if ic && (s.ic target).slot.isNone then fill target (pll s) s else s

/-- ADC_SYSCAL_ZERO. -/
def execAdcSyscalZero (ic : Bool) (target input gain : Nat) (s : State) : Out :=
  onUnit (decide (target < 8 ∧ input < 16)) (sysStart false ic target input gain s)

/-- ADC_SYSCAL_FULL. -/
def execAdcSyscalFull (ic : Bool) (target input gain : Nat) (s : State) : Out :=
  onUnit (decide (target < 8 ∧ input < 16)) (sysStart true ic target input gain s)

/-- SYSCAL_PHASE_COMPLETE, once 16 outputs are averaged. -/
def execSyscalPhaseComplete (s : State) : Out :=
  match s.adc.syscal with
  | none => .next s
  | some x =>
    if x.count < 16 then .next s
    else
      let key := sysKey x.ic x.unit x.input x.gain
      let (o, g) := (mget s.adc.sys key).getD (⟨0, 1⟩, ⟨1, 1⟩)
      let avg : Ratio := ⟨x.sum.num, 16 * x.sum.den⟩
      let (o, g) := if x.full then (o, (Ratio.ofInt (signed 24 (s.rdN Reg.ADC_SYSCAL_REF))).div (avg.sub o)) else (avg, g)
      let inLimits := if x.full then (⟨9, 10⟩ : Ratio).le g && g.le ⟨11, 10⟩ else o.abs.le ⟨2 ^ 20, 1⟩
      let result := if x.bad then 3 else if inLimits then 1 else 2
      let s := s.putN Reg.ADC_SYSCAL_STATUS (2 * result + 256 * unsigned 24 avg.round)
      let s := { s with adc := { s.adc with syscal := none } }
      if result ≠ 1 then .next s
      else .next { s with adc := { s.adc with
        sys := mput s.adc.sys key (o, g), zeroOk := if x.full || s.adc.zeroOk.contains key then s.adc.zeroOk else s.adc.zeroOk ++ [key] } }

/-- ADC_SYSCAL_SAVE: the Lodge tables in NOR are written. -/
def execAdcSyscalSave (key : Nat) (s : State) : Out :=
  if key = 0x5CA1 then .next (({ s with adc := { s.adc with saving := some s.adc.sys } }).putN Reg.ADC_SYSCAL_SAVE_STATUS 0) else .next s

/-- AUTORANGE_UP (R376), at an output boundary of the channel. -/
def execAutorangeUp (ch : Nat) (s : State) : Out :=
  let a := Reg.ADC_SD_CFG ch
  let g := gainOf s ch
  let ok := decide (3 ≤ ch ∧ ch < 7) && s.bit a 3 && decide (g < s.fld a 19 3) &&
    (match mget s.adc.low ch with | some t => decide (t + 1000000 ≤ s.tb) | none => false)
  onUnit (decide (ch < 8)) (if ok then changeGain ch (g + 1) { s with adc := { s.adc with low := mdel s.adc.low ch } } else s)

end Sys2Proof.Machine
end

