-- ==== Sys2Proof/Machine/HostPort.lean ====
section
/-! DEFINITION. Commands of the host interface (15): leases, stalls, reads, errors and function resets. -/

namespace Sys2Proof.Machine

/-! ### Leases (R318 to R321) -/

/-- TW_LEASE_WRITE (R318): any value; a PF tenant window renews the PF's lease. -/
def execTwLeaseWrite (f : Nat) (win : Option Nat) (_value : Word) (s : State) : Out :=
  onUnit (decide (f < 32)) (if reaches s f win then leaseWrite f s else s)

/-- TW_LEASE_PERIOD_WRITE (R318): a value outside 100 to 60,000 is ignored, and the lease is renewed. -/
def execTwLeasePeriodWrite (f : Nat) (win : Option Nat) (value : Word) (s : State) : Out :=
  onUnit (decide (f < 32)) (
    if reaches s f win then
      let v := bits value.toNat 0 16
      leaseWrite f (if 100 ≤ v ∧ v ≤ 60000 then s.fnPut f Reg.TW_LEASE_PERIOD v else s)
    else s)

/-- LEASE_EXPIRE (R319): the tenant attached through the VF is parked and its regions are revoked. -/
def execLeaseExpire (f : Nat) (s : State) : Out :=
  onUnit (decide (0 < f) && decide (f < 32)) (
    if leaseOver s f then
      (tenantsOf s f).foldl (fun s i => revokeRegions i (fun _ => true) (parkTenant i s)) (leaseGone f s)
    else s)

/-- PF_LEASE_EXPIRE (R320). -/
def execPfLeaseExpire (s : State) : Out :=
  .next (if leaseOver s 0 then enterHostAbsent (leaseGone 0 s) else s)

/-! ### Stalls (R324 to R326, R560) -/

/-- WRITE_STALL_TIMEOUT (R324). -/
def execWriteStallTimeout (f : Nat) (withheld : Bool) (s : State) : Out :=
  onUnit (decide (f < 32)) (writeStall f withheld s)

/-- WRITE_STALL_EXIT (R326). -/
def execWriteStallExit (f : Nat) (s : State) : Out := onUnit (decide (f < 32)) (stallExit f s)

/-- READ_STALL_TIMEOUT (R325). -/
def execReadStallTimeout (tag : Nat) (s : State) : Out :=
  .next (match s.hostReadOf tag with
    | some r => if r.since + 1000 * s.rdN Reg.HIF_STALL_TO ≤ s.tb then readStall r s else s
    | none => s)

/-- All the bytes of a read are there (R315): what waited for them goes on. -/
def readDone (r : HostRead) (bytes : List Nat) (s : State) : State :=
  let s := dropRead r.tag s
  match r.use with
  | .update => updProgram bytes (chargeDevice 6 r.len s)
  | .write id => accessPart id ⟨0, 0, 0⟩ ((hostIn r.slot r.len s).updFlight id (fun f => { f with data := some bytes }))
  | .turn id => tokensArrive id (tokensOf bytes) (hostIn r.slot r.len s)
  | .inject id => injectArrive id bytes (hostIn r.slot r.len s)

/-- DMA_READ_COMPLETE (R315): a function in a blocking state has sent no read, and takes no completion. -/
def execDmaReadComplete (tag : Nat) (data : List Nat) (s : State) : Out :=
  .next (match s.hostReadOf tag with
    | some r => if (s.fn r.fn).blocked ∨ data.length ≠ r.len then s else readDone r data s
    | none => s)

/-- UNEXPECTED_COMPLETION (R325, R327). -/
def execUnexpectedCompletion (f : Nat) (s : State) : Out :=
  onUnit (decide (f < 32)) (aer f 16 true (s.bump Reg.HIF_UNEXP_CPL))

/-! ### Errors of requests (R327, Table HIF-6) -/

/-- A ring access failed: the queue is in ERROR until its rings are committed again (09, Table QUE-1). -/
def ringError (slot q : Nat) (s : State) : State :=
  let k := s.que slot q
  if k.st = .active ∨ 0 < k.replaying then s.updQue slot q (fun k => { k with st := .error, replaying := 0 }) else s

/-- The function of a slot, for the error log. -/
def fnOf (s : State) (slot : Nat) : Nat := ((s.ten slot).bind (fun t => t.fn)).getD 0

/-- What an error ends with on a registered region. -/
def regionFault : Status := ⟨0x40, 0, 3⟩

/-- The region of a T3 move. -/
def moveRegion (s : State) (m : Move) : Nat :=
  if m.dst = 3 then m.dstLoc else ((s.obj m.slot m.obj).map (fun o => (o.page m.page).loc)).getD 64

/-- Regions that hold an address are revoked. -/
def revokeAt (slot iova : Nat) (s : State) : State :=
  revokeRegions slot (fun r => decide (r.base ≤ iova) && decide (iova < r.base + r.size)) s

/-- HOST_REQUEST_ERROR (R327): Unsupported Request or Completer Abort. -/
def execHostRequestError (acc : HostAccess) (s : State) : Out :=
  let s := s.bump Reg.HIF_UR_CA
  .next (match acc with
    | .read tag => match s.hostReadOf tag with
      | none => s
      | some r =>
        let s := aer r.fn 20 true (dropRead tag s)
        match r.use with
        | .turn id =>
          turnFail id ⟨0x43, 0, 0xFFFF⟩ (match s.flight id with | some f => ringError f.slot f.queue s | none => s)
        | .update => updEnd 2 regionFault s
        | .write id => finish id regionFault 0 (revokeAt r.slot r.iova s)
        | .inject id => finish id regionFault 0 (revokeAt r.slot r.iova s)
    | .move id => match s.move id with
      | none => s
      | some m =>
        let reg := moveRegion s m
        let hit := (s.ten m.slot).bind (fun t => mget t.regions reg)
        let s := failMove m regionFault (aer (fnOf s m.slot) 20 true s)
        revokeRegions m.slot (fun r => some r == hit) s
    | .ring slot q => ringError slot q (aer (fnOf s slot) 20 true s))

/-- POISONED_COMPLETION (R327): a T3 page is poisoned; a command fetch puts its queue in ERROR; another read ends its
operation (log entry 89). -/
def execPoisonedCompletion (acc : HostAccess) (s : State) : Out :=
  let s := s.bump Reg.HIF_POISON_RX
  .next (match acc with
    | .read tag => match s.hostReadOf tag with
      | none => s
      | some r => readFails r regionFault (aer r.fn 12 true (dropRead tag s))
    | .move id => match s.move id with
      | none => s
      | some m =>
        let s := aer (fnOf s m.slot) 12 true s
        if m.src = 3 then failMove m regionFault (poisonPage m.slot m.obj m.page s) else s
    | .ring slot q => ringError slot q (aer (fnOf s slot) 12 true s))

/-! ### MSI-X, power states and IDE -/

/-- MSIX_UNMASK (R312): the vector's pending message goes. -/
def execMsixUnmask (f vec : Nat) (s : State) : Out :=
  onUnit (decide (f < 32) && decide (vec < if f = 0 then 2048 else 64)) (
    sendPending f (s.updFn f (fun n => { n with unmasked := if n.unmasked.contains vec then n.unmasked else n.unmasked ++ [vec] })))

/-- BME_CLEAR (R331). -/
def execBmeClear (f : Nat) (s : State) : Out :=
  onUnit (decide (f < 32)) (s.updFn f (fun n => { n with bme := false }))

/-- D3HOT_ENTRY (R331). -/
def execD3hotEntry (f : Nat) (s : State) : Out :=
  onUnit (decide (f < 32)) (s.updFn f (fun n => { n with d3hot := true }))

/-- IDE_STREAM_INSECURE (R317): the functions in the stream's RID association range are blocked. -/
def execIdeStreamInsecure (stream first last : Nat) (s : State) : Out :=
  onUnit (decide (stream < 2) && decide (first < 32) && decide (last < 32)) (
    let s := s.bump Reg.HIF_IDE_FAIL
    let s := { s with hif := { s.hif with ideCover := mput s.hif.ideCover stream (first, last), ideLost := stream :: s.hif.ideLost.filter (· != stream) } }
    (List.range 32).foldl (fun s f => if first ≤ f ∧ f ≤ last then s.updFn f (fun n => { n with ideInsecure := true }) else s) s)

/-! ### Resets (R328, R329) -/

/-- VF_FLR (R328). -/
def execVfFlr (f : Nat) (s : State) : Out :=
  onUnit (decide (0 < f) && decide (f < 32)) (
    if f ≤ s.hif.vfs then (resetFn f s).bump Reg.HIF_FLR else s)

/-- VF_ENABLE_CLEAR (R328). -/
def execVfEnableClear (s : State) : Out := .next (clearVfs s)

/-- PF_FLR (R329). -/
def execPfFlr (s : State) : Out := .next ((resetPf s).bump Reg.HIF_FLR)

/-- What the link trained to (R307, Table HIF-8). -/
def linkTrained (speed width : Nat) (s : State) : State :=
  s.putN Reg.HIF_LINK_STATUS (speed + 8 * width + 256 * b2n (decide (speed = 6)) + 512 * b2n (decide (speed < 4 ∨ width < 8)) +
    1024 * s.fld Reg.HIF_LINK_STATUS 10 1)

/-- CONVENTIONAL_RESET (R329): as a PF FLR, and the link retrains. -/
def execConventionalReset (_kind speed width : Nat) (s : State) : Out :=
  onUnit (decide (speed < 7) && decide (width < 17)) (linkTrained speed width ((resetPf s).bump Reg.HIF_FLR))

end Sys2Proof.Machine
end

