-- ==== Sys2Proof/Machine/OpsPnl.lean ====
section
/-! DEFINITION. The status panel (21): images, waveform tables, rails, updates and the energy figures. -/

namespace Sys2Proof.Machine

/-! ### Images (R436, R450, R451) -/

/-- Decimal digits of a number, as characters. -/
def digits (x : Nat) : Nat → List Nat
  | 0 => []
  | n + 1 => digits (x / 10) n ++ [48 + x % 10]

/-- Hexadecimal digits of a number, as characters. -/
def hexDigits (x : Nat) : Nat → List Nat
  | 0 => []
  | n + 1 => hexDigits (x / 16) n ++ [if x % 16 < 10 then 48 + x % 16 else 55 + x % 16]

/-- Characters of a string. -/
def chars (t : String) : List Nat := t.toList.map (fun c => c.toNat)

/-- Characters padded with blanks to a width. -/
def pad (l : List Nat) (n : Nat) : List Nat := l.take n ++ List.replicate (n - l.length) 32

/-- Names of PWR_STATE (16, Table PWR-2), and OFF as 15. -/
def stateName (n : Nat) : String := if n = 15 then "OFF" else ["OFF", "STANDBY", "STARTING", "RUN", "QUIESCE", "SAFE"].getD n "OFF"

/-- The two lines of the status zone (Table PNL-5), from DEV_BUILD, node ID, state, RST_FAIL_INFO, retirement count, type and index of
the newest retirement, and firmware version (log entry 98). -/
def statusLine1 (f : List Nat) : List Nat :=
  let g := fun (i : Nat) => f.getD i 0
  let code := chars "ZT80-M" ++ digits (bits (g 0) 0 4) 1 ++ chars "L" ++ digits (bits (g 0) 4 4) 1 ++ chars (if bits (g 0) 8 4 = 1 then "-F16" else "-F32")
  let n := g 1
  let node := chars "NODE " ++ digits (bits n 10 5) 2 ++ chars "." ++ digits (bits n 4 6) 2 ++ chars "." ++ digits (bits n 0 4) 2
  let fi := g 3
  let fail := if bits fi 4 4 = 0 then [] else chars "F " ++ hexDigits (bits fi 0 4) 1 ++ chars "." ++ digits (bits fi 4 4) 1 ++ chars "." ++ hexDigits (bits fi 16 16) 4
  pad code 14 ++ pad node 14 ++ pad (chars (stateName (g 2))) 9 ++ pad fail 13

/-- See `statusLine1`. -/
def statusLine2 (f : List Nat) : List Nat :=
  let g := fun (i : Nat) => f.getD i 0
  let ret := chars "RET " ++ digits (g 4) 5
  let last := if g 4 = 0 then chars "LAST" else chars "LAST " ++ digits (g 5) 2 ++ chars " " ++ digits (g 6) 5
  pad ret 10 ++ pad last 27 ++ pad (chars "FW " ++ (if g 7 = 0 then chars "----" else hexDigits (g 7) 8)) 13

/-- Level of a pixel of a text line that starts at a row. -/
def textLevel (line : List Nat) (top x y : Nat) : Nat :=
  if (Config.glyph (line.getD (x / 8) 32) (y - top)).toNat.testBit (7 - x % 8) then 0 else 3

/-- Level of a pixel of a ground. -/
def Paint.level (b : Paint) (p : Nat) : Nat :=
  match b with
  | .flat n => n
  | .status f =>
    let y := p / 400
    if 4 ≤ y ∧ y < 20 then textLevel (statusLine1 f) 4 (p % 400) y
    else if 22 ≤ y ∧ y < 38 then textLevel (statusLine2 f) 22 (p % 400) y
    else 3
  | .page l => (Config.pagePixel l p).toNat

/-- Level of a pixel. -/
def Image.level (i : Image) (p : Nat) : Nat := mgetD i.px (i.base.level p) p

/-- First pixel and number of pixels of a zone (Table PNL-1). -/
def zonePixels (z : Nat) : Nat × Nat := if z = 0 then (0, 16000) else (16000, 104000)

/-- Numbers of pixels by 4 × PREV + NEXT. -/
def classCounts (z : Nat) (prev next : Image) : List Nat :=
  let (first, n) := zonePixels z
  let add := fun (l : List Nat) (c k : Nat) => l.set c (l.getD c 0 + k)
  let zero := List.replicate 16 0
  match prev.base, next.base with
  | .flat a, .flat b =>
    let odd := (prev.px.map (·.1) ++ next.px.map (·.1)).eraseDups
    odd.foldl (fun l p => add l (4 * prev.level p + next.level p) 1) (add zero (4 * a + b) (n - odd.length))
  | _, _ => (List.range n).foldl (fun l k => add l (4 * prev.level (first + k) + next.level (first + k)) 1) zero

/-! ### Waveform table set (Table PNL-3, R438) -/

/-- A byte of a table set held as words. -/
def wordsByte (m : Map Nat) (a : Nat) : Nat := bits (mgetD m 0 (a / 4)) (8 * (a % 4)) 8

/-- A byte of the factory set: lengths, checkpoints and energies as Table PNL-3 gives them. -/
def factoryByte (a : Nat) : Nat :=
  let ck := fun (len f : Nat) => b2n (decide (f < len) && (f % 4 == 3 || f + 1 == len))
  let ckByte := fun (m k : Nat) => sumOf (List.range 8) (fun i => ck ([38, 12, 38].getD m 0) (8 * k + i) * 2 ^ i)
  if a = 4 then 38 else if a = 5 then 12 else if a = 6 then 38
  else if 8 ≤ a ∧ a < 32 then ckByte ((a - 8) / 8) ((a - 8) % 8)
  else if a = 0x38 then 0xE8 else if a = 0x39 then 3
  else if 0x58 ≤ a ∧ a < 0x70 then (if a % 2 = 0 then 200 else 0)
  else (Config.factoryTable a).toNat

/-- A byte of a set, none for the factory set. -/
def setByte (t : Option (Map Nat)) (a : Nat) : Nat := match t with | some m => wordsByte m a | none => factoryByte a
/-- Little-endian fields of a set. -/
def setNum (t : Option (Map Nat)) (a n : Nat) : Nat := (List.range n).foldr (fun i x => setByte t (a + i) + 256 * x) 0
/-- LEN of a mode. -/
def waveLen (t : Option (Map Nat)) (m : Nat) : Nat := setByte t (4 + m)
/-- A frame is a balanced checkpoint. -/
def isCkpt (t : Option (Map Nat)) (m f : Nat) : Bool := (setByte t (8 + 8 * m + f / 8)).testBit (f % 8)
/-- A frame belongs to the balancing phase. -/
def isBal (t : Option (Map Nat)) (m f : Nat) : Bool := (setByte t (0x20 + 8 * m + f / 8)).testBit (f % 8)
/-- A drive code. -/
def waveCode (t : Option (Map Nat)) (m b prev next f : Nat) : Nat :=
  let e := ((b * 4 + prev) * 4 + next) * 64 + f
  bits (setByte t (0x80 + 3072 * m + e / 4)) (2 * (e % 4)) 2
/-- A drive code as the ledger counts it, under a phase (R439, R440). -/
def drive (t : Option (Map Nat)) (phase : Bool) (m b prev next f : Nat) : Int :=
  let c := waveCode t m b prev next f
  let x : Int := if c = 1 then 1 else if c = 2 then -1 else 0
  if phase && isBal t m f then -x else x

/-- A set is accepted (R438). -/
def setAccepted (t : Option (Map Nat)) : Bool :=
  let crc := crcBytes (setByte t) ((List.range (9344 - 0x40)).map (· + 0x40) ++ List.range 0x3C) 0xFFFFFFFF ^^^ 0xFFFFFFFF
  let frames := fun (m : Nat) => List.range (waveLen t m)
  let prefixes := fun (m b p n : Nat) (phase : Bool) =>
    (frames m).foldl (fun (x : Int × Bool) f =>
      let sum := x.1 + drive t phase m b p n f
      (sum, x.2 && (!isCkpt t m f || sum == 0))) (0, true)
  crc == setNum t 0x3C 4 &&
  (List.range 3).all (fun m =>
    let len := waveLen t m
    decide (4 ≤ len ∧ len ≤ 64) &&
    (List.range 64).all (fun f => decide (f < len) || (!isCkpt t m f && !isBal t m f)) &&
    isCkpt t m (len - 1) &&
    (List.range (len - 3)).all (fun f => (List.range 4).any (fun k => isCkpt t m (f + k))) &&
    (List.range 192).all (fun bpn =>
      let (b, p, n) := (bpn / 16, bpn / 4 % 4, bpn % 4)
      (frames m).all (fun f => waveCode t m b p n f != 3) && (prefixes m b p n false).2 && (prefixes m b p n true).2))

/-- The staged set PNL_TBL, by word. -/
def stagedSet (s : State) : Map Nat := (List.range 2336).foldl (fun m i => mputD m 0 i (s.rdN (Reg.PNL_TBL i))) []

/-! ### State of the panel -/

namespace State
/-- The image of a zone in NEXT. -/
def pnlNext (s : State) (z : Nat) : Image := mgetD s.pnl.next {} z
/-- The image of a zone in PREV. -/
def pnlPrev (s : State) (z : Nat) : Image := mgetD s.pnl.prev {} z
end State

/-- PREV_VALID of a zone. -/
def prevValid (s : State) (z : Nat) : Bool := s.bit Reg.PNL_STATUS (6 + z)
/-- The panel is retired. -/
def pnlRetired (s : State) : Bool := s.bit Reg.PNL_STATUS 9
/-- The panel is scanning. -/
def scanning (s : State) : Bool := s.pnl.run.any (fun u => u.2.driving)

/-- The frontlight (R453). -/
def showLight (s : State) : State :=
  let wake := s.pnl.wakeUntil.isSome
  let on := (s.bit Reg.PNL_FL 8 || wake) && s.bit Reg.PNL_STATUS 8 && !s.pnl.lost && !pnlRetired s
  let ma := if !on then 0 else if wake then s.fld Reg.PNL_FL_WAKE 0 8 else s.fld Reg.PNL_FL 0 8
  (s.setBit Reg.PNL_STATUS 11 on).emit (.pin "FRONTLIGHT" (min ma 200))

/-- Show the panel's state. -/
def showPnl (s : State) : State :=
  let up := s.pnl.rails == .up
  let s := (s.setBit Reg.PNL_STATUS 0 up).setBit Reg.PNL_STATUS 1 (scanning s)
  let s := (List.range 2).foldl (fun (s : State) z =>
    ((s.setBit Reg.PNL_STATUS (2 + z) (mget s.pnl.run z).isSome).setBit Reg.PNL_STATUS (4 + z) (mget s.pnl.pend z).isSome).setFld
      Reg.PNL_FRAME (8 * z) 6 (match mget s.pnl.run z with | some u => u.frame | none => 0)) s
  s

/-- A zone's PREV_VALID changes; CLEARED follows the first time both are 1 (R437, R453). -/
def setValid (z : Nat) (v : Bool) (s : State) : State :=
  let s := { s.setBit Reg.PNL_STATUS (6 + z) v with pnl := { s.pnl with clears := mdel s.pnl.clears z } }
  if v && prevValid s 0 && prevValid s 1 && !s.bit Reg.PNL_STATUS 8 then showLight (s.setBit Reg.PNL_STATUS 8 true) else s

/-- Status word of the last request or update of a zone. -/
def updStatus (z : Nat) (st : Status) (s : State) : State := s.putN (Reg.PNL_UPD_STATUS z) st.word.toNat

/-! ### Start of updates (R444, R448, R452) -/

/-- Temperature read at most 60 s ago. -/
def tempFresh (s : State) : Bool := match s.pnl.tempAt with | some t => decide (s.tb ≤ t + 60000000) | none => false

/-- Ask for the thermistor (R448, Table ADC-5). -/
def askTemp (s : State) : State :=
  urgFinish .panelTh (some 3) 8 4 { s with adc := { s.adc with urgDone := mdel s.adc.urgDone 0 } }

/-- An update begins on its way when nothing scans: with rails down, or with an old temperature, the thermistor is read first. -/
def wakePanel (s : State) : State :=
  match s.pnl.rails with
  | .down => if s.pnl.run.isEmpty || s.pnl.failAt.isSome then s else askTemp { s with pnl := { s.pnl with rails := .reading } }
  | .up => if tempFresh s || s.pnl.reading || scanning s then s else askTemp { s with pnl := { s.pnl with reading := true } }
  | _ => s

/-- The fields of the status zone. -/
def statusFields (s : State) (state : Nat) : List Nat :=
  let last := (s.flt.nor ++ s.flt.queue).reverse.find? (fun r => r.kind == 1)
  let (t, i) := match last with | some r => (r.type, r.unit) | none => (0, 0)
  [s.rdN Reg.DEV_BUILD, s.rdN Reg.LNK_NODE_ID % 65536, state, s.rdN Reg.RST_FAIL_INFO, s.flt.retCount, t, i, if s.fwDown then 0 else s.rdN Reg.FW_VERSION]

/-- Records of the default page: the 14 newest retirements. -/
def pageRecords (s : State) : List Nat := (((s.flt.nor ++ s.flt.queue).filter (fun r => r.kind == 1)).reverse.take 14).map (fun r => 65536 * r.type + r.unit)

/-- What a zone's NEXT shows when an update of it starts (R444, R450, R451). -/
def renderNext (z mode : Nat) (s : State) : State :=
  let put := fun (i : Image) => { s with pnl := { s.pnl with next := mput s.pnl.next z i } }
  if mode = 2 then put ⟨.flat 3, []⟩
  else if z = 0 then put ⟨.status (statusFields s (if s.pnl.lost then 15 else s.rdN Reg.PWR_STATE)), []⟩
  else if s.rdN Reg.PNL_BODY_OWN = 0 then put ⟨.page (pageRecords s), []⟩
  else s

/-- Compensation frames before an update (R452): of known residuals, else of the zone's ledger. -/
def compFrames (s : State) (z : Nat) : Nat :=
  match mget s.pnl.resid z with
  | some r => r.nets.foldl (fun n x => max n x.1.natAbs) 0
  | none =>
    let l := (signed 64 (s.rdN (Reg.PNL_LEDGER z))).natAbs
    let n := (zonePixels z).2
    if n ≤ 2 * l then min 3 ((2 * l + n) / (2 * n)) else 0

/-- Set a zone's common for a band (R449). -/
def setCommon (z band : Nat) (s : State) : State :=
  let c : Int := (setByte s.pnl.table (0x40 + 12 * z + band) : Nat) + signed 8 (s.fld Reg.PNL_CFG (8 * z) 8)
  { s with pnl := { s.pnl with codes := mput s.pnl.codes z (max 0 (min 225 c)).toNat } }

/-- Ask for the readback of a zone's common before frame 0 (R442). -/
def askCommon (z : Nat) (s : State) : State :=
  let n := s.rdN Reg.ADC_DROPCNT
  let s := urgDrop (.panelVcom z) none 14 4 { s with adc := { s.adc with urgDone := mdel s.adc.urgDone (3 + z) } }
  if s.rdN Reg.ADC_DROPCNT = n then { s with pnl := { s.pnl with checking := s.pnl.checking.filter (· != z) ++ [z] } } else s.bump Reg.PNL_VCOM_SKIP

/-! ### Driving (R439, R440, R445) -/

/-- Net drive of a zone's pixels in a frame of its update. -/
def frameSum (t : Option (Map Nat)) (u : PnlUpd) (f : Nat) : Int :=
  (List.range 16).foldl (fun (x : Int) c => x + drive t u.phase u.mode u.band (c / 4) (c % 4) f * (u.counts.getD c 0 : Nat)) 0

/-- Pixels driven in a frame of an update. -/
def frameCount (t : Option (Map Nat)) (u : PnlUpd) (f : Nat) : Nat :=
  sumOf (List.range 16) (fun c => if drive t u.phase u.mode u.band (c / 4) (c % 4) f = 0 then 0 else u.counts.getD c 0)

/-- Net drive and pixels driven of compensation frame k of a zone. -/
def compSum (s : State) (z k : Nat) : Int × Nat :=
  match mget s.pnl.resid z with
  | some r => r.nets.foldl (fun (x : Int × Nat) n =>
      if n.1.natAbs ≤ k then x else (x.1 + (if n.1 < 0 then (n.2 : Int) else -(n.2 : Int)), x.2 + n.2)) (0, 0)
  | none =>
    let l := signed 64 (s.rdN (Reg.PNL_LEDGER z))
    let n := (zonePixels z).2
    (if l < 0 then (n : Int) else -(n : Int), n)

/-- Add to a zone's ledger. -/
def ledgerSum (z : Nat) (x : Int) (s : State) : State :=
  s.putN (Reg.PNL_LEDGER z) (unsigned 64 (signed 64 (s.rdN (Reg.PNL_LEDGER z)) + x))

/-- Energy of a frame in units of 0.1 nJ, without E_BASE (R455): frame `k` of an update from where it stands, the compensation
frames first. -/
def frameEnergy (s : State) (z : Nat) (u : PnlUpd) (k : Nat) : Nat :=
  let t := s.pnl.table
  setNum t (0x58 + 2 * u.band) 2 *
    (if k < u.comp then (compSum s z (u.compDone + k)).2 else frameCount t u (u.frame + (k - u.comp)))

/-- E_BASE in µJ. -/
def frameBase (s : State) : Nat := setNum s.pnl.table 0x38 2

/-! ### Start of driving (R444; 22, R462) -/

/-- An update as it starts to drive; NEXT is rendered. -/
def begunUpdate (z : Nat) (u : PnlUpd) (s : State) : PnlUpd :=
  let prev := s.pnlPrev z
  let prev := if u.mode = 2 ∧ !prevValid s z then ⟨.flat 0, []⟩ else prev
  let all := classCounts z prev (s.pnlNext z)
  let counts := if u.mode = 1 then (List.range 16).map (fun c => if c / 4 = c % 4 then 0 else all.getD c 0) else all
  { u with
    driving := true, band := s.fld Reg.PNL_TEMP 16 4, phase := s.bit Reg.PNL_PHASE z, toggled := false, frame := 0, comp := compFrames s z,
    compDone := 0, counts := counts }

/-- E_fixed in µJ; at most 4 ledger records are appended in holdup (22, R466; log entry 101). -/
def holdupFixed (s : State) : Nat := 1000 + 3000 * min 4 s.flt.queue.length + 1500 + s.rdN Reg.HLD_RESERVE_UJ

/-- E_fixed and the guard of an update (22, R462). -/
def guardEnergy (s : State) (z : Nat) (u : PnlUpd) : Nat :=
  let most := (List.range (u.comp + waveLen s.pnl.table u.mode)).foldl (fun m k => max m (frameBase s + cdiv (frameEnergy s z u k) 10000)) 0
  holdupFixed s + s.rdN Reg.HLD_P_HOLD_MW * 80 + 4 * most

/-- An update of a zone completes (R437, R445): PREV takes NEXT, and the next of a series, or the pending update, takes the slot. -/
def completeUpdate (z : Nat) (u : PnlUpd) (s : State) : State :=
  let s := { s with pnl := { s.pnl with prev := mput s.pnl.prev z (s.pnlNext z), run := mdel s.pnl.run z } }
  let s := s.bump Reg.PNL_UPDATES
  let n := mgetD s.pnl.clears 0 z + 1
  let s := if u.mode = 2 ∧ !prevValid s z then
      (if 2 ≤ n then setValid z true s else { s with pnl := { s.pnl with clears := mput s.pnl.clears z n } }) else s
  match u.queue with
  | m :: r => { s with pnl := { s.pnl with run := mput s.pnl.run z { mode := m, queue := r, retried := u.retried } } }
  | [] =>
    let s := updStatus z (if u.retried then ⟨0x02, 0, 1⟩ else ⟨0, 0, 0⟩) s
    match mget s.pnl.pend z with
    | some m => { s with pnl := { s.pnl with run := mput s.pnl.run z { mode := m }, pend := mdel s.pnl.pend z } }
    | none => s

/-- An update selects no pixel: a PARTIAL one whose PREV and NEXT do not differ (R444). -/
def PnlUpd.selectsNone (u : PnlUpd) : Bool := u.counts.all (· == 0)

/-- The running slot of a zone starts to drive (R444), when the Lodge store can carry it; the OFF banner has its own check
(22, R468). -/
def startUpdate (z : Nat) (s : State) : State :=
  match mget s.pnl.run z with
  | none => s
  | some u =>
    if u.driving then s
    else
      let s := renderNext z u.mode s
      let v := begunUpdate z u s
      let put := fun (u : PnlUpd) (s : State) => { s with pnl := { s.pnl with run := mput s.pnl.run z u } }
      if !s.pnl.lost && decide (s.rdN Reg.HLD_E_AVAIL_UJ < guardEnergy s z v) then
        if u.waited then s else put { u with waited := true } (s.bump Reg.HLD_PANEL_WAIT)
      else
        let s := setCommon z v.band s
        if v.comp == 0 && v.selectsNone then completeUpdate z v s
        else put v (if u.asked || s.pnl.lost then s else askCommon z s)

/-! ### Completion and frames -/

/-- Net drive of each class of pixels after the frames driven so far. -/
def netsOf (t : Option (Map Nat)) (u : PnlUpd) : List (Int × Nat) :=
  (List.range 16).map (fun c =>
    ((List.range u.frame).foldl (fun (x : Int) f => x + drive t u.phase u.mode u.band (c / 4) (c % 4) f) 0, u.counts.getD c 0))

/-- An update stops anywhere but at its completion (R437): the zone's picture is no longer known, and residuals between checkpoints
are kept (R452), less what compensation has driven. -/
def cutUpdate (z : Nat) (u : PnlUpd) (s : State) : State :=
  let nets := (netsOf s.pnl.table u).filter (fun x => x.1 != 0 && x.2 != 0)
  let s := setValid z false s
  if !u.driving then s
  else if 0 < u.comp then { s with pnl := { s.pnl with resid := mupd s.pnl.resid z (fun r => ⟨r.nets.filterMap (fun n =>
      if n.1.natAbs ≤ u.compDone then none else some (if n.1 < 0 then n.1 + (u.compDone : Int) else n.1 - (u.compDone : Int), n.2))⟩) } }
  else { s with pnl := { s.pnl with resid := if nets.isEmpty then mdel s.pnl.resid z else mput s.pnl.resid z ⟨nets⟩ } }

/-- The frame that a zone's update was driving ends. -/
def endFrame (z : Nat) (s : State) : State :=
  match mget s.pnl.run z with
  | none => s
  | some u =>
    if !u.driving then s
    else if 0 < u.comp then
      let s := (ledgerSum z (compSum s z u.compDone).1 s).bump Reg.PNL_COMP_FRAMES
      let u := { u with comp := u.comp - 1, compDone := u.compDone + 1 }
      let s := { s with pnl := { s.pnl with run := mput s.pnl.run z u, resid := if u.comp = 0 then mdel s.pnl.resid z else s.pnl.resid } }
      if u.comp == 0 && u.selectsNone then completeUpdate z u s else s
    else
      let t := s.pnl.table
      let s := ledgerSum z (frameSum t u u.frame) s
      let ck := isCkpt t u.mode u.frame
      let s := if ck && !u.toggled then s.setBit Reg.PNL_PHASE z (!s.bit Reg.PNL_PHASE z) else s
      let u := { u with frame := u.frame + 1, toggled := u.toggled || ck }
      if waveLen t u.mode ≤ u.frame then completeUpdate z u s
      else if s.pnl.park && ck then
        let s := ((cutUpdate z u s).setBit Reg.PNL_STATUS 10 true).bump Reg.PNL_INTERRUPTS
        { s with pnl := { s.pnl with run := mdel s.pnl.run z, pend := mdel s.pnl.pend z, cut := s.pnl.cut ++ [z] } }
      else { s with pnl := { s.pnl with run := mput s.pnl.run z u } }

/-! ### Energy figures (R455) -/

/-- Frames an update still drives, and to its next checkpoint, the current one included. -/
def framesLeft (t : Option (Map Nat)) (u : PnlUpd) : Nat × Nat :=
  let len := waveLen t u.mode
  let left := len - u.frame
  let ck := ((List.range left).find? (fun k => isCkpt t u.mode (u.frame + k))).getD (left - 1)
  (u.comp + left, u.comp + ck + 1)

/-- Energy of frames of a zone's update, in units of 0.1 nJ, without E_BASE. -/
def updEnergy (s : State) (z : Nat) (u : PnlUpd) (n : Nat) : Nat := sumOf (List.range n) (frameEnergy s z u)

/-- Publish the figures. -/
def showEnergy (s : State) : State :=
  let t := s.pnl.table
  let l := s.pnl.run.filter (fun u => u.2.driving)
  let all := l.foldl (fun n u => max n (framesLeft t u.2).1) 0
  let ck := l.foldl (fun n u => max n (framesLeft t u.2).2) 0
  let base := frameBase s
  let fin := base * all + sumOf l (fun u => updEnergy s u.1 u.2 (framesLeft t u.2).1) / 10000
  let ckp := base * ck + sumOf l (fun u => updEnergy s u.1 u.2 (framesLeft t u.2).2) / 10000
  ((s.putN Reg.PNL_E_FINISH_UJ fin).putN Reg.PNL_E_CKPT_UJ ckp).putN Reg.PNL_CKPT_FRAMES ck

/-! ### Rail faults (R456) -/

/-- Every update of the panel ends with a status. -/
def endUpdates (st : Status) (s : State) : State :=
  let zs := (s.pnl.run.map (·.1) ++ s.pnl.pend.map (·.1)).eraseDups
  let s := zs.foldl (fun s z => updStatus z st s) s
  { s with pnl := { s.pnl with run := [], pend := [] } }

/-- Rails that are up fall. -/
def lowerRails (s : State) : State :=
  let n := match s.pnl.rails with | .rising n => n | .up => 5 | .falling n => n | _ => 0
  { s with pnl := { s.pnl with rails := if n = 0 then .down else .falling n, holdAt := none, reading := false, checking := [] } }

/-- Driving stops at once: running updates are cut. -/
def stopDriving (s : State) : State :=
  s.pnl.run.foldl (fun s x => cutUpdate x.1 x.2 s) s

/-- A failed rise or a rail fault (R456): one retry after 100 ms, and retirement when it fails. In holdup no energy is kept for a
retry (log entry 101). -/
def railFault (s : State) : State :=
  let again := s.pnl.retrying
  let s := showPnl (lowerRails (stopDriving (s.bump Reg.PNL_RAIL_FAIL)))
  if s.pnl.lost then showPnl { s with pnl := { s.pnl with run := [], pend := [] } }
  else if again then
    let s := endUpdates ⟨0x33, 0, 0⟩ s
    let s := { s with pnl := { s.pnl with failAt := none, retrying := false } }
    showPnl (showLight ((retire 10 0 1 [] s).setBit Reg.PNL_STATUS 9 true))
  else
    let again := s.pnl.run.map (fun (x : Nat × PnlUpd) => (x.1, ({ mode := 2, queue := 2 :: x.2.mode :: x.2.queue, retried := true } : PnlUpd)))
    { s with pnl := { s.pnl with run := again, failAt := some s.tb } }

/-- The panel block resets, its epoch having been old (R457). -/
def panelReset (old : Nat) (s : State) : State :=
  let s := lowerRails (stopDriving s)
  showPnl (endUpdates ⟨0x30, 0, old⟩ { s with pnl := { s.pnl with failAt := none, retrying := false } })

/-! ### Requests (R443, R450, R451, R458) -/

/-- An update takes the running or the pending slot of a zone. -/
def takeSlot (mode : Nat) (queue : List Nat) (s : State) (z : Nat) : State :=
  if (mget s.pnl.run z).isNone then { s with pnl := { s.pnl with run := mput s.pnl.run z { mode := mode, queue := queue } } }
  else { s with pnl := { s.pnl with pend := mput s.pnl.pend z mode } }

/-- Why a request is refused (Table PNL-6); none where it is not. Party 0 is the Lodge die, 1 firmware, 2 the host. -/
def updRefusal (party mode : Nat) (zones : List Nat) (s : State) : Option Nat :=
  if tempFresh s && decide (signed 16 (s.rdN Reg.PNL_TEMP) < 0) then some 1
  else if zones.any (fun z => if z = 0 then party != 0 else party != s.rdN Reg.PNL_BODY_OWN) then some 3
  else if pnlRetired s then some 4
  else if mode ≠ 2 ∧ zones.any (fun z => !prevValid s z) then some 5
  else if !s.pnl.tableOk ∨ 2 < mode then some 6
  else none

/-- A request of an update (R443). -/
def requestUpdate (party mode : Nat) (zones : List Nat) (s : State) : State :=
  let refuse := fun (st : Status) (s : State) => zones.foldl (fun s z => updStatus z st s) (s.bump Reg.PNL_REFUSED)
  match updRefusal party mode zones s with
  | some d => refuse ⟨0x22, 0, d⟩ (if d = 3 then s.bump Reg.PNL_FB_DENIED else s)
  | none =>
    if zones.any (fun z => (mget s.pnl.run z).isSome && (mget s.pnl.pend z).isSome) then refuse ⟨0x24, 0, 0⟩ s
    else showPnl (wakePanel (zones.foldl (takeSlot mode []) s))

/-- The status zone is redrawn (R450). -/
def redrawStatus (s : State) : State := requestUpdate 0 1 [0] s

/-- The status zone and the default page are redrawn after a ledger append (R450, R451). -/
def redrawLedger (s : State) : State :=
  let s := redrawStatus s
  if s.rdN Reg.PNL_BODY_OWN = 0 then requestUpdate 0 1 [1] s else s

/-- The cold panel sequence (R458): two CLEAR updates of both zones, then a FULL one; a body that the Lodge die does not own is left
blank. -/
def coldPanel (s : State) : State :=
  if pnlRetired s ∨ !s.pnl.tableOk then s
  else
    let s := { s with pnl := { s.pnl with pend := [] } }
    let s := (List.range 2).foldl (fun (s : State) z =>
      { s with pnl := { s.pnl with run := mput s.pnl.run z (match mget s.pnl.run z with
          | some u => { u with queue := [2, 2, 0] }
          | none => { mode := 2, queue := [2, 0] }) } }) s
    showPnl (wakePanel s)

/-- The temperature conversion that was asked for has its result (R448): PNL_TEMP, or the last reading while it is no older than
60 s. -/
def takeTemp (w : Word) (s : State) : State :=
  if wordFlag w 0 || wordFlag w 1 || wordFlag w 2 then s
  else
    let x := Config.thermistor (wordValue w)
    let band := if 880 ≤ x then 11 else (x / 80).toNat
    { s.putN Reg.PNL_TEMP (unsigned 16 x + 65536 * band) with pnl := { s.pnl with tempAt := some s.tb } }

/-- Updates that wait to start are refused for want of a usable temperature (Table PNL-6). -/
def refuseWaiting (d : Nat) (s : State) : State :=
  let zs := (s.pnl.run.filter (fun u => !u.2.driving)).map (·.1)
  let s := zs.foldl (fun s z => updStatus z ⟨0x22, 0, d⟩ (s.bump Reg.PNL_REFUSED)) s
  { s with pnl := { s.pnl with run := s.pnl.run.filter (fun u => u.2.driving), pend := s.pnl.pend.filter (fun p => !zs.contains p.1) } }

/-- After a reading: none usable within 60 s, or a temperature below 0 °C, refuses the waiting updates; the banner takes no
reading (R448, R468). -/
def judgeTemp (s : State) : State :=
  if s.pnl.lost then s
  else if !tempFresh s then refuseWaiting 2 s
  else if signed 16 (s.rdN Reg.PNL_TEMP) < 0 then refuseWaiting 1 s
  else s

/-- The panel configuration is applied (R449, R453). -/
def pnlApply (s : State) : State := showLight (commitApply s Reg.PNL_COMMIT)

end Sys2Proof.Machine
end

