-- ==== Sys2Proof/Machine/OpsFault.lean ====
section
/-! DEFINITION. Fault windows, hub die faults and quarantine (24). -/

namespace Sys2Proof.Machine

/-! ### Windows (R487) -/

/-- 24 h in µs. -/
def day : Nat := 86400000000

/-- TB `t` lies in a window of `w` that ends now. -/
def within (s : State) (w t : Nat) : Bool := decide (s.tb ≤ t + w)

/-! ### Hub die faults (R494) -/

/-- A hub die fault of a source of Table FW-8, with the status of its effect: log, ledger, count and notice; a third fault of
one source within 24 h asks for service. The block state of the record is not defined (Table FLT-7). -/
def hubFault (src : Nat) (st : Status) (s : State) : State :=
  let (state, s) := (List.range 5).foldl (fun (r : List Nat × State) _ => let (n, s) := r.2.draw; (r.1 ++ [n % 2 ^ 32], s)) ([], s)
  let s := (s.logRec 5 (256 * src + 1) [] 0xFFFF st.word).bump Reg.FLT_HUB_FAULTS
  let s := ledgerAdd (ledgerRec s 3 15 st.res src 0 0 (st.word.toNat :: state)) s
  let s := { s with flt := { s.flt with hub := (src, s.tb) :: s.flt.hub } }
  let s := if 3 ≤ (s.flt.hub.filter (fun h => h.1 == src && within s day h.2)).length then s.setBit Reg.FLT_STATUS 0 true else s
  pfNotice Reg.FLT_NOTICE 1 s

/-! ### Quarantine (R492, R502) -/

/-- Faults of a unit in the last 24 h, oldest first. -/
def faultsOf (s : State) (t i : Nat) : List Nat :=
  ((s.flt.faults.filter (fun f => f.1 == t && f.2.1 == i && within s day f.2.2)).map (·.2.2)).reverse

/-- Evidence of clusters, event cores and queue engines (Table FLT-7). -/
def unitEvidence (s : State) (t i slice : Nat) : List Nat :=
  let l := faultsOf s t i
  let first := l.head?.getD s.tb
  [first % 2 ^ 32, first / 2 ^ 32, l.length, slice]

/-- Waiting units take the free places of quarantine, two of each type. -/
def fillQuarantine (t : Nat) (s : State) : State :=
  let held := (s.flt.quarantined.filter (fun u => u.1 == t)).length
  let next := (s.flt.testing.filter (fun u => u.1 == t)).take (2 - held)
  let s := { s with flt := { s.flt with
    quarantined := s.flt.quarantined ++ next, testing := s.flt.testing.filter (fun u => !next.contains u) } }
  s.putN Reg.IST_QUAR s.flt.quarantined.length

/-- A unit is to have a targeted test: it is quarantined, or waits its turn. -/
def quarantine (t i : Nat) (s : State) : State :=
  if s.flt.retired.contains (t, i) || s.flt.quarantined.contains (t, i) || s.flt.testing.contains (t, i) then s
  else fillQuarantine t { s with flt := { s.flt with testing := s.flt.testing ++ [(t, i)] } }

/-- A unit is to be tested after a failing slice. -/
def noteSlice (t i slice : Nat) (s : State) : State := { s with flt := { s.flt with sliced := mput s.flt.sliced (1024 * t + i) slice } }

/-- A unit fault is counted in its window. -/
def noteFault (t i : Nat) (s : State) : State :=
  { s.bump Reg.FLT_UNIT_FAULTS with flt := { s.flt with faults := (t, i, s.tb) :: s.flt.faults } }

/-! ### The ledger in NOR (R495, R498, R499) -/

/-- Counts of the REPAIR and FAULT records among those discarded, by type, as the words of a COMPACT record. -/
def compactCounts (gone : List LedgerRec) : List Nat :=
  let n := fun (t : Nat) => min 65535 (gone.filter (fun r => (r.kind == 2 || r.kind == 3) && r.type == t)).length
  (List.range 6).map (fun k => n (2 * k) + 65536 * (if k = 5 then n 15 else n (2 * k + 1)))

/-- The ledger is compacted into the other bank: RETIRE records and the newest 256 others stay, with a COMPACT record. -/
def compact (s : State) : State :=
  let others := s.flt.nor.filter (fun r => r.kind != 1)
  let gone := others.take (others.length - 256)
  let i := s.rdN Reg.FLT_LDG_NEXT
  let r := { ledgerRec s 15 0 0 0 0 0 (compactCounts gone) with index := i }
  let s := { s with flt := { s.flt with nor := s.flt.nor.filter (fun x => !gone.contains x) ++ [r], generation := s.flt.generation + 1 } }
  pfNotice Reg.FLT_NOTICE 2 ((s.putN Reg.FLT_LDG_NEXT ((i + 1) % 2 ^ 32)).bump Reg.FLT_LDG_COMPACTIONS)

/-- The record at the head of the queue is programmed, and RETIRE records that waited take the entry that it frees. -/
def programHead (s : State) : State :=
  match s.flt.queue with
  | [] => s
  | r :: q =>
    let i := s.rdN Reg.FLT_LDG_NEXT
    let n := 16 - q.length
    let q := q.takeWhile (fun x => x.kind == 1) ++ s.flt.late.take n ++ q.dropWhile (fun x => x.kind == 1)
    let s := { s with flt := { s.flt with queue := q, late := s.flt.late.drop n, nor := s.flt.nor ++ [{ r with index := i }] } }
    let s := showQueued (s.putN Reg.FLT_LDG_NEXT ((i + 1) % 2 ^ 32))
    if 3687 ≤ s.flt.nor.length then compact s else s

/-- What follows a record in NOR (Table FLT-4, step 6; R285): the panel is drawn again, a retirement is told, and the manager
gets the record. -/
def recordTold (s : State) : State :=
  match s.flt.nor.reverse.find? (fun r => r.kind != 15) with
  | none => s
  | some r =>
    let s := redrawLedger s
    let s := if r.kind ≠ 1 then s
      else
        let d := if r.type = 2 then 8 * r.unit else if r.type = 6 then r.unit / 4 else r.unit
        let s := s.logRec 4 0x0F01 [r.type, r.unit] r.unit (Status.word ⟨0x33, r.res, d⟩)
        pfNotice Reg.FLT_NOTICE 0 (s.traceRec 7 0xF r.unit [r.res, r.unit])
    forwardRec s r

end Sys2Proof.Machine
end

