-- ==== Sys2Proof/Machine/OpsReset.lean ====
section
/-! DEFINITION. Resets of units with their parts, their spacing, and the resets of Lodge blocks (16, R351 to R353; 17, R379;
18, R394; 19, R417; 21, R457; 22, R471). -/

namespace Sys2Proof.Machine

/-! ### Lodge blocks -/

/-- The converters (R379): what runs is abandoned and its slots yield MISSING words; urgent requests end with the old epoch; the
scan and the pairs restart at the next safe point. -/
def adcReset (s : State) : State :=
  let s := (List.range 4).foldl (fun s n =>
    let c := s.ic n
    let held := c.urg.map (fun (u : Urg) => u.who)
    let running := match c.conv with | some v => (match v.use with | .urgent who => some who | _ => none) | none => none
    let s := match held with | some who => urgAnswer who 0x30 n s | none => s
    let s := match running with | some who => urgAnswer who 0x30 n s | none => s
    s.updIc n (fun c => { c with conv := none, urg := none, cal := none, refDue := false })) s
  let s := if s.adc.syscal.isSome then s.putN Reg.ADC_SYSCAL_STATUS 0 else s
  showCalBusy { s with adc := { s.adc with calQueue := [], joint := false, sdCal := none, sdClip := [], syscal := none, again := true } }

/-- The decimation chain (R394): it restarts at the first MOD edge after the reset (log entry 91). -/
def decReset (s : State) : State :=
  let edge := cdiv (640 * (s.tb + 1000)) 50 * 50
  ((decStep edge s).bump Reg.DEC_SYNC_STEPS).putN Reg.DEC_SYNC_TB (edge / 640) |>.putN Reg.DEC_SYNC_FRAC (edge % 640)

/-- The metering engine (R417): the cycle in progress is held, and a procedure in progress ends. -/
def mtrReset (s : State) : State :=
  let s := if s.mtr.cal.isSome then s.putN Reg.MTR_CAL_STATUS 0x3000 else s
  { s with mtr := { s.mtr with lost := true, cal := none } }

/-- The request that refreshes HLD_VSTORE (22, R461; 17, Table ADC-5). -/
def holdupRefresh (s : State) : State := urgFinish .holdup (some 2) 13 4 s

/-- The effect of a reset of a Lodge block, whose epoch was `old`; block 0 holds no work. -/
def lodgeReset (i old : Nat) (s : State) : State :=
  match i with
  | 1 => adcReset s
  | 2 => decReset s
  | 3 => mtrReset s
  | 4 => panelReset old s
  | 5 => holdupRefresh s
  | _ => s

/-! ### Units (R351 to R353) -/

/-- A unit resets now, a die with its parts, which are in reset as long as it (01, R36, R37); a part already in reset is
merged. -/
def resetNow (t i : Nat) (s : State) : State :=
  let s := (partsOf s t i).foldl (fun s u =>
    let s := if unitInReset s u.1 u.2 then s else resetOne u.1 u.2 s
    { s with rst := { s.rst with resetAt := mput s.rst.resetAt (unitKey u.1 u.2) (s.tb + resetTime t) } }) s
  let old := unitEpoch s t i
  let s := resetOne t i s
  if t = 7 then lodgeReset i old s else s

/-- A reset of a unit is asked for: merged while it is in reset, deferred until 1 ms after its last reset completed, else
performed (R351). -/
def resetUnit (t i : Nat) (s : State) : State :=
  let key := unitKey t i
  if unitInReset s t i || s.rst.deferred.contains key then s
  else
    match mget s.rst.resetAt key with
    | some done =>
      if s.tb < done + 1000 then { s with rst := { s.rst with deferred := s.rst.deferred ++ [key] } } else resetNow t i s
    | none => resetNow t i s

/-- A write of RST_UNIT by the PF (R353). -/
def rstUnit (t i key : Nat) (s : State) : State :=
  if key ≠ 0x7E57 then s
  else if unitAbsent s t i || unitRetired s t i || s.rdN Reg.PWR_STATE ≠ 3 || decide (s.tb < s.rst.busyUntil) then s.setBit Reg.RST_UNIT_STATUS 1 true
  else
    let s := resetUnit t i s
    let done := mgetD s.rst.resetAt s.tb (unitKey t i)
    let until_ := if s.rst.deferred.contains (unitKey t i) then done + 1000 + resetTime t else done
    { s with rst := { s.rst with busyUntil := until_ } }

end Sys2Proof.Machine
end

