-- ==== Sys2Proof/Machine/OpsStart.lean ====
section
/-! DEFINITION. Starts of the sled (16): what a start loses and keeps, its steps, its failures, and SAFE. -/

namespace Sys2Proof.Machine

/-! ### Registers at a start (00, R551; Table DEV-7) -/

/-- A cell belongs to the Lodge window, which a sled start leaves as it is (17, R380). -/
def lodgeCell (a : Nat) : Bool := decide (0x100000 ≤ a)

/-- A cell takes what its column says: a number; or a loaded field its durable value (00, R12). -/
def startCell (warm : Bool) (nv : RegFile) (s : State) (c : Nat × DWord) : State :=
  match regRow c.1 with
  | none => s
  | some r =>
    match (if warm then r.warm else r.cold) with
    | .num n => s.putN c.1 n
    | .load => (match mget nv c.1 with | some v => s.put c.1 v | none => s)
    | _ => s

/-- Registers of a tenant window, tenant's or function's, at a start. -/
def startWindow (warm : Bool) (f : RegFile) : RegFile :=
  f.foldl (fun (m : RegFile) (c : Nat × DWord) =>
    match twRow c.1 with
    | none => m
    | some r =>
      match (if warm then r.warm else r.cold) with
      | .num n => mputD m (twInit c.1) c.1 (BitVec.ofNat 64 n)
      | _ => m) f

/-- Registers of the main domain at a start: columns, staged copies and commits in flight (R551). -/
def startRegs (warm : Bool) (s : State) : State :=
  let nv := s.nvOld
  let s := (s.regs.filter (fun c => !lodgeCell c.1)).foldl (startCell warm nv) s
  { s with
    staged := s.staged.filter (fun c => lodgeCell c.1)
    inflight := s.inflight.filter (fun c => lodgeCell c.1)
    nvOld := if warm then s.nvOld else s.nvOld.filter (fun c => lodgeCell c.1)
    latches := []
    sb := { s.sb with ldgSel := 0, ldgStatus := 0, ldgData := [] }
    tap := { s.tap with sel := s.tap.sel.filter (fun c => lodgeCell c.1) }
    fns := mmap s.fns (fun (_ : Nat) (n : Fn) => { regs := startWindow warm n.regs })
    adm := { s.adm with tenants := mmap s.adm.tenants (fun (_ : Nat) (t : Tenant) => { t with regs := startWindow warm t.regs }) } }

/-! ### Work lost at every start (R345; 06, R142; 09, R206; 10, R230; 12; 13, R291; 15) -/

/-- Links at a start: every port is down; nothing sent before it is answered. -/
def loseLinks (s : State) : State :=
  let s := { s with lnk := { s.lnk with reqs := [], fetches := [], held := [], flipAt := none, pong := none } }
  let s := (List.range 18).foldl (fun s p =>
    let e := s.fld (Reg.LNK_PORT_STATUS p) 16 8
    let s := if s.fitted p then leavePort p 0 s else s
    ((s.setFld (Reg.LNK_PORT_STATUS p) 16 8 e).setBit (Reg.LNK_PORT_STATUS p) 25 false).setBit (Reg.LNK_PORT_STATUS p) 26 false) s
  { s with lnk := { s.lnk with
    ports := [], sync := {}, peers := mmap s.lnk.peers (fun (_ : Nat) (x : PeerInfo) => { x with epoch := 0, heard := s.tb }) } }

/-- The sled is a worker again (13, R291); pools, the allotment map, stored records and the rollout persist. -/
def loseRoles (s : State) : State :=
  let s := haltRoll (dropReserve s)
  let s := s.putN Reg.HIE_STATUS (s.fld Reg.HIE_STATUS 0 1 + 16)
  { s with
    lender := 0
    hie := { s.hie with
      heard := [], key := [], stall := [], waits := [], elect := [], since := [], members := [], series := [], reqs := [], spans := [],
      asks := [], kept := [] } }

/-- A queue program stops where it stands (09, R206). -/
def QProg.halt (p : QProg) : QProg := { p with parked := none, stopReq := none, stopped := true, slotWait := false }

/-- A ring configuration is discarded (09, R206). -/
def Queue.bare (warm : Bool) (q : Queue) : Queue := { gid := q.gid, engine := q.engine, seq := if warm then q.seq else 0 }

/-- What every start loses: steps, launches, moves, leases, rings, requests in flight, links and roles. -/
def loseWork (warm : Bool) (s : State) : State :=
  let s := (List.range 32).foldl (fun s f => rehold f (fun _ => true) s) s
  let s := { s with adm := { s.adm with deferred := [], holds := [], waiting := [] } }
  let s := dropMoves (fun _ => true) s
  let s := loseRoles (loseLinks s)
  let slots := s.adm.tenants.map (·.1)
  let s := slots.foldl (fun s i => revokeRegions i (fun _ => true) s) s
  let clean := fun (p : Page) => { p with mv := none, readLeases := 0, stepLeases := 0 }
  let s := { s with
    launches := [], clus := [], tileFails := [], withheld := []
    progs := mmap (s.progs.filter (fun p => p.2.step.isNone)) (fun (_ : Nat) (p : QProg) => p.halt)
    sch := { s.sch with
      steps := [], window := 0, used := [], prefill := []
      ctxs := mmap s.sch.ctxs (fun (_ : Nat) (c : Ctx) => { c.freeze with step := none, images := [], imageData := [], clearing := [] }) }
    pfx := { s.pfx with waits := [], relays := [], kv := [] }
    adm := { s.adm with tenants := mmap s.adm.tenants (fun (_ : Nat) (t : Tenant) => { t with
      queues := mmap t.queues (fun (_ : Nat) (q : Queue) => q.bare warm)
      objs := mmap t.objs (fun (_ : Nat) (o : Obj) =>
        let base := clean o.base
        { o with base := base, pages := (mmap o.pages (fun (_ : Nat) (p : Page) => clean p)).filter (fun (p : Nat × Page) => p.2 != base), windows := [] })
      evRing := t.evRing.map (fun (r : EvRing) => { r with live := false })
      winRing := none }) }
    hif := { bar2Next := s.hif.bar2Next }
    bar2 := s.hif.bar2Next }
  let keep := (s.sch.ctxs.map (fun c => (c.2.turn.toList ++ c.2.waiting).map (fun (t : Turn) => t.flight))).flatten ++ s.progs.map (fun p => p.2.flight)
  let s := { s with
    flights := s.flights.filter (fun (f : Flight) => keep.contains f.id)
    reads := s.reads.filter (fun (r : HostRead) => match r.use with | .turn f => keep.contains f | _ => false) }
  { s with adm := { s.adm with tenants := mmap s.adm.tenants (fun (i : Nat) (t : Tenant) =>
    { t with heldResv := (s.flights.filter (fun (f : Flight) => f.slot == i)).length }) } }

/-! ### A warm start -/

/-- A sensor port after a warm start (11, R245): its FIFO is empty, and lists whose commands are gone are dropped. -/
def warmPort (s : State) (p : Nat) : State :=
  (s.updPort p (fun x => { x with
    fifo := [], nextMap := none, staged := none, run := none, ready := none, settling := false, settleEnd := none })).setFld (Reg.ESP_I3C_STATUS p) 0 1 0

/-- The fabric after a warm start (10, R230): neurons at 0, queues empty. -/
def warmFabric (s : State) : State :=
  [0, 1].foldl warmPort { s with
    fab := { s.fab with
      queued := [], batches := [], writes := [], commits := [], flip := false,
      cores := mmap s.fab.cores (fun (_ : Nat) (c : ECore) => { c with neurons := [], t0 := 0, loading := none, reload := c.reload || c.loading.isSome }) }
  }

/-- Zeroisation ends in a warm start, after which ADM_ZERO reads 0 (03, Table ADM-10): objects whose leases end are
released, and what is being zeroised is returned. -/
def endZero (s : State) : State :=
  let s := { s with adm := { s.adm with deferred := [] } }
  let s := s.adm.tenants.foldl (fun s t => (t.2.objs.filter (fun o => o.2.freed)).foldl (fun s o => releaseObj t.1 o.1 s) s) s
  (s.adm.zero.map (·.id)).foldl (fun s j => zeroiseDone j s) s

/-- A loaded model slot keeps its descriptor from being written (06, R128). -/
def holdModels (s : State) : State :=
  s.sch.models.foldl (fun s m => match handleObj s m.2.handle with | some (o, i) => takeLease o i 0 false s | none => s) s

/-- What QUIESCE leaves (R345). -/
def warmLose (s : State) : State := warmFabric (holdModels (loseWork true (endZero s)))

/-! ### A cold start (04, Table TIER-8; 02, Table DEV-33; 05, R126) -/

/-- A DURABLE object after a cold start: with the contents of its image, or with what no tier has lost. -/
def Obj.rebuilt (o : Obj) : Obj :=
  let fix := fun (p : Page) => match o.durable with
    | some _ => { p with tier := if p.tier ≤ 2 then p.tier else 2, loc := 0, poison := false }
    | none => { p with poison := p.poison || p.tier != 2 }
  let base := fix o.base
  { o with
    data := match o.durable with | some d => d.data | none => o.data
    base := base, pages := (mmap o.pages (fun (_ : Nat) (p : Page) => fix p)).filter (fun (p : Nat × Page) => p.2 != base) }

/-- The entries that a cold start finds: published, of a restored publisher, with every page in T2. -/
def coldEntries (s : State) (slots : List Nat) : Map Entry :=
  s.pfx.entries.filter (fun e => e.2.st == .published && (match e.2.publisher with
    | some p => slots.contains p && (match s.obj p e.2.block with | some o => !o.anyPage (fun g => g.tier != 2) | none => false)
    | none => false))

/-- A context of a DURABLE conversation after a cold start: its turn is lost, and blocks that are gone are computed again from
its tokens. -/
def Ctx.rebuilt (c : Ctx) (lives : BlockRef → Bool) : Ctx :=
  let n := (c.blocks.takeWhile lives).length
  let fed := if c.fed then c.todo.take 1 else []
  let c := { c with
    st := .frozen, frozenFrom := .idle, turn := none, waiting := [], resume := none, due := [], cut := false, needPrefill := false,
    todo := fed, chain := c.chain.take (c.length / 64) }
  if n = c.blocks.length then c
  else { c with
    blocks := c.blocks.take n, chain := c.chain.take n, ids := c.ids.take (64 * n), length := min c.length (64 * n),
    todo := c.ids.drop (64 * n) ++ fed, fed := false }

/-- What a loss of the MAIN domain leaves of tenants, objects, contexts and the index. -/
def coldTenants (s : State) : State :=
  let durCtx := fun (i : Nat) => s.sch.ctxs.any (fun c => c.2.slot == i && c.2.durable)
  let live := (s.adm.tenants.filter (fun t => t.2.st != .releasing && (t.2.objs.any (fun o => o.2.flag 10 && !o.2.freed) || durCtx t.1))).map (·.1)
  let gone := (s.adm.tenants.map (·.1)).filter (fun i => !live.contains i)
  let entries := coldEntries s live
  let pubs := entries.filterMap (fun e => e.2.publisher.map (fun p => (p, e.2.block)))
  let s := gone.foldl (fun (s : State) i =>
    let s := noteGone i s
    { s with
      hie := { s.hie with freed := mput s.hie.freed (tenId s i) s.tb }
      adm := { s.adm with tenants := mdel s.adm.tenants i } }) s
  let s := { s with adm := { s.adm with tenants := mmap s.adm.tenants (fun (i : Nat) (t : Tenant) => { t with
    objs := (mmap t.objs (fun (_ : Nat) (o : Obj) => if o.flag 10 then o.rebuilt else o)).filter (fun o =>
      !o.2.freed && (o.2.flag 10 || pubs.contains (i, o.1)))
    regions := [], held := [], heldResv := 0, evRing := none, winRing := none, evRefusing := false }) } }
  let lives := fun (slot : Nat) (b : BlockRef) => match b with
    | .entry n => (mget entries n).isSome
    | .priv o => (s.obj slot o).isSome
    | .remote _ _ _ => false
  let ctxs := (s.sch.ctxs.filter (fun c => c.2.durable && live.contains c.2.slot)).map (fun c => (c.1, c.2.rebuilt (lives c.2.slot)))
  let pins := fun (n : Nat) => sumOf ctxs (fun c => (c.2.blocks.filter (· == .entry n)).length)
  let s := { s with
    sch := { s.sch with models := [], ctxs := ctxs }
    pfx := { s.pfx with
      leases := [], dir := [], announce := [], announceAt := none, orphans := [],
      entries := mmap entries (fun (n : Nat) (e : Entry) => { e with
        pins := pins n, children := (entries.filter (fun x => x.2.parent == some n)).length,
        parent := e.parent.bind (fun p => if (mget entries p).isSome then some p else none) }) } }
  live.foldl (fun (s : State) i => s.updTen i (fun t =>
    let v := dormantVec s i t
    { t with vec := v, spill := spillOf t.cls v.hbm, grants := [⟨t.admSeq, v⟩] })) s

/-- Fault histories are empty after a cold start (24, R487). -/
def coldFaults (s : State) : State :=
  { s with flt := { s.flt with
    faults := [], corrections := [], repairing := [], uncorrected := [], laneBad := [], laneWorst := [], laneNamed := [], flashUe := [],
    chanResets := [], hub := [], quarantined := [], testing := [], sliced := [], cover := [], coverAt := [], slices := [], forcedAt := [],
    scrubbed := 0, weak := [] } }

/-- The MAIN domain loses what it held: nothing of it that is not in flash, FRAM or NOR is left. -/
def coldLose (s : State) : State :=
  if s.rst.dark then s
  else
    let s := coldFaults (coldTenants (loseWork false s))
    { s with
      flights := [], reads := [], progs := [], fab := {}, ports := [], groups := [], log := [], trace := []
      lnk := { s.lnk with routes := [], lent := [], peers := [], rtGen := 0, rtHave := [], flippedAt := 0 }
      adm := { s.adm with zero := [], attachFails := [] }
      nrg := { s.nrg with act := [0, 0, 0, 0, 0, 0, 0], waiting := [], ratios := [], area := [], slotAt := [] }
      rst := { s.rst with dark := true } }

/-! ### Power and clocks of the MAIN domain -/

/-- The power state changes; for STANDBY, RUN and SAFE the status zone is drawn again (21, R450). -/
def setPower (n : Nat) (s : State) : State :=
  if s.rdN Reg.PWR_STATE = n then s
  else
    let s := s.putN Reg.PWR_STATE n
    if n = 1 ∨ n = 3 ∨ n = 5 then redrawStatus s else s

/-- The MAIN domain is off: rails, but for those that hold the HBM where it is kept, clocks, the housekeeping link and every running
step. -/
def mainOff (keep : Bool) (s : State) : State :=
  let s := ((if keep then s.setFld Reg.PWR_DOMAIN 8 5 0 else s.setFld Reg.PWR_DOMAIN 4 12 0).setFld Reg.CLK_STATUS 1 5 0).putN Reg.PWR_HK_STATUS 0
  let s := (s.setFld Reg.CLK_STATUS 7 1 0).setFld Reg.RST_START_STATUS 0 4 0
  { s with fwDown := false, rst := { s.rst with steps := [], quiesce := none, hkRetries := 0, retry := none } }

/-- The MAIN domain goes, and the sled stands by. -/
def mainLost (s : State) : State := setPower 1 (mainOff false (coldLose s))

/-! ### Straps and the node ID (25, R510 to R512; 13, R277) -/

/-- Slot straps are valid: an odd number of ones. -/
def strapsOk (x : Nat) : Bool := ((List.range 5).filter (fun i => x.testBit i)).length % 2 == 1

/-- Slot straps are sampled. -/
def loadStraps (s : State) : State :=
  (s.setFld Reg.LDG_STRAP 0 5 s.rst.straps).setBit Reg.LDG_STRAP 5 (strapsOk s.rst.straps)

/-- ROLE_ELIG as sampled. -/
def loadElig (e : Bool) (s : State) : State := (s.setBit Reg.LDG_STRAP 6 e).setBit Reg.HIE_STATUS 0 e

/-- Step 8 sets the node ID before any port trains: the location where it is valid, and the sled number of valid straps. -/
def loadNode (s : State) : State :=
  let s := if s.bit Reg.LDG_LOCATION 15 then s.setFld Reg.LNK_NODE_ID 4 11 (s.fld Reg.LDG_LOCATION 0 11) else s
  if s.bit Reg.LDG_STRAP 5 then (s.setFld Reg.LNK_NODE_ID 0 4 (s.fld Reg.LDG_STRAP 0 4)).setBit Reg.LNK_NODE_ID 15 false
  else s.setBit Reg.LNK_NODE_ID 15 true

/-- Ports go to DETECT where they are enabled, or are held while the node ID is bad (12, R257, Table LNK-4). -/
def openPorts (full : Bool) (s : State) : State :=
  (List.range 18).foldl (fun s p =>
    if !s.fitted p then s
    else if s.bit Reg.LNK_NODE_ID 15 then s.setPort p 7
    else (s.setPort p (restPort s p)).updLport p (fun l => { l with fullEq := full })) s

/-! ### Start steps (R346, Table RST-2) -/

/-- The start in force is warm; the sled is in SAFE. -/
def warmStart (s : State) : Bool := s.bit Reg.RST_START_STATUS 4
def safeState (s : State) : Bool := s.bit Reg.RST_START_STATUS 5
/-- A step has completed. -/
def stepMade (s : State) (n : Nat) : Bool := s.bit Reg.RST_START_STATUS (7 + n)

/-- Steps that each step follows. -/
def stepsBefore (warm : Bool) (n : Nat) : List Nat :=
  match n with
  | 2 => [1] | 3 => [2] | 4 => [3] | 5 => [4] | 6 => [5] | 7 => [4] | 8 => [4] | 9 => [4] | 10 => [2]
  | 11 => if warm then [5] else [6]
  | 12 => [11] | 13 => [2] | 14 => [6, 7, 8, 11, 12] | _ => []

/-- Steps that run in the start: SAFE runs 1 to 4, 9, 10 and 13 (R350). -/
def stepRuns (s : State) (n : Nat) : Bool := !safeState s || [1, 2, 3, 4, 9, 10, 13].contains n

/-- The Lodge die is within 10 °C of its calibration point. -/
def calHolds (s : State) : Bool := decide ((s.adc.temp - signed 16 (s.rdN Reg.ADC_CAL_TEMP)).natAbs ≤ 160)

/-- Steps that a warm start skips. -/
def stepSkipped (s : State) (n : Nat) : Bool := warmStart s && (n == 6 || n == 7 || n == 12 || (n == 10 && calHolds s))

/-- The lowest step that runs, 0 when none (log entry 100). -/
def showStep (s : State) : State :=
  let l := (List.range 15).filter (fun n => (mget s.rst.steps n).isSome)
  s.setFld Reg.RST_START_STATUS 0 4 (l.head?.getD 0)

/-- What a step sets going. -/
def stepBegins (n : Nat) (s : State) : State :=
  match n with
  | 1 => loadStraps (s.setFld Reg.PWR_DOMAIN 8 5 0)
  | 8 => openPorts (!warmStart s) (loadNode s)
  | 10 => icCalJoint (sdCalStart s)
  | 13 => if warmStart s then redrawLedger s else coldPanel s
  | _ => s

/-- A step begins. -/
def beginStep (n : Nat) (s : State) : State :=
  let s := s.traceRec 1 1 0xFFFF [n]
  stepBegins n { s with rst := { s.rst with steps := mput s.rst.steps n s.tb } }

/-- Every step whose predecessors have completed begins; a skipped one counts as complete at once. The fuel is the number of
steps. -/
def beginSteps : Nat → State → State
  | 0, s => showStep s
  | k + 1, s =>
    match (List.range 15).find? (fun n => decide (1 ≤ n) && stepRuns s n && !stepMade s n && (mget s.rst.steps n).isNone &&
        (stepsBefore (warmStart s) n).all (stepMade s)) with
    | none => showStep s
    | some n =>
      if stepSkipped s n then beginSteps k ((s.setBit Reg.RST_START_STATUS (7 + n) true).putN (Reg.RST_STEP_MS n) 0x80000000)
      else beginSteps k (beginStep n s)

/-- A step completes: its bit, its duration in ms, and the steps after it. -/
def stepDone (n : Nat) (s : State) : State :=
  let ms := (s.tb - mgetD s.rst.steps s.tb n) / 1000
  let s := (s.setBit Reg.RST_START_STATUS (7 + n) true).putN (Reg.RST_STEP_MS n) (min 65535 ms)
  let s := s.traceRec 2 1 0xFFFF [n, ms]
  beginSteps 15 { s with rst := { s.rst with steps := mdel s.rst.steps n } }

/-! ### Beginning a start (R344, R351) -/

/-- Epochs of every unit at a start (R351). -/
def startEpochs (warm : Bool) (s : State) : State :=
  let s := (List.range 8).foldl (fun s t => (List.range (unitCount t)).foldl (fun s i =>
    setEpoch t i (if warm then (unitEpoch s t i + 1) % 256 else 0) s) s) s
  { s with rst := { s.rst with notices := [], resetAt := [], deferred := [], busyUntil := 0 } }

/-- Registers, epochs and step state at the beginning of a start. -/
def startState (warm safe : Bool) (s : State) : State :=
  let s := startEpochs warm (startRegs warm s)
  let e := s.rdN Reg.LNK_NODE_EPOCH
  let s := (s.putN Reg.LNK_NODE_EPOCH (if e = 255 then 1 else e + 1)).putN Reg.HIF_ABSENT_SINCE s.tb
  let s := s.putN Reg.RST_START_STATUS (16 * b2n warm + 32 * b2n safe)
  let s := (List.range 14).foldl (fun s n => s.putN (Reg.RST_STEP_MS (n + 1)) 0) s
  let s := (s.bump Reg.RST_STARTS).putN Reg.FW_READY 0
  let s := s.bumpBy Reg.NRG_DEVICE_UJ s.nrg.owed |>.bumpBy Reg.NRG_SLED_UJ s.nrg.owed
  let s := s.setBit Reg.PNL_STATUS 10 (s.bit Reg.PNL_STATUS 10 || !s.pnl.cut.isEmpty)
  beginSteps 15 { s with
    fwDown := false
    nrg := { s.nrg with fresh := true, owed := 0 }
    adc := { s.adc with zeroOk := [] }
    pnl := { s.pnl with cut := [] }
    rst := { s.rst with began := s.tb, quiesce := none, steps := [], railRetry := [], retry := none, due := none, hkRetries := 0 } }

/-- A start begins with a cause of Table RST-1. A cold one begins with nothing kept of the MAIN domain. -/
def beginStart (cause : Nat) (warm : Bool) (s : State) : State :=
  let s := if warm then s else mainOff false (coldLose s)
  let s := s.setFld Reg.RST_LAST_CAUSE 0 4 cause
  startState warm false (setPower 2 s)

/-- A cold start that is due begins when R340 allows. -/
def tryStart (s : State) : State :=
  match s.rst.due with
  | none => s
  | some c =>
    if s.rdN Reg.PWR_STATE = 1 ∧ s.rst.mainGood ∧ s.rst.sledEn ∧ s.rst.xtalOk ∧ !s.bit Reg.PWR_STATUS 0 then beginStart c false s else s

/-- A cold start is due. -/
def dueStart (c : Nat) (s : State) : State := tryStart { s with rst := { s.rst with due := some c } }

/-- QUIESCE begins (R345); its actions leave what a warm start keeps. A manager resigns before a firmware activation or a restart that
the host asks for (13, R273). -/
def beginQuiesce (cause : Nat) (s : State) : State :=
  let s := if cause = 5 then s else sayResign 0 s
  let s := setPower 4 (energyFlush (warmLose s))
  { s with rst := { s.rst with quiesce := some (s.tb, cause) } }

/-! ### SAFE (R350) and failed starts (R348) -/

/-- SAFE is entered from its first step. -/
def enterSafe (s : State) : State := startState false true (setPower 5 (mainOff false (coldLose s)))

/-- SAFE is entered during a start, whose further steps it runs (01, R39). -/
def safeNow (s : State) : State :=
  let s := setPower 5 (coldLose s)
  let keep := s.rst.steps.filter (fun x => [9, 10, 13].contains x.1)
  beginSteps 15 ({ s with rst := { s.rst with steps := keep } }.setFld Reg.RST_START_STATUS 4 2 2)

/-- A start fails at a step: a condition (1) or the limit (2), with a code; the next start follows 1 s later. -/
def failStart (n kind code : Nat) (s : State) : State :=
  let warm := warmStart s
  let s := s.putN Reg.RST_FAIL_INFO (n + 16 * kind + 65536 * code)
  let w := s.fld Reg.RST_FAILS 0 2
  let c := s.fld Reg.RST_FAILS 2 2
  let (s, next) :=
    if warm then
      if w + 1 < 2 ∧ s.rst.mainGood then (s.setFld Reg.RST_FAILS 0 2 (w + 1), (7, true)) else (s.setFld Reg.RST_FAILS 0 2 0, (6, false))
    else if c + 1 < 3 then (s.setFld Reg.RST_FAILS 2 2 (c + 1), (8, false)) else (s.setFld Reg.RST_FAILS 2 2 3, (16, false))
  let s := mainOff next.2 (if next.2 then s else coldLose s)
  setPower 1 { s with rst := { s.rst with retry := some (s.tb, next) } }

/-! ### What completed steps leave -/

/-- A retirement that the ledger in NOR does not record is not rebuilt by a cold start (24, R497). -/
def bringBack (s : State) (u : Nat × Nat) : State :=
  let (t, i) := u
  let add := fun (n x : Nat) (s : State) => s.putN (Reg.ADM_CAP n) (s.rdN (Reg.ADM_CAP n) + x)
  let s := { s with flt := { s.flt with retired := s.flt.retired.filter (· != u) } }
  let s := s.putN (Reg.FLT_INSVC t) (s.rdN (Reg.FLT_INSVC t) + 1)
  match t with
  | 0 => add 1 576 s
  | 1 => s.setBit (Reg.LNK_PORT_STATUS (i / 8)) (8 + i % 8) false
  | 3 => add 5 16 s
  | 4 => add 6 1 s
  | 5 => (add 0xA 64 s).setBit (Reg.QUE_ENG_STATUS i) 15 false
  | 6 =>
    let s := s.setFld (Reg.FLS_CH_STATUS (i / 4)) 8 3 (s.fld (Reg.FLS_CH_STATUS (i / 4)) 8 3 + 1)
    let s := add 2 (dieGiB s) (s.putN Reg.FLS_USABLE (s.rdN Reg.FLS_USABLE + dieGiB s))
    s.putN (Reg.ADM_CAP 3) (fullWrites * diesIn s / 128)
  | 7 => s.setBit (Reg.FLS_CH_STATUS i) 12 false
  | _ => s

/-- Step 4 rebuilds the retirement map from the ledger; a retired channel's dies are retired with it. -/
def rebuildMap (s : State) : State :=
  let held := fun (u : Nat × Nat) => s.flt.nor.any (fun r => r.kind == 1 &&
    ((r.type == u.1 && r.unit == u.2) || (u.1 == 6 && r.type == 7 && r.unit == u.2 / 4)))
  (s.flt.retired.filter (fun u => decide (u.1 < 8) && !held u)).foldl bringBack s

/-- Step 14 restores tenants as PARKED, and the sled runs (03, R76, R347). -/
def restoreTenants (s : State) : State :=
  let s := { s with adm := { s.adm with tenants := mmap s.adm.tenants (fun (_ : Nat) (t : Tenant) =>
    if t.st == TState.releasing then t
    else { t with st := .parked, fn := none, graceAt := some (s.tb + s.rdN Reg.ADM_GRACE * 1000000) }) } }
  let s := (s.putN Reg.RST_FAILS 0).putN Reg.ADM_START_SEQ ((s.rdN Reg.ADM_START_SEQ + 1) % 2 ^ 32)
  let s := s.hld.flushes.foldl (fun (s : State) f =>
    if (s.ten f.1).isSome then produce f.1 f.2.1 f.2.2.2 { status := Status.word ⟨0x35, 0, 0⟩, cmdId := f.2.2.1, kind := 0 } (s.outcome f.1 ⟨0x35, 0, 0⟩) else s) s
  let s := { s with
    hld := { s.hld with flushes := [] }
    rst := { s.rst with dark := false }
    fw := { s.fw with trialDone := if s.fw.trial then some s.tb else s.fw.trialDone } }
  let s := setPower 3 s
  let wait := s.adm.waiting
  wait.foldl (fun s mb => evaluate mb s) { s with adm := { s.adm with waiting := [] } }

/-- A step ends. `ok` says that its own condition of Table RST-2 did not fail it; `found` lists the units that failed in it, and
for step 9 the speed and width of the host link. -/
def endStep (n : Nat) (ok : Bool) (found : List Nat) (s : State) : State :=
  let fail := fun (s : State) => failStart n 1 0 s
  match n with
  | 1 => if !ok then fail s else stepDone 1 (s.setFld Reg.PWR_DOMAIN 4 12 0xFFF)
  | 2 => if !ok then fail s else stepDone 2 ((s.setBit Reg.CLK_STATUS 1 true).putN Reg.PWR_HK_STATUS 1)
  | 3 =>
    let (passed, s) := selectImage ok s
    if passed then stepDone 3 s else if safeState s then stepDone 3 (runRecovery s) else fail s
  | 4 =>
    if !ok then safeNow ((stepDone 4 (s.setBit Reg.RST_START_STATUS 5 true)).putN Reg.RST_FAIL_INFO 0x14)
    else stepDone 4 (if warmStart s then s else rebuildMap s)
  | 5 =>
    let s := found.foldl (fun s i => retire 0 i 0 [] s) s
    if 2 * s.rdN (Reg.FLT_INSVC 0) < (regInit (Reg.FLT_INSVC 0)).toNat then fail s else stepDone 5 (s.setBit Reg.CLK_STATUS 2 true)
  | 6 =>
    let s := found.foldl (fun s i => retire 0 i 0 [] s) s
    if 2 * s.rdN (Reg.FLT_INSVC 0) < (regInit (Reg.FLT_INSVC 0)).toNat then fail s else stepDone 6 s
  | 7 =>
    let s := found.foldl (fun s i => quarantine 3 i (noteSlice 3 i 0xFFFF (noteFault 3 i s))) s
    let s := { s with flt := { s.flt with coverBase := s.tb } }
    if clustersUp s < 64 then fail s else stepDone 7 s
  | 8 =>
    let s := { s with hie := { s.hie with heard := [(0, s.tb), (1, s.tb), (2, s.tb)] } }
    stepDone 8 (s.setFld Reg.CLK_STATUS 3 3 ((List.range 3).foldl (fun x d => x + 2 ^ d * b2n (s.fitted (6 * d))) 0))
  | 9 => stepDone 9 (linkTrained (found.headD 0) ((found.drop 1).headD 0) (s.setFld Reg.HIF_LINK_STATUS 10 1 (s.fld Reg.HIF_CLK_MODE 0 1)))
  | 11 => if !ok then fail s else stepDone 11 (s.putN Reg.FLS_MOUNT (4 + (if warmStart s then (if found.isEmpty then 2 else 1) else 1)))
  | 14 => restoreTenants (stepDone 14 s)
  | _ => stepDone n s

end Sys2Proof.Machine
end

