-- ==== Sys2Proof/Machine/OpsPower.lean ====
section
/-! DEFINITION. Losses of supplies, the main-loss sequence, holdup, and the power-up of the Lodge die (22; 17, R380; 18, R395; 19,
R418; 21, R458). -/

namespace Sys2Proof.Machine

/-! ### HLD_LAST (Table HLD-8) -/

/-- One bit of the flags of HLD_LAST: 0 HANDOFF, 1 JOURNAL_OK, 2 BANNER, 3 RETURNED. -/
def lastFlag (i : Nat) (b : Bool) (s : State) : State := s.setBit (Reg.HLD_LAST 5) i b

/-- A loss begins a record: its TB, which supplies are lost, and E_avail. -/
def lastLoss (cause flags : Nat) (s : State) : State :=
  [s.tb % 2 ^ 32, s.tb / 2 ^ 32 % 2 ^ 32, cause, s.rdN Reg.HLD_E_AVAIL_UJ, 0, flags, 0].zipIdx.foldl (fun s x => s.putN (Reg.HLD_LAST x.2) x.1) (s.putN (Reg.HLD_LAST 7) 0)

/-! ### Main loss (R463 to R465, Table HLD-3) -/

/-- FLUSH commands in flight: no commit record is programmed after the loss, so each leaves its previous image in force (R465). -/
def flushesLost (s : State) : List (Nat × Nat × Nat × Bool) :=
  (s.flights.filter (fun f => f.op == 4 && (match f.src with | .auto => false | _ => true))).map (fun f => (f.slot, f.queue, f.cmdId, f.irq))

/-- The main-loss sequence: programs issued complete, energy is handed to the Lodge die while the housekeeping link is up, and the
rails fall. -/
def mainSequence (s : State) : State :=
  if s.rdN Reg.PWR_STATE ≤ 1 then s
  else
    let hk := s.bit Reg.PWR_HK_STATUS 0
    let em := if s.nrg.fresh then 0 else meterUj s (Reg.MTR_SLED_E 0) - s.nrg.sledAt
    let s := { s with
      hld := { s.hld with flushes := s.hld.flushes ++ flushesLost s }
      nrg := { s.nrg with owed := s.nrg.owed + em, fresh := true } }
    let s := lastFlag 1 true (lastFlag 0 hk (mainOff false (coldLose s)))
    if s.bit Reg.PWR_DOMAIN 0 then setPower 1 s else s.putN Reg.PWR_STATE 0

/-- The main supply is lost. -/
def mainGone (s : State) : State :=
  let s := { s with rst := { s.rst with mainGood := false, due := none, retry := none } }
  (((s.setBit Reg.PWR_DOMAIN 1 false).setBit Reg.PWR_DOMAIN 2 false).setBit Reg.HLD_STATUS 2 false).bump Reg.HLD_MAIN_LOSSES

/-- The aux supply is lost (R459): the Lodge die stays on the main-derived rail if there is one. -/
def auxGone (s : State) : State :=
  ((s.setBit Reg.PWR_DOMAIN 0 false).setBit Reg.HLD_STATUS 1 false).setBit Reg.PWR_DOMAIN 2 (s.bit Reg.PWR_DOMAIN 1)

/-! ### Lodge loss (R466, R467, Table HLD-4) -/

/-- The OFF banner of zone 0 as an update (R468). -/
def bannerUpd (s : State) : PnlUpd := begunUpdate 0 { mode := 1 } (renderNext 0 1 s)

/-- E_B in µJ. -/
def bannerEnergy (s : State) : Nat :=
  let u := bannerUpd s
  let n := u.comp + waveLen s.pnl.table 1
  s.rdN Reg.HLD_P_HOLD_MW * (5 + 20 * waveLen s.pnl.table 1) + frameBase s * n + cdiv (updEnergy (renderNext 0 1 s) 0 u n) 10000 + 1500

/-- The OFF banner is drawn: what R468 asks holds. -/
def bannerOk (s : State) : Bool :=
  prevValid s 0 && !pnlRetired s && s.pnl.tableOk && s.pnl.tempAt.isSome && decide (0 ≤ signed 16 (s.rdN Reg.PNL_TEMP)) &&
    decide (s.rdN Reg.HLD_RESERVE_UJ + bannerEnergy s ≤ s.hld.left)

/-- The Lodge die stops (R469); FRAM holds the energy registers. -/
def stopLodge (s : State) : State := { energyFlush (s.putN Reg.PWR_STATE 0) with hld := { s.hld with ph := .off } }

/-- A supply returned while the holdup block worked: the Lodge die goes on as supplied (R470). -/
def resumeLodge (s : State) : State :=
  let s := { s with hld := { s.hld with ph := .supplied }, pnl := { s.pnl with lost := false, park := false } }
  let s := setPower 1 (showLight s)
  tryStart (if s.bit Reg.PNL_STATUS 10 then coldPanel s else s)

/-- The panel's rails are down in holdup: the banner is drawn or skipped after action 4; after the banner the Lodge die stops. A supply that
has returned ends the sequence. -/
def holdupNext (s : State) : State :=
  let back := s.bit (Reg.HLD_LAST 5) 3
  match s.hld.ph with
  | .panel =>
    if back then resumeLodge (s.bump Reg.HLD_BANNER_SKIP)
    else if bannerOk s then
      { s with
        hld := { s.hld with ph := .banner }
        pnl := { s.pnl with park := false, rails := .rising 1, run := mput s.pnl.run 0 { mode := 1, asked := true } } }
    else stopLodge (s.bump Reg.HLD_BANNER_SKIP)
  | .banner =>
    let s := if (s.pnlPrev 0) == (s.pnlNext 0) && s.pnl.run.isEmpty then (lastFlag 2 true s).bump Reg.HLD_BANNERS else s
    if back then resumeLodge s else stopLodge s
  | _ => s

/-- What the panel does at Lodge loss and what that costs (R467): 0 nothing, 1 finish, 2 checkpoint. -/
def panelChoice (s : State) : Nat × Nat :=
  let run := s.pnl.run.filter (fun u => u.2.driving)
  let p := s.rdN Reg.HLD_P_HOLD_MW * 20
  let n := run.foldl (fun m u => max m (framesLeft s.pnl.table u.2).1) 0
  let finish := s.rdN Reg.PNL_E_FINISH_UJ + p * n
  if run.isEmpty then (0, 0)
  else if holdupFixed s + finish ≤ s.rdN Reg.HLD_E_AVAIL_UJ then (1, finish)
  else (2, s.rdN Reg.PNL_E_CKPT_UJ + p * s.rdN Reg.PNL_CKPT_FRAMES)

/-- Lodge loss: the frontlight goes off, actions 1 and 2 are done, the panel's action is chosen, and what has not started is
dropped. -/
def lodgeLoss (s : State) : State :=
  if s.hld.ph ≠ .supplied then s
  else
    let s := lastLoss 3 (s.rdN (Reg.HLD_LAST 5) % 4) (s.bump Reg.HLD_LODGE_LOSSES)
    let n := min 4 s.flt.queue.length
    let (d, cost) := panelChoice s
    let left := s.rdN Reg.HLD_E_AVAIL_UJ - 1000 - 3000 * n - cost - 1500
    let s := (s.putN (Reg.HLD_LAST 4) d).putN (Reg.HLD_LAST 6) left
    let s := if d = 1 then s.bump Reg.HLD_FINISHES else if d = 2 then s.bump Reg.HLD_CKPT_STOPS else s
    let s := (List.range n).foldl (fun s _ => programHead s) (energyFlush (s.putN Reg.PWR_STATE 0))
    let run := mmap (s.pnl.run.filter (fun u => u.2.driving)) (fun (_ : Nat) (u : PnlUpd) => { u with queue := [] })
    let s := { s with
      hld := { s.hld with ph := .panel, left := left }
      pnl := { s.pnl with lost := true, park := d == 2, run := run, pend := [], failAt := none, retrying := false } }
    let s := showPnl (showLight s)
    if d ≠ 0 then s
    else
      let s := lowerRails s
      if s.pnl.rails = .down then holdupNext s else s

/-! ### Power-up of the Lodge die -/

/-- A supply returns during holdup (R470). -/
def supplyBack (s : State) : State :=
  match s.hld.ph with
  | .panel => lastFlag 3 true s
  | .banner => lastFlag 3 true s
  | _ => s

/-- Registers of the Lodge window at Lodge power-up: their Cold columns. -/
def lodgeRegs (s : State) : State :=
  let nv := s.nvOld
  let s := (s.regs.filter (fun c => lodgeCell c.1)).foldl (startCell false nv) s
  { s with
    staged := s.staged.filter (fun c => !lodgeCell c.1)
    inflight := s.inflight.filter (fun c => !lodgeCell c.1)
    nvOld := s.nvOld.filter (fun c => !lodgeCell c.1) }

/-- The blocks of the Lodge die at power-up: what NOR and FRAM hold stays, and nothing else. -/
def lodgeBlocks (s : State) : State :=
  { s with
    adc := { sys := s.adc.nvSys, nvSys := s.adc.nvSys, sdOff := s.adc.sdOff, sdGain := s.adc.sdGain, sdUncal := s.adc.sdUncal, temp := s.adc.temp }
    dec := { stopped := true }
    mtr := { nvE := s.mtr.nvE, nvRem := s.mtr.nvRem }
    pnl := { table := s.pnl.table, tableOk := s.pnl.tableOk, cut := s.pnl.cut } }

/-- What a Lodge power-up does to the connectors: the I3C static address follows the straps, and a service unlock ends (25, R513,
R523). -/
def loadAddr (s : State) : State :=
  let a := if s.bit Reg.LDG_STRAP 5 then 0x10 + s.fld Reg.LDG_STRAP 0 4 else 0x20
  { (s.setFld Reg.LDG_STRAP 16 7 a).setBit Reg.LDG_STRAP 14 false with sb := {}, tap := { present := s.tap.present } }

/-- The Lodge die powers up, from aux or from main (17, R380; 18, R395; 19, R418; 21, R458): both self-calibrations run, and the cold
panel sequence, unless main is present and step 13 of the start that follows runs it. -/
def lodgeUp (aux main : Bool) (s : State) : State :=
  let cut := s.bit Reg.PNL_STATUS 10
  let s := energyLoad (lodgeBlocks (lodgeRegs s))
  let s := { s with hld := { s.hld with ph := .supplied }, rst := { s.rst with due := if main then some 0 else none } }
  let s := (s.putN Reg.HLD_STATUS (2 * b2n aux)).putN Reg.PWR_DOMAIN (b2n aux + 4 * b2n (main && !aux))
  let s := s.putN Reg.PNL_STATUS (512 * b2n (s.flt.retired.contains (10, 0)) + 1024 * b2n (cut || !s.pnl.cut.isEmpty))
  let s := icCalJoint (sdCalStart (loadAddr (loadStraps s)))
  let s := (s.setFld Reg.CLK_STATUS 7 1 0).putN Reg.PWR_STATE 1
  if main then s else coldPanel s

end Sys2Proof.Machine
end

