-- ==== Sys2Proof/Machine/OpsUpd.lean ====
section
/-! DEFINITION. The update protocol and the firmware watchdog (23). -/

namespace Sys2Proof.Machine

/-! ### Sessions (R477) -/

/-- The owner of the open session: 0 none, 1 HOST, 2 PEER, 3 RECOVERY. -/
def updOwner (s : State) : Nat := s.fld Reg.FW_UPD_STATUS 1 2

/-- Open or close the session. -/
def setOwner (o : Nat) (s : State) : State := s.setFld Reg.FW_UPD_STATUS 1 2 o

/-- The party that FW_UPD_CMD speaks for. -/
def cmdParty (s : State) : Nat := if s.bit Reg.FW_BOOT 5 then 3 else 1

/-- An operation is refused: it changes nothing but its result and the count. -/
def updRefuse (op : Nat) (st : Status) (s : State) : State :=
  let s := (s.bump Reg.FW_UPD_REFUSED).putN Reg.FW_UPD_RESULT st.word.toNat
  pfNotice Reg.FW_NOTICE 0 (s.traceRec 0x0E 0x40 0xFFFF [op, st.word.toNat])

/-- A REFUSED_POLICY status. -/
def updPolicy (detail : Nat) : Status := ⟨0x22, 0, detail⟩

/-- What refuses an operation of a party whatever it is. -/
def updBusy (party : Nat) (s : State) : Bool :=
  s.bit Reg.FW_UPD_STATUS 0 || s.rdN Reg.FW_READY == 0 || (updOwner s != 0 && updOwner s != party)

/-- An operation of a party: refused when busy or when its own precondition fails with a DETAIL, else done. -/
def updOp (op party : Nat) (pre : Option Nat) (done : State → State) (s : State) : State :=
  if updBusy party s then updRefuse op ⟨0x24, 0, 0⟩ s
  else match pre with
    | some d => updRefuse op (updPolicy d) s
    | none => done s

/-- The slot that is not CONFIRMED; with no valid descriptor, slot A (log entry 102). -/
def inactiveSlot (s : State) : Nat := match s.fw.inForce with | some (_, d) => d.inactive | none => 0

/-- What the descriptor in force says of the inactive slot. -/
def inactiveInfo (s : State) : SlotInfo := match s.fw.inForce with | some (_, d) => d.slot d.inactive | none => ⟨0, 0, 0, 0⟩

/-- Change what the descriptor says of the inactive slot; with no valid descriptor a new one is written (log entry 102). -/
def markInactive (f : SlotInfo → SlotInfo) (s : State) : State :=
  match s.fw.inForce with
  | some (_, d) => markSlot d.inactive f s
  | none => writeDesc ⟨0, 1, f ⟨0, 0, 0, 0⟩, ⟨0, 0, 0, 0⟩⟩ 0 s

/-! ### Operations (Table FW-6) -/

/-- BEGIN. -/
def updBegin (party : Nat) (s : State) : State :=
  updOp 1 party (if updOwner s ≠ 0 then some 1 else if s.fw.validMarker.isSome then some 4 else none)
    (fun s => updEnd 1 ⟨0, 0, 0⟩ (setOwner party ((markInactive (fun i => { i with st := 1 }) s).putN Reg.FW_UPD_WRITTEN 0))) s

/-- WRITE of the bytes that FW_UPD_SRC, OFS and LEN name. -/
def updWrite (party : Nat) (programOk : Bool) (s : State) : State :=
  let ofs := s.rdN Reg.FW_UPD_OFS
  let len := s.rdN Reg.FW_UPD_LEN
  let fits := ofs == s.rdN Reg.FW_UPD_WRITTEN && decide (4096 ≤ len ∧ len ≤ 1048576 ∧ len % 4096 = 0 ∧ ofs + len ≤ 25165824)
  updOp 2 party (if updOwner s = 0 then some 1 else if !fits then some 2 else none)
    (fun s => readBlock { s.setBit Reg.FW_UPD_STATUS 0 true with
      fw := { s.fw with opAt := s.rdN Reg.FW_UPD_SRC, opLeft := len, programOk := programOk } }) s

/-- END: the slot's version and epoch are those of the header written. -/
def updClose (party : Nat) (s : State) : State :=
  let m := s.fw.image (inactiveSlot s)
  let size := imageSize m
  updOp 3 party (if updOwner s = 0 then some 1 else if 25161728 < size then some 6 else if s.rdN Reg.FW_UPD_WRITTEN ≠ size + 4096 then some 2 else none)
    (fun s => updEnd 3 ⟨0, 0, 0⟩ (setOwner 0 (markInactive (fun i => { i with st := 2, version := readLE m 8 4, epoch := imageEpoch m, code := 0 }) s))) s

/-- VERIFY. -/
def updVerify (party : Nat) (readOk : Bool) (s : State) : State :=
  updOp 4 party (if (inactiveInfo s).st ≠ 2 then some 1 else none)
    (fun s =>
      let c := checkImage s (s.fw.image (inactiveSlot s)) readOk
      let s := if c = 0 then s else s.bump Reg.FW_CHECK_FAIL
      updEnd 4 ⟨0, 0, 0⟩ (markInactive (fun i => { i with st := if c = 0 then 3 else 6, code := c }) s)) s

/-- ACTIVATE; with NOW a warm start follows, but not from the recovery service (R485). -/
def updActivate (party : Nat) (now : Bool) (s : State) : State :=
  let n := inactiveSlot s
  updOp 5 party
    (if (inactiveInfo s).st ≠ 3 then some 1 else if s.fw.validMarker.isSome then some 4
     else if imageEpoch (s.fw.image n) < s.fw.fuse then some 3 else none)
    (fun s =>
      let s := updEnd 5 ⟨0, 0, 0⟩ (markInactive (fun i => { i with st := 4 }) (setMarker (some (n, 3)) s))
      if now && inRun s then beginQuiesce 4 s else s) s

/-- The writes of CONFIRM (R479). -/
def confirmNow (s : State) : State :=
  match s.fw.inForce with
  | none => s
  | some (_, d) =>
    let n := d.inactive
    let old := d.confirmed
    let d := { (d.setSlot n { d.slot n with st := 5 }).setSlot old { d.slot old with st := 3 } with confirmed := n }
    let s := raiseEpoch n (setMarker none (writeDesc d n s))
    let s := { (s.bump Reg.FW_CONFIRMS).setBit Reg.FW_BOOT 1 false with fw := { s.fw with trial := false, trialDone := none } }
    pfNotice Reg.FW_NOTICE 4 (updEnd 6 ⟨0, 0, 0⟩ s)

/-- The TRIAL slot runs and step 14 of the start in force is complete. -/
def mayConfirm (s : State) : Bool := s.fw.trial && s.fw.trialDone.isSome

/-- CONFIRM. -/
def updConfirm (party : Nat) (s : State) : State := updOp 6 party (if mayConfirm s then none else some 5) confirmNow s

/-- ABORT: the slot stays INCOMPLETE. -/
def updAbort (party : Nat) (s : State) : State :=
  updOp 7 party (if updOwner s = 0 then some 1 else none) (fun s => updEnd 7 ⟨0, 0, 0⟩ (setOwner 0 s)) s

/-- REVERT: the next start finds the trial spent. -/
def updRevert (party : Nat) (s : State) : State :=
  updOp 8 party (if s.fw.validMarker.isNone then some 1 else none)
    (fun s => updEnd 8 ⟨0, 0, 0⟩ (setMarker (s.fw.validMarker.map (fun m => (m.1, 0))) s)) s

/-! ### Watchdog (R481, R354) -/

/-- The management core restarts: the operation in progress ends and the session closes. The image running is checked once more, and
a fourth restart within 60 s begins a warm start. A watchdog is a hub die fault of the core (24, Table FLT-3). -/
def watchdog (s : State) : State :=
  let s := if s.bit Reg.FW_UPD_STATUS 0 then
      updEnd 2 ⟨0x30, 0, 0⟩ { s with reads := s.reads.filter (fun r => r.use != .update) }
    else s
  let near := s.fw.restarts.filter (fun t => decide (s.tb ≤ t + 60000000))
  let n := near.length + 1
  let s := { (setOwner 0 s).putN Reg.FW_READY 0 with
    fwDown := true, fw := { s.fw with restarts := s.tb :: near, wdtMs := s.rdN Reg.FW_WDT_MS } }
  let s := hubFault 0xE ⟨0, 0, 0⟩ (s.bump Reg.FW_WDT_RESTARTS)
  let s := pfNotice Reg.FW_NOTICE 3 (s.traceRec 0x0D 0xE 0xFFFF [n])
  let s := match s.fw.slot with
    | some k => (copyAndCheck k true s).2
    | none => s
  if 4 ≤ n ∧ inRun s then beginQuiesce 5 s else s

end Sys2Proof.Machine
end

