-- ==== Sys2Proof/Machine/Attest.lean ====
section
/-! DEFINITION. Attestation over the PF's DOE mailbox (15, R316; 23, R484), and FW_READY_SET. Codes and field bits of SPDM 1.2 are the
DMTF's (log entry 104). -/

namespace Sys2Proof.Machine

/-! ### Contents -/

/-- Answer a request. -/
def doeAnswer (code : Nat) (fields : List Nat) (s : State) : State := s.emit (.doe code fields)

/-- ERROR with a code. -/
def doeError (e : Nat) (s : State) : State := doeAnswer 0x7F [e, 0] s

/-- Change the responder's state. -/
def State.updHif (s : State) (f : Hif → Hif) : State := { s with hif := f s.hif }

/-- Bytes of a certificate chain, none where the slot is empty. -/
def certChain (s : State) (slot : Nat) : Option (List Nat) :=
  if slot = 0 then some Config.deviceChain
  else if slot = 1 ∧ s.bit Reg.FW_CERT_STATUS 0 = true then some ((readBytes s.fw.chain 0 4096).map (·.toNat))
  else none

/-- SHA-384 of bytes. -/
def digestOf (l : List Nat) : Nat := Config.sha384 (writeBytes [] 0 (l.map (BitVec.ofNat 8))) 0 l.length

/-- FW_DIGEST. -/
def runningDigest (s : State) : Nat := sumOf (List.range 12) (fun i => s.rdN (Reg.FW_DIGEST i) * 2 ^ (32 * i))

/-- The header of the image that runs. -/
def runningHeader (s : State) : List Nat := match s.fw.slot with | some n => (readBytes (s.fw.image n) 0 0xC0).map (·.toNat) | none => []

/-- Cells of the persistent configuration. -/
def persistent (s : State) : List (Nat × DWord) := s.regs.filter (fun c => match regRow c.1 with | some r => r.pst | none => false)

/-- A measurement (Table FW-10). -/
def measurement (s : State) (i : Nat) : List Nat :=
  match i with
  | 1 => [Config.romDigest]
  | 2 => [digestOf (runningHeader s ++ (leBytes (runningDigest s) 48).map (·.toNat))]
  | 3 => [(inactiveInfo s).st, imageDigest (s.fw.image (inactiveSlot s))]
  | 4 => [s.fw.fuse + 256 * sumOf s.fw.revoked (fun k => 2 ^ k) + 65536 * b2n (s.bit Reg.LDG_STRAP 14)]
  | 5 => [Config.lodgeDigest ((s.pnl.table.getD []).map (·.2) ++
      s.adc.nvSys.flatMap (fun x => [x.1, x.2.1.num.toNat, x.2.1.den, x.2.2.num.toNat, x.2.2.den]))]
  | 6 => [Config.configDigest (persistent s)]
  | 7 => [s.rdN Reg.DEV_BUILD, s.rdN Reg.DEV_REV, s.rdN Reg.DEV_CAPS]
  | 8 => [Config.aliasKey (runningDigest s)]
  | _ => []

/-- A supported algorithm that is offered. -/
def chosenAlg (offered mine : Nat) : Nat := offered &&& mine

/-- Bytes of a chain from an offset, and how many remain. -/
def chainPart (chain : List Nat) (offset length : Nat) : List Nat :=
  let part := (chain.drop offset).take length
  [part.length, chain.length - offset - part.length] ++ part

/-! ### IDE keys (R317) -/

/-- Keys come for a key set of a stream: the stream is secure again, and a function that no other lost stream covers is
no longer blocked (log entry 104). -/
def ideProgram (stream keySet key : Nat) (s : State) : State :=
  let s := s.updHif (fun h => { h with
    ideKeys := mput h.ideKeys (2 * stream + keySet) (BitVec.ofNat 256 key), ideLost := h.ideLost.filter (· != stream) })
  let lost := fun f => s.hif.ideLost.any (fun x => (mget s.hif.ideCover x).any (fun c => decide (c.1 ≤ f) && decide (f ≤ c.2)))
  (List.range 32).foldl (fun s f =>
    if (s.fn f).ideInsecure && !lost f then sendPending f (drainFn f (s.updFn f (fun n => { n with ideInsecure := false }))) else s) s

/-! ### Answers by request code -/

/-- The responder answers a request. -/
def doeServe (r : DoeReq) (s : State) : State :=
  let a := fun (i : Nat) => r.fields.getD i 0
  let up := s.hif.algOk
  match r.code with
  | 0x84 => doeAnswer 0x04 [0x1200] (s.updHif (fun h => { h with verOk := true, algOk := false, exchanging := false, session := false }))
  | 0xE1 => if s.hif.verOk then doeAnswer 0x61 [0x62D6] s else doeError 4 s
  | 0xE3 =>
    if s.hif.verOk then doeAnswer 0x63 [chosenAlg (a 0) 0x80, chosenAlg (a 1) 2, chosenAlg (a 2) 0x10, chosenAlg (a 3) 2] (s.updHif (fun h => { h with algOk := true }))
    else doeError 4 s
  | 0x81 =>
    if !up then doeError 4 s
    else
      let live := (List.range 2).filter (fun n => (certChain s n).isSome)
      doeAnswer 0x01 (sumOf live (fun n => 2 ^ n) :: live.map (fun n => digestOf ((certChain s n).getD []))) s
  | 0x82 =>
    if !up then doeError 4 s
    else (match certChain s (a 0) with
      | some c => doeAnswer 0x02 (a 0 :: chainPart c (a 1) (a 2)) s
      | none => doeError 1 s)
  | 0x83 =>
    if !up then doeError 4 s
    else (match certChain s (a 0) with
      | some c =>
        let (n, s) := s.draw
        let l := [a 0, digestOf c, n]
        doeAnswer 0x03 (l ++ [Config.signature (a 0) (a 1 :: l)]) s
      | none => doeError 1 s)
  | 0xE0 =>
    if !up then doeError 4 s
    else if a 0 = 0 then doeAnswer 0x60 [8] s
    else
      let which := if a 0 = 0xFF then [1, 2, 3, 4, 5, 6, 7, 8] else if a 0 ≤ 8 then [a 0] else []
      if which.isEmpty then doeError 1 s
      else
        let l := which.length :: which.flatMap (fun i => i :: measurement s i)
        doeAnswer 0x60 (if a 1 = 1 then l ++ [Config.signature (a 2) (a 3 :: l)] else l) s
  | 0xE4 =>
    if !up then doeError 4 s
    else if (certChain s (a 0)).isNone then doeError 1 s
    else
      let (id, s) := s.draw
      let (n, s) := s.draw
      let l := [id % 65536, n]
      doeAnswer 0x64 (l ++ [Config.signature (a 0) (a 1 :: l)]) (s.updHif (fun h => { h with exchanging := true }))
  | 0xE5 =>
    if !s.hif.exchanging then doeError 4 s
    else if a 0 = 1 then doeAnswer 0x65 [] (s.updHif (fun h => { h with exchanging := false, session := true, keyUpdates := 0 }))
    else doeError 6 (s.updHif (fun h => { h with exchanging := false }))
  | 0xE9 =>
    if !s.hif.session then doeError 4 s
    else if a 0 = 0 ∨ 3 < a 0 then doeError 1 s
    else doeAnswer 0x69 [a 0, a 1] (s.updHif (fun h => { h with keyUpdates := if a 0 = 3 then h.keyUpdates else h.keyUpdates + 1 }))
  | 0xE8 => if s.hif.session then doeAnswer 0x68 [] s else doeError 4 s
  | 0xEC => if s.hif.session then doeAnswer 0x6C [] (s.updHif (fun h => { h with session := false })) else doeError 4 s
  | 0xFE =>
    if !s.hif.session then doeError 4 s
    else if a 0 < 2 ∧ a 1 < 2 then doeAnswer 0x7E [3, 0] (ideProgram (a 0) (a 1) (a 2) s)
    else doeAnswer 0x7E [3, 3] s
  | _ => doeError 7 s

/-- A request comes: while firmware is down it is held (R316). -/
def doeRequest (code : Nat) (fields : List Nat) (s : State) : State :=
  if s.fwDown || s.rdN Reg.FW_READY == 0 then
    (if s.fwDown then s.bump Reg.HIF_DOE_BUSY else s).updHif (fun h => { h with held := h.held ++ [⟨code, fields⟩] })
  else doeServe ⟨code, fields⟩ s

/-! ### Meanings -/

/-- SPDM_GET_VERSION (R316). -/
def execSpdmGetVersion (s : State) : Out := .next (doeRequest 0x84 [] s)

/-- SPDM_GET_CAPABILITIES (R316). -/
def execSpdmGetCapabilities (s : State) : Out := .next (doeRequest 0xE1 [] s)

/-- SPDM_NEGOTIATE_ALGORITHMS (R316), with the signature, hash, key exchange and cipher algorithms offered. -/
def execSpdmNegotiateAlgorithms (asym hash dhe aead : Nat) (s : State) : Out := .next (doeRequest 0xE3 [asym, hash, dhe, aead] s)

/-- SPDM_GET_DIGESTS (R316). -/
def execSpdmGetDigests (s : State) : Out := .next (doeRequest 0x81 [] s)

/-- SPDM_GET_CERTIFICATE (R316). -/
def execSpdmGetCertificate (slot offset length : Nat) (s : State) : Out := .next (doeRequest 0x82 [slot, offset, length] s)

/-- SPDM_CHALLENGE (R316). -/
def execSpdmChallenge (slot nonce : Nat) (s : State) : Out := .next (doeRequest 0x83 [slot, nonce] s)

/-- SPDM_GET_MEASUREMENTS (R484): index 0 asks for their number, 0xFF for all. -/
def execSpdmGetMeasurements (index : Nat) (sign : Bool) (slot nonce : Nat) (s : State) : Out :=
  .next (doeRequest 0xE0 [index, b2n sign, slot, nonce] s)

/-- SPDM_KEY_EXCHANGE (R316). -/
def execSpdmKeyExchange (slot exchange : Nat) (s : State) : Out := .next (doeRequest 0xE4 [slot, exchange] s)

/-- SPDM_FINISH (R316); `verifies` says that the requester's proof is right. -/
def execSpdmFinish (verifies : Bool) (s : State) : Out := .next (doeRequest 0xE5 [b2n verifies] s)

/-- SPDM_KEY_UPDATE (R316). -/
def execSpdmKeyUpdate (op tag : Nat) (s : State) : Out := .next (doeRequest 0xE9 [op, tag] s)

/-- SPDM_HEARTBEAT (R316). -/
def execSpdmHeartbeat (s : State) : Out := .next (doeRequest 0xE8 [] s)

/-- SPDM_END_SESSION (R316). -/
def execSpdmEndSession (s : State) : Out := .next (doeRequest 0xEC [] s)

/-- IDE_KM_KEY_PROG (R317): keys go in inside an SPDM session, answered with KP_ACK. -/
def execIdeKmKeyProg (stream keySet : Nat) (key : BitVec 256) (s : State) : Out :=
  .next (doeRequest 0xFE [stream, keySet, key.toNat] s)

/-- FW_READY_SET (23, R481): firmware has resumed its duties; requests that waited for it are served. -/
def execFwReadySet (s : State) : Out :=
  let p := s.rdN Reg.PWR_STATE
  if p ≤ 1 ∨ p = 4 then .next s
  else
    let held := s.hif.held
    let s := { (s.putN Reg.FW_READY 1).updHif (fun h => { h with held := [] }) with fwDown := false }
    let s := held.foldl (fun s r => doeServe r s) s
    if inRun s then
      let wait := s.adm.waiting
      .next (wait.foldl (fun s mb => evaluate mb s) { s with adm := { s.adm with waiting := [] } })
    else .next s

end Sys2Proof.Machine
end

