-- ==== Sys2Proof/Machine/ClusterMove.lean ====
section
/-! DEFINITION. Tile move instructions (08, Table CLU-19, R173, R174). -/

namespace Sys2Proof.Machine

/-! ### Windows and leases (04, R85, R89) -/

/-- Bytes of a segment, and the segments of a STREAM object. -/
def segBytes (o : Obj) : Nat := max 1 o.segPages * pageBytes
def segCount (o : Obj) : Nat := max 1 (o.size / segBytes o)

/-- Segments of the window whose current segment is `seg`. -/
def windowSegs (o : Obj) (seg : Nat) : List Nat :=
  (List.range (min o.depth (segCount o))).map (fun i => (seg + i) % segCount o)

/-- The launch's window covers every segment of a byte range. -/
def inWindow (o : Obj) (launch off len : Nat) : Bool :=
  match o.windows.find? (fun w => w.holder == launch) with
  | none => false
  | some w => (List.range ((off + len - 1) / segBytes o - off / segBytes o + 1)).all (fun i =>
      (windowSegs o w.seg).contains (off / segBytes o + i))

/-- The window of a launch leases a page. -/
def windowLeases (o : Obj) (launch page : Nat) : Bool :=
  o.flag 8 && (o.windows.find? (fun w => w.holder == launch)).any (fun w => (windowSegs o w.seg).contains (page / max 1 o.segPages))

/-- Take a read lease of a launch. -/
def leaseFor (launch slot obj page : Nat) (s : State) : State :=
  (takeLease slot obj page false s).updLch launch (fun l => { l with leases := l.leases ++ [(slot, obj, page)] })

/-- End a read lease of a launch. -/
def unleaseFor (launch slot obj page : Nat) (s : State) : State :=
  (endLease slot obj page false s).updLch launch (fun l => { l with leases := l.leases.erase (slot, obj, page) })

/-- A tile load from a READONLY object leases its pages for the launch (R85). -/
def leaseLoads (launch slot obj : Nat) (pages : List Nat) (s : State) : State :=
  pages.foldl (fun s i =>
    match s.obj slot obj, s.lch launch with
    | some o, some l =>
      let have_ := (l.leases.filter (fun x => x == (slot, obj, i))).length
      if o.flag 8 ∧ have_ ≤ b2n (windowLeases o launch i) then leaseFor launch slot obj i s else s
    | _, _ => s) s

/-! ### Checks -/

/-- Rows of an object side: the stride in bytes. -/
def objStride (w : Nat) (t : Tile) : Nat := if wMod w = 0 then t.rowSize else wMod w * lineBytes

/-- The object side of a TLD or TST: alignment, then the handle (R173). -/
def objSide (k major : Nat) (c : Cluster) (l : Launch) (w : Nat) (isWrite : Bool) (t : Tile) (body : Named → Nat → Nat → Nat → State → State)
    (s : State) : State :=
  let off := (c.sr (wC w)).toNat
  let rs := objStride w t
  let len := (t.rows - 1) * rs + t.rowSize
  if off % 64 ≠ 0 then cProg k c major s
  else match checkHandle s l.slot (c.hr (wB w)) isWrite off len (wB w) c.pc with
    | .error st => cFaultAt k c major st s
    | .ok n => body n off rs len s

/-- A destination in the delivery ring faults (R148). -/
def notRing (k major : Nat) (c : Cluster) (l : Launch) (t : Tile) (body : State → State) (s : State) : State :=
  if inRing l t then cPerm k c major 5 s else body s

/-- The two tiles of a move agree (R173). -/
def sameShape (a b : Tile) : Bool := a.rows == b.rows && a.rowSize == b.rowSize

/-! ### Moves to other ranks (R160; 12, R264) -/

/-- The most data a flit carries. -/
def flitData : Nat := 96

/-- Cut a byte count at an offset into flits. -/
def chunksOf (a n : Nat) : List (Nat × Nat) :=
  (List.range (cdiv n flitData)).map (fun i => (a + flitData * i, min flitData (n - flitData * i)))

/-- Send a tile's rows to a rank of another sled, for the move numbered `num`. -/
def sendPut (k launch num node rank : Nat) (c : Cluster) (src dst : Tile) (s : State) : State :=
  (List.range src.rows).foldl (fun s r => (chunksOf (dst.rowAt r) dst.rowSize).foldl (fun s ch =>
    match s.lch launch with
    | none => s
    | some l =>
      let data := (c.bytes (src.rowAt r + (ch.1 - dst.rowAt r)) ch.2).map (·.toNat)
      (sendReq (.tile launch k num) (tenId s l.slot) 0x42 node (fun _ => [ch.2, rank, l.spanId, ch.1] ++ data) s).2) s) s

/-- Ask a rank of another sled for a tile's rows, for the move numbered `num`. -/
def sendGet (k launch num node rank : Nat) (src : Tile) (s : State) : State :=
  (List.range src.rows).foldl (fun s r =>
    match s.lch launch with
    | none => s
    | some l => (sendReq (.tile launch k num) (tenId s l.slot) 0x43 node (fun _ => [rank, l.spanId, src.rowAt r, src.rowSize]) s).2) s

/-- Note the RTAG of the last flit on the move just issued. -/
def tagLast (k num : Nat) (s : State) : State :=
  let tag := if s.lnk.nextTag = 1 then 65535 else s.lnk.nextTag - 1
  s.updClu k (fun c => { c with moves := updWhere c.moves (fun m => m.num == num) (fun m => { m with tag := tag }) })

/-- The move was issued, rather than stalled or faulted. -/
def issuedMore (k : Nat) (c : Cluster) (s : State) : Bool := (s.clu k).any (fun d => decide (c.issued < d.issued))

/-- A move between ranks. -/
def rankMove (k major : Nat) (isPut : Bool) (c : Cluster) (l : Launch) (w : Nat) (s : State) : State :=
  withTile k c major (wA w) (fun ta => withTile k c major (wC w) (fun tc s =>
    let r := (c.sr (wB w)).toNat
    if !sameShape ta tc then cProg k c major s
    else if l.size ≤ r then cPerm k c major 5 s
    else notRing k major c l (if isPut then tc else ta) (fun s =>
      match clusterOfRank l r with
      | some k' => issueMove k major c w (if isPut then .copy k ta k' tc else .copy k' tc k ta) 0 s
      | none =>
        let node := (remoteRank l r).getD 0
        let s' := issueMove k major c w (if isPut then .put r ta tc else .get r tc ta) (if isPut then 1 else ta.rows * ta.rowSize) s
        if issuedMore k c s' then
          tagLast k c.issued (if isPut then sendPut k c.launch c.issued node r c ta tc s' else sendGet k c.launch c.issued node r tc s')
        else s') s)) s

/-! ### Instructions -/

/-- TLD (R173, R174). -/
def execClTld (cluster : Nat) (word : BitVec 56) (s : State) : Out :=
  cIssue cluster 0x40 word ⟨.r32, .r16, .r16, .r32, .r 0 [] false false 16⟩ noMore (fun c l w =>
    withTile cluster c 0x40 (wA w) (fun t =>
      objSide cluster 0x40 c l w false t (fun n off rs len s =>
        if n.obj.flag 4 && !inWindow n.obj c.launch off len then cPerm cluster c 0x40 (tierRes n.obj.base.tier) s
        else notRing cluster 0x40 c l t (fun s =>
          let s' := issueMove cluster 0x40 c w (.load n.slot n.idx off rs t) 0 s
          if issuedMore cluster c s' then leaseLoads c.launch n.slot n.idx (pagesOf n.obj off len) s' else s') s))) s

/-- TST (R173). -/
def execClTst (cluster : Nat) (word : BitVec 56) (s : State) : Out :=
  cIssue cluster 0x41 word ⟨.r32, .r16, .r16, .r32, .r 0 [] false false 16⟩ noMore (fun c l w =>
    withTile cluster c 0x41 (wA w) (fun t =>
      objSide cluster 0x41 c l w true t (fun n off rs _ => issueMove cluster 0x41 c w (.store t n.slot n.idx off rs) 0))) s

/-- TCP: tile tb into tile ta. -/
def execClTcp (cluster : Nat) (word : BitVec 56) (s : State) : Out :=
  cIssue cluster 0x42 word ⟨.r32, .r16, .r16, .no, plainR⟩ noMore (fun c l w =>
    withTile cluster c 0x42 (wA w) (fun ta => withTile cluster c 0x42 (wB w) (fun tb s =>
      if !sameShape ta tb then cProg cluster c 0x42 s
      else notRing cluster 0x42 c l ta (issueMove cluster 0x42 c w (.copy cluster tb cluster ta) 0) s))) s

/-- TPUT: local tile ta into tile tc of rank sb. -/
def execClTput (cluster : Nat) (word : BitVec 56) (s : State) : Out :=
  cIssue cluster 0x43 word ⟨.r32, .r16, .r32, .r16, plainR⟩ noMore (rankMove cluster 0x43 true) s

/-- TGET: tile tc of rank sb into local tile ta. -/
def execClTget (cluster : Nat) (word : BitVec 56) (s : State) : Out :=
  cIssue cluster 0x44 word ⟨.r32, .r16, .r32, .r16, plainR⟩ noMore (rankMove cluster 0x44 false) s

def execClTzero (cluster : Nat) (word : BitVec 56) (s : State) : Out :=
  cIssue cluster 0x45 word ⟨.r32, .r16, .no, .no, plainR⟩ noMore (fun c l w =>
    withTile cluster c 0x45 (wA w) (fun t => notRing cluster 0x45 c l t (issueMove cluster 0x45 c w (.zero t) 0))) s

/-- TWAIT (R156): a move in flight holds issue; a failed one is reported; any other token is complete. -/
def execClTwait (cluster : Nat) (word : BitVec 56) (s : State) : Out :=
  cIssue cluster 0x46 word ⟨.r32, .r32, .no, .no, .r 0 [] false true 0⟩ noMore (fun c _ w s =>
    let tok := (c.sr (wA w)).toNat % 65536
    let check := wF w == 1
    if c.moves.any (fun m => m.num % 65536 == tok) then
      s.updClu cluster (fun c => { c with wait := some (.move tok check (wD w), s.tb) })
    else
      let st := match c.failed.find? (fun m => m.num % 65536 == tok) with
        | some m => m.status
        | none => ⟨0, 0, 0⟩
      let s := s.updClu cluster (fun c => { c with failed := c.failed.filter (fun m => m.num % 65536 != tok) })
      if check then cUpd cluster (fun c => c.setS (wD w) (st.word.zeroExtend 64)) s
      else if 0x20 ≤ st.code then cFaultAt cluster c 0x46 st s
      else cNext cluster s) s

/-- The window of a launch moves from one set of segments to another (R89). -/
def moveWindow (launch : Nat) (n : Named) (old new : List Nat) (s : State) : State :=
  let pages := fun (segs : List Nat) => segs.flatMap (fun g => (List.range (max 1 n.obj.segPages)).map (fun i => g * max 1 n.obj.segPages + i))
  if n.obj.flag 8 then
    let s := (pages (old.filter (fun g => !new.contains g))).foldl (fun s p => unleaseFor launch n.slot n.idx p s) s
    (pages (new.filter (fun g => !old.contains g))).foldl (fun s p => leaseFor launch n.slot n.idx p s) s
  else s

/-- SADV (R174, R89): open the window at segment 0, or advance it by one segment. -/
def execClSadv (cluster : Nat) (word : BitVec 56) (s : State) : Out :=
  cIssue cluster 0x47 word ⟨.no, .r16, .no, .no, plainR⟩ noMore (fun c l w s =>
    match checkHandle s l.slot (c.hr (wA w)) false 0 0 (wA w) c.pc with
    | .error st => cFaultAt cluster c 0x47 st s
    | .ok n =>
      if !n.obj.flag 4 then cPerm cluster c 0x47 (tierRes n.obj.base.tier) s
      else match n.obj.windows.find? (fun v => v.holder == c.launch) with
        | none =>
          cNext cluster (moveWindow c.launch n [] (windowSegs n.obj 0)
            (s.updObj n.slot n.idx (fun o => { o with windows := o.windows ++ [⟨c.launch, 0⟩] })))
        | some v =>
          let seg := (v.seg + 1) % segCount n.obj
          cNext cluster (moveWindow c.launch n (windowSegs n.obj v.seg) (windowSegs n.obj seg)
            (s.updObj n.slot n.idx (fun o => { o with windows := updWhere o.windows (fun x => x.holder == c.launch) (fun x => { x with seg := seg }) })))) s

end Sys2Proof.Machine
end

