-- ==== Sys2Proof/Machine/ClusterScalar.lean ====
section
/-! DEFINITION. Scalar and branch instructions of the cluster profile (08, Tables CLU-15 and CLU-18).  Each command is the
issue of one instruction word by a cluster, whose rank's program holds the word at its index. -/

namespace Sys2Proof.Machine

/-! ### Arithmetic (R170) -/

/-- An operation on two registers. -/
def scalarRR (major cluster : Nat) (word : BitVec 56) (s : State) : Out :=
  cIssue cluster major word ⟨.r32, .r32, .r32, .no, plainR⟩ noMore (fun c _ w => cUpd cluster (fun c' =>
    let c' := if aluDivzero major (c.sr (wB w)) then c'.flag fDivzero else c'
    c'.setS (wD w) (alu major (c.sr (wA w)) (c.sr (wB w))))) s

/-- An operation on a register and the immediate. -/
def scalarRI (major op cluster : Nat) (low : Low) (word : BitVec 56) (s : State) : Out :=
  cIssue cluster major word ⟨.r32, .r32, .no, .no, low⟩ noMore (fun c _ w =>
    cUpd cluster (fun c' => c'.setS (wD w) (alu op (c.sr (wA w)) (wImm w)))) s

def execClNop (cluster : Nat) (word : BitVec 56) (s : State) : Out :=
  cIssue cluster 0x00 word {} noMore (fun _ _ _ => cNext cluster) s
def execClAdd (cluster : Nat) (word : BitVec 56) (s : State) : Out := scalarRR 0x01 cluster word s
def execClSub (cluster : Nat) (word : BitVec 56) (s : State) : Out := scalarRR 0x02 cluster word s
def execClMul (cluster : Nat) (word : BitVec 56) (s : State) : Out := scalarRR 0x03 cluster word s
def execClMulh (cluster : Nat) (word : BitVec 56) (s : State) : Out := scalarRR 0x04 cluster word s
def execClMulhu (cluster : Nat) (word : BitVec 56) (s : State) : Out := scalarRR 0x05 cluster word s
def execClDiv (cluster : Nat) (word : BitVec 56) (s : State) : Out := scalarRR 0x06 cluster word s
def execClDivu (cluster : Nat) (word : BitVec 56) (s : State) : Out := scalarRR 0x07 cluster word s
def execClRem (cluster : Nat) (word : BitVec 56) (s : State) : Out := scalarRR 0x08 cluster word s
def execClRemu (cluster : Nat) (word : BitVec 56) (s : State) : Out := scalarRR 0x09 cluster word s
def execClAnd (cluster : Nat) (word : BitVec 56) (s : State) : Out := scalarRR 0x0A cluster word s
def execClOr (cluster : Nat) (word : BitVec 56) (s : State) : Out := scalarRR 0x0B cluster word s
def execClXor (cluster : Nat) (word : BitVec 56) (s : State) : Out := scalarRR 0x0C cluster word s
def execClShl (cluster : Nat) (word : BitVec 56) (s : State) : Out := scalarRR 0x0D cluster word s
def execClShr (cluster : Nat) (word : BitVec 56) (s : State) : Out := scalarRR 0x0E cluster word s
def execClSar (cluster : Nat) (word : BitVec 56) (s : State) : Out := scalarRR 0x0F cluster word s
def execClMin (cluster : Nat) (word : BitVec 56) (s : State) : Out := scalarRR 0x10 cluster word s
def execClMax (cluster : Nat) (word : BitVec 56) (s : State) : Out := scalarRR 0x11 cluster word s
def execClMinu (cluster : Nat) (word : BitVec 56) (s : State) : Out := scalarRR 0x12 cluster word s
def execClMaxu (cluster : Nat) (word : BitVec 56) (s : State) : Out := scalarRR 0x13 cluster word s
def execClAddi (cluster : Nat) (word : BitVec 56) (s : State) : Out := scalarRI 0x18 0x01 cluster .imm word s
def execClAndi (cluster : Nat) (word : BitVec 56) (s : State) : Out := scalarRI 0x19 0x0A cluster .imm word s
def execClOri (cluster : Nat) (word : BitVec 56) (s : State) : Out := scalarRI 0x1A 0x0B cluster .imm word s
def execClXori (cluster : Nat) (word : BitVec 56) (s : State) : Out := scalarRI 0x1B 0x0C cluster .imm word s
def execClShli (cluster : Nat) (word : BitVec 56) (s : State) : Out := scalarRI 0x1C 0x0D cluster (.immBelow 64) word s
def execClShri (cluster : Nat) (word : BitVec 56) (s : State) : Out := scalarRI 0x1D 0x0E cluster (.immBelow 64) word s
def execClSari (cluster : Nat) (word : BitVec 56) (s : State) : Out := scalarRI 0x1E 0x0F cluster (.immBelow 64) word s

def execClLi (cluster : Nat) (word : BitVec 56) (s : State) : Out :=
  cIssue cluster 0x1F word ⟨.r32, .no, .no, .no, .imm⟩ noMore (fun _ _ w => cUpd cluster (fun c => c.setS (wD w) (wImm w))) s

/-- LIH: the high half is the immediate, the low half stays. -/
def execClLih (cluster : Nat) (word : BitVec 56) (s : State) : Out :=
  cIssue cluster 0x20 word ⟨.r32, .no, .no, .no, .imm⟩ noMore (fun _ _ w => cUpd cluster (fun c =>
    c.setS (wD w) (BitVec.ofNat 32 (wImmU w) ++ (c.sr (wD w)).truncate 32))) s

/-! ### Predicates (Tables CLU-16 and CLU-17) -/

/-- A truth value as a lane mask. -/
def maskOf (b : Bool) : DWord := if b then BitVec.allOnes 64 else 0

def execClCmp (cluster : Nat) (word : BitVec 56) (s : State) : Out :=
  cIssue cluster 0x21 word ⟨.r8, .r32, .r32, .no, .r 6 [] false false 0⟩ noMore (fun c _ w => cUpd cluster (fun c' =>
    c'.setP (wD w) (maskOf (condHolds (wSub w) (c.sr (wA w)) (c.sr (wB w)))))) s

def execClCmpi (cluster : Nat) (word : BitVec 56) (s : State) : Out :=
  cIssue cluster 0x22 word ⟨.r8, .r32, .no, .code 6, .imm⟩ noMore (fun c _ w => cUpd cluster (fun c' =>
    c'.setP (wD w) (maskOf (condHolds (wC w) (c.sr (wA w)) (wImm w))))) s

/-- The files that PLOG's SUB selects (R166). -/
def plogEnc (sub : Nat) : Enc :=
  let low : Low := .r 7 [] false false 0
  match sub with
  | 4 => ⟨.r8, .r8, .no, .no, low⟩
  | 5 => ⟨.r8, .r32, .no, .no, low⟩
  | 6 => ⟨.r32, .r8, .no, .no, low⟩
  | _ => ⟨.r8, .r8, .r8, .no, low⟩

/-- PLOG (Table CLU-17). -/
def execClPlog (cluster : Nat) (word : BitVec 56) (s : State) : Out :=
  cIssue cluster 0x23 word (plogEnc (wSub word.toNat)) noMore (fun c _ w => cUpd cluster (fun c' =>
    let a := c.pr (wA w)
    let b := c.pr (wB w)
    match wSub w with
    | 0 => c'.setP (wD w) (a &&& b)
    | 1 => c'.setP (wD w) (a ||| b)
    | 2 => c'.setP (wD w) (a ^^^ b)
    | 3 => c'.setP (wD w) (a &&& ~~~b)
    | 4 => c'.setP (wD w) (~~~a)
    | 5 => c'.setP (wD w) (c.sr (wA w))
    | _ => c'.setS (wD w) a)) s

/-! ### System values, flags, descriptors and handles -/

/-- A system value (Table CLU-26). The cycle within the microsecond is not stated (log entry 51). -/
def sysValue (s : State) (c : Cluster) (l : Launch) (n : Nat) : DWord :=
  match n with
  | 0 => BitVec.ofNat 64 c.rank
  | 1 => BitVec.ofNat 64 l.size
  | 2 => BitVec.ofNat 64 (1600 * (s.tb - l.started.getD s.tb) + s.draw.1 % 1600)
  | 3 => BitVec.ofNat 64 s.tb
  | 4 => BitVec.ofNat 64 (c.flags % 128)
  | 5 => BitVec.ofNat 64 (b2n l.notice.isSome)
  | 6 => BitVec.ofNat 64 l.slots
  | 7 => BitVec.ofNat 64 l.pages.length
  | 8 => BitVec.ofNat 64 (((l.step.bind (fun t => s.step? t.1)).map (fun t => t.entries.length)).getD 0)
  | _ => BitVec.ofNat 64 c.moves.length

def execClMovsys (cluster : Nat) (word : BitVec 56) (s : State) : Out :=
  cIssue cluster 0x24 word ⟨.r32, .no, .no, .no, .immBelow 10⟩ noMore (fun c l w s =>
    let v := sysValue s c l (wImmU w)
    cUpd cluster (fun c' => c'.setS (wD w) v) (if wImmU w = 2 then s.draw.2 else s)) s

def execClClrfl (cluster : Nat) (word : BitVec 56) (s : State) : Out :=
  cIssue cluster 0x25 word ⟨.no, .no, .no, .no, .immBelow 128⟩ noMore (fun c _ w =>
    cUpd cluster (fun c' => { c' with flags := c.flags &&& (127 ^^^ wImmU w) })) s

def execClTdset (cluster : Nat) (word : BitVec 56) (s : State) : Out :=
  cIssue cluster 0x26 word ⟨.r16, .r32, .no, .no, plainR⟩ noMore (fun c _ w => cUpd cluster (fun c' => c'.setT (wD w) (c.sr (wA w)))) s

def execClTdget (cluster : Nat) (word : BitVec 56) (s : State) : Out :=
  cIssue cluster 0x27 word ⟨.r32, .r16, .no, .no, plainR⟩ noMore (fun c _ w => cUpd cluster (fun c' => c'.setS (wD w) (c.tr (wA w)))) s

/-- TDADD: BASE moves by sb modulo 65,536. -/
def execClTdadd (cluster : Nat) (word : BitVec 56) (s : State) : Out :=
  cIssue cluster 0x28 word ⟨.r16, .r16, .r32, .no, plainR⟩ noMore (fun c _ w => cUpd cluster (fun c' =>
    c'.setT (wD w) (BitVec.ofNat 64 (setBits (c.tr (wA w)).toNat 0 16 ((c.tr (wA w)).toNat + (c.sr (wB w)).toNat))))) s

def execClHset (cluster : Nat) (word : BitVec 56) (s : State) : Out :=
  cIssue cluster 0x29 word ⟨.r16, .r32, .no, .no, plainR⟩ noMore (fun c _ w => cUpd cluster (fun c' => c'.setH (wD w) (c.sr (wA w)))) s

def execClHget (cluster : Nat) (word : BitVec 56) (s : State) : Out :=
  cIssue cluster 0x2A word ⟨.r32, .r16, .no, .no, plainR⟩ noMore (fun c _ w => cUpd cluster (fun c' => c'.setS (wD w) (c.hr (wA w)))) s

def execClHmov (cluster : Nat) (word : BitVec 56) (s : State) : Out :=
  cIssue cluster 0x2B word ⟨.r16, .r16, .no, .no, plainR⟩ noMore (fun c _ w => cUpd cluster (fun c' => c'.setH (wD w) (c.hr (wA w)))) s

/-! ### Branches (R171) -/

/-- A taken branch: a target outside the program faults at the branch. -/
def jump (k : Nat) (c : Cluster) (l : Launch) (major : Nat) (target : Int) (s : State) : State :=
  if 0 ≤ target ∧ target < l.code.length then goTo k target.toNat s else cProg k c major s

/-- Branch to index + IMM, or go on. -/
def branchIf (k : Nat) (c : Cluster) (l : Launch) (major : Nat) (taken : Bool) (w : Nat) (s : State) : State :=
  if taken then jump k c l major ((c.pc : Int) + (wImm w).toInt) s else cNext k s

def execClBr (cluster : Nat) (word : BitVec 56) (s : State) : Out :=
  cIssue cluster 0x30 word ⟨.no, .no, .no, .no, .imm⟩ noMore (fun c l w => branchIf cluster c l 0x30 true w) s

def execClBz (cluster : Nat) (word : BitVec 56) (s : State) : Out :=
  cIssue cluster 0x31 word ⟨.no, .r32, .no, .no, .imm⟩ noMore (fun c l w => branchIf cluster c l 0x31 (c.sr (wA w) == 0) w) s

def execClBnz (cluster : Nat) (word : BitVec 56) (s : State) : Out :=
  cIssue cluster 0x32 word ⟨.no, .r32, .no, .no, .imm⟩ noMore (fun c l w => branchIf cluster c l 0x32 (c.sr (wA w) != 0) w) s

/-- LOOP writes sa, then branches while the difference is not 0 (log entry 52). -/
def execClLoop (cluster : Nat) (word : BitVec 56) (s : State) : Out :=
  cIssue cluster 0x33 word ⟨.no, .r32, .no, .no, .imm⟩ noMore (fun c l w s =>
    let v := c.sr (wA w) - 1
    branchIf cluster c l 0x33 (v != 0) w (s.updClu cluster (fun c => c.setS (wA w) v))) s

def execClCall (cluster : Nat) (word : BitVec 56) (s : State) : Out :=
  cIssue cluster 0x34 word ⟨.r32, .no, .no, .no, .imm⟩ noMore (fun c l w s =>
    branchIf cluster c l 0x34 true w (s.updClu cluster (fun c' => c'.setS (wD w) (BitVec.ofNat 64 (c.pc + 1))))) s

def execClJr (cluster : Nat) (word : BitVec 56) (s : State) : Out :=
  cIssue cluster 0x35 word ⟨.no, .r32, .no, .no, plainR⟩ noMore (fun c l w => jump cluster c l 0x35 (c.sr (wA w)).toNat) s

/-- END (R172): the rank issues nothing more, and ends when its moves, collectives and injections have completed. -/
def execClEnd (cluster : Nat) (word : BitVec 56) (s : State) : Out :=
  cIssue cluster 0x36 word {} noMore (fun c _ _ s =>
    if c.moves.isEmpty ∧ c.port.isEmpty then finishRank cluster s
    else s.updClu cluster (fun c => { c with wait := some (.fin, s.tb) })) s

end Sys2Proof.Machine
end

