-- ==== Sys2Proof/Machine/ClusterSync.lean ====
section
/-! DEFINITION. Synchronisation, KV, event, collective and step interface instructions (08, Tables CLU-24, CLU-28, CLU-29
and CLU-30). -/

namespace Sys2Proof.Machine

/-! ### Synchronisation (R181; 07, Table CLU-6) -/

/-- FENCE: holds issue until every earlier move has completed. -/
def execClFence (cluster : Nat) (word : BitVec 56) (s : State) : Out :=
  cIssue cluster 0x80 word {} noMore (fun c _ _ s =>
    if c.moves.isEmpty then cNext cluster s else s.updClu cluster (fun c => { c with wait := some (.fence, s.tb) })) s

/-- The low word of an instruction whose MOD[4:0] names a semaphore. -/
def semLow : Low := .r 0 [] false false 5

/-- SIGNAL: applied at the target after every earlier move of the signaller. -/
def execClSignal (cluster : Nat) (word : BitVec 56) (s : State) : Out :=
  cIssue cluster 0x81 word ⟨.no, .r32, .r32, .no, semLow⟩ noMore (fun c l w s =>
    if l.size ≤ (c.sr (wA w)).toNat then cPerm cluster c 0x81 5 s
    else
      let g : Signal := ⟨(c.sr (wA w)).toNat, wMod w, (c.sr (wB w)).truncate 32, c.issued⟩
      sendSignals cluster (cUpd cluster (fun c => { c with sigs := c.sigs ++ [g] }) s)) s

/-- SWAIT: waits until the own semaphore reaches sa. -/
def execClSwait (cluster : Nat) (word : BitVec 56) (s : State) : Out :=
  cIssue cluster 0x82 word ⟨.no, .r32, .no, .no, semLow⟩ noMore (fun c _ w s =>
    if (c.sr (wA w)).toNat ≤ (c.semv (wMod w)).toNat then cNext cluster s
    else s.updClu cluster (fun c => { c with wait := some (.sem (wMod w) (c.sr (wA w)), s.tb) })) s

def execClSread (cluster : Nat) (word : BitVec 56) (s : State) : Out :=
  cIssue cluster 0x83 word ⟨.r32, .no, .no, .no, semLow⟩ noMore (fun c _ w =>
    cUpd cluster (fun c' => c'.setS (wD w) (c.semv (wMod w)))) s

/-- BAR: returns when every rank has issued as many. -/
def execClBar (cluster : Nat) (word : BitVec 56) (s : State) : Out :=
  cIssue cluster 0x84 word {} noMore (fun c _ _ s =>
    tryBar c.launch (s.updClu cluster (fun c => { c with wait := some (.bar, s.tb) }))) s

/-! ### The delivery ring (R182) -/

/-- KVWAIT: the page must be one that can come into its slot. -/
def execClKvwait (cluster : Nat) (word : BitVec 56) (s : State) : Out :=
  cIssue cluster 0x88 word ⟨.r32, .r32, .no, .no, plainR⟩ noMore (fun c l w s =>
    let n := (c.sr (wA w)).toNat
    if l.slots = 0 ∨ l.pages.length ≤ n ∨ n < c.kvRel ∨ c.kvRel + l.slots ≤ n then cProg cluster c 0x88 s
    else checkKv cluster (s.updClu cluster (fun c => { c with wait := some (.kv n (wD w), s.tb) }))) s

/-- KVREL: releases the oldest page, so that its slot can take the page N later. -/
def execClKvrel (cluster : Nat) (word : BitVec 56) (s : State) : Out :=
  cIssue cluster 0x89 word ⟨.no, .r32, .no, .no, plainR⟩ noMore (fun c l w s =>
    if (c.sr (wA w)).toNat ≠ c.kvRel then cProg cluster c 0x89 s
    else fillSlot cluster (c.kvRel + l.slots) (cUpd cluster (fun c => { c with kvRel := c.kvRel + 1 }) s)) s

/-- KVINFO (Table CLU-25). -/
def execClKvinfo (cluster : Nat) (word : BitVec 56) (s : State) : Out :=
  cIssue cluster 0x8A word ⟨.r32, .r32, .no, .no, plainR⟩ noMore (fun c l w =>
    match l.pages[(c.sr (wA w)).toNat]? with
    | none => cProg cluster c 0x8A
    | some p => cUpd cluster (fun c' => c'.setS (wD w)
        (BitVec.ofNat 64 (p.entry % 65536 + 2 ^ 16 * (p.block % 2 ^ 32) + 2 ^ 48 * (p.valid % 128) + 2 ^ 55 * b2n p.priv)))) s

/-! ### Events (R183) -/

/-- The word the port holds: the epoch in force, the marker, and zeroes. -/
def portWord (s : State) (x : Word) : Word :=
  BitVec.ofNat 32 (x.toNat / 16 * 16 + 8 * s.fld Reg.EVF_EPOCH 0 1 + 2 * bits x.toNat 1 1)

/-- Put events into the port; while it holds 32 the instruction waits (log entry 54). -/
def portPut (k : Nat) (c : Cluster) (xs : List Word) (s : State) : State :=
  if 32 ≤ c.port.length then s
  else
    let xs := xs.map (portWord s)
    cUpd k (fun c => { c with port := c.port ++ xs }) s

def execClEvinj (cluster : Nat) (word : BitVec 56) (s : State) : Out :=
  cIssue cluster 0x90 word ⟨.no, .r32, .no, .no, plainR⟩ noMore (fun c _ w => portPut cluster c [(c.sr (wA w)).truncate 32]) s

/-- EVINJV: a vector instruction; active lanes in ascending order. -/
def execClEvinjv (cluster : Nat) (word : BitVec 56) (s : State) : Out :=
  vIssue cluster 0x91 word ⟨.no, .r32, .no, .no, plainR⟩ noMore (fun c _ w => portPut cluster c
    (((List.range 64).filter (fun n => (c.guard w).getLsbD n)).map (fun n => c.vr (wA w) n))) s

/-! ### Collectives (R184, R185) -/

/-- The checks of a collective, then its issue. -/
def collChecked (k : Nat) (c : Cluster) (l : Launch) (w : Nat) (g : Coll) (s : State) : State :=
  let bad := match g.major, g.b with
    | 0xA0, _ => decide (2 < g.a.fmt)
    | 0xA1, _ => decide (l.size ≤ g.root)
    | 0xA2, some b => b.rows != l.size * g.a.rows
    | _, some b => decide (2 < g.a.fmt) || decide (2 < b.fmt) || g.a.rows != l.size * b.rows
    | _, none => true
  if bad then cProg k c g.major s
  else if inRing l g.dst then cPerm k c g.major 5 s
  else issueColl k c w g s

def execClCallr (cluster : Nat) (word : BitVec 56) (s : State) : Out :=
  cIssue cluster 0xA0 word ⟨.r32, .r16, .no, .no, .r 3 [] false false 0⟩ noMore (fun c l w =>
    withTile cluster c 0xA0 (wA w) (fun a => collChecked cluster c l w ⟨0xA0, wSub w, 0, a, none⟩)) s

def execClCbcast (cluster : Nat) (word : BitVec 56) (s : State) : Out :=
  cIssue cluster 0xA1 word ⟨.r32, .r16, .r32, .no, plainR⟩ noMore (fun c l w =>
    withTile cluster c 0xA1 (wA w) (fun a => collChecked cluster c l w ⟨0xA1, 0, (c.sr (wB w)).toNat, a, none⟩)) s

def execClCagath (cluster : Nat) (word : BitVec 56) (s : State) : Out :=
  cIssue cluster 0xA2 word ⟨.r32, .r16, .r16, .no, plainR⟩ noMore (fun c l w =>
    withTile cluster c 0xA2 (wA w) (fun a => withTile cluster c 0xA2 (wB w) (fun b =>
      collChecked cluster c l w ⟨0xA2, 0, 0, a, some b⟩))) s

def execClCrdsc (cluster : Nat) (word : BitVec 56) (s : State) : Out :=
  cIssue cluster 0xA3 word ⟨.r32, .r16, .r16, .no, .r 3 [] false false 0⟩ noMore (fun c l w =>
    withTile cluster c 0xA3 (wA w) (fun a => withTile cluster c 0xA3 (wB w) (fun b =>
      collChecked cluster c l w ⟨0xA3, wSub w, 0, a, some b⟩))) s

/-! ### The step interface (R186) -/

/-- Run a body with the step of the launch and the batch entry sa names; elsewhere FAULT_PROGRAM. -/
def withEntry (k major : Nat) (c : Cluster) (l : Launch) (w : Nat) (body : Nat → Nat → Step → StepEntry → State → State) (s : State) : State :=
  let i := (c.sr (wA w)).toNat
  match l.step with
  | none => cProg k c major s
  | some (id, g) =>
    match s.step? id with
    | none => cProg k c major s
    | some t => match t.entries[i]? with
      | none => cProg k c major s
      | some e => body id g t e s

/-- TOKOUT: only in the last group, once per entry; no effect on ranks but 0 and for entries that produce no token. -/
def execClTokout (cluster : Nat) (word : BitVec 56) (s : State) : Out :=
  cIssue cluster 0xA8 word ⟨.no, .r32, .r32, .no, plainR⟩ noMore (fun c l w =>
    withEntry cluster 0xA8 c l w (fun id g t e s =>
      let i := (c.sr (wA w)).toNat
      if g + 1 ≠ groupsOf s t.model then cProg cluster c 0xA8 s
      else if c.rank ≠ 0 ∨ e.produces = false then cNext cluster s
      else if (mget t.tokOut i).isSome then cProg cluster c 0xA8 s
      else cNext cluster (s.updStep id (fun t => { t with tokOut := mput t.tokOut i ((c.sr (wB w)).toNat % 2 ^ 32) })))) s

/-- EOT: the entry's turn ends at step end. -/
def execClEot (cluster : Nat) (word : BitVec 56) (s : State) : Out :=
  cIssue cluster 0xA9 word ⟨.no, .r32, .no, .no, plainR⟩ noMore (fun c l w =>
    withEntry cluster 0xA9 c l w (fun id _ t _ s =>
      let i := (c.sr (wA w)).toNat
      if c.rank ≠ 0 ∨ t.eot.contains i then cNext cluster s
      else cNext cluster (s.updStep id (fun t => { t with eot := t.eot ++ [i] })))) s

end Sys2Proof.Machine
end

