-- ==== Sys2Proof/Machine/ClusterTensor.lean ====
section
/-! DEFINITION. Tensor instructions (08, Table CLU-20, R175, R176; 07, R153, R154). -/

namespace Sys2Proof.Machine

/-! ### Stochastic rounding (R152) -/

/-- The generator's state at launch. -/
def rngSeed (l : Launch) (rank lane : Nat) : Word :=
  let x := l.seed.truncate 32 ^^^ (BitVec.ofNat 32 (64 * rank + lane + 1) * 0x9E3779B9#32)
  if x = 0 then 1 else x

/-- One advance of the generator. -/
def xorshift (x : Word) : Word :=
  let x := x ^^^ (x <<< 13)
  let x := x ^^^ (x >>> 17)
  x ^^^ (x <<< 5)

/-- A lane draws for a finite value in SR mode; in every other mode nothing is drawn. -/
def Cluster.drawFor (c : Cluster) (l : Launch) (mode lane : Nat) (x : Num) : Nat × Cluster :=
  match x with
  | .fin _ _ _ =>
    if mode = 4 then
      let y := xorshift ((mget c.rng lane).getD (rngSeed l c.rank lane))
      (y.toNat / 256, { c with rng := mput c.rng lane y })
    else (0, c)
  | _ => (0, c)

/-- Draws for values in order, each on the lane that converts it (its column modulo 64). -/
def Cluster.drawAll (c : Cluster) (l : Launch) (mode : Nat) : List (Nat × Num) → List Nat × Cluster
  | [] => ([], c)
  | (col, x) :: r =>
    let (u, c) := c.drawFor l mode (col % 64) x
    let (us, c) := c.drawAll l mode r
    (u :: us, c)

/-- Encode a block of 32 columns from `col`; a block that holds a NaN or an infinity converts no element, so it draws
nothing (R151, R152). -/
def encodeCols (c : Cluster) (l : Launch) (t : Tile) (mode col : Nat) (xs : List Num) : Nat × List Nat × Nat × Cluster :=
  let finite := xs.all (fun x => match x with | .fin _ _ _ => true | _ => false)
  let (us, c) := if finite then c.drawAll l mode (((List.range xs.length).map (· + col)).zip xs) else (List.replicate xs.length 0, c)
  let (s, els, f) := encodeBlock t.fmt t.alt mode us xs
  (s, els, f, c)

/-- Put a block's elements and scale into a row. -/
def putBlock (t : Tile) (m : Memory) (col s : Nat) (els : List Nat) : Memory :=
  let m := ((List.range els.length).zip els).foldl (fun m e => putElem m 0 t.fmt (col + e.1) e.2) m
  writeByte m (elemBytes t.fmt t.cols + col / 32) (BitVec.ofNat 8 s)

/-! ### Accumulators -/

/-- Set every element of an accumulator for which `f` gives a value; the others stay. -/
def Cluster.updAcc (c : Cluster) (a rows cols : Nat) (f : Nat → Nat → Word) : Cluster :=
  let old := c.a.filter (fun e => e.1 / 16384 == a && (decide (rows ≤ e.1 % 16384 / 128) || decide (cols ≤ e.1 % 128)))
  let new := (List.range rows).flatMap (fun i => (List.range cols).filterMap (fun j =>
    let x := f i j
    if x = 0 then none else some (16384 * a + 128 * i + j, x)))
  { c with a := c.a.takeWhile (fun e => decide (e.1 / 16384 < a)) ++ old.foldl (fun m e => mput m e.1 e.2) new ++
      c.a.dropWhile (fun e => decide (e.1 / 16384 ≤ a)) }

/-- The decoded rows of a tile. -/
def tileNums (c : Cluster) (t : Tile) : List (List Num) :=
  (List.range t.rows).map (fun r => let m := t.rowMem c r; (List.range t.cols).map (fun j => rowNum m 0 t.fmt t.alt t.cols j))

/-- Products of two rows over K, in blocks of 32. -/
def rowBlocks (a b : List Num) : Nat → List (List (Num × Num))
  | 0 => []
  | n + 1 => (a.take 32).zip (b.take 32) :: rowBlocks (a.drop 32) (b.drop 32) n

/-- MMA on the registers of a cluster: ad += A·Bᵀ (R153, R175). -/
def mmaOn (ad : Nat) (ta tb : Tile) (c : Cluster) : Cluster :=
  let a := tileNums c ta
  let b := tileNums c tb
  let r : List (List (Word × Nat)) := ((List.range ta.rows).zip a).map (fun x => ((List.range tb.rows).zip b).map (fun y =>
    mulAcc (c.acc ad x.1 y.1) (rowBlocks x.2 y.2 (ta.cols / 32))))
  (c.updAcc ad ta.rows tb.rows (fun i j => ((r.getD i []).getD j (0, 0)).1)).flag
    (r.foldl (fun f row => row.foldl (fun f x => f ||| x.2) f) 0)

/-- The checks of MMA, then its body. -/
def mmaIssue (k major : Nat) (clear : Bool) (word : BitVec 56) (s : State) : Out :=
  cIssue k major word ⟨.r8, .r16, .r16, .no, plainR⟩ noMore (fun c _ w =>
    withTile k c major (wA w) (fun ta => withTile k c major (wB w) (fun tb s =>
      if 128 < ta.rows ∨ 128 < tb.rows ∨ ta.cols ≠ tb.cols ∨ ta.cols % 32 ≠ 0 ∨ ta.fmt = 0 ∨ tb.fmt = 0 then cProg k c major s
      else cUpd k (fun c => mmaOn (wD w) ta tb (if clear then c.clearAcc (wD w) else c)) s))) s

def execClMma (cluster : Nat) (word : BitVec 56) (s : State) : Out := mmaIssue cluster 0x50 false word s
def execClMmaz (cluster : Nat) (word : BitVec 56) (s : State) : Out := mmaIssue cluster 0x51 true word s

def execClAzero (cluster : Nat) (word : BitVec 56) (s : State) : Out :=
  cIssue cluster 0x52 word ⟨.r8, .no, .no, .no, plainR⟩ noMore (fun _ _ w => cUpd cluster (fun c => c.clearAcc (wD w))) s

/-- ALD: a tile decoded into an accumulator (R149, R176). -/
def execClAld (cluster : Nat) (word : BitVec 56) (s : State) : Out :=
  cIssue cluster 0x53 word ⟨.r8, .r16, .no, .no, plainR⟩ noMore (fun c _ w =>
    withTile cluster c 0x53 (wA w) (fun t s =>
      if 128 < t.rows ∨ 128 < t.cols then cProg cluster c 0x53 s
      else
        let r : List (List (Word × Nat)) := (List.range t.rows).map (fun i =>
          let m := t.rowMem c i
          (List.range t.cols).map (fun j => rowF32 m 0 t.fmt t.alt t.cols j))
        cUpd cluster (fun c => (c.updAcc (wD w) t.rows t.cols (fun i j => ((r.getD i []).getD j (0, 0)).1)).flag
          (r.foldl (fun f row => row.foldl (fun f x => f ||| x.2) f) 0)) s)) s

/-- Convert values of one row into a tile's row, column 0 on. -/
def storeRow (l : Launch) (t : Tile) (mode row : Nat) (xs : List Num) (c : Cluster) : Cluster :=
  let m := t.rowMem c row
  if scaled t.fmt then
    let r := (List.range (xs.length / 32)).foldl (fun (x : Memory × Cluster) b =>
      let (s, els, f, c) := encodeCols x.2 l t mode (32 * b) ((xs.drop (32 * b)).take 32)
      (putBlock t x.1 (32 * b) s els, c.flag f)) (m, c)
    t.putRow r.2 row r.1
  else
    let r := ((List.range xs.length).zip xs).foldl (fun (x : Memory × Cluster) e =>
      let (u, c) := x.2.drawFor l mode (e.1 % 64) e.2
      let (b, f) := elemEncode t.fmt t.alt mode u e.2
      (putElem x.1 0 t.fmt e.1 b, c.flag f)) (m, c)
    t.putRow r.2 row r.1

/-- AST: an accumulator converted into a tile (R176). -/
def execClAst (cluster : Nat) (word : BitVec 56) (s : State) : Out :=
  cIssue cluster 0x54 word ⟨.r16, .r8, .no, .no, .r 0 [] true false 0⟩ noMore (fun c l w =>
    withTile cluster c 0x54 (wD w) (fun t s =>
      if 128 < t.rows ∨ 128 < t.cols then cProg cluster c 0x54 s
      else if inRing l t then cPerm cluster c 0x54 5 s
      else cUpd cluster (fun c => (List.range t.rows).foldl (fun c i =>
        storeRow l t (wRm w) i ((List.range t.cols).map (fun j => f32 (c.acc (wA w) i j))) c) c) s)) s

end Sys2Proof.Machine
end

