-- ==== Sys2Proof/Machine/ClusterVector.lean ====
section
/-! DEFINITION. Vector and reduction instructions (08, Tables CLU-22 and CLU-23, R177 to R180, R559; 07, R155). -/

namespace Sys2Proof.Machine

/-- Lane types of Table CLU-21: all, the floating-point ones and the integers. -/
def tyAll : List Nat := [0, 1, 2, 8, 9]
def tyFloat : List Nat := [0, 1, 2]
def tyInt : List Nat := [8, 9]

/-- What a lane computes: bits, or a value still to be rounded to a lane type. -/
inductive LaneOut where
  | bits (x : Word) (fl : Nat)
  | num (ty : Nat) (x : Num) (fl : Nat)

/-- Write one lane of the destination. -/
def putLane (l : Launch) (mode d n : Nat) (o : LaneOut) (c : Cluster) : Cluster :=
  match o with
  | .bits x f => (c.flag f).setV d n x
  | .num ty x f =>
    let (u, c) := c.drawFor l mode n x
    let (y, g) := numLane ty mode u x
    (c.flag (f ||| g)).setV d n y

/-- Write every active lane of vd from the registers read at issue (R167, R168). -/
def vecLanes (k : Nat) (c : Cluster) (l : Launch) (w mode : Nat) (f : Nat → LaneOut) (s : State) : State :=
  cUpd k (fun c' => (List.range 64).foldl (fun c' n => if (c.guard w).getLsbD n then putLane l mode (wD w) n (f n) c' else c') c') s

/-! ### Lane arithmetic -/

/-- An integer sum or difference, wrapping or clamped (R155, R177). -/
def intAddSub (ty : Nat) (sub sat : Bool) (a b : Word) : LaneOut :=
  let v := fun (x : Word) => if ty = 8 then x.toInt else (x.toNat : Int)
  let r := if sub then v a - v b else v a + v b
  let lo : Int := if ty = 8 then -2147483648 else 0
  let hi : Int := if ty = 8 then 2147483647 else 4294967295
  if sat && (decide (r < lo) || decide (hi < r)) then .bits (BitVec.ofInt 32 (if r < lo then lo else hi)) fSaturate
  else .bits (BitVec.ofInt 32 r) 0

/-- VADD and VSUB on a lane. -/
def addLane (ty : Nat) (sub sat : Bool) (mode : Nat) (a b : Word) : LaneOut :=
  if 8 ≤ ty then intAddSub ty sub sat a b
  else
    let y := laneNum ty b
    let (x, f) := addNum mode (laneNum ty a) (if sub then negNum y else y)
    .num ty x f

/-- VMIN and VMAX on a lane. -/
def minMaxLane (isMax : Bool) (ty : Nat) (a b : Word) : LaneOut :=
  match ty with
  | 8 => .bits (if (a.slt b) != isMax then a else b) 0
  | 9 => .bits (if (a.ult b) != isMax then a else b) 0
  | _ => .num ty (minMax isMax (laneNum ty a) (laneNum ty b)) 0

/-- The sign bit of a floating-point lane type, and its other bits. -/
def signBit (ty : Nat) : Word := if ty = 0 then 0x80000000#32 else 0x8000#32
def magBits (ty : Nat) : Word := if ty = 0 then 0x7FFFFFFF#32 else 0x7FFF#32

/-- VSGN: SUB 0 NEG, 1 ABS, 2 CPSGN. -/
def signLane (sub ty : Nat) (a b : Word) : Word :=
  match sub with
  | 0 => (a &&& (magBits ty ||| signBit ty)) ^^^ signBit ty
  | 1 => a &&& magBits ty
  | _ => (a &&& magBits ty) ||| (b &&& signBit ty)

/-- VLOG. -/
def logLane (sub : Nat) (a b : Word) : Word :=
  let n := b.toNat % 32
  match sub with
  | 0 => a &&& b
  | 1 => a ||| b
  | 2 => a ^^^ b
  | 3 => a <<< n
  | 4 => a >>> n
  | _ => a.sshiftRight n

/-- VCMP (R177). -/
def cmpLane (cond ty : Nat) (a b : Word) : Bool :=
  let x := laneNum ty a
  let y := laneNum ty b
  let isNan := fun (v : Num) => match v with | .nan _ => true | _ => false
  let un := isNan x || isNan y
  let low := fun (v : Word) => if ty = 1 ∨ ty = 2 then v.toNat % 65536 else v.toNat
  match cond with
  | 0 => !un && !numLt x y && !numLt y x
  | 1 => un || numLt x y || numLt y x
  | 2 => !un && numLt x y
  | 3 => !un && !numLt x y
  | 4 => decide (low a < low b)
  | 5 => decide (low b ≤ low a)
  | _ => un

/-- VCVT from a lane type to another (R150): widening keeps a NaN's payload. -/
def convertLane (src dst : Nat) (a : Word) : LaneOut :=
  match laneNum src a with
  | .nan sg => if dst = 0 then (let r := rowF32.widen (laneSpec src) (a.toNat % 65536); .bits r.1 r.2) else .num dst (.nan sg) 0
  | x => .num dst x 0

/-! ### Arithmetic instructions -/

/-- The encoding of an arithmetic instruction with two sources. -/
def vec2 (tys : List Nat) (rm f : Bool) : Enc := ⟨.r32, .r32, .r32, .no, .r 0 tys rm f 0⟩

/-- A lane-wise instruction on va and vb. -/
def vecRR (major cluster : Nat) (word : BitVec 56) (enc : Enc) (f : Nat → Word → Word → LaneOut) (s : State) : Out :=
  vIssue cluster major word enc noMore (fun c l w =>
    vecLanes cluster c l w (if wTy w < 8 then wRm w else 0) (fun n => f w (c.vr (wA w) n) (c.vr (wB w) n))) s

def execClVadd (cluster : Nat) (word : BitVec 56) (s : State) : Out :=
  vecRR 0x60 cluster word (vec2 tyAll true (tyInt.contains (wTy word.toNat))) (fun w => addLane (wTy w) false (wF w == 1) (wRm w)) s
def execClVsub (cluster : Nat) (word : BitVec 56) (s : State) : Out :=
  vecRR 0x61 cluster word (vec2 tyAll true (tyInt.contains (wTy word.toNat))) (fun w => addLane (wTy w) true (wF w == 1) (wRm w)) s

def execClVmul (cluster : Nat) (word : BitVec 56) (s : State) : Out :=
  vecRR 0x62 cluster word (vec2 tyAll true false) (fun w a b =>
    if 8 ≤ wTy w then .bits (a * b) 0
    else let (x, f) := mulNum (laneNum (wTy w) a) (laneNum (wTy w) b); .num (wTy w) x f) s

/-- VFMA: va × vb + vc with one rounding. -/
def execClVfma (cluster : Nat) (word : BitVec 56) (s : State) : Out :=
  vIssue cluster 0x63 word ⟨.r32, .r32, .r32, .r32, .r 0 tyFloat true false 0⟩ noMore (fun c l w =>
    vecLanes cluster c l w (wRm w) (fun n =>
      let ty := wTy w
      let (p, f) := mulNum (laneNum ty (c.vr (wA w) n)) (laneNum ty (c.vr (wB w) n))
      let (x, g) := addNum (wRm w) p (laneNum ty (c.vr (wC w) n))
      .num ty x (f ||| g))) s

def execClVdiv (cluster : Nat) (word : BitVec 56) (s : State) : Out :=
  vecRR 0x64 cluster word (vec2 tyFloat true false) (fun w a b =>
    let (x, f) := divNum (laneNum (wTy w) a) (laneNum (wTy w) b); .num (wTy w) x f) s

def execClVsqrt (cluster : Nat) (word : BitVec 56) (s : State) : Out :=
  vIssue cluster 0x65 word ⟨.r32, .r32, .no, .no, .r 0 tyFloat true false 0⟩ noMore (fun c l w =>
    vecLanes cluster c l w (wRm w) (fun n => let (x, f) := sqrtNum (laneNum (wTy w) (c.vr (wA w) n)); .num (wTy w) x f)) s

def execClVmin (cluster : Nat) (word : BitVec 56) (s : State) : Out :=
  vecRR 0x66 cluster word (vec2 tyAll false false) (fun w => minMaxLane false (wTy w)) s
def execClVmax (cluster : Nat) (word : BitVec 56) (s : State) : Out :=
  vecRR 0x67 cluster word (vec2 tyAll false false) (fun w => minMaxLane true (wTy w)) s

def execClVsgn (cluster : Nat) (word : BitVec 56) (s : State) : Out :=
  vecRR 0x68 cluster word ⟨.r32, .r32, .r32, .no, .r 3 tyFloat false false 0⟩ (fun w a b => .bits (signLane (wSub w) (wTy w) a b) 0) s

/-- VSFU (R178). -/
def execClVsfu (cluster : Nat) (word : BitVec 56) (s : State) : Out :=
  vIssue cluster 0x69 word ⟨.r32, .r32, .no, .no, .r 5 [0] false false 0⟩ noMore (fun c l w =>
    vecLanes cluster c l w 0 (fun n => let r := sfu (wSub w) (c.vr (wA w) n); .bits r.1 r.2)) s

def execClVlog (cluster : Nat) (word : BitVec 56) (s : State) : Out :=
  vecRR 0x6A cluster word ⟨.r32, .r32, .r32, .no, .r 6 tyInt false false 0⟩ (fun w a b => .bits (logLane (wSub w) a b) 0) s

/-- VCMP: active bits of pd take the condition, the others keep their value (R167). -/
def execClVcmp (cluster : Nat) (word : BitVec 56) (s : State) : Out :=
  vIssue cluster 0x6B word ⟨.r8, .r32, .r32, .code 7, .r 0 tyAll false false 0⟩ noMore (fun c _ w =>
    let g := c.guard w
    let m : DWord := (List.range 64).foldl (fun m n =>
      if cmpLane (wC w) (wTy w) (c.vr (wA w) n) (c.vr (wB w) n) then m ||| (1#64 <<< n) else m) 0
    cUpd cluster (fun c' => c'.setP (wD w) ((m &&& g) ||| (c.pr (wD w) &&& ~~~g)))) s

def execClVsel (cluster : Nat) (word : BitVec 56) (s : State) : Out :=
  vIssue cluster 0x6C word ⟨.r32, .r32, .r32, .r8, plainR⟩ noMore (fun c l w =>
    vecLanes cluster c l w 0 (fun n => .bits (if (c.pr (wC w)).getLsbD n then c.vr (wA w) n else c.vr (wB w) n) 0)) s

/-- The files that VMOV's SUB selects (R166). -/
def vmovEnc (sub : Nat) : Enc :=
  let low : Low := .r 5 [] false false 0
  match sub with
  | 2 => ⟨.r32, .no, .no, .no, low⟩
  | 3 => ⟨.r32, .r32, .r32, .no, low⟩
  | 4 => ⟨.r32, .r32, .r32, .no, low⟩
  | _ => ⟨.r32, .r32, .no, .no, low⟩

/-- VMOV (Table CLU-22). -/
def execClVmov (cluster : Nat) (word : BitVec 56) (s : State) : Out :=
  vIssue cluster 0x6D word (vmovEnc (wSub word.toNat)) noMore (fun c l w =>
    let n := (c.sr (wB w)).toNat % 64
    let x : Word := (c.sr (wA w)).truncate 32
    match wSub w with
    | 0 => vecLanes cluster c l w 0 (fun i => .bits (c.vr (wA w) i) 0)
    | 1 => vecLanes cluster c l w 0 (fun _ => .bits x 0)
    | 2 => vecLanes cluster c l w 0 (fun i => .bits (BitVec.ofNat 32 i) 0)
    | 3 => cUpd cluster (fun c' => c'.setS (wD w) ((c.vr (wA w) n).zeroExtend 64))
    | _ => cUpd cluster (fun c' => if (c.guard w).getLsbD n then c'.setV (wD w) n x else c')) s

/-- VCVT: the destination type stands in MOD[3:0] and differs from TY (R177). -/
def execClVcvt (cluster : Nat) (word : BitVec 56) (s : State) : Out :=
  vIssue cluster 0x6E word ⟨.r32, .r32, .no, .no, .r 0 tyAll true false 4⟩ (fun w => tyAll.contains (wMod w) && wMod w != wTy w)
    (fun c l w => vecLanes cluster c l w (wRm w) (fun n => convertLane (wTy w) (wMod w) (c.vr (wA w) n))) s

/-! ### Vector access to tiles and accumulators (R179) -/

/-- The checks of VLD and VST on row and column. -/
def rowCheck (k major : Nat) (c : Cluster) (t : Tile) (row col : Nat) (body : State → State) (s : State) : State :=
  if t.rows ≤ row ∨ t.cols ≤ col ∨ (scaled t.fmt ∧ col % 32 ≠ 0) then cProg k c major s else body s

/-- VLD (R149, R179). -/
def execClVld (cluster : Nat) (word : BitVec 56) (s : State) : Out :=
  vIssue cluster 0x6F word ⟨.r32, .r16, .r32, .r32, plainR⟩ noMore (fun c l w =>
    withTile cluster c 0x6F (wA w) (fun t =>
      let row := (c.sr (wB w)).toNat
      let col := (c.sr (wC w)).toNat
      rowCheck cluster 0x6F c t row col (
        let m := t.rowMem c row
        vecLanes cluster c l w 0 (fun n =>
          if t.cols ≤ col + n then .bits 0 0
          else if t.fmt = 5 then .bits (BitVec.ofInt 32 (signed 8 (getElem m 0 5 (col + n)))) 0
          else let r := rowF32 m 0 t.fmt t.alt t.cols (col + n); .bits r.1 r.2)))) s

/-- The last tile-store byte that VST writes; none where it writes nothing. -/
def vstEnd (t : Tile) (row col : Nat) (g : DWord) : Option Nat :=
  let lanes := (List.range 64).filter (fun n => decide (col + n < t.cols) && (scaled t.fmt || g.getLsbD n))
  (lanes.getLast?).map (fun n => t.rowAt row +
    (if scaled t.fmt then elemBytes t.fmt t.cols + (col + n) / 32 else (elemBits t.fmt * (col + n + 1) - 1) / 8))

/-- The value of a lane that VST stores: I32 for INT8, else F32. -/
def vstNum (t : Tile) (c : Cluster) (d n : Nat) : Num := laneNum (if t.fmt = 5 then 8 else 0) (c.vr d n)

/-- VST of a row (R179): formats 0 to 5 lane by lane, formats 6 to 11 whole blocks. -/
def vstRow (l : Launch) (t : Tile) (w row col : Nat) (c : Cluster) : Cluster :=
  let g := c.guard w
  let m := t.rowMem c row
  let n := min 64 (t.cols - col)
  if scaled t.fmt then
    let r := (List.range (n / 32)).foldl (fun (x : Memory × Cluster) b =>
      let nums := (List.range 32).map (fun i =>
        if g.getLsbD (32 * b + i) then vstNum t c (wD w) (32 * b + i) else .fin false 0 0)
      let finite := nums.all (fun v => match v with | .fin _ _ _ => true | _ => false)
      let (us, c') := (List.range 32).foldl (fun (y : List Nat × Cluster) i =>
        if finite && g.getLsbD (32 * b + i) then
          let (u, d) := y.2.drawFor l (wRm w) (32 * b + i) (nums.getD i (.fin false 0 0))
          (y.1 ++ [u], d)
        else (y.1 ++ [0], y.2)) (([] : List Nat), x.2)
      let (sc, els, f) := encodeBlock t.fmt t.alt (wRm w) us nums
      (putBlock t x.1 (col + 32 * b) sc els, c'.flag f)) (m, c)
    t.putRow r.2 row r.1
  else
    let r := (List.range n).foldl (fun (x : Memory × Cluster) i =>
      if g.getLsbD i then
        let v := vstNum t c (wD w) i
        let (u, d) := x.2.drawFor l (wRm w) i v
        let (b, f) := elemEncode t.fmt t.alt (wRm w) u v
        (putElem x.1 0 t.fmt (col + i) b, d.flag f)
      else x) (m, c)
    t.putRow r.2 row r.1

/-- VST (R179): the vector stored stands in the D field. -/
def execClVst (cluster : Nat) (word : BitVec 56) (s : State) : Out :=
  vIssue cluster 0x70 word ⟨.r32, .r16, .r32, .r32, .r 0 [] true false 0⟩ noMore (fun c l w =>
    withTile cluster c 0x70 (wA w) (fun t =>
      let row := (c.sr (wB w)).toNat
      let col := (c.sr (wC w)).toNat
      rowCheck cluster 0x70 c t row col (fun s =>
        if (vstEnd t row col (c.guard w)).any (fun a => decide (ringLine l ≤ a / lineBytes)) then cPerm cluster c 0x70 5 s
        else cUpd cluster (vstRow l t w row col) s))) s

/-- VLDA: an accumulator row. -/
def execClVlda (cluster : Nat) (word : BitVec 56) (s : State) : Out :=
  vIssue cluster 0x71 word ⟨.r32, .r8, .r32, .r32, plainR⟩ noMore (fun c l w =>
    let row := (c.sr (wB w)).toNat
    let col := (c.sr (wC w)).toNat
    if 127 < row ∨ (col ≠ 0 ∧ col ≠ 64) then cProg cluster c 0x71
    else vecLanes cluster c l w 0 (fun n => .bits (c.acc (wA w) row (col + n)) 0)) s

/-- VSTA: active lanes into an accumulator row. -/
def execClVsta (cluster : Nat) (word : BitVec 56) (s : State) : Out :=
  vIssue cluster 0x72 word ⟨.r8, .r32, .r32, .r32, plainR⟩ noMore (fun c _ w =>
    let row := (c.sr (wB w)).toNat
    let col := (c.sr (wC w)).toNat
    if 127 < row ∨ (col ≠ 0 ∧ col ≠ 64) then cProg cluster c 0x72
    else cUpd cluster (fun c' => (List.range 64).foldl (fun c' n =>
      if (c.guard w).getLsbD n then c'.setAcc (wD w) row (col + n) (c.vr (wA w) n) else c') c')) s

/-! ### Reductions (R180) -/

/-- Combine pairs of two halves. -/
def reduceStage (f : Word × Nat → Word × Nat → Word × Nat) (l : List (Word × Nat)) : List (Word × Nat) :=
  (l.zip (l.drop (l.length / 2))).map (fun p => f p.1 p.2)

/-- The fixed tree over 2^w elements. -/
def reduceTree (f : Word × Nat → Word × Nat → Word × Nat) : Nat → List (Word × Nat) → Word × Nat
  | 0, l => l.headD (0, 0)
  | w + 1, l => reduceTree f w (reduceStage f l)

/-- One combination of lane type 0, 8 or 9: SUB 0 SUM, 1 MAX, 2 MIN. -/
def reduceOp (ty sub : Nat) (a b : Word × Nat) : Word × Nat :=
  if ty = 0 then
    let (x, f) := if sub = 0 then addNum 0 (laneNum 0 a.1) (laneNum 0 b.1) else (minMax (sub == 1) (laneNum 0 a.1) (laneNum 0 b.1), 0)
    let (y, g) := numLane 0 0 0 x
    (y, a.2 ||| b.2 ||| f ||| g)
  else
    let less := if ty = 8 then a.1.slt b.1 else a.1.ult b.1
    (if sub = 0 then a.1 + b.1 else if less != (sub == 1) then a.1 else b.1, 0)

/-- What an inactive lane contributes. -/
def reduceId (ty sub : Nat) : Word :=
  match ty, sub with
  | 0, 0 => 0x80000000#32
  | 0, 1 => 0xFF800000#32
  | 0, _ => 0x7F800000#32
  | _, 0 => 0
  | 8, 1 => 0x80000000#32
  | 8, _ => 0x7FFFFFFF#32
  | _, 1 => 0
  | _, _ => 0xFFFFFFFF#32

def execClVred (cluster : Nat) (word : BitVec 56) (s : State) : Out :=
  vIssue cluster 0x78 word ⟨.r32, .r32, .no, .no, .r 3 [0, 8, 9] false false 0⟩ noMore (fun c _ w =>
    let l := (List.range 64).map (fun n => (if (c.guard w).getLsbD n then c.vr (wA w) n else reduceId (wTy w) (wSub w), 0))
    let r := reduceTree (reduceOp (wTy w) (wSub w)) 6 l
    cUpd cluster (fun c' => (c'.flag r.2).setS (wD w) (r.1.zeroExtend 64))) s

def execClAred (cluster : Nat) (word : BitVec 56) (s : State) : Out :=
  vIssue cluster 0x79 word ⟨.r32, .r8, .r32, .no, .r 3 [0] false false 0⟩ noMore (fun c l w =>
    let row := (c.sr (wB w)).toNat
    if row ≠ 0 ∧ row ≠ 64 then cProg cluster c 0x79
    else vecLanes cluster c l w 0 (fun n =>
      let r := reduceTree (reduceOp 0 (wSub w)) 7 ((List.range 128).map (fun j => (c.acc (wA w) (row + n) j, 0)))
      .bits r.1 r.2)) s

end Sys2Proof.Machine
end

