-- ==== Sys2Proof/Machine/Prefix.lean ====
section
/-! DEFINITION. The prefix store's commands (05). -/

namespace Sys2Proof.Machine

/-- PFX_LOOKUP (R110 to R112): the lookup of a context's current turn, whose token IDs have arrived. -/
def execPfxLookup (ctx : Nat) (s : State) : Out := onUnit (decide (ctx < 16384)) (lookup ctx s)

/-! ### Publication (R44, R45, R113) -/

/-- A block stays private and is counted (R113). -/
def pubRefuse (slot cid b : Nat) (s : State) : State :=
  let s := s.updCtx cid (fun c => { c with due := c.due.filter (· != b) })
  (s.bump Reg.PFX_PUB_REFUSED).twBump slot Reg.TW_PFX_PUB_REFUSED

/-- The scope of an entry. -/
def Entry.scope (e : Entry) : Nat := if e.owner ≠ 0 then 2 else if e.dom = 0 then 0 else 1

/-- The least recently used evictable entry of a bucket (Table PFX-8, BUCKET). -/
def bucketVictim (s : State) (h : BitVec 128) : Option Nat :=
  let l := s.pfx.entries.filter (fun e => bucketOf e.2.hash == bucketOf h && e.2.evictable)
  (l.foldl (fun (b : Option (Nat × Entry)) e => match b with
    | some x => if e.2.lastUse < x.2.lastUse then some e else b
    | none => some e) none).map (·.1)

/-- Enter a block into the index (R113, Table PFX-3). -/
def enterBlock (cid b obj : Nat) (c : Ctx) (l : Link) (dom owner : Nat) (parent : Option Nat) (s : State) : State :=
  let n := lowestFree (s.pfx.entries.map (·.1)) 0
  let e : Entry := {
    hash := l.hash, dom := dom, keygen := l.keygen, owner := owner, publisher := some c.slot, pins := 1,
    parent := parent, block := obj, lastUse := s.tb }
  let s := match parent with
    | some p => s.updEntry p (fun e => { e with children := e.children + 1 })
    | none => s
  let s := announce true e (s.setEntry n e)
  let s := s.updCtx cid (fun c => { c with blocks := c.blocks.set b (.entry n), due := c.due.filter (· != b) })
  let s := (s.bump Reg.PFX_PUBLISHES).twBump c.slot Reg.TW_PFX_PUBS
  if l.keygen = keygen s dom then s else evict n 3 s

/-- Publish a block whose step has completed and whose pages are all in T1 (R44): a duplicate binds the context to the
block already published (R45); a block that fails R113 stays private; a full bucket first evicts a leaf, and the
publish commits once that entry is FREE. -/
def publish (cid b : Nat) (s : State) : State :=
  match s.ctx cid with
  | none => s
  | some c =>
    match c.blocks[b]?, c.chain[b]?, s.ten c.slot with
    | some (.priv o), some l, some ten =>
      let resident := (s.obj c.slot o).any (fun ob => !ob.anyPage (fun p => decide (p.tier ≠ 1)))
      if !c.due.contains b || !resident then s
      else if l.scope = 3 then s.updCtx cid (fun c => { c with due := c.due.filter (· != b) })
      else
        let dom := scopeDom l.scope ten.domain
        let owner := if l.scope = 2 then ten.id else 0
        match probe s dom l.keygen owner l.hash with
        | some (n, e) =>
          if e.pins < 65535 then
            let s := pin n (freeObj c.slot o s)
            (s.updCtx cid (fun c => { c with blocks := c.blocks.set b (.entry n), due := c.due.filter (· != b) })).bump Reg.PFX_DUP_PUBLISH
          else pubRefuse c.slot cid b (s.bump Reg.PFX_PIN_SAT)
        | none =>
          let parent : Option (Option Nat) :=
            if b = 0 then some none
            else match c.blocks[b - 1]? with
              | some (.entry p) => if (s.entry p).any (fun e => e.st == .published && decide (e.scope ≤ l.scope)) then some (some p) else none
              | _ => none
          match parent with
          | none => pubRefuse c.slot cid b s
          | some par =>
            let inBucket := s.pfx.entries.filter (fun e => bucketOf e.2.hash == bucketOf l.hash)
            if inBucket.length < 8 then enterBlock cid b o c l dom owner par s
            else if inBucket.any (fun e => e.2.st == .evicting && e.2.pins == 0 && e.2.children == 0) then s
            else match bucketVictim s l.hash with
              | some v => evict v 2 s
              | none => pubRefuse c.slot cid b s
    | _, _, _ => s

/-- BLOCK_PUBLISH (R44, R45, R113). -/
def execBlockPublish (ctx block : Nat) (s : State) : Out := onUnit (decide (ctx < 16384)) (publish ctx block s)

/-- The TTL of a domain, in microseconds (Table PFX-12). -/
def ttlUs (s : State) (d : Nat) : Nat :=
  (if s.fld (Reg.PFX_DOM_CFG d) 8 16 = 0 then s.rdN Reg.PFX_TTL else s.fld (Reg.PFX_DOM_CFG d) 8 16) * 60000000

/-- PFX_TTL_EVICT (R117). -/
def execPfxTtlEvict (entry : Nat) (s : State) : Out :=
  .next (match s.entry entry with
    | some e => if e.evictable && decide (e.lastUse + ttlUs s e.dom < s.tb) then evict entry 0 s else s
    | none => s)

/-! ### Deadlines (R119, R120) -/

/-- KV_MOVE_ISSUE (R119): not earlier than PFX_EARLY before the issue time; later than the issue time is counted. -/
def execKvMoveIssue (step ctx block group : Nat) (s : State) : Out :=
  .next (match kvRow s step ctx block group with
    | none => s
    | some k =>
      if k.issued ∨ s.tb + s.rdN Reg.PFX_EARLY < k.issue then s
      else
        let s := if k.issue < s.tb then s.bump Reg.PFX_LATE_ISSUE else s
        let s := updKv step ctx block group (fun k => { k with issued := true, tier := homeTier s ctx block group }) s
        bringUp ctx block group s)

/-- KV_PAGE_DEADLINE (R120; 04, Table TIER-9): a page not in T0 at its deadline is counted late, once. -/
def execKvPageDeadline (step ctx block group : Nat) (s : State) : Out :=
  .next (match kvRow s step ctx block group with
    | none => s
    | some k =>
      if k.delivered ∨ k.late ∨ s.tb < k.deadline then s
      else
        let t := if k.issued then k.tier else homeTier s ctx block group
        let s := updKv step ctx block group (fun k => { k with late := true, tier := t }) s
        let s := s.traceRec 0x0B 6 0xFFFF [t, s.tb - k.deadline]
        noteTurn ctx ⟨1, tierRes t, 0⟩ (((s.bump (Reg.PFX_LATE_PAGES t)).bump Reg.TIER_LATE_PAGES).twBump (ctxSlot s ctx) Reg.TW_LATE_PAGES))

/-! ### The directory (R121, R122) -/

/-- Record or remove a directory entry. -/
def dirNote (pub : Bool) (d : DirEnt) (s : State) : State :=
  let rest := s.pfx.dir.filter (fun e => e != d)
  { s with pfx := { s.pfx with dir := if pub then rest ++ [d] else rest } }

/-- DIR_ANNOUNCE (R121): a manager records the announcement and passes it to the manager above (log entry 34). -/
def execDirAnnounce (src dom kg : Nat) (publish : Bool) (hashes : List DWord) (s : State) : Out :=
  .next (let s := hear src s
    if role s = 0 then s
    else
      let s := hashes.foldl (fun s h => dirNote publish ⟨h, dom, kg, src⟩ s) s
      match mgrNode s (role s) with
      | some m => s.send 0x50 m ([hashes.length, domField dom kg, b2n publish] ++ hashes.map (·.toNat))
      | none => s)

/-- The leading run of hashes that a directory shows at one holder. -/
def dirRun (s : State) (dom kg holder : Nat) (hs : List DWord) : Nat :=
  (hs.takeWhile (fun h => s.pfx.dir.contains ⟨h, dom, kg, holder⟩)).length

/-- The holder with the longest leading run, and its length. -/
def dirBest (s : State) (dom kg : Nat) (hs : List DWord) : Nat × Nat :=
  (s.pfx.dir.map (·.holder)).foldl (fun b h => if b.2 < dirRun s dom kg h hs then (h, dirRun s dom kg h hs) else b) (0, 0)

/-- DIR_QUERY (R121, R123): answered within the query's domain and KEYGEN only; a miss goes to the manager above, whose
answer is passed on. A sled that keeps no directory, or whose firmware restarts (13, R290), answers STATUS 1. -/
def execDirQuery (src rtag dom kg id : Nat) (hashes : List DWord) (s : State) : Out :=
  .next (let s := hear src s
    let answer := fun n holder st => s.sendAs 0 rtag 0x52 src [n, domField dom kg, id, holder, st]
    if role s = 0 ∨ s.fwDown then answer 0 0 1
    else
      let (holder, n) := dirBest s dom kg hashes
      match mgrNode s (role s) with
      | some m =>
        if n = 0 then
          let q := s.pfx.nextQuery
          let s := { s with pfx := { s.pfx with
            nextQuery := (q + 1) % 65536, relays := s.pfx.relays.filter (fun (r : Nat × Nat × Nat × Nat) => r.1 != q) ++ [(q, src, id, rtag)] } }
          (sendReq (.query q) 0 0x51 m (fun _ => [hashes.length, domField dom kg, q] ++ hashes.map (·.toNat)) s).2
        else answer n holder 0
      | none => answer n holder 0)

/-- A relayed query's answer goes back to the asker. -/
def relayAnswer (q n dom kg holder st : Nat) (s : State) : State :=
  match s.pfx.relays.find? (fun r => r.1 == q) with
  | none => s
  | some (_, src, id, rtag) =>
    { s with pfx := { s.pfx with relays := s.pfx.relays.filter (fun r => r.1 != q) } }.sendAs 0 rtag 0x52 src [n, domField dom kg, id, holder, st]

/-- DIR_ANSWER (R121): a matched run is pinned at its holder by REMOTE_PIN, up to 6 blocks; a miss binds the turn. -/
def execDirAnswer (src matched dom kg id holder status : Nat) (s : State) : Out :=
  .next (let s := hear src s
    match s.pfx.waits.find? (fun w => w.id == id && w.holder.isNone && w.dom == dom && w.keygen == kg) with
    | none => relayAnswer id matched dom kg holder status s
    | some w =>
      if matched = 0 ∨ status ≠ 0 ∨ !w.live s then waitMiss w s
      else
        let hs := (w.hashes.take matched).take 6
        let req := s.pfx.nextQuery
        let s := dropWait w.id s
        let s := { s with pfx := { s.pfx with
          waits := s.pfx.waits ++ [{ w with id := req, holder := some holder, hashes := hs }], nextQuery := (req + 1) % 65536 } }
        let who := ((s.ten (ctxSlot s w.ctx)).map (·.id)).getD 0
        (sendReq (.query req) who 0x53 holder (fun _ => [hs.length, domField dom kg, req, who] ++ hs.map (·.toNat)) s).2)

/-- The leading run of published entries with the hashes, pinned (R111, R122). -/
def remoteRun (dom kg : Nat) : List (BitVec 128) → State → List Nat × State
  | [], s => ([], s)
  | h :: r, s =>
    match probe s dom kg 0 h with
    | none => ([], s)
    | some (n, e) =>
      if e.pins < 65535 then
        let (l, s) := remoteRun dom kg r (pin n s)
        (n :: l, s)
      else ([], s.bump Reg.PFX_PIN_SAT)

/-- REMOTE_PIN (R121, R122): full hashes are compared, and the leading run is pinned under a lease. -/
def execRemotePin (src rtag dom kg req tenant : Nat) (hashes : List (BitVec 128)) (s : State) : Out :=
  .next (let s := hear src s
    let (l, s) := remoteRun dom kg (hashes.take 6) s
    let lease := s.pfx.nextLease
    let s := if l.isEmpty then s else { s with pfx := { s.pfx with
      leases := s.pfx.leases ++ [⟨lease, src, l, s.tb⟩], nextLease := (lease + 1) % 2 ^ 32 } }
    s.sendAs tenant rtag 0x54 src [l.length, domField dom kg, req, if l.isEmpty then 0 else lease])

/-- PIN_ANSWER (R122): the pinned run joins the context's blocks and the turn is bound; an answer nobody waits for
any more gives its lease back. -/
def execPinAnswer (src pinned dom kg req lease : Nat) (s : State) : Out :=
  .next (let s := hear src s
    let unpinRemote := fun (s : State) =>
      if pinned = 0 then s
      else { s with pfx := { s.pfx with nextQuery := (s.pfx.nextQuery + 1) % 65536 } }.send 0x55 src [s.pfx.nextQuery, lease]
    match s.pfx.waits.find? (fun w => w.id == req && w.holder == some src && w.dom == dom && w.keygen == kg) with
    | none => unpinRemote s
    | some w =>
      let s := dropWait w.id s
      if !w.live s then unpinRemote s
      else
        let hs := w.hashes.take pinned
        let run := ((List.range hs.length).zip hs).map (fun p => (BlockRef.remote lease src p.1, (⟨p.2, w.scope, kg⟩ : Link)))
        finishLookup w.ctx (installRun w.ctx w.first run s))

/-- Drop the pins of a remote lease. -/
def dropLease (lease : Nat) (s : State) : State :=
  match s.pfx.leases.find? (fun l => l.id == lease) with
  | none => s
  | some l => l.entries.foldl (fun s n => unpin n s) { s with pfx := { s.pfx with leases := s.pfx.leases.filter (fun m => m.id != lease) } }

/-- REMOTE_UNPIN (R122). -/
def execRemoteUnpin (src lease : Nat) (s : State) : Out :=
  .next (let s := hear src s
    if s.pfx.leases.any (fun l => l.id == lease && l.node == src) then dropLease lease s else s)

/-- REMOTE_LEASE_EXPIRE (R122): the requester has not been heard from for TIER_PEER_LOSS. -/
def execRemoteLeaseExpire (lease : Nat) (s : State) : Out :=
  .next (match s.pfx.leases.find? (fun l => l.id == lease) with
    | some l => if l.heard + 1000 * s.rdN Reg.TIER_PEER_LOSS ≤ s.tb then dropLease lease s else s
    | none => s)

/-- Send the pending announcements, up to 12 of one kind, domain and KEYGEN per message (R121). The fuel is their
number. -/
def sendAnnounce (m : Nat) : Nat → State → State
  | 0, s => s
  | n + 1, s =>
    match s.pfx.announce with
    | [] => s
    | (p, d, k, _) :: _ =>
      let run := (s.pfx.announce.takeWhile (fun a => a.1 == p && a.2.1 == d && a.2.2.1 == k)).take 12
      let s := { s with pfx := { s.pfx with announce := s.pfx.announce.drop run.length } }
      sendAnnounce m n (s.send 0x50 m ([run.length, domField d k, b2n p] ++ run.map (fun a => a.2.2.2.toNat)))

/-- DIRECTORY_ANNOUNCE_DUE (R121); without a chassis manager there is nobody to announce to. -/
def execDirectoryAnnounceDue (s : State) : Out :=
  .next (let s := match (if outcast s then none else mgrNode s 0) with
      | some m => sendAnnounce m s.pfx.announce.length s
      | none => s
    { s with pfx := { s.pfx with announce := [], announceAt := none } })

/-! ### Domain commands (R124) -/

/-- A worker ignores a domain command on a SITE domain. -/
def domIgnored (d : Nat) (s : State) : Bool := domSite s d && role s == 0

/-- Give a domain a KEYGEN and a new key, and evict the older entries (R124). -/
def rotateTo (d next : Nat) (s : State) : State :=
  let (n, s) := s.draw
  let s := { s with pfx := { s.pfx with
    keygen := mputD s.pfx.keygen 0 d next, keys := mput s.pfx.keys (16 * d + next) (BitVec.ofNat 128 n) } }
  let s := s.setFld (Reg.PFX_DOM_CFG d) 4 4 next
  evictWhere (fun e => e.dom == d && e.keygen != next) 3 s

/-- The keys of SITE domains go to a member by KEY_WRAP (Table HIE-3). -/
def sendKeys (node : Nat) (s : State) : State :=
  s.pfx.keys.foldl (fun s k =>
    let dom := k.1 / 16
    if domSite s dom ∧ (mget s.pfx.keygen dom).getD 0 = k.1 % 16 then
      hieReq 0x7C node ([k.1 / 16 + 4096 * (k.1 % 16), s.rdN (Reg.HIE_TERM 2)] ++
        (leBytes (Config.wrapKey s.hie.secret (ownNode s) node k.2).toNat 24).map (·.toNat)) s
    else s) s

/-- ROTATE (R124): refused while an entry carries the next KEYGEN. -/
def domRotate (d : Nat) (s : State) : State :=
  if domIgnored d s then s.setBit Reg.PFX_DOM_STATUS 2 true
  else
    let next := (keygen s d + 1) % 16
    if s.pfx.entries.any (fun e => e.2.dom == d && e.2.keygen == next) then s.setBit Reg.PFX_DOM_STATUS 1 true
    else
      let s := rotateTo d next s
      if domSite s d ∧ role s = 3 then (s.hie.members.map (·.1)).foldl (fun s n => sendKeys n s) s else s

/-- PURGE (R124). -/
def domPurge (d : Nat) (s : State) : State :=
  if domIgnored d s then s.setBit Reg.PFX_DOM_STATUS 2 true else evictWhere (fun e => e.dom == d) 3 s

/-- PFX_DOM_ROTATE (R124). -/
def execPfxDomRotate (dom : Nat) (s : State) : Out := onUnit (decide (dom < 4096)) (domRotate dom s)

/-- PFX_DOM_PURGE (R124). -/
def execPfxDomPurge (dom : Nat) (s : State) : Out := onUnit (decide (dom < 4096)) (domPurge dom s)

end Sys2Proof.Machine
end

