-- ==== Sys2Proof/Machine/Joining.lean ====
section
/-! DEFINITION. Joining, status reports, ID pools and answers (13, R275, R276, R280, R281, R285). -/

namespace Sys2Proof.Machine

/-! ### JOIN (R275, R276) -/

/-- Messages kept for a node are delivered at its JOIN (R283). -/
def sendKept (node : Nat) (s : State) : State :=
  let l := s.hie.kept.filter (fun k => k.1 == node)
  l.foldl (fun s k => hieReq 0x7B node k.2 s) { s with hie := { s.hie with kept := s.hie.kept.filter (fun (k : Nat × List Nat) => k.1 != node) } }

/-- JOIN_ACK with its tag. -/
def sendJoinAck (src rtag level : Nat) (st : Status) (s : State) : State :=
  let xs := [st.word.toNat, termOf s level]
  let tag := tagOf s 0x73 xs (ownNode s) src
  s.sendAs 0 rtag 0x73 src (xs ++ [tag.toNat])

/-- A member has joined: it is recorded, and gets what is kept for it and the keys it needs (R275, R281, R283). -/
def joined (src rtag level : Nat) (s : State) : State :=
  let fresh_ := !s.hie.known.contains src
  let s := { s with hie := { s.hie with
    known := if fresh_ then s.hie.known ++ [src] else s.hie.known,
    series := s.hie.series.filter (fun (j : JoinSeries) => j.node != src),
    members := if (mget s.hie.members src).isSome then s.hie.members else mput s.hie.members src { heard := s.tb } } }
  let s := if fresh_ then s.putN Reg.HIE_SITE_SIZE ((s.rdN Reg.HIE_SITE_SIZE + 1) % 65536) else s
  sendKeys src (sendKept src (sendJoinAck src rtag level ⟨0, 0, 0⟩ s))

/-- A JOIN message at the manager of the level (R275, R276). -/
def join (src rtag level : Nat) (cont : Bool) (start build fw ledger total idx : Nat) (bases : List Nat) (tag : BitVec 128) (s : State) : State :=
  if !manages s level then s
  else
    let xs := [level + 128 * b2n cont, start, build, fw, ledger, total + 2 ^ 16 * bases.length + 2 ^ 24 * idx, 0] ++ bases
    if tag ≠ tagOf s 0x72 xs src (ownNode s) then sendJoinAck src rtag level ⟨0x22, 9, 0xFFFF⟩ (s.bump Reg.HIE_JOIN_REFUSED)
    else
      let s := { s with hie := { s.hie with allot := bases.foldl (fun m b => mput m (b / 16) src) s.hie.allot } }
      let old : JoinSeries := if idx = 0 then ⟨src, level, s.tb, total, 0, []⟩
        else (s.hie.series.find? (fun j => j.node == src && j.level == level)).getD ⟨src, level, s.tb, 0, 0, []⟩
      if old.next ≠ idx ∨ old.since + 100000 < s.tb then s
      else
        let j : JoinSeries := { old with total := total, next := idx + 1, bases := old.bases ++ bases }
        let s := { s with hie := { s.hie with series := s.hie.series.filter (fun (x : JoinSeries) => x.node != src) ++ [j] } }
        if cont then hieAck src rtag 0x72 ⟨0, 0, 0⟩ s
        else if j.bases.length = total then joined src rtag level s
        else s

/-- JOIN (R276). -/
def execJoin (src rtag level : Nat) (cont : Bool) (start build fw ledger total idx : Nat) (bases : List Nat) (tag : BitVec 128) (s : State) : Out :=
  onUnit (decide (level < 3)) (join src rtag level cont start build fw ledger total idx bases tag (hear src s))

/-- JOIN_ACK (R275): acceptance, or AUTH_FAIL. -/
def joinAck (src rtag : Nat) (status : Word) (term : Nat) (tag : BitVec 128) (s : State) : State :=
  if tag ≠ tagOf s 0x73 [status.toNat, term, 0] src (ownNode s) then s
  else match takeReq src rtag s with
    | (none, s) => s
    | (some r, s) =>
      if r.type ≠ 0x72 then s
      else if bits status.toNat 0 8 = 0 then forwardAll (hieBit 6 false (hieBit 5 true s))
      else hieBit 6 true (hieBit 5 false s)

/-- JOIN_ACK (R275). -/
def execJoinAck (src rtag : Nat) (status : Word) (term : Nat) (tag : BitVec 128) (s : State) : Out :=
  .next (joinAck src rtag status term tag (hear src s))

/-- JOIN_SERIES_TIMEOUT (R276): a manager discards a member's incomplete series; a member sends its own again. -/
def execJoinSeriesTimeout (node : Nat) (s : State) : Out :=
  .next (if node = ownNode s then
      (match managerAbove s with
      | some m =>
        let open_ := s.hie.reqs.filter (fun r => r.type == 0x72)
        if s.bit Reg.HIE_STATUS 5 ∨ m = node ∨ !open_.all (fun r => decide (r.since + 100000 ≤ s.tb)) then s
        else sendJoin (role s) m { s with hie := { s.hie with reqs := s.hie.reqs.filter (fun (r : HReq) => r.type != 0x72) } }
      | none => s)
    else { s with hie := { s.hie with series := s.hie.series.filter (fun (j : JoinSeries) => !(j.node == node && decide (j.since + 100000 ≤ s.tb))) } })

/-! ### STATUS (R275, R280) -/

/-- The peers of the UP ports, by port, 0 none. -/
def ownPorts (s : State) : List Nat := (List.range 18).map (fun p => if s.portUp p then s.fld (Reg.LNK_PEER p) 0 16 else 0)

/-- Free lending room in the units of STATUS. -/
def lendUnits (s : State) (t : Nat) : Nat := lendFree t / (if t = 1 then unit2M else 2 ^ 30)
where
  /-- In bytes. -/
  lendFree (t : Nat) : Nat :=
    (if t = 1 then s.rdN Reg.HIE_LEND_T1 * unit2M else s.rdN Reg.HIE_LEND_T2 * 2 ^ 30) -
      sumOf s.lnk.lent (fun x => if x.tier = t then round4K x.stored else 0)

/-- What a manager notes of a STATUS. -/
def noteMember (node hbm clu l1 l2 : Nat) (ports : List Nat) (uj snap : Nat) (ok : Bool) (s : State) : State :=
  let m := mgetD s.hie.members {} node
  { s with hie := { s.hie with members := mput s.hie.members node { m with
    hbm := hbm, clu := clu, lend1 := l1, lend2 := l2, ports := ports, heard := s.tb, snaps := (snap, uj) :: m.snaps.take 31, meterOk := ok } } }

/-- Blocks a manager may give, once 1 s has passed since its election: the site manager's unallotted ones, while more than half of the
site is in its scope; another manager's own free blocks that no copy or report shows at another sled (R280, R281). -/
def giveBlocks (s : State) (n : Nat) : List Nat :=
  if (match mget s.hie.since (role s - 1) with | some t => decide (s.tb < t + 1000000) | none => true) then []
  else if role s = 3 then
    if s.rdN Reg.HIE_SITE_SIZE < 2 * (s.hie.members.length + 1) then ((List.range 4096).filter (fun b => (mget s.hie.allot b).isNone)).take n else []
  else (((s.adm.pool.filter (blockFree s)).map (fun b => b.1 / 16)).filter (fun b => mgetD s.hie.allot (ownNode s) b == ownNode s)).take n

/-- Blocks come to this sled. -/
def addBlocks (bases : List Nat) (s : State) : State :=
  let new_ := (bases.map blockIds).filter (fun b => !s.adm.pool.contains b)
  let s := { s with adm := { s.adm with pool := s.adm.pool ++ new_ } }
  reevaluateAll { s with hie := { s.hie with allot := bases.foldl (fun m b => mput m (b / 16) (ownNode s)) s.hie.allot } }

/-- A worker asks for a block below 4 free IDs, a manager below 2 free blocks: 1, 4 or 16 blocks (R280); the site manager, which is its
own row manager, allots them to itself. -/
def wantBlocks (s : State) : State :=
  match managerAbove s with
  | none =>
    let bs := if role s = 3 ∧ (s.adm.pool.filter (blockFree s)).length < 2 then giveBlocks s 16 else []
    if bs.isEmpty then s else addBlocks (bs.map (· * 16)) s
  | some m =>
    let few := if role s = 0 then decide (freeIds s < 4) else decide ((s.adm.pool.filter (blockFree s)).length < 2)
    if s.adm.pool = standalonePool ∨ m = ownNode s ∨ outcast s ∨ !few ∨ s.hie.reqs.any (fun r => r.type == 0x76) then s
    else hieReq 0x76 m [if role s = 0 then 1 else if role s = 1 then 4 else 16] s

/-- STATUS_TICK (R275): a report to the manager; a chassis manager notes its own, and IDs are asked for (R280). -/
def statusTick (s : State) : State :=
  let uj := s.rdN Reg.NRG_SLED_UJ
  let s := if role s = 0 then s
    else noteMember (ownNode s) (admFree s 1) (admFree s 5) (lendUnits s 1) (lendUnits s 2) (ownPorts s) uj s.tb s.nrg.meterOk s
  let s := match managerAbove s with
    | some m =>
      if m = ownNode s ∨ outcast s then s
      else hieReq 0x74 m ([admFree s 1, admFree s 5, lendUnits s 1, lendUnits s 2, uj, s.tb, s.nrg.tenantMj, b2n s.nrg.meterOk] ++ ownPorts s) s
    | none => s
  wantBlocks s

/-- STATUS_TICK (R275). -/
def execStatusTick (s : State) : Out := .next (statusTick s)

/-- STATUS (R278; 20, R432): noted, and acknowledged with the overhead ratio. -/
def execStatus (src rtag hbm clu lend1 lend2 : Nat) (ports : List Nat) (sledUj snapTb tenantMj : Nat) (meterOk : Bool) (s : State) : Out :=
  .next (let s := hear src s
    let _ := tenantMj
    if role s = 0 then s
    else
      let s := noteMember src hbm clu lend1 lend2 ports sledUj snapTb meterOk s
      let (sec, ρ, v) := match s.nrg.ratio with | some (t, r) => (t, r, 1) | none => (0, 0, 0)
      s.sendAs 0 rtag 0x7F src [0x74, 0, ρ, sec % 2 ^ 32, v])

/-! ### Tenant ID blocks (R280, R281) -/

/-- POOL_REQ (R280). -/
def execPoolReq (src rtag wanted : Nat) (s : State) : Out :=
  .next (let s := hear src s
    if role s = 0 then s
    else
      let bs := giveBlocks s (min 16 wanted)
      let s := { s with
        hie := { s.hie with allot := bs.foldl (fun m b => mput m b src) s.hie.allot },
        adm := { s.adm with pool := if role s = 3 then s.adm.pool else s.adm.pool.filter (fun (b : Nat × Nat) => !bs.contains (b.1 / 16)) } }
      s.sendAs 0 rtag 0x77 src ([bs.length, termOf s (role s - 1)] ++ bs.map (· * 16)))

/-- POOL_GRANT (R280). -/
def execPoolGrant (src rtag term : Nat) (bases : List Nat) (s : State) : Out :=
  .next (let _ := term
    match takeReq src rtag (hear src s) with
    | (some _, s) => addBlocks bases s
    | (none, s) => s)

/-- POOL_BLOCK_RETURN (R280): a worker's block whose IDs have all been free for 1 h; no message type is given for it (log
entry 80). -/
def execPoolBlockReturn (base : Nat) (s : State) : Out :=
  .next (let b := blockIds base
    let old := (List.range b.2).all (fun i => decide (mgetD s.hie.freed 0 (b.1 + i) + 3600000000 ≤ s.tb))
    if role s = 0 ∧ s.adm.pool.contains b ∧ s.adm.pool ≠ standalonePool ∧ blockFree s b ∧ old then
      let s := { s with adm := { s.adm with pool := s.adm.pool.filter (fun (c : Nat × Nat) => c != b) } }
      match mgrNode s 0 with
      | some m => s.emit (.link 0 m [base])
      | none => s
    else s)

/-- POOL_MAP_REPLICATE (R281): a row manager's copy of the site map, as it came, merged with what it knows. -/
def execPoolMapReplicate (blocks : List (Nat × Nat)) (s : State) : Out :=
  .next (if role s < 2 then s
    else { s with hie := { s.hie with allot := blocks.foldl (fun m b => mput m b.1 b.2) s.hie.allot } })

/-! ### Keys, lending and the ledger (R284, R285; 05, R124) -/

/-- KEY_WRAP (Table HIE-3; 05, R124): a key that unwraps takes force for its domain and KEYGEN. -/
def execKeyWrap (src rtag dom kg term : Nat) (key : BitVec 192) (s : State) : Out :=
  .next (let s := hear src s
    let _ := term
    match Config.unwrapKey s.hie.secret src (ownNode s) key with
    | none => s
    | some k =>
      let s := if keygen s dom = kg then { s with pfx := { s.pfx with keys := mput s.pfx.keys (16 * dom + kg) k } }
        else
          let s := { s with pfx := { s.pfx with keygen := mputD s.pfx.keygen 0 dom kg, keys := mput s.pfx.keys (16 * dom + kg) k } }
          evictWhere (fun e => e.dom == dom && e.keygen != kg) 3 (s.setFld (Reg.PFX_DOM_CFG dom) 4 4 kg)
      hieAck src rtag 0x7C ⟨0, 0, 0⟩ s)

/-- The member with the most free lending room of the chassis, the asker apart; else of the row (R284). -/
def lendHolder (s : State) (asker : Nat) : Option Nat :=
  let room := fun (m : Member) => m.lend1 * unit2M + m.lend2 * 2 ^ 30
  let best := fun (p : Nat → Bool) => (s.hie.members.filter (fun m => m.1 != asker && p m.1 && decide (0 < room m.2))).foldl
    (fun (b : Option (Nat × Nat)) m => match b with
      | some (_, r) => if r < room m.2 then some (m.1, room m.2) else b
      | none => some (m.1, room m.2)) none
  ((best (inScope s 0)).orElse (fun _ => best (inScope s 1))).map (·.1)

/-- LEND_QUERY (R284): a chassis manager names a holder, and this sled's own question is answered by its manager; the
exchange has no TYPE (log entry 80). -/
def execLendQuery (node : Nat) (answer : Option Nat) (s : State) : Out :=
  .next (if node = ownNode s then
      (match (if role s = 0 then answer else lendHolder s node) with
      | some h => { s with lender := h + 1 }
      | none => { s with lender := 0 })
    else if role s = 0 then s
    else match lendHolder s node with
      | some h => s.emit (.link 0 node [h])
      | none => s)

/-- LEDGER_FWD (R285): stored under its origin and index, at most 4,096 of a node, acknowledged, and passed on upward. -/
def execLedgerFwd (src rtag origin index : Nat) (record : List Word) (s : State) : Out :=
  .next (let s := hear src s
    if role s = 0 then s
    else
      let s := hieAck src rtag 0x7D ⟨0, 0, 0⟩ (storeRec origin index record s)
      match managerAbove s with
      | some m => if m = ownNode s then s else hieReq 0x7D m ([origin, index] ++ record.map (·.toNat)) s
      | none => s)

/-! ### Requests that are never answered (Table HIE-3) -/

/-- A request is given up as sent to a lost node: a TENANT_OP is kept for the node's next JOIN (R283). -/
def giveUp (r : HReq) (s : State) : State :=
  let s := { s with hie := { s.hie with reqs := s.hie.reqs.filter (fun (x : HReq) => x.tag != r.tag) } }
  if r.type = 0x7B then { s with hie := { s.hie with kept := s.hie.kept ++ [(r.dest, r.xs)] } } else s

/-- HIE_REQUEST_TIMEOUT (Table HIE-3; 05, R121): no answer within 10 ms: resent up to 3 times, then given up. A directory
query or pin that is not answered is a miss. -/
def requestTimeout (tag : Nat) (s : State) : State :=
  match s.hie.reqs.find? (fun r => r.tag == tag) with
  | some r =>
    if s.tb < r.since + 10000 then s
    else if 3 ≤ r.tries then giveUp r s
    else
      let s := { s with hie := { s.hie with reqs := updWhere s.hie.reqs (fun x => x.tag == tag) (fun x => { x with tries := x.tries + 1, since := s.tb }) } }
      s.sendAs 0 tag r.type r.dest r.xs
  | none =>
    match s.lnk.reqs.find? (fun r => r.tag == tag) with
    | some ⟨_, _, _, .query id⟩ => match s.pfx.waits.find? (fun w => w.id == id) with | some w => waitMiss w s | none => s
    | _ => s

/-- HIE_REQUEST_TIMEOUT (R283). -/
def execHieRequestTimeout (tag : Nat) (s : State) : Out := .next (requestTimeout tag s)

/-- HIE_SITE_SECRET_WRITE (R275). -/
def execHieSiteSecretWrite (index : Nat) (value : Word) (s : State) : Out :=
  onUnit (decide (index < 8)) { s with hie := { s.hie with secret := BitVec.ofNat 256 (setBits s.hie.secret.toNat (32 * index) 32 value.toNat) } }

end Sys2Proof.Machine
end

