-- ==== Sys2Proof/Machine/Metering.lean ====
section
/-! DEFINITION. Meanings of the commands of the metering engine (19). -/

namespace Sys2Proof.Machine

/-! ### Marks on samples -/

/-- Group delay of a response, in Lodge PLL cycles (18, Table DEC-1). -/
def groupDelay (resp : Nat) : Nat := [4725, 38400, 115200, 307200, 716800, 11520, 409600, 0].getD resp 0

/-- Marked outputs of a channel whose input instant lies in a cycle, moved by a delay: the resampler's support (R400; log
entry 95). -/
def marksIn (s : State) (ch : Nat) (start len : Nat) (delay : Int) : List DecOut :=
  (s.dch ch).outs.filter (fun o => decide ((start : Int) + delay ≤ o.when_ ∧ o.when_ ≤ (start : Int) + len + delay))

/-- The word is UNSETTLED or MISSING. -/
def unusable (w : Word) : Bool := wordFlag w 0 || wordFlag w 1

/-- Delay of the voltage of an element, in Lodge PLL cycles (R400). -/
def phDelay (s : State) (p : Nat) : Int := 4 * signed 16 (s.rdN (Reg.MTR_PHCAL p))

/-! ### One element, or the sled meter as 3 -/

/-- Show the holds of all elements. -/
def showHolds (s : State) : State :=
  let any := fun (g : Bool) => s.mtr.held.any (fun h => decide (1 ≤ h.2.1 ∧ h.2.1 ≤ 2) && h.2.2 == g)
  (s.setBit Reg.MTR_STATUS 3 (any true)).setBit Reg.MTR_STATUS 4 (any false)

/-- A cycle of an element (R411, R412): available, usable and the cause of a mark; answers the quantities that count for it,
none where the element is unavailable. -/
def elemCycle (p : Nat) (serves ok byGain : Bool) (vals : MtrVal) (s : State) : State × Option MtrVal :=
  let (n, g) := mgetD s.mtr.held (0, false) p
  if serves && ok then
    (({ s with mtr := { s.mtr with held := mdel s.mtr.held p, last := mput s.mtr.last p vals } }).setBit Reg.MTR_STATUS (6 + p) false, some vals)
  else
    let g := byGain || (g && decide (0 < n))
    if serves && decide (n < 2) then
      (({ s with mtr := { s.mtr with held := mput s.mtr.held p (n + 1, g) } }).bump Reg.MTR_HOLD_CYCLES, some (mgetD s.mtr.last {} p))
    else
      (({ s with mtr := { s.mtr with held := mput s.mtr.held p (3, g) } }).setBit Reg.MTR_STATUS (6 + p) true, none)

/-- A cycle in which an element was unavailable, or that lost its reactive power. -/
def gapCycle (len : Nat) (s : State) : State := (s.bump Reg.MTR_GAP_CYCLES).bumpBy Reg.MTR_UNAVAIL_US (len / 640)

/-! ### Calibration procedures (R414 to R416) -/

/-- A procedure ends. -/
def calEnd (result : Nat) (s : State) : State :=
  (({ s with mtr := { s.mtr with cal := none } }).setBit Reg.MTR_CAL_STATUS 0 false).setFld Reg.MTR_CAL_STATUS 1 2 result

/-- A procedure has its N usable cycles. -/
def calFinish (c : MtrCal) (s : State) : State :=
  match (mtrElems (mtrMode s)).find? (fun e => e.1 == c.elem) with
  | none => calEnd 3 s
  | some (_, vch, ich) =>
    if c.phase then
      let d0 := angle c.b c.a - pfAngle (signed 16 (s.rdN Reg.MTR_CAL_REF_PF))
      let d := if 2 ^ 47 < d0 then d0 - 2 ^ 48 else if d0 < -2 ^ 47 then d0 + 2 ^ 48 else d0
      let add := (⟨d * (s.mtr.line.getD 0 : Nat), 2 ^ 50⟩ : Ratio).round
      let x := signed 16 (s.rdN (Reg.MTR_PHCAL c.elem)) + add
      if d.natAbs * 120 ≤ 2 ^ 48 ∧ -32768 ≤ x ∧ x ≤ 32767 then
        calEnd 1 { s with mtr := { s.mtr with found := [(Reg.MTR_PHCAL c.elem, unsigned 16 x)] } }
      else calEnd 2 s
    else
      let ratio := fun (ref : Nat) (sum : Int) => (⟨(ref * 1000 * c.n : Nat), 1⟩ : Ratio).div (Ratio.ofInt sum)
      let rv := ratio (s.rdN Reg.MTR_CAL_REF_V) c.a
      let ri := ratio (s.rdN Reg.MTR_CAL_REF_I) c.b
      let good := fun (r : Ratio) => (⟨9, 10⟩ : Ratio).le r && r.le ⟨11, 10⟩
      if good rv && good ri then
        let k := fun (ch : Nat) (r : Ratio) => (Reg.MTR_K ch, ((ratioOf (s.rdN (Reg.MTR_K ch))).mul r).f32)
        calEnd 1 { s with mtr := { s.mtr with found := [k vch rv, k ich ri] } }
      else calEnd 2 s

/-- A feed cycle passes while a procedure runs: the element's quantities where the cycle was usable. -/
def calCycle (x : Option MtrVal) (withQ : Bool) (s : State) : State :=
  match s.mtr.cal with
  | none => s
  | some c =>
    let c : MtrCal := { c with seen := c.seen + 1 }
    let c : MtrCal := match x with
      | some v => if c.phase && !withQ then c
          else { c with got := c.got + 1, a := c.a + (if c.phase then v.p else v.v), b := c.b + (if c.phase then v.q else v.i) }
      | none => c
    let s := { s with mtr := { s.mtr with cal := some c } }
    if c.n ≤ c.got then calFinish c s else if 2 * c.n ≤ c.seen then calEnd 3 s else s

/-! ### Safe point of the group (R401, R405, R408, R409, R416) -/

/-- Cells of the metering group. -/
def mtrGroup (a : Nat) : Bool :=
  decide (Reg.MTR_CFG ≤ a ∧ a ≤ Reg.MTR_CF_WIDTH) || decide (Reg.MTR_K 0 ≤ a ∧ a < Reg.MTR_K 8) || decide (Reg.MTR_PHCAL 0 ≤ a ∧ a < Reg.MTR_PHCAL 3)

/-- MTR_CFG_SEQ rises. -/
def cfgSeqUp (s : State) : State :=
  (notePst s Reg.MTR_CFG_SEQ (s.rd Reg.MTR_CFG_SEQ)).putN Reg.MTR_CFG_SEQ ((s.rdN Reg.MTR_CFG_SEQ + 1) % 2 ^ 32)

/-- What a procedure has found goes into both copies. -/
def foundApply (s : State) : State :=
  if s.mtr.found.isEmpty then s
  else
    let l := s.mtr.found
    let s := harmPublish true s
    let s := l.foldl (fun (s : State) c =>
      let s := (notePst s c.1 (s.rd c.1)).putN c.1 c.2
      { s with staged := mdel s.staged c.1 }) { s with mtr := { s.mtr with found := [], saving := true } }
    cfgSeqUp s

/-- The sled meter stops (R397). -/
def sledStop (s : State) : State :=
  let s := { s with mtr := { s.mtr with sled := {}, ms := 0, msN := 0, toCap := none, held := mdel s.mtr.held 3, last := mdel s.mtr.last 3 } }
  (((s.putN Reg.MTR_SLED_V 0x80000000).putN Reg.MTR_SLED_I 0x80000000).putN Reg.MTR_SLED_P1MS 0x80000000).setBit Reg.MTR_STATUS 9 true

/-- A commit in flight is applied. -/
def mtrApply (s : State) : State :=
  if !s.inflight.any (fun c => c.1 == Reg.MTR_COMMIT) then s
  else
    let old := s.rdN Reg.MTR_CFG
    let s := commitApply (harmPublish true s) Reg.MTR_COMMIT
    let new := s.rdN Reg.MTR_CFG
    let s := if bits old 4 2 = bits new 4 2 then s else rescale (bits old 4 2) (bits new 4 2) s
    let s := if bits old 6 1 = bits new 6 1 then s else cfReset s
    let s := if bits old 8 1 = 1 ∧ bits new 8 1 = 0 then sledStop s else s
    let s := if bits old 8 1 = 0 ∧ bits new 8 1 = 1 then { s with mtr := { s.mtr with sled := {}, held := mput s.mtr.held 3 (4, false) } } else s
    let s := if bits old 0 3 = bits new 0 3 then s
      else ({ s with mtr := { s.mtr with
        held := s.mtr.held.filter (fun h => h.1 == 3), last := s.mtr.last.filter (fun h => h.1 == 3), tail := [], dc := {}, half := [] } }).setFld Reg.MTR_STATUS 6 3 0
    cfgSeqUp s

/-! ### Cycles (R399, R402 to R404) -/

/-- The element of the procedure in progress. -/
def calElem (s : State) : Option Nat := s.mtr.cal.map (fun (c : MtrCal) => c.elem)

/-- MTR_IN and MTR_IN_CALC of a cycle (R402). -/
def neutralCycle (samples : List (List Int)) (ok : Nat → Bool) (s : State) : State :=
  let m := mtrMode s
  let i := fun (ch : Nat) => samples.getD ch []
  let s := if (m == 1 || m == 3) && ok 6 then putVal Reg.MTR_IN (milli (rmsOf (chScale s 6) (dot (i 6) (i 6)).natAbs 256)) s else s
  if m == 1 && ok 3 && ok 4 && ok 5 then
    let a := chScale s 3
    let b := chScale s 4
    let c := chScale s 5
    let sum := ((i 3).zip ((i 4).zip (i 5))).map (fun x => x.1 * (a.num * b.den * c.den) + x.2.1 * (b.num * a.den * c.den) + x.2.2 * (c.num * a.den * b.den))
    putVal Reg.MTR_IN_CALC (milli (rmsOf ⟨1, a.den * b.den * c.den⟩ (dot sum sum).natAbs 256)) s
  else s

/-- A sum of quantities over elements (R402). -/
def totalOf (l : List MtrVal) : MtrVal :=
  l.foldl (fun (t x : MtrVal) => { t with p := t.p + x.p, q := t.q + x.q, s := t.s + x.s }) {}

/-- The quantities of a feed cycle. -/
def feedCycle (start len : Nat) (samples : List (List Int)) (s : State) : State :=
  let m := mtrMode s
  let ac := mtrAc s
  let withQ := ac && freqValid s
  let elems := mtrElems m
  if elems.isEmpty then s
  else
    let pass := (List.range 8).any (fun ch => decEn s ch && respOf s ch == 7)
    let marks := fun (p vch ich : Nat) => if ac then marksIn s vch start len (phDelay s p) ++ marksIn s ich start len 0 else []
    let clean := fun (ch : Nat) => chanServes s ac ch && !(marksIn s ch start len 0).any (fun o => unusable o.word)
    let above := elems.any (fun (e : Nat × Nat × Nat) => (marks e.1 e.2.1 e.2.2).any (fun o => wordFlag o.word 2)) || (!ac && s.mtr.dc.above)
    let r := elems.foldl (fun (r : State × List (Option MtrVal) × Bool) e =>
      let (s, l, all) := r
      let (p, vch, ich) := e
      let mk := marks p vch ich
      let serves := chanServes s ac vch && chanServes s ac ich && !pass
      let ok := !mk.any (fun o => unusable o.word) && !s.mtr.lost && (ac || (!s.mtr.dc.bad && decide (0 < s.mtr.dc.n)))
      let x := if ac then acVals (chScale s vch) (chScale s ich) (samples.getD vch []) (samples.getD ich []) (mgetD s.mtr.tail (List.replicate 64 0) vch)
        else dcVals (chScale s vch) (chScale s ich) s.mtr.dc
      let x := if ac && !withQ then { x with q := (mgetD s.mtr.last {} p).q } else x
      let s := if calElem s = some p then calCycle (if serves && ok then some x else none) withQ s else s
      let (s, y) := elemCycle p serves ok (mk.any (fun o => unusable o.word && o.byGain) || (!ac && s.mtr.dc.byGain)) x s
      let s := match y with
        | some v =>
          let s := addCycle p v withQ len s
          if serves && ok then showVals p v withQ s else s
        | none => s
      (s, l ++ [y], all && serves && ok)) (s, [], true)
    let (s, l, all) := r
    let s := match calElem s with
      | some p => if elems.any (fun e => e.1 == p) then s else calCycle none withQ s
      | none => s
    let got := l.filterMap id
    let t := totalOf got
    let s := if got.isEmpty then s
      else
        let s := addCycle 3 t withQ len s
        if (s.rdN (Reg.MTR_VAL (elems.head?.getD (0, 0, 0)).1 2)) = 0x80000000 then s
        else
          let s := putVal (Reg.MTR_VAL 3 2) (milli t.p) (putVal (Reg.MTR_VAL 3 4) (milli t.s) (putVal (Reg.MTR_VAL 3 5) (pfOf t.p t.s) s))
          let s := if withQ then putVal (Reg.MTR_VAL 3 3) (milli t.q) s else s
          if m = 2 then showVals 1 {} true s else s
    let s := if ac then neutralCycle samples clean s else s
    let lacks := l.any (fun x => x.isNone)
    let s := s.setBit Reg.MTR_STATUS 5 lacks
    let s := if lacks || (ac && !withQ) then gapCycle len s else s
    let s := showHolds s
    let held := decide (0 < sumOf (elems.filter (fun (e : Nat × Nat × Nat) => decide (1 ≤ (mgetD s.mtr.held (0, false) e.1).1 ∧ (mgetD s.mtr.held (0, false) e.1).1 ≤ 2))) (fun _ => 1))
    let s := s.putN Reg.MTR_CYC_FLAGS (b2n (ac && !withQ) + 2 * b2n above + 4 * b2n held)
    let s := if s.bit Reg.MTR_CFG 7 then s else cfCycle { t with q := if withQ then t.q else 0 } len s
    let s := if ac then harmCycle start all (!withQ) samples s else s
    let s := { s with mtr := { s.mtr with
      tail := if ac then elems.map (fun (e : Nat × Nat × Nat) => (e.2.1, (samples.getD e.2.1 []).drop 192)) else [], dc := {} } }
    s.putN Reg.MTR_CYC_SEQ ((s.rdN Reg.MTR_CYC_SEQ + 1) % 2 ^ 32)

/-- What a feed cycle boundary does besides: safe points of this block and of the integrating converters, MTR_ECLR. -/
def feedBoundary (at_ : Nat) (newly : Bool) (s : State) : State :=
  let s := if newly then s else mtrApply (foundApply s)
  let s := if s.mtr.clear then energyClear s else s
  let s := { s with mtr := { s.mtr with cycAt := at_, lost := false } }
  let s := (List.range 8).foldl (fun (s : State) ch => s.updDch ch (fun c => { c with outs := c.outs.filter (fun o => decide ((at_ : Int) - 140000 ≤ o.when_)) })) s
  icSafe at_ s

/-- A feed cycle ends; one that a change of validity cut short is not metered (log entry 96). -/
def feedEnd (start len : Nat) (samples : List (List Int)) (s : State) : State :=
  let had := s.mtr.found
  let s := if s.mtr.cycAt = start then feedCycle start len samples s else s
  feedBoundary (start + len) (had.isEmpty && !s.mtr.found.isEmpty) s

/-- Cycle lengths from 45 Hz to 66 Hz. -/
def lenInRange (len : Nat) : Bool := decide (9696970 ≤ len ∧ len ≤ 14222222)

/-- A positive-going crossing of the reference channel's fundamental (R399), with the length of the cycle that ends. -/
def crossing (len : Nat) (samples : List (List Int)) (s : State) : State :=
  let s := { s with mtr := { s.mtr with crossAt := s.tb } }
  if freqValid s then
    let s := feedEnd s.mtr.cycAt len samples s
    let s := { s with mtr := { s.mtr with line := some len } }
    if lenInRange len then s.putN Reg.MTR_FREQ (freqOf len)
    else freqChange false len { s with mtr := { s.mtr with good := 0 } }
  else
    let n := if lenInRange len then s.mtr.good + 1 else 0
    let s := { s with mtr := { s.mtr with good := n, line := some len } }
    if 3 ≤ n then freqChange true len { s with mtr := { s.mtr with cycAt := pll s } } else s

/-- A sled cycle ends (R402, R412). -/
def sledCycle (s : State) : State :=
  let a := s.mtr.sled
  let s := { s with mtr := { s.mtr with sled := {} } }
  if !sledMeterOn s then s
  else if (mgetD s.mtr.held (0, false) 3).1 = 4 then { s with mtr := { s.mtr with held := mput s.mtr.held 3 (3, false) } }
  else
    let pair := (match pairOf s 0 with | some (12, _) => true | _ => false) &&
      (match s.mtr.pairA with | some (t, _) => decide (s.tb ≤ t + 40000) | none => false)
    let serves := chanServes s false 7 && pair
    let ok := !a.bad && decide (0 < a.n)
    let x := dcVals (sledScale s) (chScale s 7) a
    let (s, y) := elemCycle 3 serves ok false x s
    let s := showHolds s
    match y with
    | none => gapCycle 12800000 s
    | some v =>
      let s := addEnergy (if 0 ≤ v.p then 20 else 21) (v.p.natAbs * 12800000) s
      let s := if serves && ok then putVal Reg.MTR_SLED_V (milli v.v) (putVal Reg.MTR_SLED_I (milli v.i) s) else s
      if s.bit Reg.MTR_CFG 7 then cfCycle v 12800000 s else s

/-- MTR_CYCLE_END: a sled cycle, at a multiple of 20,000 µs; a crossing of the reference channel; or a TB-aligned feed
cycle, while the frequency is not valid and in modes OFF and DC (R399). The samples are the resampler's 256 for every channel, in
1/256 LSB (R400; log entry 95). -/
def execMtrCycleEnd (sled cross : Bool) (len : Nat) (samples : List (List Int)) (s : State) : Out :=
  if s.hld.ph ≠ .supplied then .next s
  else if sled then .next (if s.tb % 20000 = 0 then sledCycle s else s)
  else if cross then .next (if mtrAc s then crossing len samples s else s)
  else if s.tb % 20000 ≠ 0 ∨ s.tb = 0 ∨ (mtrAc s && freqValid s) then .next s
  else .next (feedEnd (pll s - 12800000) 12800000 samples s)

/-- FREQ_LOSS_TIMEOUT (R399). -/
def execFreqLossTimeout (s : State) : Out :=
  if freqValid s && decide (s.mtr.crossAt + 40000 ≤ s.tb) then
    .next (freqChange false (s.mtr.line.getD 0) { s with mtr := { s.mtr with good := 0, cycAt := pll s } })
  else .next s

/-! ### Events (R410) -/

/-- A one-cycle RMS of an element, in µV. -/
def halfValue (p x : Nat) (s : State) : State :=
  let nom := s.rdN Reg.MTR_VNOM * 1000
  match mget s.mtr.events p with
  | none =>
    if x * 100 < nom * 90 ∨ nom * 110 < x * 100 then
      ({ s with mtr := { s.mtr with events := mput s.mtr.events p ⟨decide (nom * 110 < x * 100), s.tb, s.rdN Reg.MTR_CFG_SEQ, x⟩ } }).setBit Reg.MTR_STATUS (10 + p) true
    else s
  | some e =>
    if (if e.swell then decide (x * 100 < nom * 108) else decide (nom * 92 < x * 100)) then
      let s := ({ s with mtr := { s.mtr with events := mdel s.mtr.events p } }).setBit Reg.MTR_STATUS (10 + p) false
      let type := if e.swell then 2 else if e.extreme * 100 < nom * 5 then 3 else 1
      evtRecord type p e.cfgSeq e.start (s.tb - e.start) (milli e.extreme).toNat s
    else { s with mtr := { s.mtr with events := mput s.mtr.events p { e with extreme := if e.swell then max e.extreme x else min e.extreme x } } }

/-- MTR_HALF_CYCLE: 128 resampled samples of an element's voltage, in 1/256 LSB. -/
def execMtrHalfCycle (elem : Nat) (samples : List Int) (s : State) : Out :=
  let sum := (dot samples samples).natAbs
  let s1 := match mget s.mtr.half elem with
    | some h => halfValue elem (rmsOf (chScale s elem) (h + sum) 256) s
    | none => s
  let s1 := { s1 with mtr := { s1.mtr with half := mput s1.mtr.half elem sum } }
  onUnit (decide (elem < 3)) (if s.hld.ph == .supplied && mtrAc s && (mtrElems (mtrMode s)).any (fun e => e.1 == elem) then s1 else s)

/-! ### CF outputs (R407, R408) -/

/-- CF_PULSE_EMIT. -/
def execCfPulseEmit (k : Nat) (s : State) : Out :=
  let c := s.cfo k
  let b := s.rdN (Reg.MTR_CF_BACKLOG k)
  if 3 ≤ k then .fault .noSuchUnit
  else if s.hld.ph != .supplied || !s.bit Reg.MTR_CFG 6 || !cfFree s k || !(c.due || decide (0 < b)) then .next s
  else
    let w := s.rdN Reg.MTR_CF_WIDTH * 1000
    let w := match c.rise with | some t => max 1000 (min w ((s.tb - t) / 2)) | none => max 1000 w
    let s := if c.due then s else s.putN (Reg.MTR_CF_BACKLOG k) (b - 1)
    let s := s.updCf k (fun c => { c with due := false, high := true, width := w, rise := some s.tb })
    .next (cfPin k true (s.bump (Reg.MTR_CF_CNT k)))

/-- CF_PULSE_END. -/
def execCfPulseEnd (k : Nat) (s : State) : Out :=
  let c := s.cfo k
  onUnit (decide (k < 3)) (
    if c.high && decide ((c.rise.getD 0) + c.width ≤ s.tb) then
      cfPin k false (s.updCf k (fun c => { c with high := false, fall := some s.tb }))
    else s)

/-! ### Persistence, configuration and calibration -/

/-- MTR_FRAM_FLUSH_TICK (R406). -/
def execMtrFramFlushTick (s : State) : Out := .next (if s.hld.ph = .off then s else energyFlush s)

/-- MTR_ECLR (R406). -/
def execMtrEclr (key : Nat) (s : State) : Out :=
  .next (if key = 0xE0C1 then { s with mtr := { s.mtr with clear := true } } else s)

/-- A staged metering group is rejected (R401). -/
def mtrBad (s : State) : Bool :=
  let v := fun (a : Nat) => (s.stg a).toNat
  let cfg := v Reg.MTR_CFG
  let m := bits cfg 0 3
  let ac := m == 1 || m == 2 || m == 3
  let sled := cfg.testBit 8
  let out := fun (x lo hi : Nat) => decide (x < lo) || decide (hi < x)
  decide (4 < m) || (mtrChans m).any (fun ch => !decEn s ch || !respFits ac (respOf s ch)) || (sled && !respFits false (respOf s 7)) ||
    (cfg.testBit 7 && !sled) || out (v Reg.MTR_VNOM) 1000 1000000 || out (v Reg.MTR_IB) 10 10000000 ||
    out (v Reg.MTR_CF_CONST) 100 1000000 || out (v Reg.MTR_CF_WIDTH) 1 200

/-- MTR_COMMIT (R401). -/
def execMtrCommit (s : State) : Out :=
  .next (if mtrBad s then (s.setBit Reg.MTR_STATUS 1 true).bump Reg.MTR_CFG_REJECT else commitTake s Reg.MTR_COMMIT mtrGroup)

/-- A procedure starts; 0 cycles stand for 50, and other numbers outside 10 to 250 start nothing (R414, R416). -/
def calStart (phase : Bool) (elem n : Nat) (s : State) : State :=
  let n := if n = 0 then 50 else n
  if s.mtr.cal.isSome ∨ n < 10 ∨ 250 < n then s
  else ({ s with mtr := { s.mtr with cal := some { phase := phase, elem := elem, n := n }, saving := false } }).putN Reg.MTR_CAL_STATUS 1

/-- MTR_CAL_GAIN. -/
def execMtrCalGain (elem n : Nat) (s : State) : Out := onUnit (decide (elem < 3)) (calStart false elem n s)

/-- MTR_CAL_PHASE. -/
def execMtrCalPhase (elem n : Nat) (s : State) : Out := onUnit (decide (elem < 3)) (calStart true elem n s)

/-- SLED_P1MS_TICK (R413). -/
def execSledP1msTick (s : State) : Out :=
  let x := s.mtr.ms
  let n := s.mtr.msN
  let s := { s with mtr := { s.mtr with ms := 0, msN := 0, toCap := none } }
  if !sledMeterOn s || s.bit Reg.MTR_STATUS 9 || n == 0 || s.hld.ph != .supplied then .next s
  else
    let p := milli (meanOf (sledScale s) (chScale s 7) x n)
    .next (putVal Reg.MTR_SLED_P1MS p { s with mtr := { s.mtr with toCap := some p } })

/-- The value registers that a read of MTR_CYC_SEQ latches (R403). -/
def valueWords (s : State) : List Word :=
  ([Reg.MTR_CYC_SEQ, Reg.MTR_CYC_FLAGS] ++ (List.range 24).map (fun k => Reg.MTR_VAL (k / 6) (k % 6)) ++ [Reg.MTR_IN, Reg.MTR_IN_CALC]).map
    (fun a => BitVec.ofNat 32 (s.rdN a))

/-- MTR_CYC_SEQ_READ (R403). -/
def execMtrCycSeqRead (requester : Nat) (s : State) : Out :=
  let w := valueWords s
  let keep := s.latches.filter (fun l => !(l.requester == requester && l.addr == Reg.MTR_CYC_SEQ))
  .next (({ s with latches := ⟨requester, none, Reg.MTR_CYC_SEQ, w⟩ :: keep }).emit (.read requester (w.take 1)))

end Sys2Proof.Machine
end

