-- ==== Sys2Proof/Machine/Decimation.lean ====
section
/-! DEFINITION. Meanings of the commands of the decimation chain (18). -/

namespace Sys2Proof.Machine

/-! ### Filters (R381, R382) -/

/-- Tap k of sinc³ decimating by 64: three running sums of 64, 190 taps. -/
def sincTap (k : Nat) : Int :=
  let c := fun (n : Int) => if n < 2 then 0 else n * (n - 1) / 2
  c (k + 2) - 3 * c ((k : Int) - 62) + 3 * c ((k : Int) - 126) - c ((k : Int) - 190)

/-- Stage 1 on the newest bits, newest first, in 2^30 of full density. -/
def sinc3 : List Bool → Nat → Int
  | [], _ => 0
  | b :: r, k => (if b then sincTap k else -sincTap k) + sinc3 r (k + 1)

/-- Shift right, rounding half away from zero, and clamp to ±(2^27 − 1); whether it was clamped. -/
def shiftClamp (x : Int) (n : Nat) : Int × Bool :=
  let y := (⟨x, 2 ^ n⟩ : Ratio).round
  if 2 ^ 27 - 1 < y then (2 ^ 27 - 1, true) else if y < -(2 ^ 27 - 1) then (-(2 ^ 27 - 1), true) else (y, false)

/-- The modulator windows of 256 bits that a stretch of bits completes: one of a density above 0.8 sets OVR (R358). -/
def windows : List Bool → DecCh → DecCh
  | [], c => c
  | b :: r, c =>
    let ones := c.winOnes + b2n b
    if c.winLen = 255 then
      windows r { c with winLen := 0, winOnes := 0, ovrSpan := c.ovrSpan || decide (206 ≤ (2 * (ones : Int) - 256).natAbs) }
    else windows r { c with winLen := c.winLen + 1, winOnes := ones }

/-- Stage 1 over the bits of an output, 64 at a time: the channel with its history, results newest first, and clamps. -/
def stage1 (shift : Nat) : Nat → List Bool → DecCh → Bool → DecCh × Bool
  | 0, _, c, sat => (c, sat)
  | n + 1, l, c, sat =>
    let taps := ((l.take 64).reverse ++ c.taps).take 190
    let (x, y) := shiftClamp (sinc3 taps 0 * 4096) shift
    stage1 shift n (l.drop 64) { c with taps := taps, fir := x :: c.fir } (sat || y)

/-- The calibrated value of a channel (R381; 17, R375). -/
def calibrated (s : State) (ch : Nat) (x : Int) : Ratio × Ratio :=
  let g := gainOf s ch
  let o := (mgetD s.adc.sdOff ⟨0, 1⟩ ch).mul ⟨2 ^ 23, 1⟩
  let k := mgetD s.adc.sdGain ⟨1, 1⟩ ch
  let k := if g = 0 then k else k.mul ⟨(Config.gainTrim ch g : Nat), 2 ^ 32⟩
  let self := ((Ratio.ofInt x).sub o).mul k
  (self, sysApply s (sysKey false ch 0 g) self)

/-! ### Metering uses of an output (19) -/

/-- A decimated sample of the DC meter: channels 0 and 3 with one SEQ (19, R402). -/
def dcSample (ch : Nat) (s : State) : State :=
  if mtrMode s ≠ 4 ∨ (ch ≠ 0 ∧ ch ≠ 3) then s
  else
    let a := s.rdN (Reg.DEC_OUT 0)
    let b := s.rdN (Reg.DEC_OUT 3)
    if a / 2 ^ 32 ≠ b / 2 ^ 32 ∨ !decEn s 0 ∨ !decEn s 3 then s
    else
      let wa := BitVec.ofNat 32 a
      let wb := BitVec.ofNat 32 b
      let d := s.mtr.dc
      if unusable wa || unusable wb then { s with mtr := { s.mtr with dc := { d with
        bad := true, byGain := d.byGain || (unusable wa && (s.dch 0).byGain) || (unusable wb && (s.dch 3).byGain) } } }
      else
        let v := wordValue wa * 256
        let i := wordValue wb * 256
        let s := { s with mtr := { s.mtr with dc := { d with
          n := d.n + 1, vi := d.vi + v * i, vv := d.vv + (v * v).natAbs, ii := d.ii + (i * i).natAbs,
          above := d.above || wordFlag wa 2 || wordFlag wb 2 } } }
        if s.bit Reg.MTR_CFG 7 then s
        else
          let e := (meanOf (chScale s 0) (chScale s 3) (v * i) 1).natAbs * (50 * decRatio (respOf s 3))
          cfAdd 2 e (cfAdd 0 e { s with mtr := { s.mtr with cfSeen := s.mtr.cfSeen + e } })

/-- An AUX sample of the sled meter, with the pair A word in force (19, R402). -/
def sledSample (w : Word) (s : State) : State :=
  if !sledMeterOn s then s
  else
    let bad := { s with mtr := { s.mtr with sled := { s.mtr.sled with bad := true } } }
    match s.mtr.pairA with
    | none => bad
    | some (t, pw) =>
      if unusable w ∨ t + 40000 < s.tb then bad
      else
        let v := wordValue pw * 256
        let i := wordValue w * 256
        let d := s.mtr.sled
        let s := { s with mtr := { s.mtr with
          ms := s.mtr.ms + v * i, msN := s.mtr.msN + 1,
          sled := { d with n := d.n + 1, vi := d.vi + v * i, vv := d.vv + (v * v).natAbs, ii := d.ii + (i * i).natAbs } } }
        if !s.bit Reg.MTR_CFG 7 then s
        else
          let e := (meanOf (sledScale s) (chScale s 7) (v * i) 1).natAbs * (50 * decRatio (respOf s 7))
          cfAdd 2 e (cfAdd 0 e { s with mtr := { s.mtr with cfSeen := s.mtr.cfSeen + e } })

/-! ### Output (R381 to R392) -/

/-- An output is delivered: latched with its SEQ, captured, averaged by a system calibration and metered. -/
def decDeliver (ch at_ : Nat) (w : Word) (v : Ratio) (s : State) : State :=
  let c := s.dch ch
  let s := s.putN (Reg.DEC_OUT ch) (w.toNat + 2 ^ 32 * (c.seq % 2 ^ 32))
  let lag : Int := (groupDelay (respOf s ch) : Nat) + (if decShared s then (ch * decRatio (respOf s ch) * 50 / 8 : Nat) else 0)
  let mark : DecOut := ⟨(at_ : Int) - lag, w, c.byGain⟩
  let s := s.updDch ch (fun c => { c with
    seq := c.seq + 1, outs := if wordFlag w 0 || wordFlag w 1 || wordFlag w 2 then mark :: c.outs else c.outs })
  let s := capStore ch w s
  let s := match s.adc.syscal with
    | some x => if !x.ic && x.unit == ch then
        sysAdd v (wordFlag w 0 || wordFlag w 1 || wordFlag w 2 || x.gain != gainOf s ch) s else s
    | none => s
  let s := dcSample ch s
  if ch = 7 then sledSample w s else s

/-- One marked output has ended (R386, R387). -/
def countMark (ch : Nat) (s : State) : State :=
  let n := s.fld (Reg.DEC_CH_STATUS ch) 0 5
  if n = 0 then s
  else (s.setFld (Reg.DEC_CH_STATUS ch) 0 5 (n - 1)).bump Reg.DEC_UNSETTLED

/-- A MISSING output reduces the count and is not marked (R387). -/
def passMark (ch : Nat) (s : State) : State := s.setFld (Reg.DEC_CH_STATUS ch) 0 5 (s.fld (Reg.DEC_CH_STATUS ch) 0 5 - 1)

/-- Marking is over: a gain change is no longer among its causes. -/
def endMark (ch : Nat) (s : State) : State :=
  if s.fld (Reg.DEC_CH_STATUS ch) 0 5 = 0 then s.updDch ch (fun c => { c with byGain := false }) else s

/-- The word of an output under responses 0 to 6, from its modulator bits. -/
def formed (ch : Nat) (ones : List Bool) (s : State) : State × Word × Ratio :=
  let cfg := Reg.DEC_CFG ch
  let resp := respOf s ch
  let r := decRatio resp
  let ones := ones.take r ++ List.replicate (r - ones.length) false
  let (c, sat1) := stage1 (s.fld cfg 3 4) (r / 64) ones (windows ones (s.dch ch)) false
  let hist := if resp = 0 then 1 else settleCount resp * r / 64
  let c := { c with fir := c.fir.take hist }
  let (x, sat2) := if resp = 0 then (c.fir.headD 0, false) else shiftClamp (Config.stage2 resp c.fir) (s.fld cfg 7 4)
  let ovr := c.ovrSpan
  let s := s.updDch ch (fun _ => { c with ovrSpan := false })
  let (self, v) := calibrated s ch x
  let (y, sat3) := clampValue v.round
  let st := Reg.DEC_CH_STATUS ch
  let s := if sat1 then s.setBit st 5 true else s
  let s := if sat2 then s.setBit st 6 true else s
  let sat := sat1 || sat2 || sat3
  let s := if sat then s.bump (Reg.DEC_SAT ch) else s
  let s := if ovr then s.setBit (Reg.ADC_SD_STATUS ch) 3 true else s
  let left := s.fld st 0 5
  -- below 0.175 V the density is below 0.28 (17, R376)
  let low := self.abs.le ⟨28 * 2 ^ 23, 100⟩ && !ovr
  let s := { s with adc := { s.adc with low := if low then (if (mget s.adc.low ch).isSome then s.adc.low else mput s.adc.low ch s.tb) else mdel s.adc.low ch } }
  (s, resWord y (2 * b2n (decide (0 < left)) + 4 * b2n ovr + 8 * b2n sat + 64 * b2n (s.adc.sdUncal.contains ch)), self)

/-- Gain steps down after a window with OVR, or a commit in flight is applied, at the output boundary (17, R376). -/
def rangeDown (ch : Nat) (ovr : Bool) (s : State) : State :=
  let a := Reg.ADC_SD_CFG ch
  let g := gainOf s ch
  let s := applySd ch s
  if ovr && s.bit a 3 && decide (3 ≤ ch ∧ ch < 7) && decide (s.fld a 16 3 < g) && gainOf s ch == g then changeGain ch (g - 1) s else s

/-! ### Configuration (R384, R385) -/

/-- Cells of the decimation group. -/
def decGroup (a : Nat) : Bool := decide (Reg.DEC_CFG 0 ≤ a ∧ a ≤ Reg.DEC_MODE)

/-- A staged group is rejected (R384). -/
def decBad (s : State) : Bool :=
  let v := fun (a : Nat) => (s.stg a).toNat
  let shared := (v Reg.DEC_MODE).testBit 0
  let on := (List.range 8).filter (fun ch => (v (Reg.DEC_CFG ch)).testBit 11)
  let resp := fun (ch : Nat) => bits (v (Reg.DEC_CFG ch)) 0 3
  if shared then
    on.any (fun a => on.any (fun b => decRatio (resp a) != decRatio (resp b))) || (on.any (fun a => resp a == 7) && decide (1 < on.length))
  else on.any (fun ch => [0, 1, 5, 7].contains (resp ch))

/-- The safe point of the group (R385). -/
def decApply (at_ : Nat) (s : State) : State :=
  if !s.inflight.any (fun c => c.1 == Reg.DEC_COMMIT) then s
  else
    let old := s
    let s := commitApply s Reg.DEC_COMMIT
    let changed := (List.range 8).filter (fun ch => old.rd (Reg.DEC_CFG ch) != s.rd (Reg.DEC_CFG ch))
    let s := (List.range 8).foldl (fun (s : State) ch =>
      let s := s.setFld (Reg.DEC_CH_STATUS ch) 7 3 (respOf s ch)
      if !changed.contains ch then s
      else unsettle ch (s.updDch ch (fun c => { c with
        winLen := 0, winOnes := 0, ovrSpan := false, taps := [], fir := [],
        seq := if decEn old ch then c.seq else (at_ - s.dec.origin - (if decShared s then ch * decRatio (respOf s ch) * 50 / 8 else 0)) / (50 * decRatio (respOf s ch)) }))) s
    let steps := decShared old != decShared s || changed.any (fun ch => decRatio (respOf old ch) != decRatio (respOf s ch))
    let s := capEnd true s
    if steps then
      let s := (s.putN Reg.DEC_SYNC_TB (at_ / 640)).putN Reg.DEC_SYNC_FRAC (at_ % 640)
      decStep at_ s
    else s

/-- DEC_OUTPUT: the modulator bits of the output, the earliest first; 16 of them under response 7. -/
def execDecOutput (ch : Nat) (ones : List Bool) (s : State) : Out :=
  let at_ := decDue s ch
  if 8 ≤ ch then .fault .noSuchUnit
  else if !decEn s ch ∨ s.tb < at_ / 640 ∨ s.hld.ph ≠ .supplied ∨ s.dec.stopped then .next s
  else
    let cal := s.adc.sdCal.isSome
    let s :=
      if cal || sdRetired s ch then
        let c := windows ones (s.dch ch)
        let s := s.updDch ch (fun d => { d with winLen := c.winLen, winOnes := c.winOnes, ovrSpan := c.ovrSpan })
        let s := decDeliver ch at_ missingWord ⟨0, 1⟩ s
        applySd ch (if cal then s else endMark ch (passMark ch s))
      else if respOf s ch = 7 then
        let x := (ones.take 16).foldl (fun n b => 2 * n + b2n b) 0
        applySd ch (decDeliver ch at_ (BitVec.ofNat 32 (256 * x)) ⟨0, 1⟩ s)
      else
        let (s, w, v) := formed ch ones s
        rangeDown ch (wordFlag w 2) (endMark ch (countMark ch (decDeliver ch at_ w v s)))
    let s := if ch = 0 then decApply at_ s else s
    .next s

/-- DEC_COMMIT (R384, R385): with channel 0 disabled the safe point is the next multiple of 64 MOD cycles, within the same
step (log entry 97). -/
def execDecCommit (s : State) : Out :=
  if decBad s then .next ((s.setBit Reg.DEC_STATUS 0 true).bump Reg.DEC_CFG_REJECT)
  else
    let s := commitTake s Reg.DEC_COMMIT decGroup
    .next (if decEn s 0 then s else decApply (cdiv (pll s) 3200 * 3200) s)

/-! ### Synchronisation (R388 to R390) -/

/-- A request waits for its instant; requests at one edge are one. -/
def addSync (at_ : Nat) (arm : Bool) (s : State) : State :=
  if s.dec.syncs.any (fun x => x.1 == at_ && x.2 == arm) then s else { s with dec := { s.dec with syncs := s.dec.syncs ++ [(at_, arm)] } }

/-- MTR_SYNC_EDGE (R389): the edge comes some Lodge PLL cycles after the start of the current µs. -/
def execMtrSyncEdge (frac : Nat) (s : State) : Out :=
  let t := pll s + frac
  let last := 640 * s.rdN Reg.DEC_SYNC_TB + s.rdN Reg.DEC_SYNC_FRAC
  let near := (0 < s.rdN Reg.DEC_SYNC_STEPS ∨ 0 < s.rdN Reg.DEC_SYNC_ALIGNED) ∧ t < last + 3200
  if !s.bit Reg.DEC_MODE 1 then .next s
  else if near ∨ s.dec.syncs.any (fun x => decide (t < x.1 + 3200 ∧ x.1 ≤ t + 3200)) then .next (s.bump Reg.DEC_SYNC_IGNORED)
  else .next (addSync (modEdge t + 100) false s)

/-- DEC_CTRL_SYNC (R390). -/
def execDecCtrlSync (s : State) : Out := .next (addSync (modEdge (pll s)) false s)

/-- DEC_CTRL_ARM (R390). -/
def execDecCtrlArm (s : State) : Out :=
  let at_ := s.rdN Reg.DEC_SYNC_AT
  let s := { s with dec := { s.dec with syncs := s.dec.syncs.filter (fun x => !x.2) } }
  let s := s.setBit Reg.DEC_CTRL 1 true
  if at_ < s.tb then .next (addSync (modEdge (pll s)) true (s.setBit Reg.DEC_STATUS 1 true))
  else .next (addSync (modEdge (640 * at_)) true s)

/-- DEC_SYNC_INSTANT (R388): the earliest request that is due takes effect, together with every other at that edge. -/
def execDecSyncInstant (s : State) : Out :=
  let due := s.dec.syncs.filter (fun x => decide (x.1 / 640 ≤ s.tb))
  match due with
  | [] => .next s
  | x :: r =>
    let at_ := r.foldl (fun a y => min a y.1) x.1
    let here := s.dec.syncs.filter (fun y => y.1 == at_)
    let s := { s with dec := { s.dec with syncs := s.dec.syncs.filter (fun y => y.1 != at_) } }
    let s := if here.any (fun y => y.2) then s.setBit Reg.DEC_CTRL 1 false else s
    .next (decSync at_ s)

/-! ### Capture (R393) -/

/-- DEC_CAPTURE_START. -/
def execDecCaptureStart (mask : Nat) (s : State) : Out :=
  if s.bit Reg.DEC_CAP_CTRL 9 then .next s
  else
    let s := s.putN Reg.DEC_CAP_CTRL (mask % 256 + 512)
    let s := { s with dec := { s.dec with capGot := [] } }
    .next (if (capChans s).isEmpty then capEnd false s else s)

end Sys2Proof.Machine
end

