-- ==== Sys2Proof/Machine/Energy.lean ====
section
/-! DEFINITION. Meanings of the commands of energy attribution (20). -/

namespace Sys2Proof.Machine

/-- The part of an energy commit that does not wait for a period boundary. -/
def notPeriod (a : Nat) : Bool := a != Reg.NRG_PERIOD_S

/-- RECONCILE_TICK (R421): at whole seconds of TB in RUN; the first after a start only begins a second (R434). The commit in
flight is applied, but for NRG_PERIOD_S. -/
def execReconcileTick (s : State) : Out :=
  if s.tb % 1000000 ≠ 0 ∨ !inRun s then .next s
  else
    let s := if s.nrg.fresh then nextSecond { s with nrg := { s.nrg with fresh := false } } else reconcile s
    let s := commitPart s Reg.NRG_COMMIT notPeriod
    .next (showCap s)

/-- A tenant's part of a period boundary (R425). -/
def periodSlot (s : State) (slot : Nat) : State :=
  let s := (s.twPut slot Reg.TW_NRG_PERIOD_UJ 0).twPut slot Reg.TW_NRG_K 0
  match s.ten slot with
  | some t => applyBudget slot (s.twPut slot Reg.TW_NRG_BUDGET_J t.vec.energy)
  | none => s

/-- ACCOUNTING_PERIOD_BOUNDARY (R425, R426). -/
def execAccountingPeriodBoundary (s : State) : Out :=
  let p := s.rdN Reg.NRG_PERIOD_S * 1000000
  if p = 0 ∨ s.tb % p ≠ 0 then .next s
  else
    let s := s.adm.tenants.foldl (fun s t => periodSlot s t.1) s
    let s := (notePst s Reg.NRG_PERIOD_SEQ (s.rd Reg.NRG_PERIOD_SEQ)).putN Reg.NRG_PERIOD_SEQ ((s.rdN Reg.NRG_PERIOD_SEQ + 1) % 2 ^ 32)
    .next (showCap (commitPart s Reg.NRG_COMMIT (fun a => !notPeriod a)))

/-- OVERHEAD_ROUND (R431, R432): the ratio of the last whole second, at the chassis manager; its own sled is charged at once. -/
def execOverheadRound (s : State) : Out :=
  if !manages s 0 ∨ s.tb < 1000000 then .next s
  else
    let sec := s.tb / 1000000 - 1
    match overheadOf s sec with
    | none => .next s
    | some (r, neg) =>
      let s := if neg then s.bump Reg.NRG_OVH_NEG else s
      .next (applyOverhead (sec % 2 ^ 32) r { s with nrg := { s.nrg with ratio := some (sec, r) } })

/-- OVERHEAD_MISS_TIMEOUT (R432): 2 s after the end of a second. -/
def execOverheadMissTimeout (sec : Nat) (s : State) : Out :=
  if s.nrg.waiting.any (fun w => w.sec == sec) && decide ((sec + 1) * 1000000 + 2000000 ≤ s.tb) then
    .next ((({ s with nrg := { s.nrg with waiting := s.nrg.waiting.filter (fun w => w.sec != sec) } }).bump Reg.NRG_OVH_MISS).setBit Reg.NRG_STATUS 2 false)
  else .next s

/-- NRG_COMMIT (R427). -/
def execNrgCommit (s : State) : Out :=
  let v := fun (a : Nat) => (s.stg a).toNat
  if v Reg.NRG_ADMIT_W * v Reg.NRG_PERIOD_S < admResv s 8 then .next (s.setBit Reg.NRG_STATUS 3 true)
  else .next (commitTake s Reg.NRG_COMMIT nrgGroup)

/-- TW_NRG_SEQ_READ (R435). -/
def execTwNrgSeqRead (f : Nat) (win : Option Nat) (requester : Nat) (s : State) : Out :=
  onWindow f win (fun slot s =>
    let w := nrgWords s slot
    let keep := s.latches.filter (fun l => !(l.requester == requester && l.window == some slot && l.addr == Reg.TW_NRG_SEQ))
    ({ s with latches := ⟨requester, some slot, Reg.TW_NRG_SEQ, w⟩ :: keep }).emit (.read requester (w.take 1))) s

end Sys2Proof.Machine
end

