-- ==== Sys2Proof/Machine/Links.lean ====
section
/-! DEFINITION. Link ports, retry, credits and routes (12). -/

namespace Sys2Proof.Machine

/-- A command on a fitted port that is in one of the states. -/
def onPort (p : Nat) (sts : List Nat) (f : State → State) (s : State) : Out :=
  onUnit (decide (p < 18)) (if s.fitted p && sts.contains (s.portState p) then f s else s)

/-! ### Receiving (R246 to R252) -/

/-- CODEWORD_UNCORRECTABLE (R246): its flits are discarded; a gap in SEQ shows at the next DATA flit (R250). -/
def execCodewordUncorrectable (port : Nat) (s : State) : Out := onPort port [3, 4, 5, 6] (fun s => s.bump (Reg.LNK_FEC_UNCORR port)) s

/-- IDLE_FLIT (R251). -/
def execIdleFlit (port ack : Nat) (s : State) : Out := onPort port [5] (fun s => applyAck port ack (hearPort port s)) s

/-- RETRY_REQ (R250). -/
def execRetryReq (port ack expected : Nat) (s : State) : Out :=
  onPort port [5] (fun s => replayFrom port (some expected) (applyAck port ack (hearPort port s))) s

/-- RETRY_ACK_TIMEOUT (R250): no acknowledgement has advanced for 2 µs while flits are unacknowledged. -/
def execRetryAckTimeout (port : Nat) (s : State) : Out :=
  onPort port [5] (fun s => if s.tb < (s.lport port).ackAt + 2 then s else replayFrom port none s) s

/-- CREDIT (R252). -/
def execCredit (port ack : Nat) (freed : List Nat) (s : State) : Out :=
  onPort port [5] (fun s =>
    let s := applyAck port ack (hearPort port s)
    pumpPort port (s.updLport port (fun l => { l with
      freedPeer := (List.range 16).foldl (fun m v => mputD m 0 v (freed.getD v 0 % 65536)) l.freedPeer }))) s

/-- CREDIT_PERIODIC_SEND (R252). -/
def execCreditPeriodicSend (port : Nat) (s : State) : Out := onPort port [5] (sendCredit port) s

/-! ### Waits at an output (R254, R255) -/

/-- Take a flit out of a port's queue. -/
def unqueue (p : Nat) (q : QFlit) (s : State) : State := s.updLport p (fun l => { l with queue := l.queue.eraseP (fun x => x == q) })

/-- The first flit of a port's queue that satisfies the test. -/
def waiting (s : State) (p : Nat) (f : QFlit → Bool) : Option QFlit := (s.lport p).queue.find? f

/-- ESCAPE_WAIT_EXPIRE (R254): a flit of class 1, 2, 3 or 5 takes the tree in class 7. -/
def execEscapeWaitExpire (port : Nat) (s : State) : Out :=
  onPort port [5, 6] (fun s =>
    match waiting s port (fun q => [1, 2, 3, 5].contains q.flit.cls && decide (q.since + s.rdN Reg.LNK_ESC_WAIT ≤ s.tb)) with
    | none => s
    | some q => routeFlit { q with flit := { q.flit with cls := 7, vc := 0, ocls := q.flit.cls } } ((unqueue port q s).bump Reg.LNK_ESCAPES)) s

/-- FLIT_AGE_EXPIRE (R255): a flit that has waited 100 µs is dropped. -/
def execFlitAgeExpire (port : Nat) (s : State) : Out :=
  onPort port [5, 6] (fun s =>
    match waiting s port (fun q => decide (q.since + 100 ≤ s.tb)) with
    | none => s
    | some q => freeBuf q.origin ((unqueue port q s).bump Reg.LNK_AGE_DROP)) s

/-! ### HELLO and lanes (R259, R260) -/

/-- A peer of an UP port with this node ID that started at another time: another sled (log entry 77). -/
def dupPeer (s : State) (p node start : Nat) : Bool :=
  (List.range 18).any (fun q => q != p && s.portUp q && s.fld (Reg.LNK_PEER q) 0 16 == node && (s.lport q).peerStart != start)

/-- A peer that reports a cold start has held nothing: its pages are poisoned at once (04, R99). -/
def poisonPeer (node : Nat) (s : State) : State :=
  (s.adm.tenants.map (·.1)).foldl (fun s i => poisonWhere i (fun p => p.tier == 4 && p.loc == node) s) s

/-- HELLO (R259, R261). -/
def helloIn (p version node peerPort lanes epoch : Nat) (cold : Bool) (start : Nat) (depth : List Nat) (s : State) : State :=
  if version ≠ 1 ∨ 0x8000 ≤ node then s
  else if node = ownNode s ∨ dupPeer s p node start then (s.setBit (Reg.LNK_PORT_STATUS p) 25 true).setPort p 7
  else if lanes ≠ s.fld (Reg.LNK_PORT_STATUS p) 3 4 then s
  else
    let fresh_ := cold && (s.peer node).startSeq.any (· != start)
    let s := s.putN (Reg.LNK_PEER p) (node + 2 ^ 16 * peerPort + 2 ^ 21 * epoch)
    let s := s.updLport p (fun l => { l with
      depth := (List.range 16).foldl (fun m v => mputD m 0 v (depth.getD v 0 % 65536)) [], peerStart := start })
    let s := hear node (s.updPeer node (fun x => { x with epoch := epoch, startSeq := some start }))
    let s := if fresh_ then poisonPeer node (s.setBit (Reg.LNK_PORT_STATUS p) 26 true) else s
    pumpPort p (neighbourRoute node (s.setPort p 5))

/-- HELLO (R259). -/
def execHello (port version node peerPort lanes epoch : Nat) (cold : Bool) (startSeq : Nat) (credits : List Nat) (s : State) : Out :=
  onPort port [4] (helloIn port version node peerPort lanes epoch cold startSeq credits) s

/-- LANE_MAP (R260): the union of both masks decides the width; with no width free of retired lanes the port is DOWN and retires. -/
def execLaneMap (port : Nat) (mask : BitVec 8) (s : State) : Out :=
  onPort port [3, 4, 5, 6] (fun s =>
    let s := widthChange port ((hearPort port s).updLport port (fun l => { l with peerMask := mask.toNat }))
    if (lanesOf s port).isNone then retire 2 port 3 (portEvidence s port (8 * port)) s else s) s

/-- DOWN_NOTICE (R267): the port leaves UP. -/
def execDownNotice (port reason : Nat) (s : State) : Out :=
  onPort port [4, 5, 6] (fun s => let _ := reason; leavePort port (restPort s port) (hearPort port s)) s

/-! ### Port states (Table LNK-4) -/

/-- LNK_PORT_EN: EN 1 takes a port that is DOWN to DETECT; EN 0 takes it DOWN with a DOWN_NOTICE. -/
def portEn (p : Nat) (en : Bool) (s : State) : State :=
  if !s.fitted p then s
  else
    let s := s.setBit (Reg.LNK_PORT_CTRL p) 0 en
    if en then (if s.portState p = 0 then s.setPort p (restPort s p) else s)
    else if s.portState p = 7 then s
    else leavePort p 0 (sendDown p 0 s)

/-- LNK_PORT_EN (Table LNK-4). -/
def execLnkPortEn (port : Nat) (en : Bool) (s : State) : Out := onUnit (decide (port < 18)) (portEn port en s)

/-- LNK_PORT_RETRAIN (R260). -/
def execLnkPortRetrain (port : Nat) (s : State) : Out := onPort port [5] (retrain port false) s

/-- LNK_PORT_FULL_EQ (R260, Table LNK-4): the port retrains with full equalisation. -/
def execLnkPortFullEq (port : Nat) (s : State) : Out :=
  onPort port [1, 2, 3, 4, 5, 6] (fun s =>
    if s.portState port = 5 then retrain port true s else s.updLport port (fun l => { l with fullEq := true })) s

/-- PORT_DETECT_RETRY (Table LNK-4): no signal yet, and the port looks again. -/
def execPortDetectRetry (port : Nat) (s : State) : Out := onPort port [1] (fun s => s) s

/-- PORT_SIGNAL_DETECT (Table LNK-4): signal on at least 2 lanes. -/
def execPortSignalDetect (port : Nat) (lanes : BitVec 8) (s : State) : Out :=
  onPort port [1] (fun s =>
    if 2 ≤ ((List.range 8).filter (fun i => lanes.getLsbD i)).length then s.setPort port 2 else s) s

/-- PORT_LANES_LOCK (Table LNK-4). -/
def execPortLanesLock (port : Nat) (s : State) : Out := onPort port [2] (fun s => s.setPort port 3) s

/-- PORT_ALIGN_DONE (R259, R260): the width is chosen and HELLO sent; a retrain returns to UP with its retry state. -/
def alignDone (p : Nat) (s : State) : State :=
  match lanesOf s p with
  | none => leavePort p 0 s
  | some (_, n) =>
    let s := (s.setFld (Reg.LNK_PORT_STATUS p) 3 4 n).updLport p (fun l => { l with fullEq := false })
    let s := { s with flt := { s.flt with laneNamed := s.flt.laneNamed.filter (fun x => x.1 / 8 != p) } }
    if s.portState p = 6 then pumpPort p ((s.setPort p 5).updLport p (fun l => { l with ackAt := s.tb }))
    else sendHello p (sendLaneMap p (s.setPort p 4))

/-- PORT_ALIGN_DONE (R260). -/
def execPortAlignDone (port : Nat) (s : State) : Out := onPort port [3, 6] (alignDone port) s

/-- PORT_LOCK_LOSS (Table LNK-4). -/
def execPortLockLoss (port : Nat) (s : State) : Out := onPort port [5] (retrain port false) s

/-! ### Routes (R261, R262) -/

/-- LNK_RT_WRITE (R261). -/
def execLnkRtWrite (index : Nat) (value : DWord) (s : State) : Out := onUnit (decide (index < 112)) (routeWriteAt index value s)

/-- A flip is set for a time (R262). -/
def setFlip (at_ : Nat) (e : Option Nat) (s : State) : State :=
  { s with lnk := { s.lnk with flipAt := some (at_, e) } }.setBit Reg.LNK_RT_STATUS 0 true

/-- LNK_RT_COMMIT (R262): the staged flip time takes force with the staged bank. -/
def rtCommit (s : State) : State :=
  let t := s.stg Reg.LNK_FLIP_AT
  setFlip t.toNat none { s.put Reg.LNK_FLIP_AT t with staged := mdel s.staged Reg.LNK_FLIP_AT }

/-- LNK_RT_COMMIT (R262). -/
def execLnkRtCommit (value : Word) (s : State) : Out := .next (if value.getLsbD 0 then rtCommit s else s)

/-- ROUTE_FLIP of a manager (R262, R278). -/
def execRouteFlip (src newE time : Nat) (s : State) : Out :=
  .next (let s := hear src s; setFlip time (some (newE % 2)) (s.putN Reg.LNK_FLIP_AT time))

/-- The staged tables can take force: the bank is STAGED, and for a manager's flip every entry of the newest generation
has come (R278). -/
def flipReady (s : State) (e : Option Nat) : Bool :=
  s.lnkStaged && (match e with | some _ => (List.range 112).all (fun i => s.lnk.rtHave.contains i) | none => true)

/-- The flip time is reached: E takes the staged bank, and the other drains; tables that are not complete keep the current
bank and count the miss (R262, R278). The time parent follows the tree (R279). -/
def routeFlipTime (s : State) : State :=
  match s.lnk.flipAt with
  | none => s
  | some (t, e) =>
    if s.tb < t then s
    else
      let s := { s with lnk := { s.lnk with flipAt := none } }.setBit Reg.LNK_RT_STATUS 0 false
      if e = some s.lnkE then s
      else if !flipReady s e then s.bump Reg.HIE_FLIP_MISS
      else
        let s := s.putN Reg.LNK_EPOCH ((1 - s.lnkE) + 2 * 2)
        let s := ({ s with lnk := { s.lnk with flippedAt := s.tb, rtHave := [] } } : State).traceRec 0x08 0x0B 0xFFFF [s.lnkE]
        followTime s

/-- ROUTE_FLIP_TIME (R262). -/
def execRouteFlipTime (s : State) : Out := .next (routeFlipTime s)

/-- The DRAINING bank becomes STAGED once it is empty here and 4 ms have passed; held writes land (R262). -/
def bankRelease (s : State) : State :=
  if s.fld Reg.LNK_EPOCH 1 2 = 2 ∧ bankFlits s (1 - s.lnkE) = 0 ∧ s.lnk.flippedAt + 4000 ≤ s.tb then
    let held := s.lnk.held
    let s := { s with lnk := { s.lnk with held := [] } }.setFld Reg.LNK_EPOCH 1 2 1
    held.foldl (fun s w => setRoute (1 - s.lnkE) w.1 w.2 s) (s.setBit Reg.LNK_RT_STATUS 1 false)
  else s

/-- ROUTE_BANK_RELEASE (R262). -/
def execRouteBankRelease (s : State) : Out := .next (bankRelease s)

end Sys2Proof.Machine
end

