-- ==== Sys2Proof/Machine/OpsTest.lean ====
section
/-! DEFINITION. Criteria of permanence, row repair, targeted tests and the in-service test (24). -/

namespace Sys2Proof.Machine

/-- One hour in µs. -/
def hour : Nat := 3600000000

/-! ### HBM (R488, R489) -/

/-- Repairs of a pseudo-channel in the last 24 h. -/
def repairsIn (s : State) (p : Nat) : Nat := (s.flt.repaired.filter (fun r => r.1 == p && within s day r.2.2)).length

/-- Spares left (log entry 103). -/
def sparesLeft (s : State) (p : Nat) : Nat := Config.rowSpares p - mgetD s.flt.sparesUsed 0 p

/-- Corrections of a row in the last hour. -/
def correctedIn (s : State) (p row : Nat) : Nat := (s.flt.corrections.filter (fun c => c.1 == p && c.2.1 == row && within s hour c.2.2)).length

/-- Uncorrected errors of a pseudo-channel in the last 24 h. -/
def uncorrectedIn (s : State) (p : Nat) : Nat := (s.flt.uncorrected.filter (fun u => u.1 == p && within s day u.2)).length

/-- Evidence of type 0 (Table FLT-7). -/
def hbmEvidence (s : State) (p row : Nat) : List Nat := [row, correctedIn s p row, repairsIn s p, sparesLeft s p, uncorrectedIn s p]

/-- A row needs a repair: without a spare the pseudo-channel is retired (criterion 1). -/
def needRepair (p row : Nat) (s : State) : State :=
  if s.flt.repairing.contains (p, row) then s
  else if sparesLeft s p = 0 then retire 0 p 1 (hbmEvidence s p row) s
  else { s with flt := { s.flt with repairing := s.flt.repairing ++ [(p, row)] } }

/-- A corrected error. -/
def hbmCorrected (p row : Nat) (s : State) : State :=
  let s := (s.bump Reg.FLT_HBM_CE).bump Reg.FLT_UNIT_FAULTS
  if s.flt.retired.contains (0, p) then s
  else
    let s := { s with flt := { s.flt with corrections := (p, row, s.tb) :: s.flt.corrections.filter (fun c => within s hour c.2.2) } }
    if 8 ≤ correctedIn s p row then needRepair p row s else s

/-- A row repair completes; a fifth in 24 h retires the pseudo-channel (criterion 2). -/
def repairDone (p row : Nat) (s : State) : State :=
  if !s.flt.repairing.contains (p, row) then s
  else
    let n := correctedIn s p row
    let s := { s.bump Reg.FLT_HBM_PPR with flt := { s.flt with
      repairing := s.flt.repairing.filter (· != (p, row)), repaired := (p, row, s.tb) :: s.flt.repaired,
      sparesUsed := mput s.flt.sparesUsed p (mgetD s.flt.sparesUsed 0 p + 1) } }
    let ev := [row, n, repairsIn s p, sparesLeft s p, uncorrectedIn s p]
    let s := { s with flt := { s.flt with corrections := s.flt.corrections.filter (fun c => !(c.1 == p && c.2.1 == row)) } }
    let s := ledgerAdd (ledgerRec s 2 0 1 p 0 0 ev) s
    if 5 ≤ repairsIn s p then retire 0 p 2 ev s else s

/-- An uncorrected error of a word of a page: a second in 24 h retires the pseudo-channel (criterion 3), and the row of the first is
repaired while a spare is left. -/
def hbmUncorrected (p row slot obj page : Nat) (s : State) : State :=
  let s := poisonPage slot obj page (noteFault 0 p (s.bump Reg.FLT_HBM_UE))
  if s.flt.retired.contains (0, p) then s
  else
    let s := { s with flt := { s.flt with uncorrected := (p, s.tb) :: s.flt.uncorrected } }
    if 2 ≤ uncorrectedIn s p then retire 0 p 3 (hbmEvidence s p row) s
    else if 0 < sparesLeft s p then needRepair p row s else s

/-! ### Clusters, event cores and queue engines (R492) -/

/-- The unit's number in Table RST-4. -/
def resetType (t : Nat) : Nat := if t = 3 then 0 else if t = 4 then 5 else 4

/-- Units of a type. -/
def fltCount (t : Nat) : Nat := [256, 144, 18, 128, 512, 64, 128, 32, 8, 4, 1, 2, 3].getD t 0

/-- A fault of a cluster, event core or queue engine: a reset; with the second in 24 h a targeted test; the third is permanent
(criterion 2). -/
def coreFault (t i : Nat) (s : State) : State :=
  if s.flt.retired.contains (t, i) then s
  else
    let s := noteFault t i s
    let n := (faultsOf s t i).length
    if 3 ≤ n then fillQuarantine t (retire t i 2 (unitEvidence s t i 0xFFFF) s)
    else
      let s := resetUnit (resetType t) i s
      if n = 2 then quarantine t i s else s

/-- A fault of a Terrace die: a reset; with the second in 24 h its clusters are tested. -/
def terraceFault (i : Nat) (s : State) : State :=
  let s := resetUnit 1 i (noteFault 11 i s)
  if 2 ≤ (faultsOf s 11 i).length then (List.range 64).foldl (fun s k => quarantine 3 (64 * i + k) s) s else s

/-- A fault of a Pergola die: a reset; with the second in 24 h its ports train with full equalisation. -/
def pergolaFault (i : Nat) (s : State) : State :=
  let s := resetUnit 2 i (noteFault 12 i s)
  if 2 ≤ (faultsOf s 12 i).length then (List.range 6).foldl (fun s k => s.updLport (6 * i + k) (fun l => { l with fullEq := true })) s else s

/-- A block of an Orangery die is retired (R493); criteria 1 and 2 of the die. -/
def blockFault (d block : Nat) (lost : Bool) (s : State) : State :=
  if s.flt.retired.contains (6, d) then s
  else
    let s := noteFault 6 d s
    let s : State := { s.bump Reg.FLT_FLS_BAD_BLOCKS with flt := { s.flt with
      badBlocks := mput s.flt.badBlocks d (mgetD s.flt.badBlocks 0 d + 1)
      flashUe := if lost then (d, block, s.tb) :: s.flt.flashUe else s.flt.flashUe } }
    let bad : Nat := ((s.flt.flashUe.filter (fun (u : Nat × Nat × Nat) => u.1 == d && within s day u.2.2)).map (fun u => u.2.1)).eraseDups.length
    if 2 * Config.dieBlocks < 100 * mgetD s.flt.badBlocks 0 d then retireDie d 1 s
    else if 3 ≤ bad then retireDie d 2 s
    else s

/-- A channel operation timed out on a die: a channel reset; the die that stays so through two in an hour is retired (criterion 3),
and the channel with its third (criterion 5). -/
def flashTimeout (d : Nat) (s : State) : State :=
  let c := d / 4
  let before := (s.flt.faults.filter (fun f => f.1 == 6 && f.2.1 == d && within s hour f.2.2)).length
  let s := noteFault 6 d s
  let resets := (s.flt.chanResets.filter (fun r => r.1 == c && within s hour r.2)).length
  if 2 ≤ before ∧ 2 ≤ resets then retireDie d 3 s
  else
    let s := { resetUnit 6 c s with flt := { s.flt with chanResets := (c, s.tb) :: s.flt.chanResets } }
    if 2 ≤ resets then retire 7 c 5 (flashEvidence s d) s else s

/-! ### Tests (R500 to R504) -/

/-- Slices of a type's full set. -/
def sliceSet (t : Nat) : Nat := if t = 3 then 4096 else if t = 4 then 512 else 256

/-- Key of a unit under test. -/
def testKey (t i : Nat) : Nat := 1024 * t + i

/-- When the unit's last full cover ended. -/
def coveredAt (s : State) (t i : Nat) : Nat := mgetD s.flt.coverAt s.flt.coverBase (testKey t i)

/-- The unit is idle: no launch or step holds the cluster, no event waits at the core, no program runs on the engine. -/
def unitIdle (s : State) (t i : Nat) : Bool :=
  match t with
  | 3 => !clusterHeld s i && !clusterReset s i
  | 4 => !s.fab.queued.any (fun x => x.1 == .coreIn i || x.1 == .coreOut i)
  | _ => (progsOn s i).isEmpty

/-- A slice begins; `forced` for a unit whose cover is late, at most once per second, whether or not IST_CTRL.EN is set. -/
def sliceStart (t i : Nat) (forced : Bool) (s : State) : State :=
  let k := testKey t i
  let late := decide (coveredAt s t i + 6 * hour < s.tb) && decide ((match mget s.flt.forcedAt k with | some f => f + 1000000 | none => 0) ≤ s.tb)
  let out := s.flt.retired.contains (t, i) || s.flt.quarantined.contains (t, i) || (mget s.flt.slices k).isSome
  if out || !unitIdle s t i || !(if forced then late else s.bit Reg.IST_CTRL 0) then s
  else
    let s := { s with flt := { s.flt with slices := mput s.flt.slices k s.tb } }
    if forced then { s.bump Reg.IST_FORCED with flt := { s.flt with forcedAt := mput s.flt.forcedAt k s.tb } } else s

/-- IST_COV_AGE_S: age of the least recent full cover of a cluster, event core or queue engine, in s. -/
def coverAge (s : State) : Nat :=
  let live := [3, 4, 5].flatMap (fun t => (List.range (fltCount t)).filter (fun i => !s.flt.retired.contains (t, i)) |>.map (fun i => coveredAt s t i))
  (s.tb - live.foldl min s.tb) / 1000000

/-- How long a slice of a type lasts, in µs. -/
def sliceTime (t : Nat) : Nat := if t = 3 then 40 else 5

/-- A slice ends. -/
def sliceEnd (t i : Nat) (failed : Bool) (s : State) : State :=
  let k := testKey t i
  if !timeCame ((mget s.flt.slices k).map (· + sliceTime t)) s.tb then s
  else
    let n := mgetD s.flt.cover 0 k
    let s := { s.bump Reg.IST_SLICES with flt := { s.flt with slices := mdel s.flt.slices k } }
    let full := sliceSet t ≤ n + 1
    let s := { s with flt := { s.flt with
      cover := mput s.flt.cover k (if full then 0 else n + 1)
      coverAt := if full then mput s.flt.coverAt k s.tb else s.flt.coverAt } }
    if failed then quarantine t i (noteSlice t i n (noteFault t i (s.bump Reg.IST_FAILS))) else s

/-- A targeted test ends. -/
def testEnd (t i : Nat) (passed : Bool) (s : State) : State :=
  if !s.flt.quarantined.contains (t, i) then s
  else
    let k := testKey t i
    let slice := mget s.flt.sliced k
    let s := { s with flt := { s.flt with quarantined := s.flt.quarantined.filter (· != (t, i)), sliced := mdel s.flt.sliced k } }
    let s := if passed then s
      else retire t i (if slice.isSome then 3 else 1) (unitEvidence s t i (slice.getD 0xFFFF)) s
    fillQuarantine t s

/-- Words of the map that the patrol scrub reads in a round. -/
def scrubWords (s : State) : Nat := Config.channelWords * s.rdN (Reg.FLT_INSVC 0)

/-- The patrol scrub has read a word. -/
def scrubStep (s : State) : State :=
  let n := s.flt.scrubbed + 1
  let n := if scrubWords s ≤ n then 0 else n
  { s.putN Reg.IST_SCRUB_DONE (n * 65536 / max 1 (scrubWords s) % 65536) with flt := { s.flt with scrubbed := n } }

/-- A port has nothing to send and nothing unacknowledged. -/
def portIdle (s : State) (p : Nat) : Bool := s.portUp p && (s.lport p).queue.isEmpty && (s.lport p).unacked.isEmpty

/-- Ports with a weak lane train again once they are idle (R504). -/
def retrainWeak (s : State) : State :=
  let due := s.flt.weak.filter (portIdle s)
  due.foldl (fun s p => retrain p false s) { s with flt := { s.flt with weak := s.flt.weak.filter (fun p => !due.contains p) } }

end Sys2Proof.Machine
end

