-- ==== Sys2Proof/Machine/Faults.lean ====
section
/-! DEFINITION. Meanings of the commands of faults, retirement and the in-service test (24), and PORT_RETRAIN_TIMEOUT (12). -/

namespace Sys2Proof.Machine

/-- HBM_CORRECTED_ERROR (R488). -/
def execHbmCorrectedError (pch row : Nat) (s : State) : Out := onUnit (decide (pch < 256)) (hbmCorrected pch row s)

/-- ROW_REPAIR_COMPLETE (R488). -/
def execRowRepairComplete (pch row : Nat) (s : State) : Out := onUnit (decide (pch < 256)) (repairDone pch row s)

/-- HBM_UNCORRECTED_ERROR (R489): the page that holds the word is named by its object. -/
def execHbmUncorrectedError (pch row slot obj page : Nat) (s : State) : Out :=
  onUnit (decide (pch < 256)) (hbmUncorrected pch row slot obj page s)

/-- LANE_SER_INTERVAL (R491): corrected FEC symbols of a lane in a second. -/
def execLaneSerInterval (lane symbols : Nat) (s : State) : Out :=
  let s1 := s.bumpBy (Reg.LNK_FEC_CORR (lane / 8)) symbols
  let n := mgetD s1.flt.laneBad 0 lane + 1
  let s1 := { s1 with flt := { s1.flt with
    laneWorst := mput s1.flt.laneWorst lane (max symbols (mgetD s1.flt.laneWorst 0 lane))
    laneBad := if 212500 < symbols then mput s1.flt.laneBad lane n else mdel s1.flt.laneBad lane } }
  let s1 := if 212500 < symbols ∧ 10 ≤ n then retireLane lane 1 s1 else s1
  onUnit (decide (lane < 144)) (if s.fitted (lane / 8) && !s.flt.retired.contains (1, lane) then s1 else s)

/-- PORT_RETRAIN_TIMEOUT (12, R260; Table FLT-2): the failure and its lanes are recorded, and the port starts again; a lane named by two
failures in a row is retired. -/
def execPortRetrainTimeout (port : Nat) (failed above : BitVec 8) (s : State) : Out :=
  onPort port [2, 6] (fun s =>
    let s := (s.bump (Reg.LNK_RETRAIN_FAIL port)).putN (Reg.LNK_LANE_DIAG port) (failed.toNat + 256 * above.toNat)
    let s := leavePort port (restPort s port) s
    (List.range 8).foldl (fun s k =>
      let l := 8 * port + k
      let n := if (failed ||| above).toNat.testBit k then mgetD s.flt.laneNamed 0 l + 1 else 0
      let s := { s with flt := { s.flt with laneNamed := if n = 0 then mdel s.flt.laneNamed l else mput s.flt.laneNamed l n } }
      if 2 ≤ n then retireLane l 2 s else s) s) s

/-- UNIT_FAULT (R492, R493): a cluster (3), event core (4), queue engine (5), Orangery die (6, one of its blocks, with the page that can no
longer be read), Terrace die (11) or Pergola die (12). -/
def execUnitFault (type index block : Nat) (lost : Bool) (slot obj page : Nat) (s : State) : Out :=
  onUnit (decide (index < fltCount type ∧ ((3 ≤ type ∧ type ≤ 6) ∨ type = 11 ∨ type = 12))) (
    if type = 11 then terraceFault index s
    else if type = 12 then (if s.fitted (6 * index) then pergolaFault index s else s)
    else if type = 6 then blockFault index block lost (if lost then poisonPage slot obj page s else s)
    else coreFault type index s)

/-- TARGETED_TEST_COMPLETE (R502). -/
def execTargetedTestComplete (type index : Nat) (passed : Bool) (s : State) : Out :=
  onUnit (decide (3 ≤ type ∧ type ≤ 5 ∧ index < fltCount type)) (testEnd type index passed s)

/-- FLASH_OP_TIMEOUT (14, R300): a move's channel operation exceeds 20 ms. -/
def execFlashOpTimeout (move : Nat) (s : State) : Out :=
  .next (match s.move move with
    | none => s
    | some m =>
      if (m.src ≠ 2 ∧ m.dst ≠ 2) ∨ s.tb < m.since + 20000 then s
      else flashTimeout (dieOf s m.slot m.obj m.page) (failMove m ⟨0x44, 2, (s.tb - m.since) / 1000⟩ s))

/-- The resource of a block of Table FW-8 (log entry 103). -/
def blockRes (src : Nat) : Nat := [0, 0, 0, 9, 1, 2, 1, 4, 0xA, 6, 6, 7, 0, 8, 0, 0].getD src 0

/-- HUB_DIE_FAULT (R494, Table FLT-3): the operation in progress, or for the commons the structure that holds the word, ends
FAULT_UNCORRECTABLE; a fault of the management core takes the watchdog's path. -/
def execHubDieFault (src : Nat) (flight ctx prog : Option Nat) (s : State) : Out :=
  let st : Status := ⟨0x40, blockRes src, 0⟩
  onUnit (decide (src < 16)) (
    if src = 0xE then watchdog s
    else
      let s := match flight with | some f => finish f st 0 s | none => s
      let s := match ctx with | some c => endTurn c [⟨0x40, 4, 0⟩] 0 s | none => s
      let s := match prog with | some p => if p < 16384 then endProg p ⟨0x40, 0xA, 0⟩ 0 s else s | none => s
      hubFault src st s)

/-- Programming of the ledger waits: firmware is down, or the management core owns the NOR port and the housekeeping link is down
(16, R342). -/
def ledgerWaits (s : State) : Bool := s.fwDown || (inRun s && !s.bit Reg.PWR_HK_STATUS 0)

/-- LEDGER_PROGRAM_COMPLETE (R498, R499). -/
def execLedgerProgramComplete (ok : Bool) (s : State) : Out :=
  if s.flt.queue.isEmpty ∨ s.flt.ldgFailAt.isSome ∨ ledgerWaits s then .next s
  else if ok then .next (recordTold ((programHead s).setBit Reg.FLT_STATUS 1 false))
  else .next { s.setBit Reg.FLT_STATUS 1 true with flt := { s.flt with ldgFailAt := some s.tb } }

/-- LEDGER_RETRY_TICK (R498): 10 s after a failure programming is tried again. -/
def execLedgerRetryTick (s : State) : Out :=
  match s.flt.ldgFailAt with
  | some t => .next (if t + 10000000 ≤ s.tb then { s with flt := { s.flt with ldgFailAt := none } } else s)
  | none => .next s

/-- IST_SLICE_START (R500, R501). -/
def execIstSliceStart (type index : Nat) (forced : Bool) (s : State) : Out :=
  onUnit (decide (3 ≤ type ∧ type ≤ 5 ∧ index < fltCount type)) (sliceStart type index forced s)

/-- IST_SLICE_END (R500, R502). -/
def execIstSliceEnd (type index : Nat) (failed : Bool) (s : State) : Out :=
  onUnit (decide (3 ≤ type ∧ type ≤ 5 ∧ index < fltCount type))
    (let s := sliceEnd type index failed s; s.putN Reg.IST_COV_AGE_S (coverAge s))

/-- PATROL_SCRUB_READ (R503): the next word; one that was corrected names its row. -/
def execPatrolScrubRead (corrected : Option (Nat × Nat)) (s : State) : Out :=
  if !s.bit Reg.IST_CTRL 0 then .next s
  else
    match corrected with
    | none => .next (scrubStep s)
    | some (p, row) => onUnit (decide (p < 256)) (hbmCorrected p row (scrubStep s))

/-- LANE_EYE_CHECK (R504): the lane's margin now, and after training. -/
def execLaneEyeCheck (lane margin trained : Nat) (s : State) : Out :=
  let p := lane / 8
  let weak := s.fitted p && !s.flt.retired.contains (1, lane) && decide (2 * margin < trained)
  let s1 := s.bump Reg.IST_LANE_MARGIN
  let s1 := { s1 with flt := { s1.flt with weak := if s1.flt.weak.contains p then s1.flt.weak else s1.flt.weak ++ [p] } }
  onUnit (decide (lane < 144)) (if weak then retrainWeak s1 else s)

/-- FLT_UNIT_SEL_WRITE (R505). -/
def execFltUnitSelWrite (type index : Nat) (s : State) : Out :=
  let s := s.putN Reg.FLT_UNIT_SEL (type % 16 + 16 * (index % 1024))
  let st := if s.flt.retired.contains (type, index) then 2 else if s.flt.quarantined.contains (type, index) then 1 else 0
  let hbm := fun (n : Nat) => if type = 0 then min 255 n else 0
  .next (s.putN Reg.FLT_UNIT_DATA (if 11 ≤ type ∨ fltCount type ≤ index then 0
    else st + 4 + 256 * min 255 (faultsOf s type index).length + 65536 * hbm (sparesLeft s index) + 16777216 * hbm (repairsIn s index)))

/-- FLT_LDG_SEL_WRITE (R505). -/
def execFltLdgSelWrite (index : Nat) (s : State) : Out :=
  let s := s.putN Reg.FLT_LDG_SEL (index % 2 ^ 32)
  let put := fun (l : List Nat) (s : State) => l.zipIdx.foldl (fun s x => s.putN (Reg.FLT_LDG_DATA x.2) x.1) s
  .next (match s.flt.nor.find? (fun r => r.index == index) with
    | some r => put (r.words.map (·.toNat)) (s.putN Reg.FLT_LDG_STATUS (1 + 2 * s.flt.nor.length))
    | none => put (List.replicate 16 0) (s.putN Reg.FLT_LDG_STATUS 0))

end Sys2Proof.Machine
end

