-- ==== Sys2Proof/Machine/Firmware.lean ====
section
/-! DEFINITION. Meanings of the commands of firmware (23) and of the watchdog (16, R354). -/

namespace Sys2Proof.Machine

/-- UPD_BEGIN (R477). -/
def execUpdBegin (s : State) : Out := .next (updBegin (cmdParty s) s)

/-- UPD_WRITE (R477, R478); `programOk` says whether what is programmed reads back. -/
def execUpdWrite (programOk : Bool) (s : State) : Out := .next (updWrite (cmdParty s) programOk s)

/-- UPD_END (R477). -/
def execUpdEnd (s : State) : Out := .next (updClose (cmdParty s) s)

/-- UPD_VERIFY (R473); `readOk` says that NOR was read. -/
def execUpdVerify (readOk : Bool) (s : State) : Out := .next (updVerify (cmdParty s) readOk s)

/-- UPD_ACTIVATE (R477). -/
def execUpdActivate (now : Bool) (s : State) : Out := .next (updActivate (cmdParty s) now s)

/-- UPD_CONFIRM (R479). -/
def execUpdConfirm (s : State) : Out := .next (updConfirm (cmdParty s) s)

/-- UPD_ABORT (R477). -/
def execUpdAbort (s : State) : Out := .next (updAbort (cmdParty s) s)

/-- UPD_REVERT (R477). -/
def execUpdRevert (s : State) : Out := .next (updRevert (cmdParty s) s)

/-- UPD_SESSION_IDLE_TIMEOUT (R477): a HOST session idle for 60 s is aborted, and the abort is logged. -/
def execUpdSessionIdleTimeout (s : State) : Out :=
  if updOwner s = 1 ∧ !s.bit Reg.FW_UPD_STATUS 0 ∧ s.fw.lastOp + 60000000 ≤ s.tb then
    .next ((updEnd 7 ⟨0, 0, 0⟩ (setOwner 0 s)).logRec 2 0x0E02)
  else .next s

/-- AUTO_CONFIRM_EXPIRE (R479): firmware confirms by itself. -/
def execAutoConfirmExpire (s : State) : Out :=
  let n := s.rdN Reg.FW_AUTO_CONFIRM_S
  match s.fw.trialDone with
  | some t => .next (if n ≠ 0 ∧ mayConfirm s ∧ !s.fwDown ∧ t + 1000000 * n ≤ s.tb then confirmNow s else s)
  | none => .next s

/-- FW_TRACE_SEL_WRITE (R483): record i is the newest whose number is i modulo 32,768. -/
def execFwTraceSelWrite (index : Nat) (s : State) : Out :=
  let s := s.putN Reg.FW_TRACE_SEL (index % 32768)
  let w := match s.trace.find? (fun r => r.seq % 32768 == index % 32768) with
    | some r =>
      let arg := fun (i : Nat) => r.args.getD i 0 % 2 ^ 32
      [r.seq, r.id + 256 * r.source + 65536 * r.unit, r.tb % 2 ^ 32, r.tb / 2 ^ 32, arg 0, arg 1, arg 2, arg 3]
    | none => List.replicate 8 0
  .next (w.zipIdx.foldl (fun s x => s.putN (Reg.FW_TRACE_DATA x.2) x.1) s)

/-- The staged alias chain. -/
def stagedChain (s : State) : Memory :=
  (List.range 1024).foldl (fun m i => writeLE m (4 * i) 4 (s.rdN (Reg.FW_CERT i))) []

/-- FW_CERT_COMMIT (R484). -/
def execFwCertCommit (key : Nat) (s : State) : Out :=
  if key ≠ 0xCE71 then .next s
  else
    let chain := stagedChain s
    let digest := sumOf (List.range 12) (fun i => s.rdN (Reg.FW_DIGEST i) * 2 ^ (32 * i))
    if Config.leafKey chain = Config.aliasKey digest then .next ({ s with fw := { s.fw with chain := chain } }.setBit Reg.FW_CERT_STATUS 0 true)
    else .next (s.setBit Reg.FW_CERT_STATUS 1 true)

/-- WATCHDOG_EXPIRE (R481): firmware is late with its watchdog. -/
def execWatchdogExpire (s : State) : Out :=
  let p := s.rdN Reg.PWR_STATE
  .next (if p = 2 ∨ p = 3 ∨ p = 5 then watchdog s else s)

/-- WATCHDOG_READY_TIMEOUT (R354): firmware is not ready 2 s after the watchdog. -/
def execWatchdogReadyTimeout (s : State) : Out :=
  let late := match s.fw.restarts with | t :: _ => decide (t + 2000000 ≤ s.tb) | [] => false
  .next (if s.fwDown && late && inRun s then beginQuiesce 5 s else s)

end Sys2Proof.Machine
end

