-- ==== Sys2Proof/Machine/OpsRoll.lean ====
section
/-! DEFINITION. Firmware rollout (13, R286, R287): the site manager's waves, and what a sled does that is offered an image. The spec does
not say how the site manager knows the sleds' roles, how a sled asks for the image, or which statuses a failure reports (log entry
105). -/

namespace Sys2Proof.Machine

/-! ### Messages (Table HIE-3) -/

/-- The fields of a ROLL message. -/
def rollFields (op wave move version size : Nat) (st : Word) (digest : List Nat) : List Nat :=
  [op, wave, move, version, size, st.toNat] ++ (digest ++ List.replicate 48 0).take 48

/-- State of the rollout: 0 IDLE, 1 RUNNING, 2 HALTED, 3 DONE. -/
def rollState (s : State) : Nat := s.fld Reg.HIE_ROLL_STATUS 0 4

/-- The wave. -/
def rollWave (s : State) : Nat := s.fld Reg.HIE_ROLL_STATUS 4 3

/-- Change the rollout held by the site manager. -/
def State.updRoll (s : State) (f : Rollout → Rollout) : State := { s with hie := { s.hie with roll := f s.hie.roll } }

/-- Change the rollout that this sled follows. -/
def State.updFollow (s : State) (f : Follow → Follow) : State := { s with hie := { s.hie with follow := s.hie.follow.map f } }

/-! ### Waves (Table HIE-2) -/

/-- One of each value, in order. -/
def distinct : List Nat → List Nat
  | [] => []
  | x :: r => x :: (distinct r).filter (· != x)

/-- The sleds of each wave; one worker in ten of a chassis counts all its workers, and takes those of the lowest node IDs that wave 0
left (log entry 105). -/
def wavesOf (canary : Nat) (workers chassis rows : List Nat) (site : Nat) : List (List Nat) :=
  let up := fun (l : List Nat) => sortBy (fun (a b : Nat) => decide (a ≤ b)) (distinct l)
  let w := up workers
  let w0 := (distinct (w.map (· / 1024))).flatMap (fun r => (w.filter (· / 1024 == r)).take canary)
  let left := w.filter (fun n => !w0.contains n)
  let w1 := (distinct (w.map (· / 16))).flatMap (fun c =>
    (left.filter (· / 16 == c)).take (cdiv (w.filter (· / 16 == c)).length 10))
  [w0, w1, left.filter (fun n => !w1.contains n), up chassis, up rows, [site]]

/-! ### A sled that follows (R286) -/

/-- No tenant is ACTIVE. -/
def noneActive (s : State) : Bool := s.adm.tenants.all (fun t => t.2.st != .active)

/-- The rollout this sled follows ends with a REPORT of a status. -/
def sendReport (st : Word) (s : State) : State :=
  match s.hie.follow with
  | none => s
  | some f =>
    let s := { s with hie := { s.hie with follow := none } }
    if f.mgr = ownNode s then s else hieReq 0x7E f.mgr (rollFields 3 f.wave f.move f.version f.size st f.digest) s

/-- REPORT of what the last update operation ended with. -/
def reportResult (s : State) : State := sendReport (BitVec.ofNat 32 (s.rdN Reg.FW_UPD_RESULT)) s

/-- Activate once ACTIVATE has come, the image is checked, and no tenant is ACTIVE or the drain time has passed; an image that did not
pass is refused by ACTIVATE, and that is reported. -/
def tryActivate (s : State) : State :=
  match s.hie.follow with
  | none => s
  | some f =>
    match f.drainAt with
    | none => s
    | some t =>
      let st := (inactiveInfo s).st
      if f.activated || st == 1 || st == 2 then s
      else if !noneActive s && decide (s.tb < t + 1000000 * s.rdN Reg.HIE_ROLL_DRAIN_S) && st == 3 then s
      else
        let s := updActivate 2 true s
        if s.rdN Reg.FW_UPD_RESULT = 0 then s.updFollow (fun f => { f with activated := true }) else reportResult s

/-- An operation of the rollout's session; a refusal or a failure is reported. -/
def rollStep (op : State → State) (s : State) : State :=
  let s := op s
  if s.rdN Reg.FW_UPD_RESULT = 0 then s else reportResult s

/-- The whole image is here: it is programmed, the session ends, and it is verified against its signature and the OFFER (R286). -/
def imageIn (s : State) : State :=
  match s.hie.follow with
  | none => s
  | some f =>
    let n := f.size + 4096
    let s := slotBytes ((readBytes f.data 0 n).map (·.toNat)) s
    let s := rollStep (updClose 2) (s.putN Reg.FW_UPD_WRITTEN n)
    let s := if s.hie.follow.isSome then rollStep (updVerify 2 true) s else s
    let offered := sumOf ((List.range 48).zip f.digest) (fun b => b.2 * 256 ^ b.1)
    let s := if (inactiveInfo s).st = 3 ∧ imageDigest (s.fw.image (inactiveSlot s)) ≠ offered then
        markInactive (fun i => { i with st := 6, code := 7 }) s
      else s
    tryActivate (s.updFollow (fun f => { f with data := [] }))

/-- BULK_DATA under the OFFER's MOVE_ID. -/
def rollData (src rtag move off : Nat) (bytes : List Byte) (s : State) : State :=
  match s.hie.follow with
  | none => s
  | some f =>
    if f.mgr ≠ src ∨ f.rtag ≠ rtag ∨ f.move ≠ move ∨ f.size + 4096 < off + bytes.length ∨ updOwner s ≠ 2 then s
    else
      let got := f.got.filter (fun x => x.1 != off) ++ [(off, bytes.length)]
      let s := { s.updFollow (fun f => { f with data := writeBytes f.data off bytes, got := got }) with fw := { s.fw with lastOp := s.tb } }
      if sumOf got (·.2) = f.size + 4096 then imageIn s else s

/-- OFFER, which a sled whose JOIN is refused ignores (R275): a PEER session opens, and a HOST session or another obstacle is reported (R286; 23, R477). -/
def rollOffer (src rtag wave move version size : Nat) (digest : List Nat) (s : State) : State :=
  if outcast s then s
  else if s.hie.follow.any (fun f => f.mgr == src && f.move == move) then hieAck src rtag 0x7E ⟨0, 0, 0⟩ s
  else
    let s := { s with hie := { s.hie with follow := some ⟨src, rtag, wave, move, version, size, digest, [], [], none, false⟩ } }
    let s := updBegin 2 s
    if updOwner s = 2 ∧ s.rdN Reg.FW_UPD_RESULT = 0 then hieAck src rtag 0x7E ⟨0, 0, 0⟩ s
    else reportResult (hieAck src rtag 0x7E ⟨0x24, 0, 0⟩ s)

/-- CONFIRM once the soak time has passed since the restart, and REPORT; a sled that runs its old image again reports the refusal (R286,
R287). -/
def rollConfirm (s : State) : State :=
  match s.hie.follow with
  | none => s
  | some f => if !f.activated || !inRun s then s else reportResult (updConfirm 2 s)

/-- The soak time has passed since the restart: since step 14 of the trial start, or since the start in force of a sled that reverted. -/
def soaked (s : State) : Bool :=
  decide (s.fw.trialDone.getD s.rst.began + 1000000 * s.rdN Reg.HIE_ROLL_SOAK_S ≤ s.tb)

/-! ### The site manager (R286, R287) -/

/-- The rollout may go on: this sled is the site manager, and its firmware runs (R290). -/
def rollDuty (s : State) : Bool := role s == 3 && !s.fwDown && rollState s == 1

/-- Sleds of a chassis that were offered the image and have not reported. -/
def openIn (s : State) (node : Nat) : Nat :=
  (s.hie.roll.sent.filter (fun x => x.1 / 16 == node / 16 && !s.hie.roll.reported.any (fun r => r.1 == x.1))).length

/-- OFFER to a sled, followed by the image under its RTAG; the site manager itself has it already. -/
def sendOffer (node : Nat) (s : State) : State :=
  let r := s.hie.roll
  let w := rollWave s
  let s := s.updRoll (fun r => { r with sent := r.sent.filter (fun x => x.1 != node) ++ [(node, s.tb)] })
  if node = ownNode s then
    tryActivate { s with hie := { s.hie with follow := some ⟨node, 0, w, r.move, r.version, r.size, r.digest, [], [], some s.tb, false⟩ } }
  else
    let tag := s.lnk.nextTag
    let s := hieReq 0x7E node (rollFields 0 w r.move r.version r.size 0 r.digest) s
    sendBulk 0 tag node r.move (readBytes (s.fw.image (inactiveSlot s)) 0 (r.size + 4096)) s

/-- Offer to the sleds of the wave that wait, HIE_ROLL_PAR of a chassis at once; a wave whose sleds have all reported ends, and after the
last the rollout is DONE. -/
def offerWave : Nat → State → State
  | 0, s => s
  | n + 1, s =>
    if !rollDuty s then s
    else
      let l := s.hie.roll.plan.getD (rollWave s) []
      let told := fun (s : State) (x : Nat) => s.hie.roll.reported.any (fun r => r.1 == x)
      if l.all (told s) then
        if rollWave s < 5 then offerWave n ((s.setFld Reg.HIE_ROLL_STATUS 4 3 (rollWave s + 1)).updRoll (fun r => { r with failures := 0 }))
        else s.setFld Reg.HIE_ROLL_STATUS 0 4 3
      else l.foldl (fun s x =>
        if told s x || s.hie.roll.sent.any (fun y => y.1 == x) || decide (s.fld Reg.HIE_ROLL_CTRL 8 5 ≤ openIn s x) then s
        else sendOffer x s) s

/-- A sled's result is recorded; too many failures of the wave halt the rollout (R287). -/
def rollResult (node : Nat) (st : Word) (s : State) : State :=
  let r := s.hie.roll
  if rollState s = 0 ∨ rollState s = 3 ∨ r.reported.any (fun x => x.1 == node) ∨ !r.sent.any (fun x => x.1 == node) then s
  else
    let bad := bits st.toNat 0 8 != 0
    let s := if bad ∧ r.reported.all (fun x => x.2 == 0) then s.putN Reg.HIE_ROLL_FIRST_FAIL node else s
    let s := s.updRoll (fun r => { r with reported := r.reported ++ [(node, bits st.toNat 0 8)], failures := r.failures + b2n bad })
    let s := s.setFld Reg.HIE_ROLL_STATUS 16 16 s.hie.roll.reported.length
    let s := if s.rdN Reg.HIE_ROLL_FAIL_MAX < s.hie.roll.failures then haltRoll s else s
    offerWave 7 s

/-- The operator starts a rollout: on the site manager, with a VERIFIED image in its inactive slot (R286). -/
def rollStart (workers chassis rows : List Nat) (s : State) : State :=
  if role s ≠ 3 ∨ rollState s = 1 ∨ (inactiveInfo s).st ≠ 3 then s
  else
    let m := s.fw.image (inactiveSlot s)
    let (move, s) := s.fresh
    let r : Rollout := {
      move := move, version := readLE m 8 4, size := imageSize m, digest := (leBytes (imageDigest m) 48).map (·.toNat),
      plan := wavesOf (s.rdN Reg.HIE_ROLL_CANARY) workers chassis rows (ownNode s) }
    let s := (s.putN Reg.HIE_ROLL_STATUS 1).putN Reg.HIE_ROLL_FIRST_FAIL 0
    offerWave 7 (s.updRoll (fun _ => r))

/-- RESUME goes on with the next sled not reported; the wave's failures count from 0 again (R287; log entry 105). -/
def rollResume (s : State) : State :=
  if role s ≠ 3 ∨ rollState s ≠ 2 ∨ s.hie.roll.plan.isEmpty then s
  else
    let s := s.setFld Reg.HIE_ROLL_STATUS 0 4 1
    offerWave 7 (s.updRoll (fun r => { r with failures := 0, sent := r.sent.filter (fun x => r.reported.any (fun y => y.1 == x.1)) }))

/-- An OFFER that was accepted is followed by ACTIVATE. -/
def offerAcked (r : HReq) (status : Word) (s : State) : State :=
  if r.xs.head? = some 0 ∧ bits status.toNat 0 8 = 0 then hieReq 0x7E r.dest (1 :: r.xs.drop 1) s else s

end Sys2Proof.Machine
end

