-- ==== Sys2Proof/Machine/LinkMsgs.lean ====
section
/-! DEFINITION. Messages of the links (12): requests turned away, pings, the peer tier, spans and site time. -/

namespace Sys2Proof.Machine

/-! ### STALE and PING (R258) -/

/-- STALE: the request ends ABORTED_TARGET_RESET with the epoch it sent, and the new epoch is learned (R258). -/
def staleIn (src rtag epoch : Nat) (s : State) : State :=
  let s := (hear src s).updPeer src (fun p => { p with epoch := epoch })
  match s.lnk.reqs.find? (fun r => r.tag == rtag && r.dest == src) with
  | some r => abortReq r ⟨0x30, 7, r.epoch⟩ s
  | none => s

/-- STALE (R258). -/
def execStale (src rtag epoch : Nat) (s : State) : Out := .next (staleIn src rtag epoch s)

/-- PING is answered by PONG with the copied tag and this sled's TB (Table LNK-6). -/
def execPing (src rtag time : Nat) (s : State) : Out :=
  .next (let s := hear src s; let _ := time; s.sendAs 0 rtag 0x11 src [rtag, s.tb])

/-- PONG (Table LNK-6). -/
def execPong (src rtag time : Nat) (s : State) : Out :=
  .next (let s := hear src s; { s with lnk := { s.lnk with pong := some (src, rtag, time) } })

/-! ### The peer tier (R263) -/

/-- MOVE_DONE for a peer's move. -/
def sendMoveDone (src rtag tenant move : Nat) (st : Status) (stored crc : Nat) (s : State) : State :=
  s.sendAs tenant rtag 0x22 src [move, st.word.toNat, stored, crc]

/-- What a holder answers when the length or the CRC-32 of a page does not check: the spec names no status (log entry
78). -/
def badPage : Status := ⟨0x40, 7, 4⟩

/-- PAGE_PUT opens a move into the lending pool, T1 before T2, or is refused (R263; log entry 78). -/
def pagePut (src rtag move : Nat) (handle : DWord) (page stored : Nat) (crc : Word) (s : State) : State :=
  let s := hear src s
  let ten := hTenant handle
  if stored < 64 ∨ 65600 < stored then sendMoveDone src rtag ten move badPage 0 0 s
  else
    let need := round4K stored
    match (if need ≤ lendRoom s 1 then some 1 else if need ≤ lendRoom s 2 then some 2 else none : Option Nat) with
    | none => sendMoveDone src rtag ten move ⟨0x20, 7, 1⟩ 0 0 s
    | some t =>
      let x : Xfer := { node := src, move := move, handle := handle, page := page, stored := stored, crc := crc, tag := rtag, tier := t, heard := s.tb }
      { s with lnk := { s.lnk with lent := s.lnk.lent.filter (fun (y : Xfer) => !(y.node == src && y.handle == handle && y.page == page)) ++ [x] } }

/-- PAGE_PUT (R263). -/
def execPagePut (src rtag move : Nat) (handle : DWord) (page stored : Nat) (crc : Word) (s : State) : Out :=
  .next (pagePut src rtag move handle page stored crc s)

/-- The entry of a page under a lease, and the page's bytes (R263; 05, R121). -/
def leasedPage (s : State) (lease src page : Nat) : Option (Nat × List Byte) :=
  match s.pfx.leases.find? (fun l => l.id == lease && l.node == src) with
  | none => none
  | some l =>
    let groups := ((l.entries.head?.bind (entryObj s)).map (fun o => o.count)).getD 1
    (l.entries[page / max 1 groups]?).bind (fun n => (entryObj s n).map (fun o => (n, readBytes o.data (page % max 1 groups * pageBytes) pageBytes)))

/-- PAGE_GET: the page's BULK_DATA and MOVE_DONE (R263). A page that this sled does not hold is answered FAULT_HANDLE
(log entry 78). -/
def pageGet (src rtag : Nat) (byLease : Bool) (move : Nat) (handle : DWord) (page : Nat) (s : State) : State :=
  let s := hear src s
  let none_ := fun (s : State) => sendMoveDone src rtag (if byLease then 0 else hTenant handle) move ⟨0x42, 0, 0xFFFF⟩ 0 0 s
  let give := fun (ten : Nat) (bs : List Byte) (s : State) =>
    sendMoveDone src rtag ten move ⟨0, 0, 0⟩ bs.length (crcOf bs).toNat (sendBulk ten rtag src move bs s)
  if byLease then
    match leasedPage s (bits handle.toNat 0 32) src page with
    | none => none_ s
    | some (e, data) => let (n, s) := drawStored s; give 0 (packPage data n) (touchEntry e s)
  else match s.lnk.lent.find? (fun x => x.node == src && x.handle == handle && x.page == page && x.whole) with
    | some x => give (hTenant handle) x.bytes s
    | none => none_ s

/-- PAGE_GET (R263). -/
def execPageGet (src rtag : Nat) (byLease : Bool) (move : Nat) (handle : DWord) (page : Nat) (s : State) : Out :=
  .next (pageGet src rtag byLease move handle page s)

/-- A page of a move to or from a peer has ended well: the last one commits the move, and a page fetched home is released at
its holder (R263; 04, R84). -/
def peerPart (m : Move) (stored : Nat) (s : State) : State :=
  if 1 < m.parts then { s with moves := updWhere s.moves (fun n => n.id == m.id) (fun n => { n with parts := n.parts - 1 }) }
  else
    let o := s.obj m.slot m.obj
    let h := handleOf (tenId s m.slot) ((o.map (·.gen)).getD 0) m.obj
    let from_ : Option (Obj × Nat) := match m.cause with
      | .image _ _ _ => none
      | _ => if m.src = 4 then o.map (fun (o : Obj) => (o, (o.page m.page).loc)) else none
    let s := commitMove { m with stored := m.stored.getD stored } s
    match from_ with
    | some (o, node) => (pieces o m.page).foldl (fun s p => s.sendAs (tenId s m.slot) 0 0x23 node [m.id, h.toNat, p.1, 1]) s
    | none => s

/-- A fetched page is whole: its CRC-32 is checked, an image takes its data, and the part ends. -/
def fetchDone (m : Move) (x : Xfer) (s : State) : State :=
  let s := { s with lnk := { s.lnk with fetches := s.lnk.fetches.filter (fun y => y != x) } }
  if crcOf x.bytes ≠ x.crc then failMove m badPage s
  else
    let s := match m.cause with
      | .image c b g =>
        let data := (List.range pageBytes).map (fun i => Config.unpackByte x.bytes i)
        if m.parts = 1 ∧ (s.ctx c).any (fun k => match k.blocks[b]? with | some (.remote _ _ _) => true | _ => false) then
          s.updCtx c (fun k => { k with imageData := writeBytes k.imageData (65536 * (256 * b + g)) data })
        else s
      | _ => s
    peerPart m x.stored s

/-- MOVE_DONE (R263): DONE commits what this sled sent, or names the size and CRC-32 of what it fetches; anything else ends
the move with its status. -/
def moveDone (src rtag move : Nat) (st : Word) (stored : Nat) (crc : Word) (s : State) : State :=
  let s := hear src s
  let s := { s with lnk := { s.lnk with reqs := s.lnk.reqs.filter (fun (r : Req) => !(r.tag == rtag && r.dest == src)) } }
  match s.move move with
  | none => s
  | some m =>
    let code := bits st.toNat 0 8
    if !(m.dst == 4 || m.src == 4) then s
    else if code ≠ 0 then failMove m ⟨code, bits st.toNat 8 8, bits st.toNat 16 16⟩ s
    else if m.dst = 4 then peerPart m stored s
    else
      let old := s.lnk.fetches.find? (fun x => x.node == src && x.move == move && x.tag == rtag)
      let x : Xfer := { (old.getD { node := src, move := move, handle := 0, page := 0, stored := 0, crc := 0, tag := rtag, heard := s.tb }) with
        stored := stored, crc := crc, whole := true }
      if x.complete then fetchDone m x { s with lnk := { s.lnk with fetches := s.lnk.fetches.filter (fun y => some y != old) } }
      else { s with lnk := { s.lnk with fetches := s.lnk.fetches.filter (fun y => some y != old) ++ [x] } }

/-- MOVE_DONE (R263). -/
def execMoveDone (src rtag move : Nat) (status : Word) (stored : Nat) (crc : Word) (s : State) : Out :=
  .next (moveDone src rtag move status stored crc s)

/-- PAGE_RELEASE: the pages go and their room returns (R263; 04, R99). -/
def execPageRelease (src move : Nat) (handle : DWord) (first count : Nat) (s : State) : Out :=
  .next (let s := hear src s
    let _ := move
    { s with lnk := { s.lnk with
      lent := s.lnk.lent.filter (fun (x : Xfer) => !(x.node == src && x.handle == handle && decide (first ≤ x.page) && decide (x.page < first + count))) } })

/-- BULK_DATA (R263; 13, R286): a chunk of a page that a peer puts here, or of one that this sled fetches, told apart by its RTAG, or of an
image that the site manager offered. -/
def bulkData (src rtag move off : Nat) (data : List Byte) (s : State) : State :=
  let s := hear src s
  match s.lnk.lent.find? (fun x => x.node == src && x.move == move && x.tag == rtag && !x.whole) with
  | some x =>
    let y := x.put s.tb off data
    let others := s.lnk.lent.filter (fun z => z != x)
    if !y.complete then { s with lnk := { s.lnk with lent := others ++ [y] } }
    else if crcOf y.bytes = y.crc then
      sendMoveDone src rtag (hTenant y.handle) move ⟨0, 0, 0⟩ y.stored y.crc.toNat { s with lnk := { s.lnk with lent := others ++ [{ y with whole := true }] } }
    else sendMoveDone src rtag (hTenant y.handle) move badPage 0 0 { s with lnk := { s.lnk with lent := others } }
  | none =>
    match s.move move with
    | none => rollData src rtag move off data s
    | some m =>
      if m.src ≠ 4 then rollData src rtag move off data s
      else
        let old := s.lnk.fetches.find? (fun x => x.node == src && x.move == move && x.tag == rtag)
        let x := (old.getD { node := src, move := move, handle := 0, page := 0, stored := 0, crc := 0, tag := rtag, heard := s.tb }).put s.tb off data
        let s := { s with lnk := { s.lnk with fetches := s.lnk.fetches.filter (fun y => some y != old) ++ [x] } }
        if x.whole && x.complete then fetchDone m x s else s

/-- BULK_DATA (R263). -/
def execBulkData (src rtag move off : Nat) (data : List Byte) (s : State) : Out := .next (bulkData src rtag move off data s)

/-- PEER_MOVE_STALL (R263): the holder discards the partial page. -/
def execPeerMoveStall (src move : Nat) (s : State) : Out :=
  .next { s with lnk := { s.lnk with lent := s.lnk.lent.filter (fun (x : Xfer) =>
    !(x.node == src && x.move == move && !x.whole && decide (x.heard + 1000 * s.rdN Reg.TIER_PEER_TO ≤ s.tb))) } }

/-! ### Spans (R160, R264, R265) -/

/-- The launch that a message's SPAN_ID names: one whose span holds the sender. -/
def spanLaunch (s : State) (src span : Nat) : Option (Nat × Launch) :=
  s.launches.find? (fun l => l.2.spanId == span && l.2.span.any (fun m => m.1 == src))

/-- Data of a collective: taken when every rank here has issued it, else kept until then (R265; 08, R184). -/
def collIn (final : Bool) (src seq span off : Nat) (ws : List Nat) (s : State) : State :=
  let s := hear src s
  match spanLaunch s src span with
  | none => s
  | some (id, l) =>
    if collReady s l seq then collTake id final seq off ws s
    else s.updLch id (fun l => { l with collIn := l.collIn ++ [(final, seq, off, ws)] })

/-- COLL_PART (R265). -/
def execCollPart (src seq span off : Nat) (partials : List Word) (s : State) : Out :=
  .next (collIn false src seq span off (partials.map (·.toNat)) s)

/-- COLL_DATA (R265). -/
def execCollData (src seq span off : Nat) (data : List Byte) (s : State) : Out :=
  .next (collIn true src seq span off (data.map (·.toNat)) s)

/-- Bytes of a tile store. -/
def tileStoreBytes : Nat := 3145728

/-- SPAN_PUT writes a rank's tile store and is acknowledged (R264). -/
def spanPut (src rtag rank span off : Nat) (data : List Byte) (s : State) : State :=
  let s := hear src s
  match spanLaunch s src span with
  | none => s
  | some (_, l) =>
    match clusterOfRank l rank with
    | none => s
    | some k =>
      let s := if off + data.length ≤ tileStoreBytes then s.updClu k (fun c => c.store off data) else s
      s.sendAs (tenId s l.slot) rtag 0x47 src [span, rtag]

/-- SPAN_PUT (R264). -/
def execSpanPut (src rtag rank span off : Nat) (data : List Byte) (s : State) : Out := .next (spanPut src rtag rank span off data s)

/-- SPAN_GET is answered with SPAN_DATA from the rank's tile store (Table LNK-6). -/
def execSpanGet (src rtag rank span off len : Nat) (s : State) : Out :=
  .next (let s := hear src s
    match spanLaunch s src span with
    | none => s
    | some (_, l) =>
      match (clusterOfRank l rank).bind s.clu with
      | none => s
      | some c =>
        if tileStoreBytes < off + len then s
        else (List.range (cdiv len 96)).foldl (fun s i =>
          let d := (c.bytes (off + 96 * i) (min 96 (len - 96 * i))).map (·.toNat)
          s.sendAs (tenId s l.slot) rtag 0x46 src ([d.length, rank, span, off + 96 * i] ++ d)) s)

/-- SPAN_SIGNAL (R264). -/
def execSpanSignal (src rank span sem : Nat) (value : Word) (s : State) : Out :=
  .next (let s := hear src s
    match (spanLaunch s src span).bind (fun l => clusterOfRank l.2 rank) with
    | some k => addSem k sem value s
    | none => s)

/-- SPAN_BAR records another sled's arrival (R264). -/
def execSpanBar (src index span count : Nat) (s : State) : Out :=
  .next (let s := hear src s
    match spanLaunch s src span with
    | none => s
    | some (id, l) =>
      if (l.span[index]?).any (fun m => m.1 == src) then
        tryBar id (s.updLch id (fun l => { l with barsIn := l.barsIn.filter (fun (b : Nat × Nat) => b.1 != src) ++ [(src, count)] }))
      else s)

/-- The tile move of a launch that waits for a request tag. -/
def taggedMove (s : State) (src rtag : Nat) : Option (Nat × Nat × Nat) :=
  match s.lnk.reqs.find? (fun r => r.tag == rtag && r.dest == src) with
  | some ⟨_, _, _, .tile l k n⟩ => some (l, k, n)
  | _ => none

/-- SPAN_DATA: a chunk of a row that a GET asked for, named by its RTAG (Table LNK-6). -/
def spanData (src rtag span off : Nat) (data : List Byte) (s : State) : State :=
  let s := hear src s
  let _ := span
  match taggedMove s src rtag with
  | none => s
  | some (l, k, num) =>
    match (s.clu k).bind (fun c => if c.launch = l then c.moves.find? (fun m => m.num == num) else none) with
    | some m =>
      match m.op with
      | .get _ from_ to_ =>
        let row := from_.rows - 1 - (m.tag + 65535 - rtag) % 65535
        let s := s.updClu k (fun c => c.store (to_.rowAt row + (off - from_.rowAt row)) data)
        let s := s.updClu k (fun c => { c with moves := updWhere c.moves (fun m => m.num == num) (fun m => { m with left := m.left - data.length }) })
        if m.left ≤ data.length then completeMove k num s else s
      | _ => s
    | none => s

/-- SPAN_DATA (Table LNK-6). -/
def execSpanData (src rtag span off : Nat) (data : List Byte) (s : State) : Out := .next (spanData src rtag span off data s)

/-- SPAN_ACK: PUTs to that sled up to the RTAG are applied, so their moves complete and what waited on them goes (R264). -/
def spanAck (src span highest : Nat) (s : State) : State :=
  let s := hear src s
  match spanLaunch s src span with
  | none => s
  | some (id, l) =>
    l.clusters.foldl (fun s k =>
      match s.clu k with
      | none => s
      | some c =>
        (c.moves.filter (fun m => match m.op with
          | .put r _ _ => remoteRank l r == some src && decide ((highest + 65535 - m.tag) % 65535 < 32768)
          | _ => false)).foldl (fun s m => failTile id k m.num ⟨0, 0, 0⟩ s) s) s

/-- SPAN_ACK (R264). -/
def execSpanAck (src span highest : Nat) (s : State) : Out := .next (spanAck src span highest s)

/-! ### Site time (R266, R268) -/

/-- Link ticks in a µs. -/
def ticksPerUs : Nat := 6400

/-- Link ticks now: the ROOT cycles within the µs are a free value. -/
def linkTicks (s : State) : Nat × State := let (n, s) := s.draw; (s.tb * ticksPerUs + n % ticksPerUs, s)

/-- Send a SYNC flit over one hop. -/
def sendSync (p type : Nat) (xs : List Nat) (s : State) : State :=
  match layoutOf type with
  | none => s
  | some l =>
    let f : Flit := { cls := 6, vc := 1, epoch := s.lnkE, dst := s.fld (Reg.LNK_PEER p) 0 16, src := ownNode s, payload := encodeMsg type l xs }
    atOutput p ⟨f, s.tb, none⟩ s

/-- TIME_SYNC_TICK: SYNC_REQ to the time parent; the third missed exchange begins holdover (R266, R268). -/
def timeTick (s : State) : State :=
  if s.bit Reg.LNK_TIME_PARENT 5 then s
  else
    let p := s.fld Reg.LNK_TIME_PARENT 0 5
    let y := s.lnk.sync
    let misses := if y.t1.isSome ∨ !s.portUp p then y.misses + 1 else y.misses
    let s := if 3 ≤ misses then s.setBit Reg.LNK_TIME_STATUS 1 true else s
    let s := { s with lnk := { s.lnk with sync := { y with misses := misses } } }
    if !s.portUp p then s
    else
      let (t, s) := linkTicks s
      let q := (y.seq + 1) % 65536
      sendSync p 0x68 [q, t] { s with lnk := { s.lnk with sync := { s.lnk.sync with seq := q, t1 := some t } } }

/-- TIME_SYNC_TICK (R268). -/
def execTimeSyncTick (s : State) : Out := .next (timeTick s)

/-- SYNC_REQ is answered with the parent's stamps and state; a replayed SYNC flit is discarded (R266). -/
def syncReq (p seq t1 : Nat) (rpl : Bool) (s : State) : State :=
  if rpl then s.bump Reg.LNK_SYNC_DISCARD
  else
    let (t2, s) := linkTicks s
    let (d, s) := s.draw
    let st := s.rdN Reg.LNK_TIME_STATUS
    sendSync p 0x69 [seq, t1, t2, t2 + d % ticksPerUs, bits st 0 1 + 2 * s.fld Reg.HIE_CTRL 2 1 + 4 * bits st 2 4] s

/-- SYNC_REQ (R266). -/
def execSyncReq (port seq t1 : Nat) (rpl : Bool) (s : State) : Out := onUnit (decide (port < 18)) (syncReq port seq t1 rpl (hearPort port s))

/-- The offset of R266, in link ticks. -/
def syncOffset (t1 t2 t3 t4 : Int) : Int := ((t2 - t1) - (t4 - t3)) / 2
/-- The delay of R266. -/
def syncDelay (t1 t2 t3 t4 : Int) : Int := ((t4 - t1) - (t3 - t2)) / 2
/-- Link ticks in ns, at 156.25 ps a tick. -/
def ticksNs (x : Int) : Int := x * 5 / 32

/-- SYNC_RESP: the first lock after a start steps TB by θ, later ones slew (R266). -/
def syncResp (seq t2 t3 t4 : Nat) (locked : Bool) (stratum : Nat) (rpl : Bool) (s : State) : State :=
  if rpl then s.bump Reg.LNK_SYNC_DISCARD
  else
    let y := s.lnk.sync
    match y.t1 with
    | none => s
    | some t1 =>
      if seq ≠ y.seq then s
      else
        let θ := syncOffset t1 t2 t3 t4
        let s := s.putN Reg.LNK_TIME_OFFSET (unsigned 32 (ticksNs θ))
        let s := s.putN Reg.LNK_TIME_DELAY (unsigned 32 (ticksNs (syncDelay t1 t2 t3 t4)))
        let s := s.putN Reg.LNK_TIME_STATUS (b2n locked + 4 * min 15 (stratum + 1))
        let y := { y with t1 := none, misses := 0, locked := true }
        let s := if locked then s.setBit Reg.CLK_STATUS 7 true else s
        if s.lnk.sync.locked then { s with lnk := { s.lnk with sync := { y with slew := 100 * θ } } }
        else
          let new := ((s.tb : Int) + θ / ticksPerUs).toNat
          { s.logRec 2 0x0101 [s.tb, new] with tb := new, lnk := { s.lnk with sync := { y with phase := 100 * (θ % ticksPerUs) } } }

/-- SYNC_RESP (R266). -/
def execSyncResp (port seq t2 t3 t4 : Nat) (locked : Bool) (stratum : Nat) (rpl : Bool) (s : State) : Out :=
  onUnit (decide (port < 18)) (if port = s.fld Reg.LNK_TIME_PARENT 0 5 then syncResp seq t2 t3 t4 locked stratum rpl (hearPort port s) else s)

end Sys2Proof.Machine
end

