-- ==== Sys2Proof/Machine/Rollout.lean ====
section
/-! DEFINITION. Commands of the firmware rollout (13, R286, R287). -/

namespace Sys2Proof.Machine

/-- ROLL_START (R286), with the workers, chassis managers and row managers of the site (log entry 105). -/
def execRollStart (workers chassis rows : List Nat) (s : State) : Out := .next (rollStart workers chassis rows s)

/-- ROLL_HALT (R287). -/
def execRollHalt (s : State) : Out := .next (haltRoll s)

/-- ROLL_RESUME (R287). -/
def execRollResume (s : State) : Out := .next (rollResume s)

/-- ROLL_OFFER (R286). -/
def execRollOffer (src rtag wave move version size : Nat) (digest : List Nat) (s : State) : Out :=
  .next (rollOffer src rtag wave move version size digest (hear src s))

/-- ROLL_ACTIVATE (R286): the image is activated once this sled holds no ACTIVE tenant. -/
def execRollActivate (src rtag move : Nat) (s : State) : Out :=
  .next (let s := hieAck src rtag 0x7E ⟨0, 0, 0⟩ (hear src s)
    if s.hie.follow.any (fun f => f.mgr == src && f.move == move && f.drainAt.isNone) then
      tryActivate (s.updFollow (fun f => { f with drainAt := some s.tb }))
    else s)

/-- ROLL_CONFIRM (R286). -/
def execRollConfirm (src rtag move : Nat) (s : State) : Out :=
  .next (let s := hieAck src rtag 0x7E ⟨0, 0, 0⟩ (hear src s)
    if s.hie.follow.any (fun f => f.mgr == src && f.move == move) && soaked s then rollConfirm s else s)

/-- ROLL_REPORT (R287). -/
def execRollReport (src rtag move : Nat) (status : Word) (s : State) : Out :=
  .next (let s := hieAck src rtag 0x7E ⟨0, 0, 0⟩ (hear src s)
    if s.hie.roll.move = move then rollResult src status s else s)

/-- ROLL_DRAIN_EXPIRE (R286). -/
def execRollDrainExpire (s : State) : Out := .next (tryActivate s)

/-- ROLL_SOAK_EXPIRE (R286). -/
def execRollSoakExpire (s : State) : Out :=
  .next (match s.hie.follow with
    | some f =>
      if !f.activated || !soaked s then s
      else
        let s' := rollConfirm s
        if f.mgr = ownNode s ∧ s'.hie.follow.isNone then rollResult f.mgr (BitVec.ofNat 32 (s'.rdN Reg.FW_UPD_RESULT)) s' else s'
    | none => s)

/-- ROLL_REPORT_TIMEOUT (R287): no report within HIE_ROLL_SOAK_S and 600 s of the OFFER. -/
def execRollReportTimeout (node : Nat) (s : State) : Out :=
  .next (if rollDuty s ∧ s.hie.roll.sent.any (fun x => x.1 == node && decide (x.2 + 1000000 * (s.rdN Reg.HIE_ROLL_SOAK_S + 600) ≤ s.tb)) then
      rollResult node (Status.word ⟨0x44, 0, s.rdN Reg.HIE_ROLL_SOAK_S + 600⟩) s
    else s)

/-! ### Other commands of this sled's links and waits -/

/-- ACK (Table HIE-3; 20, R432; 24): the request it answers waits no longer; an acknowledged record is this sled's own, a STATUS brings
the overhead ratio, and an OFFER is followed by ACTIVATE. -/
def execAck (src rtag echoed : Nat) (status : Word) (ratio second : Nat) (valid : Bool) (s : State) : Out :=
  .next (match takeReq src rtag (hear src s) with
    | (none, s) => s
    | (some r, s) =>
      if r.type ≠ echoed then s
      else match echoed with
        | 0x7D =>
          if r.xs.head? = some (ownNode s) then { s with hie := { s.hie with acked := max s.hie.acked (r.xs.getD 1 0) } } else s
        | 0x74 => if valid then applyOverhead second ratio s else s
        | 0x7E => offerAcked r status s
        | _ => s)

/-- PEER_HOLD_EXPIRE (04, R99): pages held for an owner not heard for TIER_PEER_LOSS are released. -/
def execPeerHoldExpire (node : Nat) (s : State) : Out :=
  .next (if (s.peer node).heard + 1000 * s.rdN Reg.TIER_PEER_LOSS ≤ s.tb then
      { s with lnk := { s.lnk with lent := s.lnk.lent.filter (fun (x : Xfer) => x.node != node) } }
    else s)

/-- WAIT_MONITOR_THRESHOLD (14, R301, R302): a wait of a level, in µs; `upward` says that its pool is neither below the level nor listed
in Table PRG-2. -/
def execWaitMonitorThreshold (level us : Nat) (upward : Bool) (s : State) : Out :=
  onUnit (decide (1 ≤ level) && decide (level ≤ 5)) (
    let s := if s.rdN Reg.FLT_PRG_THRESH_US < us then
        let s := s.bump (Reg.FLT_PRG_STALL_CNT level)
        if s.rdN (Reg.FLT_PRG_STALL_MAX_US level) < us then s.putN (Reg.FLT_PRG_STALL_MAX_US level) (min us 0xFFFFFFFF) else s
      else s
    if upward then hubFault 0xF ⟨0, 0, 0⟩ (s.bump Reg.FLT_PRG_ORDER_VIOL) else s)

end Sys2Proof.Machine
end

