-- ==== Sys2Proof/Machine/SpanRows.lean ====
section
/-! DEFINITION. Spanning tenants, routes and site time at the managers (13, R278, R279, R282, R283, R289). -/

namespace Sys2Proof.Machine

/-! ### The member's side of a span (R282, R289) -/

/-- SPAN_HOLD: the member evaluates, holds and votes; a sled whose JOIN is refused takes part in no span (R275). -/
def execSpanHold (src rtag id txn : Nat) (modify : Bool) (cls : Nat) (words : List Nat) (domain keys : Nat) (s : State) : Out :=
  .next (let s := hear src s
    let h : SpanHold := {
      txn := txn, mgr := src, id := id, keys := keys, modify := modify, cls := cls, domain := domain, vec := vecOfWords words, held := {},
      spill := 0, since := s.tb }
    if outcast s then s
    else
    let (st, x, s) := spanEval h s
    s.sendAs 0 rtag 0x79 src [txn, st.word.toNat, x])

/-- The hold of a transaction. -/
def holdOf (s : State) (mgr txn : Nat) : Option SpanHold := s.adm.holds.find? (fun h => h.mgr == mgr && h.txn == txn)

/-- Drop a hold. -/
def dropHold (mgr txn : Nat) (s : State) : State :=
  { s with adm := { s.adm with holds := s.adm.holds.filter (fun (h : SpanHold) => !(h.mgr == mgr && h.txn == txn)) } }

/-- The request record that a hold stands for. -/
def SpanHold.req (h : SpanHold) (prio holdS : Nat) : AdmReq := {
  cls := h.cls, prio := prio, domain := h.domain, hbm := h.vec.hbm, orang := h.vec.orang, wr := h.vec.wr, ctx := h.vec.ctx, clu := h.vec.clu,
  evc := h.vec.evc, queues := h.vec.queues, link := h.vec.link, energy := h.vec.energy, holdS := holdS }

/-- A hold takes effect on a member that is not the requester: the slot is attached to no function (R283). -/
def commitMember (h : SpanHold) (home : Nat) (s : State) : State :=
  let s := dropHold h.mgr h.txn s
  if h.modify then (match s.slotOf h.id with | some slot => modifyTenant slot h.vec s | none => s)
  else match slotFor s 1 with
    | none => s
    | some slot =>
      let s := enter 0 slot h.id (h.req 0 0) s
      (s.updTen slot (fun t => { t with fn := none, home := some home })).twPut slot Reg.TW_EV_KEYS h.keys

/-- The answer of a span request (R282): the reply goes out and the counters advance. -/
def spanAnswer (a : SpanAsk) (st : Status) (amount : Nat) (fail : Nat) (slot : Option Nat) (s : State) : State :=
  let s := { s with hie := { s.hie with asks := s.hie.asks.filter (fun (b : SpanAsk) => b.mb.fn != a.mb.fn) } }
  let s := s.bump (if st.code = 0 then Reg.HIE_SPAN_ADMITS else Reg.HIE_SPAN_REFUSED)
  let s := s.fnPut a.mb.fn Reg.TW_HIE_SPAN_FAIL fail
  let s := match slot with | some i => s.twPut i Reg.TW_HIE_SPAN_FAIL fail | none => s
  let r : Reply := match slot with
    | some i => aboutTen s i { amount := amount, token := if a.slot.isNone then tokenOf s i else 0 }
    | none => { amount := amount }
  reply a.mb st r slot s

/-- A hold takes effect on the requesting sled: the tenant comes in, or is modified, and the reply goes out (R282). -/
def commitHome (h : SpanHold) (a : SpanAsk) (s : State) : State :=
  let s := dropHold h.mgr h.txn s
  let f := a.mb.fn
  match a.slot with
  | some slot => spanAnswer a ⟨0, 0, 0⟩ 0 0 (some slot) (modifyTenant slot h.vec s)
  | none =>
    match slotFor s f with
    | none => spanAnswer a ⟨0x20, 9, 1⟩ 1 (ownNode s) none s
    | some slot =>
      let s := enter f slot h.id a.mb.req s
      let s := (s.updTen slot (fun t => { t with members := a.members.tail })).twPut slot Reg.TW_EV_KEYS h.keys
      spanAnswer a ⟨0, 0, 0⟩ 0 0 (some slot) (settle f slot s)

/-- The request of this sled that a hold belongs to. -/
def askOf (s : State) (h : SpanHold) : Option SpanAsk :=
  s.hie.asks.find? (fun a => a.mgr == h.mgr && (a.mb.op == 2) == h.modify && reqVec a.mb.req == h.vec)

/-- SPAN_COMMIT on a member: the hold takes effect or is dropped. At a requester whose manager aborts, what the failing vote
was is a free value (R282; log entry 80). -/
def spanCommit (mgr txn : Nat) (commit : Bool) (s : State) : State :=
  match holdOf s mgr txn with
  | none => s
  | some h =>
    match askOf s h, commit with
    | some a, true => commitHome h a s
    | some a, false =>
      let (n, s) := (dropHold mgr txn s).draw
      let res := 1 + n % 11
      spanAnswer a ⟨shortCode res, res, n / 16⟩ (n / 16) (n % 65536) none s
    | none, true => commitMember h mgr s
    | none, false => dropHold mgr txn s

/-- SPAN_COMMIT (R282). -/
def execSpanCommit (src rtag txn : Nat) (commit : Bool) (s : State) : Out :=
  .next (hieAck src rtag 0x7A ⟨0, 0, 0⟩ (spanCommit src txn commit (hear src s)))

/-- SPAN_COMMIT_TIMEOUT (R289): no SPAN_COMMIT within 100 ms of the vote. -/
def execSpanCommitTimeout (mgr txn : Nat) (s : State) : Out :=
  .next (match holdOf s mgr txn with
    | some h => if h.since + 100000 ≤ s.tb then dropHold mgr txn s else s
    | none => s)

/-! ### The manager's side (R282, R289) -/

/-- A transaction ends: every member is told, and this sled's own part and request follow. -/
def decide_ (t : SpanTxn) (ok : Bool) (fail : Option (Nat × Status × Nat)) (s : State) : State :=
  let own := ownNode s
  let s := { s with hie := { s.hie with spans := s.hie.spans.filter (fun (x : SpanTxn) => x.txn != t.txn) } }
  let s := (t.members.filter (fun n => n != own)).foldl (fun s n => hieReq 0x7A n [t.txn, b2n ok] s) s
  let a := s.hie.asks.find? (fun a => a.mgr == own && a.members == t.members)
  match a, ok with
  | some a, true => (match holdOf s own t.txn with | some h => commitHome h a s | none => s)
  | some a, false =>
    let (n, st, x) := fail.getD (0, ⟨0x24, 9, 0⟩, 0)
    spanAnswer a st x n none (dropHold own t.txn s)
  | none, _ => s

/-- SPAN_VOTE (R282): with every vote in, the transaction commits if all are DONE; the first failing one in the order of the
members is answered. -/
def spanVote (src rtag txn : Nat) (st : Word) (amount : Nat) (s : State) : State :=
  let (_, s) := takeReq src rtag s
  match s.hie.spans.find? (fun t => t.txn == txn) with
  | none => s
  | some t =>
    let w : Status := ⟨bits st.toNat 0 8, bits st.toNat 8 8, bits st.toNat 16 16⟩
    let t := { t with votes := t.votes.filter (fun (v : Nat × Status × Nat) => v.1 != src) ++ [(src, w, amount)] }
    let s := { s with hie := { s.hie with spans := updWhere s.hie.spans (fun x => x.txn == txn) (fun _ => t) } }
    let voteOf := fun n => t.votes.find? (fun v => v.1 == n)
    if t.members.all (fun n => (voteOf n).isSome) then
      match t.members.findSome? (fun n => (voteOf n).bind (fun v => if v.2.1.code = 0 then none else some v)) with
      | some v => decide_ t false (some v) s
      | none => decide_ t true none s
    else s

/-- SPAN_VOTE (R282). -/
def execSpanVote (src rtag txn : Nat) (status : Word) (amount : Nat) (s : State) : Out :=
  .next (spanVote src rtag txn status amount (hear src s))

/-- SPAN_VOTE_TIMEOUT (R289): a vote is lacking at 10 ms: REFUSED_BUSY, naming the silent member. -/
def execSpanVoteTimeout (txn : Nat) (s : State) : Out :=
  .next (match s.hie.spans.find? (fun t => t.txn == txn) with
    | none => s
    | some t =>
      if s.tb < t.since + 10000 then s
      else
        let silent := (t.members.find? (fun n => !t.votes.any (fun v => v.1 == n))).getD 0
        decide_ t false (some (silent, ⟨0x24, 9, 0⟩, 0)) s)

/-- SPAN_REQUEST_TIMEOUT (R289): nothing from the manager for 150 ms. -/
def execSpanRequestTimeout (f : Nat) (s : State) : Out :=
  onUnit (decide (f < 32)) (match s.hie.asks.find? (fun a => a.mb.fn == f) with
    | none => s
    | some a => if s.tb < a.since + 150000 then s else spanAnswer a ⟨0x24, 9, 0⟩ 0 0 none s)

/-! ### Transitions of a span (R283) -/

/-- A member applies a transition of the home sled; the slot stays attached to no function. -/
def tenantOp (slot op : Nat) (s : State) : State :=
  let was := (s.ten slot).map (·.recFn)
  if op = 0 then parkTenant slot s
  else if op = 1 then
    (attachTenant slot 0 s).updTen slot (fun t => { t with fn := none, recFn := was.getD 0 })
  else if op = 2 then reevaluateAll (releaseTenant slot s)
  else endGrace slot s

/-- TENANT_OP (R283): from the home sled, or from the chassis manager that kept it. -/
def execTenantOp (src rtag id op home : Nat) (s : State) : Out :=
  .next (let s := hear src s
    let _ := home
    let s := match s.slotOf id with
      | some slot =>
        let h := ((s.ten slot).bind (·.home))
        if (h = some src ∨ (h.isSome ∧ mgrNode s 0 = some src)) ∧ ((s.ten slot).map (·.st)) ≠ some TState.releasing then tenantOp slot op s else s
      | none => s
    hieAck src rtag 0x7B ⟨0, 0, 0⟩ s)

/-- SPAN_HOME_LOSS (R283): the home has been silent for TIER_PEER_LOSS. -/
def execSpanHomeLoss (slot : Nat) (s : State) : Out :=
  onUnit (decide (slot < 1024)) (match (s.ten slot).bind (·.home) with
    | some h => if (s.peer h).heard + 1000 * s.rdN Reg.TIER_PEER_LOSS ≤ s.tb then parkTenant slot s else s
    | none => s)

/-! ### Routes (R278) -/

/-- The reported ports of a node: port and peer. -/
def links (s : State) (n : Nat) : List (Nat × Nat) :=
  let ports := if n = ownNode s then ownPorts s else ((mget s.hie.members n).map (·.ports)).getD []
  ((List.range ports.length).zip ports).filter (fun x => x.2 != 0)

/-- Hop counts to the nearest of a set of nodes, level by level. The fuel is the number of nodes. -/
def hops (g : Nat → List (Nat × Nat)) : Nat → List Nat → Nat → Map Nat → Map Nat
  | 0, _, _, m => m
  | k + 1, front, d, m =>
    let m := front.foldl (fun m n => if (mget m n).isSome then m else mput m n d) m
    let next := (front.flatMap (fun n => (g n).map (·.2))).eraseDups.filter (fun n => (mget m n).isNone)
    if next.isEmpty then m else hops g k next (d + 1) m

/-- The escape tree: each node's parent, breadth first; ties go to the lower port of the parent, then its lower ID. -/
def escapeTree (g : Nat → List (Nat × Nat)) : Nat → List Nat → Map Nat → Map Nat
  | 0, _, m => m
  | k + 1, front, m =>
    let found := (front.flatMap (fun n => (g n).map (fun e => (e.2, e.1, n)))).filter (fun e => (mget m e.1).isNone)
    let kids := (found.map (·.1)).eraseDups
    let m := kids.foldl (fun m c =>
      let best := (found.filter (fun e => e.1 == c)).foldl (fun (b : Option (Nat × Nat)) e =>
        match b with
        | some (p, n) => if e.2.1 < p ∨ (e.2.1 = p ∧ e.2.2 < n) then some (e.2.1, e.2.2) else b
        | none => some (e.2.1, e.2.2)) none
      match best with | some (_, n) => mput m c n | none => m) m
    if kids.isEmpty then m else escapeTree g k kids m

/-- A node and its ancestors in the tree. -/
def lineage (tree : Map Nat) (root : Nat) : Nat → Nat → List Nat
  | 0, n => [n]
  | k + 1, n => if n = root then [n] else match mget tree n with | some p => n :: lineage tree root k p | none => [n]

/-- The nodes that entry `i` of a node's tables leads to (12, Table LNK-5). -/
def groupOf (nodes : List Nat) (x i : Nat) : List Nat :=
  nodes.filter (fun y => y != x && routeIndex x y == i)

/-- Entry `i` of a node's tables: every port on a shortest path, and the tree port (R278; log entry 82). -/
def computeEntry (g : Nat → List (Nat × Nat)) (nodes : List Nat) (tree : Map Nat) (root x i : Nat) : Nat :=
  let grp := groupOf nodes x i
  match grp with
  | [] => 0
  | y0 :: rest =>
    let y := rest.foldl min y0
    let d := hops g nodes.length grp 0 []
    match mget d x with
    | none => 0
    | some dx =>
      let adapt := (g x).filter (fun e => match mget d e.2 with | some k => decide (k + 1 = dx) | none => false)
      let line := lineage tree root nodes.length y
      let (to_, up) := match line.findIdx? (fun n => n == x) with
        | some k => (line.getD (k - 1) y, 0)
        | none => ((mget tree x).getD root, 1)
      match (g x).find? (fun e => e.2 == to_) with
      | some (p, _) => sumOf (adapt.map (·.1)).eraseDups (fun q => 2 ^ q) + 2 ^ 18 * p + 2 ^ 23 * up + 2 ^ 24
      | none => 0

/-- The spans of table indices that one ROUTE_SET carries: table, first index and count, at most 11 entries. -/
def routeChunks : List (Nat × Nat × Nat) :=
  [(0, 0, 11), (0, 11, 11), (0, 22, 10), (1, 0, 11), (1, 11, 11), (1, 22, 11), (1, 33, 11), (1, 44, 11), (1, 55, 9), (2, 0, 11), (2, 11, 5)]

/-- The first entry of a table. -/
def tableBase (t : Nat) : Nat := if t = 0 then 0 else if t = 1 then 32 else 96

/-- TOPOLOGY_RECOMPUTE (R278): the highest manager computes the routes of its scope, sends them, and a flip 4 ms ahead. -/
def recompute (s : State) : State :=
  let own := ownNode s
  if role s = 0 ∨ (managerAbove s).isSome then s
  else
    let nodes := own :: (s.hie.members.map (·.1)).filter (fun n => n != own && inScope s (role s - 1) n)
    let g := links s
    let tree := escapeTree g nodes.length [own] [(own, own)]
    let gen := s.hie.gen + 1
    let s := { s with hie := { s.hie with gen := gen } }
    let s := nodes.foldl (fun s x =>
      if x = own then
        let s := { s with lnk := { s.lnk with rtGen := gen, rtHave := List.range 112 } }
        (List.range 112).foldl (fun s i => routeWriteAt i (BitVec.ofNat 64 (computeEntry g nodes tree own x i)) s) s
      else routeChunks.foldl (fun s c =>
        hieReq 0x75 x ([c.1, c.2.1, c.2.2, gen] ++ (List.range c.2.2).map (fun k => computeEntry g nodes tree own x (tableBase c.1 + c.2.1 + k))) s) s) s
    let at_ := s.tb + 4000
    let e := 1 - s.lnkE
    let s := (nodes.filter (fun n => n != own)).foldl (fun s n => s.send 0x12 n [e, at_]) s
    { s.putN Reg.LNK_FLIP_AT at_ with lnk := { s.lnk with flipAt := some (at_, some e) } }.setBit Reg.LNK_RT_STATUS 0 true

/-- TOPOLOGY_RECOMPUTE (R278). -/
def execTopologyRecompute (s : State) : Out := .next (recompute s)

/-- ROUTE_SET (R278): entries of a generation are staged. -/
def routeSet (table first gen : Nat) (entries : List DWord) (s : State) : State :=
  let s := if s.lnk.rtGen < gen then { s with lnk := { s.lnk with rtGen := gen, rtHave := [] } } else s
  if gen < s.lnk.rtGen then s
  else ((List.range entries.length).zip entries).foldl (fun s e =>
    let i := tableBase table + first + e.1
    let s := routeWriteAt i e.2 s
    if s.lnk.rtHave.contains i then s else { s with lnk := { s.lnk with rtHave := s.lnk.rtHave ++ [i] } }) s

/-- ROUTE_SET (R278). -/
def execRouteSet (src rtag table first gen : Nat) (entries : List DWord) (s : State) : Out :=
  onUnit (decide (table < 3)) (hieAck src rtag 0x75 ⟨0, 0, 0⟩ (routeSet table first gen entries (hear src s)))

/-! ### 1PPS (R279) -/

/-- A rising edge of PPS_IN is accepted: 1 s ± 100 µs after the one before it (26, Table ELC-8). -/
def ppsFits (s : State) : Bool := s.lnk.sync.pps.any (fun t => decide (t + 999900 ≤ s.tb ∧ s.tb ≤ t + 1000100))

/-- PPS_IN_PULSE (R279): the time root slews TB so that a whole second falls on an accepted pulse. -/
def execPpsInPulse (s : State) : Out :=
  .next (if role s = 3 ∧ s.bit Reg.HIE_CTRL 2 then
      let r := s.tb % 1000000
      let d : Int := if r < 500000 then -(r : Int) else 1000000 - r
      { s with lnk := { s.lnk with sync := { s.lnk.sync with
        pps := some s.tb, slew := if ppsFits s then d * 6400 * 100 else s.lnk.sync.slew } } }
    else s)

/-- PPS_OUT_SECOND (R279; 25, R517): a locked sled drives its 1PPS output at each whole second of TB. -/
def execPpsOutSecond (s : State) : Out :=
  .next (if s.bit Reg.LNK_TIME_STATUS 0 ∧ s.tb % 1000000 = 0 then s.emit (.pin "PPS_OUT" 1) else s)

end Sys2Proof.Machine
end

