-- ==== Sys2Proof/Machine/Flits.lean ====
section
/-! DEFINITION. A DATA flit as it arrives at a port: retry state, the router, and delivery to the consumer of its
message (12). -/

namespace Sys2Proof.Machine

/-- The state that an outcome leaves; one that stops leaves the state before it. -/
def runOut (f : State → Out) (s : State) : State := match f s with | .next t => t | _ => s

/-- The flit that a DATA header and payload stand for (R247, Table LNK-1). -/
def flitOf (h : BitVec 128) (p : BitVec 864) : Flit :=
  let x := h.toNat
  { cls := bits x 2 3, vc := bits x 5 1, epoch := bits x 6 1, dst := bits x 32 16, src := bits x 48 16, tenant := bits x 64 16,
    hops := bits x 80 4, ocls := bits x 84 3, nepoch := bits x 88 8, rtag := bits x 96 16, payload := p }

/-- The flit checks: KIND, CRC, reserved header bits and DST (R248). -/
def flitSound (h : BitVec 128) : Bool :=
  bits h.toNat 0 2 == 1 && bits h.toNat 113 15 == 0 && bits h.toNat 87 1 == 0 && bits h.toNat 47 1 == 0

/-- Discard a DATA flit: RETRY_REQ names the expected SEQ once (R250). -/
def discardFlit (p : Nat) (s : State) : State :=
  if (s.lport p).seeking then s else sendRetry p (s.updLport p (fun l => { l with seeking := true }))

/-- The tenant that a payload names, where its message has one that must be the header's (R248; log entry 106). -/
def payTenant (type : Nat) (p : BitVec 864) : Option Nat :=
  match type with
  | 0x20 | 0x23 => some (payField p 14 2)
  | 0x21 => if payField p 1 1 % 2 = 1 then none else some (payField p 14 2)
  | 0x60 => some (payField p 2 2)
  | _ => none

/-- A list of numbers as words. -/
def asWords (l : List Nat) : List Word := l.map (BitVec.ofNat 32)

/-- A list of numbers as bytes. -/
def asBytes (l : List Nat) : List Byte := l.map (BitVec.ofNat 8)

/-- The peer, span and control messages of Table LNK-6. -/
def linkMessage (port : Nat) (f : Flit) (type : Nat) (s : State) : Option Out :=
  let p := f.payload
  let w := fun a n => payField p a n
  match type with
  | 0x10 => some (execPing f.src f.rtag (w 8 8) s)
  | 0x11 => some (execPong f.src f.rtag (w 8 8) s)
  | 0x12 => some (execRouteFlip f.src (w 1 1 % 2) (w 8 8) s)
  | 0x20 => some (execPagePut f.src f.rtag (w 4 4) (BitVec.ofNat 64 (w 8 8)) (w 0x10 4) (w 0x14 4) (BitVec.ofNat 32 (w 0x18 4)) s)
  | 0x21 => some (execPageGet f.src f.rtag (w 1 1 % 2 == 1) (w 4 4) (BitVec.ofNat 64 (w 8 8)) (w 0x10 4) s)
  | 0x22 => some (execMoveDone f.src f.rtag (w 4 4) (BitVec.ofNat 32 (w 8 4)) (w 0xC 4) (BitVec.ofNat 32 (w 0x10 4)) s)
  | 0x23 => some (execPageRelease f.src (w 4 4) (BitVec.ofNat 64 (w 8 8)) (w 0x10 4) (w 0x14 4) s)
  | 0x24 => some (execStale f.src f.rtag (w 1 1) s)
  | 0x30 => some (execBulkData f.src f.rtag (w 4 4) (w 8 4) (asBytes (payList p 0xC 1 (min 96 (w 2 2)))) s)
  | 0x40 => some (execCollPart f.src (w 2 2) (w 4 4) (w 8 4) (asWords (payList p 0xC 4 24)) s)
  | 0x41 => some (execCollData f.src (w 2 2) (w 4 4) (w 8 4) (asBytes (payList p 0xC 1 96)) s)
  | 0x42 => some (execSpanPut f.src f.rtag (bits (w 2 2) 0 13) (w 4 4) (w 8 4) (asBytes (payList p 0xC 1 (min 96 (w 1 1)))) s)
  | 0x43 => some (execSpanGet f.src f.rtag (bits (w 2 2) 0 13) (w 4 4) (w 8 4) (w 0xC 4) s)
  | 0x44 => some (execSpanSignal f.src (bits (w 2 2) 0 13) (w 4 4) (w 8 1 % 32) (BitVec.ofNat 32 (w 0xC 4)) s)
  | 0x45 => some (execSpanBar f.src (w 2 2) (w 4 4) (w 8 4) s)
  | 0x46 => some (execSpanData f.src f.rtag (w 4 4) (w 8 4) (asBytes (payList p 0xC 1 (min 96 (w 1 1)))) s)
  | 0x47 => some (execSpanAck f.src (w 4 4) (w 8 4 % 65536) s)
  | 0x60 => some (execEvBatch f.tenant (asWords (payList p 4 4 (min 26 (w 1 1)))) s)
  | 0x68 => some (execSyncReq port (w 2 2) (w 8 8) false s)
  | 0x69 =>
    let (t4, s) := linkTicks s
    let st := w 0x20 1
    some (execSyncResp port (w 2 2) (w 0x10 8) (w 0x18 8) t4 (bits st 0 1 == 1) (bits st 2 4) false s)
  | _ => none

/-- The directory messages of 05 Table PFX-10. -/
def dirMessage (f : Flit) (type : Nat) (s : State) : Option Out :=
  let p := f.payload
  let w := fun a n => payField p a n
  let dom := w 2 2 % 4096
  let kg := w 2 2 / 4096
  let hashes := (payList p 0xC 8 (min 12 (w 1 1))).map (BitVec.ofNat 64)
  match type with
  | 0x50 => some (execDirAnnounce f.src dom kg (w 4 1 % 2 == 1) hashes s)
  | 0x51 => some (execDirQuery f.src f.rtag dom kg (w 4 2) hashes s)
  | 0x52 => some (execDirAnswer f.src (w 1 1) dom kg (w 4 2) (w 6 2) (w 8 1) s)
  | 0x53 => some (execRemotePin f.src f.rtag dom kg (w 4 2) (w 6 2) ((payList p 0xC 16 (min 6 (w 1 1))).map (BitVec.ofNat 128)) s)
  | 0x54 => some (execPinAnswer f.src (w 1 1) dom kg (w 4 2) (w 8 4) s)
  | 0x55 => some (execRemoteUnpin f.src (w 8 4) s)
  | _ => none

/-- ROLL by its operation. -/
def rollMessage (f : Flit) (s : State) : Out :=
  let p := f.payload
  let w := fun a n => payField p a n
  match w 1 1 % 8 with
  | 0 => execRollOffer f.src f.rtag (w 2 1 % 8) (w 4 4) (w 8 4) (w 0xC 4) (payList p 0x10 1 48) s
  | 1 => execRollActivate f.src f.rtag (w 4 4) s
  | 2 => execRollConfirm f.src f.rtag (w 4 4) s
  | 3 => execRollReport f.src f.rtag (w 4 4) (BitVec.ofNat 32 (w 0x40 4)) s
  | _ => .next (hear f.src s)

/-- The hierarchy messages of 13 Table HIE-3. -/
def hieMessage (f : Flit) (type : Nat) (s : State) : Option Out :=
  let p := f.payload
  let w := fun a n => payField p a n
  let level := w 1 1 % 4
  match type with
  | 0x70 => some (execBeacon f.src f.hops level (bits (w 1 1) 2 1 == 1) (bits (w 1 1) 3 1 == 1) (w 2 2) (w 4 4) (w 8 3) (w 0x10 4)
      (bits (w 0xC 1) 0 4) (w 0x14 1) (w 0x18 4) (bits (w 0xC 1) 4 1 == 1) s)
  | 0x71 => some (execCandidate f.src f.hops level (w 2 2) (w 4 4) (w 8 3) (w 0x18 4) s)
  | 0x72 => some (execJoin f.src f.rtag level (bits (w 1 1) 7 1 == 1) (w 4 4) (w 8 4) (w 0xC 4) (w 0x10 4) (w 0x14 2) (w 0x17 1)
      (payList p 0x20 2 (min 8 (w 0x16 1))) (BitVec.ofNat 128 (w 0x5C 16)) s)
  | 0x73 => some (execJoinAck f.src f.rtag (BitVec.ofNat 32 (w 4 4)) (w 8 4) (BitVec.ofNat 128 (w 0x5C 16)) s)
  | 0x74 => some (execStatus f.src f.rtag (w 4 4) (w 8 4) (w 0xC 4) (w 0x10 4) (payList p 0x14 2 18) (w 0x40 8) (w 0x48 8) (w 0x50 4)
      (w 0x54 1 % 2 == 1) s)
  | 0x75 => some (execRouteSet f.src f.rtag level (w 2 1) (w 4 4) ((payList p 8 8 (min 11 (w 3 1))).map (BitVec.ofNat 64)) s)
  | 0x76 => some (execPoolReq f.src f.rtag (w 2 1) s)
  | 0x77 => some (execPoolGrant f.src f.rtag (w 4 4) (payList p 8 2 (min 16 (w 2 1))) s)
  | 0x78 => some (execSpanHold f.src f.rtag (w 2 2) (w 4 4) (bits (w 8 4) 0 2 == 1) (bits (w 8 4) 2 2) (payList p 0x10 4 7) (w 0x2C 4)
      (w 0x30 4) s)
  | 0x79 => some (execSpanVote f.src f.rtag (w 4 4) (BitVec.ofNat 32 (w 8 4)) (w 0xC 4) s)
  | 0x7A => some (execSpanCommit f.src f.rtag (w 4 4) (w 8 1 % 2 == 1) s)
  | 0x7B => some (execTenantOp f.src f.rtag (w 2 2) (w 4 1 % 8) (w 8 4) s)
  | 0x7C => some (execKeyWrap f.src f.rtag (w 2 2 % 4096) (w 2 2 / 4096) (w 4 4) (BitVec.ofNat 192 (w 8 24)) s)
  | 0x7D => some (execLedgerFwd f.src f.rtag (w 2 2) (w 4 4) (asWords (payList p 0xC 4 16)) s)
  | 0x7E => some (rollMessage f s)
  | 0x7F => some (execAck f.src f.rtag (w 2 1) (BitVec.ofNat 32 (w 4 4)) (w 8 4) (w 0xC 4) (w 0x10 1 % 2 == 1) s)
  | _ => none

/-- The consumer of a message; none for a reserved TYPE (R248). -/
def message (port : Nat) (f : Flit) (rpl : Bool) (s : State) : Option State :=
  let type := payField f.payload 0 1
  if (type = 0x68 ∨ type = 0x69) ∧ rpl then some (s.bump Reg.LNK_SYNC_DISCARD)
  else
    let run := fun (o : Option Out) => o.map (fun o => runOut (fun _ => o) s)
    (run (linkMessage port f type s)).orElse (fun _ => (run (dirMessage f type s)).orElse (fun _ => run (hieMessage f type s)))

/-- Count and charge a delivered flit (Table LNK-11; 20, R419). -/
def countDelivered (tenant : Nat) (s : State) : State :=
  match s.slotOf tenant with
  | some slot => (s.twBump slot Reg.TW_LNK_RX_BYTES 108).twBump slot (Reg.TW_NRG_ACT 4) 108
  | none => chargeDevice 4 108 s

/-- The request that a response answers. -/
def answered (s : State) (f : Flit) : Option Req := s.lnk.reqs.find? (fun r => r.tag == f.rtag && r.dest == f.src)

/-- A flit at its destination (R248, R254, R258, R298). -/
def deliverFlit (port : Nat) (f : Flit) (rpl : Bool) (s : State) : State :=
  let type := payField f.payload 0 1
  let cls := if f.cls = 7 then f.ocls else f.cls
  let full : Bool := match s.slotOf f.tenant with | some slot => (s.ten slot).any (fun t => t.evRefusing) | none => false
  let s := hear f.src s
  if f.cls = 7 ∧ full then
    match s.slotOf f.tenant with
    | some slot => (((s.twBump slot Reg.TW_PRG_L7_DROP).bump Reg.FLT_PRG_L7_DROP).twBump slot Reg.TW_PRG_INJ_REFUSED).bump Reg.FLT_PRG_INJ_REFUSED
    | none => s
  else if (payTenant type f.payload).any (fun t => t != f.tenant) then s.bump Reg.LNK_BAD_TYPE
  else if (cls = 2 ∨ cls = 3 ∨ cls = 5) ∧ f.nepoch ≠ 0 ∧ f.nepoch ≠ s.rdN Reg.LNK_NODE_EPOCH then
    s.sendAs 0 f.rtag 0x24 f.src [s.rdN Reg.LNK_NODE_EPOCH]
  else if cls = 1 ∧ type ≠ 0x24 ∧ (answered s f).any (fun r => r.epoch != 0 && r.epoch != f.nepoch) then
    (if type = 0x22 then s.bump Reg.TIER_STALE_REPLY else s)
  else
    let s := if cls = 1 then s.updPeer f.src (fun p => { p with epoch := f.nepoch }) else s
    match message port f rpl s with
    | none => s.bump Reg.LNK_BAD_TYPE
    | some t => countDelivered f.tenant t

/-- A flit that the retry state accepted: to this sled, or on through the router, past at most 16 of them (R253, R255). -/
def routeIn (port : Nat) (f : Flit) (rpl : Bool) (s : State) : State :=
  let origin := some (port, f.chan)
  if f.dst = ownNode s ∨ f.cls = 6 then freeBuf origin (deliverFlit port f rpl s)
  else if f.hops = 15 then freeBuf origin (s.bump Reg.LNK_HOP_DROP)
  else routeFlit ⟨{ f with hops := f.hops + 1 }, s.tb, origin⟩ s

/-- DATA_FLIT (R248 to R252): a flit that checks and has the expected SEQ is accepted, any other is discarded. -/
def dataFlit (port : Nat) (h : BitVec 128) (p : BitVec 864) (crc : Word) (s : State) : State :=
  if crc ≠ flitCrc h p then discardFlit port (s.bump (Reg.LNK_CRC_ERR port))
  else if !flitSound h then discardFlit port s
  else
    let s := hearPort port s
    let s := if bits h.toNat 7 1 = 1 then applyAck port (bits h.toNat 20 12) s else s
    let seq := bits h.toNat 8 12
    if seq ≠ (s.lport port).rxSeq then discardFlit port s
    else
      let s := s.updLport port (fun l => { l with rxSeq := (seq + 1) % 4096, seeking := false })
      sendLink port 0 0 (routeIn port (flitOf h p) (bits h.toNat 112 1 == 1) (s.bump (Reg.LNK_FLITS_RX port)))

/-- DATA_FLIT (R249). -/
def execDataFlit (port : Nat) (hdr : BitVec 128) (payload : BitVec 864) (crc : Word) (s : State) : Out :=
  onPort port [5] (dataFlit port hdr payload crc) s

end Sys2Proof.Machine
end

