-- ==== Sys2Proof/Machine/Panel.lean ====
section
/-! DEFINITION. Meanings of the commands of the status panel (21). -/

namespace Sys2Proof.Machine

/-- Zones of a mask. -/
def zonesOf (mask : Nat) : List Nat := (List.range 2).filter (fun z => mask.testBit z)

/-- A write of PNL_UPDATE. -/
def pnlUpdate (party mode zones : Nat) (s : State) : Out :=
  onUnit (decide (party < 3)) (if (zonesOf zones).isEmpty then s else requestUpdate party mode (zonesOf zones) s)

/-- PNL_UPDATE_FULL (R443). -/
def execPnlUpdateFull (party zones : Nat) (s : State) : Out := pnlUpdate party 0 zones s

/-- PNL_UPDATE_PARTIAL (R443). -/
def execPnlUpdatePartial (party zones : Nat) (s : State) : Out := pnlUpdate party 1 zones s

/-- PNL_UPDATE_CLEAR (R443). -/
def execPnlUpdateClear (party zones : Nat) (s : State) : Out := pnlUpdate party 2 zones s

/-- The thermistor conversion is still to come. -/
def tempComing (s : State) : Bool :=
  (mget s.adc.urgDone 0).isNone && ((match (s.ic 3).urg with | some u => u.who == .panelTh | none => false) ||
    (match (s.ic 3).conv with | some c => c.use == .urgent .panelTh | none => false))

/-- Take the result of the thermistor conversion, if there is one, and judge it (R448). -/
def readTemp (s : State) : State :=
  let s := match mget s.adc.urgDone 0 with | some w => takeTemp w s | none => s
  judgeTemp { s with adc := { s.adc with urgDone := mdel s.adc.urgDone 0 }, pnl := { s.pnl with reading := false } }

/-- A readback of a common is more than 50 mV from its target (R442); the result word is in 2.5 V ÷ 2^23. -/
def commonOff (s : State) (z : Nat) : Bool :=
  match mget s.adc.urgDone (3 + z) with
  | none => false
  | some w =>
    let mv : Ratio := ⟨wordValue w * 2500, 2 ^ 23⟩
    let goal : Int := -(300 + 10 * (mgetD s.pnl.codes 0 z : Nat))
    !((mv.sub (Ratio.ofInt goal)).abs.le ⟨50, 1⟩)

/-- A table set that waits is applied (R438). -/
def tableApply (s : State) : State :=
  match s.pnl.waiting with
  | none => s
  | some t =>
    ({ s with pnl := { s.pnl with table := some t, waiting := none, tableOk := true } }).putN Reg.PNL_TBL_STATUS
      (setNum (some t) 0 2 + 65536 * b2n (s.bit Reg.PNL_TBL_STATUS 16))

/-- What a frame boundary does with the rails up (R444 to R446, R455). -/
def frameBoundary (s : State) : State :=
  let was := scanning s
  let s := endFrame 1 (endFrame 0 s)
  let s := pnlApply s
  let s := if scanning s then s else tableApply s
  let s := if s.pnl.reading && !tempComing s then readTemp s else s
  let s := if s.pnl.reading then s
    else if !(tempFresh s || s.pnl.lost) ∧ !s.pnl.run.isEmpty ∧ !scanning s then wakePanel s
    else if s.pnl.park then s
    else startUpdate 1 (startUpdate 0 s)
  let s := if scanning s then { s with pnl := { s.pnl with holdAt := none } }
    else if was || s.pnl.holdAt.isNone then { s with pnl := { s.pnl with holdAt := some s.tb } }
    else s
  let s := if (s.pnl.park || s.pnl.lost) && !scanning s then lowerRails s else s
  showEnergy (showPnl s)

/-- PANEL_FRAME_BOUNDARY. -/
def execPanelFrameBoundary (s : State) : Out :=
  if s.pnl.rails ≠ .up then .next s
  else
    let off := s.pnl.checking.any (commonOff s)
    let s := { s with pnl := { s.pnl with checking := s.pnl.checking.filter (fun z => (mget s.adc.urgDone (3 + z)).isNone) } }
    .next (if off then railFault s else frameBoundary s)

/-- The rails are up: the commons are set and read back before frame 0 (R442, R449). -/
def railsUp (s : State) : State :=
  let s := { s with pnl := { s.pnl with rails := .up, retrying := false, holdAt := none } }
  let band := s.fld Reg.PNL_TEMP 16 4
  showPnl (((s.pnl.run.filter (fun u => !u.2.driving)).map (·.1)).foldl (fun (s : State) z =>
    let s := if s.pnl.lost then setCommon z band s else askCommon z (setCommon z band s)
    { s with pnl := { s.pnl with run := mupd s.pnl.run z (fun u => { u with asked := true }) } }) s)

/-- PANEL_RAIL_STEP (R441): a rail is enabled once the one before it has passed its check, or falls. -/
def execPanelRailStep (ok : Bool) (s : State) : Out :=
  .next (match s.pnl.rails with
    | .down => s
    | .reading =>
      if tempComing s && !s.pnl.lost then s
      else
        let s := readTemp s
        if s.pnl.run.isEmpty then showPnl { s with pnl := { s.pnl with rails := .down } }
        else { s with pnl := { s.pnl with rails := .rising 1 } }
    | .rising n => if !ok then railFault s else if n < 5 then { s with pnl := { s.pnl with rails := .rising (n + 1) } } else railsUp s
    | .up => if s.pnl.reading && !tempComing s then readTemp s else s
    | .falling n =>
      if 1 < n then { s with pnl := { s.pnl with rails := .falling (n - 1) } }
      else
        let s := { s with pnl := { s.pnl with rails := .down } }
        if s.hld.ph ≠ .supplied then showPnl (holdupNext s)
        else showPnl (if s.pnl.failAt.isSome || s.pnl.park then s else wakePanel s))

/-- PANEL_RAIL_HOLD_EXPIRE (R446). -/
def execPanelRailHoldExpire (s : State) : Out :=
  match s.pnl.holdAt with
  | none => .next s
  | some t =>
    if s.pnl.rails = .up ∧ !scanning s ∧ s.pnl.run.isEmpty ∧ t + 1000 * s.fld Reg.PNL_CFG 16 14 ≤ s.tb then .next (showPnl (lowerRails s))
    else .next s

/-- PANEL_RAIL_FAULT (R442, R456). -/
def execPanelRailFault (s : State) : Out :=
  .next (match s.pnl.rails with
    | .up => railFault s
    | .rising _ => railFault s
    | _ => s)

/-- PANEL_RAIL_RETRY (R456). -/
def execPanelRailRetry (s : State) : Out :=
  match s.pnl.failAt with
  | none => .next s
  | some t =>
    if t + 100000 ≤ s.tb ∧ s.pnl.rails = .down then
      .next { s with pnl := { s.pnl with failAt := none, retrying := true, rails := .rising 1 } }
    else .next s

/-- PNL_FB_WRITE (R447, R451): one word of NEXT, sixteen pixels. -/
def execPnlFbWrite (party offset : Nat) (value : Word) (s : State) : Out :=
  let o := offset / 4 * 4
  let z := if o < 4000 then 0 else 1
  if 30000 ≤ offset ∨ 3 ≤ party then .fault .noSuchUnit
  else if z = 0 ∨ party ≠ s.rdN Reg.PNL_BODY_OWN ∨ party = 0 then .next (s.bump Reg.PNL_FB_DENIED)
  else if (mget s.pnl.run 1).isSome then .next (s.bump Reg.PNL_FB_BUSY_DROP)
  else
    let i := s.pnlNext 1
    let px := (List.range 16).foldl (fun (m : Map Nat) k => mputD m (i.base.level (4 * o + k)) (4 * o + k) (bits value.toNat (2 * k) 2)) i.px
    .next { s with pnl := { s.pnl with next := mput s.pnl.next 1 { i with px := px } } }

/-- PNL_TBL_COMMIT (R438): the staged set is checked, and applied at once or when the panel is idle. -/
def execPnlTblCommit (key : Nat) (s : State) : Out :=
  if key ≠ 0x7AB1 then .next s
  else
    let t := stagedSet s
    if !setAccepted (some t) then .next (s.setBit Reg.PNL_TBL_STATUS 16 true)
    else
      let s := ({ s with pnl := { s.pnl with waiting := some t } }).setBit Reg.PNL_TBL_STATUS 17 true
      .next (if scanning s then s else tableApply s)

/-- Cells of the panel group. -/
def pnlGroup (a : Nat) : Bool := a == Reg.PNL_CFG || a == Reg.PNL_FL

/-- PNL_COMMIT: at the next scan frame boundary, or at once when the panel is not scanning. -/
def execPnlCommit (s : State) : Out :=
  let s := commitTake s Reg.PNL_COMMIT pnlGroup
  .next (if scanning s then s else pnlApply s)

/-- PNL_BODY_OWN_WRITE (R451), by the PF; 3 names no owner. -/
def execPnlBodyOwnWrite (owner : Nat) (s : State) : Out :=
  if 2 < owner then .next s else .next ((notePst s Reg.PNL_BODY_OWN (s.rd Reg.PNL_BODY_OWN)).putN Reg.PNL_BODY_OWN owner)

/-- PNL_WAKE_PRESS (R454). -/
def execPnlWakePress (s : State) : Out :=
  let s := s.bump Reg.PNL_WAKE_CNT
  let s := { s with pnl := { s.pnl with wakeUntil := some (s.tb + 1000000 * s.fld Reg.PNL_FL_WAKE 8 10) } }
  .next (redrawStatus (showLight s))

/-- PNL_WAKE_EXPIRE (R454). -/
def execPnlWakeExpire (s : State) : Out :=
  match s.pnl.wakeUntil with
  | some t => if t ≤ s.tb then .next (showLight { s with pnl := { s.pnl with wakeUntil := none } }) else .next s
  | none => .next s

end Sys2Proof.Machine
end

