-- ==== Sys2Proof/Machine/OpsReg.lean ====
section
/-! DEFINITION. What a register reads (00, R6 to R9; 27): values that follow from other state, and the latches of wide
registers. -/

namespace Sys2Proof.Machine

/-! ### Groups of staged registers (00, R9) -/

/-- Cells of the power cap group. -/
def capGroup (a : Nat) : Bool := a == Reg.PWR_CAP_W || a == Reg.PWR_CAP_HYST_W
/-- Cells of the quota group and of the rule group. -/
def quotaGroup (a : Nat) : Bool := decide (Reg.ADM_QUOTA 0 0 ≤ a ∧ a < Reg.ADM_QUOTA 32 0)
def policyGroup (a : Nat) : Bool := decide (Reg.ADM_POLICY 0 0 ≤ a ∧ a < Reg.ADM_POLICY 64 0)
/-- Cells of the watermark group. -/
def wmGroup (a : Nat) : Bool := a == Reg.TIER_WM_LOW || a == Reg.TIER_WM_HIGH
/-- Cells of the domain group. -/
def domGroup (a : Nat) : Bool := decide (Reg.PFX_DOM_CFG 0 ≤ a ∧ a < Reg.PFX_DOM_CFG 4096)
/-- Cells of the scheduler group. -/
def schGroup (a : Nat) : Bool := a == Reg.SCH_HORIZON || a == Reg.SCH_PREFILL_SHARE || a == Reg.SCH_AGE_MS

/-- PENDING as a number. -/
def pendingBit (s : State) (commit : Nat) (g : Nat → Bool) : Nat := b2n (groupPending s commit g)

/-! ### Values that follow from other state -/

/-- Element i of n cells a stride apart that an address is. -/
def cellIdx (a base stride n : Nat) : Option Nat :=
  if base ≤ a ∧ (a - base) % stride = 0 ∧ (a - base) / stride < n then some ((a - base) / stride) else none

/-- The first view that covers the address. -/
def firstView (l : List (Unit → Option Nat)) : Option Nat := l.findSome? (fun f => f ())

/-- The tenant whose launch or step holds a cluster. -/
def clusterSlot (s : State) (k : Nat) : Option Nat :=
  match s.launches.find? (fun l => l.2.clusters.contains k) with
  | some l => some l.2.slot
  | none =>
    match s.sch.steps.find? (fun t => t.2.running && t.2.clusters.contains k) with
    | some t => (t.2.entries.head?).map (fun e => ctxSlot s e.ctx)
    | none => none

/-- CLK, PWR and RST. -/
def viewClk (s : State) (a : Nat) : Option Nat :=
  if a = Reg.CLK_TB then some s.tb
  else if a = Reg.PWR_PENDING then some (pendingBit s Reg.PWR_CAP_COMMIT capGroup)
  else if a = Reg.RST_UNIT_STATUS then some (2 * s.fld a 1 1 + b2n (decide (s.tb < s.rst.busyUntil)))
  else if a = Reg.RST_EPOCH_DATA then
    let t := s.fld Reg.RST_EPOCH_SEL 0 4
    let i := s.fld Reg.RST_EPOCH_SEL 4 11
    some (if unitAbsent s t i then 1024
      else unitEpoch s t i % 256 + 256 * b2n (unitInReset s t i) + 512 * b2n (unitRetired s t i))
  else (cellIdx a (Reg.CLK_THR_CL 0) 4 128).map (fun k =>
    let k_t := match clusterSlot s k with | some i => bits (s.twRd i Reg.TW_NRG_K) 0 6 | none => 0
    coreK s k ((clusterSlot s k).getD 1024) + 256 * k_t)

/-- HIF. -/
def viewHif (s : State) (a : Nat) : Option Nat :=
  (cellIdx a (Reg.HIF_FN_STATUS 0) 4 32).map (fun f =>
    let n := s.fn f
    let bad := s.adm.tenants.any (fun t => t.2.fn == some f && t.2.queues.any (fun q => q.2.st == .error))
    b2n n.leaseLive + 2 * b2n n.bme + 4 * b2n n.d3hot + 16 * b2n n.wrStalled + 32 * b2n n.ideInsecure + 64 * b2n bad)

/-- ADM. -/
def viewAdm (s : State) (a : Nat) : Option Nat :=
  if a = Reg.ADM_CAP 11 then some (admCap s 11)
  else if a = Reg.ADM_DEFER then some s.adm.deferred.length
  else if a = Reg.ADM_PENDING then some (pendingBit s Reg.ADM_QUOTA_COMMIT quotaGroup + 2 * pendingBit s Reg.ADM_POLICY_COMMIT policyGroup)
  else firstView [
    fun _ => (cellIdx a (Reg.ADM_RESV 0) 4 16).map (admResv s),
    fun _ => (cellIdx a (Reg.ADM_FREE 0) 4 16).map (admFree s),
    fun _ => (cellIdx a (Reg.ADM_ZERO 0) 4 16).map (admZero s)]

/-- TIER, PFX and SCH. -/
def viewMem (s : State) (a : Nat) : Option Nat :=
  if a = Reg.TIER_PENDING then some (2 * s.fld a 1 1 + pendingBit s Reg.TIER_WM_COMMIT wmGroup)
  else if a = Reg.TIER_FREE_T1 then some (freeT1 s)
  else if a = Reg.PFX_PENDING then
    some (b2n (s.inflight.any (fun c => c.1 == Reg.PFX_DOM_COMMIT) ||
      s.staged.any (fun c => domGroup c.1 && (c.2 ^^^ s.rd c.1) &&& 0xFFFF07 != 0)))
  else if a = Reg.PFX_ENTRIES then some s.pfx.entries.length
  else if a = Reg.SCH_PENDING then some (pendingBit s Reg.SCH_COMMIT schGroup)
  else if a = Reg.SCH_MODEL_CNT then some s.sch.models.length
  else firstView [
    fun _ => (cellIdx a (Reg.PFX_DOM_CFG 0) 4 4096).map (fun d => setBits (s.stg a).toNat 4 4 (keygen s d)),
    fun _ => (cellIdx a (Reg.SCH_CTX_STATE_CNT 0) 4 5).map (fun i =>
      match i with
      | 0 => 16384 - s.sch.ctxs.length
      | 1 => (s.sch.ctxs.filter (fun c => c.2.st == .idle)).length
      | 2 => (s.sch.ctxs.filter (fun c => c.2.st == .ready)).length
      | 3 => (s.sch.ctxs.filter (fun c => c.2.st == .running)).length
      | _ => (s.sch.ctxs.filter (fun c => c.2.st == .frozen)).length),
    fun _ => (cellIdx a (Reg.SCH_BIN_READY 0) 4 13).map (fun b =>
      (s.sch.ctxs.filter (fun c => c.2.st == .ready && binOf (c.2.length + 1) == b)).length)]

/-- EVF and ESP. -/
def viewEvent (s : State) (a : Nat) : Option Nat :=
  let e := s.fld Reg.EVF_EPOCH 0 1
  firstView [
    fun _ => (cellIdx a (Reg.EVF_INFLIGHT 0) 4 2).map (inflightOf s),
    fun _ => (cellIdx a (Reg.EVF_CORE_STATUS 0) 4 512).map (fun c =>
      let x := s.core c
      x.epoch % 256 + 256 * x.slot.getD 0 + 2 ^ 18 * b2n x.asleep + 2 ^ 19 * b2n (s.flt.retired.contains (4, c)) +
        2 ^ 20 * b2n x.loading.isSome + 2 ^ 21 * b2n x.slot.isSome),
    fun _ => (cellIdx a (Reg.EVF_ROUTER_USED 0) 4 513).map (fun r =>
      let n := if r = 512 then 0x3FF else r
      let count := fun (b : Nat) => (s.fab.routes.filter (fun x => x.node == n && x.bank == b)).length
      count e + 2 ^ 16 * count (1 - e)),
    fun _ => (cellIdx a (Reg.ESP_FIFO_LEVEL 0) 0x100 2).map (fun p => (s.port p).fifo.length)]

/-- The index of a route entry whose register an address is (12, Table LNK-9). -/
def routeReg (a : Nat) : Option Nat :=
  firstView [
    fun _ => cellIdx a (Reg.LNK_RT_ROW 0) 8 32,
    fun _ => (cellIdx a (Reg.LNK_RT_CHASSIS 0) 8 64).map (· + 32),
    fun _ => (cellIdx a (Reg.LNK_RT_SLED 0) 8 16).map (· + 96)]

/-- A route entry as staged: a held write, or the other bank's entry (12, R262). -/
def stagedRoute (s : State) (i : Nat) : DWord :=
  match s.lnk.held.reverse.find? (fun w => w.1 == i) with
  | some w => w.2
  | none => routeEntry s (1 - s.lnkE) i

/-- The stored ledger record that HIE_LDG_SEL names, and how many are held for its node (13, R285; log entry 107). -/
def ledgerSel (s : State) : Option (List Word) × Nat :=
  let node := s.fld Reg.HIE_LDG_SEL 0 16
  let l := s.hie.ledger.filter (fun r => r.1 / 2 ^ 32 == node)
  ((l.find? (fun r => r.1 % 4096 == s.fld Reg.HIE_LDG_SEL 16 12)).map (·.2), l.length)

/-- LNK and HIE. -/
def viewLink (s : State) (a : Nat) : Option Nat :=
  if a = Reg.HIE_POOL then some (freeIds s + 65536 * (heldBlocks s).length)
  else if a = Reg.HIE_LDG_STATUS then some (b2n (ledgerSel s).1.isSome + 65536 * (ledgerSel s).2)
  else firstView [
    fun _ => (cellIdx a (Reg.LNK_INFLIGHT 0) 4 2).map (bankFlits s),
    fun _ => (routeReg a).map (fun i => (stagedRoute s i).toNat),
    fun _ => (cellIdx a (Reg.HIE_LDG_DATA 0) 4 16).map (fun i => (((ledgerSel s).1.getD []).getD i 0).toNat)]

/-- Bit per retired unit of a type, 32 to a word. -/
def retiredWord (s : State) (t w : Nat) : Nat :=
  sumOf (s.flt.retired.filter (fun r => r.1 == t && r.2 / 32 == w)) (fun r => 2 ^ (r.2 % 32))

/-- NRG and FLT. -/
def viewFlt (s : State) (a : Nat) : Option Nat :=
  if a = Reg.NRG_PENDING then some (pendingBit s Reg.NRG_COMMIT nrgGroup)
  else if a = Reg.FLT_RET_MISC 2 then some (retiredWord s 8 0 % 256 + 256 * (retiredWord s 9 0 % 16) + 4096 * (retiredWord s 10 0 % 2))
  else if a = Reg.IST_COV_AGE_S then some (coverAge s)
  else firstView [
    fun _ => (cellIdx a (Reg.FLT_RET_CL 0) 4 4).map (retiredWord s 3),
    fun _ => (cellIdx a (Reg.FLT_RET_EVC 0) 4 16).map (retiredWord s 4),
    fun _ => (cellIdx a (Reg.FLT_RET_PCH 0) 4 8).map (retiredWord s 0),
    fun _ => (cellIdx a (Reg.FLT_RET_LANE 0) 4 5).map (retiredWord s 1),
    fun _ => (cellIdx a (Reg.FLT_RET_FLS 0) 4 4).map (retiredWord s 6),
    fun _ => (cellIdx a (Reg.FLT_RET_MISC 0) 4 2).map (retiredWord s 5)]

/-- Sixteen pixels of NEXT (21, R439): zone 0 below byte 4,000. -/
def panelWord (s : State) (o : Nat) : Nat :=
  let i := s.pnlNext (if o < 4000 then 0 else 1)
  sumOf (List.range 16) (fun k => 4 ^ k * (i.level (4 * o + k) % 4))

/-- The Lodge window. -/
def viewLodge (s : State) (a : Nat) : Option Nat :=
  if a = Reg.ADC_PENDING then some (pendingBit s Reg.ADC_SD_COMMIT sdGroup + 2 * pendingBit s Reg.ADC_IC_COMMIT icGroup)
  else if a = Reg.DEC_PENDING then some (pendingBit s Reg.DEC_COMMIT decGroup)
  else if a = Reg.DEC_CAP_DATA then some (mgetD s.dec.cap 0 (s.fld Reg.DEC_CAP_SEL 0 13)).toNat
  else if a = Reg.MTR_STATUS then some (setBits (s.rdN a) 0 1 (pendingBit s Reg.MTR_COMMIT mtrGroup))
  else if a = Reg.PNL_PENDING then some (pendingBit s Reg.PNL_COMMIT pnlGroup)
  else firstView [
    fun _ => (cellIdx a (Reg.MTR_HARM_DATA 0) 4 33).map (harmWord s),
    fun _ => (cellIdx a 0x148000 4 7500).map (fun i => panelWord s (4 * i))]

/-- The log-ring mirror (23, Table FW-7): record `SEQ mod 1,024` at 64 × that. -/
def logWord (s : State) (i w : Nat) : Nat :=
  match s.log.find? (fun r => r.seq % 1024 == i) with
  | none => 0
  | some r => match w with
    | 0 => r.seq
    | 1 => r.sev + 256 * (r.code / 256 % 256) + 65536 * r.code
    | 2 => r.tb % 2 ^ 32
    | 3 => r.tb / 2 ^ 32
    | 4 => r.status.toNat
    | 5 => r.tenant + 65536 * r.unit
    | _ => r.args.getD (w - 6) 0

/-- A cell of PF BAR0 that follows from other state. -/
def viewCell (s : State) (a : Nat) : Option Nat :=
  match a / 65536 with
  | 1 => viewClk s a
  | 2 => viewHif s a
  | 3 => viewAdm s a
  | 4 | 6 | 7 => viewMem s a
  | 9 | 10 => viewEvent s a
  | 11 | 12 => viewLink s a
  | 13 | 15 => viewFlt s a
  | 17 | 18 | 19 | 20 => viewLodge s a
  | 32 => (cellIdx a 0x200000 4 16384).map (fun i => logWord s (i / 16) (i % 16))
  | _ => none

/-- The word at a PF BAR0 address now: a WO field reads zero, a staged field its staged value, and what no register covers reads
zero (00, R8, R9; 27, R546). -/
def liveWord (s : State) (a : Nat) : Word :=
  let half := fun (v : DWord) (hi : Bool) => v.extractLsb' (if hi then 32 else 0) 32
  match regRow a with
  | some r =>
    let (c, hi) := r.cell a
    match viewCell s c with
    | some v => half (BitVec.ofNat 64 v) hi
    | none =>
      let g := BitVec.ofNat 64 r.stg
      half (((s.rd c &&& ~~~g) ||| (s.stg c &&& g)) &&& ~~~(BitVec.ofNat 64 r.wo)) hi
  | none => BitVec.ofNat 32 ((viewCell s a).getD 0)

/-! ### Wide registers (00, R6) -/

/-- Registers wider than 64 bits and record views: base, stride, how many, and their words. -/
def wideRegs : List (Nat × Nat × Nat × Nat) := [
  (Reg.ADM_POLICY 0 0, 16, 64, 4), (Reg.HIE_RESERVE 0, 16, 1, 4), (Reg.HIE_LDG_DATA 0, 64, 1, 16), (Reg.FLT_LDG_DATA 0, 64, 1, 16),
  (Reg.FLT_RET_CL 0, 16, 1, 4), (Reg.FLT_RET_EVC 0, 64, 1, 16), (Reg.FLT_RET_PCH 0, 32, 1, 8), (Reg.FLT_RET_LANE 0, 20, 1, 5),
  (Reg.FLT_RET_FLS 0, 16, 1, 4), (Reg.FLT_RET_MISC 0, 8, 1, 2), (Reg.FW_TRACE_DATA 0, 32, 1, 8), (Reg.FW_DIGEST 0, 48, 1, 12),
  (Reg.MTR_HARM_DATA 0, 132, 1, 33), (Reg.MTR_EVT 0 0, 32, 64, 8), (Reg.HLD_LAST 0, 32, 1, 8)]

/-- The same in a tenant window. -/
def wideTw : List (Nat × Nat × Nat × Nat) := [(Reg.TW_CTX_DATA 0, 256, 1, 64), (Reg.TW_EV_CORE_MAP 0, 64, 1, 16), (Reg.TW_WIN_HDR 0 0, 32, 64, 8)]

/-- The lowest word of the wide register that an address belongs to, and its words. -/
def wideOf (l : List (Nat × Nat × Nat × Nat)) (row : Option RegRow) (a : Nat) : Option (Nat × Nat) :=
  match l.find? (fun w => decide (w.1 ≤ a) && decide ((a - w.1) / w.2.1 < w.2.2.1) && decide ((a - w.1) % w.2.1 / 4 < w.2.2.2)) with
  | some w => some (a - (a - w.1) % w.2.1, w.2.2.2)
  | none => match row with
    | some r => if r.wide then some ((r.cell a).1, 2) else none
    | none => none

/-- The latch of a wide register for a requester. -/
def latchOf (s : State) (req : Nat) (win : Option Nat) (lo : Nat) : Option Latch :=
  s.latches.find? (fun l => l.requester == req && l.window == win && l.addr == lo)

/-- Replace a requester's latch of a wide register. -/
def setLatch (req : Nat) (win : Option Nat) (lo : Nat) (ws : Option (List Word)) (s : State) : State :=
  let keep := s.latches.filter (fun l => !(l.requester == req && l.window == win && l.addr == lo))
  { s with latches := match ws with | some ws => ⟨req, win, lo, ws⟩ :: keep | none => keep }

/-- Read a word of a wide register: its lowest word latches the higher ones; of a 64-bit register the next read of the high word
takes the latched one (R6; log entry 108). -/
def readWide (live : Nat → Word) (req : Nat) (win : Option Nat) (lo n a : Nat) (s : State) : Word × State :=
  if a = lo then (live a, setLatch req win lo (some ((List.range n).map (fun i => live (lo + 4 * i)))) s)
  else match latchOf s req win lo with
    | some l => (l.words.getD ((a - lo) / 4) 0, if n = 2 then setLatch req win lo none s else s)
    | none => (live a, s)

/-- The value registers of the feed meter, in the order in which MTR_CYC_SEQ latches them (19, R403). -/
def meterAddrs : List Nat :=
  [Reg.MTR_CYC_SEQ, Reg.MTR_CYC_FLAGS] ++ (List.range 24).map (fun k => Reg.MTR_VAL (k / 6) (k % 6)) ++ [Reg.MTR_IN, Reg.MTR_IN_CALC]

/-- The energy registers of a tenant window, in the order in which TW_NRG_SEQ latches them (20, R435). -/
def energyAddrs : List Nat :=
  [Reg.TW_NRG_SEQ, Reg.TW_NRG_LAST_UJ, Reg.TW_NRG_BUDGET_J, Reg.TW_NRG_K] ++
    ([Reg.TW_NRG_PERIOD_UJ, Reg.TW_NRG_TOTAL_UJ, Reg.TW_NRG_OVH_UJ, Reg.TW_NRG_OVER_UJ] ++ (List.range 7).map Reg.TW_NRG_ACT).flatMap (fun a => [a, a + 4])

/-- Read a word of PF BAR0 for a requester. -/
def readBar0 (req a : Nat) (s : State) : Word × State :=
  if a = Reg.MTR_CYC_SEQ then (liveWord s a, setLatch req none a (some (valueWords s)) s)
  else match (meterAddrs.findIdx? (fun x => x == a)).bind (fun i => (latchOf s req none Reg.MTR_CYC_SEQ).bind (fun l => l.words[i]?)) with
    | some w => (w, s)
    | none => match wideOf wideRegs (regRow a) a with
      | some (lo, n) => readWide (liveWord s) req none lo n a s
      | none => (liveWord s a, s)

/-! ### Tenant windows (27, Table REG-3) -/

/-- Words of a reply or notice (03, Table ADM-6). -/
def Reply.words (r : Reply) : List Nat :=
  [r.status.toNat, r.op + 256 * b2n r.deferFull + 512 * b2n r.rotated + 65536 * r.seq, r.amount, r.tenantId + 65536 * r.slot + 2 ^ 26 * r.st,
    r.token.toNat % 2 ^ 32, r.token.toNat / 2 ^ 32, r.ticket + 65536 * r.queuePos, r.estWaitMs, r.spill, r.held]

/-- Lease, mailbox and notices: the function's, whichever of its windows shows them (03, R553). -/
def viewFn (s : State) (f a : Nat) : Option Nat :=
  let n := s.fn f
  if a = Reg.TW_LEASE_STATUS then some (b2n n.leaseLive + 2 * s.fld Reg.HIF_HOST_ABSENT 0 1 + 4 * b2n n.wrStalled)
  else if a = Reg.TW_LEASE_LEFT then
    some (if n.leaseLive then min 65535 (max 1 (cdiv (n.leaseAt + 1000 * s.fnRd f Reg.TW_LEASE_PERIOD - s.tb) 1000)) else 0)
  else if a = Reg.TW_LEASE_PERIOD then some (s.fnRd f a)
  else if a = Reg.TW_MB_CTRL then some (2 * (if n.mbBusy then 1 else if n.mbReplied then 2 else 0) + 8 * b2n n.mbIgnored)
  else if a = Reg.TW_NTC_PROD then some n.ntcProd
  else if a = Reg.TW_NTC_CONS then some n.ntcCons
  else if 0x80000 ≤ a ∧ a < 0x80040 ∨ Reg.TW_MB_SPAN_CNT ≤ a ∧ a < 0x80184 then some (s.fnRd f a)
  else firstView [
    fun _ => (cellIdx a 0x80040 4 16).map (fun i => ((n.reply.map Reply.words).getD []).getD i 0),
    fun _ => (cellIdx a 0x81000 4 4096).map (fun i => (((mget n.notices (i / 16)).map Reply.words).getD []).getD (i % 16) 0)]

/-- Bit per event core of a tenant, 32 to a word. -/
def coreMapWord (s : State) (slot w : Nat) : Nat := sumOf ((coresOf s slot).filter (fun c => c / 32 == w)) (fun c => 2 ^ (c % 32))

/-- STATE of a queue (09, Table QUE-1). -/
def QState.code : QState → Nat
  | .unconfigured => 0
  | .active => 1
  | .stopped => 2
  | .error => 3

/-- A register of a local queue. -/
def viewQueue (s : State) (slot a : Nat) : Option Nat :=
  let q := fun (i : Nat) => s.que slot i
  firstView [
    fun _ => (cellIdx a (Reg.TW_DB_PROD 0) 0x10 16).map (fun i => (q i).prod),
    fun _ => (cellIdx a (Reg.TW_CQ_HEAD 0) 0x10 16).map (fun i => (q i).head),
    fun _ => (cellIdx a (Reg.TW_Q_STATUS 0) 0x40 16).map (fun i => (q i).st.code + 8 * b2n (q i).commit.isSome),
    fun _ => (cellIdx a (Reg.TW_CR_CONS 0) 0x40 16).map (fun i => (q i).cons),
    fun _ => (cellIdx a (Reg.TW_CQ_TAIL 0) 0x40 16).map (fun i => (q i).tail),
    fun _ => (cellIdx a (Reg.TW_Q_HELD 0) 0x40 16).map (fun i =>
      sumOf (((s.ten slot).map (fun t => t.held)).getD [] |>.filter (fun h => h.queue == i)) (fun h => h.entry.slots)),
    fun _ => (cellIdx a (Reg.TW_Q_GID 0) 0x40 16).map (fun i => (q i).gid)]

/-- A register of a tenant's own. -/
def viewTenant (s : State) (slot a : Nat) : Option Nat :=
  match s.ten slot with
  | none => none
  | some t =>
    if a = Reg.TW_ID then some (t.id + 65536 * slot + 2 ^ 26 * t.cls + 2 ^ 28 * t.st.code)
    else if a = Reg.TW_PIN_BYTES then some (pinUse s slot)
    else if a = Reg.TW_DURABLE_BYTES then some (durableUse s slot)
    else if a = Reg.TW_OBJECTS then some t.objs.length
    else if a = Reg.TW_PFX_PUB_BYTES then some (pubBytes s slot)
    else firstView [
      fun _ => (cellIdx a (Reg.TW_RESV 0) 4 12).map (t.vec.amount t.spill),
      fun _ => (cellIdx a (Reg.TW_USE 0) 8 5).map (fun i => if i = 0 then 0 else tierUse s slot i),
      fun _ => (cellIdx a (Reg.TW_EV_CORE_MAP 0) 4 16).map (coreMapWord s slot),
      fun _ => viewQueue s slot a]

/-- A cell of a window of a function that shows a slot: the registers of R553 are the function's, and so are the outcome counters
while it shows no tenant. -/
def winCell (s : State) (f : Nat) (pfWin : Bool) (slot : Option Nat) (a : Nat) : Nat :=
  match viewFn s f a with
  | some v => v
  | none => match slot with
    | some i => if a = Reg.TW_VEC_BASE ∧ !pfWin then 0 else (viewTenant s i a).getD (s.twRd i a)
    | none => if 0x2000 ≤ a ∧ a ≤ Reg.TW_OUT_LAST then s.fnRd f a else 0

/-- The word at a window address now. -/
def winWord (s : State) (f : Nat) (pfWin : Bool) (slot : Option Nat) (a : Nat) : Word :=
  match twRow a with
  | some r =>
    let (c, hi) := r.cell a
    BitVec.ofNat 32 ((BitVec.ofNat 64 (winCell s f pfWin slot c) &&& ~~~(BitVec.ofNat 64 (if c = Reg.TW_MB_CTRL then 0 else r.wo))).toNat / (if hi then 2 ^ 32 else 1))
  | none => BitVec.ofNat 32 (winCell s f pfWin slot a)

/-- The tag of a window's latches: PF tenant windows and VF windows by slot, the PF function window and a VF without a tenant apart. -/
def winTag (f : Nat) (slot : Option Nat) : Nat := match slot with | some i => i | none => 1024 + f

/-- Read a word of a function's window. -/
def readWin (req f : Nat) (pfWin : Bool) (slot : Option Nat) (a : Nat) (s : State) : Word × State :=
  let live := winWord s f pfWin slot
  let tag := some (winTag f slot)
  match slot, energyAddrs.findIdx? (fun x => x == a) with
  | some i, some k =>
    if k = 0 then (live a, setLatch req tag a (some (nrgWords s i)) s)
    else match (latchOf s req tag Reg.TW_NRG_SEQ).bind (fun l => l.words[k]?) with
      | some w => (w, s)
      | none => match wideOf wideTw (twRow a) a with
        | some (lo, n) => readWide live req tag lo n a s
        | none => (live a, s)
  | _, _ => match wideOf wideTw (twRow a) a with
    | some (lo, n) => readWide live req tag lo n a s
    | none => (live a, s)

/-! ### Which registers an access reaches -/

/-- The Lodge window. -/
def inLodge (a : Nat) : Bool := decide (0x100000 ≤ a ∧ a < 0x160000)

/-- Blocks served in SAFE, and to a locked service port (16, R350; 25, R522). -/
def servedInSafe (a : Nat) : Bool :=
  decide (a < 0x20000) || decide (0xE0000 ≤ a ∧ a < 0xF8000) || inLodge a || decide (0x200000 ≤ a ∧ a < 0x210000)

/-- The sled is in SAFE. -/
def inSafe (s : State) : Bool := s.rdN Reg.PWR_STATE == 5

/-- The housekeeping link carries register transactions (16, R343). -/
def hkUp (s : State) : Bool := s.bit Reg.PWR_HK_STATUS 0

/-- A read of PF BAR0 by the PF or the service port, from the package side. -/
def readPkg (req a : Nat) (s : State) : Word × State :=
  if inLodge a && !hkUp s then (0xFFFFFFFF, s.bump Reg.PWR_HK_DOWN_READS)
  else if 0x400000 ≤ a ∧ a < 0x500000 then readWin req 0 false none (a - 0x400000) s
  else readBar0 req a s

end Sys2Proof.Machine
end

