-- ==== Sys2Proof/Machine/QueueRegs.lean ====
section
/-! DEFINITION. Queue registers, and starting and stopping queue programs (09). -/

namespace Sys2Proof.Machine

/-- Run an effect on a local queue that a window write reaches. -/
def onQueue (f : Nat) (win : Option Nat) (q : Nat) (body : Nat → Queue → State → State) (s : State) : Out :=
  onWindow f win (fun slot s => match (s.ten slot).bind (fun t => mget t.queues q) with
    | some k => body slot k s
    | none => s) s

/-- The ring's size; none without a committed configuration. -/
def Queue.ringSize (k : Queue) : Nat := if k.st = .active ∨ k.st = .error ∨ 0 < k.replaying then 2 ^ k.cfg.crLog else 0

/-- TW_DB_PROD_WRITE (R190): a value behind CR_CONS or more than the ring size ahead is ignored and counted. -/
def execTwDbProdWrite (f : Nat) (win : Option Nat) (q : Nat) (value : Word) (s : State) : Out :=
  onQueue f win q (fun slot k s =>
    let s := if k.ringSize < (value.toNat + 2 ^ 32 - k.cons) % 2 ^ 32 then s.twBump slot Reg.TW_Q_DB_BAD
      else s.updQue slot q (fun k => { k with prod := value.toNat })
    wake (progKey slot q) 1 s) s

/-- TW_CQ_HEAD_WRITE (R195): a value behind the previous one or ahead of CQ_TAIL is ignored and counted; room in the
ring lets held completions go. -/
def execTwCqHeadWrite (f : Nat) (win : Option Nat) (q : Nat) (value : Word) (s : State) : Out :=
  onQueue f win q (fun slot k s =>
    if (k.tail + 2 ^ 32 - k.head) % 2 ^ 32 < (value.toNat + 2 ^ 32 - k.head) % 2 ^ 32 then s.twBump slot Reg.TW_Q_DB_BAD
    else replayAll slot q (s.updQue slot q (fun k => { k with head := value.toNat }))) s

/-- Add a signed 32-bit value to a semaphore of a queue (R199, R200). -/
def queueSignal (slot q sem : Nat) (d : Word) (s : State) : State :=
  let s := s.updQue slot q (fun k => { k with sems := mputD k.sems 0 sem (mgetD k.sems 0 sem + d.signExtend 64) })
  if d = 0 then s else wake (progKey slot q) 2 s

/-- TW_QSIG_WRITE (R199): adds to semaphore 0. -/
def execTwQsigWrite (f : Nat) (win : Option Nat) (q : Nat) (value : Word) (s : State) : Out :=
  onQueue f win q (fun slot _ s => wake (progKey slot q) 1 (queueSignal slot q 0 value s)) s

/-- The staged configuration of a queue. -/
def stagedCfg (s : State) (slot q : Nat) : QCfg :=
  let c := s.twRd slot (Reg.TW_Q_CFG q)
  ⟨s.twRd slot (Reg.TW_CR_BASE q), s.twRd slot (Reg.TW_CQ_BASE q), s.twRd slot (Reg.TW_CQ_WB q), bits c 0 5, bits c 8 5, bits c 16 6, bits c 22 10⟩

/-- A configuration in range (Table QUE-9; log entry 56). -/
def QCfg.ok (c : QCfg) : Bool :=
  decide (4 ≤ c.crLog) && decide (c.crLog ≤ 16) && decide (4 ≤ c.cqLog) && decide (c.cqLog ≤ 16) && decide (c.modUs ≤ 1000) &&
    c.crBase % 4096 == 0 && c.cqBase % 4096 == 0 && c.wb % 4 == 0

/-- TW_Q_COMMIT (R189): at once when the queue is not ACTIVE, otherwise at an empty ring. -/
def execTwQCommit (f : Nat) (win : Option Nat) (q : Nat) (value : Word) (s : State) : Out :=
  onQueue f win q (fun slot k s =>
    let c := stagedCfg s slot q
    if !value.getLsbD 0 || !c.ok || k.st == .stopped then s
    else if k.st = .active ∧ k.prod ≠ k.cons then s.updQue slot q (fun k => { k with commit := some c })
    else applyQueueCommit slot q c s) s

/-- VECTOR_MODERATION_EXPIRE (R195): a raise that fell due inside the interval is made at its end. -/
def execVectorModerationExpire (slot q : Nat) (s : State) : Out :=
  onUnit (decide (slot < 1024) && decide (q < 16)) (
    let k := s.que slot q
    if k.raiseDue ∧ k.modUntil ≤ s.tb then
      raiseTen slot k.cfg.vector (s.updQue slot q (fun k => { k with raiseDue := false, modUntil := s.tb + k.cfg.modUs }))
    else s)

/-- HELD_SLOT_FREED (R197): what waited for a held-store slot may start. -/
def execHeldSlotFreed (slot q : Nat) (s : State) : Out :=
  onUnit (decide (slot < 1024) && decide (q < 16)) (match s.ten slot with
    | none => s
    | some t =>
      if s.heldFree slot = 0 then s
      else
        (if (mgetD t.queues {} q).slotWait then s.updQue slot q (fun k => { k with slotWait := false }) else s).updProg (progKey slot q)
          (fun p => { p with slotWait := false }))

/-! ### QPROG_RUN and QPROG_STOP (R201, R202) -/

/-- QPROG_RUN. -/
def bodyQprogRun (id : Nat) (r : CmdRec) (s : State) : State :=
  withObj id r.w08 false 0 0 (fun n s =>
    match s.flight id with
    | none => s
    | some f =>
      let key := progKey f.slot f.queue
      if (s.prog key).isSome then finish id ⟨0x24, 0x0A, 0⟩ 0 s
      else match codeOf n.obj, exhausted s f.slot with
        | none, _ => finish id cmdFault 0 s
        | _, some d => refuseEnergy id d s
        | some code, none =>
          let args := [(1, r.w10), (2, r.w18), (3, r.w20), (4, r.w28), (5, r.w30), (6, r.w38), (7, BitVec.ofNat 64 f.queue)]
          qGoTo key 0 (s.setProg key {
            slot := f.slot, queue := f.queue, engine := (s.que f.slot f.queue).engine, obj := r.w08, code := code,
            regs := ⟨args.filter (fun a => a.2 != 0), [], []⟩, flight := id })) s

def execQprogRun (slot q : Nat) (rec : CmdRec) (s : State) : Out :=
  onUnit (decide (slot < 1024) && decide (q < 16)) (ringCmd 0x20 slot q rec bodyQprogRun s)

/-- QPROG_STOP has no operands; a sleeping program stops at once, another at its next fence point; the command is DONE at
once (log entry 57). -/
def bodyQprogStop (id : Nat) (_r : CmdRec) (s : State) : State :=
  match s.flight id with
  | none => s
  | some f =>
    let key := progKey f.slot f.queue
    let s := finish id ⟨0, 0, 0⟩ 0 s
    match s.prog key with
    | none => s
    | some p =>
      if p.parked.isSome || p.stopped then quitProg key ⟨0x34, 0, 0⟩ 0 s
      else s.setProg key { p with stopReq := some s.tb, stopEnd := true }

def execQprogStop (slot q : Nat) (rec : CmdRec) (s : State) : Out :=
  onUnit (decide (slot < 1024) && decide (q < 16)) (ringCmd 0x21 slot q rec bodyQprogStop s)

/-- QPROG_FENCE_TIMEOUT (R201): no fence point within 10 ms of the request. -/
def execQprogFenceTimeout (key : Nat) (s : State) : Out :=
  .next (match (s.prog key).bind (fun p => p.stopReq) with
    | some t => if t + 10000 ≤ s.tb then stopHere key s else s
    | none => s)

end Sys2Proof.Machine
end

