-- ==== Sys2Proof/Machine/Sensors.lean ====
section
/-! DEFINITION. Sensor ports and count windows (11): wire words, settings, I3C, window commands and boundaries, camera
supply. -/

namespace Sys2Proof.Machine

/-! ### Owner and supply (R231, R243, R244, R520) -/

/-- A port leaves its owner: no mapping, an empty FIFO, staged work ABORTED_BY_TENANT (R231, R244). -/
def portClear (p : Nat) (s : State) : State :=
  let x := s.port p
  let s := match x.staged with | some l => finish l.flight replaced 0 s | none => s
  let s := match x.nextMap with | some (f, _, _) => finish f replaced 0 s | none => s
  s.updPort p (fun x => { x with map := none, nextMap := none, staged := none, fifo := [], above := none })

/-- A write of ESP_OWNER by the PF: a tenant without keys gets 4,096, or the write is ignored (R231). -/
def ownerWrite (p v : Nat) (s : State) : State :=
  let old := s.rdN (Reg.ESP_OWNER p)
  let before := portOwner s p
  let refused := s.setBit (Reg.ESP_STATUS p) 3 true
  let set := fun (s : State) =>
    let s := (notePst s (Reg.ESP_OWNER p) (s.rd (Reg.ESP_OWNER p))).putN (Reg.ESP_OWNER p) v
    let s := portClear p s
    match before with | some b => dropKeys b s | none => s
  if v = old then s
  else if v = 0 then set s
  else match s.slotOf v with
    | none => refused
    | some slot =>
      if keyLog s slot ≠ 0 then set s
      else match freeKeys s 12 with
        | some b => set (setKeys slot b 12 s)
        | none => refused

/-- ESP_OWNER_WRITE (R231). -/
def execEspOwnerWrite (port : Nat) (value : BitVec 16) (s : State) : Out := onUnit (decide (port < 2)) (ownerWrite port value.toNat s)

/-- The camera supply is on only while enabled, present and not tripped (R520). -/
def camSupply (p : Nat) (s : State) : State :=
  s.setBit (Reg.ESP_STATUS p) 0 (s.bit (Reg.ESP_CTRL p) 0 && s.bit Reg.LDG_STRAP (8 + p) && !(s.port p).tripped)

/-- ESP_OVERCURRENT_TRIP (R243). -/
def execEspOvercurrentTrip (port : Nat) (s : State) : Out :=
  onUnit (decide (port < 2))
    (if s.bit (Reg.ESP_STATUS port) 0 then
      camSupply port ((s.updPort port (fun x => { x with tripped := true })).setBit (Reg.ESP_STATUS port) 1 true)
    else s)

/-- CAM_PRESENCE_CHANGE (R520). -/
def execCamPresenceChange (port : Nat) (present : Bool) (s : State) : Out :=
  onUnit (decide (port < 2)) (camSupply port (s.setBit Reg.LDG_STRAP (8 + port) present))

/-! ### Wire words (R232 to R235) -/

/-- The receiver is locked. -/
def portLocked (s : State) (p : Nat) : Bool := s.bit (Reg.ESP_STATUS p) 2

/-- Lock is lost, counted (R233). -/
def loseLock (p : Nat) (s : State) : State :=
  let s := s.updPort p (fun x => { x with syncRun := 0 })
  if portLocked s p then (s.setBit (Reg.ESP_STATUS p) 2 false).bump (Reg.ESP_ALIGN_ERR p) else s

/-- A word that is not SYNC: nothing while the receiver is off; while unlocked it is discarded. -/
def onWord (p : Nat) (body : State → State) (s : State) : Out :=
  onUnit (decide (p < 2)) (
    if !s.bit (Reg.ESP_CTRL p) 1 then s
    else
      let s := s.bump (Reg.ESP_WORDS p)
      if portLocked s p then body s else s.updPort p (fun x => { x with syncRun := 0 }))

/-- A SYNC word (R233): 16 in a row lock; one out of alignment loses lock. Relocking makes a marker due. -/
def syncWord (p : Nat) (aligned : Bool) (s : State) : State :=
  if !s.bit (Reg.ESP_CTRL p) 1 then s
  else
    let s := s.bump (Reg.ESP_WORDS p)
    if portLocked s p then (if aligned then s else loseLock p s)
    else
      let n := (s.port p).syncRun + 1
      if n < 16 then s.updPort p (fun x => { x with syncRun := n })
      else
        let s := s.updPort p (fun x => { x with
          syncRun := 0, everLocked := true, above := if x.everLocked && x.above.isNone then some (s.tb, 0) else x.above })
        putMarker p (s.setBit (Reg.ESP_STATUS p) 2 true)

/-- ESP_SYNC_WORD (R233). -/
def execEspSyncWord (port : Nat) (aligned : Bool) (s : State) : Out := onUnit (decide (port < 2)) (syncWord port aligned s)

/-- ESP_IDLE_WORD (R233). -/
def execEspIdleWord (port : Nat) (s : State) : Out := onWord port id s

/-- ESP_EXT_WORD (R233). -/
def execEspExtWord (port : Nat) (s : State) : Out := onWord port (fun s => s.bump (Reg.ESP_EXT_WORDS port)) s

/-- ESP_CLOCK_LOSS (R233). -/
def execEspClockLoss (port : Nat) (s : State) : Out := onUnit (decide (port < 2)) (loseLock port s)

/-- A PIXEL word of a locked port (R234, R235): the words of a port without owner or mapping are discarded; a full FIFO,
a settings gap, the region and the polarity drop, each counted. -/
def pixelWord (p w : Nat) (s : State) : State :=
  let s := putMarker p (s.bump (Reg.ESP_PIX p))
  let x := s.port p
  match portOwner s p, x.map with
  | some slot, some m =>
    if portDepth ≤ x.fifo.length then dropWord p s
    else if x.settling then s.bump (Reg.ESP_SETTLE_DROP p)
    else match mapPixel m w with
      | .error .roi => s.bump (Reg.ESP_ROI_DROP p)
      | .error .pol => s.bump (Reg.ESP_POL_DROP p)
      | .ok (key, pay) =>
        let e : Ev := { word := evWord key pay 0 false true, ts := some (BitVec.ofNat 32 s.tb), slot := slot }
        s.updPort p (fun x => { x with fifo := x.fifo ++ [e] })
  | _, _ => s

/-- ESP_PIXEL_WORD (R235); `bits` is word bits 29 to 0. -/
def execEspPixelWord (port : Nat) (value : BitVec 30) (s : State) : Out := onWord port (pixelWord port value.toNat) s

/-- A TIME_HIGH word (R234). -/
def timeWord (p v : Nat) (s : State) : State :=
  let s := if v < s.rdN (Reg.ESP_SENSOR_TIME p) then s.bump (Reg.ESP_TIME_BACK p) else s
  (s.putN (Reg.ESP_SENSOR_TIME p) v).putN (Reg.ESP_SENSOR_TB p) s.tb

/-- ESP_TIME_HIGH_WORD (R234). -/
def execEspTimeHighWord (port : Nat) (value : BitVec 30) (s : State) : Out := onWord port (timeWord port value.toNat) s

/-- ESP_STATUS_WORD (R234). -/
def execEspStatusWord (port : Nat) (value : BitVec 30) (s : State) : Out :=
  onWord port (fun s =>
    let s := s.putN (Reg.ESP_SENSOR_STATUS port) value.toNat
    if value.getLsbD 29 then s.setBit (Reg.ESP_STATUS port) 4 true else s) s

/-- ESP_OVERRUN_MARKER (R237). -/
def execEspOverrunMarker (port : Nat) (s : State) : Out := onUnit (decide (port < 2)) (putMarker port s)

/-! ### ESP_MAP and ESP_I3C (R236, R242) -/

/-- The port is the tenant's. -/
def holdsPort (s : State) (slot p : Nat) : Bool := portOwner s p == some slot
/-- The group is the tenant's. -/
def holdsGroup (s : State) (slot g : Nat) : Bool := match mget s.groups g with | some x => x.slot == slot | none => false

/-- ESP_MAP: staged for its governing group's boundary, in place of one not yet applied. -/
def bodyEspMap (id : Nat) (r : CmdRec) (s : State) : State :=
  let slot := slotOfFlight s id
  let a := r.w18.toNat
  let p := bits a 0 1
  let m : PixMap := {
    sx := bits a 4 4, sy := bits a 8 4, pol := bits a 12 2, group := bits a 16 6, base := bits a 32 20,
    x0 := bits r.w20.toNat 0 14, x1 := bits r.w20.toNat 16 14, y0 := bits r.w20.toNat 32 14, y1 := bits r.w20.toNat 48 14,
    marker := bits r.w28.toNat 0 20, settle := bits r.w28.toNat 32 16 }
  if !holdsPort s slot p || !holdsGroup s slot m.group then finish id evDenied 0 s
  else if m.x1 < m.x0 ∨ m.y1 < m.y0 ∨ 13 < m.sx ∨ 13 < m.sy ∨ 10000 < m.settle then finish id evPolicy 0 s
  else if !ownsKeys s slot m.base (m.top - m.base + 1) || !ownsKeys s slot m.marker 1 then finish id evPolicy 0 s
  else
    let s := match (s.port p).nextMap with | some (f, _, _) => finish f replaced 0 s | none => s
    s.updPort p (fun x => { x with nextMap := some (id, s.tb, m) })

/-- ESP_MAP (R242). -/
def execEspMap (slot q : Nat) (rec : CmdRec) (s : State) : Out :=
  onUnit (decide (slot < 1024) && decide (q < 16)) (ringCmd 0x38 slot q rec bodyEspMap s)

/-- ESP_I3C: the list is read from its object. -/
def bodyEspI3c (id : Nat) (r : CmdRec) (s : State) : State :=
  let p := bits r.w18.toNat 0 1
  let n := bits r.w18.toNat 8 7
  if n = 0 ∨ 64 < n then finish id evPolicy 0 s
  else withObj id r.w08 false 0 (8 * n) (fun o s =>
    if !holdsPort s (slotOfFlight s id) p then finish id evDenied 0 s
    else
      let s := s.updFlight id (fun f => { f with args := [o.slot, o.idx, p, n, b2n (r.w18.getLsbD 1)] })
      accessReady id (promoteFor id o.slot o.idx (mustPromote o.obj 0 (8 * n) false) s)) s

/-- ESP_I3C (R236). -/
def execEspI3c (slot q : Nat) (rec : CmdRec) (s : State) : Out :=
  onUnit (decide (slot < 1024) && decide (q < 16)) (ringCmd 0x39 slot q rec bodyEspI3c s)

/-- I3C_NACK_RETRY (R236): 1 ms after the first attempt the list fails at this entry, else it is tried again. -/
def i3cNack (p : Nat) (s : State) : State :=
  match (s.port p).run with
  | none => s
  | some l =>
    if l.since + 1000 ≤ s.tb then closeList p l ⟨0x44, 6, 1⟩ 0 (s.setFld (Reg.ESP_I3C_STATUS p) 1 6 l.idx)
    else s.emit (.i3c p (l.entries[l.idx]?.getD 0))

/-- I3C_NACK_RETRY (R236). -/
def execI3cNackRetry (port : Nat) (s : State) : Out := onUnit (decide (port < 2)) (i3cNack port s)

/-- I3C_TRANSFER_DONE (R236): a private read's bytes are gathered for RESULT. -/
def i3cDone (p : Nat) (data : Word) (s : State) : State :=
  match (s.port p).run with
  | none => s
  | some l =>
    let e := (l.entries[l.idx]?.getD 0).toNat
    let got := if bits e 0 4 = 1 then (leBytes data.toNat (bits e 24 3)).map (·.toNat) else []
    let l := { l with idx := l.idx + 1, data := l.data ++ got, since := s.tb }
    if l.idx < l.entries.length then
      (s.updPort p (fun x => { x with run := some l })).emit (.i3c p (l.entries[l.idx]?.getD 0))
    else
      let result := if l.immediate && !l.data.isEmpty then (l.data.take 8).foldr (fun b n => b + 256 * n) 0 else l.epoch
      closeList p l ⟨0, 0, 0⟩ result s

/-- I3C_TRANSFER_DONE (R236). -/
def execI3cTransferDone (port : Nat) (data : Word) (s : State) : Out := onUnit (decide (port < 2)) (i3cDone port data s)

/-- ESP_SETTLE_END (R236). -/
def execEspSettleEnd (port : Nat) (s : State) : Out :=
  onUnit (decide (port < 2)) (match (s.port port).settleEnd with
    | some t => if t ≤ s.tb then s.updPort port (fun x => { x with settling := false, settleEnd := none }) else s
    | none => s)

/-- ESP_IBI (R236). -/
def execEspIbi (port : Nat) (payload : Word) (s : State) : Out :=
  onUnit (decide (port < 2)) (s.putN (Reg.ESP_IBI port) payload.toNat)

/-- ESP_HOT_JOIN: answered with ENTDAA, broadcast CCC 0x07 (R236). -/
def execEspHotJoin (port : Nat) (s : State) : Out := onUnit (decide (port < 2)) (s.emit (.i3c port 0x70002))

/-! ### Windows (R238 to R242) -/

/-- Two runs of taps meet. -/
def GroupCfg.meets (a b : GroupCfg) : Bool := decide (a.first < b.first + b.count) && decide (b.first < a.first + a.count)

/-- A tap of the run is bound to another group. -/
def tapsTaken (s : State) (g : Nat) (c : GroupCfg) : Bool :=
  s.groups.any (fun x => x.1 != g && (x.2.cfg.meets c || (match x.2.next with | some (some d) => d.meets c | _ => false)))

/-- WIN_CFG: a group that runs takes the change at its next boundary (R239). -/
def bodyWinCfg (id : Nat) (r : CmdRec) (s : State) : State :=
  let slot := slotOfFlight s id
  let g := bits r.w18.toNat 0 6
  let c : GroupCfg := ⟨bits r.w18.toNat 32 12, bits r.w18.toNat 48 13, bits r.w20.toNat 0 24, bits r.w20.toNat 32 24, bits r.w28.toNat 0 10⟩
  let done := finish id ⟨0, 0, 0⟩ 0
  match mget s.groups g, r.w18.getLsbD 6 with
  | none, true => finish id evDenied 0 s
  | some x, true => if x.slot ≠ slot then finish id evDenied 0 s else done (s.updGroup g (fun x => { x with next := some none }))
  | x, false =>
    if (match x with | some x => x.slot != slot | none => false) then finish id evDenied 0 s
    else if 4096 < c.first + c.count then finish id ⟨0x20, 6, c.first + c.count - 4096⟩ 0 s
    else if c.period < 10 ∨ 10000000 < c.period ∨ c.period ≤ c.phase ∨ min 1000 (c.period / 2) < c.late then finish id evPolicy 0 s
    else if tapsTaken s g c then finish id evPolicy 0 s
    else match x with
      | some _ => done (s.updGroup g (fun x => { x with next := some (some c) }))
      | none => done { s with groups := mput s.groups g { slot := slot, cfg := c, cur := newBank c (lastBoundary c s.tb) (settlingFor s slot) } }

/-- WIN_CFG (R239). -/
def execWinCfg (slot q : Nat) (rec : CmdRec) (s : State) : Out :=
  onUnit (decide (slot < 1024) && decide (q < 16)) (ringCmd 0x3A slot q rec bodyWinCfg s)

/-- WIN_RING (R241): the indices start again at 0. -/
def bodyWinRing (id : Nat) (r : CmdRec) (s : State) : State :=
  let slot := slotOfFlight s id
  let log := bits r.w20.toNat 0 5
  if log < 6 ∨ 16 < log then finish id evPolicy 0 s
  else
    let s := s.updTen slot (fun t => { t with winRing := some ({ base := r.w10.toNat, wb := r.w18.toNat, log := log, vec := bits r.w20.toNat 8 6 } : EvRing) })
    finish id ⟨0, 0, 0⟩ 0 ((s.twPut slot Reg.TW_WIN_HEAD 0).twPut slot Reg.TW_WIN_TAIL 0)

/-- WIN_RING (R241). -/
def execWinRing (slot q : Nat) (rec : CmdRec) (s : State) : Out :=
  onUnit (decide (slot < 1024) && decide (q < 16)) (ringCmd 0x3B slot q rec bodyWinRing s)

/-- WINDOW_BOUNDARY (R238, R239). -/
def execWindowBoundary (group : Nat) (s : State) : Out := onUnit (decide (group < 64)) (groupBoundary group s)

/-- WINDOW_FINALISE (R238, R241). -/
def execWindowFinalise (group : Nat) (s : State) : Out :=
  onUnit (decide (group < 64)) (match (mget s.groups group).bind (fun x => x.closing) with
    | some b => if b.start + b.len + b.cfg.late ≤ s.tb then finalise group s else s
    | none => s)

end Sys2Proof.Machine
end

