-- ==== Sys2Proof/Machine/Starts.lean ====
section
/-! DEFINITION. Meanings of the commands of clocks, power, starts and resets (16). -/

namespace Sys2Proof.Machine

/-! ### Requests of starts -/

/-- A write of HIF_RESTART with the key, during a start, is ignored and counted (R347); in RUN it begins one, and in any other
state there is nothing to restart. -/
def hostRestart (key : Nat) (start : State → State) (s : State) : Out :=
  let p := s.rdN Reg.PWR_STATE
  .next (if key ≠ 0x5A80 then s else if p = 3 then start s else s.bump Reg.RST_REQ_IGNORED)

/-- HIF_RESTART_WARM (R330, R345): without main power in its limits the start is cold (R344). -/
def execHifRestartWarm (key : Nat) (s : State) : Out :=
  hostRestart key (fun s => if s.rst.mainGood then beginQuiesce 2 s else beginStart 12 false (sayResign 0 s)) s

/-- HIF_RESTART_COLD (R330); a manager resigns first (13, R273). -/
def execHifRestartCold (key : Nat) (s : State) : Out := hostRestart key (fun s => beginStart 3 false (sayResign 0 s)) s

/-- MAIN_GOOD (R340): main has held 46 V for 10 ms; `sledEn` is the level of SLED_EN. -/
def execMainGood (sledEn : Bool) (s : State) : Out :=
  let s := { s with rst := { s.rst with mainGood := true, sledEn := sledEn, due := some (s.rst.due.getD 1) } }
  let s := (s.setBit Reg.PWR_DOMAIN 1 true).setBit Reg.HLD_STATUS 2 true
  .next (tryStart (supplyBack ((s.setBit Reg.PWR_DOMAIN 2 (!s.bit Reg.PWR_DOMAIN 0)).setBit Reg.LDG_STRAP 7 sledEn)))

/-- SLED_EN_DEASSERT (25, R516): while the MAIN domain is up, the main-loss sequence. -/
def execSledEnDeassert (s : State) : Out :=
  let s := { s with rst := { s.rst with sledEn := false, due := none } }.setBit Reg.LDG_STRAP 7 false
  .next (if s.rdN Reg.PWR_STATE ≤ 1 then s else mainSequence (lastLoss 0 0 s))

/-- QUIESCE_TIMEOUT (R345, R344). -/
def execQuiesceTimeout (s : State) : Out :=
  match s.rst.quiesce with
  | some (t, _) => if t + 50000 ≤ s.tb then .next (beginStart 12 false s) else .next s
  | none => .next s

/-- RAIL_REGULATION_TIMEOUT (R341): one retry of a rail, then step 1 fails with its number. -/
def execRailRegulationTimeout (rail : Nat) (s : State) : Out :=
  if 12 ≤ rail then .fault .noSuchUnit
  else if (mget s.rst.steps 1).isNone then .next s
  else if s.rst.railRetry.contains rail then .next (failStart 1 1 (rail + 1) s)
  else .next { s with rst := { s.rst with railRetry := rail :: s.rst.railRetry } }

/-- START_STEP_COMPLETE (R346); as step 0, the end of QUIESCE (R345), whose failure makes the start cold (R344). -/
def execStartStepComplete (n : Nat) (ok : Bool) (found : List Nat) (s : State) : Out :=
  if 15 ≤ n then .fault .noSuchUnit
  else if n = 0 then
    (match s.rst.quiesce with
      | some (_, cause) => .next (if ok then beginStart cause true s else beginStart 12 false s)
      | none => .next s)
  else if (mget s.rst.steps n).isNone then .next s
  else .next (endStep n ok found s)

/-- START_LIMIT_EXPIRE (R346): 60 s of a cold start, 10 s of a warm one. -/
def execStartLimitExpire (s : State) : Out :=
  let limit := if warmStart s then 10000000 else 60000000
  if s.rdN Reg.PWR_STATE = 2 ∧ s.rst.retry.isNone ∧ s.rst.began + limit ≤ s.tb then .next (failStart (s.fld Reg.RST_START_STATUS 0 4) 2 0 s)
  else .next s

/-- START_RETRY (R348): 1 s after a failed start. -/
def execStartRetry (s : State) : Out :=
  match s.rst.retry with
  | none => .next s
  | some (t, cause, warm) =>
    if s.tb < t + 1000000 then .next s
    else if cause = 16 then .next (enterSafe s)
    else .next (beginStart cause warm s)

/-- RST_SAFE_EXIT (R350). -/
def execRstSafeExit (key : Nat) (s : State) : Out :=
  if key ≠ 0x5AFE ∨ s.rdN Reg.PWR_STATE ≠ 5 then .next s
  else .next (beginStart 9 false (s.putN Reg.RST_FAILS 0))

/-! ### Clocks and temperature -/

/-- ROOT_LOCK_LOSS (R355): the MAIN rails go, the ledger records it, and a cold start follows once XTAL runs. -/
def execRootLockLoss (s : State) : Out :=
  if s.rdN Reg.PWR_STATE ≤ 1 then .next s
  else
    let s := ledgerAdd (ledgerRec s 3 15 0 1 0 0 []) (s.logRec 5 0x0102)
    .next (dueStart 11 (mainLost s))

/-- XTAL_STOP (R355). -/
def execXtalStop (s : State) : Out :=
  .next ({ s with rst := { s.rst with xtalOk := false } }.setBit Reg.CLK_STATUS 0 false |>.setBit Reg.CLK_STATUS 6 false)

/-- XTAL_RETURN (R355). -/
def execXtalReturn (s : State) : Out :=
  .next (tryStart ({ s with rst := { s.rst with xtalOk := true } }.setBit Reg.CLK_STATUS 0 true |>.setBit Reg.CLK_STATUS 6 true))

/-- OVERTEMP_TRIP (R356): latched; the rails go as after a main loss. -/
def execOvertempTrip (s : State) : Out :=
  let s := s.setBit Reg.PWR_STATUS 0 true
  if s.rdN Reg.PWR_STATE ≤ 1 then .next s
  else
    let s := mainSequence (lastLoss 0 0 s)
    .next { s with rst := { s.rst with due := some 10 } }

/-- OVERTEMP_CLEAR (R356): every die is below 85 °C. -/
def execOvertempClear (s : State) : Out := .next (tryStart (s.setBit Reg.PWR_STATUS 0 false))

/-- POWER_CAP_TICK (R337): a cap group in flight applies at the tick. -/
def execPowerCapTick (s : State) : Out :=
  let s := commitApply s Reg.PWR_CAP_COMMIT
  match (if s.bit Reg.PWR_HK_STATUS 0 then s.mtr.toCap else none) with
  | none => .next (s.setBit Reg.PWR_STATUS 1 true)
  | some mw =>
    let cap : Int := 1000 * s.rdN Reg.PWR_CAP_W
    let hyst : Int := 1000 * s.rdN Reg.PWR_CAP_HYST_W
    let k := s.fld Reg.CLK_THR_SRC 0 6
    let k' := if cap < mw then min 60 (k + (if 1250000 < mw then 4 else 1)) else if mw < cap - hyst then k - 1 else k
    let s := { s with mtr := { s.mtr with toCap := none } }
    .next (((s.setBit Reg.PWR_STATUS 1 false).setFld Reg.CLK_THR_SRC 0 6 k').setBit Reg.PWR_STATUS 2 (decide (0 < k')))

/-- THERM_K after a tick, from a die's hottest sensor in 1/16 °C. -/
def thermStep (s : State) (k : Nat) (t : Int) : Nat :=
  let c : Int := 16 * s.rdN Reg.PWR_THERM_C
  if c < t then min 60 (k + 1) else if t < c - 48 then k - 1 else k

/-- THERMAL_TICK (R338). -/
def execThermalTick (west east : Int) (s : State) : Out :=
  let w := thermStep s (s.fld Reg.CLK_THR_SRC 8 6) west
  let e := thermStep s (s.fld Reg.CLK_THR_SRC 16 6) east
  .next ((s.setFld Reg.CLK_THR_SRC 8 6 w).setFld Reg.CLK_THR_SRC 16 6 e)

/-! ### Housekeeping link (R343) -/

/-- The link retrains once more. -/
def hkRetrain (s : State) : State := (s.setBit Reg.PWR_HK_STATUS 1 true).bump Reg.PWR_HK_RETRAIN

/-- HK_TRANSACTION: a try of a transaction, or of a retrain while one runs, passes or fails. -/
def execHkTransaction (ok : Bool) (s : State) : Out :=
  let set := fun (n : Nat) (s : State) => { s with rst := { s.rst with hkRetries := n } }
  if !s.bit Reg.PWR_HK_STATUS 0 then .next s
  else if s.bit Reg.PWR_HK_STATUS 1 then
    if ok then .next (set 0 (s.putN Reg.PWR_HK_STATUS 1))
    else
      let n := s.fld Reg.PWR_HK_STATUS 2 2 + 1
      if 3 ≤ n then .next (hubFault 1 ⟨0, 0, 0⟩ (set 0 (s.putN Reg.PWR_HK_STATUS (4 * n))))
      else .next (hkRetrain (s.putN Reg.PWR_HK_STATUS (1 + 4 * n)))
  else if ok then .next (set 0 s)
  else
    let s := s.bump Reg.PWR_HK_CRC_ERR
    if 8 ≤ s.rst.hkRetries then .next (hkRetrain (set 0 s)) else .next (set (s.rst.hkRetries + 1) s)

/-! ### Unit resets (R351 to R353) -/

/-- RST_UNIT (R353). -/
def execRstUnit (type index key : Nat) (s : State) : Out := .next (rstUnit type index key s)

/-- UNIT_RESET_DEFERRED (R351). -/
def execUnitResetDeferred (type index : Nat) (s : State) : Out :=
  let key := unitKey type index
  if unitCount type ≤ index then .fault .noSuchUnit
  else if s.rst.deferred.contains key ∧ mgetD s.rst.resetAt 0 key + 1000 ≤ s.tb then
    .next (resetNow type index { s with rst := { s.rst with deferred := s.rst.deferred.filter (· != key) } })
  else .next s

/-- RESET_NOTICE (R352). -/
def execResetNotice (type index : Nat) (s : State) : Out :=
  if unitCount type ≤ index then .fault .noSuchUnit
  else match s.rst.notices.find? (fun n => n.type == type && n.index == index) with
    | none => .next s
    | some n => .next (noticeEnd n { s with rst := { s.rst with notices := s.rst.notices.filter (· != n) } })

end Sys2Proof.Machine
end

