-- ==== Sys2Proof/Machine/Registers.lean ====
section
/-! DEFINITION. Register accesses: reads, writes under the access codes, staged commits and persistent writes (00, R6 to R12; 27). -/

namespace Sys2Proof.Machine

/-! ### Ranges -/

/-- Fields that take only some values, by register: lowest bit, width and the values (log entry 109). -/
def fieldRules (a : Nat) : List (Nat × Nat × (Nat → Bool)) :=
  let range := fun (lo hi v : Nat) => decide (lo ≤ v ∧ v ≤ hi)
  if a = Reg.CLK_THR_FORCE then [(0, 6, range 0 60)]
  else if a = Reg.PWR_CAP_W then [(0, 11, range 300 1250)]
  else if a = Reg.PWR_CAP_HYST_W then [(0, 8, range 5 100)]
  else if a = Reg.PWR_THERM_C then [(0, 7, range 70 100)]
  else if a = Reg.HIF_STALL_TO then [(0, 14, range 1 10000)]
  else if a = Reg.ADM_GRACE then [(0, 17, range 10 86400)]
  else if a = Reg.TIER_WM_LOW ∨ a = Reg.TIER_WM_HIGH then [(0, 32, range 512 65536)]
  else if a = Reg.TIER_T3_BACKOFF then [(0, 16, range 10 60000)]
  else if a = Reg.TIER_PEER_TO then [(0, 10, range 1 1000)]
  else if a = Reg.TIER_PEER_LOSS then [(0, 16, range 100 60000)]
  else if a = Reg.PFX_TTL then [(0, 17, range 1 64800)]
  else if a = Reg.PFX_MARGIN ∨ a = Reg.PFX_EARLY then [(0, 10, range 0 1000)]
  else if domGroup a then [(8, 16, range 0 64800)]
  else if a = Reg.SCH_HORIZON then [(0, 14, range 20 10000)]
  else if a = Reg.SCH_PREFILL_SHARE then [(0, 7, range 0 64)]
  else if a = Reg.SCH_AGE_MS then [(0, 14, range 10 10000)]
  else if a = Reg.LNK_ESC_WAIT then [(0, 7, range 1 100)]
  else if a = Reg.HIE_ROLL_CTRL then [(8, 5, range 1 16)]
  else if a = Reg.HIE_ROLL_CANARY then [(0, 32, range 1 16)]
  else if a = Reg.HIE_ROLL_SOAK_S then [(0, 32, range 60 86400)]
  else if a = Reg.HIE_ROLL_DRAIN_S then [(0, 32, range 0 3600)]
  else if a = Reg.HIE_ROLL_FAIL_MAX then [(0, 32, range 0 255)]
  else if a = Reg.NRG_PERIOD_S then [(0, 17, range 60 86400)]
  else if a = Reg.NRG_ADMIT_W then [(0, 11, range 100 1250)]
  else if a = Reg.NRG_STATIC_SHARE then [(0, 7, range 0 64)]
  else if a = Reg.NRG_PACE_STEP then [(0, 5, range 1 16)]
  else if Reg.NRG_COEF 0 ≤ a ∧ a < Reg.NRG_COEF 7 then [(0, 32, range 0 0x49742400)]
  else if a = Reg.FW_AUTO_CONFIRM_S then [(0, 17, fun v => v == 0 || range 60 86400 v)]
  else if a = Reg.FW_WDT_MS then [(0, 11, range 100 2000)]
  else if a = Reg.FLT_PRG_THRESH_US then [(0, 20, range 1 1000000)]
  else if a = Reg.HLD_RESERVE_UJ then [(0, 32, range 5000 100000)]
  else if a = Reg.PNL_CFG then [(16, 14, range 0 10000)]
  else if a = Reg.PNL_FL then [(0, 8, range 0 200)]
  else if a = Reg.PNL_FL_WAKE then [(0, 8, range 0 200), (8, 10, range 1 600)]
  else []

/-- A new value of a cell with each field that it takes out of range as it was. -/
def inRange (a : Nat) (old new : DWord) : DWord :=
  BitVec.ofNat 64 ((fieldRules a).foldl (fun v r => if r.2.2 (bits v r.1 r.2.1) then v else setBits v r.1 r.2.1 (bits old.toNat r.1 r.2.1)) new.toNat)

/-! ### Access codes (00, R8, Table DEV-6) -/

/-- A word written to a cell under its access codes: RW bits take it, RW1C bits clear where it is 1, STG bits go to the staged
copy, and RO, WO and reserved bits take nothing. -/
def storeWord (r : RegRow) (a : Nat) (w : Word) (s : State) : State :=
  let (c, hi) := r.cell a
  let place := fun (x : DWord) => if hi then x <<< 32 else x
  let half : DWord := place 0xFFFFFFFF
  let v := place (w.zeroExtend 64)
  let mask := fun (m : Nat) => BitVec.ofNat 64 m &&& half
  let old := s.rd c
  let new := inRange c old (((old &&& ~~~(mask r.rw)) ||| (v &&& mask r.rw)) &&& ~~~(v &&& mask r.rw1c))
  let s := if new = old then s else (notePst s c old).put c new
  if r.stg = 0 then s
  else
    let t := s.stg c
    let t := inRange c t ((t &&& ~~~(mask r.stg)) ||| (v &&& mask r.stg))
    { s with staged := if t = s.rd c then mdel s.staged c else mput s.staged c t }

/-- The same at a PF BAR0 address; nothing where no register is. -/
def storeBar0 (a : Nat) (w : Word) (s : State) : State :=
  match regRow a with
  | some r => storeWord r a w s
  | none => s

/-! ### Writes that act (27, Table REG-5) -/

/-- COMMIT: the group's values staged now go in flight (R10). -/
def commitBit (w : Word) (commit : Nat) (inGroup : Nat → Bool) (s : State) : State :=
  if w.getLsbD 0 then commitTake s commit inGroup else s

/-- CLK, PWR, RST and HIF. -/
def writeClk (a : Nat) (w : Word) (s : State) : Option State :=
  let v := w.toNat
  if a = Reg.PWR_CAP_COMMIT then some (commitBit w a capGroup s)
  else if a = Reg.RST_SAFE_EXIT then some (runOut (execRstSafeExit (bits v 0 16)) s)
  else if a = Reg.RST_UNIT then some (runOut (execRstUnit (bits v 0 4) (bits v 4 11) (bits v 16 16)) s)
  else if a = Reg.HIF_RESTART then
    some (if w.getLsbD 16 then runOut (execHifRestartCold (bits v 0 16)) s else runOut (execHifRestartWarm (bits v 0 16)) s)
  else none

/-- ADM, TIER, PFX and SCH; the safe point of quotas and rules is before the next evaluation (R555). -/
def writeMem (a : Nat) (w : Word) (s : State) : Option State :=
  let v := w.toNat
  let now := fun (g : Nat → Bool) => if w.getLsbD 0 then reevaluateAll (commitApply (commitTake s a g) a) else s
  if a = Reg.ADM_QUOTA_COMMIT then some (now quotaGroup)
  else if a = Reg.ADM_POLICY_COMMIT then some (now policyGroup)
  else if a = Reg.TIER_WM_COMMIT then some (commitBit w a wmGroup s)
  else if a = Reg.PFX_DOM_COMMIT then some (commitBit w a domGroup s)
  else if a = Reg.PFX_DOM_CTRL then
    some (match bits v 12 2 with
      | 1 => runOut (execPfxDomRotate (bits v 0 12)) s
      | 2 => runOut (execPfxDomPurge (bits v 0 12)) s
      | _ => s)
  else if a = Reg.SCH_COMMIT then some (commitBit w a schGroup s)
  else none

/-- ESP_CTRL: the supply after a fault returns once PWR_FAULT is cleared and PWR_EN written 1 (11, R243); a receiver that is off
is not locked. -/
def writeEspCtrl (p : Nat) (w : Word) (s : State) : State :=
  let s := storeBar0 (Reg.ESP_CTRL p) w s
  let s := if w.getLsbD 0 && !s.bit (Reg.ESP_STATUS p) 1 then s.updPort p (fun x => { x with tripped := false }) else s
  let s := camSupply p s
  if w.getLsbD 1 then s else (s.setBit (Reg.ESP_STATUS p) 2 false).updPort p (fun x => { x with syncRun := 0 })

/-- EVF and ESP. -/
def writeEvent (a : Nat) (w : Word) (s : State) : Option State :=
  if a = Reg.EVF_COMMIT then some (runOut (execEvfCommit w) s)
  else match cellIdx a (Reg.ESP_CTRL 0) 0x100 2 with
    | some p => some (writeEspCtrl p w s)
    | none => (cellIdx a (Reg.ESP_OWNER 0) 0x100 2).map (fun p => runOut (execEspOwnerWrite p (BitVec.ofNat 16 w.toNat)) s)

/-- LNK_NODE_ID: a bad node ID holds the ports down, and a good one frees those held (12, R257, Table LNK-4). -/
def writeNodeId (w : Word) (s : State) : State :=
  let was := s.bit Reg.LNK_NODE_ID 15
  let old := ownNode s
  let s := storeBar0 Reg.LNK_NODE_ID w s
  let now := s.bit Reg.LNK_NODE_ID 15
  if was = now then (if now || old == ownNode s then s else freeDup s)
  else (List.range 18).foldl (fun s p =>
    if !s.fitted p then s
    else if now then leavePort p 7 s
    else if s.portState p = 7 then (s.setBit (Reg.LNK_PORT_STATUS p) 25 false).setPort p (restPort s p) else s) s

/-- A word of a route entry (12, R261, R262). -/
def writeRoute (i : Nat) (hi : Bool) (w : Word) (s : State) : State :=
  let old := stagedRoute s i
  let v : DWord := if hi then w ++ old.extractLsb' 0 32 else old.extractLsb' 32 32 ++ w
  routeWriteAt i v s

/-- LNK. -/
def writeLnk (a : Nat) (w : Word) (s : State) : Option State :=
  if a = Reg.LNK_NODE_ID then some (writeNodeId w s)
  else if a = Reg.LNK_RT_COMMIT then some (runOut (execLnkRtCommit w) s)
  else match routeReg a, routeReg (a - 4) with
    | some i, _ => some (writeRoute i false w s)
    | none, some i => some (writeRoute i true w s)
    | none, none => (cellIdx a (Reg.LNK_PORT_CTRL 0) 0x100 18).map (fun p =>
        let s := runOut (execLnkPortEn p (w.getLsbD 0)) s
        let s := if w.getLsbD 1 then runOut (execLnkPortRetrain p) s else s
        if w.getLsbD 2 then runOut (execLnkPortFullEq p) s else s)

/-- HIE_CTRL: RESIGN, and a manager that may no longer be elected resigns (13, R274). -/
def writeHieCtrl (w : Word) (s : State) : State :=
  let s := storeBar0 Reg.HIE_CTRL w s
  if (w.getLsbD 1 || !w.getLsbD 0) && role s ≠ 0 then runOut execHieResign s else s

/-- HIE_ROLL_CTRL: PAR, then START, HALT and RESUME (13, R287); a START in this form knows no other sled (log entry 105). -/
def writeRollCtrl (w : Word) (s : State) : State :=
  let s := storeBar0 Reg.HIE_ROLL_CTRL w s
  let s := if w.getLsbD 0 then runOut (execRollStart [] [] []) s else s
  let s := if w.getLsbD 1 then runOut execRollHalt s else s
  if w.getLsbD 2 then runOut execRollResume s else s

/-- HIE and NRG. -/
def writeHie (a : Nat) (w : Word) (s : State) : Option State :=
  if a = Reg.HIE_CTRL then some (writeHieCtrl w s)
  else if a = Reg.HIE_ROLL_CTRL then some (writeRollCtrl w s)
  else if a = Reg.NRG_COMMIT then some (if w.getLsbD 0 then runOut execNrgCommit s else s)
  else (cellIdx a (Reg.HIE_SITE_SECRET 0) 4 8).map (fun i => runOut (execHieSiteSecretWrite i w) s)

/-- FW_UPD_CMD (23, Table FW-6); whether NOR programs and reads is drawn. -/
def writeUpdCmd (w : Word) (s : State) : State :=
  let (d, t) := s.draw
  let ok := d % 2 == 1
  match bits w.toNat 0 4 with
  | 1 => runOut execUpdBegin s
  | 2 => runOut (execUpdWrite ok) t
  | 3 => runOut execUpdEnd s
  | 4 => runOut (execUpdVerify ok) t
  | 5 => runOut (execUpdActivate (w.getLsbD 4)) s
  | 6 => runOut execUpdConfirm s
  | 7 => runOut execUpdAbort s
  | 8 => runOut execUpdRevert s
  | _ => s

/-- FW and FLT. -/
def writeFw (a : Nat) (w : Word) (s : State) : Option State :=
  let v := w.toNat
  if a = Reg.FW_UPD_CMD then some (writeUpdCmd w s)
  else if a = Reg.FW_TRACE_SEL then some (runOut (execFwTraceSelWrite v) s)
  else if a = Reg.FW_CERT_COMMIT then some (runOut (execFwCertCommit (bits v 0 16)) s)
  else if a = Reg.FLT_UNIT_SEL then some (runOut (execFltUnitSelWrite (bits v 0 4) (bits v 4 10)) s)
  else if a = Reg.FLT_LDG_SEL then some (runOut (execFltLdgSelWrite v) s)
  else none

/-- ADC_SYSCAL (17, R375). -/
def writeSyscal (v : Nat) (s : State) : State :=
  let ic := v.testBit 0
  match bits v 12 2 with
  | 1 => runOut (execAdcSyscalZero ic (bits v 1 3) (bits v 4 4) (bits v 8 3)) s
  | 2 => runOut (execAdcSyscalFull ic (bits v 1 3) (bits v 4 4) (bits v 8 3)) s
  | _ => s

/-- ADC. -/
def writeAdc (a : Nat) (w : Word) (s : State) : Option State :=
  let v := w.toNat
  if a = Reg.ADC_SD_COMMIT then some (if w.getLsbD 0 then runOut execAdcSdCommit s else s)
  else if a = Reg.ADC_IC_COMMIT then some (if w.getLsbD 0 then runOut execAdcIcCommit s else s)
  else if a = Reg.ADC_URG then
    let conv := if w.getLsbD 2 then none else some (bits v 0 2)
    some (if w.getLsbD 10 then runOut (execAdcUrgDrop conv (bits v 3 4) (bits v 7 3)) s
      else runOut (execAdcUrgFinish conv (bits v 3 4) (bits v 7 3)) s)
  else if a = Reg.ADC_CAL_CTRL then
    let s := storeBar0 a w s
    let s := if w.getLsbD 0 then runOut execAdcSdCalStart s else s
    some (if w.getLsbD 1 then runOut execAdcIcCalStart s else s)
  else if a = Reg.ADC_SYSCAL then some (writeSyscal v s)
  else if a = Reg.ADC_SYSCAL_SAVE then some (runOut (execAdcSyscalSave (bits v 0 16)) s)
  else none

/-- DEC_CTRL: SYNC, and ARM; writing ARM 0 disarms (18, R390). -/
def writeDecCtrl (w : Word) (s : State) : State :=
  let s := if w.getLsbD 0 then runOut execDecCtrlSync s else s
  if w.getLsbD 1 then runOut execDecCtrlArm s
  else { s with dec := { s.dec with syncs := s.dec.syncs.filter (fun x => !x.2) } }.setBit Reg.DEC_CTRL 1 false

/-- DEC and MTR. -/
def writeDec (a : Nat) (w : Word) (s : State) : Option State :=
  let v := w.toNat
  if a = Reg.DEC_COMMIT then some (if w.getLsbD 0 then runOut execDecCommit s else s)
  else if a = Reg.DEC_CTRL then some (writeDecCtrl w s)
  else if a = Reg.DEC_CAP_CTRL then some (if w.getLsbD 8 then runOut (execDecCaptureStart (bits v 0 8)) s else storeBar0 a w s)
  else if a = Reg.MTR_COMMIT then some (if w.getLsbD 0 then runOut execMtrCommit s else s)
  else if a = Reg.MTR_ECLR then some (runOut (execMtrEclr (bits v 0 16)) s)
  else if a = Reg.MTR_CAL then
    some (match bits v 0 2 with
      | 1 => runOut (execMtrCalGain (bits v 2 2) (bits v 8 8)) s
      | 2 => runOut (execMtrCalPhase (bits v 2 2) (bits v 8 8)) s
      | _ => s)
  else none

/-- PNL. -/
def writePnl (a : Nat) (w : Word) (s : State) : Option State :=
  let v := w.toNat
  if a = Reg.PNL_COMMIT then some (if w.getLsbD 0 then runOut execPnlCommit s else s)
  else if a = Reg.PNL_TBL_COMMIT then some (runOut (execPnlTblCommit (bits v 0 16)) s)
  else if a = Reg.PNL_BODY_OWN then some (runOut (execPnlBodyOwnWrite (bits v 0 2)) s)
  else if a = Reg.PNL_FL_WAKE then some (showLight (storeBar0 a w s))
  else if a = Reg.PNL_UPDATE then
    some (match bits v 0 2 with
      | 0 => runOut (execPnlUpdateFull 2 (bits v 2 2)) s
      | 1 => runOut (execPnlUpdatePartial 2 (bits v 2 2)) s
      | 2 => runOut (execPnlUpdateClear 2 (bits v 2 2)) s
      | _ => s)
  else (cellIdx a 0x148000 4 7500).map (fun i => runOut (execPnlFbWrite 2 (4 * i) w) s)

/-- A write that acts, by block. -/
def writeAct (a : Nat) (w : Word) (s : State) : Option State :=
  match a / 65536 with
  | 1 | 2 => writeClk a w s
  | 3 | 4 | 6 | 7 => writeMem a w s
  | 9 | 10 => writeEvent a w s
  | 11 => writeLnk a w s
  | 12 | 13 => writeHie a w s
  | 14 | 15 => writeFw a w s
  | 17 => writeAdc a w s
  | 18 | 19 => writeDec a w s
  | 20 => writePnl a w s
  | _ => none

/-- A word written at a PF BAR0 address. -/
def writeBar0 (a : Nat) (w : Word) (s : State) : State :=
  let a := a / 4 * 4
  match writeAct a w s with
  | some t => t
  | none => storeBar0 a w s

/-! ### Tenant windows -/

/-- The request record of a function's mailbox (03, Table ADM-5). -/
def mailRecord (s : State) (f : Nat) : Nat × AdmReq :=
  let w := fun (o : Nat) => s.fnRd f (0x80000 + o)
  let w0 := w 0
  (bits w0 0 8,
    { cls := bits w0 8 2, prio := bits w0 10 2, noDefer := w0.testBit 12, rotate := w0.testBit 13, seq := bits w0 16 16,
      domain := bits (w 4) 0 12, hbm := w 8, orang := w 0xC, wr := w 0x10, ctx := w 0x14, clu := w 0x18, evc := bits (w 0x1C) 0 16,
      queues := bits (w 0x1C) 16 8, link := bits (w 0x1C) 24 8, energy := w 0x20, maxWaitMs := w 0x24, holdS := w 0x28,
      tenantId := bits (w 0x2C) 0 16, ticket := bits (w 0x2C) 16 16, token := BitVec.ofNat 64 (w 0x30 + 2 ^ 32 * w 0x34) })

/-- TW_MB_CTRL: IGNORED clears, and GO sends the record (R59). -/
def writeMail (f : Nat) (win : Option Nat) (w : Word) (s : State) : State :=
  let s := if w.getLsbD 3 then s.updFn f (fun n => { n with mbIgnored := false }) else s
  let (op, req) := mailRecord s f
  if w.getLsbD 0 then mailboxGo op f win req s else s

/-- A word stored in a tenant's own registers under their access codes. -/
def storeTw (slot a : Nat) (w : Word) (s : State) : State :=
  match twRow a with
  | none => s
  | some r =>
    let (c, hi) := r.cell a
    let half := fun (m : Nat) => if hi then m / 2 ^ 32 else m % 2 ^ 32
    let old := s.twRd slot c
    let cur : Word := BitVec.ofNat 32 (half old)
    let rw : Word := BitVec.ofNat 32 (half (r.rw ||| r.stg))
    let one : Word := BitVec.ofNat 32 (half r.rw1c)
    let new := ((cur &&& ~~~rw) ||| (w &&& rw)) &&& ~~~(w &&& one)
    s.twPut slot c (setBits old (if hi then 32 else 0) 32 new.toNat)

/-- A write to the registers of a queue, doorbells included (27, Table REG-3). -/
def writeQueue (f : Nat) (win : Option Nat) (a : Nat) (w : Word) (s : State) : Option State :=
  [fun (_ : Unit) => (cellIdx a (Reg.TW_DB_PROD 0) 0x10 16).map (fun q => runOut (execTwDbProdWrite f win q w) s),
    fun _ => (cellIdx a (Reg.TW_CQ_HEAD 0) 0x10 16).map (fun q => runOut (execTwCqHeadWrite f win q w) s),
    fun _ => (cellIdx a (Reg.TW_QSIG 0) 0x10 16).map (fun q => runOut (execTwQsigWrite f win q w) s),
    fun _ => (cellIdx a (Reg.TW_Q_COMMIT 0) 0x40 16).map (fun q => runOut (execTwQCommit f win q w) s)].findSome? (fun f => f ())

/-- A word written at an offset of a window. -/
def writeWin (f : Nat) (win : Option Nat) (a : Nat) (w : Word) (s : State) : State :=
  let a := a / 4 * 4
  if !reaches s f win then s
  else if a = Reg.TW_LEASE then runOut (execTwLeaseWrite f win w) s
  else if a = Reg.TW_LEASE_PERIOD then runOut (execTwLeasePeriodWrite f win w) s
  else if a = Reg.TW_MB_CTRL then writeMail f win w s
  else if a = Reg.TW_NTC_CONS then runOut (execTwNtcConsWrite win f w) s
  else if 0x80000 ≤ a ∧ a < 0x80040 ∨ Reg.TW_MB_SPAN_CNT < a ∧ a < 0x80184 then s.fnPut f a w.toNat
  else if a = Reg.TW_MB_SPAN_CNT then s.fnPut f a (bits w.toNat 0 6)
  else match windowSlot s f win with
    | none => s
    | some slot =>
      if a = Reg.TW_CTX_SEL then runOut (execTwCtxSelWrite f win w) s
      else if a = Reg.TW_EV_HEAD then runOut (execTwEvHeadWrite f win w) s
      else if a = Reg.TW_VEC_BASE ∧ win = none then s
      else match writeQueue f win a w s with
        | some t => t
        | none =>
          if 0x20000 ≤ a ∧ a < 0x30000 ∧ ((s.ten slot).bind (fun t => mget t.queues ((a - 0x20000) / 0x40))).isNone then s
          else storeTw slot a w s

/-! ### Reads and writes of the PCIe port (15, Table HIF-3) -/

/-- Vectors of a function. -/
def vectorsOf (f : Nat) : Nat := if f = 0 then 2048 else 64

/-- A word of a function's MSI-X table or PBA. -/
def msixWord (s : State) (f off : Nat) : Word :=
  let n := s.fn f
  let pba := if f = 0 then 0x8000 else 0x800
  if off / 16 < vectorsOf f then
    if off % 16 = 12 then (if n.unmasked.contains (off / 16) then 0 else 1) else (mgetD n.msix 0 off).extractLsb' 0 32
  else if pba ≤ off ∧ off < pba + vectorsOf f / 8 then
    BitVec.ofNat 32 (sumOf (n.pendingVec.filter (fun v => v / 32 == (off - pba) / 4)) (fun v => 2 ^ (v % 32)))
  else 0

/-- A write to a function's MSI-X table; unmasking sends what is pending (R312). -/
def writeMsix (f off : Nat) (w : Word) (s : State) : State :=
  let v := off / 16
  if vectorsOf f ≤ v then s
  else if off % 16 = 12 then
    if w.getLsbD 0 then s.updFn f (fun n => { n with unmasked := n.unmasked.filter (fun x => x != v) })
    else runOut (execMsixUnmask f v) s
  else s.updFn f (fun n => { n with msix := mputD n.msix 0 off (w.zeroExtend 64) })

/-- A field of a function's configuration space. -/
def cfgWord (s : State) (t : RegTarget) : Nat :=
  match t with
  | .cfgCommand f => 2 * b2n (s.fn f).mse + 4 * b2n (s.fn f).bme
  | .cfgMsix f => vectorsOf f - 1 + 2 ^ 15 * b2n (s.fn f).msixEn
  | .cfgPower f => if (s.fn f).d3hot then 3 else 0
  | .cfgSriov => b2n (decide (0 < s.hif.vfs)) + 8 * b2n s.hif.vfMse + 65536 * s.hif.vfs
  | .cfgRebar => 6 + Nat.log2 (s.bar2 / 64)
  | .cfgAerUnc f => (s.fn f).aerUnc
  | .cfgAerCor f => (s.fn f).aerCor
  | _ => 0

/-- A blocking state may have ended: the function's queue and its pending messages go (R313, R323). -/
def mayTransmit (f : Nat) (s : State) : State := sendPending f (drainFn f s)

/-- SR-IOV Control: VF Enable with the number of VFs, which the write that sets it fixes; ignored in SAFE (R328; 16, R350). -/
def writeSriov (w : Word) (s : State) : State :=
  let n := bits w.toNat 16 16
  if inSafe s then s
  else if !w.getLsbD 0 then runOut execVfEnableClear s
  else if s.hif.vfs ≠ 0 then { s with hif := { s.hif with vfMse := w.getLsbD 3 } }
  else if 1 ≤ n ∧ n ≤ 31 then { s with hif := { s.hif with vfs := n, vfMse := w.getLsbD 3 } }
  else s

/-- A write of configuration space. -/
def writeCfg (t : RegTarget) (w : Word) (s : State) : State :=
  let v := w.toNat
  match t with
  | .cfgCommand f =>
    let s := if f = 0 then s.updFn f (fun n => { n with mse := w.getLsbD 1 }) else s
    if w.getLsbD 2 then mayTransmit f (s.updFn f (fun n => { n with bme := true })) else runOut (execBmeClear f) s
  | .cfgMsix f => sendPending f (s.updFn f (fun n => { n with msixEn := w.getLsbD 15 && !w.getLsbD 14 }))
  | .cfgPower f =>
    if bits v 0 2 = 3 then runOut (execD3hotEntry f) s
    else if bits v 0 2 = 0 then mayTransmit f (s.updFn f (fun n => { n with d3hot := false }))
    else s
  | .cfgSriov => writeSriov w s
  | .cfgRebar => if 6 ≤ v ∧ v ≤ 10 then { s with hif := { s.hif with bar2Next := 2 ^ v } } else s
  | .cfgAerUnc f => s.updFn f (fun n => { n with aerUnc := (BitVec.ofNat 32 n.aerUnc &&& ~~~w).toNat })
  | .cfgAerCor f => s.updFn f (fun n => { n with aerCor := (BitVec.ofNat 32 n.aerCor &&& ~~~w).toNat })
  | _ => s

/-- The function that an access names. -/
def targetFn : RegTarget → Nat
  | .window f _ _ | .msix f _ | .cfgCommand f | .cfgMsix f | .cfgPower f | .cfgAerUnc f | .cfgAerCor f => f
  | _ => 0

/-- The function exists: the PF, or a VF that VF Enable shows. -/
def fnThere (s : State) (f : Nat) : Bool := f == 0 || decide (f ≤ s.hif.vfs)

/-- An access names a function and a window that there can be. -/
def targetOk : RegTarget → Bool
  | .window f win _ => decide (f < 32) && (match win with | some i => decide (i < 1024) && f == 0 | none => true)
  | t => decide (targetFn t < 32)

/-- A read of a block that is not served in SAFE is zero, and a write to it does nothing (16, R350). -/
def served (s : State) (a : Nat) : Bool := !inSafe s || servedInSafe a

/-- The word an access reads; none completes as Unsupported Request (R310). -/
def readTarget (t : RegTarget) (s : State) : Option Word × State :=
  let yes := fun (x : Word × State) => (some x.1, x.2)
  match t with
  | .bar0 off =>
    if !reaches s 0 none then (none, s) else if !served s off then (some 0, s) else yes (readPkg 0 (off / 4 * 4) s)
  | .window f win off =>
    if !reaches s f none then (none, s)
    else if inSafe s then (some 0, s)
    else match win with
      | some i => if reaches s f win then yes (readWin f f true (some i) (off / 4 * 4) s) else (some 0, s)
      | none => yes (readWin f f false (windowSlot s f none) (off / 4 * 4) s)
  | .msix f off => if reaches s f none then (some (msixWord s f (off / 4 * 4)), s) else (none, s)
  | t => if fnThere s (targetFn t) then (some (BitVec.ofNat 32 (cfgWord s t)), s) else (none, s)

/-- WIDE_REGISTER_LOW_READ (R6), and every other read of a register word: what is read leaves, and the lowest word of a wide
register latches its higher words for the function that reads. -/
def execWideRegisterLowRead (target : RegTarget) (s : State) : Out :=
  let (w, t) := readTarget target s
  onUnit (targetOk target) (t.emit (.read (targetFn target) w.toList))

/-- A write of the package side's register port. -/
def writePkg (a : Nat) (w : Word) (s : State) : State :=
  if inLodge a && !hkUp s then s
  else if 0x400000 ≤ a ∧ a < 0x500000 then writeWin 0 none (a - 0x400000) w s
  else writeBar0 a w s

/-- REGISTER_WRITE (R7, R8): a write takes effect under the access codes of its register. -/
def execRegisterWrite (target : RegTarget) (value : Word) (s : State) : Out :=
  onUnit (targetOk target) (
    match target with
    | .bar0 off => if reaches s 0 none && served s off then writePkg off value s else s
    | .window f win off => if inSafe s then s else writeWin f win off value s
    | .msix f off => if reaches s f none then writeMsix f (off / 4 * 4) value s else s
    | t => if fnThere s (targetFn t) then writeCfg t value s else s)

/-! ### Commits and durability -/

/-- STAGED_COMMIT_APPLY (R10): the safe point of a group whose block names no row for it.  The groups of the decimation chain, the
meter, the ΣΔ converters and energy are applied by the rows of their own safe points. -/
def execStagedCommitApply (commit : Nat) (s : State) : Out :=
  .next (
    if !s.inflight.any (fun c => c.1 == commit) then s
    else if commit = Reg.ADM_QUOTA_COMMIT ∨ commit = Reg.ADM_POLICY_COMMIT then reevaluateAll (commitApply s commit)
    else if commit = Reg.TIER_WM_COMMIT then wmApply s
    else if commit = Reg.PFX_DOM_COMMIT ∨ commit = Reg.SCH_COMMIT ∨ commit = Reg.PWR_CAP_COMMIT then commitApply s commit
    else if commit = Reg.PNL_COMMIT then pnlApply s
    else if commit = Reg.ADC_IC_COMMIT then icSafe (pll s) s
    else s)

/-- PERSIST_WRITE_COMPLETE (R12): a write of FRAM or NOR is done; from now on the new value survives a loss of power. -/
def execPersistWriteComplete (target : Nat) (s : State) : Out :=
  .next (
    if target = Reg.ADC_SYSCAL_SAVE then
      match s.adc.saving with
      | some m => ({ s with adc := { s.adc with nvSys := m, saving := none } }).putN Reg.ADC_SYSCAL_SAVE_STATUS 1
      | none => s
    else if target = Reg.MTR_CAL then
      if s.mtr.saving then
        ({ s with
          mtr := { s.mtr with saving := false }
          nvOld := s.nvOld.filter (fun c => !(decide (Reg.MTR_K 0 ≤ c.1) && decide (c.1 < Reg.MTR_PHCAL 3))) }).setBit Reg.MTR_CAL_STATUS 3 true
      else s
    else { s with nvOld := mdel s.nvOld target })

end Sys2Proof.Machine
end

