-- ==== Sys2Proof/Machine/Connectors.lean ====
section
/-! DEFINITION. The sled's connectors (25): straps, the I3C sideband and its register view (27, R548 to R550), and the service port. -/

namespace Sys2Proof.Machine

/-- What the Lodge die does while it has power. -/
def powered (f : State → State) (s : State) : Out := .next (if s.hld.ph = .off then s else f s)

/-! ### Straps (R510 to R512) -/

/-- A sample of ROLE_ELIG takes effect when the sample before it is equal; a manager that loses the strap resigns. -/
def sampleElig (e : Bool) (s : State) : State :=
  let twice := s.rst.elig == e
  let s := { s with rst := { s.rst with elig := e } }
  if twice && s.bit Reg.LDG_STRAP 6 != e then
    let s := loadElig e s
    if !e && role s ≠ 0 then resign s else s
  else s

/-- A change of the slot straps is noted, and takes effect at the next start. -/
def sampleSlot (straps : Nat) (s : State) : State :=
  if straps = s.rst.straps then s
  else ({ s with rst := { s.rst with straps := straps } }.setBit Reg.LDG_STRAP 15 true).logRec 2 0x2001 [straps]

/-- Cables: HS0, and HS1 to HS3, of which an inert connector reads 0. -/
def sampleCables (cables : BitVec 4) (s : State) : State :=
  (List.range 4).foldl (fun s i => s.setBit Reg.LDG_STRAP (10 + i) (cables.getLsbD i && (i == 0 || s.fitted (6 * (i - 1))))) s

/-- STRAP_SAMPLE (R510 to R512, R519): `cables` are HS0 to HS3, bit 0 first. -/
def execStrapSample (straps : Nat) (eligible : Bool) (cables : BitVec 4) (s : State) : Out :=
  powered (fun s => sampleElig eligible (sampleSlot straps (sampleCables cables s))) s

/-! ### The sideband's register view (27, R548 to R550) -/

/-- The requester that the sideband is, and the one that the service port is. -/
abbrev sbReq : Nat := 32
abbrev svcReq : Nat := 33

/-- The PF BAR0 address that a sideband address shows (27, Table REG-4). -/
def sbAddr (a : Nat) : Option Nat :=
  let off := a % 65536
  match a / 65536 with
  | 0 => some (0x100000 + off)
  | 3 => some (0x130000 + off)
  | 5 => some (0x150000 + off)
  | 8 =>
    let b := 0x10000 + off
    if [Reg.PWR_STATE, Reg.PWR_DOMAIN, Reg.PWR_STATUS, Reg.RST_LAST_CAUSE, Reg.RST_FAILS, Reg.RST_FAIL_INFO, Reg.RST_SAFE_EXIT].contains b
    then some b else none
  | 9 =>
    let b := 0xF0000 + off
    let insvc := (List.range 11).map Reg.FLT_INSVC
    let view := (List.range 16).map Reg.FLT_LDG_DATA
    if ([Reg.FLT_STATUS, Reg.FLT_LDG_NEXT, Reg.FLT_LDG_QUEUED, Reg.FLT_LDG_SEL, Reg.FLT_LDG_STATUS] ++ insvc ++ view).contains b
    then some b else none
  | _ => none

/-- A word that the sideband reads; its selection of a ledger record is its own. -/
def sbRead (a : Nat) (s : State) : Word × State :=
  match sbAddr a with
  | none => (0, s)
  | some b =>
    if b = Reg.FLT_LDG_SEL then (BitVec.ofNat 32 s.sb.ldgSel, s)
    else if b = Reg.FLT_LDG_STATUS then (BitVec.ofNat 32 s.sb.ldgStatus, s)
    else match cellIdx b (Reg.FLT_LDG_DATA 0) 4 16 with
      | some i => (s.sb.ldgData.getD i 0, s)
      | none => readBar0 sbReq b s

/-- LDG_LOCATION is written (R515). -/
def writeLocation (value : Word) (s : State) : State :=
  (notePst s Reg.LDG_LOCATION (s.rd Reg.LDG_LOCATION)).putN Reg.LDG_LOCATION (value &&& 0x87FF).toNat

/-- The sideband selects a stored ledger record (24, R505). -/
def sbSelect (index : Nat) (s : State) : State :=
  match s.flt.nor.find? (fun r => r.index == index) with
  | some r => { s with sb := { s.sb with ldgSel := index, ldgStatus := 1 + 2 * s.flt.nor.length, ldgData := r.words } }
  | none => { s with sb := { s.sb with ldgSel := index, ldgStatus := 0, ldgData := [] } }

/-- A word that the sideband writes: three registers take writes (R549). -/
def sbWrite (a : Nat) (w : Word) (s : State) : State :=
  match sbAddr a with
  | none => s
  | some b =>
    if b = Reg.LDG_LOCATION then writeLocation w s
    else if b = Reg.RST_SAFE_EXIT then runOut (execRstSafeExit (bits w.toNat 0 16)) s
    else if b = Reg.FLT_LDG_SEL then sbSelect w.toNat s
    else s

/-- LDG_LOCATION_WRITE (R515). -/
def execLdgLocationWrite (value : Word) (s : State) : Out := powered (writeLocation value) s

/-- Words of data bytes, least significant byte first. -/
def wordsOf : Nat → List Byte → List Word
  | 0, _ => []
  | n + 1, l => BitVec.ofNat 32 ((l.take 4).foldr (fun b x => b.toNat + 256 * x) 0) :: wordsOf n (l.drop 4)

/-- SIDEBAND_ADDRESS_WRITE (R514, Table CON-7): with WRITE, the words whose bytes came are written one by one. -/
def addressWrite (bytes : List Byte) (s : State) : State :=
  let b := fun (i : Nat) => (bytes.getD i 0).toNat
  let a := (b 0 + 256 * b 1 + 65536 * b 2) / 4 * 4
  let n := b 3 % 16 + 1
  if bytes.length < 4 then s
  else if 128 ≤ b 3 then
    let ws := wordsOf (min n ((bytes.length - 4) / 4)) (bytes.drop 4)
    ws.zipIdx.foldl (fun s x => sbWrite (a + 4 * x.2) x.1 s) { s with sb := { s.sb with addr := none } }
  else { s with sb := { s.sb with addr := some (a, n) } }

/-- SIDEBAND_ADDRESS_WRITE. -/
def execSidebandAddressWrite (bytes : List Byte) (s : State) : Out := powered (addressWrite bytes) s

/-- Bytes that the sideband target sends. -/
def sbSend (bytes : List Nat) (s : State) : State := s.emit (.serial sbReq bytes)

/-- SIDEBAND_READ (R514): beyond the words addressed, and without an address write, bytes read 0xFF; a read uses its address write
(log entry 110). -/
def sidebandRead (length : Nat) (s : State) : State :=
  let (a, n) := s.sb.addr.getD (0, 0)
  let (ws, s) := (List.range (min n (cdiv length 4))).foldl (fun (acc : List Nat × State) i =>
    let (w, s) := sbRead (a + 4 * i) acc.2
    (acc.1 ++ (leBytes w.toNat 4).map (·.toNat), s)) ([], { s with sb := { s.sb with addr := none } })
  sbSend ((ws ++ List.replicate (length - ws.length) 0xFF).take length) s

/-- SIDEBAND_READ. -/
def execSidebandRead (length : Nat) (s : State) : Out := powered (sidebandRead length) s

/-! ### Common command codes (R513; log entry 110) -/

/-- Take a dynamic address while there is none. -/
def takeAddr (a : Nat) (s : State) : State := if s.sb.dyn.isSome then s else { s with sb := { s.sb with dyn := some a } }

/-- SETDASA: the target whose static address is named takes the dynamic address. -/
def execSetdasa (static dynamic : Nat) (s : State) : Out :=
  powered (fun s => if static = s.fld Reg.LDG_STRAP 16 7 then takeAddr dynamic s else s) s

/-- SETAASA: the static address becomes the dynamic address. -/
def execSetaasa (s : State) : Out := powered (fun s => takeAddr (s.fld Reg.LDG_STRAP 16 7) s) s

/-- The provisioned ID, most significant byte first. -/
def pidBytes : List Nat := (List.range 6).map (fun i => bits Config.sbPid (8 * (5 - i)) 8)

/-- ENTDAA: a target without a dynamic address sends its identity and takes the address. -/
def execEntdaa (dynamic : Nat) (s : State) : Out :=
  powered (fun s =>
    if s.sb.dyn.isSome then s else takeAddr dynamic (sbSend (pidBytes ++ [Config.sbBcr % 256, Config.sbDcr % 256]) s)) s

/-- RSTDAA. -/
def execRstdaa (s : State) : Out := powered (fun s => { s with sb := { s.sb with dyn := none } }) s

/-- A direct read of the target at its dynamic address. -/
def ccRead (bytes : List Nat) (s : State) : Out := powered (fun s => if s.sb.dyn.isSome then sbSend bytes s else s) s

/-- GETPID. -/
def execGetpid (s : State) : Out := ccRead pidBytes s
/-- GETBCR. -/
def execGetbcr (s : State) : Out := ccRead [Config.sbBcr % 256] s
/-- GETDCR. -/
def execGetdcr (s : State) : Out := ccRead [Config.sbDcr % 256] s
/-- GETSTATUS; the status is a free value. -/
def execGetstatus (s : State) : Out :=
  powered (fun s =>
    if s.sb.dyn.isSome then
      let (d, s) := s.draw
      let v := Config.sbStatus d
      sbSend [v / 256 % 256, v % 256] s
    else s) s

/-! ### The service port (R521 to R523) -/

/-- SVC_PRESENCE_CHANGE: without a probe both TAPs are in Test-Logic-Reset. -/
def execSvcPresenceChange (present : Bool) (s : State) : Out :=
  powered (fun s => { s with tap := if present then { s.tap with present := true } else { sel := s.tap.sel } }) s

/-- A scan while a probe is present. -/
def scanned (f : State → State) (s : State) : Out := powered (fun s => if s.tap.present then f s else s) s

/-- Bits shifted out of TDO, first bit first. -/
def tdo (l : List Bool) (s : State) : State := s.emit (.serial svcReq (l.map b2n))
/-- The low bits of a number. -/
def bitList (n x : Nat) : List Bool := (List.range n).map x.testBit

/-- The MAIN domain is up, so the package TAP is in the chain. -/
def mainUp (s : State) : Bool := decide (2 ≤ s.rdN Reg.PWR_STATE)
/-- The sled is unlocked. -/
def unlocked (s : State) : Bool := s.bit Reg.LDG_STRAP 14

/-- The one-bit bypass register captures 0; the package's cells drive nothing. -/
def bypass (package : Bool) (din : List Bool) (s : State) : State :=
  let s := if package then { s with tap := { s.tap with drives := false } } else s
  tdo ((false :: din).take din.length) s

/-- BYPASS. -/
def execBypass (package : Bool) (din : List Bool) (s : State) : Out :=
  scanned (fun s => if package && !mainUp s then s else bypass package din s) s

/-- IDCODE (Table CON-12): the version is the die's revision digit. -/
def execIdcode (package : Bool) (s : State) : Out :=
  scanned (fun s =>
    let v := if package then s.fld Reg.DEV_REV 4 4 else s.fld Reg.DEV_REV 12 4
    let code := 1 + 2 * (Config.jedecId % 2048) + 4096 * (if package then 0x5A80 else 0x5A8C) + 2 ^ 28 * v
    if package && !mainUp s then s
    else tdo (bitList 32 code) (if package then { s with tap := { s.tap with drives := false } } else s)) s

/-- A boundary scan of the package while the sled is unlocked; what the contacts held is free. -/
def boundary (drive package : Bool) (din : List Bool) (s : State) : State :=
  if package && !mainUp s then s
  else if !package || !unlocked s then bypass package din s
  else
    let (d, s) := s.draw
    tdo (bitList din.length d) { s with tap := { s.tap with cells := din, drives := drive } }

/-- EXTEST. -/
def execExtest (package : Bool) (din : List Bool) (s : State) : Out := scanned (boundary true package din) s
/-- SAMPLE_PRELOAD. -/
def execSamplePreload (package : Bool) (din : List Bool) (s : State) : Out := scanned (boundary false package din) s

/-- Selections and what they select (27, R550). -/
def selCells : List Nat :=
  [Reg.RST_EPOCH_SEL, Reg.HIE_LDG_SEL, Reg.FW_TRACE_SEL, Reg.FLT_UNIT_SEL, Reg.FLT_UNIT_DATA, Reg.FLT_LDG_SEL, Reg.FLT_LDG_STATUS,
    Reg.DEC_CAP_SEL, Reg.MTR_HARM_SEL] ++ (List.range 8).map Reg.FW_TRACE_DATA ++ (List.range 16).map Reg.FLT_LDG_DATA

/-- Exchange the selections of the PF with those of the service port. -/
def swapSel (s : State) : State :=
  let mine := selCells.foldl (fun m a => mputD m 0 a (s.rd a)) ([] : RegFile)
  let s := selCells.foldl (fun s a => s.put a (mgetD s.tap.sel 0 a)) s
  { s with tap := { s.tap with sel := mine } }

/-- An access of the service port to PF BAR0, with the service port's own selections; what the PF alone may write stays. -/
def svcAccess (a : Nat) (write : Bool) (w : Word) (s : State) : Word × State :=
  let s := swapSel s
  let (x, s) :=
    if !served s a then (0, s)
    else if 0x400000 ≤ a ∧ a < 0x500000 then
      (if write then (0, writeWin 0 none (a - 0x400000) w s) else readWin svcReq 0 false none (a - 0x400000) s)
    else if write then
      (0, if a = Reg.PNL_BODY_OWN ∨ a = Reg.ESP_OWNER 0 ∨ a = Reg.ESP_OWNER 1 then s else writeBar0 a w s)
    else readBar0 svcReq a s
  (x, swapSel s)

/-- REGACC (R522): Capture-DR returns what the access before left, and Update-DR starts this one. -/
def regacc (word : DWord) (s : State) : State :=
  let s := tdo (bitList 64 s.tap.capture.toNat) s
  let a := bits word.toNat 0 26 / 4 * 4
  let denied := (!unlocked s && !servedInSafe a) || (!mainUp s && !inLodge a)
  let (w, s) := if denied then (0, s) else svcAccess a (word.getLsbD 26) (word.extractLsb' 32 32) s
  { s with tap := { s.tap with capture := BitVec.ofNat 64 (2 ^ 28 + 2 ^ 29 * b2n denied + 2 ^ 32 * w.toNat) } }

/-- REGACC. -/
def execRegacc (word : DWord) (s : State) : Out := scanned (regacc word) s

/-- UNLOCK (R523): the nonce, DEV_BUILD and DEV_REV leave, then a signature over them comes; an empty one is a scan that only reads. -/
def unlock (signature : List Byte) (s : State) : State :=
  let (nonce, s) := match s.tap.nonce with
    | some n => (n, s)
    | none => let (d, s) := s.draw; (d % 2 ^ 256, s)
  let s := tdo (bitList 256 nonce ++ bitList 32 (s.rdN Reg.DEV_BUILD) ++ bitList 32 (s.rdN Reg.DEV_REV))
    { s with tap := { s.tap with nonce := some nonce } }
  let calm : Bool := s.rdN Reg.PWR_STATE == 1 || s.rdN Reg.PWR_STATE == 5
  if signature.isEmpty then s
  else
    let s' := { s with tap := { s.tap with nonce := none } }
    if calm && Config.debugSignature nonce (s.rdN Reg.DEV_BUILD) (s.rdN Reg.DEV_REV) signature then
      (s'.setBit Reg.LDG_STRAP 14 true).logRec 2 0x2002
    else s'

/-- UNLOCK. -/
def execUnlock (signature : List Byte) (s : State) : Out := scanned (unlock signature) s

end Sys2Proof.Machine
end

