-- ==== Sys2Proof/Machine/Launches.lean ====
section
/-! DEFINITION. What happens to launches (07): start, end, limits, moves that complete and pages that arrive. -/

namespace Sys2Proof.Machine

/-- Work of a RESERVED tenant below its share of the window lacks clusters (03, R67; 06, R137). -/
def launchShort (l : Launch) (s : State) : State :=
  if 0 < owed s l.slot l.issuedAt then preemptFor l.group s else s

/-- LAUNCH_START (R144, R160): on its step's clusters, or on free ones. -/
def execLaunchStart (launch yieldUs : Nat) (s : State) : Out :=
  onUnit (decide (yieldUs ≤ 2)) (match s.lch launch with
    | none => s
    | some l =>
      if l.started.isSome then s
      else match l.step with
        | some (t, _) => match s.step? t with
          | some t => if t.clusters.any (clusterReset s) then s else t.clusters.foldl (fun s k => (List.range l.slots).foldl (fun s n => fillSlot k n s) s)
              (startLaunch launch t.clusters yieldUs s)
          | none => s
        | none =>
          let cl := (freeClusters s l.avoid).take l.group
          if cl.length < l.group then launchShort l s else startLaunch launch cl yieldUs s)

/-- LAUNCH_END (R164): every rank has ended, or a fault ends the launch. -/
def execLaunchEnd (launch elapsedNs : Nat) (s : State) : Out :=
  .next (match s.lch launch with
    | none => s
    | some l =>
      if l.started.isSome && (l.fault.isSome || l.clusters.all (fun k => (s.clu k).any (fun c => c.ended))) then closeLaunch launch elapsedNs s
      else s)

/-- The resource of the home of a launch's page (R182). -/
def pageRes (s : State) (l : Launch) (n : Nat) : Nat :=
  match l.step, l.pages[n]? with
  | some (t, g), some p => match kvRow s t p.ctx p.block g with
    | some r => tierRes r.tier
    | none => 5
  | _, _ => 5

/-- WAIT_LIMIT_EXPIRE (R159, R182): a move, semaphore, barrier or KV wait has reached the launch's WAIT_LIMIT. -/
def execWaitLimitExpire (cluster : Nat) (s : State) : Out :=
  onUnit (decide (cluster < 128)) (match s.clu cluster with
    | none => s
    | some c =>
      match c.wait, s.lch c.launch with
      | some (w, since), some l =>
        let res := match w with
          | .move _ _ _ => some 5 | .sem _ _ => some 5 | .bar => some 5
          | .kv n _ => some (pageRes s l n)
          | .fence => none | .fin => none
        match res with
        | none => s
        | some r =>
          if s.tb - since < l.waitLimit then s
          else cluFault cluster ⟨0x44, r, (s.tb - since) / 1000⟩ c.pc (bits ((l.word c.pc).getD 0) 56 8) s
      | _, _ => s)

/-- TIME_LIMIT_EXPIRE (R159): no rank is at fault. -/
def execTimeLimitExpire (launch : Nat) (s : State) : Out :=
  .next (match s.lch launch with
    | none => s
    | some l =>
      match l.started with
      | none => s
      | some t =>
        if l.fault.isSome ∨ s.tb - t < 1000 * l.timeLimit then s
        else s.updLch launch (fun l => { l with fault := some ⟨⟨0x44, 5, (s.tb - t) / 1000⟩, 0xFFFF, 0xFF, 0, 0, s.tb⟩ }))

/-- TILE_MOVE_COMPLETE (R156). -/
def execTileMoveComplete (cluster num : Nat) (s : State) : Out :=
  onUnit (decide (cluster < 128)) (completeMove cluster num s)

/-- The launch of a step's group in flight. -/
def groupLaunch (s : State) (step g : Nat) : Option (Nat × Launch) := s.launches.find? (fun l => l.2.step == some (step, g))

/-- Page `n` of a launch could go to its slot in every cluster (R148). -/
def slotsOpen (s : State) (l : Launch) (n : Nat) : Bool :=
  l.slots == 0 || if l.started.isNone then decide (n < l.slots) else l.clusters.all (fun k => (s.clu k).any (fun c => decide (n < c.kvRel + l.slots)))

/-- KV_PAGE_DELIVERED (R148, R182): a page whose copy is in T1 comes into T0, unless an unreleased slot blocks it. -/
def execKvPageDelivered (step ctx block group : Nat) (s : State) : Out :=
  .next (match kvRow s step ctx block group with
    | none => s
    | some r =>
      if !r.issued ∨ r.delivered ∨ homeTier s ctx block group ≠ 1 then s
      else match groupLaunch s step group with
        | none => touchBlock ctx block (updKv step ctx block group (fun k => { k with delivered := true }) s)
        | some (_, l) =>
          let n := l.pages.findIdx (fun p => p.ctx == ctx && p.block == block)
          if !slotsOpen s l n then s
          else
            let s := touchBlock ctx block (updKv step ctx block group (fun k => { k with delivered := true }) s)
            l.clusters.foldl (fun s k => checkKv k (fillSlot k n s)) s)

end Sys2Proof.Machine
end

