-- ==== Sys2Proof/Machine/Losses.lean ====
section
/-! DEFINITION. Meanings of the commands of power loss and holdup (22). -/

namespace Sys2Proof.Machine

/-- MAIN_LOSS (R463); with aux lost too it is a Lodge loss (R459). -/
def execMainLoss (s : State) : Out :=
  if !s.bit Reg.PWR_DOMAIN 1 then .next s
  else
    let s := mainSequence (lastLoss 1 0 (mainGone s))
    .next (if s.bit Reg.PWR_DOMAIN 0 then s else lodgeLoss s)

/-- AUX_LOSS (R459). -/
def execAuxLoss (s : State) : Out :=
  let s := auxGone s
  .next (if s.bit Reg.PWR_DOMAIN 1 then s else lodgeLoss s)

/-- LODGE_LOSS (R466): both supplies are lost. -/
def execLodgeLoss (s : State) : Out :=
  let s := if s.bit Reg.PWR_DOMAIN 1 then mainSequence (lastLoss 3 0 (mainGone (auxGone s))) else auxGone s
  .next (lodgeLoss s)

/-- AUX_RETURN (R459, R470). -/
def execAuxReturn (s : State) : Out :=
  .next (supplyBack (((s.setBit Reg.PWR_DOMAIN 0 true).setBit Reg.HLD_STATUS 1 true).setBit Reg.PWR_DOMAIN 2 false))

/-- LODGE_POWER_UP (R380, R395, R418, R458), after the absence of both supplies; the operands say which is present. -/
def execLodgePowerUp (aux main : Bool) (s : State) : Out :=
  .next (if s.hld.ph = .off && (aux || main) then lodgeUp aux main s else s)

/-- HOLDUP_STORE_REFRESH (R461), every 1 s while the Lodge die is supplied. -/
def execHoldupStoreRefresh (s : State) : Out := .next (if s.hld.ph = .supplied then holdupRefresh s else s)

/-- MAIN_STORE_CHECK (R465), every 1 s; `ok` says that the main store covers 12 ms. -/
def execMainStoreCheck (ok : Bool) (s : State) : Out := .next (s.setBit Reg.HLD_STATUS 4 (!ok))

end Sys2Proof.Machine
end

