-- ==== Sys2Proof/Machine/QueueProgs.lean ====
section
/-! DEFINITION. Queue instructions other than CMD (09, Table QUE-7).  Each command is the issue of one instruction word by
the program `key`, which holds the word at its index. -/

namespace Sys2Proof.Machine

/-! ### Scalar and branch instructions -/

def execQpQop (key : Nat) (word : BitVec 56) (s : State) : Out :=
  .next (qIssue key 0xC0 word ⟨.r32, .r32, .r32, .no, .r 0x14 [] false false 0⟩ (fun w => wSub w != 0)
    (fun _ w => qSet key (fun r => r.setS (wD w) (alu (wSub w) (r.sr (wA w)) (r.sr (wB w))))) s)

def execQpAddi (key : Nat) (word : BitVec 56) (s : State) : Out :=
  .next (qIssue key 0xC1 word ⟨.r32, .r32, .no, .no, .imm⟩ (fun _ => true)
    (fun _ w => qSet key (fun r => r.setS (wD w) (r.sr (wA w) + wImm w))) s)

def execQpLi (key : Nat) (word : BitVec 56) (s : State) : Out :=
  .next (qIssue key 0xC2 word ⟨.r32, .no, .no, .no, .imm⟩ (fun _ => true) (fun _ w => qSet key (fun r => r.setS (wD w) (wImm w))) s)

def execQpLih (key : Nat) (word : BitVec 56) (s : State) : Out :=
  .next (qIssue key 0xC3 word ⟨.r32, .no, .no, .no, .imm⟩ (fun _ => true)
    (fun _ w => qSet key (fun r => r.setS (wD w) (BitVec.ofNat 32 (wImmU w) ++ (r.sr (wD w)).truncate 32))) s)

def execQpCmp (key : Nat) (word : BitVec 56) (s : State) : Out :=
  .next (qIssue key 0xC4 word ⟨.r8, .r32, .r32, .code 6, plainR⟩ (fun _ => true)
    (fun _ w => qSet key (fun r => r.setP (wD w) (condHolds (wC w) (r.sr (wA w)) (r.sr (wB w))))) s)

def execQpCmpi (key : Nat) (word : BitVec 56) (s : State) : Out :=
  .next (qIssue key 0xC5 word ⟨.r8, .r32, .no, .code 6, .imm⟩ (fun _ => true)
    (fun _ w => qSet key (fun r => r.setP (wD w) (condHolds (wC w) (r.sr (wA w)) (wImm w)))) s)

def execQpHset (key : Nat) (word : BitVec 56) (s : State) : Out :=
  .next (qIssue key 0xC6 word ⟨.r16, .r32, .no, .no, plainR⟩ (fun _ => true) (fun _ w => qSet key (fun r => r.setH (wD w) (r.sr (wA w)))) s)

def execQpHget (key : Nat) (word : BitVec 56) (s : State) : Out :=
  .next (qIssue key 0xC7 word ⟨.r32, .r16, .no, .no, plainR⟩ (fun _ => true) (fun _ w => qSet key (fun r => r.setS (wD w) (r.hr (wA w)))) s)

/-- A taken branch of a queue program (R171). -/
def qJump (key : Nat) (p : QProg) (target : Int) (s : State) : State :=
  if 0 ≤ target ∧ target < p.code.length then qGoTo key target.toNat s else qFault key s

/-- Branch to index + IMM, or go on. -/
def qBranch (key : Nat) (p : QProg) (taken : Bool) (w : Nat) (s : State) : State :=
  if taken then qJump key p ((p.pc : Int) + (wImm w).toInt) s else qNext key s

def execQpBr (key : Nat) (word : BitVec 56) (s : State) : Out :=
  .next (qIssue key 0xC8 word ⟨.no, .no, .no, .no, .imm⟩ (fun _ => true) (fun p w => qBranch key p true w) s)

def execQpBz (key : Nat) (word : BitVec 56) (s : State) : Out :=
  .next (qIssue key 0xC9 word ⟨.no, .r32, .no, .no, .imm⟩ (fun _ => true) (fun p w => qBranch key p (p.regs.sr (wA w) == 0) w) s)

def execQpBnz (key : Nat) (word : BitVec 56) (s : State) : Out :=
  .next (qIssue key 0xCA word ⟨.no, .r32, .no, .no, .imm⟩ (fun _ => true) (fun p w => qBranch key p (p.regs.sr (wA w) != 0) w) s)

def execQpLoop (key : Nat) (word : BitVec 56) (s : State) : Out :=
  .next (qIssue key 0xCB word ⟨.no, .r32, .no, .no, .imm⟩ (fun _ => true) (fun p w s =>
    let v := p.regs.sr (wA w) - 1
    qBranch key p (v != 0) w (s.updProg key (fun p => { p with regs := p.regs.setS (wA w) v }))) s)

def execQpCall (key : Nat) (word : BitVec 56) (s : State) : Out :=
  .next (qIssue key 0xCC word ⟨.r32, .no, .no, .no, .imm⟩ (fun _ => true) (fun p w s =>
    qBranch key p true w (s.updProg key (fun q => { q with regs := q.regs.setS (wD w) (BitVec.ofNat 64 (p.pc + 1)) }))) s)

def execQpJr (key : Nat) (word : BitVec 56) (s : State) : Out :=
  .next (qIssue key 0xCD word ⟨.no, .r32, .no, .no, plainR⟩ (fun _ => true) (fun p w => qJump key p (p.regs.sr (wA w)).toNat) s)

/-- The program has nothing in flight. -/
def QProg.idle (p : QProg) : Bool := openToks p.cmds == 0 && openToks p.launches == 0

/-- END (R202): waits for what the program issued, then ends it. -/
def execQpEnd (key : Nat) (word : BitVec 56) (s : State) : Out :=
  .next (qIssue key 0xCE word ⟨.no, .r32, .no, .no, plainR⟩ (fun _ => true) (fun p w s =>
    if p.idle then quitProg key ⟨0, 0, 0⟩ (p.regs.sr (wA w)).toNat s else s) s)

/-! ### Objects (R198) -/

/-- LD: 8 bytes at an offset that is a multiple of 8. -/
def execQpLd (key : Nat) (word : BitVec 56) (s : State) : Out :=
  .next (qIssue key 0xD0 word ⟨.r32, .r16, .r32, .no, plainR⟩ (fun _ => true) (fun p w s =>
    let off := (p.regs.sr (wB w)).toNat
    if off % 8 ≠ 0 then qFault key s
    else qRead key (p.regs.hr (wA w)) (wA w) off 8 (fun m => qSet key (fun r => r.setS (wD w) (BitVec.ofNat 64 (readLE m off 8)))) s) s)

/-- ST: sa at an offset that is a multiple of 8. -/
def execQpSt (key : Nat) (word : BitVec 56) (s : State) : Out :=
  .next (qIssue key 0xD1 word ⟨.no, .r32, .r16, .r32, plainR⟩ (fun _ => true) (fun p w s =>
    let off := (p.regs.sr (wC w)).toNat
    if off % 8 ≠ 0 then qFault key s
    else qWrite key (p.regs.hr (wB w)) (wB w) off (leBytes (p.regs.sr (wA w)).toNat 8) s) s)

/-! ### Tokens (R199) -/

/-- Wait for a token: FAULT_PROGRAM where it is out of the window, nothing while its work goes on. -/
def onToken (key : Nat) (l : List Token) (issued window : Nat) (tok : DWord) (body : Token → Word → State → State) (s : State) : State :=
  if !tokenOk issued window tok.toNat then qFault key s
  else match findTok l tok.toNat with
    | none => qFault key s
    | some t => match t.status with
      | none => s
      | some st => body t st s

/-- Command and launch tokens that a wait may still name. -/
def cmdWindow : Nat := 64
def launchWindow : Nat := 16

def execQpCwait (key : Nat) (word : BitVec 56) (s : State) : Out :=
  .next (qIssue key 0xD9 word ⟨.r32, .r32, .no, .no, plainR⟩ (fun _ => true) (fun p w =>
    onToken key p.cmds p.cmdNext cmdWindow (p.regs.sr (wA w)) (fun _ st => qSet key (fun r => r.setS (wD w) (st.zeroExtend 64)))) s)

def execQpCres (key : Nat) (word : BitVec 56) (s : State) : Out :=
  .next (qIssue key 0xDA word ⟨.r32, .r32, .no, .no, plainR⟩ (fun _ => true) (fun p w =>
    onToken key p.cmds p.cmdNext cmdWindow (p.regs.sr (wA w)) (fun t _ => qSet key (fun r => r.setS (wD w) (BitVec.ofNat 64 t.result)))) s)

def execQpLwait (key : Nat) (word : BitVec 56) (s : State) : Out :=
  .next (qIssue key 0xE2 word ⟨.r32, .r32, .no, .no, plainR⟩ (fun _ => true) (fun p w =>
    onToken key p.launches p.launchNext launchWindow (p.regs.sr (wA w)) (fun _ st => qSet key (fun r => r.setS (wD w) (st.zeroExtend 64)))) s)

/-- LREP: the report to an offset that is a multiple of 32. -/
def execQpLrep (key : Nat) (word : BitVec 56) (s : State) : Out :=
  .next (qIssue key 0xE3 word ⟨.no, .r32, .r16, .r32, plainR⟩ (fun _ => true) (fun p w s =>
    let off := (p.regs.sr (wC w)).toNat
    if off % 32 ≠ 0 then qFault key s
    else onToken key p.launches p.launchNext launchWindow (p.regs.sr (wA w)) (fun t _ =>
      qWrite key (p.regs.hr (wB w)) (wB w) off (t.report.flatMap (fun x => leBytes x.toNat 4))) s) s)

/-! ### Launching (R203, R204) -/

/-- A token for the launch just issued, in sd. -/
def launchToken (key w : Nat) (p : QProg) (s : State) : State :=
  let tok := p.launchNext % 65536
  s.updProg key (fun p => { p with
    launches := addTok p.launches tok launchWindow, launchNext := p.launchNext + 1, regs := p.regs.setS (wD w) (BitVec.ofNat 64 tok) })

/-- Wait for held-store slots, counted once (R197). -/
def waitSlot (key : Nat) (p : QProg) (s : State) : State :=
  if p.slotWait then s else (s.updProg key (fun p => { p with slotWait := true })).twBump p.slot Reg.TW_Q_HELD_WAIT

/-- A launch that never starts ends with a status: its token, its completion and its counters. -/
def failLaunch (l : Launch) (st : Status) (s : State) : State :=
  let s := if 0x40 ≤ st.code then (s.twBump l.slot Reg.TW_CL_LAUNCHES).twBump l.slot Reg.TW_CL_FAULTS else s
  let rep := reportOf l st 0
  let s := endToken l.prog true l.token st.word 0 rep (s.outcome l.slot st)
  match l.step with
  | some (t, g) => stepLaunchEnd t g st s
  | none =>
    let s := unreserve l.slot (if l.report then 2 else 1) s
    if l.report then produce l.slot (l.prog % 16) false { status := st.word, cmdId := 0, kind := 3, result := l.token % 65536, report := rep } s
    else s

/-- Issue a launch: the checks of its program (R81, R145), then it waits for clusters. -/
def issueLaunch (l : Launch) (s : State) : State :=
  match checkHandle s l.slot l.handle false 0 0 0xFFFF 0xFFFF with
  | .error st => failLaunch l st s
  | .ok n =>
    match codeOf n.obj with
    | none => failLaunch l ⟨0x41, 5, 0xFFFF⟩ s
    | some code =>
      let id := s.nextLaunch
      { s with nextLaunch := id + 1 }.setLch id { l with code := code, spanId := id }

/-- The launch record's reserved fields are zero and its values in range (Table QUE-8, R204). -/
def recordOk (m : Memory) (a : Nat) : Bool :=
  let g := readLE m (a + 0x88) 4
  let wl := readLE m (a + 0x8C) 4
  let tl := readLE m (a + 0x90) 4
  decide (1 ≤ bits g 0 8) && decide (bits g 0 8 ≤ 128) && decide (g < 512) &&
    (wl == 0 || (decide (10 ≤ wl) && decide (wl ≤ 10000000))) && (tl == 0 || decide (tl ≤ 3600000)) &&
    readLE m (a + 0x94) 4 == 0 && (readBytes m (a + 0xA8) 24).all (· == 0)

/-- The launch that a record describes, but for its span. -/
def recordLaunch (key : Nat) (p : QProg) (s : State) (m : Memory) (a : Nat) : Launch :=
  let q := fun (o : Nat) => BitVec.ofNat 64 (readLE m (a + o) 8)
  let wl := readLE m (a + 0x8C) 4
  let tl := readLE m (a + 0x90) 4
  { slot := p.slot, prog := key, token := p.launchNext % 65536, report := bits (readLE m (a + 0x88) 4) 8 1 == 1,
    handle := q 0, handles := (List.range 8).map (fun i => q (8 + 8 * i)), args := (List.range 8).map (fun i => q (0x48 + 8 * i)),
    seed := q 0x98, group := bits (readLE m (a + 0x88) 4) 0 8, waitLimit := if wl = 0 then 10000 else wl,
    timeLimit := if tl = 0 then 1000 else tl, issuedAt := s.tb }

/-- The span of a launch record (Table QUE-8): the members, or why it is not one. -/
def spanOf (s : State) (slot : Nat) (h : DWord) : Except Status (Option (List (Nat × Nat))) :=
  if h = 0 then .ok (some [])
  else match checkHandle s slot h false 0 0 0xFFFF 0xFFFF with
    | .error st => .error st
    | .ok n =>
      let es := (List.range (n.obj.size / 4)).map (fun i => readLE n.obj.data (4 * i) 4)
      let ms := es.map (fun e => (bits e 0 16, bits e 16 8))
      let good := n.obj.tile && n.obj.size % 4 == 0 && decide (2 ≤ ms.length) && decide (ms.length ≤ 64) &&
        (ms.head?).any (fun m => m.1 == ownNode s) && es.all (fun e => decide (e < 2 ^ 24)) &&
        ms.all (fun m => decide (1 ≤ m.2) && decide (m.2 ≤ 128)) && ms.map (·.1) == (ms.map (·.1)).eraseDups
      .ok (if good then some ms else none)

/-- LAUNCH (R199, R204). -/
def execQpLaunch (key : Nat) (word : BitVec 56) (s : State) : Out :=
  .next (qIssue key 0xE0 word ⟨.r32, .r16, .r32, .no, plainR⟩ (fun _ => true) (fun p w s =>
    let off := (p.regs.sr (wB w)).toNat
    if p.step.isSome ∨ off % 64 ≠ 0 then qFault key s
    else if launchWindow ≤ openToks p.launches then s
    else qRead key (p.regs.hr (wA w)) (wA w) off 192 (fun m s' =>
      if !recordOk m off then qFault key s'
      else
        let l := recordLaunch key p s m off
        let need := if l.report then 2 else 1
        if s.heldFree p.slot < need then waitSlot key p s
        else match spanOf s p.slot (BitVec.ofNat 64 (readLE m (off + 0xA0) 8)) with
          | .ok none => qFault key s'
          | sp =>
            let s := qNext key (launchToken key w p (reserve p.slot need s'))
            match sp, exhausted s p.slot with
            | .error st, _ => failLaunch l st s
            | _, some d => failLaunch l ⟨0x23, 8, d⟩ (s.bump Reg.NRG_REFUSED)
            | .ok ms, none =>
              let ms := ms.getD []
              let own := match ms.head? with | some m => m.2 | none => l.group
              if clustersUp s < own then failLaunch l ⟨0x20, 5, own - clustersUp s⟩ s
              else if (ms.drop 1).any (fun m => !((s.ten p.slot).any (fun t => t.members.contains m.1))) then failLaunch l ⟨0x22, 9, 0xFFFF⟩ s
              else issueLaunch { l with group := own, span := ms } s) s) s)

/-- The pages of a step's group, in batch-entry and then block-list order (07). -/
def stepPages (s : State) (id : Nat) (t : Step) (g : Nat) : List LPage :=
  ((List.range t.entries.length).zip t.entries).flatMap (fun e => match s.ctx e.2.ctx with
    | none => []
    | some c => ((List.range c.blocks.length).filter (fun b => (kvRow s id e.2.ctx b g).isSome)).map (fun b =>
        ({ ctx := e.2.ctx, block := b, entry := e.1, valid := min 64 (c.length + e.2.tokens - 64 * b),
           priv := (match c.blocks[b]? with | some (.priv _) => true | _ => false) } : LPage)))

/-- LAUNCHS (R203). -/
def execQpLaunchs (key : Nat) (word : BitVec 56) (s : State) : Out :=
  .next (qIssue key 0xE1 word ⟨.r32, .r32, .no, .no, .r 0 [] false false 6⟩ (fun w => decide (wMod w ≤ 32)) (fun p w s =>
    match p.step.bind (fun id => (s.step? id).map (fun t => (id, t))) with
    | none => qFault key s
    | some (id, t) =>
      match s.model t.model with
      | none => qFault key s
      | some m =>
        let g := (p.regs.sr (wA w)).toNat
        if g < t.first ∨ m.groups.length ≤ g ∨ (stepLaunch s id).isSome then qFault key s
        else
          let s := qNext key (launchToken key w p s)
          let pages := stepPages s id t g
          let s := (pages.drop (wMod w)).foldl (fun s x => updKv id x.ctx x.block g (fun k => { k with delivered := false }) s) s
          let s := s.updStep id (fun t => { t with groupAt := s.tb })
          issueLaunch {
            slot := m.slot, prog := key, token := p.launchNext % 65536, report := false, step := some (id, g),
            handle := ((m.groups[g]?).map (fun d => d.prog)).getD 0,
            handles := (List.range 8).map p.regs.hr, args := (List.range 8).map (fun i => p.regs.sr (i + 1)), seed := 0,
            group := t.clusters.length, slots := wMod w, waitLimit := 10000, timeLimit := 1000, issuedAt := s.tb, pages := pages } s) s)

/-! ### Semaphores, fences, sleep, time, posts -/

/-- SIGNAL: to a local queue of the tenant. -/
def execQpSignal (key : Nat) (word : BitVec 56) (s : State) : Out :=
  .next (qIssue key 0xE8 word ⟨.no, .r32, .r32, .no, .r 0 [] false false 3⟩ (fun _ => true) (fun p w s =>
    let q := (p.regs.sr (wA w)).toNat
    if p.step.isSome ∨ !((s.ten p.slot).any (fun t => (mget t.queues q).isSome)) then qFault key s
    else qNext key (queueSignal p.slot q (wMod w) ((p.regs.sr (wB w)).truncate 32) s)) s)

def execQpSwait (key : Nat) (word : BitVec 56) (s : State) : Out :=
  .next (qIssue key 0xE9 word ⟨.no, .r32, .no, .no, .r 0 [] false false 3⟩ (fun _ => true) (fun p w s =>
    if p.step.isSome then qFault key s
    else if (p.regs.sr (wA w)).toNat ≤ (mgetD (s.que p.slot p.queue).sems 0 (wMod w)).toNat then qNext key s
    else s) s)

def execQpFence (key : Nat) (word : BitVec 56) (s : State) : Out :=
  .next (qIssue key 0xEA word {} (fun _ => true) (fun p _ s => if p.idle then qNext key s else s) s)

/-- PARK (R200). -/
def execQpPark (key : Nat) (word : BitVec 56) (s : State) : Out :=
  .next (qIssue key 0xEB word ⟨.r32, .r32, .no, .no, .r 0 [] false false 4⟩ (fun _ => true) (fun p w s =>
    let us := (p.regs.sr (wA w)).toNat
    let timed := (wMod w).testBit 3
    if p.step.isSome ∨ wMod w = 0 ∨ (timed ∧ us = 0) then qFault key s
    else s.updProg key (fun p => { p with parked := some ⟨wMod w, if timed then some (s.tb + us) else none, wD w, 0⟩ })) s)

/-- PARK_WAKE (R200): a cause has come, or the time is over; sd takes the causes met. -/
def execParkWake (key : Nat) (s : State) : Out :=
  .next (match s.prog key with
    | none => s
    | some p =>
      match p.parked with
      | none => s
      | some k =>
        let met := k.met ||| (if k.wakeAt.any (fun t => decide (t ≤ s.tb)) then 8 else 0)
        if met = 0 then s
        else qSet key (fun r => r.setS k.dest (BitVec.ofNat 64 met)) (s.setProg key { p with parked := none }))

def execQpTime (key : Nat) (word : BitVec 56) (s : State) : Out :=
  .next (qIssue key 0xEC word ⟨.r32, .no, .no, .no, plainR⟩ (fun _ => true)
    (fun _ w s => qSet key (fun r => r.setS (wD w) (BitVec.ofNat 64 s.tb)) s) s)

/-- KVRES: step programs only. -/
def execQpKvres (key : Nat) (word : BitVec 56) (s : State) : Out :=
  .next (qIssue key 0xF0 word ⟨.r32, .no, .no, .no, plainR⟩ (fun _ => true) (fun p w s =>
    match p.step.bind (fun id => s.step? id) with
    | none => qFault key s
    | some t => qSet key (fun r => r.setS (wD w) (BitVec.ofNat 64 t.first)) s) s)

/-- POST (R197): a KIND 4 completion; without a held-store slot it waits. -/
def execQpPost (key : Nat) (word : BitVec 56) (s : State) : Out :=
  .next (qIssue key 0xF1 word ⟨.no, .r32, .r32, .no, .r 0 [] false false 16⟩ (fun _ => true) (fun p w s =>
    if p.step.isSome then qFault key s
    else if s.heldFree p.slot = 0 then waitSlot key p s
    else qNext key (produce p.slot p.queue false {
      status := 0, cmdId := wMod w, kind := 4, aux := (p.regs.sr (wB w)).toNat % 2 ^ 32, result := (p.regs.sr (wA w)).toNat } s)) s)

end Sys2Proof.Machine
end

