-- ==== Sys2Proof/Machine/Tiers.lean ====
section
/-! DEFINITION. The tier commands and events (04; 09, Table QUE-3). -/

namespace Sys2Proof.Machine

/-! ### ALLOC and FREE -/

/-- The flags that an ALLOC must not carry (R82). -/
def badFlags (cls flags elem alt : Nat) : Bool :=
  let b := fun i => flags.testBit i
  (b2n (b 0) + b2n (b 1) + b2n (b 2) > 1) || (b 3 && (b 2 || b 9 || b 11 || b 12)) || (b 3 && cls != 0) ||
    (b 4 && (!b 8 || b 15)) || (bits flags 5 3 != 0 && !b 4) || (b 13 && !b 8) || (b 10 && (b 11 || b 12)) ||
    (b 9 && !(decide (elem ≤ 4) || (decide (6 ≤ elem) && decide (elem ≤ 8)))) || (alt == 1 && elem != 6) ||
    bits flags 16 16 != 0

/-- Sizes, segments and element types outside Tables TIER-6 and TIER-7. -/
def badShape (size flags elem seg : Nat) : Bool :=
  let tile := flags.testBit 15
  (if tile then decide (size < 64) || decide (64 * 2 ^ 20 < size) || size % 64 != 0
   else decide (size < pageBytes) || decide (2 ^ 46 < size) || size % pageBytes != 0) ||
    (elem != 0xFF && decide (11 < elem)) ||
    (flags.testBit 4 && (decide (seg < 1) || decide (65536 < seg) || size % (seg * pageBytes) != 0 || decide (1024 < size / (seg * pageBytes))))

/-- ALLOC (R82, R83, R86, R87, R90): the handle, or a refusal with nothing allocated. -/
def bodyAlloc (id : Nat) (r : CmdRec) (s : State) : State :=
  let slot := slotOfFlight s id
  let size := r.w18.toNat
  let flags := bits r.w20.toNat 0 32
  let elem := bits r.w20.toNat 32 8
  let alt := bits r.w20.toNat 40 1
  let seg := bits r.w28.toNat 0 32
  match s.ten slot with
  | none => s
  | some t =>
    if badFlags t.cls flags elem alt || badShape size flags elem seg then finish id (policy 1) 0 s
    else if 1048575 ≤ t.objs.length then finish id ⟨0x21, 1, 1⟩ 0 s
    else if 4194304 ≤ sumOf s.adm.tenants (fun t => t.2.objs.length) then finish id ⟨0x20, 1, 1⟩ 0 s
    else
      let o : Obj := {
        size := size, tile := flags.testBit 15, flags := flags, elem := elem, elemAlt := alt,
        segPages := if flags.testBit 4 then seg else 0, gen := 1, base := { tier := 1, lastUse := s.tb } }
      match place slot o s with
      | (.error st, s) => finish id st 0 s
      | (.ok o, s) =>
        let (_, h, s) := newObj slot o s
        finish id ⟨0, 0, 0⟩ h.toNat s

/-- ALLOC (R86). -/
def execAlloc (slot q : Nat) (rec : CmdRec) (s : State) : Out :=
  onUnit (decide (slot < 1024) && decide (q < 16)) (ringCmd 0x01 slot q rec bodyAlloc s)

/-- FREE (R101). -/
def bodyFree (id : Nat) (r : CmdRec) (s : State) : State :=
  withObj id r.w08 true 0 0 (fun n s => finish id ⟨0, 0, 0⟩ 0 (freeObj n.slot n.idx s)) s

/-- FREE (R101). -/
def execFree (slot q : Nat) (rec : CmdRec) (s : State) : Out :=
  onUnit (decide (slot < 1024) && decide (q < 16)) (ringCmd 0x02 slot q rec bodyFree s)

/-! ### PLACE -/

/-- The pages that a PLACE names. -/
def placeRange (o : Obj) (first count : Nat) : List Nat := if o.tile then [0] else (List.range count).map (fun i => first + i)

/-- Room in the target tier for `n` pages of `stored` bytes each: none, or why not. -/
def placeShort (s : State) (slot tier : Nat) (o : Obj) (n stored : Nat) : Option Status :=
  match s.ten slot with
  | none => some ⟨0x20, 0, 1⟩
  | some t =>
    let b := round4K stored
    if tier = 1 then
      if hbmRoom s slot < n * o.t1Bytes then some ⟨0x21, 1, cdiv (n * o.t1Bytes - hbmRoom s slot) unit2M⟩
      else if freeT1 s * unit2M < n * o.t1Bytes then some ⟨0x20, 1, cdiv (n * o.t1Bytes - freeT1 s * unit2M) unit2M⟩
      else none
    else if tier = 2 then
      if orangOwn s slot t < n * b then some ⟨0x21, 2, cdiv (n * b - orangOwn s slot t) (2 ^ 30)⟩
      else if orangFree s < n * b then some ⟨0x20, 2, cdiv (n * b - orangFree s) (2 ^ 30)⟩
      else if writeRoom s t < n * stored then some ⟨0x21, 3, cdiv (n * stored - writeRoom s t) (10 ^ 9)⟩
      else none
    else if tier = 3 then (if (regionFor t (n * b)).isSome then none else some ⟨0x20, 0, 1⟩)
    else if (lendPeer s).isSome then none else some ⟨0x20, 7, 1⟩

/-- PLACE (R88): every page of the range not already in the tier moves there. Pages under a lease are not moved
(R85), and the object's flags limit the tier. -/
def bodyPlace (id : Nat) (r : CmdRec) (s : State) : State :=
  let first := bits r.w18.toNat 0 32
  let count := bits r.w18.toNat 32 32
  let tier := bits r.w20.toNat 0 3
  if tier = 0 ∨ 4 < tier then finish id cmdFault 0 s
  else withObj id r.w08 true (first * pageBytes) (count * pageBytes) (fun n s =>
    let o := n.obj
    let pages := (placeRange o first count).filter (fun i => (o.page i).tier != tier)
    if (o.flag 3 && tier != 1) || (tier == 3 && !o.flag 11) || (tier == 4 && !o.flag 12) then finish id (policy (tierRes tier)) 0 s
    else match pages.find? (fun i => (o.page i).poison) with
    | some i => finish id (poisonStatus (o.page i)) 0 s
    | none =>
    match leaseBlock o pages with
    | some res => finish id ⟨0x24, res, 0⟩ 0 s
    | none =>
      if tier = 2 ∧ t2Refused s then finish id ⟨0x24, 2, 0⟩ 0 s
      else
      let (stored, s) := drawSize o s
      match placeShort s n.slot tier o pages.length stored with
      | some st => finish id st 0 s
      | none =>
        if pages.isEmpty then finish id ⟨0, 0, 0⟩ 0 s
        else
          let loc := if tier = 3 then ((s.ten n.slot).bind (fun t => regionFor t (round4K stored))).getD 0 else if tier = 4 then (lendPeer s).getD 0 else 0
          let s := dropMoves (fun m => m.slot == n.slot && m.obj == n.idx && pages.contains m.page) s
          let s := s.updFlight id (fun f => { f with left := pages.length })
          pages.foldl (fun s i => startMove n.slot n.idx i tier loc (.place id) s) s) s

/-- PLACE (R88). -/
def execPlace (slot q : Nat) (rec : CmdRec) (s : State) : Out :=
  onUnit (decide (slot < 1024) && decide (q < 16)) (ringCmd 0x03 slot q rec bodyPlace s)

/-! ### FLUSH -/

/-- Bytes that a flush stores: pages not at home in T2, whose images are their own (R95). -/
def flushBytes (o : Obj) (stored : Nat) : Nat := o.sumPages (fun p => if p.tier = 2 then 0 else stored)

/-- FLUSH of a DURABLE object (R95, R96): refused without room or write allowance, else the image is written and
waits for its journal record. -/
def bodyFlush (id : Nat) (r : CmdRec) (s : State) : State :=
  withObj id r.w08 true 0 0 (fun n s =>
    if !n.obj.flag 10 then finish id (policy 2) 0 s
    else match s.ten n.slot with
    | none => s
    | some t =>
      let (stored, s) := drawSize n.obj s
      let b := flushBytes n.obj stored
      if orangOwn s n.slot t < round4K b then finish id ⟨0x21, 2, cdiv (round4K b - orangOwn s n.slot t) (2 ^ 30)⟩ 0 s
      else if orangFree s < round4K b then finish id ⟨0x20, 2, cdiv (round4K b - orangFree s) (2 ^ 30)⟩ 0 s
      else if writeRoom s t < b then finish id ⟨0x21, 3, cdiv (b - writeRoom s t) (10 ^ 9)⟩ 0 s
      else if t2Refused s then finish id ⟨0x24, 2, 0⟩ 0 s
      else s.updFlight id (fun f => { f with args := [n.idx, b] })) s

/-- FLUSH (R95). -/
def execFlush (slot q : Nat) (rec : CmdRec) (s : State) : Out :=
  onUnit (decide (slot < 1024) && decide (q < 16)) (ringCmd 0x04 slot q rec bodyFlush s)

/-- The journal record of a flush is programmed (R95): the new image takes force, its bytes are counted, and the
command completes. -/
def flushCommit (id : Nat) (s : State) : State :=
  match s.flight id with
  | none => s
  | some f =>
    if f.op ≠ 4 then s
    else match f.args.head?.bind (fun i => (s.obj f.slot i).map (fun o => (i, o))) with
    | none => finish id ⟨0, 0, 0⟩ 0 s
    | some (idx, o) =>
      let (drawn, s) := drawSize o s
      let b := (f.args.drop 1).head?.getD (flushBytes o drawn)
      let s := s.setObj f.slot idx { o with durable := some ⟨o.data, b⟩ }
      let s := (s.bumpBy Reg.TIER_RAW_BYTES o.size).bumpBy Reg.TIER_STORED_BYTES b
      finish id ⟨0, 0, 0⟩ 0 (chargeWrite f.slot b s)

/-- FLUSH_JOURNAL_COMMIT (R95). -/
def execFlushJournalCommit (flight : Nat) (s : State) : Out := .next (flushCommit flight s)

/-! ### Host regions -/

/-- REG_HOST (Table TIER-6, R97). -/
def bodyRegHost (id : Nat) (r : CmdRec) (s : State) : State :=
  let slot := slotOfFlight s id
  let base := r.w10.toNat
  let size := r.w18.toNat
  match s.ten slot with
  | none => s
  | some t =>
    if base % 4096 ≠ 0 ∨ size % unit2M ≠ 0 ∨ size < unit2M ∨ 2 ^ 40 < size then finish id (policy 0) 0 s
    else if 64 ≤ t.regions.length then finish id ⟨0x21, 0, 1⟩ 0 s
    else
      let n := lowestFree (t.regions.map (·.1)) 0
      let f := t.fn.getD 0
      let s := s.updTen slot (fun t => { t with regions := mput t.regions n ⟨base, size, f, !(s.fn f).leaseLive, none⟩ })
      finish id ⟨0, 0, 0⟩ n s

/-- REG_HOST (R97). -/
def execRegHost (slot q : Nat) (rec : CmdRec) (s : State) : Out :=
  onUnit (decide (slot < 1024) && decide (q < 16)) (ringCmd 0x05 slot q rec bodyRegHost s)

/-- The pages of a slot homed in a region. -/
def regionPages (t : Tenant) (reg : Nat) : List (Nat × Nat) :=
  (t.objs.map (fun o => (o.2.pagesWhere (fun p => p.tier == 3 && p.loc == reg)).map (fun i => (o.1, i)))).flatten

/-- How many pages of a list, from its front, fit in `room` bytes of T1. -/
def fitT1 (s : State) (slot : Nat) : List (Nat × Nat) → Nat → Nat
  | [], _ => 0
  | p :: r, room =>
    let n := ((s.obj slot p.1).map (·.t1Bytes)).getD pageBytes
    if room < n then 0 else fitT1 s slot r (room - n) + 1

/-- DEREG_HOST (R98): every page homed in the region moves to T1 or T2; refused when they cannot all be placed. -/
def bodyDeregHost (id : Nat) (r : CmdRec) (s : State) : State :=
  let slot := slotOfFlight s id
  let reg := bits r.w18.toNat 0 6
  match (s.ten slot).bind (fun t => (mget t.regions reg).map (fun x => (t, x))) with
  | none => finish id (policy 0) 0 s
  | some (t, x) =>
    let pages := regionPages t reg
    let drop := fun (s : State) => s.updTen slot (fun t => { t with regions := mdel t.regions reg })
    if x.revoked then
      let away := fun (p : Page) => if p.tier = 3 ∧ p.loc = reg then { p with loc := reg + 64 } else p
      finish id ⟨0, 0, 0⟩ 0 (drop (s.updTen slot (fun t => { t with objs := mmap t.objs (fun _ o => { o with base := away o.base, pages := mmap o.pages (fun _ p => away p) }) })))
    else if pages.isEmpty then finish id ⟨0, 0, 0⟩ 0 (drop s)
    else
      let n1 := fitT1 s slot pages (min (hbmRoom s slot) (freeT1 s * unit2M))
      let rest := pages.drop n1
      let need := sumOf rest (fun p => round4K (((s.obj slot p.1).map (fun o => (o.page p.2).stored)).getD 0))
      if orangRoom s slot t < need ∨ writeRoom s t < need then
        finish id ⟨0x20, 1, max 1 (cdiv (pages.length * pageBytes - hbmRoom s slot) unit2M)⟩ 0 s
      else if !rest.isEmpty ∧ t2Refused s then finish id ⟨0x24, 2, 0⟩ 0 s
      else
        let s := s.updFlight id (fun f => { f with left := pages.length, args := [reg] })
        let s := (pages.take n1).foldl (fun s p => startMove slot p.1 p.2 1 0 (.dereg id) s) s
        rest.foldl (fun s p => startMove slot p.1 p.2 2 0 (.dereg id) s) s

/-- DEREG_HOST (R98). -/
def execDeregHost (slot q : Nat) (rec : CmdRec) (s : State) : Out :=
  onUnit (decide (slot < 1024) && decide (q < 16)) (ringCmd 0x06 slot q rec bodyDeregHost s)

/-! ### QUERY_OBJ, WRITE, READ -/

/-- The 64-byte result of QUERY_OBJ (Table QUE-3). -/
def objReport (o : Obj) : List Nat :=
  let count := fun p => o.sumPages (fun x => b2n (p x))
  let leased := fun (p : Page) => decide (0 < p.readLeases + p.stepLeases)
  let words := [o.useIn 1, o.useIn 2, o.useIn 3, o.useIn 4, count (fun p => p.mv.isNone && !leased p), count (fun p => p.mv.isSome),
    count leased, o.sumPages (fun p => p.readLeases + p.stepLeases)]
  (words.map (fun w => (leBytes w 8).map (·.toNat))).flatten

/-- QUERY_OBJ (R191). -/
def bodyQueryObj (id : Nat) (r : CmdRec) (s : State) : State :=
  withObj id r.w08 false 0 0 (fun n s =>
    match (s.ten (slotOfFlight s id)).bind (fun t => t.fn) with
    | some f => postData id f r.w10.toNat (objReport n.obj) s
    | none => finish id ⟨0x31, 9, 0⟩ 0 s) s

/-- QUERY_OBJ (R191). -/
def execQueryObj (slot q : Nat) (rec : CmdRec) (s : State) : Out :=
  onUnit (decide (slot < 1024) && decide (q < 16)) (ringCmd 0x07 slot q rec bodyQueryObj s)

/-- WRITE (R85, R88, R191): refused under a lease; the data are read from host memory while partly written pages
below T1 are promoted. -/
def bodyWrite (id : Nat) (r : CmdRec) (s : State) : State :=
  let off := r.w18.toNat
  let len := r.w20.toNat
  if off % 64 ≠ 0 ∨ len % 64 ≠ 0 then finish id cmdFault 0 s
  else withObj id r.w08 true off len (fun n s =>
    match leaseBlock n.obj (pagesOf n.obj off len) with
    | some res => finish id ⟨0x24, res, 0⟩ 0 s
    | none =>
      if t2Refused s && (pagesOf n.obj off len).any (fun i => (n.obj.page i).tier == 2 && covers n.obj off len i) then
        finish id ⟨0x24, 2, 0⟩ 0 s
      else if len = 0 then finish id ⟨0, 0, 0⟩ 0 s
      else
        let s := s.updFlight id (fun f => { f with args := [n.slot, n.idx, off, len], left := 1 })
        let s := hostRead (slotOfFlight s id) r.w10.toNat len (.write id) s
        promoteFor id n.slot n.idx (mustPromote n.obj off len true) s) s

/-- WRITE (R191). -/
def execWrite (slot q : Nat) (rec : CmdRec) (s : State) : Out :=
  onUnit (decide (slot < 1024) && decide (q < 16)) (ringCmd 0x08 slot q rec bodyWrite s)

/-- READ (R88, R191). -/
def bodyRead (id : Nat) (r : CmdRec) (s : State) : State :=
  let off := r.w18.toNat
  let len := r.w20.toNat
  if off % 64 ≠ 0 ∨ len % 64 ≠ 0 then finish id cmdFault 0 s
  else withObj id r.w08 false off len (fun n s =>
    if len = 0 then finish id ⟨0, 0, 0⟩ 0 s
    else
      let s := s.updFlight id (fun f => { f with args := [n.slot, n.idx, off, len, r.w10.toNat] })
      accessReady id (promoteFor id n.slot n.idx (mustPromote n.obj off len false) s)) s

/-- READ (R191). -/
def execRead (slot q : Nat) (rec : CmdRec) (s : State) : Out :=
  onUnit (decide (slot < 1024) && decide (q < 16)) (ringCmd 0x09 slot q rec bodyRead s)

end Sys2Proof.Machine
end

