-- ==== Sys2Proof/Machine/ProgCmd.lean ====
section
/-! DEFINITION. CMD, the queue instruction that issues a command record (09, Table QUE-7). -/

namespace Sys2Proof.Machine

/-- What the command of an opcode does; an undefined opcode ends with FAULT_PROGRAM (Table QUE-3, R191). -/
def cmdBody (op : Nat) : Nat → CmdRec → State → State :=
  match op with
  | 0x01 => bodyAlloc | 0x02 => bodyFree | 0x03 => bodyPlace | 0x04 => bodyFlush | 0x05 => bodyRegHost
  | 0x06 => bodyDeregHost | 0x07 => bodyQueryObj | 0x08 => bodyWrite | 0x09 => bodyRead
  | 0x10 => bodyModelLoad | 0x11 => bodyModelUnload | 0x18 => bodyCtxOpen | 0x19 => clearOrClose false
  | 0x1A => clearOrClose true | 0x1B => bodyTurn | 0x1C => bodyCancel | 0x20 => bodyQprogRun | 0x21 => bodyQprogStop
  | 0x30 => bodyCoreLoad | 0x31 => bodyCoreClear | 0x32 => bodyRoute | 0x33 => bodyEvCommit | 0x34 => bodyInject
  | 0x35 => bodyEvRing | 0x36 => bodyTelem | 0x37 => bodyCoreRead | 0x38 => bodyEspMap | 0x39 => bodyEspI3c
  | 0x3A => bodyWinCfg | 0x3B => bodyWinRing
  | _ => fun id _ s => finish id cmdFault 0 s

/-- The command record in memory (Table QUE-2). -/
def recordAt (m : Memory) (a : Nat) : CmdRec :=
  let q := fun (o : Nat) => (BitVec.ofNat 64 (readLE m (a + o) 8) : DWord)
  ⟨BitVec.ofNat 8 (readLE m (a + 1) 1), BitVec.ofNat 16 (readLE m (a + 2) 2), BitVec.ofNat 32 (readLE m (a + 4) 4),
    q 0x08, q 0x10, q 0x18, q 0x20, q 0x28, q 0x30, q 0x38⟩

/-- CMD (R192, R197 to R199): the record is read, a held-store slot reserved and the command started; with 64 commands
open, or its FENCE not met, the program waits. -/
def execQpCmd (key : Nat) (word : BitVec 56) (s : State) : Out :=
  .next (qIssue key 0xD8 word ⟨.r32, .r16, .r32, .no, plainR⟩ (fun _ => true) (fun p w s =>
    let off := (p.regs.sr (wB w)).toNat
    if p.step.isSome ∨ off % 64 ≠ 0 then qFault key s
    else if cmdWindow ≤ openToks p.cmds then s
    else qRead key (p.regs.hr (wA w)) (wA w) off 64 (fun m s' =>
      let r := recordAt m off
      let op := readLE m off 1
      if !fenceMet p.slot p.queue r (some p.flight) s then s
      else if s.heldFree p.slot = 0 then waitSlot key p s
      else
        let tok := p.cmdNext % 65536
        let s := s'.updProg key (fun p => { p with
          cmds := addTok p.cmds tok cmdWindow, cmdNext := p.cmdNext + 1, regs := p.regs.setS (wD w) (BitVec.ofNat 64 tok) })
        let (id, s) := newFlight op p.slot p.queue (.prog tok) r s
        let s := qNext key s
        if badHeader r then finish id cmdFault 0 s else cmdBody op id r s) s) s)

end Sys2Proof.Machine
end

