-- ==== Sys2Proof/Machine/Dispatch.lean ====
section
/-! DEFINITION. The dispatch: one arm per command, each one direct call of that command's meaning. -/

namespace Sys2Proof.Machine

/-- The effect of a command on everything but the queue of waiting commands. -/
def exec (i : Instr) (s : State) : Host.Outcome State Fault Refusal :=
  match i with
  | .wideRegisterLowRead target => Sys2Proof.Machine.execWideRegisterLowRead target s
  | .registerWrite target value => Sys2Proof.Machine.execRegisterWrite target value s
  | .stagedCommitApply commit => Sys2Proof.Machine.execStagedCommitApply commit s
  | .gateAdmit win f req => Sys2Proof.Machine.execGateAdmit win f req s
  | .modify win f req => Sys2Proof.Machine.execModify win f req s
  | .attach win f req => Sys2Proof.Machine.execAttach win f req s
  | .detach win f req => Sys2Proof.Machine.execDetach win f req s
  | .release win f req => Sys2Proof.Machine.execRelease win f req s
  | .query win f req => Sys2Proof.Machine.execQuery win f req s
  | .withdraw win f req => Sys2Proof.Machine.execWithdraw win f req s
  | .deferMaxWaitExpire ticket => Sys2Proof.Machine.execDeferMaxWaitExpire ticket s
  | .twNtcConsWrite win f value => Sys2Proof.Machine.execTwNtcConsWrite win f value s
  | .attachLockoutExpire id => Sys2Proof.Machine.execAttachLockoutExpire id s
  | .graceExpire slot => Sys2Proof.Machine.execGraceExpire slot s
  | .zeroiseComplete job => Sys2Proof.Machine.execZeroiseComplete job s
  | .alloc slot q rec => Sys2Proof.Machine.execAlloc slot q rec s
  | .free slot q rec => Sys2Proof.Machine.execFree slot q rec s
  | .place slot q rec => Sys2Proof.Machine.execPlace slot q rec s
  | .flush slot q rec => Sys2Proof.Machine.execFlush slot q rec s
  | .flushJournalCommit flight => Sys2Proof.Machine.execFlushJournalCommit flight s
  | .regHost slot q rec => Sys2Proof.Machine.execRegHost slot q rec s
  | .deregHost slot q rec => Sys2Proof.Machine.execDeregHost slot q rec s
  | .queryObj slot q rec => Sys2Proof.Machine.execQueryObj slot q rec s
  | .write slot q rec => Sys2Proof.Machine.execWrite slot q rec s
  | .read slot q rec => Sys2Proof.Machine.execRead slot q rec s
  | .moveCommit move => Sys2Proof.Machine.execMoveCommit move s
  | .demotionScan => Sys2Proof.Machine.execDemotionScan s
  | .t3MoveStallTimeout move => Sys2Proof.Machine.execT3MoveStallTimeout move s
  | .t3BackoffExpire slot region => Sys2Proof.Machine.execT3BackoffExpire slot region s
  | .peerMoveTimeout move elapsedMs => Sys2Proof.Machine.execPeerMoveTimeout move elapsedMs s
  | .peerLossTimeout node => Sys2Proof.Machine.execPeerLossTimeout node s
  | .peerHoldExpire node => Sys2Proof.Machine.execPeerHoldExpire node s
  | .pfxLookup ctx => Sys2Proof.Machine.execPfxLookup ctx s
  | .blockPublish ctx block => Sys2Proof.Machine.execBlockPublish ctx block s
  | .pfxTtlEvict entry => Sys2Proof.Machine.execPfxTtlEvict entry s
  | .kvMoveIssue step ctx block group => Sys2Proof.Machine.execKvMoveIssue step ctx block group s
  | .kvPageDeadline step ctx block group => Sys2Proof.Machine.execKvPageDeadline step ctx block group s
  | .dirAnnounce src dom kg publish hashes => Sys2Proof.Machine.execDirAnnounce src dom kg publish hashes s
  | .dirQuery src rtag dom kg id hashes => Sys2Proof.Machine.execDirQuery src rtag dom kg id hashes s
  | .dirAnswer src matched dom kg id holder status => Sys2Proof.Machine.execDirAnswer src matched dom kg id holder status s
  | .remotePin src rtag dom kg req tenant hashes => Sys2Proof.Machine.execRemotePin src rtag dom kg req tenant hashes s
  | .pinAnswer src pinned dom kg req lease => Sys2Proof.Machine.execPinAnswer src pinned dom kg req lease s
  | .remoteUnpin src lease => Sys2Proof.Machine.execRemoteUnpin src lease s
  | .remoteLeaseExpire lease => Sys2Proof.Machine.execRemoteLeaseExpire lease s
  | .directoryAnnounceDue => Sys2Proof.Machine.execDirectoryAnnounceDue s
  | .pfxDomRotate dom => Sys2Proof.Machine.execPfxDomRotate dom s
  | .pfxDomPurge dom => Sys2Proof.Machine.execPfxDomPurge dom s
  | .modelLoad slot q rec => Sys2Proof.Machine.execModelLoad slot q rec s
  | .modelUnload slot q rec => Sys2Proof.Machine.execModelUnload slot q rec s
  | .ctxOpen slot q rec => Sys2Proof.Machine.execCtxOpen slot q rec s
  | .ctxClear slot q rec => Sys2Proof.Machine.execCtxClear slot q rec s
  | .ctxClose slot q rec => Sys2Proof.Machine.execCtxClose slot q rec s
  | .turn slot q rec => Sys2Proof.Machine.execTurn slot q rec s
  | .cancel slot q rec => Sys2Proof.Machine.execCancel slot q rec s
  | .stepPlan after => Sys2Proof.Machine.execStepPlan after s
  | .preemptExpire launch => Sys2Proof.Machine.execPreemptExpire launch s
  | .stepStart step => Sys2Proof.Machine.execStepStart step s
  | .stepEnd step => Sys2Proof.Machine.execStepEnd step s
  | .reserveWindowBoundary => Sys2Proof.Machine.execReserveWindowBoundary s
  | .twCtxSelWrite f win value => Sys2Proof.Machine.execTwCtxSelWrite f win value s
  | .launchStart launch yieldUs => Sys2Proof.Machine.execLaunchStart launch yieldUs s
  | .launchEnd launch elapsedNs => Sys2Proof.Machine.execLaunchEnd launch elapsedNs s
  | .waitLimitExpire cluster => Sys2Proof.Machine.execWaitLimitExpire cluster s
  | .timeLimitExpire launch => Sys2Proof.Machine.execTimeLimitExpire launch s
  | .tileMoveComplete cluster num => Sys2Proof.Machine.execTileMoveComplete cluster num s
  | .kvPageDelivered step ctx block group => Sys2Proof.Machine.execKvPageDelivered step ctx block group s
  | .clNop cluster word => Sys2Proof.Machine.execClNop cluster word s
  | .clAdd cluster word => Sys2Proof.Machine.execClAdd cluster word s
  | .clSub cluster word => Sys2Proof.Machine.execClSub cluster word s
  | .clMul cluster word => Sys2Proof.Machine.execClMul cluster word s
  | .clMulh cluster word => Sys2Proof.Machine.execClMulh cluster word s
  | .clMulhu cluster word => Sys2Proof.Machine.execClMulhu cluster word s
  | .clDiv cluster word => Sys2Proof.Machine.execClDiv cluster word s
  | .clDivu cluster word => Sys2Proof.Machine.execClDivu cluster word s
  | .clRem cluster word => Sys2Proof.Machine.execClRem cluster word s
  | .clRemu cluster word => Sys2Proof.Machine.execClRemu cluster word s
  | .clAnd cluster word => Sys2Proof.Machine.execClAnd cluster word s
  | .clOr cluster word => Sys2Proof.Machine.execClOr cluster word s
  | .clXor cluster word => Sys2Proof.Machine.execClXor cluster word s
  | .clShl cluster word => Sys2Proof.Machine.execClShl cluster word s
  | .clShr cluster word => Sys2Proof.Machine.execClShr cluster word s
  | .clSar cluster word => Sys2Proof.Machine.execClSar cluster word s
  | .clMin cluster word => Sys2Proof.Machine.execClMin cluster word s
  | .clMax cluster word => Sys2Proof.Machine.execClMax cluster word s
  | .clMinu cluster word => Sys2Proof.Machine.execClMinu cluster word s
  | .clMaxu cluster word => Sys2Proof.Machine.execClMaxu cluster word s
  | .clAddi cluster word => Sys2Proof.Machine.execClAddi cluster word s
  | .clAndi cluster word => Sys2Proof.Machine.execClAndi cluster word s
  | .clOri cluster word => Sys2Proof.Machine.execClOri cluster word s
  | .clXori cluster word => Sys2Proof.Machine.execClXori cluster word s
  | .clShli cluster word => Sys2Proof.Machine.execClShli cluster word s
  | .clShri cluster word => Sys2Proof.Machine.execClShri cluster word s
  | .clSari cluster word => Sys2Proof.Machine.execClSari cluster word s
  | .clLi cluster word => Sys2Proof.Machine.execClLi cluster word s
  | .clLih cluster word => Sys2Proof.Machine.execClLih cluster word s
  | .clCmp cluster word => Sys2Proof.Machine.execClCmp cluster word s
  | .clCmpi cluster word => Sys2Proof.Machine.execClCmpi cluster word s
  | .clPlog cluster word => Sys2Proof.Machine.execClPlog cluster word s
  | .clMovsys cluster word => Sys2Proof.Machine.execClMovsys cluster word s
  | .clClrfl cluster word => Sys2Proof.Machine.execClClrfl cluster word s
  | .clTdset cluster word => Sys2Proof.Machine.execClTdset cluster word s
  | .clTdget cluster word => Sys2Proof.Machine.execClTdget cluster word s
  | .clTdadd cluster word => Sys2Proof.Machine.execClTdadd cluster word s
  | .clHset cluster word => Sys2Proof.Machine.execClHset cluster word s
  | .clHget cluster word => Sys2Proof.Machine.execClHget cluster word s
  | .clHmov cluster word => Sys2Proof.Machine.execClHmov cluster word s
  | .clBr cluster word => Sys2Proof.Machine.execClBr cluster word s
  | .clBz cluster word => Sys2Proof.Machine.execClBz cluster word s
  | .clBnz cluster word => Sys2Proof.Machine.execClBnz cluster word s
  | .clLoop cluster word => Sys2Proof.Machine.execClLoop cluster word s
  | .clCall cluster word => Sys2Proof.Machine.execClCall cluster word s
  | .clJr cluster word => Sys2Proof.Machine.execClJr cluster word s
  | .clEnd cluster word => Sys2Proof.Machine.execClEnd cluster word s
  | .clTld cluster word => Sys2Proof.Machine.execClTld cluster word s
  | .clTst cluster word => Sys2Proof.Machine.execClTst cluster word s
  | .clTcp cluster word => Sys2Proof.Machine.execClTcp cluster word s
  | .clTput cluster word => Sys2Proof.Machine.execClTput cluster word s
  | .clTget cluster word => Sys2Proof.Machine.execClTget cluster word s
  | .clTzero cluster word => Sys2Proof.Machine.execClTzero cluster word s
  | .clTwait cluster word => Sys2Proof.Machine.execClTwait cluster word s
  | .clSadv cluster word => Sys2Proof.Machine.execClSadv cluster word s
  | .clMma cluster word => Sys2Proof.Machine.execClMma cluster word s
  | .clMmaz cluster word => Sys2Proof.Machine.execClMmaz cluster word s
  | .clAzero cluster word => Sys2Proof.Machine.execClAzero cluster word s
  | .clAld cluster word => Sys2Proof.Machine.execClAld cluster word s
  | .clAst cluster word => Sys2Proof.Machine.execClAst cluster word s
  | .clVadd cluster word => Sys2Proof.Machine.execClVadd cluster word s
  | .clVsub cluster word => Sys2Proof.Machine.execClVsub cluster word s
  | .clVmul cluster word => Sys2Proof.Machine.execClVmul cluster word s
  | .clVfma cluster word => Sys2Proof.Machine.execClVfma cluster word s
  | .clVdiv cluster word => Sys2Proof.Machine.execClVdiv cluster word s
  | .clVsqrt cluster word => Sys2Proof.Machine.execClVsqrt cluster word s
  | .clVmin cluster word => Sys2Proof.Machine.execClVmin cluster word s
  | .clVmax cluster word => Sys2Proof.Machine.execClVmax cluster word s
  | .clVsgn cluster word => Sys2Proof.Machine.execClVsgn cluster word s
  | .clVsfu cluster word => Sys2Proof.Machine.execClVsfu cluster word s
  | .clVlog cluster word => Sys2Proof.Machine.execClVlog cluster word s
  | .clVcmp cluster word => Sys2Proof.Machine.execClVcmp cluster word s
  | .clVsel cluster word => Sys2Proof.Machine.execClVsel cluster word s
  | .clVmov cluster word => Sys2Proof.Machine.execClVmov cluster word s
  | .clVcvt cluster word => Sys2Proof.Machine.execClVcvt cluster word s
  | .clVld cluster word => Sys2Proof.Machine.execClVld cluster word s
  | .clVst cluster word => Sys2Proof.Machine.execClVst cluster word s
  | .clVlda cluster word => Sys2Proof.Machine.execClVlda cluster word s
  | .clVsta cluster word => Sys2Proof.Machine.execClVsta cluster word s
  | .clVred cluster word => Sys2Proof.Machine.execClVred cluster word s
  | .clAred cluster word => Sys2Proof.Machine.execClAred cluster word s
  | .clFence cluster word => Sys2Proof.Machine.execClFence cluster word s
  | .clSignal cluster word => Sys2Proof.Machine.execClSignal cluster word s
  | .clSwait cluster word => Sys2Proof.Machine.execClSwait cluster word s
  | .clSread cluster word => Sys2Proof.Machine.execClSread cluster word s
  | .clBar cluster word => Sys2Proof.Machine.execClBar cluster word s
  | .clKvwait cluster word => Sys2Proof.Machine.execClKvwait cluster word s
  | .clKvrel cluster word => Sys2Proof.Machine.execClKvrel cluster word s
  | .clKvinfo cluster word => Sys2Proof.Machine.execClKvinfo cluster word s
  | .clEvinj cluster word => Sys2Proof.Machine.execClEvinj cluster word s
  | .clEvinjv cluster word => Sys2Proof.Machine.execClEvinjv cluster word s
  | .clCallr cluster word => Sys2Proof.Machine.execClCallr cluster word s
  | .clCbcast cluster word => Sys2Proof.Machine.execClCbcast cluster word s
  | .clCagath cluster word => Sys2Proof.Machine.execClCagath cluster word s
  | .clCrdsc cluster word => Sys2Proof.Machine.execClCrdsc cluster word s
  | .clTokout cluster word => Sys2Proof.Machine.execClTokout cluster word s
  | .clEot cluster word => Sys2Proof.Machine.execClEot cluster word s
  | .twDbProdWrite f win q value => Sys2Proof.Machine.execTwDbProdWrite f win q value s
  | .twCqHeadWrite f win q value => Sys2Proof.Machine.execTwCqHeadWrite f win q value s
  | .twQsigWrite f win q value => Sys2Proof.Machine.execTwQsigWrite f win q value s
  | .twQCommit f win q value => Sys2Proof.Machine.execTwQCommit f win q value s
  | .vectorModerationExpire slot q => Sys2Proof.Machine.execVectorModerationExpire slot q s
  | .heldSlotFreed slot q => Sys2Proof.Machine.execHeldSlotFreed slot q s
  | .qprogRun slot q rec => Sys2Proof.Machine.execQprogRun slot q rec s
  | .qprogStop slot q rec => Sys2Proof.Machine.execQprogStop slot q rec s
  | .qprogFenceTimeout key => Sys2Proof.Machine.execQprogFenceTimeout key s
  | .qpQop key word => Sys2Proof.Machine.execQpQop key word s
  | .qpAddi key word => Sys2Proof.Machine.execQpAddi key word s
  | .qpLi key word => Sys2Proof.Machine.execQpLi key word s
  | .qpLih key word => Sys2Proof.Machine.execQpLih key word s
  | .qpCmp key word => Sys2Proof.Machine.execQpCmp key word s
  | .qpCmpi key word => Sys2Proof.Machine.execQpCmpi key word s
  | .qpHset key word => Sys2Proof.Machine.execQpHset key word s
  | .qpHget key word => Sys2Proof.Machine.execQpHget key word s
  | .qpBr key word => Sys2Proof.Machine.execQpBr key word s
  | .qpBz key word => Sys2Proof.Machine.execQpBz key word s
  | .qpBnz key word => Sys2Proof.Machine.execQpBnz key word s
  | .qpLoop key word => Sys2Proof.Machine.execQpLoop key word s
  | .qpCall key word => Sys2Proof.Machine.execQpCall key word s
  | .qpJr key word => Sys2Proof.Machine.execQpJr key word s
  | .qpEnd key word => Sys2Proof.Machine.execQpEnd key word s
  | .qpLd key word => Sys2Proof.Machine.execQpLd key word s
  | .qpSt key word => Sys2Proof.Machine.execQpSt key word s
  | .qpCmd key word => Sys2Proof.Machine.execQpCmd key word s
  | .qpCwait key word => Sys2Proof.Machine.execQpCwait key word s
  | .qpCres key word => Sys2Proof.Machine.execQpCres key word s
  | .qpLaunch key word => Sys2Proof.Machine.execQpLaunch key word s
  | .qpLaunchs key word => Sys2Proof.Machine.execQpLaunchs key word s
  | .qpLwait key word => Sys2Proof.Machine.execQpLwait key word s
  | .qpLrep key word => Sys2Proof.Machine.execQpLrep key word s
  | .qpSignal key word => Sys2Proof.Machine.execQpSignal key word s
  | .qpSwait key word => Sys2Proof.Machine.execQpSwait key word s
  | .qpFence key word => Sys2Proof.Machine.execQpFence key word s
  | .qpPark key word => Sys2Proof.Machine.execQpPark key word s
  | .parkWake key => Sys2Proof.Machine.execParkWake key s
  | .qpTime key word => Sys2Proof.Machine.execQpTime key word s
  | .qpKvres key word => Sys2Proof.Machine.execQpKvres key word s
  | .qpPost key word => Sys2Proof.Machine.execQpPost key word s
  | .evCoreLoad slot q rec => Sys2Proof.Machine.execEvCoreLoad slot q rec s
  | .evCoreClear slot q rec => Sys2Proof.Machine.execEvCoreClear slot q rec s
  | .evRoute slot q rec => Sys2Proof.Machine.execEvRoute slot q rec s
  | .evCommit slot q rec => Sys2Proof.Machine.execEvCommit slot q rec s
  | .evfCommit value => Sys2Proof.Machine.execEvfCommit value s
  | .evInject slot q rec => Sys2Proof.Machine.execEvInject slot q rec s
  | .evRing slot q rec => Sys2Proof.Machine.execEvRing slot q rec s
  | .evTelem slot q rec => Sys2Proof.Machine.execEvTelem slot q rec s
  | .evCoreRead slot q rec => Sys2Proof.Machine.execEvCoreRead slot q rec s
  | .eventRouteHop point => Sys2Proof.Machine.execEventRouteHop point s
  | .neuronInputEvent core => Sys2Proof.Machine.execNeuronInputEvent core s
  | .evRingVectorTick slot => Sys2Proof.Machine.execEvRingVectorTick slot s
  | .twEvHeadWrite f win value => Sys2Proof.Machine.execTwEvHeadWrite f win value s
  | .evBatchTimeout node slot => Sys2Proof.Machine.execEvBatchTimeout node slot s
  | .evBatch tenant words => Sys2Proof.Machine.execEvBatch tenant words s
  | .eventBankFlip => Sys2Proof.Machine.execEventBankFlip s
  | .eventBankDrained => Sys2Proof.Machine.execEventBankDrained s
  | .eventBankResyncDone => Sys2Proof.Machine.execEventBankResyncDone s
  | .spillWaitExpire point => Sys2Proof.Machine.execSpillWaitExpire point s
  | .spillReplay point slot => Sys2Proof.Machine.execSpillReplay point slot s
  | .neuronSleep core => Sys2Proof.Machine.execNeuronSleep core s
  | .telemetryTick slot source measured => Sys2Proof.Machine.execTelemetryTick slot source measured s
  | .espOwnerWrite port value => Sys2Proof.Machine.execEspOwnerWrite port value s
  | .espSyncWord port aligned => Sys2Proof.Machine.execEspSyncWord port aligned s
  | .espIdleWord port => Sys2Proof.Machine.execEspIdleWord port s
  | .espExtWord port => Sys2Proof.Machine.execEspExtWord port s
  | .espClockLoss port => Sys2Proof.Machine.execEspClockLoss port s
  | .espPixelWord port value => Sys2Proof.Machine.execEspPixelWord port value s
  | .espTimeHighWord port value => Sys2Proof.Machine.execEspTimeHighWord port value s
  | .espStatusWord port value => Sys2Proof.Machine.execEspStatusWord port value s
  | .espOverrunMarker port => Sys2Proof.Machine.execEspOverrunMarker port s
  | .espMap slot q rec => Sys2Proof.Machine.execEspMap slot q rec s
  | .espI3c slot q rec => Sys2Proof.Machine.execEspI3c slot q rec s
  | .i3cNackRetry port => Sys2Proof.Machine.execI3cNackRetry port s
  | .i3cTransferDone port data => Sys2Proof.Machine.execI3cTransferDone port data s
  | .espSettleEnd port => Sys2Proof.Machine.execEspSettleEnd port s
  | .espIbi port payload => Sys2Proof.Machine.execEspIbi port payload s
  | .espHotJoin port => Sys2Proof.Machine.execEspHotJoin port s
  | .winCfg slot q rec => Sys2Proof.Machine.execWinCfg slot q rec s
  | .winRing slot q rec => Sys2Proof.Machine.execWinRing slot q rec s
  | .windowBoundary group => Sys2Proof.Machine.execWindowBoundary group s
  | .windowFinalise group => Sys2Proof.Machine.execWindowFinalise group s
  | .espOvercurrentTrip port => Sys2Proof.Machine.execEspOvercurrentTrip port s
  | .camPresenceChange port present => Sys2Proof.Machine.execCamPresenceChange port present s
  | .codewordUncorrectable port => Sys2Proof.Machine.execCodewordUncorrectable port s
  | .dataFlit port hdr payload crc => Sys2Proof.Machine.execDataFlit port hdr payload crc s
  | .idleFlit port acked => Sys2Proof.Machine.execIdleFlit port acked s
  | .retryReq port acked expected => Sys2Proof.Machine.execRetryReq port acked expected s
  | .retryAckTimeout port => Sys2Proof.Machine.execRetryAckTimeout port s
  | .credit port acked freed => Sys2Proof.Machine.execCredit port acked freed s
  | .creditPeriodicSend port => Sys2Proof.Machine.execCreditPeriodicSend port s
  | .hello port version node peerPort lanes epoch cold startSeq credits => Sys2Proof.Machine.execHello port version node peerPort lanes epoch cold startSeq credits s
  | .laneMap port mask => Sys2Proof.Machine.execLaneMap port mask s
  | .downNotice port reason => Sys2Proof.Machine.execDownNotice port reason s
  | .escapeWaitExpire port => Sys2Proof.Machine.execEscapeWaitExpire port s
  | .flitAgeExpire port => Sys2Proof.Machine.execFlitAgeExpire port s
  | .stale src rtag epoch => Sys2Proof.Machine.execStale src rtag epoch s
  | .lnkPortEn port en => Sys2Proof.Machine.execLnkPortEn port en s
  | .lnkPortRetrain port => Sys2Proof.Machine.execLnkPortRetrain port s
  | .lnkPortFullEq port => Sys2Proof.Machine.execLnkPortFullEq port s
  | .portDetectRetry port => Sys2Proof.Machine.execPortDetectRetry port s
  | .portSignalDetect port lanes => Sys2Proof.Machine.execPortSignalDetect port lanes s
  | .portLanesLock port => Sys2Proof.Machine.execPortLanesLock port s
  | .portAlignDone port => Sys2Proof.Machine.execPortAlignDone port s
  | .portRetrainTimeout port failed above => Sys2Proof.Machine.execPortRetrainTimeout port failed above s
  | .portLockLoss port => Sys2Proof.Machine.execPortLockLoss port s
  | .lnkRtWrite index value => Sys2Proof.Machine.execLnkRtWrite index value s
  | .lnkRtCommit value => Sys2Proof.Machine.execLnkRtCommit value s
  | .routeFlip src newE time => Sys2Proof.Machine.execRouteFlip src newE time s
  | .routeFlipTime => Sys2Proof.Machine.execRouteFlipTime s
  | .routeBankRelease => Sys2Proof.Machine.execRouteBankRelease s
  | .ping src rtag time => Sys2Proof.Machine.execPing src rtag time s
  | .pong src rtag time => Sys2Proof.Machine.execPong src rtag time s
  | .pagePut src rtag move handle page stored crc => Sys2Proof.Machine.execPagePut src rtag move handle page stored crc s
  | .pageGet src rtag byLease move handle page => Sys2Proof.Machine.execPageGet src rtag byLease move handle page s
  | .moveDone src rtag move status stored crc => Sys2Proof.Machine.execMoveDone src rtag move status stored crc s
  | .pageRelease src move handle first count => Sys2Proof.Machine.execPageRelease src move handle first count s
  | .bulkData src rtag move off data => Sys2Proof.Machine.execBulkData src rtag move off data s
  | .peerMoveStall src move => Sys2Proof.Machine.execPeerMoveStall src move s
  | .collPart src seq span off partials => Sys2Proof.Machine.execCollPart src seq span off partials s
  | .collData src seq span off data => Sys2Proof.Machine.execCollData src seq span off data s
  | .spanPut src rtag rank span off data => Sys2Proof.Machine.execSpanPut src rtag rank span off data s
  | .spanGet src rtag rank span off len => Sys2Proof.Machine.execSpanGet src rtag rank span off len s
  | .spanSignal src rank span sem value => Sys2Proof.Machine.execSpanSignal src rank span sem value s
  | .spanBar src index span count => Sys2Proof.Machine.execSpanBar src index span count s
  | .spanData src rtag span off data => Sys2Proof.Machine.execSpanData src rtag span off data s
  | .spanAck src span highest => Sys2Proof.Machine.execSpanAck src span highest s
  | .timeSyncTick => Sys2Proof.Machine.execTimeSyncTick s
  | .syncReq port seq t1 rpl => Sys2Proof.Machine.execSyncReq port seq t1 rpl s
  | .syncResp port seq t2 t3 t4 locked stratum rpl => Sys2Proof.Machine.execSyncResp port seq t2 t3 t4 locked stratum rpl s
  | .beaconTick => Sys2Proof.Machine.execBeaconTick s
  | .beacon src hops level resign stall node term key gen stratum roll seq locked => Sys2Proof.Machine.execBeacon src hops level resign stall node term key gen stratum roll seq locked s
  | .managerLoss level => Sys2Proof.Machine.execManagerLoss level s
  | .candidateWaitExpire level => Sys2Proof.Machine.execCandidateWaitExpire level s
  | .candidate src hops level node term key seq => Sys2Proof.Machine.execCandidate src hops level node term key seq s
  | .electionTimeout level => Sys2Proof.Machine.execElectionTimeout level s
  | .hieResign => Sys2Proof.Machine.execHieResign s
  | .join src rtag level cont start build fw ledger total idx bases tag => Sys2Proof.Machine.execJoin src rtag level cont start build fw ledger total idx bases tag s
  | .joinAck src rtag status term tag => Sys2Proof.Machine.execJoinAck src rtag status term tag s
  | .joinSeriesTimeout node => Sys2Proof.Machine.execJoinSeriesTimeout node s
  | .statusTick => Sys2Proof.Machine.execStatusTick s
  | .status src rtag hbm clu lend1 lend2 ports sledUj snapTb tenantMj meterOk => Sys2Proof.Machine.execStatus src rtag hbm clu lend1 lend2 ports sledUj snapTb tenantMj meterOk s
  | .routeSet src rtag table first gen entries => Sys2Proof.Machine.execRouteSet src rtag table first gen entries s
  | .topologyRecompute => Sys2Proof.Machine.execTopologyRecompute s
  | .poolReq src rtag wanted => Sys2Proof.Machine.execPoolReq src rtag wanted s
  | .poolGrant src rtag term bases => Sys2Proof.Machine.execPoolGrant src rtag term bases s
  | .poolBlockReturn base => Sys2Proof.Machine.execPoolBlockReturn base s
  | .poolMapReplicate blocks => Sys2Proof.Machine.execPoolMapReplicate blocks s
  | .spanHold src rtag id txn modify cls words domain keys => Sys2Proof.Machine.execSpanHold src rtag id txn modify cls words domain keys s
  | .spanVote src rtag txn status amount => Sys2Proof.Machine.execSpanVote src rtag txn status amount s
  | .spanCommit src rtag txn commit => Sys2Proof.Machine.execSpanCommit src rtag txn commit s
  | .spanVoteTimeout txn => Sys2Proof.Machine.execSpanVoteTimeout txn s
  | .spanCommitTimeout mgr txn => Sys2Proof.Machine.execSpanCommitTimeout mgr txn s
  | .spanRequestTimeout f => Sys2Proof.Machine.execSpanRequestTimeout f s
  | .tenantOp src rtag id op home => Sys2Proof.Machine.execTenantOp src rtag id op home s
  | .spanHomeLoss slot => Sys2Proof.Machine.execSpanHomeLoss slot s
  | .keyWrap src rtag dom kg term key => Sys2Proof.Machine.execKeyWrap src rtag dom kg term key s
  | .lendQuery node answer => Sys2Proof.Machine.execLendQuery node answer s
  | .ledgerFwd src rtag origin index record => Sys2Proof.Machine.execLedgerFwd src rtag origin index record s
  | .ack src rtag echoed status ratio second valid => Sys2Proof.Machine.execAck src rtag echoed status ratio second valid s
  | .hieRequestTimeout tag => Sys2Proof.Machine.execHieRequestTimeout tag s
  | .rollStart workers chassis rows => Sys2Proof.Machine.execRollStart workers chassis rows s
  | .rollHalt => Sys2Proof.Machine.execRollHalt s
  | .rollResume => Sys2Proof.Machine.execRollResume s
  | .rollOffer src rtag wave move version size digest => Sys2Proof.Machine.execRollOffer src rtag wave move version size digest s
  | .rollActivate src rtag move => Sys2Proof.Machine.execRollActivate src rtag move s
  | .rollConfirm src rtag move => Sys2Proof.Machine.execRollConfirm src rtag move s
  | .rollReport src rtag move status => Sys2Proof.Machine.execRollReport src rtag move status s
  | .rollDrainExpire => Sys2Proof.Machine.execRollDrainExpire s
  | .rollSoakExpire => Sys2Proof.Machine.execRollSoakExpire s
  | .rollReportTimeout node => Sys2Proof.Machine.execRollReportTimeout node s
  | .ppsInPulse => Sys2Proof.Machine.execPpsInPulse s
  | .ppsOutSecond => Sys2Proof.Machine.execPpsOutSecond s
  | .hieSiteSecretWrite index value => Sys2Proof.Machine.execHieSiteSecretWrite index value s
  | .waitMonitorThreshold level us upward => Sys2Proof.Machine.execWaitMonitorThreshold level us upward s
  | .twLeaseWrite f win value => Sys2Proof.Machine.execTwLeaseWrite f win value s
  | .twLeasePeriodWrite f win value => Sys2Proof.Machine.execTwLeasePeriodWrite f win value s
  | .leaseExpire f => Sys2Proof.Machine.execLeaseExpire f s
  | .pfLeaseExpire => Sys2Proof.Machine.execPfLeaseExpire s
  | .writeStallTimeout f withheld => Sys2Proof.Machine.execWriteStallTimeout f withheld s
  | .writeStallExit f => Sys2Proof.Machine.execWriteStallExit f s
  | .readStallTimeout tag => Sys2Proof.Machine.execReadStallTimeout tag s
  | .dmaReadComplete tag data => Sys2Proof.Machine.execDmaReadComplete tag data s
  | .unexpectedCompletion f => Sys2Proof.Machine.execUnexpectedCompletion f s
  | .hostRequestError acc => Sys2Proof.Machine.execHostRequestError acc s
  | .poisonedCompletion acc => Sys2Proof.Machine.execPoisonedCompletion acc s
  | .msixUnmask f vec => Sys2Proof.Machine.execMsixUnmask f vec s
  | .vfFlr f => Sys2Proof.Machine.execVfFlr f s
  | .vfEnableClear => Sys2Proof.Machine.execVfEnableClear s
  | .pfFlr => Sys2Proof.Machine.execPfFlr s
  | .conventionalReset kind speed width => Sys2Proof.Machine.execConventionalReset kind speed width s
  | .bmeClear f => Sys2Proof.Machine.execBmeClear f s
  | .d3hotEntry f => Sys2Proof.Machine.execD3hotEntry f s
  | .ideStreamInsecure stream first last => Sys2Proof.Machine.execIdeStreamInsecure stream first last s
  | .ideKmKeyProg stream keySet key => Sys2Proof.Machine.execIdeKmKeyProg stream keySet key s
  | .spdmGetVersion => Sys2Proof.Machine.execSpdmGetVersion s
  | .spdmGetCapabilities => Sys2Proof.Machine.execSpdmGetCapabilities s
  | .spdmNegotiateAlgorithms asym hash dhe aead => Sys2Proof.Machine.execSpdmNegotiateAlgorithms asym hash dhe aead s
  | .spdmGetDigests => Sys2Proof.Machine.execSpdmGetDigests s
  | .spdmGetCertificate slot offset length => Sys2Proof.Machine.execSpdmGetCertificate slot offset length s
  | .spdmChallenge slot nonce => Sys2Proof.Machine.execSpdmChallenge slot nonce s
  | .spdmGetMeasurements index sign slot nonce => Sys2Proof.Machine.execSpdmGetMeasurements index sign slot nonce s
  | .spdmKeyExchange slot exchange => Sys2Proof.Machine.execSpdmKeyExchange slot exchange s
  | .spdmFinish verifies => Sys2Proof.Machine.execSpdmFinish verifies s
  | .spdmKeyUpdate op tag => Sys2Proof.Machine.execSpdmKeyUpdate op tag s
  | .spdmHeartbeat => Sys2Proof.Machine.execSpdmHeartbeat s
  | .spdmEndSession => Sys2Proof.Machine.execSpdmEndSession s
  | .hifRestartWarm key => Sys2Proof.Machine.execHifRestartWarm key s
  | .hifRestartCold key => Sys2Proof.Machine.execHifRestartCold key s
  | .mainGood sledEn => Sys2Proof.Machine.execMainGood sledEn s
  | .sledEnDeassert => Sys2Proof.Machine.execSledEnDeassert s
  | .quiesceTimeout => Sys2Proof.Machine.execQuiesceTimeout s
  | .railRegulationTimeout rail => Sys2Proof.Machine.execRailRegulationTimeout rail s
  | .startStepComplete n ok found => Sys2Proof.Machine.execStartStepComplete n ok found s
  | .startLimitExpire => Sys2Proof.Machine.execStartLimitExpire s
  | .startRetry => Sys2Proof.Machine.execStartRetry s
  | .rstSafeExit key => Sys2Proof.Machine.execRstSafeExit key s
  | .rootLockLoss => Sys2Proof.Machine.execRootLockLoss s
  | .overtempTrip => Sys2Proof.Machine.execOvertempTrip s
  | .overtempClear => Sys2Proof.Machine.execOvertempClear s
  | .powerCapTick => Sys2Proof.Machine.execPowerCapTick s
  | .thermalTick west east => Sys2Proof.Machine.execThermalTick west east s
  | .hkTransaction ok => Sys2Proof.Machine.execHkTransaction ok s
  | .rstUnit type index key => Sys2Proof.Machine.execRstUnit type index key s
  | .unitResetDeferred type index => Sys2Proof.Machine.execUnitResetDeferred type index s
  | .resetNotice type index => Sys2Proof.Machine.execResetNotice type index s
  | .watchdogExpire => Sys2Proof.Machine.execWatchdogExpire s
  | .watchdogReadyTimeout => Sys2Proof.Machine.execWatchdogReadyTimeout s
  | .fwReadySet => Sys2Proof.Machine.execFwReadySet s
  | .icConversionEnd n nv => Sys2Proof.Machine.execIcConversionEnd n nv s
  | .sdModulatorClip ch => Sys2Proof.Machine.execSdModulatorClip ch s
  | .adcUrgFinish conv input period => Sys2Proof.Machine.execAdcUrgFinish conv input period s
  | .adcUrgDrop conv input period => Sys2Proof.Machine.execAdcUrgDrop conv input period s
  | .adcSdCommit => Sys2Proof.Machine.execAdcSdCommit s
  | .adcIcCommit => Sys2Proof.Machine.execAdcIcCommit s
  | .adcSdCalStart => Sys2Proof.Machine.execAdcSdCalStart s
  | .sdCalComplete zeros refs => Sys2Proof.Machine.execSdCalComplete zeros refs s
  | .adcIcCalStart => Sys2Proof.Machine.execAdcIcCalStart s
  | .referenceCheckTick => Sys2Proof.Machine.execReferenceCheckTick s
  | .adcSyscalZero ic target input gain => Sys2Proof.Machine.execAdcSyscalZero ic target input gain s
  | .adcSyscalFull ic target input gain => Sys2Proof.Machine.execAdcSyscalFull ic target input gain s
  | .syscalPhaseComplete => Sys2Proof.Machine.execSyscalPhaseComplete s
  | .adcSyscalSave key => Sys2Proof.Machine.execAdcSyscalSave key s
  | .autorangeUp ch => Sys2Proof.Machine.execAutorangeUp ch s
  | .decOutput ch ones => Sys2Proof.Machine.execDecOutput ch ones s
  | .decCommit => Sys2Proof.Machine.execDecCommit s
  | .mtrSyncEdge frac => Sys2Proof.Machine.execMtrSyncEdge frac s
  | .decCtrlSync => Sys2Proof.Machine.execDecCtrlSync s
  | .decCtrlArm => Sys2Proof.Machine.execDecCtrlArm s
  | .decSyncInstant => Sys2Proof.Machine.execDecSyncInstant s
  | .decCaptureStart mask => Sys2Proof.Machine.execDecCaptureStart mask s
  | .mtrCycleEnd sled cross len samples => Sys2Proof.Machine.execMtrCycleEnd sled cross len samples s
  | .freqLossTimeout => Sys2Proof.Machine.execFreqLossTimeout s
  | .mtrHalfCycle elem samples => Sys2Proof.Machine.execMtrHalfCycle elem samples s
  | .cfPulseEmit k => Sys2Proof.Machine.execCfPulseEmit k s
  | .cfPulseEnd k => Sys2Proof.Machine.execCfPulseEnd k s
  | .mtrFramFlushTick => Sys2Proof.Machine.execMtrFramFlushTick s
  | .mtrEclr key => Sys2Proof.Machine.execMtrEclr key s
  | .mtrCommit => Sys2Proof.Machine.execMtrCommit s
  | .mtrCalGain elem n => Sys2Proof.Machine.execMtrCalGain elem n s
  | .mtrCalPhase elem n => Sys2Proof.Machine.execMtrCalPhase elem n s
  | .sledP1msTick => Sys2Proof.Machine.execSledP1msTick s
  | .mtrCycSeqRead requester => Sys2Proof.Machine.execMtrCycSeqRead requester s
  | .reconcileTick => Sys2Proof.Machine.execReconcileTick s
  | .accountingPeriodBoundary => Sys2Proof.Machine.execAccountingPeriodBoundary s
  | .overheadRound => Sys2Proof.Machine.execOverheadRound s
  | .overheadMissTimeout sec => Sys2Proof.Machine.execOverheadMissTimeout sec s
  | .nrgCommit => Sys2Proof.Machine.execNrgCommit s
  | .twNrgSeqRead f win requester => Sys2Proof.Machine.execTwNrgSeqRead f win requester s
  | .pnlUpdateFull party zones => Sys2Proof.Machine.execPnlUpdateFull party zones s
  | .pnlUpdatePartial party zones => Sys2Proof.Machine.execPnlUpdatePartial party zones s
  | .pnlUpdateClear party zones => Sys2Proof.Machine.execPnlUpdateClear party zones s
  | .panelFrameBoundary => Sys2Proof.Machine.execPanelFrameBoundary s
  | .panelRailStep ok => Sys2Proof.Machine.execPanelRailStep ok s
  | .panelRailHoldExpire => Sys2Proof.Machine.execPanelRailHoldExpire s
  | .panelRailFault => Sys2Proof.Machine.execPanelRailFault s
  | .panelRailRetry => Sys2Proof.Machine.execPanelRailRetry s
  | .pnlFbWrite party offset value => Sys2Proof.Machine.execPnlFbWrite party offset value s
  | .pnlTblCommit key => Sys2Proof.Machine.execPnlTblCommit key s
  | .pnlCommit => Sys2Proof.Machine.execPnlCommit s
  | .pnlBodyOwnWrite owner => Sys2Proof.Machine.execPnlBodyOwnWrite owner s
  | .pnlWakePress => Sys2Proof.Machine.execPnlWakePress s
  | .pnlWakeExpire => Sys2Proof.Machine.execPnlWakeExpire s
  | .mainLoss => Sys2Proof.Machine.execMainLoss s
  | .auxLoss => Sys2Proof.Machine.execAuxLoss s
  | .lodgeLoss => Sys2Proof.Machine.execLodgeLoss s
  | .auxReturn => Sys2Proof.Machine.execAuxReturn s
  | .lodgePowerUp aux main => Sys2Proof.Machine.execLodgePowerUp aux main s
  | .holdupStoreRefresh => Sys2Proof.Machine.execHoldupStoreRefresh s
  | .mainStoreCheck ok => Sys2Proof.Machine.execMainStoreCheck ok s
  | .updBegin => Sys2Proof.Machine.execUpdBegin s
  | .updWrite programOk => Sys2Proof.Machine.execUpdWrite programOk s
  | .updEnd => Sys2Proof.Machine.execUpdEnd s
  | .updVerify readOk => Sys2Proof.Machine.execUpdVerify readOk s
  | .updActivate now => Sys2Proof.Machine.execUpdActivate now s
  | .updConfirm => Sys2Proof.Machine.execUpdConfirm s
  | .updAbort => Sys2Proof.Machine.execUpdAbort s
  | .updRevert => Sys2Proof.Machine.execUpdRevert s
  | .updSessionIdleTimeout => Sys2Proof.Machine.execUpdSessionIdleTimeout s
  | .autoConfirmExpire => Sys2Proof.Machine.execAutoConfirmExpire s
  | .fwTraceSelWrite index => Sys2Proof.Machine.execFwTraceSelWrite index s
  | .fwCertCommit key => Sys2Proof.Machine.execFwCertCommit key s
  | .hbmCorrectedError pch row => Sys2Proof.Machine.execHbmCorrectedError pch row s
  | .rowRepairComplete pch row => Sys2Proof.Machine.execRowRepairComplete pch row s
  | .hbmUncorrectedError pch row slot obj page => Sys2Proof.Machine.execHbmUncorrectedError pch row slot obj page s
  | .laneSerInterval lane symbols => Sys2Proof.Machine.execLaneSerInterval lane symbols s
  | .unitFault type index block lost slot obj page => Sys2Proof.Machine.execUnitFault type index block lost slot obj page s
  | .targetedTestComplete type index passed => Sys2Proof.Machine.execTargetedTestComplete type index passed s
  | .flashOpTimeout move => Sys2Proof.Machine.execFlashOpTimeout move s
  | .hubDieFault src flight ctx prog => Sys2Proof.Machine.execHubDieFault src flight ctx prog s
  | .ledgerProgramComplete ok => Sys2Proof.Machine.execLedgerProgramComplete ok s
  | .ledgerRetryTick => Sys2Proof.Machine.execLedgerRetryTick s
  | .istSliceStart type index forced => Sys2Proof.Machine.execIstSliceStart type index forced s
  | .istSliceEnd type index failed => Sys2Proof.Machine.execIstSliceEnd type index failed s
  | .patrolScrubRead corrected => Sys2Proof.Machine.execPatrolScrubRead corrected s
  | .laneEyeCheck lane margin trained => Sys2Proof.Machine.execLaneEyeCheck lane margin trained s
  | .fltUnitSelWrite type index => Sys2Proof.Machine.execFltUnitSelWrite type index s
  | .fltLdgSelWrite index => Sys2Proof.Machine.execFltLdgSelWrite index s
  | .strapSample straps eligible cables => Sys2Proof.Machine.execStrapSample straps eligible cables s
  | .ldgLocationWrite value => Sys2Proof.Machine.execLdgLocationWrite value s
  | .sidebandAddressWrite bytes => Sys2Proof.Machine.execSidebandAddressWrite bytes s
  | .sidebandRead length => Sys2Proof.Machine.execSidebandRead length s
  | .setdasa static dynamic => Sys2Proof.Machine.execSetdasa static dynamic s
  | .setaasa => Sys2Proof.Machine.execSetaasa s
  | .entdaa dynamic => Sys2Proof.Machine.execEntdaa dynamic s
  | .rstdaa => Sys2Proof.Machine.execRstdaa s
  | .getpid => Sys2Proof.Machine.execGetpid s
  | .getbcr => Sys2Proof.Machine.execGetbcr s
  | .getdcr => Sys2Proof.Machine.execGetdcr s
  | .getstatus => Sys2Proof.Machine.execGetstatus s
  | .svcPresenceChange present => Sys2Proof.Machine.execSvcPresenceChange present s
  | .extest package din => Sys2Proof.Machine.execExtest package din s
  | .idcode package => Sys2Proof.Machine.execIdcode package s
  | .samplePreload package din => Sys2Proof.Machine.execSamplePreload package din s
  | .regacc word => Sys2Proof.Machine.execRegacc word s
  | .unlock signature => Sys2Proof.Machine.execUnlock signature s
  | .bypass package din => Sys2Proof.Machine.execBypass package din s
  | .persistWriteComplete target => Sys2Proof.Machine.execPersistWriteComplete target s
  | .xtalStop => Sys2Proof.Machine.execXtalStop s
  | .xtalReturn => Sys2Proof.Machine.execXtalReturn s

end Sys2Proof.Machine
end

