-- ==== Sys2Proof/Machine/Tick.lean ====
section
/-! DEFINITION. What passes with time: an idle step is one microsecond of the sled (log entry 3). -/

namespace Sys2Proof.Machine

/-- TB advances, a little faster or slower while a slew is under way (12, R266). -/
def advance (s : State) : State :=
  let y := s.lnk.sync
  let d := max (-32) (min 32 y.slew)
  let p := y.phase + d
  let full : Int := 100 * (ticksPerUs : Nat)
  let (n, p) := if full ≤ p then (2, p - full) else if p ≤ -full then (0, p + full) else (1, p)
  { s with tb := s.tb + n, lnk := { s.lnk with sync := { y with slew := y.slew - d, phase := p } } }

/-- Clock cycles of a microsecond that a throttled cluster swallows, and those that its launch gets (16, Table CLK-2; 20,
Table NRG-1). -/
def cyclesOf (k : Nat) (s : State) : State :=
  let slot := clusterSlot s k
  let n := coreK s k (slot.getD 1024)
  let s := match slot with | some i => charge i 0 (1600 - 25 * n) s | none => s
  if n = 0 ∨ !inService s k then s else s.bumpBy (Reg.CLK_SWALLOW k) (25 * n)

/-- Clock cycles of all clusters. -/
def swallow (s : State) : State := (List.range 128).foldl (fun s k => cyclesOf k s) s

/-- What each tenant holds in T1 is added up for the second under way, and whether the meters were blind in it (20, R420, R421). -/
def watchEnergy (s : State) : State :=
  let held := s.adm.tenants.foldl (fun (m : Map Nat) t => mput m t.1 (mgetD m 0 t.1 + cdiv (tierUse s t.1 1) unit2M)) s.nrg.area
  { s with nrg := { s.nrg with area := held, sledBad := s.nrg.sledBad || sledOff s, feedBad := s.nrg.feedBad || feedOff s } }

/-- One microsecond: nothing while the Lodge die has no power or XTAL has stopped. -/
def tick (s : State) : State :=
  if s.hld.ph = .off ∨ !s.rst.xtalOk then s
  else
    let s := watchEnergy (advance s)
    if s.rdN Reg.PWR_STATE = 3 then
      let s := swallow (s.bumpBy Reg.SCH_CLUSTER_AVAIL (1600 * clustersUp s))
      let s := retrainWeak s
      if s.hie.follow.isSome then tryActivate s else s
    else s

end Sys2Proof.Machine
end

