-- ==== Sys2Proof/Safety.lean ====
section
/-! DEFINITION. The words in which claims speak of a run: a step that completes, and when an instruction of a program or a command
of a queue issues. -/

namespace Sys2Proof

open Machine

/-- The step from `s` answers a next state. -/
def Completes (s : State) : Prop := ∃ t, step s = .next t

/-- `k` steps from `s` answer a state that satisfies `P`. -/
def RunsTo (k : Nat) (s : State) (P : State → Prop) : Prop := ∃ t, core.run k s = .next t ∧ P t

/-- The 64-bit word of an instruction: its major and its low 56 bits. -/
abbrev wordOf (major : Nat) (w : BitVec 56) : Nat := major * 2 ^ 56 + w.toNat

/-- Cluster `k` runs launch `l`, neither waits nor has ended, and its program holds the instruction at the cluster's index
(08, R166). -/
abbrev Issuing (s : State) (k major : Nat) (w : BitVec 56) (c : Cluster) (l : Launch) : Prop :=
  k < 128 ∧ s.clu k = some c ∧ s.lch c.launch = some l ∧ c.runs s l = true ∧ l.word c.pc = some (wordOf major w)

/-- The program goes on at an index: it holds an instruction there whose major is defined (08, R166). -/
abbrev Follows (l : Launch) (i : Nat) : Prop := (l.word i).map (fun x => cluMajors.contains (bits x 56 8)) = some true

/-- Bit 0 of the guard value is 1, so an instruction that is not a vector instruction has its effect (08, R167). -/
abbrev Guarded (c : Cluster) (major : Nat) (w : BitVec 56) : Prop := c.guard (wordOf major w) &&& 1 ≠ 0

/-- At least one lane is active, so a vector instruction has its effect (08, R167). -/
abbrev LaneActive (c : Cluster) (major : Nat) (w : BitVec 56) : Prop := c.guard (wordOf major w) ≠ 0

/-- The cluster at its next index. -/
def onward (c : Cluster) : Cluster := { c with pc := c.pc + 1 }

/-- The cluster with one more tile move in flight: it takes the next number, which goes to the register as its token (07, R156). -/
def withMove (c : Cluster) (d major : Nat) (op : TileOp) (left : Nat) : Cluster :=
  { c.setS d (BitVec.ofNat 64 (c.issued % 65536)) with
    issued := c.issued + 1, moves := c.moves ++ [{ num := c.issued, index := c.pc, major := major, op := op, left := left }] }

/-- The cluster can take another tile move: fewer than 64 are in flight, and none that failed falls out of the window of 64
tokens (07, R156; 08, R187). -/
abbrev CanMove (c : Cluster) : Prop :=
  c.moves.length < 64 ∧ (c.failed.find? (fun m => decide (m.num + 64 ≤ c.issued))).isNone = true

/-- What a lane takes in a rounding mode other than SR. -/
def laneBits (mode : Nat) : LaneOut → Word
  | .bits x _ => x
  | .num ty x _ => (numLane ty mode 0 x).1

/-- Only vector register `d`, in the lanes of `g`, the flags and the generators differ. -/
def OnlyLanes (c c' : Cluster) (d : Nat) (g : DWord) : Prop :=
  c' = { c with v := c'.v, flags := c'.flags, rng := c'.rng } ∧
    ∀ r j, j < 64 → (r ≠ d ∨ g.getLsbD j = false) → c'.vr r j = c.vr r j

/-- The queue or step program `key` is `p`, which runs and holds the instruction at its index, and no stop it was asked for takes
effect just before that instruction (09, R198, R201). -/
abbrev QIssuing (s : State) (key major : Nat) (w : BitVec 56) (p : QProg) : Prop :=
  s.prog key = some p ∧ p.runs s = true ∧ (p.code[p.pc]?).map (·.toNat) = some (wordOf major w) ∧
    (p.stopReq = none ∨ fencePoint major = false)

/-- The guard register has the value the instruction asks for (09, R198). -/
abbrev QGuarded (p : QProg) (major : Nat) (w : BitVec 56) : Prop :=
  p.regs.pr (wPG (wordOf major w)) ≠ decide (wPN (wordOf major w) = 1)

/-- The queue program holds, at an index, an instruction whose major is defined (09, R198). -/
abbrev QFollows (p : QProg) (i : Nat) : Prop := (p.code[i]?).map (fun x => queMajors.contains (wMajor x.toNat)) = some true

/-- The queue program at its next index with other registers. -/
def Machine.QProg.onward (p : QProg) (r : QRegs) : QProg := { p with regs := r, pc := p.pc + 1 }

/-- A ring command can start: the queue engine can take it, its FENCE is met, a held-store slot is free and its header's reserved
fields are zero (09, R190 to R192, R197). -/
abbrev CanStart (s : State) (slot q : Nat) (r : CmdRec) : Prop :=
  slot < 1024 ∧ q < 16 ∧ canFetch slot q s = true ∧ fenceMet slot q r none s = true ∧
    0 < s.heldFree slot ∧ badHeader r = false

/-- A ring command as fetched: its flight, and the state in which CR_CONS has moved on, the fetch is counted and charged and a
held-store slot is reserved (09, R190, R197). -/
def fetched (op slot q : Nat) (r : CmdRec) (s : State) : Nat × State :=
  let s := s.updQue slot q (fun k => { k with cons := (k.cons + 1) % 2 ^ 32, slotWait := false })
  let s := (s.twBump slot Reg.TW_Q_CMDS).bump Reg.QUE_CMDS
  newFlight op slot q .ring r (hostIn slot 64 s)

/-- A configuration that waited for an empty ring takes effect (09, R189). -/
def commitDue (slot q : Nat) (s : State) : State :=
  match (s.que slot q).commit with
  | some c => if (s.que slot q).prod = (s.que slot q).cons then applyQueueCommit slot q c s else s
  | none => s

end Sys2Proof
end

