-- ==== Sys2Proof/WellFormed.lean ====
section
/-! DEFINITION. Well-formed commands: every operand that names a unit, a slot, an index or a code lies in
the range that the spec gives it.  A command outside these ranges names something the hardware does not
have, and the meanings answer it with the fault `noSuchUnit`. -/

namespace Sys2Proof

/-- A register access names one of the 32 functions, and one of the 1,024 tenant windows of the PF (15). -/
def wfTarget : RegTarget → Bool
  | .bar0 _ | .cfgSriov | .cfgRebar => true
  | .window f win _ => decide (f < 32) && (match win with | some i => decide (i < 1024) && f == 0 | none => true)
  | .msix f _ | .cfgCommand f | .cfgMsix f | .cfgPower f | .cfgAerUnc f | .cfgAerCor f => decide (f < 32)

/-- The converter of an urgent request is the odd one, or one of the four pair converters (18). -/
def wfConv : Option Nat → Bool
  | some n => decide (n < 4)
  | none => true

/-- How many units of a type the fault registers count (26). -/
def wfFlt (type : Nat) : Nat := ([256, 144, 18, 128, 512, 64, 128, 32, 8, 4, 1, 2, 3][type]?).getD 0

/-- How many units of a type RST_UNIT can reset (16). -/
def wfRst (type : Nat) : Nat := ([128, 2, 3, 18, 64, 512, 32, 6][type]?).getD 0

/-- A corrected word lies in one of the 256 HBM pseudo-channels (12). -/
def wfPch : Option (Nat × Nat) → Bool
  | some (p, _) => decide (p < 256)
  | none => true

/-- Every operand of the command is in the range the spec gives it. -/
def Instr.wellFormed (i : Instr) : Bool :=
  match i with
  | .wideRegisterLowRead target => wfTarget target
  | .registerWrite target _ => wfTarget target
  | .stagedCommitApply _ => true
  | .gateAdmit _ f _ => decide (f < 32)
  | .modify _ f _ => decide (f < 32)
  | .attach _ f _ => decide (f < 32)
  | .detach _ f _ => decide (f < 32)
  | .release _ f _ => decide (f < 32)
  | .query _ f _ => decide (f < 32)
  | .withdraw _ f _ => decide (f < 32)
  | .deferMaxWaitExpire _ => true
  | .twNtcConsWrite _ f _ => decide (f < 32)
  | .attachLockoutExpire _ => true
  | .graceExpire slot => decide (slot < 1024)
  | .zeroiseComplete _ => true
  | .alloc slot q _ => decide (slot < 1024) && decide (q < 16)
  | .free slot q _ => decide (slot < 1024) && decide (q < 16)
  | .place slot q _ => decide (slot < 1024) && decide (q < 16)
  | .flush slot q _ => decide (slot < 1024) && decide (q < 16)
  | .flushJournalCommit _ => true
  | .regHost slot q _ => decide (slot < 1024) && decide (q < 16)
  | .deregHost slot q _ => decide (slot < 1024) && decide (q < 16)
  | .queryObj slot q _ => decide (slot < 1024) && decide (q < 16)
  | .write slot q _ => decide (slot < 1024) && decide (q < 16)
  | .read slot q _ => decide (slot < 1024) && decide (q < 16)
  | .moveCommit _ => true
  | .demotionScan => true
  | .t3MoveStallTimeout _ => true
  | .t3BackoffExpire slot region => decide (slot < 1024) && decide (region < 64)
  | .peerMoveTimeout _ _ => true
  | .peerLossTimeout _ => true
  | .peerHoldExpire node => decide (node < 65536)
  | .pfxLookup ctx => decide (ctx < 16384)
  | .blockPublish ctx _ => decide (ctx < 16384)
  | .pfxTtlEvict _ => true
  | .kvMoveIssue _ _ _ _ => true
  | .kvPageDeadline _ _ _ _ => true
  | .dirAnnounce _ _ _ _ _ => true
  | .dirQuery _ rtag _ _ _ _ => decide (rtag < 65536)
  | .dirAnswer _ _ _ _ _ _ _ => true
  | .remotePin _ rtag _ _ _ _ _ => decide (rtag < 65536)
  | .pinAnswer _ _ _ _ _ _ => true
  | .remoteUnpin _ _ => true
  | .remoteLeaseExpire _ => true
  | .directoryAnnounceDue => true
  | .pfxDomRotate dom => decide (dom < 4096)
  | .pfxDomPurge dom => decide (dom < 4096)
  | .modelLoad slot q _ => decide (slot < 1024) && decide (q < 16)
  | .modelUnload slot q _ => decide (slot < 1024) && decide (q < 16)
  | .ctxOpen slot q _ => decide (slot < 1024) && decide (q < 16)
  | .ctxClear slot q _ => decide (slot < 1024) && decide (q < 16)
  | .ctxClose slot q _ => decide (slot < 1024) && decide (q < 16)
  | .turn slot q _ => decide (slot < 1024) && decide (q < 16)
  | .cancel slot q _ => decide (slot < 1024) && decide (q < 16)
  | .stepPlan _ => true
  | .preemptExpire _ => true
  | .stepStart _ => true
  | .stepEnd _ => true
  | .reserveWindowBoundary => true
  | .twCtxSelWrite f _ _ => decide (f < 32)
  | .launchStart _ yieldUs => decide (yieldUs < 3)
  | .launchEnd _ _ => true
  | .waitLimitExpire cluster => decide (cluster < 128)
  | .timeLimitExpire _ => true
  | .tileMoveComplete cluster _ => decide (cluster < 128)
  | .kvPageDelivered _ _ _ _ => true
  | .clNop cluster _ => decide (cluster < 128)
  | .clAdd cluster _ => decide (cluster < 128)
  | .clSub cluster _ => decide (cluster < 128)
  | .clMul cluster _ => decide (cluster < 128)
  | .clMulh cluster _ => decide (cluster < 128)
  | .clMulhu cluster _ => decide (cluster < 128)
  | .clDiv cluster _ => decide (cluster < 128)
  | .clDivu cluster _ => decide (cluster < 128)
  | .clRem cluster _ => decide (cluster < 128)
  | .clRemu cluster _ => decide (cluster < 128)
  | .clAnd cluster _ => decide (cluster < 128)
  | .clOr cluster _ => decide (cluster < 128)
  | .clXor cluster _ => decide (cluster < 128)
  | .clShl cluster _ => decide (cluster < 128)
  | .clShr cluster _ => decide (cluster < 128)
  | .clSar cluster _ => decide (cluster < 128)
  | .clMin cluster _ => decide (cluster < 128)
  | .clMax cluster _ => decide (cluster < 128)
  | .clMinu cluster _ => decide (cluster < 128)
  | .clMaxu cluster _ => decide (cluster < 128)
  | .clAddi cluster _ => decide (cluster < 128)
  | .clAndi cluster _ => decide (cluster < 128)
  | .clOri cluster _ => decide (cluster < 128)
  | .clXori cluster _ => decide (cluster < 128)
  | .clShli cluster _ => decide (cluster < 128)
  | .clShri cluster _ => decide (cluster < 128)
  | .clSari cluster _ => decide (cluster < 128)
  | .clLi cluster _ => decide (cluster < 128)
  | .clLih cluster _ => decide (cluster < 128)
  | .clCmp cluster _ => decide (cluster < 128)
  | .clCmpi cluster _ => decide (cluster < 128)
  | .clPlog cluster _ => decide (cluster < 128)
  | .clMovsys cluster _ => decide (cluster < 128)
  | .clClrfl cluster _ => decide (cluster < 128)
  | .clTdset cluster _ => decide (cluster < 128)
  | .clTdget cluster _ => decide (cluster < 128)
  | .clTdadd cluster _ => decide (cluster < 128)
  | .clHset cluster _ => decide (cluster < 128)
  | .clHget cluster _ => decide (cluster < 128)
  | .clHmov cluster _ => decide (cluster < 128)
  | .clBr cluster _ => decide (cluster < 128)
  | .clBz cluster _ => decide (cluster < 128)
  | .clBnz cluster _ => decide (cluster < 128)
  | .clLoop cluster _ => decide (cluster < 128)
  | .clCall cluster _ => decide (cluster < 128)
  | .clJr cluster _ => decide (cluster < 128)
  | .clEnd cluster _ => decide (cluster < 128)
  | .clTld cluster _ => decide (cluster < 128)
  | .clTst cluster _ => decide (cluster < 128)
  | .clTcp cluster _ => decide (cluster < 128)
  | .clTput cluster _ => decide (cluster < 128)
  | .clTget cluster _ => decide (cluster < 128)
  | .clTzero cluster _ => decide (cluster < 128)
  | .clTwait cluster _ => decide (cluster < 128)
  | .clSadv cluster _ => decide (cluster < 128)
  | .clMma cluster _ => decide (cluster < 128)
  | .clMmaz cluster _ => decide (cluster < 128)
  | .clAzero cluster _ => decide (cluster < 128)
  | .clAld cluster _ => decide (cluster < 128)
  | .clAst cluster _ => decide (cluster < 128)
  | .clVadd cluster _ => decide (cluster < 128)
  | .clVsub cluster _ => decide (cluster < 128)
  | .clVmul cluster _ => decide (cluster < 128)
  | .clVfma cluster _ => decide (cluster < 128)
  | .clVdiv cluster _ => decide (cluster < 128)
  | .clVsqrt cluster _ => decide (cluster < 128)
  | .clVmin cluster _ => decide (cluster < 128)
  | .clVmax cluster _ => decide (cluster < 128)
  | .clVsgn cluster _ => decide (cluster < 128)
  | .clVsfu cluster _ => decide (cluster < 128)
  | .clVlog cluster _ => decide (cluster < 128)
  | .clVcmp cluster _ => decide (cluster < 128)
  | .clVsel cluster _ => decide (cluster < 128)
  | .clVmov cluster _ => decide (cluster < 128)
  | .clVcvt cluster _ => decide (cluster < 128)
  | .clVld cluster _ => decide (cluster < 128)
  | .clVst cluster _ => decide (cluster < 128)
  | .clVlda cluster _ => decide (cluster < 128)
  | .clVsta cluster _ => decide (cluster < 128)
  | .clVred cluster _ => decide (cluster < 128)
  | .clAred cluster _ => decide (cluster < 128)
  | .clFence cluster _ => decide (cluster < 128)
  | .clSignal cluster _ => decide (cluster < 128)
  | .clSwait cluster _ => decide (cluster < 128)
  | .clSread cluster _ => decide (cluster < 128)
  | .clBar cluster _ => decide (cluster < 128)
  | .clKvwait cluster _ => decide (cluster < 128)
  | .clKvrel cluster _ => decide (cluster < 128)
  | .clKvinfo cluster _ => decide (cluster < 128)
  | .clEvinj cluster _ => decide (cluster < 128)
  | .clEvinjv cluster _ => decide (cluster < 128)
  | .clCallr cluster _ => decide (cluster < 128)
  | .clCbcast cluster _ => decide (cluster < 128)
  | .clCagath cluster _ => decide (cluster < 128)
  | .clCrdsc cluster _ => decide (cluster < 128)
  | .clTokout cluster _ => decide (cluster < 128)
  | .clEot cluster _ => decide (cluster < 128)
  | .twDbProdWrite f _ q _ => decide (f < 32) && decide (q < 16)
  | .twCqHeadWrite f _ q _ => decide (f < 32) && decide (q < 16)
  | .twQsigWrite f _ q _ => decide (f < 32) && decide (q < 16)
  | .twQCommit f _ q _ => decide (f < 32) && decide (q < 16)
  | .vectorModerationExpire slot q => decide (slot < 1024) && decide (q < 16)
  | .heldSlotFreed slot q => decide (slot < 1024) && decide (q < 16)
  | .qprogRun slot q _ => decide (slot < 1024) && decide (q < 16)
  | .qprogStop slot q _ => decide (slot < 1024) && decide (q < 16)
  | .qprogFenceTimeout _ => true
  | .qpQop _ _ => true
  | .qpAddi _ _ => true
  | .qpLi _ _ => true
  | .qpLih _ _ => true
  | .qpCmp _ _ => true
  | .qpCmpi _ _ => true
  | .qpHset _ _ => true
  | .qpHget _ _ => true
  | .qpBr _ _ => true
  | .qpBz _ _ => true
  | .qpBnz _ _ => true
  | .qpLoop _ _ => true
  | .qpCall _ _ => true
  | .qpJr _ _ => true
  | .qpEnd _ _ => true
  | .qpLd _ _ => true
  | .qpSt _ _ => true
  | .qpCmd _ _ => true
  | .qpCwait _ _ => true
  | .qpCres _ _ => true
  | .qpLaunch _ _ => true
  | .qpLaunchs _ _ => true
  | .qpLwait _ _ => true
  | .qpLrep _ _ => true
  | .qpSignal _ _ => true
  | .qpSwait _ _ => true
  | .qpFence _ _ => true
  | .qpPark _ _ => true
  | .parkWake _ => true
  | .qpTime _ _ => true
  | .qpKvres _ _ => true
  | .qpPost _ _ => true
  | .evCoreLoad slot q _ => decide (slot < 1024) && decide (q < 16)
  | .evCoreClear slot q _ => decide (slot < 1024) && decide (q < 16)
  | .evRoute slot q _ => decide (slot < 1024) && decide (q < 16)
  | .evCommit slot q _ => decide (slot < 1024) && decide (q < 16)
  | .evfCommit _ => true
  | .evInject slot q _ => decide (slot < 1024) && decide (q < 16)
  | .evRing slot q _ => decide (slot < 1024) && decide (q < 16)
  | .evTelem slot q _ => decide (slot < 1024) && decide (q < 16)
  | .evCoreRead slot q _ => decide (slot < 1024) && decide (q < 16)
  | .eventRouteHop _ => true
  | .neuronInputEvent core => decide (core < 512)
  | .evRingVectorTick slot => decide (slot < 1024)
  | .twEvHeadWrite f _ _ => decide (f < 32)
  | .evBatchTimeout _ slot => decide (slot < 1024)
  | .evBatch _ _ => true
  | .eventBankFlip => true
  | .eventBankDrained => true
  | .eventBankResyncDone => true
  | .spillWaitExpire _ => true
  | .spillReplay _ slot => decide (slot < 1024)
  | .neuronSleep core => decide (core < 512)
  | .telemetryTick slot source _ => decide (slot < 1024) && decide (source < 7)
  | .espOwnerWrite port _ => decide (port < 2)
  | .espSyncWord port _ => decide (port < 2)
  | .espIdleWord port => decide (port < 2)
  | .espExtWord port => decide (port < 2)
  | .espClockLoss port => decide (port < 2)
  | .espPixelWord port _ => decide (port < 2)
  | .espTimeHighWord port _ => decide (port < 2)
  | .espStatusWord port _ => decide (port < 2)
  | .espOverrunMarker port => decide (port < 2)
  | .espMap slot q _ => decide (slot < 1024) && decide (q < 16)
  | .espI3c slot q _ => decide (slot < 1024) && decide (q < 16)
  | .i3cNackRetry port => decide (port < 2)
  | .i3cTransferDone port _ => decide (port < 2)
  | .espSettleEnd port => decide (port < 2)
  | .espIbi port _ => decide (port < 2)
  | .espHotJoin port => decide (port < 2)
  | .winCfg slot q _ => decide (slot < 1024) && decide (q < 16)
  | .winRing slot q _ => decide (slot < 1024) && decide (q < 16)
  | .windowBoundary group => decide (group < 64)
  | .windowFinalise group => decide (group < 64)
  | .espOvercurrentTrip port => decide (port < 2)
  | .camPresenceChange port _ => decide (port < 2)
  | .codewordUncorrectable port => decide (port < 18)
  | .dataFlit port _ _ _ => decide (port < 18)
  | .idleFlit port acked => decide (port < 18) && decide (acked < 4096)
  | .retryReq port acked expected => decide (port < 18) && decide (acked < 4096) && decide (expected < 4096)
  | .retryAckTimeout port => decide (port < 18)
  | .credit port acked _ => decide (port < 18) && decide (acked < 4096)
  | .creditPeriodicSend port => decide (port < 18)
  | .hello port version node peerPort lanes epoch _ _ _ => decide (port < 18) && decide (version < 256) && decide (node < 65536) && decide (peerPort < 32) && decide (lanes < 16) && decide (epoch < 256)
  | .laneMap port _ => decide (port < 18)
  | .downNotice port reason => decide (port < 18) && decide (reason < 256)
  | .escapeWaitExpire port => decide (port < 18)
  | .flitAgeExpire port => decide (port < 18)
  | .stale src rtag epoch => decide (src < 65536) && decide (rtag < 65536) && decide (epoch < 256)
  | .lnkPortEn port _ => decide (port < 18)
  | .lnkPortRetrain port => decide (port < 18)
  | .lnkPortFullEq port => decide (port < 18)
  | .portDetectRetry port => decide (port < 18)
  | .portSignalDetect port _ => decide (port < 18)
  | .portLanesLock port => decide (port < 18)
  | .portAlignDone port => decide (port < 18)
  | .portRetrainTimeout port _ _ => decide (port < 18)
  | .portLockLoss port => decide (port < 18)
  | .lnkRtWrite index _ => decide (index < 112)
  | .lnkRtCommit _ => true
  | .routeFlip src newE _ => decide (src < 65536) && decide (newE < 2)
  | .routeFlipTime => true
  | .routeBankRelease => true
  | .ping src rtag _ => decide (src < 65536) && decide (rtag < 65536)
  | .pong src rtag _ => decide (src < 65536) && decide (rtag < 65536)
  | .pagePut src rtag _ _ _ _ _ => decide (src < 65536) && decide (rtag < 65536)
  | .pageGet src rtag _ _ _ _ => decide (src < 65536) && decide (rtag < 65536)
  | .moveDone src rtag _ _ _ _ => decide (src < 65536) && decide (rtag < 65536)
  | .pageRelease src _ _ _ _ => decide (src < 65536)
  | .bulkData src rtag _ _ _ => decide (src < 65536) && decide (rtag < 65536)
  | .peerMoveStall src _ => decide (src < 65536)
  | .collPart src seq _ _ _ => decide (src < 65536) && decide (seq < 65536)
  | .collData src seq _ _ _ => decide (src < 65536) && decide (seq < 65536)
  | .spanPut src rtag rank _ _ _ => decide (src < 65536) && decide (rtag < 65536) && decide (rank < 8192)
  | .spanGet src rtag rank _ _ _ => decide (src < 65536) && decide (rtag < 65536) && decide (rank < 8192)
  | .spanSignal src rank _ sem _ => decide (src < 65536) && decide (rank < 8192) && decide (sem < 32)
  | .spanBar src index _ _ => decide (src < 65536) && decide (index < 65536)
  | .spanData src rtag _ _ _ => decide (src < 65536) && decide (rtag < 65536)
  | .spanAck src _ highest => decide (src < 65536) && decide (highest < 65536)
  | .timeSyncTick => true
  | .syncReq port seq _ _ => decide (port < 18) && decide (seq < 65536)
  | .syncResp port seq _ _ _ _ stratum _ => decide (port < 18) && decide (seq < 65536) && decide (stratum < 16)
  | .beaconTick => true
  | .beacon src hops level _ _ node _ _ _ stratum roll _ _ => decide (src < 65536) && decide (hops < 16) && decide (level < 3) && decide (node < 65536) && decide (stratum < 16) && decide (roll < 256)
  | .managerLoss level => decide (level < 3)
  | .candidateWaitExpire level => decide (level < 3)
  | .candidate src hops level node _ _ _ => decide (src < 65536) && decide (hops < 16) && decide (level < 3) && decide (node < 65536)
  | .electionTimeout level => decide (level < 3)
  | .hieResign => true
  | .join src rtag level _ _ _ _ _ _ _ _ _ => decide (src < 65536) && decide (rtag < 65536) && decide (level < 3)
  | .joinAck src rtag _ _ _ => decide (src < 65536) && decide (rtag < 65536)
  | .joinSeriesTimeout node => decide (node < 65536)
  | .statusTick => true
  | .status src rtag _ _ _ _ _ _ _ _ _ => decide (src < 65536) && decide (rtag < 65536)
  | .routeSet src rtag table _ _ _ => decide (src < 65536) && decide (rtag < 65536) && decide (table < 3)
  | .topologyRecompute => true
  | .poolReq src rtag _ => decide (src < 65536) && decide (rtag < 65536)
  | .poolGrant src rtag _ _ => decide (src < 65536) && decide (rtag < 65536)
  | .poolBlockReturn base => decide (base < 65536)
  | .poolMapReplicate _ => true
  | .spanHold src rtag id _ _ cls _ domain _ => decide (src < 65536) && decide (rtag < 65536) && decide (id < 65536) && decide (cls < 4) && decide (domain < 4096)
  | .spanVote src rtag _ _ _ => decide (src < 65536) && decide (rtag < 65536)
  | .spanCommit src rtag _ _ => decide (src < 65536) && decide (rtag < 65536)
  | .spanVoteTimeout _ => true
  | .spanCommitTimeout mgr _ => decide (mgr < 65536)
  | .spanRequestTimeout f => decide (f < 32)
  | .tenantOp src rtag id op _ => decide (src < 65536) && decide (rtag < 65536) && decide (id < 65536) && decide (op < 4)
  | .spanHomeLoss slot => decide (slot < 1024)
  | .keyWrap src rtag dom kg _ _ => decide (src < 65536) && decide (rtag < 65536) && decide (dom < 4096) && decide (kg < 16)
  | .lendQuery node _ => decide (node < 65536)
  | .ledgerFwd src rtag origin _ _ => decide (src < 65536) && decide (rtag < 65536) && decide (origin < 65536)
  | .ack src rtag echoed _ _ _ _ => decide (src < 65536) && decide (rtag < 65536) && decide (echoed < 256)
  | .hieRequestTimeout tag => decide (tag < 65536)
  | .rollStart _ _ _ => true
  | .rollHalt => true
  | .rollResume => true
  | .rollOffer src rtag wave _ _ _ _ => decide (src < 65536) && decide (rtag < 65536) && decide (wave < 8)
  | .rollActivate src rtag _ => decide (src < 65536) && decide (rtag < 65536)
  | .rollConfirm src rtag _ => decide (src < 65536) && decide (rtag < 65536)
  | .rollReport src rtag _ _ => decide (src < 65536) && decide (rtag < 65536)
  | .rollDrainExpire => true
  | .rollSoakExpire => true
  | .rollReportTimeout node => decide (node < 65536)
  | .ppsInPulse => true
  | .ppsOutSecond => true
  | .hieSiteSecretWrite index _ => decide (index < 8)
  | .waitMonitorThreshold level _ _ => decide (level < 6) && decide (1 ≤ level)
  | .twLeaseWrite f _ _ => decide (f < 32)
  | .twLeasePeriodWrite f _ _ => decide (f < 32)
  | .leaseExpire f => decide (f < 32) && decide (0 < f)
  | .pfLeaseExpire => true
  | .writeStallTimeout f _ => decide (f < 32)
  | .writeStallExit f => decide (f < 32)
  | .readStallTimeout _ => true
  | .dmaReadComplete _ _ => true
  | .unexpectedCompletion f => decide (f < 32)
  | .hostRequestError _ => true
  | .poisonedCompletion _ => true
  | .msixUnmask f vec => decide (f < 32) && decide (vec < 2048) && decide (vec < if f = 0 then 2048 else 64)
  | .vfFlr f => decide (f < 32) && decide (0 < f)
  | .vfEnableClear => true
  | .pfFlr => true
  | .conventionalReset kind speed width => decide (kind < 4) && decide (speed < 7) && decide (width < 17)
  | .bmeClear f => decide (f < 32)
  | .d3hotEntry f => decide (f < 32)
  | .ideStreamInsecure stream first last => decide (stream < 2) && decide (first < 32) && decide (last < 32)
  | .ideKmKeyProg _ _ _ => true
  | .spdmGetVersion => true
  | .spdmGetCapabilities => true
  | .spdmNegotiateAlgorithms _ _ _ _ => true
  | .spdmGetDigests => true
  | .spdmGetCertificate _ _ _ => true
  | .spdmChallenge _ _ => true
  | .spdmGetMeasurements _ _ _ _ => true
  | .spdmKeyExchange _ _ => true
  | .spdmFinish _ => true
  | .spdmKeyUpdate _ _ => true
  | .spdmHeartbeat => true
  | .spdmEndSession => true
  | .hifRestartWarm _ => true
  | .hifRestartCold _ => true
  | .mainGood _ => true
  | .sledEnDeassert => true
  | .quiesceTimeout => true
  | .railRegulationTimeout rail => decide (rail < 12)
  | .startStepComplete n _ _ => decide (n < 15)
  | .startLimitExpire => true
  | .startRetry => true
  | .rstSafeExit _ => true
  | .rootLockLoss => true
  | .overtempTrip => true
  | .overtempClear => true
  | .powerCapTick => true
  | .thermalTick _ _ => true
  | .hkTransaction _ => true
  | .rstUnit type index _ => decide (type < 16) && decide (index < 2048)
  | .unitResetDeferred type index => decide (type < 8) && decide (index < 2048) && decide (index < wfRst type)
  | .resetNotice type index => decide (type < 8) && decide (index < 2048) && decide (index < wfRst type)
  | .watchdogExpire => true
  | .watchdogReadyTimeout => true
  | .fwReadySet => true
  | .icConversionEnd n _ => decide (n < 4)
  | .sdModulatorClip ch => decide (ch < 8)
  | .adcUrgFinish conv input period => decide (input < 16) && decide (period < 8) && wfConv conv
  | .adcUrgDrop conv input period => decide (input < 16) && decide (period < 8) && wfConv conv
  | .adcSdCommit => true
  | .adcIcCommit => true
  | .adcSdCalStart => true
  | .sdCalComplete _ _ => true
  | .adcIcCalStart => true
  | .referenceCheckTick => true
  | .adcSyscalZero _ target input gain => decide (target < 8) && decide (input < 16) && decide (gain < 8)
  | .adcSyscalFull _ target input gain => decide (target < 8) && decide (input < 16) && decide (gain < 8)
  | .syscalPhaseComplete => true
  | .adcSyscalSave _ => true
  | .autorangeUp ch => decide (ch < 8)
  | .decOutput ch _ => decide (ch < 8)
  | .decCommit => true
  | .mtrSyncEdge frac => decide (frac < 640)
  | .decCtrlSync => true
  | .decCtrlArm => true
  | .decSyncInstant => true
  | .decCaptureStart mask => decide (mask < 256)
  | .mtrCycleEnd _ _ _ _ => true
  | .freqLossTimeout => true
  | .mtrHalfCycle elem _ => decide (elem < 3)
  | .cfPulseEmit k => decide (k < 3)
  | .cfPulseEnd k => decide (k < 3)
  | .mtrFramFlushTick => true
  | .mtrEclr _ => true
  | .mtrCommit => true
  | .mtrCalGain elem n => decide (elem < 3) && decide (n < 256)
  | .mtrCalPhase elem n => decide (elem < 3) && decide (n < 256)
  | .sledP1msTick => true
  | .mtrCycSeqRead _ => true
  | .reconcileTick => true
  | .accountingPeriodBoundary => true
  | .overheadRound => true
  | .overheadMissTimeout _ => true
  | .nrgCommit => true
  | .twNrgSeqRead f _ _ => decide (f < 32)
  | .pnlUpdateFull party zones => decide (party < 3) && decide (zones < 4)
  | .pnlUpdatePartial party zones => decide (party < 3) && decide (zones < 4)
  | .pnlUpdateClear party zones => decide (party < 3) && decide (zones < 4)
  | .panelFrameBoundary => true
  | .panelRailStep _ => true
  | .panelRailHoldExpire => true
  | .panelRailFault => true
  | .panelRailRetry => true
  | .pnlFbWrite party offset _ => decide (party < 3) && decide (offset < 30000)
  | .pnlTblCommit _ => true
  | .pnlCommit => true
  | .pnlBodyOwnWrite _ => true
  | .pnlWakePress => true
  | .pnlWakeExpire => true
  | .mainLoss => true
  | .auxLoss => true
  | .lodgeLoss => true
  | .auxReturn => true
  | .lodgePowerUp _ _ => true
  | .holdupStoreRefresh => true
  | .mainStoreCheck _ => true
  | .updBegin => true
  | .updWrite _ => true
  | .updEnd => true
  | .updVerify _ => true
  | .updActivate _ => true
  | .updConfirm => true
  | .updAbort => true
  | .updRevert => true
  | .updSessionIdleTimeout => true
  | .autoConfirmExpire => true
  | .fwTraceSelWrite _ => true
  | .fwCertCommit _ => true
  | .hbmCorrectedError pch _ => decide (pch < 256)
  | .rowRepairComplete pch _ => decide (pch < 256)
  | .hbmUncorrectedError pch _ _ _ _ => decide (pch < 256)
  | .laneSerInterval lane _ => decide (lane < 144)
  | .unitFault type index _ _ _ _ _ => decide (type < 13) && decide (index < 512) && decide (index < wfFlt type) && (decide (3 ≤ type ∧ type ≤ 6) || type == 11 || type == 12)
  | .targetedTestComplete type index _ => decide (type < 6) && decide (index < 512) && decide (3 ≤ type ∧ type ≤ 5 ∧ index < wfFlt type)
  | .flashOpTimeout _ => true
  | .hubDieFault src _ _ _ => decide (src < 16)
  | .ledgerProgramComplete _ => true
  | .ledgerRetryTick => true
  | .istSliceStart type index _ => decide (type < 6) && decide (index < 512) && decide (3 ≤ type ∧ type ≤ 5 ∧ index < wfFlt type)
  | .istSliceEnd type index _ => decide (type < 6) && decide (index < 512) && decide (3 ≤ type ∧ type ≤ 5 ∧ index < wfFlt type)
  | .patrolScrubRead corrected => wfPch corrected
  | .laneEyeCheck lane _ _ => decide (lane < 144)
  | .fltUnitSelWrite type index => decide (type < 16) && decide (index < 1024)
  | .fltLdgSelWrite _ => true
  | .strapSample straps _ _ => decide (straps < 32)
  | .ldgLocationWrite _ => true
  | .sidebandAddressWrite _ => true
  | .sidebandRead _ => true
  | .setdasa static dynamic => decide (static < 128) && decide (dynamic < 128)
  | .setaasa => true
  | .entdaa dynamic => decide (dynamic < 128)
  | .rstdaa => true
  | .getpid => true
  | .getbcr => true
  | .getdcr => true
  | .getstatus => true
  | .svcPresenceChange _ => true
  | .extest _ _ => true
  | .idcode _ => true
  | .samplePreload _ _ => true
  | .regacc _ => true
  | .unlock _ => true
  | .bypass _ _ => true
  | .persistWriteComplete _ => true
  | .xtalStop => true
  | .xtalReturn => true

end Sys2Proof
end

