-- ==== Sys2Proof/Certificates/Slice0/Obligations.lean ====
section
/-! DEFINITION. The statements for the provers. -/

open Sys2Proof Sys2Proof.Machine

/-- For every command c, every list of commands behind it and every state s: the step of s with c in front of its queue is exec c on s with the rest of the queue. -/
def Obligations.StepTakesTheFrontCommand : Prop :=
  (∀ (c : Instr) (rest : List Instr) (s : State), step { s with pending := c :: rest } = exec c { s with pending := rest })

/-- The model's choice of log entry 3: a step on an empty queue is one microsecond. The three clauses: the step on an empty queue answers the state after a microsecond; while the Lodge die is off or XTAL has stopped nothing changes; and with no slew under way and the sled outside RUN the timebase is one microsecond further. -/
def Obligations.EmptyQueueLetsTimePass : Prop :=
  (∀ (s : State), s.pending = [] → step s = .next (tick s)) ∧
  (∀ (s : State), (s.hld.ph = .off ∨ s.rst.xtalOk = false) → tick s = s) ∧
  (∀ (s : State), s.hld.ph ≠ .off → s.rst.xtalOk = true → s.rdN Reg.PWR_STATE ≠ 3 → s.lnk.sync.slew = 0 → s.lnk.sync.phase.natAbs < 100 * ticksPerUs → (tick s).tb = s.tb + 1)

/-- For every word address of PF BAR0 outside the Lodge window and the own-tenant window whose write is not the action of a row of its own, in every state in which the access reaches the device and is served: where a register is and none of its fields has a range, the write answers a next state in which the RW bits of the word are the value written, its RW1C bits that were written 1 are clear and every other bit is as before; STG bits go to the staged copy and not to the register; every other register, and everything but the register file, the staged copies and the durable copies, is as before. Where no register is, the write does nothing. -/
def Obligations.RegisterWriteObeysAccessCodes : Prop :=
  (∀ (a : Nat) (w : Word) (s : State) (r : RegRow), reaches s 0 none = true → served s a = true → a % 4 = 0 → inLodge a = false → ¬ (0x400000 ≤ a ∧ a < 0x500000) → writeAct a w s = none → regRow a = some r → r.cell a = (a, false) → fieldRules a = [] → ∃ t, exec (.registerWrite (.bar0 a) w) s = .next t ∧ t.rd a = ((s.rd a &&& ~~~(BitVec.ofNat 64 r.rw &&& 0xFFFFFFFF)) ||| (w.zeroExtend 64 &&& (BitVec.ofNat 64 r.rw &&& 0xFFFFFFFF))) &&& ~~~(w.zeroExtend 64 &&& (BitVec.ofNat 64 r.rw1c &&& 0xFFFFFFFF)) ∧ (∀ b, b ≠ a → t.rd b = s.rd b) ∧ (r.stg = 0 → t.staged = s.staged) ∧ t = { s with regs := t.regs, staged := t.staged, nvOld := t.nvOld }) ∧
  (∀ (a : Nat) (w : Word) (s : State) (r : RegRow), reaches s 0 none = true → served s a = true → a % 4 = 0 → inLodge a = false → ¬ (0x400000 ≤ a ∧ a < 0x500000) → writeAct a w s = none → regRow a = some r → r.cell a = (a, false) → fieldRules a = [] → r.rw = 0 ∧ r.rw1c = 0 → r.stg ≠ 0 → ∃ t, exec (.registerWrite (.bar0 a) w) s = .next t ∧ t.regs = s.regs ∧ t.stg a = (s.stg a &&& ~~~(BitVec.ofNat 64 r.stg &&& 0xFFFFFFFF)) ||| (w.zeroExtend 64 &&& (BitVec.ofNat 64 r.stg &&& 0xFFFFFFFF)) ∧ (∀ b, b ≠ a → t.stg b = s.stg b) ∧ t = { s with staged := t.staged }) ∧
  (∀ (a : Nat) (w : Word) (s : State), reaches s 0 none = true → served s a = true → a % 4 = 0 → inLodge a = false → ¬ (0x400000 ≤ a ∧ a < 0x500000) → writeAct a w s = none → regRow a = none → exec (.registerWrite (.bar0 a) w) s = .next s)

/-- For every word address of PF BAR0 outside the Lodge window and the own-tenant window that is not a value register of the meter, in every state in which the access reaches the device and is served. A register that is not wide and holds its own value reads as its value with STG bits from the staged copy and WO bits zero, and the read changes nothing. A read of the lowest word of a wide register gives the live word and latches all its words; a later read of a higher word by the same requester gives the latched word, which for a 64-bit register ends the latch; without a latch it gives the live word. -/
def Obligations.RegisterReadAndWideLatch : Prop :=
  (∀ (a : Nat) (s : State) (r : RegRow), reaches s 0 none = true → served s a = true → a % 4 = 0 → inLodge a = false → ¬ (0x400000 ≤ a ∧ a < 0x500000) → a ∉ meterAddrs → regRow a = some r → r.cell a = (a, false) → viewCell s a = none → wideOf wideRegs (some r) a = none → exec (.wideRegisterLowRead (.bar0 a)) s = .next (s.emit (.read 0 [(((s.rd a &&& ~~~(BitVec.ofNat 64 r.stg)) ||| (s.stg a &&& BitVec.ofNat 64 r.stg)) &&& ~~~(BitVec.ofNat 64 r.wo)).extractLsb' 0 32]))) ∧
  (∀ (a n : Nat) (s : State), reaches s 0 none = true → served s a = true → a % 4 = 0 → inLodge a = false → ¬ (0x400000 ≤ a ∧ a < 0x500000) → a ∉ meterAddrs → wideOf wideRegs (regRow a) a = some (a, n) → exec (.wideRegisterLowRead (.bar0 a)) s = .next ((setLatch 0 none a (some ((List.range n).map (fun i => liveWord s (a + 4 * i)))) s).emit (.read 0 [liveWord s a]))) ∧
  (∀ (a n i : Nat) (s : State) (l : Latch), reaches s 0 none = true → served s (a + 4 * i) = true → a % 4 = 0 → inLodge (a + 4 * i) = false → ¬ (0x400000 ≤ a + 4 * i ∧ a + 4 * i < 0x500000) → 0 < i → a + 4 * i ∉ meterAddrs → wideOf wideRegs (regRow (a + 4 * i)) (a + 4 * i) = some (a, n) → latchOf s 0 none a = some l → exec (.wideRegisterLowRead (.bar0 (a + 4 * i))) s = .next ((if n = 2 then setLatch 0 none a none s else s).emit (.read 0 [l.words.getD i 0]))) ∧
  (∀ (a n i : Nat) (s : State), reaches s 0 none = true → served s (a + 4 * i) = true → a % 4 = 0 → inLodge (a + 4 * i) = false → ¬ (0x400000 ≤ a + 4 * i ∧ a + 4 * i < 0x500000) → 0 < i → a + 4 * i ∉ meterAddrs → wideOf wideRegs (regRow (a + 4 * i)) (a + 4 * i) = some (a, n) → latchOf s 0 none a = none → exec (.wideRegisterLowRead (.bar0 (a + 4 * i))) s = .next (s.emit (.read 0 [liveWord s (a + 4 * i)]))) ∧
  (∀ (a : Nat) (s : State), reaches s 0 none = false → exec (.wideRegisterLowRead (.bar0 a)) s = .next (s.emit (.read 0 [])))

/-- Writing 1 to bit 0 of PWR_CAP_COMMIT, TIER_WM_COMMIT, PFX_DOM_COMMIT or SCH_COMMIT puts the group in flight with the values its staged copies hold, and writing 0 does nothing. At the safe point of a domain, scheduling or cap commit in flight, every register of it takes the value taken at the COMMIT write, every other register is unchanged, every staged copy reads as before, and the group is no longer in flight; a safe point with nothing in flight does nothing. -/
def Obligations.StagedCommitAppliesTheTakenValues : Prop :=
  (∀ (a : Nat) (w : Word) (s : State) (g : Nat → Bool), ((a, g) ∈ ([(Reg.PWR_CAP_COMMIT, capGroup), (Reg.TIER_WM_COMMIT, wmGroup), (Reg.PFX_DOM_COMMIT, domGroup), (Reg.SCH_COMMIT, schGroup)] : List (Nat × (Nat → Bool)))) → reaches s 0 none = true → inSafe s = false → exec (.registerWrite (.bar0 a) w) s = .next (if w.getLsbD 0 then { s with inflight := (a, s.staged.filter (fun c => g c.1)) :: s.inflight.filter (fun c => c.1 != a) } else s)) ∧
  (∀ (a : Nat) (vs : RegFile) (s : State), (a = Reg.PFX_DOM_COMMIT ∨ a = Reg.SCH_COMMIT ∨ a = Reg.PWR_CAP_COMMIT) → s.inflight.find? (fun c => c.1 == a) = some (a, vs) → (vs.map (·.1)).Nodup → ∃ t, exec (.stagedCommitApply a) s = .next t ∧ (∀ c v, (c, v) ∈ vs → t.rd c = v) ∧ (∀ c, c ∉ vs.map (·.1) → t.rd c = s.rd c) ∧ (∀ c, c ∈ vs.map (·.1) → t.stg c = s.stg c) ∧ t.inflight = s.inflight.filter (fun d => d.1 != a) ∧ t = { s with regs := t.regs, staged := t.staged, nvOld := t.nvOld, inflight := t.inflight }) ∧
  (∀ (a : Nat) (s : State), s.inflight.any (fun c => c.1 == a) = false → exec (.stagedCommitApply a) s = .next s)

/-- PERSIST_WRITE_COMPLETE of a register drops the old durable value of that register only; of ADC_SYSCAL_SAVE with a save under way it keeps the saved values and ADC_SYSCAL_SAVE_STATUS reads 1; of MTR_CAL with a save under way MTR_CAL_STATUS bit 3 reads 1; with no save under way these two do nothing. -/
def Obligations.PersistentWriteCompletes : Prop :=
  (∀ (a : Nat) (s : State), a ≠ Reg.ADC_SYSCAL_SAVE → a ≠ Reg.MTR_CAL → exec (.persistWriteComplete a) s = .next { s with nvOld := mdel s.nvOld a }) ∧
  (∀ (s : State) (m : Map (Ratio × Ratio)), s.adc.saving = some m → ∃ t, exec (.persistWriteComplete Reg.ADC_SYSCAL_SAVE) s = .next t ∧ t.adc.nvSys = m ∧ t.adc.saving = none ∧ t.rdN Reg.ADC_SYSCAL_SAVE_STATUS = 1) ∧
  (∀ (s : State), s.mtr.saving = true → ∃ t, exec (.persistWriteComplete Reg.MTR_CAL) s = .next t ∧ t.mtr.saving = false ∧ t.bit Reg.MTR_CAL_STATUS 3 = true) ∧
  (∀ (a : Nat) (s : State), ((a = Reg.ADC_SYSCAL_SAVE ∧ s.adc.saving = none) ∨ (a = Reg.MTR_CAL ∧ s.mtr.saving = false)) → exec (.persistWriteComplete a) s = .next s)

/-- For every command whose operands are in their ranges and every state, exec answers a next state: no well-formed command faults and none is refused. -/
def Obligations.WellFormedCommandsComplete : Prop :=
  (∀ (i : Instr) (s : State), i.wellFormed = true → ∃ t, exec i s = .next t)

/-- For every command that is a program instruction, of every unit and with any of the 2^56 operand fields, decoding its word gives it back; and every word that decodes is the word of the instruction it decodes to. -/
def Obligations.InstructionWordsRoundTrip : Prop :=
  (∀ (i : Instr) (u : Nat) (w : BitVec 64), encodeProgram i = some (u, w) → decodeProgram u w = some i) ∧
  (∀ (i : Instr) (u : Nat) (w : BitVec 64), decodeProgram u w = some i → encodeProgram i = some (u, w))

/-- In State.reset: the registers named hold the numbers of the Cold column of their chapters' tables; every link port is enabled and every value register of the meter shows no data; every function has the lease period 2,000; the command queue is empty, no commit is in flight, and there are no tenants, moves, commands in flight or launches. -/
def Obligations.ResetValues : Prop :=
  (State.reset.rdN Reg.DEV_CAPS = 0x20800FFF ∧ State.reset.rdN Reg.HIF_HOST_ABSENT = 1 ∧ State.reset.rdN Reg.TIER_WM_LOW = 2048 ∧ State.reset.rdN Reg.TIER_WM_HIGH = 4096 ∧ State.reset.rdN Reg.TIER_T3_BACKOFF = 1000 ∧ State.reset.rdN Reg.TIER_PEER_TO = 10 ∧ State.reset.rdN Reg.TIER_PEER_LOSS = 2000 ∧ State.reset.rdN Reg.PFX_EARLY = 50 ∧ State.reset.rdN Reg.SCH_HORIZON = 200 ∧ State.reset.rdN Reg.SCH_PREFILL_SHARE = 16 ∧ State.reset.rdN Reg.SCH_AGE_MS = 100 ∧ State.reset.rdN Reg.LNK_ESC_WAIT = 2 ∧ State.reset.rdN Reg.FLT_PRG_THRESH_US = 100 ∧ State.reset.rdN Reg.MTR_IN = 0x80000000 ∧ State.reset.rdN Reg.MTR_SLED_V = 0x80000000) ∧
  (∀ (p : Nat), p < 18 → State.reset.rdN (Reg.LNK_PORT_CTRL p) = 1) ∧
  (∀ (i j : Nat), i < 4 → j < 6 → State.reset.rdN (Reg.MTR_VAL i j) = 0x80000000) ∧
  (∀ (f : Nat), f < 32 → State.reset.fnRd f Reg.TW_LEASE_PERIOD = 2000) ∧
  (State.reset.pending = [] ∧ State.reset.inflight = [] ∧ State.reset.adm.tenants = [] ∧ State.reset.moves = [] ∧ State.reset.flights = [] ∧ State.reset.launches = [])

/-- For ADD, SUB, MUL, MULH, MULHU, AND, OR, XOR, SHL, SHR, SAR, MIN, MAX, MINU, MAXU on two registers, and for ADDI, ANDI, ORI, XORI, SHLI, SHRI, SARI on a register and the immediate: in every state in which a cluster issues the instruction with its guard true and its reserved fields zero, exec answers the state in which that cluster has the result in sd (s0 discards it) and its index one further, and everything else is as before. For DIV, DIVU, REM, REMU the result is the quotient or remainder, with −1 and sa for a zero divisor, which also sets DIVZERO. In every state in which a cluster issues the instruction with its guard true and its reserved fields zero: NOP only goes on; LI writes the sign-extended immediate; LIH writes it to the high half and keeps the low half; MOVSYS writes the system value of Table CLU-26 (the cycle count, value 2, apart); CLRFL clears the FLAGS bits set in the immediate; TDSET, TDGET, TDADD, HSET, HGET and HMOV move between s, t and h registers, TDADD adding to BASE modulo 65,536. Nothing else changes. -/
def Obligations.ClusterScalarInstructions : Prop :=
  (∀ (p : (Nat → BitVec 56 → Instr) × Nat × (DWord → DWord → DWord)) (k : Nat) (w : BitVec 56) (s : State) (c : Cluster) (l : Launch), (p ∈ ([(.clAdd, 0x01, fun x y => x + y), (.clSub, 0x02, fun x y => x - y), (.clMul, 0x03, fun x y => x * y), (.clMulh, 0x04, fun x y => (x.signExtend 128 * y.signExtend 128).extractLsb' 64 64), (.clMulhu, 0x05, fun x y => (x.zeroExtend 128 * y.zeroExtend 128).extractLsb' 64 64), (.clAnd, 0x0A, fun x y => x &&& y), (.clOr, 0x0B, fun x y => x ||| y), (.clXor, 0x0C, fun x y => x ^^^ y), (.clShl, 0x0D, fun x y => x <<< (y.toNat % 64)), (.clShr, 0x0E, fun x y => x >>> (y.toNat % 64)), (.clSar, 0x0F, fun x y => x.sshiftRight (y.toNat % 64)), (.clMin, 0x10, fun x y => if x.toInt < y.toInt then x else y), (.clMax, 0x11, fun x y => if x.toInt < y.toInt then y else x), (.clMinu, 0x12, fun x y => if x.toNat < y.toNat then x else y), (.clMaxu, 0x13, fun x y => if x.toNat < y.toNat then y else x)] : List ((Nat → BitVec 56 → Instr) × Nat × (DWord → DWord → DWord)))) → Issuing s k p.2.1 w c l → Guarded c p.2.1 w → Enc.ok ⟨.r32, .r32, .r32, .no, plainR⟩ (wordOf p.2.1 w) = true → Follows l (c.pc + 1) → exec (p.1 k w) s = .next (s.setClu k (onward (c.setS (wD (wordOf p.2.1 w)) (p.2.2 (c.sr (wA (wordOf p.2.1 w))) (c.sr (wB (wordOf p.2.1 w)))))))) ∧
  (∀ (p : (Nat → BitVec 56 → Instr) × Nat × (DWord → DWord → DWord)) (k : Nat) (w : BitVec 56) (s : State) (c : Cluster) (l : Launch), (p ∈ ([(.clDiv, 0x06, fun x y => if y = 0 then -1 else x.sdiv y), (.clDivu, 0x07, fun x y => if y = 0 then -1 else x.udiv y), (.clRem, 0x08, fun x y => if y = 0 then x else x.srem y), (.clRemu, 0x09, fun x y => if y = 0 then x else x.umod y)] : List ((Nat → BitVec 56 → Instr) × Nat × (DWord → DWord → DWord)))) → Issuing s k p.2.1 w c l → Guarded c p.2.1 w → Enc.ok ⟨.r32, .r32, .r32, .no, plainR⟩ (wordOf p.2.1 w) = true → Follows l (c.pc + 1) → exec (p.1 k w) s = .next (s.setClu k (onward ((if c.sr (wB (wordOf p.2.1 w)) = 0 then c.flag fDivzero else c).setS (wD (wordOf p.2.1 w)) (p.2.2 (c.sr (wA (wordOf p.2.1 w))) (c.sr (wB (wordOf p.2.1 w)))))))) ∧
  (∀ (p : (Nat → BitVec 56 → Instr) × Nat × (DWord → DWord → DWord)) (k : Nat) (w : BitVec 56) (s : State) (c : Cluster) (l : Launch), (p ∈ ([(.clAddi, 0x18, fun x i => x + i), (.clAndi, 0x19, fun x i => x &&& i), (.clOri, 0x1A, fun x i => x ||| i), (.clXori, 0x1B, fun x i => x ^^^ i)] : List ((Nat → BitVec 56 → Instr) × Nat × (DWord → DWord → DWord)))) → Issuing s k p.2.1 w c l → Guarded c p.2.1 w → wB (wordOf p.2.1 w) = 0 → wC (wordOf p.2.1 w) = 0 → Follows l (c.pc + 1) → exec (p.1 k w) s = .next (s.setClu k (onward (c.setS (wD (wordOf p.2.1 w)) (p.2.2 (c.sr (wA (wordOf p.2.1 w))) ((BitVec.ofNat 32 (wordOf p.2.1 w)).signExtend 64)))))) ∧
  (∀ (p : (Nat → BitVec 56 → Instr) × Nat × (DWord → Nat → DWord)) (k : Nat) (w : BitVec 56) (s : State) (c : Cluster) (l : Launch), (p ∈ ([(.clShli, 0x1C, fun x n => x <<< n), (.clShri, 0x1D, fun x n => x >>> n), (.clSari, 0x1E, fun x n => x.sshiftRight n)] : List ((Nat → BitVec 56 → Instr) × Nat × (DWord → Nat → DWord)))) → Issuing s k p.2.1 w c l → Guarded c p.2.1 w → wB (wordOf p.2.1 w) = 0 → wC (wordOf p.2.1 w) = 0 → wImmU (wordOf p.2.1 w) < 64 → Follows l (c.pc + 1) → exec (p.1 k w) s = .next (s.setClu k (onward (c.setS (wD (wordOf p.2.1 w)) (p.2.2 (c.sr (wA (wordOf p.2.1 w))) (wImmU (wordOf p.2.1 w))))))) ∧
  (∀ (k : Nat) (w : BitVec 56) (s : State) (c : Cluster) (l : Launch), Issuing s k 0x00 w c l → Guarded c 0x00 w → Enc.ok {} (wordOf 0x00 w) = true → Follows l (c.pc + 1) → exec (.clNop k w) s = .next (s.setClu k (onward c))) ∧
  (∀ (k : Nat) (w : BitVec 56) (s : State) (c : Cluster) (l : Launch), Issuing s k 0x1F w c l → Guarded c 0x1F w → Enc.ok ⟨.r32, .no, .no, .no, .imm⟩ (wordOf 0x1F w) = true → Follows l (c.pc + 1) → exec (.clLi k w) s = .next (s.setClu k (onward (c.setS (wD (wordOf 0x1F w)) ((BitVec.ofNat 32 (wordOf 0x1F w)).signExtend 64))))) ∧
  (∀ (k : Nat) (w : BitVec 56) (s : State) (c : Cluster) (l : Launch), Issuing s k 0x20 w c l → Guarded c 0x20 w → Enc.ok ⟨.r32, .no, .no, .no, .imm⟩ (wordOf 0x20 w) = true → Follows l (c.pc + 1) → exec (.clLih k w) s = .next (s.setClu k (onward (c.setS (wD (wordOf 0x20 w)) (BitVec.ofNat 32 (wImmU (wordOf 0x20 w)) ++ (c.sr (wD (wordOf 0x20 w))).extractLsb' 0 32))))) ∧
  (∀ (k : Nat) (w : BitVec 56) (s : State) (c : Cluster) (l : Launch), Issuing s k 0x24 w c l → Guarded c 0x24 w → Enc.ok ⟨.r32, .no, .no, .no, .immBelow 10⟩ (wordOf 0x24 w) = true → wImmU (wordOf 0x24 w) ≠ 2 → Follows l (c.pc + 1) → exec (.clMovsys k w) s = .next (s.setClu k (onward (c.setS (wD (wordOf 0x24 w)) (match wImmU (wordOf 0x24 w) with | 0 => BitVec.ofNat 64 c.rank | 1 => BitVec.ofNat 64 l.size | 3 => BitVec.ofNat 64 s.tb | 4 => BitVec.ofNat 64 (c.flags % 128) | 5 => BitVec.ofNat 64 (b2n l.notice.isSome) | 6 => BitVec.ofNat 64 l.slots | 7 => BitVec.ofNat 64 l.pages.length | 8 => BitVec.ofNat 64 (((l.step.bind (fun t => s.step? t.1)).map (fun t => t.entries.length)).getD 0) | _ => BitVec.ofNat 64 c.moves.length))))) ∧
  (∀ (k : Nat) (w : BitVec 56) (s : State) (c : Cluster) (l : Launch), Issuing s k 0x25 w c l → Guarded c 0x25 w → Enc.ok ⟨.no, .no, .no, .no, .immBelow 128⟩ (wordOf 0x25 w) = true → Follows l (c.pc + 1) → exec (.clClrfl k w) s = .next (s.setClu k (onward { c with flags := c.flags &&& (127 ^^^ wImmU (wordOf 0x25 w)) }))) ∧
  (∀ (k : Nat) (w : BitVec 56) (s : State) (c : Cluster) (l : Launch), Issuing s k 0x26 w c l → Guarded c 0x26 w → Enc.ok ⟨.r16, .r32, .no, .no, plainR⟩ (wordOf 0x26 w) = true → Follows l (c.pc + 1) → exec (.clTdset k w) s = .next (s.setClu k (onward (c.setT (wD (wordOf 0x26 w)) (c.sr (wA (wordOf 0x26 w))))))) ∧
  (∀ (k : Nat) (w : BitVec 56) (s : State) (c : Cluster) (l : Launch), Issuing s k 0x27 w c l → Guarded c 0x27 w → Enc.ok ⟨.r32, .r16, .no, .no, plainR⟩ (wordOf 0x27 w) = true → Follows l (c.pc + 1) → exec (.clTdget k w) s = .next (s.setClu k (onward (c.setS (wD (wordOf 0x27 w)) (c.tr (wA (wordOf 0x27 w))))))) ∧
  (∀ (k : Nat) (w : BitVec 56) (s : State) (c : Cluster) (l : Launch), Issuing s k 0x28 w c l → Guarded c 0x28 w → Enc.ok ⟨.r16, .r16, .r32, .no, plainR⟩ (wordOf 0x28 w) = true → Follows l (c.pc + 1) → exec (.clTdadd k w) s = .next (s.setClu k (onward (c.setT (wD (wordOf 0x28 w)) (BitVec.ofNat 64 (setBits (c.tr (wA (wordOf 0x28 w))).toNat 0 16 ((c.tr (wA (wordOf 0x28 w))).toNat + (c.sr (wB (wordOf 0x28 w))).toNat))))))) ∧
  (∀ (k : Nat) (w : BitVec 56) (s : State) (c : Cluster) (l : Launch), Issuing s k 0x29 w c l → Guarded c 0x29 w → Enc.ok ⟨.r16, .r32, .no, .no, plainR⟩ (wordOf 0x29 w) = true → Follows l (c.pc + 1) → exec (.clHset k w) s = .next (s.setClu k (onward (c.setH (wD (wordOf 0x29 w)) (c.sr (wA (wordOf 0x29 w))))))) ∧
  (∀ (k : Nat) (w : BitVec 56) (s : State) (c : Cluster) (l : Launch), Issuing s k 0x2A w c l → Guarded c 0x2A w → Enc.ok ⟨.r32, .r16, .no, .no, plainR⟩ (wordOf 0x2A w) = true → Follows l (c.pc + 1) → exec (.clHget k w) s = .next (s.setClu k (onward (c.setS (wD (wordOf 0x2A w)) (c.hr (wA (wordOf 0x2A w))))))) ∧
  (∀ (k : Nat) (w : BitVec 56) (s : State) (c : Cluster) (l : Launch), Issuing s k 0x2B w c l → Guarded c 0x2B w → Enc.ok ⟨.r16, .r16, .no, .no, plainR⟩ (wordOf 0x2B w) = true → Follows l (c.pc + 1) → exec (.clHmov k w) s = .next (s.setClu k (onward (c.setH (wD (wordOf 0x2B w)) (c.hr (wA (wordOf 0x2B w)))))))

/-- In every state in which a cluster issues the instruction with its guard true and its fields in range: CMP and CMPI write all ones to pd where condition 0 to 5 of Table CLU-16 holds of sa and sb, or of sa and the sign-extended immediate, and all zeros where it does not (p0 discards it); PLOG writes AND, OR, XOR, ANDN, NOT of its predicates or sa to pd, and with TOS pa to sd. The cluster goes on, and nothing else changes. -/
def Obligations.ClusterPredicates : Prop :=
  (∀ (k : Nat) (w : BitVec 56) (s : State) (c : Cluster) (l : Launch), Issuing s k 0x21 w c l → Guarded c 0x21 w → Enc.ok ⟨.r8, .r32, .r32, .no, .r 6 [] false false 0⟩ (wordOf 0x21 w) = true → Follows l (c.pc + 1) → exec (.clCmp k w) s = .next (s.setClu k (onward (c.setP (wD (wordOf 0x21 w)) (if (match wSub (wordOf 0x21 w) with | 0 => decide ((c.sr (wA (wordOf 0x21 w))) = (c.sr (wB (wordOf 0x21 w)))) | 1 => decide ((c.sr (wA (wordOf 0x21 w))) ≠ (c.sr (wB (wordOf 0x21 w)))) | 2 => decide ((c.sr (wA (wordOf 0x21 w))).toInt < (c.sr (wB (wordOf 0x21 w))).toInt) | 3 => decide ((c.sr (wA (wordOf 0x21 w))).toInt ≥ (c.sr (wB (wordOf 0x21 w))).toInt) | 4 => decide ((c.sr (wA (wordOf 0x21 w))).toNat < (c.sr (wB (wordOf 0x21 w))).toNat) | _ => decide ((c.sr (wA (wordOf 0x21 w))).toNat ≥ (c.sr (wB (wordOf 0x21 w))).toNat)) then BitVec.allOnes 64 else 0))))) ∧
  (∀ (k : Nat) (w : BitVec 56) (s : State) (c : Cluster) (l : Launch), Issuing s k 0x22 w c l → Guarded c 0x22 w → Enc.ok ⟨.r8, .r32, .no, .code 6, .imm⟩ (wordOf 0x22 w) = true → Follows l (c.pc + 1) → exec (.clCmpi k w) s = .next (s.setClu k (onward (c.setP (wD (wordOf 0x22 w)) (if (match wC (wordOf 0x22 w) with | 0 => decide ((c.sr (wA (wordOf 0x22 w))) = ((BitVec.ofNat 32 (wordOf 0x22 w)).signExtend 64)) | 1 => decide ((c.sr (wA (wordOf 0x22 w))) ≠ ((BitVec.ofNat 32 (wordOf 0x22 w)).signExtend 64)) | 2 => decide ((c.sr (wA (wordOf 0x22 w))).toInt < ((BitVec.ofNat 32 (wordOf 0x22 w)).signExtend 64).toInt) | 3 => decide ((c.sr (wA (wordOf 0x22 w))).toInt ≥ ((BitVec.ofNat 32 (wordOf 0x22 w)).signExtend 64).toInt) | 4 => decide ((c.sr (wA (wordOf 0x22 w))).toNat < ((BitVec.ofNat 32 (wordOf 0x22 w)).signExtend 64).toNat) | _ => decide ((c.sr (wA (wordOf 0x22 w))).toNat ≥ ((BitVec.ofNat 32 (wordOf 0x22 w)).signExtend 64).toNat)) then BitVec.allOnes 64 else 0))))) ∧
  (∀ (k : Nat) (w : BitVec 56) (s : State) (c : Cluster) (l : Launch), Issuing s k 0x23 w c l → Guarded c 0x23 w → Enc.ok (plogEnc (wSub w.toNat)) (wordOf 0x23 w) = true → Follows l (c.pc + 1) → exec (.clPlog k w) s = .next (s.setClu k (onward (match wSub (wordOf 0x23 w) with | 0 => c.setP (wD (wordOf 0x23 w)) (c.pr (wA (wordOf 0x23 w)) &&& c.pr (wB (wordOf 0x23 w))) | 1 => c.setP (wD (wordOf 0x23 w)) (c.pr (wA (wordOf 0x23 w)) ||| c.pr (wB (wordOf 0x23 w))) | 2 => c.setP (wD (wordOf 0x23 w)) (c.pr (wA (wordOf 0x23 w)) ^^^ c.pr (wB (wordOf 0x23 w))) | 3 => c.setP (wD (wordOf 0x23 w)) (c.pr (wA (wordOf 0x23 w)) &&& ~~~(c.pr (wB (wordOf 0x23 w)))) | 4 => c.setP (wD (wordOf 0x23 w)) (~~~(c.pr (wA (wordOf 0x23 w)))) | 5 => c.setP (wD (wordOf 0x23 w)) (c.sr (wA (wordOf 0x23 w))) | _ => c.setS (wD (wordOf 0x23 w)) (c.pr (wA (wordOf 0x23 w)))))))

/-- In every state in which a cluster issues the instruction with its guard true and its reserved fields zero. BR goes to index + IMM; BZ and BNZ do so as sa is or is not 0 and go on otherwise; LOOP writes sa − 1 to sa and does so while that is not 0; CALL writes index + 1 to sd and does so; JR goes to the index in sa. A target outside the program raises FAULT_PROGRAM at the branch. END ends the rank when no move and no injection is in flight and no failed move is left unreported, and waits otherwise. Nothing else changes. -/
def Obligations.ClusterBranches : Prop :=
  (∀ (k t : Nat) (w : BitVec 56) (s : State) (c : Cluster) (l : Launch), Issuing s k 0x30 w c l → Guarded c 0x30 w → Enc.ok ⟨.no, .no, .no, .no, .imm⟩ (wordOf 0x30 w) = true → (c.pc : Int) + ((BitVec.ofNat 32 (wordOf 0x30 w)).signExtend 64).toInt = t → Follows l t → exec (.clBr k w) s = .next (s.setClu k { c with pc := t })) ∧
  (∀ (k t : Nat) (w : BitVec 56) (s : State) (c : Cluster) (l : Launch), Issuing s k 0x30 w c l → Guarded c 0x30 w → Enc.ok ⟨.no, .no, .no, .no, .imm⟩ (wordOf 0x30 w) = true → ((c.pc : Int) + ((BitVec.ofNat 32 (wordOf 0x30 w)).signExtend 64).toInt < 0 ∨ (l.code.length : Int) ≤ c.pc + ((BitVec.ofNat 32 (wordOf 0x30 w)).signExtend 64).toInt) → exec (.clBr k w) s = .next (cluFault k ⟨0x41, 5, c.pc⟩ c.pc 0x30 s)) ∧
  (∀ (k t : Nat) (w : BitVec 56) (s : State) (c : Cluster) (l : Launch), Issuing s k 0x31 w c l → Guarded c 0x31 w → Enc.ok ⟨.no, .r32, .no, .no, .imm⟩ (wordOf 0x31 w) = true → c.sr (wA (wordOf 0x31 w)) = 0 → (c.pc : Int) + ((BitVec.ofNat 32 (wordOf 0x31 w)).signExtend 64).toInt = t → Follows l t → exec (.clBz k w) s = .next (s.setClu k { c with pc := t })) ∧
  (∀ (k t : Nat) (w : BitVec 56) (s : State) (c : Cluster) (l : Launch), Issuing s k 0x31 w c l → Guarded c 0x31 w → Enc.ok ⟨.no, .r32, .no, .no, .imm⟩ (wordOf 0x31 w) = true → c.sr (wA (wordOf 0x31 w)) ≠ 0 → Follows l (c.pc + 1) → exec (.clBz k w) s = .next (s.setClu k (onward c))) ∧
  (∀ (k t : Nat) (w : BitVec 56) (s : State) (c : Cluster) (l : Launch), Issuing s k 0x32 w c l → Guarded c 0x32 w → Enc.ok ⟨.no, .r32, .no, .no, .imm⟩ (wordOf 0x32 w) = true → c.sr (wA (wordOf 0x32 w)) ≠ 0 → (c.pc : Int) + ((BitVec.ofNat 32 (wordOf 0x32 w)).signExtend 64).toInt = t → Follows l t → exec (.clBnz k w) s = .next (s.setClu k { c with pc := t })) ∧
  (∀ (k t : Nat) (w : BitVec 56) (s : State) (c : Cluster) (l : Launch), Issuing s k 0x32 w c l → Guarded c 0x32 w → Enc.ok ⟨.no, .r32, .no, .no, .imm⟩ (wordOf 0x32 w) = true → c.sr (wA (wordOf 0x32 w)) = 0 → Follows l (c.pc + 1) → exec (.clBnz k w) s = .next (s.setClu k (onward c))) ∧
  (∀ (k t : Nat) (w : BitVec 56) (s : State) (c : Cluster) (l : Launch), Issuing s k 0x33 w c l → Guarded c 0x33 w → Enc.ok ⟨.no, .r32, .no, .no, .imm⟩ (wordOf 0x33 w) = true → c.sr (wA (wordOf 0x33 w)) ≠ 1 → (c.pc : Int) + ((BitVec.ofNat 32 (wordOf 0x33 w)).signExtend 64).toInt = t → Follows l t → exec (.clLoop k w) s = .next (s.setClu k { c.setS (wA (wordOf 0x33 w)) (c.sr (wA (wordOf 0x33 w)) - 1) with pc := t })) ∧
  (∀ (k t : Nat) (w : BitVec 56) (s : State) (c : Cluster) (l : Launch), Issuing s k 0x33 w c l → Guarded c 0x33 w → Enc.ok ⟨.no, .r32, .no, .no, .imm⟩ (wordOf 0x33 w) = true → c.sr (wA (wordOf 0x33 w)) = 1 → Follows l (c.pc + 1) → exec (.clLoop k w) s = .next (s.setClu k (onward (c.setS (wA (wordOf 0x33 w)) 0)))) ∧
  (∀ (k t : Nat) (w : BitVec 56) (s : State) (c : Cluster) (l : Launch), Issuing s k 0x34 w c l → Guarded c 0x34 w → Enc.ok ⟨.r32, .no, .no, .no, .imm⟩ (wordOf 0x34 w) = true → (c.pc : Int) + ((BitVec.ofNat 32 (wordOf 0x34 w)).signExtend 64).toInt = t → Follows l t → exec (.clCall k w) s = .next (s.setClu k { c.setS (wD (wordOf 0x34 w)) (BitVec.ofNat 64 (c.pc + 1)) with pc := t })) ∧
  (∀ (k t : Nat) (w : BitVec 56) (s : State) (c : Cluster) (l : Launch), Issuing s k 0x35 w c l → Guarded c 0x35 w → Enc.ok ⟨.no, .r32, .no, .no, plainR⟩ (wordOf 0x35 w) = true → (c.sr (wA (wordOf 0x35 w))).toNat = t → Follows l t → exec (.clJr k w) s = .next (s.setClu k { c with pc := t })) ∧
  (∀ (k t : Nat) (w : BitVec 56) (s : State) (c : Cluster) (l : Launch), Issuing s k 0x35 w c l → Guarded c 0x35 w → Enc.ok ⟨.no, .r32, .no, .no, plainR⟩ (wordOf 0x35 w) = true → l.code.length ≤ (c.sr (wA (wordOf 0x35 w))).toNat → exec (.clJr k w) s = .next (cluFault k ⟨0x41, 5, c.pc⟩ c.pc 0x35 s)) ∧
  (∀ (k t : Nat) (w : BitVec 56) (s : State) (c : Cluster) (l : Launch), Issuing s k 0x36 w c l → Guarded c 0x36 w → Enc.ok {} (wordOf 0x36 w) = true → c.moves = [] → c.port = [] → c.failed = [] → exec (.clEnd k w) s = .next (s.setClu k { c with wait := none, ended := true })) ∧
  (∀ (k t : Nat) (w : BitVec 56) (s : State) (c : Cluster) (l : Launch), Issuing s k 0x36 w c l → Guarded c 0x36 w → Enc.ok {} (wordOf 0x36 w) = true → (c.moves ≠ [] ∨ c.port ≠ []) → exec (.clEnd k w) s = .next (s.setClu k { c with wait := some (.fin, s.tb) }))

/-- For each of the 19 operations on two s registers, majors 0x01 to 0x13: in every state in which a cluster issues a word whose SUB, TY, RM, F, MOD or C field is not zero, exec answers the state in which the rank has faulted with FAULT_PROGRAM, resource 0x05 and DETAIL the instruction index, at that index and major. For each of the 19 operations on two s registers, majors 0x01 to 0x13: in every state in which a cluster issues the instruction with its reserved fields zero and bit 0 of its guard value 0, exec answers the state in which that cluster is one index further and everything else is as before. -/
def Obligations.ClusterUnrunInstructions : Prop :=
  (∀ (p : (Nat → BitVec 56 → Instr) × Nat) (k : Nat) (w : BitVec 56) (s : State) (c : Cluster) (l : Launch), (p ∈ ([(.clAdd, 0x01), (.clSub, 0x02), (.clMul, 0x03), (.clMulh, 0x04), (.clMulhu, 0x05), (.clDiv, 0x06), (.clDivu, 0x07), (.clRem, 0x08), (.clRemu, 0x09), (.clAnd, 0x0A), (.clOr, 0x0B), (.clXor, 0x0C), (.clShl, 0x0D), (.clShr, 0x0E), (.clSar, 0x0F), (.clMin, 0x10), (.clMax, 0x11), (.clMinu, 0x12), (.clMaxu, 0x13)] : List ((Nat → BitVec 56 → Instr) × Nat))) → Issuing s k p.2 w c l → Enc.ok ⟨.r32, .r32, .r32, .no, plainR⟩ (wordOf p.2 w) = false → exec (p.1 k w) s = .next (cluFault k ⟨0x41, 0x05, c.pc⟩ c.pc p.2 s)) ∧
  (∀ (p : (Nat → BitVec 56 → Instr) × Nat) (k : Nat) (w : BitVec 56) (s : State) (c : Cluster) (l : Launch), (p ∈ ([(.clAdd, 0x01), (.clSub, 0x02), (.clMul, 0x03), (.clMulh, 0x04), (.clMulhu, 0x05), (.clDiv, 0x06), (.clDivu, 0x07), (.clRem, 0x08), (.clRemu, 0x09), (.clAnd, 0x0A), (.clOr, 0x0B), (.clXor, 0x0C), (.clShl, 0x0D), (.clShr, 0x0E), (.clSar, 0x0F), (.clMin, 0x10), (.clMax, 0x11), (.clMinu, 0x12), (.clMaxu, 0x13)] : List ((Nat → BitVec 56 → Instr) × Nat))) → Issuing s k p.2 w c l → c.guard (wordOf p.2 w) &&& 1 = 0 ∧ Enc.ok ⟨.r32, .r32, .r32, .no, plainR⟩ (wordOf p.2 w) = true ∧ Follows l (c.pc + 1) → exec (p.1 k w) s = .next (s.setClu k (onward c)))

/-- For VADD, VSUB, VMUL, VFMA, VDIV, VSQRT, VMIN, VMAX, VSGN, VSFU and VLOG in every state in which a cluster issues the instruction with its fields in range and a lane active: exec answers the state in which that cluster is one index further, an inactive lane of vd, every other register and everything else is as before (the flags and the rounding generators apart), and every active lane holds the result: the wrapped or, with SAT, clamped integer sum or difference; the exact sum, product, fused product and sum, quotient or root of the decoded operands rounded in the mode RM (in every mode but SR); the sign, bitwise and shift operations; the value of the special function unit. -/
def Obligations.ClusterVectorArithmetic : Prop :=
  (∀ (k : Nat) (w : BitVec 56) (s : State) (c : Cluster) (l : Launch), Issuing s k 0x60 w c l → LaneActive c 0x60 w → Enc.ok (vec2 tyAll true (tyInt.contains (wTy w.toNat))) (wordOf 0x60 w) = true → (wTy (wordOf 0x60 w)) < 8 → Follows l (c.pc + 1) → ∃ c', exec (.clVadd k w) s = .next (s.setClu k (onward c')) ∧ OnlyLanes c c' (wD (wordOf 0x60 w)) (c.guard (wordOf 0x60 w)) ∧ (((wRm (wordOf 0x60 w)) ≠ 4) → ∀ j, j < 64 → (c.guard (wordOf 0x60 w)).getLsbD j = true → c'.vr (wD (wordOf 0x60 w)) j = (numLane (wTy (wordOf 0x60 w)) (wRm (wordOf 0x60 w)) 0 (addNum (wRm (wordOf 0x60 w)) (laneNum (wTy (wordOf 0x60 w)) (c.vr (wA (wordOf 0x60 w)) j)) (laneNum (wTy (wordOf 0x60 w)) (c.vr (wB (wordOf 0x60 w)) j))).1).1)) ∧
  (∀ (k : Nat) (w : BitVec 56) (s : State) (c : Cluster) (l : Launch), Issuing s k 0x61 w c l → LaneActive c 0x61 w → Enc.ok (vec2 tyAll true (tyInt.contains (wTy w.toNat))) (wordOf 0x61 w) = true → (wTy (wordOf 0x61 w)) < 8 → Follows l (c.pc + 1) → ∃ c', exec (.clVsub k w) s = .next (s.setClu k (onward c')) ∧ OnlyLanes c c' (wD (wordOf 0x61 w)) (c.guard (wordOf 0x61 w)) ∧ (((wRm (wordOf 0x61 w)) ≠ 4) → ∀ j, j < 64 → (c.guard (wordOf 0x61 w)).getLsbD j = true → c'.vr (wD (wordOf 0x61 w)) j = (numLane (wTy (wordOf 0x61 w)) (wRm (wordOf 0x61 w)) 0 (addNum (wRm (wordOf 0x61 w)) (laneNum (wTy (wordOf 0x61 w)) (c.vr (wA (wordOf 0x61 w)) j)) (negNum (laneNum (wTy (wordOf 0x61 w)) (c.vr (wB (wordOf 0x61 w)) j)))).1).1)) ∧
  (∀ (k : Nat) (w : BitVec 56) (s : State) (c : Cluster) (l : Launch), Issuing s k 0x60 w c l → LaneActive c 0x60 w → Enc.ok (vec2 tyAll true (tyInt.contains (wTy w.toNat))) (wordOf 0x60 w) = true → 8 ≤ (wTy (wordOf 0x60 w)) → Follows l (c.pc + 1) → ∃ c', exec (.clVadd k w) s = .next (s.setClu k (onward c')) ∧ OnlyLanes c c' (wD (wordOf 0x60 w)) (c.guard (wordOf 0x60 w)) ∧ (∀ j, j < 64 → (c.guard (wordOf 0x60 w)).getLsbD j = true → c'.vr (wD (wordOf 0x60 w)) j = (if wF (wordOf 0x60 w) = 1 then BitVec.ofInt 32 (max (if (wTy (wordOf 0x60 w)) = 8 then (-2147483648) else 0) (min (if (wTy (wordOf 0x60 w)) = 8 then (2147483647) else 4294967295) ((if (wTy (wordOf 0x60 w)) = 8 then (c.vr (wA (wordOf 0x60 w)) j).toInt else ((c.vr (wA (wordOf 0x60 w)) j).toNat : Int)) + (if (wTy (wordOf 0x60 w)) = 8 then (c.vr (wB (wordOf 0x60 w)) j).toInt else ((c.vr (wB (wordOf 0x60 w)) j).toNat : Int))))) else (c.vr (wA (wordOf 0x60 w)) j) + (c.vr (wB (wordOf 0x60 w)) j)))) ∧
  (∀ (k : Nat) (w : BitVec 56) (s : State) (c : Cluster) (l : Launch), Issuing s k 0x61 w c l → LaneActive c 0x61 w → Enc.ok (vec2 tyAll true (tyInt.contains (wTy w.toNat))) (wordOf 0x61 w) = true → 8 ≤ (wTy (wordOf 0x61 w)) → Follows l (c.pc + 1) → ∃ c', exec (.clVsub k w) s = .next (s.setClu k (onward c')) ∧ OnlyLanes c c' (wD (wordOf 0x61 w)) (c.guard (wordOf 0x61 w)) ∧ (∀ j, j < 64 → (c.guard (wordOf 0x61 w)).getLsbD j = true → c'.vr (wD (wordOf 0x61 w)) j = (if wF (wordOf 0x61 w) = 1 then BitVec.ofInt 32 (max (if (wTy (wordOf 0x61 w)) = 8 then (-2147483648) else 0) (min (if (wTy (wordOf 0x61 w)) = 8 then (2147483647) else 4294967295) ((if (wTy (wordOf 0x61 w)) = 8 then (c.vr (wA (wordOf 0x61 w)) j).toInt else ((c.vr (wA (wordOf 0x61 w)) j).toNat : Int)) - (if (wTy (wordOf 0x61 w)) = 8 then (c.vr (wB (wordOf 0x61 w)) j).toInt else ((c.vr (wB (wordOf 0x61 w)) j).toNat : Int))))) else (c.vr (wA (wordOf 0x61 w)) j) - (c.vr (wB (wordOf 0x61 w)) j)))) ∧
  (∀ (k : Nat) (w : BitVec 56) (s : State) (c : Cluster) (l : Launch), Issuing s k 0x62 w c l → LaneActive c 0x62 w → Enc.ok (vec2 tyAll true false) (wordOf 0x62 w) = true → Follows l (c.pc + 1) → ∃ c', exec (.clVmul k w) s = .next (s.setClu k (onward c')) ∧ OnlyLanes c c' (wD (wordOf 0x62 w)) (c.guard (wordOf 0x62 w)) ∧ (((wTy (wordOf 0x62 w)) < 8 → (wRm (wordOf 0x62 w)) ≠ 4) → ∀ j, j < 64 → (c.guard (wordOf 0x62 w)).getLsbD j = true → c'.vr (wD (wordOf 0x62 w)) j = (if 8 ≤ (wTy (wordOf 0x62 w)) then (c.vr (wA (wordOf 0x62 w)) j) * (c.vr (wB (wordOf 0x62 w)) j) else (numLane (wTy (wordOf 0x62 w)) (wRm (wordOf 0x62 w)) 0 (mulNum (laneNum (wTy (wordOf 0x62 w)) (c.vr (wA (wordOf 0x62 w)) j)) (laneNum (wTy (wordOf 0x62 w)) (c.vr (wB (wordOf 0x62 w)) j))).1).1))) ∧
  (∀ (k : Nat) (w : BitVec 56) (s : State) (c : Cluster) (l : Launch), Issuing s k 0x63 w c l → LaneActive c 0x63 w → Enc.ok ⟨.r32, .r32, .r32, .r32, .r 0 tyFloat true false 0⟩ (wordOf 0x63 w) = true → Follows l (c.pc + 1) → ∃ c', exec (.clVfma k w) s = .next (s.setClu k (onward c')) ∧ OnlyLanes c c' (wD (wordOf 0x63 w)) (c.guard (wordOf 0x63 w)) ∧ (((wRm (wordOf 0x63 w)) ≠ 4) → ∀ j, j < 64 → (c.guard (wordOf 0x63 w)).getLsbD j = true → c'.vr (wD (wordOf 0x63 w)) j = (numLane (wTy (wordOf 0x63 w)) (wRm (wordOf 0x63 w)) 0 (addNum (wRm (wordOf 0x63 w)) (mulNum (laneNum (wTy (wordOf 0x63 w)) (c.vr (wA (wordOf 0x63 w)) j)) (laneNum (wTy (wordOf 0x63 w)) (c.vr (wB (wordOf 0x63 w)) j))).1 (laneNum (wTy (wordOf 0x63 w)) (c.vr (wC (wordOf 0x63 w)) j))).1).1)) ∧
  (∀ (k : Nat) (w : BitVec 56) (s : State) (c : Cluster) (l : Launch), Issuing s k 0x64 w c l → LaneActive c 0x64 w → Enc.ok (vec2 tyFloat true false) (wordOf 0x64 w) = true → Follows l (c.pc + 1) → ∃ c', exec (.clVdiv k w) s = .next (s.setClu k (onward c')) ∧ OnlyLanes c c' (wD (wordOf 0x64 w)) (c.guard (wordOf 0x64 w)) ∧ (((wRm (wordOf 0x64 w)) ≠ 4) → ∀ j, j < 64 → (c.guard (wordOf 0x64 w)).getLsbD j = true → c'.vr (wD (wordOf 0x64 w)) j = (numLane (wTy (wordOf 0x64 w)) (wRm (wordOf 0x64 w)) 0 (divNum (laneNum (wTy (wordOf 0x64 w)) (c.vr (wA (wordOf 0x64 w)) j)) (laneNum (wTy (wordOf 0x64 w)) (c.vr (wB (wordOf 0x64 w)) j))).1).1)) ∧
  (∀ (k : Nat) (w : BitVec 56) (s : State) (c : Cluster) (l : Launch), Issuing s k 0x65 w c l → LaneActive c 0x65 w → Enc.ok ⟨.r32, .r32, .no, .no, .r 0 tyFloat true false 0⟩ (wordOf 0x65 w) = true → Follows l (c.pc + 1) → ∃ c', exec (.clVsqrt k w) s = .next (s.setClu k (onward c')) ∧ OnlyLanes c c' (wD (wordOf 0x65 w)) (c.guard (wordOf 0x65 w)) ∧ (((wRm (wordOf 0x65 w)) ≠ 4) → ∀ j, j < 64 → (c.guard (wordOf 0x65 w)).getLsbD j = true → c'.vr (wD (wordOf 0x65 w)) j = (numLane (wTy (wordOf 0x65 w)) (wRm (wordOf 0x65 w)) 0 (sqrtNum (laneNum (wTy (wordOf 0x65 w)) (c.vr (wA (wordOf 0x65 w)) j))).1).1)) ∧
  (∀ (k : Nat) (w : BitVec 56) (s : State) (c : Cluster) (l : Launch), Issuing s k 0x66 w c l → LaneActive c 0x66 w → Enc.ok (vec2 tyAll false false) (wordOf 0x66 w) = true → Follows l (c.pc + 1) → ∃ c', exec (.clVmin k w) s = .next (s.setClu k (onward c')) ∧ OnlyLanes c c' (wD (wordOf 0x66 w)) (c.guard (wordOf 0x66 w)) ∧ (∀ j, j < 64 → (c.guard (wordOf 0x66 w)).getLsbD j = true → c'.vr (wD (wordOf 0x66 w)) j = (if (wTy (wordOf 0x66 w)) = 8 then (if ((c.vr (wA (wordOf 0x66 w)) j)).toInt < ((c.vr (wB (wordOf 0x66 w)) j)).toInt then (c.vr (wA (wordOf 0x66 w)) j) else (c.vr (wB (wordOf 0x66 w)) j)) else if (wTy (wordOf 0x66 w)) = 9 then (if ((c.vr (wA (wordOf 0x66 w)) j)).toNat < ((c.vr (wB (wordOf 0x66 w)) j)).toNat then (c.vr (wA (wordOf 0x66 w)) j) else (c.vr (wB (wordOf 0x66 w)) j)) else (numLane (wTy (wordOf 0x66 w)) 0 0 (minMax false (laneNum (wTy (wordOf 0x66 w)) (c.vr (wA (wordOf 0x66 w)) j)) (laneNum (wTy (wordOf 0x66 w)) (c.vr (wB (wordOf 0x66 w)) j)))).1))) ∧
  (∀ (k : Nat) (w : BitVec 56) (s : State) (c : Cluster) (l : Launch), Issuing s k 0x67 w c l → LaneActive c 0x67 w → Enc.ok (vec2 tyAll false false) (wordOf 0x67 w) = true → Follows l (c.pc + 1) → ∃ c', exec (.clVmax k w) s = .next (s.setClu k (onward c')) ∧ OnlyLanes c c' (wD (wordOf 0x67 w)) (c.guard (wordOf 0x67 w)) ∧ (∀ j, j < 64 → (c.guard (wordOf 0x67 w)).getLsbD j = true → c'.vr (wD (wordOf 0x67 w)) j = (if (wTy (wordOf 0x67 w)) = 8 then (if ((c.vr (wA (wordOf 0x67 w)) j)).toInt < ((c.vr (wB (wordOf 0x67 w)) j)).toInt then (c.vr (wB (wordOf 0x67 w)) j) else (c.vr (wA (wordOf 0x67 w)) j)) else if (wTy (wordOf 0x67 w)) = 9 then (if ((c.vr (wA (wordOf 0x67 w)) j)).toNat < ((c.vr (wB (wordOf 0x67 w)) j)).toNat then (c.vr (wB (wordOf 0x67 w)) j) else (c.vr (wA (wordOf 0x67 w)) j)) else (numLane (wTy (wordOf 0x67 w)) 0 0 (minMax true (laneNum (wTy (wordOf 0x67 w)) (c.vr (wA (wordOf 0x67 w)) j)) (laneNum (wTy (wordOf 0x67 w)) (c.vr (wB (wordOf 0x67 w)) j)))).1))) ∧
  (∀ (k : Nat) (w : BitVec 56) (s : State) (c : Cluster) (l : Launch), Issuing s k 0x68 w c l → LaneActive c 0x68 w → Enc.ok ⟨.r32, .r32, .r32, .no, .r 3 tyFloat false false 0⟩ (wordOf 0x68 w) = true → Follows l (c.pc + 1) → ∃ c', exec (.clVsgn k w) s = .next (s.setClu k (onward c')) ∧ OnlyLanes c c' (wD (wordOf 0x68 w)) (c.guard (wordOf 0x68 w)) ∧ (∀ j, j < 64 → (c.guard (wordOf 0x68 w)).getLsbD j = true → c'.vr (wD (wordOf 0x68 w)) j = signLane (wSub (wordOf 0x68 w)) (wTy (wordOf 0x68 w)) (c.vr (wA (wordOf 0x68 w)) j) (c.vr (wB (wordOf 0x68 w)) j))) ∧
  (∀ (k : Nat) (w : BitVec 56) (s : State) (c : Cluster) (l : Launch), Issuing s k 0x69 w c l → LaneActive c 0x69 w → Enc.ok ⟨.r32, .r32, .no, .no, .r 5 [0] false false 0⟩ (wordOf 0x69 w) = true → Follows l (c.pc + 1) → ∃ c', exec (.clVsfu k w) s = .next (s.setClu k (onward c')) ∧ OnlyLanes c c' (wD (wordOf 0x69 w)) (c.guard (wordOf 0x69 w)) ∧ (∀ j, j < 64 → (c.guard (wordOf 0x69 w)).getLsbD j = true → c'.vr (wD (wordOf 0x69 w)) j = (sfu (wSub (wordOf 0x69 w)) (c.vr (wA (wordOf 0x69 w)) j)).1)) ∧
  (∀ (k : Nat) (w : BitVec 56) (s : State) (c : Cluster) (l : Launch), Issuing s k 0x6A w c l → LaneActive c 0x6A w → Enc.ok ⟨.r32, .r32, .r32, .no, .r 6 tyInt false false 0⟩ (wordOf 0x6A w) = true → Follows l (c.pc + 1) → ∃ c', exec (.clVlog k w) s = .next (s.setClu k (onward c')) ∧ OnlyLanes c c' (wD (wordOf 0x6A w)) (c.guard (wordOf 0x6A w)) ∧ (∀ j, j < 64 → (c.guard (wordOf 0x6A w)).getLsbD j = true → c'.vr (wD (wordOf 0x6A w)) j = (match wSub (wordOf 0x6A w) with | 0 => (c.vr (wA (wordOf 0x6A w)) j) &&& (c.vr (wB (wordOf 0x6A w)) j) | 1 => (c.vr (wA (wordOf 0x6A w)) j) ||| (c.vr (wB (wordOf 0x6A w)) j) | 2 => (c.vr (wA (wordOf 0x6A w)) j) ^^^ (c.vr (wB (wordOf 0x6A w)) j) | 3 => (c.vr (wA (wordOf 0x6A w)) j) <<< (((c.vr (wB (wordOf 0x6A w)) j)).toNat % 32) | 4 => (c.vr (wA (wordOf 0x6A w)) j) >>> (((c.vr (wB (wordOf 0x6A w)) j)).toNat % 32) | _ => ((c.vr (wA (wordOf 0x6A w)) j)).sshiftRight (((c.vr (wB (wordOf 0x6A w)) j)).toNat % 32))))

/-- In every state in which a cluster issues the instruction with its fields in range, a lane active and its operand checks passed: VCMP writes to the active bits of pd whether the condition holds of the lanes and keeps the others; VSEL, VMOV 0 to 2, VCVT, VLD and VLDA write the active lanes of vd; VMOV 3 writes one lane to sd, VMOV 4 the low half of sa to one lane that is active; VST converts the active lanes into a row of a tile; VSTA writes the active lanes to a row of an accumulator; VRED writes the tree reduction of the active lanes to sd; ARED the row reductions of an accumulator to vd. Nothing else changes but the index, the flags and the rounding generators. -/
def Obligations.ClusterVectorMoves : Prop :=
  (∀ (k : Nat) (w : BitVec 56) (s : State) (c : Cluster) (l : Launch), Issuing s k 0x6B w c l → LaneActive c 0x6B w → Enc.ok ⟨.r8, .r32, .r32, .code 7, .r 0 tyAll false false 0⟩ (wordOf 0x6B w) = true → Follows l (c.pc + 1) → ∃ m : DWord, exec (.clVcmp k w) s = .next (s.setClu k (onward (c.setP (wD (wordOf 0x6B w)) m))) ∧ ∀ n, n < 64 → m.getLsbD n = if (c.guard (wordOf 0x6B w)).getLsbD n then cmpLane (wC (wordOf 0x6B w)) (wTy (wordOf 0x6B w)) (c.vr (wA (wordOf 0x6B w)) n) (c.vr (wB (wordOf 0x6B w)) n) else (c.pr (wD (wordOf 0x6B w))).getLsbD n) ∧
  (∀ (k : Nat) (w : BitVec 56) (s : State) (c : Cluster) (l : Launch), Issuing s k 0x6C w c l → LaneActive c 0x6C w → Enc.ok ⟨.r32, .r32, .r32, .r8, plainR⟩ (wordOf 0x6C w) = true → Follows l (c.pc + 1) → ∃ c', exec (.clVsel k w) s = .next (s.setClu k (onward c')) ∧ OnlyLanes c c' (wD (wordOf 0x6C w)) (c.guard (wordOf 0x6C w)) ∧ (∀ j, j < 64 → (c.guard (wordOf 0x6C w)).getLsbD j = true → c'.vr (wD (wordOf 0x6C w)) j = (if (c.pr (wC (wordOf 0x6C w))).getLsbD j then (c.vr (wA (wordOf 0x6C w)) j) else (c.vr (wB (wordOf 0x6C w)) j)))) ∧
  (∀ (k : Nat) (w : BitVec 56) (s : State) (c : Cluster) (l : Launch), Issuing s k 0x6D w c l → LaneActive c 0x6D w → Enc.ok (vmovEnc (wSub w.toNat)) (wordOf 0x6D w) = true → wSub (wordOf 0x6D w) < 3 → Follows l (c.pc + 1) → ∃ c', exec (.clVmov k w) s = .next (s.setClu k (onward c')) ∧ OnlyLanes c c' (wD (wordOf 0x6D w)) (c.guard (wordOf 0x6D w)) ∧ (∀ j, j < 64 → (c.guard (wordOf 0x6D w)).getLsbD j = true → c'.vr (wD (wordOf 0x6D w)) j = (if wSub (wordOf 0x6D w) = 0 then (c.vr (wA (wordOf 0x6D w)) j) else if wSub (wordOf 0x6D w) = 1 then (c.sr (wA (wordOf 0x6D w))).truncate 32 else BitVec.ofNat 32 j))) ∧
  (∀ (k : Nat) (w : BitVec 56) (s : State) (c : Cluster) (l : Launch), Issuing s k 0x6D w c l → LaneActive c 0x6D w → Enc.ok (vmovEnc (wSub w.toNat)) (wordOf 0x6D w) = true → wSub (wordOf 0x6D w) = 3 → Follows l (c.pc + 1) → exec (.clVmov k w) s = .next (s.setClu k (onward (c.setS (wD (wordOf 0x6D w)) ((c.vr (wA (wordOf 0x6D w)) ((c.sr (wB (wordOf 0x6D w))).toNat % 64)).zeroExtend 64))))) ∧
  (∀ (k : Nat) (w : BitVec 56) (s : State) (c : Cluster) (l : Launch), Issuing s k 0x6D w c l → LaneActive c 0x6D w → Enc.ok (vmovEnc (wSub w.toNat)) (wordOf 0x6D w) = true → wSub (wordOf 0x6D w) = 4 → Follows l (c.pc + 1) → exec (.clVmov k w) s = .next (s.setClu k (onward (if (c.guard (wordOf 0x6D w)).getLsbD ((c.sr (wB (wordOf 0x6D w))).toNat % 64) then c.setV (wD (wordOf 0x6D w)) ((c.sr (wB (wordOf 0x6D w))).toNat % 64) ((c.sr (wA (wordOf 0x6D w))).truncate 32) else c)))) ∧
  (∀ (k : Nat) (w : BitVec 56) (s : State) (c : Cluster) (l : Launch), Issuing s k 0x6E w c l → LaneActive c 0x6E w → Enc.ok ⟨.r32, .r32, .no, .no, .r 0 tyAll true false 4⟩ (wordOf 0x6E w) = true → (tyAll.contains (wMod (wordOf 0x6E w)) && wMod (wordOf 0x6E w) != (wTy (wordOf 0x6E w))) = true → Follows l (c.pc + 1) → ∃ c', exec (.clVcvt k w) s = .next (s.setClu k (onward c')) ∧ OnlyLanes c c' (wD (wordOf 0x6E w)) (c.guard (wordOf 0x6E w)) ∧ (((wRm (wordOf 0x6E w)) ≠ 4) → ∀ j, j < 64 → (c.guard (wordOf 0x6E w)).getLsbD j = true → c'.vr (wD (wordOf 0x6E w)) j = laneBits (wRm (wordOf 0x6E w)) (convertLane (wTy (wordOf 0x6E w)) (wMod (wordOf 0x6E w)) (c.vr (wA (wordOf 0x6E w)) j)))) ∧
  (∀ (k : Nat) (t : Tile) (w : BitVec 56) (s : State) (c : Cluster) (l : Launch), Issuing s k 0x6F w c l → LaneActive c 0x6F w → Enc.ok ⟨.r32, .r16, .r32, .r32, plainR⟩ (wordOf 0x6F w) = true → tileOf (c.tr (wA (wordOf 0x6F w))) = some t → (c.sr (wB (wordOf 0x6F w))).toNat < t.rows → (c.sr (wC (wordOf 0x6F w))).toNat < t.cols → (scaled t.fmt = true → (c.sr (wC (wordOf 0x6F w))).toNat % 32 = 0) → Follows l (c.pc + 1) → ∃ c', exec (.clVld k w) s = .next (s.setClu k (onward c')) ∧ OnlyLanes c c' (wD (wordOf 0x6F w)) (c.guard (wordOf 0x6F w)) ∧ (∀ j, j < 64 → (c.guard (wordOf 0x6F w)).getLsbD j = true → c'.vr (wD (wordOf 0x6F w)) j = (if t.cols ≤ (c.sr (wC (wordOf 0x6F w))).toNat + j then 0 else if t.fmt = 5 then BitVec.ofInt 32 (signed 8 (getElem (t.rowMem c (c.sr (wB (wordOf 0x6F w))).toNat) 0 5 ((c.sr (wC (wordOf 0x6F w))).toNat + j))) else (rowF32 (t.rowMem c (c.sr (wB (wordOf 0x6F w))).toNat) 0 t.fmt t.alt t.cols ((c.sr (wC (wordOf 0x6F w))).toNat + j)).1))) ∧
  (∀ (k : Nat) (t : Tile) (w : BitVec 56) (s : State) (c : Cluster) (l : Launch), Issuing s k 0x70 w c l → LaneActive c 0x70 w → Enc.ok ⟨.r32, .r16, .r32, .r32, .r 0 [] true false 0⟩ (wordOf 0x70 w) = true → tileOf (c.tr (wA (wordOf 0x70 w))) = some t → (c.sr (wB (wordOf 0x70 w))).toNat < t.rows → (c.sr (wC (wordOf 0x70 w))).toNat < t.cols → (scaled t.fmt = true → (c.sr (wC (wordOf 0x70 w))).toNat % 32 = 0) → (vstEnd t (c.sr (wB (wordOf 0x70 w))).toNat (c.sr (wC (wordOf 0x70 w))).toNat (c.guard (wordOf 0x70 w))).any (fun a => decide (ringLine l ≤ a / lineBytes)) = false → Follows l (c.pc + 1) → exec (.clVst k w) s = .next (s.setClu k (onward (vstRow l t (wordOf 0x70 w) (c.sr (wB (wordOf 0x70 w))).toNat (c.sr (wC (wordOf 0x70 w))).toNat c)))) ∧
  (∀ (k : Nat) (w : BitVec 56) (s : State) (c : Cluster) (l : Launch), Issuing s k 0x71 w c l → LaneActive c 0x71 w → Enc.ok ⟨.r32, .r8, .r32, .r32, plainR⟩ (wordOf 0x71 w) = true → (c.sr (wB (wordOf 0x71 w))).toNat < 128 → (c.sr (wC (wordOf 0x71 w)) = 0 ∨ c.sr (wC (wordOf 0x71 w)) = 64) → Follows l (c.pc + 1) → ∃ c', exec (.clVlda k w) s = .next (s.setClu k (onward c')) ∧ OnlyLanes c c' (wD (wordOf 0x71 w)) (c.guard (wordOf 0x71 w)) ∧ (∀ j, j < 64 → (c.guard (wordOf 0x71 w)).getLsbD j = true → c'.vr (wD (wordOf 0x71 w)) j = c.acc (wA (wordOf 0x71 w)) (c.sr (wB (wordOf 0x71 w))).toNat ((c.sr (wC (wordOf 0x71 w))).toNat + j))) ∧
  (∀ (k : Nat) (w : BitVec 56) (s : State) (c : Cluster) (l : Launch), Issuing s k 0x72 w c l → LaneActive c 0x72 w → Enc.ok ⟨.r8, .r32, .r32, .r32, plainR⟩ (wordOf 0x72 w) = true → (c.sr (wB (wordOf 0x72 w))).toNat < 128 → (c.sr (wC (wordOf 0x72 w)) = 0 ∨ c.sr (wC (wordOf 0x72 w)) = 64) → Follows l (c.pc + 1) → exec (.clVsta k w) s = .next (s.setClu k (onward ((List.range 64).foldl (fun c' n => if (c.guard (wordOf 0x72 w)).getLsbD n then c'.setAcc (wD (wordOf 0x72 w)) (c.sr (wB (wordOf 0x72 w))).toNat ((c.sr (wC (wordOf 0x72 w))).toNat + n) (c.vr (wA (wordOf 0x72 w)) n) else c') c)))) ∧
  (∀ (k : Nat) (w : BitVec 56) (s : State) (c : Cluster) (l : Launch), Issuing s k 0x78 w c l → LaneActive c 0x78 w → Enc.ok ⟨.r32, .r32, .no, .no, .r 3 [0, 8, 9] false false 0⟩ (wordOf 0x78 w) = true → Follows l (c.pc + 1) → exec (.clVred k w) s = .next (s.setClu k (onward ((c.flag (reduceTree (reduceOp (wTy (wordOf 0x78 w)) (wSub (wordOf 0x78 w))) 6 ((List.range 64).map (fun n => (if (c.guard (wordOf 0x78 w)).getLsbD n then c.vr (wA (wordOf 0x78 w)) n else reduceId (wTy (wordOf 0x78 w)) (wSub (wordOf 0x78 w)), 0)))).2).setS (wD (wordOf 0x78 w)) ((reduceTree (reduceOp (wTy (wordOf 0x78 w)) (wSub (wordOf 0x78 w))) 6 ((List.range 64).map (fun n => (if (c.guard (wordOf 0x78 w)).getLsbD n then c.vr (wA (wordOf 0x78 w)) n else reduceId (wTy (wordOf 0x78 w)) (wSub (wordOf 0x78 w)), 0)))).1.zeroExtend 64))))) ∧
  (∀ (k : Nat) (w : BitVec 56) (s : State) (c : Cluster) (l : Launch), Issuing s k 0x79 w c l → LaneActive c 0x79 w → Enc.ok ⟨.r32, .r8, .r32, .no, .r 3 [0] false false 0⟩ (wordOf 0x79 w) = true → (c.sr (wB (wordOf 0x79 w)) = 0 ∨ c.sr (wB (wordOf 0x79 w)) = 64) → Follows l (c.pc + 1) → ∃ c', exec (.clAred k w) s = .next (s.setClu k (onward c')) ∧ OnlyLanes c c' (wD (wordOf 0x79 w)) (c.guard (wordOf 0x79 w)) ∧ (∀ j, j < 64 → (c.guard (wordOf 0x79 w)).getLsbD j = true → c'.vr (wD (wordOf 0x79 w)) j = (reduceTree (reduceOp 0 (wSub (wordOf 0x79 w))) 7 ((List.range 128).map (fun i => (c.acc (wA (wordOf 0x79 w)) ((c.sr (wB (wordOf 0x79 w))).toNat + j) i, 0)))).1))

/-- In every state in which a cluster issues the instruction with its guard true, its fields in range, fewer than 64 moves in flight and no failed move falling out of the window, valid descriptors, a destination outside the delivery ring, and (TLD, TST) an aligned range of an object that passes the checks of the handle: TLD, TST, TCP, TPUT and TGET (towards a rank of this sled and of another one) and TZERO add the move with the next number to the moves in flight, write that number modulo 65,536 to sd and go on; TLD takes the read leases of a READONLY object. TWAIT on a token that is not in flight writes 0, or the failed move's status word, to sd with F set, and without F goes on, or faults for a move that failed; on one in flight it waits. SADV on a STREAM object opens the launch's window at segment 0, or moves it by one segment (a READONLY one with its read leases). -/
def Obligations.ClusterTileMoves : Prop :=
  (∀ (k : Nat) (t : Tile) (n : Named) (w : BitVec 56) (s : State) (c : Cluster) (l : Launch), Issuing s k 0x40 w c l → Guarded c 0x40 w → Enc.ok ⟨.r32, .r16, .r16, .r32, .r 0 [] false false 16⟩ (wordOf 0x40 w) = true → tileOf (c.tr (wA (wordOf 0x40 w))) = some t → (c.sr (wC (wordOf 0x40 w))).toNat % 64 = 0 → (checkHandle s l.slot (c.hr (wB (wordOf 0x40 w))) false (c.sr (wC (wordOf 0x40 w))).toNat ((t.rows - 1) * (objStride (wordOf 0x40 w) t) + t.rowSize) (wB (wordOf 0x40 w)) c.pc).toOption = some n → (n.obj.flag 4 && !inWindow n.obj c.launch (c.sr (wC (wordOf 0x40 w))).toNat ((t.rows - 1) * (objStride (wordOf 0x40 w) t) + t.rowSize)) = false → inRing l t = false → CanMove c → Follows l (c.pc + 1) → exec (.clTld k w) s = .next (leaseLoads c.launch n.slot n.idx (pagesOf n.obj (c.sr (wC (wordOf 0x40 w))).toNat ((t.rows - 1) * (objStride (wordOf 0x40 w) t) + t.rowSize)) (s.setClu k (onward (withMove c (wD (wordOf 0x40 w)) 0x40 (.load n.slot n.idx (c.sr (wC (wordOf 0x40 w))).toNat (objStride (wordOf 0x40 w) t) t) 0))))) ∧
  (∀ (k : Nat) (t : Tile) (n : Named) (w : BitVec 56) (s : State) (c : Cluster) (l : Launch), Issuing s k 0x41 w c l → Guarded c 0x41 w → Enc.ok ⟨.r32, .r16, .r16, .r32, .r 0 [] false false 16⟩ (wordOf 0x41 w) = true → tileOf (c.tr (wA (wordOf 0x41 w))) = some t → (c.sr (wC (wordOf 0x41 w))).toNat % 64 = 0 → (checkHandle s l.slot (c.hr (wB (wordOf 0x41 w))) true (c.sr (wC (wordOf 0x41 w))).toNat ((t.rows - 1) * (objStride (wordOf 0x41 w) t) + t.rowSize) (wB (wordOf 0x41 w)) c.pc).toOption = some n → CanMove c → Follows l (c.pc + 1) → exec (.clTst k w) s = .next (s.setClu k (onward (withMove c (wD (wordOf 0x41 w)) 0x41 (.store t n.slot n.idx (c.sr (wC (wordOf 0x41 w))).toNat (objStride (wordOf 0x41 w) t)) 0)))) ∧
  (∀ (k : Nat) (t u : Tile) (w : BitVec 56) (s : State) (c : Cluster) (l : Launch), Issuing s k 0x42 w c l → Guarded c 0x42 w → Enc.ok ⟨.r32, .r16, .r16, .no, plainR⟩ (wordOf 0x42 w) = true → tileOf (c.tr (wA (wordOf 0x42 w))) = some t → tileOf (c.tr (wB (wordOf 0x42 w))) = some u → t.rows = u.rows ∧ t.rowSize = u.rowSize → inRing l t = false → CanMove c → Follows l (c.pc + 1) → exec (.clTcp k w) s = .next (s.setClu k (onward (withMove c (wD (wordOf 0x42 w)) 0x42 (.copy k u k t) 0)))) ∧
  (∀ (k : Nat) (t u : Tile) (j : Nat) (w : BitVec 56) (s : State) (c : Cluster) (l : Launch), Issuing s k 0x43 w c l → Guarded c 0x43 w → Enc.ok ⟨.r32, .r16, .r32, .r16, plainR⟩ (wordOf 0x43 w) = true → tileOf (c.tr (wA (wordOf 0x43 w))) = some t → tileOf (c.tr (wC (wordOf 0x43 w))) = some u → t.rows = u.rows ∧ t.rowSize = u.rowSize → (c.sr (wB (wordOf 0x43 w))).toNat < l.size → clusterOfRank l (c.sr (wB (wordOf 0x43 w))).toNat = some j → inRing l u = false → CanMove c → Follows l (c.pc + 1) → exec (.clTput k w) s = .next (s.setClu k (onward (withMove c (wD (wordOf 0x43 w)) 0x43 (.copy k t j u) 0)))) ∧
  (∀ (k : Nat) (t u : Tile) (w : BitVec 56) (s : State) (c : Cluster) (l : Launch), Issuing s k 0x43 w c l → Guarded c 0x43 w → Enc.ok ⟨.r32, .r16, .r32, .r16, plainR⟩ (wordOf 0x43 w) = true → tileOf (c.tr (wA (wordOf 0x43 w))) = some t → tileOf (c.tr (wC (wordOf 0x43 w))) = some u → t.rows = u.rows ∧ t.rowSize = u.rowSize → (c.sr (wB (wordOf 0x43 w))).toNat < l.size → clusterOfRank l (c.sr (wB (wordOf 0x43 w))).toNat = none → inRing l u = false → CanMove c → Follows l (c.pc + 1) → exec (.clTput k w) s = .next (tagLast k c.issued (sendPut k c.launch c.issued ((remoteRank l (c.sr (wB (wordOf 0x43 w))).toNat).getD 0) (c.sr (wB (wordOf 0x43 w))).toNat c t u (s.setClu k (onward (withMove c (wD (wordOf 0x43 w)) 0x43 (.put (c.sr (wB (wordOf 0x43 w))).toNat t u) 1)))))) ∧
  (∀ (k : Nat) (t u : Tile) (j : Nat) (w : BitVec 56) (s : State) (c : Cluster) (l : Launch), Issuing s k 0x44 w c l → Guarded c 0x44 w → Enc.ok ⟨.r32, .r16, .r32, .r16, plainR⟩ (wordOf 0x44 w) = true → tileOf (c.tr (wA (wordOf 0x44 w))) = some t → tileOf (c.tr (wC (wordOf 0x44 w))) = some u → t.rows = u.rows ∧ t.rowSize = u.rowSize → (c.sr (wB (wordOf 0x44 w))).toNat < l.size → clusterOfRank l (c.sr (wB (wordOf 0x44 w))).toNat = some j → inRing l t = false → CanMove c → Follows l (c.pc + 1) → exec (.clTget k w) s = .next (s.setClu k (onward (withMove c (wD (wordOf 0x44 w)) 0x44 (.copy j u k t) 0)))) ∧
  (∀ (k : Nat) (t u : Tile) (w : BitVec 56) (s : State) (c : Cluster) (l : Launch), Issuing s k 0x44 w c l → Guarded c 0x44 w → Enc.ok ⟨.r32, .r16, .r32, .r16, plainR⟩ (wordOf 0x44 w) = true → tileOf (c.tr (wA (wordOf 0x44 w))) = some t → tileOf (c.tr (wC (wordOf 0x44 w))) = some u → t.rows = u.rows ∧ t.rowSize = u.rowSize → (c.sr (wB (wordOf 0x44 w))).toNat < l.size → clusterOfRank l (c.sr (wB (wordOf 0x44 w))).toNat = none → inRing l t = false → CanMove c → Follows l (c.pc + 1) → exec (.clTget k w) s = .next (tagLast k c.issued (sendGet k c.launch c.issued ((remoteRank l (c.sr (wB (wordOf 0x44 w))).toNat).getD 0) (c.sr (wB (wordOf 0x44 w))).toNat u (s.setClu k (onward (withMove c (wD (wordOf 0x44 w)) 0x44 (.get (c.sr (wB (wordOf 0x44 w))).toNat u t) (t.rows * t.rowSize))))))) ∧
  (∀ (k : Nat) (t : Tile) (w : BitVec 56) (s : State) (c : Cluster) (l : Launch), Issuing s k 0x45 w c l → Guarded c 0x45 w → Enc.ok ⟨.r32, .r16, .no, .no, plainR⟩ (wordOf 0x45 w) = true → tileOf (c.tr (wA (wordOf 0x45 w))) = some t → inRing l t = false → CanMove c → Follows l (c.pc + 1) → exec (.clTzero k w) s = .next (s.setClu k (onward (withMove c (wD (wordOf 0x45 w)) 0x45 (.zero t) 0)))) ∧
  (∀ (k : Nat) (w : BitVec 56) (s : State) (c : Cluster) (l : Launch), Issuing s k 0x46 w c l → Guarded c 0x46 w → Enc.ok ⟨.r32, .r32, .no, .no, .r 0 [] false true 0⟩ (wordOf 0x46 w) = true → c.moves.any (fun m => m.num % 65536 == (c.sr (wA (wordOf 0x46 w))).toNat % 65536) = true → exec (.clTwait k w) s = .next (s.setClu k { c with wait := some (.move ((c.sr (wA (wordOf 0x46 w))).toNat % 65536) (wF (wordOf 0x46 w) == 1) (wD (wordOf 0x46 w)), s.tb) })) ∧
  (∀ (k : Nat) (w : BitVec 56) (s : State) (c : Cluster) (l : Launch), Issuing s k 0x46 w c l → Guarded c 0x46 w → Enc.ok ⟨.r32, .r32, .no, .no, .r 0 [] false true 0⟩ (wordOf 0x46 w) = true → c.moves.any (fun m => m.num % 65536 == (c.sr (wA (wordOf 0x46 w))).toNat % 65536) = false → (c.failed.find? (fun m => m.num % 65536 == (c.sr (wA (wordOf 0x46 w))).toNat % 65536)).isNone = true → Follows l (c.pc + 1) → exec (.clTwait k w) s = .next (s.setClu k (onward (if wF (wordOf 0x46 w) = 1 then c.setS (wD (wordOf 0x46 w)) 0 else c)))) ∧
  (∀ (k : Nat) (m : TileMove) (w : BitVec 56) (s : State) (c : Cluster) (l : Launch), Issuing s k 0x46 w c l → Guarded c 0x46 w → Enc.ok ⟨.r32, .r32, .no, .no, .r 0 [] false true 0⟩ (wordOf 0x46 w) = true → c.moves.any (fun m => m.num % 65536 == (c.sr (wA (wordOf 0x46 w))).toNat % 65536) = false → c.failed.find? (fun m => m.num % 65536 == (c.sr (wA (wordOf 0x46 w))).toNat % 65536) = some m → wF (wordOf 0x46 w) = 1 → Follows l (c.pc + 1) → exec (.clTwait k w) s = .next (s.setClu k (onward ({ c with failed := c.failed.filter (fun m => m.num % 65536 != (c.sr (wA (wordOf 0x46 w))).toNat % 65536) }.setS (wD (wordOf 0x46 w)) (m.status.word.zeroExtend 64))))) ∧
  (∀ (k : Nat) (n : Named) (w : BitVec 56) (s : State) (c : Cluster) (l : Launch), Issuing s k 0x47 w c l → Guarded c 0x47 w → Enc.ok ⟨.no, .r16, .no, .no, plainR⟩ (wordOf 0x47 w) = true → (checkHandle s l.slot (c.hr (wA (wordOf 0x47 w))) false 0 0 (wA (wordOf 0x47 w)) c.pc).toOption = some n → n.obj.flag 4 = true → n.obj.flag 8 = false → (n.obj.windows.find? (fun v => v.holder == c.launch)).isNone = true → Follows l (c.pc + 1) → exec (.clSadv k w) s = .next ((moveWindow c.launch n [] (windowSegs n.obj 0) (s.updObj n.slot n.idx (fun o => { o with windows := o.windows ++ [⟨c.launch, 0⟩] }))).setClu k (onward c))) ∧
  (∀ (k : Nat) (n : Named) (v : Window) (w : BitVec 56) (s : State) (c : Cluster) (l : Launch), Issuing s k 0x47 w c l → Guarded c 0x47 w → Enc.ok ⟨.no, .r16, .no, .no, plainR⟩ (wordOf 0x47 w) = true → (checkHandle s l.slot (c.hr (wA (wordOf 0x47 w))) false 0 0 (wA (wordOf 0x47 w)) c.pc).toOption = some n → n.obj.flag 4 = true → n.obj.flag 8 = false → n.obj.windows.find? (fun v => v.holder == c.launch) = some v → Follows l (c.pc + 1) → exec (.clSadv k w) s = .next ((s.updObj n.slot n.idx (fun o => { o with windows := updWhere o.windows (fun x => x.holder == c.launch) (fun x => { x with seg := (v.seg + 1) % segCount n.obj }) })).setClu k (onward c))) ∧
  (∀ (k : Nat) (n : Named) (w : BitVec 56) (s : State) (c : Cluster) (l : Launch), Issuing s k 0x47 w c l → Guarded c 0x47 w → Enc.ok ⟨.no, .r16, .no, .no, plainR⟩ (wordOf 0x47 w) = true → (checkHandle s l.slot (c.hr (wA (wordOf 0x47 w))) false 0 0 (wA (wordOf 0x47 w)) c.pc).toOption = some n → n.obj.flag 4 = true → n.obj.flag 8 = true → (n.obj.windows.find? (fun v => v.holder == c.launch)).isNone = true → exec (.clSadv k w) s = .next (cNext k (moveWindow c.launch n [] (windowSegs n.obj 0) (s.updObj n.slot n.idx (fun o => { o with windows := o.windows ++ [⟨c.launch, 0⟩] }))))) ∧
  (∀ (k : Nat) (n : Named) (v : Window) (w : BitVec 56) (s : State) (c : Cluster) (l : Launch), Issuing s k 0x47 w c l → Guarded c 0x47 w → Enc.ok ⟨.no, .r16, .no, .no, plainR⟩ (wordOf 0x47 w) = true → (checkHandle s l.slot (c.hr (wA (wordOf 0x47 w))) false 0 0 (wA (wordOf 0x47 w)) c.pc).toOption = some n → n.obj.flag 4 = true → n.obj.flag 8 = true → n.obj.windows.find? (fun v => v.holder == c.launch) = some v → exec (.clSadv k w) s = .next (cNext k (moveWindow c.launch n (windowSegs n.obj v.seg) (windowSegs n.obj ((v.seg + 1) % segCount n.obj)) (s.updObj n.slot n.idx (fun o => { o with windows := updWhere o.windows (fun x => x.holder == c.launch) (fun x => { x with seg := (v.seg + 1) % segCount n.obj }) })))))

/-- In every state in which a cluster issues the instruction with its guard true, its fields in range and its tiles valid and of the shapes required: MMA adds to element (i, j) of accumulator ad the products of row i of tile ta and row j of tile tb, in blocks of 32 with the rounding of the multiply-accumulate, MMAZ does so from +0.0; AZERO clears ad; ALD decodes a tile into ad; AST converts an accumulator into a tile in the mode RM. Other elements and other accumulators keep their values (accumulators held in their canonical form), and so does the rest of the cluster, but for the flags, the index and, with AST, the tile store and the rounding generators. -/
def Obligations.ClusterTensorOperations : Prop :=
  (∀ (k : Nat) (t u : Tile) (w : BitVec 56) (s : State) (c : Cluster) (l : Launch), Issuing s k 0x50 w c l → Guarded c 0x50 w → Enc.ok ⟨.r8, .r16, .r16, .no, plainR⟩ (wordOf 0x50 w) = true → tileOf (c.tr (wA (wordOf 0x50 w))) = some t → tileOf (c.tr (wB (wordOf 0x50 w))) = some u → t.rows ≤ 128 ∧ u.rows ≤ 128 ∧ t.cols = u.cols ∧ t.cols % 32 = 0 → t.fmt ≠ 0 ∧ u.fmt ≠ 0 → Follows l (c.pc + 1) → ∃ c', exec (.clMma k w) s = .next (s.setClu k (onward c')) ∧ c' = { c with a := c'.a, flags := c'.flags } ∧ (keysFrom 0 c.a = true → ∀ i j, i < 128 → j < 128 → c'.acc (wD (wordOf 0x50 w)) i j = if i < t.rows ∧ j < u.rows then (mulAcc (c.acc (wD (wordOf 0x50 w)) i j) (rowBlocks ((tileNums c t).getD i []) ((tileNums c u).getD j []) (t.cols / 32))).1 else c.acc (wD (wordOf 0x50 w)) i j) ∧ (keysFrom 0 c.a = true → ∀ a i j, a ≠ wD (wordOf 0x50 w) → i < 128 → j < 128 → c'.acc a i j = c.acc a i j)) ∧
  (∀ (k : Nat) (t u : Tile) (w : BitVec 56) (s : State) (c : Cluster) (l : Launch), Issuing s k 0x51 w c l → Guarded c 0x51 w → Enc.ok ⟨.r8, .r16, .r16, .no, plainR⟩ (wordOf 0x51 w) = true → tileOf (c.tr (wA (wordOf 0x51 w))) = some t → tileOf (c.tr (wB (wordOf 0x51 w))) = some u → t.rows ≤ 128 ∧ u.rows ≤ 128 ∧ t.cols = u.cols ∧ t.cols % 32 = 0 → t.fmt ≠ 0 ∧ u.fmt ≠ 0 → Follows l (c.pc + 1) → ∃ c', exec (.clMmaz k w) s = .next (s.setClu k (onward c')) ∧ c' = { c with a := c'.a, flags := c'.flags } ∧ (keysFrom 0 c.a = true → ∀ i j, i < 128 → j < 128 → c'.acc (wD (wordOf 0x51 w)) i j = if i < t.rows ∧ j < u.rows then (mulAcc (0) (rowBlocks ((tileNums c t).getD i []) ((tileNums c u).getD j []) (t.cols / 32))).1 else 0) ∧ (keysFrom 0 c.a = true → ∀ a i j, a ≠ wD (wordOf 0x51 w) → i < 128 → j < 128 → c'.acc a i j = c.acc a i j)) ∧
  (∀ (k : Nat) (w : BitVec 56) (s : State) (c : Cluster) (l : Launch), Issuing s k 0x52 w c l → Guarded c 0x52 w → Enc.ok ⟨.r8, .no, .no, .no, plainR⟩ (wordOf 0x52 w) = true → Follows l (c.pc + 1) → exec (.clAzero k w) s = .next (s.setClu k (onward { c with a := c.a.filter (fun e => e.1 / 16384 != wD (wordOf 0x52 w)) }))) ∧
  (∀ (c : Cluster) (a b i j : Nat), i < 128 → j < 128 → (c.clearAcc a).acc b i j = if b = a then 0 else c.acc b i j) ∧
  (∀ (k : Nat) (t : Tile) (w : BitVec 56) (s : State) (c : Cluster) (l : Launch), Issuing s k 0x53 w c l → Guarded c 0x53 w → Enc.ok ⟨.r8, .r16, .no, .no, plainR⟩ (wordOf 0x53 w) = true → tileOf (c.tr (wA (wordOf 0x53 w))) = some t → t.rows ≤ 128 → t.cols ≤ 128 → Follows l (c.pc + 1) → ∃ c', exec (.clAld k w) s = .next (s.setClu k (onward c')) ∧ c' = { c with a := c'.a, flags := c'.flags } ∧ (keysFrom 0 c.a = true → ∀ i j, i < 128 → j < 128 → c'.acc (wD (wordOf 0x53 w)) i j = if i < t.rows ∧ j < t.cols then (rowF32 (t.rowMem c i) 0 t.fmt t.alt t.cols j).1 else c.acc (wD (wordOf 0x53 w)) i j) ∧ (keysFrom 0 c.a = true → ∀ a i j, a ≠ wD (wordOf 0x53 w) → i < 128 → j < 128 → c'.acc a i j = c.acc a i j)) ∧
  (∀ (k : Nat) (t : Tile) (w : BitVec 56) (s : State) (c : Cluster) (l : Launch), Issuing s k 0x54 w c l → Guarded c 0x54 w → Enc.ok ⟨.r16, .r8, .no, .no, .r 0 [] true false 0⟩ (wordOf 0x54 w) = true → tileOf (c.tr (wD (wordOf 0x54 w))) = some t → t.rows ≤ 128 → t.cols ≤ 128 → inRing l t = false → Follows l (c.pc + 1) → exec (.clAst k w) s = .next (s.setClu k (onward ((List.range t.rows).foldl (fun c' i => storeRow l t (wRm (wordOf 0x54 w)) i ((List.range t.cols).map (fun j => f32 (c'.acc (wA (wordOf 0x54 w)) i j))) c') c))))

/-- In every state in which a cluster issues the instruction with its guard true, its fields in range and its operand checks passed: FENCE goes on with no move in flight and waits otherwise; SIGNAL queues the signal behind the moves issued so far and sends what is ready; SWAIT goes on when the semaphore has reached sa and waits otherwise; SREAD reads a semaphore; BAR waits, and releases the barrier when every rank has come; KVWAIT waits for a page and returns at once when it is there; KVREL releases the oldest page and refills the slot; KVINFO describes a page; EVINJ and EVINJV put the event words of sa, or of the active lanes in ascending order, into the event port, and stall while it is full; CALLR, CBCAST, CAGATH and CRDSC issue the collective as one move and run it when every rank has issued its own; TOKOUT on rank 0 records the token of an entry that produces one, and on other ranks or entries only goes on; EOT on rank 0 marks the entry. -/
def Obligations.ClusterSynchronisation : Prop :=
  (∀ (k : Nat) (w : BitVec 56) (s : State) (c : Cluster) (l : Launch), Issuing s k 0x80 w c l → Guarded c 0x80 w → Enc.ok {} (wordOf 0x80 w) = true → c.moves = [] → Follows l (c.pc + 1) → exec (.clFence k w) s = .next (s.setClu k (onward c))) ∧
  (∀ (k : Nat) (w : BitVec 56) (s : State) (c : Cluster) (l : Launch), Issuing s k 0x80 w c l → Guarded c 0x80 w → Enc.ok {} (wordOf 0x80 w) = true → c.moves ≠ [] → exec (.clFence k w) s = .next (s.setClu k { c with wait := some (.fence, s.tb) })) ∧
  (∀ (k : Nat) (w : BitVec 56) (s : State) (c : Cluster) (l : Launch), Issuing s k 0x81 w c l → Guarded c 0x81 w → Enc.ok ⟨.no, .r32, .r32, .no, semLow⟩ (wordOf 0x81 w) = true → (c.sr (wA (wordOf 0x81 w))).toNat < l.size → Follows l (c.pc + 1) → exec (.clSignal k w) s = .next (sendSignals k (s.setClu k (onward { c with sigs := c.sigs ++ [⟨(c.sr (wA (wordOf 0x81 w))).toNat, wMod (wordOf 0x81 w), (c.sr (wB (wordOf 0x81 w))).truncate 32, c.issued⟩] })))) ∧
  (∀ (k : Nat) (w : BitVec 56) (s : State) (c : Cluster) (l : Launch), Issuing s k 0x82 w c l → Guarded c 0x82 w → Enc.ok ⟨.no, .r32, .no, .no, semLow⟩ (wordOf 0x82 w) = true → (c.sr (wA (wordOf 0x82 w))).toNat ≤ (c.semv (wMod (wordOf 0x82 w))).toNat → Follows l (c.pc + 1) → exec (.clSwait k w) s = .next (s.setClu k (onward c))) ∧
  (∀ (k : Nat) (w : BitVec 56) (s : State) (c : Cluster) (l : Launch), Issuing s k 0x82 w c l → Guarded c 0x82 w → Enc.ok ⟨.no, .r32, .no, .no, semLow⟩ (wordOf 0x82 w) = true → (c.semv (wMod (wordOf 0x82 w))).toNat < (c.sr (wA (wordOf 0x82 w))).toNat → exec (.clSwait k w) s = .next (s.setClu k { c with wait := some (.sem (wMod (wordOf 0x82 w)) (c.sr (wA (wordOf 0x82 w))), s.tb) })) ∧
  (∀ (k : Nat) (w : BitVec 56) (s : State) (c : Cluster) (l : Launch), Issuing s k 0x83 w c l → Guarded c 0x83 w → Enc.ok ⟨.r32, .no, .no, .no, semLow⟩ (wordOf 0x83 w) = true → Follows l (c.pc + 1) → exec (.clSread k w) s = .next (s.setClu k (onward (c.setS (wD (wordOf 0x83 w)) (c.semv (wMod (wordOf 0x83 w))))))) ∧
  (∀ (k : Nat) (w : BitVec 56) (s : State) (c : Cluster) (l : Launch), Issuing s k 0x84 w c l → Guarded c 0x84 w → Enc.ok {} (wordOf 0x84 w) = true → exec (.clBar k w) s = .next (tryBar c.launch (s.setClu k { c with wait := some (.bar, s.tb) }))) ∧
  (∀ (k : Nat) (w : BitVec 56) (s : State) (c : Cluster) (l : Launch), Issuing s k 0x88 w c l → Guarded c 0x88 w → Enc.ok ⟨.r32, .r32, .no, .no, plainR⟩ (wordOf 0x88 w) = true → (c.sr (wA (wordOf 0x88 w))).toNat < l.pages.length → c.kvRel ≤ (c.sr (wA (wordOf 0x88 w))).toNat → (c.sr (wA (wordOf 0x88 w))).toNat < c.kvRel + l.slots → exec (.clKvwait k w) s = .next (checkKv k (s.setClu k { c with wait := some (.kv (c.sr (wA (wordOf 0x88 w))).toNat (wD (wordOf 0x88 w)), s.tb) }))) ∧
  (∀ (k : Nat) (w : BitVec 56) (s : State) (c : Cluster) (l : Launch), Issuing s k 0x89 w c l → Guarded c 0x89 w → Enc.ok ⟨.no, .r32, .no, .no, plainR⟩ (wordOf 0x89 w) = true → (c.sr (wA (wordOf 0x89 w))).toNat = c.kvRel → Follows l (c.pc + 1) → exec (.clKvrel k w) s = .next (fillSlot k (c.kvRel + l.slots) (s.setClu k (onward { c with kvRel := c.kvRel + 1 })))) ∧
  (∀ (k : Nat) (p : LPage) (w : BitVec 56) (s : State) (c : Cluster) (l : Launch), Issuing s k 0x8A w c l → Guarded c 0x8A w → Enc.ok ⟨.r32, .r32, .no, .no, plainR⟩ (wordOf 0x8A w) = true → l.pages[(c.sr (wA (wordOf 0x8A w))).toNat]? = some p → Follows l (c.pc + 1) → exec (.clKvinfo k w) s = .next (s.setClu k (onward (c.setS (wD (wordOf 0x8A w)) (BitVec.ofNat 64 (p.entry % 65536 + 2 ^ 16 * (p.block % 2 ^ 32) + 2 ^ 48 * (p.valid % 128) + 2 ^ 55 * b2n p.priv)))))) ∧
  (∀ (k : Nat) (w : BitVec 56) (s : State) (c : Cluster) (l : Launch), Issuing s k 0x90 w c l → Guarded c 0x90 w → Enc.ok ⟨.no, .r32, .no, .no, plainR⟩ (wordOf 0x90 w) = true → c.port.length < 32 → Follows l (c.pc + 1) → exec (.clEvinj k w) s = .next (s.setClu k (onward { c with port := c.port ++ [portWord s ((c.sr (wA (wordOf 0x90 w))).truncate 32)] }))) ∧
  (∀ (k : Nat) (w : BitVec 56) (s : State) (c : Cluster) (l : Launch), Issuing s k 0x90 w c l → Guarded c 0x90 w → Enc.ok ⟨.no, .r32, .no, .no, plainR⟩ (wordOf 0x90 w) = true → 32 ≤ c.port.length → exec (.clEvinj k w) s = .next (s)) ∧
  (∀ (k : Nat) (w : BitVec 56) (s : State) (c : Cluster) (l : Launch), Issuing s k 0x91 w c l → LaneActive c 0x91 w → Enc.ok ⟨.no, .r32, .no, .no, plainR⟩ (wordOf 0x91 w) = true → c.port.length < 32 → Follows l (c.pc + 1) → exec (.clEvinjv k w) s = .next (s.setClu k (onward { c with port := c.port ++ ((List.range 64).filter (fun n => (c.guard (wordOf 0x91 w)).getLsbD n)).map (fun n => portWord s (c.vr (wA (wordOf 0x91 w)) n)) }))) ∧
  (∀ (k : Nat) (t : Tile) (w : BitVec 56) (s : State) (c : Cluster) (l : Launch), Issuing s k 0xA0 w c l → Guarded c 0xA0 w → Enc.ok ⟨.r32, .r16, .no, .no, .r 3 [] false false 0⟩ (wordOf 0xA0 w) = true → tileOf (c.tr (wA (wordOf 0xA0 w))) = some t → t.fmt ≤ 2 → inRing l t = false → CanMove c → Follows l (c.pc + 1) → exec (.clCallr k w) s = .next (collMatch c.launch c.colls.length (s.setClu k { onward (withMove c (wD (wordOf 0xA0 w)) 0xA0 (.coll c.colls.length) (Coll.size ⟨0xA0, wSub (wordOf 0xA0 w), 0, t, none⟩)) with colls := c.colls ++ [⟨0xA0, wSub (wordOf 0xA0 w), 0, t, none⟩] }))) ∧
  (∀ (k : Nat) (t : Tile) (w : BitVec 56) (s : State) (c : Cluster) (l : Launch), Issuing s k 0xA1 w c l → Guarded c 0xA1 w → Enc.ok ⟨.r32, .r16, .r32, .no, plainR⟩ (wordOf 0xA1 w) = true → tileOf (c.tr (wA (wordOf 0xA1 w))) = some t → (c.sr (wB (wordOf 0xA1 w))).toNat < l.size → inRing l t = false → CanMove c → Follows l (c.pc + 1) → exec (.clCbcast k w) s = .next (collMatch c.launch c.colls.length (s.setClu k { onward (withMove c (wD (wordOf 0xA1 w)) 0xA1 (.coll c.colls.length) (Coll.size ⟨0xA1, 0, (c.sr (wB (wordOf 0xA1 w))).toNat, t, none⟩)) with colls := c.colls ++ [⟨0xA1, 0, (c.sr (wB (wordOf 0xA1 w))).toNat, t, none⟩] }))) ∧
  (∀ (k : Nat) (t u : Tile) (w : BitVec 56) (s : State) (c : Cluster) (l : Launch), Issuing s k 0xA2 w c l → Guarded c 0xA2 w → Enc.ok ⟨.r32, .r16, .r16, .no, plainR⟩ (wordOf 0xA2 w) = true → tileOf (c.tr (wA (wordOf 0xA2 w))) = some t → tileOf (c.tr (wB (wordOf 0xA2 w))) = some u → u.rows = l.size * t.rows → inRing l u = false → CanMove c → Follows l (c.pc + 1) → exec (.clCagath k w) s = .next (collMatch c.launch c.colls.length (s.setClu k { onward (withMove c (wD (wordOf 0xA2 w)) 0xA2 (.coll c.colls.length) (Coll.size ⟨0xA2, 0, 0, t, some u⟩)) with colls := c.colls ++ [⟨0xA2, 0, 0, t, some u⟩] }))) ∧
  (∀ (k : Nat) (t u : Tile) (w : BitVec 56) (s : State) (c : Cluster) (l : Launch), Issuing s k 0xA3 w c l → Guarded c 0xA3 w → Enc.ok ⟨.r32, .r16, .r16, .no, .r 3 [] false false 0⟩ (wordOf 0xA3 w) = true → tileOf (c.tr (wA (wordOf 0xA3 w))) = some t → tileOf (c.tr (wB (wordOf 0xA3 w))) = some u → t.fmt ≤ 2 ∧ u.fmt ≤ 2 → t.rows = l.size * u.rows → inRing l u = false → CanMove c → Follows l (c.pc + 1) → exec (.clCrdsc k w) s = .next (collMatch c.launch c.colls.length (s.setClu k { onward (withMove c (wD (wordOf 0xA3 w)) 0xA3 (.coll c.colls.length) (Coll.size ⟨0xA3, wSub (wordOf 0xA3 w), 0, t, some u⟩)) with colls := c.colls ++ [⟨0xA3, wSub (wordOf 0xA3 w), 0, t, some u⟩] }))) ∧
  (∀ (k : Nat) (id g : Nat) (t : Step) (e : StepEntry) (w : BitVec 56) (s : State) (c : Cluster) (l : Launch), Issuing s k 0xA8 w c l → Guarded c 0xA8 w → Enc.ok ⟨.no, .r32, .r32, .no, plainR⟩ (wordOf 0xA8 w) = true → l.step = some (id, g) → s.step? id = some t → t.entries[(c.sr (wA (wordOf 0xA8 w))).toNat]? = some e → g + 1 = groupsOf s t.model → c.rank = 0 → e.produces = true → mget t.tokOut (c.sr (wA (wordOf 0xA8 w))).toNat = none → Follows l (c.pc + 1) → exec (.clTokout k w) s = .next ((s.updStep id (fun t => { t with tokOut := mput t.tokOut (c.sr (wA (wordOf 0xA8 w))).toNat ((c.sr (wB (wordOf 0xA8 w))).toNat % 2 ^ 32) })).setClu k (onward c))) ∧
  (∀ (k : Nat) (id g : Nat) (t : Step) (e : StepEntry) (w : BitVec 56) (s : State) (c : Cluster) (l : Launch), Issuing s k 0xA8 w c l → Guarded c 0xA8 w → Enc.ok ⟨.no, .r32, .r32, .no, plainR⟩ (wordOf 0xA8 w) = true → l.step = some (id, g) → s.step? id = some t → t.entries[(c.sr (wA (wordOf 0xA8 w))).toNat]? = some e → g + 1 = groupsOf s t.model → (c.rank ≠ 0 ∨ e.produces = false) → Follows l (c.pc + 1) → exec (.clTokout k w) s = .next (s.setClu k (onward c))) ∧
  (∀ (k : Nat) (id g : Nat) (t : Step) (e : StepEntry) (w : BitVec 56) (s : State) (c : Cluster) (l : Launch), Issuing s k 0xA9 w c l → Guarded c 0xA9 w → Enc.ok ⟨.no, .r32, .no, .no, plainR⟩ (wordOf 0xA9 w) = true → l.step = some (id, g) → s.step? id = some t → t.entries[(c.sr (wA (wordOf 0xA9 w))).toNat]? = some e → c.rank = 0 → t.eot.contains (c.sr (wA (wordOf 0xA9 w))).toNat = false → Follows l (c.pc + 1) → exec (.clEot k w) s = .next ((s.updStep id (fun t => { t with eot := t.eot ++ [(c.sr (wA (wordOf 0xA9 w))).toNat] })).setClu k (onward c)))

/-- QOP writes to sd the result of the scalar operation that SUB selects, each of them spelled out (a zero divisor gives −1 and sa); ADDI writes sa plus the sign-extended immediate; LI writes the immediate, LIH writes it to the upper half; CMP and CMPI write the comparison that field C selects to a p register; HSET and HGET move between sa and a handle register. Each holds in every state in which a running program issues the instruction with its guard register at the wanted value and its reserved fields zero, and gives the state with that one register written and the index one further. In every state in which a running program issues the instruction with its guard true and its reserved fields zero. BR goes to index + IMM; BZ and BNZ do so as sa is or is not 0 and go on otherwise; LOOP writes sa − 1 to sa and does so while that is not 0; CALL writes index + 1 to sd and does so; JR goes to the index in sa; a target outside the program ends it as a program fault. END with commands or launches still open leaves everything as it is, to be issued again; END with none open ends a queue program DONE with sa as the RESULT of its QPROG_RUN. With its guard at the other value an instruction only goes on. -/
def Obligations.QueueProgramScalarAndBranches : Prop :=
  (∀ (q : (Nat × (DWord → DWord → DWord))) (key : Nat) (w : BitVec 56) (s : State) (p : QProg), (q ∈ ([(0x01, fun x y => x + y), (0x02, fun x y => x - y), (0x03, fun x y => x * y), (0x06, fun x y => if y = 0 then -1 else x.sdiv y), (0x07, fun x y => if y = 0 then -1 else x.udiv y), (0x08, fun x y => if y = 0 then x else x.srem y), (0x09, fun x y => if y = 0 then x else x.umod y), (0x0A, fun x y => x &&& y), (0x0B, fun x y => x ||| y), (0x0C, fun x y => x ^^^ y), (0x0D, fun x y => x <<< (y.toNat % 64)), (0x0E, fun x y => x >>> (y.toNat % 64)), (0x0F, fun x y => x.sshiftRight (y.toNat % 64)), (0x10, fun x y => if x.toInt < y.toInt then x else y), (0x11, fun x y => if x.toInt < y.toInt then y else x), (0x12, fun x y => if x.toNat < y.toNat then x else y), (0x13, fun x y => if x.toNat < y.toNat then y else x)] : List (Nat × (DWord → DWord → DWord)))) → QIssuing s key 0xC0 w p → QGuarded p 0xC0 w → Enc.ok ⟨.r32, .r32, .r32, .no, .r 0x14 [] false false 0⟩ (wordOf 0xC0 w) = true → wSub (wordOf 0xC0 w) = q.1 → QFollows p (p.pc + 1) → exec (.qpQop key w) s = .next (s.setProg key (p.onward (p.regs.setS (wD (wordOf 0xC0 w)) (q.2 (p.regs.sr (wA (wordOf 0xC0 w))) (p.regs.sr (wB (wordOf 0xC0 w)))))))) ∧
  (∀ (key : Nat) (w : BitVec 56) (s : State) (p : QProg), QIssuing s key 0xC1 w p → QGuarded p 0xC1 w → Enc.ok ⟨.r32, .r32, .no, .no, .imm⟩ (wordOf 0xC1 w) = true → QFollows p (p.pc + 1) → exec (.qpAddi key w) s = .next (s.setProg key (p.onward (p.regs.setS (wD (wordOf 0xC1 w)) (p.regs.sr (wA (wordOf 0xC1 w)) + ((BitVec.ofNat 32 (wordOf 0xC1 w)).signExtend 64)))))) ∧
  (∀ (key : Nat) (w : BitVec 56) (s : State) (p : QProg), QIssuing s key 0xC2 w p → QGuarded p 0xC2 w → Enc.ok ⟨.r32, .no, .no, .no, .imm⟩ (wordOf 0xC2 w) = true → QFollows p (p.pc + 1) → exec (.qpLi key w) s = .next (s.setProg key (p.onward (p.regs.setS (wD (wordOf 0xC2 w)) ((BitVec.ofNat 32 (wordOf 0xC2 w)).signExtend 64))))) ∧
  (∀ (key : Nat) (w : BitVec 56) (s : State) (p : QProg), QIssuing s key 0xC3 w p → QGuarded p 0xC3 w → Enc.ok ⟨.r32, .no, .no, .no, .imm⟩ (wordOf 0xC3 w) = true → QFollows p (p.pc + 1) → exec (.qpLih key w) s = .next (s.setProg key (p.onward (p.regs.setS (wD (wordOf 0xC3 w)) (BitVec.ofNat 32 (wordOf 0xC3 w) ++ (p.regs.sr (wD (wordOf 0xC3 w))).truncate 32))))) ∧
  (∀ (key : Nat) (w : BitVec 56) (s : State) (p : QProg), QIssuing s key 0xC4 w p → QGuarded p 0xC4 w → Enc.ok ⟨.r8, .r32, .r32, .code 6, plainR⟩ (wordOf 0xC4 w) = true → wC (wordOf 0xC4 w) = 0 → QFollows p (p.pc + 1) → exec (.qpCmp key w) s = .next (s.setProg key (p.onward (p.regs.setP (wD (wordOf 0xC4 w)) (decide (p.regs.sr (wA (wordOf 0xC4 w)) = p.regs.sr (wB (wordOf 0xC4 w)))))))) ∧
  (∀ (key : Nat) (w : BitVec 56) (s : State) (p : QProg), QIssuing s key 0xC4 w p → QGuarded p 0xC4 w → Enc.ok ⟨.r8, .r32, .r32, .code 6, plainR⟩ (wordOf 0xC4 w) = true → wC (wordOf 0xC4 w) = 1 → QFollows p (p.pc + 1) → exec (.qpCmp key w) s = .next (s.setProg key (p.onward (p.regs.setP (wD (wordOf 0xC4 w)) (decide (p.regs.sr (wA (wordOf 0xC4 w)) ≠ p.regs.sr (wB (wordOf 0xC4 w)))))))) ∧
  (∀ (key : Nat) (w : BitVec 56) (s : State) (p : QProg), QIssuing s key 0xC4 w p → QGuarded p 0xC4 w → Enc.ok ⟨.r8, .r32, .r32, .code 6, plainR⟩ (wordOf 0xC4 w) = true → wC (wordOf 0xC4 w) = 2 → QFollows p (p.pc + 1) → exec (.qpCmp key w) s = .next (s.setProg key (p.onward (p.regs.setP (wD (wordOf 0xC4 w)) (decide ((p.regs.sr (wA (wordOf 0xC4 w))).toInt < (p.regs.sr (wB (wordOf 0xC4 w))).toInt)))))) ∧
  (∀ (key : Nat) (w : BitVec 56) (s : State) (p : QProg), QIssuing s key 0xC4 w p → QGuarded p 0xC4 w → Enc.ok ⟨.r8, .r32, .r32, .code 6, plainR⟩ (wordOf 0xC4 w) = true → wC (wordOf 0xC4 w) = 3 → QFollows p (p.pc + 1) → exec (.qpCmp key w) s = .next (s.setProg key (p.onward (p.regs.setP (wD (wordOf 0xC4 w)) (decide ((p.regs.sr (wB (wordOf 0xC4 w))).toInt ≤ (p.regs.sr (wA (wordOf 0xC4 w))).toInt)))))) ∧
  (∀ (key : Nat) (w : BitVec 56) (s : State) (p : QProg), QIssuing s key 0xC4 w p → QGuarded p 0xC4 w → Enc.ok ⟨.r8, .r32, .r32, .code 6, plainR⟩ (wordOf 0xC4 w) = true → wC (wordOf 0xC4 w) = 4 → QFollows p (p.pc + 1) → exec (.qpCmp key w) s = .next (s.setProg key (p.onward (p.regs.setP (wD (wordOf 0xC4 w)) (decide ((p.regs.sr (wA (wordOf 0xC4 w))).toNat < (p.regs.sr (wB (wordOf 0xC4 w))).toNat)))))) ∧
  (∀ (key : Nat) (w : BitVec 56) (s : State) (p : QProg), QIssuing s key 0xC4 w p → QGuarded p 0xC4 w → Enc.ok ⟨.r8, .r32, .r32, .code 6, plainR⟩ (wordOf 0xC4 w) = true → wC (wordOf 0xC4 w) = 5 → QFollows p (p.pc + 1) → exec (.qpCmp key w) s = .next (s.setProg key (p.onward (p.regs.setP (wD (wordOf 0xC4 w)) (decide ((p.regs.sr (wB (wordOf 0xC4 w))).toNat ≤ (p.regs.sr (wA (wordOf 0xC4 w))).toNat)))))) ∧
  (∀ (key : Nat) (w : BitVec 56) (s : State) (p : QProg), QIssuing s key 0xC5 w p → QGuarded p 0xC5 w → Enc.ok ⟨.r8, .r32, .no, .code 6, .imm⟩ (wordOf 0xC5 w) = true → QFollows p (p.pc + 1) → exec (.qpCmpi key w) s = .next (s.setProg key (p.onward (p.regs.setP (wD (wordOf 0xC5 w)) (condHolds (wC (wordOf 0xC5 w)) (p.regs.sr (wA (wordOf 0xC5 w))) ((BitVec.ofNat 32 (wordOf 0xC5 w)).signExtend 64)))))) ∧
  (∀ (key : Nat) (w : BitVec 56) (s : State) (p : QProg), QIssuing s key 0xC6 w p → QGuarded p 0xC6 w → Enc.ok ⟨.r16, .r32, .no, .no, plainR⟩ (wordOf 0xC6 w) = true → QFollows p (p.pc + 1) → exec (.qpHset key w) s = .next (s.setProg key (p.onward (p.regs.setH (wD (wordOf 0xC6 w)) (p.regs.sr (wA (wordOf 0xC6 w))))))) ∧
  (∀ (key : Nat) (w : BitVec 56) (s : State) (p : QProg), QIssuing s key 0xC7 w p → QGuarded p 0xC7 w → Enc.ok ⟨.r32, .r16, .no, .no, plainR⟩ (wordOf 0xC7 w) = true → QFollows p (p.pc + 1) → exec (.qpHget key w) s = .next (s.setProg key (p.onward (p.regs.setS (wD (wordOf 0xC7 w)) (p.regs.hr (wA (wordOf 0xC7 w))))))) ∧
  (∀ (key : Nat) (t : Nat) (w : BitVec 56) (s : State) (p : QProg), QIssuing s key 0xC8 w p → QGuarded p 0xC8 w → Enc.ok ⟨.no, .no, .no, .no, .imm⟩ (wordOf 0xC8 w) = true → (p.pc : Int) + (((BitVec.ofNat 32 (wordOf 0xC8 w)).signExtend 64)).toInt = t → QFollows p t → exec (.qpBr key w) s = .next (s.setProg key { p with pc := t })) ∧
  (∀ (key : Nat) (w : BitVec 56) (s : State) (p : QProg), QIssuing s key 0xC8 w p → QGuarded p 0xC8 w → Enc.ok ⟨.no, .no, .no, .no, .imm⟩ (wordOf 0xC8 w) = true → ((p.pc : Int) + (((BitVec.ofNat 32 (wordOf 0xC8 w)).signExtend 64)).toInt < 0 ∨ (p.code.length : Int) ≤ (p.pc : Int) + (((BitVec.ofNat 32 (wordOf 0xC8 w)).signExtend 64)).toInt) → exec (.qpBr key w) s = .next (qFault key s)) ∧
  (∀ (key : Nat) (t : Nat) (w : BitVec 56) (s : State) (p : QProg), QIssuing s key 0xC9 w p → QGuarded p 0xC9 w → Enc.ok ⟨.no, .r32, .no, .no, .imm⟩ (wordOf 0xC9 w) = true → p.regs.sr (wA (wordOf 0xC9 w)) = 0 → (p.pc : Int) + (((BitVec.ofNat 32 (wordOf 0xC9 w)).signExtend 64)).toInt = t → QFollows p t → exec (.qpBz key w) s = .next (s.setProg key { p with pc := t })) ∧
  (∀ (key : Nat) (w : BitVec 56) (s : State) (p : QProg), QIssuing s key 0xC9 w p → QGuarded p 0xC9 w → Enc.ok ⟨.no, .r32, .no, .no, .imm⟩ (wordOf 0xC9 w) = true → p.regs.sr (wA (wordOf 0xC9 w)) ≠ 0 → QFollows p (p.pc + 1) → exec (.qpBz key w) s = .next (s.setProg key (p.onward (p.regs)))) ∧
  (∀ (key : Nat) (t : Nat) (w : BitVec 56) (s : State) (p : QProg), QIssuing s key 0xCA w p → QGuarded p 0xCA w → Enc.ok ⟨.no, .r32, .no, .no, .imm⟩ (wordOf 0xCA w) = true → p.regs.sr (wA (wordOf 0xCA w)) ≠ 0 → (p.pc : Int) + (((BitVec.ofNat 32 (wordOf 0xCA w)).signExtend 64)).toInt = t → QFollows p t → exec (.qpBnz key w) s = .next (s.setProg key { p with pc := t })) ∧
  (∀ (key : Nat) (w : BitVec 56) (s : State) (p : QProg), QIssuing s key 0xCA w p → QGuarded p 0xCA w → Enc.ok ⟨.no, .r32, .no, .no, .imm⟩ (wordOf 0xCA w) = true → p.regs.sr (wA (wordOf 0xCA w)) = 0 → QFollows p (p.pc + 1) → exec (.qpBnz key w) s = .next (s.setProg key (p.onward (p.regs)))) ∧
  (∀ (key : Nat) (t : Nat) (w : BitVec 56) (s : State) (p : QProg), QIssuing s key 0xCB w p → QGuarded p 0xCB w → Enc.ok ⟨.no, .r32, .no, .no, .imm⟩ (wordOf 0xCB w) = true → p.regs.sr (wA (wordOf 0xCB w)) ≠ 1 → (p.pc : Int) + (((BitVec.ofNat 32 (wordOf 0xCB w)).signExtend 64)).toInt = t → QFollows p t → exec (.qpLoop key w) s = .next (s.setProg key { p with regs := p.regs.setS (wA (wordOf 0xCB w)) (p.regs.sr (wA (wordOf 0xCB w)) - 1), pc := t })) ∧
  (∀ (key : Nat) (w : BitVec 56) (s : State) (p : QProg), QIssuing s key 0xCB w p → QGuarded p 0xCB w → Enc.ok ⟨.no, .r32, .no, .no, .imm⟩ (wordOf 0xCB w) = true → p.regs.sr (wA (wordOf 0xCB w)) = 1 → QFollows p (p.pc + 1) → exec (.qpLoop key w) s = .next (s.setProg key (p.onward (p.regs.setS (wA (wordOf 0xCB w)) 0)))) ∧
  (∀ (key : Nat) (t : Nat) (w : BitVec 56) (s : State) (p : QProg), QIssuing s key 0xCC w p → QGuarded p 0xCC w → Enc.ok ⟨.r32, .no, .no, .no, .imm⟩ (wordOf 0xCC w) = true → (p.pc : Int) + (((BitVec.ofNat 32 (wordOf 0xCC w)).signExtend 64)).toInt = t → QFollows p t → exec (.qpCall key w) s = .next (s.setProg key { p with regs := p.regs.setS (wD (wordOf 0xCC w)) (BitVec.ofNat 64 (p.pc + 1)), pc := t })) ∧
  (∀ (key : Nat) (t : Nat) (w : BitVec 56) (s : State) (p : QProg), QIssuing s key 0xCD w p → QGuarded p 0xCD w → Enc.ok ⟨.no, .r32, .no, .no, plainR⟩ (wordOf 0xCD w) = true → (p.regs.sr (wA (wordOf 0xCD w))).toNat = t → QFollows p t → exec (.qpJr key w) s = .next (s.setProg key { p with pc := t })) ∧
  (∀ (key : Nat) (w : BitVec 56) (s : State) (p : QProg), QIssuing s key 0xCD w p → QGuarded p 0xCD w → Enc.ok ⟨.no, .r32, .no, .no, plainR⟩ (wordOf 0xCD w) = true → p.code.length ≤ (p.regs.sr (wA (wordOf 0xCD w))).toNat → exec (.qpJr key w) s = .next (qFault key s)) ∧
  (∀ (key : Nat) (w : BitVec 56) (s : State) (p : QProg), QIssuing s key 0xCE w p → QGuarded p 0xCE w → Enc.ok ⟨.no, .r32, .no, .no, plainR⟩ (wordOf 0xCE w) = true → ((∃ t ∈ p.cmds ++ p.launches, t.status = none)) → exec (.qpEnd key w) s = .next (s)) ∧
  (∀ (key : Nat) (w : BitVec 56) (s : State) (p : QProg), QIssuing s key 0xCE w p → QGuarded p 0xCE w → Enc.ok ⟨.no, .r32, .no, .no, plainR⟩ (wordOf 0xCE w) = true → ((∀ t ∈ p.cmds ++ p.launches, t.status ≠ none)) → p.step = none → exec (.qpEnd key w) s = .next (finish p.flight ⟨0, 0, 0⟩ (p.regs.sr (wA (wordOf 0xCE w))).toNat { s with progs := mdel s.progs key })) ∧
  (∀ (key : Nat) (w : BitVec 56) (s : State) (p : QProg), QIssuing s key 0xC0 w p → ¬ QGuarded p 0xC0 w → Enc.ok ⟨.r32, .r32, .r32, .no, .r 0x14 [] false false 0⟩ (wordOf 0xC0 w) = true → wSub (wordOf 0xC0 w) ≠ 0 → QFollows p (p.pc + 1) → exec (.qpQop key w) s = .next (s.setProg key (p.onward p.regs)))

/-- In every state in which a running program issues the instruction with its guard true and its reserved fields zero. LD at an offset that is a multiple of 8, of bytes a valid handle reaches that are unpoisoned and need no promotion, writes the 8 bytes, least significant first, to sd and charges the access; ST with a handle it may write stores the 8 bytes of sa and goes on; both end the program as a program fault at another offset. CWAIT, CRES and LWAIT, with a token in the window of 64 commands or 16 launches, write the status word or RESULT of ended work to sd, leave everything as it is while the work is open, and fault on a token out of the window; LREP stores the report of an ended launch at an offset that is a multiple of 32. -/
def Obligations.QueueProgramMemoryAndTokens : Prop :=
  (∀ (key : Nat) (n : Named) (w : BitVec 56) (s : State) (p : QProg), QIssuing s key 0xD0 w p → QGuarded p 0xD0 w → Enc.ok ⟨.r32, .r16, .r32, .no, plainR⟩ (wordOf 0xD0 w) = true → (p.regs.sr (wB (wordOf 0xD0 w))).toNat % 8 = 0 → (checkHandle s p.slot (p.regs.hr (wA (wordOf 0xD0 w))) false (p.regs.sr (wB (wordOf 0xD0 w))).toNat 8 (wA (wordOf 0xD0 w)) p.pc).toOption = some n → (pagesOf n.obj (p.regs.sr (wB (wordOf 0xD0 w))).toNat 8).find? (fun i => (n.obj.page i).poison) = none → mustPromote n.obj (p.regs.sr (wB (wordOf 0xD0 w))).toNat 8 false = [] → QFollows p (p.pc + 1) → exec (.qpLd key w) s = .next ((useRead p.slot n (p.regs.sr (wB (wordOf 0xD0 w))).toNat 8 s).setProg key (p.onward (p.regs.setS (wD (wordOf 0xD0 w)) (BitVec.ofNat 64 (readLE n.obj.data (p.regs.sr (wB (wordOf 0xD0 w))).toNat 8)))))) ∧
  (∀ (key : Nat) (w : BitVec 56) (s : State) (p : QProg), QIssuing s key 0xD0 w p → QGuarded p 0xD0 w → Enc.ok ⟨.r32, .r16, .r32, .no, plainR⟩ (wordOf 0xD0 w) = true → (p.regs.sr (wB (wordOf 0xD0 w))).toNat % 8 ≠ 0 → exec (.qpLd key w) s = .next (qFault key s)) ∧
  (∀ (key : Nat) (n : Named) (w : BitVec 56) (s : State) (p : QProg), QIssuing s key 0xD1 w p → QGuarded p 0xD1 w → Enc.ok ⟨.no, .r32, .r16, .r32, plainR⟩ (wordOf 0xD1 w) = true → (p.regs.sr (wC (wordOf 0xD1 w))).toNat % 8 = 0 → (checkHandle s p.slot (p.regs.hr (wB (wordOf 0xD1 w))) true (p.regs.sr (wC (wordOf 0xD1 w))).toNat 8 (wB (wordOf 0xD1 w)) p.pc).toOption = some n → leaseBlock n.obj (pagesOf n.obj (p.regs.sr (wC (wordOf 0xD1 w))).toNat 8) = none → (pagesOf n.obj (p.regs.sr (wC (wordOf 0xD1 w))).toNat 8).find? (fun i => (n.obj.page i).poison && !covers n.obj (p.regs.sr (wC (wordOf 0xD1 w))).toNat 8 i) = none → mustPromote n.obj (p.regs.sr (wC (wordOf 0xD1 w))).toNat 8 true = [] → exec (.qpSt key w) s = .next (qNext key (storeBytes n.slot n.idx (p.regs.sr (wC (wordOf 0xD1 w))).toNat (leBytes (p.regs.sr (wA (wordOf 0xD1 w))).toNat 8) s))) ∧
  (∀ (key : Nat) (w : BitVec 56) (s : State) (p : QProg), QIssuing s key 0xD1 w p → QGuarded p 0xD1 w → Enc.ok ⟨.no, .r32, .r16, .r32, plainR⟩ (wordOf 0xD1 w) = true → (p.regs.sr (wC (wordOf 0xD1 w))).toNat % 8 ≠ 0 → exec (.qpSt key w) s = .next (qFault key s)) ∧
  (∀ (key : Nat) (t : Token) (st : Word) (w : BitVec 56) (s : State) (p : QProg), QIssuing s key 0xD9 w p → QGuarded p 0xD9 w → Enc.ok ⟨.r32, .r32, .no, .no, plainR⟩ (wordOf 0xD9 w) = true → tokenOk p.cmdNext 64 (p.regs.sr (wA (wordOf 0xD9 w))).toNat = true → findTok p.cmds (p.regs.sr (wA (wordOf 0xD9 w))).toNat = some t → t.status = some st → QFollows p (p.pc + 1) → exec (.qpCwait key w) s = .next (s.setProg key (p.onward (p.regs.setS (wD (wordOf 0xD9 w)) (st.zeroExtend 64))))) ∧
  (∀ (key : Nat) (t : Token) (w : BitVec 56) (s : State) (p : QProg), QIssuing s key 0xD9 w p → QGuarded p 0xD9 w → Enc.ok ⟨.r32, .r32, .no, .no, plainR⟩ (wordOf 0xD9 w) = true → tokenOk p.cmdNext 64 (p.regs.sr (wA (wordOf 0xD9 w))).toNat = true → findTok p.cmds (p.regs.sr (wA (wordOf 0xD9 w))).toNat = some t → t.status = none → exec (.qpCwait key w) s = .next (s)) ∧
  (∀ (key : Nat) (w : BitVec 56) (s : State) (p : QProg), QIssuing s key 0xD9 w p → QGuarded p 0xD9 w → Enc.ok ⟨.r32, .r32, .no, .no, plainR⟩ (wordOf 0xD9 w) = true → tokenOk p.cmdNext 64 (p.regs.sr (wA (wordOf 0xD9 w))).toNat = false → exec (.qpCwait key w) s = .next (qFault key s)) ∧
  (∀ (key : Nat) (t : Token) (st : Word) (w : BitVec 56) (s : State) (p : QProg), QIssuing s key 0xDA w p → QGuarded p 0xDA w → Enc.ok ⟨.r32, .r32, .no, .no, plainR⟩ (wordOf 0xDA w) = true → tokenOk p.cmdNext 64 (p.regs.sr (wA (wordOf 0xDA w))).toNat = true → findTok p.cmds (p.regs.sr (wA (wordOf 0xDA w))).toNat = some t → t.status = some st → QFollows p (p.pc + 1) → exec (.qpCres key w) s = .next (s.setProg key (p.onward (p.regs.setS (wD (wordOf 0xDA w)) (BitVec.ofNat 64 t.result))))) ∧
  (∀ (key : Nat) (t : Token) (w : BitVec 56) (s : State) (p : QProg), QIssuing s key 0xDA w p → QGuarded p 0xDA w → Enc.ok ⟨.r32, .r32, .no, .no, plainR⟩ (wordOf 0xDA w) = true → tokenOk p.cmdNext 64 (p.regs.sr (wA (wordOf 0xDA w))).toNat = true → findTok p.cmds (p.regs.sr (wA (wordOf 0xDA w))).toNat = some t → t.status = none → exec (.qpCres key w) s = .next (s)) ∧
  (∀ (key : Nat) (w : BitVec 56) (s : State) (p : QProg), QIssuing s key 0xDA w p → QGuarded p 0xDA w → Enc.ok ⟨.r32, .r32, .no, .no, plainR⟩ (wordOf 0xDA w) = true → tokenOk p.cmdNext 64 (p.regs.sr (wA (wordOf 0xDA w))).toNat = false → exec (.qpCres key w) s = .next (qFault key s)) ∧
  (∀ (key : Nat) (t : Token) (st : Word) (w : BitVec 56) (s : State) (p : QProg), QIssuing s key 0xE2 w p → QGuarded p 0xE2 w → Enc.ok ⟨.r32, .r32, .no, .no, plainR⟩ (wordOf 0xE2 w) = true → tokenOk p.launchNext 16 (p.regs.sr (wA (wordOf 0xE2 w))).toNat = true → findTok p.launches (p.regs.sr (wA (wordOf 0xE2 w))).toNat = some t → t.status = some st → QFollows p (p.pc + 1) → exec (.qpLwait key w) s = .next (s.setProg key (p.onward (p.regs.setS (wD (wordOf 0xE2 w)) (st.zeroExtend 64))))) ∧
  (∀ (key : Nat) (t : Token) (w : BitVec 56) (s : State) (p : QProg), QIssuing s key 0xE2 w p → QGuarded p 0xE2 w → Enc.ok ⟨.r32, .r32, .no, .no, plainR⟩ (wordOf 0xE2 w) = true → tokenOk p.launchNext 16 (p.regs.sr (wA (wordOf 0xE2 w))).toNat = true → findTok p.launches (p.regs.sr (wA (wordOf 0xE2 w))).toNat = some t → t.status = none → exec (.qpLwait key w) s = .next (s)) ∧
  (∀ (key : Nat) (w : BitVec 56) (s : State) (p : QProg), QIssuing s key 0xE2 w p → QGuarded p 0xE2 w → Enc.ok ⟨.r32, .r32, .no, .no, plainR⟩ (wordOf 0xE2 w) = true → tokenOk p.launchNext 16 (p.regs.sr (wA (wordOf 0xE2 w))).toNat = false → exec (.qpLwait key w) s = .next (qFault key s)) ∧
  (∀ (key : Nat) (t : Token) (w : BitVec 56) (s : State) (p : QProg), QIssuing s key 0xE3 w p → QGuarded p 0xE3 w → Enc.ok ⟨.no, .r32, .r16, .r32, plainR⟩ (wordOf 0xE3 w) = true → (p.regs.sr (wC (wordOf 0xE3 w))).toNat % 32 = 0 → tokenOk p.launchNext 16 (p.regs.sr (wA (wordOf 0xE3 w))).toNat = true → findTok p.launches (p.regs.sr (wA (wordOf 0xE3 w))).toNat = some t → t.status ≠ none → exec (.qpLrep key w) s = .next (qWrite key (p.regs.hr (wB (wordOf 0xE3 w))) (wB (wordOf 0xE3 w)) (p.regs.sr (wC (wordOf 0xE3 w))).toNat (t.report.flatMap (fun x => leBytes x.toNat 4)) s)) ∧
  (∀ (key : Nat) (w : BitVec 56) (s : State) (p : QProg), QIssuing s key 0xE3 w p → QGuarded p 0xE3 w → Enc.ok ⟨.no, .r32, .r16, .r32, plainR⟩ (wordOf 0xE3 w) = true → (p.regs.sr (wC (wordOf 0xE3 w))).toNat % 32 ≠ 0 → exec (.qpLrep key w) s = .next (qFault key s))

/-- In every state in which a running program issues the instruction with its guard true and its fields in range. SIGNAL adds the sign-extended sb to a semaphore of a queue of the tenant and goes on. SWAIT goes on when the semaphore has reached sa and waits otherwise. FENCE goes on with nothing open and waits otherwise. PARK sleeps with its WAKE bits, until TB + sa where bit 3 is set, and faults with no WAKE bit or with bit 3 and sa 0. A sleeping program with a cause met, or whose time has come, takes the causes in sd and goes on; otherwise nothing changes. TIME writes the timebase to sd. KVRES writes the first group of a step to sd. POST posts a completion of KIND 4 with sa as RESULT and goes on when a held-store slot is free, and waits otherwise, counted once. -/
def Obligations.QueueProgramWaitsAndPosts : Prop :=
  (∀ (key : Nat) (w : BitVec 56) (s : State) (p : QProg), QIssuing s key 0xE8 w p → QGuarded p 0xE8 w → Enc.ok ⟨.no, .r32, .r32, .no, .r 0 [] false false 3⟩ (wordOf 0xE8 w) = true → p.step = none → (s.ten p.slot).any (fun t => (mget t.queues (p.regs.sr (wA (wordOf 0xE8 w))).toNat).isSome) = true → exec (.qpSignal key w) s = .next (qNext key (queueSignal p.slot (p.regs.sr (wA (wordOf 0xE8 w))).toNat (wMod (wordOf 0xE8 w)) ((p.regs.sr (wB (wordOf 0xE8 w))).truncate 32) s))) ∧
  (∀ (slot q n : Nat) (d : Word) (s : State) (t : Tenant), s.ten slot = some t → n < 8 → mgetD ((queueSignal slot q n d s).que slot q).sems 0 n = mgetD (s.que slot q).sems 0 n + d.signExtend 64 ∧ ∀ m, m ≠ n → mgetD ((queueSignal slot q n d s).que slot q).sems 0 m = mgetD (s.que slot q).sems 0 m) ∧
  (∀ (key : Nat) (w : BitVec 56) (s : State) (p : QProg), QIssuing s key 0xE9 w p → QGuarded p 0xE9 w → Enc.ok ⟨.no, .r32, .no, .no, .r 0 [] false false 3⟩ (wordOf 0xE9 w) = true → p.step = none → (p.regs.sr (wA (wordOf 0xE9 w))).toNat ≤ (mgetD (s.que p.slot p.queue).sems 0 (wMod (wordOf 0xE9 w))).toNat → QFollows p (p.pc + 1) → exec (.qpSwait key w) s = .next (s.setProg key (p.onward (p.regs)))) ∧
  (∀ (key : Nat) (w : BitVec 56) (s : State) (p : QProg), QIssuing s key 0xE9 w p → QGuarded p 0xE9 w → Enc.ok ⟨.no, .r32, .no, .no, .r 0 [] false false 3⟩ (wordOf 0xE9 w) = true → p.step = none → (mgetD (s.que p.slot p.queue).sems 0 (wMod (wordOf 0xE9 w))).toNat < (p.regs.sr (wA (wordOf 0xE9 w))).toNat → exec (.qpSwait key w) s = .next (s)) ∧
  (∀ (key : Nat) (w : BitVec 56) (s : State) (p : QProg), QIssuing s key 0xEA w p → QGuarded p 0xEA w → Enc.ok {} (wordOf 0xEA w) = true → p.idle = true → QFollows p (p.pc + 1) → exec (.qpFence key w) s = .next (s.setProg key (p.onward (p.regs)))) ∧
  (∀ (key : Nat) (w : BitVec 56) (s : State) (p : QProg), QIssuing s key 0xEA w p → QGuarded p 0xEA w → Enc.ok {} (wordOf 0xEA w) = true → p.idle = false → exec (.qpFence key w) s = .next (s)) ∧
  (∀ (key : Nat) (w : BitVec 56) (s : State) (p : QProg), QIssuing s key 0xEB w p → QGuarded p 0xEB w → Enc.ok ⟨.r32, .r32, .no, .no, .r 0 [] false false 4⟩ (wordOf 0xEB w) = true → p.step = none → wMod (wordOf 0xEB w) ≠ 0 → ((wMod (wordOf 0xEB w)).testBit 3 = false ∨ 0 < (p.regs.sr (wA (wordOf 0xEB w))).toNat) → exec (.qpPark key w) s = .next (s.setProg key { p with parked := some ⟨wMod (wordOf 0xEB w), if (wMod (wordOf 0xEB w)).testBit 3 then some (s.tb + (p.regs.sr (wA (wordOf 0xEB w))).toNat) else none, wD (wordOf 0xEB w), 0⟩ })) ∧
  (∀ (key : Nat) (w : BitVec 56) (s : State) (p : QProg), QIssuing s key 0xEB w p → QGuarded p 0xEB w → Enc.ok ⟨.r32, .r32, .no, .no, .r 0 [] false false 4⟩ (wordOf 0xEB w) = true → (wMod (wordOf 0xEB w) = 0 ∨ ((wMod (wordOf 0xEB w)).testBit 3 = true ∧ (p.regs.sr (wA (wordOf 0xEB w))).toNat = 0)) → exec (.qpPark key w) s = .next (qFault key s)) ∧
  (∀ (key m : Nat) (s : State) (p : QProg) (k : Park), s.prog key = some p → p.parked = some k → m = k.met ||| (if k.wakeAt.any (fun t => decide (t ≤ s.tb)) then 8 else 0) → m ≠ 0 → QFollows p (p.pc + 1) → exec (.parkWake key) s = .next (s.setProg key ({ p with parked := none }.onward (p.regs.setS k.dest (BitVec.ofNat 64 m))))) ∧
  (∀ (key : Nat) (s : State) (p : QProg) (k : Park), s.prog key = some p → p.parked = some k → k.met = 0 → ((∀ t, k.wakeAt = some t → s.tb < t)) → exec (.parkWake key) s = .next s) ∧
  (∀ (key : Nat) (w : BitVec 56) (s : State) (p : QProg), QIssuing s key 0xEC w p → QGuarded p 0xEC w → Enc.ok ⟨.r32, .no, .no, .no, plainR⟩ (wordOf 0xEC w) = true → QFollows p (p.pc + 1) → exec (.qpTime key w) s = .next (s.setProg key (p.onward (p.regs.setS (wD (wordOf 0xEC w)) (BitVec.ofNat 64 s.tb))))) ∧
  (∀ (key : Nat) (id : Nat) (t : Step) (w : BitVec 56) (s : State) (p : QProg), QIssuing s key 0xF0 w p → QGuarded p 0xF0 w → Enc.ok ⟨.r32, .no, .no, .no, plainR⟩ (wordOf 0xF0 w) = true → p.step = some id → s.step? id = some t → QFollows p (p.pc + 1) → exec (.qpKvres key w) s = .next (s.setProg key (p.onward (p.regs.setS (wD (wordOf 0xF0 w)) (BitVec.ofNat 64 t.first))))) ∧
  (∀ (key : Nat) (w : BitVec 56) (s : State) (p : QProg), QIssuing s key 0xF1 w p → QGuarded p 0xF1 w → Enc.ok ⟨.no, .r32, .r32, .no, .r 0 [] false false 16⟩ (wordOf 0xF1 w) = true → p.step = none → 0 < s.heldFree p.slot → exec (.qpPost key w) s = .next (qNext key (produce p.slot p.queue false { status := 0, cmdId := wMod (wordOf 0xF1 w), kind := 4, aux := (p.regs.sr (wB (wordOf 0xF1 w))).toNat % 2 ^ 32, result := (p.regs.sr (wA (wordOf 0xF1 w))).toNat } s))) ∧
  (∀ (key : Nat) (w : BitVec 56) (s : State) (p : QProg), QIssuing s key 0xF1 w p → QGuarded p 0xF1 w → Enc.ok ⟨.no, .r32, .r32, .no, .r 0 [] false false 16⟩ (wordOf 0xF1 w) = true → p.step = none → s.heldFree p.slot = 0 → p.slotWait = false → exec (.qpPost key w) s = .next ((s.setProg key { p with slotWait := true }).twBump p.slot Reg.TW_Q_HELD_WAIT))

/-- In every state in which a running program issues the instruction with its guard true and its reserved fields zero. CMD with fewer than 64 commands open, an aligned readable record whose FENCE is met and a held-store slot free: the record is read, a flight takes the slot, sd takes the next token, the program goes on and the command has the effect of its opcode. LAUNCH with fewer than 16 launches open, an aligned readable record with its fields in range, no span, slots free for its completion and report, its tenant not exhausted and enough clusters in service issues the launch of the record the same way. LAUNCHS in a step issues the launch of a group of its model with the registers as arguments. With the tokens all open CMD and LAUNCH leave everything as it is. -/
def Obligations.QueueProgramLaunches : Prop :=
  (∀ (key : Nat) (n : Named) (w : BitVec 56) (s : State) (p : QProg), QIssuing s key 0xD8 w p → QGuarded p 0xD8 w → Enc.ok ⟨.r32, .r16, .r32, .no, plainR⟩ (wordOf 0xD8 w) = true → p.step = none → (p.regs.sr (wB (wordOf 0xD8 w))).toNat % 64 = 0 → openToks p.cmds < 64 → (checkHandle s p.slot (p.regs.hr (wA (wordOf 0xD8 w))) false (p.regs.sr (wB (wordOf 0xD8 w))).toNat 64 (wA (wordOf 0xD8 w)) p.pc).toOption = some n → (pagesOf n.obj (p.regs.sr (wB (wordOf 0xD8 w))).toNat 64).find? (fun i => (n.obj.page i).poison) = none → mustPromote n.obj (p.regs.sr (wB (wordOf 0xD8 w))).toNat 64 false = [] → fenceMet p.slot p.queue (recordAt n.obj.data (p.regs.sr (wB (wordOf 0xD8 w))).toNat) (some p.flight) s = true → 0 < s.heldFree p.slot → badHeader (recordAt n.obj.data (p.regs.sr (wB (wordOf 0xD8 w))).toNat) = false → ∃ f, f = newFlight (readLE n.obj.data (p.regs.sr (wB (wordOf 0xD8 w))).toNat 1) p.slot p.queue (.prog (p.cmdNext % 65536)) (recordAt n.obj.data (p.regs.sr (wB (wordOf 0xD8 w))).toNat) ((useRead p.slot n (p.regs.sr (wB (wordOf 0xD8 w))).toNat 64 s).setProg key { p with cmds := addTok p.cmds (p.cmdNext % 65536) 64, cmdNext := p.cmdNext + 1, regs := p.regs.setS (wD (wordOf 0xD8 w)) (BitVec.ofNat 64 (p.cmdNext % 65536)) }) ∧ exec (.qpCmd key w) s = .next (cmdBody (readLE n.obj.data (p.regs.sr (wB (wordOf 0xD8 w))).toNat 1) f.1 (recordAt n.obj.data (p.regs.sr (wB (wordOf 0xD8 w))).toNat) (qNext key f.2))) ∧
  (∀ (key : Nat) (w : BitVec 56) (s : State) (p : QProg), QIssuing s key 0xD8 w p → QGuarded p 0xD8 w → Enc.ok ⟨.r32, .r16, .r32, .no, plainR⟩ (wordOf 0xD8 w) = true → p.step = none → (p.regs.sr (wB (wordOf 0xD8 w))).toNat % 64 = 0 → 64 ≤ openToks p.cmds → exec (.qpCmd key w) s = .next (s)) ∧
  (∀ (key : Nat) (n : Named) (w : BitVec 56) (s : State) (p : QProg), QIssuing s key 0xE0 w p → QGuarded p 0xE0 w → Enc.ok ⟨.r32, .r16, .r32, .no, plainR⟩ (wordOf 0xE0 w) = true → p.step = none → (p.regs.sr (wB (wordOf 0xE0 w))).toNat % 64 = 0 → openToks p.launches < 16 → (checkHandle s p.slot (p.regs.hr (wA (wordOf 0xE0 w))) false (p.regs.sr (wB (wordOf 0xE0 w))).toNat 192 (wA (wordOf 0xE0 w)) p.pc).toOption = some n → (pagesOf n.obj (p.regs.sr (wB (wordOf 0xE0 w))).toNat 192).find? (fun i => (n.obj.page i).poison) = none → mustPromote n.obj (p.regs.sr (wB (wordOf 0xE0 w))).toNat 192 false = [] → recordOk n.obj.data (p.regs.sr (wB (wordOf 0xE0 w))).toNat = true → readLE n.obj.data ((p.regs.sr (wB (wordOf 0xE0 w))).toNat + 0xA0) 8 = 0 → (if (recordLaunch key p s n.obj.data (p.regs.sr (wB (wordOf 0xE0 w))).toNat).report then 2 else 1) ≤ s.heldFree p.slot → exhausted s p.slot = none → (recordLaunch key p s n.obj.data (p.regs.sr (wB (wordOf 0xE0 w))).toNat).group ≤ clustersUp s → QFollows p (p.pc + 1) → exec (.qpLaunch key w) s = .next (issueLaunch (recordLaunch key p s n.obj.data (p.regs.sr (wB (wordOf 0xE0 w))).toNat) ((reserve p.slot (if (recordLaunch key p s n.obj.data (p.regs.sr (wB (wordOf 0xE0 w))).toNat).report then 2 else 1) (useRead p.slot n (p.regs.sr (wB (wordOf 0xE0 w))).toNat 192 s)).setProg key ({ p with launches := addTok p.launches (p.launchNext % 65536) 16, launchNext := p.launchNext + 1 }.onward (p.regs.setS (wD (wordOf 0xE0 w)) (BitVec.ofNat 64 (p.launchNext % 65536))))))) ∧
  (∀ (key : Nat) (w : BitVec 56) (s : State) (p : QProg), QIssuing s key 0xE0 w p → QGuarded p 0xE0 w → Enc.ok ⟨.r32, .r16, .r32, .no, plainR⟩ (wordOf 0xE0 w) = true → p.step = none → (p.regs.sr (wB (wordOf 0xE0 w))).toNat % 64 = 0 → 16 ≤ openToks p.launches → exec (.qpLaunch key w) s = .next (s)) ∧
  (∀ (l : Launch) (n : Named) (code : List DWord) (s : State), (checkHandle s l.slot l.handle false 0 0 0xFFFF 0xFFFF).toOption = some n → codeOf n.obj = some code → issueLaunch l s = { s with nextLaunch := s.nextLaunch + 1 }.setLch s.nextLaunch { l with code := code, spanId := s.nextLaunch }) ∧
  (∀ (key : Nat) (id : Nat) (t : Step) (m : Model) (w : BitVec 56) (s : State) (p : QProg), QIssuing s key 0xE1 w p → QGuarded p 0xE1 w → Enc.ok ⟨.r32, .r32, .no, .no, .r 0 [] false false 6⟩ (wordOf 0xE1 w) = true → wMod (wordOf 0xE1 w) ≤ 32 → p.step = some id → s.step? id = some t → s.model t.model = some m → t.first ≤ (p.regs.sr (wA (wordOf 0xE1 w))).toNat → (p.regs.sr (wA (wordOf 0xE1 w))).toNat < m.groups.length → stepLaunch s id = none → QFollows p (p.pc + 1) → ∃ u v, u = s.setProg key ({ p with launches := addTok p.launches (p.launchNext % 65536) 16, launchNext := p.launchNext + 1 }.onward (p.regs.setS (wD (wordOf 0xE1 w)) (BitVec.ofNat 64 (p.launchNext % 65536)))) ∧ v = ((stepPages u id t (p.regs.sr (wA (wordOf 0xE1 w))).toNat).drop (wMod (wordOf 0xE1 w))).foldl (fun s x => updKv id x.ctx x.block (p.regs.sr (wA (wordOf 0xE1 w))).toNat (fun k => { k with delivered := false }) s) u ∧ exec (.qpLaunchs key w) s = .next (issueLaunch {
        slot := m.slot, prog := key, token := p.launchNext % 65536, report := false, step := some (id, (p.regs.sr (wA (wordOf 0xE1 w))).toNat),
        handle := ((m.groups[(p.regs.sr (wA (wordOf 0xE1 w))).toNat]?).map (fun d => d.prog)).getD 0,
        handles := (List.range 8).map p.regs.hr, args := (List.range 8).map (fun i => p.regs.sr (i + 1)), seed := 0,
        group := t.clusters.length, slots := wMod (wordOf 0xE1 w), waitLimit := 10000, timeLimit := 1000, issuedAt := v.tb, pages := stepPages u id t (p.regs.sr (wA (wordOf 0xE1 w))).toNat } (v.updStep id (fun t => { t with groupAt := v.tb }))))

/-- For a GO through a function whose access reaches the device, whose mailbox is not busy, with firmware up and the sled in RUN. ADMIT and MODIFY are evaluated after ADM_CAP withholds the lending pool. An ADMIT that passes its stages, names no span, finds an ID, no shortage, no deferred request of its priority or higher and a slot enters the tenant there, parked at once where the lease of the function has expired, and replies DONE with the token; one that a stage refuses changes otherwise only the mailbox and counters. A MODIFY that raises nothing, of a tenant attached through the function with fields in range, takes effect. An ATTACH with the right token of a tenant that is neither ACTIVE nor RELEASING attaches it. A DETACH parks, and a RELEASE releases, the tenant that the request finds when it is not RELEASING. QUERY answers an open deferral of the function with its position of now; WITHDRAW removes it and replies ABORTED_BY_TENANT; either replies REFUSED_POLICY with no open deferral. -/
def Obligations.AdmissionRequestsAnswered : Prop :=
  (∀ (win : Option Nat) (f : Nat) (req : AdmReq) (s : State) (v : State) (id slot : Nat), f < 32 → reaches s f win = true → (s.fn f).mbBusy = false → s.fwDown = false → inRun s = true → v = withholdLent s → fnBusy v f = false → admitStages v f req = none → spans v (⟨1, f, win, req⟩ : MbReq) = false → freeId v = some id → shorts4 v 0 req.evc (wanted req.cls (reqVec req)) = [] → v.adm.deferred.any (fun e => decide (req.prio ≤ e.mb.req.prio)) = false → slotFor v f = some slot → exec (.gateAdmit win f req) s = .next (reply (⟨1, f, win, req⟩ : MbReq) ⟨0, 0, 0⟩ (aboutTen (settle f slot (enter f slot id req v)) slot { token := tokenOf (settle f slot (enter f slot id req v)) slot }) (some slot) (settle f slot (enter f slot id req v)))) ∧
  (∀ (win : Option Nat) (f : Nat) (req : AdmReq) (s : State) (v : State) (t : Status) (x : Nat), f < 32 → reaches s f win = true → (s.fn f).mbBusy = false → s.fwDown = false → inRun s = true → v = withholdLent s → fnBusy v f = false → admitStages v f req = some (t, x) → exec (.gateAdmit win f req) s = .next (reply (⟨1, f, win, req⟩ : MbReq) t { amount := x } none v)) ∧
  (∀ (win : Option Nat) (f : Nat) (req : AdmReq) (s : State) (v : State) (slot : Nat) (t : Tenant), f < 32 → reaches s f win = true → (s.fn f).mbBusy = false → s.fwDown = false → inRun s = true → v = withholdLent s → targetOf (⟨2, f, win, req⟩ : MbReq) v = some slot → v.ten slot = some t → t.fn = some f → badField v t.cls (reqVec req) = none → raises t.vec (reqVec req) = false → exec (.modify win f req) s = .next (reply (⟨2, f, win, req⟩ : MbReq) ⟨0, 0, 0⟩ (aboutTen (modifyTenant slot (reqVec req) v) slot {}) (some slot) (modifyTenant slot (reqVec req) v))) ∧
  (∀ (win : Option Nat) (f : Nat) (req : AdmReq) (s : State) (slot : Nat) (t : Tenant), f < 32 → reaches s f win = true → (s.fn f).mbBusy = false → s.fwDown = false → inRun s = true → fnBusy s f = false → (mgetD s.adm.attachFails {} req.tenantId).lockUntil = none → s.slotOf req.tenantId = some slot → s.ten slot = some t → (t.st = .parked ∨ t.st = .dormant) → req.token ≠ 0 → t.token = req.token → (f ≠ 0 ∨ slot < s.bar2) → req.rotate = false → exec (.attach win f req) s = .next (reply (⟨3, f, win, req⟩ : MbReq) ⟨0, 0, 0⟩ (aboutTen (settle f slot (attachTenant slot f (s.updTen slot (fun t => { t with token := req.token })))) slot { rotated := false, token := 0, held := sumOf t.held (fun h => h.entry.slots) }) (some slot) (settle f slot (attachTenant slot f (s.updTen slot (fun t => { t with token := req.token })))))) ∧
  (∀ (win : Option Nat) (f : Nat) (req : AdmReq) (s : State) (slot : Nat) (t : Tenant), f < 32 → reaches s f win = true → (s.fn f).mbBusy = false → s.fwDown = false → inRun s = true → targetOf (⟨4, f, win, req⟩ : MbReq) s = some slot → s.ten slot = some t → t.st ≠ .releasing → exec (.detach win f req) s = .next (reply (⟨4, f, win, req⟩ : MbReq) ⟨0, 0, 0⟩ (aboutTen (parkTenant slot s) slot {}) (some slot) (parkTenant slot s))) ∧
  (∀ (win : Option Nat) (f : Nat) (req : AdmReq) (s : State) (slot : Nat) (t : Tenant), f < 32 → reaches s f win = true → (s.fn f).mbBusy = false → s.fwDown = false → inRun s = true → targetOf (⟨5, f, win, req⟩ : MbReq) s = some slot → s.ten slot = some t → t.st ≠ .releasing → exec (.release win f req) s = .next (reply (⟨5, f, win, req⟩ : MbReq) ⟨0, 0, 0⟩ (aboutTen (reevaluateAll (releaseTenant slot s)) slot {}) none (reevaluateAll (releaseTenant slot s)))) ∧
  (∀ (win : Option Nat) (f : Nat) (req : AdmReq) (s : State) (d : Deferred), f < 32 → reaches s f win = true → (s.fn f).mbBusy = false → s.fwDown = false → inRun s = true → ownedTicket (⟨6, f, win, req⟩ : MbReq) s = some d → exec (.query win f req) s = .next (reply (⟨6, f, win, req⟩ : MbReq) (deferReply s d).1 (deferReply s d).2 none s)) ∧
  (∀ (win : Option Nat) (f : Nat) (req : AdmReq) (s : State), f < 32 → reaches s f win = true → (s.fn f).mbBusy = false → s.fwDown = false → inRun s = true → ownedTicket (⟨6, f, win, req⟩ : MbReq) s = none → exec (.query win f req) s = .next (reply (⟨6, f, win, req⟩ : MbReq) ⟨0x22, 0, 0xFFFF⟩ {} none s)) ∧
  (∀ (win : Option Nat) (f : Nat) (req : AdmReq) (s : State) (d : Deferred), f < 32 → reaches s f win = true → (s.fn f).mbBusy = false → s.fwDown = false → inRun s = true → ownedTicket (⟨7, f, win, req⟩ : MbReq) s = some d → exec (.withdraw win f req) s = .next (reply (⟨7, f, win, req⟩ : MbReq) ⟨0x34, 0, 0⟩ { ticket := d.ticket } none (reevaluateAll { s with adm := { s.adm with deferred := s.adm.deferred.filter (fun e => e.ticket != d.ticket) } }))) ∧
  (∀ (win : Option Nat) (f : Nat) (req : AdmReq) (s : State), f < 32 → reaches s f win = true → (s.fn f).mbBusy = false → s.fwDown = false → inRun s = true → ownedTicket (⟨7, f, win, req⟩ : MbReq) s = none → exec (.withdraw win f req) s = .next (reply (⟨7, f, win, req⟩ : MbReq) ⟨0x22, 0, 0xFFFF⟩ {} none s))

/-- For each of the seven mailbox operations: a GO through a function whose access does not reach the device does nothing; while BUSY it sets IGNORED of that function and does nothing else; while firmware is down or the sled is outside RUN it sets BUSY and the request waits. A reply leaves the mailbox of the function not busy, with the status word, operation and sequence number of the request and the fields of the answer. A write of TW_NTC_CONS no further than the producer sets it, and one past the producer does nothing. A deferral that has waited its MAX_WAIT_MS is removed and answered as refused with the shortfall of now, and the queue is evaluated again; one that has not, or has none, is left. The end of an attach lockout clears it, and not before its time. The end of grace of a PARKED tenant whose grace has run out ends its grace, and does nothing to another. The end of zeroisation of an object gives its capacity back and evaluates the deferral queue; of a job that there is not, it does nothing. -/
def Obligations.MailboxNoticesAndTimers : Prop :=
  (∀ (p : (Option Nat → Nat → AdmReq → Instr) × Nat) (win : Option Nat) (f : Nat) (req : AdmReq) (s : State), (p ∈ ([(.gateAdmit, 1), (.modify, 2), (.attach, 3), (.detach, 4), (.release, 5), (.query, 6), (.withdraw, 7)] : List ((Option Nat → Nat → AdmReq → Instr) × Nat))) → f < 32 → reaches s f win = false → exec (p.1 win f req) s = .next s) ∧
  (∀ (p : (Option Nat → Nat → AdmReq → Instr) × Nat) (win : Option Nat) (f : Nat) (req : AdmReq) (s : State), (p ∈ ([(.gateAdmit, 1), (.modify, 2), (.attach, 3), (.detach, 4), (.release, 5), (.query, 6), (.withdraw, 7)] : List ((Option Nat → Nat → AdmReq → Instr) × Nat))) → f < 32 → reaches s f win = true → (s.fn f).mbBusy = true → exec (p.1 win f req) s = .next (s.updFn f (fun n => { n with mbIgnored := true }))) ∧
  (∀ (p : (Option Nat → Nat → AdmReq → Instr) × Nat) (win : Option Nat) (f : Nat) (req : AdmReq) (s : State), (p ∈ ([(.gateAdmit, 1), (.modify, 2), (.attach, 3), (.detach, 4), (.release, 5), (.query, 6), (.withdraw, 7)] : List ((Option Nat → Nat → AdmReq → Instr) × Nat))) → f < 32 → reaches s f win = true → (s.fn f).mbBusy = false → (s.fwDown = true ∨ s.rdN Reg.PWR_STATE ≠ 3) → exec (p.1 win f req) s = .next { s.updFn f (fun n => { n with mbBusy := true, mbReplied := false }) with adm := { s.adm with waiting := s.adm.waiting ++ [⟨p.2, f, win, req⟩] } }) ∧
  (∀ (mb : MbReq) (st : Status) (r : Reply) (slot : Option Nat) (s : State), ((reply mb st r slot s).fn mb.fn).mbBusy = false ∧ ((reply mb st r slot s).fn mb.fn).mbReplied = true ∧ ((reply mb st r slot s).fn mb.fn).reply = some { r with status := st.word, op := mb.op, seq := mb.req.seq }) ∧
  (∀ (win : Option Nat) (f : Nat) (value : Word) (s : State), f < 32 → reaches s f win = true → (value.toNat + 2 ^ 32 - (s.fn f).ntcCons) % 2 ^ 32 ≤ ((s.fn f).ntcProd + 2 ^ 32 - (s.fn f).ntcCons) % 2 ^ 32 → exec (.twNtcConsWrite win f value) s = .next (s.updFn f (fun n => { n with ntcCons := value.toNat }))) ∧
  (∀ (win : Option Nat) (f : Nat) (value : Word) (s : State), f < 32 → (reaches s f win = false ∨ ((s.fn f).ntcProd + 2 ^ 32 - (s.fn f).ntcCons) % 2 ^ 32 < (value.toNat + 2 ^ 32 - (s.fn f).ntcCons) % 2 ^ 32) → exec (.twNtcConsWrite win f value) s = .next s) ∧
  (∀ (ticket : Nat) (s : State) (d : Deferred), waitedOut ticket s = some d → ∃ n x, exec (.deferMaxWaitExpire ticket) s = .next (reevaluateAll (deferRefused d ⟨shortCode n, n, x⟩ x { s with adm := { s.adm with deferred := s.adm.deferred.filter (fun e => e.ticket != ticket) } })) ∧ (entryShort s d.mb.req = some (n, x) ∨ entryShort s d.mb.req = none)) ∧
  (∀ (ticket : Nat) (s : State), (∀ d ∈ s.adm.deferred, d.ticket = ticket → d.mb.req.maxWaitMs = 0 ∨ s.tb < d.arrived + 1000 * d.mb.req.maxWaitMs) → exec (.deferMaxWaitExpire ticket) s = .next s) ∧
  (∀ (id t : Nat) (s : State) (a : AttachFail), mget s.adm.attachFails id = some a → a.lockUntil = some t → t ≤ s.tb → exec (.attachLockoutExpire id) s = .next { s with adm := { s.adm with attachFails := mput s.adm.attachFails id { a with lockUntil := none } } }) ∧
  (∀ (id t : Nat) (s : State), (mgetD s.adm.attachFails {} id).lockUntil = some t → s.tb < t → exec (.attachLockoutExpire id) s = .next s) ∧
  (∀ (slot g : Nat) (s : State) (t : Tenant), slot < 1024 → s.ten slot = some t → t.st = .parked → t.graceAt = some g → g ≤ s.tb → exec (.graceExpire slot) s = .next (endGrace slot s)) ∧
  (∀ (slot : Nat) (s : State) (t : Tenant), slot < 1024 → s.ten slot = some t → (t.st ≠ .parked ∨ ∀ g, t.graceAt = some g → s.tb < g) → exec (.graceExpire slot) s = .next s) ∧
  (∀ (job slot idx : Nat) (s : State) (z : ZeroJob), s.adm.zero.find? (fun y => y.id == job) = some z → z.obj = some (slot, idx) → z.orphan = none → z.slot = none → entryOf s slot idx = none → exec (.zeroiseComplete job) s = .next (reevaluateAll ({ s with adm := { s.adm with zero := s.adm.zero.filter (fun y => y.id != job) } }.updTen slot (fun t => { t with objs := mdel t.objs idx })))) ∧
  (∀ (job : Nat) (s : State), s.adm.zero.find? (fun y => y.id == job) = none → exec (.zeroiseComplete job) s = .next s)

/-- For a command that the queue engine can take, with its FENCE met, a held-store slot free and its header in order; the effect is on the fetched state (CR_CONS moved on, the slot reserved) and a configuration waiting for the empty ring follows it. ALLOC with good flags and shape, below the object limits, that finds a place completes with the handle of the new object. FREE frees the object and completes. PLACE starts a move of each named page that is not in the tier, and completes at once when there is none. FLUSH of a DURABLE object with room and write allowance notes the image to be written. REG_HOST enters the region under the lowest free number, its RESULT. DEREG_HOST of a region with no page at home there removes it. QUERY_OBJ posts the report to host memory. WRITE reads its data from host memory and promotes what it must; READ promotes what it must and goes on when the pages are ready. -/
def Obligations.TierCommands : Prop :=
  (∀ (slot q : Nat) (r : CmdRec) (s : State) (t : Tenant) (o : Obj), CanStart s slot q r → (fetched 0x01 slot q r s).2.ten (slotOfFlight (fetched 0x01 slot q r s).2 (fetched 0x01 slot q r s).1) = some t → badFlags t.cls (bits r.w20.toNat 0 32) (bits r.w20.toNat 32 8) (bits r.w20.toNat 40 1) = false → badShape r.w18.toNat (bits r.w20.toNat 0 32) (bits r.w20.toNat 32 8) (bits r.w28.toNat 0 32) = false → t.objs.length < 1048575 → sumOf (fetched 0x01 slot q r s).2.adm.tenants (fun t => t.2.objs.length) < 4194304 → (place (slotOfFlight (fetched 0x01 slot q r s).2 (fetched 0x01 slot q r s).1) ({ size := r.w18.toNat, tile := (bits r.w20.toNat 0 32).testBit 15, flags := bits r.w20.toNat 0 32, elem := bits r.w20.toNat 32 8, elemAlt := bits r.w20.toNat 40 1, segPages := if (bits r.w20.toNat 0 32).testBit 4 then bits r.w28.toNat 0 32 else 0, gen := 1, base := { tier := 1, lastUse := (fetched 0x01 slot q r s).2.tb } } : Obj) (fetched 0x01 slot q r s).2).1.toOption = some o → exec (.alloc slot q r) s = .next (commitDue slot q (finish (fetched 0x01 slot q r s).1 ⟨0, 0, 0⟩ (newObj (slotOfFlight (fetched 0x01 slot q r s).2 (fetched 0x01 slot q r s).1) o (place (slotOfFlight (fetched 0x01 slot q r s).2 (fetched 0x01 slot q r s).1) ({ size := r.w18.toNat, tile := (bits r.w20.toNat 0 32).testBit 15, flags := bits r.w20.toNat 0 32, elem := bits r.w20.toNat 32 8, elemAlt := bits r.w20.toNat 40 1, segPages := if (bits r.w20.toNat 0 32).testBit 4 then bits r.w28.toNat 0 32 else 0, gen := 1, base := { tier := 1, lastUse := (fetched 0x01 slot q r s).2.tb } } : Obj) (fetched 0x01 slot q r s).2).2).2.1.toNat (newObj (slotOfFlight (fetched 0x01 slot q r s).2 (fetched 0x01 slot q r s).1) o (place (slotOfFlight (fetched 0x01 slot q r s).2 (fetched 0x01 slot q r s).1) ({ size := r.w18.toNat, tile := (bits r.w20.toNat 0 32).testBit 15, flags := bits r.w20.toNat 0 32, elem := bits r.w20.toNat 32 8, elemAlt := bits r.w20.toNat 40 1, segPages := if (bits r.w20.toNat 0 32).testBit 4 then bits r.w28.toNat 0 32 else 0, gen := 1, base := { tier := 1, lastUse := (fetched 0x01 slot q r s).2.tb } } : Obj) (fetched 0x01 slot q r s).2).2).2.2))) ∧
  (∀ (slot q : Nat) (r : CmdRec) (s : State) (n : Named), CanStart s slot q r → (checkHandle (fetched 0x02 slot q r s).2 (slotOfFlight (fetched 0x02 slot q r s).2 (fetched 0x02 slot q r s).1) r.w08 true 0 0 0xFFFF 0xFFFF).toOption = some n → exec (.free slot q r) s = .next (commitDue slot q (finish (fetched 0x02 slot q r s).1 ⟨0, 0, 0⟩ 0 (freeObj n.slot n.idx (fetched 0x02 slot q r s).2)))) ∧
  (∀ (slot q : Nat) (r : CmdRec) (s : State) (n : Named), CanStart s slot q r → 1 ≤ bits r.w20.toNat 0 3 ∧ bits r.w20.toNat 0 3 ≤ 4 → (checkHandle (fetched 0x03 slot q r s).2 (slotOfFlight (fetched 0x03 slot q r s).2 (fetched 0x03 slot q r s).1) r.w08 true (bits r.w18.toNat 0 32 * pageBytes) (bits r.w18.toNat 32 32 * pageBytes) 0xFFFF 0xFFFF).toOption = some n → (n.obj.flag 3 && bits r.w20.toNat 0 3 != 1 || bits r.w20.toNat 0 3 == 3 && !n.obj.flag 11 || bits r.w20.toNat 0 3 == 4 && !n.obj.flag 12) = false → (placeRange n.obj (bits r.w18.toNat 0 32) (bits r.w18.toNat 32 32)).filter (fun i => (n.obj.page i).tier != bits r.w20.toNat 0 3) = [] → (bits r.w20.toNat 0 3 ≠ 2 ∨ t2Refused (fetched 0x03 slot q r s).2 = false) → placeShort (drawSize n.obj (fetched 0x03 slot q r s).2).2 n.slot (bits r.w20.toNat 0 3) n.obj 0 (drawSize n.obj (fetched 0x03 slot q r s).2).1 = none → exec (.place slot q r) s = .next (commitDue slot q (finish (fetched 0x03 slot q r s).1 ⟨0, 0, 0⟩ 0 (drawSize n.obj (fetched 0x03 slot q r s).2).2))) ∧
  (∀ (slot q : Nat) (r : CmdRec) (s : State) (n : Named), CanStart s slot q r → bits r.w20.toNat 0 3 = 1 → (checkHandle (fetched 0x03 slot q r s).2 (slotOfFlight (fetched 0x03 slot q r s).2 (fetched 0x03 slot q r s).1) r.w08 true (bits r.w18.toNat 0 32 * pageBytes) (bits r.w18.toNat 32 32 * pageBytes) 0xFFFF 0xFFFF).toOption = some n → ((placeRange n.obj (bits r.w18.toNat 0 32) (bits r.w18.toNat 32 32)).filter (fun i => (n.obj.page i).tier != 1)).isEmpty = false → ((placeRange n.obj (bits r.w18.toNat 0 32) (bits r.w18.toNat 32 32)).filter (fun i => (n.obj.page i).tier != 1)).find? (fun i => (n.obj.page i).poison) = none → leaseBlock n.obj ((placeRange n.obj (bits r.w18.toNat 0 32) (bits r.w18.toNat 32 32)).filter (fun i => (n.obj.page i).tier != 1)) = none → placeShort (drawSize n.obj (fetched 0x03 slot q r s).2).2 n.slot 1 n.obj ((placeRange n.obj (bits r.w18.toNat 0 32) (bits r.w18.toNat 32 32)).filter (fun i => (n.obj.page i).tier != 1)).length (drawSize n.obj (fetched 0x03 slot q r s).2).1 = none → exec (.place slot q r) s = .next (commitDue slot q (((placeRange n.obj (bits r.w18.toNat 0 32) (bits r.w18.toNat 32 32)).filter (fun i => (n.obj.page i).tier != 1)).foldl (fun s i => startMove n.slot n.idx i 1 0 (.place (fetched 0x03 slot q r s).1) s) ((dropMoves (fun m => m.slot == n.slot && m.obj == n.idx && ((placeRange n.obj (bits r.w18.toNat 0 32) (bits r.w18.toNat 32 32)).filter (fun i => (n.obj.page i).tier != 1)).contains m.page) (drawSize n.obj (fetched 0x03 slot q r s).2).2).updFlight (fetched 0x03 slot q r s).1 (fun f => { f with left := ((placeRange n.obj (bits r.w18.toNat 0 32) (bits r.w18.toNat 32 32)).filter (fun i => (n.obj.page i).tier != 1)).length }))))) ∧
  (∀ (slot q : Nat) (r : CmdRec) (s : State) (n : Named) (t : Tenant), CanStart s slot q r → (checkHandle (fetched 0x04 slot q r s).2 (slotOfFlight (fetched 0x04 slot q r s).2 (fetched 0x04 slot q r s).1) r.w08 true 0 0 0xFFFF 0xFFFF).toOption = some n → n.obj.flag 10 = true → (fetched 0x04 slot q r s).2.ten n.slot = some t → round4K (flushBytes n.obj (drawSize n.obj (fetched 0x04 slot q r s).2).1) ≤ orangRoom (drawSize n.obj (fetched 0x04 slot q r s).2).2 n.slot t → flushBytes n.obj (drawSize n.obj (fetched 0x04 slot q r s).2).1 ≤ writeRoom (drawSize n.obj (fetched 0x04 slot q r s).2).2 t → t2Refused (drawSize n.obj (fetched 0x04 slot q r s).2).2 = false → exec (.flush slot q r) s = .next (commitDue slot q ((drawSize n.obj (fetched 0x04 slot q r s).2).2.updFlight (fetched 0x04 slot q r s).1 (fun f => { f with args := [n.idx, flushBytes n.obj (drawSize n.obj (fetched 0x04 slot q r s).2).1] })))) ∧
  (∀ (slot q : Nat) (r : CmdRec) (s : State) (t : Tenant), CanStart s slot q r → (fetched 0x05 slot q r s).2.ten (slotOfFlight (fetched 0x05 slot q r s).2 (fetched 0x05 slot q r s).1) = some t → r.w10.toNat % 4096 = 0 → r.w18.toNat % unit2M = 0 → unit2M ≤ r.w18.toNat ∧ r.w18.toNat ≤ 2 ^ 40 → t.regions.length < 64 → exec (.regHost slot q r) s = .next (commitDue slot q (finish (fetched 0x05 slot q r s).1 ⟨0, 0, 0⟩ (lowestFree (t.regions.map (·.1)) 0) ((fetched 0x05 slot q r s).2.updTen (slotOfFlight (fetched 0x05 slot q r s).2 (fetched 0x05 slot q r s).1) (fun u => { u with regions := mput u.regions (lowestFree (t.regions.map (·.1)) 0) ⟨r.w10.toNat, r.w18.toNat, t.fn.getD 0, !((fetched 0x05 slot q r s).2.fn (t.fn.getD 0)).leaseLive, none⟩ }))))) ∧
  (∀ (slot q : Nat) (r : CmdRec) (s : State) (t : Tenant) (x : Region), CanStart s slot q r → (fetched 0x06 slot q r s).2.ten (slotOfFlight (fetched 0x06 slot q r s).2 (fetched 0x06 slot q r s).1) = some t → mget t.regions (bits r.w18.toNat 0 6) = some x → x.revoked = false → regionPages t (bits r.w18.toNat 0 6) = [] → exec (.deregHost slot q r) s = .next (commitDue slot q (finish (fetched 0x06 slot q r s).1 ⟨0, 0, 0⟩ 0 ((fetched 0x06 slot q r s).2.updTen (slotOfFlight (fetched 0x06 slot q r s).2 (fetched 0x06 slot q r s).1) (fun t => { t with regions := mdel t.regions (bits r.w18.toNat 0 6) }))))) ∧
  (∀ (slot q : Nat) (r : CmdRec) (s : State) (n : Named) (f : Nat), CanStart s slot q r → (checkHandle (fetched 0x07 slot q r s).2 (slotOfFlight (fetched 0x07 slot q r s).2 (fetched 0x07 slot q r s).1) r.w08 false 0 0 0xFFFF 0xFFFF).toOption = some n → ((fetched 0x07 slot q r s).2.ten (slotOfFlight (fetched 0x07 slot q r s).2 (fetched 0x07 slot q r s).1)).bind (fun t => t.fn) = some f → exec (.queryObj slot q r) s = .next (commitDue slot q (postData (fetched 0x07 slot q r s).1 f r.w10.toNat (objReport n.obj) (charge (slotOfFlight (fetched 0x07 slot q r s).2 (fetched 0x07 slot q r s).1) 6 64 (fetched 0x07 slot q r s).2)))) ∧
  (∀ (slot q : Nat) (r : CmdRec) (s : State) (n : Named), CanStart s slot q r → r.w18.toNat % 64 = 0 → r.w20.toNat % 64 = 0 → (checkHandle (fetched 0x08 slot q r s).2 (slotOfFlight (fetched 0x08 slot q r s).2 (fetched 0x08 slot q r s).1) r.w08 true r.w18.toNat r.w20.toNat 0xFFFF 0xFFFF).toOption = some n → leaseBlock n.obj (pagesOf n.obj r.w18.toNat r.w20.toNat) = none → t2Refused (fetched 0x08 slot q r s).2 = false → r.w20.toNat ≠ 0 → exec (.write slot q r) s = .next (commitDue slot q (promoteFor (fetched 0x08 slot q r s).1 n.slot n.idx (mustPromote n.obj r.w18.toNat r.w20.toNat true) (hostRead (slotOfFlight ((fetched 0x08 slot q r s).2.updFlight (fetched 0x08 slot q r s).1 (fun f => { f with args := [n.slot, n.idx, r.w18.toNat, r.w20.toNat], left := 1 })) (fetched 0x08 slot q r s).1) r.w10.toNat r.w20.toNat (.write (fetched 0x08 slot q r s).1) ((fetched 0x08 slot q r s).2.updFlight (fetched 0x08 slot q r s).1 (fun f => { f with args := [n.slot, n.idx, r.w18.toNat, r.w20.toNat], left := 1 })))))) ∧
  (∀ (slot q : Nat) (r : CmdRec) (s : State) (n : Named), CanStart s slot q r → r.w18.toNat % 64 = 0 → r.w20.toNat % 64 = 0 → (checkHandle (fetched 0x09 slot q r s).2 (slotOfFlight (fetched 0x09 slot q r s).2 (fetched 0x09 slot q r s).1) r.w08 false r.w18.toNat r.w20.toNat 0xFFFF 0xFFFF).toOption = some n → r.w20.toNat ≠ 0 → exec (.read slot q r) s = .next (commitDue slot q (accessReady (fetched 0x09 slot q r s).1 (promoteFor (fetched 0x09 slot q r s).1 n.slot n.idx (mustPromote n.obj r.w18.toNat r.w20.toNat false) ((fetched 0x09 slot q r s).2.updFlight (fetched 0x09 slot q r s).1 (fun f => { f with args := [n.slot, n.idx, r.w18.toNat, r.w20.toNat, r.w10.toNat] }))))))

/-- For a command that can start, on the fetched state. MODEL_LOAD of a READONLY tile object without poison whose descriptor has no bad field, with clusters and model slots enough, leases the object, enters the model under the lowest free number, its RESULT, and completes. MODEL_UNLOAD of an own model without contexts gives it back. CTX_OPEN on a model the tenant may use, with a queue and room, makes the context under the lowest free number. CTX_CLEAR and CTX_CLOSE of an own context not in a step act at once; of one in a step they wait for its end. TURN within its limits queues the turn, or starts it on an idle context, and begins the fetch of its token IDs from host memory or the object. CANCEL marks the turns it names and drops those that wait, and completes at once when it names none. -/
def Obligations.ContextCommands : Prop :=
  (∀ (slot q : Nat) (r : CmdRec) (s : State) (n : Named), CanStart s slot q r → (checkHandle (fetched 0x10 slot q r s).2 (slotOfFlight (fetched 0x10 slot q r s).2 (fetched 0x10 slot q r s).1) r.w08 false 0 0 0xFFFF 0xFFFF).toOption = some n → n.obj.tile = true → n.obj.flag 8 = true → (n.obj.page 0).poison = false → descriptorBad (fetched 0x10 slot q r s).2 (slotOfFlight (fetched 0x10 slot q r s).2 (fetched 0x10 slot q r s).1) n.obj.data = none → (modelOf (slotOfFlight (fetched 0x10 slot q r s).2 (fetched 0x10 slot q r s).1) r.w08 n.obj.data).clusters ≤ clustersUp (fetched 0x10 slot q r s).2 → ((fetched 0x10 slot q r s).2.sch.models.filter (fun m => m.2.slot == (slotOfFlight (fetched 0x10 slot q r s).2 (fetched 0x10 slot q r s).1))).length < 64 → (fetched 0x10 slot q r s).2.sch.models.length < 1024 → exec (.modelLoad slot q r) s = .next (commitDue slot q (finish (fetched 0x10 slot q r s).1 ⟨0, 0, 0⟩ (lowestFree ((fetched 0x10 slot q r s).2.sch.models.map (·.1)) 0) (let u := takeLease n.slot n.idx 0 false (chargeAccess (slotOfFlight (fetched 0x10 slot q r s).2 (fetched 0x10 slot q r s).1) (n.obj.page 0) n.obj.t1Bytes false (fetched 0x10 slot q r s).2); { u with sch := { u.sch with models := mput u.sch.models (lowestFree ((fetched 0x10 slot q r s).2.sch.models.map (·.1)) 0) (modelOf (slotOfFlight (fetched 0x10 slot q r s).2 (fetched 0x10 slot q r s).1) r.w08 n.obj.data) } })))) ∧
  (∀ (slot q : Nat) (r : CmdRec) (s : State) (m : Model), CanStart s slot q r → (fetched 0x11 slot q r s).2.model (bits r.w18.toNat 0 10) = some m → m.slot = (slotOfFlight (fetched 0x11 slot q r s).2 (fetched 0x11 slot q r s).1) → (fetched 0x11 slot q r s).2.sch.ctxs.any (fun c => c.2.model == bits r.w18.toNat 0 10) = false → handleObj (fetched 0x11 slot q r s).2 m.handle = none → exec (.modelUnload slot q r) s = .next (commitDue slot q (finish (fetched 0x11 slot q r s).1 ⟨0, 0, 0⟩ 0 { (fetched 0x11 slot q r s).2 with sch := { (fetched 0x11 slot q r s).2.sch with models := mdel (fetched 0x11 slot q r s).2.sch.models (bits r.w18.toNat 0 10) } }))) ∧
  (∀ (slot q : Nat) (r : CmdRec) (s : State) (m : Model) (t : Tenant), CanStart s slot q r → (fetched 0x18 slot q r s).2.model (bits r.w18.toNat 0 10) = some m → (fetched 0x18 slot q r s).2.ten (slotOfFlight (fetched 0x18 slot q r s).2 (fetched 0x18 slot q r s).1) = some t → mayUse (fetched 0x18 slot q r s).2 (slotOfFlight (fetched 0x18 slot q r s).2 (fetched 0x18 slot q r s).1) m = true → bits r.w18.toNat 10 4 < t.queues.length → (ctxsOf (fetched 0x18 slot q r s).2 (slotOfFlight (fetched 0x18 slot q r s).2 (fetched 0x18 slot q r s).1)).length < t.vec.ctx → (fetched 0x18 slot q r s).2.sch.ctxs.length < 16384 → scratch m (r.w18.toNat.testBit 14) = none → exec (.ctxOpen slot q r) s = .next (commitDue slot q (finish (fetched 0x18 slot q r s).1 ⟨0, 0, 0⟩ (lowestFree ((fetched 0x18 slot q r s).2.sch.ctxs.map (·.1)) 0) ((fetched 0x18 slot q r s).2.draw.2.setCtx (lowestFree ((fetched 0x18 slot q r s).2.sch.ctxs.map (·.1)) 0) { slot := (slotOfFlight (fetched 0x18 slot q r s).2 (fetched 0x18 slot q r s).1), model := bits r.w18.toNat 0 10, queue := bits r.w18.toNat 10 4, durable := r.w18.toNat.testBit 14, prio := bits r.w18.toNat 16 2, user := BitVec.ofNat 128 (r.w20.toNat + 2 ^ 64 * r.w28.toNat), act := none, blocksHandle := BitVec.ofNat 64 (fetched 0x18 slot q r s).2.draw.1 })))) ∧
  (∀ (slot q : Nat) (r : CmdRec) (s : State) (c : Ctx), CanStart s slot q r → (fetched 0x19 slot q r s).2.ctx (bits r.w18.toNat 0 14) = some c → c.slot = (slotOfFlight (fetched 0x19 slot q r s).2 (fetched 0x19 slot q r s).1) → c.step = none → exec (.ctxClear slot q r) s = .next (commitDue slot q (finish (fetched 0x19 slot q r s).1 ⟨0, 0, 0⟩ 0 (emptyCtx (bits r.w18.toNat 0 14) (abortTurns (bits r.w18.toNat 0 14) ⟨0x34, 0, 0⟩ (fetched 0x19 slot q r s).2))))) ∧
  (∀ (slot q : Nat) (r : CmdRec) (s : State) (c : Ctx), CanStart s slot q r → (fetched 0x1A slot q r s).2.ctx (bits r.w18.toNat 0 14) = some c → c.slot = (slotOfFlight (fetched 0x1A slot q r s).2 (fetched 0x1A slot q r s).1) → c.step = none → exec (.ctxClose slot q r) s = .next (commitDue slot q (finish (fetched 0x1A slot q r s).1 ⟨0, 0, 0⟩ 0 (freeCtx (bits r.w18.toNat 0 14) (abortTurns (bits r.w18.toNat 0 14) ⟨0x34, 0, 0⟩ (fetched 0x1A slot q r s).2))))) ∧
  (∀ (slot q : Nat) (r : CmdRec) (s : State) (c : Ctx) (k : Nat), CanStart s slot q r → (fetched 0x1A slot q r s).2.ctx (bits r.w18.toNat 0 14) = some c → c.slot = (slotOfFlight (fetched 0x1A slot q r s).2 (fetched 0x1A slot q r s).1) → c.step = some k → exec (.ctxClose slot q r) s = .next (commitDue slot q ((fetched 0x1A slot q r s).2.updCtx (bits r.w18.toNat 0 14) (fun c => { c with clearing := c.clearing ++ [(true, (fetched 0x1A slot q r s).1)] })))) ∧
  (∀ (slot q : Nat) (r : CmdRec) (s : State) (c : Ctx) (t : Tenant) (f : Flight), CanStart s slot q r → bits r.w18.toNat 20 12 = 0 → bits r.w20.toNat 32 32 = 0 → r.w38 = 0 → bits r.w18.toNat 16 2 ≠ 3 → r.w10.toNat % 4 = 0 → (fetched 0x1B slot q r s).2.ctx (bits r.w18.toNat 0 14) = some c → (fetched 0x1B slot q r s).2.ten (slotOfFlight (fetched 0x1B slot q r s).2 (fetched 0x1B slot q r s).1) = some t → c.slot = (slotOfFlight (fetched 0x1B slot q r s).2 (fetched 0x1B slot q r s).1) → exhausted (fetched 0x1B slot q r s).2 (slotOfFlight (fetched 0x1B slot q r s).2 (fetched 0x1B slot q r s).1) = none → 1 ≤ bits r.w18.toNat 32 32 ∧ bits r.w18.toNat 32 32 ≤ 262144 → 1 ≤ bits r.w20.toNat 0 32 ∧ bits r.w20.toNat 0 32 ≤ 262144 → (bits r.w18.toNat 16 2 = 0 ∨ t.cls ≤ bits r.w18.toNat 16 2) → knownTokens c + bits r.w18.toNat 32 32 ≤ (((fetched 0x1B slot q r s).2.model c.model).map (·.maxLen)).getD 1048576 → (c.turn = none ∨ c.waiting.length < 4) → (fetched 0x1B slot q r s).2.flight (fetched 0x1B slot q r s).1 = some f → r.w18.toNat.testBit 18 = false → exec (.turn slot q r) s = .next (commitDue slot q (hostRead (slotOfFlight (fetched 0x1B slot q r s).2 (fetched 0x1B slot q r s).1) r.w10.toNat (4 * bits r.w18.toNat 32 32) (.turn (fetched 0x1B slot q r s).1) ((fetched 0x1B slot q r s).2.updCtx (bits r.w18.toNat 0 14) (fun c' => if c'.turn.isSome then { c' with turns := c.turns % (2 ^ 32 - 1) + 1, waiting := c'.waiting ++ [({ flight := (fetched 0x1B slot q r s).1, cmdId := f.cmdId, irq := f.irq, seq := c.turns % (2 ^ 32 - 1) + 1, scope := bits r.w18.toNat 14 2, cls := max t.cls (bits r.w18.toNat 16 2), tokens := r.w18.toNat.testBit 19, count := bits r.w18.toNat 32 32, maxNew := bits r.w20.toNat 0 32, stops := [bits r.w28.toNat 0 32, bits r.w28.toNat 32 32, bits r.w30.toNat 0 32, bits r.w30.toNat 32 32] } : Turn)] } else startTurn { c' with turns := c.turns % (2 ^ 32 - 1) + 1 } ({ flight := (fetched 0x1B slot q r s).1, cmdId := f.cmdId, irq := f.irq, seq := c.turns % (2 ^ 32 - 1) + 1, scope := bits r.w18.toNat 14 2, cls := max t.cls (bits r.w18.toNat 16 2), tokens := r.w18.toNat.testBit 19, count := bits r.w18.toNat 32 32, maxNew := bits r.w20.toNat 0 32, stops := [bits r.w28.toNat 0 32, bits r.w28.toNat 32 32, bits r.w30.toNat 0 32, bits r.w30.toNat 32 32] } : Turn)))))) ∧
  (∀ (slot q : Nat) (r : CmdRec) (s : State) (c : Ctx), CanStart s slot q r → (fetched 0x1C slot q r s).2.ctx (bits r.w18.toNat 0 14) = some c → c.slot = (slotOfFlight (fetched 0x1C slot q r s).2 (fetched 0x1C slot q r s).1) → c.turn = none → c.waiting = [] → exec (.cancel slot q r) s = .next (commitDue slot q (finish (fetched 0x1C slot q r s).1 ⟨0, 0, 0⟩ 0 (fetched 0x1C slot q r s).2))) ∧
  (∀ (slot q : Nat) (r : CmdRec) (s : State) (c : Ctx) (t : Turn), CanStart s slot q r → (fetched 0x1C slot q r s).2.ctx (bits r.w18.toNat 0 14) = some c → c.slot = (slotOfFlight (fetched 0x1C slot q r s).2 (fetched 0x1C slot q r s).1) → c.turn = some t → c.waiting = [] → c.step.isSome = true → bits r.w18.toNat 32 32 = 0 → exec (.cancel slot q r) s = .next (commitDue slot q (dropCancelled (bits r.w18.toNat 0 14) (((fetched 0x1C slot q r s).2.updFlight (fetched 0x1C slot q r s).1 (fun f => { f with args := [bits r.w18.toNat 0 14, t.seq], left := 1 })).updCtx (bits r.w18.toNat 0 14) (fun c => { c with turn := c.turn.map (fun u => if [t.seq].contains u.seq then { u with cancelled := true } else u), waiting := c.waiting.map (fun u => if [t.seq].contains u.seq then { u with cancelled := true } else u) })))))

/-- For a write of TW_CTX_SEL through a window that shows tenant slot k: where the number is a context of that tenant, TW_CTX_STATUS reads VALID alone and every word of TW_CTX_DATA reads as the record of that context; where it is not, TW_CTX_STATUS reads DENIED alone and TW_CTX_DATA reads zero. TW_CTX_SEL reads the number, the windows of other tenants are unchanged, and nothing outside the windows changes. -/
def Obligations.ContextRecordSnapshot : Prop :=
  (∀ (f : Nat) (win : Option Nat) (value : Word) (s : State) (slot : Nat) (u : Tenant) (c : Ctx), f < 32 → windowSlot s f win = some slot → s.ten slot = some u → s.ctx (value.toNat % 16384) = some c → c.slot = slot → ∃ t, exec (.twCtxSelWrite f win value) s = .next t ∧ t.twRd slot Reg.TW_CTX_SEL = value.toNat % 16384 ∧ t.twRd slot Reg.TW_CTX_STATUS = 1 ∧ (∀ i x, (ctxRecord (s.twPut slot Reg.TW_CTX_SEL (value.toNat % 16384)) c)[i]? = some x → t.twRd slot (Reg.TW_CTX_DATA i) = x % 2 ^ 64) ∧ (∀ k, k ≠ slot → t.ten k = s.ten k) ∧ t = { s with adm := t.adm }) ∧
  (∀ (f : Nat) (win : Option Nat) (value : Word) (s : State) (slot : Nat) (u : Tenant), f < 32 → windowSlot s f win = some slot → s.ten slot = some u → (s.ctx (value.toNat % 16384)).any (fun c => c.slot == slot) = false → ∃ t, exec (.twCtxSelWrite f win value) s = .next t ∧ t.twRd slot Reg.TW_CTX_SEL = value.toNat % 16384 ∧ t.twRd slot Reg.TW_CTX_STATUS = 2 ∧ (∀ i, i < 64 → t.twRd slot (Reg.TW_CTX_DATA i) = 0) ∧ (∀ k, k ≠ slot → t.ten k = s.ten k) ∧ t = { s with adm := t.adm })

/-- For a command that can start, on the fetched state. EV_CORE_LOAD of an own core with readable objects and key blocks in the range begins the load; EV_CORE_CLEAR of an own core sets V and the refractory end of its neurons to 0; EV_CORE_READ of an own core into an object without leases takes the snapshot and writes it when it can. EV_ROUTE of no entries replaces the routes by none at the staged bank. EV_COMMIT waits for the next flip. EV_INJECT of 1 to 65,536 words by a tenant that is not exhausted reads them. EV_RING sets the ring and its indices to 0. EV_TELEM with ENABLE 0 ends a source, and with an own key and a period in range starts it. -/
def Obligations.EventRingCommands : Prop :=
  (∀ (slot q : Nat) (r : CmdRec) (s : State) (w p : Named), CanStart s slot q r → (checkHandle (fetched 0x30 slot q r s).2 (slotOfFlight (fetched 0x30 slot q r s).2 (fetched 0x30 slot q r s).1) r.w08 false 0 131072 0xFFFF 0xFFFF).toOption = some w → (checkHandle (fetched 0x30 slot q r s).2 (slotOfFlight (fetched 0x30 slot q r s).2 (fetched 0x30 slot q r s).1) r.w10 false 0 2048 0xFFFF 0xFFFF).toOption = some p → ((fetched 0x30 slot q r s).2.core (bits r.w18.toNat 0 9)).slot = some (slotOfFlight (fetched 0x30 slot q r s).2 (fetched 0x30 slot q r s).1) → ownsKeys (fetched 0x30 slot q r s).2 (slotOfFlight (fetched 0x30 slot q r s).2 (fetched 0x30 slot q r s).1) (512 * bits r.w18.toNat 32 11) 512 = true → ownsKeys (fetched 0x30 slot q r s).2 (slotOfFlight (fetched 0x30 slot q r s).2 (fetched 0x30 slot q r s).1) (256 * bits r.w20.toNat 0 12) 256 = true → exec (.evCoreLoad slot q r) s = .next (commitDue slot q (accessReady (fetched 0x30 slot q r s).1 (promoteFor (fetched 0x30 slot q r s).1 p.slot p.idx (mustPromote p.obj 0 2048 false) (promoteFor (fetched 0x30 slot q r s).1 w.slot w.idx (mustPromote w.obj 0 131072 false) (((fetched 0x30 slot q r s).2.updCore (bits r.w18.toNat 0 9) (fun x => { x with loading := some (fetched 0x30 slot q r s).1 })).updFlight (fetched 0x30 slot q r s).1 (fun f => { f with args := [w.slot, w.idx, p.slot, p.idx, bits r.w18.toNat 0 9, bits r.w18.toNat 32 11, bits r.w20.toNat 0 12] }))))))) ∧
  (∀ (slot q : Nat) (r : CmdRec) (s : State), CanStart s slot q r → ((fetched 0x31 slot q r s).2.core (bits r.w18.toNat 0 9)).slot = some (slotOfFlight (fetched 0x31 slot q r s).2 (fetched 0x31 slot q r s).1) → exec (.evCoreClear slot q r) s = .next (commitDue slot q (finish (fetched 0x31 slot q r s).1 ⟨0, 0, 0⟩ 0 ((fetched 0x31 slot q r s).2.updCore (bits r.w18.toNat 0 9) (fun x => { x with neurons := mmap x.neurons (fun _ n => { n with v := 0, rEnd := 0 }) }))))) ∧
  (∀ (slot q : Nat) (r : CmdRec) (s : State) (n : Named), CanStart s slot q r → (checkHandle (fetched 0x37 slot q r s).2 (slotOfFlight (fetched 0x37 slot q r s).2 (fetched 0x37 slot q r s).1) r.w08 true 0 4096 0xFFFF 0xFFFF).toOption = some n → ((fetched 0x37 slot q r s).2.core (bits r.w18.toNat 0 9)).slot = some (slotOfFlight (fetched 0x37 slot q r s).2 (fetched 0x37 slot q r s).1) → leaseBlock n.obj (pagesOf n.obj 0 4096) = none → exec (.evCoreRead slot q r) s = .next (commitDue slot q (accessReady (fetched 0x37 slot q r s).1 (promoteFor (fetched 0x37 slot q r s).1 n.slot n.idx (mustPromote n.obj 0 4096 true) ((fetched 0x37 slot q r s).2.updFlight (fetched 0x37 slot q r s).1 (fun f => { f with args := [n.slot, n.idx], data := some (coreImage ((fetched 0x37 slot q r s).2.core (bits r.w18.toNat 0 9))) })))))) ∧
  (∀ (slot q : Nat) (r : CmdRec) (s : State), CanStart s slot q r → bits r.w18.toNat 0 15 = 0 → exec (.evRoute slot q r) s = .next (commitDue slot q (routeWrite ⟨(slotOfFlight (fetched 0x32 slot q r s).2 (fetched 0x32 slot q r s).1), some (fetched 0x32 slot q r s).1, []⟩ (fetched 0x32 slot q r s).2))) ∧
  (∀ (slot q : Nat) (r : CmdRec) (s : State) (o : Named), CanStart s slot q r → 1 ≤ bits r.w18.toNat 0 15 ∧ bits r.w18.toNat 0 15 ≤ 16384 → (checkHandle (fetched 0x32 slot q r s).2 (slotOfFlight (fetched 0x32 slot q r s).2 (fetched 0x32 slot q r s).1) r.w08 false 0 (16 * bits r.w18.toNat 0 15) 0xFFFF 0xFFFF).toOption = some o → exec (.evRoute slot q r) s = .next (commitDue slot q (accessReady (fetched 0x32 slot q r s).1 (promoteFor (fetched 0x32 slot q r s).1 o.slot o.idx (mustPromote o.obj 0 (16 * bits r.w18.toNat 0 15) false) ((fetched 0x32 slot q r s).2.updFlight (fetched 0x32 slot q r s).1 (fun f => { f with args := [o.slot, o.idx, bits r.w18.toNat 0 15] })))))) ∧
  (∀ (slot q : Nat) (r : CmdRec) (s : State), CanStart s slot q r → exec (.evCommit slot q r) s = .next (commitDue slot q ({ (fetched 0x33 slot q r s).2 with fab := { (fetched 0x33 slot q r s).2.fab with commits := (fetched 0x33 slot q r s).2.fab.commits ++ [(fetched 0x33 slot q r s).1] } }))) ∧
  (∀ (slot q : Nat) (r : CmdRec) (s : State), CanStart s slot q r → 1 ≤ bits r.w18.toNat 0 17 ∧ bits r.w18.toNat 0 17 ≤ 65536 → exhausted (fetched 0x34 slot q r s).2 (slotOfFlight (fetched 0x34 slot q r s).2 (fetched 0x34 slot q r s).1) = none → exec (.evInject slot q r) s = .next (commitDue slot q (hostRead (slotOfFlight (fetched 0x34 slot q r s).2 (fetched 0x34 slot q r s).1) r.w10.toNat (4 * bits r.w18.toNat 0 17) (.inject (fetched 0x34 slot q r s).1) (fetched 0x34 slot q r s).2))) ∧
  (∀ (slot q : Nat) (r : CmdRec) (s : State), CanStart s slot q r → 4 ≤ bits r.w20.toNat 0 5 ∧ bits r.w20.toNat 0 5 ≤ 16 → exec (.evRing slot q r) s = .next (commitDue slot q (finish (fetched 0x35 slot q r s).1 ⟨0, 0, 0⟩ 0 ((((fetched 0x35 slot q r s).2.updTen (slotOfFlight (fetched 0x35 slot q r s).2 (fetched 0x35 slot q r s).1) (fun t => { t with evRing := some ({ base := r.w10.toNat, wb := r.w18.toNat, log := bits r.w20.toNat 0 5, vec := bits r.w20.toNat 8 6 } : EvRing) })).twPut (slotOfFlight (fetched 0x35 slot q r s).2 (fetched 0x35 slot q r s).1) Reg.TW_EV_HEAD 0).twPut (slotOfFlight (fetched 0x35 slot q r s).2 (fetched 0x35 slot q r s).1) Reg.TW_EV_TAIL 0)))) ∧
  (∀ (slot q : Nat) (r : CmdRec) (s : State), CanStart s slot q r → bits r.w18.toNat 0 8 < 7 → r.w18.getLsbD 8 = false → exec (.evTelem slot q r) s = .next (commitDue slot q (finish (fetched 0x36 slot q r s).1 ⟨0, 0, 0⟩ 0 { (fetched 0x36 slot q r s).2 with fab := { (fetched 0x36 slot q r s).2.fab with telem := mdel (fetched 0x36 slot q r s).2.fab.telem (8 * (slotOfFlight (fetched 0x36 slot q r s).2 (fetched 0x36 slot q r s).1) + bits r.w18.toNat 0 8) } }))) ∧
  (∀ (slot q : Nat) (r : CmdRec) (s : State), CanStart s slot q r → bits r.w18.toNat 0 8 < 7 → r.w18.getLsbD 8 = true → ownsKeys (fetched 0x36 slot q r s).2 (slotOfFlight (fetched 0x36 slot q r s).2 (fetched 0x36 slot q r s).1) (bits r.w18.toNat 32 20) 1 = true → 10 ≤ r.w20.toNat ∧ r.w20.toNat ≤ 1000000 → exec (.evTelem slot q r) s = .next (commitDue slot q (finish (fetched 0x36 slot q r s).1 ⟨0, 0, 0⟩ 0 { (fetched 0x36 slot q r s).2 with fab := { (fetched 0x36 slot q r s).2.fab with telem := mput (fetched 0x36 slot q r s).2.fab.telem (8 * (slotOfFlight (fetched 0x36 slot q r s).2 (fetched 0x36 slot q r s).1) + bits r.w18.toNat 0 8) ⟨bits r.w18.toNat 32 20, r.w20.toNat, if bits r.w18.toNat 0 8 = 4 ∨ bits r.w18.toNat 0 8 = 5 then none else some (telemValue (fetched 0x36 slot q r s).2 (slotOfFlight (fetched 0x36 slot q r s).2 (fetched 0x36 slot q r s).1) (bits r.w18.toNat 0 8) 0), (fetched 0x36 slot q r s).2.tb⟩ } })))

/-- A write of 1 to EVF_COMMIT requests a flip, and of 0 does nothing. EVENT_BANK_FLIP with the other bank STAGED and a flip requested changes E, sets the other bank DRAINING, counts the flip, serves every waiting command whose tenant has no earlier EV_ROUTE in flight DONE with the flip count as RESULT and takes the request; without such a request, or with the bank not STAGED, it does nothing. EVENT_BANK_DRAINED of a DRAINING bank with no event in flight makes it RESYNC, and otherwise does nothing. EVENT_BANK_RESYNC_DONE of a RESYNC bank copies the active routes to it, stages it and applies the writes held, and otherwise does nothing. -/
def Obligations.EventBanks : Prop :=
  (∀ (w : Word) (s : State), exec (.evfCommit w) s = .next (if w.getLsbD 0 = true then { s with fab := { s.fab with flip := true } } else s)) ∧
  (∀ (s : State), s.evOther < 2 → ((s.fab.commits.filter (fun f => commitReady s f)) ≠ [] ∨ s.fab.flip = true) → ∃ u, u = ((s.putN Reg.EVF_EPOCH (1 - s.evE + 4)).bump32 Reg.EVF_FLIPS).traceRec 0x09 9 0xFFFF [1 - s.evE] ∧ exec (.eventBankFlip) s = .next ((s.fab.commits.filter (fun f => commitReady s f)).foldl (fun v f => finish f ⟨0, 0, 0⟩ (u.rdN Reg.EVF_FLIPS) v) { u with fab := { u.fab with commits := s.fab.commits.filter (fun f => !(s.fab.commits.filter (fun f => commitReady s f)).contains f), flip := false } })) ∧
  (∀ (s : State), (2 ≤ s.evOther ∨ (s.fab.commits.filter (fun f => commitReady s f) = [] ∧ s.fab.flip = false)) → exec (.eventBankFlip) s = .next s) ∧
  (∀ (s : State), s.evOther = 2 → inflightOf s (1 - s.evE) = 0 → exec (.eventBankDrained) s = .next (s.setFld Reg.EVF_EPOCH 1 2 3)) ∧
  (∀ (s : State), (s.evOther ≠ 2 ∨ inflightOf s (1 - s.evE) ≠ 0) → exec (.eventBankDrained) s = .next s) ∧
  (∀ (s : State), s.evOther = 3 → exec (.eventBankResyncDone) s = .next (s.fab.writes.foldl (fun s w => applyRoutes w s) ({ s with fab := { s.fab with routes := s.fab.routes.filter (fun (r : Route) => r.bank == s.evE) ++ (s.fab.routes.filter (fun (r : Route) => r.bank == s.evE)).map (fun (r : Route) => { r with bank := 1 - s.evE }), writes := [] } }.setFld Reg.EVF_EPOCH 1 2 1))) ∧
  (∀ (s : State), s.evOther ≠ 3 → exec (.eventBankResyncDone) s = .next s)

/-- A cluster port event enters the fabric through its tenant; an event at the head of the ingress table, a router input or a core output is routed there; one at a router output towards its core enters the core input unless it is loading or full. NEURON_INPUT_EVENT of a core without a tenant, of a marker, or of a key outside its axon block only counts. NEURON_SLEEP puts an idle core to sleep. A batch with its 1 us over leaves; EV_BATCH received enters the ingress table of a tenant known here, and is counted dropped otherwise. SPILL_WAIT_EXPIRE spills the events of a tenant whose head has waited 20 us; SPILL_REPLAY replays where there is room. TELEMETRY_TICK before its period ends, or of a parked tenant, does nothing. TW_EV_HEAD takes the value written. EV_RING_VECTOR_TICK raises nothing for a ring the driver has emptied. -/
def Obligations.EventMovement : Prop :=
  (∀ (k : Nat) (s : State) (c : Cluster) (l : Launch) (w : Word) (ws : List Word), s.clu k = some c → c.port = w :: ws → s.lch c.launch = some l → exec (.eventRouteHop (.cluster k)) s = .next (inject l.slot w none (s.updClu k (fun c => { c with port := ws }))).2) ∧
  (∀ (p : EvPoint) (e : Ev) (s : State), s.evHead p = some e → (p = .ingress ∨ (∃ r, p = .routerIn r ∨ p = .coreOut r)) → exec (.eventRouteHop p) s = .next (routeAt (match p with | .routerIn r => r | .coreOut r => r | _ => 512) e (s.evPop p))) ∧
  (∀ (r : Nat) (e : Ev) (s : State), s.evHead (.routerOut r 4) = some e → (s.core r).loading = none → s.evCount (.coreIn r) < 32 → (s.core r).asleep = false → exec (.eventRouteHop (.routerOut r 4)) s = .next (((s.evPop (.routerOut r 4)).evPut (.coreIn r) e).updCore r (fun x => { x with asleep := false, lastIn := s.tb }))) ∧
  (∀ (k slot : Nat) (e : Ev) (s : State), k < 512 → s.evHead (.coreIn k) = some e → ((s.core k).slot = none ∨ ((s.core k).slot = some slot ∧ evMark e.word = false ∧ ((s.core k).axonBlk ≠ some (evKey e.word / 512) ∨ ownsKeys s slot (evKey e.word) 1 = false))) → exec (.neuronInputEvent k) s = .next ((s.evPop (.coreIn k)).bump Reg.EVF_AXON_MISS)) ∧
  (∀ (k slot : Nat) (e : Ev) (s : State), k < 512 → s.evHead (.coreIn k) = some e → (s.core k).slot = some slot → evMark e.word = true → exec (.neuronInputEvent k) s = .next ((s.evPop (.coreIn k)).bump Reg.EVF_MARKER_IN)) ∧
  (∀ (k slot : Nat) (e : Ev) (s : State) (xs : List (Nat × NOut)), k < 512 → s.evHead (.coreIn k) = some e → (s.core k).slot = some slot → evMark e.word = false → (s.core k).axonBlk = some (evKey e.word / 512) → ownsKeys s slot (evKey e.word) 1 = true → xs = coreIn (s.core k) (evKey e.word % 512) (e.time s.tb e.since) (evPay e.word) → s.evCount (.coreOut k) + (xs.filter (fun x => x.2.pay.isSome)).length ≤ 256 → ∃ t, exec (.neuronInputEvent k) s = .next t ∧ ∃ u, t = emitSpikes k slot (s.core k).outBlk xs u ∧ (∀ n x, (n, x) ∈ xs → mget (u.core k).neurons n = some x.neuron) ∧ u.fab.queued = (s.evPop (.coreIn k)).fab.queued) ∧
  (∀ (k : Nat) (s : State), k < 512 → s.evCount (.coreIn k) = 0 → (s.core k).lastIn + 2 ≤ s.tb → (s.core k).asleep = false → exec (.neuronSleep k) s = .next (s.updCore k (fun c => { c with asleep := true }))) ∧
  (∀ (node slot : Nat) (s : State) (b : Batch), slot < 1024 → s.fab.batches.find? (fun b => b.node == node && b.slot == slot) = some b → b.since + 1 ≤ s.tb → exec (.evBatchTimeout node slot) s = .next (sendBatch b s)) ∧
  (∀ (id slot : Nat) (ws : List Word) (s : State), s.slotOf id = some slot → exec (.evBatch id ws) s = .next (injectAll slot (eventsOf (ws.map (·.toNat)) s).1 (eventsOf (ws.map (·.toNat)) s).2).2) ∧
  (∀ (id : Nat) (ws : List Word) (s : State), s.slotOf id = none → exec (.evBatch id ws) s = .next (s.bumpBy Reg.EVF_LINK_DROP (eventsOf (ws.map (·.toNat)) s).1.length)) ∧
  (∀ (k : Nat) (e : Ev) (s : State), s.evHead (.coreOut k) = some e → e.since + 20 ≤ s.tb → exec (.spillWaitExpire (.coreOut k)) s = .next ((s.fab.queued.filter (fun x => x.1 == .coreOut k && x.2.slot == e.slot)).foldl (fun s x => spillEv (.coreOut k) { x.2 with ts := some (BitVec.ofNat 32 (x.2.time s.tb x.2.since)) } s) { s with fab := { s.fab with queued := s.fab.queued.filter (fun x => !(x.1 == .coreOut k && x.2.slot == e.slot)) } })) ∧
  (∀ (p : EvPoint) (slot : Nat) (s : State), slot < 1024 → halfRoom s p slot = true → exec (.spillReplay p slot) s = .next (replayFifo p slot (s.fab.spilled.filter (fun x => x.1 == p && x.2.slot == slot)).length s)) ∧
  (∀ (p : EvPoint) (slot : Nat) (s : State), slot < 1024 → halfRoom s p slot = false → exec (.spillReplay p slot) s = .next s) ∧
  (∀ (slot src : Nat) (m : Int) (s : State) (x : Telem) (t : Tenant), slot < 1024 → src < 7 → mget s.fab.telem (8 * slot + src) = some x → s.ten slot = some t → (t.st ≠ .active ∨ s.tb < x.since + x.period) → exec (.telemetryTick slot src m) s = .next s) ∧
  (∀ (slot src : Nat) (m v d : Int) (s : State) (x : Telem) (t : Tenant), slot < 1024 → src < 7 → 4 ≤ src → mget s.fab.telem (8 * slot + src) = some x → s.ten slot = some t → t.st = .active → x.since + x.period ≤ s.tb → v = telemValue s slot src m → d = v - x.seen.getD v → exec (.telemetryTick slot src m) s = .next (inject slot (evWord x.key (max (-127) (min 127 d)) 0 false true) (some (BitVec.ofNat 32 s.tb)) { s with fab := { s.fab with telem := mput s.fab.telem (8 * slot + src) { x with seen := some (v - d + max (-127) (min 127 d)), since := s.tb } } }).2) ∧
  (∀ (f : Nat) (win : Option Nat) (value : Word) (s : State) (slot : Nat), f < 32 → windowSlot s f win = some slot → exec (.twEvHeadWrite f win value) s = .next (s.twPut slot Reg.TW_EV_HEAD value.toNat)) ∧
  (∀ (slot : Nat) (s : State) (t : Tenant), slot < 1024 → s.ten slot = some t → t.evRing = none → t.winRing = none → exec (.evRingVectorTick slot) s = .next s) ∧
  (∀ (slot : Nat) (s : State) (t : Tenant) (r : EvRing), slot < 1024 → s.ten slot = some t → t.evRing = some r → t.winRing = none → r.live = true → s.twRd slot Reg.TW_EV_TAIL ≠ s.twRd slot Reg.TW_EV_HEAD → (∀ x, r.lastVec = some x → x + 10 ≤ s.tb) → exec (.evRingVectorTick slot) s = .next ((raiseTen slot r.vec s).updTen slot (fun t => { t with evRing := some { r with lastVec := some (raiseTen slot r.vec s).tb } })))

/-- For a write through a function whose window reaches a tenant with the queue. A producer value up to a ring ahead of CR_CONS is taken, one behind it or further ahead is ignored and counted in TW_Q_DB_BAD; either wakes what waits on the doorbell of the queue. A completion head between the previous one and CQ_TAIL is taken and held completions go; any other value is ignored and counted. A write of TW_QSIG adds the value to semaphore 0. A commit of a valid configuration applies at once to a queue that is not active or whose ring is empty, waits otherwise, and does nothing with bit 0 clear, a bad configuration or a STOPPED queue. A write where the window reaches no tenant, or the tenant has no such queue, does nothing. A vector raise that fell due in the moderation interval is made at its end, and a new interval starts; before the end, or with none due, nothing happens. HELD_SLOT_FREED lets the queue and its program go when the tenant has a slot free. QPROG_RUN of an object that holds code, with no program running and energy left, starts the program at its first instruction with the operands in Q1 to Q6 and the queue number in Q7; while one runs it is refused with code 0x24. QPROG_STOP completes DONE, and a parked program ends ABORTED_BY_TENANT at once while another ends at its next fence point. QPROG_FENCE_TIMEOUT stops a program 10 ms after the request where it is, and does nothing earlier. -/
def Obligations.QueueRegistersAndTimers : Prop :=
  (∀ (f : Nat) (win : Option Nat) (q : Nat) (value : Word) (s : State) (slot : Nat) (t : Tenant) (k : Queue), f < 32 → windowSlot s f win = some slot → s.ten slot = some t → mget t.queues q = some k → (value.toNat + 2 ^ 32 - k.cons) % 2 ^ 32 ≤ k.ringSize → exec (.twDbProdWrite f win q value) s = .next (wake (progKey slot q) 1 (s.updQue slot q (fun k => { k with prod := value.toNat })))) ∧
  (∀ (f : Nat) (win : Option Nat) (q : Nat) (value : Word) (s : State) (slot : Nat) (t : Tenant) (k : Queue), f < 32 → windowSlot s f win = some slot → s.ten slot = some t → mget t.queues q = some k → k.ringSize < (value.toNat + 2 ^ 32 - k.cons) % 2 ^ 32 → exec (.twDbProdWrite f win q value) s = .next (wake (progKey slot q) 1 (s.twBump slot Reg.TW_Q_DB_BAD))) ∧
  (∀ (f : Nat) (win : Option Nat) (q : Nat) (value : Word) (s : State) (slot : Nat) (t : Tenant) (k : Queue), f < 32 → windowSlot s f win = some slot → s.ten slot = some t → mget t.queues q = some k → (value.toNat + 2 ^ 32 - k.head) % 2 ^ 32 ≤ (k.tail + 2 ^ 32 - k.head) % 2 ^ 32 → exec (.twCqHeadWrite f win q value) s = .next (replayAll slot q (s.updQue slot q (fun k => { k with head := value.toNat })))) ∧
  (∀ (f : Nat) (win : Option Nat) (q : Nat) (value : Word) (s : State) (slot : Nat) (t : Tenant) (k : Queue), f < 32 → windowSlot s f win = some slot → s.ten slot = some t → mget t.queues q = some k → (k.tail + 2 ^ 32 - k.head) % 2 ^ 32 < (value.toNat + 2 ^ 32 - k.head) % 2 ^ 32 → exec (.twCqHeadWrite f win q value) s = .next (s.twBump slot Reg.TW_Q_DB_BAD)) ∧
  (∀ (f : Nat) (win : Option Nat) (q : Nat) (value : Word) (s : State) (slot : Nat) (t : Tenant) (k : Queue), f < 32 → windowSlot s f win = some slot → s.ten slot = some t → mget t.queues q = some k → exec (.twQsigWrite f win q value) s = .next (wake (progKey slot q) 1 (queueSignal slot q 0 value s))) ∧
  (∀ (slot q sem : Nat) (d : Word) (s : State), queueSignal slot q sem d s = if d = 0 then s.updQue slot q (fun k => { k with sems := mputD k.sems 0 sem (mgetD k.sems 0 sem + d.signExtend 64) }) else wake (progKey slot q) 2 (s.updQue slot q (fun k => { k with sems := mputD k.sems 0 sem (mgetD k.sems 0 sem + d.signExtend 64) }))) ∧
  (∀ (f : Nat) (win : Option Nat) (q : Nat) (value : Word) (s : State) (slot : Nat) (t : Tenant) (k : Queue) (c : QCfg), f < 32 → windowSlot s f win = some slot → s.ten slot = some t → mget t.queues q = some k → c = stagedCfg s slot q → value.getLsbD 0 = true → c.ok = true → k.st ≠ .stopped → (k.st ≠ .active ∨ k.prod = k.cons) → exec (.twQCommit f win q value) s = .next (applyQueueCommit slot q c s)) ∧
  (∀ (f : Nat) (win : Option Nat) (q : Nat) (value : Word) (s : State) (slot : Nat) (t : Tenant) (k : Queue) (c : QCfg), f < 32 → windowSlot s f win = some slot → s.ten slot = some t → mget t.queues q = some k → c = stagedCfg s slot q → value.getLsbD 0 = true → c.ok = true → k.st = .active → k.prod ≠ k.cons → exec (.twQCommit f win q value) s = .next (s.updQue slot q (fun k => { k with commit := some c }))) ∧
  (∀ (f : Nat) (win : Option Nat) (q : Nat) (value : Word) (s : State) (slot : Nat) (t : Tenant) (k : Queue), f < 32 → windowSlot s f win = some slot → s.ten slot = some t → mget t.queues q = some k → (value.getLsbD 0 = false ∨ (stagedCfg s slot q).ok = false ∨ k.st = .stopped) → exec (.twQCommit f win q value) s = .next s) ∧
  (∀ (f : Nat) (win : Option Nat) (q : Nat) (value : Word) (s : State), f < 32 → windowSlot s f win = none → exec (.twDbProdWrite f win q value) s = .next s ∧ exec (.twCqHeadWrite f win q value) s = .next s ∧ exec (.twQsigWrite f win q value) s = .next s ∧ exec (.twQCommit f win q value) s = .next s) ∧
  (∀ (f : Nat) (win : Option Nat) (q : Nat) (value : Word) (s : State) (slot : Nat) (t : Tenant), f < 32 → windowSlot s f win = some slot → s.ten slot = some t → mget t.queues q = none → exec (.twDbProdWrite f win q value) s = .next s ∧ exec (.twCqHeadWrite f win q value) s = .next s ∧ exec (.twQsigWrite f win q value) s = .next s ∧ exec (.twQCommit f win q value) s = .next s) ∧
  (∀ (slot q : Nat) (s : State), slot < 1024 → q < 16 → (s.que slot q).raiseDue = true → (s.que slot q).modUntil ≤ s.tb → exec (.vectorModerationExpire slot q) s = .next (raiseTen slot (s.que slot q).cfg.vector (s.updQue slot q (fun k => { k with raiseDue := false, modUntil := s.tb + k.cfg.modUs })))) ∧
  (∀ (slot q : Nat) (s : State), slot < 1024 → q < 16 → ((s.que slot q).raiseDue = false ∨ s.tb < (s.que slot q).modUntil) → exec (.vectorModerationExpire slot q) s = .next s) ∧
  (∀ (slot q : Nat) (s : State) (t : Tenant), slot < 1024 → q < 16 → s.ten slot = some t → s.heldFree slot ≠ 0 → exec (.heldSlotFreed slot q) s = .next ((if (mgetD t.queues {} q).slotWait then s.updQue slot q (fun k => { k with slotWait := false }) else s).updProg (progKey slot q) (fun p => { p with slotWait := false }))) ∧
  (∀ (slot q : Nat) (r : CmdRec) (s : State) (n : Named) (x : Flight) (code : List DWord), CanStart s slot q r → (checkHandle (fetched 0x20 slot q r s).2 (slotOfFlight (fetched 0x20 slot q r s).2 (fetched 0x20 slot q r s).1) r.w08 false 0 0 0xFFFF 0xFFFF).toOption = some n → (fetched 0x20 slot q r s).2.flight (fetched 0x20 slot q r s).1 = some x → (fetched 0x20 slot q r s).2.prog (progKey x.slot x.queue) = none → codeOf n.obj = some code → exhausted (fetched 0x20 slot q r s).2 x.slot = none → exec (.qprogRun slot q r) s = .next (commitDue slot q (qGoTo (progKey x.slot x.queue) 0 ((fetched 0x20 slot q r s).2.setProg (progKey x.slot x.queue) { slot := x.slot, queue := x.queue, engine := ((fetched 0x20 slot q r s).2.que x.slot x.queue).engine, obj := r.w08, code := code, regs := ⟨([(1, r.w10), (2, r.w18), (3, r.w20), (4, r.w28), (5, r.w30), (6, r.w38), (7, BitVec.ofNat 64 x.queue)] : List (Nat × BitVec 64)).filter (fun a => a.2 != 0), [], []⟩, flight := (fetched 0x20 slot q r s).1 })))) ∧
  (∀ (slot q : Nat) (r : CmdRec) (s : State) (n : Named) (x : Flight) (p : QProg), CanStart s slot q r → (checkHandle (fetched 0x20 slot q r s).2 (slotOfFlight (fetched 0x20 slot q r s).2 (fetched 0x20 slot q r s).1) r.w08 false 0 0 0xFFFF 0xFFFF).toOption = some n → (fetched 0x20 slot q r s).2.flight (fetched 0x20 slot q r s).1 = some x → (fetched 0x20 slot q r s).2.prog (progKey x.slot x.queue) = some p → exec (.qprogRun slot q r) s = .next (commitDue slot q (finish (fetched 0x20 slot q r s).1 ⟨0x24, 0x0A, 0⟩ 0 (fetched 0x20 slot q r s).2))) ∧
  (∀ (slot q : Nat) (r : CmdRec) (s : State) (x : Flight) (p : QProg), CanStart s slot q r → (fetched 0x21 slot q r s).2.flight (fetched 0x21 slot q r s).1 = some x → (finish (fetched 0x21 slot q r s).1 ⟨0, 0, 0⟩ 0 (fetched 0x21 slot q r s).2).prog (progKey x.slot x.queue) = some p → exec (.qprogStop slot q r) s = .next (commitDue slot q (if p.parked.isSome || p.stopped then quitProg (progKey x.slot x.queue) ⟨0x34, 0, 0⟩ 0 (finish (fetched 0x21 slot q r s).1 ⟨0, 0, 0⟩ 0 (fetched 0x21 slot q r s).2) else (finish (fetched 0x21 slot q r s).1 ⟨0, 0, 0⟩ 0 (fetched 0x21 slot q r s).2).setProg (progKey x.slot x.queue) { p with stopReq := some (finish (fetched 0x21 slot q r s).1 ⟨0, 0, 0⟩ 0 (fetched 0x21 slot q r s).2).tb, stopEnd := true }))) ∧
  (∀ (key : Nat) (s : State) (p : QProg) (t : Nat), s.prog key = some p → p.stopReq = some t → t + 10000 ≤ s.tb → exec (.qprogFenceTimeout key) s = .next (stopHere key s)) ∧
  (∀ (key : Nat) (s : State) (p : QProg), s.prog key = some p → (∀ t, p.stopReq = some t → s.tb < t + 10000) → exec (.qprogFenceTimeout key) s = .next s)

/-- FLUSH_JOURNAL_COMMIT of a FLUSH command whose object is there makes the data of the object its durable image, counts the raw and stored bytes, charges the write and completes the command DONE; of no flight, or of another operation, it does nothing. MOVE_COMMIT commits a move that is neither from nor to a peer, and does nothing to one that is, or to none. T3_MOVE_STALL_TIMEOUT of a move from or to host memory that began at least the stall time-out ago counts the stall, starts the back-off of the destination region and fails the move ABORTED_HOST_STALL with the stall time-out as DETAIL; of another move it does nothing. T3_BACKOFF_EXPIRE ends the back-off of that region only, when its time has come. PEER_MOVE_TIMEOUT fails a peer move that began at least TIER_PEER_TO ago FAULT_TIMEOUT with resource 0x07 and the elapsed ms. PEER_LOSS_TIMEOUT of a peer not heard from for TIER_PEER_LOSS drops what is queued for the peer, poisons the pages homed there and fails the moves going there. -/
def Obligations.TierEngineEvents : Prop :=
  (∀ (id i b : Nat) (s : State) (f : Flight) (o : Obj), s.flight id = some f → f.op = 4 → f.args = [i, b] → s.obj f.slot i = some o → exec (.flushJournalCommit id) s = .next (finish id ⟨0, 0, 0⟩ 0 (chargeWrite f.slot b ((((drawSize o s).2.setObj f.slot i { o with durable := some ⟨o.data, b⟩ }).bumpBy Reg.TIER_RAW_BYTES o.size).bumpBy Reg.TIER_STORED_BYTES b)))) ∧
  (∀ (id : Nat) (s : State), (∀ f, s.flight id = some f → f.op ≠ 4) → exec (.flushJournalCommit id) s = .next s) ∧
  (∀ (id : Nat) (s : State) (m : Move), s.move id = some m → m.src ≠ 4 → m.dst ≠ 4 → exec (.moveCommit id) s = .next (commitMove m s)) ∧
  (∀ (id : Nat) (s : State), (∀ m, s.move id = some m → m.src = 4 ∨ m.dst = 4) → exec (.moveCommit id) s = .next s) ∧
  (∀ (id : Nat) (s u : State) (m : Move), s.move id = some m → (m.src = 3 ∨ m.dst = 3) → m.since + 1000 * s.rdN Reg.HIF_STALL_TO ≤ s.tb → u = ((s.bump Reg.TIER_T3_STALLS).bump Reg.HIF_STALL_ABORT).twBump m.slot Reg.TW_HIF_STALLS → exec (.t3MoveStallTimeout id) s = .next (failMove m ⟨0x32, 0, s.rdN Reg.HIF_STALL_TO⟩ (if m.dst = 3 then u.updTen m.slot (fun t => { t with regions := mupd t.regions m.dstLoc (fun r => { r with backoff := some (u.tb + 1000 * u.rdN Reg.TIER_T3_BACKOFF) }) }) else u))) ∧
  (∀ (id : Nat) (s : State), (∀ m, s.move id = some m → (m.src ≠ 3 ∧ m.dst ≠ 3) ∨ s.tb < m.since + 1000 * s.rdN Reg.HIF_STALL_TO) → exec (.t3MoveStallTimeout id) s = .next s) ∧
  (∀ (slot r : Nat) (s : State), slot < 1024 → r < 64 → exec (.t3BackoffExpire slot r) s = .next (s.updTen slot (fun t => { t with regions := mupd t.regions r (fun x => if x.backoff.any (fun t => decide (t ≤ s.tb)) then { x with backoff := none } else x) }))) ∧
  (∀ (id ms : Nat) (s : State) (m : Move), s.move id = some m → (m.src = 4 ∨ m.dst = 4) → m.since + 1000 * s.rdN Reg.TIER_PEER_TO ≤ s.tb → exec (.peerMoveTimeout id ms) s = .next (failMove m ⟨0x44, 7, ms⟩ s)) ∧
  (∀ (id ms : Nat) (s : State), (∀ m, s.move id = some m → (m.src ≠ 4 ∧ m.dst ≠ 4) ∨ s.tb < m.since + 1000 * s.rdN Reg.TIER_PEER_TO) → exec (.peerMoveTimeout id ms) s = .next s) ∧
  (∀ (node : Nat) (s u : State), (s.peer node).heard + 1000 * s.rdN Reg.TIER_PEER_LOSS ≤ s.tb → u = ((loseLink node s).adm.tenants.map (·.1)).foldl (fun s i => poisonWhere i (fun p => p.tier == 4 && p.loc == node) s) (loseLink node s) → exec (.peerLossTimeout node) s = .next ((u.moves.filter (fun m => m.dst == 4 && m.dstLoc == node)).foldl (fun s m => failMove m ⟨0x44, 7, s.rdN Reg.TIER_PEER_LOSS⟩ s) u)) ∧
  (∀ (node : Nat) (s : State), s.tb < (s.peer node).heard + 1000 * s.rdN Reg.TIER_PEER_LOSS → exec (.peerLossTimeout node) s = .next s)

/-- At a demotion scan with a watermark commit in flight: when the values staged for it have the low one not below the high one, the scan runs with the watermarks in force, TIER_PENDING.WM_BAD is set and, while the values stay staged and the pair in force is a valid one, the group stays pending; where the free memory asks for no demotion, the next state has the watermarks in force, pending and WM_BAD so. When the low value is below the high one the values take force before the scan runs. -/
def Obligations.BadWatermarkCommitIsNotApplied : Prop :=
  (∀ (s : State) (vs : RegFile) (low high : Nat), s.inflight.find? (fun c => c.1 == Reg.TIER_WM_COMMIT) = some (Reg.TIER_WM_COMMIT, vs) → low = ((mget vs Reg.TIER_WM_LOW).getD (s.rd Reg.TIER_WM_LOW)).toNat → high = ((mget vs Reg.TIER_WM_HIGH).getD (s.rd Reg.TIER_WM_HIGH)).toNat → high ≤ low → ∃ u, exec (.demotionScan) s = .next (demotionScan u) ∧ u = { (s.setBit Reg.TIER_PENDING 1 true) with inflight := s.inflight.filter (fun d => d.1 != Reg.TIER_WM_COMMIT) } ∧ u.rd Reg.TIER_WM_LOW = s.rd Reg.TIER_WM_LOW ∧ u.rd Reg.TIER_WM_HIGH = s.rd Reg.TIER_WM_HIGH ∧ u.staged = s.staged ∧ u.bit Reg.TIER_PENDING 1 = true) ∧
  (∀ (s : State) (vs : RegFile) (low high : Nat), s.inflight.find? (fun c => c.1 == Reg.TIER_WM_COMMIT) = some (Reg.TIER_WM_COMMIT, vs) → low = ((mget vs Reg.TIER_WM_LOW).getD (s.rd Reg.TIER_WM_LOW)).toNat → high = ((mget vs Reg.TIER_WM_HIGH).getD (s.rd Reg.TIER_WM_HIGH)).toNat → high ≤ low → (∀ c v, mget vs c = some v → mget s.staged c = some v ∧ wmGroup c = true) → s.rdN Reg.TIER_WM_LOW < s.rdN Reg.TIER_WM_HIGH → s.rdN Reg.TIER_WM_LOW ≤ freeT1 (wmApply s) → ∃ t, exec (.demotionScan) s = .next t ∧ t.rd Reg.TIER_WM_LOW = s.rd Reg.TIER_WM_LOW ∧ t.rd Reg.TIER_WM_HIGH = s.rd Reg.TIER_WM_HIGH ∧ viewCell t Reg.TIER_PENDING = some 3) ∧
  (∀ (s : State) (vs : RegFile) (low high : Nat), s.inflight.find? (fun c => c.1 == Reg.TIER_WM_COMMIT) = some (Reg.TIER_WM_COMMIT, vs) → low = ((mget vs Reg.TIER_WM_LOW).getD (s.rd Reg.TIER_WM_LOW)).toNat → high = ((mget vs Reg.TIER_WM_HIGH).getD (s.rd Reg.TIER_WM_HIGH)).toNat → low < high → exec (.demotionScan) s = .next (demotionScan (commitApply s Reg.TIER_WM_COMMIT))) ∧
  (∀ (s : State), s.inflight.find? (fun c => c.1 == Reg.TIER_WM_COMMIT) = none → exec (.demotionScan) s = .next (demotionScan s)) ∧
  (∀ (s : State) (u : State), u = commitApply s Reg.TIER_WM_COMMIT → ∀ vs, s.inflight.find? (fun c => c.1 == Reg.TIER_WM_COMMIT) = some (Reg.TIER_WM_COMMIT, vs) → (vs.map (·.1)).Nodup → ∀ c v, (c, v) ∈ vs → u.rd c = v)

/-- For ports 0 and 1. An ESP_OWNER write of the value held changes nothing; of 0 it clears the port and gives back keys nothing needs; of a tenant that has keys it clears the port for it; of an ID no tenant has it is refused with OWNER_REFUSED. An overcurrent turns a supply that is on off, sets the trip, and does nothing to one that is off; a change of presence sets the strap and the supply follows. With the receiver off a word does nothing; with it on every word is counted, a locked port takes IDLE, EXT, PIXEL, TIME_HIGH and STATUS words with their effects, and an unlocked one discards them and starts its SYNC run again. An aligned SYNC word of a locked port changes only the count, a misaligned one loses lock; the sixteenth in a row of an unlocked port locks it. ESP_CLOCK_LOSS loses lock. ESP_OVERRUN_MARKER inserts the marker that is due. For a ring command that can start: ESP_MAP of an own port, group and keys stages the mapping in place of one not applied; ESP_I3C of 1 to 64 entries for an own port reads its list; WIN_CFG of a group nobody holds, in range and on free taps, enters it from the last boundary; for an own group it stages the change or release; WIN_RING sets the ring and its indices to 0. A NACK 1 ms after the first attempt fails the list at its entry, and before that the transfer is sent again; a transfer done takes the bytes of a private read and begins the next entry, or after the last ends the list DONE. ESP_SETTLE_END ends a settings gap whose time is over. An IBI is kept; a hot join is answered. WINDOW_BOUNDARY at or after the end of the window ends it and begins the next. WINDOW_FINALISE finalises a window whose lateness is over. -/
def Obligations.SensorPortCommands : Prop :=
  (∀ (p : Nat) (v : BitVec 16) (s : State), p < 2 → s.rdN (Reg.ESP_OWNER p) = v.toNat → exec (.espOwnerWrite p v) s = .next s) ∧
  (∀ (p b : Nat) (s : State), p < 2 → s.rdN (Reg.ESP_OWNER p) ≠ 0 → portOwner s p = some b → exec (.espOwnerWrite p 0) s = .next (dropKeys b (portClear p ((notePst s (Reg.ESP_OWNER p) (s.rd (Reg.ESP_OWNER p))).putN (Reg.ESP_OWNER p) 0)))) ∧
  (∀ (p slot : Nat) (v : BitVec 16) (s : State), p < 2 → s.rdN (Reg.ESP_OWNER p) = 0 → v ≠ 0 → s.slotOf v.toNat = some slot → keyLog s slot ≠ 0 → exec (.espOwnerWrite p v) s = .next (portClear p ((notePst s (Reg.ESP_OWNER p) (s.rd (Reg.ESP_OWNER p))).putN (Reg.ESP_OWNER p) v.toNat))) ∧
  (∀ (p : Nat) (v : BitVec 16) (s : State), p < 2 → v ≠ 0 → s.rdN (Reg.ESP_OWNER p) ≠ v.toNat → s.slotOf v.toNat = none → exec (.espOwnerWrite p v) s = .next (s.setBit (Reg.ESP_STATUS p) 3 true)) ∧
  (∀ (p : Nat) (s : State), p < 2 → s.bit (Reg.ESP_STATUS p) 0 = true → exec (.espOvercurrentTrip p) s = .next (camSupply p ((s.updPort p (fun x => { x with tripped := true })).setBit (Reg.ESP_STATUS p) 1 true))) ∧
  (∀ (p : Nat) (s : State), p < 2 → s.bit (Reg.ESP_STATUS p) 0 = false → exec (.espOvercurrentTrip p) s = .next s) ∧
  (∀ (p : Nat) (on : Bool) (s : State), p < 2 → exec (.camPresenceChange p on) s = .next (camSupply p (s.setBit Reg.LDG_STRAP (8 + p) on))) ∧
  (∀ (p : Nat) (v : BitVec 30) (a : Bool) (s : State), p < 2 → s.bit (Reg.ESP_CTRL p) 1 = false → exec (.espSyncWord p a) s = .next s ∧ exec (.espIdleWord p) s = .next s ∧ exec (.espExtWord p) s = .next s ∧ exec (.espPixelWord p v) s = .next s ∧ exec (.espTimeHighWord p v) s = .next s ∧ exec (.espStatusWord p v) s = .next s) ∧
  (∀ (p : Nat) (v : BitVec 30) (s u : State), p < 2 → s.bit (Reg.ESP_CTRL p) 1 = true → u = s.bump (Reg.ESP_WORDS p) → portLocked u p = false → exec (.espIdleWord p) s = .next (u.updPort p (fun x => { x with syncRun := 0 })) ∧ exec (.espExtWord p) s = .next (u.updPort p (fun x => { x with syncRun := 0 })) ∧ exec (.espPixelWord p v) s = .next (u.updPort p (fun x => { x with syncRun := 0 })) ∧ exec (.espTimeHighWord p v) s = .next (u.updPort p (fun x => { x with syncRun := 0 })) ∧ exec (.espStatusWord p v) s = .next (u.updPort p (fun x => { x with syncRun := 0 }))) ∧
  (∀ (p : Nat) (v : BitVec 30) (s u : State), p < 2 → s.bit (Reg.ESP_CTRL p) 1 = true → u = s.bump (Reg.ESP_WORDS p) → portLocked u p = true → exec (.espIdleWord p) s = .next u ∧ exec (.espExtWord p) s = .next (u.bump (Reg.ESP_EXT_WORDS p)) ∧ exec (.espPixelWord p v) s = .next (pixelWord p v.toNat u) ∧ exec (.espTimeHighWord p v) s = .next (((if v.toNat < u.rdN (Reg.ESP_SENSOR_TIME p) then u.bump (Reg.ESP_TIME_BACK p) else u).putN (Reg.ESP_SENSOR_TIME p) v.toNat).putN (Reg.ESP_SENSOR_TB p) (if v.toNat < u.rdN (Reg.ESP_SENSOR_TIME p) then u.bump (Reg.ESP_TIME_BACK p) else u).tb) ∧ exec (.espStatusWord p v) s = .next (if v.getLsbD 29 then (u.putN (Reg.ESP_SENSOR_STATUS p) v.toNat).setBit (Reg.ESP_STATUS p) 4 true else u.putN (Reg.ESP_SENSOR_STATUS p) v.toNat)) ∧
  (∀ (p : Nat) (a : Bool) (s u : State), p < 2 → s.bit (Reg.ESP_CTRL p) 1 = true → u = s.bump (Reg.ESP_WORDS p) → portLocked u p = true → exec (.espSyncWord p a) s = .next (if a then u else loseLock p u)) ∧
  (∀ (p : Nat) (a : Bool) (s u : State), p < 2 → s.bit (Reg.ESP_CTRL p) 1 = true → u = s.bump (Reg.ESP_WORDS p) → portLocked u p = false → (u.port p).syncRun < 15 → exec (.espSyncWord p a) s = .next (u.updPort p (fun x => { x with syncRun := (u.port p).syncRun + 1 }))) ∧
  (∀ (p : Nat) (a : Bool) (s u : State), p < 2 → s.bit (Reg.ESP_CTRL p) 1 = true → u = s.bump (Reg.ESP_WORDS p) → portLocked u p = false → 15 ≤ (u.port p).syncRun → exec (.espSyncWord p a) s = .next (putMarker p ((u.updPort p (fun x => { x with syncRun := 0, everLocked := true, above := if x.everLocked && x.above.isNone then some (u.tb, 0) else x.above })).setBit (Reg.ESP_STATUS p) 2 true))) ∧
  (∀ (p : Nat) (s : State), p < 2 → exec (.espClockLoss p) s = .next (loseLock p s)) ∧
  (∀ (p : Nat) (s : State), p < 2 → exec (.espOverrunMarker p) s = .next (putMarker p s)) ∧
  (∀ (p w slot : Nat) (s u : State) (m : PixMap), u = putMarker p (s.bump (Reg.ESP_PIX p)) → portOwner u p = some slot → (u.port p).map = some m → (u.port p).fifo.length < 65536 → (u.port p).settling = false → pixelWord p w s = match mapPixel m w with | .error .roi => u.bump (Reg.ESP_ROI_DROP p) | .error .pol => u.bump (Reg.ESP_POL_DROP p) | .ok kp => u.updPort p (fun x => { x with fifo := x.fifo ++ [{ word := evWord kp.1 kp.2 0 false true, ts := some (BitVec.ofNat 32 u.tb), slot := slot }] })) ∧
  (∀ (slot q : Nat) (r : CmdRec) (s : State) (m : PixMap), CanStart s slot q r → m = ({ sx := bits r.w18.toNat 4 4, sy := bits r.w18.toNat 8 4, pol := bits r.w18.toNat 12 2, group := bits r.w18.toNat 16 6, base := bits r.w18.toNat 32 20, x0 := bits r.w20.toNat 0 14, x1 := bits r.w20.toNat 16 14, y0 := bits r.w20.toNat 32 14, y1 := bits r.w20.toNat 48 14, marker := bits r.w28.toNat 0 20, settle := bits r.w28.toNat 32 16 } : PixMap) → holdsPort (fetched 0x38 slot q r s).2 (slotOfFlight (fetched 0x38 slot q r s).2 (fetched 0x38 slot q r s).1) (bits r.w18.toNat 0 1) = true → holdsGroup (fetched 0x38 slot q r s).2 (slotOfFlight (fetched 0x38 slot q r s).2 (fetched 0x38 slot q r s).1) m.group = true → m.x0 ≤ m.x1 ∧ m.y0 ≤ m.y1 ∧ m.sx ≤ 13 ∧ m.sy ≤ 13 ∧ m.settle ≤ 10000 → ownsKeys (fetched 0x38 slot q r s).2 (slotOfFlight (fetched 0x38 slot q r s).2 (fetched 0x38 slot q r s).1) m.base (m.top - m.base + 1) = true → ownsKeys (fetched 0x38 slot q r s).2 (slotOfFlight (fetched 0x38 slot q r s).2 (fetched 0x38 slot q r s).1) m.marker 1 = true → ((fetched 0x38 slot q r s).2.port (bits r.w18.toNat 0 1)).nextMap = none → exec (.espMap slot q r) s = .next (commitDue slot q ((fetched 0x38 slot q r s).2.updPort (bits r.w18.toNat 0 1) (fun x => { x with nextMap := some ((fetched 0x38 slot q r s).1, (fetched 0x38 slot q r s).2.tb, m) })))) ∧
  (∀ (slot q : Nat) (r : CmdRec) (s : State) (n : Named), CanStart s slot q r → 1 ≤ bits r.w18.toNat 8 7 ∧ bits r.w18.toNat 8 7 ≤ 64 → (checkHandle (fetched 0x39 slot q r s).2 (slotOfFlight (fetched 0x39 slot q r s).2 (fetched 0x39 slot q r s).1) r.w08 false 0 (8 * bits r.w18.toNat 8 7) 0xFFFF 0xFFFF).toOption = some n → holdsPort (fetched 0x39 slot q r s).2 (slotOfFlight (fetched 0x39 slot q r s).2 (fetched 0x39 slot q r s).1) (bits r.w18.toNat 0 1) = true → exec (.espI3c slot q r) s = .next (commitDue slot q (accessReady (fetched 0x39 slot q r s).1 (promoteFor (fetched 0x39 slot q r s).1 n.slot n.idx (mustPromote n.obj 0 (8 * bits r.w18.toNat 8 7) false) ((fetched 0x39 slot q r s).2.updFlight (fetched 0x39 slot q r s).1 (fun f => { f with args := [n.slot, n.idx, bits r.w18.toNat 0 1, bits r.w18.toNat 8 7, b2n (r.w18.getLsbD 1)] })))))) ∧
  (∀ (slot q : Nat) (r : CmdRec) (s : State) (c : GroupCfg), CanStart s slot q r → c = ⟨bits r.w18.toNat 32 12, bits r.w18.toNat 48 13, bits r.w20.toNat 0 24, bits r.w20.toNat 32 24, bits r.w28.toNat 0 10⟩ → mget (fetched 0x3A slot q r s).2.groups (bits r.w18.toNat 0 6) = none → r.w18.getLsbD 6 = false → c.first + c.count ≤ 4096 → 10 ≤ c.period ∧ c.period ≤ 10000000 ∧ c.phase < c.period ∧ c.late ≤ min 1000 (c.period / 2) → tapsTaken (fetched 0x3A slot q r s).2 (bits r.w18.toNat 0 6) c = false → exec (.winCfg slot q r) s = .next (commitDue slot q (finish (fetched 0x3A slot q r s).1 ⟨0, 0, 0⟩ 0 { (fetched 0x3A slot q r s).2 with groups := mput (fetched 0x3A slot q r s).2.groups (bits r.w18.toNat 0 6) { slot := (slotOfFlight (fetched 0x3A slot q r s).2 (fetched 0x3A slot q r s).1), cfg := c, cur := newBank c (lastBoundary c (fetched 0x3A slot q r s).2.tb) (settlingFor (fetched 0x3A slot q r s).2 (slotOfFlight (fetched 0x3A slot q r s).2 (fetched 0x3A slot q r s).1)) } }))) ∧
  (∀ (slot q : Nat) (r : CmdRec) (s : State) (x : Group), CanStart s slot q r → mget (fetched 0x3A slot q r s).2.groups (bits r.w18.toNat 0 6) = some x → r.w18.getLsbD 6 = true → x.slot = (slotOfFlight (fetched 0x3A slot q r s).2 (fetched 0x3A slot q r s).1) → exec (.winCfg slot q r) s = .next (commitDue slot q (finish (fetched 0x3A slot q r s).1 ⟨0, 0, 0⟩ 0 ((fetched 0x3A slot q r s).2.updGroup (bits r.w18.toNat 0 6) (fun x => { x with next := some none }))))) ∧
  (∀ (slot q : Nat) (r : CmdRec) (s : State), CanStart s slot q r → 6 ≤ bits r.w20.toNat 0 5 ∧ bits r.w20.toNat 0 5 ≤ 16 → exec (.winRing slot q r) s = .next (commitDue slot q (finish (fetched 0x3B slot q r s).1 ⟨0, 0, 0⟩ 0 ((((fetched 0x3B slot q r s).2.updTen (slotOfFlight (fetched 0x3B slot q r s).2 (fetched 0x3B slot q r s).1) (fun t => { t with winRing := some ({ base := r.w10.toNat, wb := r.w18.toNat, log := bits r.w20.toNat 0 5, vec := bits r.w20.toNat 8 6 } : EvRing) })).twPut (slotOfFlight (fetched 0x3B slot q r s).2 (fetched 0x3B slot q r s).1) Reg.TW_WIN_HEAD 0).twPut (slotOfFlight (fetched 0x3B slot q r s).2 (fetched 0x3B slot q r s).1) Reg.TW_WIN_TAIL 0)))) ∧
  (∀ (p : Nat) (s : State) (l : I3cList), p < 2 → (s.port p).run = some l → l.since + 1000 ≤ s.tb → exec (.i3cNackRetry p) s = .next (closeList p l ⟨0x44, 6, 1⟩ 0 (s.setFld (Reg.ESP_I3C_STATUS p) 1 6 l.idx))) ∧
  (∀ (p : Nat) (s : State) (l : I3cList), p < 2 → (s.port p).run = some l → s.tb < l.since + 1000 → exec (.i3cNackRetry p) s = .next (s.emit (.i3c p (l.entries[l.idx]?.getD 0)))) ∧
  (∀ (p : Nat) (w : Word) (s : State) (l m : I3cList), p < 2 → (s.port p).run = some l → m = { l with idx := l.idx + 1, data := l.data ++ (if bits (l.entries[l.idx]?.getD 0).toNat 0 4 = 1 then (leBytes w.toNat (bits (l.entries[l.idx]?.getD 0).toNat 24 3)).map (·.toNat) else []), since := s.tb } → m.idx < m.entries.length → exec (.i3cTransferDone p w) s = .next ((s.updPort p (fun x => { x with run := some m })).emit (.i3c p (m.entries[m.idx]?.getD 0)))) ∧
  (∀ (p : Nat) (w : Word) (s : State) (l m : I3cList), p < 2 → (s.port p).run = some l → m = { l with idx := l.idx + 1, data := l.data ++ (if bits (l.entries[l.idx]?.getD 0).toNat 0 4 = 1 then (leBytes w.toNat (bits (l.entries[l.idx]?.getD 0).toNat 24 3)).map (·.toNat) else []), since := s.tb } → m.entries.length ≤ m.idx → exec (.i3cTransferDone p w) s = .next (closeList p m ⟨0, 0, 0⟩ (if m.immediate && !m.data.isEmpty then (m.data.take 8).foldr (fun b n => b + 256 * n) 0 else m.epoch) s)) ∧
  (∀ (p t : Nat) (s : State), p < 2 → (s.port p).settleEnd = some t → t ≤ s.tb → exec (.espSettleEnd p) s = .next (s.updPort p (fun x => { x with settling := false, settleEnd := none }))) ∧
  (∀ (p : Nat) (s : State), p < 2 → (∀ t, (s.port p).settleEnd = some t → s.tb < t) → exec (.espSettleEnd p) s = .next s) ∧
  (∀ (p : Nat) (w : Word) (s : State), p < 2 → exec (.espIbi p w) s = .next (s.putN (Reg.ESP_IBI p) w.toNat)) ∧
  (∀ (p : Nat) (s : State), p < 2 → exec (.espHotJoin p) s = .next (s.emit (.i3c p 0x70002))) ∧
  (∀ (g : Nat) (s : State), g < 64 → exec (.windowBoundary g) s = .next (groupBoundary g s)) ∧
  (∀ (g : Nat) (s : State) (x : Group), mget s.groups g = some x → s.tb < x.cur.start + x.cur.len → exec (.windowBoundary g) s = if g < 64 then .next s else .fault .noSuchUnit) ∧
  (∀ (g : Nat) (s : State) (x : Group) (b : Bank), g < 64 → mget s.groups g = some x → x.closing = some b → b.start + b.len + b.cfg.late ≤ s.tb → exec (.windowFinalise g) s = .next (finalise g s)) ∧
  (∀ (g : Nat) (s : State) (x : Group), g < 64 → mget s.groups g = some x → (∀ b, x.closing = some b → s.tb < b.start + b.len + b.cfg.late) → exec (.windowFinalise g) s = .next s)

/-- While firmware is up and ready: GET_VERSION answers version 1.2 and starts the exchange again; GET_CAPABILITIES and NEGOTIATE_ALGORITHMS are answered once the version is agreed; GET_DIGESTS, GET_CERTIFICATE, CHALLENGE, GET_MEASUREMENTS and KEY_EXCHANGE once algorithms are, with ERROR 1 for an empty certificate slot; FINISH after a key exchange opens the session when it verifies; KEY_UPDATE, HEARTBEAT, END_SESSION and KEY_PROG in a session. Out of order each is answered ERROR 4 and nothing else changes. While firmware is down a request is held, and counted in HIF_DOE_BUSY. FW_READY_SET outside RUN, STARTING and QUIESCE does nothing. -/
def Obligations.AttestationAnswers : Prop :=
  (∀ (s : State), s.fwDown = false → s.rdN Reg.FW_READY ≠ 0 → exec (.spdmGetVersion) s = .next (doeAnswer 0x04 [0x1200] { s with hif := { s.hif with verOk := true, algOk := false, exchanging := false, session := false } })) ∧
  (∀ (s : State), s.fwDown = false → s.rdN Reg.FW_READY ≠ 0 → s.hif.verOk = true → exec (.spdmGetCapabilities) s = .next (doeAnswer 0x61 [0x62D6] s)) ∧
  (∀ (a h d e : Nat) (s : State), s.fwDown = false → s.rdN Reg.FW_READY ≠ 0 → s.hif.verOk = true → exec (.spdmNegotiateAlgorithms a h d e) s = .next (doeAnswer 0x63 [a &&& 0x80, h &&& 2, d &&& 0x10, e &&& 2] { s with hif := { s.hif with algOk := true } })) ∧
  (∀ (s : State), s.fwDown = false → s.rdN Reg.FW_READY ≠ 0 → s.hif.algOk = true → exec (.spdmGetDigests) s = .next (doeAnswer 0x01 (sumOf ((List.range 2).filter (fun n => (certChain s n).isSome)) (fun n => 2 ^ n) :: ((List.range 2).filter (fun n => (certChain s n).isSome)).map (fun n => digestOf ((certChain s n).getD []))) s)) ∧
  (∀ (slot off len : Nat) (c : List Nat) (s : State), s.fwDown = false → s.rdN Reg.FW_READY ≠ 0 → s.hif.algOk = true → certChain s slot = some c → exec (.spdmGetCertificate slot off len) s = .next (doeAnswer 0x02 (slot :: chainPart c off len) s)) ∧
  (∀ (slot nonce : Nat) (c : List Nat) (s : State), s.fwDown = false → s.rdN Reg.FW_READY ≠ 0 → s.hif.algOk = true → certChain s slot = some c → exec (.spdmChallenge slot nonce) s = .next (doeAnswer 0x03 ([slot, digestOf c, s.draw.1] ++ [Config.signature slot (nonce :: [slot, digestOf c, s.draw.1])]) s.draw.2)) ∧
  (∀ (slot off len nonce ex : Nat) (s : State), s.fwDown = false → s.rdN Reg.FW_READY ≠ 0 → s.hif.algOk = true → certChain s slot = none → exec (.spdmGetCertificate slot off len) s = .next (doeError 1 s) ∧ exec (.spdmChallenge slot nonce) s = .next (doeError 1 s) ∧ exec (.spdmKeyExchange slot ex) s = .next (doeError 1 s)) ∧
  (∀ (sg : Bool) (slot nonce : Nat) (s : State), s.fwDown = false → s.rdN Reg.FW_READY ≠ 0 → s.hif.algOk = true → exec (.spdmGetMeasurements 0 sg slot nonce) s = .next (doeAnswer 0x60 [8] s)) ∧
  (∀ (i slot nonce : Nat) (s : State), s.fwDown = false → s.rdN Reg.FW_READY ≠ 0 → s.hif.algOk = true → 1 ≤ i ∧ i ≤ 8 → exec (.spdmGetMeasurements i false slot nonce) s = .next (doeAnswer 0x60 (1 :: i :: measurement s i) s)) ∧
  (∀ (slot ex : Nat) (c : List Nat) (s : State), s.fwDown = false → s.rdN Reg.FW_READY ≠ 0 → s.hif.algOk = true → certChain s slot = some c → ∃ t, exec (.spdmKeyExchange slot ex) s = .next (doeAnswer 0x64 ([s.draw.1 % 65536, s.draw.2.draw.1] ++ [Config.signature slot (ex :: [s.draw.1 % 65536, s.draw.2.draw.1])]) t) ∧ t = { s.draw.2.draw.2 with hif := { s.hif with exchanging := true } }) ∧
  (∀ (v : Bool) (s : State), s.fwDown = false → s.rdN Reg.FW_READY ≠ 0 → s.hif.exchanging = true → exec (.spdmFinish v) s = .next (if v then doeAnswer 0x65 [] { s with hif := { s.hif with exchanging := false, session := true, keyUpdates := 0 } } else doeError 6 { s with hif := { s.hif with exchanging := false } })) ∧
  (∀ (op tag : Nat) (s : State), s.fwDown = false → s.rdN Reg.FW_READY ≠ 0 → s.hif.session = true → 1 ≤ op ∧ op ≤ 3 → exec (.spdmKeyUpdate op tag) s = .next (doeAnswer 0x69 [op, tag] { s with hif := { s.hif with keyUpdates := if op = 3 then s.hif.keyUpdates else s.hif.keyUpdates + 1 } })) ∧
  (∀ (s : State), s.fwDown = false → s.rdN Reg.FW_READY ≠ 0 → s.hif.session = true → exec (.spdmHeartbeat) s = .next (doeAnswer 0x68 [] s)) ∧
  (∀ (s : State), s.fwDown = false → s.rdN Reg.FW_READY ≠ 0 → s.hif.session = true → exec (.spdmEndSession) s = .next (doeAnswer 0x6C [] { s with hif := { s.hif with session := false } })) ∧
  (∀ (st ks : Nat) (k : BitVec 256) (s : State), s.fwDown = false → s.rdN Reg.FW_READY ≠ 0 → s.hif.session = true → st < 2 ∧ ks < 2 → exec (.ideKmKeyProg st ks k) s = .next (doeAnswer 0x7E [3, 0] (ideProgram st ks k.toNat s))) ∧
  (∀ (i : Instr) (s : State), s.fwDown = false → s.rdN Reg.FW_READY ≠ 0 → s.hif.verOk = false → s.hif.algOk = false → s.hif.exchanging = false → s.hif.session = false → (i = .spdmGetCapabilities ∨ (∃ a b c d, i = .spdmNegotiateAlgorithms a b c d) ∨ i = .spdmGetDigests ∨ (∃ a b c, i = .spdmGetCertificate a b c) ∨ (∃ a b, i = .spdmChallenge a b) ∨ (∃ a b c d, i = .spdmGetMeasurements a b c d) ∨ (∃ a b, i = .spdmKeyExchange a b) ∨ (∃ a, i = .spdmFinish a) ∨ (∃ a b, i = .spdmKeyUpdate a b) ∨ i = .spdmHeartbeat ∨ i = .spdmEndSession ∨ (∃ a b c, i = .ideKmKeyProg a b c)) → exec i s = .next (doeError 4 s)) ∧
  (∀ (code : Nat) (fields : List Nat) (s : State), s.fwDown = true → ∃ u, doeRequest code fields s = { u with hif := { u.hif with held := u.hif.held ++ [⟨code, fields⟩] } } ∧ u = s.bump Reg.HIF_DOE_BUSY) ∧
  (∀ (s : State), (s.rdN Reg.PWR_STATE ≤ 1 ∨ s.rdN Reg.PWR_STATE = 4) → exec (.fwReadySet) s = .next s) ∧
  (∀ (s : State), s.rdN Reg.PWR_STATE = 3 → s.hif.held = [] → s.adm.waiting = [] → ∃ t, exec (.fwReadySet) s = .next t ∧ t.fwDown = false ∧ t.rdN Reg.FW_READY = 1 ∧ t.regs = (s.putN Reg.FW_READY 1).regs)

/-- An operation of FW_UPD_CMD while an operation is in progress, FW_READY is 0 or another party holds the session is refused REFUSED_BUSY: it changes only the result, the count, the trace and the notice. Otherwise an operation whose precondition fails is refused with the DETAIL of its case: BEGIN in an open session 1 or with a trial marker 4; WRITE, END and ABORT without a session 1; VERIFY of a slot not COMPLETE 1; ACTIVATE of a slot not VERIFIED 1; CONFIRM with no completed trial 5; REVERT with no marker 1. Otherwise BEGIN opens the session with the inactive slot INCOMPLETE; WRITE starts the read of its bytes; END closes it COMPLETE; VERIFY marks the slot VERIFIED or FAILED by its check; ACTIVATE sets the marker and TRIAL; CONFIRM swaps the confirmed slot; ABORT closes the session; REVERT spends the marker. A HOST session idle 60 s is aborted. A trial completed FW_AUTO_CONFIRM_S ago confirms itself. -/
def Obligations.UpdateOperations : Prop :=
  (∀ (p n : Bool) (s : State), updBusy (cmdParty s) s = true → exec (.updBegin) s = .next (updRefuse 1 ⟨0x24, 0, 0⟩ s) ∧ exec (.updWrite p) s = .next (updRefuse 2 ⟨0x24, 0, 0⟩ s) ∧ exec (.updEnd) s = .next (updRefuse 3 ⟨0x24, 0, 0⟩ s) ∧ exec (.updVerify p) s = .next (updRefuse 4 ⟨0x24, 0, 0⟩ s) ∧ exec (.updActivate n) s = .next (updRefuse 5 ⟨0x24, 0, 0⟩ s) ∧ exec (.updConfirm) s = .next (updRefuse 6 ⟨0x24, 0, 0⟩ s) ∧ exec (.updAbort) s = .next (updRefuse 7 ⟨0x24, 0, 0⟩ s) ∧ exec (.updRevert) s = .next (updRefuse 8 ⟨0x24, 0, 0⟩ s)) ∧
  (∀ (s : State), updBusy (cmdParty s) s = false → updOwner s = 0 → s.fw.validMarker = none → exec (.updBegin) s = .next (updEnd 1 ⟨0, 0, 0⟩ (setOwner (cmdParty s) ((markInactive (fun i => { i with st := 1 }) s).putN Reg.FW_UPD_WRITTEN 0)))) ∧
  (∀ (s : State), updBusy (cmdParty s) s = false → updOwner s ≠ 0 → exec (.updBegin) s = .next (updRefuse 1 ⟨0x22, 0, 1⟩ s)) ∧
  (∀ (p : Bool) (s : State), updBusy (cmdParty s) s = false → updOwner s = 0 → exec (.updWrite p) s = .next (updRefuse 2 ⟨0x22, 0, 1⟩ s) ∧ exec (.updEnd) s = .next (updRefuse 3 ⟨0x22, 0, 1⟩ s) ∧ exec (.updAbort) s = .next (updRefuse 7 ⟨0x22, 0, 1⟩ s)) ∧
  (∀ (p : Bool) (s : State), updBusy (cmdParty s) s = false → updOwner s ≠ 0 → s.rdN Reg.FW_UPD_OFS = s.rdN Reg.FW_UPD_WRITTEN → 4096 ≤ s.rdN Reg.FW_UPD_LEN ∧ s.rdN Reg.FW_UPD_LEN ≤ 1048576 ∧ s.rdN Reg.FW_UPD_LEN % 4096 = 0 ∧ s.rdN Reg.FW_UPD_OFS + s.rdN Reg.FW_UPD_LEN ≤ 25165824 → exec (.updWrite p) s = .next (readBlock { s.setBit Reg.FW_UPD_STATUS 0 true with fw := { s.fw with opAt := s.rdN Reg.FW_UPD_SRC, opLeft := s.rdN Reg.FW_UPD_LEN, programOk := p } })) ∧
  (∀ (s : State) (m : Memory), updBusy (cmdParty s) s = false → updOwner s ≠ 0 → m = s.fw.image (inactiveSlot s) → imageSize m ≤ 25161728 → s.rdN Reg.FW_UPD_WRITTEN = imageSize m + 4096 → exec (.updEnd) s = .next (updEnd 3 ⟨0, 0, 0⟩ (setOwner 0 (markInactive (fun i => { i with st := 2, version := readLE m 8 4, epoch := imageEpoch m, code := 0 }) s)))) ∧
  (∀ (ok : Bool) (s u : State) (c : Nat), updBusy (cmdParty s) s = false → (inactiveInfo s).st = 2 → c = checkImage s (s.fw.image (inactiveSlot s)) ok → u = (if c = 0 then s else s.bump Reg.FW_CHECK_FAIL) → exec (.updVerify ok) s = .next (updEnd 4 ⟨0, 0, 0⟩ (markInactive (fun i => { i with st := if c = 0 then 3 else 6, code := c }) u))) ∧
  (∀ (ok : Bool) (s : State), updBusy (cmdParty s) s = false → (inactiveInfo s).st ≠ 2 → exec (.updVerify ok) s = .next (updRefuse 4 ⟨0x22, 0, 1⟩ s)) ∧
  (∀ (now : Bool) (s u : State), updBusy (cmdParty s) s = false → (inactiveInfo s).st = 3 → s.fw.validMarker = none → s.fw.fuse ≤ imageEpoch (s.fw.image (inactiveSlot s)) → u = updEnd 5 ⟨0, 0, 0⟩ (markInactive (fun i => { i with st := 4 }) (setMarker (some (inactiveSlot s, 3)) s)) → exec (.updActivate now) s = .next (if now && inRun u then beginQuiesce 4 u else u)) ∧
  (∀ (now : Bool) (s : State), updBusy (cmdParty s) s = false → (inactiveInfo s).st ≠ 3 → exec (.updActivate now) s = .next (updRefuse 5 ⟨0x22, 0, 1⟩ s)) ∧
  (∀ (s : State), updBusy (cmdParty s) s = false → exec (.updConfirm) s = .next (if mayConfirm s then confirmNow s else updRefuse 6 ⟨0x22, 0, 5⟩ s)) ∧
  (∀ (s : State), updBusy (cmdParty s) s = false → updOwner s ≠ 0 → exec (.updAbort) s = .next (updEnd 7 ⟨0, 0, 0⟩ (setOwner 0 s))) ∧
  (∀ (s : State) (n c : Nat), updBusy (cmdParty s) s = false → s.fw.validMarker = some (n, c) → exec (.updRevert) s = .next (updEnd 8 ⟨0, 0, 0⟩ (setMarker (some (n, 0)) s))) ∧
  (∀ (s : State), updBusy (cmdParty s) s = false → s.fw.validMarker = none → exec (.updRevert) s = .next (updRefuse 8 ⟨0x22, 0, 1⟩ s)) ∧
  (∀ (s : State), updOwner s = 1 → s.bit Reg.FW_UPD_STATUS 0 = false → s.fw.lastOp + 60000000 ≤ s.tb → exec (.updSessionIdleTimeout) s = .next ((updEnd 7 ⟨0, 0, 0⟩ (setOwner 0 s)).logRec 2 0x0E02)) ∧
  (∀ (s : State), (updOwner s ≠ 1 ∨ s.bit Reg.FW_UPD_STATUS 0 = true ∨ s.tb < s.fw.lastOp + 60000000) → exec (.updSessionIdleTimeout) s = .next s) ∧
  (∀ (s : State) (t : Nat), s.fw.trialDone = some t → s.rdN Reg.FW_AUTO_CONFIRM_S ≠ 0 → mayConfirm s = true → s.fwDown = false → t + 1000000 * s.rdN Reg.FW_AUTO_CONFIRM_S ≤ s.tb → exec (.autoConfirmExpire) s = .next (confirmNow s)) ∧
  (∀ (s : State), s.fw.trialDone = none → exec (.autoConfirmExpire) s = .next s)

/-- A trace selection keeps the index modulo 32,768 and shows the newest record of that number, or zeros where there is none. FW_CERT_COMMIT with a key other than 0xCE71 does nothing; with it, a staged chain whose leaf key is the alias key of the running digest is kept and shown, any other sets the mismatch bit. A watchdog in RUN, STARTING and QUIESCE is the restart of firmware and in another state nothing: FW_READY is 0, the session closes, the restart is counted. WATCHDOG_READY_TIMEOUT in RUN, 2 s after the restart and still down, begins a warm start, and otherwise does nothing. -/
def Obligations.FirmwareWatchdogCertificatesAndTrace : Prop :=
  (∀ (i : Nat) (s : State), ∃ t, exec (.fwTraceSelWrite i) s = .next t ∧ t.rdN Reg.FW_TRACE_SEL = i % 32768 ∧ (∀ k, k < 8 → t.rdN (Reg.FW_TRACE_DATA k) = (match s.trace.find? (fun (r : TraceRec) => r.seq % 32768 == i % 32768) with | some r => [r.seq, r.id + 256 * r.source + 65536 * r.unit, r.tb % 2 ^ 32, r.tb / 2 ^ 32, r.args.getD 0 0 % 2 ^ 32, r.args.getD 1 0 % 2 ^ 32, r.args.getD 2 0 % 2 ^ 32, r.args.getD 3 0 % 2 ^ 32] | none => List.replicate 8 0).getD k 0 % 2 ^ 64)) ∧
  (∀ (k : Nat) (s : State), k ≠ 0xCE71 → exec (.fwCertCommit k) s = .next s) ∧
  (∀ (s : State), exec (.fwCertCommit 0xCE71) s = .next (if Config.leafKey (stagedChain s) = Config.aliasKey (runningDigest s) then ({ s with fw := { s.fw with chain := stagedChain s } } : State).setBit Reg.FW_CERT_STATUS 0 true else s.setBit Reg.FW_CERT_STATUS 1 true)) ∧
  (∀ (s : State), (s.rdN Reg.PWR_STATE = 2 ∨ s.rdN Reg.PWR_STATE = 3 ∨ s.rdN Reg.PWR_STATE = 5) → exec (.watchdogExpire) s = .next (watchdog s)) ∧
  (∀ (s : State), (s.rdN Reg.PWR_STATE < 2 ∨ s.rdN Reg.PWR_STATE = 4 ∨ 5 < s.rdN Reg.PWR_STATE) → exec (.watchdogExpire) s = .next s) ∧
  (∀ (s : State), s.bit Reg.FW_UPD_STATUS 0 = false → (s.fw.restarts.filter (fun t => decide (s.tb ≤ t + 60000000))).length < 3 → (watchdog s).fwDown = true ∧ (watchdog s).fw.restarts.head? = some s.tb) ∧
  (∀ (s : State) (t : Nat) (r : List Nat), s.fwDown = true → s.fw.restarts = t :: r → t + 2000000 ≤ s.tb → inRun s = true → exec (.watchdogReadyTimeout) s = .next (beginQuiesce 5 s)) ∧
  (∀ (s : State), (s.fwDown = false ∨ s.fw.restarts = [] ∨ inRun s = false) → exec (.watchdogReadyTimeout) s = .next s)

/-- A corrected error of a retired pseudo-channel only counts; otherwise it is counted and recorded, and with 8 of a row in the last hour the row is repaired, or the pseudo-channel retired where no spare is left. The end of a repair under way counts it, uses a spare and records it in the ledger, a fifth in 24 h retires the pseudo-channel; of another row it does nothing. An uncorrected error poisons the page and counts; the second in 24 h retires the pseudo-channel. A lane of a fitted port with more than 212,500 corrected symbols in a tenth second in a row is retired; of a port not fitted or a retired lane nothing changes. A failed retrain is counted, recorded and starts the port again. A channel operation younger than 20 ms, or of a move that does not touch the flash, is left; older, the move fails and the die is counted. -/
def Obligations.MemoryAndLaneFaults : Prop :=
  (∀ (p row : Nat) (s : State), p < 256 → s.flt.retired.contains (0, p) = true → exec (.hbmCorrectedError p row) s = .next ((s.bump Reg.FLT_HBM_CE).bump Reg.FLT_UNIT_FAULTS)) ∧
  (∀ (p row : Nat) (s u : State), p < 256 → s.flt.retired.contains (0, p) = false → u = { ((s.bump Reg.FLT_HBM_CE).bump Reg.FLT_UNIT_FAULTS) with flt := { s.flt with corrections := (p, row, s.tb) :: s.flt.corrections.filter (fun c => within s hour c.2.2) } } → exec (.hbmCorrectedError p row) s = .next (if 8 ≤ correctedIn u p row then needRepair p row u else u)) ∧
  (∀ (p row : Nat) (s : State), s.flt.repairing.contains (p, row) = false → needRepair p row s = if sparesLeft s p = 0 then retire 0 p 1 [row, correctedIn s p row, repairsIn s p, sparesLeft s p, uncorrectedIn s p] s else { s with flt := { s.flt with repairing := s.flt.repairing ++ [(p, row)] } }) ∧
  (∀ (p row : Nat) (s : State), p < 256 → s.flt.repairing.contains (p, row) = false → exec (.rowRepairComplete p row) s = .next s) ∧
  (∀ (p row : Nat) (s : State), p < 256 → s.flt.repairing.contains (p, row) = true → ∃ u ev, exec (.rowRepairComplete p row) s = .next (if 5 ≤ repairsIn u p then retire 0 p 2 ev u else u) ∧ u.flt.repairing = s.flt.repairing.filter (· != (p, row)) ∧ u.flt.repaired = (p, row, s.tb) :: s.flt.repaired ∧ mgetD u.flt.sparesUsed 0 p = mgetD s.flt.sparesUsed 0 p + 1) ∧
  (∀ (p row slot obj page : Nat) (s u : State), p < 256 → u = poisonPage slot obj page (noteFault 0 p (s.bump Reg.FLT_HBM_UE)) → u.flt.retired.contains (0, p) = true → exec (.hbmUncorrectedError p row slot obj page) s = .next u) ∧
  (∀ (p row slot obj page : Nat) (s u v : State), p < 256 → u = poisonPage slot obj page (noteFault 0 p (s.bump Reg.FLT_HBM_UE)) → u.flt.retired.contains (0, p) = false → v = { u with flt := { u.flt with uncorrected := (p, u.tb) :: u.flt.uncorrected } } → exec (.hbmUncorrectedError p row slot obj page) s = .next (if 2 ≤ uncorrectedIn v p then retire 0 p 3 (hbmEvidence v p row) v else if 0 < sparesLeft v p then needRepair p row v else v)) ∧
  (∀ (l n : Nat) (s : State), l < 144 → (s.fitted (l / 8) = false ∨ s.flt.retired.contains (1, l) = true) → exec (.laneSerInterval l n) s = .next s) ∧
  (∀ (l n : Nat) (s u : State), l < 144 → s.fitted (l / 8) = true → s.flt.retired.contains (1, l) = false → u = s.bumpBy (Reg.LNK_FEC_CORR (l / 8)) n → ∃ v, exec (.laneSerInterval l n) s = .next (if 212500 < n ∧ 10 ≤ mgetD s.flt.laneBad 0 l + 1 then retireLane l 1 v else v) ∧ v = { u with flt := { u.flt with laneWorst := mput u.flt.laneWorst l (max n (mgetD u.flt.laneWorst 0 l)), laneBad := if 212500 < n then mput u.flt.laneBad l (mgetD u.flt.laneBad 0 l + 1) else mdel u.flt.laneBad l } }) ∧
  (∀ (p : Nat) (a b : BitVec 8) (s : State), p < 18 → s.fitted p = true → (s.portState p = 2 ∨ s.portState p = 6) → ∃ u, u = leavePort p (restPort ((s.bump (Reg.LNK_RETRAIN_FAIL p)).putN (Reg.LNK_LANE_DIAG p) (a.toNat + 256 * b.toNat)) p) ((s.bump (Reg.LNK_RETRAIN_FAIL p)).putN (Reg.LNK_LANE_DIAG p) (a.toNat + 256 * b.toNat)) ∧ exec (.portRetrainTimeout p a b) s = .next ((List.range 8).foldl (fun s k => (fun s => if 2 ≤ (if (a ||| b).toNat.testBit k then mgetD s.flt.laneNamed 0 (8 * p + k) else 0) then retireLane (8 * p + k) 2 s else s) { s with flt := { s.flt with laneNamed := if (a ||| b).toNat.testBit k then mput s.flt.laneNamed (8 * p + k) (mgetD s.flt.laneNamed 0 (8 * p + k) + 1) else mdel s.flt.laneNamed (8 * p + k) } }) u)) ∧
  (∀ (id : Nat) (s : State) (m : Move), s.move id = some m → ((m.src ≠ 2 ∧ m.dst ≠ 2) ∨ s.tb < m.since + 20000) → exec (.flashOpTimeout id) s = .next s) ∧
  (∀ (id : Nat) (s : State) (m : Move), s.move id = some m → (m.src = 2 ∨ m.dst = 2) → m.since + 20000 ≤ s.tb → exec (.flashOpTimeout id) s = .next (flashTimeout (dieOf s m.slot m.obj m.page) (failMove m ⟨0x44, 2, (s.tb - m.since) / 1000⟩ s)))

/-- A unit fault resets, quarantines or retires by its type: a core, cluster or engine through its three faults, a Terrace and a Pergola die through their two, an Orangery die by its block, with the page poisoned where it is lost. A hub fault of the management core is the watchdog; of another source it ends the operation in progress and is recorded. A targeted test of a unit not quarantined does nothing. The ledger program is not begun with an empty queue, after a failure or while the port waits; a success programs the head and tells it, a failure sets the bit, and 10 s later it is tried again. A slice of the in-service test begins on an idle unit, and its end is counted. A patrol read with scrub off does nothing. A lane eye below half counts and asks for a retrain. The selections of a unit and of a ledger record show what is there. -/
def Obligations.UnitFaultsTestsAndLedger : Prop :=
  (∀ (ty i blk : Nat) (lost : Bool) (slot obj page : Nat) (s : State), 3 ≤ ty ∧ ty ≤ 5 ∧ i < fltCount ty → exec (.unitFault ty i blk lost slot obj page) s = .next (coreFault ty i s)) ∧
  (∀ (ty i : Nat) (s u : State), s.flt.retired.contains (ty, i) = false → u = noteFault ty i s → coreFault ty i s = if 3 ≤ (faultsOf u ty i).length then fillQuarantine ty (retire ty i 2 (unitEvidence u ty i 0xFFFF) u) else if (faultsOf u ty i).length = 2 then quarantine ty i (resetUnit (resetType ty) i u) else resetUnit (resetType ty) i u) ∧
  (∀ (i blk : Nat) (lost : Bool) (slot obj page : Nat) (s : State), i < fltCount 6 → exec (.unitFault 6 i blk lost slot obj page) s = .next (blockFault i blk lost (if lost then poisonPage slot obj page s else s))) ∧
  (∀ (i blk : Nat) (lost : Bool) (slot obj page : Nat) (s : State), i < 2 → exec (.unitFault 11 i blk lost slot obj page) s = .next (terraceFault i s)) ∧
  (∀ (i blk : Nat) (lost : Bool) (slot obj page : Nat) (s : State), i < 3 → exec (.unitFault 12 i blk lost slot obj page) s = .next (if s.fitted (6 * i) then pergolaFault i s else s)) ∧
  (∀ (ty i : Nat) (ok : Bool) (s : State), 3 ≤ ty ∧ ty ≤ 5 ∧ i < fltCount ty → exec (.targetedTestComplete ty i ok) s = .next (testEnd ty i ok s)) ∧
  (∀ (ty i : Nat) (ok : Bool) (s : State), s.flt.quarantined.contains (ty, i) = false → testEnd ty i ok s = s) ∧
  (∀ (f c p : Option Nat) (s : State), exec (.hubDieFault 0xE f c p) s = .next (watchdog s)) ∧
  (∀ (src : Nat) (s : State), src < 16 → src ≠ 0xE → exec (.hubDieFault src none none none) s = .next (hubFault src ⟨0x40, blockRes src, 0⟩ s)) ∧
  (∀ (src f : Nat) (s : State), src < 16 → src ≠ 0xE → exec (.hubDieFault src (some f) none none) s = .next (hubFault src ⟨0x40, blockRes src, 0⟩ (finish f ⟨0x40, blockRes src, 0⟩ 0 s))) ∧
  (∀ (ok : Bool) (s : State), (s.flt.queue = [] ∨ s.flt.ldgFailAt.isSome = true ∨ ledgerWaits s = true) → exec (.ledgerProgramComplete ok) s = .next s) ∧
  (∀ (s : State), s.flt.queue ≠ [] → s.flt.ldgFailAt = none → ledgerWaits s = false → exec (.ledgerProgramComplete true) s = .next (recordTold ((programHead s).setBit Reg.FLT_STATUS 1 false)) ∧ exec (.ledgerProgramComplete false) s = .next { (s.setBit Reg.FLT_STATUS 1 true) with flt := { s.flt with ldgFailAt := some s.tb } }) ∧
  (∀ (s : State) (t : Nat), s.flt.ldgFailAt = some t → exec (.ledgerRetryTick) s = .next (if t + 10000000 ≤ s.tb then { s with flt := { s.flt with ldgFailAt := none } } else s)) ∧
  (∀ (ty i : Nat) (s : State), 3 ≤ ty ∧ ty ≤ 5 ∧ i < fltCount ty → s.flt.retired.contains (ty, i) = false → s.flt.quarantined.contains (ty, i) = false → mget s.flt.slices (testKey ty i) = none → unitIdle s ty i = true → s.bit Reg.IST_CTRL 0 = true → exec (.istSliceStart ty i false) s = .next { s with flt := { s.flt with slices := mput s.flt.slices (testKey ty i) s.tb } }) ∧
  (∀ (ty i : Nat) (s : State), 3 ≤ ty ∧ ty ≤ 5 ∧ i < fltCount ty → (unitIdle s ty i = false ∨ s.bit Reg.IST_CTRL 0 = false) → exec (.istSliceStart ty i false) s = .next s) ∧
  (∀ (ty i : Nat) (f : Bool) (s u : State), 3 ≤ ty ∧ ty ≤ 5 ∧ i < fltCount ty → u = sliceEnd ty i f s → exec (.istSliceEnd ty i f) s = .next (u.putN Reg.IST_COV_AGE_S (coverAge u))) ∧
  (∀ (c : Option (Nat × Nat)) (s : State), s.bit Reg.IST_CTRL 0 = false → exec (.patrolScrubRead c) s = .next s) ∧
  (∀ (p row : Nat) (s : State), s.bit Reg.IST_CTRL 0 = true → p < 256 → exec (.patrolScrubRead none) s = .next (scrubStep s) ∧ exec (.patrolScrubRead (some (p, row))) s = .next (hbmCorrected p row (scrubStep s))) ∧
  (∀ (l m t : Nat) (s u : State), l < 144 → s.fitted (l / 8) = true → s.flt.retired.contains (1, l) = false → 2 * m < t → u = s.bump Reg.IST_LANE_MARGIN → exec (.laneEyeCheck l m t) s = .next (retrainWeak { u with flt := { u.flt with weak := if u.flt.weak.contains (l / 8) then u.flt.weak else u.flt.weak ++ [l / 8] } })) ∧
  (∀ (l m t : Nat) (s : State), l < 144 → t ≤ 2 * m → exec (.laneEyeCheck l m t) s = .next s) ∧
  (∀ (ty i : Nat) (s : State), (11 ≤ ty ∨ fltCount ty ≤ i) → exec (.fltUnitSelWrite ty i) s = .next ((s.putN Reg.FLT_UNIT_SEL (ty % 16 + 16 * (i % 1024))).putN Reg.FLT_UNIT_DATA 0)) ∧
  (∀ (ty i : Nat) (s u : State), 1 ≤ ty ∧ ty < 11 → i < fltCount ty → u = s.putN Reg.FLT_UNIT_SEL (ty % 16 + 16 * (i % 1024)) → exec (.fltUnitSelWrite ty i) s = .next (u.putN Reg.FLT_UNIT_DATA ((if s.flt.retired.contains (ty, i) then 2 else if s.flt.quarantined.contains (ty, i) then 1 else 0) + 4 + 256 * min 255 (faultsOf s ty i).length))) ∧
  (∀ (i : Nat) (s : State) (r : LedgerRec), s.flt.nor.find? (fun r => r.index == i) = some r → ∃ t, exec (.fltLdgSelWrite i) s = .next t ∧ t.rdN Reg.FLT_LDG_STATUS = (1 + 2 * s.flt.nor.length) % 2 ^ 64 ∧ t.flt = s.flt) ∧
  (∀ (i : Nat) (s : State), s.flt.nor.find? (fun r => r.index == i) = none → ∃ t, exec (.fltLdgSelWrite i) s = .next t ∧ t.rdN Reg.FLT_LDG_STATUS = 0 ∧ (∀ k, k < 16 → t.rdN (Reg.FLT_LDG_DATA k) = 0))

/-- LAUNCH_START of a launch without a step starts it on free clusters of its group size, and with too few asks for preemption; of one started already, or of none, it does nothing. LAUNCH_END of a started launch whose clusters have all ended closes it, and otherwise does nothing. A wait that has reached its limit faults the cluster with the resource of what it waits for; an earlier one, and a cluster that waits for nothing, is left. TIME_LIMIT_EXPIRE records a fault of no rank for a launch over its limit, and does nothing earlier. TILE_MOVE_COMPLETE completes the move. KV_PAGE_DELIVERED of a page not issued, or delivered already, does nothing. -/
def Obligations.LaunchEvents : Prop :=
  (∀ (id y : Nat) (s : State), y ≤ 2 → s.lch id = none → exec (.launchStart id y) s = .next s) ∧
  (∀ (id y : Nat) (s : State) (l : Launch), y ≤ 2 → s.lch id = some l → l.started.isSome = true → exec (.launchStart id y) s = .next s) ∧
  (∀ (id y : Nat) (s : State) (l : Launch), y ≤ 2 → s.lch id = some l → l.started = none → l.step = none → l.group ≤ (freeClusters s l.avoid).length → exec (.launchStart id y) s = .next (startLaunch id ((freeClusters s l.avoid).take l.group) y s)) ∧
  (∀ (id y : Nat) (s : State) (l : Launch), y ≤ 2 → s.lch id = some l → l.started = none → l.step = none → (freeClusters s l.avoid).length < l.group → exec (.launchStart id y) s = .next (launchShort l s)) ∧
  (∀ (id ns : Nat) (s : State) (l : Launch), s.lch id = some l → exec (.launchEnd id ns) s = .next (if l.started.isSome && (l.fault.isSome || l.clusters.all (fun k => (s.clu k).any (fun c => c.ended))) then closeLaunch id ns s else s)) ∧
  (∀ (k r since : Nat) (s : State) (c : Cluster) (l : Launch) (w : Wait), k < 128 → s.clu k = some c → c.wait = some (w, since) → s.lch c.launch = some l → (match w with | .move _ _ _ => some 5 | .sem _ _ => some 5 | .bar => some 5 | .kv n _ => some (pageRes s l n) | .fence => none | .fin => none) = some r → exec (.waitLimitExpire k) s = .next (if s.tb - since < l.waitLimit then s else cluFault k ⟨0x44, r, (s.tb - since) / 1000⟩ c.pc (bits ((l.word c.pc).getD 0) 56 8) s)) ∧
  (∀ (k : Nat) (s : State) (c : Cluster), k < 128 → s.clu k = some c → c.wait = none → exec (.waitLimitExpire k) s = .next s) ∧
  (∀ (id t : Nat) (s : State) (l : Launch), s.lch id = some l → l.started = some t → l.fault = none → 1000 * l.timeLimit ≤ s.tb - t → exec (.timeLimitExpire id) s = .next (s.updLch id (fun l => { l with fault := some ⟨⟨0x44, 5, (s.tb - t) / 1000⟩, 0xFFFF, 0xFF, 0, 0, s.tb⟩ }))) ∧
  (∀ (id t : Nat) (s : State) (l : Launch), s.lch id = some l → l.started = some t → (l.fault.isSome = true ∨ s.tb - t < 1000 * l.timeLimit) → exec (.timeLimitExpire id) s = .next s) ∧
  (∀ (k n : Nat) (s : State), k < 128 → exec (.tileMoveComplete k n) s = .next (completeMove k n s)) ∧
  (∀ (st ctx blk g : Nat) (s : State), kvRow s st ctx blk g = none → exec (.kvPageDelivered st ctx blk g) s = .next s) ∧
  (∀ (st ctx blk g : Nat) (s : State) (r : KvPage), kvRow s st ctx blk g = some r → (r.issued = false ∨ r.delivered = true ∨ homeTier s ctx blk g ≠ 1) → exec (.kvPageDelivered st ctx blk g) s = .next s)

/-- MAIN_LOSS with no main supply does nothing; with it the main-loss sequence follows, and a Lodge loss where aux is lost too. AUX_LOSS clears the aux supply, and where main is lost too it is a Lodge loss. LODGE_LOSS loses what is left and then the Lodge die. AUX_RETURN sets aux present. LODGE_POWER_UP of a Lodge die that is off, with a supply, powers it up; of one that is not, or with none, it does nothing. A store refresh works only while the Lodge die is supplied. MAIN_STORE_CHECK shows the opposite of its result. RECONCILE_TICK away from a whole second or outside RUN does nothing; at one in RUN it reconciles, or begins the first second after a start, and applies the commit in flight but for the period. ACCOUNTING_PERIOD_BOUNDARY away from a period boundary, or with period 0, does nothing; at one every tenant has its period energy and K at 0 and its budget again, and the period number advances. OVERHEAD_ROUND on a sled that is no chassis manager or in its first second does nothing. OVERHEAD_MISS_TIMEOUT of a second that waits and is 2 s past drops it and counts it, and otherwise does nothing. NRG_COMMIT of an admitted power and period below the reserved energy is refused, and otherwise the group is in flight. A read of TW_NRG_SEQ latches the words of the tenant for the requester and gives the first. -/
def Obligations.SupplyLossAndEnergyEvents : Prop :=
  (∀ (s : State), s.bit Reg.PWR_DOMAIN 1 = false → exec (.mainLoss) s = .next s) ∧
  (∀ (s u : State), s.bit Reg.PWR_DOMAIN 1 = true → u = mainSequence (lastLoss 1 0 (mainGone s)) → exec (.mainLoss) s = .next (if u.bit Reg.PWR_DOMAIN 0 then u else lodgeLoss u)) ∧
  (∀ (s : State), exec (.auxLoss) s = .next (if (auxGone s).bit Reg.PWR_DOMAIN 1 then auxGone s else lodgeLoss (auxGone s)) ∧ (auxGone s).bit Reg.PWR_DOMAIN 0 = false ∧ (auxGone s).bit Reg.HLD_STATUS 1 = false ∧ (auxGone s).bit Reg.PWR_DOMAIN 1 = s.bit Reg.PWR_DOMAIN 1 ∧ (auxGone s).bit Reg.PWR_DOMAIN 2 = s.bit Reg.PWR_DOMAIN 1) ∧
  (∀ (s : State), exec (.lodgeLoss) s = .next (Machine.lodgeLoss (if s.bit Reg.PWR_DOMAIN 1 then mainSequence (lastLoss 3 0 (mainGone (auxGone s))) else auxGone s))) ∧
  (∀ (s : State), ∃ t, exec (.auxReturn) s = .next t ∧ t.bit Reg.PWR_DOMAIN 0 = true ∧ t.bit Reg.HLD_STATUS 1 = true ∧ t.bit Reg.PWR_DOMAIN 2 = false ∧ ((s.hld.ph = .panel ∨ s.hld.ph = .banner) → t.bit (Reg.HLD_LAST 5) 3 = true)) ∧
  (∀ (a m : Bool) (s : State), s.hld.ph = .off → (a = true ∨ m = true) → exec (.lodgePowerUp a m) s = .next (lodgeUp a m s)) ∧
  (∀ (a m : Bool) (s : State), (s.hld.ph ≠ .off ∨ (a = false ∧ m = false)) → exec (.lodgePowerUp a m) s = .next s) ∧
  (∀ (s : State), exec (.holdupStoreRefresh) s = .next (if s.hld.ph = .supplied then holdupRefresh s else s)) ∧
  (∀ (ok : Bool) (s : State), ∃ t, exec (.mainStoreCheck ok) s = .next t ∧ t.bit Reg.HLD_STATUS 4 = !ok) ∧
  (∀ (s : State), (s.tb % 1000000 ≠ 0 ∨ inRun s = false) → exec (.reconcileTick) s = .next s) ∧
  (∀ (s : State), s.tb % 1000000 = 0 → inRun s = true → exec (.reconcileTick) s = .next (showCap (commitPart (if s.nrg.fresh then nextSecond { s with nrg := { s.nrg with fresh := false } } else reconcile s) Reg.NRG_COMMIT notPeriod))) ∧
  (∀ (s : State), (s.rdN Reg.NRG_PERIOD_S = 0 ∨ s.tb % (s.rdN Reg.NRG_PERIOD_S * 1000000) ≠ 0) → exec (.accountingPeriodBoundary) s = .next s) ∧
  (∀ (s u : State), s.rdN Reg.NRG_PERIOD_S ≠ 0 → s.tb % (s.rdN Reg.NRG_PERIOD_S * 1000000) = 0 → u = s.adm.tenants.foldl (fun s t => periodSlot s t.1) s → exec (.accountingPeriodBoundary) s = .next (showCap (commitPart ((notePst u Reg.NRG_PERIOD_SEQ (u.rd Reg.NRG_PERIOD_SEQ)).putN Reg.NRG_PERIOD_SEQ (((notePst u Reg.NRG_PERIOD_SEQ (u.rd Reg.NRG_PERIOD_SEQ)).rdN Reg.NRG_PERIOD_SEQ + 1) % 2 ^ 32)) Reg.NRG_COMMIT (fun a => !notPeriod a)))) ∧
  (∀ (s : State), (manages s 0 = false ∨ s.tb < 1000000) → exec (.overheadRound) s = .next s) ∧
  (∀ (s : State), manages s 0 = true → 1000000 ≤ s.tb → overheadOf s (s.tb / 1000000 - 1) = none → exec (.overheadRound) s = .next s) ∧
  (∀ (s : State) (r : Nat) (neg : Bool), manages s 0 = true → 1000000 ≤ s.tb → overheadOf s (s.tb / 1000000 - 1) = some (r, neg) → exec (.overheadRound) s = .next (applyOverhead ((s.tb / 1000000 - 1) % 2 ^ 32) r { (if neg then s.bump Reg.NRG_OVH_NEG else s) with nrg := { s.nrg with ratio := some (s.tb / 1000000 - 1, r) } })) ∧
  (∀ (sec : Nat) (s : State), s.nrg.waiting.any (fun w => w.sec == sec) = true → (sec + 1) * 1000000 + 2000000 ≤ s.tb → exec (.overheadMissTimeout sec) s = .next ((({ s with nrg := { s.nrg with waiting := s.nrg.waiting.filter (fun w => w.sec != sec) } } : State).bump Reg.NRG_OVH_MISS).setBit Reg.NRG_STATUS 2 false)) ∧
  (∀ (sec : Nat) (s : State), (s.nrg.waiting.any (fun w => w.sec == sec) = false ∨ s.tb < (sec + 1) * 1000000 + 2000000) → exec (.overheadMissTimeout sec) s = .next s) ∧
  (∀ (s : State), (s.stg Reg.NRG_ADMIT_W).toNat * (s.stg Reg.NRG_PERIOD_S).toNat < admResv s 8 → exec (.nrgCommit) s = .next (s.setBit Reg.NRG_STATUS 3 true)) ∧
  (∀ (s : State), admResv s 8 ≤ (s.stg Reg.NRG_ADMIT_W).toNat * (s.stg Reg.NRG_PERIOD_S).toNat → exec (.nrgCommit) s = .next { s with inflight := (Reg.NRG_COMMIT, s.staged.filter (fun c => nrgGroup c.1)) :: s.inflight.filter (fun c => c.1 != Reg.NRG_COMMIT) }) ∧
  (∀ (f : Nat) (win : Option Nat) (rq slot : Nat) (s : State), f < 32 → windowSlot s f win = some slot → exec (.twNrgSeqRead f win rq) s = .next (({ s with latches := ⟨rq, some slot, Reg.TW_NRG_SEQ, nrgWords s slot⟩ :: s.latches.filter (fun l => !(l.requester == rq && l.window == some slot && l.addr == Reg.TW_NRG_SEQ)) } : State).emit (.read rq ((nrgWords s slot).take 1))))

/-- BEACON_TICK floods a beacon of every level managed. A beacon from outside the scope, or seen before, changes nothing more than having heard its sender; a new resignation of the manager followed loses the manager, of another sled nothing more. MANAGER_LOSS of a level managed here, waited for or under election does nothing; before 30 ms without a beacon nothing; after, the miss is counted where a manager was shown, and the manager is lost. CANDIDATE_WAIT_EXPIRE before its time does nothing; after, a candidate of the level begins an election under the next term and floods, a sled that is none only ends the wait. ELECTION_TIMEOUT before 20 ms does nothing; after, the sled with the highest key becomes manager and another ends its candidacy. A candidate message of a known sequence changes nothing more. HIE_RESIGN of a worker does nothing, and of a manager resigns every level. -/
def Obligations.ElectionRules : Prop :=
  (∀ (s : State), exec (.beaconTick) s = .next ((List.range (role s)).foldl (fun s l => sendBeacon false l s) s)) ∧
  (∀ (src hops l : Nat) (rs st : Bool) (node term key gen str roll seq : Nat) (lk : Bool) (s : State), l < 3 → (inScope (hear src s) l node = false ∨ mget (hear src s).hie.seen node = some seq ∨ node = ownNode (hear src s)) → exec (.beacon src hops l rs st node term key gen str roll seq lk) s = .next (hear src s)) ∧
  (∀ (src hops l : Nat) (st : Bool) (node term key gen str roll seq : Nat) (lk : Bool) (s v : State), l < 3 → inScope (hear src s) l node = true → floodOn l 0x70 hops node seq [l + 4 + 8 * b2n st, node, term, key, str + 16 * b2n lk, gen, roll, seq] (hear src s) = (true, v) → ∃ u, u = { v with hie := { v.hie with term := mput v.hie.term l (max term (lvl v.hie.term l)) } } ∧ exec (.beacon src hops l true st node term key gen str roll seq lk) s = .next (if mgrNode u l = some node then loseManager l u else u)) ∧
  (∀ (src hops l : Nat) (node term key gen str roll seq : Nat) (lk : Bool) (s v : State), l < 3 → inScope (hear src s) l node = true → floodOn l 0x70 hops node seq [l, node, term, key, str + 16 * b2n lk, gen, roll, seq] (hear src s) = (true, v) → manages v l = false → mgrNode v l = none → exec (.beacon src hops l false false node term key gen str roll seq lk) s = .next (adopt l node term key { v with hie := { v.hie with term := mput v.hie.term l (max term (lvl v.hie.term l)) } })) ∧
  (∀ (l : Nat) (s : State), l < 3 → (manages s l = true ∨ (mget s.hie.waits l).isSome = true ∨ (mget s.hie.elect l).isSome = true) → exec (.managerLoss l) s = .next s) ∧
  (∀ (s : State), manages s 0 = false → mget s.hie.waits 0 = none → mget s.hie.elect 0 = none → s.bit Reg.RST_START_STATUS 15 = true → lvl s.hie.heard 0 + 30000 ≤ s.tb → exec (.managerLoss 0) s = .next (loseManager 0 (if (mgrNode s 0).isSome then s.bump Reg.HIE_BEACON_MISS else s))) ∧
  (∀ (l : Nat) (s : State), l < 3 → mget s.hie.stall l = none → s.tb < lvl s.hie.heard l + 30000 → exec (.managerLoss l) s = .next s) ∧
  (∀ (l t : Nat) (s : State), l < 3 → mget s.hie.waits l = some t → s.tb < t → exec (.candidateWaitExpire l) s = .next s) ∧
  (∀ (l t : Nat) (s u : State), l < 3 → mget s.hie.waits l = some t → t ≤ s.tb → u = { s with hie := { s.hie with waits := mdel s.hie.waits l } } → exec (.candidateWaitExpire l) s = .next (if candidate u l then sendCandidate l (lvl u.hie.term l + 1) (hieBit 1 true (State.bump { u with hie := { u.hie with term := mput u.hie.term l (lvl u.hie.term l + 1), elect := mput u.hie.elect l ⟨lvl u.hie.term l + 1, u.tb, ownKey u, ownNode u⟩ } } Reg.HIE_ELECTIONS)) else u)) ∧
  (∀ (l : Nat) (s : State) (e : Election), l < 3 → mget s.hie.elect l = some e → e.since + 20000 ≤ s.tb → exec (.electionTimeout l) s = .next (if e.bestNode = ownNode s then becomeManager l e.term s else hieBit 1 false { s with hie := { s.hie with elect := mdel s.hie.elect l } })) ∧
  (∀ (l : Nat) (s : State) (e : Election), l < 3 → mget s.hie.elect l = some e → s.tb < e.since + 20000 → exec (.electionTimeout l) s = .next s) ∧
  (∀ (src hops l node term key seq : Nat) (s : State), l < 3 → (inScope (hear src s) l node = false ∨ mget (hear src s).hie.seen node = some seq ∨ node = ownNode (hear src s)) → exec (.candidate src hops l node term key seq) s = .next (hear src s)) ∧
  (∀ (src hops l node term key seq : Nat) (s v : State) (e : Election), l < 3 → inScope (hear src s) l node = true → floodOn l 0x71 hops node seq [l, node, term, key, seq] (hear src s) = (true, v) → mget v.hie.elect l = some e → e.term < term → ∃ t, exec (.candidate src hops l node term key seq) s = .next t ∧ mget t.hie.elect l = none ∧ t.bit Reg.HIE_STATUS 1 = false) ∧
  (∀ (s : State), role s = 0 → exec (.hieResign) s = .next s) ∧
  (∀ (s : State), role s ≠ 0 → exec (.hieResign) s = .next (resign s)) ∧
  (∀ (s : State), role s ≤ 3 → role (resign s) = 0)

/-- A JOIN at a sled that does not manage the level changes nothing more than having heard the sender; one with a wrong tag is counted and answered AUTH_FAIL. A JOIN_ACK with a wrong tag, or that answers no request, changes nothing more; an acceptance of a JOIN sets JOINED and forwards the ledger, a refusal sets AUTH_FAIL. A series older than 100 ms is discarded by its manager. STATUS at a worker is only heard; at a manager it is noted and acknowledged. POOL_REQ at a worker is only heard. POOL_GRANT that answers nothing is only heard. POOL_BLOCK_RETURN at a manager, and POOL_MAP_REPLICATE below a row manager, do nothing. A KEY_WRAP that does not unwrap changes nothing more. LEND_QUERY of this sled takes the holder named. LEDGER_FWD at a worker is only heard. A request younger than 10 ms is left; a third retry unanswered is given up; otherwise it is sent again. A write of the site secret sets its word. -/
def Obligations.JoiningAndStatus : Prop :=
  (∀ (src rtag l : Nat) (cont : Bool) (st b fw ld tot idx : Nat) (bs : List Nat) (tag : BitVec 128) (s : State), l < 3 → manages (hear src s) l = false → exec (.join src rtag l cont st b fw ld tot idx bs tag) s = .next (hear src s)) ∧
  (∀ (src rtag l : Nat) (cont : Bool) (st b fw ld tot idx : Nat) (bs : List Nat) (tag : BitVec 128) (s : State), l < 3 → manages (hear src s) l = true → tag ≠ tagOf (hear src s) 0x72 ([l + 128 * b2n cont, st, b, fw, ld, tot + 2 ^ 16 * bs.length + 2 ^ 24 * idx, 0] ++ bs) src (ownNode (hear src s)) → exec (.join src rtag l cont st b fw ld tot idx bs tag) s = .next (sendJoinAck src rtag l ⟨0x22, 9, 0xFFFF⟩ ((hear src s).bump Reg.HIE_JOIN_REFUSED))) ∧
  (∀ (src rtag : Nat) (st : Word) (term : Nat) (tag : BitVec 128) (s : State), tag ≠ tagOf (hear src s) 0x73 [st.toNat, term, 0] src (ownNode (hear src s)) → exec (.joinAck src rtag st term tag) s = .next (hear src s)) ∧
  (∀ (src rtag : Nat) (st : Word) (term : Nat) (tag : BitVec 128) (s : State) (r : HReq) (u : State), tag = tagOf (hear src s) 0x73 [st.toNat, term, 0] src (ownNode (hear src s)) → takeReq src rtag (hear src s) = (some r, u) → r.type = 0x72 → exec (.joinAck src rtag st term tag) s = .next (if bits st.toNat 0 8 = 0 then forwardAll (hieBit 6 false (hieBit 5 true u)) else hieBit 6 true (hieBit 5 false u))) ∧
  (∀ (node : Nat) (s : State), node ≠ ownNode s → exec (.joinSeriesTimeout node) s = .next { s with hie := { s.hie with series := s.hie.series.filter (fun (j : JoinSeries) => !(j.node == node && decide (j.since + 100000 ≤ s.tb))) } }) ∧
  (∀ (s : State), managerAbove s = none → exec (.joinSeriesTimeout (ownNode s)) s = .next s) ∧
  (∀ (s : State), role s = 0 → managerAbove s = none → exec (.statusTick) s = .next s) ∧
  (∀ (s : State), exec (.statusTick) s = .next (Machine.statusTick s)) ∧
  (∀ (src rtag a b c d : Nat) (ps : List Nat) (u tb tm : Nat) (ok : Bool) (s : State), role (hear src s) = 0 → exec (.status src rtag a b c d ps u tb tm ok) s = .next (hear src s)) ∧
  (∀ (src rtag a b c d : Nat) (ps : List Nat) (u tb tm : Nat) (ok : Bool) (s : State), role (hear src s) ≠ 0 → (noteMember src a b c d ps u tb ok (hear src s)).nrg.ratio = none → exec (.status src rtag a b c d ps u tb tm ok) s = .next ((noteMember src a b c d ps u tb ok (hear src s)).sendAs 0 rtag 0x7F src [0x74, 0, 0, 0, 0])) ∧
  (∀ (src rtag n : Nat) (s : State), role (hear src s) = 0 → exec (.poolReq src rtag n) s = .next (hear src s)) ∧
  (∀ (src rtag n : Nat) (s : State) (bs : List Nat), role (hear src s) = 3 → bs = giveBlocks (hear src s) (min 16 n) → ∃ u, exec (.poolReq src rtag n) s = .next (u.sendAs 0 rtag 0x77 src ([bs.length, termOf u 2] ++ bs.map (· * 16))) ∧ u = { (hear src s) with hie := { (hear src s).hie with allot := bs.foldl (fun m b => mput m b src) (hear src s).hie.allot } }) ∧
  (∀ (src rtag term : Nat) (bs : List Nat) (s u : State), takeReq src rtag (hear src s) = (none, u) → exec (.poolGrant src rtag term bs) s = .next u) ∧
  (∀ (src rtag term : Nat) (bs : List Nat) (s u : State) (r : HReq), takeReq src rtag (hear src s) = (some r, u) → ∃ v, exec (.poolGrant src rtag term bs) s = .next (reevaluateAll v) ∧ v.adm.pool = u.adm.pool ++ (bs.map blockIds).filter (fun b => !u.adm.pool.contains b)) ∧
  (∀ (base : Nat) (s : State), (role s ≠ 0 ∨ s.adm.pool.contains (blockIds base) = false ∨ blockFree s (blockIds base) = false) → exec (.poolBlockReturn base) s = .next s) ∧
  (∀ (base : Nat) (s : State), role s = 0 → s.adm.pool.contains (blockIds base) = true → s.adm.pool ≠ standalonePool → blockFree s (blockIds base) = true → (∀ i, i < (blockIds base).2 → mgetD s.hie.freed 0 ((blockIds base).1 + i) + 3600000000 ≤ s.tb) → mgrNode s 0 = none → exec (.poolBlockReturn base) s = .next { s with adm := { s.adm with pool := s.adm.pool.filter (fun (c : Nat × Nat) => c != blockIds base) } }) ∧
  (∀ (bs : List (Nat × Nat)) (s : State), exec (.poolMapReplicate bs) s = .next (if role s < 2 then s else { s with hie := { s.hie with allot := bs.foldl (fun m b => mput m b.1 b.2) s.hie.allot } })) ∧
  (∀ (src rtag dom kg term : Nat) (key : BitVec 192) (s : State), exec (.keyWrap src rtag dom kg term key) s = (match Config.unwrapKey (hear src s).hie.secret src (ownNode (hear src s)) key with | none => .next (hear src s) | some k => .next (hieAck src rtag 0x7C ⟨0, 0, 0⟩ (if keygen (hear src s) dom = kg then { (hear src s) with pfx := { (hear src s).pfx with keys := mput (hear src s).pfx.keys (16 * dom + kg) k } } else evictWhere (fun e => e.dom == dom && e.keygen != kg) 3 (State.setFld { (hear src s) with pfx := { (hear src s).pfx with keygen := mputD (hear src s).pfx.keygen 0 dom kg, keys := mput (hear src s).pfx.keys (16 * dom + kg) k } } (Reg.PFX_DOM_CFG dom) 4 4 kg))))) ∧
  (∀ (a : Option Nat) (s : State), role s = 0 → exec (.lendQuery (ownNode s) a) s = .next { s with lender := match a with | some h => h + 1 | none => 0 }) ∧
  (∀ (node : Nat) (a : Option Nat) (s : State), node ≠ ownNode s → exec (.lendQuery node a) s = .next (if role s = 0 then s else match lendHolder s node with | some h => s.emit (.link 0 node [h]) | none => s)) ∧
  (∀ (src rtag o i : Nat) (ws : List Word) (s : State), role (hear src s) = 0 → exec (.ledgerFwd src rtag o i ws) s = .next (hear src s)) ∧
  (∀ (src rtag o i : Nat) (ws : List Word) (s : State), role (hear src s) ≠ 0 → (((mput (hear src s).hie.ledger (2 ^ 32 * o + i % 2 ^ 32) ws).filter (fun e => e.1 / 2 ^ 32 == o)).length ≤ 4096) → managerAbove (hear src s) = none → ∃ u, u = hieAck src rtag 0x7D ⟨0, 0, 0⟩ { (hear src s) with hie := { (hear src s).hie with ledger := mput (hear src s).hie.ledger (2 ^ 32 * o + i % 2 ^ 32) ws } } ∧ (managerAbove u = none → exec (.ledgerFwd src rtag o i ws) s = .next u)) ∧
  (∀ (tag : Nat) (s : State) (r : HReq), s.hie.reqs.find? (fun r => r.tag == tag) = some r → s.tb < r.since + 10000 → exec (.hieRequestTimeout tag) s = .next s) ∧
  (∀ (tag : Nat) (s : State) (r : HReq), s.hie.reqs.find? (fun r => r.tag == tag) = some r → r.since + 10000 ≤ s.tb → exec (.hieRequestTimeout tag) s = .next (if 3 ≤ r.tries then giveUp r s else State.sendAs { s with hie := { s.hie with reqs := updWhere s.hie.reqs (fun x => x.tag == tag) (fun x => { x with tries := x.tries + 1, since := s.tb }) } } 0 tag r.type r.dest r.xs)) ∧
  (∀ (i : Nat) (w : Word) (s : State), i < 8 → exec (.hieSiteSecretWrite i w) s = .next { s with hie := { s.hie with secret := BitVec.ofNat 256 (setBits s.hie.secret.toNat (32 * i) 32 w.toNat) } })

/-- SPAN_HOLD is evaluated and its vote sent. SPAN_COMMIT takes the hold of the transaction into effect, or drops it, and is acknowledged either way. A hold 100 ms old is dropped at its time-out, a younger one stays. SPAN_VOTE takes the request off; of no transaction it does nothing more; with votes still lacking it is kept. A lacking vote at 10 ms aborts the transaction REFUSED_BUSY with the silent member, earlier nothing happens. A span request of 150 ms ago is answered REFUSED_BUSY, a younger one waits. TENANT_OP of an ID not here is only acknowledged. SPAN_HOME_LOSS parks the slot once its home is silent for TIER_PEER_LOSS, and does nothing to a tenant at home. TOPOLOGY_RECOMPUTE does nothing at a worker or below a manager. ROUTE_SET stages its entries and is acknowledged; of an older generation it is only acknowledged. A PPS pulse slews TB to the second at the time root only, and PPS_OUT drives at whole seconds of a locked sled only. -/
def Obligations.SpansRoutesAndSiteTime : Prop :=
  (∀ (src rtag id txn : Nat) (md : Bool) (cls : Nat) (ws : List Nat) (dom keys : Nat) (s : State) (h : SpanHold) (st : Status) (x : Nat) (u : State), h = { txn := txn, mgr := src, id := id, keys := keys, modify := md, cls := cls, domain := dom, vec := vecOfWords ws, held := {}, spill := 0, since := (hear src s).tb } → outcast (hear src s) = false → spanEval h (hear src s) = (st, x, u) → exec (.spanHold src rtag id txn md cls ws dom keys) s = .next (u.sendAs 0 rtag 0x79 src [txn, st.word.toNat, x])) ∧
  (∀ (src rtag txn : Nat) (c : Bool) (s : State), exec (.spanCommit src rtag txn c) s = .next (hieAck src rtag 0x7A ⟨0, 0, 0⟩ (Machine.spanCommit src txn c (hear src s)))) ∧
  (∀ (m txn : Nat) (s : State) (h : SpanHold), holdOf s m txn = some h → askOf s h = none → Machine.spanCommit m txn true s = commitMember h m s ∧ Machine.spanCommit m txn false s = dropHold m txn s) ∧
  (∀ (m txn : Nat) (s : State) (h : SpanHold), holdOf s m txn = some h → exec (.spanCommitTimeout m txn) s = .next (if h.since + 100000 ≤ s.tb then dropHold m txn s else s)) ∧
  (∀ (src rtag txn : Nat) (st : Word) (x : Nat) (s u : State), u = (takeReq src rtag (hear src s)).2 → u.hie.spans.find? (fun t => t.txn == txn) = none → exec (.spanVote src rtag txn st x) s = .next u) ∧
  (∀ (src rtag txn : Nat) (st : Word) (x : Nat) (s u : State) (t : SpanTxn), u = (takeReq src rtag (hear src s)).2 → u.hie.spans.find? (fun t => t.txn == txn) = some t → (∀ n ∈ t.members, (t.votes.filter (fun (v : Nat × Status × Nat) => v.1 != src) ++ [(src, (⟨bits st.toNat 0 8, bits st.toNat 8 8, bits st.toNat 16 16⟩ : Status), x)]).any (fun v => v.1 == n) = true) → st = 0 → (∀ v ∈ t.votes, v.2.1.code = 0) → ∃ t2 u2, exec (.spanVote src rtag txn st x) s = .next (decide_ t2 true none u2) ∧ t2.txn = t.txn ∧ t2.members = t.members) ∧
  (∀ (txn : Nat) (s : State) (t : SpanTxn), s.hie.spans.find? (fun t => t.txn == txn) = some t → exec (.spanVoteTimeout txn) s = .next (if s.tb < t.since + 10000 then s else decide_ t false (some ((t.members.find? (fun n => !t.votes.any (fun v => v.1 == n))).getD 0, ⟨0x24, 9, 0⟩, 0)) s)) ∧
  (∀ (f : Nat) (s : State) (a : SpanAsk), f < 32 → s.hie.asks.find? (fun a => a.mb.fn == f) = some a → exec (.spanRequestTimeout f) s = .next (if s.tb < a.since + 150000 then s else spanAnswer a ⟨0x24, 9, 0⟩ 0 0 none s)) ∧
  (∀ (src rtag id op home : Nat) (s : State), (hear src s).slotOf id = none → exec (.tenantOp src rtag id op home) s = .next (hieAck src rtag 0x7B ⟨0, 0, 0⟩ (hear src s))) ∧
  (∀ (src rtag id op home slot : Nat) (t : Tenant) (s : State), (hear src s).slotOf id = some slot → (hear src s).ten slot = some t → t.home = some src → t.st ≠ .releasing → exec (.tenantOp src rtag id op home) s = .next (hieAck src rtag 0x7B ⟨0, 0, 0⟩ (Machine.tenantOp slot op (hear src s)))) ∧
  (∀ (slot h : Nat) (s : State) (t : Tenant), slot < 1024 → s.ten slot = some t → t.home = some h → exec (.spanHomeLoss slot) s = .next (if (s.peer h).heard + 1000 * s.rdN Reg.TIER_PEER_LOSS ≤ s.tb then parkTenant slot s else s)) ∧
  (∀ (slot : Nat) (s : State) (t : Tenant), slot < 1024 → s.ten slot = some t → t.home = none → exec (.spanHomeLoss slot) s = .next s) ∧
  (∀ (s : State), (role s = 0 ∨ (managerAbove s).isSome = true) → exec (.topologyRecompute) s = .next s) ∧
  (∀ (s : State), role s ≠ 0 → managerAbove s = none → ∃ t, exec (.topologyRecompute) s = .next t ∧ t.hie.gen = s.hie.gen + 1 ∧ t.bit Reg.LNK_RT_STATUS 0 = true) ∧
  (∀ (src rtag tb_ f g : Nat) (es : List DWord) (s : State), tb_ < 3 → exec (.routeSet src rtag tb_ f g es) s = .next (hieAck src rtag 0x75 ⟨0, 0, 0⟩ (Machine.routeSet tb_ f g es (hear src s)))) ∧
  (∀ (tb_ f g : Nat) (es : List DWord) (s : State), g < s.lnk.rtGen → Machine.routeSet tb_ f g es s = s) ∧
  (∀ (s : State), (role s ≠ 3 ∨ s.bit Reg.HIE_CTRL 2 = false) → exec (.ppsInPulse) s = .next s) ∧
  (∀ (s : State), role s = 3 → s.bit Reg.HIE_CTRL 2 = true → exec (.ppsInPulse) s = .next { s with lnk := { s.lnk with sync := { s.lnk.sync with pps := some s.tb, slew := if s.lnk.sync.pps.any (fun t => decide (t + 999900 ≤ s.tb ∧ s.tb ≤ t + 1000100)) then (if s.tb % 1000000 < 500000 then -((s.tb % 1000000 : Nat) : Int) else 1000000 - ((s.tb % 1000000 : Nat) : Int)) * 6400 * 100 else s.lnk.sync.slew } } }) ∧
  (∀ (s : State), exec (.ppsOutSecond) s = .next (if s.bit Reg.LNK_TIME_STATUS 0 ∧ s.tb % 1000000 = 0 then s.emit (.pin "PPS_OUT" 1) else s))

/-- ROLL_START on a sled that is not the site manager, while a rollout runs or without a VERIFIED image does nothing. ROLL_HALT of a running rollout shows HALTED, otherwise nothing. ROLL_RESUME of a rollout not halted does nothing. A repeated OFFER is only acknowledged. ACTIVATE and CONFIRM are acknowledged, and those of another rollout do no more. A REPORT is acknowledged and recorded where it is of the rollout that runs. ROLL_DRAIN_EXPIRE and ROLL_SOAK_EXPIRE of a sled that follows none do nothing. A report is late only at the site manager of a running rollout and after the soak time and 600 s. An ACK that answers no request is only heard. Pages held for an owner are released once it is silent for TIER_PEER_LOSS. A wait of a pool level over the threshold is counted with its maximum. -/
def Obligations.FirmwareRollout : Prop :=
  (∀ (w c r : List Nat) (s : State), (role s ≠ 3 ∨ rollState s = 1 ∨ (inactiveInfo s).st ≠ 3) → exec (.rollStart w c r) s = .next s) ∧
  (∀ (w c r : List Nat) (s : State), role s = 3 → rollState s ≠ 1 → (inactiveInfo s).st = 3 → ∃ u, exec (.rollStart w c r) s = .next (offerWave 7 u) ∧ u.hie.roll.plan = wavesOf (s.rdN Reg.HIE_ROLL_CANARY) w c r (ownNode s) ∧ u.hie.roll.sent = [] ∧ u.hie.roll.version = readLE (s.fw.image (inactiveSlot s)) 8 4 ∧ u.rdN Reg.HIE_ROLL_STATUS = 1 ∧ u.rdN Reg.HIE_ROLL_FIRST_FAIL = 0) ∧
  (∀ (s : State), exec (.rollHalt) s = .next (if s.fld Reg.HIE_ROLL_STATUS 0 4 = 1 then s.setFld Reg.HIE_ROLL_STATUS 0 4 2 else s)) ∧
  (∀ (s : State), (role s ≠ 3 ∨ rollState s ≠ 2) → exec (.rollResume) s = .next s) ∧
  (∀ (s : State), role s = 3 → rollState s = 2 → s.hie.roll.plan ≠ [] → ∃ u, exec (.rollResume) s = .next (offerWave 7 u) ∧ u.hie.roll.failures = 0 ∧ u.hie.roll.plan = s.hie.roll.plan) ∧
  (∀ (src rtag w m v n : Nat) (d : List Nat) (s : State), outcast (hear src s) = false → (hear src s).hie.follow.any (fun f => f.mgr == src && f.move == m) = true → exec (.rollOffer src rtag w m v n d) s = .next (hieAck src rtag 0x7E ⟨0, 0, 0⟩ (hear src s))) ∧
  (∀ (src rtag w m v n : Nat) (d : List Nat) (s u : State), outcast (hear src s) = false → (hear src s).hie.follow = none → u = updBegin 2 { (hear src s) with hie := { (hear src s).hie with follow := some ⟨src, rtag, w, m, v, n, d, [], [], none, false⟩ } } → exec (.rollOffer src rtag w m v n d) s = .next (if updOwner u = 2 ∧ u.rdN Reg.FW_UPD_RESULT = 0 then hieAck src rtag 0x7E ⟨0, 0, 0⟩ u else reportResult (hieAck src rtag 0x7E ⟨0x24, 0, 0⟩ u))) ∧
  (∀ (src rtag m : Nat) (s u : State), u = hieAck src rtag 0x7E ⟨0, 0, 0⟩ (hear src s) → exec (.rollActivate src rtag m) s = .next (if u.hie.follow.any (fun f => f.mgr == src && f.move == m && f.drainAt.isNone) then tryActivate (u.updFollow (fun f => { f with drainAt := some u.tb })) else u)) ∧
  (∀ (src rtag m : Nat) (s u : State), u = hieAck src rtag 0x7E ⟨0, 0, 0⟩ (hear src s) → exec (.rollConfirm src rtag m) s = .next (if u.hie.follow.any (fun f => f.mgr == src && f.move == m) && soaked u then Machine.rollConfirm u else u)) ∧
  (∀ (src rtag m : Nat) (st : Word) (s u : State), u = hieAck src rtag 0x7E ⟨0, 0, 0⟩ (hear src s) → exec (.rollReport src rtag m st) s = .next (if u.hie.roll.move = m then rollResult src st u else u)) ∧
  (∀ (s : State), s.hie.follow = none → exec (.rollDrainExpire) s = .next s) ∧
  (∀ (s : State) (f : Follow) (t : Nat), s.hie.follow = some f → f.drainAt = some t → f.activated = false → (inactiveInfo s).st = 3 → noneActive s = false → s.tb < t + 1000000 * s.rdN Reg.HIE_ROLL_DRAIN_S → exec (.rollDrainExpire) s = .next s) ∧
  (∀ (s : State), s.hie.follow = none → exec (.rollSoakExpire) s = .next s) ∧
  (∀ (s : State) (f : Follow), s.hie.follow = some f → (f.activated = false ∨ soaked s = false) → exec (.rollSoakExpire) s = .next s) ∧
  (∀ (n : Nat) (s : State), rollDuty s = false → exec (.rollReportTimeout n) s = .next s) ∧
  (∀ (n t : Nat) (s : State), rollDuty s = true → (n, t) ∈ s.hie.roll.sent → t + 1000000 * (s.rdN Reg.HIE_ROLL_SOAK_S + 600) ≤ s.tb → exec (.rollReportTimeout n) s = .next (rollResult n (Status.word ⟨0x44, 0, s.rdN Reg.HIE_ROLL_SOAK_S + 600⟩) s)) ∧
  (∀ (src rtag e : Nat) (st : Word) (ra sec : Nat) (v : Bool) (s u : State), takeReq src rtag (hear src s) = (none, u) → exec (.ack src rtag e st ra sec v) s = .next u) ∧
  (∀ (src rtag : Nat) (st : Word) (ra sec : Nat) (s u : State) (r : HReq), takeReq src rtag (hear src s) = (some r, u) → r.type = 0x74 → exec (.ack src rtag 0x74 st ra sec true) s = .next (applyOverhead sec ra u)) ∧
  (∀ (n : Nat) (s : State), exec (.peerHoldExpire n) s = .next (if (s.peer n).heard + 1000 * s.rdN Reg.TIER_PEER_LOSS ≤ s.tb then { s with lnk := { s.lnk with lent := s.lnk.lent.filter (fun (x : Xfer) => x.node != n) } } else s)) ∧
  (∀ (l us : Nat) (s : State), 1 ≤ l ∧ l ≤ 5 → us ≤ s.rdN Reg.FLT_PRG_THRESH_US → exec (.waitMonitorThreshold l us false) s = .next s) ∧
  (∀ (l us : Nat) (s u : State), 1 ≤ l ∧ l ≤ 5 → s.rdN Reg.FLT_PRG_THRESH_US < us → u = s.bump (Reg.FLT_PRG_STALL_CNT l) → exec (.waitMonitorThreshold l us false) s = .next (if u.rdN (Reg.FLT_PRG_STALL_MAX_US l) < us then u.putN (Reg.FLT_PRG_STALL_MAX_US l) (min us 0xFFFFFFFF) else u))

/-- P is the metered main input power that the meter has given the cap since the last tick, in mW, and the limits are those in force after a commit in flight. With P above PWR_CAP_W, CAP_K is 1 higher, or 4 where P is above 1,250 W, at most 60; with P below PWR_CAP_W - PWR_CAP_HYST_W it is 1 lower, at least 0; otherwise unchanged; CAP_BLIND reads 0. With no metering CAP_K holds and CAP_BLIND reads 1. -/
def Obligations.PowerCapTickMovesCapK : Prop :=
  (∀ (s u : State) (mw : Int) (cap hyst : Int), u = commitApply s Reg.PWR_CAP_COMMIT → u.bit Reg.PWR_HK_STATUS 0 = true → u.mtr.toCap = some mw → cap = 1000 * u.rdN Reg.PWR_CAP_W → hyst = 1000 * u.rdN Reg.PWR_CAP_HYST_W → ∃ t, exec (.powerCapTick) s = .next t ∧ t.bit Reg.PWR_STATUS 1 = false ∧ (cap < mw → 1250000 < mw → t.fld Reg.CLK_THR_SRC 0 6 = min 60 (u.fld Reg.CLK_THR_SRC 0 6 + 4)) ∧ (cap < mw → mw ≤ 1250000 → t.fld Reg.CLK_THR_SRC 0 6 = min 60 (u.fld Reg.CLK_THR_SRC 0 6 + 1)) ∧ (mw ≤ cap → mw < cap - hyst → t.fld Reg.CLK_THR_SRC 0 6 = u.fld Reg.CLK_THR_SRC 0 6 - 1) ∧ (mw ≤ cap → cap - hyst ≤ mw → t.fld Reg.CLK_THR_SRC 0 6 = u.fld Reg.CLK_THR_SRC 0 6)) ∧
  (∀ (s u : State), u = commitApply s Reg.PWR_CAP_COMMIT → (u.bit Reg.PWR_HK_STATUS 0 = false ∨ u.mtr.toCap = none) → ∃ t, exec (.powerCapTick) s = .next t ∧ t.bit Reg.PWR_STATUS 1 = true ∧ t.fld Reg.CLK_THR_SRC 0 6 = u.fld Reg.CLK_THR_SRC 0 6)

/-- The operands are the hottest sensor of the west and of the east die in sixteenths of a degree. For each die by itself: above PWR_THERM_C its THERM_K is 1 higher, at most 60; below PWR_THERM_C - 3 degrees it is 1 lower, at least 0; between, it is unchanged. CAP_K is unchanged. -/
def Obligations.ThermalTickMovesThermK : Prop :=
  (∀ (w e c : Int) (s : State), c = 16 * s.rdN Reg.PWR_THERM_C → ∃ t, exec (.thermalTick w e) s = .next t ∧ (c < w → t.fld Reg.CLK_THR_SRC 8 6 = min 60 (s.fld Reg.CLK_THR_SRC 8 6 + 1)) ∧ (w < c - 48 → t.fld Reg.CLK_THR_SRC 8 6 = s.fld Reg.CLK_THR_SRC 8 6 - 1) ∧ (c - 48 ≤ w → w ≤ c → t.fld Reg.CLK_THR_SRC 8 6 = s.fld Reg.CLK_THR_SRC 8 6) ∧ (c < e → t.fld Reg.CLK_THR_SRC 16 6 = min 60 (s.fld Reg.CLK_THR_SRC 16 6 + 1)) ∧ (e < c - 48 → t.fld Reg.CLK_THR_SRC 16 6 = s.fld Reg.CLK_THR_SRC 16 6 - 1) ∧ (c - 48 ≤ e → e ≤ c → t.fld Reg.CLK_THR_SRC 16 6 = s.fld Reg.CLK_THR_SRC 16 6) ∧ t.fld Reg.CLK_THR_SRC 0 6 = s.fld Reg.CLK_THR_SRC 0 6)

/-- A restart write with another key than 0x5A80 does nothing; in RUN it begins the start, a warm one with main good through QUIESCE; in another state it is counted ignored. MAIN_GOOD makes a start due. SLED_EN deasserted in STANDBY only notes it, and otherwise runs the main-loss sequence. QUIESCE 50 ms old ends in a cold start, younger nothing. A rail out of regulation in step 1 is retried once and fails the step the second time; outside step 1 nothing. A step that has not begun does not complete, and one that has ends. The limit of a start expires only in STARTING past its time. A retry comes 1 s after a failed start, in SAFE after the last. SAFE_EXIT needs its key and SAFE. ROOT lock loss with the MAIN domain down does nothing. XTAL stopping and returning show in CLK_STATUS. An over-temperature trip latches and its clearing lets a start that is due begin. With the housekeeping link down a transaction does nothing. A pass outside a retrain clears the retries; a failure is counted and retried, and the ninth try retrains. A retrain that passes ends it; the third that fails in a row takes the link down as a hub fault. RST_UNIT with another key does nothing; of an absent or retired unit, outside RUN or while busy it is refused; otherwise the unit is reset: merged while it is in reset, deferred within 1 ms of its last reset, else at once. A deferred reset is performed once its 1 ms has passed. A reset notice that waits is delivered once, and none does nothing. -/
def Obligations.StartsAndResets : Prop :=
  (∀ (k : Nat) (s : State), k ≠ 0x5A80 → exec (.hifRestartWarm k) s = .next s ∧ exec (.hifRestartCold k) s = .next s) ∧
  (∀ (s : State), s.rdN Reg.PWR_STATE = 3 → exec (.hifRestartWarm 0x5A80) s = .next (if s.rst.mainGood then beginQuiesce 2 s else beginStart 12 false (sayResign 0 s)) ∧ exec (.hifRestartCold 0x5A80) s = .next (beginStart 3 false (sayResign 0 s))) ∧
  (∀ (s : State), s.rdN Reg.PWR_STATE ≠ 3 → exec (.hifRestartWarm 0x5A80) s = .next (s.bump Reg.RST_REQ_IGNORED) ∧ exec (.hifRestartCold 0x5A80) s = .next (s.bump Reg.RST_REQ_IGNORED)) ∧
  (∀ (en : Bool) (s : State), ∃ u, exec (.mainGood en) s = .next (tryStart u) ∧ u.rst.mainGood = true ∧ u.rst.sledEn = en ∧ u.rst.due = some (s.rst.due.getD 1) ∧ u.bit Reg.PWR_DOMAIN 1 = true ∧ u.bit Reg.LDG_STRAP 7 = en) ∧
  (∀ (s : State) (c : Nat), s.rst.due = some c → s.rdN Reg.PWR_STATE = 1 → s.rst.mainGood = true → s.rst.sledEn = true → s.rst.xtalOk = true → s.bit Reg.PWR_STATUS 0 = false → tryStart s = beginStart c false s) ∧
  (∀ (s : State), (s.rst.due = none ∨ s.rdN Reg.PWR_STATE ≠ 1 ∨ s.rst.mainGood = false ∨ s.rst.sledEn = false ∨ s.rst.xtalOk = false ∨ s.bit Reg.PWR_STATUS 0 = true) → tryStart s = s) ∧
  (∀ (s u : State), u = ({ s with rst := { s.rst with sledEn := false, due := none } } : State).setBit Reg.LDG_STRAP 7 false → exec (.sledEnDeassert) s = .next (if u.rdN Reg.PWR_STATE ≤ 1 then u else mainSequence (lastLoss 0 0 u))) ∧
  (∀ (s : State) (t c : Nat), s.rst.quiesce = some (t, c) → exec (.quiesceTimeout) s = .next (if t + 50000 ≤ s.tb then beginStart 12 false s else s)) ∧
  (∀ (s : State), s.rst.quiesce = none → exec (.quiesceTimeout) s = .next s) ∧
  (∀ (r : Nat) (s : State), r < 12 → mget s.rst.steps 1 = none → exec (.railRegulationTimeout r) s = .next s) ∧
  (∀ (r t : Nat) (s : State), r < 12 → mget s.rst.steps 1 = some t → exec (.railRegulationTimeout r) s = .next (if s.rst.railRetry.contains r then failStart 1 1 (r + 1) s else { s with rst := { s.rst with railRetry := r :: s.rst.railRetry } })) ∧
  (∀ (n : Nat) (ok : Bool) (l : List Nat) (s : State), 1 ≤ n ∧ n < 15 → mget s.rst.steps n = none → exec (.startStepComplete n ok l) s = .next s) ∧
  (∀ (n t : Nat) (ok : Bool) (l : List Nat) (s : State), 1 ≤ n ∧ n < 15 → mget s.rst.steps n = some t → exec (.startStepComplete n ok l) s = .next (endStep n ok l s)) ∧
  (∀ (s : State), endStep 1 true [] s = stepDone 1 (s.setFld Reg.PWR_DOMAIN 4 12 0xFFF) ∧ endStep 2 true [] s = stepDone 2 ((s.setBit Reg.CLK_STATUS 1 true).putN Reg.PWR_HK_STATUS 1) ∧ endStep 1 false [] s = failStart 1 1 0 s ∧ endStep 2 false [] s = failStart 2 1 0 s) ∧
  (∀ (ok : Bool) (l : List Nat) (s : State) (t c : Nat), s.rst.quiesce = some (t, c) → exec (.startStepComplete 0 ok l) s = .next (if ok then beginStart c true s else beginStart 12 false s)) ∧
  (∀ (s : State), (s.rdN Reg.PWR_STATE ≠ 2 ∨ s.rst.retry.isSome = true ∨ s.tb < s.rst.began + (if warmStart s then 10000000 else 60000000)) → exec (.startLimitExpire) s = .next s) ∧
  (∀ (s : State), s.rdN Reg.PWR_STATE = 2 → s.rst.retry = none → s.rst.began + (if warmStart s then 10000000 else 60000000) ≤ s.tb → exec (.startLimitExpire) s = .next (failStart (s.fld Reg.RST_START_STATUS 0 4) 2 0 s)) ∧
  (∀ (s : State), s.rst.retry = none → exec (.startRetry) s = .next s) ∧
  (∀ (s : State) (t c : Nat) (w : Bool), s.rst.retry = some (t, c, w) → exec (.startRetry) s = .next (if s.tb < t + 1000000 then s else if c = 16 then enterSafe s else beginStart c w s)) ∧
  (∀ (k : Nat) (s : State), (k ≠ 0x5AFE ∨ s.rdN Reg.PWR_STATE ≠ 5) → exec (.rstSafeExit k) s = .next s) ∧
  (∀ (s : State), s.rdN Reg.PWR_STATE = 5 → exec (.rstSafeExit 0x5AFE) s = .next (beginStart 9 false (s.putN Reg.RST_FAILS 0))) ∧
  (∀ (s : State), s.rdN Reg.PWR_STATE ≤ 1 → exec (.rootLockLoss) s = .next s) ∧
  (∀ (s : State), 2 ≤ s.rdN Reg.PWR_STATE → exec (.rootLockLoss) s = .next (dueStart 11 (mainLost (ledgerAdd (ledgerRec s 3 15 0 1 0 0 []) (s.logRec 5 0x0102))))) ∧
  (∀ (s : State), ∃ t, exec (.xtalStop) s = .next t ∧ t.rst.xtalOk = false ∧ t.bit Reg.CLK_STATUS 0 = false ∧ t.bit Reg.CLK_STATUS 6 = false) ∧
  (∀ (s : State), ∃ u, exec (.xtalReturn) s = .next (tryStart u) ∧ u.rst.xtalOk = true ∧ u.bit Reg.CLK_STATUS 0 = true ∧ u.bit Reg.CLK_STATUS 6 = true) ∧
  (∀ (s u : State), u = s.setBit Reg.PWR_STATUS 0 true → ∃ t, exec (.overtempTrip) s = .next t ∧ (u.rdN Reg.PWR_STATE ≤ 1 → t = u) ∧ (2 ≤ u.rdN Reg.PWR_STATE → t.rst.due = some 10)) ∧
  (∀ (s : State), exec (.overtempClear) s = .next (tryStart (s.setBit Reg.PWR_STATUS 0 false))) ∧
  (∀ (ok : Bool) (s : State), s.bit Reg.PWR_HK_STATUS 0 = false → exec (.hkTransaction ok) s = .next s) ∧
  (∀ (s : State), s.bit Reg.PWR_HK_STATUS 0 = true → s.bit Reg.PWR_HK_STATUS 1 = false → exec (.hkTransaction true) s = .next { s with rst := { s.rst with hkRetries := 0 } }) ∧
  (∀ (s u : State), s.bit Reg.PWR_HK_STATUS 0 = true → s.bit Reg.PWR_HK_STATUS 1 = false → u = s.bump Reg.PWR_HK_CRC_ERR → exec (.hkTransaction false) s = .next (if 8 ≤ u.rst.hkRetries then hkRetrain { u with rst := { u.rst with hkRetries := 0 } } else { u with rst := { u.rst with hkRetries := u.rst.hkRetries + 1 } })) ∧
  (∀ (s : State), s.bit Reg.PWR_HK_STATUS 0 = true → s.bit Reg.PWR_HK_STATUS 1 = true → exec (.hkTransaction true) s = .next { (s.putN Reg.PWR_HK_STATUS 1) with rst := { s.rst with hkRetries := 0 } }) ∧
  (∀ (s : State) (n : Nat), s.bit Reg.PWR_HK_STATUS 0 = true → s.bit Reg.PWR_HK_STATUS 1 = true → n = s.fld Reg.PWR_HK_STATUS 2 2 + 1 → exec (.hkTransaction false) s = .next (if 3 ≤ n then hubFault 1 ⟨0, 0, 0⟩ { (s.putN Reg.PWR_HK_STATUS (4 * n)) with rst := { s.rst with hkRetries := 0 } } else hkRetrain (s.putN Reg.PWR_HK_STATUS (1 + 4 * n)))) ∧
  (∀ (t i k : Nat) (s : State), k ≠ 0x7E57 → exec (.rstUnit t i k) s = .next s) ∧
  (∀ (t i : Nat) (s : State), (unitAbsent s t i = true ∨ unitRetired s t i = true ∨ s.rdN Reg.PWR_STATE ≠ 3 ∨ s.tb < s.rst.busyUntil) → exec (.rstUnit t i 0x7E57) s = .next (s.setBit Reg.RST_UNIT_STATUS 1 true)) ∧
  (∀ (t i : Nat) (s u : State), unitAbsent s t i = false → unitRetired s t i = false → s.rdN Reg.PWR_STATE = 3 → s.rst.busyUntil ≤ s.tb → u = resetUnit t i s → ∃ n, exec (.rstUnit t i 0x7E57) s = .next { u with rst := { u.rst with busyUntil := n } } ∧ n = if u.rst.deferred.contains (unitKey t i) then mgetD u.rst.resetAt u.tb (unitKey t i) + 1000 + resetTime t else mgetD u.rst.resetAt u.tb (unitKey t i)) ∧
  (∀ (t i : Nat) (s : State), resetUnit t i s = if unitInReset s t i || s.rst.deferred.contains (unitKey t i) then s else match mget s.rst.resetAt (unitKey t i) with | some d => if s.tb < d + 1000 then { s with rst := { s.rst with deferred := s.rst.deferred ++ [unitKey t i] } } else resetNow t i s | none => resetNow t i s) ∧
  (∀ (t i : Nat) (s : State), i < unitCount t → s.rst.deferred.contains (unitKey t i) = true → mgetD s.rst.resetAt 0 (unitKey t i) + 1000 ≤ s.tb → exec (.unitResetDeferred t i) s = .next (resetNow t i { s with rst := { s.rst with deferred := s.rst.deferred.filter (· != unitKey t i) } })) ∧
  (∀ (t i : Nat) (s : State), i < unitCount t → (s.rst.deferred.contains (unitKey t i) = false ∨ s.tb < mgetD s.rst.resetAt 0 (unitKey t i) + 1000) → exec (.unitResetDeferred t i) s = .next s) ∧
  (∀ (t i : Nat) (s : State), i < unitCount t → s.rst.notices.find? (fun n => n.type == t && n.index == i) = none → exec (.resetNotice t i) s = .next s) ∧
  (∀ (t i : Nat) (s : State) (n : Notice), i < unitCount t → s.rst.notices.find? (fun n => n.type == t && n.index == i) = some n → exec (.resetNotice t i) s = .next (noticeEnd n { s with rst := { s.rst with notices := s.rst.notices.filter (· != n) } }))

/-- STEP_PLAN plans as the scheduler says. PREEMPT_EXPIRE stops a launch 200 us after its notice, and does nothing to one without a notice or before. STEP_START of a step that runs, before its S, or whose predecessor is still there does nothing, and otherwise starts it. STEP_END of a step whose program has not ended, or that has a launch left, does nothing, and otherwise finishes it. A new aligned 10 ms window clears what was used in the last; within a window nothing changes. -/
def Obligations.StepCycleEvents : Prop :=
  (∀ (a : Option Nat) (s : State), exec (.stepPlan a) s = .next (Machine.stepPlan a s)) ∧
  (∀ (id : Nat) (s : State) (l : Launch), s.lch id = some l → exec (.preemptExpire id) s = .next (if l.notice.any (fun t => decide (t + 200 ≤ s.tb)) then preemptLaunch id 200 s else s)) ∧
  (∀ (id : Nat) (s : State), s.lch id = none → exec (.preemptExpire id) s = .next s) ∧
  (∀ (id : Nat) (s : State) (t : Step), s.step? id = some t → (t.running = true ∨ s.tb < t.startS) → exec (.stepStart id) s = .next s) ∧
  (∀ (id : Nat) (s : State) (t : Step), s.step? id = some t → t.running = false → t.startS ≤ s.tb → t.after = none → exec (.stepStart id) s = .next (startStep id t s)) ∧
  (∀ (id : Nat) (s : State) (t : Step), s.step? id = some t → t.ended = true → stepLaunch s id = none → exec (.stepEnd id) s = .next (Machine.stepEnd id t s)) ∧
  (∀ (id : Nat) (s : State), (∀ t, s.step? id = some t → t.ended = false) → exec (.stepEnd id) s = .next s) ∧
  (∀ (s : State), s.sch.window < s.tb / 10000 * 10000 → exec (.reserveWindowBoundary) s = .next { s with sch := { s.sch with window := s.tb / 10000 * 10000, used := [], prefill := [] } }) ∧
  (∀ (s : State), s.tb / 10000 * 10000 ≤ s.sch.window → exec (.reserveWindowBoundary) s = .next s)

/-- PFX_LOOKUP applies a domain commit in flight, and of a context that there is not does no more. BLOCK_PUBLISH of a block that is not due, or that has pages outside T1, does nothing. An evictable entry past its TTL is evicted for AGE, any other entry is left. A KV move earlier than PFX_EARLY before its issue time, or issued already, is not issued; one whose time has passed is counted late and issued. A page at its deadline neither delivered nor counted is counted late once, at the tier of its home at issue; before, or again, nothing happens. ROTATE and PURGE of a SITE domain at a worker set IGNORED; ROTATE while an entry carries the next KEYGEN sets REFUSED, and otherwise raises the KEYGEN; PURGE makes every entry of the domain EVICTING. -/
def Obligations.PrefixStoreAndDeadlines : Prop :=
  (∀ (c : Nat) (s u : State), c < 16384 → u = commitApply s Reg.PFX_DOM_COMMIT → u.ctx c = none → exec (.pfxLookup c) s = .next u) ∧
  (∀ (c : Nat) (s u : State) (x : Ctx) (t : Turn), c < 16384 → u = commitApply s Reg.PFX_DOM_COMMIT → u.ctx c = some x → x.turn = some t → (x.st ≠ .idle ∨ t.fetched = false ∨ t.matched = true) → exec (.pfxLookup c) s = .next u) ∧
  (∀ (c b : Nat) (s : State) (x : Ctx), c < 16384 → s.ctx c = some x → x.due.contains b = false → exec (.blockPublish c b) s = .next s) ∧
  (∀ (n : Nat) (s : State) (e : Entry), s.entry n = some e → e.evictable = true → e.lastUse + ttlUs s e.dom < s.tb → exec (.pfxTtlEvict n) s = .next (evict n 0 s)) ∧
  (∀ (n : Nat) (s : State) (e : Entry), s.entry n = some e → (e.evictable = false ∨ s.tb ≤ e.lastUse + ttlUs s e.dom) → exec (.pfxTtlEvict n) s = .next s) ∧
  (∀ (st c b g : Nat) (s : State) (k : KvPage), kvRow s st c b g = some k → (k.issued = true ∨ s.tb + s.rdN Reg.PFX_EARLY < k.issue) → exec (.kvMoveIssue st c b g) s = .next s) ∧
  (∀ (st c b g : Nat) (s u : State) (k : KvPage), kvRow s st c b g = some k → k.issued = false → k.issue ≤ s.tb + s.rdN Reg.PFX_EARLY → u = (if k.issue < s.tb then s.bump Reg.PFX_LATE_ISSUE else s) → exec (.kvMoveIssue st c b g) s = .next (bringUp c b g (updKv st c b g (fun k => { k with issued := true, tier := homeTier u c b g }) u))) ∧
  (∀ (st c b g : Nat) (s : State) (k : KvPage), kvRow s st c b g = some k → (k.delivered = true ∨ k.late = true ∨ s.tb < k.deadline) → exec (.kvPageDeadline st c b g) s = .next s) ∧
  (∀ (st c b g t : Nat) (s u : State) (k : KvPage), kvRow s st c b g = some k → k.delivered = false → k.late = false → k.deadline ≤ s.tb → t = (if k.issued then k.tier else homeTier s c b g) → u = (updKv st c b g (fun k => { k with late := true, tier := t }) s).traceRec 0x0B 6 0xFFFF [t, s.tb - k.deadline] → exec (.kvPageDeadline st c b g) s = .next (noteTurn c ⟨1, tierRes t, 0⟩ (((u.bump (Reg.PFX_LATE_PAGES t)).bump Reg.TIER_LATE_PAGES).twBump (ctxSlot u c) Reg.TW_LATE_PAGES))) ∧
  (∀ (d : Nat) (s : State), d < 4096 → domSite s d = true → role s = 0 → exec (.pfxDomRotate d) s = .next (s.setBit Reg.PFX_DOM_STATUS 2 true) ∧ exec (.pfxDomPurge d) s = .next (s.setBit Reg.PFX_DOM_STATUS 2 true)) ∧
  (∀ (d : Nat) (s : State), d < 4096 → domSite s d = false → s.pfx.entries.any (fun e => e.2.dom == d && e.2.keygen == (keygen s d + 1) % 16) = true → exec (.pfxDomRotate d) s = .next (s.setBit Reg.PFX_DOM_STATUS 1 true)) ∧
  (∀ (d : Nat) (s : State), d < 4096 → domSite s d = false → s.pfx.entries.any (fun e => e.2.dom == d && e.2.keygen == (keygen s d + 1) % 16) = false → exec (.pfxDomRotate d) s = .next (rotateTo d ((keygen s d + 1) % 16) s) ∧ (∃ u, rotateTo d ((keygen s d + 1) % 16) s = evictWhere (fun e => e.dom == d && e.keygen != (keygen s d + 1) % 16) 3 u ∧ keygen u d = (keygen s d + 1) % 16)) ∧
  (∀ (d : Nat) (s : State), d < 4096 → domSite s d = false → exec (.pfxDomPurge d) s = .next (evictWhere (fun e => e.dom == d) 3 s))

/-- An announcement at a worker is only heard; at a manager without one above it is recorded. A query at a worker, or while firmware is down, is answered STATUS 1 with no match; at a manager without one above it is answered with the longest leading run and its holder. An answer that no lookup waits for goes to the sled whose query was relayed; a miss ends the wait. REMOTE_PIN pins the leading run under a new lease, and answers 0 blocks with lease 0 where there is none. A pin answer that nobody waits for gives its lease back, and one with no blocks does nothing. REMOTE_UNPIN by the node of the lease drops it, and by another nothing more. A lease whose node has been silent for TIER_PEER_LOSS is dropped, another stays. Announcements due are dropped without a chassis manager. -/
def Obligations.PrefixDirectory : Prop :=
  (∀ (src d kg : Nat) (p : Bool) (hs : List DWord) (s : State), role (hear src s) = 0 → exec (.dirAnnounce src d kg p hs) s = .next (hear src s)) ∧
  (∀ (src d kg : Nat) (p : Bool) (hs : List DWord) (s u : State), role (hear src s) ≠ 0 → u = hs.foldl (fun s h => dirNote p ⟨h, d, kg, src⟩ s) (hear src s) → mgrNode u (role u) = none → exec (.dirAnnounce src d kg p hs) s = .next u) ∧
  (∀ (src rtag d kg id : Nat) (hs : List DWord) (s : State), (role (hear src s) = 0 ∨ (hear src s).fwDown = true) → exec (.dirQuery src rtag d kg id hs) s = .next ((hear src s).sendAs 0 rtag 0x52 src [0, domField d kg, id, 0, 1])) ∧
  (∀ (src rtag d kg id : Nat) (hs : List DWord) (s : State), role (hear src s) ≠ 0 → (hear src s).fwDown = false → mgrNode (hear src s) (role (hear src s)) = none → exec (.dirQuery src rtag d kg id hs) s = .next ((hear src s).sendAs 0 rtag 0x52 src [(dirBest (hear src s) d kg hs).2, domField d kg, id, (dirBest (hear src s) d kg hs).1, 0])) ∧
  (∀ (src n d kg id h st : Nat) (s : State), (hear src s).pfx.waits.find? (fun w => w.id == id && w.holder.isNone && w.dom == d && w.keygen == kg) = none → exec (.dirAnswer src n d kg id h st) s = .next (relayAnswer id n d kg h st (hear src s))) ∧
  (∀ (src n d kg id h st : Nat) (s : State) (w : DirWait), (hear src s).pfx.waits.find? (fun w => w.id == id && w.holder.isNone && w.dom == d && w.keygen == kg) = some w → (n = 0 ∨ st ≠ 0) → exec (.dirAnswer src n d kg id h st) s = .next (waitMiss w (hear src s))) ∧
  (∀ (src rtag d kg rq ten : Nat) (hs : List (BitVec 128)) (s u : State) (l : List Nat), remoteRun d kg (hs.take 6) (hear src s) = (l, u) → exec (.remotePin src rtag d kg rq ten hs) s = .next (if l = [] then u.sendAs ten rtag 0x54 src [0, domField d kg, rq, 0] else State.sendAs { u with pfx := { u.pfx with leases := u.pfx.leases ++ [⟨u.pfx.nextLease, src, l, u.tb⟩], nextLease := (u.pfx.nextLease + 1) % 2 ^ 32 } } ten rtag 0x54 src [l.length, domField d kg, rq, u.pfx.nextLease])) ∧
  (∀ (src n d kg rq le : Nat) (s : State), (hear src s).pfx.waits.find? (fun w => w.id == rq && w.holder == some src && w.dom == d && w.keygen == kg) = none → exec (.pinAnswer src n d kg rq le) s = .next (if n = 0 then (hear src s) else State.send { (hear src s) with pfx := { (hear src s).pfx with nextQuery := ((hear src s).pfx.nextQuery + 1) % 65536 } } 0x55 src [(hear src s).pfx.nextQuery, le])) ∧
  (∀ (src n d kg rq le : Nat) (s u : State) (w : DirWait), (hear src s).pfx.waits.find? (fun w => w.id == rq && w.holder == some src && w.dom == d && w.keygen == kg) = some w → u = dropWait w.id (hear src s) → w.live u = true → exec (.pinAnswer src n d kg rq le) s = .next (finishLookup w.ctx (installRun w.ctx w.first (((List.range (w.hashes.take n).length).zip (w.hashes.take n)).map (fun p => (BlockRef.remote le src p.1, (⟨p.2, w.scope, kg⟩ : Link)))) u))) ∧
  (∀ (src le : Nat) (s : State), exec (.remoteUnpin src le) s = .next (if (hear src s).pfx.leases.any (fun l => l.id == le && l.node == src) then dropLease le (hear src s) else (hear src s))) ∧
  (∀ (le : Nat) (s : State) (l : RLease), s.pfx.leases.find? (fun l => l.id == le) = some l → dropLease le s = l.entries.foldl (fun s n => unpin n s) { s with pfx := { s.pfx with leases := s.pfx.leases.filter (fun m => m.id != le) } }) ∧
  (∀ (le : Nat) (s : State) (l : RLease), s.pfx.leases.find? (fun l => l.id == le) = some l → exec (.remoteLeaseExpire le) s = .next (if l.heard + 1000 * s.rdN Reg.TIER_PEER_LOSS ≤ s.tb then dropLease le s else s)) ∧
  (∀ (s : State), mgrNode s 0 = none → exec (.directoryAnnounceDue) s = .next { s with pfx := { s.pfx with announce := [], announceAt := none } }) ∧
  (∀ (s : State) (m : Nat), mgrNode s 0 = some m → ∃ t, exec (.directoryAnnounceDue) s = .next t ∧ t.pfx.announce = [] ∧ t.pfx.announceAt = none)

/-- A link command on a port that is not fitted, or in a state that the command does not belong to, changes nothing. In them: an uncorrectable codeword is counted; an acknowledgement of a held SEQ takes the flits up to it out of the retry buffer and one of no held SEQ changes nothing; a retry request replays from the SEQ named, and a time-out of 2 µs replays from the oldest, while an earlier one does nothing; CREDIT notes the freed counts and sends what it can, and its periodic form sends one; a flit past its escape wait goes to class 7, and past 100 µs it is dropped and counted; HELLO of another version, node range or width is ignored, one with this node ID or of a duplicate fails the port; LANE_MAP notes the mask and changes the width; DOWN_NOTICE leaves the port; EN, retraining, full equalisation, detection, lock and alignment move the port through Table LNK-4. A DATA flit with a wrong CRC-32 is counted and discarded, one that is not the expected SEQ discarded, and RETRY_REQ is sent once until the expected one comes; that one advances the SEQ, and is delivered here, dropped after 15 hops, or routed on. A route write that names a port that is not fitted sets the BAD bit of LNK_RT_STATUS and writes nothing; another lands in the bank not in use while that is staged, and is held while it drains. LNK_RT_COMMIT with bit 0 clear does nothing; with it set the staged flip time takes force. ROUTE_FLIP of a manager sets the epoch and the time. At the flip time the other bank takes force and the old one drains; before it nothing happens; a bank that is not staged, or a manager's flip without every entry, keeps the bank in use and counts the miss. A draining bank that still holds flits, or within 4 ms of the flip, is not released. -/
def Obligations.LinkPortsAndRoutes : Prop :=
  (∀ (p ack x v node pp ln ep st : Nat) (cold : Bool) (fs : List Nat) (m : BitVec 8) (hdr : BitVec 128) (pay : BitVec 864) (crc : Word) (s : State) (c : Instr × List Nat), c ∈ ([(.codewordUncorrectable p, [3, 4, 5, 6]), (.idleFlit p ack, [5]), (.retryReq p ack x, [5]), (.retryAckTimeout p, [5]), (.credit p ack fs, [5]), (.creditPeriodicSend p, [5]), (.escapeWaitExpire p, [5, 6]), (.flitAgeExpire p, [5, 6]), (.hello p v node pp ln ep cold st fs, [4]), (.laneMap p m, [3, 4, 5, 6]), (.downNotice p x, [4, 5, 6]), (.lnkPortRetrain p, [5]), (.lnkPortFullEq p, [1, 2, 3, 4, 5, 6]), (.portDetectRetry p, [1]), (.portSignalDetect p m, [1]), (.portLanesLock p, [2]), (.portAlignDone p, [3, 6]), (.portLockLoss p, [5]), (.dataFlit p hdr pay crc, [5])] : List (Instr × List Nat)) → p < 18 → (s.fitted p && c.2.contains (s.portState p)) = false → exec c.1 s = .next s) ∧
  (∀ (p : Nat) (s : State), p < 18 → s.fitted p = true → s.portState p = 5 → exec (.codewordUncorrectable p) s = .next (s.bump (Reg.LNK_FEC_UNCORR p))) ∧
  (∀ (p : Nat) (ack : Nat) (s u : State), p < 18 → s.fitted p = true → s.portState p = 5 → u = hearPort p s → (u.lport p).unacked.findIdx? (fun u => u.1 == ack) = none → exec (.idleFlit p ack) s = .next u) ∧
  (∀ (p : Nat) (ack i : Nat) (s h u : State), p < 18 → s.fitted p = true → s.portState p = 5 → h = hearPort p s → (h.lport p).unacked.findIdx? (fun u => u.1 == ack) = some i → u = h.updLport p (fun l => { l with unacked := l.unacked.drop (i + 1), replays := 0, ackAt := s.tb }) → exec (.idleFlit p ack) s = .next (pumpPort p (u.draw.2.putN (Reg.LNK_LOOP_NS p) (u.draw.1 % 65536)))) ∧
  (∀ (p : Nat) (ack x : Nat) (s : State), p < 18 → s.fitted p = true → s.portState p = 5 → exec (.retryReq p ack x) s = .next (replayFrom p (some x) (applyAck p ack (hearPort p s)))) ∧
  (∀ (p : Nat) (s : State), p < 18 → s.fitted p = true → s.portState p = 5 → (s.lport p).ackAt + 2 ≤ s.tb → exec (.retryAckTimeout p) s = .next (replayFrom p none s)) ∧
  (∀ (p : Nat) (s : State), p < 18 → s.fitted p = true → s.portState p = 5 → s.tb < (s.lport p).ackAt + 2 → exec (.retryAckTimeout p) s = .next s) ∧
  (∀ (p i : Nat) (x : Option Nat) (s : State), (s.lport p).unacked.drop ((x.bind (fun q => (s.lport p).unacked.findIdx? (fun u => u.1 == q))).getD 0) = [] → replayFrom p x s = s) ∧
  (∀ (p : Nat) (x : Option Nat) (s : State), p < 18 → (s.lport p).unacked.drop ((x.bind (fun q => (s.lport p).unacked.findIdx? (fun u => u.1 == q))).getD 0) ≠ [] → 7 ≤ (s.lport p).replays → (replayFrom p x s).portState p = 6) ∧
  (∀ (p : Nat) (ack : Nat) (fs : List Nat) (s u : State), p < 18 → s.fitted p = true → s.portState p = 5 → applyAck p ack (hearPort p s) = u → exec (.credit p ack fs) s = .next (pumpPort p (u.updLport p (fun l => { l with freedPeer := (List.range 16).foldl (fun m v => mputD m 0 v (fs.getD v 0 % 65536)) l.freedPeer })))) ∧
  (∀ (p : Nat) (s : State), p < 18 → s.fitted p = true → s.portState p = 5 → exec (.creditPeriodicSend p) s = .next (sendCredit p s)) ∧
  (∀ (p : Nat) (s : State) (q : QFlit), p < 18 → s.fitted p = true → s.portState p = 5 → (s.lport p).queue.find? (fun q => [1, 2, 3, 5].contains q.flit.cls && decide (q.since + s.rdN Reg.LNK_ESC_WAIT ≤ s.tb)) = some q → exec (.escapeWaitExpire p) s = .next (routeFlit { q with flit := { q.flit with cls := 7, vc := 0, ocls := q.flit.cls } } ((s.updLport p (fun l => { l with queue := l.queue.eraseP (fun x => x == q) })).bump Reg.LNK_ESCAPES))) ∧
  (∀ (p : Nat) (s : State), p < 18 → s.fitted p = true → s.portState p = 5 → (s.lport p).queue.find? (fun q => [1, 2, 3, 5].contains q.flit.cls && decide (q.since + s.rdN Reg.LNK_ESC_WAIT ≤ s.tb)) = none → exec (.escapeWaitExpire p) s = .next s) ∧
  (∀ (p : Nat) (s : State) (q : QFlit), p < 18 → s.fitted p = true → s.portState p = 6 → (s.lport p).queue.find? (fun q => decide (q.since + 100 ≤ s.tb)) = some q → exec (.flitAgeExpire p) s = .next (freeBuf q.origin ((s.updLport p (fun l => { l with queue := l.queue.eraseP (fun x => x == q) })).bump Reg.LNK_AGE_DROP))) ∧
  (∀ (p : Nat) (s : State), p < 18 → s.fitted p = true → s.portState p = 5 → (∀ q ∈ (s.lport p).queue, s.tb < q.since + 100) → exec (.flitAgeExpire p) s = .next s) ∧
  (∀ (p : Nat) (v node pp ln ep st : Nat) (cold : Bool) (fs : List Nat) (s : State), p < 18 → s.fitted p = true → s.portState p = 4 → (v ≠ 1 ∨ 0x8000 ≤ node ∨ (node ≠ ownNode s ∧ dupPeer s p node st = false ∧ ln ≠ s.fld (Reg.LNK_PORT_STATUS p) 3 4)) → exec (.hello p v node pp ln ep cold st fs) s = .next s) ∧
  (∀ (p : Nat) (node pp ln ep st : Nat) (cold : Bool) (fs : List Nat) (s : State), p < 18 → s.fitted p = true → s.portState p = 4 → node < 0x8000 → (node = ownNode s ∨ dupPeer s p node st = true) → exec (.hello p 1 node pp ln ep cold st fs) s = .next ((s.setBit (Reg.LNK_PORT_STATUS p) 25 true).setPort p 7)) ∧
  (∀ (p : Nat) (node pp ln ep st : Nat) (cold : Bool) (fs : List Nat) (s : State), p < 18 → s.fitted p = true → s.portState p = 4 → node < 0x8000 → ln = s.fld (Reg.LNK_PORT_STATUS p) 3 4 → node ≠ ownNode s → dupPeer s p node st = false → exec (.hello p 1 node pp ln ep cold st fs) s = .next (helloIn p 1 node pp ln ep cold st fs s)) ∧
  (∀ (p : Nat) (m : BitVec 8) (s u : State), p < 18 → s.fitted p = true → s.portState p = 5 → u = widthChange p ((hearPort p s).updLport p (fun l => { l with peerMask := m.toNat })) → exec (.laneMap p m) s = .next (if (lanesOf u p).isNone then retire 2 p 3 (portEvidence u p (8 * p)) u else u)) ∧
  (∀ (p : Nat) (x : Nat) (s : State), p < 18 → s.fitted p = true → s.portState p = 5 → exec (.downNotice p x) s = .next (freeDup (dropPort p (restPort s p) (hearPort p s)))) ∧
  (∀ (p : Nat) (s : State), p < 18 → s.fitted p = true → s.portState p = 0 → (s.setBit (Reg.LNK_PORT_CTRL p) 0 true).portState p = 0 → s.flt.retired.contains (2, p) = false → exec (.lnkPortEn p true) s = .next ((s.setBit (Reg.LNK_PORT_CTRL p) 0 true).setPort p 1)) ∧
  (∀ (p : Nat) (s u : State), p < 18 → s.fitted p = true → u = s.setBit (Reg.LNK_PORT_CTRL p) 0 false → u.portState p = 5 → exec (.lnkPortEn p false) s = .next (leavePort p 0 (sendLink p 2 5 u))) ∧
  (∀ (p : Nat) (en : Bool) (s : State), p < 18 → s.fitted p = false → exec (.lnkPortEn p en) s = .next s) ∧
  (∀ (p : Nat) (s : State), p < 18 → s.fitted p = true → s.portState p = 5 → exec (.lnkPortRetrain p) s = .next (((s.setPort p 6).updLport p (fun l => { l with fullEq := false })).bump (Reg.LNK_RETRAIN p))) ∧
  (∀ (p : Nat) (s : State), p < 18 → s.fitted p = true → s.portState p = 5 → exec (.lnkPortFullEq p) s = .next (((s.setPort p 6).updLport p (fun l => { l with fullEq := true })).bump (Reg.LNK_RETRAIN p))) ∧
  (∀ (p : Nat) (s : State), p < 18 → s.fitted p = true → s.portState p = 5 → exec (.portLockLoss p) s = .next (((s.setPort p 6).updLport p (fun l => { l with fullEq := false })).bump (Reg.LNK_RETRAIN p))) ∧
  (∀ (p : Nat) (s : State), p < 18 → exec (.portDetectRetry p) s = .next s) ∧
  (∀ (p : Nat) (m : BitVec 8) (s : State), p < 18 → s.fitted p = true → s.portState p = 1 → exec (.portSignalDetect p m) s = .next (if 2 ≤ ((List.range 8).filter (fun i => m.getLsbD i)).length then s.setPort p 2 else s)) ∧
  (∀ (p : Nat) (s : State), p < 18 → s.fitted p = true → s.portState p = 2 → exec (.portLanesLock p) s = .next (s.setPort p 3)) ∧
  (∀ (p : Nat) (s : State), p < 18 → s.fitted p = true → s.portState p = 3 → lanesOf s p = none → exec (.portAlignDone p) s = .next (s.setPort p 0)) ∧
  (∀ (p : Nat) (s : State), p < 18 → s.fitted p = true → s.portState p = 3 → lanesOf s p ≠ none → exec (.portAlignDone p) s = .next (alignDone p s)) ∧
  (∀ (p n m : Nat) (s : State), p < 18 → s.portState p = 3 → lanesOf s p = some (m, n) → ∃ u : State, alignDone p s = sendHello p (sendLaneMap p (u.setPort p 4)) ∧ u.fld (Reg.LNK_PORT_STATUS p) 3 4 = n % 16) ∧
  (∀ (p : Nat) (hdr : BitVec 128) (pay : BitVec 864) (crc : Word) (s : State), p < 18 → s.fitted p = true → s.portState p = 5 → crc ≠ flitCrc hdr pay → exec (.dataFlit p hdr pay crc) s = .next (discardFlit p (s.bump (Reg.LNK_CRC_ERR p)))) ∧
  (∀ (p : Nat) (hdr : BitVec 128) (pay : BitVec 864) (crc : Word) (s u : State), p < 18 → s.fitted p = true → s.portState p = 5 → crc = flitCrc hdr pay → flitSound hdr = true → u = (if bits hdr.toNat 7 1 = 1 then applyAck p (bits hdr.toNat 20 12) (hearPort p s) else hearPort p s) → bits hdr.toNat 8 12 ≠ (u.lport p).rxSeq → exec (.dataFlit p hdr pay crc) s = .next (discardFlit p u)) ∧
  (∀ (p : Nat) (hdr : BitVec 128) (pay : BitVec 864) (crc : Word) (s u : State), p < 18 → s.fitted p = true → s.portState p = 5 → crc = flitCrc hdr pay → flitSound hdr = true → u = (if bits hdr.toNat 7 1 = 1 then applyAck p (bits hdr.toNat 20 12) (hearPort p s) else hearPort p s) → bits hdr.toNat 8 12 = (u.lport p).rxSeq → exec (.dataFlit p hdr pay crc) s = .next (sendLink p 0 0 (routeIn p (flitOf hdr pay) (bits hdr.toNat 112 1 == 1) ((u.updLport p (fun l => { l with rxSeq := (bits hdr.toNat 8 12 + 1) % 4096, seeking := false })).bump (Reg.LNK_FLITS_RX p))))) ∧
  (∀ (p : Nat) (s : State), (s.lport p).seeking = true → discardFlit p s = s) ∧
  (∀ (p : Nat) (s : State), (s.lport p).seeking = false → discardFlit p s = sendRetry p (s.updLport p (fun l => { l with seeking := true }))) ∧
  (∀ (p : Nat) (f : Flit) (r : Bool) (s : State), f.dst ≠ ownNode s → f.cls ≠ 6 → f.hops = 15 → routeIn p f r s = freeBuf (some (p, f.chan)) (s.bump Reg.LNK_HOP_DROP)) ∧
  (∀ (p : Nat) (f : Flit) (r : Bool) (s : State), f.dst ≠ ownNode s → f.cls ≠ 6 → f.hops < 15 → routeIn p f r s = routeFlit ⟨{ f with hops := f.hops + 1 }, s.tb, some (p, f.chan)⟩ s) ∧
  (∀ (p : Nat) (f : Flit) (r : Bool) (s : State), (f.dst = ownNode s ∨ f.cls = 6) → routeIn p f r s = freeBuf (some (p, f.chan)) (deliverFlit p f r s)) ∧
  (∀ (i : Nat) (v : DWord) (s : State), i < 112 → rtEntryOk s (v &&& 0x1FFFFFF) = false → exec (.lnkRtWrite i v) s = .next (s.setBit Reg.LNK_RT_STATUS 2 true)) ∧
  (∀ (i : Nat) (v : DWord) (s : State), i < 112 → rtEntryOk s (v &&& 0x1FFFFFF) = true → s.fld Reg.LNK_EPOCH 1 2 < 2 → exec (.lnkRtWrite i v) s = .next { s with lnk := { s.lnk with routes := mputD s.lnk.routes 0 (512 * (1 - s.lnkE) + i) (v &&& 0x1FFFFFF) } }) ∧
  (∀ (i : Nat) (v : DWord) (s : State), i < 112 → rtEntryOk s (v &&& 0x1FFFFFF) = true → 2 ≤ s.fld Reg.LNK_EPOCH 1 2 → exec (.lnkRtWrite i v) s = .next (State.setBit { s with lnk := { s.lnk with held := s.lnk.held ++ [(i, v &&& 0x1FFFFFF)] } } Reg.LNK_RT_STATUS 1 true)) ∧
  (∀ (v : Word) (s : State), v.getLsbD 0 = false → exec (.lnkRtCommit v) s = .next s) ∧
  (∀ (v : Word) (s : State), v.getLsbD 0 = true → ∃ u : State, exec (.lnkRtCommit v) s = .next (u.setBit Reg.LNK_RT_STATUS 0 true) ∧ u.lnk.flipAt = some ((s.stg Reg.LNK_FLIP_AT).toNat, none) ∧ mget u.staged Reg.LNK_FLIP_AT = none) ∧
  (∀ (src e t : Nat) (s : State), ∃ u : State, exec (.routeFlip src e t) s = .next (u.setBit Reg.LNK_RT_STATUS 0 true) ∧ u.lnk.flipAt = some (t, some (e % 2))) ∧
  (∀ (s : State), s.lnk.flipAt = none → exec (.routeFlipTime) s = .next s) ∧
  (∀ (t : Nat) (e : Option Nat) (s : State), s.lnk.flipAt = some (t, e) → s.tb < t → exec (.routeFlipTime) s = .next s) ∧
  (∀ (t : Nat) (e : Option Nat) (s u : State), s.lnk.flipAt = some (t, e) → t ≤ s.tb → u = State.setBit { s with lnk := { s.lnk with flipAt := none } } Reg.LNK_RT_STATUS 0 false → e ≠ some u.lnkE → flipReady u e = false → exec (.routeFlipTime) s = .next (u.bump Reg.HIE_FLIP_MISS)) ∧
  (∀ (t : Nat) (e : Option Nat) (s u : State), s.lnk.flipAt = some (t, e) → t ≤ s.tb → u = State.setBit { s with lnk := { s.lnk with flipAt := none } } Reg.LNK_RT_STATUS 0 false → e ≠ some u.lnkE → flipReady u e = true → ∃ v : State, exec (.routeFlipTime) s = .next (followTime (v.traceRec 0x08 0x0B 0xFFFF [1 - u.lnkE])) ∧ v.lnkE = 1 - u.lnkE ∧ v.fld Reg.LNK_EPOCH 1 2 = 2 ∧ v.lnk.flipAt = none) ∧
  (∀ (s : State), (s.fld Reg.LNK_EPOCH 1 2 ≠ 2 ∨ bankFlits s (1 - s.lnkE) ≠ 0 ∨ s.tb < s.lnk.flippedAt + 4000) → exec (.routeBankRelease) s = .next s) ∧
  (∀ (s : State), s.fld Reg.LNK_EPOCH 1 2 = 2 → bankFlits s (1 - s.lnkE) = 0 → s.lnk.flippedAt + 4000 ≤ s.tb → ∃ u, exec (.routeBankRelease) s = .next u ∧ u.fld Reg.LNK_EPOCH 1 2 = 1 ∧ u.bit Reg.LNK_RT_STATUS 1 = false ∧ u.lnk.held = [])

/-- STALE learns the epoch of its sender and ends the request it names with ABORTED_TARGET_RESET and the epoch that request carried; without such a request it only learns. PING is answered with the copied tag and TB; PONG is kept. PAGE_PUT with a stored length outside 64 to 65,600, or with no room in either tier, is refused with a status, and otherwise opens the page in the first tier that has room. PAGE_GET of a page not held is answered FAULT_HANDLE, of one held whole with its bytes and DONE. MOVE_DONE of an unknown move only ends its request; an error ends the move with that status, and DONE for a page sent here commits its part. PAGE_RELEASE takes the pages named away. BULK_DATA of a page not yet complete is put in its place; the chunk that completes it makes the page whole and is answered DONE where its CRC-32 checks, or discards it and is refused. PEER_MOVE_STALL discards the partial pages of the move that have been silent for TIER_PEER_TO. -/
def Obligations.PeerTierMessages : Prop :=
  (∀ (src tag e : Nat) (s u : State) (r : Req), u = (hear src s).updPeer src (fun p => { p with epoch := e }) → u.lnk.reqs.find? (fun (r : Req) => r.tag == tag && r.dest == src) = some r → exec (.stale src tag e) s = .next (abortReq r ⟨0x30, 7, r.epoch⟩ u)) ∧
  (∀ (src tag e : Nat) (s u : State), u = (hear src s).updPeer src (fun p => { p with epoch := e }) → u.lnk.reqs.find? (fun (r : Req) => r.tag == tag && r.dest == src) = none → exec (.stale src tag e) s = .next u) ∧
  (∀ (src tag t : Nat) (s : State), exec (.ping src tag t) s = .next ((hear src s).sendAs 0 tag 0x11 src [tag, (hear src s).tb])) ∧
  (∀ (src tag t : Nat) (s : State), exec (.pong src tag t) s = .next { (hear src s) with lnk := { (hear src s).lnk with pong := some (src, tag, t) } }) ∧
  (∀ (src tag mv : Nat) (hd : DWord) (page st : Nat) (crc : Word) (s : State), (st < 64 ∨ 65600 < st) → ∃ r : Status, r.code = 0x40 ∧ exec (.pagePut src tag mv hd page st crc) s = .next (sendMoveDone src tag (hTenant hd) mv r 0 0 (hear src s))) ∧
  (∀ (src tag mv : Nat) (hd : DWord) (page st : Nat) (crc : Word) (s : State), 64 ≤ st → st ≤ 65600 → lendRoom (hear src s) 1 < round4K st → lendRoom (hear src s) 2 < round4K st → exec (.pagePut src tag mv hd page st crc) s = .next (sendMoveDone src tag (hTenant hd) mv ⟨0x20, 7, 1⟩ 0 0 (hear src s))) ∧
  (∀ (src tag mv : Nat) (hd : DWord) (page st : Nat) (crc : Word) (s : State), 64 ≤ st → st ≤ 65600 → round4K st ≤ lendRoom (hear src s) 1 → ∃ x : Xfer, exec (.pagePut src tag mv hd page st crc) s = .next { (hear src s) with lnk := { (hear src s).lnk with lent := (hear src s).lnk.lent.filter (fun (y : Xfer) => !(y.node == src && y.handle == hd && y.page == page)) ++ [x] } } ∧ x.node = src ∧ x.move = mv ∧ x.tier = 1 ∧ x.stored = st ∧ x.crc = crc ∧ x.whole = false) ∧
  (∀ (src tag mv : Nat) (hd : DWord) (page : Nat) (s : State), (hear src s).lnk.lent.find? (fun (x : Xfer) => x.node == src && x.handle == hd && x.page == page && x.whole) = none → exec (.pageGet src tag false mv hd page) s = .next (sendMoveDone src tag (hTenant hd) mv ⟨0x42, 0, 0xFFFF⟩ 0 0 (hear src s))) ∧
  (∀ (src tag mv : Nat) (hd : DWord) (page : Nat) (s : State), leasedPage (hear src s) (bits hd.toNat 0 32) src page = none → exec (.pageGet src tag true mv hd page) s = .next (sendMoveDone src tag 0 mv ⟨0x42, 0, 0xFFFF⟩ 0 0 (hear src s))) ∧
  (∀ (src tag mv : Nat) (hd : DWord) (page : Nat) (s : State) (x : Xfer), (hear src s).lnk.lent.find? (fun (x : Xfer) => x.node == src && x.handle == hd && x.page == page && x.whole) = some x → exec (.pageGet src tag false mv hd page) s = .next (sendMoveDone src tag (hTenant hd) mv ⟨0, 0, 0⟩ x.bytes.length (crcOf x.bytes).toNat (sendBulk (hTenant hd) tag src mv x.bytes (hear src s)))) ∧
  (∀ (src tag mv : Nat) (st : Word) (n : Nat) (crc : Word) (s u : State), u = { (hear src s) with lnk := { (hear src s).lnk with reqs := (hear src s).lnk.reqs.filter (fun (r : Req) => !(r.tag == tag && r.dest == src)) } } → u.move mv = none → exec (.moveDone src tag mv st n crc) s = .next u) ∧
  (∀ (src tag mv : Nat) (st : Word) (n : Nat) (crc : Word) (s u : State) (m : Move), u = { (hear src s) with lnk := { (hear src s).lnk with reqs := (hear src s).lnk.reqs.filter (fun (r : Req) => !(r.tag == tag && r.dest == src)) } } → u.move mv = some m → (m.dst = 4 ∨ m.src = 4) → bits st.toNat 0 8 ≠ 0 → exec (.moveDone src tag mv st n crc) s = .next (failMove m ⟨bits st.toNat 0 8, bits st.toNat 8 8, bits st.toNat 16 16⟩ u)) ∧
  (∀ (src tag mv : Nat) (st : Word) (n : Nat) (crc : Word) (s u : State) (m : Move), u = { (hear src s) with lnk := { (hear src s).lnk with reqs := (hear src s).lnk.reqs.filter (fun (r : Req) => !(r.tag == tag && r.dest == src)) } } → u.move mv = some m → m.dst = 4 → bits st.toNat 0 8 = 0 → exec (.moveDone src tag mv st n crc) s = .next (peerPart m n u)) ∧
  (∀ (src mv : Nat) (hd : DWord) (a n : Nat) (s : State), exec (.pageRelease src mv hd a n) s = .next { (hear src s) with lnk := { (hear src s).lnk with lent := (hear src s).lnk.lent.filter (fun (x : Xfer) => !(x.node == src && x.handle == hd && decide (a ≤ x.page) && decide (x.page < a + n))) } }) ∧
  (∀ (src tag mv off : Nat) (d : List Byte) (s : State) (x : Xfer), (hear src s).lnk.lent.find? (fun (x : Xfer) => x.node == src && x.move == mv && x.tag == tag && !x.whole) = some x → (x.put (hear src s).tb off d).complete = false → exec (.bulkData src tag mv off d) s = .next { (hear src s) with lnk := { (hear src s).lnk with lent := (hear src s).lnk.lent.filter (fun (z : Xfer) => z != x) ++ [x.put (hear src s).tb off d] } }) ∧
  (∀ (src tag mv off : Nat) (d : List Byte) (s : State) (x : Xfer), (hear src s).lnk.lent.find? (fun (x : Xfer) => x.node == src && x.move == mv && x.tag == tag && !x.whole) = some x → (x.put (hear src s).tb off d).complete = true → crcOf (x.put (hear src s).tb off d).bytes = x.crc → exec (.bulkData src tag mv off d) s = .next (sendMoveDone src tag (hTenant x.handle) mv ⟨0, 0, 0⟩ x.stored x.crc.toNat { (hear src s) with lnk := { (hear src s).lnk with lent := (hear src s).lnk.lent.filter (fun (z : Xfer) => z != x) ++ [{ x.put (hear src s).tb off d with whole := true }] } })) ∧
  (∀ (src tag mv off : Nat) (d : List Byte) (s : State) (x : Xfer), (hear src s).lnk.lent.find? (fun (x : Xfer) => x.node == src && x.move == mv && x.tag == tag && !x.whole) = some x → (x.put (hear src s).tb off d).complete = true → crcOf (x.put (hear src s).tb off d).bytes ≠ x.crc → ∃ r : Status, r.code = 0x40 ∧ exec (.bulkData src tag mv off d) s = .next (sendMoveDone src tag (hTenant x.handle) mv r 0 0 { (hear src s) with lnk := { (hear src s).lnk with lent := (hear src s).lnk.lent.filter (fun (z : Xfer) => z != x) } })) ∧
  (∀ (src mv : Nat) (s : State), exec (.peerMoveStall src mv) s = .next { s with lnk := { s.lnk with lent := s.lnk.lent.filter (fun (x : Xfer) => !(x.node == src && x.move == mv && !x.whole && decide (x.heard + 1000 * s.rdN Reg.TIER_PEER_TO ≤ s.tb))) } })

/-- A span message whose SPAN_ID names no launch with its sender changes nothing more than having heard the sender. COLL_PART and COLL_DATA are taken where every rank here has issued the collective and otherwise kept. SPAN_PUT within the tile store of a rank here writes it and is acknowledged; SPAN_GET is answered with the bytes in pieces of 96; SPAN_SIGNAL adds to the semaphore of the rank; SPAN_BAR of the sled at its place notes its barrier, and from another place does nothing more. SPAN_DATA without the request it answers, and SPAN_ACK with nothing waiting, change nothing more. TIME_SYNC_TICK of the root does nothing; without a port UP it counts a miss, and the third begins holdover. A replayed SYNC flit is only counted. SYNC_RESP on another port, or that answers no request, does nothing; the first one locks and steps TB by the offset of R266, later ones slew at 100 times it in hundredths of a tick. -/
def Obligations.SpanMessagesAndSiteTime : Prop :=
  (∀ (src seq sp off tag r n : Nat) (ws : List Word) (bs : List Byte) (v : Word) (s : State) (c : Instr), spanLaunch (hear src s) src sp = none → c ∈ ([(.collPart src seq sp off ws), (.collData src seq sp off bs), (.spanPut src tag r sp off bs), (.spanGet src tag r sp off n), (.spanSignal src r sp n v), (.spanBar src seq sp n), (.spanAck src sp n)] : List Instr) → exec c s = .next (hear src s)) ∧
  (∀ (src seq sp off : Nat) (ws : List Word) (s : State) (id : Nat) (l : Launch), spanLaunch (hear src s) src sp = some (id, l) → collReady (hear src s) l seq = true → exec (.collPart src seq sp off ws) s = .next (collTake id false seq off (ws.map (·.toNat)) (hear src s))) ∧
  (∀ (src seq sp off : Nat) (ws : List Word) (s : State) (id : Nat) (l : Launch), spanLaunch (hear src s) src sp = some (id, l) → collReady (hear src s) l seq = false → exec (.collPart src seq sp off ws) s = .next ((hear src s).updLch id (fun l => { l with collIn := l.collIn ++ [(false, seq, off, ws.map (·.toNat))] }))) ∧
  (∀ (src seq sp off : Nat) (bs : List Byte) (s : State) (id : Nat) (l : Launch), spanLaunch (hear src s) src sp = some (id, l) → collReady (hear src s) l seq = true → exec (.collData src seq sp off bs) s = .next (collTake id true seq off (bs.map (·.toNat)) (hear src s))) ∧
  (∀ (src seq sp off : Nat) (bs : List Byte) (s : State) (id : Nat) (l : Launch), spanLaunch (hear src s) src sp = some (id, l) → collReady (hear src s) l seq = false → exec (.collData src seq sp off bs) s = .next ((hear src s).updLch id (fun l => { l with collIn := l.collIn ++ [(true, seq, off, bs.map (·.toNat))] }))) ∧
  (∀ (src tag r sp off : Nat) (bs : List Byte) (s u : State) (id k : Nat) (l : Launch), spanLaunch (hear src s) src sp = some (id, l) → clusterOfRank l r = some k → off + bs.length ≤ 3145728 → u = (hear src s).updClu k (fun c => c.store off bs) → exec (.spanPut src tag r sp off bs) s = .next (u.sendAs (tenId u l.slot) tag 0x47 src [sp, tag])) ∧
  (∀ (src tag r sp off n : Nat) (s : State) (id : Nat) (l : Launch) (c : Cluster), spanLaunch (hear src s) src sp = some (id, l) → (clusterOfRank l r).bind (hear src s).clu = some c → off + n ≤ 3145728 → exec (.spanGet src tag r sp off n) s = .next ((List.range (cdiv n 96)).foldl (fun s i => s.sendAs (tenId s l.slot) tag 0x46 src ([((c.bytes (off + 96 * i) (min 96 (n - 96 * i))).map (·.toNat)).length, r, sp, off + 96 * i] ++ (c.bytes (off + 96 * i) (min 96 (n - 96 * i))).map (·.toNat))) (hear src s))) ∧
  (∀ (src r sp sem : Nat) (v : Word) (s : State) (id k : Nat) (l : Launch), spanLaunch (hear src s) src sp = some (id, l) → clusterOfRank l r = some k → exec (.spanSignal src r sp sem v) s = .next (addSem k sem v (hear src s))) ∧
  (∀ (src i sp n : Nat) (s : State) (id : Nat) (l : Launch), spanLaunch (hear src s) src sp = some (id, l) → (l.span[i]?).any (fun m => m.1 == src) = true → exec (.spanBar src i sp n) s = .next (tryBar id ((hear src s).updLch id (fun l => { l with barsIn := l.barsIn.filter (fun (b : Nat × Nat) => b.1 != src) ++ [(src, n)] })))) ∧
  (∀ (src i sp n : Nat) (s : State) (id : Nat) (l : Launch), spanLaunch (hear src s) src sp = some (id, l) → (l.span[i]?).any (fun m => m.1 == src) = false → exec (.spanBar src i sp n) s = .next (hear src s)) ∧
  (∀ (src tag sp off : Nat) (bs : List Byte) (s : State), taggedMove (hear src s) src tag = none → exec (.spanData src tag sp off bs) s = .next (hear src s)) ∧
  (∀ (src sp n : Nat) (s : State) (id : Nat) (l : Launch), spanLaunch (hear src s) src sp = some (id, l) → (∀ k ∈ l.clusters, ∀ c, (hear src s).clu k = some c → c.moves = []) → exec (.spanAck src sp n) s = .next (hear src s)) ∧
  (∀ (s : State), s.bit Reg.LNK_TIME_PARENT 5 = true → exec (.timeSyncTick) s = .next s) ∧
  (∀ (s : State), s.bit Reg.LNK_TIME_PARENT 5 = false → s.portUp (s.fld Reg.LNK_TIME_PARENT 0 5) = false → s.lnk.sync.misses < 2 → exec (.timeSyncTick) s = .next { s with lnk := { s.lnk with sync := { s.lnk.sync with misses := s.lnk.sync.misses + 1 } } }) ∧
  (∀ (s : State), s.bit Reg.LNK_TIME_PARENT 5 = false → (s.lnk.sync.t1.isSome = true ∨ s.portUp (s.fld Reg.LNK_TIME_PARENT 0 5) = false) → 2 ≤ s.lnk.sync.misses → ∃ t, exec (.timeSyncTick) s = .next t ∧ t.bit Reg.LNK_TIME_STATUS 1 = true) ∧
  (∀ (s : State) (x : Nat × State), s.bit Reg.LNK_TIME_PARENT 5 = false → s.portUp (s.fld Reg.LNK_TIME_PARENT 0 5) = true → s.lnk.sync.t1 = none → s.lnk.sync.misses < 3 → x = linkTicks s → ∃ u, exec (.timeSyncTick) s = .next (sendSync (s.fld Reg.LNK_TIME_PARENT 0 5) 0x68 [(s.lnk.sync.seq + 1) % 65536, x.1] u) ∧ u.lnk.sync.t1 = some x.1) ∧
  (∀ (p q t : Nat) (s : State), p < 18 → exec (.syncReq p q t true) s = .next ((hearPort p s).bump Reg.LNK_SYNC_DISCARD)) ∧
  (∀ (p q t : Nat) (s : State), p < 18 → ∃ t2 t3 st u, exec (.syncReq p q t false) s = .next (sendSync p 0x69 [q, t, t2, t3, st] u) ∧ t2 / 6400 = s.tb) ∧
  (∀ (p q a b c : Nat) (lk : Bool) (st : Nat) (rp : Bool) (s : State), p < 18 → p ≠ s.fld Reg.LNK_TIME_PARENT 0 5 → exec (.syncResp p q a b c lk st rp) s = .next s) ∧
  (∀ (q a b c : Nat) (lk : Bool) (st : Nat) (s : State) (p : Nat), p < 18 → p = s.fld Reg.LNK_TIME_PARENT 0 5 → (s.lnk.sync.t1 = none ∨ q ≠ s.lnk.sync.seq) → exec (.syncResp p q a b c lk st false) s = .next (hearPort p s)) ∧
  (∀ (q a b c : Nat) (lk : Bool) (st : Nat) (s : State) (p : Nat), p < 18 → p = s.fld Reg.LNK_TIME_PARENT 0 5 → exec (.syncResp p q a b c lk st true) s = .next ((hearPort p s).bump Reg.LNK_SYNC_DISCARD)) ∧
  (∀ (q a b c : Nat) (lk : Bool) (st : Nat) (s : State) (p t1 : Nat), p < 18 → p = s.fld Reg.LNK_TIME_PARENT 0 5 → s.lnk.sync.t1 = some t1 → q = s.lnk.sync.seq → s.lnk.sync.locked = false → ∃ t, exec (.syncResp p q a b c lk st false) s = .next t ∧ (t.tb : Int) = max 0 ((s.tb : Int) + syncOffset t1 a b c / 6400) ∧ t.lnk.sync.locked = true ∧ t.lnk.sync.t1 = none ∧ t.lnk.sync.misses = 0) ∧
  (∀ (q a b c : Nat) (lk : Bool) (st : Nat) (s : State) (p t1 : Nat), p < 18 → p = s.fld Reg.LNK_TIME_PARENT 0 5 → s.lnk.sync.t1 = some t1 → q = s.lnk.sync.seq → s.lnk.sync.locked = true → ∃ t, exec (.syncResp p q a b c lk st false) s = .next t ∧ t.tb = s.tb ∧ t.lnk.sync.slew = 100 * syncOffset t1 a b c ∧ t.lnk.sync.t1 = none ∧ t.lnk.sync.misses = 0) ∧
  (∀ (a b c d : Int), syncOffset a b c d = ((b - a) - (d - c)) / 2 ∧ syncDelay a b c d = ((d - a) - (c - b)) / 2)

/-- A lease write through a function whose access reaches the device renews its lease, and for the PF ends host-absent mode; a period in 100 to 60,000 ms is taken and another ignored, and either renews; an access that does not reach the device does nothing. LEASE_EXPIRE of a VF whose lease has run out parks its tenants and revokes their regions, and PF_LEASE_EXPIRE enters host-absent mode; before the lease has run out both do nothing. A write stall of a function already stalled, and its exit when it is not stalled, do nothing; a new stall is counted and traced. A read that has waited HIF_STALL_TO ends ABORTED_HOST_STALL and is counted; earlier, or of an unknown tag, nothing. A completion of the read's length hands its bytes on; of another length, of a blocked function or an unknown tag, it does nothing. An unexpected completion is counted and logged in AER. A request error or a poisoned completion is counted; on no read or move outstanding it does nothing more. Of a command's read, a request error revokes the region and ends the command with FAULT_DMA, and a poisoned completion ends it; on a ring, the ACTIVE queue goes to ERROR. A poisoned fetch of a T3 page poisons it and ends its move. Unmasking a vector sends what is pending. Clearing Bus Master Enable and entering D3hot set the state of that function alone. An insecure IDE stream is counted and blocks every function of its range and no other. FLR of a VF that VF Enable shows resets it and is counted, of another it does nothing; clearing VF Enable resets all VFs and leaves none; PF FLR and a conventional reset reset every function, leave no VF, and enter host-absent mode. A reset of a function leaves its lease expired, bus mastering and memory space off, no vector enabled, and the lease period 2,000. -/
def Obligations.HostInterfaceEvents : Prop :=
  (∀ (f : Nat) (win : Option Nat) (v : Word) (s : State), f < 32 → reaches s f win = true → ∃ u, u = s.updFn f (fun n => { n with leaseLive := true, leaseAt := s.tb }) ∧ exec (.twLeaseWrite f win v) s = .next (if f = 0 then u.setBit Reg.HIF_HOST_ABSENT 0 false else u)) ∧
  (∀ (f : Nat) (win : Option Nat) (v : Word) (s : State), f < 32 → reaches s f win = false → exec (.twLeaseWrite f win v) s = .next s) ∧
  (∀ (f : Nat) (win : Option Nat) (v : Word) (s : State), f < 32 → reaches s f win = true → 100 ≤ bits v.toNat 0 16 → bits v.toNat 0 16 ≤ 60000 → exec (.twLeasePeriodWrite f win v) s = .next (leaseWrite f (s.fnPut f Reg.TW_LEASE_PERIOD (bits v.toNat 0 16)))) ∧
  (∀ (f : Nat) (win : Option Nat) (v : Word) (s : State), f < 32 → reaches s f win = true → (bits v.toNat 0 16 < 100 ∨ 60000 < bits v.toNat 0 16) → exec (.twLeasePeriodWrite f win v) s = .next (leaseWrite f s)) ∧
  (∀ (f : Nat) (win : Option Nat) (v : Word) (s : State), f < 32 → reaches s f win = false → exec (.twLeasePeriodWrite f win v) s = .next s) ∧
  (∀ (f : Nat) (s : State), 0 < f → f < 32 → (s.fn f).leaseLive = true → (s.fn f).leaseAt + 1000 * s.fnRd f Reg.TW_LEASE_PERIOD < s.tb → exec (.leaseExpire f) s = .next ((tenantsOf s f).foldl (fun s i => revokeRegions i (fun _ => true) (parkTenant i s)) (leaseGone f s))) ∧
  (∀ (f : Nat) (s : State), 0 < f → f < 32 → ((s.fn f).leaseLive = false ∨ s.tb ≤ (s.fn f).leaseAt + 1000 * s.fnRd f Reg.TW_LEASE_PERIOD) → exec (.leaseExpire f) s = .next s) ∧
  (∀ (s : State), (s.fn 0).leaseLive = true → (s.fn 0).leaseAt + 1000 * s.fnRd 0 Reg.TW_LEASE_PERIOD < s.tb → exec (.pfLeaseExpire) s = .next (enterHostAbsent (leaseGone 0 s))) ∧
  (∀ (s : State), ((s.fn 0).leaseLive = false ∨ s.tb ≤ (s.fn 0).leaseAt + 1000 * s.fnRd 0 Reg.TW_LEASE_PERIOD) → exec (.pfLeaseExpire) s = .next s) ∧
  (∀ (s : State), hostAbsent (enterHostAbsent s) = true) ∧
  (∀ (f : Nat) (w : Bool) (s : State), f < 32 → (s.fn f).wrStalled = true → exec (.writeStallTimeout f w) s = .next s) ∧
  (∀ (f : Nat) (s : State), f < 32 → (s.fn f).wrStalled = false → exec (.writeStallTimeout f true) s = .next (stallWrites f (((s.bump Reg.HIF_WR_STALL).traceRec 0x0C 2 f [f, 1]).updFn f (fun n => { n with wrStalled := true })))) ∧
  (∀ (f : Nat) (s : State), f < 32 → (s.fn f).wq = [] → exec (.writeStallTimeout f false) s = .next s) ∧
  (∀ (f : Nat) (s : State), f < 32 → (s.fn f).wrStalled = false → exec (.writeStallExit f) s = .next s) ∧
  (∀ (f : Nat) (s : State), f < 32 → (s.fn f).blocked = false → (s.fn f).wrStalled = true → ∃ t, exec (.writeStallExit f) s = .next (sendPending f t)) ∧
  (∀ (tag : Nat) (s : State) (r : HostRead), s.reads.find? (fun (r : HostRead) => r.tag == tag) = some r → r.since + 1000 * s.rdN Reg.HIF_STALL_TO ≤ s.tb → exec (.readStallTimeout tag) s = .next (readStall r s)) ∧
  (∀ (tag : Nat) (s : State) (r : HostRead), s.reads.find? (fun (r : HostRead) => r.tag == tag) = some r → s.tb < r.since + 1000 * s.rdN Reg.HIF_STALL_TO → exec (.readStallTimeout tag) s = .next s) ∧
  (∀ (tag : Nat) (s : State), s.reads.find? (fun (r : HostRead) => r.tag == tag) = none → exec (.readStallTimeout tag) s = .next s) ∧
  (∀ (tag : Nat) (d : List Nat) (s : State) (r : HostRead), s.reads.find? (fun (r : HostRead) => r.tag == tag) = some r → (s.fn r.fn).blocked = false → d.length = r.len → exec (.dmaReadComplete tag d) s = .next (readDone r d s)) ∧
  (∀ (tag : Nat) (d : List Nat) (s : State) (r : HostRead), s.reads.find? (fun (r : HostRead) => r.tag == tag) = some r → ((s.fn r.fn).blocked = true ∨ d.length ≠ r.len) → exec (.dmaReadComplete tag d) s = .next s) ∧
  (∀ (tag : Nat) (d : List Nat) (s : State), s.reads.find? (fun (r : HostRead) => r.tag == tag) = none → exec (.dmaReadComplete tag d) s = .next s) ∧
  (∀ (f : Nat) (s : State), f < 32 → exec (.unexpectedCompletion f) s = .next ((s.bump Reg.HIF_UNEXP_CPL).updFn f (fun n => { n with aerUnc := n.aerUnc ||| 2 ^ 16, aerCor := n.aerCor ||| 2 ^ 13 }))) ∧
  (∀ (acc : HostAccess) (s : State), ((∃ tag, acc = .read tag ∧ s.reads.find? (fun (r : HostRead) => r.tag == tag) = none) ∨ (∃ id, acc = .move id ∧ s.move id = none)) → exec (.hostRequestError acc) s = .next (s.bump Reg.HIF_UR_CA) ∧ exec (.poisonedCompletion acc) s = .next (s.bump Reg.HIF_POISON_RX)) ∧
  (∀ (tag id : Nat) (s : State) (r : HostRead), s.reads.find? (fun (r : HostRead) => r.tag == tag) = some r → r.use = .write id → ∃ u, exec (.hostRequestError (.read tag)) s = .next (finish id ⟨0x40, 0, 3⟩ 0 (revokeAt r.slot r.iova u)) ∧ u = aer r.fn 20 true (dropRead tag (s.bump Reg.HIF_UR_CA))) ∧
  (∀ (tag id : Nat) (s : State) (r : HostRead), s.reads.find? (fun (r : HostRead) => r.tag == tag) = some r → r.use = .write id → ∃ u, exec (.poisonedCompletion (.read tag)) s = .next (finish id ⟨0x40, 0, 3⟩ 0 u) ∧ u = aer r.fn 12 true (dropRead tag (s.bump Reg.HIF_POISON_RX))) ∧
  (∀ (id : Nat) (s : State) (m : Move), s.move id = some m → m.src = 3 → ∃ u, exec (.poisonedCompletion (.move id)) s = .next (failMove m ⟨0x40, 0, 3⟩ (poisonPage m.slot m.obj m.page u)) ∧ u = aer (fnOf u m.slot) 12 true (s.bump Reg.HIF_POISON_RX)) ∧
  (∀ (sl q : Nat) (s : State), (s.que sl q).st = .active → ∃ u v, exec (.hostRequestError (.ring sl q)) s = .next u ∧ exec (.poisonedCompletion (.ring sl q)) s = .next v ∧ (u.que sl q).st = .error ∧ (v.que sl q).st = .error) ∧
  (∀ (f v : Nat) (s : State), f < 32 → v < (if f = 0 then 2048 else 64) → exec (.msixUnmask f v) s = .next (sendPending f (s.updFn f (fun n => { n with unmasked := if n.unmasked.contains v then n.unmasked else n.unmasked ++ [v] })))) ∧
  (∀ (f : Nat) (s : State), f < 32 → exec (.bmeClear f) s = .next (s.updFn f (fun n => { n with bme := false }))) ∧
  (∀ (f : Nat) (s : State), f < 32 → exec (.d3hotEntry f) s = .next (s.updFn f (fun n => { n with d3hot := true }))) ∧
  (∀ (st a b f : Nat) (s : State), st < 2 → a < 32 → b < 32 → f < 32 → ∃ t, exec (.ideStreamInsecure st a b) s = .next t ∧ (t.fn f).ideInsecure = (decide (a ≤ f ∧ f ≤ b) || (s.fn f).ideInsecure) ∧ t.rdN Reg.HIF_IDE_FAIL = (s.bump Reg.HIF_IDE_FAIL).rdN Reg.HIF_IDE_FAIL) ∧
  (∀ (f : Nat) (s : State), 0 < f → f < 32 → f ≤ s.hif.vfs → exec (.vfFlr f) s = .next ((resetFn f s).bump Reg.HIF_FLR)) ∧
  (∀ (f : Nat) (s : State), 0 < f → f < 32 → s.hif.vfs < f → exec (.vfFlr f) s = .next s) ∧
  (∀ (s : State), ∃ t, exec (.vfEnableClear) s = .next t ∧ t.hif.vfs = 0 ∧ t.hif.vfMse = false) ∧
  (∀ (s : State), exec (.pfFlr) s = .next ((resetPf s).bump Reg.HIF_FLR) ∧ hostAbsent (resetPf s) = true ∧ (resetPf s).hif.vfs = 0) ∧
  (∀ (k sp w : Nat) (s : State), sp < 7 → w < 17 → exec (.conventionalReset k sp w) s = .next (linkTrained sp w ((resetPf s).bump Reg.HIF_FLR))) ∧
  (∀ (f : Nat) (s : State), f < 32 → ((resetFn f s).fn f).leaseLive = false ∧ ((resetFn f s).fn f).bme = false ∧ ((resetFn f s).fn f).mse = false ∧ ((resetFn f s).fn f).msixEn = false ∧ (resetFn f s).fnRd f Reg.TW_LEASE_PERIOD = 2000)

/-- A conversion ends while supplied, and otherwise nothing happens. A clipped modulator is counted and its outputs marked. An urgent request with a reserved period is ignored; of a retired converter it is answered UNIT_RETIRED; of one that holds a request, or that for DROP is not idle, it is answered BUSY and counted; otherwise it waits at its converter. A commit of channels that all run waits for their boundaries; a group that stages a reserved period is ignored, another taken. A self-calibration that starts while one runs does nothing, and one that completes is over. The reference check is due at the next converter in rotation that is not retired. A system calibration that starts while one runs does nothing; a bad target or reference is rejected; otherwise it runs. With fewer than 16 outputs its phase goes on, and with 16 it ends, kept only where its result is good. Only the key saves the table. Autoranging up takes the next gain after a second of low outputs. -/
def Obligations.ConvertersAndCalibration : Prop :=
  (∀ (n : Nat) (nv : Int) (s : State), n < 4 → s.hld.ph = .supplied → exec (.icConversionEnd n nv) s = .next (icEvent n nv s)) ∧
  (∀ (n : Nat) (nv : Int) (s : State), n < 4 → s.hld.ph ≠ .supplied → exec (.icConversionEnd n nv) s = .next s) ∧
  (∀ (ch : Nat) (s u : State), ch < 8 → u = unsettle ch (s.bump (Reg.ADC_SD_RESETS ch)) → u.adc.sdCal = none → exec (.sdModulatorClip ch) s = .next u) ∧
  (∀ (cv : Option Nat) (i p : Nat) (s : State), urgUnit cv = true → i < 16 → 4 < p → exec (.adcUrgFinish cv i p) s = .next s) ∧
  (∀ (n i p : Nat) (s : State), n < 4 → i < 16 → p ≤ 4 → icRetired s n = true → exec (.adcUrgFinish (some n) i p) s = .next (s.putN Reg.ADC_URG_STATUS (256 * 0x33 + 65536 * n))) ∧
  (∀ (n i p : Nat) (s : State), n < 4 → i < 16 → p ≤ 4 → icRetired s n = false → urgHeld s n = true → exec (.adcUrgFinish (some n) i p) s = .next ((s.bump Reg.ADC_URG_REJECT).putN Reg.ADC_URG_STATUS (256 * 0x24 + 65536 * n))) ∧
  (∀ (n i p : Nat) (s : State), n < 4 → i < 16 → p ≤ 4 → icRetired s n = false → urgHeld s n = false → ∃ u : State, exec (.adcUrgFinish (some n) i p) s = .next (fill n (pll s) (u.updIc n (fun c => { c with urg := some ⟨.pf, i, p, pll s⟩ }))) ∧ u.rdN Reg.ADC_URG_STATUS = 1 + 65536 * n) ∧
  (∀ (cv : Option Nat) (i p : Nat) (s : State), urgUnit cv = true → i < 16 → 4 < p → exec (.adcUrgDrop cv i p) s = .next s) ∧
  (∀ (n i p : Nat) (s : State), n < 4 → i < 16 → p ≤ 4 → icRetired s n = false → icIdle s n = false → exec (.adcUrgDrop (some n) i p) s = .next ((s.bump Reg.ADC_DROPCNT).putN Reg.ADC_URG_STATUS (256 * 0x24 + 65536 * n))) ∧
  (∀ (n i p : Nat) (s : State), n < 4 → i < 16 → p ≤ 4 → icIdle s n = true → exec (.adcUrgDrop (some n) i p) s = .next (fill n (pll s) ((s.putN Reg.ADC_URG_STATUS (1 + 65536 * n)).updIc n (fun c => { c with urg := some ⟨.pf, i, p, pll s⟩ })))) ∧
  (∀ (s : State), (∀ ch, ch < 8 → decEn (commitTake s Reg.ADC_SD_COMMIT sdGroup) ch = true) → exec (.adcSdCommit) s = .next (commitTake s Reg.ADC_SD_COMMIT sdGroup)) ∧
  (∀ (s : State), (stagedOf s icGroup).any icReserved = true → exec (.adcIcCommit) s = .next s) ∧
  (∀ (s : State), (stagedOf s icGroup).any icReserved = false → exec (.adcIcCommit) s = .next (commitTake s Reg.ADC_IC_COMMIT icGroup)) ∧
  (∀ (s : State), s.adc.sdCal.isSome = true → exec (.adcSdCalStart) s = .next s) ∧
  (∀ (s : State), s.adc.sdCal = none → exec (.adcSdCalStart) s = .next (showCalBusy { s with adc := { s.adc with sdCal := some s.tb, sdClip := [] } })) ∧
  (∀ (z r : List Nat) (s : State), s.adc.sdCal = none → exec (.sdCalComplete z r) s = .next s) ∧
  (∀ (z r : List Nat) (s : State), s.adc.sdCal.isSome = true → (∀ ch, ch < 8 → sdRetired s ch = true) → ∃ t, exec (.sdCalComplete z r) s = .next t ∧ t.adc.sdCal = none ∧ t.adc.sdOff = s.adc.sdOff ∧ t.adc.sdGain = s.adc.sdGain) ∧
  (∀ (z r : List Nat) (s : State) (ch : Nat), sdRetired s ch = false → z.getD ch 0 = 12288 → r.getD ch 0 = 22118 → s.adc.sdClip.contains ch = false → ∃ g, (sdCalCh z r s ch).adc.sdOff = mput s.adc.sdOff ch ⟨0, 24576⟩ ∧ (sdCalCh z r s ch).adc.sdGain = mput s.adc.sdGain ch g ∧ ch ∉ (sdCalCh z r s ch).adc.sdUncal) ∧
  (∀ (s : State), s.adc.calQueue ≠ [] → exec (.adcIcCalStart) s = .next s) ∧
  (∀ (s : State), s.adc.calQueue = [] → exec (.adcIcCalStart) s = .next (nextCal (pll s) { s with adc := { s.adc with calQueue := [0, 1, 2, 3] } })) ∧
  (∀ (s : State), (∀ n, n < 4 → icRetired s n = true) → exec (.referenceCheckTick) s = .next s) ∧
  (∀ (s u : State), s.adc.refNext < 4 → icRetired s s.adc.refNext = false → u = s.updIc s.adc.refNext (fun c => { c with refDue := true }) → exec (.referenceCheckTick) s = .next (if (u.ic s.adc.refNext).slot.isNone then fill s.adc.refNext (pll u) u else u)) ∧
  (∀ (full ic : Bool) (t i g : Nat) (s : State), t < 8 → i < 16 → s.bit Reg.ADC_SYSCAL_STATUS 0 = true → exec (.adcSyscalZero ic t i g) s = .next s ∧ exec (.adcSyscalFull ic t i g) s = .next s) ∧
  (∀ (t i g : Nat) (s : State), t < 8 → i < 16 → s.bit Reg.ADC_SYSCAL_STATUS 0 = false → exec (.adcSyscalZero false t i g) s = .next { s.putN Reg.ADC_SYSCAL_STATUS 1 with adc := { s.adc with syscal := some ⟨false, t, i, g, false, settleCount (respOf (s.putN Reg.ADC_SYSCAL_STATUS 1) t), 0, ⟨0, 1⟩, false⟩ } }) ∧
  (∀ (t i g : Nat) (s : State), 3 < t → t < 8 → i < 16 → s.bit Reg.ADC_SYSCAL_STATUS 0 = false → exec (.adcSyscalZero true t i g) s = .next (s.putN Reg.ADC_SYSCAL_STATUS 6)) ∧
  (∀ (ic : Bool) (t i g : Nat) (s : State), t < 8 → i < 16 → s.bit Reg.ADC_SYSCAL_STATUS 0 = false → (s.adc.zeroOk.contains (sysKey ic t i g) = false ∨ (signed 24 (s.rdN Reg.ADC_SYSCAL_REF)).natAbs < 2 ^ 21) → exec (.adcSyscalFull ic t i g) s = .next (s.putN Reg.ADC_SYSCAL_STATUS 6)) ∧
  (∀ (t i g : Nat) (s : State), t < 8 → i < 16 → s.bit Reg.ADC_SYSCAL_STATUS 0 = false → s.adc.zeroOk.contains (sysKey false t i g) = true → 2 ^ 21 ≤ (signed 24 (s.rdN Reg.ADC_SYSCAL_REF)).natAbs → ∃ x, exec (.adcSyscalFull false t i g) s = .next { s.putN Reg.ADC_SYSCAL_STATUS 1 with adc := { s.adc with syscal := some x } } ∧ x.full = true ∧ x.unit = t ∧ x.gain = g ∧ x.count = 0) ∧
  (∀ (s : State), (∀ x, s.adc.syscal = some x → x.count < 16) → exec (.syscalPhaseComplete) s = .next s) ∧
  (∀ (s : State) (x : SysCal), s.adc.syscal = some x → 16 ≤ x.count → ∃ t, exec (.syscalPhaseComplete) s = .next t ∧ t.adc.syscal = none ∧ (x.bad = true → t.adc.sys = s.adc.sys ∧ t.fld Reg.ADC_SYSCAL_STATUS 1 2 = 3)) ∧
  (∀ (k : Nat) (s : State), exec (.adcSyscalSave k) s = .next (if k = 0x5CA1 then State.putN { s with adc := { s.adc with saving := some s.adc.sys } } Reg.ADC_SYSCAL_SAVE_STATUS 0 else s)) ∧
  (∀ (ch : Nat) (s : State), ch < 8 → (ch < 3 ∨ ch = 7 ∨ s.bit (Reg.ADC_SD_CFG ch) 3 = false ∨ s.fld (Reg.ADC_SD_CFG ch) 19 3 ≤ gainOf s ch ∨ mget s.adc.low ch = none) → exec (.autorangeUp ch) s = .next s) ∧
  (∀ (ch t : Nat) (s : State), 3 ≤ ch → ch < 7 → s.bit (Reg.ADC_SD_CFG ch) 3 = true → gainOf s ch < s.fld (Reg.ADC_SD_CFG ch) 19 3 → mget s.adc.low ch = some t → t + 1000000 ≤ s.tb → exec (.autorangeUp ch) s = .next (changeGain ch (gainOf s ch + 1) { s with adc := { s.adc with low := mdel s.adc.low ch } }))

/-- An output of a disabled channel, before its end, without supply, or before the chain has started changes nothing. While a ΣΔ self-calibration runs, a channel other than 0 delivers the MISSING word and keeps its modulator windows; under response 7 it delivers its 16 bits as they are; a gain or selector committed for it then takes effect; under the others the word that its filters form, and then its gain may step. A group that is rejected sets the status bit and is counted, and another waits for the boundary of channel 0. An edge is ignored without a word where the chain does not follow it, is counted where it comes within 3,200 cycles of another, and else synchronises two edges on. DEC_CTRL requests one at the next edge, and an armed one at its time, or at once with LATE where that has passed. With no request due nothing happens; the earliest due takes effect. A capture that runs is not started again, and one of an enabled channel begins empty. -/
def Obligations.DecimationChain : Prop :=
  (∀ (ch : Nat) (ones : List Bool) (s : State), ch < 8 → (decEn s ch = false ∨ s.tb < decDue s ch / 640 ∨ s.hld.ph ≠ .supplied ∨ s.dec.stopped = true) → exec (.decOutput ch ones) s = .next s) ∧
  (∀ (ch : Nat) (ones : List Bool) (s u : State), ch < 8 → decEn s ch = true → decDue s ch / 640 ≤ s.tb → s.hld.ph = .supplied → s.dec.stopped = false → ch ≠ 0 → s.adc.sdCal.isSome = true → u = s.updDch ch (fun d => { d with winLen := (windows ones (s.dch ch)).winLen, winOnes := (windows ones (s.dch ch)).winOnes, ovrSpan := (windows ones (s.dch ch)).ovrSpan }) → exec (.decOutput ch ones) s = .next (applySd ch (decDeliver ch (decDue s ch) missingWord ⟨0, 1⟩ u))) ∧
  (∀ (ch : Nat) (ones : List Bool) (s : State), ch < 8 → decEn s ch = true → decDue s ch / 640 ≤ s.tb → s.hld.ph = .supplied → s.dec.stopped = false → ch ≠ 0 → s.adc.sdCal = none → sdRetired s ch = false → respOf s ch = 7 → exec (.decOutput ch ones) s = .next (applySd ch (decDeliver ch (decDue s ch) (BitVec.ofNat 32 (256 * (ones.take 16).foldl (fun n b => 2 * n + b2n b) 0)) ⟨0, 1⟩ s))) ∧
  (∀ (ch : Nat) (ones : List Bool) (s : State), ch < 8 → decEn s ch = true → decDue s ch / 640 ≤ s.tb → s.hld.ph = .supplied → s.dec.stopped = false → ch ≠ 0 → s.adc.sdCal = none → sdRetired s ch = false → respOf s ch ≠ 7 → exec (.decOutput ch ones) s = .next (rangeDown ch (wordFlag (formed ch ones s).2.1 2) (endMark ch (countMark ch (decDeliver ch (decDue s ch) (formed ch ones s).2.1 (formed ch ones s).2.2 (formed ch ones s).1))))) ∧
  (∀ (s : State), decBad s = true → exec (.decCommit) s = .next ((s.setBit Reg.DEC_STATUS 0 true).bump Reg.DEC_CFG_REJECT)) ∧
  (∀ (s : State), decBad s = false → decEn (commitTake s Reg.DEC_COMMIT decGroup) 0 = true → exec (.decCommit) s = .next (commitTake s Reg.DEC_COMMIT decGroup)) ∧
  (∀ (f : Nat) (s : State), s.bit Reg.DEC_MODE 1 = false → exec (.mtrSyncEdge f) s = .next s) ∧
  (∀ (f : Nat) (s : State), s.bit Reg.DEC_MODE 1 = true → s.dec.syncs.any (fun x => decide (pll s + f < x.1 + 3200 ∧ x.1 ≤ pll s + f + 3200)) = true → exec (.mtrSyncEdge f) s = .next (s.bump Reg.DEC_SYNC_IGNORED)) ∧
  (∀ (f : Nat) (s : State), s.bit Reg.DEC_MODE 1 = true → s.dec.syncs = [] → s.rdN Reg.DEC_SYNC_STEPS = 0 → s.rdN Reg.DEC_SYNC_ALIGNED = 0 → exec (.mtrSyncEdge f) s = .next { s with dec := { s.dec with syncs := [(cdiv (pll s + f) 50 * 50 + 100, false)] } }) ∧
  (∀ (s : State), exec (.decCtrlSync) s = .next (addSync (cdiv (pll s) 50 * 50) false s)) ∧
  (∀ (s u : State), u = State.setBit { s with dec := { s.dec with syncs := s.dec.syncs.filter (fun x => !x.2) } } Reg.DEC_CTRL 1 true → s.tb ≤ s.rdN Reg.DEC_SYNC_AT → exec (.decCtrlArm) s = .next (addSync (cdiv (640 * s.rdN Reg.DEC_SYNC_AT) 50 * 50) true u)) ∧
  (∀ (s u : State), u = State.setBit (State.setBit { s with dec := { s.dec with syncs := s.dec.syncs.filter (fun x => !x.2) } } Reg.DEC_CTRL 1 true) Reg.DEC_STATUS 1 true → s.rdN Reg.DEC_SYNC_AT < s.tb → exec (.decCtrlArm) s = .next (addSync (cdiv (pll s) 50 * 50) true u)) ∧
  (∀ (s : State), s.dec.syncs.filter (fun x => decide (x.1 / 640 ≤ s.tb)) = [] → exec (.decSyncInstant) s = .next s) ∧
  (∀ (a : Nat) (s : State), s.dec.syncs = [(a, false)] → a / 640 ≤ s.tb → exec (.decSyncInstant) s = .next (decSync a { s with dec := { s.dec with syncs := [] } })) ∧
  (∀ (a : Nat) (s : State), s.dec.syncs = [(a, true)] → a / 640 ≤ s.tb → exec (.decSyncInstant) s = .next (decSync a (State.setBit { s with dec := { s.dec with syncs := [] } } Reg.DEC_CTRL 1 false))) ∧
  (∀ (a : Nat) (s : State), decEn s 0 = true → s.dec.origin < a → (a - s.dec.origin) % (50 * decRatio (respOf s 0)) ≠ 0 → (decSync a s).dec.origin = a ∧ ∀ ch, ch < 8 → ((decSync a s).dch ch).seq = 0) ∧
  (∀ (m : Nat) (s : State), s.bit Reg.DEC_CAP_CTRL 9 = true → exec (.decCaptureStart m) s = .next s) ∧
  (∀ (m : Nat) (s u : State), s.bit Reg.DEC_CAP_CTRL 9 = false → u = { s.putN Reg.DEC_CAP_CTRL (m % 256 + 512) with dec := { s.dec with capGot := [] } } → capChans u ≠ [] → exec (.decCaptureStart m) s = .next u)

/-- Without supply no cycle ends and no half cycle counts. A sled cycle ends at a multiple of 20,000 µs and not elsewhere; a crossing counts in an AC mode only; a TB-aligned cycle is metered unless the frequency is valid in an AC mode. The frequency is lost after 40 ms without a crossing while it is valid, and not before. The first half cycle of an element is kept. A pulse that is not due is not emitted; one that is due raises its pin and is counted, and falls after its width. The energy counters are written to FRAM; the key alone clears them, at the next boundary. A rejected group sets its status bit and is counted. A calibration runs alone and over 10 to 250 cycles, 0 standing for 50. The 1 ms power shows nothing without samples. A read of MTR_CYC_SEQ latches the value registers for its requester. -/
def Obligations.MeteringCommands : Prop :=
  (∀ (sl cr : Bool) (n : Nat) (l : List (List Int)) (s : State), s.hld.ph ≠ .supplied → exec (.mtrCycleEnd sl cr n l) s = .next s) ∧
  (∀ (cr : Bool) (n : Nat) (l : List (List Int)) (s : State), s.hld.ph = .supplied → exec (.mtrCycleEnd true cr n l) s = .next (if s.tb % 20000 = 0 then sledCycle s else s)) ∧
  (∀ (n : Nat) (l : List (List Int)) (s : State), s.hld.ph = .supplied → exec (.mtrCycleEnd false true n l) s = .next (if mtrAc s then crossing n l s else s)) ∧
  (∀ (n : Nat) (l : List (List Int)) (s : State), s.hld.ph = .supplied → (s.tb % 20000 ≠ 0 ∨ s.tb = 0 ∨ (mtrAc s = true ∧ freqValid s = true)) → exec (.mtrCycleEnd false false n l) s = .next s) ∧
  (∀ (n : Nat) (l : List (List Int)) (s : State), s.hld.ph = .supplied → s.tb % 20000 = 0 → s.tb ≠ 0 → (mtrAc s = false ∨ freqValid s = false) → exec (.mtrCycleEnd false false n l) s = .next (feedEnd (640 * s.tb - 12800000) 12800000 l s)) ∧
  (∀ (st n : Nat) (l : List (List Int)) (s : State), s.mtr.cycAt = st → mtrElems (mtrMode s) = [] → feedCycle st n l s = s ∧ feedEnd st n l s = feedBoundary (st + n) false s) ∧
  (∀ (s : State), freqValid s = true → s.mtr.crossAt + 40000 ≤ s.tb → exec (.freqLossTimeout) s = .next (freqChange false (s.mtr.line.getD 0) { s with mtr := { s.mtr with good := 0, cycAt := pll s } })) ∧
  (∀ (s : State), (freqValid s = false ∨ s.tb < s.mtr.crossAt + 40000) → exec (.freqLossTimeout) s = .next s) ∧
  (∀ (v : Bool) (n : Nat) (s : State), freqValid (freqChange v n s) = v) ∧
  (∀ (e : Nat) (l : List Int) (s : State), e < 3 → (s.hld.ph ≠ .supplied ∨ mtrAc s = false ∨ (mtrElems (mtrMode s)).any (fun x => x.1 == e) = false) → exec (.mtrHalfCycle e l) s = .next s) ∧
  (∀ (e : Nat) (l : List Int) (s : State), e < 3 → s.hld.ph = .supplied → mtrAc s = true → (mtrElems (mtrMode s)).any (fun x => x.1 == e) = true → mget s.mtr.half e = none → exec (.mtrHalfCycle e l) s = .next { s with mtr := { s.mtr with half := mput s.mtr.half e (dot l l).natAbs } }) ∧
  (∀ (k : Nat) (s : State), k < 3 → (s.hld.ph ≠ .supplied ∨ s.bit Reg.MTR_CFG 6 = false ∨ cfFree s k = false ∨ ((s.cfo k).due = false ∧ s.rdN (Reg.MTR_CF_BACKLOG k) = 0)) → exec (.cfPulseEmit k) s = .next s) ∧
  (∀ (k : Nat) (s : State), k < 3 → s.hld.ph = .supplied → s.bit Reg.MTR_CFG 6 = true → cfFree s k = true → (s.cfo k).due = true → ∃ u w, exec (.cfPulseEmit k) s = .next (cfPin k true (State.bump u (Reg.MTR_CF_CNT k))) ∧ u = s.updCf k (fun c => { c with due := false, high := true, width := w, rise := some s.tb })) ∧
  (∀ (k : Nat) (s : State), k < 3 → (s.cfo k).high = true → ((s.cfo k).rise.getD 0) + (s.cfo k).width ≤ s.tb → exec (.cfPulseEnd k) s = .next (cfPin k false (s.updCf k (fun c => { c with high := false, fall := some s.tb })))) ∧
  (∀ (k : Nat) (s : State), k < 3 → ((s.cfo k).high = false ∨ s.tb < ((s.cfo k).rise.getD 0) + (s.cfo k).width) → exec (.cfPulseEnd k) s = .next s) ∧
  (∀ (s : State), s.hld.ph ≠ .off → exec (.mtrFramFlushTick) s = .next { s with mtr := { s.mtr with nvE := energyCells.foldl (fun m a => mputD m 0 a (s.rdN a)) [], nvRem := s.mtr.rem } }) ∧
  (∀ (k : Nat) (s : State), exec (.mtrEclr k) s = .next (if k = 0xE0C1 then { s with mtr := { s.mtr with clear := true } } else s)) ∧
  (∀ (s : State), mtrBad s = true → exec (.mtrCommit) s = .next ((s.setBit Reg.MTR_STATUS 1 true).bump Reg.MTR_CFG_REJECT)) ∧
  (∀ (s : State), mtrBad s = false → exec (.mtrCommit) s = .next (commitTake s Reg.MTR_COMMIT mtrGroup)) ∧
  (∀ (e n : Nat) (s : State), e < 3 → (s.mtr.cal.isSome = true ∨ (n ≠ 0 ∧ n < 10) ∨ 250 < n) → exec (.mtrCalGain e n) s = .next s ∧ exec (.mtrCalPhase e n) s = .next s) ∧
  (∀ (e n : Nat) (s : State), e < 3 → s.mtr.cal = none → 10 ≤ n → n ≤ 250 → exec (.mtrCalGain e n) s = .next (State.putN { s with mtr := { s.mtr with cal := some { phase := false, elem := e, n := n }, saving := false } } Reg.MTR_CAL_STATUS 1)) ∧
  (∀ (e : Nat) (s : State), e < 3 → s.mtr.cal = none → exec (.mtrCalPhase e 0) s = .next (State.putN { s with mtr := { s.mtr with cal := some { phase := true, elem := e, n := 50 }, saving := false } } Reg.MTR_CAL_STATUS 1)) ∧
  (∀ (s : State), s.mtr.msN = 0 → exec (.sledP1msTick) s = .next { s with mtr := { s.mtr with ms := 0, msN := 0, toCap := none } }) ∧
  (∀ (s u : State), u = { s with mtr := { s.mtr with ms := 0, msN := 0, toCap := none } } → sledMeterOn s = true → s.bit Reg.MTR_STATUS 9 = false → s.mtr.msN ≠ 0 → s.hld.ph = .supplied → ∃ p, exec (.sledP1msTick) s = .next (putVal Reg.MTR_SLED_P1MS p { u with mtr := { u.mtr with toCap := some p } }) ∧ p = milli (meanOf (sledScale u) (chScale u 7) s.mtr.ms s.mtr.msN)) ∧
  (∀ (r : Nat) (s : State), exec (.mtrCycSeqRead r) s = .next (State.emit { s with latches := ⟨r, none, Reg.MTR_CYC_SEQ, valueWords s⟩ :: s.latches.filter (fun l => !(l.requester == r && l.addr == Reg.MTR_CYC_SEQ)) } (.read r ((valueWords s).take 1))))

/-- An update of no zone does nothing; one that is refused leaves REFUSED_POLICY with its detail at every zone named and is counted; with both slots of a zone taken it leaves BUSY; otherwise it takes the running slot, or the pending one, of every zone and wakes the panel. With the rails not up a frame boundary does nothing. A rail step with the rails down does nothing; a failed rise is a rail fault; a good one enables the next rail. The rails fall once the hold time has passed without an update. A rail fault counts with rails up or rising only; the retry comes after 100 ms with the rails down. A word of the status zone, or of a party that does not own the body, is denied and counted; while the body runs an update it is dropped and counted; otherwise it sets sixteen pixels. A table set needs its key, is rejected where it does not check, and is applied when the panel is idle. The wake button counts and lights until its time ends. -/
def Obligations.PanelCommands : Prop :=
  (∀ (c : (Nat → Nat → Instr) × Nat) (p z : Nat) (s : State), (c ∈ ([(.pnlUpdateFull, 0), (.pnlUpdatePartial, 1), (.pnlUpdateClear, 2)] : List ((Nat → Nat → Instr) × Nat))) → p < 3 → zonesOf z = [] → exec (c.1 p z) s = .next s) ∧
  (∀ (c : (Nat → Nat → Instr) × Nat) (p z : Nat) (s : State) (d : Nat), (c ∈ ([(.pnlUpdateFull, 0), (.pnlUpdatePartial, 1), (.pnlUpdateClear, 2)] : List ((Nat → Nat → Instr) × Nat))) → p < 3 → zonesOf z ≠ [] → updRefusal p c.2 (zonesOf z) s = some d → d ≠ 3 → exec (c.1 p z) s = .next ((zonesOf z).foldl (fun s z => updStatus z ⟨0x22, 0, d⟩ s) (s.bump Reg.PNL_REFUSED))) ∧
  (∀ (c : (Nat → Nat → Instr) × Nat) (p z : Nat) (s : State), (c ∈ ([(.pnlUpdateFull, 0), (.pnlUpdatePartial, 1), (.pnlUpdateClear, 2)] : List ((Nat → Nat → Instr) × Nat))) → p < 3 → zonesOf z ≠ [] → updRefusal p c.2 (zonesOf z) s = some 3 → exec (c.1 p z) s = .next ((zonesOf z).foldl (fun s z => updStatus z ⟨0x22, 0, 3⟩ s) ((s.bump Reg.PNL_FB_DENIED).bump Reg.PNL_REFUSED))) ∧
  (∀ (c : (Nat → Nat → Instr) × Nat) (p z : Nat) (s : State), (c ∈ ([(.pnlUpdateFull, 0), (.pnlUpdatePartial, 1), (.pnlUpdateClear, 2)] : List ((Nat → Nat → Instr) × Nat))) → p < 3 → zonesOf z ≠ [] → updRefusal p c.2 (zonesOf z) s = none → (zonesOf z).any (fun z => (mget s.pnl.run z).isSome && (mget s.pnl.pend z).isSome) = true → exec (c.1 p z) s = .next ((zonesOf z).foldl (fun s z => updStatus z ⟨0x24, 0, 0⟩ s) (s.bump Reg.PNL_REFUSED))) ∧
  (∀ (c : (Nat → Nat → Instr) × Nat) (p z : Nat) (s : State), (c ∈ ([(.pnlUpdateFull, 0), (.pnlUpdatePartial, 1), (.pnlUpdateClear, 2)] : List ((Nat → Nat → Instr) × Nat))) → p < 3 → zonesOf z ≠ [] → updRefusal p c.2 (zonesOf z) s = none → (zonesOf z).any (fun z => (mget s.pnl.run z).isSome && (mget s.pnl.pend z).isSome) = false → exec (c.1 p z) s = .next (showPnl (wakePanel ((zonesOf z).foldl (takeSlot c.2 []) s)))) ∧
  (∀ (s : State), s.pnl.rails ≠ .up → exec (.panelFrameBoundary) s = .next s) ∧
  (∀ (s : State), s.pnl.rails = .up → s.pnl.checking = [] → exec (.panelFrameBoundary) s = .next (frameBoundary s)) ∧
  (∀ (ok : Bool) (s : State), s.pnl.rails = .down → exec (.panelRailStep ok) s = .next s) ∧
  (∀ (n : Nat) (s : State), s.pnl.rails = .rising n → exec (.panelRailStep false) s = .next (railFault s)) ∧
  (∀ (n : Nat) (s : State), s.pnl.rails = .rising n → exec (.panelRailStep true) s = .next (if n < 5 then { s with pnl := { s.pnl with rails := .rising (n + 1) } } else railsUp s)) ∧
  (∀ (ok : Bool) (n : Nat) (s : State), s.pnl.rails = .falling n → 1 < n → exec (.panelRailStep ok) s = .next { s with pnl := { s.pnl with rails := .falling (n - 1) } }) ∧
  (∀ (s : State), s.pnl.holdAt = none → exec (.panelRailHoldExpire) s = .next s) ∧
  (∀ (t : Nat) (s : State), s.pnl.holdAt = some t → s.pnl.rails = .up → scanning s = false → s.pnl.run = [] → t + 1000 * s.fld Reg.PNL_CFG 16 14 ≤ s.tb → exec (.panelRailHoldExpire) s = .next (showPnl (lowerRails s))) ∧
  (∀ (t : Nat) (s : State), s.pnl.holdAt = some t → s.tb < t + 1000 * s.fld Reg.PNL_CFG 16 14 → exec (.panelRailHoldExpire) s = .next s) ∧
  (∀ (s : State), (s.pnl.rails = .up ∨ ∃ n, s.pnl.rails = .rising n) → exec (.panelRailFault) s = .next (railFault s)) ∧
  (∀ (s : State), s.pnl.rails = .down → exec (.panelRailFault) s = .next s) ∧
  (∀ (s : State), s.pnl.failAt = none → exec (.panelRailRetry) s = .next s) ∧
  (∀ (t : Nat) (s : State), s.pnl.failAt = some t → t + 100000 ≤ s.tb → s.pnl.rails = .down → exec (.panelRailRetry) s = .next { s with pnl := { s.pnl with failAt := none, retrying := true, rails := .rising 1 } }) ∧
  (∀ (t : Nat) (s : State), s.pnl.failAt = some t → s.tb < t + 100000 → exec (.panelRailRetry) s = .next s) ∧
  (∀ (p o : Nat) (v : Word) (s : State), o < 30000 → p < 3 → (o < 4000 ∨ p ≠ s.rdN Reg.PNL_BODY_OWN ∨ p = 0) → exec (.pnlFbWrite p o v) s = .next (s.bump Reg.PNL_FB_DENIED)) ∧
  (∀ (p o : Nat) (v : Word) (s : State), o < 30000 → 4000 ≤ o → p < 3 → p = s.rdN Reg.PNL_BODY_OWN → p ≠ 0 → (mget s.pnl.run 1).isSome = true → exec (.pnlFbWrite p o v) s = .next (s.bump Reg.PNL_FB_BUSY_DROP)) ∧
  (∀ (p o : Nat) (v : Word) (s : State), o < 30000 → 4000 ≤ o → p < 3 → p = s.rdN Reg.PNL_BODY_OWN → p ≠ 0 → mget s.pnl.run 1 = none → ∃ i, exec (.pnlFbWrite p o v) s = .next { s with pnl := { s.pnl with next := mput s.pnl.next 1 i } } ∧ ∀ k, k < 16 → mgetD i.px (i.base.level (4 * (o / 4 * 4) + k)) (4 * (o / 4 * 4) + k) = bits v.toNat (2 * k) 2) ∧
  (∀ (k : Nat) (s : State), k ≠ 0x7AB1 → exec (.pnlTblCommit k) s = .next s) ∧
  (∀ (s u : State), u = State.setBit { s with pnl := { s.pnl with waiting := some (stagedSet s) } } Reg.PNL_TBL_STATUS 17 true → exec (.pnlTblCommit 0x7AB1) s = .next (if setAccepted (some (stagedSet s)) then (if scanning u then u else tableApply u) else s.setBit Reg.PNL_TBL_STATUS 16 true)) ∧
  (∀ (s u : State), u = commitTake s Reg.PNL_COMMIT pnlGroup → exec (.pnlCommit) s = .next (if scanning u then u else pnlApply u)) ∧
  (∀ (o : Nat) (s : State), o ≤ 2 → ∃ t, exec (.pnlBodyOwnWrite o) s = .next t ∧ t.rdN Reg.PNL_BODY_OWN = o) ∧
  (∀ (o : Nat) (s : State), 2 < o → exec (.pnlBodyOwnWrite o) s = .next s) ∧
  (∀ (s u : State), u = s.bump Reg.PNL_WAKE_CNT → exec (.pnlWakePress) s = .next (redrawStatus (showLight { u with pnl := { u.pnl with wakeUntil := some (u.tb + 1000000 * u.fld Reg.PNL_FL_WAKE 8 10) } }))) ∧
  (∀ (t : Nat) (s : State), s.pnl.wakeUntil = some t → t ≤ s.tb → exec (.pnlWakeExpire) s = .next (showLight { s with pnl := { s.pnl with wakeUntil := none } })) ∧
  (∀ (s : State), (∀ t, s.pnl.wakeUntil = some t → s.tb < t) → exec (.pnlWakeExpire) s = .next s)

/-- Without power of the Lodge die none of these commands does anything, and without a probe no scan does. ROLE_ELIG takes effect only when sampled equal twice; a change of the slot straps is noted. LDG_LOCATION takes its written bits. An address write of fewer than 4 bytes does nothing; one for a read keeps address and length. A read without an address write sends 0xFF. SETDASA of this target's static address and SETAASA give a dynamic address while there is none, ENTDAA also sends the identity, RSTDAA takes it away; the GET codes answer only with a dynamic address. Unplugging the probe resets both TAPs. BYPASS shifts by one bit; with the package TAP out of the chain its scans do nothing; a boundary scan while locked is a bypass. IDCODE sends 32 bits. REGACC returns what the access before left; while locked, outside the Lodge window and the registers served in SAFE it is DENIED. UNLOCK without a signature only reads, and a signature that does not check, or outside STANDBY and SAFE, does not unlock. -/
def Obligations.SidebandAndServicePort : Prop :=
  (∀ (st a d n : Nat) (e : Bool) (cb : BitVec 4) (v : Word) (bs : List Byte) (dn : List Bool) (dw : DWord) (s : State) (c : Instr), c ∈ ([.strapSample st e cb, .ldgLocationWrite v, .sidebandAddressWrite bs, .sidebandRead n, .setdasa a d, .setaasa, .entdaa d, .rstdaa, .getpid, .getbcr, .getdcr, .getstatus, .svcPresenceChange e, .bypass e dn, .idcode e, .extest e dn, .samplePreload e dn, .regacc dw, .unlock bs] : List Instr) → s.hld.ph = .off → exec c s = .next s) ∧
  (∀ (e : Bool) (bs : List Byte) (dn : List Bool) (dw : DWord) (s : State) (c : Instr), c ∈ ([.bypass e dn, .idcode e, .extest e dn, .samplePreload e dn, .regacc dw, .unlock bs] : List Instr) → s.tap.present = false → exec c s = .next s) ∧
  (∀ (st : Nat) (e : Bool) (cb : BitVec 4) (s u : State), s.hld.ph ≠ .off → u = sampleSlot st (sampleCables cb s) → u.rst.elig ≠ e → exec (.strapSample st e cb) s = .next { u with rst := { u.rst with elig := e } }) ∧
  (∀ (st : Nat) (e : Bool) (cb : BitVec 4) (s u : State), s.hld.ph ≠ .off → u = sampleSlot st (sampleCables cb s) → u.rst.elig = e → u.bit Reg.LDG_STRAP 6 = e → exec (.strapSample st e cb) s = .next u) ∧
  (∀ (st : Nat) (s : State), st ≠ s.rst.straps → (sampleSlot st s).rst.straps = st ∧ (sampleSlot st s).bit Reg.LDG_STRAP 15 = true) ∧
  (∀ (v : Word) (s : State), s.hld.ph ≠ .off → ∃ t, exec (.ldgLocationWrite v) s = .next t ∧ t.rdN Reg.LDG_LOCATION = (v &&& 0x87FF).toNat) ∧
  (∀ (bs : List Byte) (s : State), s.hld.ph ≠ .off → bs.length < 4 → exec (.sidebandAddressWrite bs) s = .next s) ∧
  (∀ (a b c d : Byte) (s : State), s.hld.ph ≠ .off → d.toNat < 128 → exec (.sidebandAddressWrite [a, b, c, d]) s = .next { s with sb := { s.sb with addr := some ((a.toNat + 256 * b.toNat + 65536 * c.toNat) / 4 * 4, d.toNat % 16 + 1) } }) ∧
  (∀ (n : Nat) (s : State), s.hld.ph ≠ .off → s.sb.addr = none → exec (.sidebandRead n) s = .next (State.emit s (.serial 32 (List.replicate n 0xFF)))) ∧
  (∀ (a d : Nat) (s : State), s.hld.ph ≠ .off → a = s.fld Reg.LDG_STRAP 16 7 → s.sb.dyn = none → exec (.setdasa a d) s = .next { s with sb := { s.sb with dyn := some d } }) ∧
  (∀ (a d : Nat) (s : State), s.hld.ph ≠ .off → (a ≠ s.fld Reg.LDG_STRAP 16 7 ∨ s.sb.dyn.isSome = true) → exec (.setdasa a d) s = .next s) ∧
  (∀ (s : State), s.hld.ph ≠ .off → s.sb.dyn = none → exec (.setaasa) s = .next { s with sb := { s.sb with dyn := some (s.fld Reg.LDG_STRAP 16 7) } }) ∧
  (∀ (d : Nat) (s : State), s.hld.ph ≠ .off → s.sb.dyn = none → ∃ t, exec (.entdaa d) s = .next t ∧ t.sb.dyn = some d) ∧
  (∀ (d : Nat) (s : State), s.hld.ph ≠ .off → s.sb.dyn.isSome = true → exec (.setaasa) s = .next s ∧ exec (.entdaa d) s = .next s) ∧
  (∀ (s : State), s.hld.ph ≠ .off → exec (.rstdaa) s = .next { s with sb := { s.sb with dyn := none } }) ∧
  (∀ (s : State) (c : Instr), s.hld.ph ≠ .off → c ∈ ([.getpid, .getbcr, .getdcr, .getstatus] : List Instr) → s.sb.dyn = none → exec c s = .next s) ∧
  (∀ (s : State), s.hld.ph ≠ .off → s.sb.dyn.isSome = true → exec (.getpid) s = .next (State.emit s (.serial 32 pidBytes)) ∧ exec (.getbcr) s = .next (State.emit s (.serial 32 [Config.sbBcr % 256])) ∧ exec (.getdcr) s = .next (State.emit s (.serial 32 [Config.sbDcr % 256]))) ∧
  (∀ (s : State), s.hld.ph ≠ .off → s.sb.dyn.isSome = true → ∃ u v : Nat, exec (.getstatus) s = .next (State.emit s.draw.2 (.serial 32 [u, v])) ∧ u < 256 ∧ v < 256) ∧
  (∀ (s : State), s.hld.ph ≠ .off → exec (.svcPresenceChange true) s = .next { s with tap := { s.tap with present := true } }) ∧
  (∀ (s : State), s.hld.ph ≠ .off → exec (.svcPresenceChange false) s = .next { s with tap := { sel := s.tap.sel } }) ∧
  (∀ (dn : List Bool) (s : State), s.hld.ph ≠ .off → s.tap.present = true → exec (.bypass false dn) s = .next (tdo ((false :: dn).take dn.length) s)) ∧
  (∀ (dn : List Bool) (s : State), s.hld.ph ≠ .off → s.tap.present = true → mainUp s = true → exec (.bypass true dn) s = .next (tdo ((false :: dn).take dn.length) { s with tap := { s.tap with drives := false } })) ∧
  (∀ (dn : List Bool) (s : State) (c : Instr), c ∈ ([.bypass true dn, .idcode true, .extest true dn, .samplePreload true dn] : List Instr) → s.hld.ph ≠ .off → s.tap.present = true → mainUp s = false → exec c s = .next s) ∧
  (∀ (s : State), s.hld.ph ≠ .off → s.tap.present = true → exec (.idcode false) s = .next (tdo (bitList 32 (1 + 2 * (Config.jedecId % 2048) + 4096 * 0x5A8C + 2 ^ 28 * s.fld Reg.DEV_REV 12 4)) s)) ∧
  (∀ (e : Bool) (dn : List Bool) (s : State), s.hld.ph ≠ .off → s.tap.present = true → (e = false ∨ (mainUp s = true ∧ unlocked s = false)) → exec (.extest e dn) s = .next (Machine.bypass e dn s) ∧ exec (.samplePreload e dn) s = .next (Machine.bypass e dn s)) ∧
  (∀ (dn : List Bool) (s : State), s.hld.ph ≠ .off → s.tap.present = true → mainUp s = true → unlocked s = true → ∃ out : List Bool, out.length = dn.length ∧ exec (.extest true dn) s = .next (tdo out { s.draw.2 with tap := { s.draw.2.tap with cells := dn, drives := true } })) ∧
  (∀ (dn : List Bool) (s : State), s.hld.ph ≠ .off → s.tap.present = true → mainUp s = true → unlocked s = true → ∃ out : List Bool, out.length = dn.length ∧ exec (.samplePreload true dn) s = .next (tdo out { s.draw.2 with tap := { s.draw.2.tap with cells := dn, drives := false } })) ∧
  (∀ (w : DWord) (s : State), s.hld.ph ≠ .off → s.tap.present = true → unlocked s = false → servedInSafe (bits w.toNat 0 26 / 4 * 4) = false → exec (.regacc w) s = .next (State.emit { s with tap := { s.tap with capture := 0x30000000 } } (.serial 33 ((bitList 64 s.tap.capture.toNat).map b2n)))) ∧
  (∀ (w : DWord) (s : State) (x : Word) (u : State), s.hld.ph ≠ .off → s.tap.present = true → unlocked s = true → mainUp s = true → svcAccess (bits w.toNat 0 26 / 4 * 4) (w.getLsbD 26) (w.extractLsb' 32 32) (tdo (bitList 64 s.tap.capture.toNat) s) = (x, u) → exec (.regacc w) s = .next { u with tap := { u.tap with capture := BitVec.ofNat 64 (0x10000000 + 2 ^ 32 * x.toNat) } }) ∧
  (∀ (n : Nat) (s : State), s.hld.ph ≠ .off → s.tap.present = true → s.tap.nonce = some n → exec (.unlock []) s = .next (tdo (bitList 256 n ++ bitList 32 (s.rdN Reg.DEV_BUILD) ++ bitList 32 (s.rdN Reg.DEV_REV)) s)) ∧
  (∀ (sg : List Byte) (n : Nat) (s : State), s.hld.ph ≠ .off → s.tap.present = true → s.tap.nonce = some n → sg ≠ [] → s.rdN Reg.PWR_STATE ≠ 1 → s.rdN Reg.PWR_STATE ≠ 5 → ∃ t, exec (.unlock sg) s = .next t ∧ t.tap.nonce = none ∧ unlocked t = unlocked s) ∧
  (∀ (sg : List Byte) (n : Nat) (s : State), s.hld.ph ≠ .off → s.tap.present = true → s.tap.nonce = some n → sg ≠ [] → (s.rdN Reg.PWR_STATE = 1 ∨ s.rdN Reg.PWR_STATE = 5) → ∃ t, exec (.unlock sg) s = .next t ∧ t.tap.nonce = none ∧ unlocked t = (Config.debugSignature n (s.rdN Reg.DEV_BUILD) (s.rdN Reg.DEV_REV) sg || unlocked s))
end

