-- ==== Sys2Proof/Laws/Exec.lean ====
section
/-! SUPPORT. The dispatch, arm by arm: `exec` on a command is that command's meaning.  And a step with a command in front of
the queue. -/

namespace Sys2Proof.Machine

theorem onUnit_next {ok : Bool} {s : State} (h : ok = true) : onUnit ok s = .next s := by simp [onUnit, h]

/-- `onUnit` answers the state it is given, or the one fault. -/
theorem onUnit_cases (ok : Bool) (s : State) : onUnit ok s = .next s ∨ onUnit ok s = .fault .noSuchUnit := by
  cases ok <;> simp [onUnit]

theorem exec_wideRegisterLowRead (target_ : RegTarget) (s : State) : exec (.wideRegisterLowRead target_) s = execWideRegisterLowRead target_ s := rfl
theorem exec_registerWrite (target_ : RegTarget) (value_ : Word) (s : State) : exec (.registerWrite target_ value_) s = execRegisterWrite target_ value_ s := rfl
theorem exec_stagedCommitApply (commit_ : Nat) (s : State) : exec (.stagedCommitApply commit_) s = execStagedCommitApply commit_ s := rfl
theorem exec_gateAdmit (win_ : (Option Nat)) (f_ : Nat) (req_ : AdmReq) (s : State) : exec (.gateAdmit win_ f_ req_) s = execGateAdmit win_ f_ req_ s := rfl
theorem exec_modify (win_ : (Option Nat)) (f_ : Nat) (req_ : AdmReq) (s : State) : exec (.modify win_ f_ req_) s = execModify win_ f_ req_ s := rfl
theorem exec_attach (win_ : (Option Nat)) (f_ : Nat) (req_ : AdmReq) (s : State) : exec (.attach win_ f_ req_) s = execAttach win_ f_ req_ s := rfl
theorem exec_detach (win_ : (Option Nat)) (f_ : Nat) (req_ : AdmReq) (s : State) : exec (.detach win_ f_ req_) s = execDetach win_ f_ req_ s := rfl
theorem exec_release (win_ : (Option Nat)) (f_ : Nat) (req_ : AdmReq) (s : State) : exec (.release win_ f_ req_) s = execRelease win_ f_ req_ s := rfl
theorem exec_query (win_ : (Option Nat)) (f_ : Nat) (req_ : AdmReq) (s : State) : exec (.query win_ f_ req_) s = execQuery win_ f_ req_ s := rfl
theorem exec_withdraw (win_ : (Option Nat)) (f_ : Nat) (req_ : AdmReq) (s : State) : exec (.withdraw win_ f_ req_) s = execWithdraw win_ f_ req_ s := rfl
theorem exec_deferMaxWaitExpire (ticket_ : Nat) (s : State) : exec (.deferMaxWaitExpire ticket_) s = execDeferMaxWaitExpire ticket_ s := rfl
theorem exec_twNtcConsWrite (win_ : (Option Nat)) (f_ : Nat) (value_ : Word) (s : State) : exec (.twNtcConsWrite win_ f_ value_) s = execTwNtcConsWrite win_ f_ value_ s := rfl
theorem exec_attachLockoutExpire (id_ : Nat) (s : State) : exec (.attachLockoutExpire id_) s = execAttachLockoutExpire id_ s := rfl
theorem exec_graceExpire (slot_ : Nat) (s : State) : exec (.graceExpire slot_) s = execGraceExpire slot_ s := rfl
theorem exec_zeroiseComplete (job_ : Nat) (s : State) : exec (.zeroiseComplete job_) s = execZeroiseComplete job_ s := rfl
theorem exec_alloc (slot_ : Nat) (q_ : Nat) (rec_ : CmdRec) (s : State) : exec (.alloc slot_ q_ rec_) s = execAlloc slot_ q_ rec_ s := rfl
theorem exec_free (slot_ : Nat) (q_ : Nat) (rec_ : CmdRec) (s : State) : exec (.free slot_ q_ rec_) s = execFree slot_ q_ rec_ s := rfl
theorem exec_place (slot_ : Nat) (q_ : Nat) (rec_ : CmdRec) (s : State) : exec (.place slot_ q_ rec_) s = execPlace slot_ q_ rec_ s := rfl
theorem exec_flush (slot_ : Nat) (q_ : Nat) (rec_ : CmdRec) (s : State) : exec (.flush slot_ q_ rec_) s = execFlush slot_ q_ rec_ s := rfl
theorem exec_flushJournalCommit (flight_ : Nat) (s : State) : exec (.flushJournalCommit flight_) s = execFlushJournalCommit flight_ s := rfl
theorem exec_regHost (slot_ : Nat) (q_ : Nat) (rec_ : CmdRec) (s : State) : exec (.regHost slot_ q_ rec_) s = execRegHost slot_ q_ rec_ s := rfl
theorem exec_deregHost (slot_ : Nat) (q_ : Nat) (rec_ : CmdRec) (s : State) : exec (.deregHost slot_ q_ rec_) s = execDeregHost slot_ q_ rec_ s := rfl
theorem exec_queryObj (slot_ : Nat) (q_ : Nat) (rec_ : CmdRec) (s : State) : exec (.queryObj slot_ q_ rec_) s = execQueryObj slot_ q_ rec_ s := rfl
theorem exec_write (slot_ : Nat) (q_ : Nat) (rec_ : CmdRec) (s : State) : exec (.write slot_ q_ rec_) s = execWrite slot_ q_ rec_ s := rfl
theorem exec_read (slot_ : Nat) (q_ : Nat) (rec_ : CmdRec) (s : State) : exec (.read slot_ q_ rec_) s = execRead slot_ q_ rec_ s := rfl
theorem exec_moveCommit (move_ : Nat) (s : State) : exec (.moveCommit move_) s = execMoveCommit move_ s := rfl
theorem exec_demotionScan (s : State) : exec (.demotionScan) s = execDemotionScan s := rfl
theorem exec_t3MoveStallTimeout (move_ : Nat) (s : State) : exec (.t3MoveStallTimeout move_) s = execT3MoveStallTimeout move_ s := rfl
theorem exec_t3BackoffExpire (slot_ : Nat) (region_ : Nat) (s : State) : exec (.t3BackoffExpire slot_ region_) s = execT3BackoffExpire slot_ region_ s := rfl
theorem exec_peerMoveTimeout (move_ : Nat) (elapsedMs_ : Nat) (s : State) : exec (.peerMoveTimeout move_ elapsedMs_) s = execPeerMoveTimeout move_ elapsedMs_ s := rfl
theorem exec_peerLossTimeout (node_ : Nat) (s : State) : exec (.peerLossTimeout node_) s = execPeerLossTimeout node_ s := rfl
theorem exec_peerHoldExpire (node_ : Nat) (s : State) : exec (.peerHoldExpire node_) s = execPeerHoldExpire node_ s := rfl
theorem exec_pfxLookup (ctx_ : Nat) (s : State) : exec (.pfxLookup ctx_) s = execPfxLookup ctx_ s := rfl
theorem exec_blockPublish (ctx_ : Nat) (block_ : Nat) (s : State) : exec (.blockPublish ctx_ block_) s = execBlockPublish ctx_ block_ s := rfl
theorem exec_pfxTtlEvict (entry_ : Nat) (s : State) : exec (.pfxTtlEvict entry_) s = execPfxTtlEvict entry_ s := rfl
theorem exec_kvMoveIssue (step_ : Nat) (ctx_ : Nat) (block_ : Nat) (group_ : Nat) (s : State) : exec (.kvMoveIssue step_ ctx_ block_ group_) s = execKvMoveIssue step_ ctx_ block_ group_ s := rfl
theorem exec_kvPageDeadline (step_ : Nat) (ctx_ : Nat) (block_ : Nat) (group_ : Nat) (s : State) : exec (.kvPageDeadline step_ ctx_ block_ group_) s = execKvPageDeadline step_ ctx_ block_ group_ s := rfl
theorem exec_dirAnnounce (src_ : Nat) (dom_ : Nat) (kg_ : Nat) (publish_ : Bool) (hashes_ : (List DWord)) (s : State) : exec (.dirAnnounce src_ dom_ kg_ publish_ hashes_) s = execDirAnnounce src_ dom_ kg_ publish_ hashes_ s := rfl
theorem exec_dirQuery (src_ : Nat) (rtag_ : Nat) (dom_ : Nat) (kg_ : Nat) (id_ : Nat) (hashes_ : (List DWord)) (s : State) : exec (.dirQuery src_ rtag_ dom_ kg_ id_ hashes_) s = execDirQuery src_ rtag_ dom_ kg_ id_ hashes_ s := rfl
theorem exec_dirAnswer (src_ : Nat) (matched_ : Nat) (dom_ : Nat) (kg_ : Nat) (id_ : Nat) (holder_ : Nat) (status_ : Nat) (s : State) : exec (.dirAnswer src_ matched_ dom_ kg_ id_ holder_ status_) s = execDirAnswer src_ matched_ dom_ kg_ id_ holder_ status_ s := rfl
theorem exec_remotePin (src_ : Nat) (rtag_ : Nat) (dom_ : Nat) (kg_ : Nat) (req_ : Nat) (tenant_ : Nat) (hashes_ : (List (BitVec 128))) (s : State) : exec (.remotePin src_ rtag_ dom_ kg_ req_ tenant_ hashes_) s = execRemotePin src_ rtag_ dom_ kg_ req_ tenant_ hashes_ s := rfl
theorem exec_pinAnswer (src_ : Nat) (pinned_ : Nat) (dom_ : Nat) (kg_ : Nat) (req_ : Nat) (lease_ : Nat) (s : State) : exec (.pinAnswer src_ pinned_ dom_ kg_ req_ lease_) s = execPinAnswer src_ pinned_ dom_ kg_ req_ lease_ s := rfl
theorem exec_remoteUnpin (src_ : Nat) (lease_ : Nat) (s : State) : exec (.remoteUnpin src_ lease_) s = execRemoteUnpin src_ lease_ s := rfl
theorem exec_remoteLeaseExpire (lease_ : Nat) (s : State) : exec (.remoteLeaseExpire lease_) s = execRemoteLeaseExpire lease_ s := rfl
theorem exec_directoryAnnounceDue (s : State) : exec (.directoryAnnounceDue) s = execDirectoryAnnounceDue s := rfl
theorem exec_pfxDomRotate (dom_ : Nat) (s : State) : exec (.pfxDomRotate dom_) s = execPfxDomRotate dom_ s := rfl
theorem exec_pfxDomPurge (dom_ : Nat) (s : State) : exec (.pfxDomPurge dom_) s = execPfxDomPurge dom_ s := rfl
theorem exec_modelLoad (slot_ : Nat) (q_ : Nat) (rec_ : CmdRec) (s : State) : exec (.modelLoad slot_ q_ rec_) s = execModelLoad slot_ q_ rec_ s := rfl
theorem exec_modelUnload (slot_ : Nat) (q_ : Nat) (rec_ : CmdRec) (s : State) : exec (.modelUnload slot_ q_ rec_) s = execModelUnload slot_ q_ rec_ s := rfl
theorem exec_ctxOpen (slot_ : Nat) (q_ : Nat) (rec_ : CmdRec) (s : State) : exec (.ctxOpen slot_ q_ rec_) s = execCtxOpen slot_ q_ rec_ s := rfl
theorem exec_ctxClear (slot_ : Nat) (q_ : Nat) (rec_ : CmdRec) (s : State) : exec (.ctxClear slot_ q_ rec_) s = execCtxClear slot_ q_ rec_ s := rfl
theorem exec_ctxClose (slot_ : Nat) (q_ : Nat) (rec_ : CmdRec) (s : State) : exec (.ctxClose slot_ q_ rec_) s = execCtxClose slot_ q_ rec_ s := rfl
theorem exec_turn (slot_ : Nat) (q_ : Nat) (rec_ : CmdRec) (s : State) : exec (.turn slot_ q_ rec_) s = execTurn slot_ q_ rec_ s := rfl
theorem exec_cancel (slot_ : Nat) (q_ : Nat) (rec_ : CmdRec) (s : State) : exec (.cancel slot_ q_ rec_) s = execCancel slot_ q_ rec_ s := rfl
theorem exec_stepPlan (after_ : (Option Nat)) (s : State) : exec (.stepPlan after_) s = execStepPlan after_ s := rfl
theorem exec_preemptExpire (launch_ : Nat) (s : State) : exec (.preemptExpire launch_) s = execPreemptExpire launch_ s := rfl
theorem exec_stepStart (step_ : Nat) (s : State) : exec (.stepStart step_) s = execStepStart step_ s := rfl
theorem exec_stepEnd (step_ : Nat) (s : State) : exec (.stepEnd step_) s = execStepEnd step_ s := rfl
theorem exec_reserveWindowBoundary (s : State) : exec (.reserveWindowBoundary) s = execReserveWindowBoundary s := rfl
theorem exec_twCtxSelWrite (f_ : Nat) (win_ : (Option Nat)) (value_ : Word) (s : State) : exec (.twCtxSelWrite f_ win_ value_) s = execTwCtxSelWrite f_ win_ value_ s := rfl
theorem exec_launchStart (launch_ : Nat) (yieldUs_ : Nat) (s : State) : exec (.launchStart launch_ yieldUs_) s = execLaunchStart launch_ yieldUs_ s := rfl
theorem exec_launchEnd (launch_ : Nat) (elapsedNs_ : Nat) (s : State) : exec (.launchEnd launch_ elapsedNs_) s = execLaunchEnd launch_ elapsedNs_ s := rfl
theorem exec_waitLimitExpire (cluster_ : Nat) (s : State) : exec (.waitLimitExpire cluster_) s = execWaitLimitExpire cluster_ s := rfl
theorem exec_timeLimitExpire (launch_ : Nat) (s : State) : exec (.timeLimitExpire launch_) s = execTimeLimitExpire launch_ s := rfl
theorem exec_tileMoveComplete (cluster_ : Nat) (num_ : Nat) (s : State) : exec (.tileMoveComplete cluster_ num_) s = execTileMoveComplete cluster_ num_ s := rfl
theorem exec_kvPageDelivered (step_ : Nat) (ctx_ : Nat) (block_ : Nat) (group_ : Nat) (s : State) : exec (.kvPageDelivered step_ ctx_ block_ group_) s = execKvPageDelivered step_ ctx_ block_ group_ s := rfl
theorem exec_clNop (cluster_ : Nat) (word_ : (BitVec 56)) (s : State) : exec (.clNop cluster_ word_) s = execClNop cluster_ word_ s := rfl
theorem exec_clAdd (cluster_ : Nat) (word_ : (BitVec 56)) (s : State) : exec (.clAdd cluster_ word_) s = execClAdd cluster_ word_ s := rfl
theorem exec_clSub (cluster_ : Nat) (word_ : (BitVec 56)) (s : State) : exec (.clSub cluster_ word_) s = execClSub cluster_ word_ s := rfl
theorem exec_clMul (cluster_ : Nat) (word_ : (BitVec 56)) (s : State) : exec (.clMul cluster_ word_) s = execClMul cluster_ word_ s := rfl
theorem exec_clMulh (cluster_ : Nat) (word_ : (BitVec 56)) (s : State) : exec (.clMulh cluster_ word_) s = execClMulh cluster_ word_ s := rfl
theorem exec_clMulhu (cluster_ : Nat) (word_ : (BitVec 56)) (s : State) : exec (.clMulhu cluster_ word_) s = execClMulhu cluster_ word_ s := rfl
theorem exec_clDiv (cluster_ : Nat) (word_ : (BitVec 56)) (s : State) : exec (.clDiv cluster_ word_) s = execClDiv cluster_ word_ s := rfl
theorem exec_clDivu (cluster_ : Nat) (word_ : (BitVec 56)) (s : State) : exec (.clDivu cluster_ word_) s = execClDivu cluster_ word_ s := rfl
theorem exec_clRem (cluster_ : Nat) (word_ : (BitVec 56)) (s : State) : exec (.clRem cluster_ word_) s = execClRem cluster_ word_ s := rfl
theorem exec_clRemu (cluster_ : Nat) (word_ : (BitVec 56)) (s : State) : exec (.clRemu cluster_ word_) s = execClRemu cluster_ word_ s := rfl
theorem exec_clAnd (cluster_ : Nat) (word_ : (BitVec 56)) (s : State) : exec (.clAnd cluster_ word_) s = execClAnd cluster_ word_ s := rfl
theorem exec_clOr (cluster_ : Nat) (word_ : (BitVec 56)) (s : State) : exec (.clOr cluster_ word_) s = execClOr cluster_ word_ s := rfl
theorem exec_clXor (cluster_ : Nat) (word_ : (BitVec 56)) (s : State) : exec (.clXor cluster_ word_) s = execClXor cluster_ word_ s := rfl
theorem exec_clShl (cluster_ : Nat) (word_ : (BitVec 56)) (s : State) : exec (.clShl cluster_ word_) s = execClShl cluster_ word_ s := rfl
theorem exec_clShr (cluster_ : Nat) (word_ : (BitVec 56)) (s : State) : exec (.clShr cluster_ word_) s = execClShr cluster_ word_ s := rfl
theorem exec_clSar (cluster_ : Nat) (word_ : (BitVec 56)) (s : State) : exec (.clSar cluster_ word_) s = execClSar cluster_ word_ s := rfl
theorem exec_clMin (cluster_ : Nat) (word_ : (BitVec 56)) (s : State) : exec (.clMin cluster_ word_) s = execClMin cluster_ word_ s := rfl
theorem exec_clMax (cluster_ : Nat) (word_ : (BitVec 56)) (s : State) : exec (.clMax cluster_ word_) s = execClMax cluster_ word_ s := rfl
theorem exec_clMinu (cluster_ : Nat) (word_ : (BitVec 56)) (s : State) : exec (.clMinu cluster_ word_) s = execClMinu cluster_ word_ s := rfl
theorem exec_clMaxu (cluster_ : Nat) (word_ : (BitVec 56)) (s : State) : exec (.clMaxu cluster_ word_) s = execClMaxu cluster_ word_ s := rfl
theorem exec_clAddi (cluster_ : Nat) (word_ : (BitVec 56)) (s : State) : exec (.clAddi cluster_ word_) s = execClAddi cluster_ word_ s := rfl
theorem exec_clAndi (cluster_ : Nat) (word_ : (BitVec 56)) (s : State) : exec (.clAndi cluster_ word_) s = execClAndi cluster_ word_ s := rfl
theorem exec_clOri (cluster_ : Nat) (word_ : (BitVec 56)) (s : State) : exec (.clOri cluster_ word_) s = execClOri cluster_ word_ s := rfl
theorem exec_clXori (cluster_ : Nat) (word_ : (BitVec 56)) (s : State) : exec (.clXori cluster_ word_) s = execClXori cluster_ word_ s := rfl
theorem exec_clShli (cluster_ : Nat) (word_ : (BitVec 56)) (s : State) : exec (.clShli cluster_ word_) s = execClShli cluster_ word_ s := rfl
theorem exec_clShri (cluster_ : Nat) (word_ : (BitVec 56)) (s : State) : exec (.clShri cluster_ word_) s = execClShri cluster_ word_ s := rfl
theorem exec_clSari (cluster_ : Nat) (word_ : (BitVec 56)) (s : State) : exec (.clSari cluster_ word_) s = execClSari cluster_ word_ s := rfl
theorem exec_clLi (cluster_ : Nat) (word_ : (BitVec 56)) (s : State) : exec (.clLi cluster_ word_) s = execClLi cluster_ word_ s := rfl
theorem exec_clLih (cluster_ : Nat) (word_ : (BitVec 56)) (s : State) : exec (.clLih cluster_ word_) s = execClLih cluster_ word_ s := rfl
theorem exec_clCmp (cluster_ : Nat) (word_ : (BitVec 56)) (s : State) : exec (.clCmp cluster_ word_) s = execClCmp cluster_ word_ s := rfl
theorem exec_clCmpi (cluster_ : Nat) (word_ : (BitVec 56)) (s : State) : exec (.clCmpi cluster_ word_) s = execClCmpi cluster_ word_ s := rfl
theorem exec_clPlog (cluster_ : Nat) (word_ : (BitVec 56)) (s : State) : exec (.clPlog cluster_ word_) s = execClPlog cluster_ word_ s := rfl
theorem exec_clMovsys (cluster_ : Nat) (word_ : (BitVec 56)) (s : State) : exec (.clMovsys cluster_ word_) s = execClMovsys cluster_ word_ s := rfl
theorem exec_clClrfl (cluster_ : Nat) (word_ : (BitVec 56)) (s : State) : exec (.clClrfl cluster_ word_) s = execClClrfl cluster_ word_ s := rfl
theorem exec_clTdset (cluster_ : Nat) (word_ : (BitVec 56)) (s : State) : exec (.clTdset cluster_ word_) s = execClTdset cluster_ word_ s := rfl
theorem exec_clTdget (cluster_ : Nat) (word_ : (BitVec 56)) (s : State) : exec (.clTdget cluster_ word_) s = execClTdget cluster_ word_ s := rfl
theorem exec_clTdadd (cluster_ : Nat) (word_ : (BitVec 56)) (s : State) : exec (.clTdadd cluster_ word_) s = execClTdadd cluster_ word_ s := rfl
theorem exec_clHset (cluster_ : Nat) (word_ : (BitVec 56)) (s : State) : exec (.clHset cluster_ word_) s = execClHset cluster_ word_ s := rfl
theorem exec_clHget (cluster_ : Nat) (word_ : (BitVec 56)) (s : State) : exec (.clHget cluster_ word_) s = execClHget cluster_ word_ s := rfl
theorem exec_clHmov (cluster_ : Nat) (word_ : (BitVec 56)) (s : State) : exec (.clHmov cluster_ word_) s = execClHmov cluster_ word_ s := rfl
theorem exec_clBr (cluster_ : Nat) (word_ : (BitVec 56)) (s : State) : exec (.clBr cluster_ word_) s = execClBr cluster_ word_ s := rfl
theorem exec_clBz (cluster_ : Nat) (word_ : (BitVec 56)) (s : State) : exec (.clBz cluster_ word_) s = execClBz cluster_ word_ s := rfl
theorem exec_clBnz (cluster_ : Nat) (word_ : (BitVec 56)) (s : State) : exec (.clBnz cluster_ word_) s = execClBnz cluster_ word_ s := rfl
theorem exec_clLoop (cluster_ : Nat) (word_ : (BitVec 56)) (s : State) : exec (.clLoop cluster_ word_) s = execClLoop cluster_ word_ s := rfl
theorem exec_clCall (cluster_ : Nat) (word_ : (BitVec 56)) (s : State) : exec (.clCall cluster_ word_) s = execClCall cluster_ word_ s := rfl
theorem exec_clJr (cluster_ : Nat) (word_ : (BitVec 56)) (s : State) : exec (.clJr cluster_ word_) s = execClJr cluster_ word_ s := rfl
theorem exec_clEnd (cluster_ : Nat) (word_ : (BitVec 56)) (s : State) : exec (.clEnd cluster_ word_) s = execClEnd cluster_ word_ s := rfl
theorem exec_clTld (cluster_ : Nat) (word_ : (BitVec 56)) (s : State) : exec (.clTld cluster_ word_) s = execClTld cluster_ word_ s := rfl
theorem exec_clTst (cluster_ : Nat) (word_ : (BitVec 56)) (s : State) : exec (.clTst cluster_ word_) s = execClTst cluster_ word_ s := rfl
theorem exec_clTcp (cluster_ : Nat) (word_ : (BitVec 56)) (s : State) : exec (.clTcp cluster_ word_) s = execClTcp cluster_ word_ s := rfl
theorem exec_clTput (cluster_ : Nat) (word_ : (BitVec 56)) (s : State) : exec (.clTput cluster_ word_) s = execClTput cluster_ word_ s := rfl
theorem exec_clTget (cluster_ : Nat) (word_ : (BitVec 56)) (s : State) : exec (.clTget cluster_ word_) s = execClTget cluster_ word_ s := rfl
theorem exec_clTzero (cluster_ : Nat) (word_ : (BitVec 56)) (s : State) : exec (.clTzero cluster_ word_) s = execClTzero cluster_ word_ s := rfl
theorem exec_clTwait (cluster_ : Nat) (word_ : (BitVec 56)) (s : State) : exec (.clTwait cluster_ word_) s = execClTwait cluster_ word_ s := rfl
theorem exec_clSadv (cluster_ : Nat) (word_ : (BitVec 56)) (s : State) : exec (.clSadv cluster_ word_) s = execClSadv cluster_ word_ s := rfl
theorem exec_clMma (cluster_ : Nat) (word_ : (BitVec 56)) (s : State) : exec (.clMma cluster_ word_) s = execClMma cluster_ word_ s := rfl
theorem exec_clMmaz (cluster_ : Nat) (word_ : (BitVec 56)) (s : State) : exec (.clMmaz cluster_ word_) s = execClMmaz cluster_ word_ s := rfl
theorem exec_clAzero (cluster_ : Nat) (word_ : (BitVec 56)) (s : State) : exec (.clAzero cluster_ word_) s = execClAzero cluster_ word_ s := rfl
theorem exec_clAld (cluster_ : Nat) (word_ : (BitVec 56)) (s : State) : exec (.clAld cluster_ word_) s = execClAld cluster_ word_ s := rfl
theorem exec_clAst (cluster_ : Nat) (word_ : (BitVec 56)) (s : State) : exec (.clAst cluster_ word_) s = execClAst cluster_ word_ s := rfl
theorem exec_clVadd (cluster_ : Nat) (word_ : (BitVec 56)) (s : State) : exec (.clVadd cluster_ word_) s = execClVadd cluster_ word_ s := rfl
theorem exec_clVsub (cluster_ : Nat) (word_ : (BitVec 56)) (s : State) : exec (.clVsub cluster_ word_) s = execClVsub cluster_ word_ s := rfl
theorem exec_clVmul (cluster_ : Nat) (word_ : (BitVec 56)) (s : State) : exec (.clVmul cluster_ word_) s = execClVmul cluster_ word_ s := rfl
theorem exec_clVfma (cluster_ : Nat) (word_ : (BitVec 56)) (s : State) : exec (.clVfma cluster_ word_) s = execClVfma cluster_ word_ s := rfl
theorem exec_clVdiv (cluster_ : Nat) (word_ : (BitVec 56)) (s : State) : exec (.clVdiv cluster_ word_) s = execClVdiv cluster_ word_ s := rfl
theorem exec_clVsqrt (cluster_ : Nat) (word_ : (BitVec 56)) (s : State) : exec (.clVsqrt cluster_ word_) s = execClVsqrt cluster_ word_ s := rfl
theorem exec_clVmin (cluster_ : Nat) (word_ : (BitVec 56)) (s : State) : exec (.clVmin cluster_ word_) s = execClVmin cluster_ word_ s := rfl
theorem exec_clVmax (cluster_ : Nat) (word_ : (BitVec 56)) (s : State) : exec (.clVmax cluster_ word_) s = execClVmax cluster_ word_ s := rfl
theorem exec_clVsgn (cluster_ : Nat) (word_ : (BitVec 56)) (s : State) : exec (.clVsgn cluster_ word_) s = execClVsgn cluster_ word_ s := rfl
theorem exec_clVsfu (cluster_ : Nat) (word_ : (BitVec 56)) (s : State) : exec (.clVsfu cluster_ word_) s = execClVsfu cluster_ word_ s := rfl
theorem exec_clVlog (cluster_ : Nat) (word_ : (BitVec 56)) (s : State) : exec (.clVlog cluster_ word_) s = execClVlog cluster_ word_ s := rfl
theorem exec_clVcmp (cluster_ : Nat) (word_ : (BitVec 56)) (s : State) : exec (.clVcmp cluster_ word_) s = execClVcmp cluster_ word_ s := rfl
theorem exec_clVsel (cluster_ : Nat) (word_ : (BitVec 56)) (s : State) : exec (.clVsel cluster_ word_) s = execClVsel cluster_ word_ s := rfl
theorem exec_clVmov (cluster_ : Nat) (word_ : (BitVec 56)) (s : State) : exec (.clVmov cluster_ word_) s = execClVmov cluster_ word_ s := rfl
theorem exec_clVcvt (cluster_ : Nat) (word_ : (BitVec 56)) (s : State) : exec (.clVcvt cluster_ word_) s = execClVcvt cluster_ word_ s := rfl
theorem exec_clVld (cluster_ : Nat) (word_ : (BitVec 56)) (s : State) : exec (.clVld cluster_ word_) s = execClVld cluster_ word_ s := rfl
theorem exec_clVst (cluster_ : Nat) (word_ : (BitVec 56)) (s : State) : exec (.clVst cluster_ word_) s = execClVst cluster_ word_ s := rfl
theorem exec_clVlda (cluster_ : Nat) (word_ : (BitVec 56)) (s : State) : exec (.clVlda cluster_ word_) s = execClVlda cluster_ word_ s := rfl
theorem exec_clVsta (cluster_ : Nat) (word_ : (BitVec 56)) (s : State) : exec (.clVsta cluster_ word_) s = execClVsta cluster_ word_ s := rfl
theorem exec_clVred (cluster_ : Nat) (word_ : (BitVec 56)) (s : State) : exec (.clVred cluster_ word_) s = execClVred cluster_ word_ s := rfl
theorem exec_clAred (cluster_ : Nat) (word_ : (BitVec 56)) (s : State) : exec (.clAred cluster_ word_) s = execClAred cluster_ word_ s := rfl
theorem exec_clFence (cluster_ : Nat) (word_ : (BitVec 56)) (s : State) : exec (.clFence cluster_ word_) s = execClFence cluster_ word_ s := rfl
theorem exec_clSignal (cluster_ : Nat) (word_ : (BitVec 56)) (s : State) : exec (.clSignal cluster_ word_) s = execClSignal cluster_ word_ s := rfl
theorem exec_clSwait (cluster_ : Nat) (word_ : (BitVec 56)) (s : State) : exec (.clSwait cluster_ word_) s = execClSwait cluster_ word_ s := rfl
theorem exec_clSread (cluster_ : Nat) (word_ : (BitVec 56)) (s : State) : exec (.clSread cluster_ word_) s = execClSread cluster_ word_ s := rfl
theorem exec_clBar (cluster_ : Nat) (word_ : (BitVec 56)) (s : State) : exec (.clBar cluster_ word_) s = execClBar cluster_ word_ s := rfl
theorem exec_clKvwait (cluster_ : Nat) (word_ : (BitVec 56)) (s : State) : exec (.clKvwait cluster_ word_) s = execClKvwait cluster_ word_ s := rfl
theorem exec_clKvrel (cluster_ : Nat) (word_ : (BitVec 56)) (s : State) : exec (.clKvrel cluster_ word_) s = execClKvrel cluster_ word_ s := rfl
theorem exec_clKvinfo (cluster_ : Nat) (word_ : (BitVec 56)) (s : State) : exec (.clKvinfo cluster_ word_) s = execClKvinfo cluster_ word_ s := rfl
theorem exec_clEvinj (cluster_ : Nat) (word_ : (BitVec 56)) (s : State) : exec (.clEvinj cluster_ word_) s = execClEvinj cluster_ word_ s := rfl
theorem exec_clEvinjv (cluster_ : Nat) (word_ : (BitVec 56)) (s : State) : exec (.clEvinjv cluster_ word_) s = execClEvinjv cluster_ word_ s := rfl
theorem exec_clCallr (cluster_ : Nat) (word_ : (BitVec 56)) (s : State) : exec (.clCallr cluster_ word_) s = execClCallr cluster_ word_ s := rfl
theorem exec_clCbcast (cluster_ : Nat) (word_ : (BitVec 56)) (s : State) : exec (.clCbcast cluster_ word_) s = execClCbcast cluster_ word_ s := rfl
theorem exec_clCagath (cluster_ : Nat) (word_ : (BitVec 56)) (s : State) : exec (.clCagath cluster_ word_) s = execClCagath cluster_ word_ s := rfl
theorem exec_clCrdsc (cluster_ : Nat) (word_ : (BitVec 56)) (s : State) : exec (.clCrdsc cluster_ word_) s = execClCrdsc cluster_ word_ s := rfl
theorem exec_clTokout (cluster_ : Nat) (word_ : (BitVec 56)) (s : State) : exec (.clTokout cluster_ word_) s = execClTokout cluster_ word_ s := rfl
theorem exec_clEot (cluster_ : Nat) (word_ : (BitVec 56)) (s : State) : exec (.clEot cluster_ word_) s = execClEot cluster_ word_ s := rfl
theorem exec_twDbProdWrite (f_ : Nat) (win_ : (Option Nat)) (q_ : Nat) (value_ : Word) (s : State) : exec (.twDbProdWrite f_ win_ q_ value_) s = execTwDbProdWrite f_ win_ q_ value_ s := rfl
theorem exec_twCqHeadWrite (f_ : Nat) (win_ : (Option Nat)) (q_ : Nat) (value_ : Word) (s : State) : exec (.twCqHeadWrite f_ win_ q_ value_) s = execTwCqHeadWrite f_ win_ q_ value_ s := rfl
theorem exec_twQsigWrite (f_ : Nat) (win_ : (Option Nat)) (q_ : Nat) (value_ : Word) (s : State) : exec (.twQsigWrite f_ win_ q_ value_) s = execTwQsigWrite f_ win_ q_ value_ s := rfl
theorem exec_twQCommit (f_ : Nat) (win_ : (Option Nat)) (q_ : Nat) (value_ : Word) (s : State) : exec (.twQCommit f_ win_ q_ value_) s = execTwQCommit f_ win_ q_ value_ s := rfl
theorem exec_vectorModerationExpire (slot_ : Nat) (q_ : Nat) (s : State) : exec (.vectorModerationExpire slot_ q_) s = execVectorModerationExpire slot_ q_ s := rfl
theorem exec_heldSlotFreed (slot_ : Nat) (q_ : Nat) (s : State) : exec (.heldSlotFreed slot_ q_) s = execHeldSlotFreed slot_ q_ s := rfl
theorem exec_qprogRun (slot_ : Nat) (q_ : Nat) (rec_ : CmdRec) (s : State) : exec (.qprogRun slot_ q_ rec_) s = execQprogRun slot_ q_ rec_ s := rfl
theorem exec_qprogStop (slot_ : Nat) (q_ : Nat) (rec_ : CmdRec) (s : State) : exec (.qprogStop slot_ q_ rec_) s = execQprogStop slot_ q_ rec_ s := rfl
theorem exec_qprogFenceTimeout (key_ : Nat) (s : State) : exec (.qprogFenceTimeout key_) s = execQprogFenceTimeout key_ s := rfl
theorem exec_qpQop (key_ : Nat) (word_ : (BitVec 56)) (s : State) : exec (.qpQop key_ word_) s = execQpQop key_ word_ s := rfl
theorem exec_qpAddi (key_ : Nat) (word_ : (BitVec 56)) (s : State) : exec (.qpAddi key_ word_) s = execQpAddi key_ word_ s := rfl
theorem exec_qpLi (key_ : Nat) (word_ : (BitVec 56)) (s : State) : exec (.qpLi key_ word_) s = execQpLi key_ word_ s := rfl
theorem exec_qpLih (key_ : Nat) (word_ : (BitVec 56)) (s : State) : exec (.qpLih key_ word_) s = execQpLih key_ word_ s := rfl
theorem exec_qpCmp (key_ : Nat) (word_ : (BitVec 56)) (s : State) : exec (.qpCmp key_ word_) s = execQpCmp key_ word_ s := rfl
theorem exec_qpCmpi (key_ : Nat) (word_ : (BitVec 56)) (s : State) : exec (.qpCmpi key_ word_) s = execQpCmpi key_ word_ s := rfl
theorem exec_qpHset (key_ : Nat) (word_ : (BitVec 56)) (s : State) : exec (.qpHset key_ word_) s = execQpHset key_ word_ s := rfl
theorem exec_qpHget (key_ : Nat) (word_ : (BitVec 56)) (s : State) : exec (.qpHget key_ word_) s = execQpHget key_ word_ s := rfl
theorem exec_qpBr (key_ : Nat) (word_ : (BitVec 56)) (s : State) : exec (.qpBr key_ word_) s = execQpBr key_ word_ s := rfl
theorem exec_qpBz (key_ : Nat) (word_ : (BitVec 56)) (s : State) : exec (.qpBz key_ word_) s = execQpBz key_ word_ s := rfl
theorem exec_qpBnz (key_ : Nat) (word_ : (BitVec 56)) (s : State) : exec (.qpBnz key_ word_) s = execQpBnz key_ word_ s := rfl
theorem exec_qpLoop (key_ : Nat) (word_ : (BitVec 56)) (s : State) : exec (.qpLoop key_ word_) s = execQpLoop key_ word_ s := rfl
theorem exec_qpCall (key_ : Nat) (word_ : (BitVec 56)) (s : State) : exec (.qpCall key_ word_) s = execQpCall key_ word_ s := rfl
theorem exec_qpJr (key_ : Nat) (word_ : (BitVec 56)) (s : State) : exec (.qpJr key_ word_) s = execQpJr key_ word_ s := rfl
theorem exec_qpEnd (key_ : Nat) (word_ : (BitVec 56)) (s : State) : exec (.qpEnd key_ word_) s = execQpEnd key_ word_ s := rfl
theorem exec_qpLd (key_ : Nat) (word_ : (BitVec 56)) (s : State) : exec (.qpLd key_ word_) s = execQpLd key_ word_ s := rfl
theorem exec_qpSt (key_ : Nat) (word_ : (BitVec 56)) (s : State) : exec (.qpSt key_ word_) s = execQpSt key_ word_ s := rfl
theorem exec_qpCmd (key_ : Nat) (word_ : (BitVec 56)) (s : State) : exec (.qpCmd key_ word_) s = execQpCmd key_ word_ s := rfl
theorem exec_qpCwait (key_ : Nat) (word_ : (BitVec 56)) (s : State) : exec (.qpCwait key_ word_) s = execQpCwait key_ word_ s := rfl
theorem exec_qpCres (key_ : Nat) (word_ : (BitVec 56)) (s : State) : exec (.qpCres key_ word_) s = execQpCres key_ word_ s := rfl
theorem exec_qpLaunch (key_ : Nat) (word_ : (BitVec 56)) (s : State) : exec (.qpLaunch key_ word_) s = execQpLaunch key_ word_ s := rfl
theorem exec_qpLaunchs (key_ : Nat) (word_ : (BitVec 56)) (s : State) : exec (.qpLaunchs key_ word_) s = execQpLaunchs key_ word_ s := rfl
theorem exec_qpLwait (key_ : Nat) (word_ : (BitVec 56)) (s : State) : exec (.qpLwait key_ word_) s = execQpLwait key_ word_ s := rfl
theorem exec_qpLrep (key_ : Nat) (word_ : (BitVec 56)) (s : State) : exec (.qpLrep key_ word_) s = execQpLrep key_ word_ s := rfl
theorem exec_qpSignal (key_ : Nat) (word_ : (BitVec 56)) (s : State) : exec (.qpSignal key_ word_) s = execQpSignal key_ word_ s := rfl
theorem exec_qpSwait (key_ : Nat) (word_ : (BitVec 56)) (s : State) : exec (.qpSwait key_ word_) s = execQpSwait key_ word_ s := rfl
theorem exec_qpFence (key_ : Nat) (word_ : (BitVec 56)) (s : State) : exec (.qpFence key_ word_) s = execQpFence key_ word_ s := rfl
theorem exec_qpPark (key_ : Nat) (word_ : (BitVec 56)) (s : State) : exec (.qpPark key_ word_) s = execQpPark key_ word_ s := rfl
theorem exec_parkWake (key_ : Nat) (s : State) : exec (.parkWake key_) s = execParkWake key_ s := rfl
theorem exec_qpTime (key_ : Nat) (word_ : (BitVec 56)) (s : State) : exec (.qpTime key_ word_) s = execQpTime key_ word_ s := rfl
theorem exec_qpKvres (key_ : Nat) (word_ : (BitVec 56)) (s : State) : exec (.qpKvres key_ word_) s = execQpKvres key_ word_ s := rfl
theorem exec_qpPost (key_ : Nat) (word_ : (BitVec 56)) (s : State) : exec (.qpPost key_ word_) s = execQpPost key_ word_ s := rfl
theorem exec_evCoreLoad (slot_ : Nat) (q_ : Nat) (rec_ : CmdRec) (s : State) : exec (.evCoreLoad slot_ q_ rec_) s = execEvCoreLoad slot_ q_ rec_ s := rfl
theorem exec_evCoreClear (slot_ : Nat) (q_ : Nat) (rec_ : CmdRec) (s : State) : exec (.evCoreClear slot_ q_ rec_) s = execEvCoreClear slot_ q_ rec_ s := rfl
theorem exec_evRoute (slot_ : Nat) (q_ : Nat) (rec_ : CmdRec) (s : State) : exec (.evRoute slot_ q_ rec_) s = execEvRoute slot_ q_ rec_ s := rfl
theorem exec_evCommit (slot_ : Nat) (q_ : Nat) (rec_ : CmdRec) (s : State) : exec (.evCommit slot_ q_ rec_) s = execEvCommit slot_ q_ rec_ s := rfl
theorem exec_evfCommit (value_ : Word) (s : State) : exec (.evfCommit value_) s = execEvfCommit value_ s := rfl
theorem exec_evInject (slot_ : Nat) (q_ : Nat) (rec_ : CmdRec) (s : State) : exec (.evInject slot_ q_ rec_) s = execEvInject slot_ q_ rec_ s := rfl
theorem exec_evRing (slot_ : Nat) (q_ : Nat) (rec_ : CmdRec) (s : State) : exec (.evRing slot_ q_ rec_) s = execEvRing slot_ q_ rec_ s := rfl
theorem exec_evTelem (slot_ : Nat) (q_ : Nat) (rec_ : CmdRec) (s : State) : exec (.evTelem slot_ q_ rec_) s = execEvTelem slot_ q_ rec_ s := rfl
theorem exec_evCoreRead (slot_ : Nat) (q_ : Nat) (rec_ : CmdRec) (s : State) : exec (.evCoreRead slot_ q_ rec_) s = execEvCoreRead slot_ q_ rec_ s := rfl
theorem exec_eventRouteHop (point_ : EvPoint) (s : State) : exec (.eventRouteHop point_) s = execEventRouteHop point_ s := rfl
theorem exec_neuronInputEvent (core_ : Nat) (s : State) : exec (.neuronInputEvent core_) s = execNeuronInputEvent core_ s := rfl
theorem exec_evRingVectorTick (slot_ : Nat) (s : State) : exec (.evRingVectorTick slot_) s = execEvRingVectorTick slot_ s := rfl
theorem exec_twEvHeadWrite (f_ : Nat) (win_ : (Option Nat)) (value_ : Word) (s : State) : exec (.twEvHeadWrite f_ win_ value_) s = execTwEvHeadWrite f_ win_ value_ s := rfl
theorem exec_evBatchTimeout (node_ : Nat) (slot_ : Nat) (s : State) : exec (.evBatchTimeout node_ slot_) s = execEvBatchTimeout node_ slot_ s := rfl
theorem exec_evBatch (tenant_ : Nat) (words_ : (List Word)) (s : State) : exec (.evBatch tenant_ words_) s = execEvBatch tenant_ words_ s := rfl
theorem exec_eventBankFlip (s : State) : exec (.eventBankFlip) s = execEventBankFlip s := rfl
theorem exec_eventBankDrained (s : State) : exec (.eventBankDrained) s = execEventBankDrained s := rfl
theorem exec_eventBankResyncDone (s : State) : exec (.eventBankResyncDone) s = execEventBankResyncDone s := rfl
theorem exec_spillWaitExpire (point_ : EvPoint) (s : State) : exec (.spillWaitExpire point_) s = execSpillWaitExpire point_ s := rfl
theorem exec_spillReplay (point_ : EvPoint) (slot_ : Nat) (s : State) : exec (.spillReplay point_ slot_) s = execSpillReplay point_ slot_ s := rfl
theorem exec_neuronSleep (core_ : Nat) (s : State) : exec (.neuronSleep core_) s = execNeuronSleep core_ s := rfl
theorem exec_telemetryTick (slot_ : Nat) (source_ : Nat) (measured_ : Int) (s : State) : exec (.telemetryTick slot_ source_ measured_) s = execTelemetryTick slot_ source_ measured_ s := rfl
theorem exec_espOwnerWrite (port_ : Nat) (value_ : (BitVec 16)) (s : State) : exec (.espOwnerWrite port_ value_) s = execEspOwnerWrite port_ value_ s := rfl
theorem exec_espSyncWord (port_ : Nat) (aligned_ : Bool) (s : State) : exec (.espSyncWord port_ aligned_) s = execEspSyncWord port_ aligned_ s := rfl
theorem exec_espIdleWord (port_ : Nat) (s : State) : exec (.espIdleWord port_) s = execEspIdleWord port_ s := rfl
theorem exec_espExtWord (port_ : Nat) (s : State) : exec (.espExtWord port_) s = execEspExtWord port_ s := rfl
theorem exec_espClockLoss (port_ : Nat) (s : State) : exec (.espClockLoss port_) s = execEspClockLoss port_ s := rfl
theorem exec_espPixelWord (port_ : Nat) (value_ : (BitVec 30)) (s : State) : exec (.espPixelWord port_ value_) s = execEspPixelWord port_ value_ s := rfl
theorem exec_espTimeHighWord (port_ : Nat) (value_ : (BitVec 30)) (s : State) : exec (.espTimeHighWord port_ value_) s = execEspTimeHighWord port_ value_ s := rfl
theorem exec_espStatusWord (port_ : Nat) (value_ : (BitVec 30)) (s : State) : exec (.espStatusWord port_ value_) s = execEspStatusWord port_ value_ s := rfl
theorem exec_espOverrunMarker (port_ : Nat) (s : State) : exec (.espOverrunMarker port_) s = execEspOverrunMarker port_ s := rfl
theorem exec_espMap (slot_ : Nat) (q_ : Nat) (rec_ : CmdRec) (s : State) : exec (.espMap slot_ q_ rec_) s = execEspMap slot_ q_ rec_ s := rfl
theorem exec_espI3c (slot_ : Nat) (q_ : Nat) (rec_ : CmdRec) (s : State) : exec (.espI3c slot_ q_ rec_) s = execEspI3c slot_ q_ rec_ s := rfl
theorem exec_i3cNackRetry (port_ : Nat) (s : State) : exec (.i3cNackRetry port_) s = execI3cNackRetry port_ s := rfl
theorem exec_i3cTransferDone (port_ : Nat) (data_ : Word) (s : State) : exec (.i3cTransferDone port_ data_) s = execI3cTransferDone port_ data_ s := rfl
theorem exec_espSettleEnd (port_ : Nat) (s : State) : exec (.espSettleEnd port_) s = execEspSettleEnd port_ s := rfl
theorem exec_espIbi (port_ : Nat) (payload_ : Word) (s : State) : exec (.espIbi port_ payload_) s = execEspIbi port_ payload_ s := rfl
theorem exec_espHotJoin (port_ : Nat) (s : State) : exec (.espHotJoin port_) s = execEspHotJoin port_ s := rfl
theorem exec_winCfg (slot_ : Nat) (q_ : Nat) (rec_ : CmdRec) (s : State) : exec (.winCfg slot_ q_ rec_) s = execWinCfg slot_ q_ rec_ s := rfl
theorem exec_winRing (slot_ : Nat) (q_ : Nat) (rec_ : CmdRec) (s : State) : exec (.winRing slot_ q_ rec_) s = execWinRing slot_ q_ rec_ s := rfl
theorem exec_windowBoundary (group_ : Nat) (s : State) : exec (.windowBoundary group_) s = execWindowBoundary group_ s := rfl
theorem exec_windowFinalise (group_ : Nat) (s : State) : exec (.windowFinalise group_) s = execWindowFinalise group_ s := rfl
theorem exec_espOvercurrentTrip (port_ : Nat) (s : State) : exec (.espOvercurrentTrip port_) s = execEspOvercurrentTrip port_ s := rfl
theorem exec_camPresenceChange (port_ : Nat) (present_ : Bool) (s : State) : exec (.camPresenceChange port_ present_) s = execCamPresenceChange port_ present_ s := rfl
theorem exec_codewordUncorrectable (port_ : Nat) (s : State) : exec (.codewordUncorrectable port_) s = execCodewordUncorrectable port_ s := rfl
theorem exec_dataFlit (port_ : Nat) (hdr_ : (BitVec 128)) (payload_ : (BitVec 864)) (crc_ : Word) (s : State) : exec (.dataFlit port_ hdr_ payload_ crc_) s = execDataFlit port_ hdr_ payload_ crc_ s := rfl
theorem exec_idleFlit (port_ : Nat) (acked_ : Nat) (s : State) : exec (.idleFlit port_ acked_) s = execIdleFlit port_ acked_ s := rfl
theorem exec_retryReq (port_ : Nat) (acked_ : Nat) (expected_ : Nat) (s : State) : exec (.retryReq port_ acked_ expected_) s = execRetryReq port_ acked_ expected_ s := rfl
theorem exec_retryAckTimeout (port_ : Nat) (s : State) : exec (.retryAckTimeout port_) s = execRetryAckTimeout port_ s := rfl
theorem exec_credit (port_ : Nat) (acked_ : Nat) (freed_ : (List Nat)) (s : State) : exec (.credit port_ acked_ freed_) s = execCredit port_ acked_ freed_ s := rfl
theorem exec_creditPeriodicSend (port_ : Nat) (s : State) : exec (.creditPeriodicSend port_) s = execCreditPeriodicSend port_ s := rfl
theorem exec_hello (port_ : Nat) (version_ : Nat) (node_ : Nat) (peerPort_ : Nat) (lanes_ : Nat) (epoch_ : Nat) (cold_ : Bool) (startSeq_ : Nat) (credits_ : (List Nat)) (s : State) : exec (.hello port_ version_ node_ peerPort_ lanes_ epoch_ cold_ startSeq_ credits_) s = execHello port_ version_ node_ peerPort_ lanes_ epoch_ cold_ startSeq_ credits_ s := rfl
theorem exec_laneMap (port_ : Nat) (mask_ : (BitVec 8)) (s : State) : exec (.laneMap port_ mask_) s = execLaneMap port_ mask_ s := rfl
theorem exec_downNotice (port_ : Nat) (reason_ : Nat) (s : State) : exec (.downNotice port_ reason_) s = execDownNotice port_ reason_ s := rfl
theorem exec_escapeWaitExpire (port_ : Nat) (s : State) : exec (.escapeWaitExpire port_) s = execEscapeWaitExpire port_ s := rfl
theorem exec_flitAgeExpire (port_ : Nat) (s : State) : exec (.flitAgeExpire port_) s = execFlitAgeExpire port_ s := rfl
theorem exec_stale (src_ : Nat) (rtag_ : Nat) (epoch_ : Nat) (s : State) : exec (.stale src_ rtag_ epoch_) s = execStale src_ rtag_ epoch_ s := rfl
theorem exec_lnkPortEn (port_ : Nat) (en_ : Bool) (s : State) : exec (.lnkPortEn port_ en_) s = execLnkPortEn port_ en_ s := rfl
theorem exec_lnkPortRetrain (port_ : Nat) (s : State) : exec (.lnkPortRetrain port_) s = execLnkPortRetrain port_ s := rfl
theorem exec_lnkPortFullEq (port_ : Nat) (s : State) : exec (.lnkPortFullEq port_) s = execLnkPortFullEq port_ s := rfl
theorem exec_portDetectRetry (port_ : Nat) (s : State) : exec (.portDetectRetry port_) s = execPortDetectRetry port_ s := rfl
theorem exec_portSignalDetect (port_ : Nat) (lanes_ : (BitVec 8)) (s : State) : exec (.portSignalDetect port_ lanes_) s = execPortSignalDetect port_ lanes_ s := rfl
theorem exec_portLanesLock (port_ : Nat) (s : State) : exec (.portLanesLock port_) s = execPortLanesLock port_ s := rfl
theorem exec_portAlignDone (port_ : Nat) (s : State) : exec (.portAlignDone port_) s = execPortAlignDone port_ s := rfl
theorem exec_portRetrainTimeout (port_ : Nat) (failed_ : (BitVec 8)) (over_ : (BitVec 8)) (s : State) : exec (.portRetrainTimeout port_ failed_ over_) s = execPortRetrainTimeout port_ failed_ over_ s := rfl
theorem exec_portLockLoss (port_ : Nat) (s : State) : exec (.portLockLoss port_) s = execPortLockLoss port_ s := rfl
theorem exec_lnkRtWrite (index_ : Nat) (value_ : DWord) (s : State) : exec (.lnkRtWrite index_ value_) s = execLnkRtWrite index_ value_ s := rfl
theorem exec_lnkRtCommit (value_ : Word) (s : State) : exec (.lnkRtCommit value_) s = execLnkRtCommit value_ s := rfl
theorem exec_routeFlip (src_ : Nat) (newE_ : Nat) (time_ : Nat) (s : State) : exec (.routeFlip src_ newE_ time_) s = execRouteFlip src_ newE_ time_ s := rfl
theorem exec_routeFlipTime (s : State) : exec (.routeFlipTime) s = execRouteFlipTime s := rfl
theorem exec_routeBankRelease (s : State) : exec (.routeBankRelease) s = execRouteBankRelease s := rfl
theorem exec_ping (src_ : Nat) (rtag_ : Nat) (time_ : Nat) (s : State) : exec (.ping src_ rtag_ time_) s = execPing src_ rtag_ time_ s := rfl
theorem exec_pong (src_ : Nat) (rtag_ : Nat) (time_ : Nat) (s : State) : exec (.pong src_ rtag_ time_) s = execPong src_ rtag_ time_ s := rfl
theorem exec_pagePut (src_ : Nat) (rtag_ : Nat) (move_ : Nat) (handle_ : DWord) (page_ : Nat) (stored_ : Nat) (crc_ : Word) (s : State) : exec (.pagePut src_ rtag_ move_ handle_ page_ stored_ crc_) s = execPagePut src_ rtag_ move_ handle_ page_ stored_ crc_ s := rfl
theorem exec_pageGet (src_ : Nat) (rtag_ : Nat) (byLease_ : Bool) (move_ : Nat) (handle_ : DWord) (page_ : Nat) (s : State) : exec (.pageGet src_ rtag_ byLease_ move_ handle_ page_) s = execPageGet src_ rtag_ byLease_ move_ handle_ page_ s := rfl
theorem exec_moveDone (src_ : Nat) (rtag_ : Nat) (move_ : Nat) (status_ : Word) (stored_ : Nat) (crc_ : Word) (s : State) : exec (.moveDone src_ rtag_ move_ status_ stored_ crc_) s = execMoveDone src_ rtag_ move_ status_ stored_ crc_ s := rfl
theorem exec_pageRelease (src_ : Nat) (move_ : Nat) (handle_ : DWord) (first_ : Nat) (count_ : Nat) (s : State) : exec (.pageRelease src_ move_ handle_ first_ count_) s = execPageRelease src_ move_ handle_ first_ count_ s := rfl
theorem exec_bulkData (src_ : Nat) (rtag_ : Nat) (move_ : Nat) (off_ : Nat) (data_ : (List Byte)) (s : State) : exec (.bulkData src_ rtag_ move_ off_ data_) s = execBulkData src_ rtag_ move_ off_ data_ s := rfl
theorem exec_peerMoveStall (src_ : Nat) (move_ : Nat) (s : State) : exec (.peerMoveStall src_ move_) s = execPeerMoveStall src_ move_ s := rfl
theorem exec_collPart (src_ : Nat) (seq_ : Nat) (span_ : Nat) (off_ : Nat) (partials_ : (List Word)) (s : State) : exec (.collPart src_ seq_ span_ off_ partials_) s = execCollPart src_ seq_ span_ off_ partials_ s := rfl
theorem exec_collData (src_ : Nat) (seq_ : Nat) (span_ : Nat) (off_ : Nat) (data_ : (List Byte)) (s : State) : exec (.collData src_ seq_ span_ off_ data_) s = execCollData src_ seq_ span_ off_ data_ s := rfl
theorem exec_spanPut (src_ : Nat) (rtag_ : Nat) (rank_ : Nat) (span_ : Nat) (off_ : Nat) (data_ : (List Byte)) (s : State) : exec (.spanPut src_ rtag_ rank_ span_ off_ data_) s = execSpanPut src_ rtag_ rank_ span_ off_ data_ s := rfl
theorem exec_spanGet (src_ : Nat) (rtag_ : Nat) (rank_ : Nat) (span_ : Nat) (off_ : Nat) (len_ : Nat) (s : State) : exec (.spanGet src_ rtag_ rank_ span_ off_ len_) s = execSpanGet src_ rtag_ rank_ span_ off_ len_ s := rfl
theorem exec_spanSignal (src_ : Nat) (rank_ : Nat) (span_ : Nat) (sem_ : Nat) (value_ : Word) (s : State) : exec (.spanSignal src_ rank_ span_ sem_ value_) s = execSpanSignal src_ rank_ span_ sem_ value_ s := rfl
theorem exec_spanBar (src_ : Nat) (index_ : Nat) (span_ : Nat) (count_ : Nat) (s : State) : exec (.spanBar src_ index_ span_ count_) s = execSpanBar src_ index_ span_ count_ s := rfl
theorem exec_spanData (src_ : Nat) (rtag_ : Nat) (span_ : Nat) (off_ : Nat) (data_ : (List Byte)) (s : State) : exec (.spanData src_ rtag_ span_ off_ data_) s = execSpanData src_ rtag_ span_ off_ data_ s := rfl
theorem exec_spanAck (src_ : Nat) (span_ : Nat) (highest_ : Nat) (s : State) : exec (.spanAck src_ span_ highest_) s = execSpanAck src_ span_ highest_ s := rfl
theorem exec_timeSyncTick (s : State) : exec (.timeSyncTick) s = execTimeSyncTick s := rfl
theorem exec_syncReq (port_ : Nat) (seq_ : Nat) (t1_ : Nat) (rpl_ : Bool) (s : State) : exec (.syncReq port_ seq_ t1_ rpl_) s = execSyncReq port_ seq_ t1_ rpl_ s := rfl
theorem exec_syncResp (port_ : Nat) (seq_ : Nat) (t2_ : Nat) (t3_ : Nat) (t4_ : Nat) (locked_ : Bool) (stratum_ : Nat) (rpl_ : Bool) (s : State) : exec (.syncResp port_ seq_ t2_ t3_ t4_ locked_ stratum_ rpl_) s = execSyncResp port_ seq_ t2_ t3_ t4_ locked_ stratum_ rpl_ s := rfl
theorem exec_beaconTick (s : State) : exec (.beaconTick) s = execBeaconTick s := rfl
theorem exec_beacon (src_ : Nat) (hops_ : Nat) (level_ : Nat) (resign_ : Bool) (stall_ : Bool) (node_ : Nat) (term_ : Nat) (key_ : Nat) (gen_ : Nat) (stratum_ : Nat) (roll_ : Nat) (seq_ : Nat) (locked_ : Bool) (s : State) : exec (.beacon src_ hops_ level_ resign_ stall_ node_ term_ key_ gen_ stratum_ roll_ seq_ locked_) s = execBeacon src_ hops_ level_ resign_ stall_ node_ term_ key_ gen_ stratum_ roll_ seq_ locked_ s := rfl
theorem exec_managerLoss (level_ : Nat) (s : State) : exec (.managerLoss level_) s = execManagerLoss level_ s := rfl
theorem exec_candidateWaitExpire (level_ : Nat) (s : State) : exec (.candidateWaitExpire level_) s = execCandidateWaitExpire level_ s := rfl
theorem exec_candidate (src_ : Nat) (hops_ : Nat) (level_ : Nat) (node_ : Nat) (term_ : Nat) (key_ : Nat) (seq_ : Nat) (s : State) : exec (.candidate src_ hops_ level_ node_ term_ key_ seq_) s = execCandidate src_ hops_ level_ node_ term_ key_ seq_ s := rfl
theorem exec_electionTimeout (level_ : Nat) (s : State) : exec (.electionTimeout level_) s = execElectionTimeout level_ s := rfl
theorem exec_hieResign (s : State) : exec (.hieResign) s = execHieResign s := rfl
theorem exec_join (src_ : Nat) (rtag_ : Nat) (level_ : Nat) (cont_ : Bool) (start_ : Nat) (build_ : Nat) (fw_ : Nat) (ledger_ : Nat) (total_ : Nat) (idx_ : Nat) (bases_ : (List Nat)) (tag_ : (BitVec 128)) (s : State) : exec (.join src_ rtag_ level_ cont_ start_ build_ fw_ ledger_ total_ idx_ bases_ tag_) s = execJoin src_ rtag_ level_ cont_ start_ build_ fw_ ledger_ total_ idx_ bases_ tag_ s := rfl
theorem exec_joinAck (src_ : Nat) (rtag_ : Nat) (status_ : Word) (term_ : Nat) (tag_ : (BitVec 128)) (s : State) : exec (.joinAck src_ rtag_ status_ term_ tag_) s = execJoinAck src_ rtag_ status_ term_ tag_ s := rfl
theorem exec_joinSeriesTimeout (node_ : Nat) (s : State) : exec (.joinSeriesTimeout node_) s = execJoinSeriesTimeout node_ s := rfl
theorem exec_statusTick (s : State) : exec (.statusTick) s = execStatusTick s := rfl
theorem exec_status (src_ : Nat) (rtag_ : Nat) (hbm_ : Nat) (clu_ : Nat) (lend1_ : Nat) (lend2_ : Nat) (ports_ : (List Nat)) (sledUj_ : Nat) (snapTb_ : Nat) (tenantMj_ : Nat) (meterOk_ : Bool) (s : State) : exec (.status src_ rtag_ hbm_ clu_ lend1_ lend2_ ports_ sledUj_ snapTb_ tenantMj_ meterOk_) s = execStatus src_ rtag_ hbm_ clu_ lend1_ lend2_ ports_ sledUj_ snapTb_ tenantMj_ meterOk_ s := rfl
theorem exec_routeSet (src_ : Nat) (rtag_ : Nat) (table_ : Nat) (first_ : Nat) (gen_ : Nat) (entries_ : (List DWord)) (s : State) : exec (.routeSet src_ rtag_ table_ first_ gen_ entries_) s = execRouteSet src_ rtag_ table_ first_ gen_ entries_ s := rfl
theorem exec_topologyRecompute (s : State) : exec (.topologyRecompute) s = execTopologyRecompute s := rfl
theorem exec_poolReq (src_ : Nat) (rtag_ : Nat) (wanted_ : Nat) (s : State) : exec (.poolReq src_ rtag_ wanted_) s = execPoolReq src_ rtag_ wanted_ s := rfl
theorem exec_poolGrant (src_ : Nat) (rtag_ : Nat) (term_ : Nat) (bases_ : (List Nat)) (s : State) : exec (.poolGrant src_ rtag_ term_ bases_) s = execPoolGrant src_ rtag_ term_ bases_ s := rfl
theorem exec_poolBlockReturn (base_ : Nat) (s : State) : exec (.poolBlockReturn base_) s = execPoolBlockReturn base_ s := rfl
theorem exec_poolMapReplicate (blocks_ : (List (Nat × Nat))) (s : State) : exec (.poolMapReplicate blocks_) s = execPoolMapReplicate blocks_ s := rfl
theorem exec_spanHold (src_ : Nat) (rtag_ : Nat) (id_ : Nat) (txn_ : Nat) (modify_ : Bool) (cls_ : Nat) (words_ : (List Nat)) (domain_ : Nat) (keys_ : Nat) (s : State) : exec (.spanHold src_ rtag_ id_ txn_ modify_ cls_ words_ domain_ keys_) s = execSpanHold src_ rtag_ id_ txn_ modify_ cls_ words_ domain_ keys_ s := rfl
theorem exec_spanVote (src_ : Nat) (rtag_ : Nat) (txn_ : Nat) (status_ : Word) (amount_ : Nat) (s : State) : exec (.spanVote src_ rtag_ txn_ status_ amount_) s = execSpanVote src_ rtag_ txn_ status_ amount_ s := rfl
theorem exec_spanCommit (src_ : Nat) (rtag_ : Nat) (txn_ : Nat) (commit_ : Bool) (s : State) : exec (.spanCommit src_ rtag_ txn_ commit_) s = execSpanCommit src_ rtag_ txn_ commit_ s := rfl
theorem exec_spanVoteTimeout (txn_ : Nat) (s : State) : exec (.spanVoteTimeout txn_) s = execSpanVoteTimeout txn_ s := rfl
theorem exec_spanCommitTimeout (mgr_ : Nat) (txn_ : Nat) (s : State) : exec (.spanCommitTimeout mgr_ txn_) s = execSpanCommitTimeout mgr_ txn_ s := rfl
theorem exec_spanRequestTimeout (f_ : Nat) (s : State) : exec (.spanRequestTimeout f_) s = execSpanRequestTimeout f_ s := rfl
theorem exec_tenantOp (src_ : Nat) (rtag_ : Nat) (id_ : Nat) (op_ : Nat) (home_ : Nat) (s : State) : exec (.tenantOp src_ rtag_ id_ op_ home_) s = execTenantOp src_ rtag_ id_ op_ home_ s := rfl
theorem exec_spanHomeLoss (slot_ : Nat) (s : State) : exec (.spanHomeLoss slot_) s = execSpanHomeLoss slot_ s := rfl
theorem exec_keyWrap (src_ : Nat) (rtag_ : Nat) (dom_ : Nat) (kg_ : Nat) (term_ : Nat) (key_ : (BitVec 192)) (s : State) : exec (.keyWrap src_ rtag_ dom_ kg_ term_ key_) s = execKeyWrap src_ rtag_ dom_ kg_ term_ key_ s := rfl
theorem exec_lendQuery (node_ : Nat) (answer_ : (Option Nat)) (s : State) : exec (.lendQuery node_ answer_) s = execLendQuery node_ answer_ s := rfl
theorem exec_ledgerFwd (src_ : Nat) (rtag_ : Nat) (origin_ : Nat) (index_ : Nat) (record_ : (List Word)) (s : State) : exec (.ledgerFwd src_ rtag_ origin_ index_ record_) s = execLedgerFwd src_ rtag_ origin_ index_ record_ s := rfl
theorem exec_ack (src_ : Nat) (rtag_ : Nat) (echoed_ : Nat) (status_ : Word) (ratio_ : Nat) (second_ : Nat) (valid_ : Bool) (s : State) : exec (.ack src_ rtag_ echoed_ status_ ratio_ second_ valid_) s = execAck src_ rtag_ echoed_ status_ ratio_ second_ valid_ s := rfl
theorem exec_hieRequestTimeout (tag_ : Nat) (s : State) : exec (.hieRequestTimeout tag_) s = execHieRequestTimeout tag_ s := rfl
theorem exec_rollStart (workers_ : (List Nat)) (chassis_ : (List Nat)) (rows_ : (List Nat)) (s : State) : exec (.rollStart workers_ chassis_ rows_) s = execRollStart workers_ chassis_ rows_ s := rfl
theorem exec_rollHalt (s : State) : exec (.rollHalt) s = execRollHalt s := rfl
theorem exec_rollResume (s : State) : exec (.rollResume) s = execRollResume s := rfl
theorem exec_rollOffer (src_ : Nat) (rtag_ : Nat) (wave_ : Nat) (move_ : Nat) (version_ : Nat) (size_ : Nat) (digest_ : (List Nat)) (s : State) : exec (.rollOffer src_ rtag_ wave_ move_ version_ size_ digest_) s = execRollOffer src_ rtag_ wave_ move_ version_ size_ digest_ s := rfl
theorem exec_rollActivate (src_ : Nat) (rtag_ : Nat) (move_ : Nat) (s : State) : exec (.rollActivate src_ rtag_ move_) s = execRollActivate src_ rtag_ move_ s := rfl
theorem exec_rollConfirm (src_ : Nat) (rtag_ : Nat) (move_ : Nat) (s : State) : exec (.rollConfirm src_ rtag_ move_) s = execRollConfirm src_ rtag_ move_ s := rfl
theorem exec_rollReport (src_ : Nat) (rtag_ : Nat) (move_ : Nat) (status_ : Word) (s : State) : exec (.rollReport src_ rtag_ move_ status_) s = execRollReport src_ rtag_ move_ status_ s := rfl
theorem exec_rollDrainExpire (s : State) : exec (.rollDrainExpire) s = execRollDrainExpire s := rfl
theorem exec_rollSoakExpire (s : State) : exec (.rollSoakExpire) s = execRollSoakExpire s := rfl
theorem exec_rollReportTimeout (node_ : Nat) (s : State) : exec (.rollReportTimeout node_) s = execRollReportTimeout node_ s := rfl
theorem exec_ppsInPulse (s : State) : exec (.ppsInPulse) s = execPpsInPulse s := rfl
theorem exec_ppsOutSecond (s : State) : exec (.ppsOutSecond) s = execPpsOutSecond s := rfl
theorem exec_hieSiteSecretWrite (index_ : Nat) (value_ : Word) (s : State) : exec (.hieSiteSecretWrite index_ value_) s = execHieSiteSecretWrite index_ value_ s := rfl
theorem exec_waitMonitorThreshold (level_ : Nat) (us_ : Nat) (upward_ : Bool) (s : State) : exec (.waitMonitorThreshold level_ us_ upward_) s = execWaitMonitorThreshold level_ us_ upward_ s := rfl
theorem exec_twLeaseWrite (f_ : Nat) (win_ : (Option Nat)) (value_ : Word) (s : State) : exec (.twLeaseWrite f_ win_ value_) s = execTwLeaseWrite f_ win_ value_ s := rfl
theorem exec_twLeasePeriodWrite (f_ : Nat) (win_ : (Option Nat)) (value_ : Word) (s : State) : exec (.twLeasePeriodWrite f_ win_ value_) s = execTwLeasePeriodWrite f_ win_ value_ s := rfl
theorem exec_leaseExpire (f_ : Nat) (s : State) : exec (.leaseExpire f_) s = execLeaseExpire f_ s := rfl
theorem exec_pfLeaseExpire (s : State) : exec (.pfLeaseExpire) s = execPfLeaseExpire s := rfl
theorem exec_writeStallTimeout (f_ : Nat) (withheld_ : Bool) (s : State) : exec (.writeStallTimeout f_ withheld_) s = execWriteStallTimeout f_ withheld_ s := rfl
theorem exec_writeStallExit (f_ : Nat) (s : State) : exec (.writeStallExit f_) s = execWriteStallExit f_ s := rfl
theorem exec_readStallTimeout (tag_ : Nat) (s : State) : exec (.readStallTimeout tag_) s = execReadStallTimeout tag_ s := rfl
theorem exec_dmaReadComplete (tag_ : Nat) (data_ : (List Nat)) (s : State) : exec (.dmaReadComplete tag_ data_) s = execDmaReadComplete tag_ data_ s := rfl
theorem exec_unexpectedCompletion (f_ : Nat) (s : State) : exec (.unexpectedCompletion f_) s = execUnexpectedCompletion f_ s := rfl
theorem exec_hostRequestError (acc_ : HostAccess) (s : State) : exec (.hostRequestError acc_) s = execHostRequestError acc_ s := rfl
theorem exec_poisonedCompletion (acc_ : HostAccess) (s : State) : exec (.poisonedCompletion acc_) s = execPoisonedCompletion acc_ s := rfl
theorem exec_msixUnmask (f_ : Nat) (vec_ : Nat) (s : State) : exec (.msixUnmask f_ vec_) s = execMsixUnmask f_ vec_ s := rfl
theorem exec_vfFlr (f_ : Nat) (s : State) : exec (.vfFlr f_) s = execVfFlr f_ s := rfl
theorem exec_vfEnableClear (s : State) : exec (.vfEnableClear) s = execVfEnableClear s := rfl
theorem exec_pfFlr (s : State) : exec (.pfFlr) s = execPfFlr s := rfl
theorem exec_conventionalReset (kind_ : Nat) (speed_ : Nat) (width_ : Nat) (s : State) : exec (.conventionalReset kind_ speed_ width_) s = execConventionalReset kind_ speed_ width_ s := rfl
theorem exec_bmeClear (f_ : Nat) (s : State) : exec (.bmeClear f_) s = execBmeClear f_ s := rfl
theorem exec_d3hotEntry (f_ : Nat) (s : State) : exec (.d3hotEntry f_) s = execD3hotEntry f_ s := rfl
theorem exec_ideStreamInsecure (stream_ : Nat) (first_ : Nat) (last_ : Nat) (s : State) : exec (.ideStreamInsecure stream_ first_ last_) s = execIdeStreamInsecure stream_ first_ last_ s := rfl
theorem exec_ideKmKeyProg (stream_ : Nat) (keySet_ : Nat) (key_ : (BitVec 256)) (s : State) : exec (.ideKmKeyProg stream_ keySet_ key_) s = execIdeKmKeyProg stream_ keySet_ key_ s := rfl
theorem exec_spdmGetVersion (s : State) : exec (.spdmGetVersion) s = execSpdmGetVersion s := rfl
theorem exec_spdmGetCapabilities (s : State) : exec (.spdmGetCapabilities) s = execSpdmGetCapabilities s := rfl
theorem exec_spdmNegotiateAlgorithms (asym_ : Nat) (hash_ : Nat) (dhe_ : Nat) (aead_ : Nat) (s : State) : exec (.spdmNegotiateAlgorithms asym_ hash_ dhe_ aead_) s = execSpdmNegotiateAlgorithms asym_ hash_ dhe_ aead_ s := rfl
theorem exec_spdmGetDigests (s : State) : exec (.spdmGetDigests) s = execSpdmGetDigests s := rfl
theorem exec_spdmGetCertificate (slot_ : Nat) (offset_ : Nat) (length_ : Nat) (s : State) : exec (.spdmGetCertificate slot_ offset_ length_) s = execSpdmGetCertificate slot_ offset_ length_ s := rfl
theorem exec_spdmChallenge (slot_ : Nat) (nonce_ : Nat) (s : State) : exec (.spdmChallenge slot_ nonce_) s = execSpdmChallenge slot_ nonce_ s := rfl
theorem exec_spdmGetMeasurements (index_ : Nat) (sign_ : Bool) (slot_ : Nat) (nonce_ : Nat) (s : State) : exec (.spdmGetMeasurements index_ sign_ slot_ nonce_) s = execSpdmGetMeasurements index_ sign_ slot_ nonce_ s := rfl
theorem exec_spdmKeyExchange (slot_ : Nat) (exchange_ : Nat) (s : State) : exec (.spdmKeyExchange slot_ exchange_) s = execSpdmKeyExchange slot_ exchange_ s := rfl
theorem exec_spdmFinish (verifies_ : Bool) (s : State) : exec (.spdmFinish verifies_) s = execSpdmFinish verifies_ s := rfl
theorem exec_spdmKeyUpdate (op_ : Nat) (tag_ : Nat) (s : State) : exec (.spdmKeyUpdate op_ tag_) s = execSpdmKeyUpdate op_ tag_ s := rfl
theorem exec_spdmHeartbeat (s : State) : exec (.spdmHeartbeat) s = execSpdmHeartbeat s := rfl
theorem exec_spdmEndSession (s : State) : exec (.spdmEndSession) s = execSpdmEndSession s := rfl
theorem exec_hifRestartWarm (key_ : Nat) (s : State) : exec (.hifRestartWarm key_) s = execHifRestartWarm key_ s := rfl
theorem exec_hifRestartCold (key_ : Nat) (s : State) : exec (.hifRestartCold key_) s = execHifRestartCold key_ s := rfl
theorem exec_mainGood (sledEn_ : Bool) (s : State) : exec (.mainGood sledEn_) s = execMainGood sledEn_ s := rfl
theorem exec_sledEnDeassert (s : State) : exec (.sledEnDeassert) s = execSledEnDeassert s := rfl
theorem exec_quiesceTimeout (s : State) : exec (.quiesceTimeout) s = execQuiesceTimeout s := rfl
theorem exec_railRegulationTimeout (rail_ : Nat) (s : State) : exec (.railRegulationTimeout rail_) s = execRailRegulationTimeout rail_ s := rfl
theorem exec_startStepComplete (n_ : Nat) (ok_ : Bool) (found_ : (List Nat)) (s : State) : exec (.startStepComplete n_ ok_ found_) s = execStartStepComplete n_ ok_ found_ s := rfl
theorem exec_startLimitExpire (s : State) : exec (.startLimitExpire) s = execStartLimitExpire s := rfl
theorem exec_startRetry (s : State) : exec (.startRetry) s = execStartRetry s := rfl
theorem exec_rstSafeExit (key_ : Nat) (s : State) : exec (.rstSafeExit key_) s = execRstSafeExit key_ s := rfl
theorem exec_rootLockLoss (s : State) : exec (.rootLockLoss) s = execRootLockLoss s := rfl
theorem exec_overtempTrip (s : State) : exec (.overtempTrip) s = execOvertempTrip s := rfl
theorem exec_overtempClear (s : State) : exec (.overtempClear) s = execOvertempClear s := rfl
theorem exec_powerCapTick (s : State) : exec (.powerCapTick) s = execPowerCapTick s := rfl
theorem exec_thermalTick (west_ : Int) (east_ : Int) (s : State) : exec (.thermalTick west_ east_) s = execThermalTick west_ east_ s := rfl
theorem exec_hkTransaction (ok_ : Bool) (s : State) : exec (.hkTransaction ok_) s = execHkTransaction ok_ s := rfl
theorem exec_rstUnit (type_ : Nat) (index_ : Nat) (key_ : Nat) (s : State) : exec (.rstUnit type_ index_ key_) s = execRstUnit type_ index_ key_ s := rfl
theorem exec_unitResetDeferred (type_ : Nat) (index_ : Nat) (s : State) : exec (.unitResetDeferred type_ index_) s = execUnitResetDeferred type_ index_ s := rfl
theorem exec_resetNotice (type_ : Nat) (index_ : Nat) (s : State) : exec (.resetNotice type_ index_) s = execResetNotice type_ index_ s := rfl
theorem exec_watchdogExpire (s : State) : exec (.watchdogExpire) s = execWatchdogExpire s := rfl
theorem exec_watchdogReadyTimeout (s : State) : exec (.watchdogReadyTimeout) s = execWatchdogReadyTimeout s := rfl
theorem exec_fwReadySet (s : State) : exec (.fwReadySet) s = execFwReadySet s := rfl
theorem exec_icConversionEnd (n_ : Nat) (nv_ : Int) (s : State) : exec (.icConversionEnd n_ nv_) s = execIcConversionEnd n_ nv_ s := rfl
theorem exec_sdModulatorClip (ch_ : Nat) (s : State) : exec (.sdModulatorClip ch_) s = execSdModulatorClip ch_ s := rfl
theorem exec_adcUrgFinish (conv_ : (Option Nat)) (input_ : Nat) (period_ : Nat) (s : State) : exec (.adcUrgFinish conv_ input_ period_) s = execAdcUrgFinish conv_ input_ period_ s := rfl
theorem exec_adcUrgDrop (conv_ : (Option Nat)) (input_ : Nat) (period_ : Nat) (s : State) : exec (.adcUrgDrop conv_ input_ period_) s = execAdcUrgDrop conv_ input_ period_ s := rfl
theorem exec_adcSdCommit (s : State) : exec (.adcSdCommit) s = execAdcSdCommit s := rfl
theorem exec_adcIcCommit (s : State) : exec (.adcIcCommit) s = execAdcIcCommit s := rfl
theorem exec_adcSdCalStart (s : State) : exec (.adcSdCalStart) s = execAdcSdCalStart s := rfl
theorem exec_sdCalComplete (zeros_ : (List Nat)) (refs_ : (List Nat)) (s : State) : exec (.sdCalComplete zeros_ refs_) s = execSdCalComplete zeros_ refs_ s := rfl
theorem exec_adcIcCalStart (s : State) : exec (.adcIcCalStart) s = execAdcIcCalStart s := rfl
theorem exec_referenceCheckTick (s : State) : exec (.referenceCheckTick) s = execReferenceCheckTick s := rfl
theorem exec_adcSyscalZero (ic_ : Bool) (target_ : Nat) (input_ : Nat) (gain_ : Nat) (s : State) : exec (.adcSyscalZero ic_ target_ input_ gain_) s = execAdcSyscalZero ic_ target_ input_ gain_ s := rfl
theorem exec_adcSyscalFull (ic_ : Bool) (target_ : Nat) (input_ : Nat) (gain_ : Nat) (s : State) : exec (.adcSyscalFull ic_ target_ input_ gain_) s = execAdcSyscalFull ic_ target_ input_ gain_ s := rfl
theorem exec_syscalPhaseComplete (s : State) : exec (.syscalPhaseComplete) s = execSyscalPhaseComplete s := rfl
theorem exec_adcSyscalSave (key_ : Nat) (s : State) : exec (.adcSyscalSave key_) s = execAdcSyscalSave key_ s := rfl
theorem exec_autorangeUp (ch_ : Nat) (s : State) : exec (.autorangeUp ch_) s = execAutorangeUp ch_ s := rfl
theorem exec_decOutput (ch_ : Nat) (ones_ : (List Bool)) (s : State) : exec (.decOutput ch_ ones_) s = execDecOutput ch_ ones_ s := rfl
theorem exec_decCommit (s : State) : exec (.decCommit) s = execDecCommit s := rfl
theorem exec_mtrSyncEdge (frac_ : Nat) (s : State) : exec (.mtrSyncEdge frac_) s = execMtrSyncEdge frac_ s := rfl
theorem exec_decCtrlSync (s : State) : exec (.decCtrlSync) s = execDecCtrlSync s := rfl
theorem exec_decCtrlArm (s : State) : exec (.decCtrlArm) s = execDecCtrlArm s := rfl
theorem exec_decSyncInstant (s : State) : exec (.decSyncInstant) s = execDecSyncInstant s := rfl
theorem exec_decCaptureStart (mask_ : Nat) (s : State) : exec (.decCaptureStart mask_) s = execDecCaptureStart mask_ s := rfl
theorem exec_mtrCycleEnd (sled_ : Bool) (cross_ : Bool) (len_ : Nat) (samples_ : (List (List Int))) (s : State) : exec (.mtrCycleEnd sled_ cross_ len_ samples_) s = execMtrCycleEnd sled_ cross_ len_ samples_ s := rfl
theorem exec_freqLossTimeout (s : State) : exec (.freqLossTimeout) s = execFreqLossTimeout s := rfl
theorem exec_mtrHalfCycle (elem_ : Nat) (samples_ : (List Int)) (s : State) : exec (.mtrHalfCycle elem_ samples_) s = execMtrHalfCycle elem_ samples_ s := rfl
theorem exec_cfPulseEmit (k_ : Nat) (s : State) : exec (.cfPulseEmit k_) s = execCfPulseEmit k_ s := rfl
theorem exec_cfPulseEnd (k_ : Nat) (s : State) : exec (.cfPulseEnd k_) s = execCfPulseEnd k_ s := rfl
theorem exec_mtrFramFlushTick (s : State) : exec (.mtrFramFlushTick) s = execMtrFramFlushTick s := rfl
theorem exec_mtrEclr (key_ : Nat) (s : State) : exec (.mtrEclr key_) s = execMtrEclr key_ s := rfl
theorem exec_mtrCommit (s : State) : exec (.mtrCommit) s = execMtrCommit s := rfl
theorem exec_mtrCalGain (elem_ : Nat) (n_ : Nat) (s : State) : exec (.mtrCalGain elem_ n_) s = execMtrCalGain elem_ n_ s := rfl
theorem exec_mtrCalPhase (elem_ : Nat) (n_ : Nat) (s : State) : exec (.mtrCalPhase elem_ n_) s = execMtrCalPhase elem_ n_ s := rfl
theorem exec_sledP1msTick (s : State) : exec (.sledP1msTick) s = execSledP1msTick s := rfl
theorem exec_mtrCycSeqRead (requester_ : Nat) (s : State) : exec (.mtrCycSeqRead requester_) s = execMtrCycSeqRead requester_ s := rfl
theorem exec_reconcileTick (s : State) : exec (.reconcileTick) s = execReconcileTick s := rfl
theorem exec_accountingPeriodBoundary (s : State) : exec (.accountingPeriodBoundary) s = execAccountingPeriodBoundary s := rfl
theorem exec_overheadRound (s : State) : exec (.overheadRound) s = execOverheadRound s := rfl
theorem exec_overheadMissTimeout (sec_ : Nat) (s : State) : exec (.overheadMissTimeout sec_) s = execOverheadMissTimeout sec_ s := rfl
theorem exec_nrgCommit (s : State) : exec (.nrgCommit) s = execNrgCommit s := rfl
theorem exec_twNrgSeqRead (f_ : Nat) (win_ : (Option Nat)) (requester_ : Nat) (s : State) : exec (.twNrgSeqRead f_ win_ requester_) s = execTwNrgSeqRead f_ win_ requester_ s := rfl
theorem exec_pnlUpdateFull (party_ : Nat) (zones_ : Nat) (s : State) : exec (.pnlUpdateFull party_ zones_) s = execPnlUpdateFull party_ zones_ s := rfl
theorem exec_pnlUpdatePartial (party_ : Nat) (zones_ : Nat) (s : State) : exec (.pnlUpdatePartial party_ zones_) s = execPnlUpdatePartial party_ zones_ s := rfl
theorem exec_pnlUpdateClear (party_ : Nat) (zones_ : Nat) (s : State) : exec (.pnlUpdateClear party_ zones_) s = execPnlUpdateClear party_ zones_ s := rfl
theorem exec_panelFrameBoundary (s : State) : exec (.panelFrameBoundary) s = execPanelFrameBoundary s := rfl
theorem exec_panelRailStep (ok_ : Bool) (s : State) : exec (.panelRailStep ok_) s = execPanelRailStep ok_ s := rfl
theorem exec_panelRailHoldExpire (s : State) : exec (.panelRailHoldExpire) s = execPanelRailHoldExpire s := rfl
theorem exec_panelRailFault (s : State) : exec (.panelRailFault) s = execPanelRailFault s := rfl
theorem exec_panelRailRetry (s : State) : exec (.panelRailRetry) s = execPanelRailRetry s := rfl
theorem exec_pnlFbWrite (party_ : Nat) (offset_ : Nat) (value_ : Word) (s : State) : exec (.pnlFbWrite party_ offset_ value_) s = execPnlFbWrite party_ offset_ value_ s := rfl
theorem exec_pnlTblCommit (key_ : Nat) (s : State) : exec (.pnlTblCommit key_) s = execPnlTblCommit key_ s := rfl
theorem exec_pnlCommit (s : State) : exec (.pnlCommit) s = execPnlCommit s := rfl
theorem exec_pnlBodyOwnWrite (owner_ : Nat) (s : State) : exec (.pnlBodyOwnWrite owner_) s = execPnlBodyOwnWrite owner_ s := rfl
theorem exec_pnlWakePress (s : State) : exec (.pnlWakePress) s = execPnlWakePress s := rfl
theorem exec_pnlWakeExpire (s : State) : exec (.pnlWakeExpire) s = execPnlWakeExpire s := rfl
theorem exec_mainLoss (s : State) : exec (.mainLoss) s = execMainLoss s := rfl
theorem exec_auxLoss (s : State) : exec (.auxLoss) s = execAuxLoss s := rfl
theorem exec_lodgeLoss (s : State) : exec (.lodgeLoss) s = execLodgeLoss s := rfl
theorem exec_auxReturn (s : State) : exec (.auxReturn) s = execAuxReturn s := rfl
theorem exec_lodgePowerUp (aux_ : Bool) (main_ : Bool) (s : State) : exec (.lodgePowerUp aux_ main_) s = execLodgePowerUp aux_ main_ s := rfl
theorem exec_holdupStoreRefresh (s : State) : exec (.holdupStoreRefresh) s = execHoldupStoreRefresh s := rfl
theorem exec_mainStoreCheck (ok_ : Bool) (s : State) : exec (.mainStoreCheck ok_) s = execMainStoreCheck ok_ s := rfl
theorem exec_updBegin (s : State) : exec (.updBegin) s = execUpdBegin s := rfl
theorem exec_updWrite (programOk_ : Bool) (s : State) : exec (.updWrite programOk_) s = execUpdWrite programOk_ s := rfl
theorem exec_updEnd (s : State) : exec (.updEnd) s = execUpdEnd s := rfl
theorem exec_updVerify (readOk_ : Bool) (s : State) : exec (.updVerify readOk_) s = execUpdVerify readOk_ s := rfl
theorem exec_updActivate (now_ : Bool) (s : State) : exec (.updActivate now_) s = execUpdActivate now_ s := rfl
theorem exec_updConfirm (s : State) : exec (.updConfirm) s = execUpdConfirm s := rfl
theorem exec_updAbort (s : State) : exec (.updAbort) s = execUpdAbort s := rfl
theorem exec_updRevert (s : State) : exec (.updRevert) s = execUpdRevert s := rfl
theorem exec_updSessionIdleTimeout (s : State) : exec (.updSessionIdleTimeout) s = execUpdSessionIdleTimeout s := rfl
theorem exec_autoConfirmExpire (s : State) : exec (.autoConfirmExpire) s = execAutoConfirmExpire s := rfl
theorem exec_fwTraceSelWrite (index_ : Nat) (s : State) : exec (.fwTraceSelWrite index_) s = execFwTraceSelWrite index_ s := rfl
theorem exec_fwCertCommit (key_ : Nat) (s : State) : exec (.fwCertCommit key_) s = execFwCertCommit key_ s := rfl
theorem exec_hbmCorrectedError (pch_ : Nat) (row_ : Nat) (s : State) : exec (.hbmCorrectedError pch_ row_) s = execHbmCorrectedError pch_ row_ s := rfl
theorem exec_rowRepairComplete (pch_ : Nat) (row_ : Nat) (s : State) : exec (.rowRepairComplete pch_ row_) s = execRowRepairComplete pch_ row_ s := rfl
theorem exec_hbmUncorrectedError (pch_ : Nat) (row_ : Nat) (slot_ : Nat) (obj_ : Nat) (page_ : Nat) (s : State) : exec (.hbmUncorrectedError pch_ row_ slot_ obj_ page_) s = execHbmUncorrectedError pch_ row_ slot_ obj_ page_ s := rfl
theorem exec_laneSerInterval (lane_ : Nat) (symbols_ : Nat) (s : State) : exec (.laneSerInterval lane_ symbols_) s = execLaneSerInterval lane_ symbols_ s := rfl
theorem exec_unitFault (type_ : Nat) (index_ : Nat) (block_ : Nat) (lost_ : Bool) (slot_ : Nat) (obj_ : Nat) (page_ : Nat) (s : State) : exec (.unitFault type_ index_ block_ lost_ slot_ obj_ page_) s = execUnitFault type_ index_ block_ lost_ slot_ obj_ page_ s := rfl
theorem exec_targetedTestComplete (type_ : Nat) (index_ : Nat) (passed_ : Bool) (s : State) : exec (.targetedTestComplete type_ index_ passed_) s = execTargetedTestComplete type_ index_ passed_ s := rfl
theorem exec_flashOpTimeout (move_ : Nat) (s : State) : exec (.flashOpTimeout move_) s = execFlashOpTimeout move_ s := rfl
theorem exec_hubDieFault (src_ : Nat) (flight_ : (Option Nat)) (ctx_ : (Option Nat)) (prog_ : (Option Nat)) (s : State) : exec (.hubDieFault src_ flight_ ctx_ prog_) s = execHubDieFault src_ flight_ ctx_ prog_ s := rfl
theorem exec_ledgerProgramComplete (ok_ : Bool) (s : State) : exec (.ledgerProgramComplete ok_) s = execLedgerProgramComplete ok_ s := rfl
theorem exec_ledgerRetryTick (s : State) : exec (.ledgerRetryTick) s = execLedgerRetryTick s := rfl
theorem exec_istSliceStart (type_ : Nat) (index_ : Nat) (forced_ : Bool) (s : State) : exec (.istSliceStart type_ index_ forced_) s = execIstSliceStart type_ index_ forced_ s := rfl
theorem exec_istSliceEnd (type_ : Nat) (index_ : Nat) (failed_ : Bool) (s : State) : exec (.istSliceEnd type_ index_ failed_) s = execIstSliceEnd type_ index_ failed_ s := rfl
theorem exec_patrolScrubRead (corrected_ : (Option (Nat × Nat))) (s : State) : exec (.patrolScrubRead corrected_) s = execPatrolScrubRead corrected_ s := rfl
theorem exec_laneEyeCheck (lane_ : Nat) (margin_ : Nat) (trained_ : Nat) (s : State) : exec (.laneEyeCheck lane_ margin_ trained_) s = execLaneEyeCheck lane_ margin_ trained_ s := rfl
theorem exec_fltUnitSelWrite (type_ : Nat) (index_ : Nat) (s : State) : exec (.fltUnitSelWrite type_ index_) s = execFltUnitSelWrite type_ index_ s := rfl
theorem exec_fltLdgSelWrite (index_ : Nat) (s : State) : exec (.fltLdgSelWrite index_) s = execFltLdgSelWrite index_ s := rfl
theorem exec_strapSample (straps_ : Nat) (eligible_ : Bool) (cables_ : (BitVec 4)) (s : State) : exec (.strapSample straps_ eligible_ cables_) s = execStrapSample straps_ eligible_ cables_ s := rfl
theorem exec_ldgLocationWrite (value_ : Word) (s : State) : exec (.ldgLocationWrite value_) s = execLdgLocationWrite value_ s := rfl
theorem exec_sidebandAddressWrite (bytes_ : (List Byte)) (s : State) : exec (.sidebandAddressWrite bytes_) s = execSidebandAddressWrite bytes_ s := rfl
theorem exec_sidebandRead (length_ : Nat) (s : State) : exec (.sidebandRead length_) s = execSidebandRead length_ s := rfl
theorem exec_setdasa (static_ : Nat) (dynamic_ : Nat) (s : State) : exec (.setdasa static_ dynamic_) s = execSetdasa static_ dynamic_ s := rfl
theorem exec_setaasa (s : State) : exec (.setaasa) s = execSetaasa s := rfl
theorem exec_entdaa (dynamic_ : Nat) (s : State) : exec (.entdaa dynamic_) s = execEntdaa dynamic_ s := rfl
theorem exec_rstdaa (s : State) : exec (.rstdaa) s = execRstdaa s := rfl
theorem exec_getpid (s : State) : exec (.getpid) s = execGetpid s := rfl
theorem exec_getbcr (s : State) : exec (.getbcr) s = execGetbcr s := rfl
theorem exec_getdcr (s : State) : exec (.getdcr) s = execGetdcr s := rfl
theorem exec_getstatus (s : State) : exec (.getstatus) s = execGetstatus s := rfl
theorem exec_svcPresenceChange (present_ : Bool) (s : State) : exec (.svcPresenceChange present_) s = execSvcPresenceChange present_ s := rfl
theorem exec_extest (package_ : Bool) (din_ : (List Bool)) (s : State) : exec (.extest package_ din_) s = execExtest package_ din_ s := rfl
theorem exec_idcode (package_ : Bool) (s : State) : exec (.idcode package_) s = execIdcode package_ s := rfl
theorem exec_samplePreload (package_ : Bool) (din_ : (List Bool)) (s : State) : exec (.samplePreload package_ din_) s = execSamplePreload package_ din_ s := rfl
theorem exec_regacc (word_ : DWord) (s : State) : exec (.regacc word_) s = execRegacc word_ s := rfl
theorem exec_unlock (signature_ : (List Byte)) (s : State) : exec (.unlock signature_) s = execUnlock signature_ s := rfl
theorem exec_bypass (package_ : Bool) (din_ : (List Bool)) (s : State) : exec (.bypass package_ din_) s = execBypass package_ din_ s := rfl
theorem exec_persistWriteComplete (target_ : Nat) (s : State) : exec (.persistWriteComplete target_) s = execPersistWriteComplete target_ s := rfl
theorem exec_xtalStop (s : State) : exec (.xtalStop) s = execXtalStop s := rfl
theorem exec_xtalReturn (s : State) : exec (.xtalReturn) s = execXtalReturn s := rfl

end Sys2Proof.Machine
end

