-- ==== Sys2Proof/Laws/Maps.lean ====
section
/-! SUPPORT. What the keyed collections do: reading after writing, and the canonical form that every operation keeps. -/

namespace Sys2Proof.Machine

theorem mget_mput_same {α : Type} (m : Map α) (k : Nat) (v : α) : mget (mput m k v) k = some v := by
  induction m with
  | nil => simp [mput, mget]
  | cons c r ih =>
    obtain ⟨i, w⟩ := c
    simp only [mput]
    split
    · simp [mget]
    · split
      · simp [mget]
      · rename_i _ h; simp [mget, Ne.symm h, ih]

theorem mget_mput_ne {α : Type} (m : Map α) {k j : Nat} (v : α) (h : j ≠ k) : mget (mput m k v) j = mget m j := by
  induction m with
  | nil => simp [mput, mget, Ne.symm h]
  | cons c r ih =>
    obtain ⟨i, w⟩ := c
    simp only [mput]
    split
    · simp [mget, Ne.symm h]
    · split
      · rename_i _ e; subst e; simp [mget, Ne.symm h]
      · simp [mget, ih]

theorem mget_mput {α : Type} (m : Map α) (k j : Nat) (v : α) :
    mget (mput m k v) j = if j = k then some v else mget m j := by
  split
  · rename_i h; subst h; exact mget_mput_same m j v
  · rename_i h; exact mget_mput_ne m v h

theorem mget_mdel_same {α : Type} (m : Map α) (k : Nat) : mget (mdel m k) k = none := by
  induction m with
  | nil => rfl
  | cons c r ih =>
    obtain ⟨i, w⟩ := c
    simp only [mdel]
    split
    · exact ih
    · rename_i h; simp [mget, h, ih]

theorem mget_mdel_ne {α : Type} (m : Map α) {k j : Nat} (h : j ≠ k) : mget (mdel m k) j = mget m j := by
  induction m with
  | nil => rfl
  | cons c r ih =>
    obtain ⟨i, w⟩ := c
    simp only [mdel]
    split
    · rename_i e; subst e; simp [mget, Ne.symm h, ih]
    · simp [mget, ih]

theorem mget_mdel {α : Type} (m : Map α) (k j : Nat) : mget (mdel m k) j = if j = k then none else mget m j := by
  split
  · rename_i h; subst h; exact mget_mdel_same m j
  · rename_i h; exact mget_mdel_ne m h

theorem mget_mupd_same {α : Type} (m : Map α) (k : Nat) (f : α → α) : mget (mupd m k f) k = (mget m k).map f := by
  simp only [mupd]
  split
  · rename_i v h; simp [mget_mput_same, h]
  · rename_i h; simp [h]

theorem mget_mupd_ne {α : Type} (m : Map α) {k j : Nat} (f : α → α) (h : j ≠ k) : mget (mupd m k f) j = mget m j := by
  simp only [mupd]
  split
  · exact mget_mput_ne m _ h
  · rfl

theorem mgetD_mputD {α : Type} [DecidableEq α] (m : Map α) (d e : α) (k j : Nat) (v : α) :
    mgetD (mputD m d k v) e j = if j = k then (if v = d then e else v) else mgetD m e j := by
  unfold mgetD mputD
  by_cases hv : v = d
  · rw [if_pos hv, mget_mdel, if_pos hv]; split <;> rfl
  · rw [if_neg hv, mget_mput, if_neg hv]; split <;> rfl

/-! ### The canonical form -/

theorem keysFrom_mono {α : Type} {m : Map α} {a b : Nat} (h : a ≤ b) (hm : keysFrom b m = true) : keysFrom a m = true := by
  cases m with
  | nil => rfl
  | cons c r =>
    obtain ⟨k, v⟩ := c
    simp only [keysFrom, Bool.and_eq_true, decide_eq_true_eq] at hm ⊢
    exact ⟨Nat.le_trans h hm.1, hm.2⟩

theorem keysFrom_mput {α : Type} {m : Map α} {b k : Nat} (v : α) (hk : b ≤ k) (hm : keysFrom b m = true) :
    keysFrom b (mput m k v) = true := by
  induction m generalizing b with
  | nil => simp [mput, keysFrom, hk]
  | cons c r ih =>
    obtain ⟨i, w⟩ := c
    simp only [keysFrom, Bool.and_eq_true, decide_eq_true_eq] at hm
    simp only [mput]
    split
    · simp only [keysFrom, Bool.and_eq_true, decide_eq_true_eq]; refine ⟨hk, ?_, hm.2⟩; omega
    · split
      · rename_i _ e; subst e; simp [keysFrom, hk, hm.2]
      · simp only [keysFrom, Bool.and_eq_true, decide_eq_true_eq]; exact ⟨hm.1, ih (by omega) hm.2⟩

theorem keysFrom_mdel {α : Type} {m : Map α} {b : Nat} (k : Nat) (hm : keysFrom b m = true) : keysFrom b (mdel m k) = true := by
  induction m generalizing b with
  | nil => rfl
  | cons c r ih =>
    obtain ⟨i, w⟩ := c
    simp only [keysFrom, Bool.and_eq_true, decide_eq_true_eq] at hm
    simp only [mdel]
    split
    · exact keysFrom_mono (by omega) (ih hm.2)
    · simp only [keysFrom, Bool.and_eq_true, decide_eq_true_eq]; exact ⟨hm.1, ih hm.2⟩

theorem mem_mput {α : Type} {m : Map α} {k : Nat} {v : α} {c : Nat × α} (h : c ∈ mput m k v) : c = (k, v) ∨ c ∈ m := by
  induction m with
  | nil => simpa [mput] using h
  | cons d r ih =>
    obtain ⟨i, w⟩ := d
    simp only [mput] at h
    split at h
    · simpa using h
    · split at h
      · grind
      · grind

theorem mem_mdel {α : Type} {m : Map α} {k : Nat} {c : Nat × α} (h : c ∈ mdel m k) : c ∈ m := by
  induction m with
  | nil => simp [mdel] at h
  | cons d r ih =>
    obtain ⟨i, w⟩ := d
    simp only [mdel] at h
    split at h
    · exact List.mem_cons_of_mem _ (ih h)
    · grind

/-- The canonical form as rising keys and no cell of the value that an unlisted address reads as. -/
theorem Memory.wf_iff (m : Memory) :
    Memory.wf m = true ↔ keysFrom 0 m = true ∧ ∀ c ∈ m, c.2 ≠ Memory.unlisted := by
  have key : ∀ (r : Memory) (c : Host.Cell), Memory.wf (c :: r) = true ↔
      (keysFrom (c.1 + 1) r = true ∧ ∀ d ∈ c :: r, d.2 ≠ Memory.unlisted) := by
    intro r
    induction r with
    | nil => intro c; simp [Memory.wf, keysFrom]
    | cons d r ih =>
      intro c
      simp only [Memory.wf, Bool.and_eq_true, decide_eq_true_eq, bne_iff_ne, ne_eq, ih d, keysFrom, List.mem_cons,
        forall_eq_or_imp]
      constructor
      · rintro ⟨⟨a, b⟩, e, f, g⟩; exact ⟨⟨by omega, e⟩, a, f, g⟩
      · rintro ⟨⟨b, e⟩, a, f, g⟩; exact ⟨⟨a, by omega⟩, e, f, g⟩
  cases m with
  | nil => simp [Memory.wf, keysFrom]
  | cons c r => rw [key]; simp [keysFrom]

/-- A byte write keeps the canonical form. -/
theorem writeByte_wf {m : Memory} (a : Nat) (b : Byte) (h : Memory.wf m = true) : Memory.wf (writeByte m a b) = true := by
  rw [Memory.wf_iff] at h ⊢
  unfold writeByte mputD
  split
  · exact ⟨keysFrom_mdel a h.1, fun c hc => h.2 c (mem_mdel hc)⟩
  · rename_i hb
    refine ⟨keysFrom_mput b (Nat.zero_le a) h.1, fun c hc => ?_⟩
    rcases mem_mput hc with rfl | hc
    · exact hb
    · exact h.2 c hc

/-- Storing bytes keeps the canonical form. -/
theorem writeBytes_wf {m : Memory} (a : Nat) (l : List Byte) (h : Memory.wf m = true) :
    Memory.wf (writeBytes m a l) = true := by
  induction l generalizing m a with
  | nil => exact h
  | cons b r ih => exact ih (a + 1) (writeByte_wf a b h)

/-- Storing a number keeps the canonical form. -/
theorem writeLE_wf {m : Memory} (a n x : Nat) (h : Memory.wf m = true) : Memory.wf (writeLE m a n x) = true :=
  writeBytes_wf a _ h

/-- Copying bytes keeps the canonical form of the destination. -/
theorem copyBytes_wf {m : Memory} (src : Memory) (sa da n : Nat) (h : Memory.wf m = true) :
    Memory.wf (copyBytes src sa m da n) = true := writeBytes_wf da _ h

/-- A read after a write: the byte written at its address, what was there elsewhere. -/
theorem readByte_writeByte (m : Memory) (a j : Nat) (b : Byte) :
    readByte (writeByte m a b) j = if j = a then b else readByte m j := by
  unfold readByte writeByte
  rw [mgetD_mputD]
  split
  · split
    · rename_i h; exact h.symm
    · rfl
  · rfl

theorem readByte_writeBytes_below (m : Memory) {a j : Nat} (l : List Byte) (h : j < a) :
    readByte (writeBytes m a l) j = readByte m j := by
  induction l generalizing m a with
  | nil => rfl
  | cons b r ih => rw [writeBytes, ih _ (by omega), readByte_writeByte, if_neg (by omega)]

/-- A read after a store of bytes. -/
theorem readByte_writeBytes (m : Memory) (a j : Nat) (l : List Byte) :
    readByte (writeBytes m a l) j = if a ≤ j then (l[j - a]?).getD (readByte m j) else readByte m j := by
  induction l generalizing m a with
  | nil => simp [writeBytes]
  | cons b r ih =>
    rw [writeBytes, ih, readByte_writeByte]
    by_cases h1 : j = a
    · subst h1; simp <;> omega
    · by_cases h2 : a ≤ j
      · obtain ⟨d, rfl⟩ : ∃ d, j = a + 1 + d := ⟨j - a - 1, by omega⟩
        have e : a + 1 + d - a = d + 1 := by omega
        simp [h1, e]; omega
      · rw [if_neg (by omega), if_neg h1, if_neg h2]

end Sys2Proof.Machine
end

