-- ==== Sys2Proof/Laws/Cluster.lean ====
section
/-! SUPPORT. What the shared operations of the cluster instructions do: issue, and going on at an index. -/

namespace Sys2Proof.Machine

theorem mput_mput {α : Type} (m : Map α) (k : Nat) (v w : α) : mput (mput m k v) k w = mput m k w := by
  induction m with
  | nil => simp [mput]
  | cons c r ih =>
    obtain ⟨i, x⟩ := c
    simp only [mput]
    split
    · simp [mput]
    · split
      · simp [mput]
      · rename_i h1 h2; simp [mput, h1, h2, ih]

/-- Changing the value of a key that is present sets it. -/
theorem mupd_of_mget {α : Type} {m : Map α} {k : Nat} {v : α} (f : α → α) (h : mget m k = some v) : mupd m k f = mput m k (f v) := by
  simp [mupd, h]

theorem clu_setClu_same (s : State) (k : Nat) (c : Cluster) : (s.setClu k c).clu k = some c := mget_mput_same _ _ _

theorem clu_setClu_ne (s : State) {k j : Nat} (c : Cluster) (h : j ≠ k) : (s.setClu k c).clu j = s.clu j := mget_mput_ne _ _ h

theorem lch_setClu (s : State) (k n : Nat) (c : Cluster) : (s.setClu k c).lch n = s.lch n := rfl

theorem setClu_setClu (s : State) (k : Nat) (c d : Cluster) : (s.setClu k c).setClu k d = s.setClu k d := by
  simp [State.setClu, mput_mput]

theorem updClu_eq {s : State} {k : Nat} {c : Cluster} (f : Cluster → Cluster) (h : s.clu k = some c) :
    s.updClu k f = s.setClu k (f c) := by
  simp only [State.clu] at h
  simp [State.updClu, State.setClu, mupd_of_mget f h]

/-- Going on at an index that holds a defined instruction sets the index. -/
theorem goTo_of {s : State} {k i : Nat} {c : Cluster} {l : Launch} (hc : s.clu k = some c) (hl : s.lch c.launch = some l)
    (hf : Follows l i) : goTo k i s = s.setClu k { c with pc := i } := by
  obtain ⟨x, hx, hm⟩ := Option.map_eq_some_iff.mp hf
  unfold goTo
  rw [updClu_eq _ hc]
  simp only [clu_setClu_same, Option.bind_some, lch_setClu, hl, hx, hm, if_true]

/-- Going on behind the instruction. -/
theorem cNext_of {s : State} {k : Nat} {c : Cluster} {l : Launch} (hc : s.clu k = some c) (hl : s.lch c.launch = some l)
    (hf : Follows l (c.pc + 1)) : cNext k s = s.setClu k (onward c) := by
  unfold cNext
  simp only [hc, Option.map_some, Option.getD_some]
  exact goTo_of hc hl hf

/-- Changing the registers and going on. -/
theorem cUpd_of {s : State} {k : Nat} {c : Cluster} {l : Launch} {f : Cluster → Cluster} (hc : s.clu k = some c)
    (hl : s.lch (f c).launch = some l) (hf : Follows l ((f c).pc + 1)) :
    cUpd k f s = s.setClu k (onward (f c)) := by
  unfold cUpd
  rw [updClu_eq _ hc, cNext_of (clu_setClu_same _ _ _) hl hf, setClu_setClu]

/-- An instruction at the cluster's index whose word passes its checks, with an active lane among `lanes`, has its effect. -/
theorem issue_of {s : State} {k major : Nat} {w : BitVec 56} {c : Cluster} {l : Launch} {lanes : DWord} {enc : Enc}
    {also : Nat → Bool} {body : Cluster → Launch → Nat → State → State} (h : Issuing s k major w c l)
    (he : enc.ok (wordOf major w) = true) (ha : also (wordOf major w) = true) (hg : c.guard (wordOf major w) &&& lanes ≠ 0) :
    issue lanes k major w enc also body s = .next (body c l (wordOf major w) s) := by
  obtain ⟨h1, h2, h3, h4, h5⟩ := h
  unfold issue onUnit
  simp only [wordOf] at *
  simp [-Nat.reducePow, h1, h2, h3, h4, h5, he, ha]
  intro h; exact absurd h hg

/-- With no lane of `lanes` active it only goes on. -/
theorem issue_skip {s : State} {k major : Nat} {w : BitVec 56} {c : Cluster} {l : Launch} {lanes : DWord} {enc : Enc}
    {also : Nat → Bool} {body : Cluster → Launch → Nat → State → State} (h : Issuing s k major w c l)
    (he : enc.ok (wordOf major w) = true) (ha : also (wordOf major w) = true) (hg : c.guard (wordOf major w) &&& lanes = 0) :
    issue lanes k major w enc also body s = .next (cNext k s) := by
  obtain ⟨h1, h2, h3, h4, h5⟩ := h
  unfold issue onUnit
  simp only [wordOf] at *
  simp [-Nat.reducePow, h1, h2, h3, h4, h5, he, ha, hg]

/-- A word that fails a check raises FAULT_PROGRAM, whatever the guard is. -/
theorem issue_bad {s : State} {k major : Nat} {w : BitVec 56} {c : Cluster} {l : Launch} {lanes : DWord} {enc : Enc}
    {also : Nat → Bool} {body : Cluster → Launch → Nat → State → State} (h : Issuing s k major w c l)
    (he : (enc.ok (wordOf major w) && also (wordOf major w)) = false) :
    issue lanes k major w enc also body s = .next (cProg k c major s) := by
  obtain ⟨h1, h2, h3, h4, h5⟩ := h
  unfold issue onUnit
  simp only [wordOf] at *
  simp only [h1, h2, h3, h4, h5, decide_true, if_true]
  simp only [Bool.not_true, bne_self_eq_false, Bool.or_self, Bool.false_eq_true, if_false]
  cases hx : enc.ok (major * 2 ^ 56 + w.toNat) <;> cases hy : also (major * 2 ^ 56 + w.toNat) <;> simp_all

@[simp] theorem Cluster.setS_launch (c : Cluster) (i : Nat) (v : DWord) : (c.setS i v).launch = c.launch := by
  unfold Cluster.setS; split <;> rfl
@[simp] theorem Cluster.setS_pc (c : Cluster) (i : Nat) (v : DWord) : (c.setS i v).pc = c.pc := by
  unfold Cluster.setS; split <;> rfl
@[simp] theorem Cluster.setP_launch (c : Cluster) (i : Nat) (v : DWord) : (c.setP i v).launch = c.launch := by
  unfold Cluster.setP; split <;> rfl
@[simp] theorem Cluster.setP_pc (c : Cluster) (i : Nat) (v : DWord) : (c.setP i v).pc = c.pc := by
  unfold Cluster.setP; split <;> rfl
@[simp] theorem Cluster.flag_launch (c : Cluster) (f : Nat) : (c.flag f).launch = c.launch := rfl
@[simp] theorem Cluster.flag_pc (c : Cluster) (f : Nat) : (c.flag f).pc = c.pc := rfl
@[simp] theorem Cluster.setT_launch (c : Cluster) (i : Nat) (v : DWord) : (c.setT i v).launch = c.launch := rfl
@[simp] theorem Cluster.setT_pc (c : Cluster) (i : Nat) (v : DWord) : (c.setT i v).pc = c.pc := rfl
@[simp] theorem Cluster.setH_launch (c : Cluster) (i : Nat) (v : DWord) : (c.setH i v).launch = c.launch := rfl
@[simp] theorem Cluster.setH_pc (c : Cluster) (i : Nat) (v : DWord) : (c.setH i v).pc = c.pc := rfl

/-- An s register after a write: s0 reads zero, the register written reads the value, every other is unchanged. -/
theorem Cluster.sr_setS (c : Cluster) (i j : Nat) (v : DWord) :
    (c.setS i v).sr j = if j = 0 then 0 else if j = i then v else c.sr j := by
  unfold Cluster.setS Cluster.sr
  by_cases hj : j = 0
  · simp [hj]
  · by_cases hi : i = 0
    · simp [hi, hj]
    · simp only [hi, hj, if_false, mgetD_mputD]
      split
      · split
        · rename_i h; exact h.symm
        · rfl
      · rfl

/-- A p register after a write: p0 reads all ones. -/
theorem Cluster.pr_setP (c : Cluster) (i j : Nat) (v : DWord) :
    (c.setP i v).pr j = if j = 0 then BitVec.allOnes 64 else if j = i then v else c.pr j := by
  unfold Cluster.setP Cluster.pr
  by_cases hj : j = 0
  · simp [hj]
  · by_cases hi : i = 0
    · simp [hi, hj]
    · simp only [hi, hj, if_false, mgetD_mputD]
      split
      · split
        · rename_i h; exact h.symm
        · rfl
      · rfl

@[simp] theorem withMove_launch (c : Cluster) (d m : Nat) (op : TileOp) (n : Nat) : (withMove c d m op n).launch = c.launch := by
  simp [withMove]
@[simp] theorem withMove_pc (c : Cluster) (d m : Nat) (op : TileOp) (n : Nat) : (withMove c d m op n).pc = c.pc := by simp [withMove]

/-- Issuing a move on a cluster that can take it. -/
theorem issueMove_of {s : State} {k major w left : Nat} {c : Cluster} {l : Launch} {op : TileOp} (hc : s.clu k = some c)
    (hl : s.lch c.launch = some l) (hm : CanMove c) (hf : Follows l (c.pc + 1)) :
    issueMove k major c w op left s = s.setClu k (onward (withMove c (wD w) major op left)) := by
  obtain ⟨h1, h2⟩ := hm
  rw [Option.isNone_iff_eq_none] at h2
  unfold issueMove
  rw [if_neg (by omega), h2]
  simp only
  rw [cUpd_of (l := l) hc (by simpa using hl) (by simpa using hf)]
  rfl

theorem withTile_of {k major i : Nat} {c : Cluster} {t : Tile} {body : Tile → State → State} {s : State}
    (h : tileOf (c.tr i) = some t) : withTile k c major i body s = body t s := by simp [withTile, h]

end Sys2Proof.Machine
end

