-- ==== Sys2Proof/Laws/PerInstr.lean ====
section
/-! SUPPORT. Statements made command by command. -/

namespace Sys2Proof.Laws

/-- A well-formed command that is a cluster instruction, one whose word has a major below 0xC0, is one of the 128 clusters'. -/
def Unit.Statement (i : Instr) : Prop :=
  i.wellFormed = true → ∀ u w, encodeProgram i = some (u, w) → (w.extractLsb' 56 8).toNat < 0xC0 → u < 128

/-- The major of a word that is a major and 56 bits. -/
theorem major_append (m : BitVec 8) (w : BitVec 56) : (m ++ w).extractLsb' 56 8 = m := by
  apply BitVec.eq_of_getLsbD_eq
  intro i hi
  rw [BitVec.getLsbD_extractLsb', BitVec.getLsbD_append]
  simp [hi]

/-- The other bits of it. -/
theorem rest_append (m : BitVec 8) (w : BitVec 56) : (m ++ w).extractLsb' 0 56 = w := by
  apply BitVec.eq_of_getLsbD_eq
  intro i hi
  rw [BitVec.getLsbD_extractLsb', BitVec.getLsbD_append]
  simp [hi]

theorem Unit.of_lt {u v n : Nat} {w x : BitVec 64} (h : decide (v < n) = true) (hn : n ≤ 128)
    (e : some (v, w) = some (u, x)) : u < 128 := by
  cases e; exact Nat.lt_of_lt_of_le (of_decide_eq_true h) hn

theorem Unit.of_major {u v : Nat} {m : BitVec 8} {w : BitVec 56} {x : BitVec 64} (hm : 0xC0 ≤ m.toNat)
    (e : some (v, m ++ w) = some (u, x)) (h : (x.extractLsb' 56 8).toNat < 0xC0) : u < 128 := by
  cases e; rw [major_append] at h; omega

theorem Unit.wideRegisterLowRead (target_ : RegTarget) : Unit.Statement (.wideRegisterLowRead target_) := fun _ _ _ e => nomatch e
theorem Unit.registerWrite (target_ : RegTarget) (value_ : Word) : Unit.Statement (.registerWrite target_ value_) := fun _ _ _ e => nomatch e
theorem Unit.stagedCommitApply (commit_ : Nat) : Unit.Statement (.stagedCommitApply commit_) := fun _ _ _ e => nomatch e
theorem Unit.gateAdmit (win_ : (Option Nat)) (f_ : Nat) (req_ : AdmReq) : Unit.Statement (.gateAdmit win_ f_ req_) := fun _ _ _ e => nomatch e
theorem Unit.modify (win_ : (Option Nat)) (f_ : Nat) (req_ : AdmReq) : Unit.Statement (.modify win_ f_ req_) := fun _ _ _ e => nomatch e
theorem Unit.attach (win_ : (Option Nat)) (f_ : Nat) (req_ : AdmReq) : Unit.Statement (.attach win_ f_ req_) := fun _ _ _ e => nomatch e
theorem Unit.detach (win_ : (Option Nat)) (f_ : Nat) (req_ : AdmReq) : Unit.Statement (.detach win_ f_ req_) := fun _ _ _ e => nomatch e
theorem Unit.release (win_ : (Option Nat)) (f_ : Nat) (req_ : AdmReq) : Unit.Statement (.release win_ f_ req_) := fun _ _ _ e => nomatch e
theorem Unit.query (win_ : (Option Nat)) (f_ : Nat) (req_ : AdmReq) : Unit.Statement (.query win_ f_ req_) := fun _ _ _ e => nomatch e
theorem Unit.withdraw (win_ : (Option Nat)) (f_ : Nat) (req_ : AdmReq) : Unit.Statement (.withdraw win_ f_ req_) := fun _ _ _ e => nomatch e
theorem Unit.deferMaxWaitExpire (ticket_ : Nat) : Unit.Statement (.deferMaxWaitExpire ticket_) := fun _ _ _ e => nomatch e
theorem Unit.twNtcConsWrite (win_ : (Option Nat)) (f_ : Nat) (value_ : Word) : Unit.Statement (.twNtcConsWrite win_ f_ value_) := fun _ _ _ e => nomatch e
theorem Unit.attachLockoutExpire (id_ : Nat) : Unit.Statement (.attachLockoutExpire id_) := fun _ _ _ e => nomatch e
theorem Unit.graceExpire (slot_ : Nat) : Unit.Statement (.graceExpire slot_) := fun _ _ _ e => nomatch e
theorem Unit.zeroiseComplete (job_ : Nat) : Unit.Statement (.zeroiseComplete job_) := fun _ _ _ e => nomatch e
theorem Unit.alloc (slot_ : Nat) (q_ : Nat) (rec_ : CmdRec) : Unit.Statement (.alloc slot_ q_ rec_) := fun _ _ _ e => nomatch e
theorem Unit.free (slot_ : Nat) (q_ : Nat) (rec_ : CmdRec) : Unit.Statement (.free slot_ q_ rec_) := fun _ _ _ e => nomatch e
theorem Unit.place (slot_ : Nat) (q_ : Nat) (rec_ : CmdRec) : Unit.Statement (.place slot_ q_ rec_) := fun _ _ _ e => nomatch e
theorem Unit.flush (slot_ : Nat) (q_ : Nat) (rec_ : CmdRec) : Unit.Statement (.flush slot_ q_ rec_) := fun _ _ _ e => nomatch e
theorem Unit.flushJournalCommit (flight_ : Nat) : Unit.Statement (.flushJournalCommit flight_) := fun _ _ _ e => nomatch e
theorem Unit.regHost (slot_ : Nat) (q_ : Nat) (rec_ : CmdRec) : Unit.Statement (.regHost slot_ q_ rec_) := fun _ _ _ e => nomatch e
theorem Unit.deregHost (slot_ : Nat) (q_ : Nat) (rec_ : CmdRec) : Unit.Statement (.deregHost slot_ q_ rec_) := fun _ _ _ e => nomatch e
theorem Unit.queryObj (slot_ : Nat) (q_ : Nat) (rec_ : CmdRec) : Unit.Statement (.queryObj slot_ q_ rec_) := fun _ _ _ e => nomatch e
theorem Unit.write (slot_ : Nat) (q_ : Nat) (rec_ : CmdRec) : Unit.Statement (.write slot_ q_ rec_) := fun _ _ _ e => nomatch e
theorem Unit.read (slot_ : Nat) (q_ : Nat) (rec_ : CmdRec) : Unit.Statement (.read slot_ q_ rec_) := fun _ _ _ e => nomatch e
theorem Unit.moveCommit (move_ : Nat) : Unit.Statement (.moveCommit move_) := fun _ _ _ e => nomatch e
theorem Unit.demotionScan : Unit.Statement (.demotionScan) := fun _ _ _ e => nomatch e
theorem Unit.t3MoveStallTimeout (move_ : Nat) : Unit.Statement (.t3MoveStallTimeout move_) := fun _ _ _ e => nomatch e
theorem Unit.t3BackoffExpire (slot_ : Nat) (region_ : Nat) : Unit.Statement (.t3BackoffExpire slot_ region_) := fun _ _ _ e => nomatch e
theorem Unit.peerMoveTimeout (move_ : Nat) (elapsedMs_ : Nat) : Unit.Statement (.peerMoveTimeout move_ elapsedMs_) := fun _ _ _ e => nomatch e
theorem Unit.peerLossTimeout (node_ : Nat) : Unit.Statement (.peerLossTimeout node_) := fun _ _ _ e => nomatch e
theorem Unit.peerHoldExpire (node_ : Nat) : Unit.Statement (.peerHoldExpire node_) := fun _ _ _ e => nomatch e
theorem Unit.pfxLookup (ctx_ : Nat) : Unit.Statement (.pfxLookup ctx_) := fun _ _ _ e => nomatch e
theorem Unit.blockPublish (ctx_ : Nat) (block_ : Nat) : Unit.Statement (.blockPublish ctx_ block_) := fun _ _ _ e => nomatch e
theorem Unit.pfxTtlEvict (entry_ : Nat) : Unit.Statement (.pfxTtlEvict entry_) := fun _ _ _ e => nomatch e
theorem Unit.kvMoveIssue (step_ : Nat) (ctx_ : Nat) (block_ : Nat) (group_ : Nat) : Unit.Statement (.kvMoveIssue step_ ctx_ block_ group_) := fun _ _ _ e => nomatch e
theorem Unit.kvPageDeadline (step_ : Nat) (ctx_ : Nat) (block_ : Nat) (group_ : Nat) : Unit.Statement (.kvPageDeadline step_ ctx_ block_ group_) := fun _ _ _ e => nomatch e
theorem Unit.dirAnnounce (src_ : Nat) (dom_ : Nat) (kg_ : Nat) (publish_ : Bool) (hashes_ : (List DWord)) : Unit.Statement (.dirAnnounce src_ dom_ kg_ publish_ hashes_) := fun _ _ _ e => nomatch e
theorem Unit.dirQuery (src_ : Nat) (rtag_ : Nat) (dom_ : Nat) (kg_ : Nat) (id_ : Nat) (hashes_ : (List DWord)) : Unit.Statement (.dirQuery src_ rtag_ dom_ kg_ id_ hashes_) := fun _ _ _ e => nomatch e
theorem Unit.dirAnswer (src_ : Nat) (matched_ : Nat) (dom_ : Nat) (kg_ : Nat) (id_ : Nat) (holder_ : Nat) (status_ : Nat) : Unit.Statement (.dirAnswer src_ matched_ dom_ kg_ id_ holder_ status_) := fun _ _ _ e => nomatch e
theorem Unit.remotePin (src_ : Nat) (rtag_ : Nat) (dom_ : Nat) (kg_ : Nat) (req_ : Nat) (tenant_ : Nat) (hashes_ : (List (BitVec 128))) : Unit.Statement (.remotePin src_ rtag_ dom_ kg_ req_ tenant_ hashes_) := fun _ _ _ e => nomatch e
theorem Unit.pinAnswer (src_ : Nat) (pinned_ : Nat) (dom_ : Nat) (kg_ : Nat) (req_ : Nat) (lease_ : Nat) : Unit.Statement (.pinAnswer src_ pinned_ dom_ kg_ req_ lease_) := fun _ _ _ e => nomatch e
theorem Unit.remoteUnpin (src_ : Nat) (lease_ : Nat) : Unit.Statement (.remoteUnpin src_ lease_) := fun _ _ _ e => nomatch e
theorem Unit.remoteLeaseExpire (lease_ : Nat) : Unit.Statement (.remoteLeaseExpire lease_) := fun _ _ _ e => nomatch e
theorem Unit.directoryAnnounceDue : Unit.Statement (.directoryAnnounceDue) := fun _ _ _ e => nomatch e
theorem Unit.pfxDomRotate (dom_ : Nat) : Unit.Statement (.pfxDomRotate dom_) := fun _ _ _ e => nomatch e
theorem Unit.pfxDomPurge (dom_ : Nat) : Unit.Statement (.pfxDomPurge dom_) := fun _ _ _ e => nomatch e
theorem Unit.modelLoad (slot_ : Nat) (q_ : Nat) (rec_ : CmdRec) : Unit.Statement (.modelLoad slot_ q_ rec_) := fun _ _ _ e => nomatch e
theorem Unit.modelUnload (slot_ : Nat) (q_ : Nat) (rec_ : CmdRec) : Unit.Statement (.modelUnload slot_ q_ rec_) := fun _ _ _ e => nomatch e
theorem Unit.ctxOpen (slot_ : Nat) (q_ : Nat) (rec_ : CmdRec) : Unit.Statement (.ctxOpen slot_ q_ rec_) := fun _ _ _ e => nomatch e
theorem Unit.ctxClear (slot_ : Nat) (q_ : Nat) (rec_ : CmdRec) : Unit.Statement (.ctxClear slot_ q_ rec_) := fun _ _ _ e => nomatch e
theorem Unit.ctxClose (slot_ : Nat) (q_ : Nat) (rec_ : CmdRec) : Unit.Statement (.ctxClose slot_ q_ rec_) := fun _ _ _ e => nomatch e
theorem Unit.turn (slot_ : Nat) (q_ : Nat) (rec_ : CmdRec) : Unit.Statement (.turn slot_ q_ rec_) := fun _ _ _ e => nomatch e
theorem Unit.cancel (slot_ : Nat) (q_ : Nat) (rec_ : CmdRec) : Unit.Statement (.cancel slot_ q_ rec_) := fun _ _ _ e => nomatch e
theorem Unit.stepPlan (after_ : (Option Nat)) : Unit.Statement (.stepPlan after_) := fun _ _ _ e => nomatch e
theorem Unit.preemptExpire (launch_ : Nat) : Unit.Statement (.preemptExpire launch_) := fun _ _ _ e => nomatch e
theorem Unit.stepStart (step_ : Nat) : Unit.Statement (.stepStart step_) := fun _ _ _ e => nomatch e
theorem Unit.stepEnd (step_ : Nat) : Unit.Statement (.stepEnd step_) := fun _ _ _ e => nomatch e
theorem Unit.reserveWindowBoundary : Unit.Statement (.reserveWindowBoundary) := fun _ _ _ e => nomatch e
theorem Unit.twCtxSelWrite (f_ : Nat) (win_ : (Option Nat)) (value_ : Word) : Unit.Statement (.twCtxSelWrite f_ win_ value_) := fun _ _ _ e => nomatch e
theorem Unit.launchStart (launch_ : Nat) (yieldUs_ : Nat) : Unit.Statement (.launchStart launch_ yieldUs_) := fun _ _ _ e => nomatch e
theorem Unit.launchEnd (launch_ : Nat) (elapsedNs_ : Nat) : Unit.Statement (.launchEnd launch_ elapsedNs_) := fun _ _ _ e => nomatch e
theorem Unit.waitLimitExpire (cluster_ : Nat) : Unit.Statement (.waitLimitExpire cluster_) := fun _ _ _ e => nomatch e
theorem Unit.timeLimitExpire (launch_ : Nat) : Unit.Statement (.timeLimitExpire launch_) := fun _ _ _ e => nomatch e
theorem Unit.tileMoveComplete (cluster_ : Nat) (num_ : Nat) : Unit.Statement (.tileMoveComplete cluster_ num_) := fun _ _ _ e => nomatch e
theorem Unit.kvPageDelivered (step_ : Nat) (ctx_ : Nat) (block_ : Nat) (group_ : Nat) : Unit.Statement (.kvPageDelivered step_ ctx_ block_ group_) := fun _ _ _ e => nomatch e
theorem Unit.clNop (cluster_ : Nat) (word_ : (BitVec 56)) : Unit.Statement (.clNop cluster_ word_) := fun h _ _ e _ => Unit.of_lt h (Nat.le_refl _) e
theorem Unit.clAdd (cluster_ : Nat) (word_ : (BitVec 56)) : Unit.Statement (.clAdd cluster_ word_) := fun h _ _ e _ => Unit.of_lt h (Nat.le_refl _) e
theorem Unit.clSub (cluster_ : Nat) (word_ : (BitVec 56)) : Unit.Statement (.clSub cluster_ word_) := fun h _ _ e _ => Unit.of_lt h (Nat.le_refl _) e
theorem Unit.clMul (cluster_ : Nat) (word_ : (BitVec 56)) : Unit.Statement (.clMul cluster_ word_) := fun h _ _ e _ => Unit.of_lt h (Nat.le_refl _) e
theorem Unit.clMulh (cluster_ : Nat) (word_ : (BitVec 56)) : Unit.Statement (.clMulh cluster_ word_) := fun h _ _ e _ => Unit.of_lt h (Nat.le_refl _) e
theorem Unit.clMulhu (cluster_ : Nat) (word_ : (BitVec 56)) : Unit.Statement (.clMulhu cluster_ word_) := fun h _ _ e _ => Unit.of_lt h (Nat.le_refl _) e
theorem Unit.clDiv (cluster_ : Nat) (word_ : (BitVec 56)) : Unit.Statement (.clDiv cluster_ word_) := fun h _ _ e _ => Unit.of_lt h (Nat.le_refl _) e
theorem Unit.clDivu (cluster_ : Nat) (word_ : (BitVec 56)) : Unit.Statement (.clDivu cluster_ word_) := fun h _ _ e _ => Unit.of_lt h (Nat.le_refl _) e
theorem Unit.clRem (cluster_ : Nat) (word_ : (BitVec 56)) : Unit.Statement (.clRem cluster_ word_) := fun h _ _ e _ => Unit.of_lt h (Nat.le_refl _) e
theorem Unit.clRemu (cluster_ : Nat) (word_ : (BitVec 56)) : Unit.Statement (.clRemu cluster_ word_) := fun h _ _ e _ => Unit.of_lt h (Nat.le_refl _) e
theorem Unit.clAnd (cluster_ : Nat) (word_ : (BitVec 56)) : Unit.Statement (.clAnd cluster_ word_) := fun h _ _ e _ => Unit.of_lt h (Nat.le_refl _) e
theorem Unit.clOr (cluster_ : Nat) (word_ : (BitVec 56)) : Unit.Statement (.clOr cluster_ word_) := fun h _ _ e _ => Unit.of_lt h (Nat.le_refl _) e
theorem Unit.clXor (cluster_ : Nat) (word_ : (BitVec 56)) : Unit.Statement (.clXor cluster_ word_) := fun h _ _ e _ => Unit.of_lt h (Nat.le_refl _) e
theorem Unit.clShl (cluster_ : Nat) (word_ : (BitVec 56)) : Unit.Statement (.clShl cluster_ word_) := fun h _ _ e _ => Unit.of_lt h (Nat.le_refl _) e
theorem Unit.clShr (cluster_ : Nat) (word_ : (BitVec 56)) : Unit.Statement (.clShr cluster_ word_) := fun h _ _ e _ => Unit.of_lt h (Nat.le_refl _) e
theorem Unit.clSar (cluster_ : Nat) (word_ : (BitVec 56)) : Unit.Statement (.clSar cluster_ word_) := fun h _ _ e _ => Unit.of_lt h (Nat.le_refl _) e
theorem Unit.clMin (cluster_ : Nat) (word_ : (BitVec 56)) : Unit.Statement (.clMin cluster_ word_) := fun h _ _ e _ => Unit.of_lt h (Nat.le_refl _) e
theorem Unit.clMax (cluster_ : Nat) (word_ : (BitVec 56)) : Unit.Statement (.clMax cluster_ word_) := fun h _ _ e _ => Unit.of_lt h (Nat.le_refl _) e
theorem Unit.clMinu (cluster_ : Nat) (word_ : (BitVec 56)) : Unit.Statement (.clMinu cluster_ word_) := fun h _ _ e _ => Unit.of_lt h (Nat.le_refl _) e
theorem Unit.clMaxu (cluster_ : Nat) (word_ : (BitVec 56)) : Unit.Statement (.clMaxu cluster_ word_) := fun h _ _ e _ => Unit.of_lt h (Nat.le_refl _) e
theorem Unit.clAddi (cluster_ : Nat) (word_ : (BitVec 56)) : Unit.Statement (.clAddi cluster_ word_) := fun h _ _ e _ => Unit.of_lt h (Nat.le_refl _) e
theorem Unit.clAndi (cluster_ : Nat) (word_ : (BitVec 56)) : Unit.Statement (.clAndi cluster_ word_) := fun h _ _ e _ => Unit.of_lt h (Nat.le_refl _) e
theorem Unit.clOri (cluster_ : Nat) (word_ : (BitVec 56)) : Unit.Statement (.clOri cluster_ word_) := fun h _ _ e _ => Unit.of_lt h (Nat.le_refl _) e
theorem Unit.clXori (cluster_ : Nat) (word_ : (BitVec 56)) : Unit.Statement (.clXori cluster_ word_) := fun h _ _ e _ => Unit.of_lt h (Nat.le_refl _) e
theorem Unit.clShli (cluster_ : Nat) (word_ : (BitVec 56)) : Unit.Statement (.clShli cluster_ word_) := fun h _ _ e _ => Unit.of_lt h (Nat.le_refl _) e
theorem Unit.clShri (cluster_ : Nat) (word_ : (BitVec 56)) : Unit.Statement (.clShri cluster_ word_) := fun h _ _ e _ => Unit.of_lt h (Nat.le_refl _) e
theorem Unit.clSari (cluster_ : Nat) (word_ : (BitVec 56)) : Unit.Statement (.clSari cluster_ word_) := fun h _ _ e _ => Unit.of_lt h (Nat.le_refl _) e
theorem Unit.clLi (cluster_ : Nat) (word_ : (BitVec 56)) : Unit.Statement (.clLi cluster_ word_) := fun h _ _ e _ => Unit.of_lt h (Nat.le_refl _) e
theorem Unit.clLih (cluster_ : Nat) (word_ : (BitVec 56)) : Unit.Statement (.clLih cluster_ word_) := fun h _ _ e _ => Unit.of_lt h (Nat.le_refl _) e
theorem Unit.clCmp (cluster_ : Nat) (word_ : (BitVec 56)) : Unit.Statement (.clCmp cluster_ word_) := fun h _ _ e _ => Unit.of_lt h (Nat.le_refl _) e
theorem Unit.clCmpi (cluster_ : Nat) (word_ : (BitVec 56)) : Unit.Statement (.clCmpi cluster_ word_) := fun h _ _ e _ => Unit.of_lt h (Nat.le_refl _) e
theorem Unit.clPlog (cluster_ : Nat) (word_ : (BitVec 56)) : Unit.Statement (.clPlog cluster_ word_) := fun h _ _ e _ => Unit.of_lt h (Nat.le_refl _) e
theorem Unit.clMovsys (cluster_ : Nat) (word_ : (BitVec 56)) : Unit.Statement (.clMovsys cluster_ word_) := fun h _ _ e _ => Unit.of_lt h (Nat.le_refl _) e
theorem Unit.clClrfl (cluster_ : Nat) (word_ : (BitVec 56)) : Unit.Statement (.clClrfl cluster_ word_) := fun h _ _ e _ => Unit.of_lt h (Nat.le_refl _) e
theorem Unit.clTdset (cluster_ : Nat) (word_ : (BitVec 56)) : Unit.Statement (.clTdset cluster_ word_) := fun h _ _ e _ => Unit.of_lt h (Nat.le_refl _) e
theorem Unit.clTdget (cluster_ : Nat) (word_ : (BitVec 56)) : Unit.Statement (.clTdget cluster_ word_) := fun h _ _ e _ => Unit.of_lt h (Nat.le_refl _) e
theorem Unit.clTdadd (cluster_ : Nat) (word_ : (BitVec 56)) : Unit.Statement (.clTdadd cluster_ word_) := fun h _ _ e _ => Unit.of_lt h (Nat.le_refl _) e
theorem Unit.clHset (cluster_ : Nat) (word_ : (BitVec 56)) : Unit.Statement (.clHset cluster_ word_) := fun h _ _ e _ => Unit.of_lt h (Nat.le_refl _) e
theorem Unit.clHget (cluster_ : Nat) (word_ : (BitVec 56)) : Unit.Statement (.clHget cluster_ word_) := fun h _ _ e _ => Unit.of_lt h (Nat.le_refl _) e
theorem Unit.clHmov (cluster_ : Nat) (word_ : (BitVec 56)) : Unit.Statement (.clHmov cluster_ word_) := fun h _ _ e _ => Unit.of_lt h (Nat.le_refl _) e
theorem Unit.clBr (cluster_ : Nat) (word_ : (BitVec 56)) : Unit.Statement (.clBr cluster_ word_) := fun h _ _ e _ => Unit.of_lt h (Nat.le_refl _) e
theorem Unit.clBz (cluster_ : Nat) (word_ : (BitVec 56)) : Unit.Statement (.clBz cluster_ word_) := fun h _ _ e _ => Unit.of_lt h (Nat.le_refl _) e
theorem Unit.clBnz (cluster_ : Nat) (word_ : (BitVec 56)) : Unit.Statement (.clBnz cluster_ word_) := fun h _ _ e _ => Unit.of_lt h (Nat.le_refl _) e
theorem Unit.clLoop (cluster_ : Nat) (word_ : (BitVec 56)) : Unit.Statement (.clLoop cluster_ word_) := fun h _ _ e _ => Unit.of_lt h (Nat.le_refl _) e
theorem Unit.clCall (cluster_ : Nat) (word_ : (BitVec 56)) : Unit.Statement (.clCall cluster_ word_) := fun h _ _ e _ => Unit.of_lt h (Nat.le_refl _) e
theorem Unit.clJr (cluster_ : Nat) (word_ : (BitVec 56)) : Unit.Statement (.clJr cluster_ word_) := fun h _ _ e _ => Unit.of_lt h (Nat.le_refl _) e
theorem Unit.clEnd (cluster_ : Nat) (word_ : (BitVec 56)) : Unit.Statement (.clEnd cluster_ word_) := fun h _ _ e _ => Unit.of_lt h (Nat.le_refl _) e
theorem Unit.clTld (cluster_ : Nat) (word_ : (BitVec 56)) : Unit.Statement (.clTld cluster_ word_) := fun h _ _ e _ => Unit.of_lt h (Nat.le_refl _) e
theorem Unit.clTst (cluster_ : Nat) (word_ : (BitVec 56)) : Unit.Statement (.clTst cluster_ word_) := fun h _ _ e _ => Unit.of_lt h (Nat.le_refl _) e
theorem Unit.clTcp (cluster_ : Nat) (word_ : (BitVec 56)) : Unit.Statement (.clTcp cluster_ word_) := fun h _ _ e _ => Unit.of_lt h (Nat.le_refl _) e
theorem Unit.clTput (cluster_ : Nat) (word_ : (BitVec 56)) : Unit.Statement (.clTput cluster_ word_) := fun h _ _ e _ => Unit.of_lt h (Nat.le_refl _) e
theorem Unit.clTget (cluster_ : Nat) (word_ : (BitVec 56)) : Unit.Statement (.clTget cluster_ word_) := fun h _ _ e _ => Unit.of_lt h (Nat.le_refl _) e
theorem Unit.clTzero (cluster_ : Nat) (word_ : (BitVec 56)) : Unit.Statement (.clTzero cluster_ word_) := fun h _ _ e _ => Unit.of_lt h (Nat.le_refl _) e
theorem Unit.clTwait (cluster_ : Nat) (word_ : (BitVec 56)) : Unit.Statement (.clTwait cluster_ word_) := fun h _ _ e _ => Unit.of_lt h (Nat.le_refl _) e
theorem Unit.clSadv (cluster_ : Nat) (word_ : (BitVec 56)) : Unit.Statement (.clSadv cluster_ word_) := fun h _ _ e _ => Unit.of_lt h (Nat.le_refl _) e
theorem Unit.clMma (cluster_ : Nat) (word_ : (BitVec 56)) : Unit.Statement (.clMma cluster_ word_) := fun h _ _ e _ => Unit.of_lt h (Nat.le_refl _) e
theorem Unit.clMmaz (cluster_ : Nat) (word_ : (BitVec 56)) : Unit.Statement (.clMmaz cluster_ word_) := fun h _ _ e _ => Unit.of_lt h (Nat.le_refl _) e
theorem Unit.clAzero (cluster_ : Nat) (word_ : (BitVec 56)) : Unit.Statement (.clAzero cluster_ word_) := fun h _ _ e _ => Unit.of_lt h (Nat.le_refl _) e
theorem Unit.clAld (cluster_ : Nat) (word_ : (BitVec 56)) : Unit.Statement (.clAld cluster_ word_) := fun h _ _ e _ => Unit.of_lt h (Nat.le_refl _) e
theorem Unit.clAst (cluster_ : Nat) (word_ : (BitVec 56)) : Unit.Statement (.clAst cluster_ word_) := fun h _ _ e _ => Unit.of_lt h (Nat.le_refl _) e
theorem Unit.clVadd (cluster_ : Nat) (word_ : (BitVec 56)) : Unit.Statement (.clVadd cluster_ word_) := fun h _ _ e _ => Unit.of_lt h (Nat.le_refl _) e
theorem Unit.clVsub (cluster_ : Nat) (word_ : (BitVec 56)) : Unit.Statement (.clVsub cluster_ word_) := fun h _ _ e _ => Unit.of_lt h (Nat.le_refl _) e
theorem Unit.clVmul (cluster_ : Nat) (word_ : (BitVec 56)) : Unit.Statement (.clVmul cluster_ word_) := fun h _ _ e _ => Unit.of_lt h (Nat.le_refl _) e
theorem Unit.clVfma (cluster_ : Nat) (word_ : (BitVec 56)) : Unit.Statement (.clVfma cluster_ word_) := fun h _ _ e _ => Unit.of_lt h (Nat.le_refl _) e
theorem Unit.clVdiv (cluster_ : Nat) (word_ : (BitVec 56)) : Unit.Statement (.clVdiv cluster_ word_) := fun h _ _ e _ => Unit.of_lt h (Nat.le_refl _) e
theorem Unit.clVsqrt (cluster_ : Nat) (word_ : (BitVec 56)) : Unit.Statement (.clVsqrt cluster_ word_) := fun h _ _ e _ => Unit.of_lt h (Nat.le_refl _) e
theorem Unit.clVmin (cluster_ : Nat) (word_ : (BitVec 56)) : Unit.Statement (.clVmin cluster_ word_) := fun h _ _ e _ => Unit.of_lt h (Nat.le_refl _) e
theorem Unit.clVmax (cluster_ : Nat) (word_ : (BitVec 56)) : Unit.Statement (.clVmax cluster_ word_) := fun h _ _ e _ => Unit.of_lt h (Nat.le_refl _) e
theorem Unit.clVsgn (cluster_ : Nat) (word_ : (BitVec 56)) : Unit.Statement (.clVsgn cluster_ word_) := fun h _ _ e _ => Unit.of_lt h (Nat.le_refl _) e
theorem Unit.clVsfu (cluster_ : Nat) (word_ : (BitVec 56)) : Unit.Statement (.clVsfu cluster_ word_) := fun h _ _ e _ => Unit.of_lt h (Nat.le_refl _) e
theorem Unit.clVlog (cluster_ : Nat) (word_ : (BitVec 56)) : Unit.Statement (.clVlog cluster_ word_) := fun h _ _ e _ => Unit.of_lt h (Nat.le_refl _) e
theorem Unit.clVcmp (cluster_ : Nat) (word_ : (BitVec 56)) : Unit.Statement (.clVcmp cluster_ word_) := fun h _ _ e _ => Unit.of_lt h (Nat.le_refl _) e
theorem Unit.clVsel (cluster_ : Nat) (word_ : (BitVec 56)) : Unit.Statement (.clVsel cluster_ word_) := fun h _ _ e _ => Unit.of_lt h (Nat.le_refl _) e
theorem Unit.clVmov (cluster_ : Nat) (word_ : (BitVec 56)) : Unit.Statement (.clVmov cluster_ word_) := fun h _ _ e _ => Unit.of_lt h (Nat.le_refl _) e
theorem Unit.clVcvt (cluster_ : Nat) (word_ : (BitVec 56)) : Unit.Statement (.clVcvt cluster_ word_) := fun h _ _ e _ => Unit.of_lt h (Nat.le_refl _) e
theorem Unit.clVld (cluster_ : Nat) (word_ : (BitVec 56)) : Unit.Statement (.clVld cluster_ word_) := fun h _ _ e _ => Unit.of_lt h (Nat.le_refl _) e
theorem Unit.clVst (cluster_ : Nat) (word_ : (BitVec 56)) : Unit.Statement (.clVst cluster_ word_) := fun h _ _ e _ => Unit.of_lt h (Nat.le_refl _) e
theorem Unit.clVlda (cluster_ : Nat) (word_ : (BitVec 56)) : Unit.Statement (.clVlda cluster_ word_) := fun h _ _ e _ => Unit.of_lt h (Nat.le_refl _) e
theorem Unit.clVsta (cluster_ : Nat) (word_ : (BitVec 56)) : Unit.Statement (.clVsta cluster_ word_) := fun h _ _ e _ => Unit.of_lt h (Nat.le_refl _) e
theorem Unit.clVred (cluster_ : Nat) (word_ : (BitVec 56)) : Unit.Statement (.clVred cluster_ word_) := fun h _ _ e _ => Unit.of_lt h (Nat.le_refl _) e
theorem Unit.clAred (cluster_ : Nat) (word_ : (BitVec 56)) : Unit.Statement (.clAred cluster_ word_) := fun h _ _ e _ => Unit.of_lt h (Nat.le_refl _) e
theorem Unit.clFence (cluster_ : Nat) (word_ : (BitVec 56)) : Unit.Statement (.clFence cluster_ word_) := fun h _ _ e _ => Unit.of_lt h (Nat.le_refl _) e
theorem Unit.clSignal (cluster_ : Nat) (word_ : (BitVec 56)) : Unit.Statement (.clSignal cluster_ word_) := fun h _ _ e _ => Unit.of_lt h (Nat.le_refl _) e
theorem Unit.clSwait (cluster_ : Nat) (word_ : (BitVec 56)) : Unit.Statement (.clSwait cluster_ word_) := fun h _ _ e _ => Unit.of_lt h (Nat.le_refl _) e
theorem Unit.clSread (cluster_ : Nat) (word_ : (BitVec 56)) : Unit.Statement (.clSread cluster_ word_) := fun h _ _ e _ => Unit.of_lt h (Nat.le_refl _) e
theorem Unit.clBar (cluster_ : Nat) (word_ : (BitVec 56)) : Unit.Statement (.clBar cluster_ word_) := fun h _ _ e _ => Unit.of_lt h (Nat.le_refl _) e
theorem Unit.clKvwait (cluster_ : Nat) (word_ : (BitVec 56)) : Unit.Statement (.clKvwait cluster_ word_) := fun h _ _ e _ => Unit.of_lt h (Nat.le_refl _) e
theorem Unit.clKvrel (cluster_ : Nat) (word_ : (BitVec 56)) : Unit.Statement (.clKvrel cluster_ word_) := fun h _ _ e _ => Unit.of_lt h (Nat.le_refl _) e
theorem Unit.clKvinfo (cluster_ : Nat) (word_ : (BitVec 56)) : Unit.Statement (.clKvinfo cluster_ word_) := fun h _ _ e _ => Unit.of_lt h (Nat.le_refl _) e
theorem Unit.clEvinj (cluster_ : Nat) (word_ : (BitVec 56)) : Unit.Statement (.clEvinj cluster_ word_) := fun h _ _ e _ => Unit.of_lt h (Nat.le_refl _) e
theorem Unit.clEvinjv (cluster_ : Nat) (word_ : (BitVec 56)) : Unit.Statement (.clEvinjv cluster_ word_) := fun h _ _ e _ => Unit.of_lt h (Nat.le_refl _) e
theorem Unit.clCallr (cluster_ : Nat) (word_ : (BitVec 56)) : Unit.Statement (.clCallr cluster_ word_) := fun h _ _ e _ => Unit.of_lt h (Nat.le_refl _) e
theorem Unit.clCbcast (cluster_ : Nat) (word_ : (BitVec 56)) : Unit.Statement (.clCbcast cluster_ word_) := fun h _ _ e _ => Unit.of_lt h (Nat.le_refl _) e
theorem Unit.clCagath (cluster_ : Nat) (word_ : (BitVec 56)) : Unit.Statement (.clCagath cluster_ word_) := fun h _ _ e _ => Unit.of_lt h (Nat.le_refl _) e
theorem Unit.clCrdsc (cluster_ : Nat) (word_ : (BitVec 56)) : Unit.Statement (.clCrdsc cluster_ word_) := fun h _ _ e _ => Unit.of_lt h (Nat.le_refl _) e
theorem Unit.clTokout (cluster_ : Nat) (word_ : (BitVec 56)) : Unit.Statement (.clTokout cluster_ word_) := fun h _ _ e _ => Unit.of_lt h (Nat.le_refl _) e
theorem Unit.clEot (cluster_ : Nat) (word_ : (BitVec 56)) : Unit.Statement (.clEot cluster_ word_) := fun h _ _ e _ => Unit.of_lt h (Nat.le_refl _) e
theorem Unit.twDbProdWrite (f_ : Nat) (win_ : (Option Nat)) (q_ : Nat) (value_ : Word) : Unit.Statement (.twDbProdWrite f_ win_ q_ value_) := fun _ _ _ e => nomatch e
theorem Unit.twCqHeadWrite (f_ : Nat) (win_ : (Option Nat)) (q_ : Nat) (value_ : Word) : Unit.Statement (.twCqHeadWrite f_ win_ q_ value_) := fun _ _ _ e => nomatch e
theorem Unit.twQsigWrite (f_ : Nat) (win_ : (Option Nat)) (q_ : Nat) (value_ : Word) : Unit.Statement (.twQsigWrite f_ win_ q_ value_) := fun _ _ _ e => nomatch e
theorem Unit.twQCommit (f_ : Nat) (win_ : (Option Nat)) (q_ : Nat) (value_ : Word) : Unit.Statement (.twQCommit f_ win_ q_ value_) := fun _ _ _ e => nomatch e
theorem Unit.vectorModerationExpire (slot_ : Nat) (q_ : Nat) : Unit.Statement (.vectorModerationExpire slot_ q_) := fun _ _ _ e => nomatch e
theorem Unit.heldSlotFreed (slot_ : Nat) (q_ : Nat) : Unit.Statement (.heldSlotFreed slot_ q_) := fun _ _ _ e => nomatch e
theorem Unit.qprogRun (slot_ : Nat) (q_ : Nat) (rec_ : CmdRec) : Unit.Statement (.qprogRun slot_ q_ rec_) := fun _ _ _ e => nomatch e
theorem Unit.qprogStop (slot_ : Nat) (q_ : Nat) (rec_ : CmdRec) : Unit.Statement (.qprogStop slot_ q_ rec_) := fun _ _ _ e => nomatch e
theorem Unit.qprogFenceTimeout (key_ : Nat) : Unit.Statement (.qprogFenceTimeout key_) := fun _ _ _ e => nomatch e
theorem Unit.qpQop (key_ : Nat) (word_ : (BitVec 56)) : Unit.Statement (.qpQop key_ word_) := fun _ _ _ e h => Unit.of_major (by decide) e h
theorem Unit.qpAddi (key_ : Nat) (word_ : (BitVec 56)) : Unit.Statement (.qpAddi key_ word_) := fun _ _ _ e h => Unit.of_major (by decide) e h
theorem Unit.qpLi (key_ : Nat) (word_ : (BitVec 56)) : Unit.Statement (.qpLi key_ word_) := fun _ _ _ e h => Unit.of_major (by decide) e h
theorem Unit.qpLih (key_ : Nat) (word_ : (BitVec 56)) : Unit.Statement (.qpLih key_ word_) := fun _ _ _ e h => Unit.of_major (by decide) e h
theorem Unit.qpCmp (key_ : Nat) (word_ : (BitVec 56)) : Unit.Statement (.qpCmp key_ word_) := fun _ _ _ e h => Unit.of_major (by decide) e h
theorem Unit.qpCmpi (key_ : Nat) (word_ : (BitVec 56)) : Unit.Statement (.qpCmpi key_ word_) := fun _ _ _ e h => Unit.of_major (by decide) e h
theorem Unit.qpHset (key_ : Nat) (word_ : (BitVec 56)) : Unit.Statement (.qpHset key_ word_) := fun _ _ _ e h => Unit.of_major (by decide) e h
theorem Unit.qpHget (key_ : Nat) (word_ : (BitVec 56)) : Unit.Statement (.qpHget key_ word_) := fun _ _ _ e h => Unit.of_major (by decide) e h
theorem Unit.qpBr (key_ : Nat) (word_ : (BitVec 56)) : Unit.Statement (.qpBr key_ word_) := fun _ _ _ e h => Unit.of_major (by decide) e h
theorem Unit.qpBz (key_ : Nat) (word_ : (BitVec 56)) : Unit.Statement (.qpBz key_ word_) := fun _ _ _ e h => Unit.of_major (by decide) e h
theorem Unit.qpBnz (key_ : Nat) (word_ : (BitVec 56)) : Unit.Statement (.qpBnz key_ word_) := fun _ _ _ e h => Unit.of_major (by decide) e h
theorem Unit.qpLoop (key_ : Nat) (word_ : (BitVec 56)) : Unit.Statement (.qpLoop key_ word_) := fun _ _ _ e h => Unit.of_major (by decide) e h
theorem Unit.qpCall (key_ : Nat) (word_ : (BitVec 56)) : Unit.Statement (.qpCall key_ word_) := fun _ _ _ e h => Unit.of_major (by decide) e h
theorem Unit.qpJr (key_ : Nat) (word_ : (BitVec 56)) : Unit.Statement (.qpJr key_ word_) := fun _ _ _ e h => Unit.of_major (by decide) e h
theorem Unit.qpEnd (key_ : Nat) (word_ : (BitVec 56)) : Unit.Statement (.qpEnd key_ word_) := fun _ _ _ e h => Unit.of_major (by decide) e h
theorem Unit.qpLd (key_ : Nat) (word_ : (BitVec 56)) : Unit.Statement (.qpLd key_ word_) := fun _ _ _ e h => Unit.of_major (by decide) e h
theorem Unit.qpSt (key_ : Nat) (word_ : (BitVec 56)) : Unit.Statement (.qpSt key_ word_) := fun _ _ _ e h => Unit.of_major (by decide) e h
theorem Unit.qpCmd (key_ : Nat) (word_ : (BitVec 56)) : Unit.Statement (.qpCmd key_ word_) := fun _ _ _ e h => Unit.of_major (by decide) e h
theorem Unit.qpCwait (key_ : Nat) (word_ : (BitVec 56)) : Unit.Statement (.qpCwait key_ word_) := fun _ _ _ e h => Unit.of_major (by decide) e h
theorem Unit.qpCres (key_ : Nat) (word_ : (BitVec 56)) : Unit.Statement (.qpCres key_ word_) := fun _ _ _ e h => Unit.of_major (by decide) e h
theorem Unit.qpLaunch (key_ : Nat) (word_ : (BitVec 56)) : Unit.Statement (.qpLaunch key_ word_) := fun _ _ _ e h => Unit.of_major (by decide) e h
theorem Unit.qpLaunchs (key_ : Nat) (word_ : (BitVec 56)) : Unit.Statement (.qpLaunchs key_ word_) := fun _ _ _ e h => Unit.of_major (by decide) e h
theorem Unit.qpLwait (key_ : Nat) (word_ : (BitVec 56)) : Unit.Statement (.qpLwait key_ word_) := fun _ _ _ e h => Unit.of_major (by decide) e h
theorem Unit.qpLrep (key_ : Nat) (word_ : (BitVec 56)) : Unit.Statement (.qpLrep key_ word_) := fun _ _ _ e h => Unit.of_major (by decide) e h
theorem Unit.qpSignal (key_ : Nat) (word_ : (BitVec 56)) : Unit.Statement (.qpSignal key_ word_) := fun _ _ _ e h => Unit.of_major (by decide) e h
theorem Unit.qpSwait (key_ : Nat) (word_ : (BitVec 56)) : Unit.Statement (.qpSwait key_ word_) := fun _ _ _ e h => Unit.of_major (by decide) e h
theorem Unit.qpFence (key_ : Nat) (word_ : (BitVec 56)) : Unit.Statement (.qpFence key_ word_) := fun _ _ _ e h => Unit.of_major (by decide) e h
theorem Unit.qpPark (key_ : Nat) (word_ : (BitVec 56)) : Unit.Statement (.qpPark key_ word_) := fun _ _ _ e h => Unit.of_major (by decide) e h
theorem Unit.parkWake (key_ : Nat) : Unit.Statement (.parkWake key_) := fun _ _ _ e => nomatch e
theorem Unit.qpTime (key_ : Nat) (word_ : (BitVec 56)) : Unit.Statement (.qpTime key_ word_) := fun _ _ _ e h => Unit.of_major (by decide) e h
theorem Unit.qpKvres (key_ : Nat) (word_ : (BitVec 56)) : Unit.Statement (.qpKvres key_ word_) := fun _ _ _ e h => Unit.of_major (by decide) e h
theorem Unit.qpPost (key_ : Nat) (word_ : (BitVec 56)) : Unit.Statement (.qpPost key_ word_) := fun _ _ _ e h => Unit.of_major (by decide) e h
theorem Unit.evCoreLoad (slot_ : Nat) (q_ : Nat) (rec_ : CmdRec) : Unit.Statement (.evCoreLoad slot_ q_ rec_) := fun _ _ _ e => nomatch e
theorem Unit.evCoreClear (slot_ : Nat) (q_ : Nat) (rec_ : CmdRec) : Unit.Statement (.evCoreClear slot_ q_ rec_) := fun _ _ _ e => nomatch e
theorem Unit.evRoute (slot_ : Nat) (q_ : Nat) (rec_ : CmdRec) : Unit.Statement (.evRoute slot_ q_ rec_) := fun _ _ _ e => nomatch e
theorem Unit.evCommit (slot_ : Nat) (q_ : Nat) (rec_ : CmdRec) : Unit.Statement (.evCommit slot_ q_ rec_) := fun _ _ _ e => nomatch e
theorem Unit.evfCommit (value_ : Word) : Unit.Statement (.evfCommit value_) := fun _ _ _ e => nomatch e
theorem Unit.evInject (slot_ : Nat) (q_ : Nat) (rec_ : CmdRec) : Unit.Statement (.evInject slot_ q_ rec_) := fun _ _ _ e => nomatch e
theorem Unit.evRing (slot_ : Nat) (q_ : Nat) (rec_ : CmdRec) : Unit.Statement (.evRing slot_ q_ rec_) := fun _ _ _ e => nomatch e
theorem Unit.evTelem (slot_ : Nat) (q_ : Nat) (rec_ : CmdRec) : Unit.Statement (.evTelem slot_ q_ rec_) := fun _ _ _ e => nomatch e
theorem Unit.evCoreRead (slot_ : Nat) (q_ : Nat) (rec_ : CmdRec) : Unit.Statement (.evCoreRead slot_ q_ rec_) := fun _ _ _ e => nomatch e
theorem Unit.eventRouteHop (point_ : EvPoint) : Unit.Statement (.eventRouteHop point_) := fun _ _ _ e => nomatch e
theorem Unit.neuronInputEvent (core_ : Nat) : Unit.Statement (.neuronInputEvent core_) := fun _ _ _ e => nomatch e
theorem Unit.evRingVectorTick (slot_ : Nat) : Unit.Statement (.evRingVectorTick slot_) := fun _ _ _ e => nomatch e
theorem Unit.twEvHeadWrite (f_ : Nat) (win_ : (Option Nat)) (value_ : Word) : Unit.Statement (.twEvHeadWrite f_ win_ value_) := fun _ _ _ e => nomatch e
theorem Unit.evBatchTimeout (node_ : Nat) (slot_ : Nat) : Unit.Statement (.evBatchTimeout node_ slot_) := fun _ _ _ e => nomatch e
theorem Unit.evBatch (tenant_ : Nat) (words_ : (List Word)) : Unit.Statement (.evBatch tenant_ words_) := fun _ _ _ e => nomatch e
theorem Unit.eventBankFlip : Unit.Statement (.eventBankFlip) := fun _ _ _ e => nomatch e
theorem Unit.eventBankDrained : Unit.Statement (.eventBankDrained) := fun _ _ _ e => nomatch e
theorem Unit.eventBankResyncDone : Unit.Statement (.eventBankResyncDone) := fun _ _ _ e => nomatch e
theorem Unit.spillWaitExpire (point_ : EvPoint) : Unit.Statement (.spillWaitExpire point_) := fun _ _ _ e => nomatch e
theorem Unit.spillReplay (point_ : EvPoint) (slot_ : Nat) : Unit.Statement (.spillReplay point_ slot_) := fun _ _ _ e => nomatch e
theorem Unit.neuronSleep (core_ : Nat) : Unit.Statement (.neuronSleep core_) := fun _ _ _ e => nomatch e
theorem Unit.telemetryTick (slot_ : Nat) (source_ : Nat) (measured_ : Int) : Unit.Statement (.telemetryTick slot_ source_ measured_) := fun _ _ _ e => nomatch e
theorem Unit.espOwnerWrite (port_ : Nat) (value_ : (BitVec 16)) : Unit.Statement (.espOwnerWrite port_ value_) := fun _ _ _ e => nomatch e
theorem Unit.espSyncWord (port_ : Nat) (aligned_ : Bool) : Unit.Statement (.espSyncWord port_ aligned_) := fun _ _ _ e => nomatch e
theorem Unit.espIdleWord (port_ : Nat) : Unit.Statement (.espIdleWord port_) := fun _ _ _ e => nomatch e
theorem Unit.espExtWord (port_ : Nat) : Unit.Statement (.espExtWord port_) := fun _ _ _ e => nomatch e
theorem Unit.espClockLoss (port_ : Nat) : Unit.Statement (.espClockLoss port_) := fun _ _ _ e => nomatch e
theorem Unit.espPixelWord (port_ : Nat) (value_ : (BitVec 30)) : Unit.Statement (.espPixelWord port_ value_) := fun _ _ _ e => nomatch e
theorem Unit.espTimeHighWord (port_ : Nat) (value_ : (BitVec 30)) : Unit.Statement (.espTimeHighWord port_ value_) := fun _ _ _ e => nomatch e
theorem Unit.espStatusWord (port_ : Nat) (value_ : (BitVec 30)) : Unit.Statement (.espStatusWord port_ value_) := fun _ _ _ e => nomatch e
theorem Unit.espOverrunMarker (port_ : Nat) : Unit.Statement (.espOverrunMarker port_) := fun _ _ _ e => nomatch e
theorem Unit.espMap (slot_ : Nat) (q_ : Nat) (rec_ : CmdRec) : Unit.Statement (.espMap slot_ q_ rec_) := fun _ _ _ e => nomatch e
theorem Unit.espI3c (slot_ : Nat) (q_ : Nat) (rec_ : CmdRec) : Unit.Statement (.espI3c slot_ q_ rec_) := fun _ _ _ e => nomatch e
theorem Unit.i3cNackRetry (port_ : Nat) : Unit.Statement (.i3cNackRetry port_) := fun _ _ _ e => nomatch e
theorem Unit.i3cTransferDone (port_ : Nat) (data_ : Word) : Unit.Statement (.i3cTransferDone port_ data_) := fun _ _ _ e => nomatch e
theorem Unit.espSettleEnd (port_ : Nat) : Unit.Statement (.espSettleEnd port_) := fun _ _ _ e => nomatch e
theorem Unit.espIbi (port_ : Nat) (payload_ : Word) : Unit.Statement (.espIbi port_ payload_) := fun _ _ _ e => nomatch e
theorem Unit.espHotJoin (port_ : Nat) : Unit.Statement (.espHotJoin port_) := fun _ _ _ e => nomatch e
theorem Unit.winCfg (slot_ : Nat) (q_ : Nat) (rec_ : CmdRec) : Unit.Statement (.winCfg slot_ q_ rec_) := fun _ _ _ e => nomatch e
theorem Unit.winRing (slot_ : Nat) (q_ : Nat) (rec_ : CmdRec) : Unit.Statement (.winRing slot_ q_ rec_) := fun _ _ _ e => nomatch e
theorem Unit.windowBoundary (group_ : Nat) : Unit.Statement (.windowBoundary group_) := fun _ _ _ e => nomatch e
theorem Unit.windowFinalise (group_ : Nat) : Unit.Statement (.windowFinalise group_) := fun _ _ _ e => nomatch e
theorem Unit.espOvercurrentTrip (port_ : Nat) : Unit.Statement (.espOvercurrentTrip port_) := fun _ _ _ e => nomatch e
theorem Unit.camPresenceChange (port_ : Nat) (present_ : Bool) : Unit.Statement (.camPresenceChange port_ present_) := fun _ _ _ e => nomatch e
theorem Unit.codewordUncorrectable (port_ : Nat) : Unit.Statement (.codewordUncorrectable port_) := fun _ _ _ e => nomatch e
theorem Unit.dataFlit (port_ : Nat) (hdr_ : (BitVec 128)) (payload_ : (BitVec 864)) (crc_ : Word) : Unit.Statement (.dataFlit port_ hdr_ payload_ crc_) := fun _ _ _ e => nomatch e
theorem Unit.idleFlit (port_ : Nat) (acked_ : Nat) : Unit.Statement (.idleFlit port_ acked_) := fun _ _ _ e => nomatch e
theorem Unit.retryReq (port_ : Nat) (acked_ : Nat) (expected_ : Nat) : Unit.Statement (.retryReq port_ acked_ expected_) := fun _ _ _ e => nomatch e
theorem Unit.retryAckTimeout (port_ : Nat) : Unit.Statement (.retryAckTimeout port_) := fun _ _ _ e => nomatch e
theorem Unit.credit (port_ : Nat) (acked_ : Nat) (freed_ : (List Nat)) : Unit.Statement (.credit port_ acked_ freed_) := fun _ _ _ e => nomatch e
theorem Unit.creditPeriodicSend (port_ : Nat) : Unit.Statement (.creditPeriodicSend port_) := fun _ _ _ e => nomatch e
theorem Unit.hello (port_ : Nat) (version_ : Nat) (node_ : Nat) (peerPort_ : Nat) (lanes_ : Nat) (epoch_ : Nat) (cold_ : Bool) (startSeq_ : Nat) (credits_ : (List Nat)) : Unit.Statement (.hello port_ version_ node_ peerPort_ lanes_ epoch_ cold_ startSeq_ credits_) := fun _ _ _ e => nomatch e
theorem Unit.laneMap (port_ : Nat) (mask_ : (BitVec 8)) : Unit.Statement (.laneMap port_ mask_) := fun _ _ _ e => nomatch e
theorem Unit.downNotice (port_ : Nat) (reason_ : Nat) : Unit.Statement (.downNotice port_ reason_) := fun _ _ _ e => nomatch e
theorem Unit.escapeWaitExpire (port_ : Nat) : Unit.Statement (.escapeWaitExpire port_) := fun _ _ _ e => nomatch e
theorem Unit.flitAgeExpire (port_ : Nat) : Unit.Statement (.flitAgeExpire port_) := fun _ _ _ e => nomatch e
theorem Unit.stale (src_ : Nat) (rtag_ : Nat) (epoch_ : Nat) : Unit.Statement (.stale src_ rtag_ epoch_) := fun _ _ _ e => nomatch e
theorem Unit.lnkPortEn (port_ : Nat) (en_ : Bool) : Unit.Statement (.lnkPortEn port_ en_) := fun _ _ _ e => nomatch e
theorem Unit.lnkPortRetrain (port_ : Nat) : Unit.Statement (.lnkPortRetrain port_) := fun _ _ _ e => nomatch e
theorem Unit.lnkPortFullEq (port_ : Nat) : Unit.Statement (.lnkPortFullEq port_) := fun _ _ _ e => nomatch e
theorem Unit.portDetectRetry (port_ : Nat) : Unit.Statement (.portDetectRetry port_) := fun _ _ _ e => nomatch e
theorem Unit.portSignalDetect (port_ : Nat) (lanes_ : (BitVec 8)) : Unit.Statement (.portSignalDetect port_ lanes_) := fun _ _ _ e => nomatch e
theorem Unit.portLanesLock (port_ : Nat) : Unit.Statement (.portLanesLock port_) := fun _ _ _ e => nomatch e
theorem Unit.portAlignDone (port_ : Nat) : Unit.Statement (.portAlignDone port_) := fun _ _ _ e => nomatch e
theorem Unit.portRetrainTimeout (port_ : Nat) (failed_ : (BitVec 8)) (over_ : (BitVec 8)) : Unit.Statement (.portRetrainTimeout port_ failed_ over_) := fun _ _ _ e => nomatch e
theorem Unit.portLockLoss (port_ : Nat) : Unit.Statement (.portLockLoss port_) := fun _ _ _ e => nomatch e
theorem Unit.lnkRtWrite (index_ : Nat) (value_ : DWord) : Unit.Statement (.lnkRtWrite index_ value_) := fun _ _ _ e => nomatch e
theorem Unit.lnkRtCommit (value_ : Word) : Unit.Statement (.lnkRtCommit value_) := fun _ _ _ e => nomatch e
theorem Unit.routeFlip (src_ : Nat) (newE_ : Nat) (time_ : Nat) : Unit.Statement (.routeFlip src_ newE_ time_) := fun _ _ _ e => nomatch e
theorem Unit.routeFlipTime : Unit.Statement (.routeFlipTime) := fun _ _ _ e => nomatch e
theorem Unit.routeBankRelease : Unit.Statement (.routeBankRelease) := fun _ _ _ e => nomatch e
theorem Unit.ping (src_ : Nat) (rtag_ : Nat) (time_ : Nat) : Unit.Statement (.ping src_ rtag_ time_) := fun _ _ _ e => nomatch e
theorem Unit.pong (src_ : Nat) (rtag_ : Nat) (time_ : Nat) : Unit.Statement (.pong src_ rtag_ time_) := fun _ _ _ e => nomatch e
theorem Unit.pagePut (src_ : Nat) (rtag_ : Nat) (move_ : Nat) (handle_ : DWord) (page_ : Nat) (stored_ : Nat) (crc_ : Word) : Unit.Statement (.pagePut src_ rtag_ move_ handle_ page_ stored_ crc_) := fun _ _ _ e => nomatch e
theorem Unit.pageGet (src_ : Nat) (rtag_ : Nat) (byLease_ : Bool) (move_ : Nat) (handle_ : DWord) (page_ : Nat) : Unit.Statement (.pageGet src_ rtag_ byLease_ move_ handle_ page_) := fun _ _ _ e => nomatch e
theorem Unit.moveDone (src_ : Nat) (rtag_ : Nat) (move_ : Nat) (status_ : Word) (stored_ : Nat) (crc_ : Word) : Unit.Statement (.moveDone src_ rtag_ move_ status_ stored_ crc_) := fun _ _ _ e => nomatch e
theorem Unit.pageRelease (src_ : Nat) (move_ : Nat) (handle_ : DWord) (first_ : Nat) (count_ : Nat) : Unit.Statement (.pageRelease src_ move_ handle_ first_ count_) := fun _ _ _ e => nomatch e
theorem Unit.bulkData (src_ : Nat) (rtag_ : Nat) (move_ : Nat) (off_ : Nat) (data_ : (List Byte)) : Unit.Statement (.bulkData src_ rtag_ move_ off_ data_) := fun _ _ _ e => nomatch e
theorem Unit.peerMoveStall (src_ : Nat) (move_ : Nat) : Unit.Statement (.peerMoveStall src_ move_) := fun _ _ _ e => nomatch e
theorem Unit.collPart (src_ : Nat) (seq_ : Nat) (span_ : Nat) (off_ : Nat) (partials_ : (List Word)) : Unit.Statement (.collPart src_ seq_ span_ off_ partials_) := fun _ _ _ e => nomatch e
theorem Unit.collData (src_ : Nat) (seq_ : Nat) (span_ : Nat) (off_ : Nat) (data_ : (List Byte)) : Unit.Statement (.collData src_ seq_ span_ off_ data_) := fun _ _ _ e => nomatch e
theorem Unit.spanPut (src_ : Nat) (rtag_ : Nat) (rank_ : Nat) (span_ : Nat) (off_ : Nat) (data_ : (List Byte)) : Unit.Statement (.spanPut src_ rtag_ rank_ span_ off_ data_) := fun _ _ _ e => nomatch e
theorem Unit.spanGet (src_ : Nat) (rtag_ : Nat) (rank_ : Nat) (span_ : Nat) (off_ : Nat) (len_ : Nat) : Unit.Statement (.spanGet src_ rtag_ rank_ span_ off_ len_) := fun _ _ _ e => nomatch e
theorem Unit.spanSignal (src_ : Nat) (rank_ : Nat) (span_ : Nat) (sem_ : Nat) (value_ : Word) : Unit.Statement (.spanSignal src_ rank_ span_ sem_ value_) := fun _ _ _ e => nomatch e
theorem Unit.spanBar (src_ : Nat) (index_ : Nat) (span_ : Nat) (count_ : Nat) : Unit.Statement (.spanBar src_ index_ span_ count_) := fun _ _ _ e => nomatch e
theorem Unit.spanData (src_ : Nat) (rtag_ : Nat) (span_ : Nat) (off_ : Nat) (data_ : (List Byte)) : Unit.Statement (.spanData src_ rtag_ span_ off_ data_) := fun _ _ _ e => nomatch e
theorem Unit.spanAck (src_ : Nat) (span_ : Nat) (highest_ : Nat) : Unit.Statement (.spanAck src_ span_ highest_) := fun _ _ _ e => nomatch e
theorem Unit.timeSyncTick : Unit.Statement (.timeSyncTick) := fun _ _ _ e => nomatch e
theorem Unit.syncReq (port_ : Nat) (seq_ : Nat) (t1_ : Nat) (rpl_ : Bool) : Unit.Statement (.syncReq port_ seq_ t1_ rpl_) := fun _ _ _ e => nomatch e
theorem Unit.syncResp (port_ : Nat) (seq_ : Nat) (t2_ : Nat) (t3_ : Nat) (t4_ : Nat) (locked_ : Bool) (stratum_ : Nat) (rpl_ : Bool) : Unit.Statement (.syncResp port_ seq_ t2_ t3_ t4_ locked_ stratum_ rpl_) := fun _ _ _ e => nomatch e
theorem Unit.beaconTick : Unit.Statement (.beaconTick) := fun _ _ _ e => nomatch e
theorem Unit.beacon (src_ : Nat) (hops_ : Nat) (level_ : Nat) (resign_ : Bool) (stall_ : Bool) (node_ : Nat) (term_ : Nat) (key_ : Nat) (gen_ : Nat) (stratum_ : Nat) (roll_ : Nat) (seq_ : Nat) (locked_ : Bool) : Unit.Statement (.beacon src_ hops_ level_ resign_ stall_ node_ term_ key_ gen_ stratum_ roll_ seq_ locked_) := fun _ _ _ e => nomatch e
theorem Unit.managerLoss (level_ : Nat) : Unit.Statement (.managerLoss level_) := fun _ _ _ e => nomatch e
theorem Unit.candidateWaitExpire (level_ : Nat) : Unit.Statement (.candidateWaitExpire level_) := fun _ _ _ e => nomatch e
theorem Unit.candidate (src_ : Nat) (hops_ : Nat) (level_ : Nat) (node_ : Nat) (term_ : Nat) (key_ : Nat) (seq_ : Nat) : Unit.Statement (.candidate src_ hops_ level_ node_ term_ key_ seq_) := fun _ _ _ e => nomatch e
theorem Unit.electionTimeout (level_ : Nat) : Unit.Statement (.electionTimeout level_) := fun _ _ _ e => nomatch e
theorem Unit.hieResign : Unit.Statement (.hieResign) := fun _ _ _ e => nomatch e
theorem Unit.join (src_ : Nat) (rtag_ : Nat) (level_ : Nat) (cont_ : Bool) (start_ : Nat) (build_ : Nat) (fw_ : Nat) (ledger_ : Nat) (total_ : Nat) (idx_ : Nat) (bases_ : (List Nat)) (tag_ : (BitVec 128)) : Unit.Statement (.join src_ rtag_ level_ cont_ start_ build_ fw_ ledger_ total_ idx_ bases_ tag_) := fun _ _ _ e => nomatch e
theorem Unit.joinAck (src_ : Nat) (rtag_ : Nat) (status_ : Word) (term_ : Nat) (tag_ : (BitVec 128)) : Unit.Statement (.joinAck src_ rtag_ status_ term_ tag_) := fun _ _ _ e => nomatch e
theorem Unit.joinSeriesTimeout (node_ : Nat) : Unit.Statement (.joinSeriesTimeout node_) := fun _ _ _ e => nomatch e
theorem Unit.statusTick : Unit.Statement (.statusTick) := fun _ _ _ e => nomatch e
theorem Unit.status (src_ : Nat) (rtag_ : Nat) (hbm_ : Nat) (clu_ : Nat) (lend1_ : Nat) (lend2_ : Nat) (ports_ : (List Nat)) (sledUj_ : Nat) (snapTb_ : Nat) (tenantMj_ : Nat) (meterOk_ : Bool) : Unit.Statement (.status src_ rtag_ hbm_ clu_ lend1_ lend2_ ports_ sledUj_ snapTb_ tenantMj_ meterOk_) := fun _ _ _ e => nomatch e
theorem Unit.routeSet (src_ : Nat) (rtag_ : Nat) (table_ : Nat) (first_ : Nat) (gen_ : Nat) (entries_ : (List DWord)) : Unit.Statement (.routeSet src_ rtag_ table_ first_ gen_ entries_) := fun _ _ _ e => nomatch e
theorem Unit.topologyRecompute : Unit.Statement (.topologyRecompute) := fun _ _ _ e => nomatch e
theorem Unit.poolReq (src_ : Nat) (rtag_ : Nat) (wanted_ : Nat) : Unit.Statement (.poolReq src_ rtag_ wanted_) := fun _ _ _ e => nomatch e
theorem Unit.poolGrant (src_ : Nat) (rtag_ : Nat) (term_ : Nat) (bases_ : (List Nat)) : Unit.Statement (.poolGrant src_ rtag_ term_ bases_) := fun _ _ _ e => nomatch e
theorem Unit.poolBlockReturn (base_ : Nat) : Unit.Statement (.poolBlockReturn base_) := fun _ _ _ e => nomatch e
theorem Unit.poolMapReplicate (blocks_ : (List (Nat × Nat))) : Unit.Statement (.poolMapReplicate blocks_) := fun _ _ _ e => nomatch e
theorem Unit.spanHold (src_ : Nat) (rtag_ : Nat) (id_ : Nat) (txn_ : Nat) (modify_ : Bool) (cls_ : Nat) (words_ : (List Nat)) (domain_ : Nat) (keys_ : Nat) : Unit.Statement (.spanHold src_ rtag_ id_ txn_ modify_ cls_ words_ domain_ keys_) := fun _ _ _ e => nomatch e
theorem Unit.spanVote (src_ : Nat) (rtag_ : Nat) (txn_ : Nat) (status_ : Word) (amount_ : Nat) : Unit.Statement (.spanVote src_ rtag_ txn_ status_ amount_) := fun _ _ _ e => nomatch e
theorem Unit.spanCommit (src_ : Nat) (rtag_ : Nat) (txn_ : Nat) (commit_ : Bool) : Unit.Statement (.spanCommit src_ rtag_ txn_ commit_) := fun _ _ _ e => nomatch e
theorem Unit.spanVoteTimeout (txn_ : Nat) : Unit.Statement (.spanVoteTimeout txn_) := fun _ _ _ e => nomatch e
theorem Unit.spanCommitTimeout (mgr_ : Nat) (txn_ : Nat) : Unit.Statement (.spanCommitTimeout mgr_ txn_) := fun _ _ _ e => nomatch e
theorem Unit.spanRequestTimeout (f_ : Nat) : Unit.Statement (.spanRequestTimeout f_) := fun _ _ _ e => nomatch e
theorem Unit.tenantOp (src_ : Nat) (rtag_ : Nat) (id_ : Nat) (op_ : Nat) (home_ : Nat) : Unit.Statement (.tenantOp src_ rtag_ id_ op_ home_) := fun _ _ _ e => nomatch e
theorem Unit.spanHomeLoss (slot_ : Nat) : Unit.Statement (.spanHomeLoss slot_) := fun _ _ _ e => nomatch e
theorem Unit.keyWrap (src_ : Nat) (rtag_ : Nat) (dom_ : Nat) (kg_ : Nat) (term_ : Nat) (key_ : (BitVec 192)) : Unit.Statement (.keyWrap src_ rtag_ dom_ kg_ term_ key_) := fun _ _ _ e => nomatch e
theorem Unit.lendQuery (node_ : Nat) (answer_ : (Option Nat)) : Unit.Statement (.lendQuery node_ answer_) := fun _ _ _ e => nomatch e
theorem Unit.ledgerFwd (src_ : Nat) (rtag_ : Nat) (origin_ : Nat) (index_ : Nat) (record_ : (List Word)) : Unit.Statement (.ledgerFwd src_ rtag_ origin_ index_ record_) := fun _ _ _ e => nomatch e
theorem Unit.ack (src_ : Nat) (rtag_ : Nat) (echoed_ : Nat) (status_ : Word) (ratio_ : Nat) (second_ : Nat) (valid_ : Bool) : Unit.Statement (.ack src_ rtag_ echoed_ status_ ratio_ second_ valid_) := fun _ _ _ e => nomatch e
theorem Unit.hieRequestTimeout (tag_ : Nat) : Unit.Statement (.hieRequestTimeout tag_) := fun _ _ _ e => nomatch e
theorem Unit.rollStart (workers_ : (List Nat)) (chassis_ : (List Nat)) (rows_ : (List Nat)) : Unit.Statement (.rollStart workers_ chassis_ rows_) := fun _ _ _ e => nomatch e
theorem Unit.rollHalt : Unit.Statement (.rollHalt) := fun _ _ _ e => nomatch e
theorem Unit.rollResume : Unit.Statement (.rollResume) := fun _ _ _ e => nomatch e
theorem Unit.rollOffer (src_ : Nat) (rtag_ : Nat) (wave_ : Nat) (move_ : Nat) (version_ : Nat) (size_ : Nat) (digest_ : (List Nat)) : Unit.Statement (.rollOffer src_ rtag_ wave_ move_ version_ size_ digest_) := fun _ _ _ e => nomatch e
theorem Unit.rollActivate (src_ : Nat) (rtag_ : Nat) (move_ : Nat) : Unit.Statement (.rollActivate src_ rtag_ move_) := fun _ _ _ e => nomatch e
theorem Unit.rollConfirm (src_ : Nat) (rtag_ : Nat) (move_ : Nat) : Unit.Statement (.rollConfirm src_ rtag_ move_) := fun _ _ _ e => nomatch e
theorem Unit.rollReport (src_ : Nat) (rtag_ : Nat) (move_ : Nat) (status_ : Word) : Unit.Statement (.rollReport src_ rtag_ move_ status_) := fun _ _ _ e => nomatch e
theorem Unit.rollDrainExpire : Unit.Statement (.rollDrainExpire) := fun _ _ _ e => nomatch e
theorem Unit.rollSoakExpire : Unit.Statement (.rollSoakExpire) := fun _ _ _ e => nomatch e
theorem Unit.rollReportTimeout (node_ : Nat) : Unit.Statement (.rollReportTimeout node_) := fun _ _ _ e => nomatch e
theorem Unit.ppsInPulse : Unit.Statement (.ppsInPulse) := fun _ _ _ e => nomatch e
theorem Unit.ppsOutSecond : Unit.Statement (.ppsOutSecond) := fun _ _ _ e => nomatch e
theorem Unit.hieSiteSecretWrite (index_ : Nat) (value_ : Word) : Unit.Statement (.hieSiteSecretWrite index_ value_) := fun _ _ _ e => nomatch e
theorem Unit.waitMonitorThreshold (level_ : Nat) (us_ : Nat) (upward_ : Bool) : Unit.Statement (.waitMonitorThreshold level_ us_ upward_) := fun _ _ _ e => nomatch e
theorem Unit.twLeaseWrite (f_ : Nat) (win_ : (Option Nat)) (value_ : Word) : Unit.Statement (.twLeaseWrite f_ win_ value_) := fun _ _ _ e => nomatch e
theorem Unit.twLeasePeriodWrite (f_ : Nat) (win_ : (Option Nat)) (value_ : Word) : Unit.Statement (.twLeasePeriodWrite f_ win_ value_) := fun _ _ _ e => nomatch e
theorem Unit.leaseExpire (f_ : Nat) : Unit.Statement (.leaseExpire f_) := fun _ _ _ e => nomatch e
theorem Unit.pfLeaseExpire : Unit.Statement (.pfLeaseExpire) := fun _ _ _ e => nomatch e
theorem Unit.writeStallTimeout (f_ : Nat) (withheld_ : Bool) : Unit.Statement (.writeStallTimeout f_ withheld_) := fun _ _ _ e => nomatch e
theorem Unit.writeStallExit (f_ : Nat) : Unit.Statement (.writeStallExit f_) := fun _ _ _ e => nomatch e
theorem Unit.readStallTimeout (tag_ : Nat) : Unit.Statement (.readStallTimeout tag_) := fun _ _ _ e => nomatch e
theorem Unit.dmaReadComplete (tag_ : Nat) (data_ : (List Nat)) : Unit.Statement (.dmaReadComplete tag_ data_) := fun _ _ _ e => nomatch e
theorem Unit.unexpectedCompletion (f_ : Nat) : Unit.Statement (.unexpectedCompletion f_) := fun _ _ _ e => nomatch e
theorem Unit.hostRequestError (acc_ : HostAccess) : Unit.Statement (.hostRequestError acc_) := fun _ _ _ e => nomatch e
theorem Unit.poisonedCompletion (acc_ : HostAccess) : Unit.Statement (.poisonedCompletion acc_) := fun _ _ _ e => nomatch e
theorem Unit.msixUnmask (f_ : Nat) (vec_ : Nat) : Unit.Statement (.msixUnmask f_ vec_) := fun _ _ _ e => nomatch e
theorem Unit.vfFlr (f_ : Nat) : Unit.Statement (.vfFlr f_) := fun _ _ _ e => nomatch e
theorem Unit.vfEnableClear : Unit.Statement (.vfEnableClear) := fun _ _ _ e => nomatch e
theorem Unit.pfFlr : Unit.Statement (.pfFlr) := fun _ _ _ e => nomatch e
theorem Unit.conventionalReset (kind_ : Nat) (speed_ : Nat) (width_ : Nat) : Unit.Statement (.conventionalReset kind_ speed_ width_) := fun _ _ _ e => nomatch e
theorem Unit.bmeClear (f_ : Nat) : Unit.Statement (.bmeClear f_) := fun _ _ _ e => nomatch e
theorem Unit.d3hotEntry (f_ : Nat) : Unit.Statement (.d3hotEntry f_) := fun _ _ _ e => nomatch e
theorem Unit.ideStreamInsecure (stream_ : Nat) (first_ : Nat) (last_ : Nat) : Unit.Statement (.ideStreamInsecure stream_ first_ last_) := fun _ _ _ e => nomatch e
theorem Unit.ideKmKeyProg (stream_ : Nat) (keySet_ : Nat) (key_ : (BitVec 256)) : Unit.Statement (.ideKmKeyProg stream_ keySet_ key_) := fun _ _ _ e => nomatch e
theorem Unit.spdmGetVersion : Unit.Statement (.spdmGetVersion) := fun _ _ _ e => nomatch e
theorem Unit.spdmGetCapabilities : Unit.Statement (.spdmGetCapabilities) := fun _ _ _ e => nomatch e
theorem Unit.spdmNegotiateAlgorithms (asym_ : Nat) (hash_ : Nat) (dhe_ : Nat) (aead_ : Nat) : Unit.Statement (.spdmNegotiateAlgorithms asym_ hash_ dhe_ aead_) := fun _ _ _ e => nomatch e
theorem Unit.spdmGetDigests : Unit.Statement (.spdmGetDigests) := fun _ _ _ e => nomatch e
theorem Unit.spdmGetCertificate (slot_ : Nat) (offset_ : Nat) (length_ : Nat) : Unit.Statement (.spdmGetCertificate slot_ offset_ length_) := fun _ _ _ e => nomatch e
theorem Unit.spdmChallenge (slot_ : Nat) (nonce_ : Nat) : Unit.Statement (.spdmChallenge slot_ nonce_) := fun _ _ _ e => nomatch e
theorem Unit.spdmGetMeasurements (index_ : Nat) (sign_ : Bool) (slot_ : Nat) (nonce_ : Nat) : Unit.Statement (.spdmGetMeasurements index_ sign_ slot_ nonce_) := fun _ _ _ e => nomatch e
theorem Unit.spdmKeyExchange (slot_ : Nat) (exchange_ : Nat) : Unit.Statement (.spdmKeyExchange slot_ exchange_) := fun _ _ _ e => nomatch e
theorem Unit.spdmFinish (verifies_ : Bool) : Unit.Statement (.spdmFinish verifies_) := fun _ _ _ e => nomatch e
theorem Unit.spdmKeyUpdate (op_ : Nat) (tag_ : Nat) : Unit.Statement (.spdmKeyUpdate op_ tag_) := fun _ _ _ e => nomatch e
theorem Unit.spdmHeartbeat : Unit.Statement (.spdmHeartbeat) := fun _ _ _ e => nomatch e
theorem Unit.spdmEndSession : Unit.Statement (.spdmEndSession) := fun _ _ _ e => nomatch e
theorem Unit.hifRestartWarm (key_ : Nat) : Unit.Statement (.hifRestartWarm key_) := fun _ _ _ e => nomatch e
theorem Unit.hifRestartCold (key_ : Nat) : Unit.Statement (.hifRestartCold key_) := fun _ _ _ e => nomatch e
theorem Unit.mainGood (sledEn_ : Bool) : Unit.Statement (.mainGood sledEn_) := fun _ _ _ e => nomatch e
theorem Unit.sledEnDeassert : Unit.Statement (.sledEnDeassert) := fun _ _ _ e => nomatch e
theorem Unit.quiesceTimeout : Unit.Statement (.quiesceTimeout) := fun _ _ _ e => nomatch e
theorem Unit.railRegulationTimeout (rail_ : Nat) : Unit.Statement (.railRegulationTimeout rail_) := fun _ _ _ e => nomatch e
theorem Unit.startStepComplete (n_ : Nat) (ok_ : Bool) (found_ : (List Nat)) : Unit.Statement (.startStepComplete n_ ok_ found_) := fun _ _ _ e => nomatch e
theorem Unit.startLimitExpire : Unit.Statement (.startLimitExpire) := fun _ _ _ e => nomatch e
theorem Unit.startRetry : Unit.Statement (.startRetry) := fun _ _ _ e => nomatch e
theorem Unit.rstSafeExit (key_ : Nat) : Unit.Statement (.rstSafeExit key_) := fun _ _ _ e => nomatch e
theorem Unit.rootLockLoss : Unit.Statement (.rootLockLoss) := fun _ _ _ e => nomatch e
theorem Unit.overtempTrip : Unit.Statement (.overtempTrip) := fun _ _ _ e => nomatch e
theorem Unit.overtempClear : Unit.Statement (.overtempClear) := fun _ _ _ e => nomatch e
theorem Unit.powerCapTick : Unit.Statement (.powerCapTick) := fun _ _ _ e => nomatch e
theorem Unit.thermalTick (west_ : Int) (east_ : Int) : Unit.Statement (.thermalTick west_ east_) := fun _ _ _ e => nomatch e
theorem Unit.hkTransaction (ok_ : Bool) : Unit.Statement (.hkTransaction ok_) := fun _ _ _ e => nomatch e
theorem Unit.rstUnit (type_ : Nat) (index_ : Nat) (key_ : Nat) : Unit.Statement (.rstUnit type_ index_ key_) := fun _ _ _ e => nomatch e
theorem Unit.unitResetDeferred (type_ : Nat) (index_ : Nat) : Unit.Statement (.unitResetDeferred type_ index_) := fun _ _ _ e => nomatch e
theorem Unit.resetNotice (type_ : Nat) (index_ : Nat) : Unit.Statement (.resetNotice type_ index_) := fun _ _ _ e => nomatch e
theorem Unit.watchdogExpire : Unit.Statement (.watchdogExpire) := fun _ _ _ e => nomatch e
theorem Unit.watchdogReadyTimeout : Unit.Statement (.watchdogReadyTimeout) := fun _ _ _ e => nomatch e
theorem Unit.fwReadySet : Unit.Statement (.fwReadySet) := fun _ _ _ e => nomatch e
theorem Unit.icConversionEnd (n_ : Nat) (nv_ : Int) : Unit.Statement (.icConversionEnd n_ nv_) := fun _ _ _ e => nomatch e
theorem Unit.sdModulatorClip (ch_ : Nat) : Unit.Statement (.sdModulatorClip ch_) := fun _ _ _ e => nomatch e
theorem Unit.adcUrgFinish (conv_ : (Option Nat)) (input_ : Nat) (period_ : Nat) : Unit.Statement (.adcUrgFinish conv_ input_ period_) := fun _ _ _ e => nomatch e
theorem Unit.adcUrgDrop (conv_ : (Option Nat)) (input_ : Nat) (period_ : Nat) : Unit.Statement (.adcUrgDrop conv_ input_ period_) := fun _ _ _ e => nomatch e
theorem Unit.adcSdCommit : Unit.Statement (.adcSdCommit) := fun _ _ _ e => nomatch e
theorem Unit.adcIcCommit : Unit.Statement (.adcIcCommit) := fun _ _ _ e => nomatch e
theorem Unit.adcSdCalStart : Unit.Statement (.adcSdCalStart) := fun _ _ _ e => nomatch e
theorem Unit.sdCalComplete (zeros_ : (List Nat)) (refs_ : (List Nat)) : Unit.Statement (.sdCalComplete zeros_ refs_) := fun _ _ _ e => nomatch e
theorem Unit.adcIcCalStart : Unit.Statement (.adcIcCalStart) := fun _ _ _ e => nomatch e
theorem Unit.referenceCheckTick : Unit.Statement (.referenceCheckTick) := fun _ _ _ e => nomatch e
theorem Unit.adcSyscalZero (ic_ : Bool) (target_ : Nat) (input_ : Nat) (gain_ : Nat) : Unit.Statement (.adcSyscalZero ic_ target_ input_ gain_) := fun _ _ _ e => nomatch e
theorem Unit.adcSyscalFull (ic_ : Bool) (target_ : Nat) (input_ : Nat) (gain_ : Nat) : Unit.Statement (.adcSyscalFull ic_ target_ input_ gain_) := fun _ _ _ e => nomatch e
theorem Unit.syscalPhaseComplete : Unit.Statement (.syscalPhaseComplete) := fun _ _ _ e => nomatch e
theorem Unit.adcSyscalSave (key_ : Nat) : Unit.Statement (.adcSyscalSave key_) := fun _ _ _ e => nomatch e
theorem Unit.autorangeUp (ch_ : Nat) : Unit.Statement (.autorangeUp ch_) := fun _ _ _ e => nomatch e
theorem Unit.decOutput (ch_ : Nat) (ones_ : (List Bool)) : Unit.Statement (.decOutput ch_ ones_) := fun _ _ _ e => nomatch e
theorem Unit.decCommit : Unit.Statement (.decCommit) := fun _ _ _ e => nomatch e
theorem Unit.mtrSyncEdge (frac_ : Nat) : Unit.Statement (.mtrSyncEdge frac_) := fun _ _ _ e => nomatch e
theorem Unit.decCtrlSync : Unit.Statement (.decCtrlSync) := fun _ _ _ e => nomatch e
theorem Unit.decCtrlArm : Unit.Statement (.decCtrlArm) := fun _ _ _ e => nomatch e
theorem Unit.decSyncInstant : Unit.Statement (.decSyncInstant) := fun _ _ _ e => nomatch e
theorem Unit.decCaptureStart (mask_ : Nat) : Unit.Statement (.decCaptureStart mask_) := fun _ _ _ e => nomatch e
theorem Unit.mtrCycleEnd (sled_ : Bool) (cross_ : Bool) (len_ : Nat) (samples_ : (List (List Int))) : Unit.Statement (.mtrCycleEnd sled_ cross_ len_ samples_) := fun _ _ _ e => nomatch e
theorem Unit.freqLossTimeout : Unit.Statement (.freqLossTimeout) := fun _ _ _ e => nomatch e
theorem Unit.mtrHalfCycle (elem_ : Nat) (samples_ : (List Int)) : Unit.Statement (.mtrHalfCycle elem_ samples_) := fun _ _ _ e => nomatch e
theorem Unit.cfPulseEmit (k_ : Nat) : Unit.Statement (.cfPulseEmit k_) := fun _ _ _ e => nomatch e
theorem Unit.cfPulseEnd (k_ : Nat) : Unit.Statement (.cfPulseEnd k_) := fun _ _ _ e => nomatch e
theorem Unit.mtrFramFlushTick : Unit.Statement (.mtrFramFlushTick) := fun _ _ _ e => nomatch e
theorem Unit.mtrEclr (key_ : Nat) : Unit.Statement (.mtrEclr key_) := fun _ _ _ e => nomatch e
theorem Unit.mtrCommit : Unit.Statement (.mtrCommit) := fun _ _ _ e => nomatch e
theorem Unit.mtrCalGain (elem_ : Nat) (n_ : Nat) : Unit.Statement (.mtrCalGain elem_ n_) := fun _ _ _ e => nomatch e
theorem Unit.mtrCalPhase (elem_ : Nat) (n_ : Nat) : Unit.Statement (.mtrCalPhase elem_ n_) := fun _ _ _ e => nomatch e
theorem Unit.sledP1msTick : Unit.Statement (.sledP1msTick) := fun _ _ _ e => nomatch e
theorem Unit.mtrCycSeqRead (requester_ : Nat) : Unit.Statement (.mtrCycSeqRead requester_) := fun _ _ _ e => nomatch e
theorem Unit.reconcileTick : Unit.Statement (.reconcileTick) := fun _ _ _ e => nomatch e
theorem Unit.accountingPeriodBoundary : Unit.Statement (.accountingPeriodBoundary) := fun _ _ _ e => nomatch e
theorem Unit.overheadRound : Unit.Statement (.overheadRound) := fun _ _ _ e => nomatch e
theorem Unit.overheadMissTimeout (sec_ : Nat) : Unit.Statement (.overheadMissTimeout sec_) := fun _ _ _ e => nomatch e
theorem Unit.nrgCommit : Unit.Statement (.nrgCommit) := fun _ _ _ e => nomatch e
theorem Unit.twNrgSeqRead (f_ : Nat) (win_ : (Option Nat)) (requester_ : Nat) : Unit.Statement (.twNrgSeqRead f_ win_ requester_) := fun _ _ _ e => nomatch e
theorem Unit.pnlUpdateFull (party_ : Nat) (zones_ : Nat) : Unit.Statement (.pnlUpdateFull party_ zones_) := fun _ _ _ e => nomatch e
theorem Unit.pnlUpdatePartial (party_ : Nat) (zones_ : Nat) : Unit.Statement (.pnlUpdatePartial party_ zones_) := fun _ _ _ e => nomatch e
theorem Unit.pnlUpdateClear (party_ : Nat) (zones_ : Nat) : Unit.Statement (.pnlUpdateClear party_ zones_) := fun _ _ _ e => nomatch e
theorem Unit.panelFrameBoundary : Unit.Statement (.panelFrameBoundary) := fun _ _ _ e => nomatch e
theorem Unit.panelRailStep (ok_ : Bool) : Unit.Statement (.panelRailStep ok_) := fun _ _ _ e => nomatch e
theorem Unit.panelRailHoldExpire : Unit.Statement (.panelRailHoldExpire) := fun _ _ _ e => nomatch e
theorem Unit.panelRailFault : Unit.Statement (.panelRailFault) := fun _ _ _ e => nomatch e
theorem Unit.panelRailRetry : Unit.Statement (.panelRailRetry) := fun _ _ _ e => nomatch e
theorem Unit.pnlFbWrite (party_ : Nat) (offset_ : Nat) (value_ : Word) : Unit.Statement (.pnlFbWrite party_ offset_ value_) := fun _ _ _ e => nomatch e
theorem Unit.pnlTblCommit (key_ : Nat) : Unit.Statement (.pnlTblCommit key_) := fun _ _ _ e => nomatch e
theorem Unit.pnlCommit : Unit.Statement (.pnlCommit) := fun _ _ _ e => nomatch e
theorem Unit.pnlBodyOwnWrite (owner_ : Nat) : Unit.Statement (.pnlBodyOwnWrite owner_) := fun _ _ _ e => nomatch e
theorem Unit.pnlWakePress : Unit.Statement (.pnlWakePress) := fun _ _ _ e => nomatch e
theorem Unit.pnlWakeExpire : Unit.Statement (.pnlWakeExpire) := fun _ _ _ e => nomatch e
theorem Unit.mainLoss : Unit.Statement (.mainLoss) := fun _ _ _ e => nomatch e
theorem Unit.auxLoss : Unit.Statement (.auxLoss) := fun _ _ _ e => nomatch e
theorem Unit.lodgeLoss : Unit.Statement (.lodgeLoss) := fun _ _ _ e => nomatch e
theorem Unit.auxReturn : Unit.Statement (.auxReturn) := fun _ _ _ e => nomatch e
theorem Unit.lodgePowerUp (aux_ : Bool) (main_ : Bool) : Unit.Statement (.lodgePowerUp aux_ main_) := fun _ _ _ e => nomatch e
theorem Unit.holdupStoreRefresh : Unit.Statement (.holdupStoreRefresh) := fun _ _ _ e => nomatch e
theorem Unit.mainStoreCheck (ok_ : Bool) : Unit.Statement (.mainStoreCheck ok_) := fun _ _ _ e => nomatch e
theorem Unit.updBegin : Unit.Statement (.updBegin) := fun _ _ _ e => nomatch e
theorem Unit.updWrite (programOk_ : Bool) : Unit.Statement (.updWrite programOk_) := fun _ _ _ e => nomatch e
theorem Unit.updEnd : Unit.Statement (.updEnd) := fun _ _ _ e => nomatch e
theorem Unit.updVerify (readOk_ : Bool) : Unit.Statement (.updVerify readOk_) := fun _ _ _ e => nomatch e
theorem Unit.updActivate (now_ : Bool) : Unit.Statement (.updActivate now_) := fun _ _ _ e => nomatch e
theorem Unit.updConfirm : Unit.Statement (.updConfirm) := fun _ _ _ e => nomatch e
theorem Unit.updAbort : Unit.Statement (.updAbort) := fun _ _ _ e => nomatch e
theorem Unit.updRevert : Unit.Statement (.updRevert) := fun _ _ _ e => nomatch e
theorem Unit.updSessionIdleTimeout : Unit.Statement (.updSessionIdleTimeout) := fun _ _ _ e => nomatch e
theorem Unit.autoConfirmExpire : Unit.Statement (.autoConfirmExpire) := fun _ _ _ e => nomatch e
theorem Unit.fwTraceSelWrite (index_ : Nat) : Unit.Statement (.fwTraceSelWrite index_) := fun _ _ _ e => nomatch e
theorem Unit.fwCertCommit (key_ : Nat) : Unit.Statement (.fwCertCommit key_) := fun _ _ _ e => nomatch e
theorem Unit.hbmCorrectedError (pch_ : Nat) (row_ : Nat) : Unit.Statement (.hbmCorrectedError pch_ row_) := fun _ _ _ e => nomatch e
theorem Unit.rowRepairComplete (pch_ : Nat) (row_ : Nat) : Unit.Statement (.rowRepairComplete pch_ row_) := fun _ _ _ e => nomatch e
theorem Unit.hbmUncorrectedError (pch_ : Nat) (row_ : Nat) (slot_ : Nat) (obj_ : Nat) (page_ : Nat) : Unit.Statement (.hbmUncorrectedError pch_ row_ slot_ obj_ page_) := fun _ _ _ e => nomatch e
theorem Unit.laneSerInterval (lane_ : Nat) (symbols_ : Nat) : Unit.Statement (.laneSerInterval lane_ symbols_) := fun _ _ _ e => nomatch e
theorem Unit.unitFault (type_ : Nat) (index_ : Nat) (block_ : Nat) (lost_ : Bool) (slot_ : Nat) (obj_ : Nat) (page_ : Nat) : Unit.Statement (.unitFault type_ index_ block_ lost_ slot_ obj_ page_) := fun _ _ _ e => nomatch e
theorem Unit.targetedTestComplete (type_ : Nat) (index_ : Nat) (passed_ : Bool) : Unit.Statement (.targetedTestComplete type_ index_ passed_) := fun _ _ _ e => nomatch e
theorem Unit.flashOpTimeout (move_ : Nat) : Unit.Statement (.flashOpTimeout move_) := fun _ _ _ e => nomatch e
theorem Unit.hubDieFault (src_ : Nat) (flight_ : (Option Nat)) (ctx_ : (Option Nat)) (prog_ : (Option Nat)) : Unit.Statement (.hubDieFault src_ flight_ ctx_ prog_) := fun _ _ _ e => nomatch e
theorem Unit.ledgerProgramComplete (ok_ : Bool) : Unit.Statement (.ledgerProgramComplete ok_) := fun _ _ _ e => nomatch e
theorem Unit.ledgerRetryTick : Unit.Statement (.ledgerRetryTick) := fun _ _ _ e => nomatch e
theorem Unit.istSliceStart (type_ : Nat) (index_ : Nat) (forced_ : Bool) : Unit.Statement (.istSliceStart type_ index_ forced_) := fun _ _ _ e => nomatch e
theorem Unit.istSliceEnd (type_ : Nat) (index_ : Nat) (failed_ : Bool) : Unit.Statement (.istSliceEnd type_ index_ failed_) := fun _ _ _ e => nomatch e
theorem Unit.patrolScrubRead (corrected_ : (Option (Nat × Nat))) : Unit.Statement (.patrolScrubRead corrected_) := fun _ _ _ e => nomatch e
theorem Unit.laneEyeCheck (lane_ : Nat) (margin_ : Nat) (trained_ : Nat) : Unit.Statement (.laneEyeCheck lane_ margin_ trained_) := fun _ _ _ e => nomatch e
theorem Unit.fltUnitSelWrite (type_ : Nat) (index_ : Nat) : Unit.Statement (.fltUnitSelWrite type_ index_) := fun _ _ _ e => nomatch e
theorem Unit.fltLdgSelWrite (index_ : Nat) : Unit.Statement (.fltLdgSelWrite index_) := fun _ _ _ e => nomatch e
theorem Unit.strapSample (straps_ : Nat) (eligible_ : Bool) (cables_ : (BitVec 4)) : Unit.Statement (.strapSample straps_ eligible_ cables_) := fun _ _ _ e => nomatch e
theorem Unit.ldgLocationWrite (value_ : Word) : Unit.Statement (.ldgLocationWrite value_) := fun _ _ _ e => nomatch e
theorem Unit.sidebandAddressWrite (bytes_ : (List Byte)) : Unit.Statement (.sidebandAddressWrite bytes_) := fun _ _ _ e => nomatch e
theorem Unit.sidebandRead (length_ : Nat) : Unit.Statement (.sidebandRead length_) := fun _ _ _ e => nomatch e
theorem Unit.setdasa (static_ : Nat) (dynamic_ : Nat) : Unit.Statement (.setdasa static_ dynamic_) := fun _ _ _ e => nomatch e
theorem Unit.setaasa : Unit.Statement (.setaasa) := fun _ _ _ e => nomatch e
theorem Unit.entdaa (dynamic_ : Nat) : Unit.Statement (.entdaa dynamic_) := fun _ _ _ e => nomatch e
theorem Unit.rstdaa : Unit.Statement (.rstdaa) := fun _ _ _ e => nomatch e
theorem Unit.getpid : Unit.Statement (.getpid) := fun _ _ _ e => nomatch e
theorem Unit.getbcr : Unit.Statement (.getbcr) := fun _ _ _ e => nomatch e
theorem Unit.getdcr : Unit.Statement (.getdcr) := fun _ _ _ e => nomatch e
theorem Unit.getstatus : Unit.Statement (.getstatus) := fun _ _ _ e => nomatch e
theorem Unit.svcPresenceChange (present_ : Bool) : Unit.Statement (.svcPresenceChange present_) := fun _ _ _ e => nomatch e
theorem Unit.extest (package_ : Bool) (din_ : (List Bool)) : Unit.Statement (.extest package_ din_) := fun _ _ _ e => nomatch e
theorem Unit.idcode (package_ : Bool) : Unit.Statement (.idcode package_) := fun _ _ _ e => nomatch e
theorem Unit.samplePreload (package_ : Bool) (din_ : (List Bool)) : Unit.Statement (.samplePreload package_ din_) := fun _ _ _ e => nomatch e
theorem Unit.regacc (word_ : DWord) : Unit.Statement (.regacc word_) := fun _ _ _ e => nomatch e
theorem Unit.unlock (signature_ : (List Byte)) : Unit.Statement (.unlock signature_) := fun _ _ _ e => nomatch e
theorem Unit.bypass (package_ : Bool) (din_ : (List Bool)) : Unit.Statement (.bypass package_ din_) := fun _ _ _ e => nomatch e
theorem Unit.persistWriteComplete (target_ : Nat) : Unit.Statement (.persistWriteComplete target_) := fun _ _ _ e => nomatch e
theorem Unit.xtalStop : Unit.Statement (.xtalStop) := fun _ _ _ e => nomatch e
theorem Unit.xtalReturn : Unit.Statement (.xtalReturn) := fun _ _ _ e => nomatch e

end Sys2Proof.Laws
end

