-- ==== Sys2Proof/Laws/Queue.lean ====
section
/-! SUPPORT. What the shared operations of the queue instructions do: issue, and going on at an index. -/

namespace Sys2Proof.Machine

theorem prog_setProg_same (s : State) (k : Nat) (p : QProg) : (s.setProg k p).prog k = some p := mget_mput_same _ _ _

theorem prog_setProg_ne (s : State) {k j : Nat} (p : QProg) (h : j ≠ k) : (s.setProg k p).prog j = s.prog j := mget_mput_ne _ _ h

theorem setProg_setProg (s : State) (k : Nat) (p q : QProg) : (s.setProg k p).setProg k q = s.setProg k q := by
  simp [State.setProg, mput_mput]

theorem updProg_eq {s : State} {k : Nat} {p : QProg} (f : QProg → QProg) (h : s.prog k = some p) :
    s.updProg k f = s.setProg k (f p) := by
  simp only [State.prog] at h
  simp [State.updProg, State.setProg, mupd_of_mget f h]

/-- Going on at an index that holds a defined instruction sets the index. -/
theorem qGoTo_of {s : State} {k i : Nat} {p : QProg} (hp : s.prog k = some p) (hf : QFollows p i) :
    qGoTo k i s = s.setProg k { p with pc := i } := by
  obtain ⟨x, hx, hm⟩ := Option.map_eq_some_iff.mp hf
  unfold qGoTo
  rw [updProg_eq _ hp]
  simp only [prog_setProg_same, hx, hm, if_true]

/-- Going on behind the instruction. -/
theorem qNext_of {s : State} {k : Nat} {p : QProg} (hp : s.prog k = some p) (hf : QFollows p (p.pc + 1)) :
    qNext k s = s.setProg k (p.onward p.regs) := by
  unfold qNext
  simp only [hp, Option.map_some, Option.getD_some]
  exact qGoTo_of hp hf

/-- Changing the registers and going on. -/
theorem qSet_of {s : State} {k : Nat} {p : QProg} {f : QRegs → QRegs} (hp : s.prog k = some p) (hf : QFollows p (p.pc + 1)) :
    qSet k f s = s.setProg k (p.onward (f p.regs)) := by
  unfold qSet
  rw [updProg_eq _ hp, qNext_of (p := { p with regs := f p.regs }) (prog_setProg_same _ _ _) hf, setProg_setProg]
  rfl

/-- An instruction at the program's index whose word passes its checks has its effect where its guard holds. -/
theorem qIssue_of {s : State} {k major : Nat} {w : BitVec 56} {p : QProg} {enc : Enc}
    {also : Nat → Bool} {body : QProg → Nat → State → State} (h : QIssuing s k major w p)
    (he : enc.ok (wordOf major w) = true) (ha : also (wordOf major w) = true) (hg : QGuarded p major w) :
    qIssue k major w enc also body s = body p (wordOf major w) s := by
  obtain ⟨h1, h2, h3, h4⟩ := h
  have h5 : (p.stopReq.isSome && fencePoint major) = false := by
    rcases h4 with h4 | h4 <;> simp [h4]
  have h6 : (p.regs.pr (wPG (wordOf major w)) == decide (wPN (wordOf major w) = 1)) = false := beq_eq_false_iff_ne.mpr hg
  unfold qIssue
  rw [show major * 2 ^ 56 + w.toNat = wordOf major w from rfl]
  simp only [h1, h2, h3, h5, he, ha, h6, bne_self_eq_false, Bool.not_true, Bool.or_self, Bool.false_eq_true, if_false]

/-- Where its guard does not hold it only goes on. -/
theorem qIssue_skip {s : State} {k major : Nat} {w : BitVec 56} {p : QProg} {enc : Enc}
    {also : Nat → Bool} {body : QProg → Nat → State → State} (h : QIssuing s k major w p)
    (he : enc.ok (wordOf major w) = true) (ha : also (wordOf major w) = true) (hg : ¬ QGuarded p major w) :
    qIssue k major w enc also body s = qNext k s := by
  obtain ⟨h1, h2, h3, h4⟩ := h
  have h5 : (p.stopReq.isSome && fencePoint major) = false := by
    rcases h4 with h4 | h4 <;> simp [h4]
  have h6 : (p.regs.pr (wPG (wordOf major w)) == decide (wPN (wordOf major w) = 1)) = true := beq_iff_eq.mpr (Decidable.not_not.mp hg)
  unfold qIssue
  rw [show major * 2 ^ 56 + w.toNat = wordOf major w from rfl]
  simp only [h1, h2, h3, h5, he, ha, h6, bne_self_eq_false, Bool.not_true, Bool.or_self, Bool.false_eq_true, if_false, if_true]

/-- A word that fails a check faults, whatever the guard is. -/
theorem qIssue_bad {s : State} {k major : Nat} {w : BitVec 56} {p : QProg} {enc : Enc}
    {also : Nat → Bool} {body : QProg → Nat → State → State} (h : QIssuing s k major w p)
    (he : (enc.ok (wordOf major w) && also (wordOf major w)) = false) :
    qIssue k major w enc also body s = qFault k s := by
  obtain ⟨h1, h2, h3, h4⟩ := h
  unfold qIssue
  simp only [wordOf] at *
  have h5 : (p.stopReq.isSome && fencePoint major) = false := by
    rcases h4 with h4 | h4 <;> simp [h4]
  simp only [h1, h2, h3, h5]
  cases hx : enc.ok (major * 2 ^ 56 + w.toNat) <;> cases hy : also (major * 2 ^ 56 + w.toNat) <;> simp_all

/-- An s register after a write: s0 reads zero. -/
theorem QRegs.sr_setS (r : QRegs) (i j : Nat) (v : DWord) :
    (r.setS i v).sr j = if j = 0 then 0 else if j = i then v else r.sr j := by
  unfold QRegs.setS QRegs.sr
  by_cases hj : j = 0
  · simp [hj]
  · by_cases hi : i = 0
    · simp [hi, hj]
    · simp only [hi, hj, if_false, mgetD_mputD]
      split
      · split
        · rename_i h; exact h.symm
        · rfl
      · rfl

/-- A ring command that can start has its effect on the fetched state. -/
theorem ringCmd_of {op slot q : Nat} {r : CmdRec} {body : Nat → CmdRec → State → State} {s : State} (h : CanStart s slot q r) :
    ringCmd op slot q r body s = commitDue slot q (body (fetched op slot q r s).1 r (fetched op slot q r s).2) := by
  obtain ⟨_, _, h1, h2, h3, h4⟩ := h
  unfold ringCmd
  simp only [h1, h2, h4, if_neg (Nat.ne_of_gt h3), Bool.not_true, Bool.or_self, Bool.false_eq_true, if_false]
  rfl

/-- A read's charges leave every program as it is. -/
theorem useRead_prog (slot : Nat) (n : Named) (off len key : Nat) (s : State) : (useRead slot n off len s).prog key = s.prog key := by
  have c : ∀ (p : Page) (m : Nat) (s : State), (chargeAccess slot p m false s).progs = s.progs := by
    intro p m s; unfold chargeAccess charge; split
    · rfl
    · split
      · rfl
      · split <;> rfl
  have e : ∀ (l : List Nat) (s : State), (l.foldl (fun s i => chargeAccess slot (n.obj.page i) (touched n.obj off len i) false
      (s.updObj n.slot n.idx (fun o => o.setPage i { o.page i with lastUse := s.tb }))) s).progs = s.progs := by
    intro l; induction l with
    | nil => intro s; rfl
    | cons a l ih => intro s; rw [List.foldl_cons, ih, c]; rfl
  simp only [State.prog, useRead, e]

/-- A check that passes with a value answers it. -/
theorem ok_of_toOption {α β : Type} {x : Except α β} {v : β} (h : x.toOption = some v) : x = .ok v := by
  cases x <;> simp [Except.toOption] at h ⊢; exact h

end Sys2Proof.Machine
end

