-- ==== Sys2Proof/Laws/State.lean ====
section
/-! SUPPORT. What each named update of the state leaves alone, field by field, and what a register reads after each. -/

namespace Sys2Proof.Machine

/-! ### Registers -/

@[simp] theorem State.rd_put (s : State) (a b : Nat) (v : DWord) : (s.put a v).rd b = if b = a then v else s.rd b := by
  simp only [State.rd, State.put, mgetD_mputD]
  split
  · rename_i h; subst h; split
    · rename_i h; exact h.symm
    · rfl
  · rfl

/-- A register just written reads the value written. -/
theorem State.rd_put_same (s : State) (a : Nat) (v : DWord) : (s.put a v).rd a = v := by simp

/-- Every other register is unchanged. -/
theorem State.rd_put_ne (s : State) {a b : Nat} (v : DWord) (h : b ≠ a) : (s.put a v).rd b = s.rd b := by simp [h]

@[simp] theorem State.rd_putN (s : State) (a b n : Nat) :
    (s.putN a n).rd b = if b = a then BitVec.ofNat 64 n else s.rd b := by simp [State.putN]

@[simp] theorem State.rdN_putN (s : State) (a b n : Nat) :
    (s.putN a n).rdN b = if b = a then n % 2 ^ 64 else s.rdN b := by
  simp only [State.rdN, State.rd_putN]; split <;> simp

@[simp] theorem State.rd_bumpBy (s : State) (a b n : Nat) :
    (s.bumpBy a n).rd b = if b = a then s.rd a + BitVec.ofNat 64 n else s.rd b := by simp [State.bumpBy]

@[simp] theorem State.rd_bump (s : State) (a b : Nat) :
    (s.bump a).rd b = if b = a then s.rd a + 1 else s.rd b := by simp [State.bump]

@[simp] theorem State.rd_bump32 (s : State) (a b : Nat) :
    (s.bump32 a).rd b = if b = a then BitVec.ofNat 64 ((s.rdN a + 1) % 2 ^ 32) else s.rd b := by simp [State.bump32]

@[simp] theorem State.rd_setFld (s : State) (a b lo len v : Nat) :
    (s.setFld a lo len v).rd b = if b = a then BitVec.ofNat 64 (setBits (s.rdN a) lo len v) else s.rd b := by
  simp [State.setFld]

@[simp] theorem State.rd_setBit (s : State) (a b i : Nat) (v : Bool) :
    (s.setBit a i v).rd b = if b = a then BitVec.ofNat 64 (setBits (s.rdN a) i 1 (b2n v)) else s.rd b := by
  simp [State.setBit]

/-! ### Fields of a number -/

theorem bits_lt (x lo len : Nat) : bits x lo len < 2 ^ len := Nat.mod_lt _ (Nat.two_pow_pos len)

/-- A number as what lies above a field, the field and what lies below it. -/
theorem bits_split (x lo len : Nat) : x = x / 2 ^ (lo + len) * 2 ^ (lo + len) + bits x lo len * 2 ^ lo + x % 2 ^ lo := by
  have h1 := Nat.div_add_mod x (2 ^ lo)
  have h2 := Nat.div_add_mod (x / 2 ^ lo) (2 ^ len)
  have h3 : x / 2 ^ lo / 2 ^ len = x / 2 ^ (lo + len) := by rw [Nat.div_div_eq_div_mul, Nat.pow_add]
  rw [h3] at h2
  unfold bits
  have h4 : 2 ^ lo * (2 ^ len * (x / 2 ^ (lo + len)) + x / 2 ^ lo % 2 ^ len) = 2 ^ lo * (x / 2 ^ lo) := by rw [h2]
  rw [Nat.mul_add] at h4
  rw [Nat.pow_add] at h4 ⊢
  have h5 : 2 ^ lo * (2 ^ len * (x / (2 ^ lo * 2 ^ len))) = x / (2 ^ lo * 2 ^ len) * (2 ^ lo * 2 ^ len) := by
    rw [← Nat.mul_assoc, Nat.mul_comm]
  rw [h5, Nat.mul_comm (2 ^ lo) (x / 2 ^ lo % 2 ^ len)] at h4
  omega

theorem setBits_eq (x lo len v : Nat) :
    setBits x lo len v = x / 2 ^ (lo + len) * 2 ^ (lo + len) + v % 2 ^ len * 2 ^ lo + x % 2 ^ lo := by
  have h := bits_split x lo len
  unfold setBits
  omega

/-- A field just set reads the value set, modulo its width. -/
theorem bits_setBits_same (x lo len v : Nat) : bits (setBits x lo len v) lo len = v % 2 ^ len := by
  rw [setBits_eq]
  have h0 := Nat.mod_lt x (Nat.two_pow_pos lo)
  have e : x / 2 ^ (lo + len) * 2 ^ (lo + len) + v % 2 ^ len * 2 ^ lo + x % 2 ^ lo
      = x % 2 ^ lo + 2 ^ lo * (v % 2 ^ len + 2 ^ len * (x / 2 ^ (lo + len))) := by
    rw [Nat.pow_add]; simp only [Nat.mul_add, Nat.mul_assoc, Nat.mul_comm, Nat.mul_left_comm]; omega
  unfold bits
  rw [e, Nat.add_mul_div_left _ _ (Nat.two_pow_pos lo), Nat.div_eq_of_lt h0, Nat.zero_add, Nat.add_mul_mod_self_left,
    Nat.mod_mod]

/-- A field below one just set is unchanged. -/
theorem bits_setBits_below (x lo len v lo2 len2 : Nat) (h : lo2 + len2 ≤ lo) :
    bits (setBits x lo len v) lo2 len2 = bits x lo2 len2 := by
  obtain ⟨d, rfl⟩ := Nat.exists_eq_add_of_le h
  have hx := bits_split x (lo2 + len2 + d) len
  rw [setBits_eq]
  have low : ∀ A B : Nat, bits (A * 2 ^ (lo2 + len2 + d + len) + B * 2 ^ (lo2 + len2 + d) + x % 2 ^ (lo2 + len2 + d)) lo2 len2
      = bits (x % 2 ^ (lo2 + len2 + d)) lo2 len2 := by
    intro A B
    have e : A * 2 ^ (lo2 + len2 + d + len) + B * 2 ^ (lo2 + len2 + d) + x % 2 ^ (lo2 + len2 + d)
        = x % 2 ^ (lo2 + len2 + d) + 2 ^ lo2 * (2 ^ len2 * (2 ^ d * (A * 2 ^ len + B))) := by
      generalize x % 2 ^ (lo2 + len2 + d) = r
      simp only [Nat.pow_add, Nat.mul_add, Nat.add_mul, Nat.mul_assoc, Nat.mul_comm, Nat.mul_left_comm]; omega
    unfold bits
    rw [e, Nat.add_mul_div_left _ _ (Nat.two_pow_pos lo2), Nat.add_mul_mod_self_left]
  rw [low]
  conv => rhs; rw [hx]
  exact (low _ _).symm

/-- A field above one just set is unchanged. -/
theorem bits_setBits_above (x lo len v lo2 len2 : Nat) (h : lo + len ≤ lo2) :
    bits (setBits x lo len v) lo2 len2 = bits x lo2 len2 := by
  obtain ⟨d, rfl⟩ := Nat.exists_eq_add_of_le h
  have hx := bits_split x lo len
  have h0 := Nat.mod_lt x (Nat.two_pow_pos lo)
  have hb := bits_lt x lo len
  have hv := Nat.mod_lt v (Nat.two_pow_pos len)
  have high : ∀ B, B < 2 ^ len → (x / 2 ^ (lo + len) * 2 ^ (lo + len) + B * 2 ^ lo + x % 2 ^ lo) / 2 ^ (lo + len)
      = x / 2 ^ (lo + len) := by
    intro B hB
    have : B * 2 ^ lo + x % 2 ^ lo < 2 ^ (lo + len) := by
      have : B * 2 ^ lo + 2 ^ lo ≤ 2 ^ len * 2 ^ lo := by
        have := Nat.mul_le_mul_right (2 ^ lo) (Nat.succ_le_of_lt hB); rw [Nat.succ_mul] at this; exact this
      rw [Nat.pow_add, Nat.mul_comm (2 ^ lo) (2 ^ len)]; omega
    rw [Nat.add_assoc, Nat.add_comm, Nat.add_mul_div_right _ _ (Nat.two_pow_pos _), Nat.div_eq_of_lt this, Nat.zero_add]
  unfold bits
  rw [setBits_eq, Nat.pow_add 2 (lo + len) d, ← Nat.div_div_eq_div_mul, ← Nat.div_div_eq_div_mul, high _ hv]

/-! ### Tenants and functions -/

@[simp] theorem State.ten_setTen (s : State) (i j : Nat) (t : Tenant) :
    (s.setTen i t).ten j = if j = i then some t else s.ten j := by simp [State.ten, State.setTen, mget_mput]

theorem State.ten_updTen_same (s : State) (i : Nat) (f : Tenant → Tenant) : (s.updTen i f).ten i = (s.ten i).map f := by
  simp [State.ten, State.updTen, mget_mupd_same]

theorem State.ten_updTen_ne (s : State) {i j : Nat} (f : Tenant → Tenant) (h : j ≠ i) : (s.updTen i f).ten j = s.ten j := by
  simp [State.ten, State.updTen, mget_mupd_ne _ _ h]

@[simp] theorem State.fn_updFn (s : State) (i j : Nat) (g : Fn → Fn) :
    (s.updFn i g).fn j = if j = i then g (s.fn i) else s.fn j := by
  simp only [State.fn, State.updFn, mgetD, mget_mput]; split <;> simp

/-! ### What `put` leaves alone -/

@[simp] theorem State.put_pending (s : State) (a : Nat) (v : DWord) : (s.put a v).pending = s.pending := rfl
@[simp] theorem State.put_staged (s : State) (a : Nat) (v : DWord) : (s.put a v).staged = s.staged := rfl
@[simp] theorem State.put_inflight (s : State) (a : Nat) (v : DWord) : (s.put a v).inflight = s.inflight := rfl
@[simp] theorem State.put_nvOld (s : State) (a : Nat) (v : DWord) : (s.put a v).nvOld = s.nvOld := rfl
@[simp] theorem State.put_latches (s : State) (a : Nat) (v : DWord) : (s.put a v).latches = s.latches := rfl
@[simp] theorem State.put_tb (s : State) (a : Nat) (v : DWord) : (s.put a v).tb = s.tb := rfl
@[simp] theorem State.put_free (s : State) (a : Nat) (v : DWord) : (s.put a v).free = s.free := rfl
@[simp] theorem State.put_out (s : State) (a : Nat) (v : DWord) : (s.put a v).out = s.out := rfl
@[simp] theorem State.put_log (s : State) (a : Nat) (v : DWord) : (s.put a v).log = s.log := rfl
@[simp] theorem State.put_trace (s : State) (a : Nat) (v : DWord) : (s.put a v).trace = s.trace := rfl
@[simp] theorem State.put_hif (s : State) (a : Nat) (v : DWord) : (s.put a v).hif = s.hif := rfl
@[simp] theorem State.put_fw (s : State) (a : Nat) (v : DWord) : (s.put a v).fw = s.fw := rfl
@[simp] theorem State.put_rst (s : State) (a : Nat) (v : DWord) : (s.put a v).rst = s.rst := rfl
@[simp] theorem State.put_adm (s : State) (a : Nat) (v : DWord) : (s.put a v).adm = s.adm := rfl
@[simp] theorem State.put_fns (s : State) (a : Nat) (v : DWord) : (s.put a v).fns = s.fns := rfl
@[simp] theorem State.put_moves (s : State) (a : Nat) (v : DWord) : (s.put a v).moves = s.moves := rfl
@[simp] theorem State.put_nextId (s : State) (a : Nat) (v : DWord) : (s.put a v).nextId = s.nextId := rfl
@[simp] theorem State.put_flights (s : State) (a : Nat) (v : DWord) : (s.put a v).flights = s.flights := rfl
@[simp] theorem State.put_reads (s : State) (a : Nat) (v : DWord) : (s.put a v).reads = s.reads := rfl
@[simp] theorem State.put_progs (s : State) (a : Nat) (v : DWord) : (s.put a v).progs = s.progs := rfl
@[simp] theorem State.put_pfx (s : State) (a : Nat) (v : DWord) : (s.put a v).pfx = s.pfx := rfl
@[simp] theorem State.put_sch (s : State) (a : Nat) (v : DWord) : (s.put a v).sch = s.sch := rfl
@[simp] theorem State.put_bar2 (s : State) (a : Nat) (v : DWord) : (s.put a v).bar2 = s.bar2 := rfl
@[simp] theorem State.put_lender (s : State) (a : Nat) (v : DWord) : (s.put a v).lender = s.lender := rfl
@[simp] theorem State.put_fwDown (s : State) (a : Nat) (v : DWord) : (s.put a v).fwDown = s.fwDown := rfl
@[simp] theorem State.put_flt (s : State) (a : Nat) (v : DWord) : (s.put a v).flt = s.flt := rfl
@[simp] theorem State.put_withheld (s : State) (a : Nat) (v : DWord) : (s.put a v).withheld = s.withheld := rfl
@[simp] theorem State.put_tileFails (s : State) (a : Nat) (v : DWord) : (s.put a v).tileFails = s.tileFails := rfl
@[simp] theorem State.put_clus (s : State) (a : Nat) (v : DWord) : (s.put a v).clus = s.clus := rfl
@[simp] theorem State.put_launches (s : State) (a : Nat) (v : DWord) : (s.put a v).launches = s.launches := rfl
@[simp] theorem State.put_nextLaunch (s : State) (a : Nat) (v : DWord) : (s.put a v).nextLaunch = s.nextLaunch := rfl
@[simp] theorem State.put_fab (s : State) (a : Nat) (v : DWord) : (s.put a v).fab = s.fab := rfl
@[simp] theorem State.put_ports (s : State) (a : Nat) (v : DWord) : (s.put a v).ports = s.ports := rfl
@[simp] theorem State.put_groups (s : State) (a : Nat) (v : DWord) : (s.put a v).groups = s.groups := rfl
@[simp] theorem State.put_lnk (s : State) (a : Nat) (v : DWord) : (s.put a v).lnk = s.lnk := rfl
@[simp] theorem State.put_hie (s : State) (a : Nat) (v : DWord) : (s.put a v).hie = s.hie := rfl
@[simp] theorem State.put_nrg (s : State) (a : Nat) (v : DWord) : (s.put a v).nrg = s.nrg := rfl
@[simp] theorem State.put_adc (s : State) (a : Nat) (v : DWord) : (s.put a v).adc = s.adc := rfl
@[simp] theorem State.put_dec (s : State) (a : Nat) (v : DWord) : (s.put a v).dec = s.dec := rfl
@[simp] theorem State.put_mtr (s : State) (a : Nat) (v : DWord) : (s.put a v).mtr = s.mtr := rfl
@[simp] theorem State.put_pnl (s : State) (a : Nat) (v : DWord) : (s.put a v).pnl = s.pnl := rfl
@[simp] theorem State.put_hld (s : State) (a : Nat) (v : DWord) : (s.put a v).hld = s.hld := rfl
@[simp] theorem State.put_sb (s : State) (a : Nat) (v : DWord) : (s.put a v).sb = s.sb := rfl
@[simp] theorem State.put_tap (s : State) (a : Nat) (v : DWord) : (s.put a v).tap = s.tap := rfl

/-! ### What `putN` leaves alone -/

@[simp] theorem State.putN_pending (s : State) (a n : Nat) : (s.putN a n).pending = s.pending := rfl
@[simp] theorem State.putN_staged (s : State) (a n : Nat) : (s.putN a n).staged = s.staged := rfl
@[simp] theorem State.putN_inflight (s : State) (a n : Nat) : (s.putN a n).inflight = s.inflight := rfl
@[simp] theorem State.putN_nvOld (s : State) (a n : Nat) : (s.putN a n).nvOld = s.nvOld := rfl
@[simp] theorem State.putN_latches (s : State) (a n : Nat) : (s.putN a n).latches = s.latches := rfl
@[simp] theorem State.putN_tb (s : State) (a n : Nat) : (s.putN a n).tb = s.tb := rfl
@[simp] theorem State.putN_free (s : State) (a n : Nat) : (s.putN a n).free = s.free := rfl
@[simp] theorem State.putN_out (s : State) (a n : Nat) : (s.putN a n).out = s.out := rfl
@[simp] theorem State.putN_log (s : State) (a n : Nat) : (s.putN a n).log = s.log := rfl
@[simp] theorem State.putN_trace (s : State) (a n : Nat) : (s.putN a n).trace = s.trace := rfl
@[simp] theorem State.putN_hif (s : State) (a n : Nat) : (s.putN a n).hif = s.hif := rfl
@[simp] theorem State.putN_fw (s : State) (a n : Nat) : (s.putN a n).fw = s.fw := rfl
@[simp] theorem State.putN_rst (s : State) (a n : Nat) : (s.putN a n).rst = s.rst := rfl
@[simp] theorem State.putN_adm (s : State) (a n : Nat) : (s.putN a n).adm = s.adm := rfl
@[simp] theorem State.putN_fns (s : State) (a n : Nat) : (s.putN a n).fns = s.fns := rfl
@[simp] theorem State.putN_moves (s : State) (a n : Nat) : (s.putN a n).moves = s.moves := rfl
@[simp] theorem State.putN_nextId (s : State) (a n : Nat) : (s.putN a n).nextId = s.nextId := rfl
@[simp] theorem State.putN_flights (s : State) (a n : Nat) : (s.putN a n).flights = s.flights := rfl
@[simp] theorem State.putN_reads (s : State) (a n : Nat) : (s.putN a n).reads = s.reads := rfl
@[simp] theorem State.putN_progs (s : State) (a n : Nat) : (s.putN a n).progs = s.progs := rfl
@[simp] theorem State.putN_pfx (s : State) (a n : Nat) : (s.putN a n).pfx = s.pfx := rfl
@[simp] theorem State.putN_sch (s : State) (a n : Nat) : (s.putN a n).sch = s.sch := rfl
@[simp] theorem State.putN_bar2 (s : State) (a n : Nat) : (s.putN a n).bar2 = s.bar2 := rfl
@[simp] theorem State.putN_lender (s : State) (a n : Nat) : (s.putN a n).lender = s.lender := rfl
@[simp] theorem State.putN_fwDown (s : State) (a n : Nat) : (s.putN a n).fwDown = s.fwDown := rfl
@[simp] theorem State.putN_flt (s : State) (a n : Nat) : (s.putN a n).flt = s.flt := rfl
@[simp] theorem State.putN_withheld (s : State) (a n : Nat) : (s.putN a n).withheld = s.withheld := rfl
@[simp] theorem State.putN_tileFails (s : State) (a n : Nat) : (s.putN a n).tileFails = s.tileFails := rfl
@[simp] theorem State.putN_clus (s : State) (a n : Nat) : (s.putN a n).clus = s.clus := rfl
@[simp] theorem State.putN_launches (s : State) (a n : Nat) : (s.putN a n).launches = s.launches := rfl
@[simp] theorem State.putN_nextLaunch (s : State) (a n : Nat) : (s.putN a n).nextLaunch = s.nextLaunch := rfl
@[simp] theorem State.putN_fab (s : State) (a n : Nat) : (s.putN a n).fab = s.fab := rfl
@[simp] theorem State.putN_ports (s : State) (a n : Nat) : (s.putN a n).ports = s.ports := rfl
@[simp] theorem State.putN_groups (s : State) (a n : Nat) : (s.putN a n).groups = s.groups := rfl
@[simp] theorem State.putN_lnk (s : State) (a n : Nat) : (s.putN a n).lnk = s.lnk := rfl
@[simp] theorem State.putN_hie (s : State) (a n : Nat) : (s.putN a n).hie = s.hie := rfl
@[simp] theorem State.putN_nrg (s : State) (a n : Nat) : (s.putN a n).nrg = s.nrg := rfl
@[simp] theorem State.putN_adc (s : State) (a n : Nat) : (s.putN a n).adc = s.adc := rfl
@[simp] theorem State.putN_dec (s : State) (a n : Nat) : (s.putN a n).dec = s.dec := rfl
@[simp] theorem State.putN_mtr (s : State) (a n : Nat) : (s.putN a n).mtr = s.mtr := rfl
@[simp] theorem State.putN_pnl (s : State) (a n : Nat) : (s.putN a n).pnl = s.pnl := rfl
@[simp] theorem State.putN_hld (s : State) (a n : Nat) : (s.putN a n).hld = s.hld := rfl
@[simp] theorem State.putN_sb (s : State) (a n : Nat) : (s.putN a n).sb = s.sb := rfl
@[simp] theorem State.putN_tap (s : State) (a n : Nat) : (s.putN a n).tap = s.tap := rfl

/-! ### What `bumpBy` leaves alone -/

@[simp] theorem State.bumpBy_pending (s : State) (a n : Nat) : (s.bumpBy a n).pending = s.pending := rfl
@[simp] theorem State.bumpBy_staged (s : State) (a n : Nat) : (s.bumpBy a n).staged = s.staged := rfl
@[simp] theorem State.bumpBy_inflight (s : State) (a n : Nat) : (s.bumpBy a n).inflight = s.inflight := rfl
@[simp] theorem State.bumpBy_nvOld (s : State) (a n : Nat) : (s.bumpBy a n).nvOld = s.nvOld := rfl
@[simp] theorem State.bumpBy_latches (s : State) (a n : Nat) : (s.bumpBy a n).latches = s.latches := rfl
@[simp] theorem State.bumpBy_tb (s : State) (a n : Nat) : (s.bumpBy a n).tb = s.tb := rfl
@[simp] theorem State.bumpBy_free (s : State) (a n : Nat) : (s.bumpBy a n).free = s.free := rfl
@[simp] theorem State.bumpBy_out (s : State) (a n : Nat) : (s.bumpBy a n).out = s.out := rfl
@[simp] theorem State.bumpBy_log (s : State) (a n : Nat) : (s.bumpBy a n).log = s.log := rfl
@[simp] theorem State.bumpBy_trace (s : State) (a n : Nat) : (s.bumpBy a n).trace = s.trace := rfl
@[simp] theorem State.bumpBy_hif (s : State) (a n : Nat) : (s.bumpBy a n).hif = s.hif := rfl
@[simp] theorem State.bumpBy_fw (s : State) (a n : Nat) : (s.bumpBy a n).fw = s.fw := rfl
@[simp] theorem State.bumpBy_rst (s : State) (a n : Nat) : (s.bumpBy a n).rst = s.rst := rfl
@[simp] theorem State.bumpBy_adm (s : State) (a n : Nat) : (s.bumpBy a n).adm = s.adm := rfl
@[simp] theorem State.bumpBy_fns (s : State) (a n : Nat) : (s.bumpBy a n).fns = s.fns := rfl
@[simp] theorem State.bumpBy_moves (s : State) (a n : Nat) : (s.bumpBy a n).moves = s.moves := rfl
@[simp] theorem State.bumpBy_nextId (s : State) (a n : Nat) : (s.bumpBy a n).nextId = s.nextId := rfl
@[simp] theorem State.bumpBy_flights (s : State) (a n : Nat) : (s.bumpBy a n).flights = s.flights := rfl
@[simp] theorem State.bumpBy_reads (s : State) (a n : Nat) : (s.bumpBy a n).reads = s.reads := rfl
@[simp] theorem State.bumpBy_progs (s : State) (a n : Nat) : (s.bumpBy a n).progs = s.progs := rfl
@[simp] theorem State.bumpBy_pfx (s : State) (a n : Nat) : (s.bumpBy a n).pfx = s.pfx := rfl
@[simp] theorem State.bumpBy_sch (s : State) (a n : Nat) : (s.bumpBy a n).sch = s.sch := rfl
@[simp] theorem State.bumpBy_bar2 (s : State) (a n : Nat) : (s.bumpBy a n).bar2 = s.bar2 := rfl
@[simp] theorem State.bumpBy_lender (s : State) (a n : Nat) : (s.bumpBy a n).lender = s.lender := rfl
@[simp] theorem State.bumpBy_fwDown (s : State) (a n : Nat) : (s.bumpBy a n).fwDown = s.fwDown := rfl
@[simp] theorem State.bumpBy_flt (s : State) (a n : Nat) : (s.bumpBy a n).flt = s.flt := rfl
@[simp] theorem State.bumpBy_withheld (s : State) (a n : Nat) : (s.bumpBy a n).withheld = s.withheld := rfl
@[simp] theorem State.bumpBy_tileFails (s : State) (a n : Nat) : (s.bumpBy a n).tileFails = s.tileFails := rfl
@[simp] theorem State.bumpBy_clus (s : State) (a n : Nat) : (s.bumpBy a n).clus = s.clus := rfl
@[simp] theorem State.bumpBy_launches (s : State) (a n : Nat) : (s.bumpBy a n).launches = s.launches := rfl
@[simp] theorem State.bumpBy_nextLaunch (s : State) (a n : Nat) : (s.bumpBy a n).nextLaunch = s.nextLaunch := rfl
@[simp] theorem State.bumpBy_fab (s : State) (a n : Nat) : (s.bumpBy a n).fab = s.fab := rfl
@[simp] theorem State.bumpBy_ports (s : State) (a n : Nat) : (s.bumpBy a n).ports = s.ports := rfl
@[simp] theorem State.bumpBy_groups (s : State) (a n : Nat) : (s.bumpBy a n).groups = s.groups := rfl
@[simp] theorem State.bumpBy_lnk (s : State) (a n : Nat) : (s.bumpBy a n).lnk = s.lnk := rfl
@[simp] theorem State.bumpBy_hie (s : State) (a n : Nat) : (s.bumpBy a n).hie = s.hie := rfl
@[simp] theorem State.bumpBy_nrg (s : State) (a n : Nat) : (s.bumpBy a n).nrg = s.nrg := rfl
@[simp] theorem State.bumpBy_adc (s : State) (a n : Nat) : (s.bumpBy a n).adc = s.adc := rfl
@[simp] theorem State.bumpBy_dec (s : State) (a n : Nat) : (s.bumpBy a n).dec = s.dec := rfl
@[simp] theorem State.bumpBy_mtr (s : State) (a n : Nat) : (s.bumpBy a n).mtr = s.mtr := rfl
@[simp] theorem State.bumpBy_pnl (s : State) (a n : Nat) : (s.bumpBy a n).pnl = s.pnl := rfl
@[simp] theorem State.bumpBy_hld (s : State) (a n : Nat) : (s.bumpBy a n).hld = s.hld := rfl
@[simp] theorem State.bumpBy_sb (s : State) (a n : Nat) : (s.bumpBy a n).sb = s.sb := rfl
@[simp] theorem State.bumpBy_tap (s : State) (a n : Nat) : (s.bumpBy a n).tap = s.tap := rfl

/-! ### What `bump` leaves alone -/

@[simp] theorem State.bump_pending (s : State) (a : Nat) : (s.bump a).pending = s.pending := rfl
@[simp] theorem State.bump_staged (s : State) (a : Nat) : (s.bump a).staged = s.staged := rfl
@[simp] theorem State.bump_inflight (s : State) (a : Nat) : (s.bump a).inflight = s.inflight := rfl
@[simp] theorem State.bump_nvOld (s : State) (a : Nat) : (s.bump a).nvOld = s.nvOld := rfl
@[simp] theorem State.bump_latches (s : State) (a : Nat) : (s.bump a).latches = s.latches := rfl
@[simp] theorem State.bump_tb (s : State) (a : Nat) : (s.bump a).tb = s.tb := rfl
@[simp] theorem State.bump_free (s : State) (a : Nat) : (s.bump a).free = s.free := rfl
@[simp] theorem State.bump_out (s : State) (a : Nat) : (s.bump a).out = s.out := rfl
@[simp] theorem State.bump_log (s : State) (a : Nat) : (s.bump a).log = s.log := rfl
@[simp] theorem State.bump_trace (s : State) (a : Nat) : (s.bump a).trace = s.trace := rfl
@[simp] theorem State.bump_hif (s : State) (a : Nat) : (s.bump a).hif = s.hif := rfl
@[simp] theorem State.bump_fw (s : State) (a : Nat) : (s.bump a).fw = s.fw := rfl
@[simp] theorem State.bump_rst (s : State) (a : Nat) : (s.bump a).rst = s.rst := rfl
@[simp] theorem State.bump_adm (s : State) (a : Nat) : (s.bump a).adm = s.adm := rfl
@[simp] theorem State.bump_fns (s : State) (a : Nat) : (s.bump a).fns = s.fns := rfl
@[simp] theorem State.bump_moves (s : State) (a : Nat) : (s.bump a).moves = s.moves := rfl
@[simp] theorem State.bump_nextId (s : State) (a : Nat) : (s.bump a).nextId = s.nextId := rfl
@[simp] theorem State.bump_flights (s : State) (a : Nat) : (s.bump a).flights = s.flights := rfl
@[simp] theorem State.bump_reads (s : State) (a : Nat) : (s.bump a).reads = s.reads := rfl
@[simp] theorem State.bump_progs (s : State) (a : Nat) : (s.bump a).progs = s.progs := rfl
@[simp] theorem State.bump_pfx (s : State) (a : Nat) : (s.bump a).pfx = s.pfx := rfl
@[simp] theorem State.bump_sch (s : State) (a : Nat) : (s.bump a).sch = s.sch := rfl
@[simp] theorem State.bump_bar2 (s : State) (a : Nat) : (s.bump a).bar2 = s.bar2 := rfl
@[simp] theorem State.bump_lender (s : State) (a : Nat) : (s.bump a).lender = s.lender := rfl
@[simp] theorem State.bump_fwDown (s : State) (a : Nat) : (s.bump a).fwDown = s.fwDown := rfl
@[simp] theorem State.bump_flt (s : State) (a : Nat) : (s.bump a).flt = s.flt := rfl
@[simp] theorem State.bump_withheld (s : State) (a : Nat) : (s.bump a).withheld = s.withheld := rfl
@[simp] theorem State.bump_tileFails (s : State) (a : Nat) : (s.bump a).tileFails = s.tileFails := rfl
@[simp] theorem State.bump_clus (s : State) (a : Nat) : (s.bump a).clus = s.clus := rfl
@[simp] theorem State.bump_launches (s : State) (a : Nat) : (s.bump a).launches = s.launches := rfl
@[simp] theorem State.bump_nextLaunch (s : State) (a : Nat) : (s.bump a).nextLaunch = s.nextLaunch := rfl
@[simp] theorem State.bump_fab (s : State) (a : Nat) : (s.bump a).fab = s.fab := rfl
@[simp] theorem State.bump_ports (s : State) (a : Nat) : (s.bump a).ports = s.ports := rfl
@[simp] theorem State.bump_groups (s : State) (a : Nat) : (s.bump a).groups = s.groups := rfl
@[simp] theorem State.bump_lnk (s : State) (a : Nat) : (s.bump a).lnk = s.lnk := rfl
@[simp] theorem State.bump_hie (s : State) (a : Nat) : (s.bump a).hie = s.hie := rfl
@[simp] theorem State.bump_nrg (s : State) (a : Nat) : (s.bump a).nrg = s.nrg := rfl
@[simp] theorem State.bump_adc (s : State) (a : Nat) : (s.bump a).adc = s.adc := rfl
@[simp] theorem State.bump_dec (s : State) (a : Nat) : (s.bump a).dec = s.dec := rfl
@[simp] theorem State.bump_mtr (s : State) (a : Nat) : (s.bump a).mtr = s.mtr := rfl
@[simp] theorem State.bump_pnl (s : State) (a : Nat) : (s.bump a).pnl = s.pnl := rfl
@[simp] theorem State.bump_hld (s : State) (a : Nat) : (s.bump a).hld = s.hld := rfl
@[simp] theorem State.bump_sb (s : State) (a : Nat) : (s.bump a).sb = s.sb := rfl
@[simp] theorem State.bump_tap (s : State) (a : Nat) : (s.bump a).tap = s.tap := rfl

/-! ### What `bump32` leaves alone -/

@[simp] theorem State.bump32_pending (s : State) (a : Nat) : (s.bump32 a).pending = s.pending := rfl
@[simp] theorem State.bump32_staged (s : State) (a : Nat) : (s.bump32 a).staged = s.staged := rfl
@[simp] theorem State.bump32_inflight (s : State) (a : Nat) : (s.bump32 a).inflight = s.inflight := rfl
@[simp] theorem State.bump32_nvOld (s : State) (a : Nat) : (s.bump32 a).nvOld = s.nvOld := rfl
@[simp] theorem State.bump32_latches (s : State) (a : Nat) : (s.bump32 a).latches = s.latches := rfl
@[simp] theorem State.bump32_tb (s : State) (a : Nat) : (s.bump32 a).tb = s.tb := rfl
@[simp] theorem State.bump32_free (s : State) (a : Nat) : (s.bump32 a).free = s.free := rfl
@[simp] theorem State.bump32_out (s : State) (a : Nat) : (s.bump32 a).out = s.out := rfl
@[simp] theorem State.bump32_log (s : State) (a : Nat) : (s.bump32 a).log = s.log := rfl
@[simp] theorem State.bump32_trace (s : State) (a : Nat) : (s.bump32 a).trace = s.trace := rfl
@[simp] theorem State.bump32_hif (s : State) (a : Nat) : (s.bump32 a).hif = s.hif := rfl
@[simp] theorem State.bump32_fw (s : State) (a : Nat) : (s.bump32 a).fw = s.fw := rfl
@[simp] theorem State.bump32_rst (s : State) (a : Nat) : (s.bump32 a).rst = s.rst := rfl
@[simp] theorem State.bump32_adm (s : State) (a : Nat) : (s.bump32 a).adm = s.adm := rfl
@[simp] theorem State.bump32_fns (s : State) (a : Nat) : (s.bump32 a).fns = s.fns := rfl
@[simp] theorem State.bump32_moves (s : State) (a : Nat) : (s.bump32 a).moves = s.moves := rfl
@[simp] theorem State.bump32_nextId (s : State) (a : Nat) : (s.bump32 a).nextId = s.nextId := rfl
@[simp] theorem State.bump32_flights (s : State) (a : Nat) : (s.bump32 a).flights = s.flights := rfl
@[simp] theorem State.bump32_reads (s : State) (a : Nat) : (s.bump32 a).reads = s.reads := rfl
@[simp] theorem State.bump32_progs (s : State) (a : Nat) : (s.bump32 a).progs = s.progs := rfl
@[simp] theorem State.bump32_pfx (s : State) (a : Nat) : (s.bump32 a).pfx = s.pfx := rfl
@[simp] theorem State.bump32_sch (s : State) (a : Nat) : (s.bump32 a).sch = s.sch := rfl
@[simp] theorem State.bump32_bar2 (s : State) (a : Nat) : (s.bump32 a).bar2 = s.bar2 := rfl
@[simp] theorem State.bump32_lender (s : State) (a : Nat) : (s.bump32 a).lender = s.lender := rfl
@[simp] theorem State.bump32_fwDown (s : State) (a : Nat) : (s.bump32 a).fwDown = s.fwDown := rfl
@[simp] theorem State.bump32_flt (s : State) (a : Nat) : (s.bump32 a).flt = s.flt := rfl
@[simp] theorem State.bump32_withheld (s : State) (a : Nat) : (s.bump32 a).withheld = s.withheld := rfl
@[simp] theorem State.bump32_tileFails (s : State) (a : Nat) : (s.bump32 a).tileFails = s.tileFails := rfl
@[simp] theorem State.bump32_clus (s : State) (a : Nat) : (s.bump32 a).clus = s.clus := rfl
@[simp] theorem State.bump32_launches (s : State) (a : Nat) : (s.bump32 a).launches = s.launches := rfl
@[simp] theorem State.bump32_nextLaunch (s : State) (a : Nat) : (s.bump32 a).nextLaunch = s.nextLaunch := rfl
@[simp] theorem State.bump32_fab (s : State) (a : Nat) : (s.bump32 a).fab = s.fab := rfl
@[simp] theorem State.bump32_ports (s : State) (a : Nat) : (s.bump32 a).ports = s.ports := rfl
@[simp] theorem State.bump32_groups (s : State) (a : Nat) : (s.bump32 a).groups = s.groups := rfl
@[simp] theorem State.bump32_lnk (s : State) (a : Nat) : (s.bump32 a).lnk = s.lnk := rfl
@[simp] theorem State.bump32_hie (s : State) (a : Nat) : (s.bump32 a).hie = s.hie := rfl
@[simp] theorem State.bump32_nrg (s : State) (a : Nat) : (s.bump32 a).nrg = s.nrg := rfl
@[simp] theorem State.bump32_adc (s : State) (a : Nat) : (s.bump32 a).adc = s.adc := rfl
@[simp] theorem State.bump32_dec (s : State) (a : Nat) : (s.bump32 a).dec = s.dec := rfl
@[simp] theorem State.bump32_mtr (s : State) (a : Nat) : (s.bump32 a).mtr = s.mtr := rfl
@[simp] theorem State.bump32_pnl (s : State) (a : Nat) : (s.bump32 a).pnl = s.pnl := rfl
@[simp] theorem State.bump32_hld (s : State) (a : Nat) : (s.bump32 a).hld = s.hld := rfl
@[simp] theorem State.bump32_sb (s : State) (a : Nat) : (s.bump32 a).sb = s.sb := rfl
@[simp] theorem State.bump32_tap (s : State) (a : Nat) : (s.bump32 a).tap = s.tap := rfl

/-! ### What `setFld` leaves alone -/

@[simp] theorem State.setFld_pending (s : State) (a lo len v : Nat) : (s.setFld a lo len v).pending = s.pending := rfl
@[simp] theorem State.setFld_staged (s : State) (a lo len v : Nat) : (s.setFld a lo len v).staged = s.staged := rfl
@[simp] theorem State.setFld_inflight (s : State) (a lo len v : Nat) : (s.setFld a lo len v).inflight = s.inflight := rfl
@[simp] theorem State.setFld_nvOld (s : State) (a lo len v : Nat) : (s.setFld a lo len v).nvOld = s.nvOld := rfl
@[simp] theorem State.setFld_latches (s : State) (a lo len v : Nat) : (s.setFld a lo len v).latches = s.latches := rfl
@[simp] theorem State.setFld_tb (s : State) (a lo len v : Nat) : (s.setFld a lo len v).tb = s.tb := rfl
@[simp] theorem State.setFld_free (s : State) (a lo len v : Nat) : (s.setFld a lo len v).free = s.free := rfl
@[simp] theorem State.setFld_out (s : State) (a lo len v : Nat) : (s.setFld a lo len v).out = s.out := rfl
@[simp] theorem State.setFld_log (s : State) (a lo len v : Nat) : (s.setFld a lo len v).log = s.log := rfl
@[simp] theorem State.setFld_trace (s : State) (a lo len v : Nat) : (s.setFld a lo len v).trace = s.trace := rfl
@[simp] theorem State.setFld_hif (s : State) (a lo len v : Nat) : (s.setFld a lo len v).hif = s.hif := rfl
@[simp] theorem State.setFld_fw (s : State) (a lo len v : Nat) : (s.setFld a lo len v).fw = s.fw := rfl
@[simp] theorem State.setFld_rst (s : State) (a lo len v : Nat) : (s.setFld a lo len v).rst = s.rst := rfl
@[simp] theorem State.setFld_adm (s : State) (a lo len v : Nat) : (s.setFld a lo len v).adm = s.adm := rfl
@[simp] theorem State.setFld_fns (s : State) (a lo len v : Nat) : (s.setFld a lo len v).fns = s.fns := rfl
@[simp] theorem State.setFld_moves (s : State) (a lo len v : Nat) : (s.setFld a lo len v).moves = s.moves := rfl
@[simp] theorem State.setFld_nextId (s : State) (a lo len v : Nat) : (s.setFld a lo len v).nextId = s.nextId := rfl
@[simp] theorem State.setFld_flights (s : State) (a lo len v : Nat) : (s.setFld a lo len v).flights = s.flights := rfl
@[simp] theorem State.setFld_reads (s : State) (a lo len v : Nat) : (s.setFld a lo len v).reads = s.reads := rfl
@[simp] theorem State.setFld_progs (s : State) (a lo len v : Nat) : (s.setFld a lo len v).progs = s.progs := rfl
@[simp] theorem State.setFld_pfx (s : State) (a lo len v : Nat) : (s.setFld a lo len v).pfx = s.pfx := rfl
@[simp] theorem State.setFld_sch (s : State) (a lo len v : Nat) : (s.setFld a lo len v).sch = s.sch := rfl
@[simp] theorem State.setFld_bar2 (s : State) (a lo len v : Nat) : (s.setFld a lo len v).bar2 = s.bar2 := rfl
@[simp] theorem State.setFld_lender (s : State) (a lo len v : Nat) : (s.setFld a lo len v).lender = s.lender := rfl
@[simp] theorem State.setFld_fwDown (s : State) (a lo len v : Nat) : (s.setFld a lo len v).fwDown = s.fwDown := rfl
@[simp] theorem State.setFld_flt (s : State) (a lo len v : Nat) : (s.setFld a lo len v).flt = s.flt := rfl
@[simp] theorem State.setFld_withheld (s : State) (a lo len v : Nat) : (s.setFld a lo len v).withheld = s.withheld := rfl
@[simp] theorem State.setFld_tileFails (s : State) (a lo len v : Nat) : (s.setFld a lo len v).tileFails = s.tileFails := rfl
@[simp] theorem State.setFld_clus (s : State) (a lo len v : Nat) : (s.setFld a lo len v).clus = s.clus := rfl
@[simp] theorem State.setFld_launches (s : State) (a lo len v : Nat) : (s.setFld a lo len v).launches = s.launches := rfl
@[simp] theorem State.setFld_nextLaunch (s : State) (a lo len v : Nat) : (s.setFld a lo len v).nextLaunch = s.nextLaunch := rfl
@[simp] theorem State.setFld_fab (s : State) (a lo len v : Nat) : (s.setFld a lo len v).fab = s.fab := rfl
@[simp] theorem State.setFld_ports (s : State) (a lo len v : Nat) : (s.setFld a lo len v).ports = s.ports := rfl
@[simp] theorem State.setFld_groups (s : State) (a lo len v : Nat) : (s.setFld a lo len v).groups = s.groups := rfl
@[simp] theorem State.setFld_lnk (s : State) (a lo len v : Nat) : (s.setFld a lo len v).lnk = s.lnk := rfl
@[simp] theorem State.setFld_hie (s : State) (a lo len v : Nat) : (s.setFld a lo len v).hie = s.hie := rfl
@[simp] theorem State.setFld_nrg (s : State) (a lo len v : Nat) : (s.setFld a lo len v).nrg = s.nrg := rfl
@[simp] theorem State.setFld_adc (s : State) (a lo len v : Nat) : (s.setFld a lo len v).adc = s.adc := rfl
@[simp] theorem State.setFld_dec (s : State) (a lo len v : Nat) : (s.setFld a lo len v).dec = s.dec := rfl
@[simp] theorem State.setFld_mtr (s : State) (a lo len v : Nat) : (s.setFld a lo len v).mtr = s.mtr := rfl
@[simp] theorem State.setFld_pnl (s : State) (a lo len v : Nat) : (s.setFld a lo len v).pnl = s.pnl := rfl
@[simp] theorem State.setFld_hld (s : State) (a lo len v : Nat) : (s.setFld a lo len v).hld = s.hld := rfl
@[simp] theorem State.setFld_sb (s : State) (a lo len v : Nat) : (s.setFld a lo len v).sb = s.sb := rfl
@[simp] theorem State.setFld_tap (s : State) (a lo len v : Nat) : (s.setFld a lo len v).tap = s.tap := rfl

/-! ### What `setBit` leaves alone -/

@[simp] theorem State.setBit_pending (s : State) (a i : Nat) (b : Bool) : (s.setBit a i b).pending = s.pending := rfl
@[simp] theorem State.setBit_staged (s : State) (a i : Nat) (b : Bool) : (s.setBit a i b).staged = s.staged := rfl
@[simp] theorem State.setBit_inflight (s : State) (a i : Nat) (b : Bool) : (s.setBit a i b).inflight = s.inflight := rfl
@[simp] theorem State.setBit_nvOld (s : State) (a i : Nat) (b : Bool) : (s.setBit a i b).nvOld = s.nvOld := rfl
@[simp] theorem State.setBit_latches (s : State) (a i : Nat) (b : Bool) : (s.setBit a i b).latches = s.latches := rfl
@[simp] theorem State.setBit_tb (s : State) (a i : Nat) (b : Bool) : (s.setBit a i b).tb = s.tb := rfl
@[simp] theorem State.setBit_free (s : State) (a i : Nat) (b : Bool) : (s.setBit a i b).free = s.free := rfl
@[simp] theorem State.setBit_out (s : State) (a i : Nat) (b : Bool) : (s.setBit a i b).out = s.out := rfl
@[simp] theorem State.setBit_log (s : State) (a i : Nat) (b : Bool) : (s.setBit a i b).log = s.log := rfl
@[simp] theorem State.setBit_trace (s : State) (a i : Nat) (b : Bool) : (s.setBit a i b).trace = s.trace := rfl
@[simp] theorem State.setBit_hif (s : State) (a i : Nat) (b : Bool) : (s.setBit a i b).hif = s.hif := rfl
@[simp] theorem State.setBit_fw (s : State) (a i : Nat) (b : Bool) : (s.setBit a i b).fw = s.fw := rfl
@[simp] theorem State.setBit_rst (s : State) (a i : Nat) (b : Bool) : (s.setBit a i b).rst = s.rst := rfl
@[simp] theorem State.setBit_adm (s : State) (a i : Nat) (b : Bool) : (s.setBit a i b).adm = s.adm := rfl
@[simp] theorem State.setBit_fns (s : State) (a i : Nat) (b : Bool) : (s.setBit a i b).fns = s.fns := rfl
@[simp] theorem State.setBit_moves (s : State) (a i : Nat) (b : Bool) : (s.setBit a i b).moves = s.moves := rfl
@[simp] theorem State.setBit_nextId (s : State) (a i : Nat) (b : Bool) : (s.setBit a i b).nextId = s.nextId := rfl
@[simp] theorem State.setBit_flights (s : State) (a i : Nat) (b : Bool) : (s.setBit a i b).flights = s.flights := rfl
@[simp] theorem State.setBit_reads (s : State) (a i : Nat) (b : Bool) : (s.setBit a i b).reads = s.reads := rfl
@[simp] theorem State.setBit_progs (s : State) (a i : Nat) (b : Bool) : (s.setBit a i b).progs = s.progs := rfl
@[simp] theorem State.setBit_pfx (s : State) (a i : Nat) (b : Bool) : (s.setBit a i b).pfx = s.pfx := rfl
@[simp] theorem State.setBit_sch (s : State) (a i : Nat) (b : Bool) : (s.setBit a i b).sch = s.sch := rfl
@[simp] theorem State.setBit_bar2 (s : State) (a i : Nat) (b : Bool) : (s.setBit a i b).bar2 = s.bar2 := rfl
@[simp] theorem State.setBit_lender (s : State) (a i : Nat) (b : Bool) : (s.setBit a i b).lender = s.lender := rfl
@[simp] theorem State.setBit_fwDown (s : State) (a i : Nat) (b : Bool) : (s.setBit a i b).fwDown = s.fwDown := rfl
@[simp] theorem State.setBit_flt (s : State) (a i : Nat) (b : Bool) : (s.setBit a i b).flt = s.flt := rfl
@[simp] theorem State.setBit_withheld (s : State) (a i : Nat) (b : Bool) : (s.setBit a i b).withheld = s.withheld := rfl
@[simp] theorem State.setBit_tileFails (s : State) (a i : Nat) (b : Bool) : (s.setBit a i b).tileFails = s.tileFails := rfl
@[simp] theorem State.setBit_clus (s : State) (a i : Nat) (b : Bool) : (s.setBit a i b).clus = s.clus := rfl
@[simp] theorem State.setBit_launches (s : State) (a i : Nat) (b : Bool) : (s.setBit a i b).launches = s.launches := rfl
@[simp] theorem State.setBit_nextLaunch (s : State) (a i : Nat) (b : Bool) : (s.setBit a i b).nextLaunch = s.nextLaunch := rfl
@[simp] theorem State.setBit_fab (s : State) (a i : Nat) (b : Bool) : (s.setBit a i b).fab = s.fab := rfl
@[simp] theorem State.setBit_ports (s : State) (a i : Nat) (b : Bool) : (s.setBit a i b).ports = s.ports := rfl
@[simp] theorem State.setBit_groups (s : State) (a i : Nat) (b : Bool) : (s.setBit a i b).groups = s.groups := rfl
@[simp] theorem State.setBit_lnk (s : State) (a i : Nat) (b : Bool) : (s.setBit a i b).lnk = s.lnk := rfl
@[simp] theorem State.setBit_hie (s : State) (a i : Nat) (b : Bool) : (s.setBit a i b).hie = s.hie := rfl
@[simp] theorem State.setBit_nrg (s : State) (a i : Nat) (b : Bool) : (s.setBit a i b).nrg = s.nrg := rfl
@[simp] theorem State.setBit_adc (s : State) (a i : Nat) (b : Bool) : (s.setBit a i b).adc = s.adc := rfl
@[simp] theorem State.setBit_dec (s : State) (a i : Nat) (b : Bool) : (s.setBit a i b).dec = s.dec := rfl
@[simp] theorem State.setBit_mtr (s : State) (a i : Nat) (b : Bool) : (s.setBit a i b).mtr = s.mtr := rfl
@[simp] theorem State.setBit_pnl (s : State) (a i : Nat) (b : Bool) : (s.setBit a i b).pnl = s.pnl := rfl
@[simp] theorem State.setBit_hld (s : State) (a i : Nat) (b : Bool) : (s.setBit a i b).hld = s.hld := rfl
@[simp] theorem State.setBit_sb (s : State) (a i : Nat) (b : Bool) : (s.setBit a i b).sb = s.sb := rfl
@[simp] theorem State.setBit_tap (s : State) (a i : Nat) (b : Bool) : (s.setBit a i b).tap = s.tap := rfl

/-! ### What `emit` leaves alone -/

@[simp] theorem State.emit_pending (s : State) (o : Output) : (s.emit o).pending = s.pending := rfl
@[simp] theorem State.emit_regs (s : State) (o : Output) : (s.emit o).regs = s.regs := rfl
@[simp] theorem State.emit_staged (s : State) (o : Output) : (s.emit o).staged = s.staged := rfl
@[simp] theorem State.emit_inflight (s : State) (o : Output) : (s.emit o).inflight = s.inflight := rfl
@[simp] theorem State.emit_nvOld (s : State) (o : Output) : (s.emit o).nvOld = s.nvOld := rfl
@[simp] theorem State.emit_latches (s : State) (o : Output) : (s.emit o).latches = s.latches := rfl
@[simp] theorem State.emit_tb (s : State) (o : Output) : (s.emit o).tb = s.tb := rfl
@[simp] theorem State.emit_free (s : State) (o : Output) : (s.emit o).free = s.free := rfl
@[simp] theorem State.emit_log (s : State) (o : Output) : (s.emit o).log = s.log := rfl
@[simp] theorem State.emit_trace (s : State) (o : Output) : (s.emit o).trace = s.trace := rfl
@[simp] theorem State.emit_hif (s : State) (o : Output) : (s.emit o).hif = s.hif := rfl
@[simp] theorem State.emit_fw (s : State) (o : Output) : (s.emit o).fw = s.fw := rfl
@[simp] theorem State.emit_rst (s : State) (o : Output) : (s.emit o).rst = s.rst := rfl
@[simp] theorem State.emit_adm (s : State) (o : Output) : (s.emit o).adm = s.adm := rfl
@[simp] theorem State.emit_fns (s : State) (o : Output) : (s.emit o).fns = s.fns := rfl
@[simp] theorem State.emit_moves (s : State) (o : Output) : (s.emit o).moves = s.moves := rfl
@[simp] theorem State.emit_nextId (s : State) (o : Output) : (s.emit o).nextId = s.nextId := rfl
@[simp] theorem State.emit_flights (s : State) (o : Output) : (s.emit o).flights = s.flights := rfl
@[simp] theorem State.emit_reads (s : State) (o : Output) : (s.emit o).reads = s.reads := rfl
@[simp] theorem State.emit_progs (s : State) (o : Output) : (s.emit o).progs = s.progs := rfl
@[simp] theorem State.emit_pfx (s : State) (o : Output) : (s.emit o).pfx = s.pfx := rfl
@[simp] theorem State.emit_sch (s : State) (o : Output) : (s.emit o).sch = s.sch := rfl
@[simp] theorem State.emit_bar2 (s : State) (o : Output) : (s.emit o).bar2 = s.bar2 := rfl
@[simp] theorem State.emit_lender (s : State) (o : Output) : (s.emit o).lender = s.lender := rfl
@[simp] theorem State.emit_fwDown (s : State) (o : Output) : (s.emit o).fwDown = s.fwDown := rfl
@[simp] theorem State.emit_flt (s : State) (o : Output) : (s.emit o).flt = s.flt := rfl
@[simp] theorem State.emit_withheld (s : State) (o : Output) : (s.emit o).withheld = s.withheld := rfl
@[simp] theorem State.emit_tileFails (s : State) (o : Output) : (s.emit o).tileFails = s.tileFails := rfl
@[simp] theorem State.emit_clus (s : State) (o : Output) : (s.emit o).clus = s.clus := rfl
@[simp] theorem State.emit_launches (s : State) (o : Output) : (s.emit o).launches = s.launches := rfl
@[simp] theorem State.emit_nextLaunch (s : State) (o : Output) : (s.emit o).nextLaunch = s.nextLaunch := rfl
@[simp] theorem State.emit_fab (s : State) (o : Output) : (s.emit o).fab = s.fab := rfl
@[simp] theorem State.emit_ports (s : State) (o : Output) : (s.emit o).ports = s.ports := rfl
@[simp] theorem State.emit_groups (s : State) (o : Output) : (s.emit o).groups = s.groups := rfl
@[simp] theorem State.emit_lnk (s : State) (o : Output) : (s.emit o).lnk = s.lnk := rfl
@[simp] theorem State.emit_hie (s : State) (o : Output) : (s.emit o).hie = s.hie := rfl
@[simp] theorem State.emit_nrg (s : State) (o : Output) : (s.emit o).nrg = s.nrg := rfl
@[simp] theorem State.emit_adc (s : State) (o : Output) : (s.emit o).adc = s.adc := rfl
@[simp] theorem State.emit_dec (s : State) (o : Output) : (s.emit o).dec = s.dec := rfl
@[simp] theorem State.emit_mtr (s : State) (o : Output) : (s.emit o).mtr = s.mtr := rfl
@[simp] theorem State.emit_pnl (s : State) (o : Output) : (s.emit o).pnl = s.pnl := rfl
@[simp] theorem State.emit_hld (s : State) (o : Output) : (s.emit o).hld = s.hld := rfl
@[simp] theorem State.emit_sb (s : State) (o : Output) : (s.emit o).sb = s.sb := rfl
@[simp] theorem State.emit_tap (s : State) (o : Output) : (s.emit o).tap = s.tap := rfl

/-! ### What `setTen` leaves alone -/

@[simp] theorem State.setTen_pending (s : State) (k : Nat) (t : Tenant) : (s.setTen k t).pending = s.pending := rfl
@[simp] theorem State.setTen_regs (s : State) (k : Nat) (t : Tenant) : (s.setTen k t).regs = s.regs := rfl
@[simp] theorem State.setTen_staged (s : State) (k : Nat) (t : Tenant) : (s.setTen k t).staged = s.staged := rfl
@[simp] theorem State.setTen_inflight (s : State) (k : Nat) (t : Tenant) : (s.setTen k t).inflight = s.inflight := rfl
@[simp] theorem State.setTen_nvOld (s : State) (k : Nat) (t : Tenant) : (s.setTen k t).nvOld = s.nvOld := rfl
@[simp] theorem State.setTen_latches (s : State) (k : Nat) (t : Tenant) : (s.setTen k t).latches = s.latches := rfl
@[simp] theorem State.setTen_tb (s : State) (k : Nat) (t : Tenant) : (s.setTen k t).tb = s.tb := rfl
@[simp] theorem State.setTen_free (s : State) (k : Nat) (t : Tenant) : (s.setTen k t).free = s.free := rfl
@[simp] theorem State.setTen_out (s : State) (k : Nat) (t : Tenant) : (s.setTen k t).out = s.out := rfl
@[simp] theorem State.setTen_log (s : State) (k : Nat) (t : Tenant) : (s.setTen k t).log = s.log := rfl
@[simp] theorem State.setTen_trace (s : State) (k : Nat) (t : Tenant) : (s.setTen k t).trace = s.trace := rfl
@[simp] theorem State.setTen_hif (s : State) (k : Nat) (t : Tenant) : (s.setTen k t).hif = s.hif := rfl
@[simp] theorem State.setTen_fw (s : State) (k : Nat) (t : Tenant) : (s.setTen k t).fw = s.fw := rfl
@[simp] theorem State.setTen_rst (s : State) (k : Nat) (t : Tenant) : (s.setTen k t).rst = s.rst := rfl
@[simp] theorem State.setTen_fns (s : State) (k : Nat) (t : Tenant) : (s.setTen k t).fns = s.fns := rfl
@[simp] theorem State.setTen_moves (s : State) (k : Nat) (t : Tenant) : (s.setTen k t).moves = s.moves := rfl
@[simp] theorem State.setTen_nextId (s : State) (k : Nat) (t : Tenant) : (s.setTen k t).nextId = s.nextId := rfl
@[simp] theorem State.setTen_flights (s : State) (k : Nat) (t : Tenant) : (s.setTen k t).flights = s.flights := rfl
@[simp] theorem State.setTen_reads (s : State) (k : Nat) (t : Tenant) : (s.setTen k t).reads = s.reads := rfl
@[simp] theorem State.setTen_progs (s : State) (k : Nat) (t : Tenant) : (s.setTen k t).progs = s.progs := rfl
@[simp] theorem State.setTen_pfx (s : State) (k : Nat) (t : Tenant) : (s.setTen k t).pfx = s.pfx := rfl
@[simp] theorem State.setTen_sch (s : State) (k : Nat) (t : Tenant) : (s.setTen k t).sch = s.sch := rfl
@[simp] theorem State.setTen_bar2 (s : State) (k : Nat) (t : Tenant) : (s.setTen k t).bar2 = s.bar2 := rfl
@[simp] theorem State.setTen_lender (s : State) (k : Nat) (t : Tenant) : (s.setTen k t).lender = s.lender := rfl
@[simp] theorem State.setTen_fwDown (s : State) (k : Nat) (t : Tenant) : (s.setTen k t).fwDown = s.fwDown := rfl
@[simp] theorem State.setTen_flt (s : State) (k : Nat) (t : Tenant) : (s.setTen k t).flt = s.flt := rfl
@[simp] theorem State.setTen_withheld (s : State) (k : Nat) (t : Tenant) : (s.setTen k t).withheld = s.withheld := rfl
@[simp] theorem State.setTen_tileFails (s : State) (k : Nat) (t : Tenant) : (s.setTen k t).tileFails = s.tileFails := rfl
@[simp] theorem State.setTen_clus (s : State) (k : Nat) (t : Tenant) : (s.setTen k t).clus = s.clus := rfl
@[simp] theorem State.setTen_launches (s : State) (k : Nat) (t : Tenant) : (s.setTen k t).launches = s.launches := rfl
@[simp] theorem State.setTen_nextLaunch (s : State) (k : Nat) (t : Tenant) : (s.setTen k t).nextLaunch = s.nextLaunch := rfl
@[simp] theorem State.setTen_fab (s : State) (k : Nat) (t : Tenant) : (s.setTen k t).fab = s.fab := rfl
@[simp] theorem State.setTen_ports (s : State) (k : Nat) (t : Tenant) : (s.setTen k t).ports = s.ports := rfl
@[simp] theorem State.setTen_groups (s : State) (k : Nat) (t : Tenant) : (s.setTen k t).groups = s.groups := rfl
@[simp] theorem State.setTen_lnk (s : State) (k : Nat) (t : Tenant) : (s.setTen k t).lnk = s.lnk := rfl
@[simp] theorem State.setTen_hie (s : State) (k : Nat) (t : Tenant) : (s.setTen k t).hie = s.hie := rfl
@[simp] theorem State.setTen_nrg (s : State) (k : Nat) (t : Tenant) : (s.setTen k t).nrg = s.nrg := rfl
@[simp] theorem State.setTen_adc (s : State) (k : Nat) (t : Tenant) : (s.setTen k t).adc = s.adc := rfl
@[simp] theorem State.setTen_dec (s : State) (k : Nat) (t : Tenant) : (s.setTen k t).dec = s.dec := rfl
@[simp] theorem State.setTen_mtr (s : State) (k : Nat) (t : Tenant) : (s.setTen k t).mtr = s.mtr := rfl
@[simp] theorem State.setTen_pnl (s : State) (k : Nat) (t : Tenant) : (s.setTen k t).pnl = s.pnl := rfl
@[simp] theorem State.setTen_hld (s : State) (k : Nat) (t : Tenant) : (s.setTen k t).hld = s.hld := rfl
@[simp] theorem State.setTen_sb (s : State) (k : Nat) (t : Tenant) : (s.setTen k t).sb = s.sb := rfl
@[simp] theorem State.setTen_tap (s : State) (k : Nat) (t : Tenant) : (s.setTen k t).tap = s.tap := rfl

/-! ### What `updTen` leaves alone -/

@[simp] theorem State.updTen_pending (s : State) (k : Nat) (f : Tenant → Tenant) : (s.updTen k f).pending = s.pending := rfl
@[simp] theorem State.updTen_regs (s : State) (k : Nat) (f : Tenant → Tenant) : (s.updTen k f).regs = s.regs := rfl
@[simp] theorem State.updTen_staged (s : State) (k : Nat) (f : Tenant → Tenant) : (s.updTen k f).staged = s.staged := rfl
@[simp] theorem State.updTen_inflight (s : State) (k : Nat) (f : Tenant → Tenant) : (s.updTen k f).inflight = s.inflight := rfl
@[simp] theorem State.updTen_nvOld (s : State) (k : Nat) (f : Tenant → Tenant) : (s.updTen k f).nvOld = s.nvOld := rfl
@[simp] theorem State.updTen_latches (s : State) (k : Nat) (f : Tenant → Tenant) : (s.updTen k f).latches = s.latches := rfl
@[simp] theorem State.updTen_tb (s : State) (k : Nat) (f : Tenant → Tenant) : (s.updTen k f).tb = s.tb := rfl
@[simp] theorem State.updTen_free (s : State) (k : Nat) (f : Tenant → Tenant) : (s.updTen k f).free = s.free := rfl
@[simp] theorem State.updTen_out (s : State) (k : Nat) (f : Tenant → Tenant) : (s.updTen k f).out = s.out := rfl
@[simp] theorem State.updTen_log (s : State) (k : Nat) (f : Tenant → Tenant) : (s.updTen k f).log = s.log := rfl
@[simp] theorem State.updTen_trace (s : State) (k : Nat) (f : Tenant → Tenant) : (s.updTen k f).trace = s.trace := rfl
@[simp] theorem State.updTen_hif (s : State) (k : Nat) (f : Tenant → Tenant) : (s.updTen k f).hif = s.hif := rfl
@[simp] theorem State.updTen_fw (s : State) (k : Nat) (f : Tenant → Tenant) : (s.updTen k f).fw = s.fw := rfl
@[simp] theorem State.updTen_rst (s : State) (k : Nat) (f : Tenant → Tenant) : (s.updTen k f).rst = s.rst := rfl
@[simp] theorem State.updTen_fns (s : State) (k : Nat) (f : Tenant → Tenant) : (s.updTen k f).fns = s.fns := rfl
@[simp] theorem State.updTen_moves (s : State) (k : Nat) (f : Tenant → Tenant) : (s.updTen k f).moves = s.moves := rfl
@[simp] theorem State.updTen_nextId (s : State) (k : Nat) (f : Tenant → Tenant) : (s.updTen k f).nextId = s.nextId := rfl
@[simp] theorem State.updTen_flights (s : State) (k : Nat) (f : Tenant → Tenant) : (s.updTen k f).flights = s.flights := rfl
@[simp] theorem State.updTen_reads (s : State) (k : Nat) (f : Tenant → Tenant) : (s.updTen k f).reads = s.reads := rfl
@[simp] theorem State.updTen_progs (s : State) (k : Nat) (f : Tenant → Tenant) : (s.updTen k f).progs = s.progs := rfl
@[simp] theorem State.updTen_pfx (s : State) (k : Nat) (f : Tenant → Tenant) : (s.updTen k f).pfx = s.pfx := rfl
@[simp] theorem State.updTen_sch (s : State) (k : Nat) (f : Tenant → Tenant) : (s.updTen k f).sch = s.sch := rfl
@[simp] theorem State.updTen_bar2 (s : State) (k : Nat) (f : Tenant → Tenant) : (s.updTen k f).bar2 = s.bar2 := rfl
@[simp] theorem State.updTen_lender (s : State) (k : Nat) (f : Tenant → Tenant) : (s.updTen k f).lender = s.lender := rfl
@[simp] theorem State.updTen_fwDown (s : State) (k : Nat) (f : Tenant → Tenant) : (s.updTen k f).fwDown = s.fwDown := rfl
@[simp] theorem State.updTen_flt (s : State) (k : Nat) (f : Tenant → Tenant) : (s.updTen k f).flt = s.flt := rfl
@[simp] theorem State.updTen_withheld (s : State) (k : Nat) (f : Tenant → Tenant) : (s.updTen k f).withheld = s.withheld := rfl
@[simp] theorem State.updTen_tileFails (s : State) (k : Nat) (f : Tenant → Tenant) : (s.updTen k f).tileFails = s.tileFails := rfl
@[simp] theorem State.updTen_clus (s : State) (k : Nat) (f : Tenant → Tenant) : (s.updTen k f).clus = s.clus := rfl
@[simp] theorem State.updTen_launches (s : State) (k : Nat) (f : Tenant → Tenant) : (s.updTen k f).launches = s.launches := rfl
@[simp] theorem State.updTen_nextLaunch (s : State) (k : Nat) (f : Tenant → Tenant) : (s.updTen k f).nextLaunch = s.nextLaunch := rfl
@[simp] theorem State.updTen_fab (s : State) (k : Nat) (f : Tenant → Tenant) : (s.updTen k f).fab = s.fab := rfl
@[simp] theorem State.updTen_ports (s : State) (k : Nat) (f : Tenant → Tenant) : (s.updTen k f).ports = s.ports := rfl
@[simp] theorem State.updTen_groups (s : State) (k : Nat) (f : Tenant → Tenant) : (s.updTen k f).groups = s.groups := rfl
@[simp] theorem State.updTen_lnk (s : State) (k : Nat) (f : Tenant → Tenant) : (s.updTen k f).lnk = s.lnk := rfl
@[simp] theorem State.updTen_hie (s : State) (k : Nat) (f : Tenant → Tenant) : (s.updTen k f).hie = s.hie := rfl
@[simp] theorem State.updTen_nrg (s : State) (k : Nat) (f : Tenant → Tenant) : (s.updTen k f).nrg = s.nrg := rfl
@[simp] theorem State.updTen_adc (s : State) (k : Nat) (f : Tenant → Tenant) : (s.updTen k f).adc = s.adc := rfl
@[simp] theorem State.updTen_dec (s : State) (k : Nat) (f : Tenant → Tenant) : (s.updTen k f).dec = s.dec := rfl
@[simp] theorem State.updTen_mtr (s : State) (k : Nat) (f : Tenant → Tenant) : (s.updTen k f).mtr = s.mtr := rfl
@[simp] theorem State.updTen_pnl (s : State) (k : Nat) (f : Tenant → Tenant) : (s.updTen k f).pnl = s.pnl := rfl
@[simp] theorem State.updTen_hld (s : State) (k : Nat) (f : Tenant → Tenant) : (s.updTen k f).hld = s.hld := rfl
@[simp] theorem State.updTen_sb (s : State) (k : Nat) (f : Tenant → Tenant) : (s.updTen k f).sb = s.sb := rfl
@[simp] theorem State.updTen_tap (s : State) (k : Nat) (f : Tenant → Tenant) : (s.updTen k f).tap = s.tap := rfl

/-! ### What `twPut` leaves alone -/

@[simp] theorem State.twPut_pending (s : State) (k a v : Nat) : (s.twPut k a v).pending = s.pending := rfl
@[simp] theorem State.twPut_regs (s : State) (k a v : Nat) : (s.twPut k a v).regs = s.regs := rfl
@[simp] theorem State.twPut_staged (s : State) (k a v : Nat) : (s.twPut k a v).staged = s.staged := rfl
@[simp] theorem State.twPut_inflight (s : State) (k a v : Nat) : (s.twPut k a v).inflight = s.inflight := rfl
@[simp] theorem State.twPut_nvOld (s : State) (k a v : Nat) : (s.twPut k a v).nvOld = s.nvOld := rfl
@[simp] theorem State.twPut_latches (s : State) (k a v : Nat) : (s.twPut k a v).latches = s.latches := rfl
@[simp] theorem State.twPut_tb (s : State) (k a v : Nat) : (s.twPut k a v).tb = s.tb := rfl
@[simp] theorem State.twPut_free (s : State) (k a v : Nat) : (s.twPut k a v).free = s.free := rfl
@[simp] theorem State.twPut_out (s : State) (k a v : Nat) : (s.twPut k a v).out = s.out := rfl
@[simp] theorem State.twPut_log (s : State) (k a v : Nat) : (s.twPut k a v).log = s.log := rfl
@[simp] theorem State.twPut_trace (s : State) (k a v : Nat) : (s.twPut k a v).trace = s.trace := rfl
@[simp] theorem State.twPut_hif (s : State) (k a v : Nat) : (s.twPut k a v).hif = s.hif := rfl
@[simp] theorem State.twPut_fw (s : State) (k a v : Nat) : (s.twPut k a v).fw = s.fw := rfl
@[simp] theorem State.twPut_rst (s : State) (k a v : Nat) : (s.twPut k a v).rst = s.rst := rfl
@[simp] theorem State.twPut_fns (s : State) (k a v : Nat) : (s.twPut k a v).fns = s.fns := rfl
@[simp] theorem State.twPut_moves (s : State) (k a v : Nat) : (s.twPut k a v).moves = s.moves := rfl
@[simp] theorem State.twPut_nextId (s : State) (k a v : Nat) : (s.twPut k a v).nextId = s.nextId := rfl
@[simp] theorem State.twPut_flights (s : State) (k a v : Nat) : (s.twPut k a v).flights = s.flights := rfl
@[simp] theorem State.twPut_reads (s : State) (k a v : Nat) : (s.twPut k a v).reads = s.reads := rfl
@[simp] theorem State.twPut_progs (s : State) (k a v : Nat) : (s.twPut k a v).progs = s.progs := rfl
@[simp] theorem State.twPut_pfx (s : State) (k a v : Nat) : (s.twPut k a v).pfx = s.pfx := rfl
@[simp] theorem State.twPut_sch (s : State) (k a v : Nat) : (s.twPut k a v).sch = s.sch := rfl
@[simp] theorem State.twPut_bar2 (s : State) (k a v : Nat) : (s.twPut k a v).bar2 = s.bar2 := rfl
@[simp] theorem State.twPut_lender (s : State) (k a v : Nat) : (s.twPut k a v).lender = s.lender := rfl
@[simp] theorem State.twPut_fwDown (s : State) (k a v : Nat) : (s.twPut k a v).fwDown = s.fwDown := rfl
@[simp] theorem State.twPut_flt (s : State) (k a v : Nat) : (s.twPut k a v).flt = s.flt := rfl
@[simp] theorem State.twPut_withheld (s : State) (k a v : Nat) : (s.twPut k a v).withheld = s.withheld := rfl
@[simp] theorem State.twPut_tileFails (s : State) (k a v : Nat) : (s.twPut k a v).tileFails = s.tileFails := rfl
@[simp] theorem State.twPut_clus (s : State) (k a v : Nat) : (s.twPut k a v).clus = s.clus := rfl
@[simp] theorem State.twPut_launches (s : State) (k a v : Nat) : (s.twPut k a v).launches = s.launches := rfl
@[simp] theorem State.twPut_nextLaunch (s : State) (k a v : Nat) : (s.twPut k a v).nextLaunch = s.nextLaunch := rfl
@[simp] theorem State.twPut_fab (s : State) (k a v : Nat) : (s.twPut k a v).fab = s.fab := rfl
@[simp] theorem State.twPut_ports (s : State) (k a v : Nat) : (s.twPut k a v).ports = s.ports := rfl
@[simp] theorem State.twPut_groups (s : State) (k a v : Nat) : (s.twPut k a v).groups = s.groups := rfl
@[simp] theorem State.twPut_lnk (s : State) (k a v : Nat) : (s.twPut k a v).lnk = s.lnk := rfl
@[simp] theorem State.twPut_hie (s : State) (k a v : Nat) : (s.twPut k a v).hie = s.hie := rfl
@[simp] theorem State.twPut_nrg (s : State) (k a v : Nat) : (s.twPut k a v).nrg = s.nrg := rfl
@[simp] theorem State.twPut_adc (s : State) (k a v : Nat) : (s.twPut k a v).adc = s.adc := rfl
@[simp] theorem State.twPut_dec (s : State) (k a v : Nat) : (s.twPut k a v).dec = s.dec := rfl
@[simp] theorem State.twPut_mtr (s : State) (k a v : Nat) : (s.twPut k a v).mtr = s.mtr := rfl
@[simp] theorem State.twPut_pnl (s : State) (k a v : Nat) : (s.twPut k a v).pnl = s.pnl := rfl
@[simp] theorem State.twPut_hld (s : State) (k a v : Nat) : (s.twPut k a v).hld = s.hld := rfl
@[simp] theorem State.twPut_sb (s : State) (k a v : Nat) : (s.twPut k a v).sb = s.sb := rfl
@[simp] theorem State.twPut_tap (s : State) (k a v : Nat) : (s.twPut k a v).tap = s.tap := rfl

/-! ### What `twBump` leaves alone -/

@[simp] theorem State.twBump_pending (s : State) (k a n : Nat) : (s.twBump k a n).pending = s.pending := rfl
@[simp] theorem State.twBump_regs (s : State) (k a n : Nat) : (s.twBump k a n).regs = s.regs := rfl
@[simp] theorem State.twBump_staged (s : State) (k a n : Nat) : (s.twBump k a n).staged = s.staged := rfl
@[simp] theorem State.twBump_inflight (s : State) (k a n : Nat) : (s.twBump k a n).inflight = s.inflight := rfl
@[simp] theorem State.twBump_nvOld (s : State) (k a n : Nat) : (s.twBump k a n).nvOld = s.nvOld := rfl
@[simp] theorem State.twBump_latches (s : State) (k a n : Nat) : (s.twBump k a n).latches = s.latches := rfl
@[simp] theorem State.twBump_tb (s : State) (k a n : Nat) : (s.twBump k a n).tb = s.tb := rfl
@[simp] theorem State.twBump_free (s : State) (k a n : Nat) : (s.twBump k a n).free = s.free := rfl
@[simp] theorem State.twBump_out (s : State) (k a n : Nat) : (s.twBump k a n).out = s.out := rfl
@[simp] theorem State.twBump_log (s : State) (k a n : Nat) : (s.twBump k a n).log = s.log := rfl
@[simp] theorem State.twBump_trace (s : State) (k a n : Nat) : (s.twBump k a n).trace = s.trace := rfl
@[simp] theorem State.twBump_hif (s : State) (k a n : Nat) : (s.twBump k a n).hif = s.hif := rfl
@[simp] theorem State.twBump_fw (s : State) (k a n : Nat) : (s.twBump k a n).fw = s.fw := rfl
@[simp] theorem State.twBump_rst (s : State) (k a n : Nat) : (s.twBump k a n).rst = s.rst := rfl
@[simp] theorem State.twBump_fns (s : State) (k a n : Nat) : (s.twBump k a n).fns = s.fns := rfl
@[simp] theorem State.twBump_moves (s : State) (k a n : Nat) : (s.twBump k a n).moves = s.moves := rfl
@[simp] theorem State.twBump_nextId (s : State) (k a n : Nat) : (s.twBump k a n).nextId = s.nextId := rfl
@[simp] theorem State.twBump_flights (s : State) (k a n : Nat) : (s.twBump k a n).flights = s.flights := rfl
@[simp] theorem State.twBump_reads (s : State) (k a n : Nat) : (s.twBump k a n).reads = s.reads := rfl
@[simp] theorem State.twBump_progs (s : State) (k a n : Nat) : (s.twBump k a n).progs = s.progs := rfl
@[simp] theorem State.twBump_pfx (s : State) (k a n : Nat) : (s.twBump k a n).pfx = s.pfx := rfl
@[simp] theorem State.twBump_sch (s : State) (k a n : Nat) : (s.twBump k a n).sch = s.sch := rfl
@[simp] theorem State.twBump_bar2 (s : State) (k a n : Nat) : (s.twBump k a n).bar2 = s.bar2 := rfl
@[simp] theorem State.twBump_lender (s : State) (k a n : Nat) : (s.twBump k a n).lender = s.lender := rfl
@[simp] theorem State.twBump_fwDown (s : State) (k a n : Nat) : (s.twBump k a n).fwDown = s.fwDown := rfl
@[simp] theorem State.twBump_flt (s : State) (k a n : Nat) : (s.twBump k a n).flt = s.flt := rfl
@[simp] theorem State.twBump_withheld (s : State) (k a n : Nat) : (s.twBump k a n).withheld = s.withheld := rfl
@[simp] theorem State.twBump_tileFails (s : State) (k a n : Nat) : (s.twBump k a n).tileFails = s.tileFails := rfl
@[simp] theorem State.twBump_clus (s : State) (k a n : Nat) : (s.twBump k a n).clus = s.clus := rfl
@[simp] theorem State.twBump_launches (s : State) (k a n : Nat) : (s.twBump k a n).launches = s.launches := rfl
@[simp] theorem State.twBump_nextLaunch (s : State) (k a n : Nat) : (s.twBump k a n).nextLaunch = s.nextLaunch := rfl
@[simp] theorem State.twBump_fab (s : State) (k a n : Nat) : (s.twBump k a n).fab = s.fab := rfl
@[simp] theorem State.twBump_ports (s : State) (k a n : Nat) : (s.twBump k a n).ports = s.ports := rfl
@[simp] theorem State.twBump_groups (s : State) (k a n : Nat) : (s.twBump k a n).groups = s.groups := rfl
@[simp] theorem State.twBump_lnk (s : State) (k a n : Nat) : (s.twBump k a n).lnk = s.lnk := rfl
@[simp] theorem State.twBump_hie (s : State) (k a n : Nat) : (s.twBump k a n).hie = s.hie := rfl
@[simp] theorem State.twBump_nrg (s : State) (k a n : Nat) : (s.twBump k a n).nrg = s.nrg := rfl
@[simp] theorem State.twBump_adc (s : State) (k a n : Nat) : (s.twBump k a n).adc = s.adc := rfl
@[simp] theorem State.twBump_dec (s : State) (k a n : Nat) : (s.twBump k a n).dec = s.dec := rfl
@[simp] theorem State.twBump_mtr (s : State) (k a n : Nat) : (s.twBump k a n).mtr = s.mtr := rfl
@[simp] theorem State.twBump_pnl (s : State) (k a n : Nat) : (s.twBump k a n).pnl = s.pnl := rfl
@[simp] theorem State.twBump_hld (s : State) (k a n : Nat) : (s.twBump k a n).hld = s.hld := rfl
@[simp] theorem State.twBump_sb (s : State) (k a n : Nat) : (s.twBump k a n).sb = s.sb := rfl
@[simp] theorem State.twBump_tap (s : State) (k a n : Nat) : (s.twBump k a n).tap = s.tap := rfl

/-! ### What `updFn` leaves alone -/

@[simp] theorem State.updFn_pending (s : State) (k : Nat) (g : Fn → Fn) : (s.updFn k g).pending = s.pending := rfl
@[simp] theorem State.updFn_regs (s : State) (k : Nat) (g : Fn → Fn) : (s.updFn k g).regs = s.regs := rfl
@[simp] theorem State.updFn_staged (s : State) (k : Nat) (g : Fn → Fn) : (s.updFn k g).staged = s.staged := rfl
@[simp] theorem State.updFn_inflight (s : State) (k : Nat) (g : Fn → Fn) : (s.updFn k g).inflight = s.inflight := rfl
@[simp] theorem State.updFn_nvOld (s : State) (k : Nat) (g : Fn → Fn) : (s.updFn k g).nvOld = s.nvOld := rfl
@[simp] theorem State.updFn_latches (s : State) (k : Nat) (g : Fn → Fn) : (s.updFn k g).latches = s.latches := rfl
@[simp] theorem State.updFn_tb (s : State) (k : Nat) (g : Fn → Fn) : (s.updFn k g).tb = s.tb := rfl
@[simp] theorem State.updFn_free (s : State) (k : Nat) (g : Fn → Fn) : (s.updFn k g).free = s.free := rfl
@[simp] theorem State.updFn_out (s : State) (k : Nat) (g : Fn → Fn) : (s.updFn k g).out = s.out := rfl
@[simp] theorem State.updFn_log (s : State) (k : Nat) (g : Fn → Fn) : (s.updFn k g).log = s.log := rfl
@[simp] theorem State.updFn_trace (s : State) (k : Nat) (g : Fn → Fn) : (s.updFn k g).trace = s.trace := rfl
@[simp] theorem State.updFn_hif (s : State) (k : Nat) (g : Fn → Fn) : (s.updFn k g).hif = s.hif := rfl
@[simp] theorem State.updFn_fw (s : State) (k : Nat) (g : Fn → Fn) : (s.updFn k g).fw = s.fw := rfl
@[simp] theorem State.updFn_rst (s : State) (k : Nat) (g : Fn → Fn) : (s.updFn k g).rst = s.rst := rfl
@[simp] theorem State.updFn_adm (s : State) (k : Nat) (g : Fn → Fn) : (s.updFn k g).adm = s.adm := rfl
@[simp] theorem State.updFn_moves (s : State) (k : Nat) (g : Fn → Fn) : (s.updFn k g).moves = s.moves := rfl
@[simp] theorem State.updFn_nextId (s : State) (k : Nat) (g : Fn → Fn) : (s.updFn k g).nextId = s.nextId := rfl
@[simp] theorem State.updFn_flights (s : State) (k : Nat) (g : Fn → Fn) : (s.updFn k g).flights = s.flights := rfl
@[simp] theorem State.updFn_reads (s : State) (k : Nat) (g : Fn → Fn) : (s.updFn k g).reads = s.reads := rfl
@[simp] theorem State.updFn_progs (s : State) (k : Nat) (g : Fn → Fn) : (s.updFn k g).progs = s.progs := rfl
@[simp] theorem State.updFn_pfx (s : State) (k : Nat) (g : Fn → Fn) : (s.updFn k g).pfx = s.pfx := rfl
@[simp] theorem State.updFn_sch (s : State) (k : Nat) (g : Fn → Fn) : (s.updFn k g).sch = s.sch := rfl
@[simp] theorem State.updFn_bar2 (s : State) (k : Nat) (g : Fn → Fn) : (s.updFn k g).bar2 = s.bar2 := rfl
@[simp] theorem State.updFn_lender (s : State) (k : Nat) (g : Fn → Fn) : (s.updFn k g).lender = s.lender := rfl
@[simp] theorem State.updFn_fwDown (s : State) (k : Nat) (g : Fn → Fn) : (s.updFn k g).fwDown = s.fwDown := rfl
@[simp] theorem State.updFn_flt (s : State) (k : Nat) (g : Fn → Fn) : (s.updFn k g).flt = s.flt := rfl
@[simp] theorem State.updFn_withheld (s : State) (k : Nat) (g : Fn → Fn) : (s.updFn k g).withheld = s.withheld := rfl
@[simp] theorem State.updFn_tileFails (s : State) (k : Nat) (g : Fn → Fn) : (s.updFn k g).tileFails = s.tileFails := rfl
@[simp] theorem State.updFn_clus (s : State) (k : Nat) (g : Fn → Fn) : (s.updFn k g).clus = s.clus := rfl
@[simp] theorem State.updFn_launches (s : State) (k : Nat) (g : Fn → Fn) : (s.updFn k g).launches = s.launches := rfl
@[simp] theorem State.updFn_nextLaunch (s : State) (k : Nat) (g : Fn → Fn) : (s.updFn k g).nextLaunch = s.nextLaunch := rfl
@[simp] theorem State.updFn_fab (s : State) (k : Nat) (g : Fn → Fn) : (s.updFn k g).fab = s.fab := rfl
@[simp] theorem State.updFn_ports (s : State) (k : Nat) (g : Fn → Fn) : (s.updFn k g).ports = s.ports := rfl
@[simp] theorem State.updFn_groups (s : State) (k : Nat) (g : Fn → Fn) : (s.updFn k g).groups = s.groups := rfl
@[simp] theorem State.updFn_lnk (s : State) (k : Nat) (g : Fn → Fn) : (s.updFn k g).lnk = s.lnk := rfl
@[simp] theorem State.updFn_hie (s : State) (k : Nat) (g : Fn → Fn) : (s.updFn k g).hie = s.hie := rfl
@[simp] theorem State.updFn_nrg (s : State) (k : Nat) (g : Fn → Fn) : (s.updFn k g).nrg = s.nrg := rfl
@[simp] theorem State.updFn_adc (s : State) (k : Nat) (g : Fn → Fn) : (s.updFn k g).adc = s.adc := rfl
@[simp] theorem State.updFn_dec (s : State) (k : Nat) (g : Fn → Fn) : (s.updFn k g).dec = s.dec := rfl
@[simp] theorem State.updFn_mtr (s : State) (k : Nat) (g : Fn → Fn) : (s.updFn k g).mtr = s.mtr := rfl
@[simp] theorem State.updFn_pnl (s : State) (k : Nat) (g : Fn → Fn) : (s.updFn k g).pnl = s.pnl := rfl
@[simp] theorem State.updFn_hld (s : State) (k : Nat) (g : Fn → Fn) : (s.updFn k g).hld = s.hld := rfl
@[simp] theorem State.updFn_sb (s : State) (k : Nat) (g : Fn → Fn) : (s.updFn k g).sb = s.sb := rfl
@[simp] theorem State.updFn_tap (s : State) (k : Nat) (g : Fn → Fn) : (s.updFn k g).tap = s.tap := rfl

/-! ### What `fnPut` leaves alone -/

@[simp] theorem State.fnPut_pending (s : State) (k a v : Nat) : (s.fnPut k a v).pending = s.pending := rfl
@[simp] theorem State.fnPut_regs (s : State) (k a v : Nat) : (s.fnPut k a v).regs = s.regs := rfl
@[simp] theorem State.fnPut_staged (s : State) (k a v : Nat) : (s.fnPut k a v).staged = s.staged := rfl
@[simp] theorem State.fnPut_inflight (s : State) (k a v : Nat) : (s.fnPut k a v).inflight = s.inflight := rfl
@[simp] theorem State.fnPut_nvOld (s : State) (k a v : Nat) : (s.fnPut k a v).nvOld = s.nvOld := rfl
@[simp] theorem State.fnPut_latches (s : State) (k a v : Nat) : (s.fnPut k a v).latches = s.latches := rfl
@[simp] theorem State.fnPut_tb (s : State) (k a v : Nat) : (s.fnPut k a v).tb = s.tb := rfl
@[simp] theorem State.fnPut_free (s : State) (k a v : Nat) : (s.fnPut k a v).free = s.free := rfl
@[simp] theorem State.fnPut_out (s : State) (k a v : Nat) : (s.fnPut k a v).out = s.out := rfl
@[simp] theorem State.fnPut_log (s : State) (k a v : Nat) : (s.fnPut k a v).log = s.log := rfl
@[simp] theorem State.fnPut_trace (s : State) (k a v : Nat) : (s.fnPut k a v).trace = s.trace := rfl
@[simp] theorem State.fnPut_hif (s : State) (k a v : Nat) : (s.fnPut k a v).hif = s.hif := rfl
@[simp] theorem State.fnPut_fw (s : State) (k a v : Nat) : (s.fnPut k a v).fw = s.fw := rfl
@[simp] theorem State.fnPut_rst (s : State) (k a v : Nat) : (s.fnPut k a v).rst = s.rst := rfl
@[simp] theorem State.fnPut_adm (s : State) (k a v : Nat) : (s.fnPut k a v).adm = s.adm := rfl
@[simp] theorem State.fnPut_moves (s : State) (k a v : Nat) : (s.fnPut k a v).moves = s.moves := rfl
@[simp] theorem State.fnPut_nextId (s : State) (k a v : Nat) : (s.fnPut k a v).nextId = s.nextId := rfl
@[simp] theorem State.fnPut_flights (s : State) (k a v : Nat) : (s.fnPut k a v).flights = s.flights := rfl
@[simp] theorem State.fnPut_reads (s : State) (k a v : Nat) : (s.fnPut k a v).reads = s.reads := rfl
@[simp] theorem State.fnPut_progs (s : State) (k a v : Nat) : (s.fnPut k a v).progs = s.progs := rfl
@[simp] theorem State.fnPut_pfx (s : State) (k a v : Nat) : (s.fnPut k a v).pfx = s.pfx := rfl
@[simp] theorem State.fnPut_sch (s : State) (k a v : Nat) : (s.fnPut k a v).sch = s.sch := rfl
@[simp] theorem State.fnPut_bar2 (s : State) (k a v : Nat) : (s.fnPut k a v).bar2 = s.bar2 := rfl
@[simp] theorem State.fnPut_lender (s : State) (k a v : Nat) : (s.fnPut k a v).lender = s.lender := rfl
@[simp] theorem State.fnPut_fwDown (s : State) (k a v : Nat) : (s.fnPut k a v).fwDown = s.fwDown := rfl
@[simp] theorem State.fnPut_flt (s : State) (k a v : Nat) : (s.fnPut k a v).flt = s.flt := rfl
@[simp] theorem State.fnPut_withheld (s : State) (k a v : Nat) : (s.fnPut k a v).withheld = s.withheld := rfl
@[simp] theorem State.fnPut_tileFails (s : State) (k a v : Nat) : (s.fnPut k a v).tileFails = s.tileFails := rfl
@[simp] theorem State.fnPut_clus (s : State) (k a v : Nat) : (s.fnPut k a v).clus = s.clus := rfl
@[simp] theorem State.fnPut_launches (s : State) (k a v : Nat) : (s.fnPut k a v).launches = s.launches := rfl
@[simp] theorem State.fnPut_nextLaunch (s : State) (k a v : Nat) : (s.fnPut k a v).nextLaunch = s.nextLaunch := rfl
@[simp] theorem State.fnPut_fab (s : State) (k a v : Nat) : (s.fnPut k a v).fab = s.fab := rfl
@[simp] theorem State.fnPut_ports (s : State) (k a v : Nat) : (s.fnPut k a v).ports = s.ports := rfl
@[simp] theorem State.fnPut_groups (s : State) (k a v : Nat) : (s.fnPut k a v).groups = s.groups := rfl
@[simp] theorem State.fnPut_lnk (s : State) (k a v : Nat) : (s.fnPut k a v).lnk = s.lnk := rfl
@[simp] theorem State.fnPut_hie (s : State) (k a v : Nat) : (s.fnPut k a v).hie = s.hie := rfl
@[simp] theorem State.fnPut_nrg (s : State) (k a v : Nat) : (s.fnPut k a v).nrg = s.nrg := rfl
@[simp] theorem State.fnPut_adc (s : State) (k a v : Nat) : (s.fnPut k a v).adc = s.adc := rfl
@[simp] theorem State.fnPut_dec (s : State) (k a v : Nat) : (s.fnPut k a v).dec = s.dec := rfl
@[simp] theorem State.fnPut_mtr (s : State) (k a v : Nat) : (s.fnPut k a v).mtr = s.mtr := rfl
@[simp] theorem State.fnPut_pnl (s : State) (k a v : Nat) : (s.fnPut k a v).pnl = s.pnl := rfl
@[simp] theorem State.fnPut_hld (s : State) (k a v : Nat) : (s.fnPut k a v).hld = s.hld := rfl
@[simp] theorem State.fnPut_sb (s : State) (k a v : Nat) : (s.fnPut k a v).sb = s.sb := rfl
@[simp] theorem State.fnPut_tap (s : State) (k a v : Nat) : (s.fnPut k a v).tap = s.tap := rfl

/-! ### Reads of one kind after an update of another -/

@[simp] theorem State.ten_put (s : State) (a : Nat) (v : DWord) (j : Nat) : (s.put a v).ten j = s.ten j := rfl
@[simp] theorem State.fn_put (s : State) (a : Nat) (v : DWord) (j : Nat) : (s.put a v).fn j = s.fn j := rfl
@[simp] theorem State.ten_putN (s : State) (a n : Nat) (j : Nat) : (s.putN a n).ten j = s.ten j := rfl
@[simp] theorem State.fn_putN (s : State) (a n : Nat) (j : Nat) : (s.putN a n).fn j = s.fn j := rfl
@[simp] theorem State.ten_bumpBy (s : State) (a n : Nat) (j : Nat) : (s.bumpBy a n).ten j = s.ten j := rfl
@[simp] theorem State.fn_bumpBy (s : State) (a n : Nat) (j : Nat) : (s.bumpBy a n).fn j = s.fn j := rfl
@[simp] theorem State.ten_bump (s : State) (a : Nat) (j : Nat) : (s.bump a).ten j = s.ten j := rfl
@[simp] theorem State.fn_bump (s : State) (a : Nat) (j : Nat) : (s.bump a).fn j = s.fn j := rfl
@[simp] theorem State.ten_bump32 (s : State) (a : Nat) (j : Nat) : (s.bump32 a).ten j = s.ten j := rfl
@[simp] theorem State.fn_bump32 (s : State) (a : Nat) (j : Nat) : (s.bump32 a).fn j = s.fn j := rfl
@[simp] theorem State.ten_setFld (s : State) (a lo len v : Nat) (j : Nat) : (s.setFld a lo len v).ten j = s.ten j := rfl
@[simp] theorem State.fn_setFld (s : State) (a lo len v : Nat) (j : Nat) : (s.setFld a lo len v).fn j = s.fn j := rfl
@[simp] theorem State.ten_setBit (s : State) (a i : Nat) (b : Bool) (j : Nat) : (s.setBit a i b).ten j = s.ten j := rfl
@[simp] theorem State.fn_setBit (s : State) (a i : Nat) (b : Bool) (j : Nat) : (s.setBit a i b).fn j = s.fn j := rfl
@[simp] theorem State.rd_emit (s : State) (o : Output) (b : Nat) : (s.emit o).rd b = s.rd b := rfl
@[simp] theorem State.rdN_emit (s : State) (o : Output) (b : Nat) : (s.emit o).rdN b = s.rdN b := rfl
@[simp] theorem State.ten_emit (s : State) (o : Output) (j : Nat) : (s.emit o).ten j = s.ten j := rfl
@[simp] theorem State.fn_emit (s : State) (o : Output) (j : Nat) : (s.emit o).fn j = s.fn j := rfl
@[simp] theorem State.rd_setTen (s : State) (k : Nat) (t : Tenant) (b : Nat) : (s.setTen k t).rd b = s.rd b := rfl
@[simp] theorem State.rdN_setTen (s : State) (k : Nat) (t : Tenant) (b : Nat) : (s.setTen k t).rdN b = s.rdN b := rfl
@[simp] theorem State.fn_setTen (s : State) (k : Nat) (t : Tenant) (j : Nat) : (s.setTen k t).fn j = s.fn j := rfl
@[simp] theorem State.rd_updTen (s : State) (k : Nat) (f : Tenant → Tenant) (b : Nat) : (s.updTen k f).rd b = s.rd b := rfl
@[simp] theorem State.rdN_updTen (s : State) (k : Nat) (f : Tenant → Tenant) (b : Nat) : (s.updTen k f).rdN b = s.rdN b := rfl
@[simp] theorem State.fn_updTen (s : State) (k : Nat) (f : Tenant → Tenant) (j : Nat) : (s.updTen k f).fn j = s.fn j := rfl
@[simp] theorem State.rd_twPut (s : State) (k a v : Nat) (b : Nat) : (s.twPut k a v).rd b = s.rd b := rfl
@[simp] theorem State.rdN_twPut (s : State) (k a v : Nat) (b : Nat) : (s.twPut k a v).rdN b = s.rdN b := rfl
@[simp] theorem State.fn_twPut (s : State) (k a v : Nat) (j : Nat) : (s.twPut k a v).fn j = s.fn j := rfl
@[simp] theorem State.rd_twBump (s : State) (k a n : Nat) (b : Nat) : (s.twBump k a n).rd b = s.rd b := rfl
@[simp] theorem State.rdN_twBump (s : State) (k a n : Nat) (b : Nat) : (s.twBump k a n).rdN b = s.rdN b := rfl
@[simp] theorem State.fn_twBump (s : State) (k a n : Nat) (j : Nat) : (s.twBump k a n).fn j = s.fn j := rfl
@[simp] theorem State.rd_updFn (s : State) (k : Nat) (g : Fn → Fn) (b : Nat) : (s.updFn k g).rd b = s.rd b := rfl
@[simp] theorem State.rdN_updFn (s : State) (k : Nat) (g : Fn → Fn) (b : Nat) : (s.updFn k g).rdN b = s.rdN b := rfl
@[simp] theorem State.ten_updFn (s : State) (k : Nat) (g : Fn → Fn) (j : Nat) : (s.updFn k g).ten j = s.ten j := rfl
@[simp] theorem State.rd_fnPut (s : State) (k a v : Nat) (b : Nat) : (s.fnPut k a v).rd b = s.rd b := rfl
@[simp] theorem State.rdN_fnPut (s : State) (k a v : Nat) (b : Nat) : (s.fnPut k a v).rdN b = s.rdN b := rfl
@[simp] theorem State.ten_fnPut (s : State) (k a v : Nat) (j : Nat) : (s.fnPut k a v).ten j = s.ten j := rfl

end Sys2Proof.Machine
end

