-- ==== Sys2Proof/Laws/Vector.lean ====
section
/-! SUPPORT. What a vector instruction does to the lanes of its destination. -/

namespace Sys2Proof.Machine

theorem Cluster.vr_setV (c : Cluster) (i n r j : Nat) (x : Word) (hn : n < 64) (hj : j < 64) :
    (c.setV i n x).vr r j = if r = i ∧ j = n then x else c.vr r j := by
  unfold Cluster.setV Cluster.vr
  simp only [mgetD_mputD]
  by_cases h : 64 * r + j = 64 * i + n
  · have h1 : r = i ∧ j = n := by omega
    rw [if_pos h, if_pos h1]; split
    · rename_i e; exact e.symm
    · rfl
  · have h1 : ¬ (r = i ∧ j = n) := by rintro ⟨rfl, rfl⟩; exact h rfl
    rw [if_neg h, if_neg h1]

theorem drawFor_frame (c : Cluster) (l : Launch) (mode n : Nat) (x : Num) :
    (c.drawFor l mode n x).2 = { c with rng := (c.drawFor l mode n x).2.rng } := by
  unfold Cluster.drawFor
  split
  · split <;> rfl
  · rfl

theorem drawFor_zero (c : Cluster) (l : Launch) {mode : Nat} (n : Nat) (x : Num) (h : mode ≠ 4) :
    c.drawFor l mode n x = (0, c) := by
  unfold Cluster.drawFor
  split
  · rw [if_neg h]
  · rfl

/-- Writing a lane changes that lane, the flags and the generators. -/
theorem putLane_frame (l : Launch) (mode d n : Nat) (o : LaneOut) (c : Cluster) (hn : n < 64) :
    putLane l mode d n o c = { c with
      v := (putLane l mode d n o c).v, flags := (putLane l mode d n o c).flags, rng := (putLane l mode d n o c).rng } ∧
    (∀ r j, j < 64 → (r ≠ d ∨ j ≠ n) → (putLane l mode d n o c).vr r j = c.vr r j) ∧
    (mode ≠ 4 → (putLane l mode d n o c).vr d n = laneBits mode o) := by
  cases o with
  | bits x f =>
    refine ⟨rfl, fun r j hj h => ?_, fun _ => ?_⟩
    · simp only [putLane]; rw [Cluster.vr_setV _ _ _ _ _ _ hn hj, if_neg (by omega)]; rfl
    · simp only [putLane]; rw [Cluster.vr_setV _ _ _ _ _ _ hn hn, if_pos ⟨rfl, rfl⟩]; rfl
  | num ty x f =>
    have hd := drawFor_frame c l mode n x
    refine ⟨?_, fun r j hj h => ?_, fun h => ?_⟩
    · simp only [putLane, Cluster.setV, Cluster.flag]; rw [hd]
    · simp only [putLane]; rw [Cluster.vr_setV _ _ _ _ _ _ hn hj, if_neg (by omega)]; rw [hd]; rfl
    · simp only [putLane, drawFor_zero c l n x h]; rw [Cluster.vr_setV _ _ _ _ _ _ hn hn, if_pos ⟨rfl, rfl⟩]; rfl

/-- Writing the lanes of a list that `g` selects. -/
theorem foldLanes (l : Launch) (mode d : Nat) (g : DWord) (f : Nat → LaneOut) (ns : List Nat) (c : Cluster)
    (hns : ∀ n ∈ ns, n < 64) (hd : ns.Nodup) :
    ∃ c', ns.foldl (fun c' n => if g.getLsbD n then putLane l mode d n (f n) c' else c') c = c' ∧
      c' = { c with v := c'.v, flags := c'.flags, rng := c'.rng } ∧
      (∀ r j, j < 64 → (r ≠ d ∨ g.getLsbD j = false ∨ j ∉ ns) → c'.vr r j = c.vr r j) ∧
      (mode ≠ 4 → ∀ j ∈ ns, g.getLsbD j = true → c'.vr d j = laneBits mode (f j)) := by
  induction ns generalizing c with
  | nil => exact ⟨c, rfl, rfl, fun _ _ _ _ => rfl, fun _ _ h => absurd h (by simp)⟩
  | cons n ns ih =>
    have hn := hns n (by simp)
    have hd' := List.nodup_cons.mp hd
    by_cases hg : g.getLsbD n = true
    · obtain ⟨p1, p2, p3⟩ := putLane_frame l mode d n (f n) c hn
      obtain ⟨c', e, q1, q2, q3⟩ := ih (putLane l mode d n (f n) c) (fun m hm => hns m (by simp [hm])) hd'.2
      refine ⟨c', ?_, ?_, ?_, ?_⟩
      · simp only [List.foldl_cons, hg, if_true]; exact e
      · rw [q1, p1]
      · intro r j hj h
        rw [q2 r j hj (by grind)]
        exact p2 r j hj (by grind)
      · intro hm j hj hgj
        rcases List.mem_cons.mp hj with rfl | hj
        · rw [q2 d j hn (.inr (.inr hd'.1))]; exact p3 hm
        · exact q3 hm j hj hgj
    · obtain ⟨c', e, q1, q2, q3⟩ := ih c (fun m hm => hns m (by simp [hm])) hd'.2
      refine ⟨c', ?_, q1, ?_, ?_⟩
      · simp only [List.foldl_cons, hg]; exact e
      · intro r j hj h; exact q2 r j hj (by grind)
      · intro hm j hj hgj
        rcases List.mem_cons.mp hj with rfl | hj
        · exact absurd hgj hg
        · exact q3 hm j hj hgj

/-- A lane-wise instruction: active lanes of vd take their values, and the rank goes on. -/
theorem vecLanes_of {s : State} {k w mode : Nat} {c : Cluster} {l : Launch} {f : Nat → LaneOut} (hc : s.clu k = some c)
    (hl : s.lch c.launch = some l) (hf : Follows l (c.pc + 1)) :
    ∃ c', vecLanes k c l w mode f s = s.setClu k (onward c') ∧ OnlyLanes c c' (wD w) (c.guard w) ∧
      (mode ≠ 4 → ∀ j, j < 64 → (c.guard w).getLsbD j = true → c'.vr (wD w) j = laneBits mode (f j)) := by
  obtain ⟨c', e, q1, q2, q3⟩ := foldLanes l mode (wD w) (c.guard w) f (List.range 64) c (by simp) List.nodup_range
  refine ⟨c', ?_, ⟨q1, fun r j hj h => q2 r j hj (by grind)⟩, fun hm j hj hg => q3 hm j (by simpa using hj) hg⟩
  unfold vecLanes
  rw [cUpd_of (l := l) hc (by rw [e, q1]; exact hl) (by rw [e, q1]; exact hf), e]

end Sys2Proof.Machine
end

