-- ==== Sys2Proof/Tests/Slice0.lean ====
section
/-! SUPPORT. Tests: ill-formed commands that WellFormed refuses, instruction words written out bit by bit, and states that meet
the hypotheses of the statements. -/

set_option Elab.async false

namespace Sys2Proof.Tests

open Sys2Proof Sys2Proof.Machine

/-- The sled after reset with its PF enabled by a host: memory space and bus mastering on, and a live lease. -/
def hosted : State := State.reset.updFn 0 (fun n => { n with mse := true, bme := true, leaseLive := true })

/-- Operands at the first value past their range, and at the last one in it: slot below 1024, region below 64, node below 65536, ctx below 16384, dom below 4096, yieldUs below 3, cluster below 128, q below 16, core below 512, source below 7, port below 2, group below 64. -/
theorem test_well_formed_1 :
    Instr.wellFormed (.graceExpire 1024 : Instr) = false ∧ Instr.wellFormed (.graceExpire 1023 : Instr) = true ∧
    Instr.wellFormed (.t3BackoffExpire 0 64 : Instr) = false ∧ Instr.wellFormed (.t3BackoffExpire 0 63 : Instr) = true ∧
    Instr.wellFormed (.peerHoldExpire 65536 : Instr) = false ∧ Instr.wellFormed (.peerHoldExpire 65535 : Instr) = true ∧
    Instr.wellFormed (.pfxLookup 16384 : Instr) = false ∧ Instr.wellFormed (.pfxLookup 16383 : Instr) = true ∧
    Instr.wellFormed (.pfxDomRotate 4096 : Instr) = false ∧ Instr.wellFormed (.pfxDomRotate 4095 : Instr) = true ∧
    Instr.wellFormed (.launchStart 0 3 : Instr) = false ∧ Instr.wellFormed (.launchStart 0 2 : Instr) = true ∧
    Instr.wellFormed (.waitLimitExpire 128 : Instr) = false ∧ Instr.wellFormed (.waitLimitExpire 127 : Instr) = true ∧
    Instr.wellFormed (.vectorModerationExpire 0 16 : Instr) = false ∧ Instr.wellFormed (.vectorModerationExpire 0 15 : Instr) = true ∧
    Instr.wellFormed (.neuronInputEvent 512 : Instr) = false ∧ Instr.wellFormed (.neuronInputEvent 511 : Instr) = true ∧
    Instr.wellFormed (.telemetryTick 0 7 0 : Instr) = false ∧ Instr.wellFormed (.telemetryTick 0 6 0 : Instr) = true ∧
    Instr.wellFormed (.espSyncWord 2 false : Instr) = false ∧ Instr.wellFormed (.espSyncWord 1 false : Instr) = true ∧
    Instr.wellFormed (.windowBoundary 64 : Instr) = false ∧ Instr.wellFormed (.windowBoundary 63 : Instr) = true := by decide +kernel

/-- Operands at the first value past their range, and at the last one in it: port below 18, acked below 4096, expected below 4096, reason below 256, src below 65536, rtag below 65536, epoch below 256, index below 112, newE below 2, rank below 8192, sem below 32, index below 65536. -/
theorem test_well_formed_2 :
    Instr.wellFormed (.codewordUncorrectable 18 : Instr) = false ∧ Instr.wellFormed (.codewordUncorrectable 17 : Instr) = true ∧
    Instr.wellFormed (.idleFlit 0 4096 : Instr) = false ∧ Instr.wellFormed (.idleFlit 0 4095 : Instr) = true ∧
    Instr.wellFormed (.retryReq 0 0 4096 : Instr) = false ∧ Instr.wellFormed (.retryReq 0 0 4095 : Instr) = true ∧
    Instr.wellFormed (.downNotice 0 256 : Instr) = false ∧ Instr.wellFormed (.downNotice 0 255 : Instr) = true ∧
    Instr.wellFormed (.stale 65536 0 0 : Instr) = false ∧ Instr.wellFormed (.stale 65535 0 0 : Instr) = true ∧
    Instr.wellFormed (.stale 0 65536 0 : Instr) = false ∧ Instr.wellFormed (.stale 0 65535 0 : Instr) = true ∧
    Instr.wellFormed (.stale 0 0 256 : Instr) = false ∧ Instr.wellFormed (.stale 0 0 255 : Instr) = true ∧
    Instr.wellFormed (.lnkRtWrite 112 0 : Instr) = false ∧ Instr.wellFormed (.lnkRtWrite 111 0 : Instr) = true ∧
    Instr.wellFormed (.routeFlip 0 2 0 : Instr) = false ∧ Instr.wellFormed (.routeFlip 0 1 0 : Instr) = true ∧
    Instr.wellFormed (.spanGet 0 0 8192 0 0 0 : Instr) = false ∧ Instr.wellFormed (.spanGet 0 0 8191 0 0 0 : Instr) = true ∧
    Instr.wellFormed (.spanSignal 0 0 0 32 0 : Instr) = false ∧ Instr.wellFormed (.spanSignal 0 0 0 31 0 : Instr) = true ∧
    Instr.wellFormed (.spanBar 0 65536 0 0 : Instr) = false ∧ Instr.wellFormed (.spanBar 0 65535 0 0 : Instr) = true := by decide +kernel

/-- Operands at the first value past their range, and at the last one in it: highest below 65536, seq below 65536, stratum below 16, hops below 16, level below 3, roll below 256, base below 65536, mgr below 65536, f below 32, id below 65536, op below 4, echoed below 256. -/
theorem test_well_formed_3 :
    Instr.wellFormed (.spanAck 0 0 65536 : Instr) = false ∧ Instr.wellFormed (.spanAck 0 0 65535 : Instr) = true ∧
    Instr.wellFormed (.syncReq 0 65536 0 false : Instr) = false ∧ Instr.wellFormed (.syncReq 0 65535 0 false : Instr) = true ∧
    Instr.wellFormed (.syncResp 0 0 0 0 0 false 16 false : Instr) = false ∧ Instr.wellFormed (.syncResp 0 0 0 0 0 false 15 false : Instr) = true ∧
    Instr.wellFormed (.beacon 0 16 0 false false 0 0 0 0 0 0 0 false : Instr) = false ∧ Instr.wellFormed (.beacon 0 15 0 false false 0 0 0 0 0 0 0 false : Instr) = true ∧
    Instr.wellFormed (.beacon 0 0 3 false false 0 0 0 0 0 0 0 false : Instr) = false ∧ Instr.wellFormed (.beacon 0 0 2 false false 0 0 0 0 0 0 0 false : Instr) = true ∧
    Instr.wellFormed (.beacon 0 0 0 false false 0 0 0 0 0 256 0 false : Instr) = false ∧ Instr.wellFormed (.beacon 0 0 0 false false 0 0 0 0 0 255 0 false : Instr) = true ∧
    Instr.wellFormed (.poolBlockReturn 65536 : Instr) = false ∧ Instr.wellFormed (.poolBlockReturn 65535 : Instr) = true ∧
    Instr.wellFormed (.spanCommitTimeout 65536 0 : Instr) = false ∧ Instr.wellFormed (.spanCommitTimeout 65535 0 : Instr) = true ∧
    Instr.wellFormed (.spanRequestTimeout 32 : Instr) = false ∧ Instr.wellFormed (.spanRequestTimeout 31 : Instr) = true ∧
    Instr.wellFormed (.tenantOp 0 0 65536 0 0 : Instr) = false ∧ Instr.wellFormed (.tenantOp 0 0 65535 0 0 : Instr) = true ∧
    Instr.wellFormed (.tenantOp 0 0 0 4 0 : Instr) = false ∧ Instr.wellFormed (.tenantOp 0 0 0 3 0 : Instr) = true ∧
    Instr.wellFormed (.ack 0 0 256 0 0 0 false : Instr) = false ∧ Instr.wellFormed (.ack 0 0 255 0 0 0 false : Instr) = true := by decide +kernel

/-- Operands at the first value past their range, and at the last one in it: tag below 65536, index below 8, vec below 2048, kind below 4, speed below 7, width below 17, stream below 2, first below 32, last below 32, rail below 12, type below 16, index below 2048. -/
theorem test_well_formed_4 :
    Instr.wellFormed (.hieRequestTimeout 65536 : Instr) = false ∧ Instr.wellFormed (.hieRequestTimeout 65535 : Instr) = true ∧
    Instr.wellFormed (.hieSiteSecretWrite 8 0 : Instr) = false ∧ Instr.wellFormed (.hieSiteSecretWrite 7 0 : Instr) = true ∧
    Instr.wellFormed (.msixUnmask 0 2048 : Instr) = false ∧ Instr.wellFormed (.msixUnmask 0 2047 : Instr) = true ∧
    Instr.wellFormed (.conventionalReset 4 0 0 : Instr) = false ∧ Instr.wellFormed (.conventionalReset 3 0 0 : Instr) = true ∧
    Instr.wellFormed (.conventionalReset 0 7 0 : Instr) = false ∧ Instr.wellFormed (.conventionalReset 0 6 0 : Instr) = true ∧
    Instr.wellFormed (.conventionalReset 0 0 17 : Instr) = false ∧ Instr.wellFormed (.conventionalReset 0 0 16 : Instr) = true ∧
    Instr.wellFormed (.ideStreamInsecure 2 0 0 : Instr) = false ∧ Instr.wellFormed (.ideStreamInsecure 1 0 0 : Instr) = true ∧
    Instr.wellFormed (.ideStreamInsecure 0 32 0 : Instr) = false ∧ Instr.wellFormed (.ideStreamInsecure 0 31 0 : Instr) = true ∧
    Instr.wellFormed (.ideStreamInsecure 0 0 32 : Instr) = false ∧ Instr.wellFormed (.ideStreamInsecure 0 0 31 : Instr) = true ∧
    Instr.wellFormed (.railRegulationTimeout 12 : Instr) = false ∧ Instr.wellFormed (.railRegulationTimeout 11 : Instr) = true ∧
    Instr.wellFormed (.rstUnit 16 0 0 : Instr) = false ∧ Instr.wellFormed (.rstUnit 15 0 0 : Instr) = true ∧
    Instr.wellFormed (.rstUnit 0 2048 0 : Instr) = false ∧ Instr.wellFormed (.rstUnit 0 2047 0 : Instr) = true := by decide +kernel

/-- Operands at the first value past their range, and at the last one in it: n below 4, ch below 8, target below 8, input below 16, gain below 8, frac below 640, mask below 256, k below 3, elem below 3, n below 256, party below 3, zones below 4. -/
theorem test_well_formed_5 :
    Instr.wellFormed (.icConversionEnd 4 0 : Instr) = false ∧ Instr.wellFormed (.icConversionEnd 3 0 : Instr) = true ∧
    Instr.wellFormed (.sdModulatorClip 8 : Instr) = false ∧ Instr.wellFormed (.sdModulatorClip 7 : Instr) = true ∧
    Instr.wellFormed (.adcSyscalZero false 8 0 0 : Instr) = false ∧ Instr.wellFormed (.adcSyscalZero false 7 0 0 : Instr) = true ∧
    Instr.wellFormed (.adcSyscalZero false 0 16 0 : Instr) = false ∧ Instr.wellFormed (.adcSyscalZero false 0 15 0 : Instr) = true ∧
    Instr.wellFormed (.adcSyscalZero false 0 0 8 : Instr) = false ∧ Instr.wellFormed (.adcSyscalZero false 0 0 7 : Instr) = true ∧
    Instr.wellFormed (.mtrSyncEdge 640 : Instr) = false ∧ Instr.wellFormed (.mtrSyncEdge 639 : Instr) = true ∧
    Instr.wellFormed (.decCaptureStart 256 : Instr) = false ∧ Instr.wellFormed (.decCaptureStart 255 : Instr) = true ∧
    Instr.wellFormed (.cfPulseEmit 3 : Instr) = false ∧ Instr.wellFormed (.cfPulseEmit 2 : Instr) = true ∧
    Instr.wellFormed (.mtrCalGain 3 0 : Instr) = false ∧ Instr.wellFormed (.mtrCalGain 2 0 : Instr) = true ∧
    Instr.wellFormed (.mtrCalGain 0 256 : Instr) = false ∧ Instr.wellFormed (.mtrCalGain 0 255 : Instr) = true ∧
    Instr.wellFormed (.pnlUpdateFull 3 0 : Instr) = false ∧ Instr.wellFormed (.pnlUpdateFull 2 0 : Instr) = true ∧
    Instr.wellFormed (.pnlUpdateFull 0 4 : Instr) = false ∧ Instr.wellFormed (.pnlUpdateFull 0 3 : Instr) = true := by decide +kernel

/-- Operands at the first value past their range, and at the last one in it: offset below 30000, pch below 256, lane below 144, index below 1024, static below 128, dynamic below 128. -/
theorem test_well_formed_6 :
    Instr.wellFormed (.pnlFbWrite 0 30000 0 : Instr) = false ∧ Instr.wellFormed (.pnlFbWrite 0 29999 0 : Instr) = true ∧
    Instr.wellFormed (.hbmCorrectedError 256 0 : Instr) = false ∧ Instr.wellFormed (.hbmCorrectedError 255 0 : Instr) = true ∧
    Instr.wellFormed (.laneSerInterval 144 0 : Instr) = false ∧ Instr.wellFormed (.laneSerInterval 143 0 : Instr) = true ∧
    Instr.wellFormed (.fltUnitSelWrite 0 1024 : Instr) = false ∧ Instr.wellFormed (.fltUnitSelWrite 0 1023 : Instr) = true ∧
    Instr.wellFormed (.setdasa 128 0 : Instr) = false ∧ Instr.wellFormed (.setdasa 127 0 : Instr) = true ∧
    Instr.wellFormed (.setdasa 0 128 : Instr) = false ∧ Instr.wellFormed (.setdasa 0 127 : Instr) = true := by decide +kernel

/-- The checks that depend on another operand: a tenant window of a VF, a window and a function past the end, an MSI-X vector of a VF,
a converter, an HBM pseudo-channel, units of types 0 and 2 past their number, a type that takes no such command, and level 0. -/
theorem test_well_formed_dependent :
    Instr.wellFormed (.wideRegisterLowRead (.window 1 (some 0) 0)) = false ∧
    Instr.wellFormed (.registerWrite (.window 0 (some 1024) 0) 0) = false ∧ Instr.wellFormed (.registerWrite (.msix 32 0) 0) = false ∧
    Instr.wellFormed (.msixUnmask 1 64) = false ∧ Instr.wellFormed (.msixUnmask 0 64) = true ∧
    Instr.wellFormed (.adcUrgDrop (some 4) 0 0) = false ∧ Instr.wellFormed (.patrolScrubRead (some (256, 0))) = false ∧
    Instr.wellFormed (.resetNotice 0 128) = false ∧ Instr.wellFormed (.unitResetDeferred 2 3) = false ∧
    Instr.wellFormed (.targetedTestComplete 5 64 true) = false ∧ Instr.wellFormed (.istSliceEnd 2 0 true) = false ∧
    Instr.wellFormed (.istSliceStart 3 128 true) = false := by decide +kernel

/-- Program words written out from their encodings (08, Table CLU-12): major, PG, PN, D, A, B, C, then the low word in format R (SUB,
TY, RM, F, MOD) or I. One for each family: ADD s1, s2, s3; LI s4, −1; BR 5; TLD; MMA; VADD v1, v2, v3 with SAT; SWAIT; and of queue
programs QOP, CMPI, HSET and BR. -/
theorem test_words_decode :
    decodeProgram 3 (0x01#8 ++ 2#3 ++ 1#1 ++ 1#5 ++ 2#5 ++ 3#5 ++ 0#5 ++ 0#32) = some (.clAdd 3 (2#3 ++ 1#1 ++ 1#5 ++ 2#5 ++ 3#5 ++ 0#5 ++ 0#32)) ∧
    decodeProgram 3 (0x1F#8 ++ 0#3 ++ 0#1 ++ 4#5 ++ 0#15 ++ 0xFFFFFFFF#32) = some (.clLi 3 (0#4 ++ 4#5 ++ 0#15 ++ 0xFFFFFFFF#32)) ∧
    decodeProgram 3 (0x30#8 ++ 0#24 ++ 5#32) = some (.clBr 3 5) ∧
    decodeProgram 3 (0x40#8 ++ 0#4 ++ 1#5 ++ 2#5 ++ 3#5 ++ 0#5 ++ 0#32) = some (.clTld 3 (0#4 ++ 1#5 ++ 2#5 ++ 3#5 ++ 0#5 ++ 0#32)) ∧
    decodeProgram 3 (0x50#8 ++ 0#4 ++ 1#5 ++ 2#5 ++ 3#5 ++ 0#5 ++ 0#32) = some (.clMma 3 (0#4 ++ 1#5 ++ 2#5 ++ 3#5 ++ 0#5 ++ 0#32)) ∧
    decodeProgram 3 (0x60#8 ++ 0#4 ++ 1#5 ++ 2#5 ++ 3#5 ++ 0#5 ++ 0#8 ++ 8#4 ++ 0#3 ++ 1#1 ++ 0#16) = some (.clVadd 3 (0#4 ++ 1#5 ++ 2#5 ++ 3#5 ++ 0#5 ++ 0#8 ++ 8#4 ++ 0#3 ++ 1#1 ++ 0#16)) ∧
    decodeProgram 3 0x7600000000000000 = decodeProgram 3 (0x76#8 ++ 0#56) ∧
    decodeProgram 3 (0xC0#8 ++ 0#4 ++ 1#5 ++ 2#5 ++ 3#5 ++ 0#5 ++ 1#8 ++ 0#24) = some (.qpQop 3 (0#4 ++ 1#5 ++ 2#5 ++ 3#5 ++ 0#5 ++ 1#8 ++ 0#24)) ∧
    decodeProgram 3 (0xC5#8 ++ 0#56) = some (.qpCmpi 3 0) ∧ decodeProgram 3 (0xC6#8 ++ 0#56) = some (.qpHset 3 0) ∧
    decodeProgram 3 (0xC8#8 ++ 0#56) = some (.qpBr 3 0) ∧ decodeProgram 3 (0xFF#8 ++ 0#56) = none ∧ decodeProgram 3 (0x14#8 ++ 0#56) = none := by
  decide +kernel

/-- The fields of a word with every field different (Tables CLU-12 and CLU-13). -/
theorem test_word_fields :
    (let w := (0x60#8 ++ 5#3 ++ 1#1 ++ 17#5 ++ 18#5 ++ 19#5 ++ 20#5 ++ 0xAB#8 ++ 9#4 ++ 4#3 ++ 1#1 ++ 0x1234#16 : BitVec 64).toNat
     wMajor w = 0x60 ∧ wPG w = 5 ∧ wPN w = 1 ∧ wD w = 17 ∧ wA w = 18 ∧ wB w = 19 ∧ wC w = 20 ∧ wSub w = 0xAB ∧ wTy w = 9 ∧ wRm w = 4 ∧
       wF w = 1 ∧ wMod w = 0x1234) ∧
    wImm (0x1F#8 ++ 0#24 ++ 0xFFFFFFFE#32 : BitVec 64).toNat = -2 := by decide +kernel

/-- The CRC-32 that R247 names, on the bytes of the digits 1 to 9; the expected value is the published one of that CRC. -/
theorem test_crc : crc32 9 0x393837363534333231 = 0xCBF43926 := by decide +kernel

/-- Cluster 0 runs a launch of one program: s1 = 7, s2 = 2, p1 with lane 0 and lane 3 set. -/
def running (code : List DWord) : State :=
  { State.reset with
    clus := [(0, { launch := 0, rank := 0, fill := 0, s := [(1, 7), (2, 2)], p := [(1, 9)] })]
    launches := [(0, { slot := 0, prog := 0, token := 0, report := false, handle := 0, code := code, handles := [], args := [], seed := 0, group := 1, waitLimit := 1000, timeLimit := 1000, issuedAt := 0, started := some 0, clusters := [0] })] }

/-- The cluster and the launch of `running`. -/
def theCluster (s : State) : Cluster := (s.clu 0).getD { launch := 0, rank := 0, fill := 0 }
def theLaunch (s : State) : Launch := (s.lch 0).getD { slot := 0, prog := 0, token := 0, report := false, handle := 0, handles := [], args := [], seed := 0, group := 0, waitLimit := 0, timeLimit := 0, issuedAt := 0 }

/-- A program of one instruction and END. -/
def one (major : Nat) (w : BitVec 56) : List DWord := [BitVec.ofNat 64 (wordOf major w), 0x36#8 ++ 0#56]

/-- `running` with tile descriptors t1 and t2 (one row of 32 columns) and handle register h1, which names object 1 of tenant 1. -/
def tiled (code : List DWord) : State :=
  (running code).setClu 0 { theCluster (running []) with t := [(1, BitVec.ofNat 64 (31 * 2 ^ 24 + 2 * 2 ^ 38)), (2, BitVec.ofNat 64 (64 + 31 * 2 ^ 24 + 2 * 2 ^ 38))], h := [(1, 0x0001001000000001)] }

/-- A page object in T1. -/
def anObj : Obj := { size := 131072, tile := false, flags := 0, elem := 0, elemAlt := 0, segPages := 1, gen := 1, base := { tier := 1 } }
/-- A tenant with one object and one active queue, attached through VF 1. -/
def aTenant : Tenant := { id := 1, cls := 1, fn := some 1, objs := [(1, anObj)], hiIdx := 1, queues := [(0, { st := .active })] }
/-- `tiled` with that tenant in slot 0. -/
def withObj (code : List DWord) : State := (tiled code).setTen 0 aTenant

/-- A cluster with one move in flight, and one with a failed move. -/
def moving : Cluster := { theCluster (tiled []) with issued := 1, moves := [{ num := 0, index := 0, major := 0x45, op := .coll 0 }] }
def failedOne : TileMove := { num := 0, index := 0, major := 0x40, op := .coll 0, status := ⟨0x42, 0, 0⟩ }
def failing : Cluster := { theCluster (tiled []) with issued := 1, failed := [failedOne] }
/-- `tiled` whose launch spans a second sled, node 5, with four clusters. -/
def spanned (code : List DWord) : State :=
  let s := tiled code
  s.setLch 0 { theLaunch s with span := [(0, 1), (5, 4)] }

/-- `running` with F16 tiles t1 and t2. -/
def tensored (code : List DWord) : State :=
  (running code).setClu 0 { theCluster (running []) with t := [(1, BitVec.ofNat 64 (31 * 2 ^ 24 + 2 ^ 34 + 2 * 2 ^ 38)), (2, BitVec.ofNat 64 (64 + 31 * 2 ^ 24 + 2 ^ 34 + 2 * 2 ^ 38))] }

/-- `tiled` whose launch runs group 0 of a step with one batch entry, and has one page and one ring slot. -/
def stepped (code : List DWord) : State :=
  let s := tiled code
  { s.setLch 0 { theLaunch s with step := some (0, 0), slots := 1, pages := [⟨0, 0, 0, 64, true⟩] } with
    sch := { models := [(0, { slot := 0, handle := 0, tag := 0, kvFormat := 0, kvFlags := 0, kvBytes := 0, maxLen := 0, maxBatch := 1, minFill := 0, maxPadded := 0, chunk := 0, clusters := 1, stepProg := 0, actBytes := 0, groups := [⟨0, 0, 0, 0⟩] })], steps := [(0, { model := 0, kind := .decode, entries := [⟨0, 1, true, true⟩], clusters := [0], after := none, standing := 0, startS := 0, first := 0, taus := [1], tokens := 1, lmax := 1, running := true })] } }

/-- A queue program of one instruction and END. -/
def qone (major : Nat) (w : BitVec 56) : List DWord := [BitVec.ofNat 64 (wordOf major w), 0xCE#8 ++ 0#56]

/-- A READONLY tile object in T1 that holds a two-instruction program at 0, and as a launch record a group of one cluster. -/
def aCode : Obj := { anObj with tile := true, flags := 0x100, size := 16, data := [] }

/-- Queue 0 of tenant 1 in slot 0 runs a program: s1 = 7, s2 = 2, p1 true, h1 the object of `aTenant`, and token 0 of each kind ended. -/
def theProg (code : List DWord) : QProg :=
  { slot := 0, queue := 0, obj := 0, code := code, regs := ⟨[(1, 7), (2, 2)], [(1, true)], [(1, 0x0001001000000001)]⟩,
    cmds := [⟨0, some 0, 5, []⟩], launches := [⟨0, some 0, 0, [1, 2, 3, 4, 5, 6, 7, 8]⟩], cmdNext := 1, launchNext := 1 }

/-- A state with that program. -/
def qrunning (code : List DWord) : State := { State.reset.setTen 0 aTenant with progs := [(0, theProg code)] }

/-- `qrunning` with launch and command records of zeros but for a group of one cluster, and a command of opcode 0x07. -/
def qrec (code : List DWord) : State :=
  (qrunning code).setTen 0 { aTenant with objs := [(1, { anObj with data := [⟨1, 0x07⟩, ⟨0x88, 1⟩] })] }

/-- An ADMIT of one queue through the PF. -/
def admitReq : AdmReq := { cls := 2, prio := 0, noDefer := false, rotate := false, seq := 7, domain := 0, hbm := 0, orang := 0, wr := 0, ctx := 0, clu := 0, evc := 0, queues := 1, link := 0, energy := 0xFFFFFFFF, maxWaitMs := 0, holdS := 0, tenantId := 0, ticket := 0, token := 0 }

/-- `hosted` with tenant 1 in slot 0, attached through the PF, and one deferred request of the PF. -/
def owned : State :=
  let s := hosted.setTen 0 { aTenant with fn := some 0, token := 5 }
  { s with adm := { s.adm with deferred := [⟨3, 0, ⟨1, 0, none, admitReq⟩⟩], pool := [(1, 100)] } }

/-- `hosted` with a tenant in slot 0 attached through the PF, with objects, and one command in the ring of its queue 0. -/
def ringing : State := hosted.setTen 0 { aTenant with fn := some 0, vec := { hbm := 1000, ctx := 4, queues := 1 }, queues := [(0, { st := .active, prod := 1 })] }

/-- The same with another object 1. -/
def ringingWith (o : Obj) : State :=
  hosted.setTen 0 { aTenant with fn := some 0, vec := { hbm := 1000, ctx := 4, queues := 1 }, objs := [(1, o)], queues := [(0, { st := .active, prod := 1 })] }

/-- A page object at home in T2. -/
def lowObj : Obj := { anObj with base := { tier := 2, stored := 4096 } }
/-- A DURABLE page object at home in T2. -/
def durObj : Obj := { lowObj with flags := 0x400 }
/-- Tenant 0 once a ring command of it has been fetched. -/
def tenFetched (op : Nat) (r : CmdRec) (s : State) : Tenant := ((fetched op 0 0 r s).2.ten 0).getD aTenant
/-- The object that an ALLOC of one page places. -/
def anAlloc : Obj :=
  ((place 0 { size := 0x10000, tile := false, flags := 0, elem := 0, elemAlt := 0, segPages := 0, gen := 1, base := { tier := 1, lastUse := 0 } } (fetched 1 0 0 { w18 := 0x10000 } ringing).2).1.toOption).getD anObj
/-- A model descriptor with one group, and the READONLY tile object that holds it. -/
def descObj : Obj :=
  { anObj with tile := true, size := 512, flags := 0x100,
               data := writeLE (writeLE (writeLE (writeLE (writeLE (writeLE (writeLE (writeLE (writeLE (writeLE (writeLE [] 0x10 2 1) 0x18 2 64) 0x1C 4 4096)
                 0x20 2 8) 0x24 4 65536) 0x28 4 64) 0x2C 1 1) 0x30 8 0x0001001000000001) 0x100 8 0x0001001000000001) 0x12 1 0) 0x22 1 0 }
/-- A model slot of tenant 0 without activation scratch, and one with. -/
def theModel : Model := { slot := 0, handle := 0, tag := 0, kvFormat := 0, kvFlags := 0, kvBytes := 0, maxLen := 1000, maxBatch := 1, minFill := 0, maxPadded := 0, chunk := 0, clusters := 1, stepProg := 0, actBytes := 0, groups := [⟨0, 0, 0, 0⟩] }
/-- `ringing` with that model in slot 0, and context 3 of tenant 0 on it. -/
def modelled : State := { ringing with sch := { models := [(0, theModel)] } }
def ctxed : State := modelled.setCtx 3 { slot := 0, model := 0, queue := 0, durable := false, prio := 0, user := 0, act := none, blocksHandle := 7 }
/-- Context 3 of it. -/
def theCtx : Ctx := (ctxed.ctx 3).getD { slot := 0, model := 0, queue := 0, durable := false, prio := 0, user := 0, act := none, blocksHandle := 7 }

/-- A TURN of one token on context 3, its flight, and its tenant once fetched. -/
def turnRec : CmdRec := { w18 := 0x100000003, w20 := 5 }
def turnFlight : Flight := ((fetched 0x1B 0 0 turnRec ctxed).2.flight (fetched 0x1B 0 0 turnRec ctxed).1).getD { id := 0, slot := 0, queue := 0, src := .ring, op := 0, cmdId := 0, irq := false, post := false }

/-- A turn. -/
def aTurn : Turn := { flight := 9, cmdId := 0, irq := false, seq := 1, scope := 0, cls := 0, tokens := false, count := 1, maxNew := 1, stops := [] }

/-- `ringing` with a key range of 2^17 from 0 and event cores 3 (of the tenant) and 4 (of nobody). -/
def keyed : State := (ringing.twPut 0 Reg.TW_EV_KEYS (17 * 2 ^ 20)).setCore 3 { slot := some 0 }
/-- The same with the objects of EV_CORE_LOAD in one. -/
def keyedBig : State := ((ringingWith { anObj with size := 262144 }).twPut 0 Reg.TW_EV_KEYS (17 * 2 ^ 20)).setCore 3 { slot := some 0 }
/-- An event of tenant 0 with key 5. -/
def anEv : Ev := { word := evWord 5 1 0 false false, slot := 0 }

/-- `ringing` with an event ring that holds three events. -/
def evRinging : State := (ringing.updTen 0 (fun t => { t with evRing := some ⟨0, 0, 6, 2, true, none⟩ })).twPut 0 Reg.TW_EV_TAIL 3

/-- `keyed` with a bank flip requested by flight 8 and the other bank STAGED, DRAINING or RESYNC. -/
def flipping (b : Nat) : State := { keyed with fab := { keyed.fab with commits := [8] } }.setFld Reg.EVF_EPOCH 1 2 b

/-- `ringing` with the queue changed. -/
def withQue (k : Queue) : State := ringing.updTen 0 (fun t => { t with queues := [(0, k)] })

/-- `ringing` with a queue program on its queue 0. -/
def progRinging : State := { ringing with progs := [(0, theProg [])] }

/-- A queue configuration of 16 entries each. -/
def aCfg : QCfg := ⟨0x10000, 0x20000, 0x30000, 4, 4, 0, 0⟩
/-- `ringing` with `aCfg` staged for queue 0. -/
def cfgStaged : State :=
  ((((ringing.twPut 0 (Reg.TW_CR_BASE 0) 0x10000).twPut 0 (Reg.TW_CQ_BASE 0) 0x20000).twPut 0 (Reg.TW_CQ_WB 0) 0x30000).twPut 0 (Reg.TW_Q_CFG 0) 0x404)

/-- A statement about every value of an option that holds none. -/
theorem ofNone {α : Type} {x : Option α} {P : α → Prop} (h : x = none) : ∀ m, x = some m → P m := by
  intro m hm; rw [h] at hm; exact nomatch hm

/-- `ringing` with a flight 1 that is a FLUSH of object 1. -/
def flushing : State := { ringingWith durObj with flights := [{ id := 1, slot := 0, queue := 0, src := .ring, op := 4, cmdId := 0, irq := false, post := false, args := [1, 4096] }] }
/-- A move of page 0 of object 1 between two tiers. -/
def aMove (src dst : Nat) : Move := { id := 3, slot := 0, obj := 1, page := 0, src := src, dst := dst, dstLoc := 0, cause := .demotion, since := 0 }
/-- `ringing` with that move. -/
def onTheMove (src dst : Nat) : State := { ringing with moves := [aMove src dst] }
/-- Watermarks in force 10 and 20, and a commit of `v` for the low one in flight. -/
def wmStaged (v : Nat) : State := { (State.reset.putN Reg.TIER_WM_LOW 10).putN Reg.TIER_WM_HIGH 20 with staged := [(Reg.TIER_WM_LOW, BitVec.ofNat 64 v)], inflight := [(Reg.TIER_WM_COMMIT, [(Reg.TIER_WM_LOW, BitVec.ofNat 64 v)])] }

/-- A mapping of a 4 by 4 region to keys from 0. -/
def aMap : PixMap := { sx := 0, sy := 0, pol := 0, group := 0, base := 0, x0 := 0, x1 := 3, y0 := 0, y1 := 3, marker := 100, settle := 0 }
/-- A window group of slot 0 that counts 8 taps in windows of 1 ms. -/
def aGroup : Group := { slot := 0, cfg := ⟨0, 8, 1000, 0, 0⟩, cur := newBank ⟨0, 8, 1000, 0, 0⟩ 0 false }
/-- `keyed` where tenant 1 owns sensor port 0, with receiver on and locked, a mapping and a window group. -/
def sensing : State :=
  let s := ((keyed.putN (Reg.ESP_OWNER 0) 1).setBit (Reg.ESP_CTRL 0) 1 true).setBit (Reg.ESP_STATUS 0) 2 true
  { s.updPort 0 (fun x => { x with map := some aMap }) with groups := [(0, aGroup)] }
/-- `sensing` with an I3C list of two entries under way on port 0. -/
def listing (since : Nat) : State := sensing.updPort 0 (fun x => { x with run := some { flight := 9, entries := [1, 2], immediate := true, acceptedAt := 0, since := since } })

/-- The state after reset with firmware ready. -/
def fwReady : State := State.reset.putN Reg.FW_READY 1
/-- An SPDM session of `fwReady` at a stage. -/
def spdm (alg ex ses : Bool) : State := { fwReady with hif := { fwReady.hif with verOk := true, algOk := alg, exchanging := ex, session := ses } }
/-- A boot descriptor with slot A confirmed and slot B in a state. -/
def described (st : Nat) : State := { fwReady with fw := { fwReady.fw with desc0 := some ⟨5, 0, ⟨5, 1, 0, 0⟩, ⟨st, 0, 0, 0⟩⟩, desc1 := none } }

/-- A chassis manager 2 s after start with one sled metered over the second second, and the feed of that second. -/
def overheaded : State :=
  let s := State.reset.setFld Reg.HIE_STATUS 2 2 1
  { s with tb := 2000000, nrg := { s.nrg with feed := [(1, 100)], own := [(1, 40)] }, hie := { s.hie with members := [(9, { snaps := [(2000000, 50), (1000000, 0)], meterOk := true })] } }

/-- A word differs from its complement. -/
theorem notSelf (x : BitVec 128) : ~~~ x ≠ x := by
  intro h
  have := congrArg (fun v : BitVec 128 => v.getLsbD 0) h
  simp at this

/-- A chassis manager (role 1) or higher, with other fields at reset. -/
def manager (r : Nat) : State := State.reset.setFld Reg.HIE_STATUS 2 2 r
/-- A sled whose election of a level is under way since TB 0 with itself best. -/
def electing (l : Nat) : State := { State.reset with tb := 30000, hie := { State.reset.hie with elect := [(l, ⟨1, 0, 5, ownNode State.reset⟩)] } }
/-- A site manager with a rollout under way. -/
def rolling (st : Nat) : State :=
  let s := (manager 3).setFld Reg.HIE_ROLL_STATUS 0 4 st
  { s with hie := { s.hie with roll := { move := 4, plan := [[5], [], [], [], [], [0]], sent := [(5, 0)] } } }
/-- A sled that follows a rollout of node 7. -/
def follower : Follow := ⟨7, 1, 0, 4, 9, 0, [], [], [], none, false⟩
def following (f : Follow) : State := { State.reset with hie := { State.reset.hie with follow := some f } }
/-- A span hold of transaction 2 of node 7. -/
def aHold : SpanHold := { txn := 2, mgr := 7, id := 9, keys := 0, modify := false, cls := 2, domain := 0, vec := {}, held := {}, spill := 0, since := 0 }
def holding : State := { State.reset with adm := { State.reset.adm with holds := [aHold] } }
/-- A span transaction of this sled with node 7, voted by this sled. -/
def aSpan : SpanTxn := { txn := 2, members := [ownNode State.reset, 7], votes := [(ownNode State.reset, ⟨0, 0, 0⟩, 0)], since := 0 }
def spanning : State := { State.reset with hie := { State.reset.hie with spans := [aSpan] } }
/-- A span request of function 0. -/
def anAsk : SpanAsk := ⟨⟨1, 0, none, admitReq⟩, none, [ownNode State.reset, 7], 7, 0⟩
def asking : State := { State.reset with hie := { State.reset.hie with asks := [anAsk] } }
/-- A request to node 7 that waits for its answer. -/
def aReq (ty : Nat) : HReq := { tag := 6, dest := 7, type := ty, xs := [1, 2], since := 0 }
def requesting (ty : Nat) : State := { State.reset with hie := { State.reset.hie with reqs := [aReq ty] } }

/-- A step of model 0 on cluster 0, and a state that holds it. -/
def aStep : Step := { model := 0, kind := .decode, entries := [], clusters := [0], after := none, standing := 0, startS := 0, first := 0, taus := [1], tokens := 1, lmax := 1 }
def withStep (t : Step) : State := { State.reset with sch := { State.reset.sch with steps := [(0, t)] } }
/-- A reset notice of queue engine 0. -/
def aNotice : Notice := ⟨4, 0, 0, [], [], []⟩
/-- A start in force with one step begun. -/
def starting (n : Nat) : State := { State.reset with rst := { State.reset.rst with steps := [(n, 0)] } }

/-- A published entry of domain 0, pinned by nobody. -/
def anEntry : Entry := { hash := 7, dom := 0, keygen := 0, owner := 0, publisher := some 0, block := 1 }
/-- A state with that entry. -/
def indexed : State := { State.reset with pfx := { State.reset.pfx with entries := [(0, anEntry)] } }
/-- A KV page of context 0 whose move is due at TB 0 and which is due itself at TB 0. -/
def aKv : KvPage := ⟨0, 0, 0, 0, 0, 0, 1, false, false, false⟩
def kvDue : State := { State.reset with pfx := { State.reset.pfx with kv := [aKv] } }
/-- A remote lease of node 7 on no entry. -/
def leased : State := { State.reset with pfx := { State.reset.pfx with leases := [⟨4, 7, [], 0⟩] } }
/-- A directory query that context 0 waits on. -/
def aWait : DirWait := { id := 2, ctx := 0, turn := 0, holder := none, dom := 0, keygen := 0, scope := 0, first := 0, hashes := [] }
/-- `ctxed` with a turn that has not been matched, and with a pin request of it to node 7. -/
def turning : State := ctxed.updCtx 3 (fun c => { c with turn := some aTurn })
def pinWait : DirWait := { aWait with ctx := 3, turn := theCtx.turns, holder := some 7 }
def pinWaiting : State := { turning with pfx := { turning.pfx with waits := [pinWait] } }
def awaiting : State := { State.reset with pfx := { State.reset.pfx with waits := [aWait] } }

/-- Port 0 in a state of Table LNK-4. -/
def onP (st : Nat) : State := State.reset.setPort 0 st
/-- A flit of this sled, and a port that holds it unacknowledged as SEQ 0 or in its queue. -/
def aFlit : Flit := { cls := 2, vc := 0, epoch := 0, dst := 7, src := ownNode State.reset, tenant := 0, nepoch := 0, rtag := 6, payload := 0 }
def unacked (st : Nat) : State := (onP st).updLport 0 (fun l => { l with unacked := [(0, aFlit)] })
def queued (st : Nat) : State := { (onP st).updLport 0 (fun l => { l with queue := [⟨aFlit, 0, none⟩] }) with tb := 100000 }

/-- A launch of a span of this sled and node 7, on cluster 0. -/
def twoSleds : State := (running []).updLch 0 (fun l => { l with spanId := 5, span := [(ownNode State.reset, 1), (7, 1)] })
def twoSledsL : Launch := (twoSleds.lch 0).getD (theLaunch twoSleds)
/-- A page of node 7 on its way here, and one held whole. -/
def aXfer : Xfer := { node := 7, move := 3, handle := 1, page := 0, stored := 64, crc := 0, tag := 6, heard := 0 }
def lending (x : Xfer) : State := { State.reset with lnk := { State.reset.lnk with lent := [x] } }
/-- Room of 2 MiB to lend in T1. -/
def lender : State := State.reset.putN Reg.HIE_LEND_T1 1
/-- A request of this sled to node 7. -/
def outReq (u : ReqFor) : State := { State.reset with lnk := { State.reset.lnk with reqs := [⟨6, 7, 0, u⟩] } }
/-- A time exchange that waits for its answer, at port 0. -/
def syncing (l : Bool) : State := { (onP 5).putN Reg.LNK_TIME_PARENT 0 with lnk := { (onP 5).lnk with sync := { seq := 4, t1 := some 100, locked := l } } }

/-- `hosted` with a stalled PF, with a read outstanding, and with VF 1 present and leased long ago. -/
def wrStalled_ : State := hosted.updFn 0 (fun n => { n with wrStalled := true })
def aRead : HostRead := { tag := 2, fn := 0, slot := 0, use := .write 9, iova := 4096, len := 1, since := 0 }
def readingHost : State := { hosted with reads := [aRead], tb := 60000000 }
def twoFns : State := { hosted.updFn 1 (fun n => { n with leaseLive := true }) with hif := { hosted.hif with vfs := 1 }, tb := 60000001 }

/-- The Lodge die between a system calibration's phases: 16 good outputs taken. -/
def sysDone : State := { State.reset with adc := { State.reset.adc with syscal := some ⟨false, 3, 0, 0, false, 0, 16, ⟨0, 1⟩, false⟩ } }
/-- A ΣΔ self-calibration that runs. -/
def sdCaling : State := { State.reset with adc := { State.reset.adc with sdCal := some 0 } }
/-- Channel `ch` of the chain runs with response `r`, and its next output is due. -/
def decOn (ch r : Nat) : State := { ((State.reset.setBit (Reg.DEC_CFG ch) 11 true).setFld (Reg.DEC_CFG ch) 0 3 r) with tb := 100000 }
/-- Every channel of the chain runs. -/
def allDec : State := (List.range 8).foldl (fun s ch => s.setBit (Reg.DEC_CFG ch) 11 true) State.reset

/-- The rails of the panel in a state. -/
def onRails (r : PnlRails) : State := { State.reset with pnl := { State.reset.pnl with rails := r } }
/-- A zone's update as it waits, and while it drives. -/
def anUpd (d : Bool) : PnlUpd := { mode := 1, driving := d }
/-- The Lodge die after it has stopped. -/
def lodgeOff : State := { State.reset with hld := { State.reset.hld with ph := .off } }

/-- A probe at the service port; the sled locked, and unlocked. -/
def probed : State := { State.reset with tap := { State.reset.tap with present := true } }
def probedOpen : State := probed.setBit Reg.LDG_STRAP 14 true
/-- The sideband target with a dynamic address, and with an address write. -/
def dynamic_ : State := { State.reset with sb := { State.reset.sb with dyn := some 9 } }

/-- What meets the hypotheses of EmptyQueueLetsTimePass. -/
theorem witness_EmptyQueueLetsTimePass :
    (∃ (s : State), s.pending = []) ∧
    (∃ (s : State), (s.hld.ph = .off ∨ s.rst.xtalOk = false)) ∧
    (∃ (s : State), s.hld.ph ≠ .off ∧ s.rst.xtalOk = true ∧ s.rdN Reg.PWR_STATE ≠ 3 ∧ s.lnk.sync.slew = 0 ∧ s.lnk.sync.phase.natAbs < 100 * ticksPerUs) :=
  ⟨⟨State.reset, by decide +kernel⟩,
    ⟨{ State.reset with rst := { xtalOk := false } }, by decide +kernel⟩,
    ⟨State.reset.putN Reg.PWR_STATE 5, by decide +kernel⟩⟩

/-- What meets the hypotheses of RegisterWriteObeysAccessCodes. -/
theorem witness_RegisterWriteObeysAccessCodes :
    (∃ (a : Nat) (w : Word) (s : State) (r : RegRow), reaches s 0 none = true ∧ served s a = true ∧ a % 4 = 0 ∧ inLodge a = false ∧ ¬ (0x400000 ≤ a ∧ a < 0x500000) ∧ writeAct a w s = none ∧ regRow a = some r ∧ r.cell a = (a, false) ∧ fieldRules a = []) ∧
    (∃ (a : Nat) (w : Word) (s : State) (r : RegRow), reaches s 0 none = true ∧ served s a = true ∧ a % 4 = 0 ∧ inLodge a = false ∧ ¬ (0x400000 ≤ a ∧ a < 0x500000) ∧ writeAct a w s = none ∧ regRow a = some r ∧ r.cell a = (a, false) ∧ fieldRules a = [] ∧ r.rw = 0 ∧ r.rw1c = 0 ∧ r.stg ≠ 0) ∧
    (∃ (a : Nat) (w : Word) (s : State), reaches s 0 none = true ∧ served s a = true ∧ a % 4 = 0 ∧ inLodge a = false ∧ ¬ (0x400000 ≤ a ∧ a < 0x500000) ∧ writeAct a w s = none ∧ regRow a = none) :=
  ⟨⟨Reg.FW_NOTICE, 5, hosted.putN Reg.FW_NOTICE 31, (regRow Reg.FW_NOTICE).getD (reg "" 0 1 1 1 1 false 0 0 0 0 false 0 .kept .kept), by decide +kernel⟩,
    ⟨(Reg.ADM_QUOTA 0 0), 5, hosted, (regRow (Reg.ADM_QUOTA 0 0)).getD (reg "" 0 1 1 1 1 false 0 0 0 0 false 0 .kept .kept), by decide +kernel⟩,
    ⟨0x18, 5, hosted, by decide +kernel⟩⟩

/-- What meets the hypotheses of RegisterReadAndWideLatch. -/
theorem witness_RegisterReadAndWideLatch :
    (∃ (a : Nat) (s : State) (r : RegRow), reaches s 0 none = true ∧ served s a = true ∧ a % 4 = 0 ∧ inLodge a = false ∧ ¬ (0x400000 ≤ a ∧ a < 0x500000) ∧ a ∉ meterAddrs ∧ regRow a = some r ∧ r.cell a = (a, false) ∧ viewCell s a = none ∧ wideOf wideRegs (some r) a = none) ∧
    (∃ (a n : Nat) (s : State), reaches s 0 none = true ∧ served s a = true ∧ a % 4 = 0 ∧ inLodge a = false ∧ ¬ (0x400000 ≤ a ∧ a < 0x500000) ∧ a ∉ meterAddrs ∧ wideOf wideRegs (regRow a) a = some (a, n)) ∧
    (∃ (a n i : Nat) (s : State) (l : Latch), reaches s 0 none = true ∧ served s (a + 4 * i) = true ∧ a % 4 = 0 ∧ inLodge (a + 4 * i) = false ∧ ¬ (0x400000 ≤ a + 4 * i ∧ a + 4 * i < 0x500000) ∧ 0 < i ∧ a + 4 * i ∉ meterAddrs ∧ wideOf wideRegs (regRow (a + 4 * i)) (a + 4 * i) = some (a, n) ∧ latchOf s 0 none a = some l) ∧
    (∃ (a n i : Nat) (s : State), reaches s 0 none = true ∧ served s (a + 4 * i) = true ∧ a % 4 = 0 ∧ inLodge (a + 4 * i) = false ∧ ¬ (0x400000 ≤ a + 4 * i ∧ a + 4 * i < 0x500000) ∧ 0 < i ∧ a + 4 * i ∉ meterAddrs ∧ wideOf wideRegs (regRow (a + 4 * i)) (a + 4 * i) = some (a, n) ∧ latchOf s 0 none a = none) ∧
    (∃ (a : Nat) (s : State), reaches s 0 none = false) :=
  ⟨⟨Reg.FW_NOTICE, hosted, (regRow Reg.FW_NOTICE).getD (reg "" 0 1 1 1 1 false 0 0 0 0 false 0 .kept .kept), by decide +kernel⟩,
    ⟨Reg.FLT_PRG_ORDER_VIOL, 2, hosted, by decide +kernel⟩,
    ⟨Reg.FLT_PRG_ORDER_VIOL, 2, 1, setLatch 0 none Reg.FLT_PRG_ORDER_VIOL (some [1, 2]) hosted, ⟨0, none, Reg.FLT_PRG_ORDER_VIOL, [1, 2]⟩, by decide +kernel⟩,
    ⟨Reg.FLT_PRG_ORDER_VIOL, 2, 1, hosted, by decide +kernel⟩,
    ⟨0, State.reset, by decide +kernel⟩⟩

/-- What meets the hypotheses of StagedCommitAppliesTheTakenValues. -/
theorem witness_StagedCommitAppliesTheTakenValues :
    (∃ (a : Nat) (w : Word) (s : State) (g : Nat → Bool), ((a, g) ∈ ([(Reg.PWR_CAP_COMMIT, capGroup), (Reg.TIER_WM_COMMIT, wmGroup), (Reg.PFX_DOM_COMMIT, domGroup), (Reg.SCH_COMMIT, schGroup)] : List (Nat × (Nat → Bool)))) ∧ reaches s 0 none = true ∧ inSafe s = false) ∧
    (∃ (a : Nat) (vs : RegFile) (s : State), (a = Reg.PFX_DOM_COMMIT ∨ a = Reg.SCH_COMMIT ∨ a = Reg.PWR_CAP_COMMIT) ∧ s.inflight.find? (fun c => c.1 == a) = some (a, vs) ∧ (vs.map (·.1)).Nodup) ∧
    (∃ (a : Nat) (s : State), s.inflight.any (fun c => c.1 == a) = false) :=
  ⟨⟨Reg.SCH_COMMIT, 1, hosted, schGroup, by rw [List.mem_cons, List.mem_cons, List.mem_cons, List.mem_cons]; exact .inr (.inr (.inr (.inl rfl))), by decide +kernel⟩,
    ⟨Reg.SCH_COMMIT, [(Reg.SCH_HORIZON, 300)], { State.reset with inflight := [(Reg.SCH_COMMIT, [(Reg.SCH_HORIZON, 300)])] }, .inr (.inl rfl), by decide +kernel⟩,
    ⟨Reg.SCH_COMMIT, State.reset, by decide +kernel⟩⟩

/-- What meets the hypotheses of PersistentWriteCompletes. -/
theorem witness_PersistentWriteCompletes :
    (∃ (a : Nat) (s : State), a ≠ Reg.ADC_SYSCAL_SAVE ∧ a ≠ Reg.MTR_CAL) ∧
    (∃ (s : State) (m : Map (Ratio × Ratio)), s.adc.saving = some m) ∧
    (∃ (s : State), s.mtr.saving = true) ∧
    (∃ (a : Nat) (s : State), ((a = Reg.ADC_SYSCAL_SAVE ∧ s.adc.saving = none) ∨ (a = Reg.MTR_CAL ∧ s.mtr.saving = false))) :=
  ⟨⟨Reg.PWR_CAP_W, State.reset, by decide +kernel⟩,
    ⟨{ State.reset with adc := { State.reset.adc with saving := some [] } }, [], by decide +kernel⟩,
    ⟨{ State.reset with mtr := { State.reset.mtr with saving := true } }, by decide +kernel⟩,
    ⟨Reg.MTR_CAL, State.reset, by decide +kernel⟩⟩

/-- What meets the hypotheses of WellFormedCommandsComplete. -/
theorem witness_WellFormedCommandsComplete :
    (∃ (i : Instr) (s : State), i.wellFormed = true) :=
  ⟨.clNop 0 0, State.reset, by decide +kernel⟩

/-- What meets the hypotheses of InstructionWordsRoundTrip. -/
theorem witness_InstructionWordsRoundTrip :
    (∃ (i : Instr) (u : Nat) (w : BitVec 64), encodeProgram i = some (u, w)) ∧
    (∃ (i : Instr) (u : Nat) (w : BitVec 64), decodeProgram u w = some i) :=
  ⟨⟨.clAdd 3 5, 3, 0x0100000000000005, by decide +kernel⟩,
    ⟨.clAdd 3 5, 3, 0x0100000000000005, by decide +kernel⟩⟩

/-- What meets the hypotheses of ResetValues. -/
theorem witness_ResetValues :
    (∃ (p : Nat), p < 18) ∧
    (∃ (i j : Nat), i < 4 ∧ j < 6) ∧
    (∃ (f : Nat), f < 32) :=
  ⟨⟨3, by decide +kernel⟩,
    ⟨0, 5, by decide +kernel⟩,
    ⟨31, by decide +kernel⟩⟩

/-- What meets the hypotheses of ClusterScalarInstructions. -/
theorem witness_ClusterScalarInstructions :
    (∃ (p : (Nat → BitVec 56 → Instr) × Nat × (DWord → DWord → DWord)) (k : Nat) (w : BitVec 56) (s : State) (c : Cluster) (l : Launch), (p ∈ ([(.clAdd, 0x01, fun x y => x + y), (.clSub, 0x02, fun x y => x - y), (.clMul, 0x03, fun x y => x * y), (.clMulh, 0x04, fun x y => (x.signExtend 128 * y.signExtend 128).extractLsb' 64 64), (.clMulhu, 0x05, fun x y => (x.zeroExtend 128 * y.zeroExtend 128).extractLsb' 64 64), (.clAnd, 0x0A, fun x y => x &&& y), (.clOr, 0x0B, fun x y => x ||| y), (.clXor, 0x0C, fun x y => x ^^^ y), (.clShl, 0x0D, fun x y => x <<< (y.toNat % 64)), (.clShr, 0x0E, fun x y => x >>> (y.toNat % 64)), (.clSar, 0x0F, fun x y => x.sshiftRight (y.toNat % 64)), (.clMin, 0x10, fun x y => if x.toInt < y.toInt then x else y), (.clMax, 0x11, fun x y => if x.toInt < y.toInt then y else x), (.clMinu, 0x12, fun x y => if x.toNat < y.toNat then x else y), (.clMaxu, 0x13, fun x y => if x.toNat < y.toNat then y else x)] : List ((Nat → BitVec 56 → Instr) × Nat × (DWord → DWord → DWord)))) ∧ Issuing s k p.2.1 w c l ∧ Guarded c p.2.1 w ∧ Enc.ok ⟨.r32, .r32, .r32, .no, plainR⟩ (wordOf p.2.1 w) = true ∧ Follows l (c.pc + 1)) ∧
    (∃ (p : (Nat → BitVec 56 → Instr) × Nat × (DWord → DWord → DWord)) (k : Nat) (w : BitVec 56) (s : State) (c : Cluster) (l : Launch), (p ∈ ([(.clDiv, 0x06, fun x y => if y = 0 then -1 else x.sdiv y), (.clDivu, 0x07, fun x y => if y = 0 then -1 else x.udiv y), (.clRem, 0x08, fun x y => if y = 0 then x else x.srem y), (.clRemu, 0x09, fun x y => if y = 0 then x else x.umod y)] : List ((Nat → BitVec 56 → Instr) × Nat × (DWord → DWord → DWord)))) ∧ Issuing s k p.2.1 w c l ∧ Guarded c p.2.1 w ∧ Enc.ok ⟨.r32, .r32, .r32, .no, plainR⟩ (wordOf p.2.1 w) = true ∧ Follows l (c.pc + 1)) ∧
    (∃ (p : (Nat → BitVec 56 → Instr) × Nat × (DWord → DWord → DWord)) (k : Nat) (w : BitVec 56) (s : State) (c : Cluster) (l : Launch), (p ∈ ([(.clAddi, 0x18, fun x i => x + i), (.clAndi, 0x19, fun x i => x &&& i), (.clOri, 0x1A, fun x i => x ||| i), (.clXori, 0x1B, fun x i => x ^^^ i)] : List ((Nat → BitVec 56 → Instr) × Nat × (DWord → DWord → DWord)))) ∧ Issuing s k p.2.1 w c l ∧ Guarded c p.2.1 w ∧ wB (wordOf p.2.1 w) = 0 ∧ wC (wordOf p.2.1 w) = 0 ∧ Follows l (c.pc + 1)) ∧
    (∃ (p : (Nat → BitVec 56 → Instr) × Nat × (DWord → Nat → DWord)) (k : Nat) (w : BitVec 56) (s : State) (c : Cluster) (l : Launch), (p ∈ ([(.clShli, 0x1C, fun x n => x <<< n), (.clShri, 0x1D, fun x n => x >>> n), (.clSari, 0x1E, fun x n => x.sshiftRight n)] : List ((Nat → BitVec 56 → Instr) × Nat × (DWord → Nat → DWord)))) ∧ Issuing s k p.2.1 w c l ∧ Guarded c p.2.1 w ∧ wB (wordOf p.2.1 w) = 0 ∧ wC (wordOf p.2.1 w) = 0 ∧ wImmU (wordOf p.2.1 w) < 64 ∧ Follows l (c.pc + 1)) ∧
    (∃ (k : Nat) (w : BitVec 56) (s : State) (c : Cluster) (l : Launch), Issuing s k 0x00 w c l ∧ Guarded c 0x00 w ∧ Enc.ok {} (wordOf 0x00 w) = true ∧ Follows l (c.pc + 1)) ∧
    (∃ (k : Nat) (w : BitVec 56) (s : State) (c : Cluster) (l : Launch), Issuing s k 0x1F w c l ∧ Guarded c 0x1F w ∧ Enc.ok ⟨.r32, .no, .no, .no, .imm⟩ (wordOf 0x1F w) = true ∧ Follows l (c.pc + 1)) ∧
    (∃ (k : Nat) (w : BitVec 56) (s : State) (c : Cluster) (l : Launch), Issuing s k 0x20 w c l ∧ Guarded c 0x20 w ∧ Enc.ok ⟨.r32, .no, .no, .no, .imm⟩ (wordOf 0x20 w) = true ∧ Follows l (c.pc + 1)) ∧
    (∃ (k : Nat) (w : BitVec 56) (s : State) (c : Cluster) (l : Launch), Issuing s k 0x24 w c l ∧ Guarded c 0x24 w ∧ Enc.ok ⟨.r32, .no, .no, .no, .immBelow 10⟩ (wordOf 0x24 w) = true ∧ wImmU (wordOf 0x24 w) ≠ 2 ∧ Follows l (c.pc + 1)) ∧
    (∃ (k : Nat) (w : BitVec 56) (s : State) (c : Cluster) (l : Launch), Issuing s k 0x25 w c l ∧ Guarded c 0x25 w ∧ Enc.ok ⟨.no, .no, .no, .no, .immBelow 128⟩ (wordOf 0x25 w) = true ∧ Follows l (c.pc + 1)) ∧
    (∃ (k : Nat) (w : BitVec 56) (s : State) (c : Cluster) (l : Launch), Issuing s k 0x26 w c l ∧ Guarded c 0x26 w ∧ Enc.ok ⟨.r16, .r32, .no, .no, plainR⟩ (wordOf 0x26 w) = true ∧ Follows l (c.pc + 1)) ∧
    (∃ (k : Nat) (w : BitVec 56) (s : State) (c : Cluster) (l : Launch), Issuing s k 0x27 w c l ∧ Guarded c 0x27 w ∧ Enc.ok ⟨.r32, .r16, .no, .no, plainR⟩ (wordOf 0x27 w) = true ∧ Follows l (c.pc + 1)) ∧
    (∃ (k : Nat) (w : BitVec 56) (s : State) (c : Cluster) (l : Launch), Issuing s k 0x28 w c l ∧ Guarded c 0x28 w ∧ Enc.ok ⟨.r16, .r16, .r32, .no, plainR⟩ (wordOf 0x28 w) = true ∧ Follows l (c.pc + 1)) :=
  ⟨⟨(Instr.clAdd, 0x01, fun x y => x + y), 0, packR 0 0 3 1 2 0 0 0 0 0 0, running (one 0x01 (packR 0 0 3 1 2 0 0 0 0 0 0)), theCluster (running []), theLaunch (running (one 0x01 (packR 0 0 3 1 2 0 0 0 0 0 0))), List.mem_cons_self, by decide +kernel⟩,
    ⟨(Instr.clDiv, 0x06, fun x y => if y = 0 then -1 else x.sdiv y), 0, packR 0 0 3 1 2 0 0 0 0 0 0, running (one 0x06 (packR 0 0 3 1 2 0 0 0 0 0 0)), theCluster (running []), theLaunch (running (one 0x06 (packR 0 0 3 1 2 0 0 0 0 0 0))), List.mem_cons_self, by decide +kernel⟩,
    ⟨(Instr.clAddi, 0x18, fun x i => x + i), 0, packI 0 0 3 1 0 0 0xFFFFFFFF, running (one 0x18 (packI 0 0 3 1 0 0 0xFFFFFFFF)), theCluster (running []), theLaunch (running (one 0x18 (packI 0 0 3 1 0 0 0xFFFFFFFF))), List.mem_cons_self, by decide +kernel⟩,
    ⟨(Instr.clShli, 0x1C, fun x n => x <<< n), 0, packI 0 0 3 1 0 0 63, running (one 0x1C (packI 0 0 3 1 0 0 63)), theCluster (running []), theLaunch (running (one 0x1C (packI 0 0 3 1 0 0 63))), List.mem_cons_self, by decide +kernel⟩,
    ⟨0, 0, running (one 0x00 (0)), theCluster (running []), theLaunch (running (one 0x00 (0))), by decide +kernel⟩,
    ⟨0, packI 0 0 3 0 0 0 0xFFFFFFFF, running (one 0x1F (packI 0 0 3 0 0 0 0xFFFFFFFF)), theCluster (running []), theLaunch (running (one 0x1F (packI 0 0 3 0 0 0 0xFFFFFFFF))), by decide +kernel⟩,
    ⟨0, packI 0 0 1 0 0 0 1, running (one 0x20 (packI 0 0 1 0 0 0 1)), theCluster (running []), theLaunch (running (one 0x20 (packI 0 0 1 0 0 0 1))), by decide +kernel⟩,
    ⟨0, packI 0 0 3 0 0 0 3, running (one 0x24 (packI 0 0 3 0 0 0 3)), theCluster (running []), theLaunch (running (one 0x24 (packI 0 0 3 0 0 0 3))), by decide +kernel⟩,
    ⟨0, packI 0 0 0 0 0 0 127, running (one 0x25 (packI 0 0 0 0 0 0 127)), theCluster (running []), theLaunch (running (one 0x25 (packI 0 0 0 0 0 0 127))), by decide +kernel⟩,
    ⟨0, packR 0 0 15 1 0 0 0 0 0 0 0, running (one 0x26 (packR 0 0 15 1 0 0 0 0 0 0 0)), theCluster (running []), theLaunch (running (one 0x26 (packR 0 0 15 1 0 0 0 0 0 0 0))), by decide +kernel⟩,
    ⟨0, packR 0 0 31 15 0 0 0 0 0 0 0, running (one 0x27 (packR 0 0 31 15 0 0 0 0 0 0 0)), theCluster (running []), theLaunch (running (one 0x27 (packR 0 0 31 15 0 0 0 0 0 0 0))), by decide +kernel⟩,
    ⟨0, packR 0 0 15 1 2 0 0 0 0 0 0, running (one 0x28 (packR 0 0 15 1 2 0 0 0 0 0 0)), theCluster (running []), theLaunch (running (one 0x28 (packR 0 0 15 1 2 0 0 0 0 0 0))), by decide +kernel⟩⟩

/-- What meets the hypotheses of ClusterScalarInstructions. -/
theorem witness_ClusterScalarInstructions_2 :
    (∃ (k : Nat) (w : BitVec 56) (s : State) (c : Cluster) (l : Launch), Issuing s k 0x29 w c l ∧ Guarded c 0x29 w ∧ Enc.ok ⟨.r16, .r32, .no, .no, plainR⟩ (wordOf 0x29 w) = true ∧ Follows l (c.pc + 1)) ∧
    (∃ (k : Nat) (w : BitVec 56) (s : State) (c : Cluster) (l : Launch), Issuing s k 0x2A w c l ∧ Guarded c 0x2A w ∧ Enc.ok ⟨.r32, .r16, .no, .no, plainR⟩ (wordOf 0x2A w) = true ∧ Follows l (c.pc + 1)) ∧
    (∃ (k : Nat) (w : BitVec 56) (s : State) (c : Cluster) (l : Launch), Issuing s k 0x2B w c l ∧ Guarded c 0x2B w ∧ Enc.ok ⟨.r16, .r16, .no, .no, plainR⟩ (wordOf 0x2B w) = true ∧ Follows l (c.pc + 1)) :=
  ⟨⟨0, packR 0 0 15 1 0 0 0 0 0 0 0, running (one 0x29 (packR 0 0 15 1 0 0 0 0 0 0 0)), theCluster (running []), theLaunch (running (one 0x29 (packR 0 0 15 1 0 0 0 0 0 0 0))), by decide +kernel⟩,
    ⟨0, packR 0 0 31 15 0 0 0 0 0 0 0, running (one 0x2A (packR 0 0 31 15 0 0 0 0 0 0 0)), theCluster (running []), theLaunch (running (one 0x2A (packR 0 0 31 15 0 0 0 0 0 0 0))), by decide +kernel⟩,
    ⟨0, packR 0 0 15 1 0 0 0 0 0 0 0, running (one 0x2B (packR 0 0 15 1 0 0 0 0 0 0 0)), theCluster (running []), theLaunch (running (one 0x2B (packR 0 0 15 1 0 0 0 0 0 0 0))), by decide +kernel⟩⟩

/-- What meets the hypotheses of ClusterPredicates. -/
theorem witness_ClusterPredicates :
    (∃ (k : Nat) (w : BitVec 56) (s : State) (c : Cluster) (l : Launch), Issuing s k 0x21 w c l ∧ Guarded c 0x21 w ∧ Enc.ok ⟨.r8, .r32, .r32, .no, .r 6 [] false false 0⟩ (wordOf 0x21 w) = true ∧ Follows l (c.pc + 1)) ∧
    (∃ (k : Nat) (w : BitVec 56) (s : State) (c : Cluster) (l : Launch), Issuing s k 0x22 w c l ∧ Guarded c 0x22 w ∧ Enc.ok ⟨.r8, .r32, .no, .code 6, .imm⟩ (wordOf 0x22 w) = true ∧ Follows l (c.pc + 1)) ∧
    (∃ (k : Nat) (w : BitVec 56) (s : State) (c : Cluster) (l : Launch), Issuing s k 0x23 w c l ∧ Guarded c 0x23 w ∧ Enc.ok (plogEnc (wSub w.toNat)) (wordOf 0x23 w) = true ∧ Follows l (c.pc + 1)) :=
  ⟨⟨0, packR 0 0 7 1 2 0 5 0 0 0 0, running (one 0x21 (packR 0 0 7 1 2 0 5 0 0 0 0)), theCluster (running []), theLaunch (running (one 0x21 (packR 0 0 7 1 2 0 5 0 0 0 0))), by decide +kernel⟩,
    ⟨0, packI 0 0 7 1 0 5 0xFFFFFFFF, running (one 0x22 (packI 0 0 7 1 0 5 0xFFFFFFFF)), theCluster (running []), theLaunch (running (one 0x22 (packI 0 0 7 1 0 5 0xFFFFFFFF))), by decide +kernel⟩,
    ⟨0, packR 0 0 3 1 0 0 6 0 0 0 0, running (one 0x23 (packR 0 0 3 1 0 0 6 0 0 0 0)), theCluster (running []), theLaunch (running (one 0x23 (packR 0 0 3 1 0 0 6 0 0 0 0))), by decide +kernel⟩⟩

/-- What meets the hypotheses of ClusterBranches. -/
theorem witness_ClusterBranches :
    (∃ (k t : Nat) (w : BitVec 56) (s : State) (c : Cluster) (l : Launch), Issuing s k 0x30 w c l ∧ Guarded c 0x30 w ∧ Enc.ok ⟨.no, .no, .no, .no, .imm⟩ (wordOf 0x30 w) = true ∧ (c.pc : Int) + ((BitVec.ofNat 32 (wordOf 0x30 w)).signExtend 64).toInt = t ∧ Follows l t) ∧
    (∃ (k t : Nat) (w : BitVec 56) (s : State) (c : Cluster) (l : Launch), Issuing s k 0x30 w c l ∧ Guarded c 0x30 w ∧ Enc.ok ⟨.no, .no, .no, .no, .imm⟩ (wordOf 0x30 w) = true ∧ ((c.pc : Int) + ((BitVec.ofNat 32 (wordOf 0x30 w)).signExtend 64).toInt < 0 ∨ (l.code.length : Int) ≤ c.pc + ((BitVec.ofNat 32 (wordOf 0x30 w)).signExtend 64).toInt)) ∧
    (∃ (k t : Nat) (w : BitVec 56) (s : State) (c : Cluster) (l : Launch), Issuing s k 0x31 w c l ∧ Guarded c 0x31 w ∧ Enc.ok ⟨.no, .r32, .no, .no, .imm⟩ (wordOf 0x31 w) = true ∧ c.sr (wA (wordOf 0x31 w)) = 0 ∧ (c.pc : Int) + ((BitVec.ofNat 32 (wordOf 0x31 w)).signExtend 64).toInt = t ∧ Follows l t) ∧
    (∃ (k t : Nat) (w : BitVec 56) (s : State) (c : Cluster) (l : Launch), Issuing s k 0x31 w c l ∧ Guarded c 0x31 w ∧ Enc.ok ⟨.no, .r32, .no, .no, .imm⟩ (wordOf 0x31 w) = true ∧ c.sr (wA (wordOf 0x31 w)) ≠ 0 ∧ Follows l (c.pc + 1)) ∧
    (∃ (k t : Nat) (w : BitVec 56) (s : State) (c : Cluster) (l : Launch), Issuing s k 0x32 w c l ∧ Guarded c 0x32 w ∧ Enc.ok ⟨.no, .r32, .no, .no, .imm⟩ (wordOf 0x32 w) = true ∧ c.sr (wA (wordOf 0x32 w)) ≠ 0 ∧ (c.pc : Int) + ((BitVec.ofNat 32 (wordOf 0x32 w)).signExtend 64).toInt = t ∧ Follows l t) ∧
    (∃ (k t : Nat) (w : BitVec 56) (s : State) (c : Cluster) (l : Launch), Issuing s k 0x32 w c l ∧ Guarded c 0x32 w ∧ Enc.ok ⟨.no, .r32, .no, .no, .imm⟩ (wordOf 0x32 w) = true ∧ c.sr (wA (wordOf 0x32 w)) = 0 ∧ Follows l (c.pc + 1)) ∧
    (∃ (k t : Nat) (w : BitVec 56) (s : State) (c : Cluster) (l : Launch), Issuing s k 0x33 w c l ∧ Guarded c 0x33 w ∧ Enc.ok ⟨.no, .r32, .no, .no, .imm⟩ (wordOf 0x33 w) = true ∧ c.sr (wA (wordOf 0x33 w)) ≠ 1 ∧ (c.pc : Int) + ((BitVec.ofNat 32 (wordOf 0x33 w)).signExtend 64).toInt = t ∧ Follows l t) ∧
    (∃ (k t : Nat) (w : BitVec 56) (s : State) (c : Cluster) (l : Launch), Issuing s k 0x33 w c l ∧ Guarded c 0x33 w ∧ Enc.ok ⟨.no, .r32, .no, .no, .imm⟩ (wordOf 0x33 w) = true ∧ c.sr (wA (wordOf 0x33 w)) = 1 ∧ Follows l (c.pc + 1)) ∧
    (∃ (k t : Nat) (w : BitVec 56) (s : State) (c : Cluster) (l : Launch), Issuing s k 0x34 w c l ∧ Guarded c 0x34 w ∧ Enc.ok ⟨.r32, .no, .no, .no, .imm⟩ (wordOf 0x34 w) = true ∧ (c.pc : Int) + ((BitVec.ofNat 32 (wordOf 0x34 w)).signExtend 64).toInt = t ∧ Follows l t) ∧
    (∃ (k t : Nat) (w : BitVec 56) (s : State) (c : Cluster) (l : Launch), Issuing s k 0x35 w c l ∧ Guarded c 0x35 w ∧ Enc.ok ⟨.no, .r32, .no, .no, plainR⟩ (wordOf 0x35 w) = true ∧ (c.sr (wA (wordOf 0x35 w))).toNat = t ∧ Follows l t) ∧
    (∃ (k t : Nat) (w : BitVec 56) (s : State) (c : Cluster) (l : Launch), Issuing s k 0x35 w c l ∧ Guarded c 0x35 w ∧ Enc.ok ⟨.no, .r32, .no, .no, plainR⟩ (wordOf 0x35 w) = true ∧ l.code.length ≤ (c.sr (wA (wordOf 0x35 w))).toNat) ∧
    (∃ (k t : Nat) (w : BitVec 56) (s : State) (c : Cluster) (l : Launch), Issuing s k 0x36 w c l ∧ Guarded c 0x36 w ∧ Enc.ok {} (wordOf 0x36 w) = true ∧ c.moves = [] ∧ c.port = [] ∧ c.failed = []) :=
  ⟨⟨0, 1, packI 0 0 0 0 0 0 1, running (one 0x30 (packI 0 0 0 0 0 0 1)), theCluster (running []), theLaunch (running (one 0x30 (packI 0 0 0 0 0 0 1))), by decide +kernel⟩,
    ⟨0, 0, packI 0 0 0 0 0 0 2, running (one 0x30 (packI 0 0 0 0 0 0 2)), theCluster (running []), theLaunch (running (one 0x30 (packI 0 0 0 0 0 0 2))), by decide +kernel⟩,
    ⟨0, 1, packI 0 0 0 3 0 0 1, running (one 0x31 (packI 0 0 0 3 0 0 1)), theCluster (running []), theLaunch (running (one 0x31 (packI 0 0 0 3 0 0 1))), by decide +kernel⟩,
    ⟨0, 0, packI 0 0 0 1 0 0 9, running (one 0x31 (packI 0 0 0 1 0 0 9)), theCluster (running []), theLaunch (running (one 0x31 (packI 0 0 0 1 0 0 9))), by decide +kernel⟩,
    ⟨0, 1, packI 0 0 0 1 0 0 1, running (one 0x32 (packI 0 0 0 1 0 0 1)), theCluster (running []), theLaunch (running (one 0x32 (packI 0 0 0 1 0 0 1))), by decide +kernel⟩,
    ⟨0, 0, packI 0 0 0 0 0 0 9, running (one 0x32 (packI 0 0 0 0 0 0 9)), theCluster (running []), theLaunch (running (one 0x32 (packI 0 0 0 0 0 0 9))), by decide +kernel⟩,
    ⟨0, 1, packI 0 0 0 1 0 0 1, running (one 0x33 (packI 0 0 0 1 0 0 1)), theCluster (running []), theLaunch (running (one 0x33 (packI 0 0 0 1 0 0 1))), by decide +kernel⟩,
    ⟨0, 0, packI 0 0 0 1 0 0 1, (running (one 0x33 (packI 0 0 0 1 0 0 1))).setClu 0 ((theCluster (running [])).setS 1 1), (theCluster (running [])).setS 1 1, theLaunch ((running (one 0x33 (packI 0 0 0 1 0 0 1))).setClu 0 ((theCluster (running [])).setS 1 1)), by decide +kernel⟩,
    ⟨0, 1, packI 0 0 3 0 0 0 1, running (one 0x34 (packI 0 0 3 0 0 0 1)), theCluster (running []), theLaunch (running (one 0x34 (packI 0 0 3 0 0 0 1))), by decide +kernel⟩,
    ⟨0, 0, packR 0 0 0 4 0 0 0 0 0 0 0, running (one 0x35 (packR 0 0 0 4 0 0 0 0 0 0 0)), theCluster (running []), theLaunch (running (one 0x35 (packR 0 0 0 4 0 0 0 0 0 0 0))), by decide +kernel⟩,
    ⟨0, 0, packR 0 0 0 1 0 0 0 0 0 0 0, running (one 0x35 (packR 0 0 0 1 0 0 0 0 0 0 0)), theCluster (running []), theLaunch (running (one 0x35 (packR 0 0 0 1 0 0 0 0 0 0 0))), by decide +kernel⟩,
    ⟨0, 0, 0, running (one 0x36 (0)), theCluster (running []), theLaunch (running (one 0x36 (0))), by decide +kernel⟩⟩

/-- What meets the hypotheses of ClusterBranches. -/
theorem witness_ClusterBranches_2 :
    (∃ (k t : Nat) (w : BitVec 56) (s : State) (c : Cluster) (l : Launch), Issuing s k 0x36 w c l ∧ Guarded c 0x36 w ∧ Enc.ok {} (wordOf 0x36 w) = true ∧ (c.moves ≠ [] ∨ c.port ≠ [])) :=
  ⟨0, 0, 0, (running (one 0x36 0)).setClu 0 { theCluster (running []) with port := [5] }, { theCluster (running []) with port := [5] }, theLaunch ((running (one 0x36 0)).setClu 0 { theCluster (running []) with port := [5] }), by decide +kernel⟩

/-- What meets the hypotheses of ClusterUnrunInstructions. -/
theorem witness_ClusterUnrunInstructions :
    (∃ (p : (Nat → BitVec 56 → Instr) × Nat) (k : Nat) (w : BitVec 56) (s : State) (c : Cluster) (l : Launch), (p ∈ ([(.clAdd, 0x01), (.clSub, 0x02), (.clMul, 0x03), (.clMulh, 0x04), (.clMulhu, 0x05), (.clDiv, 0x06), (.clDivu, 0x07), (.clRem, 0x08), (.clRemu, 0x09), (.clAnd, 0x0A), (.clOr, 0x0B), (.clXor, 0x0C), (.clShl, 0x0D), (.clShr, 0x0E), (.clSar, 0x0F), (.clMin, 0x10), (.clMax, 0x11), (.clMinu, 0x12), (.clMaxu, 0x13)] : List ((Nat → BitVec 56 → Instr) × Nat))) ∧ Issuing s k p.2 w c l ∧ Enc.ok ⟨.r32, .r32, .r32, .no, plainR⟩ (wordOf p.2 w) = false) ∧
    (∃ (p : (Nat → BitVec 56 → Instr) × Nat) (k : Nat) (w : BitVec 56) (s : State) (c : Cluster) (l : Launch), (p ∈ ([(.clAdd, 0x01), (.clSub, 0x02), (.clMul, 0x03), (.clMulh, 0x04), (.clMulhu, 0x05), (.clDiv, 0x06), (.clDivu, 0x07), (.clRem, 0x08), (.clRemu, 0x09), (.clAnd, 0x0A), (.clOr, 0x0B), (.clXor, 0x0C), (.clShl, 0x0D), (.clShr, 0x0E), (.clSar, 0x0F), (.clMin, 0x10), (.clMax, 0x11), (.clMinu, 0x12), (.clMaxu, 0x13)] : List ((Nat → BitVec 56 → Instr) × Nat))) ∧ Issuing s k p.2 w c l ∧ c.guard (wordOf p.2 w) &&& 1 = 0 ∧ Enc.ok ⟨.r32, .r32, .r32, .no, plainR⟩ (wordOf p.2 w) = true ∧ Follows l (c.pc + 1)) :=
  ⟨⟨(Instr.clMaxu, 0x13), 0, packR 0 0 3 1 2 31 0 0 0 0 0, running (one 0x13 (packR 0 0 3 1 2 31 0 0 0 0 0)), theCluster (running []), theLaunch (running (one 0x13 (packR 0 0 3 1 2 31 0 0 0 0 0))), by simp, by decide +kernel⟩,
    ⟨(Instr.clAdd, 0x01), 0, packR 1 1 3 1 2 0 0 0 0 0 0, running (one 0x01 (packR 1 1 3 1 2 0 0 0 0 0 0)), theCluster (running []), theLaunch (running (one 0x01 (packR 1 1 3 1 2 0 0 0 0 0 0))), by simp, by decide +kernel⟩⟩

/-- What meets the hypotheses of ClusterVectorArithmetic. -/
theorem witness_ClusterVectorArithmetic :
    (∃ (k : Nat) (w : BitVec 56) (s : State) (c : Cluster) (l : Launch), Issuing s k 0x60 w c l ∧ LaneActive c 0x60 w ∧ Enc.ok (vec2 tyAll true (tyInt.contains (wTy w.toNat))) (wordOf 0x60 w) = true ∧ (wTy (wordOf 0x60 w)) < 8 ∧ Follows l (c.pc + 1)) ∧
    (∃ (k : Nat) (w : BitVec 56) (s : State) (c : Cluster) (l : Launch), Issuing s k 0x61 w c l ∧ LaneActive c 0x61 w ∧ Enc.ok (vec2 tyAll true (tyInt.contains (wTy w.toNat))) (wordOf 0x61 w) = true ∧ (wTy (wordOf 0x61 w)) < 8 ∧ Follows l (c.pc + 1)) ∧
    (∃ (k : Nat) (w : BitVec 56) (s : State) (c : Cluster) (l : Launch), Issuing s k 0x60 w c l ∧ LaneActive c 0x60 w ∧ Enc.ok (vec2 tyAll true (tyInt.contains (wTy w.toNat))) (wordOf 0x60 w) = true ∧ 8 ≤ (wTy (wordOf 0x60 w)) ∧ Follows l (c.pc + 1)) ∧
    (∃ (k : Nat) (w : BitVec 56) (s : State) (c : Cluster) (l : Launch), Issuing s k 0x61 w c l ∧ LaneActive c 0x61 w ∧ Enc.ok (vec2 tyAll true (tyInt.contains (wTy w.toNat))) (wordOf 0x61 w) = true ∧ 8 ≤ (wTy (wordOf 0x61 w)) ∧ Follows l (c.pc + 1)) ∧
    (∃ (k : Nat) (w : BitVec 56) (s : State) (c : Cluster) (l : Launch), Issuing s k 0x62 w c l ∧ LaneActive c 0x62 w ∧ Enc.ok (vec2 tyAll true false) (wordOf 0x62 w) = true ∧ Follows l (c.pc + 1)) ∧
    (∃ (k : Nat) (w : BitVec 56) (s : State) (c : Cluster) (l : Launch), Issuing s k 0x63 w c l ∧ LaneActive c 0x63 w ∧ Enc.ok ⟨.r32, .r32, .r32, .r32, .r 0 tyFloat true false 0⟩ (wordOf 0x63 w) = true ∧ Follows l (c.pc + 1)) ∧
    (∃ (k : Nat) (w : BitVec 56) (s : State) (c : Cluster) (l : Launch), Issuing s k 0x64 w c l ∧ LaneActive c 0x64 w ∧ Enc.ok (vec2 tyFloat true false) (wordOf 0x64 w) = true ∧ Follows l (c.pc + 1)) ∧
    (∃ (k : Nat) (w : BitVec 56) (s : State) (c : Cluster) (l : Launch), Issuing s k 0x65 w c l ∧ LaneActive c 0x65 w ∧ Enc.ok ⟨.r32, .r32, .no, .no, .r 0 tyFloat true false 0⟩ (wordOf 0x65 w) = true ∧ Follows l (c.pc + 1)) ∧
    (∃ (k : Nat) (w : BitVec 56) (s : State) (c : Cluster) (l : Launch), Issuing s k 0x66 w c l ∧ LaneActive c 0x66 w ∧ Enc.ok (vec2 tyAll false false) (wordOf 0x66 w) = true ∧ Follows l (c.pc + 1)) ∧
    (∃ (k : Nat) (w : BitVec 56) (s : State) (c : Cluster) (l : Launch), Issuing s k 0x67 w c l ∧ LaneActive c 0x67 w ∧ Enc.ok (vec2 tyAll false false) (wordOf 0x67 w) = true ∧ Follows l (c.pc + 1)) ∧
    (∃ (k : Nat) (w : BitVec 56) (s : State) (c : Cluster) (l : Launch), Issuing s k 0x68 w c l ∧ LaneActive c 0x68 w ∧ Enc.ok ⟨.r32, .r32, .r32, .no, .r 3 tyFloat false false 0⟩ (wordOf 0x68 w) = true ∧ Follows l (c.pc + 1)) ∧
    (∃ (k : Nat) (w : BitVec 56) (s : State) (c : Cluster) (l : Launch), Issuing s k 0x69 w c l ∧ LaneActive c 0x69 w ∧ Enc.ok ⟨.r32, .r32, .no, .no, .r 5 [0] false false 0⟩ (wordOf 0x69 w) = true ∧ Follows l (c.pc + 1)) :=
  ⟨⟨0, packR 0 0 3 1 2 0 0 2 3 0 0, running (one 0x60 (packR 0 0 3 1 2 0 0 2 3 0 0)), theCluster (running []), theLaunch (running (one 0x60 (packR 0 0 3 1 2 0 0 2 3 0 0))), by decide +kernel⟩,
    ⟨0, packR 0 0 3 1 2 0 0 0 0 0 0, running (one 0x61 (packR 0 0 3 1 2 0 0 0 0 0 0)), theCluster (running []), theLaunch (running (one 0x61 (packR 0 0 3 1 2 0 0 0 0 0 0))), by decide +kernel⟩,
    ⟨0, packR 0 0 3 1 2 0 0 8 0 1 0, running (one 0x60 (packR 0 0 3 1 2 0 0 8 0 1 0)), theCluster (running []), theLaunch (running (one 0x60 (packR 0 0 3 1 2 0 0 8 0 1 0))), by decide +kernel⟩,
    ⟨0, packR 0 0 3 1 2 0 0 9 0 1 0, running (one 0x61 (packR 0 0 3 1 2 0 0 9 0 1 0)), theCluster (running []), theLaunch (running (one 0x61 (packR 0 0 3 1 2 0 0 9 0 1 0))), by decide +kernel⟩,
    ⟨0, packR 0 0 3 1 2 0 0 9 0 0 0, running (one 0x62 (packR 0 0 3 1 2 0 0 9 0 0 0)), theCluster (running []), theLaunch (running (one 0x62 (packR 0 0 3 1 2 0 0 9 0 0 0))), by decide +kernel⟩,
    ⟨0, packR 0 0 3 1 2 4 0 0 0 0 0, running (one 0x63 (packR 0 0 3 1 2 4 0 0 0 0 0)), theCluster (running []), theLaunch (running (one 0x63 (packR 0 0 3 1 2 4 0 0 0 0 0))), by decide +kernel⟩,
    ⟨0, packR 0 0 3 1 2 0 0 1 0 0 0, running (one 0x64 (packR 0 0 3 1 2 0 0 1 0 0 0)), theCluster (running []), theLaunch (running (one 0x64 (packR 0 0 3 1 2 0 0 1 0 0 0))), by decide +kernel⟩,
    ⟨0, packR 0 0 3 1 0 0 0 2 0 0 0, running (one 0x65 (packR 0 0 3 1 0 0 0 2 0 0 0)), theCluster (running []), theLaunch (running (one 0x65 (packR 0 0 3 1 0 0 0 2 0 0 0))), by decide +kernel⟩,
    ⟨0, packR 0 0 3 1 2 0 0 8 0 0 0, running (one 0x66 (packR 0 0 3 1 2 0 0 8 0 0 0)), theCluster (running []), theLaunch (running (one 0x66 (packR 0 0 3 1 2 0 0 8 0 0 0))), by decide +kernel⟩,
    ⟨0, packR 0 0 3 1 2 0 0 9 0 0 0, running (one 0x67 (packR 0 0 3 1 2 0 0 9 0 0 0)), theCluster (running []), theLaunch (running (one 0x67 (packR 0 0 3 1 2 0 0 9 0 0 0))), by decide +kernel⟩,
    ⟨0, packR 0 0 3 1 2 0 2 0 0 0 0, running (one 0x68 (packR 0 0 3 1 2 0 2 0 0 0 0)), theCluster (running []), theLaunch (running (one 0x68 (packR 0 0 3 1 2 0 2 0 0 0 0))), by decide +kernel⟩,
    ⟨0, packR 0 0 3 1 0 0 4 0 0 0 0, running (one 0x69 (packR 0 0 3 1 0 0 4 0 0 0 0)), theCluster (running []), theLaunch (running (one 0x69 (packR 0 0 3 1 0 0 4 0 0 0 0))), by decide +kernel⟩⟩

/-- What meets the hypotheses of ClusterVectorArithmetic. -/
theorem witness_ClusterVectorArithmetic_2 :
    (∃ (k : Nat) (w : BitVec 56) (s : State) (c : Cluster) (l : Launch), Issuing s k 0x6A w c l ∧ LaneActive c 0x6A w ∧ Enc.ok ⟨.r32, .r32, .r32, .no, .r 6 tyInt false false 0⟩ (wordOf 0x6A w) = true ∧ Follows l (c.pc + 1)) :=
  ⟨0, packR 0 0 3 1 2 0 5 8 0 0 0, running (one 0x6A (packR 0 0 3 1 2 0 5 8 0 0 0)), theCluster (running []), theLaunch (running (one 0x6A (packR 0 0 3 1 2 0 5 8 0 0 0))), by decide +kernel⟩

/-- What meets the hypotheses of ClusterVectorMoves. -/
theorem witness_ClusterVectorMoves :
    (∃ (k : Nat) (w : BitVec 56) (s : State) (c : Cluster) (l : Launch), Issuing s k 0x6B w c l ∧ LaneActive c 0x6B w ∧ Enc.ok ⟨.r8, .r32, .r32, .code 7, .r 0 tyAll false false 0⟩ (wordOf 0x6B w) = true ∧ Follows l (c.pc + 1)) ∧
    (∃ (k : Nat) (w : BitVec 56) (s : State) (c : Cluster) (l : Launch), Issuing s k 0x6C w c l ∧ LaneActive c 0x6C w ∧ Enc.ok ⟨.r32, .r32, .r32, .r8, plainR⟩ (wordOf 0x6C w) = true ∧ Follows l (c.pc + 1)) ∧
    (∃ (k : Nat) (w : BitVec 56) (s : State) (c : Cluster) (l : Launch), Issuing s k 0x6D w c l ∧ LaneActive c 0x6D w ∧ Enc.ok (vmovEnc (wSub w.toNat)) (wordOf 0x6D w) = true ∧ wSub (wordOf 0x6D w) < 3 ∧ Follows l (c.pc + 1)) ∧
    (∃ (k : Nat) (w : BitVec 56) (s : State) (c : Cluster) (l : Launch), Issuing s k 0x6D w c l ∧ LaneActive c 0x6D w ∧ Enc.ok (vmovEnc (wSub w.toNat)) (wordOf 0x6D w) = true ∧ wSub (wordOf 0x6D w) = 3 ∧ Follows l (c.pc + 1)) ∧
    (∃ (k : Nat) (w : BitVec 56) (s : State) (c : Cluster) (l : Launch), Issuing s k 0x6D w c l ∧ LaneActive c 0x6D w ∧ Enc.ok (vmovEnc (wSub w.toNat)) (wordOf 0x6D w) = true ∧ wSub (wordOf 0x6D w) = 4 ∧ Follows l (c.pc + 1)) ∧
    (∃ (k : Nat) (w : BitVec 56) (s : State) (c : Cluster) (l : Launch), Issuing s k 0x6E w c l ∧ LaneActive c 0x6E w ∧ Enc.ok ⟨.r32, .r32, .no, .no, .r 0 tyAll true false 4⟩ (wordOf 0x6E w) = true ∧ (tyAll.contains (wMod (wordOf 0x6E w)) && wMod (wordOf 0x6E w) != (wTy (wordOf 0x6E w))) = true ∧ Follows l (c.pc + 1)) ∧
    (∃ (k : Nat) (t : Tile) (w : BitVec 56) (s : State) (c : Cluster) (l : Launch), Issuing s k 0x6F w c l ∧ LaneActive c 0x6F w ∧ Enc.ok ⟨.r32, .r16, .r32, .r32, plainR⟩ (wordOf 0x6F w) = true ∧ tileOf (c.tr (wA (wordOf 0x6F w))) = some t ∧ (c.sr (wB (wordOf 0x6F w))).toNat < t.rows ∧ (c.sr (wC (wordOf 0x6F w))).toNat < t.cols ∧ (scaled t.fmt = true → (c.sr (wC (wordOf 0x6F w))).toNat % 32 = 0) ∧ Follows l (c.pc + 1)) ∧
    (∃ (k : Nat) (t : Tile) (w : BitVec 56) (s : State) (c : Cluster) (l : Launch), Issuing s k 0x70 w c l ∧ LaneActive c 0x70 w ∧ Enc.ok ⟨.r32, .r16, .r32, .r32, .r 0 [] true false 0⟩ (wordOf 0x70 w) = true ∧ tileOf (c.tr (wA (wordOf 0x70 w))) = some t ∧ (c.sr (wB (wordOf 0x70 w))).toNat < t.rows ∧ (c.sr (wC (wordOf 0x70 w))).toNat < t.cols ∧ (scaled t.fmt = true → (c.sr (wC (wordOf 0x70 w))).toNat % 32 = 0) ∧ (vstEnd t (c.sr (wB (wordOf 0x70 w))).toNat (c.sr (wC (wordOf 0x70 w))).toNat (c.guard (wordOf 0x70 w))).any (fun a => decide (ringLine l ≤ a / lineBytes)) = false ∧ Follows l (c.pc + 1)) ∧
    (∃ (k : Nat) (w : BitVec 56) (s : State) (c : Cluster) (l : Launch), Issuing s k 0x71 w c l ∧ LaneActive c 0x71 w ∧ Enc.ok ⟨.r32, .r8, .r32, .r32, plainR⟩ (wordOf 0x71 w) = true ∧ (c.sr (wB (wordOf 0x71 w))).toNat < 128 ∧ (c.sr (wC (wordOf 0x71 w)) = 0 ∨ c.sr (wC (wordOf 0x71 w)) = 64) ∧ Follows l (c.pc + 1)) ∧
    (∃ (k : Nat) (w : BitVec 56) (s : State) (c : Cluster) (l : Launch), Issuing s k 0x72 w c l ∧ LaneActive c 0x72 w ∧ Enc.ok ⟨.r8, .r32, .r32, .r32, plainR⟩ (wordOf 0x72 w) = true ∧ (c.sr (wB (wordOf 0x72 w))).toNat < 128 ∧ (c.sr (wC (wordOf 0x72 w)) = 0 ∨ c.sr (wC (wordOf 0x72 w)) = 64) ∧ Follows l (c.pc + 1)) ∧
    (∃ (k : Nat) (w : BitVec 56) (s : State) (c : Cluster) (l : Launch), Issuing s k 0x78 w c l ∧ LaneActive c 0x78 w ∧ Enc.ok ⟨.r32, .r32, .no, .no, .r 3 [0, 8, 9] false false 0⟩ (wordOf 0x78 w) = true ∧ Follows l (c.pc + 1)) ∧
    (∃ (k : Nat) (w : BitVec 56) (s : State) (c : Cluster) (l : Launch), Issuing s k 0x79 w c l ∧ LaneActive c 0x79 w ∧ Enc.ok ⟨.r32, .r8, .r32, .no, .r 3 [0] false false 0⟩ (wordOf 0x79 w) = true ∧ (c.sr (wB (wordOf 0x79 w)) = 0 ∨ c.sr (wB (wordOf 0x79 w)) = 64) ∧ Follows l (c.pc + 1)) :=
  ⟨⟨0, packR 0 0 3 1 2 6 0 0 0 0 0, running (one 0x6B (packR 0 0 3 1 2 6 0 0 0 0 0)), theCluster (running []), theLaunch (running (one 0x6B (packR 0 0 3 1 2 6 0 0 0 0 0))), by decide +kernel⟩,
    ⟨0, packR 0 0 3 1 2 7 0 0 0 0 0, running (one 0x6C (packR 0 0 3 1 2 7 0 0 0 0 0)), theCluster (running []), theLaunch (running (one 0x6C (packR 0 0 3 1 2 7 0 0 0 0 0))), by decide +kernel⟩,
    ⟨0, packR 0 0 3 1 0 0 1 0 0 0 0, running (one 0x6D (packR 0 0 3 1 0 0 1 0 0 0 0)), theCluster (running []), theLaunch (running (one 0x6D (packR 0 0 3 1 0 0 1 0 0 0 0))), by decide +kernel⟩,
    ⟨0, packR 0 0 3 1 2 0 3 0 0 0 0, running (one 0x6D (packR 0 0 3 1 2 0 3 0 0 0 0)), theCluster (running []), theLaunch (running (one 0x6D (packR 0 0 3 1 2 0 3 0 0 0 0))), by decide +kernel⟩,
    ⟨0, packR 0 0 3 1 2 0 4 0 0 0 0, running (one 0x6D (packR 0 0 3 1 2 0 4 0 0 0 0)), theCluster (running []), theLaunch (running (one 0x6D (packR 0 0 3 1 2 0 4 0 0 0 0))), by decide +kernel⟩,
    ⟨0, packR 0 0 3 1 0 0 0 0 0 0 1, running (one 0x6E (packR 0 0 3 1 0 0 0 0 0 0 1)), theCluster (running []), theLaunch (running (one 0x6E (packR 0 0 3 1 0 0 0 0 0 0 1))), by decide +kernel⟩,
    ⟨0, ⟨0, 1, 32, 0, 2, 0⟩, packR 0 0 3 1 0 0 0 0 0 0 0, tiled (one 0x6F (packR 0 0 3 1 0 0 0 0 0 0 0)), theCluster (tiled []), theLaunch (running (one 0x6F (packR 0 0 3 1 0 0 0 0 0 0 0))), by decide +kernel⟩,
    ⟨0, ⟨0, 1, 32, 0, 2, 0⟩, packR 0 0 3 1 0 0 0 0 0 0 0, tiled (one 0x70 (packR 0 0 3 1 0 0 0 0 0 0 0)), theCluster (tiled []), theLaunch (running (one 0x70 (packR 0 0 3 1 0 0 0 0 0 0 0))), by decide +kernel⟩,
    ⟨0, packR 0 0 3 1 2 0 0 0 0 0 0, running (one 0x71 (packR 0 0 3 1 2 0 0 0 0 0 0)), theCluster (running []), theLaunch (running (one 0x71 (packR 0 0 3 1 2 0 0 0 0 0 0))), by decide +kernel⟩,
    ⟨0, packR 0 0 3 1 2 0 0 0 0 0 0, running (one 0x72 (packR 0 0 3 1 2 0 0 0 0 0 0)), theCluster (running []), theLaunch (running (one 0x72 (packR 0 0 3 1 2 0 0 0 0 0 0))), by decide +kernel⟩,
    ⟨0, packR 0 0 3 1 0 0 2 9 0 0 0, running (one 0x78 (packR 0 0 3 1 0 0 2 9 0 0 0)), theCluster (running []), theLaunch (running (one 0x78 (packR 0 0 3 1 0 0 2 9 0 0 0))), by decide +kernel⟩,
    ⟨0, packR 0 0 3 1 0 0 2 0 0 0 0, running (one 0x79 (packR 0 0 3 1 0 0 2 0 0 0 0)), theCluster (running []), theLaunch (running (one 0x79 (packR 0 0 3 1 0 0 2 0 0 0 0))), by decide +kernel⟩⟩

/-- What meets the hypotheses of ClusterTileMoves. -/
theorem witness_ClusterTileMoves :
    (∃ (k : Nat) (t : Tile) (n : Named) (w : BitVec 56) (s : State) (c : Cluster) (l : Launch), Issuing s k 0x40 w c l ∧ Guarded c 0x40 w ∧ Enc.ok ⟨.r32, .r16, .r16, .r32, .r 0 [] false false 16⟩ (wordOf 0x40 w) = true ∧ tileOf (c.tr (wA (wordOf 0x40 w))) = some t ∧ (c.sr (wC (wordOf 0x40 w))).toNat % 64 = 0 ∧ (checkHandle s l.slot (c.hr (wB (wordOf 0x40 w))) false (c.sr (wC (wordOf 0x40 w))).toNat ((t.rows - 1) * (objStride (wordOf 0x40 w) t) + t.rowSize) (wB (wordOf 0x40 w)) c.pc).toOption = some n ∧ (n.obj.flag 4 && !inWindow n.obj c.launch (c.sr (wC (wordOf 0x40 w))).toNat ((t.rows - 1) * (objStride (wordOf 0x40 w) t) + t.rowSize)) = false ∧ inRing l t = false ∧ CanMove c ∧ Follows l (c.pc + 1)) ∧
    (∃ (k : Nat) (t : Tile) (n : Named) (w : BitVec 56) (s : State) (c : Cluster) (l : Launch), Issuing s k 0x41 w c l ∧ Guarded c 0x41 w ∧ Enc.ok ⟨.r32, .r16, .r16, .r32, .r 0 [] false false 16⟩ (wordOf 0x41 w) = true ∧ tileOf (c.tr (wA (wordOf 0x41 w))) = some t ∧ (c.sr (wC (wordOf 0x41 w))).toNat % 64 = 0 ∧ (checkHandle s l.slot (c.hr (wB (wordOf 0x41 w))) true (c.sr (wC (wordOf 0x41 w))).toNat ((t.rows - 1) * (objStride (wordOf 0x41 w) t) + t.rowSize) (wB (wordOf 0x41 w)) c.pc).toOption = some n ∧ CanMove c ∧ Follows l (c.pc + 1)) ∧
    (∃ (k : Nat) (t u : Tile) (w : BitVec 56) (s : State) (c : Cluster) (l : Launch), Issuing s k 0x42 w c l ∧ Guarded c 0x42 w ∧ Enc.ok ⟨.r32, .r16, .r16, .no, plainR⟩ (wordOf 0x42 w) = true ∧ tileOf (c.tr (wA (wordOf 0x42 w))) = some t ∧ tileOf (c.tr (wB (wordOf 0x42 w))) = some u ∧ t.rows = u.rows ∧ t.rowSize = u.rowSize ∧ inRing l t = false ∧ CanMove c ∧ Follows l (c.pc + 1)) ∧
    (∃ (k : Nat) (t u : Tile) (j : Nat) (w : BitVec 56) (s : State) (c : Cluster) (l : Launch), Issuing s k 0x43 w c l ∧ Guarded c 0x43 w ∧ Enc.ok ⟨.r32, .r16, .r32, .r16, plainR⟩ (wordOf 0x43 w) = true ∧ tileOf (c.tr (wA (wordOf 0x43 w))) = some t ∧ tileOf (c.tr (wC (wordOf 0x43 w))) = some u ∧ t.rows = u.rows ∧ t.rowSize = u.rowSize ∧ (c.sr (wB (wordOf 0x43 w))).toNat < l.size ∧ clusterOfRank l (c.sr (wB (wordOf 0x43 w))).toNat = some j ∧ inRing l u = false ∧ CanMove c ∧ Follows l (c.pc + 1)) ∧
    (∃ (k : Nat) (t u : Tile) (w : BitVec 56) (s : State) (c : Cluster) (l : Launch), Issuing s k 0x43 w c l ∧ Guarded c 0x43 w ∧ Enc.ok ⟨.r32, .r16, .r32, .r16, plainR⟩ (wordOf 0x43 w) = true ∧ tileOf (c.tr (wA (wordOf 0x43 w))) = some t ∧ tileOf (c.tr (wC (wordOf 0x43 w))) = some u ∧ t.rows = u.rows ∧ t.rowSize = u.rowSize ∧ (c.sr (wB (wordOf 0x43 w))).toNat < l.size ∧ clusterOfRank l (c.sr (wB (wordOf 0x43 w))).toNat = none ∧ inRing l u = false ∧ CanMove c ∧ Follows l (c.pc + 1)) ∧
    (∃ (k : Nat) (t u : Tile) (j : Nat) (w : BitVec 56) (s : State) (c : Cluster) (l : Launch), Issuing s k 0x44 w c l ∧ Guarded c 0x44 w ∧ Enc.ok ⟨.r32, .r16, .r32, .r16, plainR⟩ (wordOf 0x44 w) = true ∧ tileOf (c.tr (wA (wordOf 0x44 w))) = some t ∧ tileOf (c.tr (wC (wordOf 0x44 w))) = some u ∧ t.rows = u.rows ∧ t.rowSize = u.rowSize ∧ (c.sr (wB (wordOf 0x44 w))).toNat < l.size ∧ clusterOfRank l (c.sr (wB (wordOf 0x44 w))).toNat = some j ∧ inRing l t = false ∧ CanMove c ∧ Follows l (c.pc + 1)) ∧
    (∃ (k : Nat) (t u : Tile) (w : BitVec 56) (s : State) (c : Cluster) (l : Launch), Issuing s k 0x44 w c l ∧ Guarded c 0x44 w ∧ Enc.ok ⟨.r32, .r16, .r32, .r16, plainR⟩ (wordOf 0x44 w) = true ∧ tileOf (c.tr (wA (wordOf 0x44 w))) = some t ∧ tileOf (c.tr (wC (wordOf 0x44 w))) = some u ∧ t.rows = u.rows ∧ t.rowSize = u.rowSize ∧ (c.sr (wB (wordOf 0x44 w))).toNat < l.size ∧ clusterOfRank l (c.sr (wB (wordOf 0x44 w))).toNat = none ∧ inRing l t = false ∧ CanMove c ∧ Follows l (c.pc + 1)) ∧
    (∃ (k : Nat) (t : Tile) (w : BitVec 56) (s : State) (c : Cluster) (l : Launch), Issuing s k 0x45 w c l ∧ Guarded c 0x45 w ∧ Enc.ok ⟨.r32, .r16, .no, .no, plainR⟩ (wordOf 0x45 w) = true ∧ tileOf (c.tr (wA (wordOf 0x45 w))) = some t ∧ inRing l t = false ∧ CanMove c ∧ Follows l (c.pc + 1)) ∧
    (∃ (k : Nat) (w : BitVec 56) (s : State) (c : Cluster) (l : Launch), Issuing s k 0x46 w c l ∧ Guarded c 0x46 w ∧ Enc.ok ⟨.r32, .r32, .no, .no, .r 0 [] false true 0⟩ (wordOf 0x46 w) = true ∧ c.moves.any (fun m => m.num % 65536 == (c.sr (wA (wordOf 0x46 w))).toNat % 65536) = true) ∧
    (∃ (k : Nat) (w : BitVec 56) (s : State) (c : Cluster) (l : Launch), Issuing s k 0x46 w c l ∧ Guarded c 0x46 w ∧ Enc.ok ⟨.r32, .r32, .no, .no, .r 0 [] false true 0⟩ (wordOf 0x46 w) = true ∧ c.moves.any (fun m => m.num % 65536 == (c.sr (wA (wordOf 0x46 w))).toNat % 65536) = false ∧ (c.failed.find? (fun m => m.num % 65536 == (c.sr (wA (wordOf 0x46 w))).toNat % 65536)).isNone = true ∧ Follows l (c.pc + 1)) ∧
    (∃ (k : Nat) (m : TileMove) (w : BitVec 56) (s : State) (c : Cluster) (l : Launch), Issuing s k 0x46 w c l ∧ Guarded c 0x46 w ∧ Enc.ok ⟨.r32, .r32, .no, .no, .r 0 [] false true 0⟩ (wordOf 0x46 w) = true ∧ c.moves.any (fun m => m.num % 65536 == (c.sr (wA (wordOf 0x46 w))).toNat % 65536) = false ∧ c.failed.find? (fun m => m.num % 65536 == (c.sr (wA (wordOf 0x46 w))).toNat % 65536) = some m ∧ wF (wordOf 0x46 w) = 1 ∧ Follows l (c.pc + 1)) ∧
    (∃ (k : Nat) (n : Named) (w : BitVec 56) (s : State) (c : Cluster) (l : Launch), Issuing s k 0x47 w c l ∧ Guarded c 0x47 w ∧ Enc.ok ⟨.no, .r16, .no, .no, plainR⟩ (wordOf 0x47 w) = true ∧ (checkHandle s l.slot (c.hr (wA (wordOf 0x47 w))) false 0 0 (wA (wordOf 0x47 w)) c.pc).toOption = some n ∧ n.obj.flag 4 = true ∧ n.obj.flag 8 = false ∧ (n.obj.windows.find? (fun v => v.holder == c.launch)).isNone = true ∧ Follows l (c.pc + 1)) :=
  ⟨⟨0, ⟨0, 1, 32, 0, 2, 0⟩, ⟨0, 1, anObj⟩, packR 0 0 3 1 1 0 0 0 0 0 0, withObj (one 0x40 (packR 0 0 3 1 1 0 0 0 0 0 0)), theCluster (tiled []), theLaunch (running (one 0x40 (packR 0 0 3 1 1 0 0 0 0 0 0))), by decide +kernel⟩,
    ⟨0, ⟨0, 1, 32, 0, 2, 0⟩, ⟨0, 1, anObj⟩, packR 0 0 3 1 1 0 0 0 0 0 0, withObj (one 0x41 (packR 0 0 3 1 1 0 0 0 0 0 0)), theCluster (tiled []), theLaunch (running (one 0x41 (packR 0 0 3 1 1 0 0 0 0 0 0))), by decide +kernel⟩,
    ⟨0, ⟨0, 1, 32, 0, 2, 0⟩, ⟨64, 1, 32, 0, 2, 0⟩, packR 0 0 3 1 2 0 0 0 0 0 0, withObj (one 0x42 (packR 0 0 3 1 2 0 0 0 0 0 0)), theCluster (tiled []), theLaunch (running (one 0x42 (packR 0 0 3 1 2 0 0 0 0 0 0))), by decide +kernel⟩,
    ⟨0, ⟨0, 1, 32, 0, 2, 0⟩, ⟨64, 1, 32, 0, 2, 0⟩, 0, packR 0 0 3 1 0 2 0 0 0 0 0, withObj (one 0x43 (packR 0 0 3 1 0 2 0 0 0 0 0)), theCluster (tiled []), theLaunch (running (one 0x43 (packR 0 0 3 1 0 2 0 0 0 0 0))), by decide +kernel⟩,
    ⟨0, ⟨0, 1, 32, 0, 2, 0⟩, ⟨64, 1, 32, 0, 2, 0⟩, packR 0 0 3 1 2 2 0 0 0 0 0, spanned (one 0x43 (packR 0 0 3 1 2 2 0 0 0 0 0)), theCluster (tiled []), theLaunch (spanned (one 0x43 (packR 0 0 3 1 2 2 0 0 0 0 0))), by decide +kernel⟩,
    ⟨0, ⟨0, 1, 32, 0, 2, 0⟩, ⟨64, 1, 32, 0, 2, 0⟩, 0, packR 0 0 3 1 0 2 0 0 0 0 0, withObj (one 0x44 (packR 0 0 3 1 0 2 0 0 0 0 0)), theCluster (tiled []), theLaunch (running (one 0x44 (packR 0 0 3 1 0 2 0 0 0 0 0))), by decide +kernel⟩,
    ⟨0, ⟨0, 1, 32, 0, 2, 0⟩, ⟨64, 1, 32, 0, 2, 0⟩, packR 0 0 3 1 2 2 0 0 0 0 0, spanned (one 0x44 (packR 0 0 3 1 2 2 0 0 0 0 0)), theCluster (tiled []), theLaunch (spanned (one 0x44 (packR 0 0 3 1 2 2 0 0 0 0 0))), by decide +kernel⟩,
    ⟨0, ⟨0, 1, 32, 0, 2, 0⟩, packR 0 0 3 1 0 0 0 0 0 0 0, withObj (one 0x45 (packR 0 0 3 1 0 0 0 0 0 0 0)), theCluster (tiled []), theLaunch (running (one 0x45 (packR 0 0 3 1 0 0 0 0 0 0 0))), by decide +kernel⟩,
    ⟨0, packR 0 0 3 0 0 0 0 0 0 1 0, (tiled (one 0x46 (packR 0 0 3 0 0 0 0 0 0 1 0))).setClu 0 moving, moving, theLaunch (running (one 0x46 (packR 0 0 3 0 0 0 0 0 0 1 0))), by decide +kernel⟩,
    ⟨0, packR 0 0 3 0 0 0 0 0 0 1 0, withObj (one 0x46 (packR 0 0 3 0 0 0 0 0 0 1 0)), theCluster (tiled []), theLaunch (running (one 0x46 (packR 0 0 3 0 0 0 0 0 0 1 0))), by decide +kernel⟩,
    ⟨0, failedOne, packR 0 0 3 0 0 0 0 0 0 1 0, (tiled (one 0x46 (packR 0 0 3 0 0 0 0 0 0 1 0))).setClu 0 failing, failing, theLaunch (running (one 0x46 (packR 0 0 3 0 0 0 0 0 0 1 0))), by decide +kernel⟩,
    ⟨0, ⟨0, 1, { anObj with flags := 16 }⟩, packR 0 0 0 1 0 0 0 0 0 0 0, (withObj (one 0x47 (packR 0 0 0 1 0 0 0 0 0 0 0))).setTen 0 { aTenant with objs := [(1, { anObj with flags := 16 })] }, theCluster (tiled []), theLaunch (running (one 0x47 (packR 0 0 0 1 0 0 0 0 0 0 0))), by decide +kernel⟩⟩

/-- What meets the hypotheses of ClusterTileMoves. -/
theorem witness_ClusterTileMoves_2 :
    (∃ (k : Nat) (n : Named) (v : Window) (w : BitVec 56) (s : State) (c : Cluster) (l : Launch), Issuing s k 0x47 w c l ∧ Guarded c 0x47 w ∧ Enc.ok ⟨.no, .r16, .no, .no, plainR⟩ (wordOf 0x47 w) = true ∧ (checkHandle s l.slot (c.hr (wA (wordOf 0x47 w))) false 0 0 (wA (wordOf 0x47 w)) c.pc).toOption = some n ∧ n.obj.flag 4 = true ∧ n.obj.flag 8 = false ∧ n.obj.windows.find? (fun v => v.holder == c.launch) = some v ∧ Follows l (c.pc + 1)) ∧
    (∃ (k : Nat) (n : Named) (w : BitVec 56) (s : State) (c : Cluster) (l : Launch), Issuing s k 0x47 w c l ∧ Guarded c 0x47 w ∧ Enc.ok ⟨.no, .r16, .no, .no, plainR⟩ (wordOf 0x47 w) = true ∧ (checkHandle s l.slot (c.hr (wA (wordOf 0x47 w))) false 0 0 (wA (wordOf 0x47 w)) c.pc).toOption = some n ∧ n.obj.flag 4 = true ∧ n.obj.flag 8 = true ∧ (n.obj.windows.find? (fun v => v.holder == c.launch)).isNone = true) ∧
    (∃ (k : Nat) (n : Named) (v : Window) (w : BitVec 56) (s : State) (c : Cluster) (l : Launch), Issuing s k 0x47 w c l ∧ Guarded c 0x47 w ∧ Enc.ok ⟨.no, .r16, .no, .no, plainR⟩ (wordOf 0x47 w) = true ∧ (checkHandle s l.slot (c.hr (wA (wordOf 0x47 w))) false 0 0 (wA (wordOf 0x47 w)) c.pc).toOption = some n ∧ n.obj.flag 4 = true ∧ n.obj.flag 8 = true ∧ n.obj.windows.find? (fun v => v.holder == c.launch) = some v) :=
  ⟨⟨0, ⟨0, 1, { anObj with flags := 16, windows := [⟨0, 1⟩] }⟩, ⟨0, 1⟩, packR 0 0 0 1 0 0 0 0 0 0 0, (withObj (one 0x47 (packR 0 0 0 1 0 0 0 0 0 0 0))).setTen 0 { aTenant with objs := [(1, { anObj with flags := 16, windows := [⟨0, 1⟩] })] }, theCluster (tiled []), theLaunch (running (one 0x47 (packR 0 0 0 1 0 0 0 0 0 0 0))), by decide +kernel⟩,
    ⟨0, ⟨0, 1, { anObj with flags := 272 }⟩, packR 0 0 0 1 0 0 0 0 0 0 0, (withObj (one 0x47 (packR 0 0 0 1 0 0 0 0 0 0 0))).setTen 0 { aTenant with objs := [(1, { anObj with flags := 272 })] }, theCluster (tiled []), theLaunch (running (one 0x47 (packR 0 0 0 1 0 0 0 0 0 0 0))), by decide +kernel⟩,
    ⟨0, ⟨0, 1, { anObj with flags := 272, windows := [⟨0, 1⟩] }⟩, ⟨0, 1⟩, packR 0 0 0 1 0 0 0 0 0 0 0, (withObj (one 0x47 (packR 0 0 0 1 0 0 0 0 0 0 0))).setTen 0 { aTenant with objs := [(1, { anObj with flags := 272, windows := [⟨0, 1⟩] })] }, theCluster (tiled []), theLaunch (running (one 0x47 (packR 0 0 0 1 0 0 0 0 0 0 0))), by decide +kernel⟩⟩

/-- What meets the hypotheses of ClusterTensorOperations. -/
theorem witness_ClusterTensorOperations :
    (∃ (k : Nat) (t u : Tile) (w : BitVec 56) (s : State) (c : Cluster) (l : Launch), Issuing s k 0x50 w c l ∧ Guarded c 0x50 w ∧ Enc.ok ⟨.r8, .r16, .r16, .no, plainR⟩ (wordOf 0x50 w) = true ∧ tileOf (c.tr (wA (wordOf 0x50 w))) = some t ∧ tileOf (c.tr (wB (wordOf 0x50 w))) = some u ∧ t.rows ≤ 128 ∧ u.rows ≤ 128 ∧ t.cols = u.cols ∧ t.cols % 32 = 0 ∧ t.fmt ≠ 0 ∧ u.fmt ≠ 0 ∧ Follows l (c.pc + 1)) ∧
    (∃ (k : Nat) (t u : Tile) (w : BitVec 56) (s : State) (c : Cluster) (l : Launch), Issuing s k 0x51 w c l ∧ Guarded c 0x51 w ∧ Enc.ok ⟨.r8, .r16, .r16, .no, plainR⟩ (wordOf 0x51 w) = true ∧ tileOf (c.tr (wA (wordOf 0x51 w))) = some t ∧ tileOf (c.tr (wB (wordOf 0x51 w))) = some u ∧ t.rows ≤ 128 ∧ u.rows ≤ 128 ∧ t.cols = u.cols ∧ t.cols % 32 = 0 ∧ t.fmt ≠ 0 ∧ u.fmt ≠ 0 ∧ Follows l (c.pc + 1)) ∧
    (∃ (k : Nat) (w : BitVec 56) (s : State) (c : Cluster) (l : Launch), Issuing s k 0x52 w c l ∧ Guarded c 0x52 w ∧ Enc.ok ⟨.r8, .no, .no, .no, plainR⟩ (wordOf 0x52 w) = true ∧ Follows l (c.pc + 1)) ∧
    (∃ (c : Cluster) (a b i j : Nat), i < 128 ∧ j < 128) ∧
    (∃ (k : Nat) (t : Tile) (w : BitVec 56) (s : State) (c : Cluster) (l : Launch), Issuing s k 0x53 w c l ∧ Guarded c 0x53 w ∧ Enc.ok ⟨.r8, .r16, .no, .no, plainR⟩ (wordOf 0x53 w) = true ∧ tileOf (c.tr (wA (wordOf 0x53 w))) = some t ∧ t.rows ≤ 128 ∧ t.cols ≤ 128 ∧ Follows l (c.pc + 1)) ∧
    (∃ (k : Nat) (t : Tile) (w : BitVec 56) (s : State) (c : Cluster) (l : Launch), Issuing s k 0x54 w c l ∧ Guarded c 0x54 w ∧ Enc.ok ⟨.r16, .r8, .no, .no, .r 0 [] true false 0⟩ (wordOf 0x54 w) = true ∧ tileOf (c.tr (wD (wordOf 0x54 w))) = some t ∧ t.rows ≤ 128 ∧ t.cols ≤ 128 ∧ inRing l t = false ∧ Follows l (c.pc + 1)) :=
  ⟨⟨0, ⟨0, 1, 32, 1, 2, 0⟩, ⟨64, 1, 32, 1, 2, 0⟩, packR 0 0 7 1 2 0 0 0 0 0 0, tensored (one 0x50 (packR 0 0 7 1 2 0 0 0 0 0 0)), theCluster (tensored []), theLaunch (running (one 0x50 (packR 0 0 7 1 2 0 0 0 0 0 0))), by decide +kernel⟩,
    ⟨0, ⟨0, 1, 32, 1, 2, 0⟩, ⟨64, 1, 32, 1, 2, 0⟩, packR 0 0 7 1 2 0 0 0 0 0 0, tensored (one 0x51 (packR 0 0 7 1 2 0 0 0 0 0 0)), theCluster (tensored []), theLaunch (running (one 0x51 (packR 0 0 7 1 2 0 0 0 0 0 0))), by decide +kernel⟩,
    ⟨0, packR 0 0 7 0 0 0 0 0 0 0 0, running (one 0x52 (packR 0 0 7 0 0 0 0 0 0 0 0)), theCluster (running []), theLaunch (running (one 0x52 (packR 0 0 7 0 0 0 0 0 0 0 0))), by decide +kernel⟩,
    ⟨theCluster State.reset, 7, 7, 127, 127, by decide +kernel⟩,
    ⟨0, ⟨0, 1, 32, 1, 2, 0⟩, packR 0 0 7 1 0 0 0 0 0 0 0, tensored (one 0x53 (packR 0 0 7 1 0 0 0 0 0 0 0)), theCluster (tensored []), theLaunch (running (one 0x53 (packR 0 0 7 1 0 0 0 0 0 0 0))), by decide +kernel⟩,
    ⟨0, ⟨0, 1, 32, 1, 2, 0⟩, packR 0 0 1 7 0 0 0 0 4 0 0, tensored (one 0x54 (packR 0 0 1 7 0 0 0 0 4 0 0)), theCluster (tensored []), theLaunch (running (one 0x54 (packR 0 0 1 7 0 0 0 0 4 0 0))), by decide +kernel⟩⟩

/-- What meets the hypotheses of ClusterSynchronisation. -/
theorem witness_ClusterSynchronisation :
    (∃ (k : Nat) (w : BitVec 56) (s : State) (c : Cluster) (l : Launch), Issuing s k 0x80 w c l ∧ Guarded c 0x80 w ∧ Enc.ok {} (wordOf 0x80 w) = true ∧ c.moves = [] ∧ Follows l (c.pc + 1)) ∧
    (∃ (k : Nat) (w : BitVec 56) (s : State) (c : Cluster) (l : Launch), Issuing s k 0x80 w c l ∧ Guarded c 0x80 w ∧ Enc.ok {} (wordOf 0x80 w) = true ∧ c.moves ≠ []) ∧
    (∃ (k : Nat) (w : BitVec 56) (s : State) (c : Cluster) (l : Launch), Issuing s k 0x81 w c l ∧ Guarded c 0x81 w ∧ Enc.ok ⟨.no, .r32, .r32, .no, semLow⟩ (wordOf 0x81 w) = true ∧ (c.sr (wA (wordOf 0x81 w))).toNat < l.size ∧ Follows l (c.pc + 1)) ∧
    (∃ (k : Nat) (w : BitVec 56) (s : State) (c : Cluster) (l : Launch), Issuing s k 0x82 w c l ∧ Guarded c 0x82 w ∧ Enc.ok ⟨.no, .r32, .no, .no, semLow⟩ (wordOf 0x82 w) = true ∧ (c.sr (wA (wordOf 0x82 w))).toNat ≤ (c.semv (wMod (wordOf 0x82 w))).toNat ∧ Follows l (c.pc + 1)) ∧
    (∃ (k : Nat) (w : BitVec 56) (s : State) (c : Cluster) (l : Launch), Issuing s k 0x82 w c l ∧ Guarded c 0x82 w ∧ Enc.ok ⟨.no, .r32, .no, .no, semLow⟩ (wordOf 0x82 w) = true ∧ (c.semv (wMod (wordOf 0x82 w))).toNat < (c.sr (wA (wordOf 0x82 w))).toNat) ∧
    (∃ (k : Nat) (w : BitVec 56) (s : State) (c : Cluster) (l : Launch), Issuing s k 0x83 w c l ∧ Guarded c 0x83 w ∧ Enc.ok ⟨.r32, .no, .no, .no, semLow⟩ (wordOf 0x83 w) = true ∧ Follows l (c.pc + 1)) ∧
    (∃ (k : Nat) (w : BitVec 56) (s : State) (c : Cluster) (l : Launch), Issuing s k 0x84 w c l ∧ Guarded c 0x84 w ∧ Enc.ok {} (wordOf 0x84 w) = true) ∧
    (∃ (k : Nat) (w : BitVec 56) (s : State) (c : Cluster) (l : Launch), Issuing s k 0x88 w c l ∧ Guarded c 0x88 w ∧ Enc.ok ⟨.r32, .r32, .no, .no, plainR⟩ (wordOf 0x88 w) = true ∧ (c.sr (wA (wordOf 0x88 w))).toNat < l.pages.length ∧ c.kvRel ≤ (c.sr (wA (wordOf 0x88 w))).toNat ∧ (c.sr (wA (wordOf 0x88 w))).toNat < c.kvRel + l.slots) ∧
    (∃ (k : Nat) (w : BitVec 56) (s : State) (c : Cluster) (l : Launch), Issuing s k 0x89 w c l ∧ Guarded c 0x89 w ∧ Enc.ok ⟨.no, .r32, .no, .no, plainR⟩ (wordOf 0x89 w) = true ∧ (c.sr (wA (wordOf 0x89 w))).toNat = c.kvRel ∧ Follows l (c.pc + 1)) ∧
    (∃ (k : Nat) (p : LPage) (w : BitVec 56) (s : State) (c : Cluster) (l : Launch), Issuing s k 0x8A w c l ∧ Guarded c 0x8A w ∧ Enc.ok ⟨.r32, .r32, .no, .no, plainR⟩ (wordOf 0x8A w) = true ∧ l.pages[(c.sr (wA (wordOf 0x8A w))).toNat]? = some p ∧ Follows l (c.pc + 1)) ∧
    (∃ (k : Nat) (w : BitVec 56) (s : State) (c : Cluster) (l : Launch), Issuing s k 0x90 w c l ∧ Guarded c 0x90 w ∧ Enc.ok ⟨.no, .r32, .no, .no, plainR⟩ (wordOf 0x90 w) = true ∧ c.port.length < 32 ∧ Follows l (c.pc + 1)) ∧
    (∃ (k : Nat) (w : BitVec 56) (s : State) (c : Cluster) (l : Launch), Issuing s k 0x90 w c l ∧ Guarded c 0x90 w ∧ Enc.ok ⟨.no, .r32, .no, .no, plainR⟩ (wordOf 0x90 w) = true ∧ 32 ≤ c.port.length) :=
  ⟨⟨0, 0, tiled (one 0x80 (0)), theCluster (tiled []), theLaunch (running (one 0x80 (0))), by decide +kernel⟩,
    ⟨0, 0, (tiled (one 0x80 (0))).setClu 0 moving, moving, theLaunch (running (one 0x80 (0))), by decide +kernel⟩,
    ⟨0, packR 0 0 0 0 1 0 0 0 0 0 31, tiled (one 0x81 (packR 0 0 0 0 1 0 0 0 0 0 31)), theCluster (tiled []), theLaunch (running (one 0x81 (packR 0 0 0 0 1 0 0 0 0 0 31))), by decide +kernel⟩,
    ⟨0, packR 0 0 0 0 0 0 0 0 0 0 31, tiled (one 0x82 (packR 0 0 0 0 0 0 0 0 0 0 31)), theCluster (tiled []), theLaunch (running (one 0x82 (packR 0 0 0 0 0 0 0 0 0 0 31))), by decide +kernel⟩,
    ⟨0, packR 0 0 0 1 0 0 0 0 0 0 0, tiled (one 0x82 (packR 0 0 0 1 0 0 0 0 0 0 0)), theCluster (tiled []), theLaunch (running (one 0x82 (packR 0 0 0 1 0 0 0 0 0 0 0))), by decide +kernel⟩,
    ⟨0, packR 0 0 3 0 0 0 0 0 0 0 31, tiled (one 0x83 (packR 0 0 3 0 0 0 0 0 0 0 31)), theCluster (tiled []), theLaunch (running (one 0x83 (packR 0 0 3 0 0 0 0 0 0 0 31))), by decide +kernel⟩,
    ⟨0, 0, tiled (one 0x84 (0)), theCluster (tiled []), theLaunch (running (one 0x84 (0))), by decide +kernel⟩,
    ⟨0, packR 0 0 3 0 0 0 0 0 0 0 0, stepped (one 0x88 (packR 0 0 3 0 0 0 0 0 0 0 0)), theCluster (tiled []), theLaunch (stepped (one 0x88 (packR 0 0 3 0 0 0 0 0 0 0 0))), by decide +kernel⟩,
    ⟨0, packR 0 0 0 0 0 0 0 0 0 0 0, stepped (one 0x89 (packR 0 0 0 0 0 0 0 0 0 0 0)), theCluster (tiled []), theLaunch (stepped (one 0x89 (packR 0 0 0 0 0 0 0 0 0 0 0))), by decide +kernel⟩,
    ⟨0, ⟨0, 0, 0, 64, true⟩, packR 0 0 3 0 0 0 0 0 0 0 0, stepped (one 0x8A (packR 0 0 3 0 0 0 0 0 0 0 0)), theCluster (tiled []), theLaunch (stepped (one 0x8A (packR 0 0 3 0 0 0 0 0 0 0 0))), by decide +kernel⟩,
    ⟨0, packR 0 0 0 1 0 0 0 0 0 0 0, tiled (one 0x90 (packR 0 0 0 1 0 0 0 0 0 0 0)), theCluster (tiled []), theLaunch (running (one 0x90 (packR 0 0 0 1 0 0 0 0 0 0 0))), by decide +kernel⟩,
    ⟨0, packR 0 0 0 1 0 0 0 0 0 0 0, (tiled (one 0x90 (packR 0 0 0 1 0 0 0 0 0 0 0))).setClu 0 { theCluster (tiled []) with port := List.replicate 32 0 }, { theCluster (tiled []) with port := List.replicate 32 0 }, theLaunch (running (one 0x90 (packR 0 0 0 1 0 0 0 0 0 0 0))), by decide +kernel⟩⟩

/-- What meets the hypotheses of ClusterSynchronisation. -/
theorem witness_ClusterSynchronisation_2 :
    (∃ (k : Nat) (w : BitVec 56) (s : State) (c : Cluster) (l : Launch), Issuing s k 0x91 w c l ∧ LaneActive c 0x91 w ∧ Enc.ok ⟨.no, .r32, .no, .no, plainR⟩ (wordOf 0x91 w) = true ∧ c.port.length < 32 ∧ Follows l (c.pc + 1)) ∧
    (∃ (k : Nat) (t : Tile) (w : BitVec 56) (s : State) (c : Cluster) (l : Launch), Issuing s k 0xA0 w c l ∧ Guarded c 0xA0 w ∧ Enc.ok ⟨.r32, .r16, .no, .no, .r 3 [] false false 0⟩ (wordOf 0xA0 w) = true ∧ tileOf (c.tr (wA (wordOf 0xA0 w))) = some t ∧ t.fmt ≤ 2 ∧ inRing l t = false ∧ CanMove c ∧ Follows l (c.pc + 1)) ∧
    (∃ (k : Nat) (t : Tile) (w : BitVec 56) (s : State) (c : Cluster) (l : Launch), Issuing s k 0xA1 w c l ∧ Guarded c 0xA1 w ∧ Enc.ok ⟨.r32, .r16, .r32, .no, plainR⟩ (wordOf 0xA1 w) = true ∧ tileOf (c.tr (wA (wordOf 0xA1 w))) = some t ∧ (c.sr (wB (wordOf 0xA1 w))).toNat < l.size ∧ inRing l t = false ∧ CanMove c ∧ Follows l (c.pc + 1)) ∧
    (∃ (k : Nat) (t u : Tile) (w : BitVec 56) (s : State) (c : Cluster) (l : Launch), Issuing s k 0xA2 w c l ∧ Guarded c 0xA2 w ∧ Enc.ok ⟨.r32, .r16, .r16, .no, plainR⟩ (wordOf 0xA2 w) = true ∧ tileOf (c.tr (wA (wordOf 0xA2 w))) = some t ∧ tileOf (c.tr (wB (wordOf 0xA2 w))) = some u ∧ u.rows = l.size * t.rows ∧ inRing l u = false ∧ CanMove c ∧ Follows l (c.pc + 1)) ∧
    (∃ (k : Nat) (t u : Tile) (w : BitVec 56) (s : State) (c : Cluster) (l : Launch), Issuing s k 0xA3 w c l ∧ Guarded c 0xA3 w ∧ Enc.ok ⟨.r32, .r16, .r16, .no, .r 3 [] false false 0⟩ (wordOf 0xA3 w) = true ∧ tileOf (c.tr (wA (wordOf 0xA3 w))) = some t ∧ tileOf (c.tr (wB (wordOf 0xA3 w))) = some u ∧ t.fmt ≤ 2 ∧ u.fmt ≤ 2 ∧ t.rows = l.size * u.rows ∧ inRing l u = false ∧ CanMove c ∧ Follows l (c.pc + 1)) ∧
    (∃ (k : Nat) (id g : Nat) (t : Step) (e : StepEntry) (w : BitVec 56) (s : State) (c : Cluster) (l : Launch), Issuing s k 0xA8 w c l ∧ Guarded c 0xA8 w ∧ Enc.ok ⟨.no, .r32, .r32, .no, plainR⟩ (wordOf 0xA8 w) = true ∧ l.step = some (id, g) ∧ s.step? id = some t ∧ t.entries[(c.sr (wA (wordOf 0xA8 w))).toNat]? = some e ∧ g + 1 = groupsOf s t.model ∧ c.rank = 0 ∧ e.produces = true ∧ mget t.tokOut (c.sr (wA (wordOf 0xA8 w))).toNat = none ∧ Follows l (c.pc + 1)) ∧
    (∃ (k : Nat) (id g : Nat) (t : Step) (e : StepEntry) (w : BitVec 56) (s : State) (c : Cluster) (l : Launch), Issuing s k 0xA8 w c l ∧ Guarded c 0xA8 w ∧ Enc.ok ⟨.no, .r32, .r32, .no, plainR⟩ (wordOf 0xA8 w) = true ∧ l.step = some (id, g) ∧ s.step? id = some t ∧ t.entries[(c.sr (wA (wordOf 0xA8 w))).toNat]? = some e ∧ g + 1 = groupsOf s t.model ∧ (c.rank ≠ 0 ∨ e.produces = false) ∧ Follows l (c.pc + 1)) ∧
    (∃ (k : Nat) (id g : Nat) (t : Step) (e : StepEntry) (w : BitVec 56) (s : State) (c : Cluster) (l : Launch), Issuing s k 0xA9 w c l ∧ Guarded c 0xA9 w ∧ Enc.ok ⟨.no, .r32, .no, .no, plainR⟩ (wordOf 0xA9 w) = true ∧ l.step = some (id, g) ∧ s.step? id = some t ∧ t.entries[(c.sr (wA (wordOf 0xA9 w))).toNat]? = some e ∧ c.rank = 0 ∧ t.eot.contains (c.sr (wA (wordOf 0xA9 w))).toNat = false ∧ Follows l (c.pc + 1)) :=
  ⟨⟨0, packR 1 0 0 1 0 0 0 0 0 0 0, tiled (one 0x91 (packR 1 0 0 1 0 0 0 0 0 0 0)), theCluster (tiled []), theLaunch (running (one 0x91 (packR 1 0 0 1 0 0 0 0 0 0 0))), by decide +kernel⟩,
    ⟨0, ⟨0, 1, 32, 0, 2, 0⟩, packR 0 0 3 1 0 0 2 0 0 0 0, tiled (one 0xA0 (packR 0 0 3 1 0 0 2 0 0 0 0)), theCluster (tiled []), theLaunch (running (one 0xA0 (packR 0 0 3 1 0 0 2 0 0 0 0))), by decide +kernel⟩,
    ⟨0, ⟨0, 1, 32, 0, 2, 0⟩, packR 0 0 3 1 0 0 0 0 0 0 0, tiled (one 0xA1 (packR 0 0 3 1 0 0 0 0 0 0 0)), theCluster (tiled []), theLaunch (running (one 0xA1 (packR 0 0 3 1 0 0 0 0 0 0 0))), by decide +kernel⟩,
    ⟨0, ⟨0, 1, 32, 0, 2, 0⟩, ⟨64, 1, 32, 0, 2, 0⟩, packR 0 0 3 1 2 0 0 0 0 0 0, tiled (one 0xA2 (packR 0 0 3 1 2 0 0 0 0 0 0)), theCluster (tiled []), theLaunch (running (one 0xA2 (packR 0 0 3 1 2 0 0 0 0 0 0))), by decide +kernel⟩,
    ⟨0, ⟨0, 1, 32, 0, 2, 0⟩, ⟨64, 1, 32, 0, 2, 0⟩, packR 0 0 3 1 2 0 2 0 0 0 0, tiled (one 0xA3 (packR 0 0 3 1 2 0 2 0 0 0 0)), theCluster (tiled []), theLaunch (running (one 0xA3 (packR 0 0 3 1 2 0 2 0 0 0 0))), by decide +kernel⟩,
    ⟨0, 0, 0, ((stepped []).step? 0).getD { model := 0, kind := .decode, entries := [], clusters := [], after := none, standing := 0, startS := 0, first := 0, taus := [], tokens := 0, lmax := 0 }, ⟨0, 1, true, true⟩, packR 0 0 0 0 1 0 0 0 0 0 0, stepped (one 0xA8 (packR 0 0 0 0 1 0 0 0 0 0 0)), theCluster (tiled []), theLaunch (stepped (one 0xA8 (packR 0 0 0 0 1 0 0 0 0 0 0))), by decide +kernel⟩,
    ⟨0, 0, 0, ((stepped []).step? 0).getD { model := 0, kind := .decode, entries := [], clusters := [], after := none, standing := 0, startS := 0, first := 0, taus := [], tokens := 0, lmax := 0 }, ⟨0, 1, true, true⟩, packR 0 0 0 0 1 0 0 0 0 0 0, (stepped (one 0xA8 (packR 0 0 0 0 1 0 0 0 0 0 0))).setClu 0 { theCluster (tiled []) with rank := 1 }, { theCluster (tiled []) with rank := 1 }, theLaunch (stepped (one 0xA8 (packR 0 0 0 0 1 0 0 0 0 0 0))), by decide +kernel⟩,
    ⟨0, 0, 0, ((stepped []).step? 0).getD { model := 0, kind := .decode, entries := [], clusters := [], after := none, standing := 0, startS := 0, first := 0, taus := [], tokens := 0, lmax := 0 }, ⟨0, 1, true, true⟩, packR 0 0 0 0 0 0 0 0 0 0 0, stepped (one 0xA9 (packR 0 0 0 0 0 0 0 0 0 0 0)), theCluster (tiled []), theLaunch (stepped (one 0xA9 (packR 0 0 0 0 0 0 0 0 0 0 0))), by decide +kernel⟩⟩

/-- What meets the hypotheses of QueueProgramScalarAndBranches. -/
theorem witness_QueueProgramScalarAndBranches :
    (∃ (q : (Nat × (DWord → DWord → DWord))) (key : Nat) (w : BitVec 56) (s : State) (p : QProg), (q ∈ ([(0x01, fun x y => x + y), (0x02, fun x y => x - y), (0x03, fun x y => x * y), (0x06, fun x y => if y = 0 then -1 else x.sdiv y), (0x07, fun x y => if y = 0 then -1 else x.udiv y), (0x08, fun x y => if y = 0 then x else x.srem y), (0x09, fun x y => if y = 0 then x else x.umod y), (0x0A, fun x y => x &&& y), (0x0B, fun x y => x ||| y), (0x0C, fun x y => x ^^^ y), (0x0D, fun x y => x <<< (y.toNat % 64)), (0x0E, fun x y => x >>> (y.toNat % 64)), (0x0F, fun x y => x.sshiftRight (y.toNat % 64)), (0x10, fun x y => if x.toInt < y.toInt then x else y), (0x11, fun x y => if x.toInt < y.toInt then y else x), (0x12, fun x y => if x.toNat < y.toNat then x else y), (0x13, fun x y => if x.toNat < y.toNat then y else x)] : List (Nat × (DWord → DWord → DWord)))) ∧ QIssuing s key 0xC0 w p ∧ QGuarded p 0xC0 w ∧ Enc.ok ⟨.r32, .r32, .r32, .no, .r 0x14 [] false false 0⟩ (wordOf 0xC0 w) = true ∧ wSub (wordOf 0xC0 w) = q.1 ∧ QFollows p (p.pc + 1)) ∧
    (∃ (key : Nat) (w : BitVec 56) (s : State) (p : QProg), QIssuing s key 0xC1 w p ∧ QGuarded p 0xC1 w ∧ Enc.ok ⟨.r32, .r32, .no, .no, .imm⟩ (wordOf 0xC1 w) = true ∧ QFollows p (p.pc + 1)) ∧
    (∃ (key : Nat) (w : BitVec 56) (s : State) (p : QProg), QIssuing s key 0xC2 w p ∧ QGuarded p 0xC2 w ∧ Enc.ok ⟨.r32, .no, .no, .no, .imm⟩ (wordOf 0xC2 w) = true ∧ QFollows p (p.pc + 1)) ∧
    (∃ (key : Nat) (w : BitVec 56) (s : State) (p : QProg), QIssuing s key 0xC3 w p ∧ QGuarded p 0xC3 w ∧ Enc.ok ⟨.r32, .no, .no, .no, .imm⟩ (wordOf 0xC3 w) = true ∧ QFollows p (p.pc + 1)) ∧
    (∃ (key : Nat) (w : BitVec 56) (s : State) (p : QProg), QIssuing s key 0xC4 w p ∧ QGuarded p 0xC4 w ∧ Enc.ok ⟨.r8, .r32, .r32, .code 6, plainR⟩ (wordOf 0xC4 w) = true ∧ wC (wordOf 0xC4 w) = 0 ∧ QFollows p (p.pc + 1)) ∧
    (∃ (key : Nat) (w : BitVec 56) (s : State) (p : QProg), QIssuing s key 0xC4 w p ∧ QGuarded p 0xC4 w ∧ Enc.ok ⟨.r8, .r32, .r32, .code 6, plainR⟩ (wordOf 0xC4 w) = true ∧ wC (wordOf 0xC4 w) = 1 ∧ QFollows p (p.pc + 1)) ∧
    (∃ (key : Nat) (w : BitVec 56) (s : State) (p : QProg), QIssuing s key 0xC4 w p ∧ QGuarded p 0xC4 w ∧ Enc.ok ⟨.r8, .r32, .r32, .code 6, plainR⟩ (wordOf 0xC4 w) = true ∧ wC (wordOf 0xC4 w) = 2 ∧ QFollows p (p.pc + 1)) ∧
    (∃ (key : Nat) (w : BitVec 56) (s : State) (p : QProg), QIssuing s key 0xC4 w p ∧ QGuarded p 0xC4 w ∧ Enc.ok ⟨.r8, .r32, .r32, .code 6, plainR⟩ (wordOf 0xC4 w) = true ∧ wC (wordOf 0xC4 w) = 3 ∧ QFollows p (p.pc + 1)) ∧
    (∃ (key : Nat) (w : BitVec 56) (s : State) (p : QProg), QIssuing s key 0xC4 w p ∧ QGuarded p 0xC4 w ∧ Enc.ok ⟨.r8, .r32, .r32, .code 6, plainR⟩ (wordOf 0xC4 w) = true ∧ wC (wordOf 0xC4 w) = 4 ∧ QFollows p (p.pc + 1)) ∧
    (∃ (key : Nat) (w : BitVec 56) (s : State) (p : QProg), QIssuing s key 0xC4 w p ∧ QGuarded p 0xC4 w ∧ Enc.ok ⟨.r8, .r32, .r32, .code 6, plainR⟩ (wordOf 0xC4 w) = true ∧ wC (wordOf 0xC4 w) = 5 ∧ QFollows p (p.pc + 1)) ∧
    (∃ (key : Nat) (w : BitVec 56) (s : State) (p : QProg), QIssuing s key 0xC5 w p ∧ QGuarded p 0xC5 w ∧ Enc.ok ⟨.r8, .r32, .no, .code 6, .imm⟩ (wordOf 0xC5 w) = true ∧ QFollows p (p.pc + 1)) ∧
    (∃ (key : Nat) (w : BitVec 56) (s : State) (p : QProg), QIssuing s key 0xC6 w p ∧ QGuarded p 0xC6 w ∧ Enc.ok ⟨.r16, .r32, .no, .no, plainR⟩ (wordOf 0xC6 w) = true ∧ QFollows p (p.pc + 1)) :=
  ⟨⟨(0x01, fun x y => x + y), 0, packR 0 0 3 1 2 0 1 0 0 0 0, qrunning (qone 0xC0 (packR 0 0 3 1 2 0 1 0 0 0 0)), theProg (qone 0xC0 (packR 0 0 3 1 2 0 1 0 0 0 0)), List.mem_cons_self, by decide +kernel⟩,
    ⟨0, packI 0 0 3 1 0 0 0xFFFFFFFF, qrunning (qone 0xC1 (packI 0 0 3 1 0 0 0xFFFFFFFF)), theProg (qone 0xC1 (packI 0 0 3 1 0 0 0xFFFFFFFF)), by decide +kernel⟩,
    ⟨0, packI 0 0 3 0 0 0 0xFFFFFFFF, qrunning (qone 0xC2 (packI 0 0 3 0 0 0 0xFFFFFFFF)), theProg (qone 0xC2 (packI 0 0 3 0 0 0 0xFFFFFFFF)), by decide +kernel⟩,
    ⟨0, packI 0 0 1 0 0 0 0xFFFFFFFF, qrunning (qone 0xC3 (packI 0 0 1 0 0 0 0xFFFFFFFF)), theProg (qone 0xC3 (packI 0 0 1 0 0 0 0xFFFFFFFF)), by decide +kernel⟩,
    ⟨0, packR 0 0 3 1 2 0 0 0 0 0 0, qrunning (qone 0xC4 (packR 0 0 3 1 2 0 0 0 0 0 0)), theProg (qone 0xC4 (packR 0 0 3 1 2 0 0 0 0 0 0)), by decide +kernel⟩,
    ⟨0, packR 0 0 3 1 2 1 0 0 0 0 0, qrunning (qone 0xC4 (packR 0 0 3 1 2 1 0 0 0 0 0)), theProg (qone 0xC4 (packR 0 0 3 1 2 1 0 0 0 0 0)), by decide +kernel⟩,
    ⟨0, packR 0 0 3 1 2 2 0 0 0 0 0, qrunning (qone 0xC4 (packR 0 0 3 1 2 2 0 0 0 0 0)), theProg (qone 0xC4 (packR 0 0 3 1 2 2 0 0 0 0 0)), by decide +kernel⟩,
    ⟨0, packR 0 0 3 1 2 3 0 0 0 0 0, qrunning (qone 0xC4 (packR 0 0 3 1 2 3 0 0 0 0 0)), theProg (qone 0xC4 (packR 0 0 3 1 2 3 0 0 0 0 0)), by decide +kernel⟩,
    ⟨0, packR 0 0 3 1 2 4 0 0 0 0 0, qrunning (qone 0xC4 (packR 0 0 3 1 2 4 0 0 0 0 0)), theProg (qone 0xC4 (packR 0 0 3 1 2 4 0 0 0 0 0)), by decide +kernel⟩,
    ⟨0, packR 0 0 3 1 2 5 0 0 0 0 0, qrunning (qone 0xC4 (packR 0 0 3 1 2 5 0 0 0 0 0)), theProg (qone 0xC4 (packR 0 0 3 1 2 5 0 0 0 0 0)), by decide +kernel⟩,
    ⟨0, packI 0 0 3 1 0 2 7, qrunning (qone 0xC5 (packI 0 0 3 1 0 2 7)), theProg (qone 0xC5 (packI 0 0 3 1 0 2 7)), by decide +kernel⟩,
    ⟨0, packR 0 0 3 1 0 0 0 0 0 0 0, qrunning (qone 0xC6 (packR 0 0 3 1 0 0 0 0 0 0 0)), theProg (qone 0xC6 (packR 0 0 3 1 0 0 0 0 0 0 0)), by decide +kernel⟩⟩

/-- What meets the hypotheses of QueueProgramScalarAndBranches. -/
theorem witness_QueueProgramScalarAndBranches_2 :
    (∃ (key : Nat) (w : BitVec 56) (s : State) (p : QProg), QIssuing s key 0xC7 w p ∧ QGuarded p 0xC7 w ∧ Enc.ok ⟨.r32, .r16, .no, .no, plainR⟩ (wordOf 0xC7 w) = true ∧ QFollows p (p.pc + 1)) ∧
    (∃ (key : Nat) (t : Nat) (w : BitVec 56) (s : State) (p : QProg), QIssuing s key 0xC8 w p ∧ QGuarded p 0xC8 w ∧ Enc.ok ⟨.no, .no, .no, .no, .imm⟩ (wordOf 0xC8 w) = true ∧ (p.pc : Int) + (((BitVec.ofNat 32 (wordOf 0xC8 w)).signExtend 64)).toInt = t ∧ QFollows p t) ∧
    (∃ (key : Nat) (w : BitVec 56) (s : State) (p : QProg), QIssuing s key 0xC8 w p ∧ QGuarded p 0xC8 w ∧ Enc.ok ⟨.no, .no, .no, .no, .imm⟩ (wordOf 0xC8 w) = true ∧ ((p.pc : Int) + (((BitVec.ofNat 32 (wordOf 0xC8 w)).signExtend 64)).toInt < 0 ∨ (p.code.length : Int) ≤ (p.pc : Int) + (((BitVec.ofNat 32 (wordOf 0xC8 w)).signExtend 64)).toInt)) ∧
    (∃ (key : Nat) (t : Nat) (w : BitVec 56) (s : State) (p : QProg), QIssuing s key 0xC9 w p ∧ QGuarded p 0xC9 w ∧ Enc.ok ⟨.no, .r32, .no, .no, .imm⟩ (wordOf 0xC9 w) = true ∧ p.regs.sr (wA (wordOf 0xC9 w)) = 0 ∧ (p.pc : Int) + (((BitVec.ofNat 32 (wordOf 0xC9 w)).signExtend 64)).toInt = t ∧ QFollows p t) ∧
    (∃ (key : Nat) (w : BitVec 56) (s : State) (p : QProg), QIssuing s key 0xC9 w p ∧ QGuarded p 0xC9 w ∧ Enc.ok ⟨.no, .r32, .no, .no, .imm⟩ (wordOf 0xC9 w) = true ∧ p.regs.sr (wA (wordOf 0xC9 w)) ≠ 0 ∧ QFollows p (p.pc + 1)) ∧
    (∃ (key : Nat) (t : Nat) (w : BitVec 56) (s : State) (p : QProg), QIssuing s key 0xCA w p ∧ QGuarded p 0xCA w ∧ Enc.ok ⟨.no, .r32, .no, .no, .imm⟩ (wordOf 0xCA w) = true ∧ p.regs.sr (wA (wordOf 0xCA w)) ≠ 0 ∧ (p.pc : Int) + (((BitVec.ofNat 32 (wordOf 0xCA w)).signExtend 64)).toInt = t ∧ QFollows p t) ∧
    (∃ (key : Nat) (w : BitVec 56) (s : State) (p : QProg), QIssuing s key 0xCA w p ∧ QGuarded p 0xCA w ∧ Enc.ok ⟨.no, .r32, .no, .no, .imm⟩ (wordOf 0xCA w) = true ∧ p.regs.sr (wA (wordOf 0xCA w)) = 0 ∧ QFollows p (p.pc + 1)) ∧
    (∃ (key : Nat) (t : Nat) (w : BitVec 56) (s : State) (p : QProg), QIssuing s key 0xCB w p ∧ QGuarded p 0xCB w ∧ Enc.ok ⟨.no, .r32, .no, .no, .imm⟩ (wordOf 0xCB w) = true ∧ p.regs.sr (wA (wordOf 0xCB w)) ≠ 1 ∧ (p.pc : Int) + (((BitVec.ofNat 32 (wordOf 0xCB w)).signExtend 64)).toInt = t ∧ QFollows p t) ∧
    (∃ (key : Nat) (w : BitVec 56) (s : State) (p : QProg), QIssuing s key 0xCB w p ∧ QGuarded p 0xCB w ∧ Enc.ok ⟨.no, .r32, .no, .no, .imm⟩ (wordOf 0xCB w) = true ∧ p.regs.sr (wA (wordOf 0xCB w)) = 1 ∧ QFollows p (p.pc + 1)) ∧
    (∃ (key : Nat) (t : Nat) (w : BitVec 56) (s : State) (p : QProg), QIssuing s key 0xCC w p ∧ QGuarded p 0xCC w ∧ Enc.ok ⟨.r32, .no, .no, .no, .imm⟩ (wordOf 0xCC w) = true ∧ (p.pc : Int) + (((BitVec.ofNat 32 (wordOf 0xCC w)).signExtend 64)).toInt = t ∧ QFollows p t) ∧
    (∃ (key : Nat) (t : Nat) (w : BitVec 56) (s : State) (p : QProg), QIssuing s key 0xCD w p ∧ QGuarded p 0xCD w ∧ Enc.ok ⟨.no, .r32, .no, .no, plainR⟩ (wordOf 0xCD w) = true ∧ (p.regs.sr (wA (wordOf 0xCD w))).toNat = t ∧ QFollows p t) ∧
    (∃ (key : Nat) (w : BitVec 56) (s : State) (p : QProg), QIssuing s key 0xCD w p ∧ QGuarded p 0xCD w ∧ Enc.ok ⟨.no, .r32, .no, .no, plainR⟩ (wordOf 0xCD w) = true ∧ p.code.length ≤ (p.regs.sr (wA (wordOf 0xCD w))).toNat) :=
  ⟨⟨0, packR 0 0 3 1 0 0 0 0 0 0 0, qrunning (qone 0xC7 (packR 0 0 3 1 0 0 0 0 0 0 0)), theProg (qone 0xC7 (packR 0 0 3 1 0 0 0 0 0 0 0)), by decide +kernel⟩,
    ⟨0, 1, packI 0 0 0 0 0 0 1, qrunning (qone 0xC8 (packI 0 0 0 0 0 0 1)), theProg (qone 0xC8 (packI 0 0 0 0 0 0 1)), by decide +kernel⟩,
    ⟨0, packI 0 0 0 0 0 0 2, qrunning (qone 0xC8 (packI 0 0 0 0 0 0 2)), theProg (qone 0xC8 (packI 0 0 0 0 0 0 2)), by decide +kernel⟩,
    ⟨0, 1, packI 0 0 0 3 0 0 1, qrunning (qone 0xC9 (packI 0 0 0 3 0 0 1)), theProg (qone 0xC9 (packI 0 0 0 3 0 0 1)), by decide +kernel⟩,
    ⟨0, packI 0 0 0 1 0 0 9, qrunning (qone 0xC9 (packI 0 0 0 1 0 0 9)), theProg (qone 0xC9 (packI 0 0 0 1 0 0 9)), by decide +kernel⟩,
    ⟨0, 1, packI 0 0 0 1 0 0 1, qrunning (qone 0xCA (packI 0 0 0 1 0 0 1)), theProg (qone 0xCA (packI 0 0 0 1 0 0 1)), by decide +kernel⟩,
    ⟨0, packI 0 0 0 0 0 0 9, qrunning (qone 0xCA (packI 0 0 0 0 0 0 9)), theProg (qone 0xCA (packI 0 0 0 0 0 0 9)), by decide +kernel⟩,
    ⟨0, 1, packI 0 0 0 1 0 0 1, qrunning (qone 0xCB (packI 0 0 0 1 0 0 1)), theProg (qone 0xCB (packI 0 0 0 1 0 0 1)), by decide +kernel⟩,
    ⟨0, packI 0 0 0 1 0 0 1, { qrunning (qone 0xCB (packI 0 0 0 1 0 0 1)) with progs := [(0, { theProg (qone 0xCB (packI 0 0 0 1 0 0 1)) with regs := ⟨[(1, 1)], [], []⟩ })] }, { theProg (qone 0xCB (packI 0 0 0 1 0 0 1)) with regs := ⟨[(1, 1)], [], []⟩ }, by decide +kernel⟩,
    ⟨0, 1, packI 0 0 3 0 0 0 1, qrunning (qone 0xCC (packI 0 0 3 0 0 0 1)), theProg (qone 0xCC (packI 0 0 3 0 0 0 1)), by decide +kernel⟩,
    ⟨0, 0, packR 0 0 0 3 0 0 0 0 0 0 0, qrunning (qone 0xCD (packR 0 0 0 3 0 0 0 0 0 0 0)), theProg (qone 0xCD (packR 0 0 0 3 0 0 0 0 0 0 0)), by decide +kernel⟩,
    ⟨0, packR 0 0 0 1 0 0 0 0 0 0 0, qrunning (qone 0xCD (packR 0 0 0 1 0 0 0 0 0 0 0)), theProg (qone 0xCD (packR 0 0 0 1 0 0 0 0 0 0 0)), by decide +kernel⟩⟩

/-- What meets the hypotheses of QueueProgramScalarAndBranches. -/
theorem witness_QueueProgramScalarAndBranches_3 :
    (∃ (key : Nat) (w : BitVec 56) (s : State) (p : QProg), QIssuing s key 0xCE w p ∧ QGuarded p 0xCE w ∧ Enc.ok ⟨.no, .r32, .no, .no, plainR⟩ (wordOf 0xCE w) = true ∧ ((∃ t ∈ p.cmds ++ p.launches, t.status = none))) ∧
    (∃ (key : Nat) (w : BitVec 56) (s : State) (p : QProg), QIssuing s key 0xCE w p ∧ QGuarded p 0xCE w ∧ Enc.ok ⟨.no, .r32, .no, .no, plainR⟩ (wordOf 0xCE w) = true ∧ ((∀ t ∈ p.cmds ++ p.launches, t.status ≠ none)) ∧ p.step = none) ∧
    (∃ (key : Nat) (w : BitVec 56) (s : State) (p : QProg), QIssuing s key 0xC0 w p ∧ ¬ QGuarded p 0xC0 w ∧ Enc.ok ⟨.r32, .r32, .r32, .no, .r 0x14 [] false false 0⟩ (wordOf 0xC0 w) = true ∧ wSub (wordOf 0xC0 w) ≠ 0 ∧ QFollows p (p.pc + 1)) :=
  ⟨⟨0, packR 0 0 0 1 0 0 0 0 0 0 0, { qrunning (qone 0xCE (packR 0 0 0 1 0 0 0 0 0 0 0)) with progs := [(0, { theProg (qone 0xCE (packR 0 0 0 1 0 0 0 0 0 0 0)) with cmds := [⟨0, none, 0, []⟩] })] }, { theProg (qone 0xCE (packR 0 0 0 1 0 0 0 0 0 0 0)) with cmds := [⟨0, none, 0, []⟩] }, by decide +kernel⟩,
    ⟨0, packR 0 0 0 1 0 0 0 0 0 0 0, qrunning (qone 0xCE (packR 0 0 0 1 0 0 0 0 0 0 0)), theProg (qone 0xCE (packR 0 0 0 1 0 0 0 0 0 0 0)), by decide +kernel⟩,
    ⟨0, packR 1 1 3 1 2 0 1 0 0 0 0, qrunning (qone 0xC0 (packR 1 1 3 1 2 0 1 0 0 0 0)), theProg (qone 0xC0 (packR 1 1 3 1 2 0 1 0 0 0 0)), by decide +kernel⟩⟩

/-- What meets the hypotheses of QueueProgramMemoryAndTokens. -/
theorem witness_QueueProgramMemoryAndTokens :
    (∃ (key : Nat) (n : Named) (w : BitVec 56) (s : State) (p : QProg), QIssuing s key 0xD0 w p ∧ QGuarded p 0xD0 w ∧ Enc.ok ⟨.r32, .r16, .r32, .no, plainR⟩ (wordOf 0xD0 w) = true ∧ (p.regs.sr (wB (wordOf 0xD0 w))).toNat % 8 = 0 ∧ (checkHandle s p.slot (p.regs.hr (wA (wordOf 0xD0 w))) false (p.regs.sr (wB (wordOf 0xD0 w))).toNat 8 (wA (wordOf 0xD0 w)) p.pc).toOption = some n ∧ (pagesOf n.obj (p.regs.sr (wB (wordOf 0xD0 w))).toNat 8).find? (fun i => (n.obj.page i).poison) = none ∧ mustPromote n.obj (p.regs.sr (wB (wordOf 0xD0 w))).toNat 8 false = [] ∧ QFollows p (p.pc + 1)) ∧
    (∃ (key : Nat) (w : BitVec 56) (s : State) (p : QProg), QIssuing s key 0xD0 w p ∧ QGuarded p 0xD0 w ∧ Enc.ok ⟨.r32, .r16, .r32, .no, plainR⟩ (wordOf 0xD0 w) = true ∧ (p.regs.sr (wB (wordOf 0xD0 w))).toNat % 8 ≠ 0) ∧
    (∃ (key : Nat) (n : Named) (w : BitVec 56) (s : State) (p : QProg), QIssuing s key 0xD1 w p ∧ QGuarded p 0xD1 w ∧ Enc.ok ⟨.no, .r32, .r16, .r32, plainR⟩ (wordOf 0xD1 w) = true ∧ (p.regs.sr (wC (wordOf 0xD1 w))).toNat % 8 = 0 ∧ (checkHandle s p.slot (p.regs.hr (wB (wordOf 0xD1 w))) true (p.regs.sr (wC (wordOf 0xD1 w))).toNat 8 (wB (wordOf 0xD1 w)) p.pc).toOption = some n ∧ leaseBlock n.obj (pagesOf n.obj (p.regs.sr (wC (wordOf 0xD1 w))).toNat 8) = none ∧ (pagesOf n.obj (p.regs.sr (wC (wordOf 0xD1 w))).toNat 8).find? (fun i => (n.obj.page i).poison && !covers n.obj (p.regs.sr (wC (wordOf 0xD1 w))).toNat 8 i) = none ∧ mustPromote n.obj (p.regs.sr (wC (wordOf 0xD1 w))).toNat 8 true = []) ∧
    (∃ (key : Nat) (w : BitVec 56) (s : State) (p : QProg), QIssuing s key 0xD1 w p ∧ QGuarded p 0xD1 w ∧ Enc.ok ⟨.no, .r32, .r16, .r32, plainR⟩ (wordOf 0xD1 w) = true ∧ (p.regs.sr (wC (wordOf 0xD1 w))).toNat % 8 ≠ 0) ∧
    (∃ (key : Nat) (t : Token) (st : Word) (w : BitVec 56) (s : State) (p : QProg), QIssuing s key 0xD9 w p ∧ QGuarded p 0xD9 w ∧ Enc.ok ⟨.r32, .r32, .no, .no, plainR⟩ (wordOf 0xD9 w) = true ∧ tokenOk p.cmdNext 64 (p.regs.sr (wA (wordOf 0xD9 w))).toNat = true ∧ findTok p.cmds (p.regs.sr (wA (wordOf 0xD9 w))).toNat = some t ∧ t.status = some st ∧ QFollows p (p.pc + 1)) ∧
    (∃ (key : Nat) (t : Token) (w : BitVec 56) (s : State) (p : QProg), QIssuing s key 0xD9 w p ∧ QGuarded p 0xD9 w ∧ Enc.ok ⟨.r32, .r32, .no, .no, plainR⟩ (wordOf 0xD9 w) = true ∧ tokenOk p.cmdNext 64 (p.regs.sr (wA (wordOf 0xD9 w))).toNat = true ∧ findTok p.cmds (p.regs.sr (wA (wordOf 0xD9 w))).toNat = some t ∧ t.status = none) ∧
    (∃ (key : Nat) (w : BitVec 56) (s : State) (p : QProg), QIssuing s key 0xD9 w p ∧ QGuarded p 0xD9 w ∧ Enc.ok ⟨.r32, .r32, .no, .no, plainR⟩ (wordOf 0xD9 w) = true ∧ tokenOk p.cmdNext 64 (p.regs.sr (wA (wordOf 0xD9 w))).toNat = false) ∧
    (∃ (key : Nat) (t : Token) (st : Word) (w : BitVec 56) (s : State) (p : QProg), QIssuing s key 0xDA w p ∧ QGuarded p 0xDA w ∧ Enc.ok ⟨.r32, .r32, .no, .no, plainR⟩ (wordOf 0xDA w) = true ∧ tokenOk p.cmdNext 64 (p.regs.sr (wA (wordOf 0xDA w))).toNat = true ∧ findTok p.cmds (p.regs.sr (wA (wordOf 0xDA w))).toNat = some t ∧ t.status = some st ∧ QFollows p (p.pc + 1)) ∧
    (∃ (key : Nat) (t : Token) (w : BitVec 56) (s : State) (p : QProg), QIssuing s key 0xDA w p ∧ QGuarded p 0xDA w ∧ Enc.ok ⟨.r32, .r32, .no, .no, plainR⟩ (wordOf 0xDA w) = true ∧ tokenOk p.cmdNext 64 (p.regs.sr (wA (wordOf 0xDA w))).toNat = true ∧ findTok p.cmds (p.regs.sr (wA (wordOf 0xDA w))).toNat = some t ∧ t.status = none) ∧
    (∃ (key : Nat) (w : BitVec 56) (s : State) (p : QProg), QIssuing s key 0xDA w p ∧ QGuarded p 0xDA w ∧ Enc.ok ⟨.r32, .r32, .no, .no, plainR⟩ (wordOf 0xDA w) = true ∧ tokenOk p.cmdNext 64 (p.regs.sr (wA (wordOf 0xDA w))).toNat = false) ∧
    (∃ (key : Nat) (t : Token) (st : Word) (w : BitVec 56) (s : State) (p : QProg), QIssuing s key 0xE2 w p ∧ QGuarded p 0xE2 w ∧ Enc.ok ⟨.r32, .r32, .no, .no, plainR⟩ (wordOf 0xE2 w) = true ∧ tokenOk p.launchNext 16 (p.regs.sr (wA (wordOf 0xE2 w))).toNat = true ∧ findTok p.launches (p.regs.sr (wA (wordOf 0xE2 w))).toNat = some t ∧ t.status = some st ∧ QFollows p (p.pc + 1)) ∧
    (∃ (key : Nat) (t : Token) (w : BitVec 56) (s : State) (p : QProg), QIssuing s key 0xE2 w p ∧ QGuarded p 0xE2 w ∧ Enc.ok ⟨.r32, .r32, .no, .no, plainR⟩ (wordOf 0xE2 w) = true ∧ tokenOk p.launchNext 16 (p.regs.sr (wA (wordOf 0xE2 w))).toNat = true ∧ findTok p.launches (p.regs.sr (wA (wordOf 0xE2 w))).toNat = some t ∧ t.status = none) :=
  ⟨⟨0, ⟨0, 1, anObj⟩, packR 0 0 3 1 0 0 0 0 0 0 0, qrunning (qone 0xD0 (packR 0 0 3 1 0 0 0 0 0 0 0)), theProg (qone 0xD0 (packR 0 0 3 1 0 0 0 0 0 0 0)), by decide +kernel⟩,
    ⟨0, packR 0 0 3 1 1 0 0 0 0 0 0, qrunning (qone 0xD0 (packR 0 0 3 1 1 0 0 0 0 0 0)), theProg (qone 0xD0 (packR 0 0 3 1 1 0 0 0 0 0 0)), by decide +kernel⟩,
    ⟨0, ⟨0, 1, anObj⟩, packR 0 0 0 1 1 0 0 0 0 0 0, qrunning (qone 0xD1 (packR 0 0 0 1 1 0 0 0 0 0 0)), theProg (qone 0xD1 (packR 0 0 0 1 1 0 0 0 0 0 0)), by decide +kernel⟩,
    ⟨0, packR 0 0 0 1 1 1 0 0 0 0 0, qrunning (qone 0xD1 (packR 0 0 0 1 1 1 0 0 0 0 0)), theProg (qone 0xD1 (packR 0 0 0 1 1 1 0 0 0 0 0)), by decide +kernel⟩,
    ⟨0, ⟨0, some 0, 5, []⟩, 0, packR 0 0 3 0 0 0 0 0 0 0 0, qrunning (qone 0xD9 (packR 0 0 3 0 0 0 0 0 0 0 0)), theProg (qone 0xD9 (packR 0 0 3 0 0 0 0 0 0 0 0)), by decide +kernel⟩,
    ⟨0, ⟨0, none, 0, []⟩, packR 0 0 3 0 0 0 0 0 0 0 0, { qrunning (qone 0xD9 (packR 0 0 3 0 0 0 0 0 0 0 0)) with progs := [(0, { theProg (qone 0xD9 (packR 0 0 3 0 0 0 0 0 0 0 0)) with cmds := [⟨0, none, 0, []⟩] })] }, { theProg (qone 0xD9 (packR 0 0 3 0 0 0 0 0 0 0 0)) with cmds := [⟨0, none, 0, []⟩] }, by decide +kernel⟩,
    ⟨0, packR 0 0 3 1 0 0 0 0 0 0 0, qrunning (qone 0xD9 (packR 0 0 3 1 0 0 0 0 0 0 0)), theProg (qone 0xD9 (packR 0 0 3 1 0 0 0 0 0 0 0)), by decide +kernel⟩,
    ⟨0, ⟨0, some 0, 5, []⟩, 0, packR 0 0 3 0 0 0 0 0 0 0 0, qrunning (qone 0xDA (packR 0 0 3 0 0 0 0 0 0 0 0)), theProg (qone 0xDA (packR 0 0 3 0 0 0 0 0 0 0 0)), by decide +kernel⟩,
    ⟨0, ⟨0, none, 0, []⟩, packR 0 0 3 0 0 0 0 0 0 0 0, { qrunning (qone 0xDA (packR 0 0 3 0 0 0 0 0 0 0 0)) with progs := [(0, { theProg (qone 0xDA (packR 0 0 3 0 0 0 0 0 0 0 0)) with cmds := [⟨0, none, 0, []⟩] })] }, { theProg (qone 0xDA (packR 0 0 3 0 0 0 0 0 0 0 0)) with cmds := [⟨0, none, 0, []⟩] }, by decide +kernel⟩,
    ⟨0, packR 0 0 3 1 0 0 0 0 0 0 0, qrunning (qone 0xDA (packR 0 0 3 1 0 0 0 0 0 0 0)), theProg (qone 0xDA (packR 0 0 3 1 0 0 0 0 0 0 0)), by decide +kernel⟩,
    ⟨0, ⟨0, some 0, 0, [1, 2, 3, 4, 5, 6, 7, 8]⟩, 0, packR 0 0 3 0 0 0 0 0 0 0 0, qrunning (qone 0xE2 (packR 0 0 3 0 0 0 0 0 0 0 0)), theProg (qone 0xE2 (packR 0 0 3 0 0 0 0 0 0 0 0)), by decide +kernel⟩,
    ⟨0, ⟨0, none, 0, []⟩, packR 0 0 3 0 0 0 0 0 0 0 0, { qrunning (qone 0xE2 (packR 0 0 3 0 0 0 0 0 0 0 0)) with progs := [(0, { theProg (qone 0xE2 (packR 0 0 3 0 0 0 0 0 0 0 0)) with launches := [⟨0, none, 0, []⟩] })] }, { theProg (qone 0xE2 (packR 0 0 3 0 0 0 0 0 0 0 0)) with launches := [⟨0, none, 0, []⟩] }, by decide +kernel⟩⟩

/-- What meets the hypotheses of QueueProgramMemoryAndTokens. -/
theorem witness_QueueProgramMemoryAndTokens_2 :
    (∃ (key : Nat) (w : BitVec 56) (s : State) (p : QProg), QIssuing s key 0xE2 w p ∧ QGuarded p 0xE2 w ∧ Enc.ok ⟨.r32, .r32, .no, .no, plainR⟩ (wordOf 0xE2 w) = true ∧ tokenOk p.launchNext 16 (p.regs.sr (wA (wordOf 0xE2 w))).toNat = false) ∧
    (∃ (key : Nat) (t : Token) (w : BitVec 56) (s : State) (p : QProg), QIssuing s key 0xE3 w p ∧ QGuarded p 0xE3 w ∧ Enc.ok ⟨.no, .r32, .r16, .r32, plainR⟩ (wordOf 0xE3 w) = true ∧ (p.regs.sr (wC (wordOf 0xE3 w))).toNat % 32 = 0 ∧ tokenOk p.launchNext 16 (p.regs.sr (wA (wordOf 0xE3 w))).toNat = true ∧ findTok p.launches (p.regs.sr (wA (wordOf 0xE3 w))).toNat = some t ∧ t.status ≠ none) ∧
    (∃ (key : Nat) (w : BitVec 56) (s : State) (p : QProg), QIssuing s key 0xE3 w p ∧ QGuarded p 0xE3 w ∧ Enc.ok ⟨.no, .r32, .r16, .r32, plainR⟩ (wordOf 0xE3 w) = true ∧ (p.regs.sr (wC (wordOf 0xE3 w))).toNat % 32 ≠ 0) :=
  ⟨⟨0, packR 0 0 3 1 0 0 0 0 0 0 0, qrunning (qone 0xE2 (packR 0 0 3 1 0 0 0 0 0 0 0)), theProg (qone 0xE2 (packR 0 0 3 1 0 0 0 0 0 0 0)), by decide +kernel⟩,
    ⟨0, ⟨0, some 0, 0, [1, 2, 3, 4, 5, 6, 7, 8]⟩, packR 0 0 0 0 1 0 0 0 0 0 0, qrunning (qone 0xE3 (packR 0 0 0 0 1 0 0 0 0 0 0)), theProg (qone 0xE3 (packR 0 0 0 0 1 0 0 0 0 0 0)), by decide +kernel⟩,
    ⟨0, packR 0 0 0 0 1 1 0 0 0 0 0, qrunning (qone 0xE3 (packR 0 0 0 0 1 1 0 0 0 0 0)), theProg (qone 0xE3 (packR 0 0 0 0 1 1 0 0 0 0 0)), by decide +kernel⟩⟩

/-- What meets the hypotheses of QueueProgramWaitsAndPosts. -/
theorem witness_QueueProgramWaitsAndPosts :
    (∃ (key : Nat) (w : BitVec 56) (s : State) (p : QProg), QIssuing s key 0xE8 w p ∧ QGuarded p 0xE8 w ∧ Enc.ok ⟨.no, .r32, .r32, .no, .r 0 [] false false 3⟩ (wordOf 0xE8 w) = true ∧ p.step = none ∧ (s.ten p.slot).any (fun t => (mget t.queues (p.regs.sr (wA (wordOf 0xE8 w))).toNat).isSome) = true) ∧
    (∃ (slot q n : Nat) (d : Word) (s : State) (t : Tenant), s.ten slot = some t ∧ n < 8) ∧
    (∃ (key : Nat) (w : BitVec 56) (s : State) (p : QProg), QIssuing s key 0xE9 w p ∧ QGuarded p 0xE9 w ∧ Enc.ok ⟨.no, .r32, .no, .no, .r 0 [] false false 3⟩ (wordOf 0xE9 w) = true ∧ p.step = none ∧ (p.regs.sr (wA (wordOf 0xE9 w))).toNat ≤ (mgetD (s.que p.slot p.queue).sems 0 (wMod (wordOf 0xE9 w))).toNat ∧ QFollows p (p.pc + 1)) ∧
    (∃ (key : Nat) (w : BitVec 56) (s : State) (p : QProg), QIssuing s key 0xE9 w p ∧ QGuarded p 0xE9 w ∧ Enc.ok ⟨.no, .r32, .no, .no, .r 0 [] false false 3⟩ (wordOf 0xE9 w) = true ∧ p.step = none ∧ (mgetD (s.que p.slot p.queue).sems 0 (wMod (wordOf 0xE9 w))).toNat < (p.regs.sr (wA (wordOf 0xE9 w))).toNat) ∧
    (∃ (key : Nat) (w : BitVec 56) (s : State) (p : QProg), QIssuing s key 0xEA w p ∧ QGuarded p 0xEA w ∧ Enc.ok {} (wordOf 0xEA w) = true ∧ p.idle = true ∧ QFollows p (p.pc + 1)) ∧
    (∃ (key : Nat) (w : BitVec 56) (s : State) (p : QProg), QIssuing s key 0xEA w p ∧ QGuarded p 0xEA w ∧ Enc.ok {} (wordOf 0xEA w) = true ∧ p.idle = false) ∧
    (∃ (key : Nat) (w : BitVec 56) (s : State) (p : QProg), QIssuing s key 0xEB w p ∧ QGuarded p 0xEB w ∧ Enc.ok ⟨.r32, .r32, .no, .no, .r 0 [] false false 4⟩ (wordOf 0xEB w) = true ∧ p.step = none ∧ wMod (wordOf 0xEB w) ≠ 0 ∧ ((wMod (wordOf 0xEB w)).testBit 3 = false ∨ 0 < (p.regs.sr (wA (wordOf 0xEB w))).toNat)) ∧
    (∃ (key : Nat) (w : BitVec 56) (s : State) (p : QProg), QIssuing s key 0xEB w p ∧ QGuarded p 0xEB w ∧ Enc.ok ⟨.r32, .r32, .no, .no, .r 0 [] false false 4⟩ (wordOf 0xEB w) = true ∧ (wMod (wordOf 0xEB w) = 0 ∨ ((wMod (wordOf 0xEB w)).testBit 3 = true ∧ (p.regs.sr (wA (wordOf 0xEB w))).toNat = 0))) ∧
    (∃ (key m : Nat) (s : State) (p : QProg) (k : Park), s.prog key = some p ∧ p.parked = some k ∧ m = k.met ||| (if k.wakeAt.any (fun t => decide (t ≤ s.tb)) then 8 else 0) ∧ m ≠ 0 ∧ QFollows p (p.pc + 1)) ∧
    (∃ (key : Nat) (s : State) (p : QProg) (k : Park), s.prog key = some p ∧ p.parked = some k ∧ k.met = 0 ∧ ((∀ t, k.wakeAt = some t → s.tb < t))) ∧
    (∃ (key : Nat) (w : BitVec 56) (s : State) (p : QProg), QIssuing s key 0xEC w p ∧ QGuarded p 0xEC w ∧ Enc.ok ⟨.r32, .no, .no, .no, plainR⟩ (wordOf 0xEC w) = true ∧ QFollows p (p.pc + 1)) ∧
    (∃ (key : Nat) (id : Nat) (t : Step) (w : BitVec 56) (s : State) (p : QProg), QIssuing s key 0xF0 w p ∧ QGuarded p 0xF0 w ∧ Enc.ok ⟨.r32, .no, .no, .no, plainR⟩ (wordOf 0xF0 w) = true ∧ p.step = some id ∧ s.step? id = some t ∧ QFollows p (p.pc + 1)) :=
  ⟨⟨0, packR 0 0 0 0 1 0 0 0 0 0 7, qrunning (qone 0xE8 (packR 0 0 0 0 1 0 0 0 0 0 7)), theProg (qone 0xE8 (packR 0 0 0 0 1 0 0 0 0 0 7)), by decide +kernel⟩,
    ⟨0, 0, 0, 0, State.reset.setTen 0 aTenant, aTenant, by decide +kernel⟩,
    ⟨0, packR 0 0 0 0 0 0 0 0 0 0 7, qrunning (qone 0xE9 (packR 0 0 0 0 0 0 0 0 0 0 7)), theProg (qone 0xE9 (packR 0 0 0 0 0 0 0 0 0 0 7)), by decide +kernel⟩,
    ⟨0, packR 0 0 0 1 0 0 0 0 0 0 7, qrunning (qone 0xE9 (packR 0 0 0 1 0 0 0 0 0 0 7)), theProg (qone 0xE9 (packR 0 0 0 1 0 0 0 0 0 0 7)), by decide +kernel⟩,
    ⟨0, 0, qrunning (qone 0xEA (0)), theProg (qone 0xEA (0)), by decide +kernel⟩,
    ⟨0, 0, { qrunning (qone 0xEA (0)) with progs := [(0, { theProg (qone 0xEA 0) with cmds := [⟨0, none, 0, []⟩] })] }, { theProg (qone 0xEA (0)) with cmds := [⟨0, none, 0, []⟩] }, by decide +kernel⟩,
    ⟨0, packR 0 0 3 1 0 0 0 0 0 0 15, qrunning (qone 0xEB (packR 0 0 3 1 0 0 0 0 0 0 15)), theProg (qone 0xEB (packR 0 0 3 1 0 0 0 0 0 0 15)), by decide +kernel⟩,
    ⟨0, packR 0 0 3 0 0 0 0 0 0 0 8, qrunning (qone 0xEB (packR 0 0 3 0 0 0 0 0 0 0 8)), theProg (qone 0xEB (packR 0 0 3 0 0 0 0 0 0 0 8)), by decide +kernel⟩,
    ⟨0, 1, { qrunning [] with progs := [(0, { theProg (qone 0xEB (packR 0 0 3 0 0 0 0 0 0 0 1)) with parked := some ⟨1, none, 3, 1⟩ })] }, { theProg (qone 0xEB (packR 0 0 3 0 0 0 0 0 0 0 1)) with parked := some ⟨1, none, 3, 1⟩ }, ⟨1, none, 3, 1⟩, by decide +kernel⟩,
    ⟨0, { qrunning [] with progs := [(0, { theProg (qone 0xEB (packR 0 0 3 0 0 0 0 0 0 0 1)) with parked := some ⟨1, none, 3, 0⟩ })] }, { theProg (qone 0xEB (packR 0 0 3 0 0 0 0 0 0 0 1)) with parked := some ⟨1, none, 3, 0⟩ }, ⟨1, none, 3, 0⟩, rfl, rfl, rfl, by intro t h; simp at h⟩,
    ⟨0, packR 0 0 3 0 0 0 0 0 0 0 0, qrunning (qone 0xEC (packR 0 0 3 0 0 0 0 0 0 0 0)), theProg (qone 0xEC (packR 0 0 3 0 0 0 0 0 0 0 0)), by decide +kernel⟩,
    ⟨0, 0, { model := 0, kind := .decode, entries := [], clusters := [], after := none, standing := 0, startS := 0, first := 0, taus := [], tokens := 0, lmax := 0 }, packR 0 0 3 0 0 0 0 0 0 0 0, { qrunning (qone 0xF0 (packR 0 0 3 0 0 0 0 0 0 0 0)) with progs := [(0, { theProg (qone 0xF0 (packR 0 0 3 0 0 0 0 0 0 0 0)) with step := some 0 })], sch := { steps := [(0, { model := 0, kind := .decode, entries := [], clusters := [], after := none, standing := 0, startS := 0, first := 0, taus := [], tokens := 0, lmax := 0 })] } }, { theProg (qone 0xF0 (packR 0 0 3 0 0 0 0 0 0 0 0)) with step := some 0 }, by decide +kernel⟩⟩

/-- What meets the hypotheses of QueueProgramWaitsAndPosts. -/
theorem witness_QueueProgramWaitsAndPosts_2 :
    (∃ (key : Nat) (w : BitVec 56) (s : State) (p : QProg), QIssuing s key 0xF1 w p ∧ QGuarded p 0xF1 w ∧ Enc.ok ⟨.no, .r32, .r32, .no, .r 0 [] false false 16⟩ (wordOf 0xF1 w) = true ∧ p.step = none ∧ 0 < s.heldFree p.slot) ∧
    (∃ (key : Nat) (w : BitVec 56) (s : State) (p : QProg), QIssuing s key 0xF1 w p ∧ QGuarded p 0xF1 w ∧ Enc.ok ⟨.no, .r32, .r32, .no, .r 0 [] false false 16⟩ (wordOf 0xF1 w) = true ∧ p.step = none ∧ s.heldFree p.slot = 0 ∧ p.slotWait = false) :=
  ⟨⟨0, packR 0 0 0 1 2 0 0 0 0 0 0xABCD, qrunning (qone 0xF1 (packR 0 0 0 1 2 0 0 0 0 0 0xABCD)), theProg (qone 0xF1 (packR 0 0 0 1 2 0 0 0 0 0 0xABCD)), by decide +kernel⟩,
    ⟨0, packR 0 0 0 1 2 0 0 0 0 0 0xABCD, (qrunning (qone 0xF1 (packR 0 0 0 1 2 0 0 0 0 0 0xABCD))).setTen 0 { aTenant with heldResv := 4096 }, theProg (qone 0xF1 (packR 0 0 0 1 2 0 0 0 0 0 0xABCD)), by decide +kernel⟩⟩

/-- What meets the hypotheses of QueueProgramLaunches. -/
theorem witness_QueueProgramLaunches :
    (∃ (key : Nat) (n : Named) (w : BitVec 56) (s : State) (p : QProg), QIssuing s key 0xD8 w p ∧ QGuarded p 0xD8 w ∧ Enc.ok ⟨.r32, .r16, .r32, .no, plainR⟩ (wordOf 0xD8 w) = true ∧ p.step = none ∧ (p.regs.sr (wB (wordOf 0xD8 w))).toNat % 64 = 0 ∧ openToks p.cmds < 64 ∧ (checkHandle s p.slot (p.regs.hr (wA (wordOf 0xD8 w))) false (p.regs.sr (wB (wordOf 0xD8 w))).toNat 64 (wA (wordOf 0xD8 w)) p.pc).toOption = some n ∧ (pagesOf n.obj (p.regs.sr (wB (wordOf 0xD8 w))).toNat 64).find? (fun i => (n.obj.page i).poison) = none ∧ mustPromote n.obj (p.regs.sr (wB (wordOf 0xD8 w))).toNat 64 false = [] ∧ fenceMet p.slot p.queue (recordAt n.obj.data (p.regs.sr (wB (wordOf 0xD8 w))).toNat) (some p.flight) s = true ∧ 0 < s.heldFree p.slot ∧ badHeader (recordAt n.obj.data (p.regs.sr (wB (wordOf 0xD8 w))).toNat) = false) ∧
    (∃ (key : Nat) (w : BitVec 56) (s : State) (p : QProg), QIssuing s key 0xD8 w p ∧ QGuarded p 0xD8 w ∧ Enc.ok ⟨.r32, .r16, .r32, .no, plainR⟩ (wordOf 0xD8 w) = true ∧ p.step = none ∧ (p.regs.sr (wB (wordOf 0xD8 w))).toNat % 64 = 0 ∧ 64 ≤ openToks p.cmds) ∧
    (∃ (key : Nat) (n : Named) (w : BitVec 56) (s : State) (p : QProg), QIssuing s key 0xE0 w p ∧ QGuarded p 0xE0 w ∧ Enc.ok ⟨.r32, .r16, .r32, .no, plainR⟩ (wordOf 0xE0 w) = true ∧ p.step = none ∧ (p.regs.sr (wB (wordOf 0xE0 w))).toNat % 64 = 0 ∧ openToks p.launches < 16 ∧ (checkHandle s p.slot (p.regs.hr (wA (wordOf 0xE0 w))) false (p.regs.sr (wB (wordOf 0xE0 w))).toNat 192 (wA (wordOf 0xE0 w)) p.pc).toOption = some n ∧ (pagesOf n.obj (p.regs.sr (wB (wordOf 0xE0 w))).toNat 192).find? (fun i => (n.obj.page i).poison) = none ∧ mustPromote n.obj (p.regs.sr (wB (wordOf 0xE0 w))).toNat 192 false = [] ∧ recordOk n.obj.data (p.regs.sr (wB (wordOf 0xE0 w))).toNat = true ∧ readLE n.obj.data ((p.regs.sr (wB (wordOf 0xE0 w))).toNat + 0xA0) 8 = 0 ∧ (if (recordLaunch key p s n.obj.data (p.regs.sr (wB (wordOf 0xE0 w))).toNat).report then 2 else 1) ≤ s.heldFree p.slot ∧ exhausted s p.slot = none ∧ (recordLaunch key p s n.obj.data (p.regs.sr (wB (wordOf 0xE0 w))).toNat).group ≤ clustersUp s ∧ QFollows p (p.pc + 1)) ∧
    (∃ (key : Nat) (w : BitVec 56) (s : State) (p : QProg), QIssuing s key 0xE0 w p ∧ QGuarded p 0xE0 w ∧ Enc.ok ⟨.r32, .r16, .r32, .no, plainR⟩ (wordOf 0xE0 w) = true ∧ p.step = none ∧ (p.regs.sr (wB (wordOf 0xE0 w))).toNat % 64 = 0 ∧ 16 ≤ openToks p.launches) ∧
    (∃ (l : Launch) (n : Named) (code : List DWord) (s : State), (checkHandle s l.slot l.handle false 0 0 0xFFFF 0xFFFF).toOption = some n ∧ codeOf n.obj = some code) ∧
    (∃ (key : Nat) (id : Nat) (t : Step) (m : Model) (w : BitVec 56) (s : State) (p : QProg), QIssuing s key 0xE1 w p ∧ QGuarded p 0xE1 w ∧ Enc.ok ⟨.r32, .r32, .no, .no, .r 0 [] false false 6⟩ (wordOf 0xE1 w) = true ∧ wMod (wordOf 0xE1 w) ≤ 32 ∧ p.step = some id ∧ s.step? id = some t ∧ s.model t.model = some m ∧ t.first ≤ (p.regs.sr (wA (wordOf 0xE1 w))).toNat ∧ (p.regs.sr (wA (wordOf 0xE1 w))).toNat < m.groups.length ∧ stepLaunch s id = none ∧ QFollows p (p.pc + 1)) :=
  ⟨⟨0, ⟨0, 1, { anObj with data := [⟨1, 0x07⟩, ⟨0x88, 1⟩] }⟩, packR 0 0 3 1 0 0 0 0 0 0 0, qrec (qone 0xD8 (packR 0 0 3 1 0 0 0 0 0 0 0)), theProg (qone 0xD8 (packR 0 0 3 1 0 0 0 0 0 0 0)), by decide +kernel⟩,
    ⟨0, packR 0 0 3 1 0 0 0 0 0 0 0, { qrunning (qone 0xD8 (packR 0 0 3 1 0 0 0 0 0 0 0)) with progs := [(0, { theProg (qone 0xD8 (packR 0 0 3 1 0 0 0 0 0 0 0)) with cmds := List.replicate 64 ⟨0, none, 0, []⟩ })] }, { theProg (qone 0xD8 (packR 0 0 3 1 0 0 0 0 0 0 0)) with cmds := List.replicate 64 ⟨0, none, 0, []⟩ }, by decide +kernel⟩,
    ⟨0, ⟨0, 1, { anObj with data := [⟨1, 0x07⟩, ⟨0x88, 1⟩] }⟩, packR 0 0 3 1 0 0 0 0 0 0 0, qrec (qone 0xE0 (packR 0 0 3 1 0 0 0 0 0 0 0)), theProg (qone 0xE0 (packR 0 0 3 1 0 0 0 0 0 0 0)), by decide +kernel⟩,
    ⟨0, packR 0 0 3 1 0 0 0 0 0 0 0, { qrunning (qone 0xE0 (packR 0 0 3 1 0 0 0 0 0 0 0)) with progs := [(0, { theProg (qone 0xE0 (packR 0 0 3 1 0 0 0 0 0 0 0)) with launches := List.replicate 16 ⟨0, none, 0, []⟩ })] }, { theProg (qone 0xE0 (packR 0 0 3 1 0 0 0 0 0 0 0)) with launches := List.replicate 16 ⟨0, none, 0, []⟩ }, by decide +kernel⟩,
    ⟨{ theLaunch (running []) with handle := 0x0001001000000001 }, ⟨0, 1, aCode⟩, [0, 0], State.reset.setTen 0 { aTenant with objs := [(1, aCode)] }, by decide +kernel⟩,
    ⟨0, 0, { model := 0, kind := .decode, entries := [], clusters := [0], after := none, standing := 0, startS := 0, first := 0, taus := [], tokens := 0, lmax := 0 }, { slot := 0, handle := 0, tag := 0, kvFormat := 0, kvFlags := 0, kvBytes := 0, maxLen := 0, maxBatch := 1, minFill := 0, maxPadded := 0, chunk := 0, clusters := 1, stepProg := 0, actBytes := 0, groups := [⟨0, 0, 0, 0⟩] }, packR 0 0 3 0 0 0 0 0 0 0 4, { qrunning (qone 0xE1 (packR 0 0 3 0 0 0 0 0 0 0 4)) with progs := [(0, { theProg (qone 0xE1 (packR 0 0 3 0 0 0 0 0 0 0 4)) with step := some 0 })], sch := { models := [(0, { slot := 0, handle := 0, tag := 0, kvFormat := 0, kvFlags := 0, kvBytes := 0, maxLen := 0, maxBatch := 1, minFill := 0, maxPadded := 0, chunk := 0, clusters := 1, stepProg := 0, actBytes := 0, groups := [⟨0, 0, 0, 0⟩] })], steps := [(0, { model := 0, kind := .decode, entries := [], clusters := [0], after := none, standing := 0, startS := 0, first := 0, taus := [], tokens := 0, lmax := 0 })] } }, { theProg (qone 0xE1 (packR 0 0 3 0 0 0 0 0 0 0 4)) with step := some 0 }, by decide +kernel⟩⟩

/-- What meets the hypotheses of AdmissionRequestsAnswered. -/
theorem witness_AdmissionRequestsAnswered :
    (∃ (win : Option Nat) (f : Nat) (req : AdmReq) (s : State) (v : State) (id slot : Nat), f < 32 ∧ reaches s f win = true ∧ (s.fn f).mbBusy = false ∧ s.fwDown = false ∧ inRun s = true ∧ v = withholdLent s ∧ fnBusy v f = false ∧ admitStages v f req = none ∧ spans v (⟨1, f, win, req⟩ : MbReq) = false ∧ freeId v = some id ∧ shorts4 v 0 req.evc (wanted req.cls (reqVec req)) = [] ∧ v.adm.deferred.any (fun e => decide (req.prio ≤ e.mb.req.prio)) = false ∧ slotFor v f = some slot) ∧
    (∃ (win : Option Nat) (f : Nat) (req : AdmReq) (s : State) (v : State) (t : Status) (x : Nat), f < 32 ∧ reaches s f win = true ∧ (s.fn f).mbBusy = false ∧ s.fwDown = false ∧ inRun s = true ∧ v = withholdLent s ∧ fnBusy v f = false ∧ admitStages v f req = some (t, x)) ∧
    (∃ (win : Option Nat) (f : Nat) (req : AdmReq) (s : State) (v : State) (slot : Nat) (t : Tenant), f < 32 ∧ reaches s f win = true ∧ (s.fn f).mbBusy = false ∧ s.fwDown = false ∧ inRun s = true ∧ v = withholdLent s ∧ targetOf (⟨2, f, win, req⟩ : MbReq) v = some slot ∧ v.ten slot = some t ∧ t.fn = some f ∧ badField v t.cls (reqVec req) = none ∧ raises t.vec (reqVec req) = false) ∧
    (∃ (win : Option Nat) (f : Nat) (req : AdmReq) (s : State) (slot : Nat) (t : Tenant), f < 32 ∧ reaches s f win = true ∧ (s.fn f).mbBusy = false ∧ s.fwDown = false ∧ inRun s = true ∧ fnBusy s f = false ∧ (mgetD s.adm.attachFails {} req.tenantId).lockUntil = none ∧ s.slotOf req.tenantId = some slot ∧ s.ten slot = some t ∧ (t.st = .parked ∨ t.st = .dormant) ∧ req.token ≠ 0 ∧ t.token = req.token ∧ (f ≠ 0 ∨ slot < s.bar2) ∧ req.rotate = false) ∧
    (∃ (win : Option Nat) (f : Nat) (req : AdmReq) (s : State) (slot : Nat) (t : Tenant), f < 32 ∧ reaches s f win = true ∧ (s.fn f).mbBusy = false ∧ s.fwDown = false ∧ inRun s = true ∧ targetOf (⟨4, f, win, req⟩ : MbReq) s = some slot ∧ s.ten slot = some t ∧ t.st ≠ .releasing) ∧
    (∃ (win : Option Nat) (f : Nat) (req : AdmReq) (s : State) (slot : Nat) (t : Tenant), f < 32 ∧ reaches s f win = true ∧ (s.fn f).mbBusy = false ∧ s.fwDown = false ∧ inRun s = true ∧ targetOf (⟨5, f, win, req⟩ : MbReq) s = some slot ∧ s.ten slot = some t ∧ t.st ≠ .releasing) ∧
    (∃ (win : Option Nat) (f : Nat) (req : AdmReq) (s : State) (d : Deferred), f < 32 ∧ reaches s f win = true ∧ (s.fn f).mbBusy = false ∧ s.fwDown = false ∧ inRun s = true ∧ ownedTicket (⟨6, f, win, req⟩ : MbReq) s = some d) ∧
    (∃ (win : Option Nat) (f : Nat) (req : AdmReq) (s : State), f < 32 ∧ reaches s f win = true ∧ (s.fn f).mbBusy = false ∧ s.fwDown = false ∧ inRun s = true ∧ ownedTicket (⟨6, f, win, req⟩ : MbReq) s = none) ∧
    (∃ (win : Option Nat) (f : Nat) (req : AdmReq) (s : State) (d : Deferred), f < 32 ∧ reaches s f win = true ∧ (s.fn f).mbBusy = false ∧ s.fwDown = false ∧ inRun s = true ∧ ownedTicket (⟨7, f, win, req⟩ : MbReq) s = some d) ∧
    (∃ (win : Option Nat) (f : Nat) (req : AdmReq) (s : State), f < 32 ∧ reaches s f win = true ∧ (s.fn f).mbBusy = false ∧ s.fwDown = false ∧ inRun s = true ∧ ownedTicket (⟨7, f, win, req⟩ : MbReq) s = none) :=
  ⟨⟨none, 0, admitReq, { hosted with adm := { hosted.adm with pool := [(1, 100)] } }, withholdLent { hosted with adm := { hosted.adm with pool := [(1, 100)] } }, 1, 0, by decide +kernel⟩,
    ⟨none, 0, { admitReq with cls := 3 }, hosted, withholdLent hosted, ⟨0x22, 0, 0xFFFF⟩, 0, by decide +kernel⟩,
    ⟨none, 0, { admitReq with tenantId := 1, queues := 1, energy := 0 }, hosted.setTen 0 { aTenant with fn := some 0, vec := { queues := 1 } }, withholdLent (hosted.setTen 0 { aTenant with fn := some 0, vec := { queues := 1 } }), 0, { aTenant with fn := some 0, vec := { queues := 1 } }, by decide +kernel⟩,
    ⟨none, 0, { admitReq with tenantId := 1, token := 5 }, hosted.setTen 0 { aTenant with fn := none, st := .parked, token := 5 }, 0, { aTenant with fn := none, st := .parked, token := 5 }, by decide +kernel⟩,
    ⟨none, 0, { admitReq with tenantId := 1 }, owned, 0, { aTenant with fn := some 0, token := 5 }, by decide +kernel⟩,
    ⟨none, 0, { admitReq with tenantId := 1 }, owned, 0, { aTenant with fn := some 0, token := 5 }, by decide +kernel⟩,
    ⟨none, 0, { admitReq with ticket := 3 }, owned, ⟨3, 0, ⟨1, 0, none, admitReq⟩⟩, by decide +kernel⟩,
    ⟨none, 0, { admitReq with ticket := 4 }, owned, by decide +kernel⟩,
    ⟨none, 0, { admitReq with ticket := 3 }, owned, ⟨3, 0, ⟨1, 0, none, admitReq⟩⟩, by decide +kernel⟩,
    ⟨none, 0, { admitReq with ticket := 4 }, owned, by decide +kernel⟩⟩

/-- What meets the hypotheses of MailboxNoticesAndTimers. -/
theorem witness_MailboxNoticesAndTimers :
    (∃ (p : (Option Nat → Nat → AdmReq → Instr) × Nat) (win : Option Nat) (f : Nat) (req : AdmReq) (s : State), (p ∈ ([(.gateAdmit, 1), (.modify, 2), (.attach, 3), (.detach, 4), (.release, 5), (.query, 6), (.withdraw, 7)] : List ((Option Nat → Nat → AdmReq → Instr) × Nat))) ∧ f < 32 ∧ reaches s f win = false) ∧
    (∃ (p : (Option Nat → Nat → AdmReq → Instr) × Nat) (win : Option Nat) (f : Nat) (req : AdmReq) (s : State), (p ∈ ([(.gateAdmit, 1), (.modify, 2), (.attach, 3), (.detach, 4), (.release, 5), (.query, 6), (.withdraw, 7)] : List ((Option Nat → Nat → AdmReq → Instr) × Nat))) ∧ f < 32 ∧ reaches s f win = true ∧ (s.fn f).mbBusy = true) ∧
    (∃ (p : (Option Nat → Nat → AdmReq → Instr) × Nat) (win : Option Nat) (f : Nat) (req : AdmReq) (s : State), (p ∈ ([(.gateAdmit, 1), (.modify, 2), (.attach, 3), (.detach, 4), (.release, 5), (.query, 6), (.withdraw, 7)] : List ((Option Nat → Nat → AdmReq → Instr) × Nat))) ∧ f < 32 ∧ reaches s f win = true ∧ (s.fn f).mbBusy = false ∧ (s.fwDown = true ∨ s.rdN Reg.PWR_STATE ≠ 3)) ∧
    (∃ (win : Option Nat) (f : Nat) (value : Word) (s : State), f < 32 ∧ reaches s f win = true ∧ (value.toNat + 2 ^ 32 - (s.fn f).ntcCons) % 2 ^ 32 ≤ ((s.fn f).ntcProd + 2 ^ 32 - (s.fn f).ntcCons) % 2 ^ 32) ∧
    (∃ (win : Option Nat) (f : Nat) (value : Word) (s : State), f < 32 ∧ (reaches s f win = false ∨ ((s.fn f).ntcProd + 2 ^ 32 - (s.fn f).ntcCons) % 2 ^ 32 < (value.toNat + 2 ^ 32 - (s.fn f).ntcCons) % 2 ^ 32)) ∧
    (∃ (ticket : Nat) (s : State) (d : Deferred), waitedOut ticket s = some d) ∧
    (∃ (ticket : Nat) (s : State), (∀ d ∈ s.adm.deferred, d.ticket = ticket → d.mb.req.maxWaitMs = 0 ∨ s.tb < d.arrived + 1000 * d.mb.req.maxWaitMs)) ∧
    (∃ (id t : Nat) (s : State) (a : AttachFail), mget s.adm.attachFails id = some a ∧ a.lockUntil = some t ∧ t ≤ s.tb) ∧
    (∃ (id t : Nat) (s : State), (mgetD s.adm.attachFails {} id).lockUntil = some t ∧ s.tb < t) ∧
    (∃ (slot g : Nat) (s : State) (t : Tenant), slot < 1024 ∧ s.ten slot = some t ∧ t.st = .parked ∧ t.graceAt = some g ∧ g ≤ s.tb) ∧
    (∃ (slot : Nat) (s : State) (t : Tenant), slot < 1024 ∧ s.ten slot = some t ∧ (t.st ≠ .parked ∨ ∀ g, t.graceAt = some g → s.tb < g)) ∧
    (∃ (job slot idx : Nat) (s : State) (z : ZeroJob), s.adm.zero.find? (fun y => y.id == job) = some z ∧ z.obj = some (slot, idx) ∧ z.orphan = none ∧ z.slot = none ∧ entryOf s slot idx = none) :=
  ⟨⟨(.query, 6), none, 0, admitReq, State.reset, by simp, by decide +kernel⟩,
    ⟨(.query, 6), none, 0, admitReq, hosted.updFn 0 (fun n => { n with mbBusy := true }), by simp, by decide +kernel⟩,
    ⟨(.query, 6), none, 0, admitReq, { hosted with fwDown := true }, by simp, by decide +kernel⟩,
    ⟨none, 0, 0, hosted, by decide +kernel⟩,
    ⟨none, 0, 7, hosted, by decide +kernel⟩,
    ⟨3, { owned with tb := 5000, adm := { owned.adm with deferred := [⟨3, 0, ⟨1, 0, none, { admitReq with maxWaitMs := 5 }⟩⟩] } }, ⟨3, 0, ⟨1, 0, none, { admitReq with maxWaitMs := 5 }⟩⟩, by decide +kernel⟩,
    ⟨3, { owned with tb := 4999, adm := { owned.adm with deferred := [⟨3, 0, ⟨1, 0, none, { admitReq with maxWaitMs := 5 }⟩⟩] } }, (by intro d hd _; simp at hd; subst hd; right; decide)⟩,
    ⟨1, 5, { State.reset with tb := 5, adm := { State.reset.adm with attachFails := [(1, ⟨[], some 5⟩)] } }, ⟨[], some 5⟩, by decide +kernel⟩,
    ⟨1, 6, { State.reset with tb := 5, adm := { State.reset.adm with attachFails := [(1, ⟨[], some 6⟩)] } }, by decide +kernel⟩,
    ⟨0, 0, State.reset.setTen 0 { aTenant with st := .parked, graceAt := some 0 }, { aTenant with st := .parked, graceAt := some 0 }, by decide +kernel⟩,
    ⟨0, State.reset.setTen 0 aTenant, aTenant, by decide +kernel⟩,
    ⟨1, 0, 1, { (State.reset.setTen 0 aTenant) with adm := { (State.reset.setTen 0 aTenant).adm with zero := [({ id := 1, slot := none, vec := {}, spill := 0, obj := some (0, 1) } : ZeroJob)] } }, ({ id := 1, slot := none, vec := {}, spill := 0, obj := some (0, 1) } : ZeroJob), by decide +kernel⟩⟩

/-- What meets the hypotheses of MailboxNoticesAndTimers. -/
theorem witness_MailboxNoticesAndTimers_2 :
    (∃ (job : Nat) (s : State), s.adm.zero.find? (fun y => y.id == job) = none) :=
  ⟨1, State.reset, by decide +kernel⟩

/-- What meets the hypotheses of TierCommands. -/
theorem witness_TierCommands :
    (∃ (slot q : Nat) (r : CmdRec) (s : State) (t : Tenant) (o : Obj), CanStart s slot q r ∧ (fetched 0x01 slot q r s).2.ten (slotOfFlight (fetched 0x01 slot q r s).2 (fetched 0x01 slot q r s).1) = some t ∧ badFlags t.cls (bits r.w20.toNat 0 32) (bits r.w20.toNat 32 8) (bits r.w20.toNat 40 1) = false ∧ badShape r.w18.toNat (bits r.w20.toNat 0 32) (bits r.w20.toNat 32 8) (bits r.w28.toNat 0 32) = false ∧ t.objs.length < 1048575 ∧ sumOf (fetched 0x01 slot q r s).2.adm.tenants (fun t => t.2.objs.length) < 4194304 ∧ (place (slotOfFlight (fetched 0x01 slot q r s).2 (fetched 0x01 slot q r s).1) ({ size := r.w18.toNat, tile := (bits r.w20.toNat 0 32).testBit 15, flags := bits r.w20.toNat 0 32, elem := bits r.w20.toNat 32 8, elemAlt := bits r.w20.toNat 40 1, segPages := if (bits r.w20.toNat 0 32).testBit 4 then bits r.w28.toNat 0 32 else 0, gen := 1, base := { tier := 1, lastUse := (fetched 0x01 slot q r s).2.tb } } : Obj) (fetched 0x01 slot q r s).2).1.toOption = some o) ∧
    (∃ (slot q : Nat) (r : CmdRec) (s : State) (n : Named), CanStart s slot q r ∧ (checkHandle (fetched 0x02 slot q r s).2 (slotOfFlight (fetched 0x02 slot q r s).2 (fetched 0x02 slot q r s).1) r.w08 true 0 0 0xFFFF 0xFFFF).toOption = some n) ∧
    (∃ (slot q : Nat) (r : CmdRec) (s : State) (n : Named), CanStart s slot q r ∧ 1 ≤ bits r.w20.toNat 0 3 ∧ bits r.w20.toNat 0 3 ≤ 4 ∧ (checkHandle (fetched 0x03 slot q r s).2 (slotOfFlight (fetched 0x03 slot q r s).2 (fetched 0x03 slot q r s).1) r.w08 true (bits r.w18.toNat 0 32 * pageBytes) (bits r.w18.toNat 32 32 * pageBytes) 0xFFFF 0xFFFF).toOption = some n ∧ (n.obj.flag 3 && bits r.w20.toNat 0 3 != 1 || bits r.w20.toNat 0 3 == 3 && !n.obj.flag 11 || bits r.w20.toNat 0 3 == 4 && !n.obj.flag 12) = false ∧ (placeRange n.obj (bits r.w18.toNat 0 32) (bits r.w18.toNat 32 32)).filter (fun i => (n.obj.page i).tier != bits r.w20.toNat 0 3) = [] ∧ (bits r.w20.toNat 0 3 ≠ 2 ∨ t2Refused (fetched 0x03 slot q r s).2 = false) ∧ placeShort (drawSize n.obj (fetched 0x03 slot q r s).2).2 n.slot (bits r.w20.toNat 0 3) n.obj 0 (drawSize n.obj (fetched 0x03 slot q r s).2).1 = none) ∧
    (∃ (slot q : Nat) (r : CmdRec) (s : State) (n : Named), CanStart s slot q r ∧ bits r.w20.toNat 0 3 = 1 ∧ (checkHandle (fetched 0x03 slot q r s).2 (slotOfFlight (fetched 0x03 slot q r s).2 (fetched 0x03 slot q r s).1) r.w08 true (bits r.w18.toNat 0 32 * pageBytes) (bits r.w18.toNat 32 32 * pageBytes) 0xFFFF 0xFFFF).toOption = some n ∧ ((placeRange n.obj (bits r.w18.toNat 0 32) (bits r.w18.toNat 32 32)).filter (fun i => (n.obj.page i).tier != 1)).isEmpty = false ∧ ((placeRange n.obj (bits r.w18.toNat 0 32) (bits r.w18.toNat 32 32)).filter (fun i => (n.obj.page i).tier != 1)).find? (fun i => (n.obj.page i).poison) = none ∧ leaseBlock n.obj ((placeRange n.obj (bits r.w18.toNat 0 32) (bits r.w18.toNat 32 32)).filter (fun i => (n.obj.page i).tier != 1)) = none ∧ placeShort (drawSize n.obj (fetched 0x03 slot q r s).2).2 n.slot 1 n.obj ((placeRange n.obj (bits r.w18.toNat 0 32) (bits r.w18.toNat 32 32)).filter (fun i => (n.obj.page i).tier != 1)).length (drawSize n.obj (fetched 0x03 slot q r s).2).1 = none) ∧
    (∃ (slot q : Nat) (r : CmdRec) (s : State) (n : Named) (t : Tenant), CanStart s slot q r ∧ (checkHandle (fetched 0x04 slot q r s).2 (slotOfFlight (fetched 0x04 slot q r s).2 (fetched 0x04 slot q r s).1) r.w08 true 0 0 0xFFFF 0xFFFF).toOption = some n ∧ n.obj.flag 10 = true ∧ (fetched 0x04 slot q r s).2.ten n.slot = some t ∧ round4K (flushBytes n.obj (drawSize n.obj (fetched 0x04 slot q r s).2).1) ≤ orangRoom (drawSize n.obj (fetched 0x04 slot q r s).2).2 n.slot t ∧ flushBytes n.obj (drawSize n.obj (fetched 0x04 slot q r s).2).1 ≤ writeRoom (drawSize n.obj (fetched 0x04 slot q r s).2).2 t ∧ t2Refused (drawSize n.obj (fetched 0x04 slot q r s).2).2 = false) ∧
    (∃ (slot q : Nat) (r : CmdRec) (s : State) (t : Tenant), CanStart s slot q r ∧ (fetched 0x05 slot q r s).2.ten (slotOfFlight (fetched 0x05 slot q r s).2 (fetched 0x05 slot q r s).1) = some t ∧ r.w10.toNat % 4096 = 0 ∧ r.w18.toNat % unit2M = 0 ∧ unit2M ≤ r.w18.toNat ∧ r.w18.toNat ≤ 2 ^ 40 ∧ t.regions.length < 64) ∧
    (∃ (slot q : Nat) (r : CmdRec) (s : State) (t : Tenant) (x : Region), CanStart s slot q r ∧ (fetched 0x06 slot q r s).2.ten (slotOfFlight (fetched 0x06 slot q r s).2 (fetched 0x06 slot q r s).1) = some t ∧ mget t.regions (bits r.w18.toNat 0 6) = some x ∧ x.revoked = false ∧ regionPages t (bits r.w18.toNat 0 6) = []) ∧
    (∃ (slot q : Nat) (r : CmdRec) (s : State) (n : Named) (f : Nat), CanStart s slot q r ∧ (checkHandle (fetched 0x07 slot q r s).2 (slotOfFlight (fetched 0x07 slot q r s).2 (fetched 0x07 slot q r s).1) r.w08 false 0 0 0xFFFF 0xFFFF).toOption = some n ∧ ((fetched 0x07 slot q r s).2.ten (slotOfFlight (fetched 0x07 slot q r s).2 (fetched 0x07 slot q r s).1)).bind (fun t => t.fn) = some f) ∧
    (∃ (slot q : Nat) (r : CmdRec) (s : State) (n : Named), CanStart s slot q r ∧ r.w18.toNat % 64 = 0 ∧ r.w20.toNat % 64 = 0 ∧ (checkHandle (fetched 0x08 slot q r s).2 (slotOfFlight (fetched 0x08 slot q r s).2 (fetched 0x08 slot q r s).1) r.w08 true r.w18.toNat r.w20.toNat 0xFFFF 0xFFFF).toOption = some n ∧ leaseBlock n.obj (pagesOf n.obj r.w18.toNat r.w20.toNat) = none ∧ t2Refused (fetched 0x08 slot q r s).2 = false ∧ r.w20.toNat ≠ 0) ∧
    (∃ (slot q : Nat) (r : CmdRec) (s : State) (n : Named), CanStart s slot q r ∧ r.w18.toNat % 64 = 0 ∧ r.w20.toNat % 64 = 0 ∧ (checkHandle (fetched 0x09 slot q r s).2 (slotOfFlight (fetched 0x09 slot q r s).2 (fetched 0x09 slot q r s).1) r.w08 false r.w18.toNat r.w20.toNat 0xFFFF 0xFFFF).toOption = some n ∧ r.w20.toNat ≠ 0) :=
  ⟨⟨0, 0, { w18 := 0x10000 }, ringing, tenFetched 1 { w18 := 0x10000 } ringing, anAlloc, by decide +kernel⟩,
    ⟨0, 0, { w08 := 0x0001001000000001 }, ringing, ⟨0, 1, anObj⟩, by decide +kernel⟩,
    ⟨0, 0, { w08 := 0x0001001000000001, w18 := 0x100000000, w20 := 1 }, ringing, ⟨0, 1, anObj⟩, by decide +kernel⟩,
    ⟨0, 0, { w08 := 0x0001001000000001, w18 := 0x100000000, w20 := 1 }, ringingWith lowObj, ⟨0, 1, lowObj⟩, by decide +kernel⟩,
    ⟨0, 0, { w08 := 0x0001001000000001 }, ringingWith durObj, ⟨0, 1, durObj⟩, tenFetched 4 { w08 := 0x0001001000000001 } (ringingWith durObj), by decide +kernel⟩,
    ⟨0, 0, { w10 := 0x1000, w18 := 0x200000 }, ringing, tenFetched 5 { w10 := 0x1000, w18 := 0x200000 } ringing, by decide +kernel⟩,
    ⟨0, 0, { w18 := 0 }, ringing.updTen 0 (fun t => { t with regions := [(0, ⟨0, 4096, 0, false, none⟩)] }), tenFetched 6 {} (ringing.updTen 0 (fun t => { t with regions := [(0, ⟨0, 4096, 0, false, none⟩)] })), ⟨0, 4096, 0, false, none⟩, by decide +kernel⟩,
    ⟨0, 0, { w08 := 0x0001001000000001 }, ringing, ⟨0, 1, anObj⟩, 0, by decide +kernel⟩,
    ⟨0, 0, { w08 := 0x0001001000000001, w20 := 64 }, ringing, ⟨0, 1, anObj⟩, by decide +kernel⟩,
    ⟨0, 0, { w08 := 0x0001001000000001, w20 := 64 }, ringing, ⟨0, 1, anObj⟩, by decide +kernel⟩⟩

/-- What meets the hypotheses of ContextCommands. -/
theorem witness_ContextCommands :
    (∃ (slot q : Nat) (r : CmdRec) (s : State) (n : Named), CanStart s slot q r ∧ (checkHandle (fetched 0x10 slot q r s).2 (slotOfFlight (fetched 0x10 slot q r s).2 (fetched 0x10 slot q r s).1) r.w08 false 0 0 0xFFFF 0xFFFF).toOption = some n ∧ n.obj.tile = true ∧ n.obj.flag 8 = true ∧ (n.obj.page 0).poison = false ∧ descriptorBad (fetched 0x10 slot q r s).2 (slotOfFlight (fetched 0x10 slot q r s).2 (fetched 0x10 slot q r s).1) n.obj.data = none ∧ (modelOf (slotOfFlight (fetched 0x10 slot q r s).2 (fetched 0x10 slot q r s).1) r.w08 n.obj.data).clusters ≤ clustersUp (fetched 0x10 slot q r s).2 ∧ ((fetched 0x10 slot q r s).2.sch.models.filter (fun m => m.2.slot == (slotOfFlight (fetched 0x10 slot q r s).2 (fetched 0x10 slot q r s).1))).length < 64 ∧ (fetched 0x10 slot q r s).2.sch.models.length < 1024) ∧
    (∃ (slot q : Nat) (r : CmdRec) (s : State) (m : Model), CanStart s slot q r ∧ (fetched 0x11 slot q r s).2.model (bits r.w18.toNat 0 10) = some m ∧ m.slot = (slotOfFlight (fetched 0x11 slot q r s).2 (fetched 0x11 slot q r s).1) ∧ (fetched 0x11 slot q r s).2.sch.ctxs.any (fun c => c.2.model == bits r.w18.toNat 0 10) = false ∧ handleObj (fetched 0x11 slot q r s).2 m.handle = none) ∧
    (∃ (slot q : Nat) (r : CmdRec) (s : State) (m : Model) (t : Tenant), CanStart s slot q r ∧ (fetched 0x18 slot q r s).2.model (bits r.w18.toNat 0 10) = some m ∧ (fetched 0x18 slot q r s).2.ten (slotOfFlight (fetched 0x18 slot q r s).2 (fetched 0x18 slot q r s).1) = some t ∧ mayUse (fetched 0x18 slot q r s).2 (slotOfFlight (fetched 0x18 slot q r s).2 (fetched 0x18 slot q r s).1) m = true ∧ bits r.w18.toNat 10 4 < t.queues.length ∧ (ctxsOf (fetched 0x18 slot q r s).2 (slotOfFlight (fetched 0x18 slot q r s).2 (fetched 0x18 slot q r s).1)).length < t.vec.ctx ∧ (fetched 0x18 slot q r s).2.sch.ctxs.length < 16384 ∧ scratch m (r.w18.toNat.testBit 14) = none) ∧
    (∃ (slot q : Nat) (r : CmdRec) (s : State) (c : Ctx), CanStart s slot q r ∧ (fetched 0x19 slot q r s).2.ctx (bits r.w18.toNat 0 14) = some c ∧ c.slot = (slotOfFlight (fetched 0x19 slot q r s).2 (fetched 0x19 slot q r s).1) ∧ c.step = none) ∧
    (∃ (slot q : Nat) (r : CmdRec) (s : State) (c : Ctx), CanStart s slot q r ∧ (fetched 0x1A slot q r s).2.ctx (bits r.w18.toNat 0 14) = some c ∧ c.slot = (slotOfFlight (fetched 0x1A slot q r s).2 (fetched 0x1A slot q r s).1) ∧ c.step = none) ∧
    (∃ (slot q : Nat) (r : CmdRec) (s : State) (c : Ctx) (k : Nat), CanStart s slot q r ∧ (fetched 0x1A slot q r s).2.ctx (bits r.w18.toNat 0 14) = some c ∧ c.slot = (slotOfFlight (fetched 0x1A slot q r s).2 (fetched 0x1A slot q r s).1) ∧ c.step = some k) ∧
    (∃ (slot q : Nat) (r : CmdRec) (s : State) (c : Ctx) (t : Tenant) (f : Flight), CanStart s slot q r ∧ bits r.w18.toNat 20 12 = 0 ∧ bits r.w20.toNat 32 32 = 0 ∧ r.w38 = 0 ∧ bits r.w18.toNat 16 2 ≠ 3 ∧ r.w10.toNat % 4 = 0 ∧ (fetched 0x1B slot q r s).2.ctx (bits r.w18.toNat 0 14) = some c ∧ (fetched 0x1B slot q r s).2.ten (slotOfFlight (fetched 0x1B slot q r s).2 (fetched 0x1B slot q r s).1) = some t ∧ c.slot = (slotOfFlight (fetched 0x1B slot q r s).2 (fetched 0x1B slot q r s).1) ∧ exhausted (fetched 0x1B slot q r s).2 (slotOfFlight (fetched 0x1B slot q r s).2 (fetched 0x1B slot q r s).1) = none ∧ 1 ≤ bits r.w18.toNat 32 32 ∧ bits r.w18.toNat 32 32 ≤ 262144 ∧ 1 ≤ bits r.w20.toNat 0 32 ∧ bits r.w20.toNat 0 32 ≤ 262144 ∧ (bits r.w18.toNat 16 2 = 0 ∨ t.cls ≤ bits r.w18.toNat 16 2) ∧ knownTokens c + bits r.w18.toNat 32 32 ≤ (((fetched 0x1B slot q r s).2.model c.model).map (·.maxLen)).getD 1048576 ∧ (c.turn = none ∨ c.waiting.length < 4) ∧ (fetched 0x1B slot q r s).2.flight (fetched 0x1B slot q r s).1 = some f ∧ r.w18.toNat.testBit 18 = false) ∧
    (∃ (slot q : Nat) (r : CmdRec) (s : State) (c : Ctx), CanStart s slot q r ∧ (fetched 0x1C slot q r s).2.ctx (bits r.w18.toNat 0 14) = some c ∧ c.slot = (slotOfFlight (fetched 0x1C slot q r s).2 (fetched 0x1C slot q r s).1) ∧ c.turn = none ∧ c.waiting = []) ∧
    (∃ (slot q : Nat) (r : CmdRec) (s : State) (c : Ctx) (t : Turn), CanStart s slot q r ∧ (fetched 0x1C slot q r s).2.ctx (bits r.w18.toNat 0 14) = some c ∧ c.slot = (slotOfFlight (fetched 0x1C slot q r s).2 (fetched 0x1C slot q r s).1) ∧ c.turn = some t ∧ c.waiting = [] ∧ c.step.isSome = true ∧ bits r.w18.toNat 32 32 = 0) :=
  ⟨⟨0, 0, { w08 := 0x0001001000000001 }, ringingWith descObj, ⟨0, 1, descObj⟩, by decide +kernel⟩,
    ⟨0, 0, { w18 := 0 }, modelled, theModel, by decide +kernel⟩,
    ⟨0, 0, { w18 := 0 }, modelled, theModel, tenFetched 0x18 { w18 := 0 } modelled, by decide +kernel⟩,
    ⟨0, 0, { w18 := 3 }, ctxed, theCtx, by decide +kernel⟩,
    ⟨0, 0, { w18 := 3 }, ctxed, theCtx, by decide +kernel⟩,
    ⟨0, 0, { w18 := 3 }, ctxed.setCtx 3 { theCtx with step := some 1 }, { theCtx with step := some 1 }, 1, by decide +kernel⟩,
    ⟨0, 0, turnRec, ctxed, theCtx, tenFetched 0x1B turnRec ctxed, turnFlight, by decide +kernel⟩,
    ⟨0, 0, { w18 := 3 }, ctxed, theCtx, by decide +kernel⟩,
    ⟨0, 0, { w18 := 3 }, ctxed.setCtx 3 { theCtx with step := some 1, turn := some aTurn }, { theCtx with step := some 1, turn := some aTurn }, aTurn, by decide +kernel⟩⟩

/-- What meets the hypotheses of ContextRecordSnapshot. -/
theorem witness_ContextRecordSnapshot :
    (∃ (f : Nat) (win : Option Nat) (value : Word) (s : State) (slot : Nat) (u : Tenant) (c : Ctx), f < 32 ∧ windowSlot s f win = some slot ∧ s.ten slot = some u ∧ s.ctx (value.toNat % 16384) = some c ∧ c.slot = slot) ∧
    (∃ (f : Nat) (win : Option Nat) (value : Word) (s : State) (slot : Nat) (u : Tenant), f < 32 ∧ windowSlot s f win = some slot ∧ s.ten slot = some u ∧ (s.ctx (value.toNat % 16384)).any (fun c => c.slot == slot) = false) :=
  ⟨⟨0, some 0, 3, ctxed, 0, (ctxed.ten 0).getD aTenant, theCtx, by decide +kernel⟩,
    ⟨0, some 0, 4, ctxed, 0, (ctxed.ten 0).getD aTenant, by decide +kernel⟩⟩

/-- What meets the hypotheses of EventRingCommands. -/
theorem witness_EventRingCommands :
    (∃ (slot q : Nat) (r : CmdRec) (s : State) (w p : Named), CanStart s slot q r ∧ (checkHandle (fetched 0x30 slot q r s).2 (slotOfFlight (fetched 0x30 slot q r s).2 (fetched 0x30 slot q r s).1) r.w08 false 0 131072 0xFFFF 0xFFFF).toOption = some w ∧ (checkHandle (fetched 0x30 slot q r s).2 (slotOfFlight (fetched 0x30 slot q r s).2 (fetched 0x30 slot q r s).1) r.w10 false 0 2048 0xFFFF 0xFFFF).toOption = some p ∧ ((fetched 0x30 slot q r s).2.core (bits r.w18.toNat 0 9)).slot = some (slotOfFlight (fetched 0x30 slot q r s).2 (fetched 0x30 slot q r s).1) ∧ ownsKeys (fetched 0x30 slot q r s).2 (slotOfFlight (fetched 0x30 slot q r s).2 (fetched 0x30 slot q r s).1) (512 * bits r.w18.toNat 32 11) 512 = true ∧ ownsKeys (fetched 0x30 slot q r s).2 (slotOfFlight (fetched 0x30 slot q r s).2 (fetched 0x30 slot q r s).1) (256 * bits r.w20.toNat 0 12) 256 = true) ∧
    (∃ (slot q : Nat) (r : CmdRec) (s : State), CanStart s slot q r ∧ ((fetched 0x31 slot q r s).2.core (bits r.w18.toNat 0 9)).slot = some (slotOfFlight (fetched 0x31 slot q r s).2 (fetched 0x31 slot q r s).1)) ∧
    (∃ (slot q : Nat) (r : CmdRec) (s : State) (n : Named), CanStart s slot q r ∧ (checkHandle (fetched 0x37 slot q r s).2 (slotOfFlight (fetched 0x37 slot q r s).2 (fetched 0x37 slot q r s).1) r.w08 true 0 4096 0xFFFF 0xFFFF).toOption = some n ∧ ((fetched 0x37 slot q r s).2.core (bits r.w18.toNat 0 9)).slot = some (slotOfFlight (fetched 0x37 slot q r s).2 (fetched 0x37 slot q r s).1) ∧ leaseBlock n.obj (pagesOf n.obj 0 4096) = none) ∧
    (∃ (slot q : Nat) (r : CmdRec) (s : State), CanStart s slot q r ∧ bits r.w18.toNat 0 15 = 0) ∧
    (∃ (slot q : Nat) (r : CmdRec) (s : State) (o : Named), CanStart s slot q r ∧ 1 ≤ bits r.w18.toNat 0 15 ∧ bits r.w18.toNat 0 15 ≤ 16384 ∧ (checkHandle (fetched 0x32 slot q r s).2 (slotOfFlight (fetched 0x32 slot q r s).2 (fetched 0x32 slot q r s).1) r.w08 false 0 (16 * bits r.w18.toNat 0 15) 0xFFFF 0xFFFF).toOption = some o) ∧
    (∃ (slot q : Nat) (r : CmdRec) (s : State), CanStart s slot q r) ∧
    (∃ (slot q : Nat) (r : CmdRec) (s : State), CanStart s slot q r ∧ 1 ≤ bits r.w18.toNat 0 17 ∧ bits r.w18.toNat 0 17 ≤ 65536 ∧ exhausted (fetched 0x34 slot q r s).2 (slotOfFlight (fetched 0x34 slot q r s).2 (fetched 0x34 slot q r s).1) = none) ∧
    (∃ (slot q : Nat) (r : CmdRec) (s : State), CanStart s slot q r ∧ 4 ≤ bits r.w20.toNat 0 5 ∧ bits r.w20.toNat 0 5 ≤ 16) ∧
    (∃ (slot q : Nat) (r : CmdRec) (s : State), CanStart s slot q r ∧ bits r.w18.toNat 0 8 < 7 ∧ r.w18.getLsbD 8 = false) ∧
    (∃ (slot q : Nat) (r : CmdRec) (s : State), CanStart s slot q r ∧ bits r.w18.toNat 0 8 < 7 ∧ r.w18.getLsbD 8 = true ∧ ownsKeys (fetched 0x36 slot q r s).2 (slotOfFlight (fetched 0x36 slot q r s).2 (fetched 0x36 slot q r s).1) (bits r.w18.toNat 32 20) 1 = true ∧ 10 ≤ r.w20.toNat ∧ r.w20.toNat ≤ 1000000) :=
  ⟨⟨0, 0, { w08 := 0x0001001000000001, w10 := 0x0001001000000001, w18 := 3 }, keyedBig, ⟨0, 1, { anObj with size := 262144 }⟩, ⟨0, 1, { anObj with size := 262144 }⟩, by decide +kernel⟩,
    ⟨0, 0, { w18 := 3 }, keyed, by decide +kernel⟩,
    ⟨0, 0, { w08 := 0x0001001000000001, w18 := 3 }, keyed, ⟨0, 1, anObj⟩, by decide +kernel⟩,
    ⟨0, 0, { w18 := 0 }, keyed, by decide +kernel⟩,
    ⟨0, 0, { w08 := 0x0001001000000001, w18 := 2 }, keyed, ⟨0, 1, anObj⟩, by decide +kernel⟩,
    ⟨0, 0, {}, keyed, by decide +kernel⟩,
    ⟨0, 0, { w18 := 2 }, keyed, by decide +kernel⟩,
    ⟨0, 0, { w20 := 6 }, keyed, by decide +kernel⟩,
    ⟨0, 0, { w18 := 2 }, keyed, by decide +kernel⟩,
    ⟨0, 0, { w18 := 0x102, w20 := 100 }, keyed, by decide +kernel⟩⟩

/-- What meets the hypotheses of EventBanks. -/
theorem witness_EventBanks :
    (∃ (s : State), s.evOther < 2 ∧ ((s.fab.commits.filter (fun f => commitReady s f)) ≠ [] ∨ s.fab.flip = true)) ∧
    (∃ (s : State), (2 ≤ s.evOther ∨ (s.fab.commits.filter (fun f => commitReady s f) = [] ∧ s.fab.flip = false))) ∧
    (∃ (s : State), s.evOther = 2 ∧ inflightOf s (1 - s.evE) = 0) ∧
    (∃ (s : State), (s.evOther ≠ 2 ∨ inflightOf s (1 - s.evE) ≠ 0)) ∧
    (∃ (s : State), s.evOther = 3) ∧
    (∃ (s : State), s.evOther ≠ 3) :=
  ⟨⟨flipping 1, by decide +kernel⟩,
    ⟨keyed, .inr (by decide +kernel)⟩,
    ⟨flipping 2, by decide +kernel⟩,
    ⟨flipping 1, by decide +kernel⟩,
    ⟨flipping 3, by decide +kernel⟩,
    ⟨flipping 1, by decide +kernel⟩⟩

/-- What meets the hypotheses of EventMovement. -/
theorem witness_EventMovement :
    (∃ (k : Nat) (s : State) (c : Cluster) (l : Launch) (w : Word) (ws : List Word), s.clu k = some c ∧ c.port = w :: ws ∧ s.lch c.launch = some l) ∧
    (∃ (p : EvPoint) (e : Ev) (s : State), s.evHead p = some e ∧ (p = .ingress ∨ (∃ r, p = .routerIn r ∨ p = .coreOut r))) ∧
    (∃ (r : Nat) (e : Ev) (s : State), s.evHead (.routerOut r 4) = some e ∧ (s.core r).loading = none ∧ s.evCount (.coreIn r) < 32 ∧ (s.core r).asleep = false) ∧
    (∃ (k slot : Nat) (e : Ev) (s : State), k < 512 ∧ s.evHead (.coreIn k) = some e ∧ ((s.core k).slot = none ∨ ((s.core k).slot = some slot ∧ evMark e.word = false ∧ ((s.core k).axonBlk ≠ some (evKey e.word / 512) ∨ ownsKeys s slot (evKey e.word) 1 = false)))) ∧
    (∃ (k slot : Nat) (e : Ev) (s : State), k < 512 ∧ s.evHead (.coreIn k) = some e ∧ (s.core k).slot = some slot ∧ evMark e.word = true) ∧
    (∃ (k slot : Nat) (e : Ev) (s : State) (xs : List (Nat × NOut)), k < 512 ∧ s.evHead (.coreIn k) = some e ∧ (s.core k).slot = some slot ∧ evMark e.word = false ∧ (s.core k).axonBlk = some (evKey e.word / 512) ∧ ownsKeys s slot (evKey e.word) 1 = true ∧ xs = coreIn (s.core k) (evKey e.word % 512) (e.time s.tb e.since) (evPay e.word) ∧ s.evCount (.coreOut k) + (xs.filter (fun x => x.2.pay.isSome)).length ≤ 256) ∧
    (∃ (k : Nat) (s : State), k < 512 ∧ s.evCount (.coreIn k) = 0 ∧ (s.core k).lastIn + 2 ≤ s.tb ∧ (s.core k).asleep = false) ∧
    (∃ (node slot : Nat) (s : State) (b : Batch), slot < 1024 ∧ s.fab.batches.find? (fun b => b.node == node && b.slot == slot) = some b ∧ b.since + 1 ≤ s.tb) ∧
    (∃ (id slot : Nat) (ws : List Word) (s : State), s.slotOf id = some slot) ∧
    (∃ (id : Nat) (ws : List Word) (s : State), s.slotOf id = none) ∧
    (∃ (k : Nat) (e : Ev) (s : State), s.evHead (.coreOut k) = some e ∧ e.since + 20 ≤ s.tb) ∧
    (∃ (p : EvPoint) (slot : Nat) (s : State), slot < 1024 ∧ halfRoom s p slot = true) :=
  ⟨⟨0, (tiled []).setClu 0 { theCluster (tiled []) with port := [5] }, { theCluster (tiled []) with port := [5] }, theLaunch (tiled []), 5, [], by decide +kernel⟩,
    ⟨.ingress, { anEv with since := 0 }, keyed.evPut .ingress anEv, by decide +kernel, .inl rfl⟩,
    ⟨3, { anEv with since := 0 }, keyed.evPut (.routerOut 3 4) anEv, by decide +kernel⟩,
    ⟨4, 0, { anEv with since := 0 }, keyed.evPut (.coreIn 4) anEv, by decide +kernel, by decide +kernel, .inl (by decide +kernel)⟩,
    ⟨3, 0, { word := evWord 5 1 0 true false, slot := 0 }, keyed.evPut (.coreIn 3) { word := evWord 5 1 0 true false, slot := 0 }, by decide +kernel⟩,
    ⟨3, 0, { anEv with since := 0 }, (keyed.setCore 3 { slot := some 0, axonBlk := some 0 }).evPut (.coreIn 3) anEv, [], by decide +kernel, by decide +kernel, by decide +kernel, by decide +kernel, by decide +kernel, by decide +kernel, (List.map_eq_nil_iff.mpr (List.filter_eq_nil_iff.mpr (by decide +kernel))).symm, by decide +kernel⟩,
    ⟨3, { keyed with tb := 9 }, by decide +kernel⟩,
    ⟨2, 0, { keyed with tb := 9, fab := { keyed.fab with batches := [{ node := 2, slot := 0, since := 3, events := [anEv] }] } }, { node := 2, slot := 0, since := 3, events := [anEv] }, by decide +kernel⟩,
    ⟨1, 0, [5], keyed, by decide +kernel⟩,
    ⟨9, [5], keyed, by decide +kernel⟩,
    ⟨3, { anEv with since := 0 }, { keyed.evPut (.coreOut 3) anEv with tb := 30 }, by decide +kernel⟩,
    ⟨.coreOut 3, 0, keyed, by decide +kernel⟩⟩

/-- What meets the hypotheses of EventMovement. -/
theorem witness_EventMovement_2 :
    (∃ (p : EvPoint) (slot : Nat) (s : State), slot < 1024 ∧ halfRoom s p slot = false) ∧
    (∃ (slot src : Nat) (m : Int) (s : State) (x : Telem) (t : Tenant), slot < 1024 ∧ src < 7 ∧ mget s.fab.telem (8 * slot + src) = some x ∧ s.ten slot = some t ∧ (t.st ≠ .active ∨ s.tb < x.since + x.period)) ∧
    (∃ (slot src : Nat) (m v d : Int) (s : State) (x : Telem) (t : Tenant), slot < 1024 ∧ src < 7 ∧ 4 ≤ src ∧ mget s.fab.telem (8 * slot + src) = some x ∧ s.ten slot = some t ∧ t.st = .active ∧ x.since + x.period ≤ s.tb ∧ v = telemValue s slot src m ∧ d = v - x.seen.getD v) ∧
    (∃ (f : Nat) (win : Option Nat) (value : Word) (s : State) (slot : Nat), f < 32 ∧ windowSlot s f win = some slot) ∧
    (∃ (slot : Nat) (s : State) (t : Tenant), slot < 1024 ∧ s.ten slot = some t ∧ t.evRing = none ∧ t.winRing = none) ∧
    (∃ (slot : Nat) (s : State) (t : Tenant) (r : EvRing), slot < 1024 ∧ s.ten slot = some t ∧ t.evRing = some r ∧ t.winRing = none ∧ r.live = true ∧ s.twRd slot Reg.TW_EV_TAIL ≠ s.twRd slot Reg.TW_EV_HEAD ∧ (∀ x, r.lastVec = some x → x + 10 ≤ s.tb)) :=
  ⟨⟨.ingress, 0, keyed, by decide +kernel⟩,
    ⟨0, 2, 0, { keyed with fab := { keyed.fab with telem := [(2, ⟨5, 100, none, 0⟩)] } }, ⟨5, 100, none, 0⟩, (keyed.ten 0).getD aTenant, by decide +kernel⟩,
    ⟨0, 4, 7, 7, 4, { keyed with tb := 500, fab := { keyed.fab with telem := [(4, ⟨5, 100, some 3, 0⟩)] } }, ⟨5, 100, some 3, 0⟩, (keyed.ten 0).getD aTenant, by decide +kernel⟩,
    ⟨0, some 0, 9, ringing, 0, by decide +kernel⟩,
    ⟨0, ringing, (ringing.ten 0).getD aTenant, by decide +kernel⟩,
    ⟨0, evRinging, (evRinging.ten 0).getD aTenant, ⟨0, 0, 6, 2, true, none⟩, by decide +kernel, by decide +kernel, by decide +kernel, by decide +kernel, by decide +kernel, by decide +kernel, by simp⟩⟩

/-- What meets the hypotheses of QueueRegistersAndTimers. -/
theorem witness_QueueRegistersAndTimers :
    (∃ (f : Nat) (win : Option Nat) (q : Nat) (value : Word) (s : State) (slot : Nat) (t : Tenant) (k : Queue), f < 32 ∧ windowSlot s f win = some slot ∧ s.ten slot = some t ∧ mget t.queues q = some k ∧ (value.toNat + 2 ^ 32 - k.cons) % 2 ^ 32 ≤ k.ringSize) ∧
    (∃ (f : Nat) (win : Option Nat) (q : Nat) (value : Word) (s : State) (slot : Nat) (t : Tenant) (k : Queue), f < 32 ∧ windowSlot s f win = some slot ∧ s.ten slot = some t ∧ mget t.queues q = some k ∧ k.ringSize < (value.toNat + 2 ^ 32 - k.cons) % 2 ^ 32) ∧
    (∃ (f : Nat) (win : Option Nat) (q : Nat) (value : Word) (s : State) (slot : Nat) (t : Tenant) (k : Queue), f < 32 ∧ windowSlot s f win = some slot ∧ s.ten slot = some t ∧ mget t.queues q = some k ∧ (value.toNat + 2 ^ 32 - k.head) % 2 ^ 32 ≤ (k.tail + 2 ^ 32 - k.head) % 2 ^ 32) ∧
    (∃ (f : Nat) (win : Option Nat) (q : Nat) (value : Word) (s : State) (slot : Nat) (t : Tenant) (k : Queue), f < 32 ∧ windowSlot s f win = some slot ∧ s.ten slot = some t ∧ mget t.queues q = some k ∧ (k.tail + 2 ^ 32 - k.head) % 2 ^ 32 < (value.toNat + 2 ^ 32 - k.head) % 2 ^ 32) ∧
    (∃ (f : Nat) (win : Option Nat) (q : Nat) (value : Word) (s : State) (slot : Nat) (t : Tenant) (k : Queue), f < 32 ∧ windowSlot s f win = some slot ∧ s.ten slot = some t ∧ mget t.queues q = some k) ∧
    (∃ (f : Nat) (win : Option Nat) (q : Nat) (value : Word) (s : State) (slot : Nat) (t : Tenant) (k : Queue) (c : QCfg), f < 32 ∧ windowSlot s f win = some slot ∧ s.ten slot = some t ∧ mget t.queues q = some k ∧ c = stagedCfg s slot q ∧ value.getLsbD 0 = true ∧ c.ok = true ∧ k.st ≠ .stopped ∧ (k.st ≠ .active ∨ k.prod = k.cons)) ∧
    (∃ (f : Nat) (win : Option Nat) (q : Nat) (value : Word) (s : State) (slot : Nat) (t : Tenant) (k : Queue) (c : QCfg), f < 32 ∧ windowSlot s f win = some slot ∧ s.ten slot = some t ∧ mget t.queues q = some k ∧ c = stagedCfg s slot q ∧ value.getLsbD 0 = true ∧ c.ok = true ∧ k.st = .active ∧ k.prod ≠ k.cons) ∧
    (∃ (f : Nat) (win : Option Nat) (q : Nat) (value : Word) (s : State) (slot : Nat) (t : Tenant) (k : Queue), f < 32 ∧ windowSlot s f win = some slot ∧ s.ten slot = some t ∧ mget t.queues q = some k ∧ (value.getLsbD 0 = false ∨ (stagedCfg s slot q).ok = false ∨ k.st = .stopped)) ∧
    (∃ (f : Nat) (win : Option Nat) (q : Nat) (value : Word) (s : State), f < 32 ∧ windowSlot s f win = none) ∧
    (∃ (f : Nat) (win : Option Nat) (q : Nat) (value : Word) (s : State) (slot : Nat) (t : Tenant), f < 32 ∧ windowSlot s f win = some slot ∧ s.ten slot = some t ∧ mget t.queues q = none) ∧
    (∃ (slot q : Nat) (s : State), slot < 1024 ∧ q < 16 ∧ (s.que slot q).raiseDue = true ∧ (s.que slot q).modUntil ≤ s.tb) ∧
    (∃ (slot q : Nat) (s : State), slot < 1024 ∧ q < 16 ∧ ((s.que slot q).raiseDue = false ∨ s.tb < (s.que slot q).modUntil)) :=
  ⟨⟨0, some 0, 0, 3, withQue { st := .active, prod := 1, cfg := aCfg }, 0, ((withQue { st := .active, prod := 1, cfg := aCfg }).ten 0).getD aTenant, { st := .active, prod := 1, cfg := aCfg }, by decide +kernel⟩,
    ⟨0, some 0, 0, 50, ringing, 0, ((ringing).ten 0).getD aTenant, { st := .active, prod := 1 }, by decide +kernel⟩,
    ⟨0, some 0, 0, 0, ringing, 0, ((ringing).ten 0).getD aTenant, { st := .active, prod := 1 }, by decide +kernel⟩,
    ⟨0, some 0, 0, 50, ringing, 0, ((ringing).ten 0).getD aTenant, { st := .active, prod := 1 }, by decide +kernel⟩,
    ⟨0, some 0, 0, 1, ringing, 0, ((ringing).ten 0).getD aTenant, { st := .active, prod := 1 }, by decide +kernel⟩,
    ⟨0, some 0, 0, 1, (cfgStaged.updQue 0 0 (fun k => { k with prod := 0 })), 0, (((cfgStaged.updQue 0 0 (fun k => { k with prod := 0 }))).ten 0).getD aTenant, { st := .active, prod := 0 }, aCfg, by decide +kernel, by decide +kernel, by decide +kernel, by decide +kernel, by decide +kernel, by decide +kernel, by decide +kernel, by decide +kernel, .inr (by decide +kernel)⟩,
    ⟨0, some 0, 0, 1, cfgStaged, 0, ((cfgStaged).ten 0).getD aTenant, { st := .active, prod := 1 }, aCfg, by decide +kernel⟩,
    ⟨0, some 0, 0, 0, ringing, 0, ((ringing).ten 0).getD aTenant, { st := .active, prod := 1 }, by decide +kernel⟩,
    ⟨0, none, 0, 1, State.reset, by decide +kernel⟩,
    ⟨0, some 0, 5, 1, ringing, 0, (ringing.ten 0).getD aTenant, by decide +kernel⟩,
    ⟨0, 0, withQue { st := .active, raiseDue := true }, by decide +kernel⟩,
    ⟨0, 0, ringing, by decide +kernel⟩⟩

/-- What meets the hypotheses of QueueRegistersAndTimers. -/
theorem witness_QueueRegistersAndTimers_2 :
    (∃ (slot q : Nat) (s : State) (t : Tenant), slot < 1024 ∧ q < 16 ∧ s.ten slot = some t ∧ s.heldFree slot ≠ 0) ∧
    (∃ (slot q : Nat) (r : CmdRec) (s : State) (n : Named) (x : Flight) (code : List DWord), CanStart s slot q r ∧ (checkHandle (fetched 0x20 slot q r s).2 (slotOfFlight (fetched 0x20 slot q r s).2 (fetched 0x20 slot q r s).1) r.w08 false 0 0 0xFFFF 0xFFFF).toOption = some n ∧ (fetched 0x20 slot q r s).2.flight (fetched 0x20 slot q r s).1 = some x ∧ (fetched 0x20 slot q r s).2.prog (progKey x.slot x.queue) = none ∧ codeOf n.obj = some code ∧ exhausted (fetched 0x20 slot q r s).2 x.slot = none) ∧
    (∃ (slot q : Nat) (r : CmdRec) (s : State) (n : Named) (x : Flight) (p : QProg), CanStart s slot q r ∧ (checkHandle (fetched 0x20 slot q r s).2 (slotOfFlight (fetched 0x20 slot q r s).2 (fetched 0x20 slot q r s).1) r.w08 false 0 0 0xFFFF 0xFFFF).toOption = some n ∧ (fetched 0x20 slot q r s).2.flight (fetched 0x20 slot q r s).1 = some x ∧ (fetched 0x20 slot q r s).2.prog (progKey x.slot x.queue) = some p) ∧
    (∃ (slot q : Nat) (r : CmdRec) (s : State) (x : Flight) (p : QProg), CanStart s slot q r ∧ (fetched 0x21 slot q r s).2.flight (fetched 0x21 slot q r s).1 = some x ∧ (finish (fetched 0x21 slot q r s).1 ⟨0, 0, 0⟩ 0 (fetched 0x21 slot q r s).2).prog (progKey x.slot x.queue) = some p) ∧
    (∃ (key : Nat) (s : State) (p : QProg) (t : Nat), s.prog key = some p ∧ p.stopReq = some t ∧ t + 10000 ≤ s.tb) ∧
    (∃ (key : Nat) (s : State) (p : QProg), s.prog key = some p ∧ (∀ t, p.stopReq = some t → s.tb < t + 10000)) :=
  ⟨⟨0, 0, ringing, (ringing.ten 0).getD aTenant, by decide +kernel⟩,
    ⟨0, 0, { w08 := 0x0001001000000001, w10 := 3 }, ringingWith aCode, ⟨0, 1, aCode⟩, ((fetched 0x20 0 0 { w08 := 0x0001001000000001, w10 := 3 } (ringingWith aCode)).2.flight (fetched 0x20 0 0 { w08 := 0x0001001000000001, w10 := 3 } (ringingWith aCode)).1).getD turnFlight, (codeOf aCode).getD [], by decide +kernel⟩,
    ⟨0, 0, { w08 := 0x0001001000000001 }, progRinging, ⟨0, 1, anObj⟩, ((fetched 0x20 0 0 { w08 := 0x0001001000000001 } progRinging).2.flight (fetched 0x20 0 0 { w08 := 0x0001001000000001 } progRinging).1).getD turnFlight, theProg [], by decide +kernel⟩,
    ⟨0, 0, {}, progRinging, ((fetched 0x21 0 0 {} progRinging).2.flight (fetched 0x21 0 0 {} progRinging).1).getD turnFlight, theProg [], by decide +kernel⟩,
    ⟨0, { progRinging.updProg 0 (fun p => { p with stopReq := some 5 }) with tb := 20000 }, { theProg [] with stopReq := some 5 }, 5, by decide +kernel⟩,
    ⟨0, progRinging, theProg [], by decide +kernel, (by intro t h; exact absurd h (by simp [theProg]))⟩⟩

/-- What meets the hypotheses of TierEngineEvents. -/
theorem witness_TierEngineEvents :
    (∃ (id i b : Nat) (s : State) (f : Flight) (o : Obj), s.flight id = some f ∧ f.op = 4 ∧ f.args = [i, b] ∧ s.obj f.slot i = some o) ∧
    (∃ (id : Nat) (s : State), (∀ f, s.flight id = some f → f.op ≠ 4)) ∧
    (∃ (id : Nat) (s : State) (m : Move), s.move id = some m ∧ m.src ≠ 4 ∧ m.dst ≠ 4) ∧
    (∃ (id : Nat) (s : State), (∀ m, s.move id = some m → m.src = 4 ∨ m.dst = 4)) ∧
    (∃ (id : Nat) (s u : State) (m : Move), s.move id = some m ∧ (m.src = 3 ∨ m.dst = 3) ∧ m.since + 1000 * s.rdN Reg.HIF_STALL_TO ≤ s.tb ∧ u = ((s.bump Reg.TIER_T3_STALLS).bump Reg.HIF_STALL_ABORT).twBump m.slot Reg.TW_HIF_STALLS) ∧
    (∃ (id : Nat) (s : State), (∀ m, s.move id = some m → (m.src ≠ 3 ∧ m.dst ≠ 3) ∨ s.tb < m.since + 1000 * s.rdN Reg.HIF_STALL_TO)) ∧
    (∃ (slot r : Nat) (s : State), slot < 1024 ∧ r < 64) ∧
    (∃ (id ms : Nat) (s : State) (m : Move), s.move id = some m ∧ (m.src = 4 ∨ m.dst = 4) ∧ m.since + 1000 * s.rdN Reg.TIER_PEER_TO ≤ s.tb) ∧
    (∃ (id ms : Nat) (s : State), (∀ m, s.move id = some m → (m.src ≠ 4 ∧ m.dst ≠ 4) ∨ s.tb < m.since + 1000 * s.rdN Reg.TIER_PEER_TO)) ∧
    (∃ (node : Nat) (s u : State), (s.peer node).heard + 1000 * s.rdN Reg.TIER_PEER_LOSS ≤ s.tb ∧ u = ((loseLink node s).adm.tenants.map (·.1)).foldl (fun s i => poisonWhere i (fun p => p.tier == 4 && p.loc == node) s) (loseLink node s)) ∧
    (∃ (node : Nat) (s : State), s.tb < (s.peer node).heard + 1000 * s.rdN Reg.TIER_PEER_LOSS) :=
  ⟨⟨1, 1, 4096, flushing, { id := 1, slot := 0, queue := 0, src := .ring, op := 4, cmdId := 0, irq := false, post := false, args := [1, 4096] }, durObj, by decide +kernel⟩,
    ⟨7, ringing, ofNone (by decide +kernel)⟩,
    ⟨3, onTheMove 1 2, aMove 1 2, by decide +kernel⟩,
    ⟨7, ringing, ofNone (by decide +kernel)⟩,
    ⟨3, { onTheMove 1 3 with tb := 100000000 }, ((({ onTheMove 1 3 with tb := 100000000 } : State).bump Reg.TIER_T3_STALLS).bump Reg.HIF_STALL_ABORT |>.twBump 0 Reg.TW_HIF_STALLS), aMove 1 3, by decide +kernel⟩,
    ⟨7, ringing, ofNone (by decide +kernel)⟩,
    ⟨0, 0, ringing, by decide +kernel⟩,
    ⟨3, 9, { onTheMove 1 4 with tb := 1000000 }, aMove 1 4, by decide +kernel⟩,
    ⟨7, 9, ringing, ofNone (by decide +kernel)⟩,
    ⟨5, { State.reset with tb := 2000000 }, loseLink 5 { State.reset with tb := 2000000 }, by decide +kernel⟩,
    ⟨5, State.reset, by decide +kernel⟩⟩

/-- What meets the hypotheses of BadWatermarkCommitIsNotApplied. -/
theorem witness_BadWatermarkCommitIsNotApplied :
    (∃ (s : State) (vs : RegFile) (low high : Nat), s.inflight.find? (fun c => c.1 == Reg.TIER_WM_COMMIT) = some (Reg.TIER_WM_COMMIT, vs) ∧ low = ((mget vs Reg.TIER_WM_LOW).getD (s.rd Reg.TIER_WM_LOW)).toNat ∧ high = ((mget vs Reg.TIER_WM_HIGH).getD (s.rd Reg.TIER_WM_HIGH)).toNat ∧ high ≤ low) ∧
    (∃ (s : State) (vs : RegFile) (low high : Nat), s.inflight.find? (fun c => c.1 == Reg.TIER_WM_COMMIT) = some (Reg.TIER_WM_COMMIT, vs) ∧ low = ((mget vs Reg.TIER_WM_LOW).getD (s.rd Reg.TIER_WM_LOW)).toNat ∧ high = ((mget vs Reg.TIER_WM_HIGH).getD (s.rd Reg.TIER_WM_HIGH)).toNat ∧ high ≤ low ∧ (∀ c v, mget vs c = some v → mget s.staged c = some v ∧ wmGroup c = true) ∧ s.rdN Reg.TIER_WM_LOW < s.rdN Reg.TIER_WM_HIGH ∧ s.rdN Reg.TIER_WM_LOW ≤ freeT1 (wmApply s)) ∧
    (∃ (s : State) (vs : RegFile) (low high : Nat), s.inflight.find? (fun c => c.1 == Reg.TIER_WM_COMMIT) = some (Reg.TIER_WM_COMMIT, vs) ∧ low = ((mget vs Reg.TIER_WM_LOW).getD (s.rd Reg.TIER_WM_LOW)).toNat ∧ high = ((mget vs Reg.TIER_WM_HIGH).getD (s.rd Reg.TIER_WM_HIGH)).toNat ∧ low < high) ∧
    (∃ (s : State), s.inflight.find? (fun c => c.1 == Reg.TIER_WM_COMMIT) = none) ∧
    (∃ (s : State) (u : State), u = commitApply s Reg.TIER_WM_COMMIT) :=
  ⟨⟨wmStaged 30, [(Reg.TIER_WM_LOW, 30)], 30, 20, by decide +kernel⟩,
    ⟨wmStaged 30, [(Reg.TIER_WM_LOW, 30)], 30, 20, by decide +kernel, by decide +kernel, by decide +kernel, by decide +kernel, (by intro c v h; simp only [mget, List.find?] at h; split at h <;> simp_all [wmStaged, mget, wmGroup]), by decide +kernel, by decide +kernel⟩,
    ⟨wmStaged 15, [(Reg.TIER_WM_LOW, 15)], 15, 20, by decide +kernel⟩,
    ⟨State.reset, by decide +kernel⟩,
    ⟨State.reset, State.reset, by decide +kernel⟩⟩

/-- What meets the hypotheses of SensorPortCommands. -/
theorem witness_SensorPortCommands :
    (∃ (p : Nat) (v : BitVec 16) (s : State), p < 2 ∧ s.rdN (Reg.ESP_OWNER p) = v.toNat) ∧
    (∃ (p b : Nat) (s : State), p < 2 ∧ s.rdN (Reg.ESP_OWNER p) ≠ 0 ∧ portOwner s p = some b) ∧
    (∃ (p slot : Nat) (v : BitVec 16) (s : State), p < 2 ∧ s.rdN (Reg.ESP_OWNER p) = 0 ∧ v ≠ 0 ∧ s.slotOf v.toNat = some slot ∧ keyLog s slot ≠ 0) ∧
    (∃ (p : Nat) (v : BitVec 16) (s : State), p < 2 ∧ v ≠ 0 ∧ s.rdN (Reg.ESP_OWNER p) ≠ v.toNat ∧ s.slotOf v.toNat = none) ∧
    (∃ (p : Nat) (s : State), p < 2 ∧ s.bit (Reg.ESP_STATUS p) 0 = true) ∧
    (∃ (p : Nat) (s : State), p < 2 ∧ s.bit (Reg.ESP_STATUS p) 0 = false) ∧
    (∃ (p : Nat) (on : Bool) (s : State), p < 2) ∧
    (∃ (p : Nat) (v : BitVec 30) (a : Bool) (s : State), p < 2 ∧ s.bit (Reg.ESP_CTRL p) 1 = false) ∧
    (∃ (p : Nat) (v : BitVec 30) (s u : State), p < 2 ∧ s.bit (Reg.ESP_CTRL p) 1 = true ∧ u = s.bump (Reg.ESP_WORDS p) ∧ portLocked u p = false) ∧
    (∃ (p : Nat) (v : BitVec 30) (s u : State), p < 2 ∧ s.bit (Reg.ESP_CTRL p) 1 = true ∧ u = s.bump (Reg.ESP_WORDS p) ∧ portLocked u p = true) ∧
    (∃ (p : Nat) (a : Bool) (s u : State), p < 2 ∧ s.bit (Reg.ESP_CTRL p) 1 = true ∧ u = s.bump (Reg.ESP_WORDS p) ∧ portLocked u p = true) ∧
    (∃ (p : Nat) (a : Bool) (s u : State), p < 2 ∧ s.bit (Reg.ESP_CTRL p) 1 = true ∧ u = s.bump (Reg.ESP_WORDS p) ∧ portLocked u p = false ∧ (u.port p).syncRun < 15) :=
  ⟨⟨0, 0, State.reset, by decide +kernel⟩,
    ⟨0, 0, sensing, by decide +kernel⟩,
    ⟨0, 0, 1, keyed, by decide +kernel⟩,
    ⟨0, 9, keyed, by decide +kernel⟩,
    ⟨0, keyed.setBit (Reg.ESP_STATUS 0) 0 true, by decide +kernel⟩,
    ⟨0, keyed, by decide +kernel⟩,
    ⟨0, true, keyed, by decide +kernel⟩,
    ⟨0, 0, true, keyed, by decide +kernel⟩,
    ⟨0, 0, sensing.setBit (Reg.ESP_STATUS 0) 2 false, (sensing.setBit (Reg.ESP_STATUS 0) 2 false).bump (Reg.ESP_WORDS 0), by decide +kernel⟩,
    ⟨0, 0, sensing, sensing.bump (Reg.ESP_WORDS 0), by decide +kernel⟩,
    ⟨0, true, sensing, sensing.bump (Reg.ESP_WORDS 0), by decide +kernel⟩,
    ⟨0, true, sensing.setBit (Reg.ESP_STATUS 0) 2 false, (sensing.setBit (Reg.ESP_STATUS 0) 2 false).bump (Reg.ESP_WORDS 0), by decide +kernel⟩⟩

/-- What meets the hypotheses of SensorPortCommands. -/
theorem witness_SensorPortCommands_2 :
    (∃ (p : Nat) (a : Bool) (s u : State), p < 2 ∧ s.bit (Reg.ESP_CTRL p) 1 = true ∧ u = s.bump (Reg.ESP_WORDS p) ∧ portLocked u p = false ∧ 15 ≤ (u.port p).syncRun) ∧
    (∃ (p : Nat) (s : State), p < 2) ∧
    (∃ (p : Nat) (s : State), p < 2) ∧
    (∃ (p w slot : Nat) (s u : State) (m : PixMap), u = putMarker p (s.bump (Reg.ESP_PIX p)) ∧ portOwner u p = some slot ∧ (u.port p).map = some m ∧ (u.port p).fifo.length < 65536 ∧ (u.port p).settling = false) ∧
    (∃ (slot q : Nat) (r : CmdRec) (s : State) (m : PixMap), CanStart s slot q r ∧ m = ({ sx := bits r.w18.toNat 4 4, sy := bits r.w18.toNat 8 4, pol := bits r.w18.toNat 12 2, group := bits r.w18.toNat 16 6, base := bits r.w18.toNat 32 20, x0 := bits r.w20.toNat 0 14, x1 := bits r.w20.toNat 16 14, y0 := bits r.w20.toNat 32 14, y1 := bits r.w20.toNat 48 14, marker := bits r.w28.toNat 0 20, settle := bits r.w28.toNat 32 16 } : PixMap) ∧ holdsPort (fetched 0x38 slot q r s).2 (slotOfFlight (fetched 0x38 slot q r s).2 (fetched 0x38 slot q r s).1) (bits r.w18.toNat 0 1) = true ∧ holdsGroup (fetched 0x38 slot q r s).2 (slotOfFlight (fetched 0x38 slot q r s).2 (fetched 0x38 slot q r s).1) m.group = true ∧ m.x0 ≤ m.x1 ∧ m.y0 ≤ m.y1 ∧ m.sx ≤ 13 ∧ m.sy ≤ 13 ∧ m.settle ≤ 10000 ∧ ownsKeys (fetched 0x38 slot q r s).2 (slotOfFlight (fetched 0x38 slot q r s).2 (fetched 0x38 slot q r s).1) m.base (m.top - m.base + 1) = true ∧ ownsKeys (fetched 0x38 slot q r s).2 (slotOfFlight (fetched 0x38 slot q r s).2 (fetched 0x38 slot q r s).1) m.marker 1 = true ∧ ((fetched 0x38 slot q r s).2.port (bits r.w18.toNat 0 1)).nextMap = none) ∧
    (∃ (slot q : Nat) (r : CmdRec) (s : State) (n : Named), CanStart s slot q r ∧ 1 ≤ bits r.w18.toNat 8 7 ∧ bits r.w18.toNat 8 7 ≤ 64 ∧ (checkHandle (fetched 0x39 slot q r s).2 (slotOfFlight (fetched 0x39 slot q r s).2 (fetched 0x39 slot q r s).1) r.w08 false 0 (8 * bits r.w18.toNat 8 7) 0xFFFF 0xFFFF).toOption = some n ∧ holdsPort (fetched 0x39 slot q r s).2 (slotOfFlight (fetched 0x39 slot q r s).2 (fetched 0x39 slot q r s).1) (bits r.w18.toNat 0 1) = true) ∧
    (∃ (slot q : Nat) (r : CmdRec) (s : State) (c : GroupCfg), CanStart s slot q r ∧ c = ⟨bits r.w18.toNat 32 12, bits r.w18.toNat 48 13, bits r.w20.toNat 0 24, bits r.w20.toNat 32 24, bits r.w28.toNat 0 10⟩ ∧ mget (fetched 0x3A slot q r s).2.groups (bits r.w18.toNat 0 6) = none ∧ r.w18.getLsbD 6 = false ∧ c.first + c.count ≤ 4096 ∧ 10 ≤ c.period ∧ c.period ≤ 10000000 ∧ c.phase < c.period ∧ c.late ≤ min 1000 (c.period / 2) ∧ tapsTaken (fetched 0x3A slot q r s).2 (bits r.w18.toNat 0 6) c = false) ∧
    (∃ (slot q : Nat) (r : CmdRec) (s : State) (x : Group), CanStart s slot q r ∧ mget (fetched 0x3A slot q r s).2.groups (bits r.w18.toNat 0 6) = some x ∧ r.w18.getLsbD 6 = true ∧ x.slot = (slotOfFlight (fetched 0x3A slot q r s).2 (fetched 0x3A slot q r s).1)) ∧
    (∃ (slot q : Nat) (r : CmdRec) (s : State), CanStart s slot q r ∧ 6 ≤ bits r.w20.toNat 0 5 ∧ bits r.w20.toNat 0 5 ≤ 16) ∧
    (∃ (p : Nat) (s : State) (l : I3cList), p < 2 ∧ (s.port p).run = some l ∧ l.since + 1000 ≤ s.tb) ∧
    (∃ (p : Nat) (s : State) (l : I3cList), p < 2 ∧ (s.port p).run = some l ∧ s.tb < l.since + 1000) ∧
    (∃ (p : Nat) (w : Word) (s : State) (l m : I3cList), p < 2 ∧ (s.port p).run = some l ∧ m = { l with idx := l.idx + 1, data := l.data ++ (if bits (l.entries[l.idx]?.getD 0).toNat 0 4 = 1 then (leBytes w.toNat (bits (l.entries[l.idx]?.getD 0).toNat 24 3)).map (·.toNat) else []), since := s.tb } ∧ m.idx < m.entries.length) :=
  ⟨⟨0, true, (sensing.setBit (Reg.ESP_STATUS 0) 2 false).updPort 0 (fun x => { x with syncRun := 15 }), ((sensing.setBit (Reg.ESP_STATUS 0) 2 false).updPort 0 (fun x => { x with syncRun := 15 })).bump (Reg.ESP_WORDS 0), by decide +kernel⟩,
    ⟨0, sensing, by decide +kernel⟩,
    ⟨0, sensing, by decide +kernel⟩,
    ⟨0, 0, 0, sensing, putMarker 0 (sensing.bump (Reg.ESP_PIX 0)), aMap, by decide +kernel⟩,
    ⟨0, 0, { w20 := 0x0003000000030000, w28 := 100 }, sensing, aMap, by decide +kernel⟩,
    ⟨0, 0, { w08 := 0x0001001000000001, w18 := 0x100 }, sensing, ⟨0, 1, anObj⟩, by decide +kernel⟩,
    ⟨0, 0, { w18 := 0x0008001000000001, w20 := 1000 }, sensing, ⟨16, 8, 1000, 0, 0⟩, by decide +kernel⟩,
    ⟨0, 0, { w18 := 0x40 }, sensing, aGroup, by decide +kernel⟩,
    ⟨0, 0, { w20 := 6 }, sensing, by decide +kernel⟩,
    ⟨0, { listing 0 with tb := 5000 }, { flight := 9, entries := [1, 2], immediate := true, acceptedAt := 0, since := 0 }, by decide +kernel⟩,
    ⟨0, listing 0, { flight := 9, entries := [1, 2], immediate := true, acceptedAt := 0, since := 0 }, by decide +kernel⟩,
    ⟨0, 5, listing 0, { flight := 9, entries := [1, 2], immediate := true, acceptedAt := 0, since := 0 }, { flight := 9, entries := [1, 2], immediate := true, acceptedAt := 0, since := 0, idx := 1 }, by decide +kernel⟩⟩

/-- What meets the hypotheses of SensorPortCommands. -/
theorem witness_SensorPortCommands_3 :
    (∃ (p : Nat) (w : Word) (s : State) (l m : I3cList), p < 2 ∧ (s.port p).run = some l ∧ m = { l with idx := l.idx + 1, data := l.data ++ (if bits (l.entries[l.idx]?.getD 0).toNat 0 4 = 1 then (leBytes w.toNat (bits (l.entries[l.idx]?.getD 0).toNat 24 3)).map (·.toNat) else []), since := s.tb } ∧ m.entries.length ≤ m.idx) ∧
    (∃ (p t : Nat) (s : State), p < 2 ∧ (s.port p).settleEnd = some t ∧ t ≤ s.tb) ∧
    (∃ (p : Nat) (s : State), p < 2 ∧ (∀ t, (s.port p).settleEnd = some t → s.tb < t)) ∧
    (∃ (p : Nat) (w : Word) (s : State), p < 2) ∧
    (∃ (p : Nat) (s : State), p < 2) ∧
    (∃ (g : Nat) (s : State), g < 64) ∧
    (∃ (g : Nat) (s : State) (x : Group), mget s.groups g = some x ∧ s.tb < x.cur.start + x.cur.len) ∧
    (∃ (g : Nat) (s : State) (x : Group) (b : Bank), g < 64 ∧ mget s.groups g = some x ∧ x.closing = some b ∧ b.start + b.len + b.cfg.late ≤ s.tb) ∧
    (∃ (g : Nat) (s : State) (x : Group), g < 64 ∧ mget s.groups g = some x ∧ (∀ b, x.closing = some b → s.tb < b.start + b.len + b.cfg.late)) :=
  ⟨⟨0, 5, sensing.updPort 0 (fun x => { x with run := some { flight := 9, entries := [2], immediate := true, acceptedAt := 0 } }), { flight := 9, entries := [2], immediate := true, acceptedAt := 0 }, { flight := 9, entries := [2], immediate := true, acceptedAt := 0, idx := 1 }, by decide +kernel⟩,
    ⟨0, 0, sensing.updPort 0 (fun x => { x with settleEnd := some 0 }), by decide +kernel⟩,
    ⟨0, sensing, by decide +kernel, ofNone (by decide +kernel)⟩,
    ⟨0, 5, sensing, by decide +kernel⟩,
    ⟨0, sensing, by decide +kernel⟩,
    ⟨0, sensing, by decide +kernel⟩,
    ⟨0, sensing, aGroup, by decide +kernel⟩,
    ⟨0, { sensing with tb := 9000, groups := [(0, { aGroup with closing := some aGroup.cur })] }, { aGroup with closing := some aGroup.cur }, aGroup.cur, by decide +kernel⟩,
    ⟨0, sensing, aGroup, by decide +kernel, by decide +kernel, ofNone (by decide +kernel)⟩⟩

/-- What meets the hypotheses of AttestationAnswers. -/
theorem witness_AttestationAnswers :
    (∃ (s : State), s.fwDown = false ∧ s.rdN Reg.FW_READY ≠ 0) ∧
    (∃ (s : State), s.fwDown = false ∧ s.rdN Reg.FW_READY ≠ 0 ∧ s.hif.verOk = true) ∧
    (∃ (a h d e : Nat) (s : State), s.fwDown = false ∧ s.rdN Reg.FW_READY ≠ 0 ∧ s.hif.verOk = true) ∧
    (∃ (s : State), s.fwDown = false ∧ s.rdN Reg.FW_READY ≠ 0 ∧ s.hif.algOk = true) ∧
    (∃ (slot off len : Nat) (c : List Nat) (s : State), s.fwDown = false ∧ s.rdN Reg.FW_READY ≠ 0 ∧ s.hif.algOk = true ∧ certChain s slot = some c) ∧
    (∃ (slot nonce : Nat) (c : List Nat) (s : State), s.fwDown = false ∧ s.rdN Reg.FW_READY ≠ 0 ∧ s.hif.algOk = true ∧ certChain s slot = some c) ∧
    (∃ (slot off len nonce ex : Nat) (s : State), s.fwDown = false ∧ s.rdN Reg.FW_READY ≠ 0 ∧ s.hif.algOk = true ∧ certChain s slot = none) ∧
    (∃ (sg : Bool) (slot nonce : Nat) (s : State), s.fwDown = false ∧ s.rdN Reg.FW_READY ≠ 0 ∧ s.hif.algOk = true) ∧
    (∃ (i slot nonce : Nat) (s : State), s.fwDown = false ∧ s.rdN Reg.FW_READY ≠ 0 ∧ s.hif.algOk = true ∧ 1 ≤ i ∧ i ≤ 8) ∧
    (∃ (slot ex : Nat) (c : List Nat) (s : State), s.fwDown = false ∧ s.rdN Reg.FW_READY ≠ 0 ∧ s.hif.algOk = true ∧ certChain s slot = some c) ∧
    (∃ (v : Bool) (s : State), s.fwDown = false ∧ s.rdN Reg.FW_READY ≠ 0 ∧ s.hif.exchanging = true) ∧
    (∃ (op tag : Nat) (s : State), s.fwDown = false ∧ s.rdN Reg.FW_READY ≠ 0 ∧ s.hif.session = true ∧ 1 ≤ op ∧ op ≤ 3) :=
  ⟨⟨fwReady, by decide +kernel⟩,
    ⟨spdm false false false, by decide +kernel⟩,
    ⟨0x80, 2, 0x10, 2, spdm false false false, by decide +kernel⟩,
    ⟨spdm true false false, by decide +kernel⟩,
    ⟨0, 0, 16, Config.deviceChain, spdm true false false, by decide +kernel, by decide +kernel, by decide +kernel, rfl⟩,
    ⟨0, 7, Config.deviceChain, spdm true false false, by decide +kernel, by decide +kernel, by decide +kernel, rfl⟩,
    ⟨1, 0, 0, 0, 0, spdm true false false, by decide +kernel⟩,
    ⟨false, 0, 0, spdm true false false, by decide +kernel⟩,
    ⟨2, 0, 0, spdm true false false, by decide +kernel⟩,
    ⟨0, 7, Config.deviceChain, spdm true false false, by decide +kernel, by decide +kernel, by decide +kernel, rfl⟩,
    ⟨true, spdm true true false, by decide +kernel⟩,
    ⟨1, 0, spdm true false true, by decide +kernel⟩⟩

/-- What meets the hypotheses of AttestationAnswers. -/
theorem witness_AttestationAnswers_2 :
    (∃ (s : State), s.fwDown = false ∧ s.rdN Reg.FW_READY ≠ 0 ∧ s.hif.session = true) ∧
    (∃ (s : State), s.fwDown = false ∧ s.rdN Reg.FW_READY ≠ 0 ∧ s.hif.session = true) ∧
    (∃ (st ks : Nat) (k : BitVec 256) (s : State), s.fwDown = false ∧ s.rdN Reg.FW_READY ≠ 0 ∧ s.hif.session = true ∧ st < 2 ∧ ks < 2) ∧
    (∃ (i : Instr) (s : State), s.fwDown = false ∧ s.rdN Reg.FW_READY ≠ 0 ∧ s.hif.verOk = false ∧ s.hif.algOk = false ∧ s.hif.exchanging = false ∧ s.hif.session = false ∧ (i = .spdmGetCapabilities ∨ (∃ a b c d, i = .spdmNegotiateAlgorithms a b c d) ∨ i = .spdmGetDigests ∨ (∃ a b c, i = .spdmGetCertificate a b c) ∨ (∃ a b, i = .spdmChallenge a b) ∨ (∃ a b c d, i = .spdmGetMeasurements a b c d) ∨ (∃ a b, i = .spdmKeyExchange a b) ∨ (∃ a, i = .spdmFinish a) ∨ (∃ a b, i = .spdmKeyUpdate a b) ∨ i = .spdmHeartbeat ∨ i = .spdmEndSession ∨ (∃ a b c, i = .ideKmKeyProg a b c))) ∧
    (∃ (code : Nat) (fields : List Nat) (s : State), s.fwDown = true) ∧
    (∃ (s : State), (s.rdN Reg.PWR_STATE ≤ 1 ∨ s.rdN Reg.PWR_STATE = 4)) ∧
    (∃ (s : State), s.rdN Reg.PWR_STATE = 3 ∧ s.hif.held = [] ∧ s.adm.waiting = []) :=
  ⟨⟨spdm true false true, by decide +kernel⟩,
    ⟨spdm true false true, by decide +kernel⟩,
    ⟨0, 0, 5, spdm true false true, by decide +kernel⟩,
    ⟨.spdmHeartbeat, fwReady, by decide +kernel, by decide +kernel, by decide +kernel, by decide +kernel, by decide +kernel, by decide +kernel, by simp⟩,
    ⟨0x84, [], { fwReady with fwDown := true }, by decide +kernel⟩,
    ⟨State.reset.putN Reg.PWR_STATE 1, by decide +kernel⟩,
    ⟨{ State.reset with fwDown := true }, by decide +kernel⟩⟩

/-- What meets the hypotheses of UpdateOperations. -/
theorem witness_UpdateOperations :
    (∃ (p n : Bool) (s : State), updBusy (cmdParty s) s = true) ∧
    (∃ (s : State), updBusy (cmdParty s) s = false ∧ updOwner s = 0 ∧ s.fw.validMarker = none) ∧
    (∃ (s : State), updBusy (cmdParty s) s = false ∧ updOwner s ≠ 0) ∧
    (∃ (p : Bool) (s : State), updBusy (cmdParty s) s = false ∧ updOwner s = 0) ∧
    (∃ (p : Bool) (s : State), updBusy (cmdParty s) s = false ∧ updOwner s ≠ 0 ∧ s.rdN Reg.FW_UPD_OFS = s.rdN Reg.FW_UPD_WRITTEN ∧ 4096 ≤ s.rdN Reg.FW_UPD_LEN ∧ s.rdN Reg.FW_UPD_LEN ≤ 1048576 ∧ s.rdN Reg.FW_UPD_LEN % 4096 = 0 ∧ s.rdN Reg.FW_UPD_OFS + s.rdN Reg.FW_UPD_LEN ≤ 25165824) ∧
    (∃ (s : State) (m : Memory), updBusy (cmdParty s) s = false ∧ updOwner s ≠ 0 ∧ m = s.fw.image (inactiveSlot s) ∧ imageSize m ≤ 25161728 ∧ s.rdN Reg.FW_UPD_WRITTEN = imageSize m + 4096) ∧
    (∃ (ok : Bool) (s u : State) (c : Nat), updBusy (cmdParty s) s = false ∧ (inactiveInfo s).st = 2 ∧ c = checkImage s (s.fw.image (inactiveSlot s)) ok ∧ u = (if c = 0 then s else s.bump Reg.FW_CHECK_FAIL)) ∧
    (∃ (ok : Bool) (s : State), updBusy (cmdParty s) s = false ∧ (inactiveInfo s).st ≠ 2) ∧
    (∃ (now : Bool) (s u : State), updBusy (cmdParty s) s = false ∧ (inactiveInfo s).st = 3 ∧ s.fw.validMarker = none ∧ s.fw.fuse ≤ imageEpoch (s.fw.image (inactiveSlot s)) ∧ u = updEnd 5 ⟨0, 0, 0⟩ (markInactive (fun i => { i with st := 4 }) (setMarker (some (inactiveSlot s, 3)) s))) ∧
    (∃ (now : Bool) (s : State), updBusy (cmdParty s) s = false ∧ (inactiveInfo s).st ≠ 3) ∧
    (∃ (s : State), updBusy (cmdParty s) s = false) ∧
    (∃ (s : State), updBusy (cmdParty s) s = false ∧ updOwner s ≠ 0) :=
  ⟨⟨true, true, State.reset.putN Reg.FW_READY 0, by decide +kernel⟩,
    ⟨described 0, by decide +kernel⟩,
    ⟨setOwner 1 (described 0), by decide +kernel⟩,
    ⟨true, described 0, by decide +kernel⟩,
    ⟨true, (setOwner 1 (described 1)).putN Reg.FW_UPD_LEN 4096, by decide +kernel⟩,
    ⟨(setOwner 1 (described 1)).putN Reg.FW_UPD_WRITTEN 4096, [], by decide +kernel⟩,
    ⟨false, described 2, (described 2).bump Reg.FW_CHECK_FAIL, 8, by decide +kernel⟩,
    ⟨true, described 3, by decide +kernel⟩,
    ⟨false, described 3, updEnd 5 ⟨0, 0, 0⟩ (markInactive (fun i => { i with st := 4 }) (setMarker (some (1, 3)) (described 3))), by decide +kernel⟩,
    ⟨true, described 2, by decide +kernel⟩,
    ⟨described 4, by decide +kernel⟩,
    ⟨setOwner 1 (described 1), by decide +kernel⟩⟩

/-- What meets the hypotheses of UpdateOperations. -/
theorem witness_UpdateOperations_2 :
    (∃ (s : State) (n c : Nat), updBusy (cmdParty s) s = false ∧ s.fw.validMarker = some (n, c)) ∧
    (∃ (s : State), updBusy (cmdParty s) s = false ∧ s.fw.validMarker = none) ∧
    (∃ (s : State), updOwner s = 1 ∧ s.bit Reg.FW_UPD_STATUS 0 = false ∧ s.fw.lastOp + 60000000 ≤ s.tb) ∧
    (∃ (s : State), (updOwner s ≠ 1 ∨ s.bit Reg.FW_UPD_STATUS 0 = true ∨ s.tb < s.fw.lastOp + 60000000)) ∧
    (∃ (s : State) (t : Nat), s.fw.trialDone = some t ∧ s.rdN Reg.FW_AUTO_CONFIRM_S ≠ 0 ∧ mayConfirm s = true ∧ s.fwDown = false ∧ t + 1000000 * s.rdN Reg.FW_AUTO_CONFIRM_S ≤ s.tb) ∧
    (∃ (s : State), s.fw.trialDone = none) :=
  ⟨⟨setMarker (some (1, 3)) (described 4), 1, 3, by decide +kernel⟩,
    ⟨described 3, by decide +kernel⟩,
    ⟨{ setOwner 1 (described 1) with tb := 70000000 }, by decide +kernel⟩,
    ⟨described 1, by decide +kernel⟩,
    ⟨{ (described 4).putN Reg.FW_AUTO_CONFIRM_S 1 with tb := 9000000, fw := { (described 4).fw with trial := true, trialDone := some 5 } }, 5, by decide +kernel⟩,
    ⟨described 3, by decide +kernel⟩⟩

/-- What meets the hypotheses of FirmwareWatchdogCertificatesAndTrace. -/
theorem witness_FirmwareWatchdogCertificatesAndTrace :
    (∃ (k : Nat) (s : State), k ≠ 0xCE71) ∧
    (∃ (s : State), (s.rdN Reg.PWR_STATE = 2 ∨ s.rdN Reg.PWR_STATE = 3 ∨ s.rdN Reg.PWR_STATE = 5)) ∧
    (∃ (s : State), (s.rdN Reg.PWR_STATE < 2 ∨ s.rdN Reg.PWR_STATE = 4 ∨ 5 < s.rdN Reg.PWR_STATE)) ∧
    (∃ (s : State), s.bit Reg.FW_UPD_STATUS 0 = false ∧ (s.fw.restarts.filter (fun t => decide (s.tb ≤ t + 60000000))).length < 3) ∧
    (∃ (s : State) (t : Nat) (r : List Nat), s.fwDown = true ∧ s.fw.restarts = t :: r ∧ t + 2000000 ≤ s.tb ∧ inRun s = true) ∧
    (∃ (s : State), (s.fwDown = false ∨ s.fw.restarts = [] ∨ inRun s = false)) :=
  ⟨⟨0, fwReady, by decide +kernel⟩,
    ⟨State.reset, by decide +kernel⟩,
    ⟨State.reset.putN Reg.PWR_STATE 1, by decide +kernel⟩,
    ⟨State.reset, by decide +kernel⟩,
    ⟨{ State.reset with fwDown := true, tb := 3000000, fw := { State.reset.fw with restarts := [0] } }, 0, [], by decide +kernel⟩,
    ⟨State.reset, by decide +kernel⟩⟩

/-- What meets the hypotheses of MemoryAndLaneFaults. -/
theorem witness_MemoryAndLaneFaults :
    (∃ (p row : Nat) (s : State), p < 256 ∧ s.flt.retired.contains (0, p) = true) ∧
    (∃ (p row : Nat) (s u : State), p < 256 ∧ s.flt.retired.contains (0, p) = false ∧ u = { ((s.bump Reg.FLT_HBM_CE).bump Reg.FLT_UNIT_FAULTS) with flt := { s.flt with corrections := (p, row, s.tb) :: s.flt.corrections.filter (fun c => within s hour c.2.2) } }) ∧
    (∃ (p row : Nat) (s : State), s.flt.repairing.contains (p, row) = false) ∧
    (∃ (p row : Nat) (s : State), p < 256 ∧ s.flt.repairing.contains (p, row) = false) ∧
    (∃ (p row : Nat) (s : State), p < 256 ∧ s.flt.repairing.contains (p, row) = true) ∧
    (∃ (p row slot obj page : Nat) (s u : State), p < 256 ∧ u = poisonPage slot obj page (noteFault 0 p (s.bump Reg.FLT_HBM_UE)) ∧ u.flt.retired.contains (0, p) = true) ∧
    (∃ (p row slot obj page : Nat) (s u v : State), p < 256 ∧ u = poisonPage slot obj page (noteFault 0 p (s.bump Reg.FLT_HBM_UE)) ∧ u.flt.retired.contains (0, p) = false ∧ v = { u with flt := { u.flt with uncorrected := (p, u.tb) :: u.flt.uncorrected } }) ∧
    (∃ (l n : Nat) (s : State), l < 144 ∧ (s.fitted (l / 8) = false ∨ s.flt.retired.contains (1, l) = true)) ∧
    (∃ (l n : Nat) (s u : State), l < 144 ∧ s.fitted (l / 8) = true ∧ s.flt.retired.contains (1, l) = false ∧ u = s.bumpBy (Reg.LNK_FEC_CORR (l / 8)) n) ∧
    (∃ (p : Nat) (a b : BitVec 8) (s : State), p < 18 ∧ s.fitted p = true ∧ (s.portState p = 2 ∨ s.portState p = 6)) ∧
    (∃ (id : Nat) (s : State) (m : Move), s.move id = some m ∧ ((m.src ≠ 2 ∧ m.dst ≠ 2) ∨ s.tb < m.since + 20000)) ∧
    (∃ (id : Nat) (s : State) (m : Move), s.move id = some m ∧ (m.src = 2 ∨ m.dst = 2) ∧ m.since + 20000 ≤ s.tb) :=
  ⟨⟨0, 0, { State.reset with flt := { State.reset.flt with retired := [(0, 0)] } }, by decide +kernel⟩,
    ⟨0, 0, State.reset, { ((State.reset.bump Reg.FLT_HBM_CE).bump Reg.FLT_UNIT_FAULTS) with flt := { State.reset.flt with corrections := [(0, 0, 0)] } }, by decide +kernel⟩,
    ⟨0, 0, State.reset, by decide +kernel⟩,
    ⟨0, 0, State.reset, by decide +kernel⟩,
    ⟨0, 0, { State.reset with flt := { State.reset.flt with repairing := [(0, 0)] } }, by decide +kernel⟩,
    ⟨0, 0, 0, 1, 0, { State.reset with flt := { State.reset.flt with retired := [(0, 0)] } }, poisonPage 0 1 0 (noteFault 0 0 (({ State.reset with flt := { State.reset.flt with retired := [(0, 0)] } } : State).bump Reg.FLT_HBM_UE)), by decide +kernel⟩,
    ⟨0, 0, 0, 1, 0, State.reset, poisonPage 0 1 0 (noteFault 0 0 (State.reset.bump Reg.FLT_HBM_UE)), { poisonPage 0 1 0 (noteFault 0 0 (State.reset.bump Reg.FLT_HBM_UE)) with flt := { (poisonPage 0 1 0 (noteFault 0 0 (State.reset.bump Reg.FLT_HBM_UE))).flt with uncorrected := [(0, 0)] } }, by decide +kernel⟩,
    ⟨0, 0, { State.reset with flt := { State.reset.flt with retired := [(1, 0)] } }, by decide +kernel, .inr (by decide +kernel)⟩,
    ⟨0, 5, State.reset, State.reset.bumpBy (Reg.LNK_FEC_CORR 0) 5, by decide +kernel⟩,
    ⟨0, 1, 0, State.reset.setPort 0 2, by decide +kernel, by decide +kernel, .inl (by decide +kernel)⟩,
    ⟨3, onTheMove 1 2, aMove 1 2, by decide +kernel⟩,
    ⟨3, { onTheMove 1 2 with tb := 30000 }, aMove 1 2, by decide +kernel⟩⟩

/-- What meets the hypotheses of UnitFaultsTestsAndLedger. -/
theorem witness_UnitFaultsTestsAndLedger :
    (∃ (ty i blk : Nat) (lost : Bool) (slot obj page : Nat) (s : State), 3 ≤ ty ∧ ty ≤ 5 ∧ i < fltCount ty) ∧
    (∃ (ty i : Nat) (s u : State), s.flt.retired.contains (ty, i) = false ∧ u = noteFault ty i s) ∧
    (∃ (i blk : Nat) (lost : Bool) (slot obj page : Nat) (s : State), i < fltCount 6) ∧
    (∃ (i blk : Nat) (lost : Bool) (slot obj page : Nat) (s : State), i < 2) ∧
    (∃ (i blk : Nat) (lost : Bool) (slot obj page : Nat) (s : State), i < 3) ∧
    (∃ (ty i : Nat) (ok : Bool) (s : State), 3 ≤ ty ∧ ty ≤ 5 ∧ i < fltCount ty) ∧
    (∃ (ty i : Nat) (ok : Bool) (s : State), s.flt.quarantined.contains (ty, i) = false) ∧
    (∃ (src : Nat) (s : State), src < 16 ∧ src ≠ 0xE) ∧
    (∃ (src f : Nat) (s : State), src < 16 ∧ src ≠ 0xE) ∧
    (∃ (ok : Bool) (s : State), (s.flt.queue = [] ∨ s.flt.ldgFailAt.isSome = true ∨ ledgerWaits s = true)) ∧
    (∃ (s : State), s.flt.queue ≠ [] ∧ s.flt.ldgFailAt = none ∧ ledgerWaits s = false) ∧
    (∃ (s : State) (t : Nat), s.flt.ldgFailAt = some t) :=
  ⟨⟨3, 0, 0, false, 0, 0, 0, State.reset, by decide +kernel⟩,
    ⟨3, 0, State.reset, noteFault 3 0 State.reset, by decide +kernel, rfl⟩,
    ⟨0, 0, false, 0, 0, 0, State.reset, by decide +kernel⟩,
    ⟨0, 0, false, 0, 0, 0, State.reset, by decide +kernel⟩,
    ⟨0, 0, false, 0, 0, 0, State.reset, by decide +kernel⟩,
    ⟨3, 0, true, State.reset, by decide +kernel⟩,
    ⟨3, 0, true, State.reset, by decide +kernel⟩,
    ⟨0, State.reset, by decide +kernel⟩,
    ⟨0, 1, State.reset, by decide +kernel⟩,
    ⟨true, State.reset, .inl (by decide +kernel)⟩,
    ⟨{ State.reset with flt := { State.reset.flt with queue := [ledgerRec State.reset 2 0 1 0 0 0 []] } }, by decide +kernel⟩,
    ⟨{ State.reset with flt := { State.reset.flt with ldgFailAt := some 0 } }, 0, by decide +kernel⟩⟩

/-- What meets the hypotheses of UnitFaultsTestsAndLedger. -/
theorem witness_UnitFaultsTestsAndLedger_2 :
    (∃ (ty i : Nat) (s : State), 3 ≤ ty ∧ ty ≤ 5 ∧ i < fltCount ty ∧ s.flt.retired.contains (ty, i) = false ∧ s.flt.quarantined.contains (ty, i) = false ∧ mget s.flt.slices (testKey ty i) = none ∧ unitIdle s ty i = true ∧ s.bit Reg.IST_CTRL 0 = true) ∧
    (∃ (ty i : Nat) (s : State), 3 ≤ ty ∧ ty ≤ 5 ∧ i < fltCount ty ∧ (unitIdle s ty i = false ∨ s.bit Reg.IST_CTRL 0 = false)) ∧
    (∃ (ty i : Nat) (f : Bool) (s u : State), 3 ≤ ty ∧ ty ≤ 5 ∧ i < fltCount ty ∧ u = sliceEnd ty i f s) ∧
    (∃ (c : Option (Nat × Nat)) (s : State), s.bit Reg.IST_CTRL 0 = false) ∧
    (∃ (p row : Nat) (s : State), s.bit Reg.IST_CTRL 0 = true ∧ p < 256) ∧
    (∃ (l m t : Nat) (s u : State), l < 144 ∧ s.fitted (l / 8) = true ∧ s.flt.retired.contains (1, l) = false ∧ 2 * m < t ∧ u = s.bump Reg.IST_LANE_MARGIN) ∧
    (∃ (l m t : Nat) (s : State), l < 144 ∧ t ≤ 2 * m) ∧
    (∃ (ty i : Nat) (s : State), (11 ≤ ty ∨ fltCount ty ≤ i)) ∧
    (∃ (ty i : Nat) (s u : State), 1 ≤ ty ∧ ty < 11 ∧ i < fltCount ty ∧ u = s.putN Reg.FLT_UNIT_SEL (ty % 16 + 16 * (i % 1024))) ∧
    (∃ (i : Nat) (s : State) (r : LedgerRec), s.flt.nor.find? (fun r => r.index == i) = some r) ∧
    (∃ (i : Nat) (s : State), s.flt.nor.find? (fun r => r.index == i) = none) :=
  ⟨⟨4, 0, State.reset.setBit Reg.IST_CTRL 0 true, by decide +kernel⟩,
    ⟨4, 0, State.reset.setBit Reg.IST_CTRL 0 false, by decide +kernel⟩,
    ⟨4, 0, true, State.reset, State.reset, by decide +kernel⟩,
    ⟨none, State.reset.setBit Reg.IST_CTRL 0 false, by decide +kernel⟩,
    ⟨0, 0, State.reset.setBit Reg.IST_CTRL 0 true, by decide +kernel⟩,
    ⟨0, 1, 5, State.reset, State.reset.bump Reg.IST_LANE_MARGIN, by decide +kernel⟩,
    ⟨0, 3, 5, State.reset, by decide +kernel⟩,
    ⟨11, 0, State.reset, by decide +kernel⟩,
    ⟨3, 0, State.reset, State.reset.putN Reg.FLT_UNIT_SEL 3, by decide +kernel⟩,
    ⟨0, { State.reset with flt := { State.reset.flt with nor := [{ ledgerRec State.reset 2 0 1 0 0 0 [] with index := 0 }] } }, { ledgerRec State.reset 2 0 1 0 0 0 [] with index := 0 }, by decide +kernel⟩,
    ⟨0, State.reset, by decide +kernel⟩⟩

/-- What meets the hypotheses of LaunchEvents. -/
theorem witness_LaunchEvents :
    (∃ (id y : Nat) (s : State), y ≤ 2 ∧ s.lch id = none) ∧
    (∃ (id y : Nat) (s : State) (l : Launch), y ≤ 2 ∧ s.lch id = some l ∧ l.started.isSome = true) ∧
    (∃ (id y : Nat) (s : State) (l : Launch), y ≤ 2 ∧ s.lch id = some l ∧ l.started = none ∧ l.step = none ∧ l.group ≤ (freeClusters s l.avoid).length) ∧
    (∃ (id y : Nat) (s : State) (l : Launch), y ≤ 2 ∧ s.lch id = some l ∧ l.started = none ∧ l.step = none ∧ (freeClusters s l.avoid).length < l.group) ∧
    (∃ (id ns : Nat) (s : State) (l : Launch), s.lch id = some l) ∧
    (∃ (k r since : Nat) (s : State) (c : Cluster) (l : Launch) (w : Wait), k < 128 ∧ s.clu k = some c ∧ c.wait = some (w, since) ∧ s.lch c.launch = some l ∧ (match w with | .move _ _ _ => some 5 | .sem _ _ => some 5 | .bar => some 5 | .kv n _ => some (pageRes s l n) | .fence => none | .fin => none) = some r) ∧
    (∃ (k : Nat) (s : State) (c : Cluster), k < 128 ∧ s.clu k = some c ∧ c.wait = none) ∧
    (∃ (id t : Nat) (s : State) (l : Launch), s.lch id = some l ∧ l.started = some t ∧ l.fault = none ∧ 1000 * l.timeLimit ≤ s.tb - t) ∧
    (∃ (id t : Nat) (s : State) (l : Launch), s.lch id = some l ∧ l.started = some t ∧ (l.fault.isSome = true ∨ s.tb - t < 1000 * l.timeLimit)) ∧
    (∃ (k n : Nat) (s : State), k < 128) ∧
    (∃ (st ctx blk g : Nat) (s : State), kvRow s st ctx blk g = none) ∧
    (∃ (st ctx blk g : Nat) (s : State) (r : KvPage), kvRow s st ctx blk g = some r ∧ (r.issued = false ∨ r.delivered = true ∨ homeTier s ctx blk g ≠ 1)) :=
  ⟨⟨77, 0, State.reset, by decide +kernel⟩,
    ⟨(theCluster (tiled [])).launch, 0, (tiled []).updLch (theCluster (tiled [])).launch (fun l => { l with started := some 0 }), { theLaunch (tiled []) with started := some 0 }, by decide +kernel⟩,
    ⟨(theCluster (tiled [])).launch, 0, (tiled []).updLch (theCluster (tiled [])).launch (fun l => { l with started := none, step := none, group := 1 }), { theLaunch (tiled []) with started := none, step := none, group := 1 }, by decide +kernel⟩,
    ⟨(theCluster (tiled [])).launch, 0, (tiled []).updLch (theCluster (tiled [])).launch (fun l => { l with started := none, step := none, group := 200 }), { theLaunch (tiled []) with started := none, step := none, group := 200 }, by decide +kernel⟩,
    ⟨(theCluster (tiled [])).launch, 5, tiled [], theLaunch (tiled []), by decide +kernel⟩,
    ⟨0, 5, 0, (tiled []).setClu 0 { theCluster (tiled []) with wait := some (.bar, 0) }, { theCluster (tiled []) with wait := some (.bar, 0) }, theLaunch (tiled []), Wait.bar, by decide +kernel⟩,
    ⟨0, (tiled []).setClu 0 { theCluster (tiled []) with wait := none }, { theCluster (tiled []) with wait := none }, by decide +kernel⟩,
    ⟨(theCluster (tiled [])).launch, 0, (tiled []).updLch (theCluster (tiled [])).launch (fun l => { l with started := some 0, fault := none, timeLimit := 0 }), { theLaunch (tiled []) with started := some 0, fault := none, timeLimit := 0 }, by decide +kernel⟩,
    ⟨(theCluster (tiled [])).launch, 0, (tiled []).updLch (theCluster (tiled [])).launch (fun l => { l with started := some 0, fault := none, timeLimit := 10 }), { theLaunch (tiled []) with started := some 0, fault := none, timeLimit := 10 }, by decide +kernel⟩,
    ⟨0, 0, tiled [], by decide +kernel⟩,
    ⟨0, 0, 0, 0, State.reset, by decide +kernel⟩,
    ⟨0, 0, 0, 0, { State.reset with pfx := { State.reset.pfx with kv := [⟨0, 0, 0, 0, 0, 0, 1, false, false, false⟩] } }, ⟨0, 0, 0, 0, 0, 0, 1, false, false, false⟩, by decide +kernel⟩⟩

/-- What meets the hypotheses of SupplyLossAndEnergyEvents. -/
theorem witness_SupplyLossAndEnergyEvents :
    (∃ (s : State), s.bit Reg.PWR_DOMAIN 1 = false) ∧
    (∃ (s u : State), s.bit Reg.PWR_DOMAIN 1 = true ∧ u = mainSequence (lastLoss 1 0 (mainGone s))) ∧
    (∃ (a m : Bool) (s : State), s.hld.ph = .off ∧ (a = true ∨ m = true)) ∧
    (∃ (a m : Bool) (s : State), (s.hld.ph ≠ .off ∨ (a = false ∧ m = false))) ∧
    (∃ (s : State), (s.tb % 1000000 ≠ 0 ∨ inRun s = false)) ∧
    (∃ (s : State), s.tb % 1000000 = 0 ∧ inRun s = true) ∧
    (∃ (s : State), (s.rdN Reg.NRG_PERIOD_S = 0 ∨ s.tb % (s.rdN Reg.NRG_PERIOD_S * 1000000) ≠ 0)) ∧
    (∃ (s u : State), s.rdN Reg.NRG_PERIOD_S ≠ 0 ∧ s.tb % (s.rdN Reg.NRG_PERIOD_S * 1000000) = 0 ∧ u = s.adm.tenants.foldl (fun s t => periodSlot s t.1) s) ∧
    (∃ (s : State), (manages s 0 = false ∨ s.tb < 1000000)) ∧
    (∃ (s : State), manages s 0 = true ∧ 1000000 ≤ s.tb ∧ overheadOf s (s.tb / 1000000 - 1) = none) ∧
    (∃ (s : State) (r : Nat) (neg : Bool), manages s 0 = true ∧ 1000000 ≤ s.tb ∧ overheadOf s (s.tb / 1000000 - 1) = some (r, neg)) ∧
    (∃ (sec : Nat) (s : State), s.nrg.waiting.any (fun w => w.sec == sec) = true ∧ (sec + 1) * 1000000 + 2000000 ≤ s.tb) :=
  ⟨⟨State.reset.setBit Reg.PWR_DOMAIN 1 false, by decide +kernel⟩,
    ⟨State.reset, mainSequence (lastLoss 1 0 (mainGone State.reset)), by decide +kernel, rfl⟩,
    ⟨true, false, { State.reset with hld := { State.reset.hld with ph := .off } }, by decide +kernel⟩,
    ⟨true, false, State.reset, by decide +kernel⟩,
    ⟨{ State.reset with tb := 5 }, by decide +kernel⟩,
    ⟨State.reset, by decide +kernel⟩,
    ⟨{ State.reset with tb := 5 }, by decide +kernel⟩,
    ⟨State.reset, State.reset, by decide +kernel⟩,
    ⟨State.reset, by decide +kernel⟩,
    ⟨{ State.reset.setFld Reg.HIE_STATUS 2 2 1 with tb := 2000000 }, by decide +kernel⟩,
    ⟨overheaded, ((overheadOf overheaded 1).getD (0, false)).1, ((overheadOf overheaded 1).getD (0, false)).2, by decide +kernel⟩,
    ⟨0, { State.reset with tb := 3000000, nrg := { State.reset.nrg with waiting := [⟨0, [], 0⟩] } }, by decide +kernel⟩⟩

/-- What meets the hypotheses of SupplyLossAndEnergyEvents. -/
theorem witness_SupplyLossAndEnergyEvents_2 :
    (∃ (sec : Nat) (s : State), (s.nrg.waiting.any (fun w => w.sec == sec) = false ∨ s.tb < (sec + 1) * 1000000 + 2000000)) ∧
    (∃ (s : State), (s.stg Reg.NRG_ADMIT_W).toNat * (s.stg Reg.NRG_PERIOD_S).toNat < admResv s 8) ∧
    (∃ (s : State), admResv s 8 ≤ (s.stg Reg.NRG_ADMIT_W).toNat * (s.stg Reg.NRG_PERIOD_S).toNat) ∧
    (∃ (f : Nat) (win : Option Nat) (rq slot : Nat) (s : State), f < 32 ∧ windowSlot s f win = some slot) :=
  ⟨⟨0, State.reset, by decide +kernel⟩,
    ⟨{ State.reset.setTen 0 { aTenant with cls := 0, vec := { energy := 5 } } with staged := [(Reg.NRG_ADMIT_W, 0)] }, by decide +kernel⟩,
    ⟨State.reset, by decide +kernel⟩,
    ⟨0, some 0, 0, 0, ringing, by decide +kernel⟩⟩

/-- What meets the hypotheses of ElectionRules. -/
theorem witness_ElectionRules :
    (∃ (src hops l : Nat) (rs st : Bool) (node term key gen str roll seq : Nat) (lk : Bool) (s : State), l < 3 ∧ (inScope (hear src s) l node = false ∨ mget (hear src s).hie.seen node = some seq ∨ node = ownNode (hear src s))) ∧
    (∃ (src hops l : Nat) (st : Bool) (node term key gen str roll seq : Nat) (lk : Bool) (s v : State), l < 3 ∧ inScope (hear src s) l node = true ∧ floodOn l 0x70 hops node seq [l + 4 + 8 * b2n st, node, term, key, str + 16 * b2n lk, gen, roll, seq] (hear src s) = (true, v)) ∧
    (∃ (src hops l : Nat) (node term key gen str roll seq : Nat) (lk : Bool) (s v : State), l < 3 ∧ inScope (hear src s) l node = true ∧ floodOn l 0x70 hops node seq [l, node, term, key, str + 16 * b2n lk, gen, roll, seq] (hear src s) = (true, v) ∧ manages v l = false ∧ mgrNode v l = none) ∧
    (∃ (l : Nat) (s : State), l < 3 ∧ (manages s l = true ∨ (mget s.hie.waits l).isSome = true ∨ (mget s.hie.elect l).isSome = true)) ∧
    (∃ (s : State), manages s 0 = false ∧ mget s.hie.waits 0 = none ∧ mget s.hie.elect 0 = none ∧ s.bit Reg.RST_START_STATUS 15 = true ∧ lvl s.hie.heard 0 + 30000 ≤ s.tb) ∧
    (∃ (l : Nat) (s : State), l < 3 ∧ mget s.hie.stall l = none ∧ s.tb < lvl s.hie.heard l + 30000) ∧
    (∃ (l t : Nat) (s : State), l < 3 ∧ mget s.hie.waits l = some t ∧ s.tb < t) ∧
    (∃ (l t : Nat) (s u : State), l < 3 ∧ mget s.hie.waits l = some t ∧ t ≤ s.tb ∧ u = { s with hie := { s.hie with waits := mdel s.hie.waits l } }) ∧
    (∃ (l : Nat) (s : State) (e : Election), l < 3 ∧ mget s.hie.elect l = some e ∧ e.since + 20000 ≤ s.tb) ∧
    (∃ (l : Nat) (s : State) (e : Election), l < 3 ∧ mget s.hie.elect l = some e ∧ s.tb < e.since + 20000) ∧
    (∃ (src hops l node term key seq : Nat) (s : State), l < 3 ∧ (inScope (hear src s) l node = false ∨ mget (hear src s).hie.seen node = some seq ∨ node = ownNode (hear src s))) ∧
    (∃ (src hops l node term key seq : Nat) (s v : State) (e : Election), l < 3 ∧ inScope (hear src s) l node = true ∧ floodOn l 0x71 hops node seq [l, node, term, key, seq] (hear src s) = (true, v) ∧ mget v.hie.elect l = some e ∧ e.term < term) :=
  ⟨⟨3, 0, 0, false, false, 3, 1, 1, 0, 0, 0, 5, false, { State.reset with hie := { State.reset.hie with seen := [(3, 5)] } }, by decide +kernel, .inr (.inl (by decide +kernel))⟩,
    ⟨3, 15, 2, false, 3, 1, 1, 0, 0, 0, 5, false, State.reset, (floodOn 2 0x70 15 3 5 [6, 3, 1, 1, 0, 0, 0, 5] (hear 3 State.reset)).2, by decide +kernel⟩,
    ⟨3, 15, 2, 3, 1, 1, 0, 0, 0, 5, false, State.reset, (floodOn 2 0x70 15 3 5 [2, 3, 1, 1, 0, 0, 0, 5] (hear 3 State.reset)).2, by decide +kernel⟩,
    ⟨0, electing 0, by decide +kernel, .inr (.inr (by decide +kernel))⟩,
    ⟨{ State.reset with tb := 50000 }, by decide +kernel⟩,
    ⟨0, State.reset, by decide +kernel⟩,
    ⟨0, 5, { State.reset with hie := { State.reset.hie with waits := [(0, 5)] } }, by decide +kernel⟩,
    ⟨0, 0, { State.reset with hie := { State.reset.hie with waits := [(0, 0)] } }, { State.reset with hie := { State.reset.hie with waits := [] } }, by decide +kernel⟩,
    ⟨0, electing 0, ⟨1, 0, 5, ownNode State.reset⟩, by decide +kernel⟩,
    ⟨0, { electing 0 with tb := 5 }, ⟨1, 0, 5, ownNode State.reset⟩, by decide +kernel⟩,
    ⟨3, 0, 0, 3, 1, 1, 5, { State.reset with hie := { State.reset.hie with seen := [(3, 5)] } }, by decide +kernel, .inr (.inl (by decide +kernel))⟩,
    ⟨3, 15, 2, 3, 9, 1, 5, electing 2, (floodOn 2 0x71 15 3 5 [2, 3, 9, 1, 5] (hear 3 (electing 2))).2, ⟨1, 0, 5, ownNode State.reset⟩, by decide +kernel⟩⟩

/-- What meets the hypotheses of ElectionRules. -/
theorem witness_ElectionRules_2 :
    (∃ (s : State), role s = 0) ∧
    (∃ (s : State), role s ≠ 0) ∧
    (∃ (s : State), role s ≤ 3) :=
  ⟨⟨State.reset, by decide +kernel⟩,
    ⟨manager 1, by decide +kernel⟩,
    ⟨manager 2, by decide +kernel⟩⟩

/-- What meets the hypotheses of JoiningAndStatus. -/
theorem witness_JoiningAndStatus :
    (∃ (src rtag l : Nat) (cont : Bool) (st b fw ld tot idx : Nat) (bs : List Nat) (tag : BitVec 128) (s : State), l < 3 ∧ manages (hear src s) l = false) ∧
    (∃ (src rtag l : Nat) (cont : Bool) (st b fw ld tot idx : Nat) (bs : List Nat) (tag : BitVec 128) (s : State), l < 3 ∧ manages (hear src s) l = true ∧ tag ≠ tagOf (hear src s) 0x72 ([l + 128 * b2n cont, st, b, fw, ld, tot + 2 ^ 16 * bs.length + 2 ^ 24 * idx, 0] ++ bs) src (ownNode (hear src s))) ∧
    (∃ (src rtag : Nat) (st : Word) (term : Nat) (tag : BitVec 128) (s : State), tag ≠ tagOf (hear src s) 0x73 [st.toNat, term, 0] src (ownNode (hear src s))) ∧
    (∃ (src rtag : Nat) (st : Word) (term : Nat) (tag : BitVec 128) (s : State) (r : HReq) (u : State), tag = tagOf (hear src s) 0x73 [st.toNat, term, 0] src (ownNode (hear src s)) ∧ takeReq src rtag (hear src s) = (some r, u) ∧ r.type = 0x72) ∧
    (∃ (node : Nat) (s : State), node ≠ ownNode s) ∧
    (∃ (s : State), managerAbove s = none) ∧
    (∃ (s : State), role s = 0 ∧ managerAbove s = none) ∧
    (∃ (src rtag a b c d : Nat) (ps : List Nat) (u tb tm : Nat) (ok : Bool) (s : State), role (hear src s) = 0) ∧
    (∃ (src rtag a b c d : Nat) (ps : List Nat) (u tb tm : Nat) (ok : Bool) (s : State), role (hear src s) ≠ 0 ∧ (noteMember src a b c d ps u tb ok (hear src s)).nrg.ratio = none) ∧
    (∃ (src rtag n : Nat) (s : State), role (hear src s) = 0) ∧
    (∃ (src rtag n : Nat) (s : State) (bs : List Nat), role (hear src s) = 3 ∧ bs = giveBlocks (hear src s) (min 16 n)) ∧
    (∃ (src rtag term : Nat) (bs : List Nat) (s u : State), takeReq src rtag (hear src s) = (none, u)) :=
  ⟨⟨3, 0, 0, false, 0, 0, 0, 0, 0, 0, [], 0, State.reset, by decide +kernel⟩,
    ⟨3, 0, 0, false, 0, 0, 0, 0, 0, 0, [], ~~~ (tagOf (hear 3 (manager 1)) 0x72 [0, 0, 0, 0, 0, 0, 0] 3 (ownNode (hear 3 (manager 1)))), manager 1, by decide +kernel, by decide +kernel, notSelf _⟩,
    ⟨3, 0, 0, 0, ~~~ (tagOf (hear 3 State.reset) 0x73 [0, 0, 0] 3 (ownNode (hear 3 State.reset))), State.reset, notSelf _⟩,
    ⟨7, 6, 0, 0, tagOf (hear 7 (requesting 0x72)) 0x73 [0, 0, 0] 7 (ownNode (hear 7 (requesting 0x72))), requesting 0x72, aReq 0x72, (takeReq 7 6 (hear 7 (requesting 0x72))).2, rfl, by decide +kernel, by decide +kernel⟩,
    ⟨9, State.reset, by decide +kernel⟩,
    ⟨State.reset, by decide +kernel⟩,
    ⟨State.reset, by decide +kernel⟩,
    ⟨3, 0, 0, 0, 0, 0, [], 0, 0, 0, true, State.reset, by decide +kernel⟩,
    ⟨3, 0, 0, 0, 0, 0, [], 0, 0, 0, true, manager 1, by decide +kernel⟩,
    ⟨3, 0, 1, State.reset, by decide +kernel⟩,
    ⟨3, 0, 1, manager 3, [], by decide +kernel⟩,
    ⟨3, 0, 0, [], State.reset, (takeReq 3 0 (hear 3 State.reset)).2, by decide +kernel⟩⟩

/-- What meets the hypotheses of JoiningAndStatus. -/
theorem witness_JoiningAndStatus_2 :
    (∃ (src rtag term : Nat) (bs : List Nat) (s u : State) (r : HReq), takeReq src rtag (hear src s) = (some r, u)) ∧
    (∃ (base : Nat) (s : State), (role s ≠ 0 ∨ s.adm.pool.contains (blockIds base) = false ∨ blockFree s (blockIds base) = false)) ∧
    (∃ (base : Nat) (s : State), role s = 0 ∧ s.adm.pool.contains (blockIds base) = true ∧ s.adm.pool ≠ standalonePool ∧ blockFree s (blockIds base) = true ∧ (∀ i, i < (blockIds base).2 → mgetD s.hie.freed 0 ((blockIds base).1 + i) + 3600000000 ≤ s.tb) ∧ mgrNode s 0 = none) ∧
    (∃ (a : Option Nat) (s : State), role s = 0) ∧
    (∃ (node : Nat) (a : Option Nat) (s : State), node ≠ ownNode s) ∧
    (∃ (src rtag o i : Nat) (ws : List Word) (s : State), role (hear src s) = 0) ∧
    (∃ (src rtag o i : Nat) (ws : List Word) (s : State), role (hear src s) ≠ 0 ∧ (((mput (hear src s).hie.ledger (2 ^ 32 * o + i % 2 ^ 32) ws).filter (fun e => e.1 / 2 ^ 32 == o)).length ≤ 4096) ∧ managerAbove (hear src s) = none) ∧
    (∃ (tag : Nat) (s : State) (r : HReq), s.hie.reqs.find? (fun r => r.tag == tag) = some r ∧ s.tb < r.since + 10000) ∧
    (∃ (tag : Nat) (s : State) (r : HReq), s.hie.reqs.find? (fun r => r.tag == tag) = some r ∧ r.since + 10000 ≤ s.tb) ∧
    (∃ (i : Nat) (w : Word) (s : State), i < 8) :=
  ⟨⟨7, 6, 0, [], requesting 0x76, (takeReq 7 6 (hear 7 (requesting 0x76))).2, aReq 0x76, by decide +kernel⟩,
    ⟨0, manager 1, .inl (by decide +kernel)⟩,
    ⟨16, { State.reset with tb := 4000000000, adm := { State.reset.adm with pool := [(16, 16)] } }, by decide +kernel⟩,
    ⟨none, State.reset, by decide +kernel⟩,
    ⟨9, none, State.reset, by decide +kernel⟩,
    ⟨3, 0, 0, 0, [], State.reset, by decide +kernel⟩,
    ⟨3, 0, 0, 0, [], manager 3, by decide +kernel⟩,
    ⟨6, requesting 0x76, aReq 0x76, by decide +kernel⟩,
    ⟨6, { requesting 0x76 with tb := 20000 }, aReq 0x76, by decide +kernel⟩,
    ⟨0, 5, State.reset, by decide +kernel⟩⟩

/-- What meets the hypotheses of SpansRoutesAndSiteTime. -/
theorem witness_SpansRoutesAndSiteTime :
    (∃ (src rtag id txn : Nat) (md : Bool) (cls : Nat) (ws : List Nat) (dom keys : Nat) (s : State) (h : SpanHold) (st : Status) (x : Nat) (u : State), h = { txn := txn, mgr := src, id := id, keys := keys, modify := md, cls := cls, domain := dom, vec := vecOfWords ws, held := {}, spill := 0, since := (hear src s).tb } ∧ outcast (hear src s) = false ∧ spanEval h (hear src s) = (st, x, u)) ∧
    (∃ (m txn : Nat) (s : State) (h : SpanHold), holdOf s m txn = some h ∧ askOf s h = none) ∧
    (∃ (m txn : Nat) (s : State) (h : SpanHold), holdOf s m txn = some h) ∧
    (∃ (src rtag txn : Nat) (st : Word) (x : Nat) (s u : State), u = (takeReq src rtag (hear src s)).2 ∧ u.hie.spans.find? (fun t => t.txn == txn) = none) ∧
    (∃ (src rtag txn : Nat) (st : Word) (x : Nat) (s u : State) (t : SpanTxn), u = (takeReq src rtag (hear src s)).2 ∧ u.hie.spans.find? (fun t => t.txn == txn) = some t ∧ (∀ n ∈ t.members, (t.votes.filter (fun (v : Nat × Status × Nat) => v.1 != src) ++ [(src, (⟨bits st.toNat 0 8, bits st.toNat 8 8, bits st.toNat 16 16⟩ : Status), x)]).any (fun v => v.1 == n) = true) ∧ st = 0 ∧ (∀ v ∈ t.votes, v.2.1.code = 0)) ∧
    (∃ (txn : Nat) (s : State) (t : SpanTxn), s.hie.spans.find? (fun t => t.txn == txn) = some t) ∧
    (∃ (f : Nat) (s : State) (a : SpanAsk), f < 32 ∧ s.hie.asks.find? (fun a => a.mb.fn == f) = some a) ∧
    (∃ (src rtag id op home : Nat) (s : State), (hear src s).slotOf id = none) ∧
    (∃ (src rtag id op home slot : Nat) (t : Tenant) (s : State), (hear src s).slotOf id = some slot ∧ (hear src s).ten slot = some t ∧ t.home = some src ∧ t.st ≠ .releasing) ∧
    (∃ (slot h : Nat) (s : State) (t : Tenant), slot < 1024 ∧ s.ten slot = some t ∧ t.home = some h) ∧
    (∃ (slot : Nat) (s : State) (t : Tenant), slot < 1024 ∧ s.ten slot = some t ∧ t.home = none) ∧
    (∃ (s : State), (role s = 0 ∨ (managerAbove s).isSome = true)) :=
  ⟨⟨7, 0, 9, 2, false, 2, [], 0, 0, State.reset, aHold, (spanEval aHold (hear 7 State.reset)).1, (spanEval aHold (hear 7 State.reset)).2.1, (spanEval aHold (hear 7 State.reset)).2.2, by decide +kernel⟩,
    ⟨7, 2, holding, aHold, by decide +kernel⟩,
    ⟨7, 2, holding, aHold, by decide +kernel⟩,
    ⟨7, 6, 2, 0, 0, requesting 0x78, (takeReq 7 6 (hear 7 (requesting 0x78))).2, by decide +kernel⟩,
    ⟨7, 6, 2, 0, 0, spanning, (takeReq 7 6 (hear 7 spanning)).2, aSpan, by decide +kernel⟩,
    ⟨2, spanning, aSpan, by decide +kernel⟩,
    ⟨0, asking, anAsk, by decide +kernel⟩,
    ⟨3, 0, 9, 0, 0, State.reset, by decide +kernel⟩,
    ⟨3, 0, 1, 0, 0, 0, { aTenant with home := some 3 }, State.reset.setTen 0 { aTenant with home := some 3 }, by decide +kernel⟩,
    ⟨0, 3, State.reset.setTen 0 { aTenant with home := some 3 }, { aTenant with home := some 3 }, by decide +kernel⟩,
    ⟨0, State.reset.setTen 0 aTenant, aTenant, by decide +kernel⟩,
    ⟨State.reset, by decide +kernel⟩⟩

/-- What meets the hypotheses of SpansRoutesAndSiteTime. -/
theorem witness_SpansRoutesAndSiteTime_2 :
    (∃ (s : State), role s ≠ 0 ∧ managerAbove s = none) ∧
    (∃ (src rtag tb_ f g : Nat) (es : List DWord) (s : State), tb_ < 3) ∧
    (∃ (tb_ f g : Nat) (es : List DWord) (s : State), g < s.lnk.rtGen) ∧
    (∃ (s : State), (role s ≠ 3 ∨ s.bit Reg.HIE_CTRL 2 = false)) ∧
    (∃ (s : State), role s = 3 ∧ s.bit Reg.HIE_CTRL 2 = true) :=
  ⟨⟨manager 3, by decide +kernel⟩,
    ⟨3, 0, 0, 0, 0, [], State.reset, by decide +kernel⟩,
    ⟨0, 0, 0, [], { State.reset with lnk := { State.reset.lnk with rtGen := 3 } }, by decide +kernel⟩,
    ⟨State.reset, by decide +kernel⟩,
    ⟨(manager 3).setBit Reg.HIE_CTRL 2 true, by decide +kernel⟩⟩

/-- What meets the hypotheses of FirmwareRollout. -/
theorem witness_FirmwareRollout :
    (∃ (w c r : List Nat) (s : State), (role s ≠ 3 ∨ rollState s = 1 ∨ (inactiveInfo s).st ≠ 3)) ∧
    (∃ (w c r : List Nat) (s : State), role s = 3 ∧ rollState s ≠ 1 ∧ (inactiveInfo s).st = 3) ∧
    (∃ (s : State), (role s ≠ 3 ∨ rollState s ≠ 2)) ∧
    (∃ (s : State), role s = 3 ∧ rollState s = 2 ∧ s.hie.roll.plan ≠ []) ∧
    (∃ (src rtag w m v n : Nat) (d : List Nat) (s : State), outcast (hear src s) = false ∧ (hear src s).hie.follow.any (fun f => f.mgr == src && f.move == m) = true) ∧
    (∃ (src rtag w m v n : Nat) (d : List Nat) (s u : State), outcast (hear src s) = false ∧ (hear src s).hie.follow = none ∧ u = updBegin 2 { (hear src s) with hie := { (hear src s).hie with follow := some ⟨src, rtag, w, m, v, n, d, [], [], none, false⟩ } }) ∧
    (∃ (src rtag m : Nat) (s u : State), u = hieAck src rtag 0x7E ⟨0, 0, 0⟩ (hear src s)) ∧
    (∃ (src rtag m : Nat) (s u : State), u = hieAck src rtag 0x7E ⟨0, 0, 0⟩ (hear src s)) ∧
    (∃ (src rtag m : Nat) (st : Word) (s u : State), u = hieAck src rtag 0x7E ⟨0, 0, 0⟩ (hear src s)) ∧
    (∃ (s : State), s.hie.follow = none) ∧
    (∃ (s : State) (f : Follow) (t : Nat), s.hie.follow = some f ∧ f.drainAt = some t ∧ f.activated = false ∧ (inactiveInfo s).st = 3 ∧ noneActive s = false ∧ s.tb < t + 1000000 * s.rdN Reg.HIE_ROLL_DRAIN_S) ∧
    (∃ (s : State), s.hie.follow = none) :=
  ⟨⟨[], [], [], State.reset, by decide +kernel⟩,
    ⟨[], [], [], { described 3 with regs := ((described 3).setFld Reg.HIE_STATUS 2 2 3).regs }, by decide +kernel⟩,
    ⟨State.reset, by decide +kernel⟩,
    ⟨rolling 2, by decide +kernel⟩,
    ⟨7, 1, 0, 4, 9, 0, [], following follower, by decide +kernel⟩,
    ⟨7, 1, 0, 4, 9, 0, [], State.reset, updBegin 2 { hear 7 State.reset with hie := { (hear 7 State.reset).hie with follow := some ⟨7, 1, 0, 4, 9, 0, [], [], [], none, false⟩ } }, by decide +kernel, by decide +kernel, rfl⟩,
    ⟨7, 1, 4, State.reset, hieAck 7 1 0x7E ⟨0, 0, 0⟩ (hear 7 State.reset), rfl⟩,
    ⟨7, 1, 4, State.reset, hieAck 7 1 0x7E ⟨0, 0, 0⟩ (hear 7 State.reset), rfl⟩,
    ⟨7, 1, 4, 0, State.reset, hieAck 7 1 0x7E ⟨0, 0, 0⟩ (hear 7 State.reset), rfl⟩,
    ⟨State.reset, by decide +kernel⟩,
    ⟨(({ described 3 with hie := { State.reset.hie with follow := some { follower with drainAt := some 0 } } } : State).setTen 0 { aTenant with st := .active }).putN Reg.HIE_ROLL_DRAIN_S 60, { follower with drainAt := some 0 }, 0, by decide +kernel⟩,
    ⟨State.reset, by decide +kernel⟩⟩

/-- What meets the hypotheses of FirmwareRollout. -/
theorem witness_FirmwareRollout_2 :
    (∃ (s : State) (f : Follow), s.hie.follow = some f ∧ (f.activated = false ∨ soaked s = false)) ∧
    (∃ (n : Nat) (s : State), rollDuty s = false) ∧
    (∃ (n t : Nat) (s : State), rollDuty s = true ∧ (n, t) ∈ s.hie.roll.sent ∧ t + 1000000 * (s.rdN Reg.HIE_ROLL_SOAK_S + 600) ≤ s.tb) ∧
    (∃ (src rtag e : Nat) (st : Word) (ra sec : Nat) (v : Bool) (s u : State), takeReq src rtag (hear src s) = (none, u)) ∧
    (∃ (src rtag : Nat) (st : Word) (ra sec : Nat) (s u : State) (r : HReq), takeReq src rtag (hear src s) = (some r, u) ∧ r.type = 0x74) ∧
    (∃ (l us : Nat) (s : State), 1 ≤ l ∧ l ≤ 5 ∧ us ≤ s.rdN Reg.FLT_PRG_THRESH_US) ∧
    (∃ (l us : Nat) (s u : State), 1 ≤ l ∧ l ≤ 5 ∧ s.rdN Reg.FLT_PRG_THRESH_US < us ∧ u = s.bump (Reg.FLT_PRG_STALL_CNT l)) :=
  ⟨⟨following follower, follower, by decide +kernel⟩,
    ⟨5, State.reset, by decide +kernel⟩,
    ⟨5, 0, { rolling 1 with tb := 100000000000 }, by decide +kernel⟩,
    ⟨3, 0, 0x7D, 0, 0, 0, false, State.reset, (takeReq 3 0 (hear 3 State.reset)).2, by decide +kernel⟩,
    ⟨7, 6, 0, 5, 5, requesting 0x74, (takeReq 7 6 (hear 7 (requesting 0x74))).2, aReq 0x74, by decide +kernel⟩,
    ⟨1, 0, State.reset, by decide +kernel⟩,
    ⟨1, 4000000000, State.reset, State.reset.bump (Reg.FLT_PRG_STALL_CNT 1), by decide +kernel⟩⟩

/-- What meets the hypotheses of PowerCapTickMovesCapK. -/
theorem witness_PowerCapTickMovesCapK :
    (∃ (s u : State) (mw : Int) (cap hyst : Int), u = commitApply s Reg.PWR_CAP_COMMIT ∧ u.bit Reg.PWR_HK_STATUS 0 = true ∧ u.mtr.toCap = some mw ∧ cap = 1000 * u.rdN Reg.PWR_CAP_W ∧ hyst = 1000 * u.rdN Reg.PWR_CAP_HYST_W) ∧
    (∃ (s u : State), u = commitApply s Reg.PWR_CAP_COMMIT ∧ (u.bit Reg.PWR_HK_STATUS 0 = false ∨ u.mtr.toCap = none)) :=
  ⟨⟨{ State.reset with mtr := { State.reset.mtr with toCap := some 1300000 } }, { State.reset with mtr := { State.reset.mtr with toCap := some 1300000 } }, 1300000, 1000 * State.reset.rdN Reg.PWR_CAP_W, 1000 * State.reset.rdN Reg.PWR_CAP_HYST_W, by decide +kernel⟩,
    ⟨State.reset, State.reset, by decide +kernel, .inr (by decide +kernel)⟩⟩

/-- What meets the hypotheses of ThermalTickMovesThermK. -/
theorem witness_ThermalTickMovesThermK :
    (∃ (w e c : Int) (s : State), c = 16 * s.rdN Reg.PWR_THERM_C) :=
  ⟨0, 0, 16 * State.reset.rdN Reg.PWR_THERM_C, State.reset, by decide +kernel⟩

/-- What meets the hypotheses of StartsAndResets. -/
theorem witness_StartsAndResets :
    (∃ (k : Nat) (s : State), k ≠ 0x5A80) ∧
    (∃ (s : State), s.rdN Reg.PWR_STATE = 3) ∧
    (∃ (s : State), s.rdN Reg.PWR_STATE ≠ 3) ∧
    (∃ (s : State) (c : Nat), s.rst.due = some c ∧ s.rdN Reg.PWR_STATE = 1 ∧ s.rst.mainGood = true ∧ s.rst.sledEn = true ∧ s.rst.xtalOk = true ∧ s.bit Reg.PWR_STATUS 0 = false) ∧
    (∃ (s : State), (s.rst.due = none ∨ s.rdN Reg.PWR_STATE ≠ 1 ∨ s.rst.mainGood = false ∨ s.rst.sledEn = false ∨ s.rst.xtalOk = false ∨ s.bit Reg.PWR_STATUS 0 = true)) ∧
    (∃ (s u : State), u = ({ s with rst := { s.rst with sledEn := false, due := none } } : State).setBit Reg.LDG_STRAP 7 false) ∧
    (∃ (s : State) (t c : Nat), s.rst.quiesce = some (t, c)) ∧
    (∃ (s : State), s.rst.quiesce = none) ∧
    (∃ (r : Nat) (s : State), r < 12 ∧ mget s.rst.steps 1 = none) ∧
    (∃ (r t : Nat) (s : State), r < 12 ∧ mget s.rst.steps 1 = some t) ∧
    (∃ (n : Nat) (ok : Bool) (l : List Nat) (s : State), 1 ≤ n ∧ n < 15 ∧ mget s.rst.steps n = none) ∧
    (∃ (n t : Nat) (ok : Bool) (l : List Nat) (s : State), 1 ≤ n ∧ n < 15 ∧ mget s.rst.steps n = some t) :=
  ⟨⟨0, State.reset, by decide +kernel⟩,
    ⟨State.reset, by decide +kernel⟩,
    ⟨State.reset.putN Reg.PWR_STATE 2, by decide +kernel⟩,
    ⟨({ State.reset with rst := { State.reset.rst with due := some 1, mainGood := true, sledEn := true, xtalOk := true } } : State).putN Reg.PWR_STATE 1, 1, by decide +kernel⟩,
    ⟨State.reset, .inr (.inl (by decide +kernel))⟩,
    ⟨State.reset, ({ State.reset with rst := { State.reset.rst with sledEn := false, due := none } } : State).setBit Reg.LDG_STRAP 7 false, rfl⟩,
    ⟨{ State.reset with rst := { State.reset.rst with quiesce := some (0, 2) } }, 0, 2, by decide +kernel⟩,
    ⟨State.reset, by decide +kernel⟩,
    ⟨0, State.reset, by decide +kernel⟩,
    ⟨0, 0, starting 1, by decide +kernel⟩,
    ⟨2, true, [], State.reset, by decide +kernel⟩,
    ⟨2, 0, true, [], starting 2, by decide +kernel⟩⟩

/-- What meets the hypotheses of StartsAndResets. -/
theorem witness_StartsAndResets_2 :
    (∃ (ok : Bool) (l : List Nat) (s : State) (t c : Nat), s.rst.quiesce = some (t, c)) ∧
    (∃ (s : State), (s.rdN Reg.PWR_STATE ≠ 2 ∨ s.rst.retry.isSome = true ∨ s.tb < s.rst.began + (if warmStart s then 10000000 else 60000000))) ∧
    (∃ (s : State), s.rdN Reg.PWR_STATE = 2 ∧ s.rst.retry = none ∧ s.rst.began + (if warmStart s then 10000000 else 60000000) ≤ s.tb) ∧
    (∃ (s : State), s.rst.retry = none) ∧
    (∃ (s : State) (t c : Nat) (w : Bool), s.rst.retry = some (t, c, w)) ∧
    (∃ (k : Nat) (s : State), (k ≠ 0x5AFE ∨ s.rdN Reg.PWR_STATE ≠ 5)) ∧
    (∃ (s : State), s.rdN Reg.PWR_STATE = 5) ∧
    (∃ (s : State), s.rdN Reg.PWR_STATE ≤ 1) ∧
    (∃ (s : State), 2 ≤ s.rdN Reg.PWR_STATE) ∧
    (∃ (s u : State), u = s.setBit Reg.PWR_STATUS 0 true) ∧
    (∃ (ok : Bool) (s : State), s.bit Reg.PWR_HK_STATUS 0 = false) ∧
    (∃ (s : State), s.bit Reg.PWR_HK_STATUS 0 = true ∧ s.bit Reg.PWR_HK_STATUS 1 = false) :=
  ⟨⟨true, [], { State.reset with rst := { State.reset.rst with quiesce := some (0, 2) } }, 0, 2, by decide +kernel⟩,
    ⟨State.reset, by decide +kernel⟩,
    ⟨{ State.reset.putN Reg.PWR_STATE 2 with tb := 90000000 }, by decide +kernel⟩,
    ⟨State.reset, by decide +kernel⟩,
    ⟨{ State.reset with rst := { State.reset.rst with retry := some (0, 8, false) } }, 0, 8, false, by decide +kernel⟩,
    ⟨0, State.reset, by decide +kernel⟩,
    ⟨State.reset.putN Reg.PWR_STATE 5, by decide +kernel⟩,
    ⟨State.reset.putN Reg.PWR_STATE 1, by decide +kernel⟩,
    ⟨State.reset, by decide +kernel⟩,
    ⟨State.reset, State.reset.setBit Reg.PWR_STATUS 0 true, rfl⟩,
    ⟨true, State.reset.putN Reg.PWR_HK_STATUS 0, by decide +kernel⟩,
    ⟨State.reset, by decide +kernel⟩⟩

/-- What meets the hypotheses of StartsAndResets. -/
theorem witness_StartsAndResets_3 :
    (∃ (s u : State), s.bit Reg.PWR_HK_STATUS 0 = true ∧ s.bit Reg.PWR_HK_STATUS 1 = false ∧ u = s.bump Reg.PWR_HK_CRC_ERR) ∧
    (∃ (s : State), s.bit Reg.PWR_HK_STATUS 0 = true ∧ s.bit Reg.PWR_HK_STATUS 1 = true) ∧
    (∃ (s : State) (n : Nat), s.bit Reg.PWR_HK_STATUS 0 = true ∧ s.bit Reg.PWR_HK_STATUS 1 = true ∧ n = s.fld Reg.PWR_HK_STATUS 2 2 + 1) ∧
    (∃ (t i k : Nat) (s : State), k ≠ 0x7E57) ∧
    (∃ (t i : Nat) (s : State), (unitAbsent s t i = true ∨ unitRetired s t i = true ∨ s.rdN Reg.PWR_STATE ≠ 3 ∨ s.tb < s.rst.busyUntil)) ∧
    (∃ (t i : Nat) (s u : State), unitAbsent s t i = false ∧ unitRetired s t i = false ∧ s.rdN Reg.PWR_STATE = 3 ∧ s.rst.busyUntil ≤ s.tb ∧ u = resetUnit t i s) ∧
    (∃ (t i : Nat) (s : State), i < unitCount t ∧ s.rst.deferred.contains (unitKey t i) = true ∧ mgetD s.rst.resetAt 0 (unitKey t i) + 1000 ≤ s.tb) ∧
    (∃ (t i : Nat) (s : State), i < unitCount t ∧ (s.rst.deferred.contains (unitKey t i) = false ∨ s.tb < mgetD s.rst.resetAt 0 (unitKey t i) + 1000)) ∧
    (∃ (t i : Nat) (s : State), i < unitCount t ∧ s.rst.notices.find? (fun n => n.type == t && n.index == i) = none) ∧
    (∃ (t i : Nat) (s : State) (n : Notice), i < unitCount t ∧ s.rst.notices.find? (fun n => n.type == t && n.index == i) = some n) :=
  ⟨⟨State.reset, State.reset.bump Reg.PWR_HK_CRC_ERR, by decide +kernel⟩,
    ⟨State.reset.setBit Reg.PWR_HK_STATUS 1 true, by decide +kernel⟩,
    ⟨State.reset.setBit Reg.PWR_HK_STATUS 1 true, 1, by decide +kernel⟩,
    ⟨0, 0, 0, State.reset, by decide +kernel⟩,
    ⟨0, 0, State.reset.putN Reg.PWR_STATE 2, .inr (.inr (.inl (by decide +kernel)))⟩,
    ⟨4, 0, State.reset, resetUnit 4 0 State.reset, by decide +kernel, by decide +kernel, by decide +kernel, by decide +kernel, rfl⟩,
    ⟨4, 0, { State.reset with tb := 5000, rst := { State.reset.rst with deferred := [unitKey 4 0] } }, by decide +kernel⟩,
    ⟨4, 0, State.reset, by decide +kernel⟩,
    ⟨4, 0, State.reset, by decide +kernel⟩,
    ⟨4, 0, { State.reset with rst := { State.reset.rst with notices := [aNotice] } }, aNotice, by decide +kernel⟩⟩

/-- What meets the hypotheses of StepCycleEvents. -/
theorem witness_StepCycleEvents :
    (∃ (id : Nat) (s : State) (l : Launch), s.lch id = some l) ∧
    (∃ (id : Nat) (s : State), s.lch id = none) ∧
    (∃ (id : Nat) (s : State) (t : Step), s.step? id = some t ∧ (t.running = true ∨ s.tb < t.startS)) ∧
    (∃ (id : Nat) (s : State) (t : Step), s.step? id = some t ∧ t.running = false ∧ t.startS ≤ s.tb ∧ t.after = none) ∧
    (∃ (id : Nat) (s : State) (t : Step), s.step? id = some t ∧ t.ended = true ∧ stepLaunch s id = none) ∧
    (∃ (id : Nat) (s : State), (∀ t, s.step? id = some t → t.ended = false)) ∧
    (∃ (s : State), s.sch.window < s.tb / 10000 * 10000) ∧
    (∃ (s : State), s.tb / 10000 * 10000 ≤ s.sch.window) :=
  ⟨⟨(theCluster (tiled [])).launch, tiled [], theLaunch (tiled []), by decide +kernel⟩,
    ⟨77, State.reset, by decide +kernel⟩,
    ⟨0, withStep { aStep with running := true }, { aStep with running := true }, by decide +kernel⟩,
    ⟨0, withStep aStep, aStep, by decide +kernel⟩,
    ⟨0, withStep { aStep with ended := true }, { aStep with ended := true }, by decide +kernel⟩,
    ⟨9, State.reset, ofNone (by decide +kernel)⟩,
    ⟨{ State.reset with tb := 20000 }, by decide +kernel⟩,
    ⟨State.reset, by decide +kernel⟩⟩

/-- What meets the hypotheses of PrefixStoreAndDeadlines. -/
theorem witness_PrefixStoreAndDeadlines :
    (∃ (c : Nat) (s u : State), c < 16384 ∧ u = commitApply s Reg.PFX_DOM_COMMIT ∧ u.ctx c = none) ∧
    (∃ (c : Nat) (s u : State) (x : Ctx) (t : Turn), c < 16384 ∧ u = commitApply s Reg.PFX_DOM_COMMIT ∧ u.ctx c = some x ∧ x.turn = some t ∧ (x.st ≠ .idle ∨ t.fetched = false ∨ t.matched = true)) ∧
    (∃ (c b : Nat) (s : State) (x : Ctx), c < 16384 ∧ s.ctx c = some x ∧ x.due.contains b = false) ∧
    (∃ (n : Nat) (s : State) (e : Entry), s.entry n = some e ∧ e.evictable = true ∧ e.lastUse + ttlUs s e.dom < s.tb) ∧
    (∃ (n : Nat) (s : State) (e : Entry), s.entry n = some e ∧ (e.evictable = false ∨ s.tb ≤ e.lastUse + ttlUs s e.dom)) ∧
    (∃ (st c b g : Nat) (s : State) (k : KvPage), kvRow s st c b g = some k ∧ (k.issued = true ∨ s.tb + s.rdN Reg.PFX_EARLY < k.issue)) ∧
    (∃ (st c b g : Nat) (s u : State) (k : KvPage), kvRow s st c b g = some k ∧ k.issued = false ∧ k.issue ≤ s.tb + s.rdN Reg.PFX_EARLY ∧ u = (if k.issue < s.tb then s.bump Reg.PFX_LATE_ISSUE else s)) ∧
    (∃ (st c b g : Nat) (s : State) (k : KvPage), kvRow s st c b g = some k ∧ (k.delivered = true ∨ k.late = true ∨ s.tb < k.deadline)) ∧
    (∃ (st c b g t : Nat) (s u : State) (k : KvPage), kvRow s st c b g = some k ∧ k.delivered = false ∧ k.late = false ∧ k.deadline ≤ s.tb ∧ t = (if k.issued then k.tier else homeTier s c b g) ∧ u = (updKv st c b g (fun k => { k with late := true, tier := t }) s).traceRec 0x0B 6 0xFFFF [t, s.tb - k.deadline]) ∧
    (∃ (d : Nat) (s : State), d < 4096 ∧ domSite s d = true ∧ role s = 0) ∧
    (∃ (d : Nat) (s : State), d < 4096 ∧ domSite s d = false ∧ s.pfx.entries.any (fun e => e.2.dom == d && e.2.keygen == (keygen s d + 1) % 16) = true) ∧
    (∃ (d : Nat) (s : State), d < 4096 ∧ domSite s d = false ∧ s.pfx.entries.any (fun e => e.2.dom == d && e.2.keygen == (keygen s d + 1) % 16) = false) :=
  ⟨⟨5, State.reset, State.reset, by decide +kernel⟩,
    ⟨3, turning, turning, { theCtx with turn := some aTurn }, aTurn, by decide +kernel⟩,
    ⟨3, 0, ctxed, theCtx, by decide +kernel⟩,
    ⟨0, { indexed with tb := 10000000000000 }, anEntry, by decide +kernel⟩,
    ⟨0, indexed, anEntry, by decide +kernel, .inr (by decide +kernel)⟩,
    ⟨0, 0, 0, 0, { State.reset with pfx := { State.reset.pfx with kv := [{ aKv with issued := true }] } }, { aKv with issued := true }, by decide +kernel⟩,
    ⟨0, 0, 0, 0, kvDue, kvDue, aKv, by decide +kernel⟩,
    ⟨0, 0, 0, 0, { State.reset with pfx := { State.reset.pfx with kv := [{ aKv with late := true }] } }, { aKv with late := true }, by decide +kernel⟩,
    ⟨0, 0, 0, 0, homeTier kvDue 0 0 0, kvDue, (updKv 0 0 0 0 (fun k => { k with late := true, tier := homeTier kvDue 0 0 0 }) kvDue).traceRec 0x0B 6 0xFFFF [homeTier kvDue 0 0 0, 0], aKv, by decide +kernel⟩,
    ⟨3, State.reset.putN (Reg.PFX_DOM_CFG 3) 4, by decide +kernel⟩,
    ⟨0, { State.reset with pfx := { State.reset.pfx with entries := [(0, { anEntry with keygen := 1 })] } }, by decide +kernel⟩,
    ⟨0, indexed, by decide +kernel⟩⟩

/-- What meets the hypotheses of PrefixStoreAndDeadlines. -/
theorem witness_PrefixStoreAndDeadlines_2 :
    (∃ (d : Nat) (s : State), d < 4096 ∧ domSite s d = false) :=
  ⟨0, indexed, by decide +kernel⟩

/-- What meets the hypotheses of PrefixDirectory. -/
theorem witness_PrefixDirectory :
    (∃ (src d kg : Nat) (p : Bool) (hs : List DWord) (s : State), role (hear src s) = 0) ∧
    (∃ (src d kg : Nat) (p : Bool) (hs : List DWord) (s u : State), role (hear src s) ≠ 0 ∧ u = hs.foldl (fun s h => dirNote p ⟨h, d, kg, src⟩ s) (hear src s) ∧ mgrNode u (role u) = none) ∧
    (∃ (src rtag d kg id : Nat) (hs : List DWord) (s : State), (role (hear src s) = 0 ∨ (hear src s).fwDown = true)) ∧
    (∃ (src rtag d kg id : Nat) (hs : List DWord) (s : State), role (hear src s) ≠ 0 ∧ (hear src s).fwDown = false ∧ mgrNode (hear src s) (role (hear src s)) = none) ∧
    (∃ (src n d kg id h st : Nat) (s : State), (hear src s).pfx.waits.find? (fun w => w.id == id && w.holder.isNone && w.dom == d && w.keygen == kg) = none) ∧
    (∃ (src n d kg id h st : Nat) (s : State) (w : DirWait), (hear src s).pfx.waits.find? (fun w => w.id == id && w.holder.isNone && w.dom == d && w.keygen == kg) = some w ∧ (n = 0 ∨ st ≠ 0)) ∧
    (∃ (src rtag d kg rq ten : Nat) (hs : List (BitVec 128)) (s u : State) (l : List Nat), remoteRun d kg (hs.take 6) (hear src s) = (l, u)) ∧
    (∃ (src n d kg rq le : Nat) (s : State), (hear src s).pfx.waits.find? (fun w => w.id == rq && w.holder == some src && w.dom == d && w.keygen == kg) = none) ∧
    (∃ (src n d kg rq le : Nat) (s u : State) (w : DirWait), (hear src s).pfx.waits.find? (fun w => w.id == rq && w.holder == some src && w.dom == d && w.keygen == kg) = some w ∧ u = dropWait w.id (hear src s) ∧ w.live u = true) ∧
    (∃ (le : Nat) (s : State) (l : RLease), s.pfx.leases.find? (fun l => l.id == le) = some l) ∧
    (∃ (le : Nat) (s : State) (l : RLease), s.pfx.leases.find? (fun l => l.id == le) = some l) ∧
    (∃ (s : State), mgrNode s 0 = none) :=
  ⟨⟨3, 0, 0, true, [], State.reset, by decide +kernel⟩,
    ⟨3, 0, 0, true, [], manager 3, hear 3 (manager 3), by decide +kernel⟩,
    ⟨3, 0, 0, 0, 0, [], State.reset, by decide +kernel⟩,
    ⟨3, 0, 0, 0, 0, [], manager 3, by decide +kernel⟩,
    ⟨3, 0, 0, 0, 0, 0, 0, State.reset, by decide +kernel⟩,
    ⟨3, 0, 0, 0, 2, 0, 0, awaiting, aWait, by decide +kernel⟩,
    ⟨3, 0, 0, 0, 0, 0, [], State.reset, hear 3 State.reset, [], by decide +kernel⟩,
    ⟨3, 0, 0, 0, 0, 0, State.reset, by decide +kernel⟩,
    ⟨7, 0, 0, 0, 2, 4, pinWaiting, dropWait 2 (hear 7 pinWaiting), pinWait, by decide +kernel⟩,
    ⟨4, leased, ⟨4, 7, [], 0⟩, by decide +kernel⟩,
    ⟨4, leased, ⟨4, 7, [], 0⟩, by decide +kernel⟩,
    ⟨State.reset, by decide +kernel⟩⟩

/-- What meets the hypotheses of PrefixDirectory. -/
theorem witness_PrefixDirectory_2 :
    (∃ (s : State) (m : Nat), mgrNode s 0 = some m) :=
  ⟨State.reset.putN (Reg.HIE_MGR 0) 65543, 7, by decide +kernel⟩

/-- What meets the hypotheses of LinkPortsAndRoutes. -/
theorem witness_LinkPortsAndRoutes :
    (∃ (p ack x v node pp ln ep st : Nat) (cold : Bool) (fs : List Nat) (m : BitVec 8) (hdr : BitVec 128) (pay : BitVec 864) (crc : Word) (s : State) (c : Instr × List Nat), c ∈ ([(.codewordUncorrectable p, [3, 4, 5, 6]), (.idleFlit p ack, [5]), (.retryReq p ack x, [5]), (.retryAckTimeout p, [5]), (.credit p ack fs, [5]), (.creditPeriodicSend p, [5]), (.escapeWaitExpire p, [5, 6]), (.flitAgeExpire p, [5, 6]), (.hello p v node pp ln ep cold st fs, [4]), (.laneMap p m, [3, 4, 5, 6]), (.downNotice p x, [4, 5, 6]), (.lnkPortRetrain p, [5]), (.lnkPortFullEq p, [1, 2, 3, 4, 5, 6]), (.portDetectRetry p, [1]), (.portSignalDetect p m, [1]), (.portLanesLock p, [2]), (.portAlignDone p, [3, 6]), (.portLockLoss p, [5]), (.dataFlit p hdr pay crc, [5])] : List (Instr × List Nat)) ∧ p < 18 ∧ (s.fitted p && c.2.contains (s.portState p)) = false) ∧
    (∃ (p : Nat) (s : State), p < 18 ∧ s.fitted p = true ∧ s.portState p = 5) ∧
    (∃ (p : Nat) (ack : Nat) (s u : State), p < 18 ∧ s.fitted p = true ∧ s.portState p = 5 ∧ u = hearPort p s ∧ (u.lport p).unacked.findIdx? (fun u => u.1 == ack) = none) ∧
    (∃ (p : Nat) (ack i : Nat) (s h u : State), p < 18 ∧ s.fitted p = true ∧ s.portState p = 5 ∧ h = hearPort p s ∧ (h.lport p).unacked.findIdx? (fun u => u.1 == ack) = some i ∧ u = h.updLport p (fun l => { l with unacked := l.unacked.drop (i + 1), replays := 0, ackAt := s.tb })) ∧
    (∃ (p : Nat) (ack x : Nat) (s : State), p < 18 ∧ s.fitted p = true ∧ s.portState p = 5) ∧
    (∃ (p : Nat) (s : State), p < 18 ∧ s.fitted p = true ∧ s.portState p = 5 ∧ (s.lport p).ackAt + 2 ≤ s.tb) ∧
    (∃ (p : Nat) (s : State), p < 18 ∧ s.fitted p = true ∧ s.portState p = 5 ∧ s.tb < (s.lport p).ackAt + 2) ∧
    (∃ (p i : Nat) (x : Option Nat) (s : State), (s.lport p).unacked.drop ((x.bind (fun q => (s.lport p).unacked.findIdx? (fun u => u.1 == q))).getD 0) = []) ∧
    (∃ (p : Nat) (x : Option Nat) (s : State), p < 18 ∧ (s.lport p).unacked.drop ((x.bind (fun q => (s.lport p).unacked.findIdx? (fun u => u.1 == q))).getD 0) ≠ [] ∧ 7 ≤ (s.lport p).replays) ∧
    (∃ (p : Nat) (ack : Nat) (fs : List Nat) (s u : State), p < 18 ∧ s.fitted p = true ∧ s.portState p = 5 ∧ applyAck p ack (hearPort p s) = u) ∧
    (∃ (p : Nat) (s : State), p < 18 ∧ s.fitted p = true ∧ s.portState p = 5) ∧
    (∃ (p : Nat) (s : State) (q : QFlit), p < 18 ∧ s.fitted p = true ∧ s.portState p = 5 ∧ (s.lport p).queue.find? (fun q => [1, 2, 3, 5].contains q.flit.cls && decide (q.since + s.rdN Reg.LNK_ESC_WAIT ≤ s.tb)) = some q) :=
  ⟨⟨0, 0, 0, 0, 0, 0, 0, 0, 0, true, [], 0, 0, 0, 0, State.reset, (.retryAckTimeout 0, [5]), by simp, by decide, by decide +kernel⟩,
    ⟨0, onP 5, by decide +kernel⟩,
    ⟨0, 4, unacked 5, hearPort 0 (unacked 5), by decide +kernel, by decide +kernel, by decide +kernel, rfl, by decide +kernel⟩,
    ⟨0, 0, 0, unacked 5, _, _, by decide +kernel, by decide +kernel, by decide +kernel, rfl, by decide +kernel, rfl⟩,
    ⟨0, 4, 0, unacked 5, by decide +kernel⟩,
    ⟨0, { unacked 5 with tb := 9 }, by decide +kernel⟩,
    ⟨0, unacked 5, by decide +kernel⟩,
    ⟨0, 0, none, onP 5, by decide +kernel⟩,
    ⟨0, none, (unacked 5).updLport 0 (fun l => { l with replays := 7 }), by decide +kernel⟩,
    ⟨0, 4, [], onP 5, applyAck 0 4 (hearPort 0 (onP 5)), by decide +kernel⟩,
    ⟨0, onP 5, by decide +kernel⟩,
    ⟨0, queued 5, ⟨aFlit, 0, none⟩, by decide +kernel⟩⟩

/-- What meets the hypotheses of LinkPortsAndRoutes. -/
theorem witness_LinkPortsAndRoutes_2 :
    (∃ (p : Nat) (s : State), p < 18 ∧ s.fitted p = true ∧ s.portState p = 5 ∧ (s.lport p).queue.find? (fun q => [1, 2, 3, 5].contains q.flit.cls && decide (q.since + s.rdN Reg.LNK_ESC_WAIT ≤ s.tb)) = none) ∧
    (∃ (p : Nat) (s : State) (q : QFlit), p < 18 ∧ s.fitted p = true ∧ s.portState p = 6 ∧ (s.lport p).queue.find? (fun q => decide (q.since + 100 ≤ s.tb)) = some q) ∧
    (∃ (p : Nat) (s : State), p < 18 ∧ s.fitted p = true ∧ s.portState p = 5 ∧ (∀ q ∈ (s.lport p).queue, s.tb < q.since + 100)) ∧
    (∃ (p : Nat) (v node pp ln ep st : Nat) (cold : Bool) (fs : List Nat) (s : State), p < 18 ∧ s.fitted p = true ∧ s.portState p = 4 ∧ (v ≠ 1 ∨ 0x8000 ≤ node ∨ (node ≠ ownNode s ∧ dupPeer s p node st = false ∧ ln ≠ s.fld (Reg.LNK_PORT_STATUS p) 3 4))) ∧
    (∃ (p : Nat) (node pp ln ep st : Nat) (cold : Bool) (fs : List Nat) (s : State), p < 18 ∧ s.fitted p = true ∧ s.portState p = 4 ∧ node < 0x8000 ∧ (node = ownNode s ∨ dupPeer s p node st = true)) ∧
    (∃ (p : Nat) (node pp ln ep st : Nat) (cold : Bool) (fs : List Nat) (s : State), p < 18 ∧ s.fitted p = true ∧ s.portState p = 4 ∧ node < 0x8000 ∧ ln = s.fld (Reg.LNK_PORT_STATUS p) 3 4 ∧ node ≠ ownNode s ∧ dupPeer s p node st = false) ∧
    (∃ (p : Nat) (m : BitVec 8) (s u : State), p < 18 ∧ s.fitted p = true ∧ s.portState p = 5 ∧ u = widthChange p ((hearPort p s).updLport p (fun l => { l with peerMask := m.toNat }))) ∧
    (∃ (p : Nat) (x : Nat) (s : State), p < 18 ∧ s.fitted p = true ∧ s.portState p = 5) ∧
    (∃ (p : Nat) (s : State), p < 18 ∧ s.fitted p = true ∧ s.portState p = 0 ∧ (s.setBit (Reg.LNK_PORT_CTRL p) 0 true).portState p = 0 ∧ s.flt.retired.contains (2, p) = false) ∧
    (∃ (p : Nat) (s u : State), p < 18 ∧ s.fitted p = true ∧ u = s.setBit (Reg.LNK_PORT_CTRL p) 0 false ∧ u.portState p = 5) ∧
    (∃ (p : Nat) (en : Bool) (s : State), p < 18 ∧ s.fitted p = false) ∧
    (∃ (p : Nat) (s : State), p < 18 ∧ s.fitted p = true ∧ s.portState p = 5) :=
  ⟨⟨0, onP 5, by decide +kernel⟩,
    ⟨0, queued 6, ⟨aFlit, 0, none⟩, by decide +kernel⟩,
    ⟨0, onP 5, by decide +kernel, by decide +kernel, by decide +kernel, fun q h => absurd h (List.not_mem_nil)⟩,
    ⟨0, 2, 0, 0, 0, 0, 0, false, [], onP 4, by decide +kernel⟩,
    ⟨0, ownNode (onP 4), 0, (onP 4).fld (Reg.LNK_PORT_STATUS 0) 3 4, 0, 0, false, [], onP 4, by decide +kernel⟩,
    ⟨0, 7, 0, (onP 4).fld (Reg.LNK_PORT_STATUS 0) 3 4, 0, 0, false, [], onP 4, by decide +kernel⟩,
    ⟨0, 3, onP 5, widthChange 0 ((hearPort 0 (onP 5)).updLport 0 (fun l => { l with peerMask := (3 : BitVec 8).toNat })), by decide +kernel, by decide +kernel, by decide +kernel, rfl⟩,
    ⟨0, 5, onP 5, by decide +kernel⟩,
    ⟨0, onP 0, by decide +kernel⟩,
    ⟨0, onP 5, (onP 5).setBit (Reg.LNK_PORT_CTRL 0) 0 false, by decide +kernel⟩,
    ⟨17, true, State.reset.setBit (Reg.LNK_PORT_STATUS 17) 24 true, by decide +kernel⟩,
    ⟨0, onP 5, by decide +kernel⟩⟩

/-- What meets the hypotheses of LinkPortsAndRoutes. -/
theorem witness_LinkPortsAndRoutes_3 :
    (∃ (p : Nat) (s : State), p < 18 ∧ s.fitted p = true ∧ s.portState p = 5) ∧
    (∃ (p : Nat) (s : State), p < 18 ∧ s.fitted p = true ∧ s.portState p = 5) ∧
    (∃ (p : Nat) (s : State), p < 18) ∧
    (∃ (p : Nat) (m : BitVec 8) (s : State), p < 18 ∧ s.fitted p = true ∧ s.portState p = 1) ∧
    (∃ (p : Nat) (s : State), p < 18 ∧ s.fitted p = true ∧ s.portState p = 2) ∧
    (∃ (p : Nat) (s : State), p < 18 ∧ s.fitted p = true ∧ s.portState p = 3 ∧ lanesOf s p = none) ∧
    (∃ (p : Nat) (s : State), p < 18 ∧ s.fitted p = true ∧ s.portState p = 3 ∧ lanesOf s p ≠ none) ∧
    (∃ (p n m : Nat) (s : State), p < 18 ∧ s.portState p = 3 ∧ lanesOf s p = some (m, n)) ∧
    (∃ (p : Nat) (hdr : BitVec 128) (pay : BitVec 864) (crc : Word) (s : State), p < 18 ∧ s.fitted p = true ∧ s.portState p = 5 ∧ crc ≠ flitCrc hdr pay) ∧
    (∃ (p : Nat) (hdr : BitVec 128) (pay : BitVec 864) (crc : Word) (s u : State), p < 18 ∧ s.fitted p = true ∧ s.portState p = 5 ∧ crc = flitCrc hdr pay ∧ flitSound hdr = true ∧ u = (if bits hdr.toNat 7 1 = 1 then applyAck p (bits hdr.toNat 20 12) (hearPort p s) else hearPort p s) ∧ bits hdr.toNat 8 12 ≠ (u.lport p).rxSeq) ∧
    (∃ (p : Nat) (hdr : BitVec 128) (pay : BitVec 864) (crc : Word) (s u : State), p < 18 ∧ s.fitted p = true ∧ s.portState p = 5 ∧ crc = flitCrc hdr pay ∧ flitSound hdr = true ∧ u = (if bits hdr.toNat 7 1 = 1 then applyAck p (bits hdr.toNat 20 12) (hearPort p s) else hearPort p s) ∧ bits hdr.toNat 8 12 = (u.lport p).rxSeq) ∧
    (∃ (p : Nat) (s : State), (s.lport p).seeking = true) :=
  ⟨⟨0, onP 5, by decide +kernel⟩,
    ⟨0, onP 5, by decide +kernel⟩,
    ⟨0, onP 1, by decide +kernel⟩,
    ⟨0, 3, onP 1, by decide +kernel⟩,
    ⟨0, onP 2, by decide +kernel⟩,
    ⟨0, (onP 3).updLport 0 (fun l => { l with peerMask := 255 }), by decide +kernel⟩,
    ⟨0, onP 3, by decide +kernel⟩,
    ⟨0, 8, 255, onP 3, by decide +kernel⟩,
    ⟨0, 0, 0, 0, onP 5, by decide +kernel⟩,
    ⟨0, 257, 0, flitCrc 257 0, onP 5, hearPort 0 (onP 5), by decide +kernel, by decide +kernel, by decide +kernel, rfl, by decide +kernel⟩,
    ⟨0, 1, 0, flitCrc 1 0, onP 5, hearPort 0 (onP 5), by decide +kernel, by decide +kernel, by decide +kernel, rfl, by decide +kernel⟩,
    ⟨0, (onP 5).updLport 0 (fun l => { l with seeking := true }), by decide +kernel⟩⟩

/-- What meets the hypotheses of LinkPortsAndRoutes. -/
theorem witness_LinkPortsAndRoutes_4 :
    (∃ (p : Nat) (s : State), (s.lport p).seeking = false) ∧
    (∃ (p : Nat) (f : Flit) (r : Bool) (s : State), f.dst ≠ ownNode s ∧ f.cls ≠ 6 ∧ f.hops = 15) ∧
    (∃ (p : Nat) (f : Flit) (r : Bool) (s : State), f.dst ≠ ownNode s ∧ f.cls ≠ 6 ∧ f.hops < 15) ∧
    (∃ (p : Nat) (f : Flit) (r : Bool) (s : State), (f.dst = ownNode s ∨ f.cls = 6)) ∧
    (∃ (i : Nat) (v : DWord) (s : State), i < 112 ∧ rtEntryOk s (v &&& 0x1FFFFFF) = false) ∧
    (∃ (i : Nat) (v : DWord) (s : State), i < 112 ∧ rtEntryOk s (v &&& 0x1FFFFFF) = true ∧ s.fld Reg.LNK_EPOCH 1 2 < 2) ∧
    (∃ (i : Nat) (v : DWord) (s : State), i < 112 ∧ rtEntryOk s (v &&& 0x1FFFFFF) = true ∧ 2 ≤ s.fld Reg.LNK_EPOCH 1 2) ∧
    (∃ (v : Word) (s : State), v.getLsbD 0 = false) ∧
    (∃ (v : Word) (s : State), v.getLsbD 0 = true) ∧
    (∃ (s : State), s.lnk.flipAt = none) ∧
    (∃ (t : Nat) (e : Option Nat) (s : State), s.lnk.flipAt = some (t, e) ∧ s.tb < t) ∧
    (∃ (t : Nat) (e : Option Nat) (s u : State), s.lnk.flipAt = some (t, e) ∧ t ≤ s.tb ∧ u = State.setBit { s with lnk := { s.lnk with flipAt := none } } Reg.LNK_RT_STATUS 0 false ∧ e ≠ some u.lnkE ∧ flipReady u e = false) :=
  ⟨⟨0, onP 5, by decide +kernel⟩,
    ⟨0, { aFlit with hops := 15 }, false, State.reset, by decide +kernel⟩,
    ⟨0, aFlit, false, State.reset, by decide +kernel⟩,
    ⟨0, { aFlit with cls := 6 }, false, State.reset, by decide +kernel⟩,
    ⟨0, 0x7C0000, State.reset, by decide +kernel⟩,
    ⟨0, 3, State.reset, by decide +kernel⟩,
    ⟨0, 3, State.reset.setFld Reg.LNK_EPOCH 1 2 2, by decide +kernel⟩,
    ⟨2, State.reset, by decide +kernel⟩,
    ⟨1, State.reset, by decide +kernel⟩,
    ⟨State.reset, by decide +kernel⟩,
    ⟨9, none, { State.reset with lnk := { State.reset.lnk with flipAt := some (9, none) } }, by decide +kernel⟩,
    ⟨0, some 1, { State.reset with lnk := { State.reset.lnk with flipAt := some (0, some 1) } }, State.setBit { State.reset with lnk := { State.reset.lnk with flipAt := none } } Reg.LNK_RT_STATUS 0 false, by decide +kernel⟩⟩

/-- What meets the hypotheses of LinkPortsAndRoutes. -/
theorem witness_LinkPortsAndRoutes_5 :
    (∃ (t : Nat) (e : Option Nat) (s u : State), s.lnk.flipAt = some (t, e) ∧ t ≤ s.tb ∧ u = State.setBit { s with lnk := { s.lnk with flipAt := none } } Reg.LNK_RT_STATUS 0 false ∧ e ≠ some u.lnkE ∧ flipReady u e = true) ∧
    (∃ (s : State), (s.fld Reg.LNK_EPOCH 1 2 ≠ 2 ∨ bankFlits s (1 - s.lnkE) ≠ 0 ∨ s.tb < s.lnk.flippedAt + 4000)) ∧
    (∃ (s : State), s.fld Reg.LNK_EPOCH 1 2 = 2 ∧ bankFlits s (1 - s.lnkE) = 0 ∧ s.lnk.flippedAt + 4000 ≤ s.tb) :=
  ⟨⟨0, none, { State.reset with lnk := { State.reset.lnk with flipAt := some (0, none) } }, State.setBit { State.reset with lnk := { State.reset.lnk with flipAt := none } } Reg.LNK_RT_STATUS 0 false, by decide +kernel⟩,
    ⟨State.reset, by decide +kernel⟩,
    ⟨{ State.reset.setFld Reg.LNK_EPOCH 1 2 2 with tb := 5000 }, by decide +kernel⟩⟩

/-- What meets the hypotheses of PeerTierMessages. -/
theorem witness_PeerTierMessages :
    (∃ (src tag e : Nat) (s u : State) (r : Req), u = (hear src s).updPeer src (fun p => { p with epoch := e }) ∧ u.lnk.reqs.find? (fun (r : Req) => r.tag == tag && r.dest == src) = some r) ∧
    (∃ (src tag e : Nat) (s u : State), u = (hear src s).updPeer src (fun p => { p with epoch := e }) ∧ u.lnk.reqs.find? (fun (r : Req) => r.tag == tag && r.dest == src) = none) ∧
    (∃ (src tag mv : Nat) (hd : DWord) (page st : Nat) (crc : Word) (s : State), (st < 64 ∨ 65600 < st)) ∧
    (∃ (src tag mv : Nat) (hd : DWord) (page st : Nat) (crc : Word) (s : State), 64 ≤ st ∧ st ≤ 65600 ∧ lendRoom (hear src s) 1 < round4K st ∧ lendRoom (hear src s) 2 < round4K st) ∧
    (∃ (src tag mv : Nat) (hd : DWord) (page st : Nat) (crc : Word) (s : State), 64 ≤ st ∧ st ≤ 65600 ∧ round4K st ≤ lendRoom (hear src s) 1) ∧
    (∃ (src tag mv : Nat) (hd : DWord) (page : Nat) (s : State), (hear src s).lnk.lent.find? (fun (x : Xfer) => x.node == src && x.handle == hd && x.page == page && x.whole) = none) ∧
    (∃ (src tag mv : Nat) (hd : DWord) (page : Nat) (s : State), leasedPage (hear src s) (bits hd.toNat 0 32) src page = none) ∧
    (∃ (src tag mv : Nat) (hd : DWord) (page : Nat) (s : State) (x : Xfer), (hear src s).lnk.lent.find? (fun (x : Xfer) => x.node == src && x.handle == hd && x.page == page && x.whole) = some x) ∧
    (∃ (src tag mv : Nat) (st : Word) (n : Nat) (crc : Word) (s u : State), u = { (hear src s) with lnk := { (hear src s).lnk with reqs := (hear src s).lnk.reqs.filter (fun (r : Req) => !(r.tag == tag && r.dest == src)) } } ∧ u.move mv = none) ∧
    (∃ (src tag mv : Nat) (st : Word) (n : Nat) (crc : Word) (s u : State) (m : Move), u = { (hear src s) with lnk := { (hear src s).lnk with reqs := (hear src s).lnk.reqs.filter (fun (r : Req) => !(r.tag == tag && r.dest == src)) } } ∧ u.move mv = some m ∧ (m.dst = 4 ∨ m.src = 4) ∧ bits st.toNat 0 8 ≠ 0) ∧
    (∃ (src tag mv : Nat) (st : Word) (n : Nat) (crc : Word) (s u : State) (m : Move), u = { (hear src s) with lnk := { (hear src s).lnk with reqs := (hear src s).lnk.reqs.filter (fun (r : Req) => !(r.tag == tag && r.dest == src)) } } ∧ u.move mv = some m ∧ m.dst = 4 ∧ bits st.toNat 0 8 = 0) ∧
    (∃ (src tag mv off : Nat) (d : List Byte) (s : State) (x : Xfer), (hear src s).lnk.lent.find? (fun (x : Xfer) => x.node == src && x.move == mv && x.tag == tag && !x.whole) = some x ∧ (x.put (hear src s).tb off d).complete = false) :=
  ⟨⟨7, 6, 2, outReq (.hier 0), (hear 7 (outReq (.hier 0))).updPeer 7 (fun p => { p with epoch := 2 }), ⟨6, 7, 0, .hier 0⟩, by decide +kernel⟩,
    ⟨7, 6, 2, State.reset, (hear 7 State.reset).updPeer 7 (fun p => { p with epoch := 2 }), by decide +kernel⟩,
    ⟨7, 6, 3, 1, 0, 5, 0, lender, by decide +kernel⟩,
    ⟨7, 6, 3, 1, 0, 64, 0, State.reset, by decide +kernel⟩,
    ⟨7, 6, 3, 1, 0, 64, 0, lender, by decide +kernel⟩,
    ⟨7, 6, 3, 1, 0, State.reset, by decide +kernel⟩,
    ⟨7, 6, 3, 1, 0, State.reset, by decide +kernel⟩,
    ⟨7, 6, 3, 1, 0, lending { aXfer with whole := true }, { aXfer with whole := true }, by decide +kernel⟩,
    ⟨7, 6, 3, 0, 0, 0, State.reset, hear 7 State.reset, by decide +kernel⟩,
    ⟨7, 6, 3, 0x42, 0, 0, onTheMove 1 4, hear 7 (onTheMove 1 4), aMove 1 4, by decide +kernel, by decide +kernel, .inl rfl, by decide +kernel⟩,
    ⟨7, 6, 3, 0, 0, 0, onTheMove 1 4, hear 7 (onTheMove 1 4), aMove 1 4, by decide +kernel⟩,
    ⟨7, 6, 3, 0, [1], lending aXfer, aXfer, by decide +kernel⟩⟩

/-- What meets the hypotheses of PeerTierMessages. -/
theorem witness_PeerTierMessages_2 :
    (∃ (src tag mv off : Nat) (d : List Byte) (s : State) (x : Xfer), (hear src s).lnk.lent.find? (fun (x : Xfer) => x.node == src && x.move == mv && x.tag == tag && !x.whole) = some x ∧ (x.put (hear src s).tb off d).complete = true ∧ crcOf (x.put (hear src s).tb off d).bytes = x.crc) ∧
    (∃ (src tag mv off : Nat) (d : List Byte) (s : State) (x : Xfer), (hear src s).lnk.lent.find? (fun (x : Xfer) => x.node == src && x.move == mv && x.tag == tag && !x.whole) = some x ∧ (x.put (hear src s).tb off d).complete = true ∧ crcOf (x.put (hear src s).tb off d).bytes ≠ x.crc) :=
  ⟨⟨7, 6, 3, 0, List.replicate 64 5, lending { aXfer with crc := crcOf (({ aXfer with crc := 0 } : Xfer).put 0 0 (List.replicate 64 5)).bytes }, { aXfer with crc := crcOf (({ aXfer with crc := 0 } : Xfer).put 0 0 (List.replicate 64 5)).bytes }, by decide +kernel⟩,
    ⟨7, 6, 3, 0, List.replicate 64 5, lending aXfer, aXfer, by decide +kernel⟩⟩

/-- What meets the hypotheses of SpanMessagesAndSiteTime. -/
theorem witness_SpanMessagesAndSiteTime :
    (∃ (src seq sp off tag r n : Nat) (ws : List Word) (bs : List Byte) (v : Word) (s : State) (c : Instr), spanLaunch (hear src s) src sp = none ∧ c ∈ ([(.collPart src seq sp off ws), (.collData src seq sp off bs), (.spanPut src tag r sp off bs), (.spanGet src tag r sp off n), (.spanSignal src r sp n v), (.spanBar src seq sp n), (.spanAck src sp n)] : List Instr)) ∧
    (∃ (src seq sp off : Nat) (ws : List Word) (s : State) (id : Nat) (l : Launch), spanLaunch (hear src s) src sp = some (id, l) ∧ collReady (hear src s) l seq = true) ∧
    (∃ (src seq sp off : Nat) (ws : List Word) (s : State) (id : Nat) (l : Launch), spanLaunch (hear src s) src sp = some (id, l) ∧ collReady (hear src s) l seq = false) ∧
    (∃ (src seq sp off : Nat) (bs : List Byte) (s : State) (id : Nat) (l : Launch), spanLaunch (hear src s) src sp = some (id, l) ∧ collReady (hear src s) l seq = true) ∧
    (∃ (src seq sp off : Nat) (bs : List Byte) (s : State) (id : Nat) (l : Launch), spanLaunch (hear src s) src sp = some (id, l) ∧ collReady (hear src s) l seq = false) ∧
    (∃ (src tag r sp off : Nat) (bs : List Byte) (s u : State) (id k : Nat) (l : Launch), spanLaunch (hear src s) src sp = some (id, l) ∧ clusterOfRank l r = some k ∧ off + bs.length ≤ 3145728 ∧ u = (hear src s).updClu k (fun c => c.store off bs)) ∧
    (∃ (src tag r sp off n : Nat) (s : State) (id : Nat) (l : Launch) (c : Cluster), spanLaunch (hear src s) src sp = some (id, l) ∧ (clusterOfRank l r).bind (hear src s).clu = some c ∧ off + n ≤ 3145728) ∧
    (∃ (src r sp sem : Nat) (v : Word) (s : State) (id k : Nat) (l : Launch), spanLaunch (hear src s) src sp = some (id, l) ∧ clusterOfRank l r = some k) ∧
    (∃ (src i sp n : Nat) (s : State) (id : Nat) (l : Launch), spanLaunch (hear src s) src sp = some (id, l) ∧ (l.span[i]?).any (fun m => m.1 == src) = true) ∧
    (∃ (src i sp n : Nat) (s : State) (id : Nat) (l : Launch), spanLaunch (hear src s) src sp = some (id, l) ∧ (l.span[i]?).any (fun m => m.1 == src) = false) ∧
    (∃ (src tag sp off : Nat) (bs : List Byte) (s : State), taggedMove (hear src s) src tag = none) ∧
    (∃ (src sp n : Nat) (s : State) (id : Nat) (l : Launch), spanLaunch (hear src s) src sp = some (id, l) ∧ (∀ k ∈ l.clusters, ∀ c, (hear src s).clu k = some c → c.moves = [])) :=
  ⟨⟨3, 0, 0, 0, 0, 0, 0, [], [], 0, State.reset, .spanAck 3 0 0, by decide +kernel, by simp⟩,
    ⟨7, 0, 5, 0, [1], (twoSleds.updLch 0 (fun l => { l with clusters := [] })), 0, { twoSledsL with clusters := [] }, by decide +kernel⟩,
    ⟨7, 0, 5, 0, [1], twoSleds, 0, twoSledsL, by decide +kernel⟩,
    ⟨7, 0, 5, 0, [1], (twoSleds.updLch 0 (fun l => { l with clusters := [] })), 0, { twoSledsL with clusters := [] }, by decide +kernel⟩,
    ⟨7, 0, 5, 0, [1], twoSleds, 0, twoSledsL, by decide +kernel⟩,
    ⟨7, 6, 0, 5, 0, [1], twoSleds, (hear 7 twoSleds).updClu 0 (fun c => c.store 0 [1]), 0, 0, twoSledsL, by decide +kernel⟩,
    ⟨7, 6, 0, 5, 0, 4, twoSleds, 0, twoSledsL, theCluster twoSleds, by decide +kernel⟩,
    ⟨7, 0, 5, 2, 3, twoSleds, 0, 0, twoSledsL, by decide +kernel⟩,
    ⟨7, 1, 5, 1, twoSleds, 0, twoSledsL, by decide +kernel⟩,
    ⟨7, 0, 5, 1, twoSleds, 0, twoSledsL, by decide +kernel⟩,
    ⟨7, 6, 5, 0, [1], twoSleds, by decide +kernel⟩,
    ⟨7, 5, 1, (twoSleds.updLch 0 (fun l => { l with clusters := [] })), 0, { twoSledsL with clusters := [] }, by decide +kernel, fun k h => absurd h (List.not_mem_nil)⟩⟩

/-- What meets the hypotheses of SpanMessagesAndSiteTime. -/
theorem witness_SpanMessagesAndSiteTime_2 :
    (∃ (s : State), s.bit Reg.LNK_TIME_PARENT 5 = true) ∧
    (∃ (s : State), s.bit Reg.LNK_TIME_PARENT 5 = false ∧ s.portUp (s.fld Reg.LNK_TIME_PARENT 0 5) = false ∧ s.lnk.sync.misses < 2) ∧
    (∃ (s : State), s.bit Reg.LNK_TIME_PARENT 5 = false ∧ (s.lnk.sync.t1.isSome = true ∨ s.portUp (s.fld Reg.LNK_TIME_PARENT 0 5) = false) ∧ 2 ≤ s.lnk.sync.misses) ∧
    (∃ (s : State) (x : Nat × State), s.bit Reg.LNK_TIME_PARENT 5 = false ∧ s.portUp (s.fld Reg.LNK_TIME_PARENT 0 5) = true ∧ s.lnk.sync.t1 = none ∧ s.lnk.sync.misses < 3 ∧ x = linkTicks s) ∧
    (∃ (p q t : Nat) (s : State), p < 18) ∧
    (∃ (p q t : Nat) (s : State), p < 18) ∧
    (∃ (p q a b c : Nat) (lk : Bool) (st : Nat) (rp : Bool) (s : State), p < 18 ∧ p ≠ s.fld Reg.LNK_TIME_PARENT 0 5) ∧
    (∃ (q a b c : Nat) (lk : Bool) (st : Nat) (s : State) (p : Nat), p < 18 ∧ p = s.fld Reg.LNK_TIME_PARENT 0 5 ∧ (s.lnk.sync.t1 = none ∨ q ≠ s.lnk.sync.seq)) ∧
    (∃ (q a b c : Nat) (lk : Bool) (st : Nat) (s : State) (p : Nat), p < 18 ∧ p = s.fld Reg.LNK_TIME_PARENT 0 5) ∧
    (∃ (q a b c : Nat) (lk : Bool) (st : Nat) (s : State) (p t1 : Nat), p < 18 ∧ p = s.fld Reg.LNK_TIME_PARENT 0 5 ∧ s.lnk.sync.t1 = some t1 ∧ q = s.lnk.sync.seq ∧ s.lnk.sync.locked = false) ∧
    (∃ (q a b c : Nat) (lk : Bool) (st : Nat) (s : State) (p t1 : Nat), p < 18 ∧ p = s.fld Reg.LNK_TIME_PARENT 0 5 ∧ s.lnk.sync.t1 = some t1 ∧ q = s.lnk.sync.seq ∧ s.lnk.sync.locked = true) :=
  ⟨⟨State.reset.setBit Reg.LNK_TIME_PARENT 5 true, by decide +kernel⟩,
    ⟨State.reset.setBit Reg.LNK_TIME_PARENT 5 false, by decide +kernel⟩,
    ⟨{ State.reset.setBit Reg.LNK_TIME_PARENT 5 false with lnk := { State.reset.lnk with sync := { misses := 2 } } }, by decide +kernel⟩,
    ⟨{ syncing false with lnk := { (syncing false).lnk with sync := {} } }, linkTicks { syncing false with lnk := { (syncing false).lnk with sync := {} } }, by decide +kernel, by decide +kernel, by decide +kernel, by decide +kernel, rfl⟩,
    ⟨0, 4, 0, onP 5, by decide +kernel⟩,
    ⟨0, 4, 0, onP 5, by decide +kernel⟩,
    ⟨1, 4, 0, 0, 0, true, 0, false, syncing false, by decide +kernel⟩,
    ⟨5, 0, 0, 0, true, 0, syncing false, 0, by decide +kernel⟩,
    ⟨4, 0, 0, 0, true, 0, syncing false, 0, by decide +kernel⟩,
    ⟨4, 0, 0, 0, true, 0, syncing false, 0, 100, by decide +kernel⟩,
    ⟨4, 0, 0, 0, true, 0, syncing true, 0, 100, by decide +kernel⟩⟩

/-- What meets the hypotheses of HostInterfaceEvents. -/
theorem witness_HostInterfaceEvents :
    (∃ (f : Nat) (win : Option Nat) (v : Word) (s : State), f < 32 ∧ reaches s f win = true) ∧
    (∃ (f : Nat) (win : Option Nat) (v : Word) (s : State), f < 32 ∧ reaches s f win = false) ∧
    (∃ (f : Nat) (win : Option Nat) (v : Word) (s : State), f < 32 ∧ reaches s f win = true ∧ 100 ≤ bits v.toNat 0 16 ∧ bits v.toNat 0 16 ≤ 60000) ∧
    (∃ (f : Nat) (win : Option Nat) (v : Word) (s : State), f < 32 ∧ reaches s f win = true ∧ (bits v.toNat 0 16 < 100 ∨ 60000 < bits v.toNat 0 16)) ∧
    (∃ (f : Nat) (win : Option Nat) (v : Word) (s : State), f < 32 ∧ reaches s f win = false) ∧
    (∃ (f : Nat) (s : State), 0 < f ∧ f < 32 ∧ (s.fn f).leaseLive = true ∧ (s.fn f).leaseAt + 1000 * s.fnRd f Reg.TW_LEASE_PERIOD < s.tb) ∧
    (∃ (f : Nat) (s : State), 0 < f ∧ f < 32 ∧ ((s.fn f).leaseLive = false ∨ s.tb ≤ (s.fn f).leaseAt + 1000 * s.fnRd f Reg.TW_LEASE_PERIOD)) ∧
    (∃ (s : State), (s.fn 0).leaseLive = true ∧ (s.fn 0).leaseAt + 1000 * s.fnRd 0 Reg.TW_LEASE_PERIOD < s.tb) ∧
    (∃ (s : State), ((s.fn 0).leaseLive = false ∨ s.tb ≤ (s.fn 0).leaseAt + 1000 * s.fnRd 0 Reg.TW_LEASE_PERIOD)) ∧
    (∃ (f : Nat) (w : Bool) (s : State), f < 32 ∧ (s.fn f).wrStalled = true) ∧
    (∃ (f : Nat) (s : State), f < 32 ∧ (s.fn f).wrStalled = false) ∧
    (∃ (f : Nat) (s : State), f < 32 ∧ (s.fn f).wq = []) :=
  ⟨⟨0, none, 0, hosted, by decide +kernel⟩,
    ⟨1, none, 0, State.reset, by decide +kernel⟩,
    ⟨0, none, 500, hosted, by decide +kernel⟩,
    ⟨0, none, 60001, hosted, by decide +kernel⟩,
    ⟨1, none, 0, State.reset, by decide +kernel⟩,
    ⟨1, twoFns, by decide +kernel⟩,
    ⟨1, State.reset, by decide +kernel⟩,
    ⟨{ hosted with tb := 60000001 }, by decide +kernel⟩,
    ⟨hosted, by decide +kernel⟩,
    ⟨0, true, wrStalled_, by decide +kernel⟩,
    ⟨0, hosted, by decide +kernel⟩,
    ⟨0, hosted, by decide +kernel⟩⟩

/-- What meets the hypotheses of HostInterfaceEvents. -/
theorem witness_HostInterfaceEvents_2 :
    (∃ (f : Nat) (s : State), f < 32 ∧ (s.fn f).wrStalled = false) ∧
    (∃ (f : Nat) (s : State), f < 32 ∧ (s.fn f).blocked = false ∧ (s.fn f).wrStalled = true) ∧
    (∃ (tag : Nat) (s : State) (r : HostRead), s.reads.find? (fun (r : HostRead) => r.tag == tag) = some r ∧ r.since + 1000 * s.rdN Reg.HIF_STALL_TO ≤ s.tb) ∧
    (∃ (tag : Nat) (s : State) (r : HostRead), s.reads.find? (fun (r : HostRead) => r.tag == tag) = some r ∧ s.tb < r.since + 1000 * s.rdN Reg.HIF_STALL_TO) ∧
    (∃ (tag : Nat) (s : State), s.reads.find? (fun (r : HostRead) => r.tag == tag) = none) ∧
    (∃ (tag : Nat) (d : List Nat) (s : State) (r : HostRead), s.reads.find? (fun (r : HostRead) => r.tag == tag) = some r ∧ (s.fn r.fn).blocked = false ∧ d.length = r.len) ∧
    (∃ (tag : Nat) (d : List Nat) (s : State) (r : HostRead), s.reads.find? (fun (r : HostRead) => r.tag == tag) = some r ∧ ((s.fn r.fn).blocked = true ∨ d.length ≠ r.len)) ∧
    (∃ (tag : Nat) (d : List Nat) (s : State), s.reads.find? (fun (r : HostRead) => r.tag == tag) = none) ∧
    (∃ (f : Nat) (s : State), f < 32) ∧
    (∃ (acc : HostAccess) (s : State), ((∃ tag, acc = .read tag ∧ s.reads.find? (fun (r : HostRead) => r.tag == tag) = none) ∨ (∃ id, acc = .move id ∧ s.move id = none))) ∧
    (∃ (tag id : Nat) (s : State) (r : HostRead), s.reads.find? (fun (r : HostRead) => r.tag == tag) = some r ∧ r.use = .write id) ∧
    (∃ (tag id : Nat) (s : State) (r : HostRead), s.reads.find? (fun (r : HostRead) => r.tag == tag) = some r ∧ r.use = .write id) :=
  ⟨⟨0, hosted, by decide +kernel⟩,
    ⟨0, wrStalled_, by decide +kernel⟩,
    ⟨2, readingHost, aRead, by decide +kernel⟩,
    ⟨2, { readingHost with tb := 0 }, aRead, by decide +kernel⟩,
    ⟨2, hosted, by decide +kernel⟩,
    ⟨2, [7], readingHost, aRead, by decide +kernel⟩,
    ⟨2, [], readingHost, aRead, by decide +kernel⟩,
    ⟨2, [], hosted, by decide +kernel⟩,
    ⟨0, hosted, by decide +kernel⟩,
    ⟨.read 2, hosted, .inl ⟨2, rfl, by decide +kernel⟩⟩,
    ⟨2, 9, readingHost, aRead, by decide +kernel⟩,
    ⟨2, 9, readingHost, aRead, by decide +kernel⟩⟩

/-- What meets the hypotheses of HostInterfaceEvents. -/
theorem witness_HostInterfaceEvents_3 :
    (∃ (id : Nat) (s : State) (m : Move), s.move id = some m ∧ m.src = 3) ∧
    (∃ (sl q : Nat) (s : State), (s.que sl q).st = .active) ∧
    (∃ (f v : Nat) (s : State), f < 32 ∧ v < (if f = 0 then 2048 else 64)) ∧
    (∃ (f : Nat) (s : State), f < 32) ∧
    (∃ (f : Nat) (s : State), f < 32) ∧
    (∃ (st a b f : Nat) (s : State), st < 2 ∧ a < 32 ∧ b < 32 ∧ f < 32) ∧
    (∃ (f : Nat) (s : State), 0 < f ∧ f < 32 ∧ f ≤ s.hif.vfs) ∧
    (∃ (f : Nat) (s : State), 0 < f ∧ f < 32 ∧ s.hif.vfs < f) ∧
    (∃ (k sp w : Nat) (s : State), sp < 7 ∧ w < 17) ∧
    (∃ (f : Nat) (s : State), f < 32) :=
  ⟨⟨3, onTheMove 3 1, aMove 3 1, by decide +kernel⟩,
    ⟨0, 0, ringing, by decide +kernel⟩,
    ⟨0, 3, hosted, by decide +kernel⟩,
    ⟨0, hosted, by decide +kernel⟩,
    ⟨0, hosted, by decide +kernel⟩,
    ⟨0, 1, 3, 2, hosted, by decide +kernel⟩,
    ⟨1, twoFns, by decide +kernel⟩,
    ⟨1, hosted, by decide +kernel⟩,
    ⟨0, 6, 16, hosted, by decide +kernel⟩,
    ⟨0, hosted, by decide +kernel⟩⟩

/-- What meets the hypotheses of ConvertersAndCalibration. -/
theorem witness_ConvertersAndCalibration :
    (∃ (n : Nat) (nv : Int) (s : State), n < 4 ∧ s.hld.ph = .supplied) ∧
    (∃ (n : Nat) (nv : Int) (s : State), n < 4 ∧ s.hld.ph ≠ .supplied) ∧
    (∃ (ch : Nat) (s u : State), ch < 8 ∧ u = unsettle ch (s.bump (Reg.ADC_SD_RESETS ch)) ∧ u.adc.sdCal = none) ∧
    (∃ (cv : Option Nat) (i p : Nat) (s : State), urgUnit cv = true ∧ i < 16 ∧ 4 < p) ∧
    (∃ (n i p : Nat) (s : State), n < 4 ∧ i < 16 ∧ p ≤ 4 ∧ icRetired s n = true) ∧
    (∃ (n i p : Nat) (s : State), n < 4 ∧ i < 16 ∧ p ≤ 4 ∧ icRetired s n = false ∧ urgHeld s n = true) ∧
    (∃ (n i p : Nat) (s : State), n < 4 ∧ i < 16 ∧ p ≤ 4 ∧ icRetired s n = false ∧ urgHeld s n = false) ∧
    (∃ (cv : Option Nat) (i p : Nat) (s : State), urgUnit cv = true ∧ i < 16 ∧ 4 < p) ∧
    (∃ (n i p : Nat) (s : State), n < 4 ∧ i < 16 ∧ p ≤ 4 ∧ icRetired s n = false ∧ icIdle s n = false) ∧
    (∃ (n i p : Nat) (s : State), n < 4 ∧ i < 16 ∧ p ≤ 4 ∧ icIdle s n = true) ∧
    (∃ (s : State), (∀ ch, ch < 8 → decEn (commitTake s Reg.ADC_SD_COMMIT sdGroup) ch = true)) ∧
    (∃ (s : State), (stagedOf s icGroup).any icReserved = true) :=
  ⟨⟨0, 5, State.reset, by decide +kernel⟩,
    ⟨0, 5, { State.reset with hld := { State.reset.hld with ph := .off } }, by decide +kernel⟩,
    ⟨0, State.reset, unsettle 0 (State.reset.bump (Reg.ADC_SD_RESETS 0)), by decide +kernel⟩,
    ⟨some 1, 0, 5, State.reset, by decide +kernel⟩,
    ⟨1, 0, 0, State.reset.setBit (Reg.ADC_IC_STATUS 1) 3 true, by decide +kernel⟩,
    ⟨1, 0, 0, State.reset.updIc 1 (fun c => { c with urg := some ⟨.pf, 0, 0, 0⟩ }), by decide +kernel⟩,
    ⟨1, 0, 0, State.reset, by decide +kernel⟩,
    ⟨some 1, 0, 5, State.reset, by decide +kernel⟩,
    ⟨1, 0, 0, State.reset.updIc 1 (fun c => { c with urg := some ⟨.pf, 0, 0, 0⟩ }), by decide +kernel⟩,
    ⟨1, 0, 0, State.reset.updIc 1 (fun _ => {}), by decide +kernel⟩,
    ⟨allDec, by decide +kernel⟩,
    ⟨{ State.reset with staged := [(Reg.ADC_IC_CFG, 7 * 1024)] }, by decide +kernel⟩⟩

/-- What meets the hypotheses of ConvertersAndCalibration. -/
theorem witness_ConvertersAndCalibration_2 :
    (∃ (s : State), (stagedOf s icGroup).any icReserved = false) ∧
    (∃ (s : State), s.adc.sdCal.isSome = true) ∧
    (∃ (s : State), s.adc.sdCal = none) ∧
    (∃ (z r : List Nat) (s : State), s.adc.sdCal = none) ∧
    (∃ (z r : List Nat) (s : State), s.adc.sdCal.isSome = true ∧ (∀ ch, ch < 8 → sdRetired s ch = true)) ∧
    (∃ (z r : List Nat) (s : State) (ch : Nat), sdRetired s ch = false ∧ z.getD ch 0 = 12288 ∧ r.getD ch 0 = 22118 ∧ s.adc.sdClip.contains ch = false) ∧
    (∃ (s : State), s.adc.calQueue ≠ []) ∧
    (∃ (s : State), s.adc.calQueue = []) ∧
    (∃ (s : State), (∀ n, n < 4 → icRetired s n = true)) ∧
    (∃ (s u : State), s.adc.refNext < 4 ∧ icRetired s s.adc.refNext = false ∧ u = s.updIc s.adc.refNext (fun c => { c with refDue := true })) ∧
    (∃ (full ic : Bool) (t i g : Nat) (s : State), t < 8 ∧ i < 16 ∧ s.bit Reg.ADC_SYSCAL_STATUS 0 = true) ∧
    (∃ (t i g : Nat) (s : State), t < 8 ∧ i < 16 ∧ s.bit Reg.ADC_SYSCAL_STATUS 0 = false) :=
  ⟨⟨State.reset, by decide +kernel⟩,
    ⟨sdCaling, by decide +kernel⟩,
    ⟨State.reset, by decide +kernel⟩,
    ⟨[], [], State.reset, by decide +kernel⟩,
    ⟨[], [], (List.range 8).foldl (fun s ch => s.setBit (Reg.ADC_SD_STATUS ch) 4 true) sdCaling, by decide +kernel⟩,
    ⟨[12288], [22118], State.reset, 0, by decide +kernel⟩,
    ⟨{ State.reset with adc := { State.reset.adc with calQueue := [1] } }, by decide +kernel⟩,
    ⟨{ State.reset with adc := { State.reset.adc with calQueue := [] } }, by decide +kernel⟩,
    ⟨(List.range 4).foldl (fun s n => s.setBit (Reg.ADC_IC_STATUS n) 3 true) State.reset, by decide +kernel⟩,
    ⟨State.reset, State.reset.updIc 0 (fun c => { c with refDue := true }), by decide +kernel⟩,
    ⟨true, false, 3, 0, 0, State.reset.setBit Reg.ADC_SYSCAL_STATUS 0 true, by decide +kernel⟩,
    ⟨3, 0, 0, State.reset, by decide +kernel⟩⟩

/-- What meets the hypotheses of ConvertersAndCalibration. -/
theorem witness_ConvertersAndCalibration_3 :
    (∃ (t i g : Nat) (s : State), 3 < t ∧ t < 8 ∧ i < 16 ∧ s.bit Reg.ADC_SYSCAL_STATUS 0 = false) ∧
    (∃ (ic : Bool) (t i g : Nat) (s : State), t < 8 ∧ i < 16 ∧ s.bit Reg.ADC_SYSCAL_STATUS 0 = false ∧ (s.adc.zeroOk.contains (sysKey ic t i g) = false ∨ (signed 24 (s.rdN Reg.ADC_SYSCAL_REF)).natAbs < 2 ^ 21)) ∧
    (∃ (t i g : Nat) (s : State), t < 8 ∧ i < 16 ∧ s.bit Reg.ADC_SYSCAL_STATUS 0 = false ∧ s.adc.zeroOk.contains (sysKey false t i g) = true ∧ 2 ^ 21 ≤ (signed 24 (s.rdN Reg.ADC_SYSCAL_REF)).natAbs) ∧
    (∃ (s : State), (∀ x, s.adc.syscal = some x → x.count < 16)) ∧
    (∃ (s : State) (x : SysCal), s.adc.syscal = some x ∧ 16 ≤ x.count) ∧
    (∃ (ch : Nat) (s : State), ch < 8 ∧ (ch < 3 ∨ ch = 7 ∨ s.bit (Reg.ADC_SD_CFG ch) 3 = false ∨ s.fld (Reg.ADC_SD_CFG ch) 19 3 ≤ gainOf s ch ∨ mget s.adc.low ch = none)) ∧
    (∃ (ch t : Nat) (s : State), 3 ≤ ch ∧ ch < 7 ∧ s.bit (Reg.ADC_SD_CFG ch) 3 = true ∧ gainOf s ch < s.fld (Reg.ADC_SD_CFG ch) 19 3 ∧ mget s.adc.low ch = some t ∧ t + 1000000 ≤ s.tb) :=
  ⟨⟨4, 0, 0, State.reset, by decide +kernel⟩,
    ⟨false, 3, 0, 0, State.reset, by decide +kernel⟩,
    ⟨3, 0, 0, { State.reset.putN Reg.ADC_SYSCAL_REF 0x400000 with adc := { State.reset.adc with zeroOk := [sysKey false 3 0 0] } }, by decide +kernel⟩,
    ⟨State.reset, ofNone (by decide +kernel)⟩,
    ⟨sysDone, ⟨false, 3, 0, 0, false, 0, 16, ⟨0, 1⟩, false⟩, by decide +kernel⟩,
    ⟨0, State.reset, by decide +kernel⟩,
    ⟨3, 0, { ((State.reset.setBit (Reg.ADC_SD_CFG 3) 3 true).setFld (Reg.ADC_SD_CFG 3) 19 3 4) with tb := 1000000, adc := { State.reset.adc with low := [(3, 0)] } }, by decide +kernel⟩⟩

/-- What meets the hypotheses of DecimationChain. -/
theorem witness_DecimationChain :
    (∃ (ch : Nat) (ones : List Bool) (s : State), ch < 8 ∧ (decEn s ch = false ∨ s.tb < decDue s ch / 640 ∨ s.hld.ph ≠ .supplied ∨ s.dec.stopped = true)) ∧
    (∃ (ch : Nat) (ones : List Bool) (s u : State), ch < 8 ∧ decEn s ch = true ∧ decDue s ch / 640 ≤ s.tb ∧ s.hld.ph = .supplied ∧ s.dec.stopped = false ∧ ch ≠ 0 ∧ s.adc.sdCal.isSome = true ∧ u = s.updDch ch (fun d => { d with winLen := (windows ones (s.dch ch)).winLen, winOnes := (windows ones (s.dch ch)).winOnes, ovrSpan := (windows ones (s.dch ch)).ovrSpan })) ∧
    (∃ (ch : Nat) (ones : List Bool) (s : State), ch < 8 ∧ decEn s ch = true ∧ decDue s ch / 640 ≤ s.tb ∧ s.hld.ph = .supplied ∧ s.dec.stopped = false ∧ ch ≠ 0 ∧ s.adc.sdCal = none ∧ sdRetired s ch = false ∧ respOf s ch = 7) ∧
    (∃ (ch : Nat) (ones : List Bool) (s : State), ch < 8 ∧ decEn s ch = true ∧ decDue s ch / 640 ≤ s.tb ∧ s.hld.ph = .supplied ∧ s.dec.stopped = false ∧ ch ≠ 0 ∧ s.adc.sdCal = none ∧ sdRetired s ch = false ∧ respOf s ch ≠ 7) ∧
    (∃ (s : State), decBad s = true) ∧
    (∃ (s : State), decBad s = false ∧ decEn (commitTake s Reg.DEC_COMMIT decGroup) 0 = true) ∧
    (∃ (f : Nat) (s : State), s.bit Reg.DEC_MODE 1 = false) ∧
    (∃ (f : Nat) (s : State), s.bit Reg.DEC_MODE 1 = true ∧ s.dec.syncs.any (fun x => decide (pll s + f < x.1 + 3200 ∧ x.1 ≤ pll s + f + 3200)) = true) ∧
    (∃ (f : Nat) (s : State), s.bit Reg.DEC_MODE 1 = true ∧ s.dec.syncs = [] ∧ s.rdN Reg.DEC_SYNC_STEPS = 0 ∧ s.rdN Reg.DEC_SYNC_ALIGNED = 0) ∧
    (∃ (s u : State), u = State.setBit { s with dec := { s.dec with syncs := s.dec.syncs.filter (fun x => !x.2) } } Reg.DEC_CTRL 1 true ∧ s.tb ≤ s.rdN Reg.DEC_SYNC_AT) ∧
    (∃ (s u : State), u = State.setBit (State.setBit { s with dec := { s.dec with syncs := s.dec.syncs.filter (fun x => !x.2) } } Reg.DEC_CTRL 1 true) Reg.DEC_STATUS 1 true ∧ s.rdN Reg.DEC_SYNC_AT < s.tb) ∧
    (∃ (s : State), s.dec.syncs.filter (fun x => decide (x.1 / 640 ≤ s.tb)) = []) :=
  ⟨⟨0, [], State.reset, by decide +kernel⟩,
    ⟨1, [], { decOn 1 2 with adc := { (decOn 1 2).adc with sdCal := some 0 } }, { decOn 1 2 with adc := { (decOn 1 2).adc with sdCal := some 0 } }, by decide +kernel, by decide +kernel, by decide +kernel, by decide +kernel, by decide +kernel, by decide +kernel, by decide +kernel, by decide +kernel⟩,
    ⟨1, [], decOn 1 7, by decide +kernel⟩,
    ⟨1, [], decOn 1 0, by decide +kernel⟩,
    ⟨{ State.reset with staged := [(Reg.DEC_CFG 1, 2048), (Reg.DEC_MODE, 0)] }, by decide +kernel⟩,
    ⟨decOn 0 2, by decide +kernel⟩,
    ⟨0, State.reset.setBit Reg.DEC_MODE 1 false, by decide +kernel⟩,
    ⟨0, { State.reset.setBit Reg.DEC_MODE 1 true with dec := { State.reset.dec with syncs := [(5, false)] } }, by decide +kernel⟩,
    ⟨0, State.reset.setBit Reg.DEC_MODE 1 true, by decide +kernel⟩,
    ⟨State.reset, State.setBit State.reset Reg.DEC_CTRL 1 true, by decide +kernel⟩,
    ⟨{ State.reset with tb := 5 }, State.setBit (State.setBit { State.reset with tb := 5 } Reg.DEC_CTRL 1 true) Reg.DEC_STATUS 1 true, by decide +kernel⟩,
    ⟨State.reset, by decide +kernel⟩⟩

/-- What meets the hypotheses of DecimationChain. -/
theorem witness_DecimationChain_2 :
    (∃ (a : Nat) (s : State), s.dec.syncs = [(a, false)] ∧ a / 640 ≤ s.tb) ∧
    (∃ (a : Nat) (s : State), s.dec.syncs = [(a, true)] ∧ a / 640 ≤ s.tb) ∧
    (∃ (a : Nat) (s : State), decEn s 0 = true ∧ s.dec.origin < a ∧ (a - s.dec.origin) % (50 * decRatio (respOf s 0)) ≠ 0) ∧
    (∃ (m : Nat) (s : State), s.bit Reg.DEC_CAP_CTRL 9 = true) ∧
    (∃ (m : Nat) (s u : State), s.bit Reg.DEC_CAP_CTRL 9 = false ∧ u = { s.putN Reg.DEC_CAP_CTRL (m % 256 + 512) with dec := { s.dec with capGot := [] } } ∧ capChans u ≠ []) :=
  ⟨⟨5, { State.reset with dec := { State.reset.dec with syncs := [(5, false)] } }, by decide +kernel⟩,
    ⟨5, { State.reset with dec := { State.reset.dec with syncs := [(5, true)] } }, by decide +kernel⟩,
    ⟨9, decOn 0 2, by decide +kernel⟩,
    ⟨1, State.reset.setBit Reg.DEC_CAP_CTRL 9 true, by decide +kernel⟩,
    ⟨1, decOn 0 2, { (decOn 0 2).putN Reg.DEC_CAP_CTRL 513 with dec := { (decOn 0 2).dec with capGot := [] } }, by decide +kernel⟩⟩

/-- What meets the hypotheses of MeteringCommands. -/
theorem witness_MeteringCommands :
    (∃ (sl cr : Bool) (n : Nat) (l : List (List Int)) (s : State), s.hld.ph ≠ .supplied) ∧
    (∃ (cr : Bool) (n : Nat) (l : List (List Int)) (s : State), s.hld.ph = .supplied) ∧
    (∃ (n : Nat) (l : List (List Int)) (s : State), s.hld.ph = .supplied) ∧
    (∃ (n : Nat) (l : List (List Int)) (s : State), s.hld.ph = .supplied ∧ (s.tb % 20000 ≠ 0 ∨ s.tb = 0 ∨ (mtrAc s = true ∧ freqValid s = true))) ∧
    (∃ (n : Nat) (l : List (List Int)) (s : State), s.hld.ph = .supplied ∧ s.tb % 20000 = 0 ∧ s.tb ≠ 0 ∧ (mtrAc s = false ∨ freqValid s = false)) ∧
    (∃ (st n : Nat) (l : List (List Int)) (s : State), s.mtr.cycAt = st ∧ mtrElems (mtrMode s) = []) ∧
    (∃ (s : State), freqValid s = true ∧ s.mtr.crossAt + 40000 ≤ s.tb) ∧
    (∃ (s : State), (freqValid s = false ∨ s.tb < s.mtr.crossAt + 40000)) ∧
    (∃ (e : Nat) (l : List Int) (s : State), e < 3 ∧ (s.hld.ph ≠ .supplied ∨ mtrAc s = false ∨ (mtrElems (mtrMode s)).any (fun x => x.1 == e) = false)) ∧
    (∃ (e : Nat) (l : List Int) (s : State), e < 3 ∧ s.hld.ph = .supplied ∧ mtrAc s = true ∧ (mtrElems (mtrMode s)).any (fun x => x.1 == e) = true ∧ mget s.mtr.half e = none) ∧
    (∃ (k : Nat) (s : State), k < 3 ∧ (s.hld.ph ≠ .supplied ∨ s.bit Reg.MTR_CFG 6 = false ∨ cfFree s k = false ∨ ((s.cfo k).due = false ∧ s.rdN (Reg.MTR_CF_BACKLOG k) = 0))) ∧
    (∃ (k : Nat) (s : State), k < 3 ∧ s.hld.ph = .supplied ∧ s.bit Reg.MTR_CFG 6 = true ∧ cfFree s k = true ∧ (s.cfo k).due = true) :=
  ⟨⟨true, false, 0, [], lodgeOff, by decide +kernel⟩,
    ⟨false, 0, [], State.reset, by decide +kernel⟩,
    ⟨0, [], State.reset, by decide +kernel⟩,
    ⟨0, [], State.reset, by decide +kernel, .inr (.inl (by decide +kernel))⟩,
    ⟨0, [], { State.reset with tb := 20000 }, by decide +kernel, by decide +kernel, by decide +kernel, .inl (by decide +kernel)⟩,
    ⟨0, 0, [], State.reset, by decide +kernel⟩,
    ⟨{ State.reset.setBit Reg.MTR_STATUS 2 true with tb := 50000 }, by decide +kernel⟩,
    ⟨State.reset, .inr (by decide +kernel)⟩,
    ⟨0, [], lodgeOff, by decide +kernel, .inl (by decide +kernel)⟩,
    ⟨0, [], State.reset.setFld Reg.MTR_CFG 0 3 1, by decide +kernel⟩,
    ⟨0, lodgeOff, by decide +kernel, .inl (by decide +kernel)⟩,
    ⟨0, (State.reset.setBit Reg.MTR_CFG 6 true).updCf 0 (fun c => { c with due := true }), by decide +kernel⟩⟩

/-- What meets the hypotheses of MeteringCommands. -/
theorem witness_MeteringCommands_2 :
    (∃ (k : Nat) (s : State), k < 3 ∧ (s.cfo k).high = true ∧ ((s.cfo k).rise.getD 0) + (s.cfo k).width ≤ s.tb) ∧
    (∃ (k : Nat) (s : State), k < 3 ∧ ((s.cfo k).high = false ∨ s.tb < ((s.cfo k).rise.getD 0) + (s.cfo k).width)) ∧
    (∃ (s : State), s.hld.ph ≠ .off) ∧
    (∃ (s : State), mtrBad s = true) ∧
    (∃ (s : State), mtrBad s = false) ∧
    (∃ (e n : Nat) (s : State), e < 3 ∧ (s.mtr.cal.isSome = true ∨ (n ≠ 0 ∧ n < 10) ∨ 250 < n)) ∧
    (∃ (e n : Nat) (s : State), e < 3 ∧ s.mtr.cal = none ∧ 10 ≤ n ∧ n ≤ 250) ∧
    (∃ (e : Nat) (s : State), e < 3 ∧ s.mtr.cal = none) ∧
    (∃ (s : State), s.mtr.msN = 0) ∧
    (∃ (s u : State), u = { s with mtr := { s.mtr with ms := 0, msN := 0, toCap := none } } ∧ sledMeterOn s = true ∧ s.bit Reg.MTR_STATUS 9 = false ∧ s.mtr.msN ≠ 0 ∧ s.hld.ph = .supplied) :=
  ⟨⟨0, State.reset.updCf 0 (fun c => { c with high := true }), by decide +kernel⟩,
    ⟨0, State.reset, by decide +kernel⟩,
    ⟨State.reset, by decide +kernel⟩,
    ⟨{ State.reset with staged := [(Reg.MTR_CFG, 7)] }, by decide +kernel⟩,
    ⟨{ State.reset with staged := [(Reg.MTR_CFG, 0), (Reg.MTR_VNOM, 230000), (Reg.MTR_IB, 5000), (Reg.MTR_CF_CONST, 1000), (Reg.MTR_CF_WIDTH, 80)] }, by decide +kernel⟩,
    ⟨0, 5, State.reset, by decide +kernel⟩,
    ⟨0, 50, State.reset, by decide +kernel⟩,
    ⟨0, State.reset, by decide +kernel⟩,
    ⟨State.reset, by decide +kernel⟩,
    ⟨{ (State.reset.setBit Reg.MTR_CFG 8 true).setBit Reg.MTR_STATUS 9 false with mtr := { State.reset.mtr with msN := 3 } }, { (State.reset.setBit Reg.MTR_CFG 8 true).setBit Reg.MTR_STATUS 9 false with mtr := { State.reset.mtr with ms := 0, msN := 0, toCap := none } }, by decide +kernel⟩⟩

/-- What meets the hypotheses of PanelCommands. -/
theorem witness_PanelCommands :
    (∃ (c : (Nat → Nat → Instr) × Nat) (p z : Nat) (s : State), (c ∈ ([(.pnlUpdateFull, 0), (.pnlUpdatePartial, 1), (.pnlUpdateClear, 2)] : List ((Nat → Nat → Instr) × Nat))) ∧ p < 3 ∧ zonesOf z = []) ∧
    (∃ (c : (Nat → Nat → Instr) × Nat) (p z : Nat) (s : State) (d : Nat), (c ∈ ([(.pnlUpdateFull, 0), (.pnlUpdatePartial, 1), (.pnlUpdateClear, 2)] : List ((Nat → Nat → Instr) × Nat))) ∧ p < 3 ∧ zonesOf z ≠ [] ∧ updRefusal p c.2 (zonesOf z) s = some d ∧ d ≠ 3) ∧
    (∃ (c : (Nat → Nat → Instr) × Nat) (p z : Nat) (s : State), (c ∈ ([(.pnlUpdateFull, 0), (.pnlUpdatePartial, 1), (.pnlUpdateClear, 2)] : List ((Nat → Nat → Instr) × Nat))) ∧ p < 3 ∧ zonesOf z ≠ [] ∧ updRefusal p c.2 (zonesOf z) s = some 3) ∧
    (∃ (c : (Nat → Nat → Instr) × Nat) (p z : Nat) (s : State), (c ∈ ([(.pnlUpdateFull, 0), (.pnlUpdatePartial, 1), (.pnlUpdateClear, 2)] : List ((Nat → Nat → Instr) × Nat))) ∧ p < 3 ∧ zonesOf z ≠ [] ∧ updRefusal p c.2 (zonesOf z) s = none ∧ (zonesOf z).any (fun z => (mget s.pnl.run z).isSome && (mget s.pnl.pend z).isSome) = true) ∧
    (∃ (c : (Nat → Nat → Instr) × Nat) (p z : Nat) (s : State), (c ∈ ([(.pnlUpdateFull, 0), (.pnlUpdatePartial, 1), (.pnlUpdateClear, 2)] : List ((Nat → Nat → Instr) × Nat))) ∧ p < 3 ∧ zonesOf z ≠ [] ∧ updRefusal p c.2 (zonesOf z) s = none ∧ (zonesOf z).any (fun z => (mget s.pnl.run z).isSome && (mget s.pnl.pend z).isSome) = false) ∧
    (∃ (s : State), s.pnl.rails ≠ .up) ∧
    (∃ (s : State), s.pnl.rails = .up ∧ s.pnl.checking = []) ∧
    (∃ (ok : Bool) (s : State), s.pnl.rails = .down) ∧
    (∃ (n : Nat) (s : State), s.pnl.rails = .rising n) ∧
    (∃ (n : Nat) (s : State), s.pnl.rails = .rising n) ∧
    (∃ (ok : Bool) (n : Nat) (s : State), s.pnl.rails = .falling n ∧ 1 < n) ∧
    (∃ (s : State), s.pnl.holdAt = none) :=
  ⟨⟨(.pnlUpdateFull, 0), 0, 0, State.reset, by simp, by decide +kernel⟩,
    ⟨(.pnlUpdateClear, 2), 0, 1, { State.reset with pnl := { State.reset.pnl with tableOk := false } }, 6, by simp, by decide +kernel⟩,
    ⟨(.pnlUpdateClear, 2), 1, 1, State.reset, by simp, by decide +kernel⟩,
    ⟨(.pnlUpdateClear, 2), 0, 1, { State.reset with pnl := { State.reset.pnl with run := [(0, anUpd false)], pend := [(0, 2)] } }, by simp, by decide +kernel⟩,
    ⟨(.pnlUpdateClear, 2), 0, 1, State.reset, by simp, by decide +kernel⟩,
    ⟨onRails .down, by decide +kernel⟩,
    ⟨onRails .up, by decide +kernel⟩,
    ⟨true, onRails .down, by decide +kernel⟩,
    ⟨2, onRails (.rising 2), by decide +kernel⟩,
    ⟨2, onRails (.rising 2), by decide +kernel⟩,
    ⟨true, 2, onRails (.falling 2), by decide +kernel⟩,
    ⟨onRails .up, by decide +kernel⟩⟩

/-- What meets the hypotheses of PanelCommands. -/
theorem witness_PanelCommands_2 :
    (∃ (t : Nat) (s : State), s.pnl.holdAt = some t ∧ s.pnl.rails = .up ∧ scanning s = false ∧ s.pnl.run = [] ∧ t + 1000 * s.fld Reg.PNL_CFG 16 14 ≤ s.tb) ∧
    (∃ (t : Nat) (s : State), s.pnl.holdAt = some t ∧ s.tb < t + 1000 * s.fld Reg.PNL_CFG 16 14) ∧
    (∃ (s : State), (s.pnl.rails = .up ∨ ∃ n, s.pnl.rails = .rising n)) ∧
    (∃ (s : State), s.pnl.rails = .down) ∧
    (∃ (s : State), s.pnl.failAt = none) ∧
    (∃ (t : Nat) (s : State), s.pnl.failAt = some t ∧ t + 100000 ≤ s.tb ∧ s.pnl.rails = .down) ∧
    (∃ (t : Nat) (s : State), s.pnl.failAt = some t ∧ s.tb < t + 100000) ∧
    (∃ (p o : Nat) (v : Word) (s : State), o < 30000 ∧ p < 3 ∧ (o < 4000 ∨ p ≠ s.rdN Reg.PNL_BODY_OWN ∨ p = 0)) ∧
    (∃ (p o : Nat) (v : Word) (s : State), o < 30000 ∧ 4000 ≤ o ∧ p < 3 ∧ p = s.rdN Reg.PNL_BODY_OWN ∧ p ≠ 0 ∧ (mget s.pnl.run 1).isSome = true) ∧
    (∃ (p o : Nat) (v : Word) (s : State), o < 30000 ∧ 4000 ≤ o ∧ p < 3 ∧ p = s.rdN Reg.PNL_BODY_OWN ∧ p ≠ 0 ∧ mget s.pnl.run 1 = none) ∧
    (∃ (k : Nat) (s : State), k ≠ 0x7AB1) ∧
    (∃ (s u : State), u = State.setBit { s with pnl := { s.pnl with waiting := some (stagedSet s) } } Reg.PNL_TBL_STATUS 17 true) :=
  ⟨⟨0, { State.reset with tb := 20000000, pnl := { State.reset.pnl with rails := .up, holdAt := some 0 } }, by decide +kernel⟩,
    ⟨5, { State.reset with pnl := { State.reset.pnl with rails := .up, holdAt := some 5 } }, by decide +kernel⟩,
    ⟨onRails .up, .inl (by decide +kernel)⟩,
    ⟨onRails .down, by decide +kernel⟩,
    ⟨State.reset, by decide +kernel⟩,
    ⟨0, { State.reset with tb := 100000, pnl := { State.reset.pnl with failAt := some 0 } }, by decide +kernel⟩,
    ⟨0, { State.reset with pnl := { State.reset.pnl with failAt := some 0 } }, by decide +kernel⟩,
    ⟨1, 0, 0, State.reset, by decide +kernel⟩,
    ⟨1, 4000, 0, { State.reset.putN Reg.PNL_BODY_OWN 1 with pnl := { State.reset.pnl with run := [(1, anUpd true)] } }, by decide +kernel⟩,
    ⟨1, 4000, 0, State.reset.putN Reg.PNL_BODY_OWN 1, by decide +kernel⟩,
    ⟨0, State.reset, by decide +kernel⟩,
    ⟨State.reset, State.setBit { State.reset with pnl := { State.reset.pnl with waiting := some (stagedSet State.reset) } } Reg.PNL_TBL_STATUS 17 true, rfl⟩⟩

/-- What meets the hypotheses of PanelCommands. -/
theorem witness_PanelCommands_3 :
    (∃ (s u : State), u = commitTake s Reg.PNL_COMMIT pnlGroup) ∧
    (∃ (o : Nat) (s : State), o ≤ 2) ∧
    (∃ (o : Nat) (s : State), 2 < o) ∧
    (∃ (s u : State), u = s.bump Reg.PNL_WAKE_CNT) ∧
    (∃ (t : Nat) (s : State), s.pnl.wakeUntil = some t ∧ t ≤ s.tb) ∧
    (∃ (s : State), (∀ t, s.pnl.wakeUntil = some t → s.tb < t)) :=
  ⟨⟨State.reset, commitTake State.reset Reg.PNL_COMMIT pnlGroup, by decide +kernel⟩,
    ⟨1, State.reset, by decide +kernel⟩,
    ⟨3, State.reset, by decide +kernel⟩,
    ⟨State.reset, State.reset.bump Reg.PNL_WAKE_CNT, by decide +kernel⟩,
    ⟨0, { State.reset with pnl := { State.reset.pnl with wakeUntil := some 0 } }, by decide +kernel⟩,
    ⟨State.reset, ofNone (by decide +kernel)⟩⟩

/-- What meets the hypotheses of SidebandAndServicePort. -/
theorem witness_SidebandAndServicePort :
    (∃ (st a d n : Nat) (e : Bool) (cb : BitVec 4) (v : Word) (bs : List Byte) (dn : List Bool) (dw : DWord) (s : State) (c : Instr), c ∈ ([.strapSample st e cb, .ldgLocationWrite v, .sidebandAddressWrite bs, .sidebandRead n, .setdasa a d, .setaasa, .entdaa d, .rstdaa, .getpid, .getbcr, .getdcr, .getstatus, .svcPresenceChange e, .bypass e dn, .idcode e, .extest e dn, .samplePreload e dn, .regacc dw, .unlock bs] : List Instr) ∧ s.hld.ph = .off) ∧
    (∃ (e : Bool) (bs : List Byte) (dn : List Bool) (dw : DWord) (s : State) (c : Instr), c ∈ ([.bypass e dn, .idcode e, .extest e dn, .samplePreload e dn, .regacc dw, .unlock bs] : List Instr) ∧ s.tap.present = false) ∧
    (∃ (st : Nat) (e : Bool) (cb : BitVec 4) (s u : State), s.hld.ph ≠ .off ∧ u = sampleSlot st (sampleCables cb s) ∧ u.rst.elig ≠ e) ∧
    (∃ (st : Nat) (e : Bool) (cb : BitVec 4) (s u : State), s.hld.ph ≠ .off ∧ u = sampleSlot st (sampleCables cb s) ∧ u.rst.elig = e ∧ u.bit Reg.LDG_STRAP 6 = e) ∧
    (∃ (st : Nat) (s : State), st ≠ s.rst.straps) ∧
    (∃ (v : Word) (s : State), s.hld.ph ≠ .off) ∧
    (∃ (bs : List Byte) (s : State), s.hld.ph ≠ .off ∧ bs.length < 4) ∧
    (∃ (a b c d : Byte) (s : State), s.hld.ph ≠ .off ∧ d.toNat < 128) ∧
    (∃ (n : Nat) (s : State), s.hld.ph ≠ .off ∧ s.sb.addr = none) ∧
    (∃ (a d : Nat) (s : State), s.hld.ph ≠ .off ∧ a = s.fld Reg.LDG_STRAP 16 7 ∧ s.sb.dyn = none) ∧
    (∃ (a d : Nat) (s : State), s.hld.ph ≠ .off ∧ (a ≠ s.fld Reg.LDG_STRAP 16 7 ∨ s.sb.dyn.isSome = true)) ∧
    (∃ (s : State), s.hld.ph ≠ .off ∧ s.sb.dyn = none) :=
  ⟨⟨0, 0, 0, 0, true, 0, 0, [], [], 0, lodgeOff, .setaasa, by simp, by decide +kernel⟩,
    ⟨true, [], [], 0, State.reset, .idcode true, by simp, by decide +kernel⟩,
    ⟨0, !State.reset.rst.elig, 0, State.reset, sampleSlot 0 (sampleCables 0 State.reset), by decide +kernel⟩,
    ⟨0, State.reset.rst.elig, 0, (State.reset.setBit Reg.LDG_STRAP 6 State.reset.rst.elig), sampleSlot 0 (sampleCables 0 (State.reset.setBit Reg.LDG_STRAP 6 State.reset.rst.elig)), by decide +kernel⟩,
    ⟨State.reset.rst.straps + 1, State.reset, by decide +kernel⟩,
    ⟨5, State.reset, by decide +kernel⟩,
    ⟨[1], State.reset, by decide +kernel⟩,
    ⟨1, 2, 0, 3, State.reset, by decide +kernel⟩,
    ⟨2, State.reset, by decide +kernel⟩,
    ⟨State.reset.fld Reg.LDG_STRAP 16 7, 9, State.reset, by decide +kernel⟩,
    ⟨1000, 9, State.reset, by decide +kernel, .inl (by decide +kernel)⟩,
    ⟨State.reset, by decide +kernel⟩⟩

/-- What meets the hypotheses of SidebandAndServicePort. -/
theorem witness_SidebandAndServicePort_2 :
    (∃ (d : Nat) (s : State), s.hld.ph ≠ .off ∧ s.sb.dyn = none) ∧
    (∃ (d : Nat) (s : State), s.hld.ph ≠ .off ∧ s.sb.dyn.isSome = true) ∧
    (∃ (s : State), s.hld.ph ≠ .off) ∧
    (∃ (s : State) (c : Instr), s.hld.ph ≠ .off ∧ c ∈ ([.getpid, .getbcr, .getdcr, .getstatus] : List Instr) ∧ s.sb.dyn = none) ∧
    (∃ (s : State), s.hld.ph ≠ .off ∧ s.sb.dyn.isSome = true) ∧
    (∃ (s : State), s.hld.ph ≠ .off ∧ s.sb.dyn.isSome = true) ∧
    (∃ (s : State), s.hld.ph ≠ .off) ∧
    (∃ (s : State), s.hld.ph ≠ .off) ∧
    (∃ (dn : List Bool) (s : State), s.hld.ph ≠ .off ∧ s.tap.present = true) ∧
    (∃ (dn : List Bool) (s : State), s.hld.ph ≠ .off ∧ s.tap.present = true ∧ mainUp s = true) ∧
    (∃ (dn : List Bool) (s : State) (c : Instr), c ∈ ([.bypass true dn, .idcode true, .extest true dn, .samplePreload true dn] : List Instr) ∧ s.hld.ph ≠ .off ∧ s.tap.present = true ∧ mainUp s = false) ∧
    (∃ (s : State), s.hld.ph ≠ .off ∧ s.tap.present = true) :=
  ⟨⟨9, State.reset, by decide +kernel⟩,
    ⟨9, dynamic_, by decide +kernel⟩,
    ⟨State.reset, by decide +kernel⟩,
    ⟨State.reset, .getpid, by decide +kernel, by simp, by decide +kernel⟩,
    ⟨dynamic_, by decide +kernel⟩,
    ⟨dynamic_, by decide +kernel⟩,
    ⟨State.reset, by decide +kernel⟩,
    ⟨probed, by decide +kernel⟩,
    ⟨[true], probed, by decide +kernel⟩,
    ⟨[true], probed, by decide +kernel⟩,
    ⟨[], probed.setFld Reg.PWR_STATE 0 4 1, .idcode true, by simp, by decide +kernel⟩,
    ⟨probed, by decide +kernel⟩⟩

/-- What meets the hypotheses of SidebandAndServicePort. -/
theorem witness_SidebandAndServicePort_3 :
    (∃ (e : Bool) (dn : List Bool) (s : State), s.hld.ph ≠ .off ∧ s.tap.present = true ∧ (e = false ∨ (mainUp s = true ∧ unlocked s = false))) ∧
    (∃ (dn : List Bool) (s : State), s.hld.ph ≠ .off ∧ s.tap.present = true ∧ mainUp s = true ∧ unlocked s = true) ∧
    (∃ (dn : List Bool) (s : State), s.hld.ph ≠ .off ∧ s.tap.present = true ∧ mainUp s = true ∧ unlocked s = true) ∧
    (∃ (w : DWord) (s : State), s.hld.ph ≠ .off ∧ s.tap.present = true ∧ unlocked s = false ∧ servedInSafe (bits w.toNat 0 26 / 4 * 4) = false) ∧
    (∃ (w : DWord) (s : State) (x : Word) (u : State), s.hld.ph ≠ .off ∧ s.tap.present = true ∧ unlocked s = true ∧ mainUp s = true ∧ svcAccess (bits w.toNat 0 26 / 4 * 4) (w.getLsbD 26) (w.extractLsb' 32 32) (tdo (bitList 64 s.tap.capture.toNat) s) = (x, u)) ∧
    (∃ (n : Nat) (s : State), s.hld.ph ≠ .off ∧ s.tap.present = true ∧ s.tap.nonce = some n) ∧
    (∃ (sg : List Byte) (n : Nat) (s : State), s.hld.ph ≠ .off ∧ s.tap.present = true ∧ s.tap.nonce = some n ∧ sg ≠ [] ∧ s.rdN Reg.PWR_STATE ≠ 1 ∧ s.rdN Reg.PWR_STATE ≠ 5) ∧
    (∃ (sg : List Byte) (n : Nat) (s : State), s.hld.ph ≠ .off ∧ s.tap.present = true ∧ s.tap.nonce = some n ∧ sg ≠ [] ∧ (s.rdN Reg.PWR_STATE = 1 ∨ s.rdN Reg.PWR_STATE = 5)) :=
  ⟨⟨false, [true], probed, by decide +kernel⟩,
    ⟨[true], probedOpen, by decide +kernel⟩,
    ⟨[true], probedOpen, by decide +kernel⟩,
    ⟨0x300000, probed, by decide +kernel⟩,
    ⟨0, probedOpen, (svcAccess 0 false 0 (tdo (bitList 64 0) probedOpen)).1, (svcAccess 0 false 0 (tdo (bitList 64 0) probedOpen)).2, by decide +kernel, by decide +kernel, by decide +kernel, by decide +kernel, rfl⟩,
    ⟨7, { probed with tap := { probed.tap with nonce := some 7 } }, by decide +kernel⟩,
    ⟨[1], 7, { probed with tap := { probed.tap with nonce := some 7 } }, by decide +kernel⟩,
    ⟨[1], 7, { probed.putN Reg.PWR_STATE 5 with tap := { probed.tap with nonce := some 7 } }, by decide +kernel, by decide +kernel, by decide +kernel, by decide +kernel, .inr (by decide +kernel)⟩⟩

end Sys2Proof.Tests
end

section
/-! Register accesses of PF BAR0 (00, R6 to R12): the frame of a register update, the rules of staged copies and commits, of a
write and of a read, and the statements that follow from them. -/

namespace Sys2Proof.Machine

/-! ### The frame: only the register file, the staged copies and the durable copies change -/

/-- `t` is `s` but for registers, staged copies and durable copies. -/
def OnlyRegsDiffer (s t : State) : Prop := ∃ r g n, t = { s with regs := r, staged := g, nvOld := n }

theorem OnlyRegsDiffer.refl (s : State) : OnlyRegsDiffer s s := ⟨_, _, _, rfl⟩

theorem OnlyRegsDiffer.trans {s t u : State} (h : OnlyRegsDiffer s t) (k : OnlyRegsDiffer t u) : OnlyRegsDiffer s u := by
  obtain ⟨_, _, _, rfl⟩ := h
  obtain ⟨_, _, _, rfl⟩ := k
  exact ⟨_, _, _, rfl⟩

theorem OnlyRegsDiffer.eq {s t : State} (h : OnlyRegsDiffer s t) :
    t = { s with regs := t.regs, staged := t.staged, nvOld := t.nvOld } := by
  obtain ⟨_, _, _, rfl⟩ := h; rfl

theorem onlyRegsDiffer_put (s : State) (a : Nat) (v : DWord) : OnlyRegsDiffer s (s.put a v) := ⟨_, _, _, rfl⟩

/-- Noting the old value of a persistent cell touches the durable copies alone (R12). -/
theorem notePst_eq (s : State) (a : Nat) (old : DWord) : ∃ n, notePst s a old = { s with nvOld := n } := by
  unfold notePst
  split
  · split
    · exact ⟨_, rfl⟩
    · exact ⟨_, rfl⟩
  · exact ⟨_, rfl⟩

theorem onlyRegsDiffer_notePst (s : State) (a : Nat) (old : DWord) : OnlyRegsDiffer s (notePst s a old) := by
  obtain ⟨n, h⟩ := notePst_eq s a old
  exact ⟨_, _, n, h⟩

@[simp] theorem rd_notePst (s : State) (a b : Nat) (old : DWord) : (notePst s a old).rd b = s.rd b := by
  obtain ⟨n, h⟩ := notePst_eq s a old
  rw [h]; rfl

@[simp] theorem notePst_staged (s : State) (a : Nat) (old : DWord) : (notePst s a old).staged = s.staged := by
  obtain ⟨n, h⟩ := notePst_eq s a old
  rw [h]

/-! ### Staged copies and commits (R9 to R11) -/

/-- The staged copy of cell `a` becomes `v`; a copy equal to the register is not kept. -/
def stagePut (s : State) (a : Nat) (v : DWord) : State :=
  { s with staged := if v = s.rd a then mdel s.staged a else mput s.staged a v }

@[simp] theorem rd_stagePut (s : State) (a b : Nat) (v : DWord) : (stagePut s a v).rd b = s.rd b := rfl

/-- A staged copy after a write of one: the value written in its cell, what was there elsewhere. -/
@[simp] theorem stg_stagePut (s : State) (a b : Nat) (v : DWord) :
    (stagePut s a v).stg b = if b = a then v else s.stg b := by
  unfold State.stg
  rw [rd_stagePut]
  unfold stagePut
  by_cases hv : v = s.rd a
  · simp only [if_pos hv, mget_mdel]
    split
    · next hb => rw [hb, hv]; rfl
    · rfl
  · simp only [if_neg hv, mget_mput]
    split
    · rfl
    · rfl

theorem onlyRegsDiffer_stagePut (s : State) (a : Nat) (v : DWord) : OnlyRegsDiffer s (stagePut s a v) := ⟨_, _, _, rfl⟩

/-- A cell without a staged copy shows its register, so only a write of that register or its copy changes what it reads. -/
theorem stg_congr {s t : State} {b : Nat} (hg : t.staged = s.staged) (hr : t.rd b = s.rd b) : t.stg b = s.stg b := by
  unfold State.stg
  rw [hg, hr]

/-- Applying a staged value writes the register and keeps what the staged copy reads (R11). -/
theorem applyCell_eq (s : State) (c : Nat × DWord) :
    applyCell s c = stagePut ((notePst s c.1 (s.rd c.1)).put c.1 c.2) c.1 (s.stg c.1) := by
  unfold applyCell stagePut
  simp

@[simp] theorem rd_applyCell (s : State) (c : Nat × DWord) (b : Nat) :
    (applyCell s c).rd b = if b = c.1 then c.2 else s.rd b := by
  simp [applyCell_eq]

@[simp] theorem stg_applyCell (s : State) (c : Nat × DWord) (b : Nat) : (applyCell s c).stg b = s.stg b := by
  rw [applyCell_eq, stg_stagePut]
  split
  · next hb => rw [hb]
  · next hb => exact stg_congr (by simp) (by simp [hb])

theorem onlyRegsDiffer_applyCell (s : State) (c : Nat × DWord) : OnlyRegsDiffer s (applyCell s c) := by
  rw [applyCell_eq]
  exact ((onlyRegsDiffer_notePst ..).trans (onlyRegsDiffer_put ..)).trans (onlyRegsDiffer_stagePut ..)

theorem rd_applyCells_of_notMem {vs : RegFile} {s : State} {b : Nat} (h : b ∉ vs.map (·.1)) :
    (vs.foldl applyCell s).rd b = s.rd b := by
  induction vs generalizing s with
  | nil => rfl
  | cons c r ih =>
    rw [List.map_cons, List.mem_cons, not_or] at h
    rw [List.foldl_cons, ih h.2, rd_applyCell, if_neg h.1]

/-- With each cell listed once, every listed register takes its value. -/
theorem rd_applyCells_of_mem {vs : RegFile} {s : State} {b : Nat} {v : DWord} (hn : (vs.map (·.1)).Nodup)
    (h : (b, v) ∈ vs) : (vs.foldl applyCell s).rd b = v := by
  induction vs generalizing s with
  | nil => cases h
  | cons c r ih =>
    rw [List.map_cons, List.nodup_cons] at hn
    rw [List.foldl_cons]
    rcases List.mem_cons.mp h with rfl | h
    · rw [rd_applyCells_of_notMem hn.1, rd_applyCell, if_pos rfl]
    · exact ih hn.2 h

theorem stg_applyCells (vs : RegFile) (s : State) (b : Nat) : (vs.foldl applyCell s).stg b = s.stg b := by
  induction vs generalizing s with
  | nil => rfl
  | cons c r ih => rw [List.foldl_cons, ih, stg_applyCell]

theorem onlyRegsDiffer_applyCells (vs : RegFile) (s : State) : OnlyRegsDiffer s (vs.foldl applyCell s) := by
  induction vs generalizing s with
  | nil => exact .refl s
  | cons c r ih => exact (onlyRegsDiffer_applyCell s c).trans (ih _)

/-- The safe point of a commit in flight applies the values taken and ends it (R10). -/
theorem commitApply_of_find {s : State} {a : Nat} {vs : RegFile} (h : s.inflight.find? (fun c => c.1 == a) = some (a, vs)) :
    commitApply s a = { vs.foldl applyCell s with inflight := s.inflight.filter (fun d => d.1 != a) } := by
  simp only [commitApply, h]

/-- STAGED_COMMIT_APPLY with nothing in flight does nothing. -/
theorem exec_stagedCommitApply_idle {s : State} {a : Nat} (h : s.inflight.any (fun c => c.1 == a) = false) :
    exec (.stagedCommitApply a) s = .next s := by
  simp [exec_stagedCommitApply, execStagedCommitApply, h]

/-- STAGED_COMMIT_APPLY of a group that only applies its values. -/
theorem exec_stagedCommitApply_plain {s : State} {a : Nat} {vs : RegFile}
    (ha : a = Reg.PFX_DOM_COMMIT ∨ a = Reg.SCH_COMMIT ∨ a = Reg.PWR_CAP_COMMIT)
    (h : s.inflight.find? (fun c => c.1 == a) = some (a, vs)) :
    exec (.stagedCommitApply a) s = .next (commitApply s a) := by
  have hany : s.inflight.any (fun c => c.1 == a) = true :=
    List.any_eq_true.mpr ⟨_, List.mem_of_find?_eq_some h, beq_self_eq_true a⟩
  rw [exec_stagedCommitApply, execStagedCommitApply, hany]
  rcases ha with rfl | rfl | rfl <;> rfl

/-! ### A write of PF BAR0 (R7, R8) -/

theorem wordAddr {a : Nat} (h : a % 4 = 0) : a / 4 * 4 = a := Nat.div_mul_cancel (Nat.dvd_of_mod_eq_zero h)

theorem served_of_not_inSafe {s : State} (a : Nat) (h : inSafe s = false) : served s a = true := by simp [served, h]

/-- A write that reaches the device and is served, outside the Lodge window and the own-tenant window, is a write of BAR0. -/
theorem exec_registerWrite_bar0 {a : Nat} {w : Word} {s : State} (hr : reaches s 0 none = true) (hs : served s a = true)
    (hl : inLodge a = false) (hw : ¬ (0x400000 ≤ a ∧ a < 0x500000)) :
    exec (.registerWrite (.bar0 a) w) s = .next (writeBar0 a w s) := by
  rw [exec_registerWrite, execRegisterWrite, onUnit_next (ok := targetOk (.bar0 a)) rfl]
  simp only [hr, hs, Bool.and_self, if_true, writePkg, hl, Bool.false_and, Bool.false_eq_true, if_false, if_neg hw]

theorem writeBar0_of_act {a : Nat} {w : Word} {s t : State} (ha : a % 4 = 0) (h : writeAct a w s = some t) :
    writeBar0 a w s = t := by
  simp only [writeBar0, wordAddr ha, h]

theorem writeBar0_of_no_act {a : Nat} {w : Word} {s : State} (ha : a % 4 = 0) (h : writeAct a w s = none) :
    writeBar0 a w s = storeBar0 a w s := by
  simp only [writeBar0, wordAddr ha, h]

/-- The bits of an access code that lie in the low word. -/
def lowBits (m : Nat) : DWord := BitVec.ofNat 64 m &&& 0xFFFFFFFF

/-- What a register holds after its low word is written: RW bits take the word, RW1C bits clear where it is 1. -/
def rwResult (r : RegRow) (old : DWord) (w : Word) : DWord :=
  ((old &&& ~~~lowBits r.rw) ||| (w.zeroExtend 64 &&& lowBits r.rw)) &&& ~~~(w.zeroExtend 64 &&& lowBits r.rw1c)

/-- What a staged copy holds after its low word is written: STG bits take the word. -/
def stgResult (r : RegRow) (old : DWord) (w : Word) : DWord :=
  (old &&& ~~~lowBits r.stg) ||| (w.zeroExtend 64 &&& lowBits r.stg)

/-- A register with neither RW nor RW1C bits keeps its value. -/
theorem rwResult_of_none {r : RegRow} (old : DWord) (w : Word) (h : r.rw = 0 ∧ r.rw1c = 0) : rwResult r old w = old := by
  obtain ⟨hrw, hrw1c⟩ := h
  have hz : lowBits 0 = 0#64 := rfl
  have hones : ~~~0#64 = BitVec.allOnes 64 := rfl
  simp only [rwResult, hrw, hrw1c, hz, hones, BitVec.and_zero, BitVec.or_zero, BitVec.and_allOnes]

/-- A register takes a new value, a durable one noting its old value first. -/
def putNoted (s : State) (a : Nat) (v : DWord) : State := if v = s.rd a then s else (notePst s a (s.rd a)).put a v

theorem putNoted_self (s : State) (a : Nat) : putNoted s a (s.rd a) = s := if_pos rfl

@[simp] theorem rd_putNoted (s : State) (a b : Nat) (v : DWord) : (putNoted s a v).rd b = if b = a then v else s.rd b := by
  unfold putNoted
  split
  · next hv =>
    split
    · next hb => rw [hb, hv]
    · rfl
  · simp

@[simp] theorem putNoted_staged (s : State) (a : Nat) (v : DWord) : (putNoted s a v).staged = s.staged := by
  unfold putNoted
  split
  · rfl
  · simp

theorem onlyRegsDiffer_putNoted (s : State) (a : Nat) (v : DWord) : OnlyRegsDiffer s (putNoted s a v) := by
  unfold putNoted
  split
  · exact .refl s
  · exact (onlyRegsDiffer_notePst ..).trans (onlyRegsDiffer_put ..)

theorem inRange_of_no_rules {a : Nat} (old new : DWord) (h : fieldRules a = []) : inRange a old new = new := by
  simp [inRange, h]

/-- A write of the low word of a register without field ranges, under its access codes (Table DEV-6). -/
theorem storeWord_low {r : RegRow} {a : Nat} {w : Word} {s : State} (hc : r.cell a = (a, false)) (hf : fieldRules a = []) :
    storeWord r a w s =
      if r.stg = 0 then putNoted s a (rwResult r (s.rd a) w)
      else stagePut (putNoted s a (rwResult r (s.rd a) w)) a
        (stgResult r ((putNoted s a (rwResult r (s.rd a) w)).stg a) w) := by
  simp only [storeWord, hc, inRange_of_no_rules _ _ hf]
  rfl

/-- Whichever copies it writes, such a write puts RW and RW1C bits in the register and touches no other. -/
theorem rd_storeWord_low {r : RegRow} {a : Nat} {w : Word} {s : State} (hc : r.cell a = (a, false)) (hf : fieldRules a = [])
    (b : Nat) : (storeWord r a w s).rd b = if b = a then rwResult r (s.rd a) w else s.rd b := by
  rw [storeWord_low hc hf]
  split
  · exact rd_putNoted ..
  · rw [rd_stagePut, rd_putNoted]

theorem onlyRegsDiffer_storeWord_low {r : RegRow} {a : Nat} {w : Word} {s : State} (hc : r.cell a = (a, false))
    (hf : fieldRules a = []) : OnlyRegsDiffer s (storeWord r a w s) := by
  rw [storeWord_low hc hf]
  split
  · exact onlyRegsDiffer_putNoted ..
  · exact (onlyRegsDiffer_putNoted ..).trans (onlyRegsDiffer_stagePut ..)

/-- A write of a register that has staged bits only is a write of its staged copy. -/
theorem storeWord_staged_only {r : RegRow} {a : Nat} {w : Word} {s : State} (hc : r.cell a = (a, false))
    (hf : fieldRules a = []) (h0 : r.rw = 0 ∧ r.rw1c = 0) (hg : r.stg ≠ 0) :
    storeWord r a w s = stagePut s a (stgResult r (s.stg a) w) := by
  rw [storeWord_low hc hf, if_neg hg, rwResult_of_none _ _ h0, putNoted_self]

/-- Settles O3: outside the rows that act, a write is `storeWord` of the register's row, or nothing where there is none. -/
theorem registerWriteObeysAccessCodes : Obligations.RegisterWriteObeysAccessCodes := by
  unfold Obligations.RegisterWriteObeysAccessCodes
  refine ⟨?_, ?_, ?_⟩
  · intro a w s r hr hs ha hl hw hact hrow hc hf
    refine ⟨storeWord r a w s, ?_, ?_, ?_, ?_, ?_⟩
    · rw [exec_registerWrite_bar0 hr hs hl hw, writeBar0_of_no_act ha hact, storeBar0, hrow]
    · exact (rd_storeWord_low hc hf a).trans (if_pos rfl)
    · intro b hb
      rw [rd_storeWord_low hc hf, if_neg hb]
    · intro hg
      rw [storeWord_low hc hf, if_pos hg, putNoted_staged]
    · exact (onlyRegsDiffer_storeWord_low hc hf).eq
  · intro a w s r hr hs ha hl hw hact hrow hc hf h0 hg
    refine ⟨stagePut s a (stgResult r (s.stg a) w), ?_, rfl, ?_, ?_, rfl⟩
    · rw [exec_registerWrite_bar0 hr hs hl hw, writeBar0_of_no_act ha hact, storeBar0, hrow,
        ← storeWord_staged_only hc hf h0 hg]
    · exact (stg_stagePut ..).trans (if_pos rfl)
    · intro b hb
      rw [stg_stagePut, if_neg hb]
  · intro a w s hr hs ha hl hw hact hrow
    rw [exec_registerWrite_bar0 hr hs hl hw, writeBar0_of_no_act ha hact, storeBar0, hrow]

/-- A COMMIT register of a group that waits for its safe point: a word address outside both windows whose write takes the group's
staged values when bit 0 is 1. -/
def CommitsAt (a : Nat) (g : Nat → Bool) : Prop :=
  a % 4 = 0 ∧ inLodge a = false ∧ ¬ (0x400000 ≤ a ∧ a < 0x500000) ∧ ∀ w s, writeAct a w s = some (commitBit w a g s)

theorem exec_registerWrite_commit {a : Nat} {g : Nat → Bool} {w : Word} {s : State} (h : CommitsAt a g)
    (hr : reaches s 0 none = true) (hs : inSafe s = false) :
    exec (.registerWrite (.bar0 a) w) s = .next (commitBit w a g s) := by
  obtain ⟨ha, hl, hw, hact⟩ := h
  rw [exec_registerWrite_bar0 hr (served_of_not_inSafe a hs) hl hw, writeBar0_of_act ha (hact w s)]

theorem commitsAt_powerCap : CommitsAt Reg.PWR_CAP_COMMIT capGroup := ⟨rfl, rfl, by decide, fun _ _ => rfl⟩
theorem commitsAt_watermarks : CommitsAt Reg.TIER_WM_COMMIT wmGroup := ⟨rfl, rfl, by decide, fun _ _ => rfl⟩
theorem commitsAt_domains : CommitsAt Reg.PFX_DOM_COMMIT domGroup := ⟨rfl, rfl, by decide, fun _ _ => rfl⟩
theorem commitsAt_scheduler : CommitsAt Reg.SCH_COMMIT schGroup := ⟨rfl, rfl, by decide, fun _ _ => rfl⟩

/-- Settles O5: the COMMIT write takes the staged values, and the safe point is a fold of `applyCell` over them. -/
theorem stagedCommitAppliesTheTakenValues : Obligations.StagedCommitAppliesTheTakenValues := by
  unfold Obligations.StagedCommitAppliesTheTakenValues
  refine ⟨?_, ?_, fun a s h => exec_stagedCommitApply_idle h⟩
  · intro a w s g hg hr hs
    have hc : CommitsAt a g := by
      simp only [List.mem_cons, List.not_mem_nil, or_false, Prod.mk.injEq] at hg
      rcases hg with ⟨rfl, rfl⟩ | ⟨rfl, rfl⟩ | ⟨rfl, rfl⟩ | ⟨rfl, rfl⟩
      · exact commitsAt_powerCap
      · exact commitsAt_watermarks
      · exact commitsAt_domains
      · exact commitsAt_scheduler
    exact exec_registerWrite_commit hc hr hs
  · intro a vs s ha hfind hn
    obtain ⟨r, g, n, hframe⟩ := onlyRegsDiffer_applyCells vs s
    refine ⟨commitApply s a, exec_stagedCommitApply_plain ha hfind, ?_⟩
    rw [commitApply_of_find hfind]
    refine ⟨?_, ?_, ?_, rfl, ?_⟩
    · intro c v hcv
      exact rd_applyCells_of_mem hn hcv
    · intro c hc
      exact rd_applyCells_of_notMem hc
    · intro c _
      exact stg_applyCells vs s c
    · rw [hframe]

/-! ### A read of PF BAR0 (R6, R8, R9) -/

/-- A read that reaches the device and is served, outside the Lodge window and the own-tenant window, is a read of BAR0. -/
theorem exec_wideRegisterLowRead_bar0 {a : Nat} {s t : State} {x : Word} (hr : reaches s 0 none = true)
    (hs : served s a = true) (ha : a % 4 = 0) (hl : inLodge a = false) (hw : ¬ (0x400000 ≤ a ∧ a < 0x500000))
    (hx : readBar0 0 a s = (x, t)) :
    exec (.wideRegisterLowRead (.bar0 a)) s = .next (t.emit (.read 0 [x])) := by
  have hread : readTarget (.bar0 a) s = (some x, t) := by
    simp only [readTarget, hr, hs, wordAddr ha, readPkg, hl, hx, if_neg hw, Bool.not_true, Bool.false_and,
      Bool.false_eq_true, if_false]
  rw [exec_wideRegisterLowRead, execWideRegisterLowRead, hread]
  exact onUnit_next rfl

/-- A read that does not reach the device completes without a word (R310). -/
theorem exec_wideRegisterLowRead_unreached {a : Nat} {s : State} (hr : reaches s 0 none = false) :
    exec (.wideRegisterLowRead (.bar0 a)) s = .next (s.emit (.read 0 [])) := by
  have hread : readTarget (.bar0 a) s = (none, s) := by simp only [readTarget, hr, Bool.not_false, if_true]
  rw [exec_wideRegisterLowRead, execWideRegisterLowRead, hread]
  exact onUnit_next rfl

theorem ne_cycSeq_of_not_meter {a : Nat} (hm : a ∉ meterAddrs) : a ≠ Reg.MTR_CYC_SEQ := by
  rintro rfl
  exact hm (List.mem_cons_self ..)

theorem meterAddrs_findIdx?_of_not_meter {a : Nat} (hm : a ∉ meterAddrs) : meterAddrs.findIdx? (fun x => x == a) = none :=
  List.findIdx?_eq_none_iff.mpr fun _ hx => beq_eq_false_iff_ne.mpr fun e => hm (e ▸ hx)

/-- Outside the meter's value registers, a word of no wide register reads as it is now. -/
theorem readBar0_narrow {req a : Nat} {s : State} (hm : a ∉ meterAddrs) (h : wideOf wideRegs (regRow a) a = none) :
    readBar0 req a s = (liveWord s a, s) := by
  simp only [readBar0, if_neg (ne_cycSeq_of_not_meter hm), meterAddrs_findIdx?_of_not_meter hm, Option.bind_none, h]

theorem readBar0_wide {req a lo n : Nat} {s : State} (hm : a ∉ meterAddrs)
    (h : wideOf wideRegs (regRow a) a = some (lo, n)) :
    readBar0 req a s = readWide (liveWord s) req none lo n a s := by
  simp only [readBar0, if_neg (ne_cycSeq_of_not_meter hm), meterAddrs_findIdx?_of_not_meter hm, Option.bind_none, h]

theorem readWide_low (live : Nat → Word) (req n a : Nat) (win : Option Nat) (s : State) :
    readWide live req win a n a s =
      (live a, setLatch req win a (some ((List.range n).map (fun i => live (a + 4 * i)))) s) := if_pos rfl

theorem readWide_latched {live : Nat → Word} {req lo n i : Nat} {win : Option Nat} {s : State} {l : Latch} (hi : 0 < i)
    (h : latchOf s req win lo = some l) :
    readWide live req win lo n (lo + 4 * i) s = (l.words.getD i 0, if n = 2 then setLatch req win lo none s else s) := by
  have hidx : (lo + 4 * i - lo) / 4 = i := by omega
  rw [readWide, if_neg (by omega), h]
  simp only [hidx]

theorem readWide_unlatched {live : Nat → Word} {req lo n i : Nat} {win : Option Nat} {s : State} (hi : 0 < i)
    (h : latchOf s req win lo = none) : readWide live req win lo n (lo + 4 * i) s = (live (lo + 4 * i), s) := by
  rw [readWide, if_neg (by omega), h]

/-- The live word of a register that holds its own value: STG bits from the staged copy, WO bits zero (R8, R9). -/
theorem liveWord_of_row {a : Nat} {s : State} {r : RegRow} (hrow : regRow a = some r) (hc : r.cell a = (a, false))
    (hv : viewCell s a = none) :
    liveWord s a = (((s.rd a &&& ~~~(BitVec.ofNat 64 r.stg)) ||| (s.stg a &&& BitVec.ofNat 64 r.stg)) &&&
      ~~~(BitVec.ofNat 64 r.wo)).extractLsb' 0 32 := by
  simp only [liveWord, hrow, hc, hv, Bool.false_eq_true, if_false]

/-- Settles O4: each kind of word by the rule of its read. -/
theorem registerReadAndWideLatch : Obligations.RegisterReadAndWideLatch := by
  unfold Obligations.RegisterReadAndWideLatch
  refine ⟨?_, ?_, ?_, ?_, fun a s => exec_wideRegisterLowRead_unreached⟩
  · intro a s r hr hs ha hl hw hm hrow hc hv hnarrow
    rw [← liveWord_of_row hrow hc hv]
    exact exec_wideRegisterLowRead_bar0 hr hs ha hl hw (readBar0_narrow hm (hrow ▸ hnarrow))
  · intro a n s hr hs ha hl hw hm hwide
    exact exec_wideRegisterLowRead_bar0 hr hs ha hl hw ((readBar0_wide hm hwide).trans (readWide_low ..))
  · intro a n i s l hr hs ha hl hw hi hm hwide hlatch
    exact exec_wideRegisterLowRead_bar0 hr hs (by omega) hl hw ((readBar0_wide hm hwide).trans (readWide_latched hi hlatch))
  · intro a n i s hr hs ha hl hw hi hm hwide hlatch
    exact exec_wideRegisterLowRead_bar0 hr hs (by omega) hl hw
      ((readBar0_wide hm hwide).trans (readWide_unlatched hi hlatch))

/-! ### Persistence (R12) -/

/-- A field below bit `n` does not see what a reduction modulo `2 ^ n` drops. -/
theorem bits_mod_two_pow (x : Nat) {lo len n : Nat} (h : lo + len ≤ n) : bits (x % 2 ^ n) lo len = bits x lo len := by
  obtain ⟨d, rfl⟩ := Nat.exists_eq_add_of_le h
  unfold bits
  rw [Nat.add_assoc, Nat.pow_add, Nat.mod_mul_right_div_self, Nat.mod_mod_of_dvd _ (Nat.pow_dvd_pow 2 (Nat.le_add_right ..))]

/-- A field of a register just set reads the value set, modulo its width. -/
theorem State.fld_setFld_same (s : State) (a v : Nat) {lo len : Nat} (h : lo + len ≤ 64) :
    (s.setFld a lo len v).fld a lo len = v % 2 ^ len := by
  rw [State.fld, State.setFld, State.rdN_putN, if_pos rfl, bits_mod_two_pow _ h, bits_setBits_same]

/-- A bit of a register just set reads the value set. -/
theorem State.bit_setBit_same (s : State) (a : Nat) {i : Nat} (v : Bool) (hi : i < 64) : (s.setBit a i v).bit a i = v := by
  rw [State.bit, State.setBit, State.fld_setFld_same _ _ _ hi]
  cases v <;> rfl

/-- Settles O6: the four forms of the completion of a persistent write. -/
theorem persistentWriteCompletes : Obligations.PersistentWriteCompletes := by
  unfold Obligations.PersistentWriteCompletes
  refine ⟨?_, ?_, ?_, ?_⟩
  · intro a s hadc hmtr
    rw [exec_persistWriteComplete, execPersistWriteComplete, if_neg hadc, if_neg hmtr]
  · intro s m hm
    refine ⟨({ s with adc := { s.adc with nvSys := m, saving := none } }).putN Reg.ADC_SYSCAL_SAVE_STATUS 1,
      ?_, rfl, rfl, by simp⟩
    rw [exec_persistWriteComplete, execPersistWriteComplete, if_pos rfl, hm]
  · intro s hm
    rw [exec_persistWriteComplete, execPersistWriteComplete, if_neg (by decide), if_pos rfl, if_pos hm]
    exact ⟨_, rfl, rfl, State.bit_setBit_same _ _ _ (by decide)⟩
  · rintro a s (⟨rfl, hs⟩ | ⟨rfl, hs⟩)
    · rw [exec_persistWriteComplete, execPersistWriteComplete, if_pos rfl, hs]
    · rw [exec_persistWriteComplete, execPersistWriteComplete, if_neg (by decide), if_pos rfl,
        if_neg (by simp [hs])]

end Sys2Proof.Machine
end

section
/-! The admission mailbox (03, R59, R60, R77): what a GO does, how each request is answered (Tables ADM-4 to ADM-7), and the
statement about the requests that are granted. -/

namespace Sys2Proof.Machine

/-! ### A GO through a function (R59, R77) -/

/-- The seven operations of the mailbox, each with its code (Table ADM-4). -/
def mailboxOps : List ((Option Nat → Nat → AdmReq → Instr) × Nat) :=
  [(.gateAdmit, 1), (.modify, 2), (.attach, 3), (.detach, 4), (.release, 5), (.query, 6), (.withdraw, 7)]

/-- Each operation, through a function that the device has, is a GO with its code. -/
theorem exec_mailboxOp {p : (Option Nat → Nat → AdmReq → Instr) × Nat} (hp : p ∈ mailboxOps) {f : Nat} (hf : f < 32)
    (win : Option Nat) (req : AdmReq) (s : State) : exec (p.1 win f req) s = .next (mailboxGo p.2 f win req s) := by
  have hunit (t : State) : onUnit (decide (f < 32)) t = .next t := onUnit_next (decide_eq_true hf)
  simp only [mailboxOps, List.mem_cons, List.not_mem_nil, or_false] at hp
  rcases hp with rfl | rfl | rfl | rfl | rfl | rfl | rfl <;> exact hunit _

theorem mailboxGo_of_unreached {s : State} {f : Nat} {win : Option Nat} (hr : reaches s f win = false) (op : Nat)
    (req : AdmReq) : mailboxGo op f win req s = s := by
  simp only [mailboxGo, hr, Bool.not_false, if_true]

theorem mailboxGo_of_busy {s : State} {f : Nat} {win : Option Nat} (hr : reaches s f win = true)
    (hb : (s.fn f).mbBusy = true) (op : Nat) (req : AdmReq) :
    mailboxGo op f win req s = s.updFn f (fun n => { n with mbIgnored := true }) := by
  simp only [mailboxGo, hr, hb, Bool.not_true, Bool.false_eq_true, if_false, if_true]

/-- While firmware is down or the sled is outside RUN the request is kept. -/
theorem mailboxGo_of_waiting {s : State} {f : Nat} {win : Option Nat} (hr : reaches s f win = true)
    (hb : (s.fn f).mbBusy = false) (hw : s.fwDown = true ∨ s.rdN Reg.PWR_STATE ≠ 3) (op : Nat) (req : AdmReq) :
    mailboxGo op f win req s = { s.updFn f (fun n => { n with mbBusy := true, mbReplied := false }) with
      adm := { s.adm with waiting := s.adm.waiting ++ [⟨op, f, win, req⟩] } } := by
  have hwait : (s.fwDown || !inRun s) = true := by simpa [inRun] using hw
  simp only [mailboxGo, hr, hb, hwait, Bool.not_true, Bool.false_eq_true, if_false, if_true]

/-- A GO through the function is evaluated at once. -/
structure Heard (s : State) (f : Nat) (win : Option Nat) : Prop where
  reached : reaches s f win = true
  idle : (s.fn f).mbBusy = false
  fwUp : s.fwDown = false
  run : inRun s = true

theorem mailboxGo_of_heard {s : State} {f : Nat} {win : Option Nat} (h : Heard s f win) (op : Nat) (req : AdmReq) :
    mailboxGo op f win req s = evaluate ⟨op, f, win, req⟩ s := by
  simp only [mailboxGo, h.reached, h.idle, h.fwUp, h.run, Bool.not_true, Bool.or_false, Bool.false_eq_true, if_false]

/-- A request that is heard and answered at once leaves its answer in the mailbox. -/
theorem exec_mailboxOp_of_answer (p : (Option Nat → Nat → AdmReq → Instr) × Nat) {s t : State}
    {f : Nat} {win : Option Nat} {req : AdmReq} (hf : f < 32) (h : Heard s f win) {st : Status} {r : Reply}
    {slot : Option Nat} (ha : answer ⟨p.2, f, win, req⟩ s = { st := st, reply := r, state := t, slot := slot })
    (hp : p ∈ mailboxOps := by simp [mailboxOps]) :
    exec (p.1 win f req) s = .next (reply ⟨p.2, f, win, req⟩ st r slot t) := by
  rw [exec_mailboxOp hp hf, mailboxGo_of_heard h]
  simp only [evaluate, ha, Bool.false_eq_true, if_false]

/-! ### The answers -/

/-- The tenant of a slot that a request names. -/
theorem bind_ten {s : State} {o : Option Nat} {slot : Nat} {t : Tenant} (ho : o = some slot) (ht : s.ten slot = some t) :
    o.bind (fun i => (s.ten i).map (fun t => (i, t))) = some (slot, t) := by
  rw [ho, Option.bind_some, ht, Option.map_some]

/-- An ADMIT that passes every stage and finds room and a slot is granted (R62 to R65, R73). -/
theorem answerAdmit_granted {v : State} {mb : MbReq} {id slot : Nat} (hfn : fnBusy v mb.fn = false)
    (hstages : admitStages v mb.fn mb.req = none) (hspan : spans v mb = false) (hid : freeId v = some id)
    (hroom : shorts4 v 0 mb.req.evc (wanted mb.req.cls (reqVec mb.req)) = [])
    (hqueue : v.adm.deferred.any (fun e => decide (mb.req.prio ≤ e.mb.req.prio)) = false)
    (hslot : slotFor v mb.fn = some slot) :
    answerAdmit mb v = {
      st := ⟨0, 0, 0⟩, state := settle mb.fn slot (enter mb.fn slot id mb.req v), slot := some slot,
      reply := aboutTen (settle mb.fn slot (enter mb.fn slot id mb.req v)) slot
        { token := tokenOf (settle mb.fn slot (enter mb.fn slot id mb.req v)) slot } } := by
  simp only [answerAdmit, hfn, hstages, hspan, hid, hroom, hqueue, hslot, Bool.false_eq_true, if_false]

/-- An ADMIT that a stage refuses changes nothing (R62). -/
theorem answerAdmit_refused {v : State} {mb : MbReq} {t : Status} {x : Nat} (hfn : fnBusy v mb.fn = false)
    (hstages : admitStages v mb.fn mb.req = some (t, x)) :
    answerAdmit mb v = { st := t, reply := { amount := x }, state := v } := by
  simp only [answerAdmit, hfn, hstages, refuse, Bool.false_eq_true, if_false]

/-- A MODIFY that raises nothing takes effect (R62, R554). -/
theorem answerModify_granted {v : State} {mb : MbReq} {slot : Nat} {t : Tenant} (htarget : targetOf mb v = some slot)
    (ht : v.ten slot = some t) (hfn : t.fn = some mb.fn) (hfields : badField v t.cls (reqVec mb.req) = none)
    (hraises : raises t.vec (reqVec mb.req) = false) :
    answerModify mb v = {
      st := ⟨0, 0, 0⟩, state := modifyTenant slot (reqVec mb.req) v, slot := some slot,
      reply := aboutTen (modifyTenant slot (reqVec mb.req) v) slot {} } := by
  simp only [answerModify, bind_ten htarget ht, hfn, hfields, hraises, ne_eq, not_true_eq_false, if_false, Bool.not_false,
    if_true]

/-- A function that is not busy is the PF, or the host is present (R320). -/
theorem not_hostAbsent_of_fnBusy_eq_false {s : State} {f : Nat} (h : fnBusy s f = false) :
    ¬ (f ≠ 0 ∧ hostAbsent s = true) := by
  rintro ⟨hf, habsent⟩
  simp [fnBusy, hf, habsent] at h

/-- An ATTACH with the right token of a PARKED or DORMANT tenant, with no rotation, attaches it (R70, R72). -/
theorem answerAttach_granted {s : State} {mb : MbReq} {slot : Nat} {t : Tenant} (hfn : fnBusy s mb.fn = false)
    (hlock : (mgetD s.adm.attachFails {} mb.req.tenantId).lockUntil = none) (hslot : s.slotOf mb.req.tenantId = some slot)
    (ht : s.ten slot = some t) (hst : t.st = .parked ∨ t.st = .dormant) (htok : mb.req.token ≠ 0)
    (hmatch : t.token = mb.req.token) (hwin : mb.fn ≠ 0 ∨ slot < s.bar2) (hrot : mb.req.rotate = false) :
    answerAttach mb s = {
      st := ⟨0, 0, 0⟩, slot := some slot,
      state := settle mb.fn slot (attachTenant slot mb.fn (s.updTen slot (fun t => { t with token := mb.req.token }))),
      reply := aboutTen
        (settle mb.fn slot (attachTenant slot mb.fn (s.updTen slot (fun t => { t with token := mb.req.token })))) slot
        { rotated := false, token := 0, held := sumOf t.held (fun h => h.entry.slots) } } := by
  have hfree : ¬ (t.st = .active ∨ t.st = .releasing) := by rcases hst with h | h <;> simp [h]
  have htoken : ¬ (mb.req.token = 0 ∨ mb.req.token ≠ mb.req.token) := fun h => h.elim htok (fun hne => hne rfl)
  have hwindow : ¬ (mb.fn = 0 ∧ s.bar2 ≤ slot) := by omega
  simp only [answerAttach, not_hostAbsent_of_fnBusy_eq_false hfn, hfn, hlock, bind_ten hslot ht, hfree, htoken, hwindow,
    hrot, hmatch, Option.isSome_none, Bool.or_false, Bool.false_eq_true, if_false]

/-- A DETACH parks a tenant that is not RELEASING (R554, R68). -/
theorem answerDetach_granted {s : State} {mb : MbReq} {slot : Nat} {t : Tenant} (htarget : targetOf mb s = some slot)
    (ht : s.ten slot = some t) (hst : t.st ≠ .releasing) :
    answerDetach mb s = {
      st := ⟨0, 0, 0⟩, reply := aboutTen (parkTenant slot s) slot {}, state := parkTenant slot s, slot := some slot } := by
  simp only [answerDetach, bind_ten htarget ht, hst, if_false]

/-- A RELEASE releases a tenant that is not RELEASING, and the queue is evaluated again (R65, R71, R554). -/
theorem answerRelease_granted {s : State} {mb : MbReq} {slot : Nat} {t : Tenant} (htarget : targetOf mb s = some slot)
    (ht : s.ten slot = some t) (hst : t.st ≠ .releasing) :
    answerRelease mb s = {
      st := ⟨0, 0, 0⟩, reply := aboutTen (reevaluateAll (releaseTenant slot s)) slot {},
      state := reevaluateAll (releaseTenant slot s) } := by
  simp only [answerRelease, bind_ten htarget ht, hst, if_false]

theorem answerQuery_found {s : State} {mb : MbReq} {d : Deferred} (hd : ownedTicket mb s = some d) :
    answerQuery mb s = { st := (deferReply s d).1, reply := (deferReply s d).2, state := s } := by
  simp only [answerQuery, hd]

theorem answerQuery_unknown {s : State} {mb : MbReq} (hd : ownedTicket mb s = none) :
    answerQuery mb s = { st := ⟨0x22, 0, 0xFFFF⟩, state := s } := by
  simp only [answerQuery, hd, refuse]

/-- WITHDRAW takes its deferral out of the queue, which is evaluated again (R65, R66). -/
theorem answerWithdraw_found {s : State} {mb : MbReq} {d : Deferred} (hd : ownedTicket mb s = some d) :
    answerWithdraw mb s = { st := ⟨0x34, 0, 0⟩, reply := { ticket := d.ticket }, state := reevaluateAll { s with
      adm := { s.adm with deferred := s.adm.deferred.filter (fun e => e.ticket != d.ticket) } } } := by
  simp only [answerWithdraw, hd]

theorem answerWithdraw_unknown {s : State} {mb : MbReq} (hd : ownedTicket mb s = none) :
    answerWithdraw mb s = { st := ⟨0x22, 0, 0xFFFF⟩, state := s } := by
  simp only [answerWithdraw, hd, refuse]

/-- Settles O23: each granted request by its answer, which `exec_mailboxOp_of_answer` puts in the mailbox. -/
theorem admissionRequestsAnswered : Obligations.AdmissionRequestsAnswered := by
  unfold Obligations.AdmissionRequestsAnswered
  refine ⟨?admitGranted, ?admitRefused, ?modify, ?attach, ?detach, ?release, ?query, ?queryUnknown,
    ?withdraw, ?withdrawUnknown⟩
  case admitGranted =>
    rintro win f req s _ id slot hf hr hb hfw hrun rfl hfn hstages hspan hid hroom hqueue hslot
    exact exec_mailboxOp_of_answer (.gateAdmit, 1) hf ⟨hr, hb, hfw, hrun⟩
      (answerAdmit_granted hfn hstages hspan hid hroom hqueue hslot)
  case admitRefused =>
    rintro win f req s _ t x hf hr hb hfw hrun rfl hfn hstages
    exact exec_mailboxOp_of_answer (.gateAdmit, 1) hf ⟨hr, hb, hfw, hrun⟩ (answerAdmit_refused hfn hstages)
  case modify =>
    rintro win f req s _ slot t hf hr hb hfw hrun rfl htarget ht hfn hfields hraises
    exact exec_mailboxOp_of_answer (.modify, 2) hf ⟨hr, hb, hfw, hrun⟩ (answerModify_granted htarget ht hfn hfields hraises)
  case attach =>
    intro win f req s slot t hf hr hb hfw hrun hfn hlock hslot ht hst htok hmatch hwin hrot
    exact exec_mailboxOp_of_answer (.attach, 3) hf ⟨hr, hb, hfw, hrun⟩
      (answerAttach_granted hfn hlock hslot ht hst htok hmatch hwin hrot)
  case detach =>
    intro win f req s slot t hf hr hb hfw hrun htarget ht hst
    exact exec_mailboxOp_of_answer (.detach, 4) hf ⟨hr, hb, hfw, hrun⟩ (answerDetach_granted htarget ht hst)
  case release =>
    intro win f req s slot t hf hr hb hfw hrun htarget ht hst
    exact exec_mailboxOp_of_answer (.release, 5) hf ⟨hr, hb, hfw, hrun⟩ (answerRelease_granted htarget ht hst)
  case query =>
    intro win f req s d hf hr hb hfw hrun hd
    exact exec_mailboxOp_of_answer (.query, 6) hf ⟨hr, hb, hfw, hrun⟩ (answerQuery_found hd)
  case queryUnknown =>
    intro win f req s hf hr hb hfw hrun hd
    exact exec_mailboxOp_of_answer (.query, 6) hf ⟨hr, hb, hfw, hrun⟩ (answerQuery_unknown hd)
  case withdraw =>
    intro win f req s d hf hr hb hfw hrun hd
    exact exec_mailboxOp_of_answer (.withdraw, 7) hf ⟨hr, hb, hfw, hrun⟩ (answerWithdraw_found hd)
  case withdrawUnknown =>
    intro win f req s hf hr hb hfw hrun hd
    exact exec_mailboxOp_of_answer (.withdraw, 7) hf ⟨hr, hb, hfw, hrun⟩ (answerWithdraw_unknown hd)

end Sys2Proof.Machine
end

section
/-! The reply in the mailbox, the notice ring and the timers of tenancy (03, R59 to R61, R65, R66, R69, R71, R72). -/

namespace Sys2Proof.Machine

/-! ### The reply in the mailbox (R59, R60) -/

/-- What the mailbox of a function shows: BUSY, whether it is answered, and the reply. -/
def Fn.mailbox (n : Fn) : Bool × Bool × Option Reply := (n.mbBusy, n.mbReplied, n.reply)

theorem State.mailbox_updFn {g : Fn → Fn} (hg : ∀ n, (g n).mailbox = n.mailbox) (s : State) (i j : Nat) :
    ((s.updFn i g).fn j).mailbox = (s.fn j).mailbox := by
  rw [State.fn_updFn]
  split
  · next h => rw [hg, h]
  · rfl

@[simp] theorem State.mailbox_fnPut (s : State) (f off v j : Nat) : ((s.fnPut f off v).fn j).mailbox = (s.fn j).mailbox := by
  apply State.mailbox_updFn
  intro n; rfl

@[simp] theorem State.fn_outcome (s : State) (slot : Nat) (t : Status) (j : Nat) : (s.outcome slot t).fn j = s.fn j := by
  simp only [State.outcome]
  split <;> simp

@[simp] theorem State.mailbox_fnOutcome (s : State) (f : Nat) (t : Status) (j : Nat) :
    ((s.fnOutcome f t).fn j).mailbox = (s.fn j).mailbox := by
  simp only [State.fnOutcome]
  split <;> simp

/-- A message of a vector that leaves, waits or is merged stays out of every mailbox (15, R312, R313). -/
theorem mailbox_postWrite_msix (s : State) (f vec j : Nat) :
    ((postWrite f (.msix vec) s).fn j).mailbox = (s.fn j).mailbox := by
  simp only [postWrite, sendHost]
  split
  · split
    · rfl
    · apply State.mailbox_updFn
      intro n; rfl
  · rw [State.fn_emit]

@[simp] theorem mailbox_raiseVec (s : State) (f vec j : Nat) : ((raiseVec f vec s).fn j).mailbox = (s.fn j).mailbox := by
  simp only [raiseVec]
  split
  · apply State.mailbox_updFn
    intro n; rfl
  · exact mailbox_postWrite_msix s f vec j

/-- After a reply the mailbox of its function is not busy and shows the answer. -/
theorem mailbox_reply (mb : MbReq) (st : Status) (r : Reply) (slot : Option Nat) (s : State) :
    ((reply mb st r slot s).fn mb.fn).mailbox =
      (false, true, some { r with status := st.word, op := mb.op, seq := mb.req.seq }) := by
  simp only [reply, mailbox_raiseVec]
  split
  · rw [State.fn_outcome, State.fn_updFn, if_pos rfl, Fn.mailbox]
  · rw [State.mailbox_fnOutcome, State.fn_updFn, if_pos rfl, Fn.mailbox]

/-! ### The notice ring (R61) -/

/-- TW_NTC_CONS takes a value no further than the producer. -/
theorem noticeConsumed_within {s : State} {f : Nat} {value : Word}
    (h : (value.toNat + 2 ^ 32 - (s.fn f).ntcCons) % 2 ^ 32 ≤ ((s.fn f).ntcProd + 2 ^ 32 - (s.fn f).ntcCons) % 2 ^ 32) :
    noticeConsumed f value.toNat s = s.updFn f (fun n => { n with ntcCons := value.toNat }) := by
  simp only [noticeConsumed, if_pos h, Nat.mod_eq_of_lt value.isLt]

theorem noticeConsumed_past {s : State} {f v : Nat}
    (h : ((s.fn f).ntcProd + 2 ^ 32 - (s.fn f).ntcCons) % 2 ^ 32 < (v + 2 ^ 32 - (s.fn f).ntcCons) % 2 ^ 32) :
    noticeConsumed f v s = s := by
  simp only [noticeConsumed, if_neg (Nat.not_le.mpr h)]

/-- The write of TW_NTC_CONS through a function that the device has. -/
theorem exec_twNtcConsWrite_of_lt {f : Nat} (hf : f < 32) (win : Option Nat) (value : Word) (s : State) :
    exec (.twNtcConsWrite win f value) s = .next (if reaches s f win then noticeConsumed f value.toNat s else s) := by
  rw [exec_twNtcConsWrite, execTwNtcConsWrite, onUnit_next (decide_eq_true hf)]

/-! ### Timers (R65, R66, R69, R72) -/

theorem timeCame_some (t now : Nat) : timeCame (some t) now = decide (t ≤ now) := rfl

theorem timeCame_eq_false {o : Option Nat} {now : Nat} (h : ∀ t, o = some t → now < t) : timeCame o now = false := by
  cases o with
  | none => rfl
  | some t => rw [timeCame_some, decide_eq_false_iff_not, Nat.not_le]; exact h t rfl

/-- No deferral of the ticket has waited out a MAX_WAIT_MS. -/
theorem waitedOut_eq_none {ticket : Nat} {s : State} (h : ∀ d ∈ s.adm.deferred, d.ticket = ticket →
    d.mb.req.maxWaitMs = 0 ∨ s.tb < d.arrived + 1000 * d.mb.req.maxWaitMs) : waitedOut ticket s = none := by
  rw [waitedOut, List.find?_eq_none]
  intro d hd hout
  simp only [Bool.and_eq_true, beq_iff_eq, bne_iff_ne, decide_eq_true_eq] at hout
  obtain ⟨⟨hticket, hwaits⟩, hover⟩ := hout
  rcases h d hd hticket with hnever | hearly
  · exact hwaits hnever
  · omega

/-- A deferral that has waited its time is refused with the shortfall of its request now, or of the head of the queue. -/
theorem deferExpire_of_waitedOut {ticket : Nat} {s : State} {d : Deferred} (h : waitedOut ticket s = some d) :
    ∃ n x, deferExpire ticket s = reevaluateAll (deferRefused d ⟨shortCode n, n, x⟩ x { s with
        adm := { s.adm with deferred := s.adm.deferred.filter (fun e => e.ticket != ticket) } }) ∧
      (entryShort s d.mb.req = some (n, x) ∨ entryShort s d.mb.req = none) := by
  simp only [deferExpire, h]
  cases hshort : entryShort s d.mb.req with
  | some p => exact ⟨p.1, p.2, rfl, .inl rfl⟩
  | none => exact ⟨_, _, rfl, .inr rfl⟩

theorem deferExpire_of_none {ticket : Nat} {s : State} (h : waitedOut ticket s = none) : deferExpire ticket s = s := by
  simp only [deferExpire, h]

/-- The end of an attach lockout whose time has come. -/
theorem exec_attachLockoutExpire_due {id t : Nat} {s : State} {a : AttachFail} (ha : mget s.adm.attachFails id = some a)
    (hlock : a.lockUntil = some t) (ht : t ≤ s.tb) : exec (.attachLockoutExpire id) s = .next { s with
      adm := { s.adm with attachFails := mput s.adm.attachFails id { a with lockUntil := none } } } := by
  have hdue : timeCame (mgetD s.adm.attachFails {} id).lockUntil s.tb = true := by
    rw [mgetD, ha, Option.getD_some, hlock, timeCame_some, decide_eq_true ht]
  simp only [exec_attachLockoutExpire, execAttachLockoutExpire, hdue, mupd, ha, Bool.not_true, Bool.false_eq_true, if_false]

theorem exec_attachLockoutExpire_early {id t : Nat} {s : State}
    (hlock : (mgetD s.adm.attachFails {} id).lockUntil = some t) (ht : s.tb < t) :
    exec (.attachLockoutExpire id) s = .next s := by
  have hearly : timeCame (mgetD s.adm.attachFails {} id).lockUntil s.tb = false := by
    rw [hlock, timeCame_some, decide_eq_false (Nat.not_le.mpr ht)]
  simp only [exec_attachLockoutExpire, execAttachLockoutExpire, hearly, Bool.not_false, if_true]

/-- The end of grace of the tenant of a slot: only a PARKED tenant whose grace has run out. -/
theorem exec_graceExpire_of_ten {slot : Nat} {s : State} {t : Tenant} (hslot : slot < 1024) (ht : s.ten slot = some t) :
    exec (.graceExpire slot) s =
      .next (if t.st = .parked ∧ timeCame t.graceAt s.tb = true then endGrace slot s else s) := by
  simp only [exec_graceExpire, execGraceExpire, ht, onUnit_next (decide_eq_true hslot)]

/-! ### The end of zeroisation (R71, R101) -/

/-- The job of an object without an index entry gives the object's capacity back. -/
theorem zeroiseDone_of_object {job slot idx : Nat} {s : State} {z : ZeroJob}
    (hz : s.adm.zero.find? (fun y => y.id == job) = some z) (hobj : z.obj = some (slot, idx)) (horphan : z.orphan = none)
    (hslot : z.slot = none) (hentry : entryOf s slot idx = none) :
    zeroiseDone job s = reevaluateAll (({ s with
      adm := { s.adm with zero := s.adm.zero.filter (fun y => y.id != job) } } : State).updTen slot
        (fun t => { t with objs := mdel t.objs idx })) := by
  have hentry' (l : List ZeroJob) : entryOf { s with adm := { s.adm with zero := l } } slot idx = none := hentry
  simp only [zeroiseDone, hz, hobj, horphan, hslot, hentry']

theorem zeroiseDone_of_none {job : Nat} {s : State} (hz : s.adm.zero.find? (fun y => y.id == job) = none) :
    zeroiseDone job s = s := by
  simp only [zeroiseDone, hz]

/-- Settles O24: a GO that is not evaluated by the rules of `mailboxGo`, the reply by `mailbox_reply`, and each timer by
whether its time has come. -/
theorem mailboxNoticesAndTimers : Obligations.MailboxNoticesAndTimers := by
  unfold Obligations.MailboxNoticesAndTimers
  refine ⟨?unreached, ?busy, ?waits, ?reply, ?consumed, ?ignored, ?deferOut, ?deferLeft, ?lockoutDue, ?lockoutEarly,
    ?graceDue, ?graceLeft, ?zeroObject, ?zeroNone⟩
  case unreached =>
    intro p win f req s hp hf hr
    rw [exec_mailboxOp hp hf, mailboxGo_of_unreached hr]
  case busy =>
    intro p win f req s hp hf hr hb
    rw [exec_mailboxOp hp hf, mailboxGo_of_busy hr hb]
  case waits =>
    intro p win f req s hp hf hr hb hw
    rw [exec_mailboxOp hp hf, mailboxGo_of_waiting hr hb hw]
  case reply =>
    intro mb st r slot s
    have h := mailbox_reply mb st r slot s
    simpa only [Fn.mailbox, Prod.mk.injEq] using h
  case consumed =>
    intro win f value s hf hr h
    rw [exec_twNtcConsWrite_of_lt hf, if_pos hr, noticeConsumed_within h]
  case ignored =>
    rintro win f value s hf (hr | hpast)
    · rw [exec_twNtcConsWrite_of_lt hf, if_neg (by simp [hr])]
    · rw [exec_twNtcConsWrite_of_lt hf, noticeConsumed_past hpast, ite_self]
  case deferOut =>
    intro ticket s d h
    obtain ⟨n, x, hstate, hshort⟩ := deferExpire_of_waitedOut h
    exact ⟨n, x, by rw [exec_deferMaxWaitExpire, execDeferMaxWaitExpire, hstate], hshort⟩
  case deferLeft =>
    intro ticket s h
    rw [exec_deferMaxWaitExpire, execDeferMaxWaitExpire, deferExpire_of_none (waitedOut_eq_none h)]
  case lockoutDue =>
    intro id t s a ha hlock ht
    exact exec_attachLockoutExpire_due ha hlock ht
  case lockoutEarly =>
    intro id t s hlock ht
    exact exec_attachLockoutExpire_early hlock ht
  case graceDue =>
    intro slot g s t hslot ht hparked hgrace hg
    rw [exec_graceExpire_of_ten hslot ht, if_pos ⟨hparked, by rw [hgrace, timeCame_some, decide_eq_true hg]⟩]
  case graceLeft =>
    rintro slot s t hslot ht (hst | hearly)
    · rw [exec_graceExpire_of_ten hslot ht, if_neg (fun h => hst h.1)]
    · rw [exec_graceExpire_of_ten hslot ht, if_neg (by simp [timeCame_eq_false hearly])]
  case zeroObject =>
    intro job slot idx s z hz hobj horphan hslot hentry
    rw [exec_zeroiseComplete, execZeroiseComplete, zeroiseDone_of_object hz hobj horphan hslot hentry]
  case zeroNone =>
    intro job s hz
    rw [exec_zeroiseComplete, execZeroiseComplete, zeroiseDone_of_none hz]

end Sys2Proof.Machine
end

section
/-! The tier commands that a ring carries (04, R81; 09, R191): what QUERY_OBJ does, and why the claim about it fails. -/

namespace Sys2Proof.Machine

/-- A command whose handle passes the checks of Table TIER-3 has its effect on the object named (R81, R191). -/
theorem withObj_of_named {id off len : Nat} {h : DWord} {isWrite : Bool} {body : Named → State → State} {s : State} {n : Named}
    (hn : (checkHandle s (slotOfFlight s id) h isWrite off len 0xFFFF 0xFFFF).toOption = some n) :
    withObj id h isWrite off len body s = body n s := by
  rw [withObj, ok_of_toOption hn]

/-- QUERY_OBJ that passes its checks posts the report as data of its flight, on the fetched state as it is: the bytes
written to host memory are charged by `sendHost` when their write leaves (15, Table HIF-10), and by nothing before it. -/
theorem exec_queryObj_of_named {slot q f : Nat} {r : CmdRec} {s : State} {n : Named} (hstart : CanStart s slot q r)
    (hn : (checkHandle (fetched 0x07 slot q r s).2 (slotOfFlight (fetched 0x07 slot q r s).2 (fetched 0x07 slot q r s).1)
      r.w08 false 0 0 0xFFFF 0xFFFF).toOption = some n)
    (hf : ((fetched 0x07 slot q r s).2.ten (slotOfFlight (fetched 0x07 slot q r s).2 (fetched 0x07 slot q r s).1)).bind
      (fun t => t.fn) = some f) :
    exec (.queryObj slot q r) s = .next (commitDue slot q (postData (fetched 0x07 slot q r s).1 f r.w10.toNat
      (objReport n.obj) (fetched 0x07 slot q r s).2)) := by
  obtain ⟨hslot, hq, -⟩ := id hstart
  have hunit : (decide (slot < 1024) && decide (q < 16)) = true := by simp [hslot, hq]
  rw [exec_queryObj, execQueryObj, onUnit_next hunit, ringCmd_of hstart, bodyQueryObj, withObj_of_named hn]
  simp only [hf]

/-- An object of two pages at home in T1. -/
def queriedObj : Obj :=
  { size := 131072, tile := false, flags := 0, elem := 0, elemAlt := 0, segPages := 0, gen := 1, base := { tier := 1 } }

/-- The sled after reset with a tenant in slot 0, attached through the PF, which masters its bus: the tenant owns `queriedObj`
under index 1, and the ring of its queue 0 holds one command. -/
def queriedState : State :=
  (State.reset.updFn 0 (fun n => { n with bme := true })).setTen 0 {
    id := 1, cls := 1, fn := some 0, objs := [(1, queriedObj)], hiIdx := 1,
    queues := [(0, { st := .active, prod := 1 })] }

/-- A QUERY_OBJ of that object, to host address 0. -/
def queryCommand : CmdRec := { w08 := handleOf 1 1 1 }

/-- Refutes O25 in its clause of QUERY_OBJ: the tenant of `queriedState` is charged the 64 bytes of the report once, when their
write leaves, and the claim has them charged a second time before. -/
theorem not_tierCommands : ¬ Obligations.TierCommands := by
  unfold Obligations.TierCommands
  rintro ⟨-, -, -, -, -, -, -, hquery, -, -⟩
  have hstart : CanStart queriedState 0 0 queryCommand := by decide +kernel
  have hn : (checkHandle (fetched 0x07 0 0 queryCommand queriedState).2
      (slotOfFlight (fetched 0x07 0 0 queryCommand queriedState).2 (fetched 0x07 0 0 queryCommand queriedState).1)
      queryCommand.w08 false 0 0 0xFFFF 0xFFFF).toOption = some ⟨0, 1, queriedObj⟩ := by decide +kernel
  have hf : ((fetched 0x07 0 0 queryCommand queriedState).2.ten
      (slotOfFlight (fetched 0x07 0 0 queryCommand queriedState).2 (fetched 0x07 0 0 queryCommand queriedState).1)).bind
      (fun t => t.fn) = some 0 := by decide +kernel
  have hclaim := hquery 0 0 queryCommand queriedState ⟨0, 1, queriedObj⟩ 0 hstart hn hf
  rw [exec_queryObj_of_named hstart hn hf, Host.Outcome.next.injEq] at hclaim
  have hbytes := congrArg (fun t => t.twRd 0 (Reg.TW_NRG_ACT 6)) hclaim
  exact absurd hbytes (by decide +kernel)

end Sys2Proof.Machine
end

section
/-! The demotion scan and the commit of its watermarks (04, R93, R557). -/

namespace Sys2Proof.Machine

theorem mem_of_mget {α : Type} {m : Map α} {k : Nat} {v : α} (h : mget m k = some v) : (k, v) ∈ m := by
  induction m with
  | nil => simp [mget] at h
  | cons c r ih =>
    obtain ⟨i, w⟩ := c
    simp only [mget] at h
    split at h
    · next hi => rw [hi, Option.some.inj h]; exact List.mem_cons_self
    · exact List.mem_cons_of_mem _ (ih h)

/-- A watermark as a commit in flight would leave it: the value taken, or the one in force where none was. -/
def takenMark (s : State) (vs : RegFile) (a : Nat) : Nat := ((mget vs a).getD (s.rd a)).toNat

/-- A refused watermark commit is in flight no more and sets WM_BAD (R557). -/
def markRefused (s : State) : State :=
  { s.setBit Reg.TIER_PENDING 1 true with inflight := s.inflight.filter (fun d => d.1 != Reg.TIER_WM_COMMIT) }

theorem wmApply_of_none {s : State} (h : s.inflight.find? (fun c => c.1 == Reg.TIER_WM_COMMIT) = none) : wmApply s = s := by
  simp only [wmApply, h]

theorem wmApply_of_valid {s : State} {vs : RegFile}
    (h : s.inflight.find? (fun c => c.1 == Reg.TIER_WM_COMMIT) = some (Reg.TIER_WM_COMMIT, vs))
    (hv : takenMark s vs Reg.TIER_WM_LOW < takenMark s vs Reg.TIER_WM_HIGH) :
    wmApply s = commitApply s Reg.TIER_WM_COMMIT := by
  simp only [wmApply, h]
  exact if_pos hv

theorem wmApply_of_invalid {s : State} {vs : RegFile}
    (h : s.inflight.find? (fun c => c.1 == Reg.TIER_WM_COMMIT) = some (Reg.TIER_WM_COMMIT, vs))
    (hv : takenMark s vs Reg.TIER_WM_HIGH ≤ takenMark s vs Reg.TIER_WM_LOW) : wmApply s = markRefused s := by
  simp only [wmApply, h]
  exact if_neg (Nat.not_lt.mpr hv)

theorem rd_markRefused (s : State) {a : Nat} (ha : a ≠ Reg.TIER_PENDING) : (markRefused s).rd a = s.rd a :=
  (State.rd_setBit s Reg.TIER_PENDING a 1 true).trans (if_neg ha)

theorem markRefused_bad (s : State) : (markRefused s).fld Reg.TIER_PENDING 1 1 = 1 :=
  State.fld_setFld_same s Reg.TIER_PENDING 1 (by decide)

/-- The scan does nothing while the free memory is not below the low watermark (R93). -/
theorem demotionScan_of_enough {s : State} (h : s.rdN Reg.TIER_WM_LOW ≤ freeT1 s) : demotionScan s = s := by
  rw [demotionScan]
  exact if_neg (Nat.not_lt.mpr h)

/-- Taken values that are no valid pair differ somewhere from a valid pair in force. -/
theorem exists_taken_ne {s : State} {vs : RegFile} (hforce : s.rdN Reg.TIER_WM_LOW < s.rdN Reg.TIER_WM_HIGH)
    (hv : takenMark s vs Reg.TIER_WM_HIGH ≤ takenMark s vs Reg.TIER_WM_LOW) : ∃ c v, mget vs c = some v ∧ v ≠ s.rd c := by
  refine Classical.byContradiction (fun hnone => ?_)
  have hsame (c : Nat) (v : DWord) (hcv : mget vs c = some v) : v = s.rd c :=
    Decidable.byContradiction (fun hne => hnone ⟨c, v, hcv, hne⟩)
  have hread (a : Nat) : takenMark s vs a = s.rdN a := by
    rw [takenMark, State.rdN]
    cases h : mget vs a with
    | none => rfl
    | some v => rw [Option.getD_some, hsame a v h]
  rw [hread, hread] at hv
  omega

/-- A group with a staged copy that differs from its register is pending (R9). -/
theorem groupPending_of_staged {s : State} {commit c : Nat} {g : Nat → Bool} {v : DWord} (hv : mget s.staged c = some v)
    (hg : g c = true) (hne : v ≠ s.rd c) : groupPending s commit g = true := by
  have hmem := mem_of_mget hv
  have hany : s.staged.any (fun c => g c.1 && c.2 != s.rd c.1) = true :=
    List.any_eq_true.mpr ⟨_, hmem, by simp [hg, hne]⟩
  rw [groupPending, hany, Bool.or_true]

theorem ne_pending_of_wmGroup {c : Nat} (h : wmGroup c = true) : c ≠ Reg.TIER_PENDING := by
  rintro rfl
  exact absurd h (by decide)

/-- What TIER_PENDING shows: WM_BAD above the pending bit of the watermarks (R9, R557). -/
theorem viewCell_tierPending (s : State) : viewCell s Reg.TIER_PENDING =
    some (2 * s.fld Reg.TIER_PENDING 1 1 + b2n (groupPending s Reg.TIER_WM_COMMIT wmGroup)) := rfl

/-- After a refused commit whose values stay staged, TIER_PENDING shows the group pending and WM_BAD. -/
theorem viewCell_markRefused {s : State} {vs : RegFile}
    (hv : takenMark s vs Reg.TIER_WM_HIGH ≤ takenMark s vs Reg.TIER_WM_LOW)
    (hstaged : ∀ c v, mget vs c = some v → mget s.staged c = some v ∧ wmGroup c = true)
    (hforce : s.rdN Reg.TIER_WM_LOW < s.rdN Reg.TIER_WM_HIGH) :
    viewCell (markRefused s) Reg.TIER_PENDING = some 3 := by
  obtain ⟨c, v, hcv, hne⟩ := exists_taken_ne hforce hv
  obtain ⟨hst, hg⟩ := hstaged c v hcv
  have hpending : groupPending (markRefused s) Reg.TIER_WM_COMMIT wmGroup = true :=
    groupPending_of_staged (s := markRefused s) hst hg (by rwa [rd_markRefused s (ne_pending_of_wmGroup hg)])
  rw [viewCell_tierPending, markRefused_bad, hpending]
  rfl

/-- Settles O33: at the scan the commit in flight is refused (`markRefused`) or applied (`commitApply`) by its own values. -/
theorem badWatermarkCommitIsNotApplied : Obligations.BadWatermarkCommitIsNotApplied := by
  unfold Obligations.BadWatermarkCommitIsNotApplied
  refine ⟨?refused, ?shown, ?valid, ?idle, ?taken⟩
  case refused =>
    rintro s vs _ _ hfind rfl rfl hv
    refine ⟨markRefused s, ?_, rfl, rd_markRefused s (by decide), rd_markRefused s (by decide), rfl,
      State.bit_setBit_same s _ true (by decide)⟩
    rw [exec_demotionScan, execDemotionScan, wmApply_of_invalid hfind hv]
  case shown =>
    rintro s vs _ _ hfind rfl rfl hv hstaged hforce hfree
    rw [wmApply_of_invalid hfind hv] at hfree
    have hlow : (markRefused s).rd Reg.TIER_WM_LOW = s.rd Reg.TIER_WM_LOW := rd_markRefused s (by decide)
    refine ⟨markRefused s, ?_, hlow, rd_markRefused s (by decide), viewCell_markRefused hv hstaged hforce⟩
    rw [exec_demotionScan, execDemotionScan, wmApply_of_invalid hfind hv,
      demotionScan_of_enough (by rwa [State.rdN, hlow])]
  case valid =>
    rintro s vs _ _ hfind rfl rfl hv
    rw [exec_demotionScan, execDemotionScan, wmApply_of_valid hfind hv]
  case idle =>
    intro s hnone
    rw [exec_demotionScan, execDemotionScan, wmApply_of_none hnone]
  case taken =>
    rintro s _ rfl vs hfind hnodup c v hcv
    rw [commitApply_of_find hfind]
    exact rd_applyCells_of_mem hnodup hcv

end Sys2Proof.Machine
end

section
/-! Events of the tier engine (04, R84, R95, R99, R102, R103). -/

namespace Sys2Proof.Machine

/-! ### The journal record of a flush (R95) -/

/-- The image noted by a FLUSH becomes the durable image of its object. -/
theorem flushCommit_of_object {id i b : Nat} {s : State} {f : Flight} {o : Obj} (hf : s.flight id = some f) (hop : f.op = 4)
    (hargs : f.args = [i, b]) (ho : s.obj f.slot i = some o) :
    flushCommit id s = finish id ⟨0, 0, 0⟩ 0 (chargeWrite f.slot b ((((drawSize o s).2.setObj f.slot i
      { o with durable := some ⟨o.data, b⟩ }).bumpBy Reg.TIER_RAW_BYTES o.size).bumpBy Reg.TIER_STORED_BYTES b)) := by
  have hnamed : f.args.head?.bind (fun i => (s.obj f.slot i).map (fun o => (i, o))) = some (i, o) := by
    rw [hargs, List.head?_cons, Option.bind_some, ho, Option.map_some]
  have hbytes : (f.args.drop 1).head? = some b := by rw [hargs]; rfl
  simp only [flushCommit, hf, hnamed, hbytes, Option.getD_some, if_neg (not_not_intro hop)]

theorem flushCommit_of_other {id : Nat} {s : State} (h : ∀ f, s.flight id = some f → f.op ≠ 4) : flushCommit id s = s := by
  cases hf : s.flight id with
  | none => simp only [flushCommit, hf]
  | some f => simp only [flushCommit, hf, if_pos (h f hf)]

/-! ### Events of a move -/

/-- What an event that names a move does: `act`, where the move is in flight and can have the event. -/
def onMove (s : State) (id : Nat) (can : Move → Prop) [DecidablePred can] (act : Move → State) : State :=
  match s.move id with
  | some m => if can m then act m else s
  | none => s

theorem onMove_of_can {s : State} {id : Nat} {can : Move → Prop} [DecidablePred can] {act : Move → State} {m : Move}
    (hm : s.move id = some m) (hcan : can m) : onMove s id can act = act m := by
  simp only [onMove, hm, if_pos hcan]

theorem onMove_of_cannot {s : State} {id : Nat} {can : Move → Prop} [DecidablePred can] {act : Move → State}
    (h : ∀ m, s.move id = some m → ¬ can m) : onMove s id can act = s := by
  cases hm : s.move id with
  | none => simp only [onMove, hm]
  | some m => simp only [onMove, hm, if_neg (h m hm)]

/-- A move from or to tier `t` that began at least `ms` milliseconds ago. -/
abbrev Move.overdue (s : State) (t ms : Nat) (m : Move) : Prop :=
  (m.src = t ∨ m.dst = t) ∧ m.since + 1000 * ms ≤ s.tb

/-- A move elsewhere, or one begun since, is not overdue. -/
theorem Move.not_overdue {s : State} {t ms : Nat} {m : Move}
    (h : (m.src ≠ t ∧ m.dst ≠ t) ∨ s.tb < m.since + 1000 * ms) : ¬ m.overdue s t ms := by
  rintro ⟨hends, hold⟩
  rcases h with ⟨hsrc, hdst⟩ | hearly
  · exact hends.elim hsrc hdst
  · omega

theorem exec_moveCommit_onMove (id : Nat) (s : State) :
    exec (.moveCommit id) s = .next (onMove s id (fun m => m.src ≠ 4 ∧ m.dst ≠ 4) (fun m => commitMove m s)) := by
  rw [exec_moveCommit, execMoveCommit]
  cases hm : s.move id with
  | none => simp only [onMove, hm]
  | some m => simp only [onMove, hm, ← not_or, ite_not]

theorem exec_t3MoveStallTimeout_onMove (id : Nat) (s : State) : exec (.t3MoveStallTimeout id) s =
    .next (onMove s id (Move.overdue s 3 (s.rdN Reg.HIF_STALL_TO)) (fun m => t3Stall m s)) := rfl

theorem exec_peerMoveTimeout_onMove (id ms : Nat) (s : State) : exec (.peerMoveTimeout id ms) s =
    .next (onMove s id (Move.overdue s 4 (s.rdN Reg.TIER_PEER_TO)) (fun m => failMove m ⟨0x44, 7, ms⟩ s)) := rfl

/-! ### Settling -/

/-- Settles O32: the events of a move through `onMove`, the others by whether their time has come. -/
theorem tierEngineEvents : Obligations.TierEngineEvents := by
  unfold Obligations.TierEngineEvents
  refine ⟨?flush, ?flushOther, ?commit, ?commitPeer, ?stall, ?stallNot, ?backoff, ?peerLate, ?peerNot, ?lost, ?heard⟩
  case flush =>
    intro id i b s f o hf hop hargs ho
    rw [exec_flushJournalCommit, execFlushJournalCommit, flushCommit_of_object hf hop hargs ho]
  case flushOther =>
    intro id s h
    rw [exec_flushJournalCommit, execFlushJournalCommit, flushCommit_of_other h]
  case commit =>
    intro id s m hm hsrc hdst
    rw [exec_moveCommit_onMove, onMove_of_can hm ⟨hsrc, hdst⟩]
  case commitPeer =>
    intro id s h
    rw [exec_moveCommit_onMove, onMove_of_cannot (fun m hm hfar => (h m hm).elim hfar.1 hfar.2)]
  case stall =>
    rintro id s _ m hm hends hold rfl
    rw [exec_t3MoveStallTimeout_onMove, onMove_of_can hm ⟨hends, hold⟩]
    rfl
  case stallNot =>
    intro id s h
    rw [exec_t3MoveStallTimeout_onMove, onMove_of_cannot (fun m hm => Move.not_overdue (h m hm))]
  case backoff =>
    intro slot r s hslot hr
    rw [exec_t3BackoffExpire, execT3BackoffExpire, onUnit_next (by simp [hslot, hr])]
    rfl
  case peerLate =>
    intro id ms s m hm hends hold
    rw [exec_peerMoveTimeout_onMove, onMove_of_can hm ⟨hends, hold⟩]
  case peerNot =>
    intro id ms s h
    rw [exec_peerMoveTimeout_onMove, onMove_of_cannot (fun m hm => Move.not_overdue (h m hm))]
  case lost =>
    rintro node s _ hsilent rfl
    rw [exec_peerLossTimeout, execPeerLossTimeout, if_pos hsilent]
    rfl
  case heard =>
    intro node s hheard
    rw [exec_peerLossTimeout, execPeerLossTimeout, if_neg (Nat.not_le.mpr hheard)]

end Sys2Proof.Machine
end

section
/-! The firmware rollout (13, R286, R287), the answers of the links and the waits of pool levels (04, R99; 14, R301, R302). -/

namespace Sys2Proof.Machine

/-! ### ROLL_START and ROLL_RESUME at the site manager -/

/-- ROLL_START does nothing elsewhere, while a rollout runs or without a VERIFIED image (R286). -/
theorem rollStart_of_unready {w c r : List Nat} {s : State} (h : role s ≠ 3 ∨ rollState s = 1 ∨ (inactiveInfo s).st ≠ 3) :
    rollStart w c r s = s := if_pos h

/-- The rollout of the VERIFIED image under a fresh MOVE_ID, nothing offered yet, as HIE_ROLL_STATUS shows it running. -/
def rolloutBegun (w c r : List Nat) (s : State) : State :=
  let m := s.fw.image (inactiveSlot s)
  let t := s.fresh.2
  ((t.putN Reg.HIE_ROLL_STATUS 1).putN Reg.HIE_ROLL_FIRST_FAIL 0).updRoll (fun _ => {
    move := s.fresh.1, version := readLE m 8 4, size := imageSize m, digest := (leBytes (imageDigest m) 48).map (·.toNat),
    plan := wavesOf (s.rdN Reg.HIE_ROLL_CANARY) w c r (ownNode s) })

theorem rdN_rolloutBegun (w c r : List Nat) (s : State) (a : Nat) : (rolloutBegun w c r s).rdN a =
    if a = Reg.HIE_ROLL_FIRST_FAIL then 0 else if a = Reg.HIE_ROLL_STATUS then 1 else s.rdN a := by
  change ((s.fresh.2.putN Reg.HIE_ROLL_STATUS 1).putN Reg.HIE_ROLL_FIRST_FAIL 0).rdN a = _
  rw [State.rdN_putN, State.rdN_putN]
  rfl

theorem rollStart_of_ready {w c r : List Nat} {s : State} (hrole : role s = 3) (hidle : rollState s ≠ 1)
    (himage : (inactiveInfo s).st = 3) : rollStart w c r s = offerWave 7 (rolloutBegun w c r s) :=
  if_neg (by simp [hrole, hidle, himage])

/-- RESUME does nothing elsewhere or where no rollout is halted (R287). -/
theorem rollResume_of_unhalted {s : State} (h : role s ≠ 3 ∨ rollState s ≠ 2) : rollResume s = s :=
  if_pos (or_assoc.mp (.inl h))

/-- The halted rollout running again: the wave's failures from 0, and the sleds that have not reported to be offered again. -/
def rolloutResumed (s : State) : State :=
  (s.setFld Reg.HIE_ROLL_STATUS 0 4 1).updRoll (fun r =>
    { r with failures := 0, sent := r.sent.filter (fun x => r.reported.any (fun y => y.1 == x.1)) })

theorem rollResume_of_halted {s : State} (hrole : role s = 3) (hhalted : rollState s = 2) (hplan : s.hie.roll.plan ≠ []) :
    rollResume s = offerWave 7 (rolloutResumed s) :=
  if_neg (by simp [hrole, hhalted, hplan])

/-! ### A sled that follows -/

/-- An OFFER of the rollout followed already is acknowledged (R286). -/
theorem rollOffer_of_repeated {src rtag w m v n : Nat} {d : List Nat} {s : State} (hin : outcast s = false)
    (hsame : s.hie.follow.any (fun f => f.mgr == src && f.move == m) = true) :
    rollOffer src rtag w m v n d s = hieAck src rtag 0x7E ⟨0, 0, 0⟩ s := by
  simp only [rollOffer, hin, hsame, Bool.false_eq_true, if_false, if_true]

/-- An OFFER to a sled that follows none opens a PEER session: acknowledged where it opened, else reported (R286). -/
theorem rollOffer_of_first {src rtag w m v n : Nat} {d : List Nat} {s u : State} (hin : outcast s = false)
    (hnone : s.hie.follow = none)
    (hu : u = updBegin 2 { s with hie := { s.hie with follow := some ⟨src, rtag, w, m, v, n, d, [], [], none, false⟩ } }) :
    rollOffer src rtag w m v n d s = if updOwner u = 2 ∧ u.rdN Reg.FW_UPD_RESULT = 0 then hieAck src rtag 0x7E ⟨0, 0, 0⟩ u
      else reportResult (hieAck src rtag 0x7E ⟨0x24, 0, 0⟩ u) := by
  have hnew : s.hie.follow.any (fun f => f.mgr == src && f.move == m) = false := by rw [hnone]; rfl
  subst hu
  simp only [rollOffer, hin, hnew, Bool.false_eq_true, if_false]

theorem tryActivate_of_no_follow {s : State} (h : s.hie.follow = none) : tryActivate s = s := by
  simp only [tryActivate, h]

/-- Within the drain time a checked image waits for the ACTIVE tenants to leave (R286). -/
theorem tryActivate_of_draining {s : State} {f : Follow} {t : Nat} (hf : s.hie.follow = some f) (ht : f.drainAt = some t)
    (hnew : f.activated = false) (himage : (inactiveInfo s).st = 3) (hactive : noneActive s = false)
    (hearly : s.tb < t + 1000000 * s.rdN Reg.HIE_ROLL_DRAIN_S) : tryActivate s = s := by
  simp only [tryActivate, hf, ht, hnew, himage, hactive, decide_eq_true hearly]
  rfl

theorem exec_rollSoakExpire_of_no_follow {s : State} (h : s.hie.follow = none) : exec .rollSoakExpire s = .next s := by
  simp only [exec_rollSoakExpire, execRollSoakExpire, h]

/-- ROLL_SOAK_EXPIRE does nothing before the image is activated and soaked (R286). -/
theorem exec_rollSoakExpire_of_early {s : State} {f : Follow} (hf : s.hie.follow = some f)
    (h : f.activated = false ∨ soaked s = false) : exec .rollSoakExpire s = .next s := by
  have hwait : (!f.activated || !soaked s) = true := by rcases h with h | h <;> simp [h]
  simp only [exec_rollSoakExpire, execRollSoakExpire, hf, hwait, if_true]

/-! ### Answers of the links -/

theorem exec_ack_of_unasked {src rtag e ra sec : Nat} {st : Word} {v : Bool} {s u : State}
    (h : takeReq src rtag (hear src s) = (none, u)) : exec (.ack src rtag e st ra sec v) s = .next u := by
  simp only [exec_ack, execAck, h]

/-- The ACK of a STATUS with a valid overhead ratio (20, R432). -/
theorem exec_ack_of_status {src rtag ra sec : Nat} {st : Word} {s u : State} {r : HReq}
    (h : takeReq src rtag (hear src s) = (some r, u)) (htype : r.type = 0x74) :
    exec (.ack src rtag 0x74 st ra sec true) s = .next (applyOverhead sec ra u) := by
  simp only [exec_ack, execAck, h, htype, ne_eq, not_true, if_false, if_true]

/-! ### Waits of pool levels (R301, R302) -/

theorem exec_waitMonitorThreshold_downward {l us : Nat} {s : State} (hl : 1 ≤ l ∧ l ≤ 5) :
    exec (.waitMonitorThreshold l us false) s = .next (
      if s.rdN Reg.FLT_PRG_THRESH_US < us then
        let u := s.bump (Reg.FLT_PRG_STALL_CNT l)
        if u.rdN (Reg.FLT_PRG_STALL_MAX_US l) < us then u.putN (Reg.FLT_PRG_STALL_MAX_US l) (min us 0xFFFFFFFF) else u
      else s) := by
  rw [exec_waitMonitorThreshold, execWaitMonitorThreshold, onUnit_next (by simp [hl])]
  rfl

/-- Settles O45, each command by the lemma of the case it is in. -/
theorem firmwareRollout : Obligations.FirmwareRollout := by
  unfold Obligations.FirmwareRollout
  refine ⟨?startNot, ?start, ?halt, ?resumeNot, ?resume, ?offerAgain, ?offer, ?activate, ?confirm, ?report, ?drainNone,
    ?draining, ?soakNone, ?soaking, ?lateNot, ?late, ?ackNone, ?ackStatus, ?hold, ?waitShort, ?waitLong⟩
  case startNot =>
    intro w c r s h
    rw [exec_rollStart, execRollStart, rollStart_of_unready h]
  case start =>
    intro w c r s hrole hidle himage
    refine ⟨rolloutBegun w c r s, ?_, rfl, rfl, rfl, rdN_rolloutBegun w c r s _, rdN_rolloutBegun w c r s _⟩
    rw [exec_rollStart, execRollStart, rollStart_of_ready hrole hidle himage]
  case halt => exact fun s => rfl
  case resumeNot =>
    intro s h
    rw [exec_rollResume, execRollResume, rollResume_of_unhalted h]
  case resume =>
    intro s hrole hhalted hplan
    refine ⟨rolloutResumed s, ?_, rfl, rfl⟩
    rw [exec_rollResume, execRollResume, rollResume_of_halted hrole hhalted hplan]
  case offerAgain =>
    intro src rtag w m v n d s hin hsame
    rw [exec_rollOffer, execRollOffer, rollOffer_of_repeated hin hsame]
  case offer =>
    intro src rtag w m v n d s u hin hnone hu
    rw [exec_rollOffer, execRollOffer, rollOffer_of_first hin hnone hu]
  case activate =>
    rintro src rtag m s _ rfl
    rfl
  case confirm =>
    rintro src rtag m s _ rfl
    rfl
  case report =>
    rintro src rtag m st s _ rfl
    rfl
  case drainNone =>
    intro s h
    rw [exec_rollDrainExpire, execRollDrainExpire, tryActivate_of_no_follow h]
  case draining =>
    intro s f t hf ht hnew himage hactive hearly
    rw [exec_rollDrainExpire, execRollDrainExpire, tryActivate_of_draining hf ht hnew himage hactive hearly]
  case soakNone => exact fun s h => exec_rollSoakExpire_of_no_follow h
  case soaking => exact fun s f hf h => exec_rollSoakExpire_of_early hf h
  case lateNot =>
    intro n s h
    rw [exec_rollReportTimeout, execRollReportTimeout, if_neg (by simp [h])]
  case late =>
    intro n t s hduty hsent hlate
    have hdue : s.hie.roll.sent.any (fun x => x.1 == n &&
        decide (x.2 + 1000000 * (s.rdN Reg.HIE_ROLL_SOAK_S + 600) ≤ s.tb)) = true :=
      List.any_eq_true.mpr ⟨(n, t), hsent, by simp [hlate]⟩
    rw [exec_rollReportTimeout, execRollReportTimeout, if_pos ⟨hduty, hdue⟩]
  case ackNone => exact fun src rtag e st ra sec v s u h => exec_ack_of_unasked h
  case ackStatus => exact fun src rtag st ra sec s u r h htype => exec_ack_of_status h htype
  case hold => exact fun n s => rfl
  case waitShort =>
    intro l us s hl hus
    rw [exec_waitMonitorThreshold_downward hl, if_neg (Nat.not_lt.mpr hus)]
  case waitLong =>
    rintro l us s _ hl hus rfl
    rw [exec_waitMonitorThreshold_downward hl, if_pos hus]

end Sys2Proof.Machine
end

section
/-! The prefix directory (05, R121 to R123): announcements, queries, answers, remote pins and their leases. -/

namespace Sys2Proof.Machine

/-! ### Announcements and queries -/

theorem exec_dirAnnounce_of_worker {src d kg : Nat} {p : Bool} {hs : List DWord} {s : State} (h : role (hear src s) = 0) :
    exec (.dirAnnounce src d kg p hs) s = .next (hear src s) := by
  simp only [exec_dirAnnounce, execDirAnnounce, if_pos h]

/-- The announcement as a manager's directory takes it: every hash is noted under the announcing sled. -/
def announced (src d kg : Nat) (p : Bool) (hs : List DWord) (s : State) : State :=
  hs.foldl (fun s h => dirNote p ⟨h, d, kg, src⟩ s) (hear src s)

/-- The topmost manager has nobody to pass an announcement to. -/
theorem exec_dirAnnounce_of_top {src d kg : Nat} {p : Bool} {hs : List DWord} {s : State} (hrole : role (hear src s) ≠ 0)
    (htop : mgrNode (announced src d kg p hs s) (role (announced src d kg p hs s)) = none) :
    exec (.dirAnnounce src d kg p hs) s = .next (announced src d kg p hs s) := by
  unfold announced at htop ⊢
  simp only [exec_dirAnnounce, execDirAnnounce, if_neg hrole, htop]

theorem exec_dirQuery_of_no_directory {src rtag d kg id : Nat} {hs : List DWord} {s : State}
    (h : role (hear src s) = 0 ∨ (hear src s).fwDown = true) :
    exec (.dirQuery src rtag d kg id hs) s = .next ((hear src s).sendAs 0 rtag 0x52 src [0, domField d kg, id, 0, 1]) := by
  simp only [exec_dirQuery, execDirQuery, if_pos h]

/-- The topmost manager answers from its own directory, match or miss. -/
theorem exec_dirQuery_of_top {src rtag d kg id : Nat} {hs : List DWord} {s : State} (hrole : role (hear src s) ≠ 0)
    (hup : (hear src s).fwDown = false) (htop : mgrNode (hear src s) (role (hear src s)) = none) :
    exec (.dirQuery src rtag d kg id hs) s = .next ((hear src s).sendAs 0 rtag 0x52 src
      [(dirBest (hear src s) d kg hs).2, domField d kg, id, (dirBest (hear src s) d kg hs).1, 0]) := by
  have hkeeps : ¬(role (hear src s) = 0 ∨ (hear src s).fwDown = true) := by simp [hrole, hup]
  simp only [exec_dirQuery, execDirQuery, if_neg hkeeps, htop]

/-! ### Answers to a query -/

/-- The lookup that a DIR_ANSWER of this domain, KEYGEN and query answers: one that has not asked a holder yet. -/
def queryWait (d kg id : Nat) (s : State) : Option DirWait :=
  s.pfx.waits.find? (fun w => w.id == id && w.holder.isNone && w.dom == d && w.keygen == kg)

theorem exec_dirAnswer_of_unawaited {src n d kg id h st : Nat} {s : State} (hw : queryWait d kg id (hear src s) = none) :
    exec (.dirAnswer src n d kg id h st) s = .next (relayAnswer id n d kg h st (hear src s)) := by
  unfold queryWait at hw
  simp only [exec_dirAnswer, execDirAnswer, hw]

theorem exec_dirAnswer_of_miss {src n d kg id h st : Nat} {s : State} {w : DirWait}
    (hw : queryWait d kg id (hear src s) = some w) (hmiss : n = 0 ∨ st ≠ 0) :
    exec (.dirAnswer src n d kg id h st) s = .next (waitMiss w (hear src s)) := by
  have hends : n = 0 ∨ st ≠ 0 ∨ (!w.live (hear src s)) = true := hmiss.imp_right Or.inl
  unfold queryWait at hw
  simp only [exec_dirAnswer, execDirAnswer, hw, if_pos hends]

/-! ### Remote pins and their answers -/

/-- The run `l` held under a new lease of the node that asked (R122). -/
def leaseRun (src : Nat) (l : List Nat) (s : State) : State :=
  { s with pfx := { s.pfx with
    leases := s.pfx.leases ++ [⟨s.pfx.nextLease, src, l, s.tb⟩], nextLease := (s.pfx.nextLease + 1) % 2 ^ 32 } }

/-- Only a run that has blocks takes a lease. -/
theorem exec_remotePin_of_run {src rtag d kg rq ten : Nat} {hs : List (BitVec 128)} {s u : State} {l : List Nat}
    (hrun : remoteRun d kg (hs.take 6) (hear src s) = (l, u)) :
    exec (.remotePin src rtag d kg rq ten hs) s = .next (
      if l = [] then u.sendAs ten rtag 0x54 src [0, domField d kg, rq, 0]
      else (leaseRun src l u).sendAs ten rtag 0x54 src [l.length, domField d kg, rq, u.pfx.nextLease]) := by
  simp only [exec_remotePin, execRemotePin, hrun]
  cases l with
  | nil => rfl
  | cons n l => rfl

/-- The lookup that a PIN_ANSWER of this node, domain, KEYGEN and request answers. -/
def pinRequestWait (src d kg rq : Nat) (s : State) : Option DirWait :=
  s.pfx.waits.find? (fun w => w.id == rq && w.holder == some src && w.dom == d && w.keygen == kg)

/-- REMOTE_UNPIN of a lease that is not wanted; no blocks means that there is no lease. -/
def returnLease (src n le : Nat) (s : State) : State :=
  if n = 0 then s
  else { s with pfx := { s.pfx with nextQuery := (s.pfx.nextQuery + 1) % 65536 } }.send 0x55 src [s.pfx.nextQuery, le]

/-- The first `n` hashes of a wait as blocks at their holder, in the order of the lease. -/
def pinnedRun (src n kg le : Nat) (w : DirWait) : List (BlockRef × Link) :=
  ((List.range (w.hashes.take n).length).zip (w.hashes.take n)).map (fun p => (.remote le src p.1, ⟨p.2, w.scope, kg⟩))

theorem exec_pinAnswer_of_unawaited {src n d kg rq le : Nat} {s : State} (hw : pinRequestWait src d kg rq (hear src s) = none) :
    exec (.pinAnswer src n d kg rq le) s = .next (returnLease src n le (hear src s)) := by
  unfold pinRequestWait at hw
  simp only [exec_pinAnswer, execPinAnswer, hw, returnLease]

/-- The pinned run joins the blocks of the context, and its lookup is over. -/
theorem exec_pinAnswer_of_live {src n d kg rq le : Nat} {s : State} {w : DirWait}
    (hw : pinRequestWait src d kg rq (hear src s) = some w) (hlive : w.live (dropWait w.id (hear src s)) = true) :
    exec (.pinAnswer src n d kg rq le) s =
      .next (finishLookup w.ctx (installRun w.ctx w.first (pinnedRun src n kg le w) (dropWait w.id (hear src s)))) := by
  have hcurrent : ¬((!w.live (dropWait w.id (hear src s))) = true) := by simp [hlive]
  unfold pinRequestWait at hw
  simp only [exec_pinAnswer, execPinAnswer, hw, if_neg hcurrent, pinnedRun]

/-! ### The end of a lease -/

theorem dropLease_of_lease {le : Nat} {s : State} {l : RLease} (h : s.pfx.leases.find? (fun l => l.id == le) = some l) :
    dropLease le s = l.entries.foldl (fun s n => unpin n s)
      { s with pfx := { s.pfx with leases := s.pfx.leases.filter (fun m => m.id != le) } } := by
  simp only [dropLease, h]

theorem exec_remoteLeaseExpire_of_lease {le : Nat} {s : State} {l : RLease}
    (h : s.pfx.leases.find? (fun l => l.id == le) = some l) :
    exec (.remoteLeaseExpire le) s =
      .next (if l.heard + 1000 * s.rdN Reg.TIER_PEER_LOSS ≤ s.tb then dropLease le s else s) := by
  simp only [exec_remoteLeaseExpire, execRemoteLeaseExpire, h]

/-! ### Announcements due -/

/-- Nothing is left to announce. -/
def announcementsCleared (s : State) : State := { s with pfx := { s.pfx with announce := [], announceAt := none } }

/-- Sent to the chassis manager or not, no announcement stays due (R121). -/
theorem exec_directoryAnnounceDue_clears (s : State) :
    ∃ t, exec .directoryAnnounceDue s = .next (announcementsCleared t) := ⟨_, rfl⟩

theorem exec_directoryAnnounceDue_of_no_manager {s : State} (h : mgrNode s 0 = none) :
    exec .directoryAnnounceDue s = .next (announcementsCleared s) := by
  have hnobody : (if outcast s then none else mgrNode s 0) = none := by simp [h]
  simp only [exec_directoryAnnounceDue, execDirectoryAnnounceDue, hnobody, announcementsCleared]

/-- Settles O51, each command by the lemma of the case it is in. -/
theorem prefixDirectory : Obligations.PrefixDirectory := by
  unfold Obligations.PrefixDirectory
  refine ⟨?announceHeard, ?announceNoted, ?queryRefused, ?queryAnswered, ?answerRelayed, ?answerMiss, ?pin, ?pinReturned,
    ?pinTaken, ?unpin, ?drop, ?expire, ?dueAlone, ?due⟩
  case announceHeard => exact fun src d kg p hs s h => exec_dirAnnounce_of_worker h
  case announceNoted =>
    rintro src d kg p hs s _ hrole rfl htop
    exact exec_dirAnnounce_of_top hrole htop
  case queryRefused => exact fun src rtag d kg id hs s h => exec_dirQuery_of_no_directory h
  case queryAnswered => exact fun src rtag d kg id hs s hrole hup htop => exec_dirQuery_of_top hrole hup htop
  case answerRelayed => exact fun src n d kg id h st s hw => exec_dirAnswer_of_unawaited hw
  case answerMiss => exact fun src n d kg id h st s w hw hmiss => exec_dirAnswer_of_miss hw hmiss
  case pin => exact fun src rtag d kg rq ten hs s u l hrun => exec_remotePin_of_run hrun
  case pinReturned => exact fun src n d kg rq le s hw => exec_pinAnswer_of_unawaited hw
  case pinTaken =>
    rintro src n d kg rq le s _ w hw rfl hlive
    exact exec_pinAnswer_of_live hw hlive
  case unpin => exact exec_remoteUnpin
  case drop => exact fun le s l h => dropLease_of_lease h
  case expire => exact fun le s l h => exec_remoteLeaseExpire_of_lease h
  case dueAlone => exact fun s h => exec_directoryAnnounceDue_of_no_manager h
  case due =>
    intro s _ _
    obtain ⟨t, ht⟩ := exec_directoryAnnounceDue_clears s
    exact ⟨announcementsCleared t, ht, rfl, rfl⟩

end Sys2Proof.Machine
end

section
/-! The context record snapshot (06, R143): what a tenant's window reads after a write of it, the frame of window writes, the
words of a record written one by one, and the two outcomes of a selection. -/

namespace Sys2Proof.Machine

/-! ### Reading a tenant's window -/

/-- A window write keeps the slot held or FREE. -/
@[simp] theorem isSome_ten_twPut (s : State) (slot a v k : Nat) : ((s.twPut slot a v).ten k).isSome = (s.ten k).isSome := by
  unfold State.twPut
  by_cases h : k = slot
  · rw [h, State.ten_updTen_same, Option.isSome_map]
  · rw [State.ten_updTen_ne _ _ h]

/-- A window register after a write of one: the value written, kept to 64 bits, or what was there. -/
theorem twRd_twPut {s : State} {slot : Nat} (h : (s.ten slot).isSome) (a v b : Nat) :
    (s.twPut slot a v).twRd slot b = if b = a then v % 2 ^ 64 else s.twRd slot b := by
  obtain ⟨t, ht⟩ := Option.isSome_iff_exists.mp h
  simp only [State.twRd, State.twPut, State.ten_updTen_same, ht, Option.map_some, mgetD_mputD]
  by_cases hb : b = a
  · subst hb
    rw [if_pos rfl, if_pos rfl, ite_eq_right_iff.mpr Eq.symm, BitVec.toNat_ofNat]
  · rw [if_neg hb, if_neg hb]

/-! ### The frame: only the window of one slot changes -/

/-- `t` is `s` but for the tenant of `slot`, and the admission state that holds it. -/
def OnlyWindowDiffers (slot : Nat) (s t : State) : Prop := (∀ k, k ≠ slot → t.ten k = s.ten k) ∧ ∃ a, t = { s with adm := a }

theorem OnlyWindowDiffers.refl (slot : Nat) (s : State) : OnlyWindowDiffers slot s s := ⟨fun _ _ => rfl, _, rfl⟩

theorem OnlyWindowDiffers.trans {slot : Nat} {s t u : State} (h : OnlyWindowDiffers slot s t) (g : OnlyWindowDiffers slot t u) :
    OnlyWindowDiffers slot s u := by
  obtain ⟨hten, _, rfl⟩ := h
  obtain ⟨gten, _, rfl⟩ := g
  exact ⟨fun k hk => (gten k hk).trans (hten k hk), _, rfl⟩

theorem OnlyWindowDiffers.ten_ne {slot k : Nat} {s t : State} (h : OnlyWindowDiffers slot s t) (hk : k ≠ slot) :
    t.ten k = s.ten k := h.1 k hk

theorem OnlyWindowDiffers.eq {slot : Nat} {s t : State} (h : OnlyWindowDiffers slot s t) : t = { s with adm := t.adm } := by
  obtain ⟨_, _, rfl⟩ := h; rfl

theorem onlyWindowDiffers_twPut (slot a v : Nat) (s : State) : OnlyWindowDiffers slot s (s.twPut slot a v) :=
  ⟨fun _ hk => State.ten_updTen_ne _ _ hk, _, rfl⟩

/-! ### Words of TW_CTX_DATA written one by one -/

theorem ctxData_injective : Function.Injective Reg.TW_CTX_DATA := fun i j h => by
  unfold Reg.TW_CTX_DATA at h; omega

theorem ctxData_zero_le (i : Nat) : Reg.TW_CTX_DATA 0 ≤ Reg.TW_CTX_DATA i := by
  unfold Reg.TW_CTX_DATA; omega

/-- Write each value of a list in the word of TW_CTX_DATA it is numbered with. -/
def putWords (slot : Nat) (l : List (Nat × Nat)) (s : State) : State :=
  l.foldl (fun s w => s.twPut slot (Reg.TW_CTX_DATA w.1) w.2) s

theorem putSnapshot_eq_putWords (slot : Nat) (ws : List Nat) (s : State) :
    putSnapshot slot ws s = putWords slot ((List.range 64).zip ws) s := rfl

theorem putWords_cons (slot : Nat) (w : Nat × Nat) (l : List (Nat × Nat)) (s : State) :
    putWords slot (w :: l) s = putWords slot l (s.twPut slot (Reg.TW_CTX_DATA w.1) w.2) := rfl

theorem onlyWindowDiffers_putWords (slot : Nat) (l : List (Nat × Nat)) (s : State) :
    OnlyWindowDiffers slot s (putWords slot l s) := by
  induction l generalizing s with
  | nil => exact .refl slot s
  | cons w l ih => exact (onlyWindowDiffers_twPut slot _ _ s).trans (ih _)

theorem twRd_putWords_ne {s : State} {slot b : Nat} (hs : (s.ten slot).isSome) {l : List (Nat × Nat)}
    (hb : ∀ w ∈ l, b ≠ Reg.TW_CTX_DATA w.1) : (putWords slot l s).twRd slot b = s.twRd slot b := by
  induction l generalizing s with
  | nil => rfl
  | cons w l ih =>
    obtain ⟨hw, hl⟩ := List.forall_mem_cons.mp hb
    rw [putWords_cons, ih (by simpa using hs) hl, twRd_twPut hs, if_neg hw]

/-- Where no word is written twice, each reads as the value written in it. -/
theorem twRd_putWords_mem {s : State} {slot i x : Nat} (hs : (s.ten slot).isSome) {l : List (Nat × Nat)}
    (hnodup : (l.map Prod.fst).Nodup) (hmem : (i, x) ∈ l) :
    (putWords slot l s).twRd slot (Reg.TW_CTX_DATA i) = x % 2 ^ 64 := by
  induction l generalizing s with
  | nil => cases hmem
  | cons w l ih =>
    obtain ⟨hw, hl⟩ := List.nodup_cons.mp hnodup
    have hs' : ((s.twPut slot (Reg.TW_CTX_DATA w.1) w.2).ten slot).isSome := by simpa using hs
    rw [putWords_cons]
    cases hmem with
    | head =>
      have hrest : ∀ v ∈ l, Reg.TW_CTX_DATA i ≠ Reg.TW_CTX_DATA v.1 := fun v hv heq =>
        hw (List.mem_map.mpr ⟨v, hv, (ctxData_injective heq).symm⟩)
      rw [twRd_putWords_ne hs' hrest, twRd_twPut hs, if_pos rfl]
    | tail _ hmem => exact ih hs' hl hmem

/-! ### The snapshot -/

theorem nodup_fst_zip_range (n : Nat) (ws : List Nat) : (((List.range n).zip ws).map Prod.fst).Nodup := by
  rw [List.zip_eq_zip_take_min, List.map_fst_zip (by simp)]
  exact List.nodup_range.sublist (List.take_sublist _ _)

theorem twRd_putSnapshot_data {s : State} {slot i x : Nat} (hs : (s.ten slot).isSome) {ws : List Nat} (hi : i < 64)
    (hx : ws[i]? = some x) : (putSnapshot slot ws s).twRd slot (Reg.TW_CTX_DATA i) = x % 2 ^ 64 := by
  have hmem : (i, x) ∈ (List.range 64).zip ws :=
    List.mem_of_getElem? (i := i) (List.getElem?_zip_eq_some.mpr ⟨List.getElem?_range hi, hx⟩)
  exact twRd_putWords_mem hs (nodup_fst_zip_range 64 ws) hmem

/-- The snapshot leaves the window's registers below TW_CTX_DATA alone. -/
theorem twRd_putSnapshot_below {s : State} {slot b : Nat} (hs : (s.ten slot).isSome) (ws : List Nat)
    (hb : b < Reg.TW_CTX_DATA 0) : (putSnapshot slot ws s).twRd slot b = s.twRd slot b :=
  twRd_putWords_ne hs fun w _ => Nat.ne_of_lt (Nat.lt_of_lt_of_le hb (ctxData_zero_le w.1))

theorem length_ctxRecord_le (s : State) (c : Ctx) : (ctxRecord s c).length ≤ 64 := List.length_take_le _ _

/-! ### The selection (R143) -/

/-- Context number `n` selected with the outcome `status` and the record `ws`. -/
def selected (slot n status : Nat) (ws : List Nat) (s : State) : State :=
  putSnapshot slot ws ((s.twPut slot Reg.TW_CTX_SEL n).twPut slot Reg.TW_CTX_STATUS status)

/-- An own context is selected with VALID and its record. -/
theorem selectCtx_of_own {s : State} {slot v : Nat} {c : Ctx} (hc : s.ctx (v % 16384) = some c) (hslot : c.slot = slot) :
    selectCtx slot v s =
      selected slot (v % 16384) 1 (ctxRecord (s.twPut slot Reg.TW_CTX_SEL (v % 16384)) c) s := by
  have hc' : (s.twPut slot Reg.TW_CTX_SEL (v % 16384)).ctx (v % 16384) = some c := hc
  simp only [selectCtx, hc', if_pos hslot, selected]

/-- Any other number is selected with DENIED and zeros. -/
theorem selectCtx_of_not_own {s : State} {slot v : Nat}
    (hc : (s.ctx (v % 16384)).any (fun c => c.slot == slot) = false) :
    selectCtx slot v s = selected slot (v % 16384) 2 (List.replicate 64 0) s := by
  have hctx : (s.twPut slot Reg.TW_CTX_SEL (v % 16384)).ctx (v % 16384) = s.ctx (v % 16384) := rfl
  simp only [selectCtx, hctx, selected]
  cases h : s.ctx (v % 16384) with
  | none => rfl
  | some c =>
    have hslot : c.slot ≠ slot := by simpa [h] using hc
    simp only [if_neg hslot]

section
variable {s : State} {slot : Nat} (hs : (s.ten slot).isSome) (n status : Nat) (ws : List Nat)
include hs

theorem twRd_selected_sel : (selected slot n status ws s).twRd slot Reg.TW_CTX_SEL = n % 2 ^ 64 := by
  rw [selected, twRd_putSnapshot_below (by simpa using hs) ws (by decide), twRd_twPut (by simpa using hs), if_neg (by decide),
    twRd_twPut hs, if_pos rfl]

theorem twRd_selected_status : (selected slot n status ws s).twRd slot Reg.TW_CTX_STATUS = status % 2 ^ 64 := by
  rw [selected, twRd_putSnapshot_below (by simpa using hs) ws (by decide), twRd_twPut (by simpa using hs), if_pos rfl]

theorem twRd_selected_data {ws : List Nat} {i x : Nat} (hi : i < 64) (hx : ws[i]? = some x) :
    (selected slot n status ws s).twRd slot (Reg.TW_CTX_DATA i) = x % 2 ^ 64 :=
  twRd_putSnapshot_data (by simpa using hs) hi hx

end

theorem onlyWindowDiffers_selected (slot n status : Nat) (ws : List Nat) (s : State) :
    OnlyWindowDiffers slot s (selected slot n status ws s) :=
  ((onlyWindowDiffers_twPut slot _ _ s).trans (onlyWindowDiffers_twPut slot _ _ _)).trans (onlyWindowDiffers_putWords slot _ _)

/-- A write of TW_CTX_SEL acts on the slot its window shows. -/
theorem exec_twCtxSelWrite_of_window {f : Nat} {win : Option Nat} {s : State} {slot : Nat} (value : Word) (hf : f < 32)
    (hwin : windowSlot s f win = some slot) :
    exec (.twCtxSelWrite f win value) s = .next (selectCtx slot value.toNat s) := by
  rw [exec_twCtxSelWrite, execTwCtxSelWrite, onWindow, hwin, onUnit_next (decide_eq_true hf)]

/-- Settles O27: either outcome of a selection is `selected`, whose registers read as written. -/
theorem contextRecordSnapshot : Obligations.ContextRecordSnapshot := by
  unfold Obligations.ContextRecordSnapshot
  refine ⟨?own, ?denied⟩
  case own =>
    intro f win value s slot u c hf hwin hu hc hslot
    have hs : (s.ten slot).isSome := Option.isSome_of_eq_some hu
    have hframe := onlyWindowDiffers_selected slot (value.toNat % 16384) 1
      (ctxRecord (s.twPut slot Reg.TW_CTX_SEL (value.toNat % 16384)) c) s
    refine ⟨_, (exec_twCtxSelWrite_of_window value hf hwin).trans (congrArg _ (selectCtx_of_own hc hslot)), ?_,
      twRd_selected_status hs _ _ _, ?_, fun _ => hframe.ten_ne, hframe.eq⟩
    · rw [twRd_selected_sel hs]
      omega
    · intro i x hx
      have hi : i < 64 := Nat.lt_of_lt_of_le (List.getElem?_eq_some_iff.mp hx).1 (length_ctxRecord_le _ _)
      exact twRd_selected_data hs _ _ hi hx
  case denied =>
    intro f win value s slot u hf hwin hu hc
    have hs : (s.ten slot).isSome := Option.isSome_of_eq_some hu
    have hframe := onlyWindowDiffers_selected slot (value.toNat % 16384) 2 (List.replicate 64 0) s
    refine ⟨_, (exec_twCtxSelWrite_of_window value hf hwin).trans (congrArg _ (selectCtx_of_not_own hc)), ?_,
      twRd_selected_status hs _ _ _, ?_, fun _ => hframe.ten_ne, hframe.eq⟩
    · rw [twRd_selected_sel hs]
      omega
    · intro i hi
      exact twRd_selected_data hs _ _ hi (List.getElem?_replicate_of_lt hi)

end Sys2Proof.Machine
end

section
/-! The shared shape of the cluster instructions (08, R166, R167, R171): a register update that goes on, a branch, and the scalar
operations of R170 as bit vector operations. -/

namespace Sys2Proof.Machine

/-! ### Issue and going on -/

/-- An update of a cluster that leaves its launch and its index alone. -/
def SamePlace (c c' : Cluster) : Prop := c'.launch = c.launch ∧ c'.pc = c.pc

theorem SamePlace.setS (c : Cluster) (i : Nat) (v : DWord) : SamePlace c (c.setS i v) := ⟨c.setS_launch i v, c.setS_pc i v⟩

theorem SamePlace.setP (c : Cluster) (i : Nat) (v : DWord) : SamePlace c (c.setP i v) := ⟨c.setP_launch i v, c.setP_pc i v⟩

/-- A change of the registers of a cluster that stays at its place: it goes on. -/
theorem cUpd_of_samePlace {s : State} {k : Nat} {c : Cluster} {l : Launch} {f : Cluster → Cluster} (hc : s.clu k = some c)
    (hl : s.lch c.launch = some l) (hf : Follows l (c.pc + 1)) (hp : SamePlace c (f c)) :
    cUpd k f s = s.setClu k (onward (f c)) := by
  obtain ⟨hlaunch, hpc⟩ := hp
  exact cUpd_of hc (by rw [hlaunch]; exact hl) (by rw [hpc]; exact hf)

section
variable {s : State} {k major : Nat} {w : BitVec 56} {c : Cluster} {l : Launch} {enc : Enc}
  (h : Issuing s k major w c l) (hg : Guarded c major w) (he : enc.ok (wordOf major w) = true)
include h hg he

/-- An instruction that is not a vector instruction and passes its checks has its effect (R167). -/
theorem cIssue_of {body : Cluster → Launch → Nat → State → State} :
    cIssue k major w enc noMore body s = .next (body c l (wordOf major w) s) := issue_of h he rfl hg

/-- An instruction that changes registers and goes on. -/
theorem cIssue_cUpd {f : Cluster → Launch → Nat → Cluster → Cluster} {c' : Cluster} (hf : Follows l (c.pc + 1))
    (hc' : f c l (wordOf major w) c = c') (hp : SamePlace c c') :
    cIssue k major w enc noMore (fun c l w => cUpd k (f c l w)) s = .next (s.setClu k (onward c')) := by
  obtain ⟨-, hc, hl, -, -⟩ := id h
  subst hc'
  rw [cIssue_of h hg he, cUpd_of_samePlace hc hl hf hp]

end

/-! ### The scalar operations -/

theorem alu_mulh (x y : DWord) : alu 0x04 x y = (x.signExtend 128 * y.signExtend 128).extractLsb' 64 64 := by
  have hprod : x.signExtend 128 * y.signExtend 128 = BitVec.ofInt 128 (x.toInt * y.toInt) := by
    rw [BitVec.signExtend, BitVec.signExtend, BitVec.ofInt_mul]
  apply BitVec.eq_of_toNat_eq
  rw [hprod, BitVec.extractLsb'_toNat, BitVec.toNat_ofInt, Nat.shiftRight_eq_div_pow]
  simp only [alu, BitVec.toNat_ofInt]
  generalize x.toInt * y.toInt = z
  omega

theorem alu_mulhu (x y : DWord) : alu 0x05 x y = (x.zeroExtend 128 * y.zeroExtend 128).extractLsb' 64 64 := by
  have hprod : x.toNat * y.toNat < 2 ^ 128 := by
    calc x.toNat * y.toNat < 2 ^ 64 * 2 ^ 64 := Nat.mul_lt_mul'' x.isLt y.isLt
      _ = 2 ^ 128 := (Nat.pow_add 2 64 64).symm
  apply BitVec.eq_of_toNat_eq
  simp only [alu, BitVec.extractLsb'_toNat, BitVec.toNat_mul, BitVec.toNat_setWidth, BitVec.toNat_ofNat, BitVec.zeroExtend,
    Nat.shiftRight_eq_div_pow]
  rw [Nat.mod_eq_of_lt (a := x.toNat) (by omega), Nat.mod_eq_of_lt (a := y.toNat) (by omega), Nat.mod_eq_of_lt hprod]

theorem aluDiv_eq (x y : DWord) : aluDiv x y = if y = 0 then -1 else x.sdiv y := by
  have hdiv : BitVec.ofInt 64 (x.toInt.tdiv y.toInt) = x.sdiv y :=
    BitVec.eq_of_toInt_eq (by rw [BitVec.toInt_ofInt, BitVec.toInt_sdiv])
  rw [aluDiv, hdiv]

theorem aluRem_eq (x y : DWord) : aluRem x y = if y = 0 then x else x.srem y := by
  rw [aluRem, ← BitVec.toInt_srem, BitVec.ofInt_toInt]

theorem alu_divu (x y : DWord) : alu 0x07 x y = if y = 0 then -1 else x.udiv y := by
  simp only [alu, ← BitVec.udiv_def]; rfl

theorem alu_remu (x y : DWord) : alu 0x09 x y = if y = 0 then x else x.umod y := by
  simp only [alu, ← BitVec.umod_def]; rfl

theorem alu_min (x y : DWord) : alu 0x10 x y = if x.toInt < y.toInt then x else y := by
  simp only [alu, BitVec.slt_iff_toInt_lt]

theorem alu_max (x y : DWord) : alu 0x11 x y = if x.toInt < y.toInt then y else x := by
  simp only [alu, BitVec.slt_iff_toInt_lt]

theorem alu_minu (x y : DWord) : alu 0x12 x y = if x.toNat < y.toNat then x else y := by
  simp only [alu, BitVec.ult_iff_lt, BitVec.lt_def]

theorem alu_maxu (x y : DWord) : alu 0x13 x y = if x.toNat < y.toNat then y else x := by
  simp only [alu, BitVec.ult_iff_lt, BitVec.lt_def]

end Sys2Proof.Machine
end

section
/-! The scalar instructions of a cluster (08, R170, Tables CLU-15 and CLU-26). -/

namespace Sys2Proof.Machine

/-- A row of the operations on two s registers: its instruction is `scalarRR` of its major, which computes its function. -/
def ScalarRow (p : (Nat → BitVec 56 → Instr) × Nat × (DWord → DWord → DWord)) : Prop :=
  (∀ k w s, exec (p.1 k w) s = scalarRR p.2.1 k w s) ∧ ∀ x y, alu p.2.1 x y = p.2.2 x y

/-- A row of the operations on an s register and the immediate, as the operation `op` of `alu`. -/
def ImmediateRow (p : (Nat → BitVec 56 → Instr) × Nat × (DWord → DWord → DWord)) (op : Nat) : Prop :=
  (∀ k w s, exec (p.1 k w) s = scalarRI p.2.1 op k .imm w s) ∧ ∀ x y, alu op x y = p.2.2 x y

/-- A row of the shifts by the immediate, as the operation `op` of `alu`. -/
def ShiftRow (p : (Nat → BitVec 56 → Instr) × Nat × (DWord → Nat → DWord)) (op : Nat) : Prop :=
  (∀ k w s, exec (p.1 k w) s = scalarRI p.2.1 op k (.immBelow 64) w s) ∧ ∀ x y, alu op x y = p.2.2 x (y.toNat % 64)

/-- An immediate below 64 shifts by its own value. -/
theorem toNat_wImm_of_lt {w : Nat} (h : wImmU w < 64) : (wImm w).toNat % 64 = wImmU w := by
  have himm : bits w 0 32 = w % 2 ^ 32 := by simp [bits]
  rw [wImmU, himm] at h ⊢
  rw [wImm, BitVec.toNat_signExtend]
  simp only [BitVec.toNat_setWidth, BitVec.toNat_ofNat, BitVec.msb_eq_decide]
  rw [if_neg (by simp; omega)]
  omega

section
variable {s : State} {k major : Nat} {w : BitVec 56} {c : Cluster} {l : Launch} (h : Issuing s k major w c l)
  (hg : Guarded c major w) (hf : Follows l (c.pc + 1))
include h hg hf

theorem scalarRR_of (he : Enc.ok ⟨.r32, .r32, .r32, .no, plainR⟩ (wordOf major w) = true) :
    scalarRR major k w s = .next (s.setClu k (onward
      ((if aluDivzero major (c.sr (wB (wordOf major w))) then c.flag fDivzero else c).setS (wD (wordOf major w))
        (alu major (c.sr (wA (wordOf major w))) (c.sr (wB (wordOf major w))))))) := by
  refine cIssue_cUpd h hg he hf rfl ?_
  split
  · exact .setS _ _ _
  · exact .setS _ _ _

theorem scalarRI_of {op : Nat} {low : Low} (he : Enc.ok ⟨.r32, .r32, .no, .no, low⟩ (wordOf major w) = true) :
    scalarRI major op k low w s = .next (s.setClu k (onward
      (c.setS (wD (wordOf major w)) (alu op (c.sr (wA (wordOf major w))) (wImm (wordOf major w)))))) :=
  cIssue_cUpd h hg he hf rfl (.setS _ _ _)

/-- A row with no zero divisor. -/
theorem ScalarRow.exec_eq {p : (Nat → BitVec 56 → Instr) × Nat × (DWord → DWord → DWord)} (hp : ScalarRow p) (hm : p.2.1 = major)
    (hz : ∀ y, aluDivzero major y = false) (he : Enc.ok ⟨.r32, .r32, .r32, .no, plainR⟩ (wordOf major w) = true) :
    exec (p.1 k w) s = .next (s.setClu k (onward (c.setS (wD (wordOf major w))
      (p.2.2 (c.sr (wA (wordOf major w))) (c.sr (wB (wordOf major w))))))) := by
  subst hm
  rw [hp.1, scalarRR_of h hg hf he, hp.2, hz]
  rfl

/-- A row of the divisions: a zero divisor sets DIVZERO. -/
theorem ScalarRow.exec_division {p : (Nat → BitVec 56 → Instr) × Nat × (DWord → DWord → DWord)} (hp : ScalarRow p)
    (hm : p.2.1 = major) (hz : ∀ y, aluDivzero major y = (y == 0))
    (he : Enc.ok ⟨.r32, .r32, .r32, .no, plainR⟩ (wordOf major w) = true) :
    exec (p.1 k w) s = .next (s.setClu k (onward ((if c.sr (wB (wordOf major w)) = 0 then c.flag fDivzero else c).setS
      (wD (wordOf major w)) (p.2.2 (c.sr (wA (wordOf major w))) (c.sr (wB (wordOf major w))))))) := by
  subst hm
  rw [hp.1, scalarRR_of h hg hf he, hp.2, hz]
  simp only [beq_iff_eq]

theorem ImmediateRow.exec_eq {p : (Nat → BitVec 56 → Instr) × Nat × (DWord → DWord → DWord)} {op : Nat} (hp : ImmediateRow p op)
    (hm : p.2.1 = major) (hb : wB (wordOf major w) = 0) (hc : wC (wordOf major w) = 0) :
    exec (p.1 k w) s = .next (s.setClu k (onward (c.setS (wD (wordOf major w))
      (p.2.2 (c.sr (wA (wordOf major w))) (wImm (wordOf major w)))))) := by
  subst hm
  rw [hp.1, scalarRI_of h hg hf (by simp only [Enc.ok, Fld.ok, Low.ok, hb, hc]; rfl), hp.2]

theorem ShiftRow.exec_eq {p : (Nat → BitVec 56 → Instr) × Nat × (DWord → Nat → DWord)} {op : Nat} (hp : ShiftRow p op)
    (hm : p.2.1 = major) (hb : wB (wordOf major w) = 0) (hc : wC (wordOf major w) = 0) (hi : wImmU (wordOf major w) < 64) :
    exec (p.1 k w) s = .next (s.setClu k (onward (c.setS (wD (wordOf major w))
      (p.2.2 (c.sr (wA (wordOf major w))) (wImmU (wordOf major w)))))) := by
  subst hm
  rw [hp.1, scalarRI_of h hg hf (by simp only [Enc.ok, Fld.ok, Low.ok, hb, hc, hi]; rfl), hp.2, toNat_wImm_of_lt hi]

end

/-- MOVSYS of a system value other than the cycle count. -/
theorem exec_clMovsys_of {s : State} {k : Nat} {w : BitVec 56} {c : Cluster} {l : Launch} (h : Issuing s k 0x24 w c l)
    (hg : Guarded c 0x24 w) (he : Enc.ok ⟨.r32, .no, .no, .no, .immBelow 10⟩ (wordOf 0x24 w) = true)
    (hcycles : wImmU (wordOf 0x24 w) ≠ 2) (hf : Follows l (c.pc + 1)) :
    exec (.clMovsys k w) s =
      .next (s.setClu k (onward (c.setS (wD (wordOf 0x24 w)) (sysValue s c l (wImmU (wordOf 0x24 w)))))) := by
  obtain ⟨-, hc, hl, -, -⟩ := id h
  rw [exec_clMovsys, execClMovsys, cIssue_of h hg he]
  simp only [if_neg hcycles]
  rw [cUpd_of_samePlace hc hl hf (.setS _ _ _)]

/-- Settles O10: each row of the tables is one operation of `alu`, and the other instructions change registers and go on. -/
theorem clusterScalarInstructions : Obligations.ClusterScalarInstructions := by
  unfold Obligations.ClusterScalarInstructions
  refine ⟨?plain, ?division, ?immediate, ?shift, ?nop, ?li, ?lih, ?movsys, ?clrfl, ?tdset, ?tdget, ?tdadd, ?hset, ?hget, ?hmov⟩
  case plain =>
    intro p k w s c l hp h hg he hf
    have hrow : ScalarRow p := by
      simp only [List.mem_cons, List.not_mem_nil, or_false] at hp
      rcases hp with rfl | rfl | rfl | rfl | rfl | rfl | rfl | rfl | rfl | rfl | rfl | rfl | rfl | rfl | rfl
      · exact ⟨fun _ _ _ => rfl, fun _ _ => rfl⟩
      · exact ⟨fun _ _ _ => rfl, fun _ _ => rfl⟩
      · exact ⟨fun _ _ _ => rfl, fun _ _ => rfl⟩
      · exact ⟨fun _ _ _ => rfl, alu_mulh⟩
      · exact ⟨fun _ _ _ => rfl, alu_mulhu⟩
      · exact ⟨fun _ _ _ => rfl, fun _ _ => rfl⟩
      · exact ⟨fun _ _ _ => rfl, fun _ _ => rfl⟩
      · exact ⟨fun _ _ _ => rfl, fun _ _ => rfl⟩
      · exact ⟨fun _ _ _ => rfl, fun _ _ => rfl⟩
      · exact ⟨fun _ _ _ => rfl, fun _ _ => rfl⟩
      · exact ⟨fun _ _ _ => rfl, fun _ _ => rfl⟩
      · exact ⟨fun _ _ _ => rfl, alu_min⟩
      · exact ⟨fun _ _ _ => rfl, alu_max⟩
      · exact ⟨fun _ _ _ => rfl, alu_minu⟩
      · exact ⟨fun _ _ _ => rfl, alu_maxu⟩
    have hz : ∀ y, aluDivzero p.2.1 y = false := by
      simp only [List.mem_cons, List.not_mem_nil, or_false] at hp
      rcases hp with rfl | rfl | rfl | rfl | rfl | rfl | rfl | rfl | rfl | rfl | rfl | rfl | rfl | rfl | rfl <;> exact fun _ => rfl
    exact hrow.exec_eq h hg hf rfl hz he
  case division =>
    intro p k w s c l hp h hg he hf
    have hrow : ScalarRow p := by
      simp only [List.mem_cons, List.not_mem_nil, or_false] at hp
      rcases hp with rfl | rfl | rfl | rfl
      · exact ⟨fun _ _ _ => rfl, aluDiv_eq⟩
      · exact ⟨fun _ _ _ => rfl, alu_divu⟩
      · exact ⟨fun _ _ _ => rfl, aluRem_eq⟩
      · exact ⟨fun _ _ _ => rfl, alu_remu⟩
    have hz : ∀ y, aluDivzero p.2.1 y = (y == 0) := by
      simp only [List.mem_cons, List.not_mem_nil, or_false] at hp
      rcases hp with rfl | rfl | rfl | rfl <;> exact fun _ => rfl
    exact hrow.exec_division h hg hf rfl hz he
  case immediate =>
    intro p k w s c l hp h hg hb hc hf
    obtain ⟨op, hrow⟩ : ∃ op, ImmediateRow p op := by
      simp only [List.mem_cons, List.not_mem_nil, or_false] at hp
      rcases hp with rfl | rfl | rfl | rfl
      · exact ⟨0x01, fun _ _ _ => rfl, fun _ _ => rfl⟩
      · exact ⟨0x0A, fun _ _ _ => rfl, fun _ _ => rfl⟩
      · exact ⟨0x0B, fun _ _ _ => rfl, fun _ _ => rfl⟩
      · exact ⟨0x0C, fun _ _ _ => rfl, fun _ _ => rfl⟩
    exact hrow.exec_eq h hg hf rfl hb hc
  case shift =>
    intro p k w s c l hp h hg hb hc hi hf
    obtain ⟨op, hrow⟩ : ∃ op, ShiftRow p op := by
      simp only [List.mem_cons, List.not_mem_nil, or_false] at hp
      rcases hp with rfl | rfl | rfl
      · exact ⟨0x0D, fun _ _ _ => rfl, fun _ _ => rfl⟩
      · exact ⟨0x0E, fun _ _ _ => rfl, fun _ _ => rfl⟩
      · exact ⟨0x0F, fun _ _ _ => rfl, fun _ _ => rfl⟩
    exact hrow.exec_eq h hg hf rfl hb hc hi
  case nop =>
    intro k w s c l h hg he hf
    obtain ⟨-, hc, hl, -, -⟩ := id h
    rw [exec_clNop, execClNop, cIssue_of h hg he, cNext_of hc hl hf]
  case li => exact fun k w s c l h hg he hf => (exec_clLi k w s).trans (cIssue_cUpd h hg he hf rfl (.setS _ _ _))
  case lih =>
    intro k w s c l h hg he hf
    rw [← BitVec.setWidth_eq_extractLsb' (by decide)]
    exact (exec_clLih k w s).trans (cIssue_cUpd h hg he hf rfl (.setS _ _ _))
  case movsys =>
    intro k w s c l h hg he hcycles hf
    rw [exec_clMovsys_of h hg he hcycles hf]
    generalize wImmU (wordOf 0x24 w) = n at hcycles
    match n with
    | 2 => exact absurd rfl hcycles
    | 0 | 1 | 3 | 4 | 5 | 6 | 7 | 8 | _ + 9 => rfl
  case clrfl => exact fun k w s c l h hg he hf => (exec_clClrfl k w s).trans (cIssue_cUpd h hg he hf rfl ⟨rfl, rfl⟩)
  case tdset => exact fun k w s c l h hg he hf => (exec_clTdset k w s).trans (cIssue_cUpd h hg he hf rfl ⟨rfl, rfl⟩)
  case tdget => exact fun k w s c l h hg he hf => (exec_clTdget k w s).trans (cIssue_cUpd h hg he hf rfl (.setS _ _ _))
  case tdadd => exact fun k w s c l h hg he hf => (exec_clTdadd k w s).trans (cIssue_cUpd h hg he hf rfl ⟨rfl, rfl⟩)
  case hset => exact fun k w s c l h hg he hf => (exec_clHset k w s).trans (cIssue_cUpd h hg he hf rfl ⟨rfl, rfl⟩)
  case hget => exact fun k w s c l h hg he hf => (exec_clHget k w s).trans (cIssue_cUpd h hg he hf rfl (.setS _ _ _))
  case hmov => exact fun k w s c l h hg he hf => (exec_clHmov k w s).trans (cIssue_cUpd h hg he hf rfl ⟨rfl, rfl⟩)
end Sys2Proof.Machine
end

section
/-! Predicates and branches of a cluster (08, Tables CLU-16 to CLU-18), and the instructions that a check or the guard turns off. -/

namespace Sys2Proof.Machine

/-! ### Predicates -/

/-- Table CLU-16 as comparisons of numbers. -/
theorem condHolds_eq (n : Nat) (x y : DWord) :
    condHolds n x y = match n with
      | 0 => decide (x = y)
      | 1 => decide (x ≠ y)
      | 2 => decide (x.toInt < y.toInt)
      | 3 => decide (x.toInt ≥ y.toInt)
      | 4 => decide (x.toNat < y.toNat)
      | _ => decide (x.toNat ≥ y.toNat) := by
  match n with
  | 0 => rfl
  | 1 => exact decide_not.symm
  | 2 => rfl
  | 3 => simp [condHolds, BitVec.slt, ← decide_not]
  | 4 => rfl
  | _ + 5 => simp [condHolds, BitVec.ult, ← decide_not]

/-- Settles O11: each of the three changes one register and goes on. -/
theorem clusterPredicates : Obligations.ClusterPredicates := by
  unfold Obligations.ClusterPredicates
  refine ⟨?cmp, ?cmpi, ?plog⟩
  case cmp =>
    intro k w s c l h hg he hf
    refine (exec_clCmp k w s).trans (cIssue_cUpd h hg he hf ?_ (.setP _ _ _))
    rw [condHolds_eq]; rfl
  case cmpi =>
    intro k w s c l h hg he hf
    refine (exec_clCmpi k w s).trans (cIssue_cUpd h hg he hf ?_ (.setP _ _ _))
    rw [condHolds_eq]; rfl
  case plog =>
    intro k w s c l h hg he hf
    refine (exec_clPlog k w s).trans (cIssue_cUpd h hg he hf rfl ?_)
    generalize wSub (wordOf 0x23 w) = sub
    match sub with
    | 0 | 1 | 2 | 3 | 4 | 5 => exact .setP _ _ _
    | _ + 6 => exact .setS _ _ _

/-! ### Branches -/

section
variable {s : State} {k major w : Nat} {c c₀ : Cluster} {l : Launch} {target : Int}

/-- A branch to an index that holds a defined instruction (R171), from the cluster's registers `c₀` as they were at issue. -/
theorem jump_of {t : Nat} (hc : s.clu k = some c) (hl : s.lch c.launch = some l) (ht : target = t) (hf : Follows l t) :
    jump k c₀ l major target s = s.setClu k { c with pc := t } := by
  subst ht
  have hin : t < l.code.length := by
    obtain ⟨x, hx, -⟩ := Option.map_eq_some_iff.mp hf
    obtain ⟨d, hd, -⟩ := Option.map_eq_some_iff.mp hx
    exact (List.getElem?_eq_some_iff.mp hd).1
  rw [jump, if_pos ⟨Int.natCast_nonneg t, by exact_mod_cast hin⟩, Int.toNat_natCast, goTo_of hc hl hf]

/-- A branch out of the program faults at the branch (R171). -/
theorem jump_outside (ht : target < 0 ∨ (l.code.length : Int) ≤ target) : jump k c l major target s = cProg k c major s := by
  rw [jump, if_neg (by omega)]

theorem branchIf_taken {t : Nat} {taken : Bool} (hb : taken = true) (hc : s.clu k = some c) (hl : s.lch c.launch = some l)
    (ht : (c₀.pc : Int) + (wImm w).toInt = t) (hf : Follows l t) :
    branchIf k c₀ l major taken w s = s.setClu k { c with pc := t } := by
  rw [branchIf, if_pos hb, jump_of hc hl ht hf]

theorem branchIf_outside {taken : Bool} (hb : taken = true)
    (ht : (c.pc : Int) + (wImm w).toInt < 0 ∨ (l.code.length : Int) ≤ (c.pc : Int) + (wImm w).toInt) :
    branchIf k c l major taken w s = cProg k c major s := by
  rw [branchIf, if_pos hb, jump_outside ht]

theorem branchIf_not_taken {taken : Bool} (hb : taken = false) (hc : s.clu k = some c) (hl : s.lch c.launch = some l)
    (hf : Follows l (c.pc + 1)) : branchIf k c₀ l major taken w s = s.setClu k (onward c) := by
  rw [branchIf, hb, if_neg Bool.false_ne_true, cNext_of hc hl hf]

end

/-- The same after a register update of the cluster: LOOP and CALL. -/
theorem branchIf_updClu_taken {s : State} {k major w t : Nat} {c c₀ : Cluster} {l : Launch} {taken : Bool}
    {f : Cluster → Cluster} (hb : taken = true) (hc : s.clu k = some c) (hl : s.lch c.launch = some l) (hp : SamePlace c (f c))
    (ht : (c₀.pc : Int) + (wImm w).toInt = t) (hf : Follows l t) :
    branchIf k c₀ l major taken w (s.updClu k f) = s.setClu k { f c with pc := t } := by
  rw [updClu_eq _ hc, branchIf_taken hb (clu_setClu_same _ _ _) (by rw [hp.1]; exact hl) ht hf, setClu_setClu]

theorem branchIf_updClu_not_taken {s : State} {k major w : Nat} {c c₀ : Cluster} {l : Launch} {taken : Bool}
    {f : Cluster → Cluster} (hb : taken = false) (hc : s.clu k = some c) (hl : s.lch c.launch = some l) (hp : SamePlace c (f c))
    (hf : Follows l (c.pc + 1)) : branchIf k c₀ l major taken w (s.updClu k f) = s.setClu k (onward (f c)) := by
  rw [updClu_eq _ hc, branchIf_not_taken hb (clu_setClu_same _ _ _) (by rw [hp.1]; exact hl) (by rw [hp.2]; exact hf),
    setClu_setClu]

/-- A rank with no failed move ends (R172). -/
theorem finishRank_of {s : State} {k : Nat} {c : Cluster} (hc : s.clu k = some c) (hfail : c.failed = []) :
    finishRank k s = s.setClu k { c with wait := none, ended := true } := by
  have hends : finishRank k s = s.updClu k (fun c => { c with wait := none, ended := true }) := by
    simp only [finishRank, hc, hfail]
  exact hends.trans (updClu_eq _ hc)

/-- Settles O12: each clause is the issue of the instruction, then a branch taken, not taken or out of the program. -/
theorem clusterBranches : Obligations.ClusterBranches := by
  unfold Obligations.ClusterBranches
  refine ⟨?br, ?brOut, ?bz, ?bzNot, ?bnz, ?bnzNot, ?loop, ?loopEnd, ?call, ?jr, ?jrOut, ?fin, ?finWaits⟩
  case br =>
    intro k t w s c l h hg he ht hf
    obtain ⟨-, hc, hl, -, -⟩ := id h
    rw [exec_clBr, execClBr, cIssue_of h hg he, branchIf_taken rfl hc hl ht hf]
  case brOut =>
    intro k t w s c l h hg he ht
    rw [exec_clBr, execClBr, cIssue_of h hg he, branchIf_outside rfl ht]
    rfl
  case bz =>
    intro k t w s c l h hg he hz ht hf
    obtain ⟨-, hc, hl, -, -⟩ := id h
    rw [exec_clBz, execClBz, cIssue_of h hg he, branchIf_taken (beq_iff_eq.mpr hz) hc hl ht hf]
  case bzNot =>
    intro k t w s c l h hg he hz hf
    obtain ⟨-, hc, hl, -, -⟩ := id h
    rw [exec_clBz, execClBz, cIssue_of h hg he, branchIf_not_taken (beq_eq_false_iff_ne.mpr hz) hc hl hf]
  case bnz =>
    intro k t w s c l h hg he hz ht hf
    obtain ⟨-, hc, hl, -, -⟩ := id h
    rw [exec_clBnz, execClBnz, cIssue_of h hg he, branchIf_taken (bne_iff_ne.mpr hz) hc hl ht hf]
  case bnzNot =>
    intro k t w s c l h hg he hz hf
    obtain ⟨-, hc, hl, -, -⟩ := id h
    rw [exec_clBnz, execClBnz, cIssue_of h hg he, branchIf_not_taken (bne_eq_false_iff_eq.mpr hz) hc hl hf]
  case loop =>
    intro k t w s c l h hg he hv ht hf
    obtain ⟨-, hc, hl, -, -⟩ := id h
    have hv' : c.sr (wA (wordOf 0x33 w)) - 1 ≠ 0 := fun hzero => hv ((BitVec.sub_eq_iff_eq_add.mp hzero).trans (BitVec.zero_add 1))
    rw [exec_clLoop, execClLoop, cIssue_of h hg he,
      branchIf_updClu_taken (bne_iff_ne.mpr hv') hc hl (.setS _ _ _) ht hf]
  case loopEnd =>
    intro k t w s c l h hg he hv hf
    obtain ⟨-, hc, hl, -, -⟩ := id h
    have hv' : c.sr (wA (wordOf 0x33 w)) - 1 = 0 :=
      (congrArg (· - 1) hv).trans (BitVec.sub_self 1)
    rw [exec_clLoop, execClLoop, cIssue_of h hg he,
      branchIf_updClu_not_taken (bne_eq_false_iff_eq.mpr hv') hc hl (.setS _ _ _) hf, hv']
  case call =>
    intro k t w s c l h hg he ht hf
    obtain ⟨-, hc, hl, -, -⟩ := id h
    rw [exec_clCall, execClCall, cIssue_of h hg he, branchIf_updClu_taken rfl hc hl (.setS _ _ _) ht hf]
  case jr =>
    intro k t w s c l h hg he ht hf
    obtain ⟨-, hc, hl, -, -⟩ := id h
    rw [exec_clJr, execClJr, cIssue_of h hg he, jump_of hc hl (by rw [ht]) hf]
  case jrOut =>
    intro k t w s c l h hg he ht
    rw [exec_clJr, execClJr, cIssue_of h hg he, jump_outside (.inr (by exact_mod_cast ht))]
    rfl
  case fin =>
    intro k t w s c l h hg he hmoves hport hfail
    obtain ⟨-, hc, -, -, -⟩ := id h
    rw [exec_clEnd, execClEnd, cIssue_of h hg he, if_pos (by simp [hmoves, hport]), finishRank_of hc hfail]
  case finWaits =>
    intro k t w s c l h hg he hbusy
    obtain ⟨-, hc, -, -, -⟩ := id h
    rw [exec_clEnd, execClEnd, cIssue_of h hg he, if_neg ?_, updClu_eq _ hc]
    exact fun ⟨hm, hp⟩ => hbusy.elim (absurd (List.isEmpty_iff.mp hm)) (absurd (List.isEmpty_iff.mp hp))

/-! ### Instructions that do not run -/

/-- The operations on two s registers with their majors (Table CLU-15). -/
def scalarRows : List ((Nat → BitVec 56 → Instr) × Nat) :=
  [(.clAdd, 0x01), (.clSub, 0x02), (.clMul, 0x03), (.clMulh, 0x04), (.clMulhu, 0x05), (.clDiv, 0x06), (.clDivu, 0x07),
    (.clRem, 0x08), (.clRemu, 0x09), (.clAnd, 0x0A), (.clOr, 0x0B), (.clXor, 0x0C), (.clShl, 0x0D), (.clShr, 0x0E),
    (.clSar, 0x0F), (.clMin, 0x10), (.clMax, 0x11), (.clMinu, 0x12), (.clMaxu, 0x13)]

/-- Each of them is `scalarRR` of its major. -/
theorem exec_of_mem_scalarRows {p : (Nat → BitVec 56 → Instr) × Nat} (hp : p ∈ scalarRows) (k : Nat) (w : BitVec 56)
    (s : State) : exec (p.1 k w) s = scalarRR p.2 k w s := by
  simp only [scalarRows, List.mem_cons, List.not_mem_nil, or_false] at hp
  rcases hp with rfl | rfl | rfl | rfl | rfl | rfl | rfl | rfl | rfl | rfl | rfl | rfl | rfl | rfl | rfl | rfl | rfl | rfl |
    rfl <;> rfl

/-- Settles O13: `issue` answers for the encoding and the guard before any instruction has its effect. -/
theorem clusterUnrunInstructions : Obligations.ClusterUnrunInstructions := by
  unfold Obligations.ClusterUnrunInstructions
  refine ⟨?bad, ?off⟩
  case bad =>
    intro p k w s c l hp h he
    have hrow : exec (p.1 k w) s = scalarRR p.2 k w s := exec_of_mem_scalarRows hp k w s
    rw [hrow, scalarRR, cIssue, issue_bad h (by rw [he]; rfl)]
    rfl
  case off =>
    intro p k w s c l hp h hoff
    obtain ⟨hguard, he, hf⟩ := hoff
    obtain ⟨-, hc, hl, -, -⟩ := id h
    have hrow : exec (p.1 k w) s = scalarRR p.2 k w s := exec_of_mem_scalarRows hp k w s
    rw [hrow, scalarRR, cIssue, issue_skip h he rfl hguard, cNext_of hc hl hf]

end Sys2Proof.Machine
end

section
/-! Vector arithmetic (08, R177, R178, Table CLU-22): a lane-wise instruction, the checks of its low word, and what a lane takes. -/

namespace Sys2Proof.Machine

/-! ### Checks of the low word (R166) -/

section
variable {d a b c : Fld} {subs mod w : Nat} {tys : List Nat} {rm f : Bool}

/-- Of a word that passes its checks, the low word does. -/
theorem low_ok_of_ok {low : Low} (h : Enc.ok ⟨d, a, b, c, low⟩ w = true) : low.ok w = true := by
  rw [Enc.ok, Bool.and_eq_true] at h
  exact h.2

/-- Checks 3 and 4 of a format R instruction. -/
theorem Low.ok_r_iff : (Low.r subs tys rm f mod).ok w = true ↔
    wSub w < max 1 subs ∧ (if tys.isEmpty then wTy w == 0 else tys.contains (wTy w)) = true ∧
      (if rm then decide (wRm w < 5) else wRm w == 0) = true ∧ (f || wF w == 0) = true ∧ wMod w < 2 ^ mod := by
  simp only [Low.ok, Bool.and_eq_true, decide_eq_true_eq, and_assoc]

/-- Where lane types are named, TY is one of them. -/
theorem wTy_mem_of_ok {ty : Nat} (h : Enc.ok ⟨d, a, b, c, .r subs (ty :: tys) rm f mod⟩ w = true) : wTy w ∈ ty :: tys := by
  obtain ⟨-, hty, -⟩ := Low.ok_r_iff.mp (low_ok_of_ok h)
  exact List.contains_iff_mem.mp hty

/-- Where RM is not used it is 0. -/
theorem wRm_eq_zero_of_ok (h : Enc.ok ⟨d, a, b, c, .r subs tys false f mod⟩ w = true) : wRm w = 0 := by
  obtain ⟨-, -, hrm, -⟩ := Low.ok_r_iff.mp (low_ok_of_ok h)
  exact beq_iff_eq.mp hrm

theorem wTy_lt_of_tyFloat (h : Enc.ok ⟨d, a, b, c, .r subs tyFloat rm f mod⟩ w = true) : wTy w < 8 := by
  have hty := wTy_mem_of_ok h
  simp only [List.mem_cons, List.not_mem_nil, or_false] at hty
  omega

end

/-! ### Lane-wise instructions -/

/-- The rounding mode of an instruction on va and vb: the integer lane types have none. -/
def vecMode (w : Nat) : Nat := if wTy w < 8 then wRm w else 0

theorem vecMode_of_lt {w : Nat} (h : wTy w < 8) : vecMode w = wRm w := if_pos h

theorem vecMode_of_le {w : Nat} (h : 8 ≤ wTy w) : vecMode w = 0 := if_neg (by omega)

theorem vecMode_of_wRm {w : Nat} (h : wRm w = 0) : vecMode w = 0 := by rw [vecMode, h, ite_self]

section
variable {s : State} {k major : Nat} {w : BitVec 56} {c : Cluster} {l : Launch} {enc : Enc} {also : Nat → Bool}
  (h : Issuing s k major w c l) (hv : LaneActive c major w) (he : enc.ok (wordOf major w) = true)
include h hv he

/-- A vector instruction with a lane active that passes its checks has its effect (R167). -/
theorem vIssue_of {body : Cluster → Launch → Nat → State → State} (ha : also (wordOf major w) = true) :
    vIssue k major w enc also body s = .next (body c l (wordOf major w) s) :=
  issue_of h he ha (by rwa [BitVec.and_allOnes])

/-- A lane-wise instruction on va and vb. -/
theorem vecRR_of (hf : Follows l (c.pc + 1)) (f : Nat → Word → Word → LaneOut) :
    ∃ c', vecRR major k w enc f s = .next (s.setClu k (onward c')) ∧
      OnlyLanes c c' (wD (wordOf major w)) (c.guard (wordOf major w)) ∧
      (vecMode (wordOf major w) ≠ 4 → ∀ j, j < 64 → (c.guard (wordOf major w)).getLsbD j = true →
        c'.vr (wD (wordOf major w)) j = laneBits (vecMode (wordOf major w))
          (f (wordOf major w) (c.vr (wA (wordOf major w)) j) (c.vr (wB (wordOf major w)) j))) := by
  obtain ⟨-, hc, hl, -, -⟩ := id h
  obtain ⟨c', heff, honly, hval⟩ := vecLanes_of (w := wordOf major w) (mode := vecMode (wordOf major w))
    (f := fun n => f (wordOf major w) (c.vr (wA (wordOf major w)) n) (c.vr (wB (wordOf major w)) n)) hc hl hf
  exact ⟨c', (vIssue_of h hv he rfl).trans (congrArg _ heff), honly, hval⟩

/-- A lane-wise instruction whose lanes `f` computes from the registers at issue. -/
theorem vIssue_vecLanes {mode : Nat → Nat} {f : Cluster → Nat → Nat → LaneOut} (ha : also (wordOf major w) = true)
    (hf : Follows l (c.pc + 1)) :
    ∃ c', vIssue k major w enc also (fun c l w => vecLanes k c l w (mode w) (f c w)) s = .next (s.setClu k (onward c')) ∧
      OnlyLanes c c' (wD (wordOf major w)) (c.guard (wordOf major w)) ∧
      (mode (wordOf major w) ≠ 4 → ∀ j, j < 64 → (c.guard (wordOf major w)).getLsbD j = true →
        c'.vr (wD (wordOf major w)) j = laneBits (mode (wordOf major w)) (f c (wordOf major w) j)) := by
  obtain ⟨-, hc, hl, -, -⟩ := id h
  obtain ⟨c', heff, honly, hval⟩ := vecLanes_of (mode := mode (wordOf major w)) (f := f c (wordOf major w)) hc hl hf
  exact ⟨c', (vIssue_of h hv he ha).trans (congrArg _ heff), honly, hval⟩

end

/-! ### What a lane takes -/

/-- The number a lane of an integer type holds: I32 is 8, U32 is 9. -/
def laneInt (ty : Nat) (x : Word) : Int := if ty = 8 then x.toInt else (x.toNat : Int)

theorem ofInt_laneInt (ty : Nat) (x : Word) : BitVec.ofInt 32 (laneInt ty x) = x := by
  unfold laneInt
  split
  · exact BitVec.ofInt_toInt
  · rw [BitVec.ofInt_natCast, BitVec.ofNat_toNat, BitVec.setWidth_eq]

/-- The least and the greatest number of an integer lane type. -/
def laneLo (ty : Nat) : Int := if ty = 8 then -2147483648 else 0
def laneHi (ty : Nat) : Int := if ty = 8 then 2147483647 else 4294967295

theorem laneLo_le_laneHi (ty : Nat) : laneLo ty ≤ laneHi ty := by
  unfold laneLo laneHi
  split <;> decide

/-- The result of an integer sum or difference `r` that wraps to `wrapped`: clamped with SAT. -/
theorem laneBits_clamped {mode ty fl : Nat} {sat : Bool} {r : Int} {wrapped : Word} (hw : BitVec.ofInt 32 r = wrapped) :
    laneBits mode (if sat && (decide (r < laneLo ty) || decide (laneHi ty < r)) then
        .bits (BitVec.ofInt 32 (if r < laneLo ty then laneLo ty else laneHi ty)) fl
      else .bits (BitVec.ofInt 32 r) 0) =
      if sat then BitVec.ofInt 32 (max (laneLo ty) (min (laneHi ty) r)) else wrapped := by
  have hle := laneLo_le_laneHi ty
  cases sat with
  | false => exact hw
  | true =>
    simp only [Bool.true_and, if_true, Bool.or_eq_true, decide_eq_true_eq]
    split
    · rw [laneBits]; congr 1; split <;> omega
    · rw [laneBits]; congr 1; omega

theorem ofInt_laneInt_add (ty : Nat) (a b : Word) : BitVec.ofInt 32 (laneInt ty a + laneInt ty b) = a + b := by
  rw [BitVec.ofInt_add, ofInt_laneInt, ofInt_laneInt]

theorem ofInt_laneInt_sub (ty : Nat) (a b : Word) : BitVec.ofInt 32 (laneInt ty a - laneInt ty b) = a - b := by
  rw [Int.sub_eq_add_neg, BitVec.ofInt_add, BitVec.ofInt_neg, ofInt_laneInt, ofInt_laneInt, BitVec.sub_eq_add_neg]

section
variable {mode ty rm : Nat} {sub sat : Bool} {a b : Word}

theorem laneBits_addLane_float (h : ty < 8) : laneBits mode (addLane ty sub sat rm a b) =
    (numLane ty mode 0 (addNum rm (laneNum ty a) (if sub then negNum (laneNum ty b) else laneNum ty b)).1).1 := by
  rw [addLane, if_neg (by omega)]
  rfl

theorem laneBits_addLane_int (h : 8 ≤ ty) : laneBits mode (addLane ty false sat rm a b) =
    if sat then BitVec.ofInt 32 (max (laneLo ty) (min (laneHi ty) (laneInt ty a + laneInt ty b))) else a + b := by
  rw [addLane, if_pos h]
  exact laneBits_clamped (ofInt_laneInt_add ty a b)

theorem laneBits_subLane_int (h : 8 ≤ ty) : laneBits mode (addLane ty true sat rm a b) =
    if sat then BitVec.ofInt 32 (max (laneLo ty) (min (laneHi ty) (laneInt ty a - laneInt ty b))) else a - b := by
  rw [addLane, if_pos h]
  exact laneBits_clamped (ofInt_laneInt_sub ty a b)

theorem laneBits_minLane : laneBits mode (minMaxLane false ty a b) =
    if ty = 8 then (if a.toInt < b.toInt then a else b) else if ty = 9 then (if a.toNat < b.toNat then a else b)
    else (numLane ty mode 0 (minMax false (laneNum ty a) (laneNum ty b))).1 := by
  unfold minMaxLane
  split
  · simp [laneBits, BitVec.slt_iff_toInt_lt]
  · simp [laneBits, BitVec.ult_iff_lt, BitVec.lt_def]
  · next h8 h9 => rw [if_neg h8, if_neg h9]; rfl

theorem laneBits_maxLane : laneBits mode (minMaxLane true ty a b) =
    if ty = 8 then (if a.toInt < b.toInt then b else a) else if ty = 9 then (if a.toNat < b.toNat then b else a)
    else (numLane ty mode 0 (minMax true (laneNum ty a) (laneNum ty b))).1 := by
  unfold minMaxLane
  split
  · by_cases h : a.toInt < b.toInt <;> simp [laneBits, BitVec.slt, h]
  · by_cases h : a.toNat < b.toNat <;> simp [laneBits, BitVec.ult, h]
  · next h8 h9 => rw [if_neg h8, if_neg h9]; rfl

end

/-- Settles O14: each instruction writes its lanes, and what a lane takes is what its table row names. -/
theorem clusterVectorArithmetic : Obligations.ClusterVectorArithmetic := by
  unfold Obligations.ClusterVectorArithmetic
  refine ⟨?add, ?sub, ?addInt, ?subInt, ?mul, ?fma, ?div, ?sqrt, ?min, ?max, ?sgn, ?sfu, ?log⟩
  case add =>
    intro k w s c l h hv he hty hf
    obtain ⟨c', hexec, honly, hval⟩ := vecRR_of h hv he hf (fun w => addLane (wTy w) false (wF w == 1) (wRm w))
    rw [vecMode_of_lt hty] at hval
    exact ⟨c', (exec_clVadd k w s).trans hexec, honly, fun hrm j hj hg =>
      (hval hrm j hj hg).trans (laneBits_addLane_float hty)⟩
  case sub =>
    intro k w s c l h hv he hty hf
    obtain ⟨c', hexec, honly, hval⟩ := vecRR_of h hv he hf (fun w => addLane (wTy w) true (wF w == 1) (wRm w))
    rw [vecMode_of_lt hty] at hval
    exact ⟨c', (exec_clVsub k w s).trans hexec, honly, fun hrm j hj hg =>
      (hval hrm j hj hg).trans (laneBits_addLane_float hty)⟩
  case addInt =>
    intro k w s c l h hv he hty hf
    obtain ⟨c', hexec, honly, hval⟩ := vecRR_of h hv he hf (fun w => addLane (wTy w) false (wF w == 1) (wRm w))
    rw [vecMode_of_le hty] at hval
    refine ⟨c', (exec_clVadd k w s).trans hexec, honly, fun j hj hg => (hval (by decide) j hj hg).trans ?_⟩
    simp only [laneBits_addLane_int hty, beq_iff_eq]
    rfl
  case subInt =>
    intro k w s c l h hv he hty hf
    obtain ⟨c', hexec, honly, hval⟩ := vecRR_of h hv he hf (fun w => addLane (wTy w) true (wF w == 1) (wRm w))
    rw [vecMode_of_le hty] at hval
    refine ⟨c', (exec_clVsub k w s).trans hexec, honly, fun j hj hg => (hval (by decide) j hj hg).trans ?_⟩
    simp only [laneBits_subLane_int hty, beq_iff_eq]
    rfl
  case mul =>
    intro k w s c l h hv he hf
    obtain ⟨c', hexec, honly, hval⟩ := vecRR_of h hv he hf (fun w a b => if 8 ≤ wTy w then .bits (a * b) 0
      else let (x, f) := mulNum (laneNum (wTy w) a) (laneNum (wTy w) b); .num (wTy w) x f)
    refine ⟨c', (exec_clVmul k w s).trans hexec, honly, fun hrm j hj hg => ?_⟩
    by_cases hty : 8 ≤ wTy (wordOf 0x62 w)
    · rw [hval (by rw [vecMode_of_le hty]; decide) j hj hg, if_pos hty, if_pos hty]
      rfl
    · have hlt : wTy (wordOf 0x62 w) < 8 := by omega
      rw [vecMode_of_lt hlt] at hval
      rw [hval (hrm hlt) j hj hg, if_neg hty, if_neg hty]
      rfl
  case fma =>
    intro k w s c l h hv he hf
    rw [exec_clVfma, execClVfma]
    exact vIssue_vecLanes h hv he rfl hf
  case div =>
    intro k w s c l h hv he hf
    obtain ⟨c', hexec, honly, hval⟩ := vecRR_of h hv he hf
      (fun w a b => let (x, f) := divNum (laneNum (wTy w) a) (laneNum (wTy w) b); .num (wTy w) x f)
    rw [vecMode_of_lt (wTy_lt_of_tyFloat he)] at hval
    exact ⟨c', (exec_clVdiv k w s).trans hexec, honly, hval⟩
  case sqrt =>
    intro k w s c l h hv he hf
    rw [exec_clVsqrt, execClVsqrt]
    exact vIssue_vecLanes h hv he rfl hf
  case min =>
    intro k w s c l h hv he hf
    obtain ⟨c', hexec, honly, hval⟩ := vecRR_of h hv he hf (fun w => minMaxLane false (wTy w))
    rw [vecMode_of_wRm (wRm_eq_zero_of_ok he)] at hval
    exact ⟨c', (exec_clVmin k w s).trans hexec, honly, fun j hj hg => (hval (by decide) j hj hg).trans laneBits_minLane⟩
  case max =>
    intro k w s c l h hv he hf
    obtain ⟨c', hexec, honly, hval⟩ := vecRR_of h hv he hf (fun w => minMaxLane true (wTy w))
    rw [vecMode_of_wRm (wRm_eq_zero_of_ok he)] at hval
    exact ⟨c', (exec_clVmax k w s).trans hexec, honly, fun j hj hg => (hval (by decide) j hj hg).trans laneBits_maxLane⟩
  case sgn =>
    intro k w s c l h hv he hf
    obtain ⟨c', hexec, honly, hval⟩ := vecRR_of h hv he hf (fun w a b => .bits (signLane (wSub w) (wTy w) a b) 0)
    rw [vecMode_of_wRm (wRm_eq_zero_of_ok he)] at hval
    exact ⟨c', (exec_clVsgn k w s).trans hexec, honly, hval (by decide)⟩
  case sfu =>
    intro k w s c l h hv he hf
    obtain ⟨c', hexec, honly, hval⟩ := vIssue_vecLanes (mode := fun _ => 0) (also := noMore)
      (f := fun c w n => let r := sfu (wSub w) (c.vr (wA w) n); .bits r.1 r.2) h hv he rfl hf
    exact ⟨c', (exec_clVsfu k w s).trans hexec, honly, hval (by decide)⟩
  case log =>
    intro k w s c l h hv he hf
    obtain ⟨c', hexec, honly, hval⟩ := vecRR_of h hv he hf (fun w a b => .bits (logLane (wSub w) a b) 0)
    rw [vecMode_of_wRm (wRm_eq_zero_of_ok he)] at hval
    exact ⟨c', (exec_clVlog k w s).trans hexec, honly, hval (by decide)⟩

end Sys2Proof.Machine
end

section
/-! Vector moves, accesses and reductions (08, R167, R177, R179, R180; Tables CLU-22 and CLU-23). -/

namespace Sys2Proof.Machine

/-! ### Updates that stay at their place -/

theorem SamePlace.refl (c : Cluster) : SamePlace c c := ⟨rfl, rfl⟩

theorem SamePlace.trans {c d e : Cluster} (h : SamePlace c d) (h' : SamePlace d e) : SamePlace c e :=
  ⟨h'.1.trans h.1, h'.2.trans h.2⟩

theorem SamePlace.flag (c : Cluster) (f : Nat) : SamePlace c (c.flag f) := ⟨rfl, rfl⟩

theorem SamePlace.putRow (t : Tile) (c : Cluster) (r : Nat) (m : Memory) : SamePlace c (t.putRow c r m) := ⟨rfl, rfl⟩

theorem SamePlace.drawFor (c : Cluster) (l : Launch) (mode n : Nat) (x : Num) : SamePlace c (c.drawFor l mode n x).2 := by
  rw [drawFor_frame]
  exact ⟨rfl, rfl⟩

theorem SamePlace.foldl {α : Type} {f : Cluster → α → Cluster} (hf : ∀ c a, SamePlace c (f c a)) (as : List α) (c : Cluster) :
    SamePlace c (as.foldl f c) := by
  induction as generalizing c with
  | nil => exact .refl c
  | cons a as ih => exact (hf c a).trans (ih (f c a))

/-- A fold that carries a cluster beside another value. -/
theorem SamePlace.foldl_snd {α β : Type} {f : β × Cluster → α → β × Cluster} (hf : ∀ x a, SamePlace x.2 (f x a).2)
    (as : List α) (x : β × Cluster) : SamePlace x.2 (as.foldl f x).2 := by
  induction as generalizing x with
  | nil => exact .refl x.2
  | cons a as ih => exact (hf x a).trans (ih (f x a))

/-- A row stored lane by lane or block by block draws from the generators, sets flags and writes the tile store. -/
theorem SamePlace.vstRow (l : Launch) (t : Tile) (w row col : Nat) (c : Cluster) : SamePlace c (vstRow l t w row col c) := by
  unfold Machine.vstRow
  split
  · refine SamePlace.trans ?_ (.putRow _ _ _ _)
    refine SamePlace.foldl_snd (fun x b => ?_) (List.range _) (_, c)
    refine SamePlace.trans ?_ (.flag _ _)
    refine SamePlace.foldl_snd (fun y i => ?_) (List.range 32) (_, x.2)
    dsimp only
    split
    · exact .drawFor _ _ _ _ _
    · exact .refl _
  · refine SamePlace.trans ?_ (.putRow _ _ _ _)
    refine SamePlace.foldl_snd (fun x i => ?_) (List.range _) (_, c)
    dsimp only
    split
    · exact (SamePlace.drawFor _ _ _ _ _).trans (.flag _ _)
    · exact .refl _

/-! ### Masks -/

/-- Bits set one by one where `p` holds. -/
theorem getLsbD_foldl_or (p : Nat → Bool) (ns : List Nat) (m : DWord) {n : Nat} (hn : n < 64) :
    (ns.foldl (fun m i => if p i then m ||| (1#64 <<< i) else m) m).getLsbD n =
      (m.getLsbD n || (p n && decide (n ∈ ns))) := by
  induction ns generalizing m with
  | nil => simp
  | cons i ns ih =>
    have hbit : (1#64 <<< i).getLsbD n = decide (n = i) := by
      change (BitVec.twoPow 64 i).getLsbD n = _
      rw [BitVec.getLsbD_twoPow, ← Bool.decide_and, decide_eq_decide]
      omega
    rw [List.foldl_cons, ih]
    by_cases hni : n = i
    · subst hni; cases hp : p n <;> simp [hbit]
    · cases hp : p i <;> simp [hbit, hni]

/-! ### Shapes of the instructions -/

section
variable {s : State} {k major : Nat} {w : BitVec 56} {c : Cluster} {l : Launch} {enc : Enc} {also : Nat → Bool}
  (h : Issuing s k major w c l) (hv : LaneActive c major w) (he : enc.ok (wordOf major w) = true)
include h hv he

/-- A vector instruction that changes registers and goes on. -/
theorem vIssue_cUpd {f : Cluster → Launch → Nat → Cluster → Cluster} {c' : Cluster} (ha : also (wordOf major w) = true)
    (hf : Follows l (c.pc + 1)) (hc' : f c l (wordOf major w) c = c') (hp : SamePlace c c') :
    vIssue k major w enc also (fun c l w => cUpd k (f c l w)) s = .next (s.setClu k (onward c')) := by
  obtain ⟨-, hc, hl, -, -⟩ := id h
  subst hc'
  rw [vIssue_of h hv he ha, cUpd_of_samePlace hc hl hf hp]

end

/-- A row and a column inside a tile, at a block's start in the scaled formats, pass the checks of R179. -/
theorem rowCheck_of {k major row col : Nat} {c : Cluster} {t : Tile} {body : State → State} {s : State} (hrow : row < t.rows)
    (hcol : col < t.cols) (hblock : scaled t.fmt = true → col % 32 = 0) : rowCheck k major c t row col body s = body s := by
  rw [rowCheck, if_neg]
  rintro (hr | hc | ⟨hs, hb⟩)
  · omega
  · omega
  · exact hb (hblock hs)

/-- The columns of an accumulator access: the first half or the second. -/
theorem not_bad_half {x : DWord} (h : x = 0 ∨ x = 64) : ¬ (x.toNat ≠ 0 ∧ x.toNat ≠ 64) := by
  rcases h with rfl | rfl <;> decide

/-- A row of an accumulator and one of its halves pass the checks of VLDA and VSTA. -/
theorem not_bad_accRow {row : Nat} {x : DWord} (hr : row < 128) (h : x = 0 ∨ x = 64) :
    ¬ (127 < row ∨ (x.toNat ≠ 0 ∧ x.toNat ≠ 64)) := by
  rintro (hrow | hcol)
  · omega
  · exact not_bad_half h hcol

/-- Settles O15: an instruction changes registers, or writes lanes, once its operand checks have passed. -/
theorem clusterVectorMoves : Obligations.ClusterVectorMoves := by
  unfold Obligations.ClusterVectorMoves
  refine ⟨?cmp, ?sel, ?mov, ?movToS, ?movToLane, ?cvt, ?ld, ?st, ?lda, ?sta, ?red, ?ared⟩
  case cmp =>
    intro k w s c l h hv he hf
    refine ⟨_, (exec_clVcmp k w s).trans (vIssue_cUpd h hv he rfl hf rfl (.setP _ _ _)), fun n hn => ?_⟩
    rw [BitVec.getLsbD_or, BitVec.getLsbD_and, BitVec.getLsbD_and, BitVec.getLsbD_not, getLsbD_foldl_or _ _ _ hn]
    cases (c.guard (wordOf 0x6B w)).getLsbD n <;> simp [hn]
  case sel =>
    intro k w s c l h hv he hf
    obtain ⟨c', hexec, honly, hval⟩ := vIssue_vecLanes (mode := fun _ => 0) (also := noMore)
      (f := fun c w n => .bits (if (c.pr (wC w)).getLsbD n then c.vr (wA w) n else c.vr (wB w) n) 0) h hv he rfl hf
    exact ⟨c', (exec_clVsel k w s).trans hexec, honly, hval (by decide)⟩
  case mov =>
    intro k w s c l h hv he hsub hf
    obtain ⟨-, hc, hl, -, -⟩ := id h
    rw [exec_clVmov, execClVmov, vIssue_of h hv he rfl]
    generalize wSub (wordOf 0x6D w) = sub at hsub
    match sub with
    | 0 | 1 | 2 =>
      obtain ⟨c', heff, honly, hval⟩ := vecLanes_of hc hl hf
      exact ⟨c', congrArg _ heff, honly, hval (by decide)⟩
  case movToS =>
    intro k w s c l h hv he hsub hf
    obtain ⟨-, hc, hl, -, -⟩ := id h
    rw [exec_clVmov, execClVmov, vIssue_of h hv he rfl]
    simp only [hsub]
    rw [cUpd_of_samePlace hc hl hf (.setS _ _ _)]
  case movToLane =>
    intro k w s c l h hv he hsub hf
    obtain ⟨-, hc, hl, -, -⟩ := id h
    rw [exec_clVmov, execClVmov, vIssue_of h hv he rfl]
    simp only [hsub]
    rw [cUpd_of_samePlace hc hl hf]
    split
    · exact ⟨rfl, rfl⟩
    · exact .refl c
  case cvt =>
    intro k w s c l h hv he hty hf
    rw [exec_clVcvt, execClVcvt]
    exact vIssue_vecLanes h hv he hty hf
  case ld =>
    intro k t w s c l h hv he ht hrow hcol hblock hf
    obtain ⟨-, hc, hl, -, -⟩ := id h
    rw [exec_clVld, execClVld, vIssue_of h hv he rfl, withTile_of ht, rowCheck_of hrow hcol hblock]
    obtain ⟨c', heff, honly, hval⟩ := vecLanes_of hc hl hf
    refine ⟨c', congrArg _ heff, honly, fun j hj hg => (hval (by decide) j hj hg).trans ?_⟩
    rw [apply_ite (laneBits 0), apply_ite (laneBits 0)]
    rfl
  case st =>
    intro k t w s c l h hv he ht hrow hcol hblock hring hf
    obtain ⟨-, hc, hl, -, -⟩ := id h
    rw [exec_clVst, execClVst, vIssue_of h hv he rfl, withTile_of ht, rowCheck_of hrow hcol hblock]
    simp only [hring, Bool.false_eq_true, if_false]
    rw [cUpd_of_samePlace hc hl hf (.vstRow _ _ _ _ _ _)]
  case lda =>
    intro k w s c l h hv he hrow hcol hf
    obtain ⟨-, hc, hl, -, -⟩ := id h
    rw [exec_clVlda, execClVlda, vIssue_of h hv he rfl]
    simp only [if_neg (not_bad_accRow hrow hcol)]
    obtain ⟨c', heff, honly, hval⟩ := vecLanes_of hc hl hf
    exact ⟨c', congrArg _ heff, honly, hval (by decide)⟩
  case sta =>
    intro k w s c l h hv he hrow hcol hf
    obtain ⟨-, hc, hl, -, -⟩ := id h
    rw [exec_clVsta, execClVsta, vIssue_of h hv he rfl]
    simp only [if_neg (not_bad_accRow hrow hcol)]
    rw [cUpd_of_samePlace hc hl hf]
    refine SamePlace.foldl (fun c' n => ?_) _ c
    split
    · exact ⟨rfl, rfl⟩
    · exact .refl c'
  case red =>
    exact fun k w s c l h hv he hf => (exec_clVred k w s).trans
      (vIssue_cUpd h hv he rfl hf rfl ((SamePlace.flag _ _).trans (.setS _ _ _)))
  case ared =>
    intro k w s c l h hv he hrow hf
    obtain ⟨-, hc, hl, -, -⟩ := id h
    rw [exec_clAred, execClAred, vIssue_of h hv he rfl]
    simp only [if_neg (not_bad_half hrow)]
    obtain ⟨c', heff, honly, hval⟩ := vecLanes_of hc hl hf
    exact ⟨c', congrArg _ heff, honly, hval (by decide)⟩

end Sys2Proof.Machine
end

section
/-! Tile moves of a cluster (07, R156; 08, R173, R174, Table CLU-19; 04, R85, R89). -/

namespace Sys2Proof.Machine

/-! ### Checks that pass -/

theorem notRing_of {k major : Nat} {c : Cluster} {l : Launch} {t : Tile} {body : State → State} {s : State}
    (h : inRing l t = false) : notRing k major c l t body s = body s := by
  rw [notRing, h, if_neg Bool.false_ne_true]

theorem sameShape_of {t u : Tile} (h : t.rows = u.rows ∧ t.rowSize = u.rowSize) : sameShape t u = true := by
  simp [sameShape, h.1, h.2]

/-- The object side of a TLD or TST with an aligned offset and a handle that passes its checks (R173). -/
theorem objSide_of {k major w : Nat} {c : Cluster} {l : Launch} {isWrite : Bool} {t : Tile} {n : Named}
    {body : Named → Nat → Nat → Nat → State → State} {s : State} (halign : (c.sr (wC w)).toNat % 64 = 0)
    (hn : (checkHandle s l.slot (c.hr (wB w)) isWrite (c.sr (wC w)).toNat ((t.rows - 1) * objStride w t + t.rowSize)
      (wB w) c.pc).toOption = some n) :
    objSide k major c l w isWrite t body s =
      body n (c.sr (wC w)).toNat (objStride w t) ((t.rows - 1) * objStride w t + t.rowSize) s := by
  unfold objSide
  simp only [halign, ne_eq, not_true_eq_false, if_false, ok_of_toOption hn]

/-- A move that was issued has taken a number. -/
theorem issuedMore_withMove (s : State) (k d major left : Nat) (op : TileOp) (c : Cluster) :
    issuedMore k c (s.setClu k (onward (withMove c d major op left))) = true := by
  rw [issuedMore, clu_setClu_same]
  simp [onward, withMove]

/-! ### Moves between ranks (R160) -/

section
variable {s : State} {k major w : Nat} {isPut : Bool} {c : Cluster} {l : Launch} {ta tc : Tile}
  (hc : s.clu k = some c) (hl : s.lch c.launch = some l) (hf : Follows l (c.pc + 1)) (hm : CanMove c)
  (hta : tileOf (c.tr (wA w)) = some ta) (htc : tileOf (c.tr (wC w)) = some tc)
  (hshape : ta.rows = tc.rows ∧ ta.rowSize = tc.rowSize) (hr : (c.sr (wB w)).toNat < l.size)
  (hring : inRing l (if isPut then tc else ta) = false)
include hc hl hf hm hta htc hshape hr hring

/-- Towards a rank of this sled, a move copies tiles. -/
theorem rankMove_here {k' : Nat} (hk : clusterOfRank l (c.sr (wB w)).toNat = some k') :
    rankMove k major isPut c l w s =
      s.setClu k (onward (withMove c (wD w) major (if isPut then .copy k ta k' tc else .copy k' tc k ta) 0)) := by
  rw [rankMove, withTile_of hta, withTile_of htc]
  simp only [sameShape_of hshape, Bool.not_true, Bool.false_eq_true, if_false, if_neg (Nat.not_le.mpr hr), hk]
  rw [notRing_of hring, issueMove_of hc hl hm hf]

/-- Towards a rank of another sled, a move sends the rows or asks for them, and notes the tag of its last flit. -/
theorem rankMove_away (hk : clusterOfRank l (c.sr (wB w)).toNat = none) :
    rankMove k major isPut c l w s =
      let s' := s.setClu k (onward (withMove c (wD w) major
        (if isPut then .put (c.sr (wB w)).toNat ta tc else .get (c.sr (wB w)).toNat tc ta)
        (if isPut then 1 else ta.rows * ta.rowSize)))
      let node := (remoteRank l (c.sr (wB w)).toNat).getD 0
      tagLast k c.issued (if isPut then sendPut k c.launch c.issued node (c.sr (wB w)).toNat c ta tc s'
        else sendGet k c.launch c.issued node (c.sr (wB w)).toNat tc s') := by
  rw [rankMove, withTile_of hta, withTile_of htc]
  simp only [sameShape_of hshape, Bool.not_true, Bool.false_eq_true, if_false, if_neg (Nat.not_le.mpr hr), hk]
  rw [notRing_of hring, issueMove_of hc hl hm hf, issuedMore_withMove, if_pos rfl]

end

/-! ### Windows (R89) -/

theorem clu_updObj (s : State) (slot idx k : Nat) (f : Obj → Obj) : (s.updObj slot idx f).clu k = s.clu k := rfl

theorem lch_updObj (s : State) (slot idx n : Nat) (f : Obj → Obj) : (s.updObj slot idx f).lch n = s.lch n := rfl

/-- A window over an object that is not READONLY holds no leases. -/
theorem moveWindow_of_writable {launch : Nat} {n : Named} {old new : List Nat} {s : State} (h : n.obj.flag 8 = false) :
    moveWindow launch n old new s = s := by
  rw [moveWindow, h]
  rfl

section
variable {s : State} {k : Nat} {w : BitVec 56} {c : Cluster} {l : Launch} {n : Named} (h : Issuing s k 0x47 w c l)
  (hg : Guarded c 0x47 w) (he : Enc.ok ⟨.no, .r16, .no, .no, plainR⟩ (wordOf 0x47 w) = true)
  (hn : (checkHandle s l.slot (c.hr (wA (wordOf 0x47 w))) false 0 0 (wA (wordOf 0x47 w)) c.pc).toOption = some n)
  (hstream : n.obj.flag 4 = true)
include h hg he hn hstream

/-- SADV opens the window of a launch that has none at segment 0. -/
theorem exec_clSadv_open (hw : (n.obj.windows.find? (fun v => v.holder == c.launch)).isNone = true) :
    exec (.clSadv k w) s = .next (cNext k (moveWindow c.launch n [] (windowSegs n.obj 0)
      (s.updObj n.slot n.idx (fun o => { o with windows := o.windows ++ [⟨c.launch, 0⟩] })))) := by
  rw [exec_clSadv, execClSadv, cIssue_of h hg he]
  simp only [ok_of_toOption hn, hstream, Option.isNone_iff_eq_none.mp hw, Bool.not_true, Bool.false_eq_true, if_false]

/-- SADV moves a window by one segment. -/
theorem exec_clSadv_advance {v : Window} (hw : n.obj.windows.find? (fun v => v.holder == c.launch) = some v) :
    exec (.clSadv k w) s = .next (cNext k (moveWindow c.launch n (windowSegs n.obj v.seg)
      (windowSegs n.obj ((v.seg + 1) % segCount n.obj)) (s.updObj n.slot n.idx (fun o => { o with
        windows := updWhere o.windows (fun x => x.holder == c.launch)
          (fun x => { x with seg := (v.seg + 1) % segCount n.obj }) })))) := by
  rw [exec_clSadv, execClSadv, cIssue_of h hg he]
  simp only [ok_of_toOption hn, hstream, hw, Bool.not_true, Bool.false_eq_true, if_false]

end

/-! ### TWAIT (R156) -/

/-- The token TWAIT names. -/
def waitToken (c : Cluster) (w : Nat) : Nat := (c.sr (wA w)).toNat % 65536

/-- The cluster without the failed moves of the token TWAIT names. -/
def withoutFailed (c : Cluster) (w : Nat) : Cluster :=
  { c with failed := c.failed.filter (fun m => m.num % 65536 != waitToken c w) }

theorem withoutFailed_of_none {c : Cluster} {w : Nat}
    (h : (c.failed.find? (fun m => m.num % 65536 == waitToken c w)).isNone = true) : withoutFailed c w = c := by
  have hnone := List.find?_eq_none.mp (Option.isNone_iff_eq_none.mp h)
  have hall : c.failed.filter (fun m => m.num % 65536 != waitToken c w) = c.failed :=
    List.filter_eq_self.mpr (fun m hm => by simpa [bne] using hnone m hm)
  rw [withoutFailed, hall]

section
variable {s : State} {k : Nat} {w : BitVec 56} {c : Cluster} {l : Launch} (h : Issuing s k 0x46 w c l)
  (hg : Guarded c 0x46 w) (he : Enc.ok ⟨.r32, .r32, .no, .no, .r 0 [] false true 0⟩ (wordOf 0x46 w) = true)
include h hg he

theorem exec_clTwait_waits (hin : c.moves.any (fun m => m.num % 65536 == waitToken c (wordOf 0x46 w)) = true) :
    exec (.clTwait k w) s = .next (s.setClu k { c with
      wait := some (.move (waitToken c (wordOf 0x46 w)) (wF (wordOf 0x46 w) == 1) (wD (wordOf 0x46 w)), s.tb) }) := by
  obtain ⟨-, hc, -, -, -⟩ := id h
  rw [waitToken] at hin
  rw [exec_clTwait, execClTwait, cIssue_of h hg he]
  simp only [hin, if_true]
  exact congrArg _ (updClu_eq _ hc)

variable (hin : c.moves.any (fun m => m.num % 65536 == waitToken c (wordOf 0x46 w)) = false) (hf : Follows l (c.pc + 1))
include hin hf

/-- A token that names no failed move is complete: its status word is 0. -/
theorem exec_clTwait_complete
    (hnone : (c.failed.find? (fun m => m.num % 65536 == waitToken c (wordOf 0x46 w))).isNone = true) :
    exec (.clTwait k w) s =
      .next (s.setClu k (onward (if wF (wordOf 0x46 w) = 1 then c.setS (wD (wordOf 0x46 w)) 0 else c))) := by
  obtain ⟨-, hc, hl, -, -⟩ := id h
  have hfilter : s.updClu k (fun c' => { c' with
      failed := c'.failed.filter (fun m => m.num % 65536 != waitToken c (wordOf 0x46 w)) }) = s.setClu k c :=
    (updClu_eq _ hc).trans (congrArg _ (withoutFailed_of_none hnone))
  have hc' := clu_setClu_same s k c
  rw [waitToken] at hin hfilter hnone
  rw [exec_clTwait, execClTwait, cIssue_of h hg he]
  simp only [hin, hfilter, Option.isNone_iff_eq_none.mp hnone, Bool.false_eq_true, if_false, beq_iff_eq]
  split
  · rw [cUpd_of_samePlace hc' hl hf (.setS _ _ _), setClu_setClu]
    rfl
  · rw [if_neg (by decide), cNext_of hc' hl hf, setClu_setClu]

/-- With F, the status word of a failed move goes to sd, and the move is reported. -/
theorem exec_clTwait_failed {m : TileMove}
    (hfind : c.failed.find? (fun m => m.num % 65536 == waitToken c (wordOf 0x46 w)) = some m) (hF : wF (wordOf 0x46 w) = 1) :
    exec (.clTwait k w) s = .next (s.setClu k (onward ((withoutFailed c (wordOf 0x46 w)).setS (wD (wordOf 0x46 w))
      (m.status.word.zeroExtend 64)))) := by
  obtain ⟨-, hc, hl, -, -⟩ := id h
  have hfilter : s.updClu k (fun c' => { c' with
      failed := c'.failed.filter (fun m => m.num % 65536 != waitToken c (wordOf 0x46 w)) }) =
      s.setClu k (withoutFailed c (wordOf 0x46 w)) := updClu_eq _ hc
  have hc' := clu_setClu_same s k (withoutFailed c (wordOf 0x46 w))
  rw [waitToken] at hin hfilter hfind
  rw [exec_clTwait, execClTwait, cIssue_of h hg he]
  simp only [hin, hfilter, hfind, hF, beq_self_eq_true, Bool.false_eq_true, if_false, if_true]
  rw [cUpd_of_samePlace hc' hl hf (.setS _ _ _), setClu_setClu]

end

/-- Settles O16: an instruction that passes its checks issues one move, waits for one, or moves a window. -/
theorem clusterTileMoves : Obligations.ClusterTileMoves := by
  unfold Obligations.ClusterTileMoves
  refine ⟨?tld, ?tst, ?tcp, ?tput, ?tputAway, ?tget, ?tgetAway, ?tzero, ?twaits, ?tcomplete, ?tfailed, ?opens, ?advances,
    ?opensLeased, ?advancesLeased⟩
  case tld =>
    intro k t n w s c l h hg he ht halign hn hwin hring hm hf
    obtain ⟨-, hc, hl, -, -⟩ := id h
    rw [exec_clTld, execClTld, cIssue_of h hg he, withTile_of ht, objSide_of halign hn]
    simp only [hwin, Bool.false_eq_true, if_false]
    rw [notRing_of hring, issueMove_of hc hl hm hf, issuedMore_withMove, if_pos rfl]
  case tst =>
    intro k t n w s c l h hg he ht halign hn hm hf
    obtain ⟨-, hc, hl, -, -⟩ := id h
    rw [exec_clTst, execClTst, cIssue_of h hg he, withTile_of ht, objSide_of halign hn, issueMove_of hc hl hm hf]
  case tcp =>
    intro k t u w s c l h hg he ht hu hshape hring hm hf
    obtain ⟨-, hc, hl, -, -⟩ := id h
    rw [exec_clTcp, execClTcp, cIssue_of h hg he, withTile_of ht, withTile_of hu]
    simp only [sameShape_of hshape, Bool.not_true, Bool.false_eq_true, if_false]
    rw [notRing_of hring, issueMove_of hc hl hm hf]
  case tput =>
    intro k t u j w s c l h hg he ht hu hshape hr hk hring hm hf
    obtain ⟨-, hc, hl, -, -⟩ := id h
    rw [exec_clTput, execClTput, cIssue_of h hg he, rankMove_here (isPut := true) hc hl hf hm ht hu hshape hr hring hk]
    rfl
  case tputAway =>
    intro k t u w s c l h hg he ht hu hshape hr hk hring hm hf
    obtain ⟨-, hc, hl, -, -⟩ := id h
    rw [exec_clTput, execClTput, cIssue_of h hg he, rankMove_away (isPut := true) hc hl hf hm ht hu hshape hr hring hk]
    rfl
  case tget =>
    intro k t u j w s c l h hg he ht hu hshape hr hk hring hm hf
    obtain ⟨-, hc, hl, -, -⟩ := id h
    rw [exec_clTget, execClTget, cIssue_of h hg he, rankMove_here (isPut := false) hc hl hf hm ht hu hshape hr hring hk]
    rfl
  case tgetAway =>
    intro k t u w s c l h hg he ht hu hshape hr hk hring hm hf
    obtain ⟨-, hc, hl, -, -⟩ := id h
    rw [exec_clTget, execClTget, cIssue_of h hg he, rankMove_away (isPut := false) hc hl hf hm ht hu hshape hr hring hk]
    rfl
  case tzero =>
    intro k t w s c l h hg he ht hring hm hf
    obtain ⟨-, hc, hl, -, -⟩ := id h
    rw [exec_clTzero, execClTzero, cIssue_of h hg he, withTile_of ht, notRing_of hring, issueMove_of hc hl hm hf]
  case twaits => exact fun k w s c l h hg he hin => exec_clTwait_waits h hg he hin
  case tcomplete => exact fun k w s c l h hg he hin hnone hf => exec_clTwait_complete h hg he hin hf hnone
  case tfailed => exact fun k m w s c l h hg he hin hfind hF hf => exec_clTwait_failed h hg he hin hf hfind hF
  case opens =>
    intro k n w s c l h hg he hn hstream hro hw hf
    obtain ⟨-, hc, hl, -, -⟩ := id h
    rw [exec_clSadv_open h hg he hn hstream hw, moveWindow_of_writable hro,
      cNext_of ((clu_updObj s n.slot n.idx k _).trans hc) ((lch_updObj s n.slot n.idx c.launch _).trans hl) hf]
  case advances =>
    intro k n v w s c l h hg he hn hstream hro hw hf
    obtain ⟨-, hc, hl, -, -⟩ := id h
    rw [exec_clSadv_advance h hg he hn hstream hw, moveWindow_of_writable hro,
      cNext_of ((clu_updObj s n.slot n.idx k _).trans hc) ((lch_updObj s n.slot n.idx c.launch _).trans hl) hf]
  case opensLeased => exact fun k n w s c l h hg he hn hstream _ hw => exec_clSadv_open h hg he hn hstream hw
  case advancesLeased => exact fun k n v w s c l h hg he hn hstream _ hw => exec_clSadv_advance h hg he hn hstream hw

end Sys2Proof.Machine
end

section
/-! Accumulators (07, R153; 08, R175, R176, Table CLU-20): the collections behind them in parts, an update of a block of
elements, and the tensor instructions. -/

namespace Sys2Proof.Machine

/-! ### Parts of a collection -/

section
variable {α : Type}

theorem mget_append (m n : Map α) (k : Nat) : mget (m ++ n) k = (mget m k).or (mget n k) := by
  induction m with
  | nil => rfl
  | cons e m ih =>
    obtain ⟨i, v⟩ := e
    simp only [List.cons_append, mget, ih]
    split <;> rfl

/-- The part of a collection whose keys satisfy a test. -/
theorem mget_filter (p : Nat → Bool) (m : Map α) (k : Nat) :
    mget (m.filter (fun e => p e.1)) k = if p k then mget m k else none := by
  induction m with
  | nil => simp [mget]
  | cons e m ih =>
    obtain ⟨i, v⟩ := e
    by_cases hik : i = k
    · subst hik; cases hp : p i <;> simp [mget, hp, ih]
    · cases hp : p i <;> simp [mget, hp, ih, hik]

theorem keysFrom_filter (p : Nat → Bool) {m : Map α} {b : Nat} (h : keysFrom b m = true) :
    keysFrom b (m.filter (fun e => p e.1)) = true := by
  induction m generalizing b with
  | nil => rfl
  | cons e m ih =>
    obtain ⟨i, v⟩ := e
    simp only [keysFrom, Bool.and_eq_true, decide_eq_true_eq] at h
    cases hp : p i
    · simpa [hp] using keysFrom_mono (by omega) (ih h.2)
    · simpa [hp, keysFrom, h.1] using ih h.2

theorem le_of_mem_keysFrom {m : Map α} {b : Nat} (h : keysFrom b m = true) {e : Nat × α} (he : e ∈ m) : b ≤ e.1 := by
  induction m generalizing b with
  | nil => exact absurd he List.not_mem_nil
  | cons d m ih =>
    simp only [keysFrom, Bool.and_eq_true, decide_eq_true_eq] at h
    rcases List.mem_cons.mp he with rfl | he
    · exact h.1
    · have := ih h.2 he
      omega

section
variable {p : Nat → Bool} (hp : ∀ i j, i ≤ j → p j = true → p i = true) {m : Map α} {b : Nat} (h : keysFrom b m = true)
include hp h

/-- The keys rise, so a test that fails from some key on holds of the leading part. -/
theorem takeWhile_eq_filter : m.takeWhile (fun e => p e.1) = m.filter (fun e => p e.1) := by
  induction m generalizing b with
  | nil => rfl
  | cons e m ih =>
    simp only [keysFrom, Bool.and_eq_true, decide_eq_true_eq] at h
    rw [List.takeWhile_cons, List.filter_cons]
    by_cases he : p e.1 = true
    · rw [if_pos he, if_pos he, ih h.2]
    · rw [if_neg he, if_neg he, eq_comm, List.filter_eq_nil_iff]
      intro d hd hpd
      exact he (hp _ _ (Nat.le_of_lt (le_of_mem_keysFrom h.2 hd)) hpd)

theorem dropWhile_eq_filter : m.dropWhile (fun e => p e.1) = m.filter (fun e => !p e.1) := by
  induction m generalizing b with
  | nil => rfl
  | cons e m ih =>
    simp only [keysFrom, Bool.and_eq_true, decide_eq_true_eq] at h
    rw [List.dropWhile_cons]
    by_cases he : p e.1 = true
    · rw [if_pos he, ih h.2, List.filter_cons_of_neg (by simp [he])]
    · rw [if_neg he, eq_comm, List.filter_eq_self]
      intro d hd
      rw [Bool.not_eq_true']
      rcases List.mem_cons.mp hd with rfl | hd
      · exact Bool.eq_false_iff.mpr he
      · exact Bool.eq_false_iff.mpr fun hpd => he (hp _ _ (Nat.le_of_lt (le_of_mem_keysFrom h.2 hd)) hpd)

end

/-- A key with one value. -/
theorem mget_of_mem {m : Map α} {k : Nat} {v : α} (hmem : (k, v) ∈ m) (huniq : ∀ u, (k, u) ∈ m → u = v) : mget m k = some v := by
  induction m with
  | nil => exact absurd hmem List.not_mem_nil
  | cons e m ih =>
    obtain ⟨i, u⟩ := e
    by_cases hik : i = k
    · subst hik
      rw [mget, if_pos rfl, huniq u List.mem_cons_self]
    · rw [mget, if_neg hik]
      refine ih ?_ (fun u' hu' => huniq u' (List.mem_cons_of_mem _ hu'))
      exact (List.mem_cons.mp hmem).resolve_left (fun heq => hik (congrArg Prod.fst heq).symm)

theorem mget_of_not_mem {m : Map α} {k : Nat} (h : ∀ v, (k, v) ∉ m) : mget m k = none := by
  induction m with
  | nil => rfl
  | cons e m ih =>
    obtain ⟨i, u⟩ := e
    have hik : i ≠ k := fun heq => h u (by rw [heq]; exact List.mem_cons_self)
    rw [mget, if_neg hik, ih (fun v hv => h v (List.mem_cons_of_mem _ hv))]

/-- Setting the keys of one collection in another. -/
theorem mget_foldl_mput {old : Map α} {b : Nat} (h : keysFrom b old = true) (new : Map α) (k : Nat) :
    mget (old.foldl (fun m e => mput m e.1 e.2) new) k = (mget old k).or (mget new k) := by
  induction old generalizing b new with
  | nil => rfl
  | cons e old ih =>
    obtain ⟨i, v⟩ := e
    simp only [keysFrom, Bool.and_eq_true, decide_eq_true_eq] at h
    rw [List.foldl_cons, ih h.2, mget_mput, mget]
    by_cases hik : i = k
    · subst hik
      have hnone : mget old i = none := mget_of_not_mem fun u hu => absurd (le_of_mem_keysFrom h.2 hu) (by simp)
      rw [if_pos rfl, if_pos rfl, hnone]
      rfl
    · rw [if_neg (Ne.symm hik), if_neg hik]

end

/-! ### Elements of accumulators -/

/-- The key of an element. -/
def accKey (a i j : Nat) : Nat := 16384 * a + 128 * i + j

theorem accKey_div {a i j : Nat} (hi : i < 128) (hj : j < 128) : accKey a i j / 16384 = a := by unfold accKey; omega

theorem accKey_row {a i j : Nat} (hi : i < 128) (hj : j < 128) : accKey a i j % 16384 / 128 = i := by unfold accKey; omega

theorem accKey_col {a i j : Nat} (hj : j < 128) : accKey a i j % 128 = j := by unfold accKey; omega

theorem acc_eq (c : Cluster) (a i j : Nat) : c.acc a i j = (mget c.a (accKey a i j)).getD 0 := rfl

/-- The elements of a block that are not 0, as `updAcc` lists them. -/
def blockCells (a rows cols : Nat) (f : Nat → Nat → Word) : Map Word :=
  (List.range rows).flatMap (fun i => (List.range cols).filterMap (fun j =>
    let x := f i j
    if x = 0 then none else some (16384 * a + 128 * i + j, x)))

theorem mem_blockCells {a rows cols : Nat} {f : Nat → Nat → Word} {e : Nat × Word} : e ∈ blockCells a rows cols f ↔
    ∃ i j, i < rows ∧ j < cols ∧ f i j ≠ 0 ∧ e = (accKey a i j, f i j) := by
  simp only [blockCells, List.mem_flatMap, List.mem_range, List.mem_filterMap, Option.ite_none_left_eq_some, Option.some.injEq,
    accKey]
  constructor
  · rintro ⟨i, hi, j, hj, hx, rfl⟩; exact ⟨i, j, hi, hj, hx, rfl⟩
  · rintro ⟨i, j, hi, hj, hx, rfl⟩; exact ⟨i, hi, j, hj, hx, rfl⟩

section
variable {a b rows cols i j : Nat} {f : Nat → Nat → Word} (hrows : rows ≤ 128) (hcols : cols ≤ 128) (hi : i < 128) (hj : j < 128)
include hrows hcols hi hj

theorem eq_of_mem_blockCells {x : Word} (h : (accKey b i j, x) ∈ blockCells a rows cols f) :
    b = a ∧ i < rows ∧ j < cols ∧ f i j ≠ 0 ∧ x = f i j := by
  obtain ⟨i', j', hi', hj', hx, heq⟩ := mem_blockCells.mp h
  obtain ⟨hkey, rfl⟩ := Prod.mk.inj heq
  unfold accKey at hkey
  obtain rfl : b = a := by omega
  obtain rfl : i = i' := by omega
  obtain rfl : j = j' := by omega
  exact ⟨rfl, hi', hj', hx, rfl⟩

/-- An element of the block reads as its value. -/
theorem mget_blockCells_inside (h : i < rows ∧ j < cols) : (mget (blockCells a rows cols f) (accKey a i j)).getD 0 = f i j := by
  by_cases hx : f i j = 0
  · rw [mget_of_not_mem, hx]
    · rfl
    · intro x hmem
      obtain ⟨-, -, -, hne, -⟩ := eq_of_mem_blockCells hrows hcols hi hj hmem
      exact hne hx
  · rw [mget_of_mem (mem_blockCells.mpr ⟨i, j, h.1, h.2, hx, rfl⟩)]
    · rfl
    · intro x hmem
      obtain ⟨-, -, -, -, hval⟩ := eq_of_mem_blockCells hrows hcols hi hj hmem
      exact hval

theorem mget_blockCells_outside (h : ¬ (b = a ∧ i < rows ∧ j < cols)) : mget (blockCells a rows cols f) (accKey b i j) = none := by
  apply mget_of_not_mem
  intro x hmem
  obtain ⟨hba, hir, hjc, -, -⟩ := eq_of_mem_blockCells hrows hcols hi hj hmem
  exact h ⟨hba, hir, hjc⟩

/-- Setting a block of an accumulator (R153): every other element stays. -/
theorem acc_updAcc {c : Cluster} (hkeys : keysFrom 0 c.a = true) :
    (c.updAcc a rows cols f).acc b i j = if b = a ∧ i < rows ∧ j < cols then f i j else c.acc b i j := by
  have hbelow : ∀ m n, m ≤ n → decide (n / 16384 < a) = true → decide (m / 16384 < a) = true := by
    intro m n hmn h
    rw [decide_eq_true_eq] at h ⊢
    omega
  have hupto : ∀ m n, m ≤ n → decide (n / 16384 ≤ a) = true → decide (m / 16384 ≤ a) = true := by
    intro m n hmn h
    rw [decide_eq_true_eq] at h ⊢
    omega
  have hget : mget (c.updAcc a rows cols f).a (accKey b i j) =
      ((if b < a then mget c.a (accKey b i j) else none).or
        ((if b = a ∧ (rows ≤ i ∨ cols ≤ j) then mget c.a (accKey b i j) else none).or
          (mget (blockCells a rows cols f) (accKey b i j)))).or
        (if b ≤ a then none else mget c.a (accKey b i j)) := by
    have hkept := keysFrom_filter
      (fun n => n / 16384 == a && (decide (rows ≤ n % 16384 / 128) || decide (cols ≤ n % 128))) hkeys
    rw [Cluster.updAcc, mget_append, mget_append, takeWhile_eq_filter hbelow hkeys, mget_filter (fun n => decide (n / 16384 < a)),
      dropWhile_eq_filter hupto hkeys, mget_filter (fun n => !decide (n / 16384 ≤ a)), mget_foldl_mput hkept,
      mget_filter (fun n => n / 16384 == a && (decide (rows ≤ n % 16384 / 128) || decide (cols ≤ n % 128)))]
    simp only [accKey_div hi hj, accKey_row hi hj, accKey_col (i := i) hj, decide_eq_true_eq, Bool.and_eq_true, Bool.or_eq_true,
      beq_iff_eq, Bool.not_eq_true', decide_eq_false_iff_not, ite_not]
    rfl
  rw [acc_eq, hget]
  by_cases hin : b = a ∧ i < rows ∧ j < cols
  · obtain ⟨rfl, hir, hjc⟩ := hin
    rw [if_neg (by omega), if_neg (by omega), if_pos (Nat.le_refl b), if_pos ⟨rfl, hir, hjc⟩, Option.none_or, Option.none_or,
      Option.or_none, mget_blockCells_inside hrows hcols hi hj ⟨hir, hjc⟩]
  · rw [mget_blockCells_outside hrows hcols hi hj hin, if_neg hin, Option.or_none, acc_eq]
    rcases Nat.lt_trichotomy b a with hlt | rfl | hgt
    · rw [if_pos hlt, if_neg (by omega), if_pos (by omega), Option.or_none, Option.or_none]
    · rw [if_neg (by omega), if_pos ⟨rfl, by omega⟩, if_pos (Nat.le_refl b), Option.none_or, Option.or_none]
    · rw [if_neg (by omega), if_neg (by omega), if_neg (by omega), Option.none_or, Option.none_or]

end

/-- Clearing an accumulator. -/
theorem acc_clearAcc (c : Cluster) (a b : Nat) {i j : Nat} (hi : i < 128) (hj : j < 128) :
    (c.clearAcc a).acc b i j = if b = a then 0 else c.acc b i j := by
  rw [acc_eq, Cluster.clearAcc, mget_filter (fun n => n / 16384 != a), accKey_div hi hj, acc_eq]
  by_cases hba : b = a <;> simp [hba]

theorem keysFrom_clearAcc {c : Cluster} (a : Nat) (h : keysFrom 0 c.a = true) : keysFrom 0 (c.clearAcc a).a = true :=
  keysFrom_filter (fun n => n / 16384 != a) h

end Sys2Proof.Machine
end

section
/-! The tensor instructions (08, R175, R176, Table CLU-20). -/

namespace Sys2Proof.Machine

/-! ### Values in a block -/

/-- A list mapped with its indices. -/
theorem getD_map_zip_range {α β : Type} (l : List α) (g : Nat × α → β) {n i : Nat} (hn : l.length = n) (hi : i < n)
    (e : α) (d : β) :
    (((List.range n).zip l).map g).getD i d = g (i, l.getD i e) := by
  subst hn
  have hz : i < ((List.range l.length).zip l).length := by simpa using hi
  rw [List.getD_eq_getElem?_getD, List.getD_eq_getElem?_getD, List.getElem?_map, List.getElem?_eq_getElem hz,
    List.getElem?_eq_getElem hi, List.getElem_zip, List.getElem_range]
  rfl

theorem getD_map_range {β : Type} (g : Nat → β) {n i : Nat} (hi : i < n) (d : β) : ((List.range n).map g).getD i d = g i := by
  rw [List.getD_eq_getElem?_getD, List.getElem?_map, List.getElem?_range hi]
  rfl

theorem length_tileNums (c : Cluster) (t : Tile) : (tileNums c t).length = t.rows := by simp [tileNums]

/-- What MMA leaves in the accumulators (R153, R175). -/
theorem acc_mmaOn {c : Cluster} {ta tb : Tile} {ad b i j : Nat} (hkeys : keysFrom 0 c.a = true) (hta : ta.rows ≤ 128)
    (htb : tb.rows ≤ 128) (hi : i < 128) (hj : j < 128) :
    (mmaOn ad ta tb c).acc b i j = if b = ad ∧ i < ta.rows ∧ j < tb.rows then
      (mulAcc (c.acc ad i j) (rowBlocks ((tileNums c ta).getD i []) ((tileNums c tb).getD j []) (ta.cols / 32))).1
      else c.acc b i j := by
  refine (acc_updAcc hta htb hi hj hkeys).trans (ite_congr rfl (fun hin => ?_) (fun _ => rfl))
  obtain ⟨-, hir, hjc⟩ := hin
  rw [getD_map_zip_range _ _ (length_tileNums c ta) hir [], getD_map_zip_range _ _ (length_tileNums c tb) hjc []]

/-! ### Instructions -/

/-- Shapes and formats that MMA takes (R175). -/
theorem not_bad_shape {t u : Tile} (hshape : t.rows ≤ 128 ∧ u.rows ≤ 128 ∧ t.cols = u.cols ∧ t.cols % 32 = 0)
    (hfmt : t.fmt ≠ 0 ∧ u.fmt ≠ 0) :
    ¬ (128 < t.rows ∨ 128 < u.rows ∨ t.cols ≠ u.cols ∨ t.cols % 32 ≠ 0 ∨ t.fmt = 0 ∨ u.fmt = 0) := by
  omega

theorem mmaIssue_of {s : State} {k major : Nat} {clear : Bool} {w : BitVec 56} {c : Cluster} {l : Launch} {t u : Tile}
    (h : Issuing s k major w c l) (hg : Guarded c major w)
    (he : Enc.ok ⟨.r8, .r16, .r16, .no, plainR⟩ (wordOf major w) = true)
    (ht : tileOf (c.tr (wA (wordOf major w))) = some t) (hu : tileOf (c.tr (wB (wordOf major w))) = some u)
    (hshape : t.rows ≤ 128 ∧ u.rows ≤ 128 ∧ t.cols = u.cols ∧ t.cols % 32 = 0) (hfmt : t.fmt ≠ 0 ∧ u.fmt ≠ 0)
    (hf : Follows l (c.pc + 1)) :
    mmaIssue k major clear w s = .next (s.setClu k (onward (mmaOn (wD (wordOf major w)) t u
      (if clear then c.clearAcc (wD (wordOf major w)) else c)))) := by
  obtain ⟨-, hc, hl, -, -⟩ := id h
  rw [mmaIssue, cIssue_of h hg he, withTile_of ht, withTile_of hu, if_neg (not_bad_shape hshape hfmt),
    cUpd_of_samePlace hc hl hf]
  cases clear <;> exact ⟨rfl, rfl⟩

theorem SamePlace.drawAll (c : Cluster) (l : Launch) (mode : Nat) (xs : List (Nat × Num)) : SamePlace c (c.drawAll l mode xs).2 := by
  induction xs generalizing c with
  | nil => exact .refl c
  | cons x xs ih => exact (SamePlace.drawFor c l mode _ _).trans (ih _)

theorem SamePlace.encodeCols (c : Cluster) (l : Launch) (t : Tile) (mode col : Nat) (xs : List Num) :
    SamePlace c (encodeCols c l t mode col xs).2.2.2 := by
  unfold Machine.encodeCols
  dsimp only
  split
  · exact .drawAll _ _ _ _
  · exact .refl c

/-- A row stored from an accumulator. -/
theorem SamePlace.storeRow (l : Launch) (t : Tile) (mode row : Nat) (xs : List Num) (c : Cluster) :
    SamePlace c (storeRow l t mode row xs c) := by
  unfold Machine.storeRow
  split
  · refine SamePlace.trans ?_ (.putRow _ _ _ _)
    refine SamePlace.foldl_snd (fun x b => ?_) (List.range _) (_, c)
    exact (SamePlace.encodeCols _ _ _ _ _ _).trans (.flag _ _)
  · refine SamePlace.trans ?_ (.putRow _ _ _ _)
    refine SamePlace.foldl_snd (fun x e => ?_) (List.zip _ _) (_, c)
    exact (SamePlace.drawFor _ _ _ _ _).trans (.flag _ _)

/-- Settles O17: an accumulator is read after the update of a block of its elements. -/
theorem clusterTensorOperations : Obligations.ClusterTensorOperations := by
  unfold Obligations.ClusterTensorOperations
  refine ⟨?mma, ?mmaz, ?azero, ?cleared, ?ald, ?ast⟩
  case mma =>
    intro k t u w s c l h hg he ht hu hshape hfmt hf
    refine ⟨_, (exec_clMma k w s).trans (mmaIssue_of h hg he ht hu hshape hfmt hf), rfl, ?_, ?_⟩
    · intro hkeys i j hi hj
      simp only [Bool.false_eq_true, if_false, acc_mmaOn hkeys hshape.1 hshape.2.1 hi hj, true_and]
    · intro hkeys a i j ha hi hj
      simp only [Bool.false_eq_true, if_false, acc_mmaOn hkeys hshape.1 hshape.2.1 hi hj, ha, false_and]
  case mmaz =>
    intro k t u w s c l h hg he ht hu hshape hfmt hf
    have hclear := fun hkeys => keysFrom_clearAcc (c := c) (wD (wordOf 0x51 w)) hkeys
    refine ⟨_, (exec_clMmaz k w s).trans (mmaIssue_of h hg he ht hu hshape hfmt hf), rfl, ?_, ?_⟩
    · intro hkeys i j hi hj
      simp only [if_true, acc_mmaOn (hclear hkeys) hshape.1 hshape.2.1 hi hj, acc_clearAcc c _ _ hi hj, true_and]
      rfl
    · intro hkeys a i j ha hi hj
      simp only [if_true, acc_mmaOn (hclear hkeys) hshape.1 hshape.2.1 hi hj, acc_clearAcc c _ _ hi hj, ha, false_and, if_false]
  case azero => exact fun k w s c l h hg he hf => (exec_clAzero k w s).trans (cIssue_cUpd h hg he hf rfl ⟨rfl, rfl⟩)
  case cleared => exact fun c a b i j hi hj => acc_clearAcc c a b hi hj
  case ald =>
    intro k t w s c l h hg he ht hrows hcols hf
    obtain ⟨-, hc, hl, -, -⟩ := id h
    rw [exec_clAld, execClAld, cIssue_of h hg he, withTile_of ht, if_neg (by omega), cUpd_of_samePlace hc hl hf ⟨rfl, rfl⟩]
    refine ⟨_, rfl, rfl, ?_, ?_⟩
    · intro hkeys i j hi hj
      refine (acc_updAcc hrows hcols hi hj hkeys).trans (ite_congr (by simp) (fun hin => ?_) (fun _ => rfl))
      rw [getD_map_range _ hin.1, getD_map_range _ hin.2]
    · intro hkeys a i j ha hi hj
      exact (acc_updAcc hrows hcols hi hj hkeys).trans (if_neg (fun hin => ha hin.1))
  case ast =>
    intro k t w s c l h hg he ht hrows hcols hring hf
    obtain ⟨-, hc, hl, -, -⟩ := id h
    rw [exec_clAst, execClAst, cIssue_of h hg he, withTile_of ht, if_neg (by omega), hring, if_neg Bool.false_ne_true,
      cUpd_of_samePlace hc hl hf]
    exact SamePlace.foldl (fun c' i => .storeRow _ _ _ _ _ _) _ c

end Sys2Proof.Machine
end

section
/-! Synchronisation, the delivery ring, events, collectives and the step interface (08, R181 to R186; Tables CLU-24, CLU-28 to
CLU-30). -/

namespace Sys2Proof.Machine

/-! ### Checks that pass -/

/-- Events go into a port that holds fewer than 32 (R183). -/
theorem portPut_of {s : State} {k : Nat} {c : Cluster} {l : Launch} (hc : s.clu k = some c) (hl : s.lch c.launch = some l)
    (hf : Follows l (c.pc + 1)) (hroom : c.port.length < 32) (xs : List Word) :
    portPut k c xs s = s.setClu k (onward { c with port := c.port ++ xs.map (portWord s) }) := by
  rw [portPut, if_neg (by omega), cUpd_of_samePlace hc hl hf ⟨rfl, rfl⟩]

theorem withMove_colls (c : Cluster) (d major left : Nat) (op : TileOp) : (withMove c d major op left).colls = c.colls := by
  unfold withMove Cluster.setS
  split <;> rfl

/-- A collective is issued as one move, and matched with those of the other ranks (R184). -/
theorem issueColl_of {s : State} {k w : Nat} {c : Cluster} {l : Launch} {g : Coll} (hc : s.clu k = some c)
    (hl : s.lch c.launch = some l) (hm : CanMove c) (hf : Follows l (c.pc + 1)) :
    issueColl k c w g s = collMatch c.launch c.colls.length (s.setClu k
      { onward (withMove c (wD w) g.major (.coll c.colls.length) g.size) with colls := c.colls ++ [g] }) := by
  have hissued : c.issued < (onward (withMove c (wD w) g.major (.coll c.colls.length) g.size)).issued := by
    simp [onward, withMove]
  have hcolls : (onward (withMove c (wD w) g.major (.coll c.colls.length) g.size)).colls = c.colls :=
    withMove_colls c (wD w) g.major g.size (.coll c.colls.length)
  rw [issueColl, issueMove_of hc hl hm hf]
  simp only [clu_setClu_same, if_pos hissued]
  rw [updClu_eq _ (clu_setClu_same _ _ _), setClu_setClu, hcolls]

section
variable {s : State} {k w sub root : Nat} {c : Cluster} {l : Launch} {a b : Tile}

theorem collChecked_callr (hfmt : a.fmt ≤ 2) (hring : inRing l a = false) :
    collChecked k c l w ⟨0xA0, sub, root, a, none⟩ s = issueColl k c w ⟨0xA0, sub, root, a, none⟩ s :=
  (if_neg (by simpa using hfmt)).trans (if_neg (Bool.eq_false_iff.mp hring))

theorem collChecked_cbcast (hroot : root < l.size) (hring : inRing l a = false) :
    collChecked k c l w ⟨0xA1, sub, root, a, none⟩ s = issueColl k c w ⟨0xA1, sub, root, a, none⟩ s :=
  (if_neg (by simpa using hroot)).trans (if_neg (Bool.eq_false_iff.mp hring))

theorem collChecked_cagath (hrows : b.rows = l.size * a.rows) (hring : inRing l b = false) :
    collChecked k c l w ⟨0xA2, sub, root, a, some b⟩ s = issueColl k c w ⟨0xA2, sub, root, a, some b⟩ s :=
  (if_neg (by simpa using hrows)).trans (if_neg (Bool.eq_false_iff.mp hring))

theorem collChecked_crdsc (hfmt : a.fmt ≤ 2 ∧ b.fmt ≤ 2) (hrows : a.rows = l.size * b.rows) (hring : inRing l b = false) :
    collChecked k c l w ⟨0xA3, sub, root, a, some b⟩ s = issueColl k c w ⟨0xA3, sub, root, a, some b⟩ s :=
  (if_neg (by simpa [and_assoc] using ⟨hfmt.1, hfmt.2, hrows⟩)).trans (if_neg (Bool.eq_false_iff.mp hring))

end

/-- The step of a launch and an entry of its batch (R186). -/
theorem withEntry_of {s : State} {k major w id g : Nat} {c : Cluster} {l : Launch} {t : Step} {e : StepEntry}
    {body : Nat → Nat → Step → StepEntry → State → State} (hl : l.step = some (id, g)) (ht : s.step? id = some t)
    (he : t.entries[(c.sr (wA w)).toNat]? = some e) : withEntry k major c l w body s = body id g t e s := by
  unfold withEntry
  simp only [hl, ht, he]

theorem clu_updStep (s : State) (id k : Nat) (f : Step → Step) : (s.updStep id f).clu k = s.clu k := rfl

theorem lch_updStep (s : State) (id n : Nat) (f : Step → Step) : (s.updStep id f).lch n = s.lch n := rfl

/-- Settles O18: each instruction has its effect once its operand checks have passed, and goes on or waits. -/
theorem clusterSynchronisation : Obligations.ClusterSynchronisation := by
  unfold Obligations.ClusterSynchronisation
  refine ⟨?fence, ?fenceWaits, ?signal, ?swait, ?swaitWaits, ?sread, ?bar, ?kvwait, ?kvrel, ?kvinfo, ?evinj, ?evinjFull, ?evinjv,
    ?callr, ?cbcast, ?cagath, ?crdsc, ?tokout, ?tokoutOnly, ?eot⟩
  case fence =>
    intro k w s c l h hg he hmoves hf
    obtain ⟨-, hc, hl, -, -⟩ := id h
    rw [exec_clFence, execClFence, cIssue_of h hg he, if_pos (List.isEmpty_iff.mpr hmoves), cNext_of hc hl hf]
  case fenceWaits =>
    intro k w s c l h hg he hmoves
    obtain ⟨-, hc, -, -, -⟩ := id h
    rw [exec_clFence, execClFence, cIssue_of h hg he, if_neg (fun hm => hmoves (List.isEmpty_iff.mp hm)), updClu_eq _ hc]
  case signal =>
    intro k w s c l h hg he hr hf
    obtain ⟨-, hc, hl, -, -⟩ := id h
    rw [exec_clSignal, execClSignal, cIssue_of h hg he, if_neg (Nat.not_le.mpr hr)]
    dsimp only
    rw [cUpd_of_samePlace hc hl hf ⟨rfl, rfl⟩]
  case swait =>
    intro k w s c l h hg he hsem hf
    obtain ⟨-, hc, hl, -, -⟩ := id h
    rw [exec_clSwait, execClSwait, cIssue_of h hg he, if_pos hsem, cNext_of hc hl hf]
  case swaitWaits =>
    intro k w s c l h hg he hsem
    obtain ⟨-, hc, -, -, -⟩ := id h
    rw [exec_clSwait, execClSwait, cIssue_of h hg he, if_neg (Nat.not_le.mpr hsem), updClu_eq _ hc]
  case sread =>
    exact fun k w s c l h hg he hf => (exec_clSread k w s).trans (cIssue_cUpd h hg he hf rfl (.setS _ _ _))
  case bar =>
    intro k w s c l h hg he
    obtain ⟨-, hc, -, -, -⟩ := id h
    rw [exec_clBar, execClBar, cIssue_of h hg he, updClu_eq _ hc]
  case kvwait =>
    intro k w s c l h hg he hpage hfrom hto
    obtain ⟨-, hc, -, -, -⟩ := id h
    rw [exec_clKvwait, execClKvwait, cIssue_of h hg he, if_neg (by omega), updClu_eq _ hc]
  case kvrel =>
    intro k w s c l h hg he hold hf
    obtain ⟨-, hc, hl, -, -⟩ := id h
    rw [exec_clKvrel, execClKvrel, cIssue_of h hg he, if_neg (Decidable.not_not.mpr hold), cUpd_of_samePlace hc hl hf ⟨rfl, rfl⟩]
  case kvinfo =>
    intro k p w s c l h hg he hp hf
    obtain ⟨-, hc, hl, -, -⟩ := id h
    rw [exec_clKvinfo, execClKvinfo, cIssue_of h hg he]
    simp only [hp]
    rw [cUpd_of_samePlace hc hl hf (.setS _ _ _)]
  case evinj =>
    intro k w s c l h hg he hroom hf
    obtain ⟨-, hc, hl, -, -⟩ := id h
    rw [exec_clEvinj, execClEvinj, cIssue_of h hg he, portPut_of hc hl hf hroom]
    rfl
  case evinjFull =>
    intro k w s c l h hg he hfull
    rw [exec_clEvinj, execClEvinj, cIssue_of h hg he, portPut, if_pos hfull]
  case evinjv =>
    intro k w s c l h hv he hroom hf
    obtain ⟨-, hc, hl, -, -⟩ := id h
    rw [exec_clEvinjv, execClEvinjv, vIssue_of h hv he rfl, portPut_of hc hl hf hroom, List.map_map]
    rfl
  case callr =>
    intro k t w s c l h hg he ht hfmt hring hm hf
    obtain ⟨-, hc, hl, -, -⟩ := id h
    rw [exec_clCallr, execClCallr, cIssue_of h hg he, withTile_of ht, collChecked_callr hfmt hring, issueColl_of hc hl hm hf]
  case cbcast =>
    intro k t w s c l h hg he ht hroot hring hm hf
    obtain ⟨-, hc, hl, -, -⟩ := id h
    rw [exec_clCbcast, execClCbcast, cIssue_of h hg he, withTile_of ht, collChecked_cbcast hroot hring, issueColl_of hc hl hm hf]
  case cagath =>
    intro k t u w s c l h hg he ht hu hrows hring hm hf
    obtain ⟨-, hc, hl, -, -⟩ := id h
    rw [exec_clCagath, execClCagath, cIssue_of h hg he, withTile_of ht, withTile_of hu, collChecked_cagath hrows hring,
      issueColl_of hc hl hm hf]
  case crdsc =>
    intro k t u w s c l h hg he ht hu hfmt hrows hring hm hf
    obtain ⟨-, hc, hl, -, -⟩ := id h
    rw [exec_clCrdsc, execClCrdsc, cIssue_of h hg he, withTile_of ht, withTile_of hu, collChecked_crdsc hfmt hrows hring,
      issueColl_of hc hl hm hf]
  case tokout =>
    intro k n g t e w s c l h hg he hstep ht hentry hlast hrank hproduces hnone hf
    obtain ⟨-, hc, hl, -, -⟩ := id h
    rw [exec_clTokout, execClTokout, cIssue_of h hg he, withEntry_of hstep ht hentry]
    simp only [hlast, hrank, hproduces, hnone, ne_eq, not_true_eq_false, Bool.true_eq_false, or_self, Option.isSome_none,
      Bool.false_eq_true, if_false]
    rw [cNext_of ((clu_updStep s n k _).trans hc) ((lch_updStep s n c.launch _).trans hl) hf]
  case tokoutOnly =>
    intro k n g t e w s c l h hg he hstep ht hentry hlast hno hf
    obtain ⟨-, hc, hl, -, -⟩ := id h
    rw [exec_clTokout, execClTokout, cIssue_of h hg he, withEntry_of hstep ht hentry]
    simp only [hlast, hno, ne_eq, not_true_eq_false, if_false, if_true]
    rw [cNext_of hc hl hf]
  case eot =>
    intro k n g t e w s c l h hg he hstep ht hentry hrank hfirst hf
    obtain ⟨-, hc, hl, -, -⟩ := id h
    rw [exec_clEot, execClEot, cIssue_of h hg he, withEntry_of hstep ht hentry]
    simp only [hrank, hfirst, ne_eq, not_true_eq_false, Bool.false_eq_true, or_self, if_false]
    rw [cNext_of ((clu_updStep s n k _).trans hc) ((lch_updStep s n c.launch _).trans hl) hf]

end Sys2Proof.Machine
end

section
/-! END of a queue program (09, R198, R202): what it does, and why the claim about the queue instructions fails there. -/

namespace Sys2Proof.Machine

/-- A list of tokens none of which is open. -/
theorem openToks_eq_zero {ts : List Token} (h : ∀ t ∈ ts, t.status ≠ none) : openToks ts = 0 := by
  rw [openToks, List.length_eq_zero_iff, List.filter_eq_nil_iff]
  exact fun t ht hopen => h t ht (Option.isNone_iff_eq_none.mp hopen)

/-- END of a queue program with nothing open ends it DONE, with sa as the RESULT of its QPROG_RUN. What `endProg` does
beside that is to mark the tokens of the flights and the launches that carry the program's key (R198). -/
theorem exec_qpEnd_of_idle {s : State} {key : Nat} {w : BitVec 56} {p : QProg} (h : QIssuing s key 0xCE w p)
    (hg : QGuarded p 0xCE w) (he : Enc.ok ⟨.no, .r32, .no, .no, plainR⟩ (wordOf 0xCE w) = true)
    (hidle : ∀ t ∈ p.cmds ++ p.launches, t.status ≠ none) (hstep : p.step = none) :
    exec (.qpEnd key w) s = .next (endProg key ⟨0, 0, 0⟩ (p.regs.sr (wA (wordOf 0xCE w))).toNat s) := by
  have hcmds := openToks_eq_zero fun t ht => hidle t (List.mem_append_left _ ht)
  have hlaunches := openToks_eq_zero fun t ht => hidle t (List.mem_append_right _ ht)
  have hp : s.prog key = some p := h.1
  rw [exec_qpEnd, execQpEnd, qIssue_of h he rfl hg, if_pos (by simp [QProg.idle, hcmds, hlaunches]), quitProg, hp]
  simp only [hstep]

/-- A queue program whose one instruction is END, with no token open. -/
def endingProgram : QProg := { slot := 0, queue := 0, obj := 0, code := [0xCE#8 ++ 0#56] }

/-- A launch that carries the key of queue 0 of slot 0, under token 0. -/
def lastingLaunch : Launch :=
  { slot := 0, prog := 0, token := 0, report := false, handle := 0, handles := [], args := [], seed := 0, group := 1,
    waitLimit := 10000, timeLimit := 1000, issuedAt := 0 }

/-- The sled after reset with `endingProgram` on queue 0 of slot 0 and `lastingLaunch` among its launches. -/
def endingState : State := { State.reset with progs := [(0, endingProgram)], launches := [(0, lastingLaunch)] }

/-- Refutes O19 in its clause of END with nothing open: the claim has every launch as before, and in `endingState` the
launch that carries the program's key gets the token 65,536, by which no later program of the queue takes it for its own. -/
theorem not_queueProgramScalarAndBranches : ¬ Obligations.QueueProgramScalarAndBranches := by
  unfold Obligations.QueueProgramScalarAndBranches
  rintro ⟨-, -, -, -, -, -, -, -, -, -, -, -, -, -, -, -, -, -, -, -, -, -, -, -, -, hend, -⟩
  have hissuing : QIssuing endingState 0 0xCE 0 endingProgram := by decide +kernel
  have hguarded : QGuarded endingProgram 0xCE 0 := by decide +kernel
  have hok : Enc.ok ⟨.no, .r32, .no, .no, plainR⟩ (wordOf 0xCE 0) = true := by decide +kernel
  have hidle : ∀ t ∈ endingProgram.cmds ++ endingProgram.launches, t.status ≠ none := by decide
  have hclaim := hend 0 0 endingState endingProgram hissuing hguarded hok hidle rfl
  rw [exec_qpEnd_of_idle hissuing hguarded hok hidle rfl, Host.Outcome.next.injEq] at hclaim
  have htoken := congrArg (fun t => (t.lch 0).map (·.token)) hclaim
  exact absurd htoken (by decide +kernel)

end Sys2Proof.Machine
end

section
/-! Objects and tokens of a queue program (09, R198, R199, Table QUE-7): an access whose checks pass, and a wait for work that has
ended, is open, or is out of the window. -/

namespace Sys2Proof.Machine

theorem length_leBytes (x n : Nat) : (leBytes x n).length = n := by
  induction n generalizing x with
  | zero => rfl
  | succ n ih => rw [leBytes, List.length_cons, ih]

section
variable {s : State} {key off len reg : Nat} {h : DWord} {p : QProg} {n : Named}

/-- A read whose handle passes the checks of Table TIER-3, of unpoisoned pages that need no promotion, is charged and goes on with
the object's bytes. -/
theorem qRead_of {body : Memory → State → State} (hp : s.prog key = some p)
    (hn : (checkHandle s p.slot h false off len reg p.pc).toOption = some n)
    (hpoison : (pagesOf n.obj off len).find? (fun i => (n.obj.page i).poison) = none)
    (hpromote : mustPromote n.obj off len false = []) :
    qRead key h reg off len body s = body n.obj.data (useRead p.slot n off len s) := by
  unfold qRead
  simp only [hp, ok_of_toOption hn, hpoison, hpromote]

/-- A write whose handle passes the checks, of pages without a lease or poison that need no promotion, stores its bytes. -/
theorem qWrite_of {bytes : List Byte} (hlen : bytes.length = len) (hp : s.prog key = some p)
    (hn : (checkHandle s p.slot h true off len reg p.pc).toOption = some n)
    (hlease : leaseBlock n.obj (pagesOf n.obj off len) = none)
    (hpoison : (pagesOf n.obj off len).find? (fun i => (n.obj.page i).poison && !covers n.obj off len i) = none)
    (hpromote : mustPromote n.obj off len true = []) :
    qWrite key h reg off bytes s = qNext key (storeBytes n.slot n.idx off bytes s) := by
  subst hlen
  unfold qWrite
  simp only [hp, ok_of_toOption hn, hlease, hpoison, hpromote]

end

section
variable {key issued window : Nat} {ts : List Token} {tok : DWord} {t : Token} {body : Token → Word → State → State} {s : State}

theorem onToken_out (hout : tokenOk issued window tok.toNat = false) : onToken key ts issued window tok body s = qFault key s := by
  simp only [onToken, hout, Bool.not_false, if_true]

theorem onToken_open (hin : tokenOk issued window tok.toNat = true) (ht : findTok ts tok.toNat = some t) (hopen : t.status = none) :
    onToken key ts issued window tok body s = s := by
  simp only [onToken, hin, ht, hopen, Bool.not_true, Bool.false_eq_true, if_false]

theorem onToken_ended {st : Word} (hin : tokenOk issued window tok.toNat = true) (ht : findTok ts tok.toNat = some t)
    (hended : t.status = some st) : onToken key ts issued window tok body s = body t st s := by
  simp only [onToken, hin, ht, hended, Bool.not_true, Bool.false_eq_true, if_false]

end

/-- Settles O20: an access by whether its offset is aligned, a wait by whether its token's work has ended, is open, or is out of the
window. -/
theorem queueProgramMemoryAndTokens : Obligations.QueueProgramMemoryAndTokens := by
  unfold Obligations.QueueProgramMemoryAndTokens
  refine ⟨?ld, ?ldUnaligned, ?st, ?stUnaligned, ?cwait, ?cwaitOpen, ?cwaitOut, ?cres, ?cresOpen, ?cresOut, ?lwait, ?lwaitOpen,
    ?lwaitOut, ?lrep, ?lrepUnaligned⟩
  case ld =>
    intro key n w s p h hg he halign hn hpoison hpromote hf
    have hp : s.prog key = some p := h.1
    rw [exec_qpLd, execQpLd, qIssue_of h he rfl hg]
    dsimp only
    rw [if_neg (Decidable.not_not.mpr halign), qRead_of hp hn hpoison hpromote, qSet_of ((useRead_prog ..).trans hp) hf]
  case ldUnaligned =>
    intro key w s p h hg he hodd
    rw [exec_qpLd, execQpLd, qIssue_of h he rfl hg]
    exact congrArg _ (if_pos hodd)
  case st =>
    intro key n w s p h hg he halign hn hlease hpoison hpromote
    have hp : s.prog key = some p := h.1
    rw [exec_qpSt, execQpSt, qIssue_of h he rfl hg]
    dsimp only
    rw [if_neg (Decidable.not_not.mpr halign), qWrite_of (length_leBytes _ 8) hp hn hlease hpoison hpromote]
  case stUnaligned =>
    intro key w s p h hg he hodd
    rw [exec_qpSt, execQpSt, qIssue_of h he rfl hg]
    exact congrArg _ (if_pos hodd)
  case cwait =>
    intro key t st w s p h hg he hin ht hended hf
    rw [exec_qpCwait, execQpCwait, qIssue_of h he rfl hg, onToken_ended (window := cmdWindow) hin ht hended, qSet_of h.1 hf]
  case cwaitOpen =>
    intro key t w s p h hg he hin ht hopen
    rw [exec_qpCwait, execQpCwait, qIssue_of h he rfl hg, onToken_open (window := cmdWindow) hin ht hopen]
  case cwaitOut =>
    intro key w s p h hg he hout
    rw [exec_qpCwait, execQpCwait, qIssue_of h he rfl hg, onToken_out (window := cmdWindow) hout]
  case cres =>
    intro key t st w s p h hg he hin ht hended hf
    rw [exec_qpCres, execQpCres, qIssue_of h he rfl hg, onToken_ended (window := cmdWindow) hin ht hended, qSet_of h.1 hf]
  case cresOpen =>
    intro key t w s p h hg he hin ht hopen
    rw [exec_qpCres, execQpCres, qIssue_of h he rfl hg, onToken_open (window := cmdWindow) hin ht hopen]
  case cresOut =>
    intro key w s p h hg he hout
    rw [exec_qpCres, execQpCres, qIssue_of h he rfl hg, onToken_out (window := cmdWindow) hout]
  case lwait =>
    intro key t st w s p h hg he hin ht hended hf
    rw [exec_qpLwait, execQpLwait, qIssue_of h he rfl hg, onToken_ended (window := launchWindow) hin ht hended, qSet_of h.1 hf]
  case lwaitOpen =>
    intro key t w s p h hg he hin ht hopen
    rw [exec_qpLwait, execQpLwait, qIssue_of h he rfl hg, onToken_open (window := launchWindow) hin ht hopen]
  case lwaitOut =>
    intro key w s p h hg he hout
    rw [exec_qpLwait, execQpLwait, qIssue_of h he rfl hg, onToken_out (window := launchWindow) hout]
  case lrep =>
    intro key t w s p h hg he halign hin ht hended
    obtain ⟨st, hst⟩ := Option.ne_none_iff_exists'.mp hended
    rw [exec_qpLrep, execQpLrep, qIssue_of h he rfl hg]
    dsimp only
    rw [if_neg (Decidable.not_not.mpr halign), onToken_ended (window := launchWindow) hin ht hst]
  case lrepUnaligned =>
    intro key w s p h hg he hodd
    rw [exec_qpLrep, execQpLrep, qIssue_of h he rfl hg]
    exact congrArg _ (if_pos hodd)

end Sys2Proof.Machine
end

section
/-! Semaphores, sleep and posts of a queue program (09, R197, R199, R200). -/

namespace Sys2Proof.Machine

/-- A queue of a tenant after an update of it. -/
theorem que_updQue_same {s : State} {slot : Nat} {t : Tenant} (ht : s.ten slot = some t) (q : Nat) (f : Queue → Queue) :
    (s.updQue slot q f).que slot q = f (s.que slot q) := by
  simp [State.que, State.updQue, State.ten_updTen_same, ht, mgetD, mget_mput_same]

/-- Waking a program leaves every queue as it is. -/
theorem que_wake (key causes slot q : Nat) (s : State) : (wake key causes s).que slot q = s.que slot q := rfl

/-- A signal adds to one semaphore of the queue (R199). -/
theorem sems_queueSignal {s : State} {slot : Nat} {t : Tenant} (ht : s.ten slot = some t) (q n : Nat) (d : Word) :
    ((queueSignal slot q n d s).que slot q).sems =
      mputD (s.que slot q).sems 0 n (mgetD (s.que slot q).sems 0 n + d.signExtend 64) := by
  unfold queueSignal
  split
  · rw [que_updQue_same ht]
  · rw [que_wake, que_updQue_same ht]

/-- The first wait for a held-store slot is counted (R197). -/
theorem waitSlot_of {s : State} {key : Nat} {p : QProg} (hp : s.prog key = some p) (hfirst : p.slotWait = false) :
    waitSlot key p s = (s.setProg key { p with slotWait := true }).twBump p.slot Reg.TW_Q_HELD_WAIT := by
  rw [waitSlot, hfirst, if_neg Bool.false_ne_true, updProg_eq _ hp]

/-- The causes that a sleeping program has met (R200). -/
def Park.causes (k : Park) (s : State) : Nat := k.met ||| (if k.wakeAt.any (fun t => decide (t ≤ s.tb)) then 8 else 0)

/-- PARK_WAKE of a sleeping program (R200). -/
theorem exec_parkWake_of {s : State} {key : Nat} {p : QProg} {k : Park} (hp : s.prog key = some p) (hk : p.parked = some k) :
    exec (.parkWake key) s = .next (if k.causes s = 0 then s else
      qSet key (fun r => r.setS k.dest (BitVec.ofNat 64 (k.causes s))) (s.setProg key { p with parked := none })) := by
  rw [exec_parkWake, execParkWake]
  simp only [hp, hk]
  rfl

theorem Park.causes_eq_zero {k : Park} {s : State} (hmet : k.met = 0) (hearly : ∀ t, k.wakeAt = some t → s.tb < t) :
    k.causes s = 0 := by
  have hany : k.wakeAt.any (fun t => decide (t ≤ s.tb)) = false := by
    cases hw : k.wakeAt with
    | none => rfl
    | some t => exact decide_eq_false (Nat.not_le.mpr (hearly t hw))
  simp [Park.causes, hmet, hany]

/-- Settles O21: an instruction that passes its checks changes the program or a queue, or waits; a sleeping program wakes by its causes
met. -/
theorem queueProgramWaitsAndPosts : Obligations.QueueProgramWaitsAndPosts := by
  unfold Obligations.QueueProgramWaitsAndPosts
  refine ⟨?signal, ?semaphore, ?swait, ?swaitWaits, ?fence, ?fenceWaits, ?park, ?parkFault, ?wake, ?asleep, ?time, ?kvres, ?post,
    ?postWaits⟩
  case signal =>
    intro key w s p h hg he hstep hq
    rw [exec_qpSignal, execQpSignal, qIssue_of h he rfl hg]
    dsimp only
    rw [if_neg (by simp [hstep, hq])]
  case semaphore =>
    intro slot q n d s t ht _
    rw [sems_queueSignal ht]
    refine ⟨?_, fun m hm => ?_⟩
    · rw [mgetD_mputD, if_pos rfl, ite_eq_right_iff.mpr Eq.symm]
    · rw [mgetD_mputD, if_neg hm]
  case swait =>
    intro key w s p h hg he hstep hsem hf
    rw [exec_qpSwait, execQpSwait, qIssue_of h he rfl hg, if_neg (Option.not_isSome_iff_eq_none.mpr hstep), if_pos hsem, qNext_of h.1 hf]
  case swaitWaits =>
    intro key w s p h hg he hstep hsem
    rw [exec_qpSwait, execQpSwait, qIssue_of h he rfl hg, if_neg (Option.not_isSome_iff_eq_none.mpr hstep), if_neg (Nat.not_le.mpr hsem)]
  case fence =>
    intro key w s p h hg he hidle hf
    rw [exec_qpFence, execQpFence, qIssue_of h he rfl hg, if_pos hidle, qNext_of h.1 hf]
  case fenceWaits =>
    intro key w s p h hg he hidle
    rw [exec_qpFence, execQpFence, qIssue_of h he rfl hg, if_neg (Bool.eq_false_iff.mp hidle)]
  case park =>
    intro key w s p h hg he hstep hwake htime
    have hok : ¬ (p.step.isSome = true ∨ wMod (wordOf 0xEB w) = 0 ∨
        ((wMod (wordOf 0xEB w)).testBit 3 = true ∧ (p.regs.sr (wA (wordOf 0xEB w))).toNat = 0)) := by
      rintro (hs | h0 | ⟨hbit, h0⟩)
      · exact Option.not_isSome_iff_eq_none.mpr hstep hs
      · exact hwake h0
      · rcases htime with hclear | hpos
        · exact Bool.noConfusion (hbit.symm.trans hclear)
        · exact Nat.ne_of_gt hpos h0
    rw [exec_qpPark, execQpPark, qIssue_of h he rfl hg]
    dsimp only
    rw [if_neg hok, updProg_eq _ h.1]
  case parkFault =>
    intro key w s p h hg he hbad
    rw [exec_qpPark, execQpPark, qIssue_of h he rfl hg]
    exact congrArg _ (if_pos (Or.inr hbad))
  case wake =>
    intro key m s p k hp hk hm hmet hf
    have hcauses : k.causes s = m := hm.symm
    rw [exec_parkWake_of hp hk, hcauses, if_neg hmet, qSet_of (p := { p with parked := none }) (prog_setProg_same _ _ _) hf,
      setProg_setProg]
  case asleep =>
    intro key s p k hp hk hmet hearly
    rw [exec_parkWake_of hp hk, if_pos (Park.causes_eq_zero hmet hearly)]
  case time =>
    intro key w s p h hg he hf
    rw [exec_qpTime, execQpTime, qIssue_of h he rfl hg, qSet_of h.1 hf]
  case kvres =>
    intro key id t w s p h hg he hstep ht hf
    rw [exec_qpKvres, execQpKvres, qIssue_of h he rfl hg]
    simp only [hstep, Option.bind_some, ht]
    rw [qSet_of h.1 hf]
  case post =>
    intro key w s p h hg he hstep hfree
    rw [exec_qpPost, execQpPost, qIssue_of h he rfl hg, if_neg (Option.not_isSome_iff_eq_none.mpr hstep), if_neg (Nat.ne_of_gt hfree)]
  case postWaits =>
    intro key w s p h hg he hstep hfull hfirst
    rw [exec_qpPost, execQpPost, qIssue_of h he rfl hg, if_neg (Option.not_isSome_iff_eq_none.mpr hstep), if_pos hfull,
      waitSlot_of h.1 hfirst]

end Sys2Proof.Machine
end

section
/-! Commands and launches that a queue program issues (09, R197, R199, R203, R204, Tables QUE-7 and QUE-8). -/

namespace Sys2Proof.Machine

/-! ### What a program's read leaves alone -/

/-- A window register after a write of another, in any slot. -/
theorem twRd_twPut_ne (s : State) (slot v k : Nat) {a b : Nat} (h : b ≠ a) : (s.twPut slot a v).twRd k b = s.twRd k b := by
  unfold State.twRd State.twPut
  by_cases hk : k = slot
  · subst hk
    rw [State.ten_updTen_same]
    cases s.ten k with
    | none => rfl
    | some t => simp only [Option.map_some, mgetD_mputD, if_neg h]
  · rw [State.ten_updTen_ne _ _ hk]

/-- A window register after an update of a tenant that leaves its window alone. -/
theorem twRd_updTen {f : Tenant → Tenant} (hf : ∀ t, (f t).regs = t.regs) (s : State) (slot k b : Nat) :
    (s.updTen slot f).twRd k b = s.twRd k b := by
  unfold State.twRd
  by_cases hk : k = slot
  · subst hk
    rw [State.ten_updTen_same]
    cases s.ten k with
    | none => rfl
    | some t => simp only [Option.map_some, hf]
  · rw [State.ten_updTen_ne _ _ hk]

theorem twRd_updObj (s : State) (slot idx k b : Nat) (f : Obj → Obj) : (s.updObj slot idx f).twRd k b = s.twRd k b :=
  twRd_updTen (f := fun t => { t with objs := mupd t.objs idx f }) (fun _ => rfl) s slot k b

theorem twRd_reserve (slot n k b : Nat) (s : State) : (reserve slot n s).twRd k b = s.twRd k b :=
  twRd_updTen (f := fun t => { t with heldResv := t.heldResv + n }) (fun _ => rfl) s slot k b

/-- The counters of a window to which a read is charged (15, Table HIF-10; 20, Table NRG-1). -/
def ReadCounter (a : Nat) : Prop := a = Reg.TW_HIF_RD_BYTES ∨ ∃ i, a = Reg.TW_NRG_ACT i

/-- What the charge of a read to any of its counters leaves alone, the charge does. -/
theorem chargeAccess_keeps {α : Type} {g : State → α}
    (hcount : ∀ s slot a m, ReadCounter a → g (s.twBump slot a m) = g s) (slot : Nat) (p : Page) (m : Nat) (s : State) :
    g (chargeAccess slot p m false s) = g s := by
  have hact : ∀ s i m, g (charge slot i m s) = g s := fun s i m => hcount s slot _ m (.inr ⟨i, rfl⟩)
  unfold chargeAccess
  split
  · exact hact ..
  · split
    · exact hact ..
    · split
      · exact (hact ..).trans (hcount s slot _ _ (.inl rfl))
      · rfl

/-- What an update of an object and the charge of a read leave alone, a program's read does. -/
theorem useRead_keeps {α : Type} {g : State → α} (hobj : ∀ s slot idx f, g (s.updObj slot idx f) = g s)
    (hcount : ∀ s slot a m, ReadCounter a → g (s.twBump slot a m) = g s) (slot : Nat) (n : Named) (off len : Nat) (s : State) :
    g (useRead slot n off len s) = g s := by
  unfold useRead
  generalize pagesOf n.obj off len = pages
  induction pages generalizing s with
  | nil => rfl
  | cons i pages ih => rw [List.foldl_cons, ih, chargeAccess_keeps hcount, hobj]

theorem clustersUp_reserve (slot n : Nat) (s : State) : clustersUp (reserve slot n s) = clustersUp s := rfl

theorem clustersUp_setProg (s : State) (key : Nat) (p : QProg) : clustersUp (s.setProg key p) = clustersUp s := rfl

theorem clustersUp_useRead (slot : Nat) (n : Named) (off len : Nat) (s : State) :
    clustersUp (useRead slot n off len s) = clustersUp s :=
  useRead_keeps (g := clustersUp) (fun _ _ _ _ => rfl) (fun _ _ _ _ _ => rfl) slot n off len s

/-- Exhaustion is what the period, the budget and the throttle of the tenant's window say (20, R429). -/
theorem exhausted_congr {s t : State} {slot : Nat} (h : ∀ b, ¬ ReadCounter b → t.twRd slot b = s.twRd slot b) :
    exhausted t slot = exhausted s slot := by
  have hlow : ∀ b, 0x40000 ≤ b → b < 0x40040 → ¬ ReadCounter b := by
    rintro b hge hlt (rfl | ⟨i, rfl⟩)
    · exact absurd hge (by decide)
    · exact absurd hlt (Nat.not_lt.mpr (Nat.le_add_right _ _))
  unfold exhausted
  rw [h Reg.TW_NRG_K (hlow _ (by decide) (by decide)), h Reg.TW_NRG_PERIOD_UJ (hlow _ (by decide) (by decide)),
    h Reg.TW_NRG_BUDGET_J (hlow _ (by decide) (by decide))]

/-- A read charges no energy to the period and no budget, so it exhausts no tenant. -/
theorem exhausted_useRead (slot k : Nat) (n : Named) (off len : Nat) (s : State) :
    exhausted (useRead slot n off len s) k = exhausted s k :=
  exhausted_congr fun b hb => useRead_keeps (g := fun s => s.twRd k b) (fun s slot idx f => twRd_updObj s slot idx k b f)
    (fun s slot _ _ ha => twRd_twPut_ne s slot _ k (fun h => hb (h ▸ ha))) slot n off len s

theorem exhausted_reserve (slot n k : Nat) (s : State) : exhausted (reserve slot n s) k = exhausted s k :=
  exhausted_congr fun b _ => twRd_reserve slot n k b s

theorem exhausted_setProg (s : State) (key k : Nat) (p : QProg) : exhausted (s.setProg key p) k = exhausted s k := rfl

theorem prog_reserve (slot n key : Nat) (s : State) : (reserve slot n s).prog key = s.prog key := rfl

/-! ### Issuing -/

/-- The program with one more launch issued, whose token goes to a register (R199). -/
def QProg.withLaunch (p : QProg) (d : Nat) : QProg :=
  { p with launches := addTok p.launches (p.launchNext % 65536) launchWindow, launchNext := p.launchNext + 1,
           regs := p.regs.setS d (BitVec.ofNat 64 (p.launchNext % 65536)) }

/-- A program takes a launch's token and goes on. -/
theorem qNext_launchToken {s : State} {key w : Nat} {p : QProg} (hp : s.prog key = some p) (hf : QFollows p (p.pc + 1)) :
    qNext key (launchToken key w p s) = s.setProg key ((p.withLaunch (wD w)).onward (p.withLaunch (wD w)).regs) := by
  have htoken : launchToken key w p s = s.setProg key (p.withLaunch (wD w)) := updProg_eq _ hp
  rw [htoken, qNext_of (p := p.withLaunch (wD w)) (prog_setProg_same _ _ _) hf, setProg_setProg]

/-- A launch whose handle passes its checks and names a program waits for clusters under the next number (R145). -/
theorem issueLaunch_of {l : Launch} {n : Named} {code : List DWord} {s : State}
    (hn : (checkHandle s l.slot l.handle false 0 0 0xFFFF 0xFFFF).toOption = some n) (hcode : codeOf n.obj = some code) :
    issueLaunch l s = { s with nextLaunch := s.nextLaunch + 1 }.setLch s.nextLaunch { l with code := code, spanId := s.nextLaunch } := by
  unfold issueLaunch
  simp only [ok_of_toOption hn, hcode]

/-- A launch record without a span (Table QUE-8). -/
theorem spanOf_zero (s : State) (slot : Nat) : spanOf s slot (BitVec.ofNat 64 0) = .ok (some []) := if_pos rfl

/-- Settles O22: an instruction that passes its checks reads its record or its step, takes a token and has the effect of the command
or issues the launch; with its window full it waits. -/
theorem queueProgramLaunches : Obligations.QueueProgramLaunches := by
  unfold Obligations.QueueProgramLaunches
  refine ⟨?cmd, ?cmdWaits, ?launch, ?launchWaits, ?issue, ?launchs⟩
  case cmd =>
    intro key n w s p h hg he hstep halign hroom hn hpoison hpromote hfence hfree hheader
    have hp : s.prog key = some p := h.1
    have hopen : ¬ cmdWindow ≤ openToks p.cmds := Nat.not_le.mpr hroom
    have hread : (useRead p.slot n (p.regs.sr (wB (wordOf 0xD8 w))).toNat 64 s).prog key = some p := (useRead_prog ..).trans hp
    refine ⟨_, rfl, ?_⟩
    rw [exec_qpCmd, execQpCmd, qIssue_of h he rfl hg]
    dsimp only
    rw [if_neg (by simp [hstep, halign]), if_neg hopen, qRead_of hp hn hpoison hpromote]
    rw [hfence, Bool.not_true, if_neg Bool.false_ne_true, if_neg (Nat.ne_of_gt hfree), hheader, if_neg Bool.false_ne_true,
      updProg_eq _ hread]
    rfl
  case cmdWaits =>
    intro key w s p h hg he hstep halign hfull
    rw [exec_qpCmd, execQpCmd, qIssue_of h he rfl hg]
    dsimp only
    rw [if_neg (by simp [hstep, halign]), if_pos (show cmdWindow ≤ openToks p.cmds from hfull)]
  case launch =>
    intro key n w s p h hg he hstep halign hroom hn hpoison hpromote hrecord hspan hfree henergy hclusters hf
    have hp : s.prog key = some p := h.1
    have hopen : ¬ launchWindow ≤ openToks p.launches := Nat.not_le.mpr hroom
    have hread : (useRead p.slot n (p.regs.sr (wB (wordOf 0xE0 w))).toNat 192 s).prog key = some p := (useRead_prog ..).trans hp
    rw [exec_qpLaunch, execQpLaunch, qIssue_of h he rfl hg]
    dsimp only
    rw [if_neg (by simp [hstep, halign]), if_neg hopen, qRead_of hp hn hpoison hpromote]
    rw [hrecord, Bool.not_true, if_neg Bool.false_ne_true, if_neg (Nat.not_lt.mpr hfree), hspan, spanOf_zero]
    dsimp only
    rw [qNext_launchToken ((prog_reserve ..).trans hread) hf, exhausted_setProg, exhausted_reserve, exhausted_useRead, henergy]
    rw [clustersUp_setProg, clustersUp_reserve, clustersUp_useRead]
    exact congrArg _ ((if_neg (Nat.not_lt.mpr hclusters)).trans (if_neg Bool.false_ne_true))
  case launchWaits =>
    intro key w s p h hg he hstep halign hfull
    rw [exec_qpLaunch, execQpLaunch, qIssue_of h he rfl hg]
    dsimp only
    rw [if_neg (by simp [hstep, halign]), if_pos (show launchWindow ≤ openToks p.launches from hfull)]
  case issue =>
    exact fun l n code s hn hcode => issueLaunch_of hn hcode
  case launchs =>
    intro key id t m w s p h hg he hslots hstep ht hm hfirst hgroup hnone hf
    refine ⟨_, _, rfl, rfl, ?_⟩
    rw [exec_qpLaunchs, execQpLaunchs, qIssue_of h he (decide_eq_true hslots) hg]
    have hfound : p.step.bind (fun id => (s.step? id).map (fun t => (id, t))) = some (id, t) := by
      rw [hstep, Option.bind_some, ht, Option.map_some]
    simp only [hfound, hm]
    rw [if_neg (by simp [hnone]; omega), qNext_launchToken h.1 hf]
    rfl

end Sys2Proof.Machine
end

section
/-! Queue registers, doorbells and timers, and the starts and stops of queue programs (09, R189, R190, R195, R197, R201, R202). -/

namespace Sys2Proof.Machine

/-! ### Registers of a queue -/

section
variable {f q : Nat} {win : Option Nat} {s : State} {body : Nat → Queue → State → State}

/-- A write through a function whose window reaches a tenant with the queue has its effect on the queue. -/
theorem onQueue_of {slot : Nat} {t : Tenant} {k : Queue} (hf : f < 32) (hwin : windowSlot s f win = some slot)
    (ht : s.ten slot = some t) (hk : mget t.queues q = some k) : onQueue f win q body s = .next (body slot k s) := by
  rw [onQueue, onWindow, onUnit_next (decide_eq_true hf), hwin]
  simp only [ht, Option.bind_some, hk]

theorem onQueue_unreached (hf : f < 32) (hwin : windowSlot s f win = none) : onQueue f win q body s = .next s := by
  rw [onQueue, onWindow, onUnit_next (decide_eq_true hf), hwin]

theorem onQueue_absent {slot : Nat} {t : Tenant} (hf : f < 32) (hwin : windowSlot s f win = some slot) (ht : s.ten slot = some t)
    (hk : mget t.queues q = none) : onQueue f win q body s = .next s := by
  rw [onQueue, onWindow, onUnit_next (decide_eq_true hf), hwin]
  simp only [ht, Option.bind_some, hk]

/-- The four registers of a queue do nothing where a write reaches no queue. -/
theorem queueWrites_idle (value : Word) (h : ∀ body, onQueue f win q body s = .next s) :
    exec (.twDbProdWrite f win q value) s = .next s ∧ exec (.twCqHeadWrite f win q value) s = .next s ∧
      exec (.twQsigWrite f win q value) s = .next s ∧ exec (.twQCommit f win q value) s = .next s :=
  ⟨(exec_twDbProdWrite ..).trans (h _), (exec_twCqHeadWrite ..).trans (h _), (exec_twQsigWrite ..).trans (h _),
    (exec_twQCommit ..).trans (h _)⟩

end

/-- The tenant's slots and a slot's queues that the hardware has. -/
theorem queueUnit {slot q : Nat} (hslot : slot < 1024) (hq : q < 16) : (decide (slot < 1024) && decide (q < 16)) = true := by
  simp [hslot, hq]

/-! ### QPROG_RUN and QPROG_STOP -/

/-- A ring command of the queue programs that can start has its effect on the fetched state. -/
theorem exec_qprogRun_of {slot q : Nat} {r : CmdRec} {s : State} (h : CanStart s slot q r) :
    exec (.qprogRun slot q r) s =
      .next (commitDue slot q (bodyQprogRun (fetched 0x20 slot q r s).1 r (fetched 0x20 slot q r s).2)) := by
  rw [exec_qprogRun, execQprogRun, onUnit_next (queueUnit h.1 h.2.1), ringCmd_of h]

theorem exec_qprogStop_of {slot q : Nat} {r : CmdRec} {s : State} (h : CanStart s slot q r) :
    exec (.qprogStop slot q r) s =
      .next (commitDue slot q (bodyQprogStop (fetched 0x21 slot q r s).1 r (fetched 0x21 slot q r s).2)) := by
  rw [exec_qprogStop, execQprogStop, onUnit_next (queueUnit h.1 h.2.1), ringCmd_of h]

section
variable {id : Nat} {r : CmdRec} {s : State} {x : Flight}

/-- QPROG_RUN where a program runs is refused (R201). -/
theorem bodyQprogRun_running {n : Named} {p : QProg}
    (hn : (checkHandle s (slotOfFlight s id) r.w08 false 0 0 0xFFFF 0xFFFF).toOption = some n) (hx : s.flight id = some x)
    (hp : s.prog (progKey x.slot x.queue) = some p) : bodyQprogRun id r s = finish id ⟨0x24, 0x0A, 0⟩ 0 s := by
  rw [bodyQprogRun, withObj_of_named hn]
  simp only [hx, hp, Option.isSome_some, if_true]

/-- The program that a QPROG_RUN starts: its operands in Q1 to Q6 and the queue number in Q7 (R201). -/
def startedProg (id : Nat) (r : CmdRec) (x : Flight) (code : List DWord) (s : State) : QProg :=
  { slot := x.slot, queue := x.queue, engine := (s.que x.slot x.queue).engine, obj := r.w08, code := code,
    regs := ⟨([(1, r.w10), (2, r.w18), (3, r.w20), (4, r.w28), (5, r.w30), (6, r.w38), (7, BitVec.ofNat 64 x.queue)] :
      List (Nat × BitVec 64)).filter (fun a => a.2 != 0), [], []⟩, flight := id }

/-- QPROG_RUN of an object that holds code, where no program runs and energy is left, starts the program (R201). -/
theorem bodyQprogRun_starts {n : Named} {code : List DWord}
    (hn : (checkHandle s (slotOfFlight s id) r.w08 false 0 0 0xFFFF 0xFFFF).toOption = some n) (hx : s.flight id = some x)
    (hp : s.prog (progKey x.slot x.queue) = none) (hcode : codeOf n.obj = some code) (henergy : exhausted s x.slot = none) :
    bodyQprogRun id r s =
      qGoTo (progKey x.slot x.queue) 0 (s.setProg (progKey x.slot x.queue) (startedProg id r x code s)) := by
  rw [bodyQprogRun, withObj_of_named hn]
  simp only [hx, hp, hcode, henergy, Option.isSome_none, Bool.false_eq_true, if_false]
  rfl

/-- QPROG_STOP completes, then ends a program that sleeps or is stopped, and asks another to stop (R201). -/
theorem bodyQprogStop_of {p : QProg} (hx : s.flight id = some x)
    (hp : (finish id ⟨0, 0, 0⟩ 0 s).prog (progKey x.slot x.queue) = some p) :
    bodyQprogStop id r s = if p.parked.isSome || p.stopped then
        quitProg (progKey x.slot x.queue) ⟨0x34, 0, 0⟩ 0 (finish id ⟨0, 0, 0⟩ 0 s)
      else (finish id ⟨0, 0, 0⟩ 0 s).setProg (progKey x.slot x.queue)
        { p with stopReq := some (finish id ⟨0, 0, 0⟩ 0 s).tb, stopEnd := true } := by
  unfold bodyQprogStop
  simp only [hx, hp]

end

/-- Settles O31: a register write by the queue that its window reaches, a timer by whether its time has come, and a start or stop by
the program that its queue runs. -/
theorem queueRegistersAndTimers : Obligations.QueueRegistersAndTimers := by
  unfold Obligations.QueueRegistersAndTimers
  refine ⟨?prod, ?prodBad, ?head, ?headBad, ?qsig, ?semaphore, ?commit, ?commitWaits, ?commitNothing, ?unreached, ?absent, ?raise,
    ?raiseNothing, ?heldFreed, ?run, ?runRefused, ?stop, ?fenceTimeout, ?fenceEarly⟩
  case prod =>
    intro f win q value s slot t k hf hwin ht hk hin
    rw [exec_twDbProdWrite, execTwDbProdWrite, onQueue_of hf hwin ht hk, if_neg (Nat.not_lt.mpr hin)]
  case prodBad =>
    intro f win q value s slot t k hf hwin ht hk hout
    rw [exec_twDbProdWrite, execTwDbProdWrite, onQueue_of hf hwin ht hk, if_pos hout]
  case head =>
    intro f win q value s slot t k hf hwin ht hk hin
    rw [exec_twCqHeadWrite, execTwCqHeadWrite, onQueue_of hf hwin ht hk, if_neg (Nat.not_lt.mpr hin)]
  case headBad =>
    intro f win q value s slot t k hf hwin ht hk hout
    rw [exec_twCqHeadWrite, execTwCqHeadWrite, onQueue_of hf hwin ht hk, if_pos hout]
  case qsig =>
    intro f win q value s slot t k hf hwin ht hk
    rw [exec_twQsigWrite, execTwQsigWrite, onQueue_of hf hwin ht hk]
  case semaphore =>
    exact fun slot q sem d s => rfl
  case commit =>
    rintro f win q value s slot t k _ hf hwin ht hk rfl hbit hok hst hnow
    rw [exec_twQCommit, execTwQCommit, onQueue_of hf hwin ht hk]
    dsimp only
    rw [if_neg (by simp [hbit, hok, hst]), if_neg (by rintro ⟨ha, hne⟩; exact hnow.elim (· ha) hne)]
  case commitWaits =>
    rintro f win q value s slot t k _ hf hwin ht hk rfl hbit hok hactive hring
    rw [exec_twQCommit, execTwQCommit, onQueue_of hf hwin ht hk]
    dsimp only
    rw [if_neg (by simp [hbit, hok, hactive]), if_pos ⟨hactive, hring⟩]
  case commitNothing =>
    intro f win q value s slot t k hf hwin ht hk hbad
    rw [exec_twQCommit, execTwQCommit, onQueue_of hf hwin ht hk]
    refine congrArg _ (if_pos ?_)
    rcases hbad with h | h | h <;> simp only [h, Bool.not_false, Bool.true_or, Bool.or_true, beq_self_eq_true]
  case unreached =>
    exact fun f win q value s hf hwin => queueWrites_idle value fun _ => onQueue_unreached hf hwin
  case absent =>
    exact fun f win q value s slot t hf hwin ht hk => queueWrites_idle value fun _ => onQueue_absent hf hwin ht hk
  case raise =>
    intro slot q s hslot hq hdue hover
    rw [exec_vectorModerationExpire, execVectorModerationExpire, onUnit_next (queueUnit hslot hq)]
    exact congrArg _ (if_pos ⟨hdue, hover⟩)
  case raiseNothing =>
    intro slot q s hslot hq hnot
    rw [exec_vectorModerationExpire, execVectorModerationExpire, onUnit_next (queueUnit hslot hq)]
    refine congrArg _ (if_neg ?_)
    rintro ⟨hdue, hover⟩
    exact hnot.elim (fun h => Bool.noConfusion (hdue.symm.trans h)) (Nat.not_lt.mpr hover)
  case heldFreed =>
    intro slot q s t hslot hq ht hfree
    rw [exec_heldSlotFreed, execHeldSlotFreed, onUnit_next (queueUnit hslot hq)]
    simp only [ht]
    rw [if_neg hfree]
  case run =>
    intro slot q r s n x code hstart hn hx hp hcode henergy
    rw [exec_qprogRun_of hstart, bodyQprogRun_starts hn hx hp hcode henergy]
    rfl
  case runRefused =>
    intro slot q r s n x p hstart hn hx hp
    rw [exec_qprogRun_of hstart, bodyQprogRun_running hn hx hp]
  case stop =>
    intro slot q r s x p hstart hx hp
    rw [exec_qprogStop_of hstart, bodyQprogStop_of hx hp]
  case fenceTimeout =>
    intro key s p t hp hreq hdue
    rw [exec_qprogFenceTimeout, execQprogFenceTimeout, hp, Option.bind_some, hreq]
    exact congrArg _ (if_pos hdue)
  case fenceEarly =>
    intro key s p hp hearly
    rw [exec_qprogFenceTimeout, execQprogFenceTimeout, hp, Option.bind_some]
    cases hreq : p.stopReq with
    | none => rfl
    | some t => exact congrArg _ (if_neg (Nat.not_le.mpr (hearly t hreq)))

end Sys2Proof.Machine
end

section
/-! The event commands of a ring (10, Tables EVF-3 to EVF-9, R218, R224 to R226): what each body does once its checks pass. -/

namespace Sys2Proof.Machine

/-- A ring command that can start, of a slot and a queue that the hardware has, has its effect on the fetched state. -/
theorem onUnit_ringCmd_of {op slot q : Nat} {r : CmdRec} {body : Nat → CmdRec → State → State} {s : State}
    (h : CanStart s slot q r) : onUnit (decide (slot < 1024) && decide (q < 16)) (ringCmd op slot q r body s) =
      .next (commitDue slot q (body (fetched op slot q r s).1 r (fetched op slot q r s).2)) := by
  rw [onUnit_next (queueUnit h.1 h.2.1), ringCmd_of h]

section
variable {id : Nat} {r : CmdRec} {s : State}

/-- EV_CORE_LOAD of an own core, with its key blocks in the range, holds the core and promotes both objects (R225). -/
theorem bodyCoreLoad_begins {w p : Named}
    (hw : (checkHandle s (slotOfFlight s id) r.w08 false 0 131072 0xFFFF 0xFFFF).toOption = some w)
    (hp : (checkHandle s (slotOfFlight s id) r.w10 false 0 2048 0xFFFF 0xFFFF).toOption = some p)
    (hown : (s.core (bits r.w18.toNat 0 9)).slot = some (slotOfFlight s id))
    (haxon : ownsKeys s (slotOfFlight s id) (512 * bits r.w18.toNat 32 11) 512 = true)
    (hout : ownsKeys s (slotOfFlight s id) (256 * bits r.w20.toNat 0 12) 256 = true) :
    bodyCoreLoad id r s = accessReady id (promoteFor id p.slot p.idx (mustPromote p.obj 0 2048 false)
      (promoteFor id w.slot w.idx (mustPromote w.obj 0 131072 false)
        ((s.updCore (bits r.w18.toNat 0 9) (fun x => { x with loading := some id })).updFlight id (fun f => { f with
          args := [w.slot, w.idx, p.slot, p.idx, bits r.w18.toNat 0 9, bits r.w18.toNat 32 11, bits r.w20.toNat 0 12] })))) := by
  rw [bodyCoreLoad, withObj_of_named hw, withObj_of_named hp, if_neg (not_not_intro hown), if_neg (by simp [haxon, hout])]

/-- EV_CORE_CLEAR of an own core (R226). -/
theorem bodyCoreClear_own (hown : (s.core (bits r.w18.toNat 0 9)).slot = some (slotOfFlight s id)) :
    bodyCoreClear id r s = finish id ⟨0, 0, 0⟩ 0 (s.updCore (bits r.w18.toNat 0 9)
      (fun x => { x with neurons := mmap x.neurons (fun _ n => { n with v := 0, rEnd := 0 }) })) :=
  if_neg (not_not_intro hown)

/-- EV_CORE_READ of an own core into an object without leases takes the snapshot at once (R225). -/
theorem bodyCoreRead_takes {n : Named}
    (hn : (checkHandle s (slotOfFlight s id) r.w08 true 0 4096 0xFFFF 0xFFFF).toOption = some n)
    (hown : (s.core (bits r.w18.toNat 0 9)).slot = some (slotOfFlight s id))
    (hlease : leaseBlock n.obj (pagesOf n.obj 0 4096) = none) :
    bodyCoreRead id r s = accessReady id (promoteFor id n.slot n.idx (mustPromote n.obj 0 4096 true)
      (s.updFlight id (fun f => { f with
        args := [n.slot, n.idx], data := some (coreImage (s.core (bits r.w18.toNat 0 9))) }))) := by
  rw [bodyCoreRead, withObj_of_named hn, if_neg (not_not_intro hown), hlease]

/-- EV_ROUTE of no entries needs no object (R218). -/
theorem bodyRoute_empty (hn : bits r.w18.toNat 0 15 = 0) :
    bodyRoute id r s = routeWrite ⟨slotOfFlight s id, some id, []⟩ s := by
  rw [bodyRoute, if_neg (by omega), if_pos hn]

/-- EV_ROUTE of 1 to 16,384 entries promotes its object (R218). -/
theorem bodyRoute_entries {o : Named} (hn : 1 ≤ bits r.w18.toNat 0 15 ∧ bits r.w18.toNat 0 15 ≤ 16384)
    (ho : (checkHandle s (slotOfFlight s id) r.w08 false 0 (16 * bits r.w18.toNat 0 15) 0xFFFF 0xFFFF).toOption = some o) :
    bodyRoute id r s = accessReady id (promoteFor id o.slot o.idx (mustPromote o.obj 0 (16 * bits r.w18.toNat 0 15) false)
      (s.updFlight id (fun f => { f with args := [o.slot, o.idx, bits r.w18.toNat 0 15] }))) := by
  rw [bodyRoute, if_neg (by omega), if_neg (by omega), withObj_of_named ho]

/-- EV_INJECT of 1 to 65,536 words by a tenant with energy left reads them (R209). -/
theorem bodyInject_reads (hn : 1 ≤ bits r.w18.toNat 0 17 ∧ bits r.w18.toNat 0 17 ≤ 65536)
    (henergy : exhausted s (slotOfFlight s id) = none) :
    bodyInject id r s = hostRead (slotOfFlight s id) r.w10.toNat (4 * bits r.w18.toNat 0 17) (.inject id) s := by
  rw [bodyInject, if_neg (by omega), henergy]

/-- EV_RING of 2^4 to 2^16 entries sets the ring and starts its indices again at 0 (R216). -/
theorem bodyEvRing_sets (hlog : 4 ≤ bits r.w20.toNat 0 5 ∧ bits r.w20.toNat 0 5 ≤ 16) :
    bodyEvRing id r s = finish id ⟨0, 0, 0⟩ 0 (((s.updTen (slotOfFlight s id) (fun t => { t with
      evRing := some { base := r.w10.toNat, wb := r.w18.toNat, log := bits r.w20.toNat 0 5, vec := bits r.w20.toNat 8 6 }
      })).twPut (slotOfFlight s id) Reg.TW_EV_HEAD 0).twPut (slotOfFlight s id) Reg.TW_EV_TAIL 0) :=
  if_neg (by omega)

/-- EV_TELEM with ENABLE 0 ends a source (R224). -/
theorem bodyTelem_ends (hsrc : bits r.w18.toNat 0 8 < 7) (hoff : r.w18.getLsbD 8 = false) :
    bodyTelem id r s = finish id ⟨0, 0, 0⟩ 0
      { s with fab := { s.fab with telem := mdel s.fab.telem (8 * slotOfFlight s id + bits r.w18.toNat 0 8) } } := by
  rw [bodyTelem, if_neg (by omega), if_pos (by rw [hoff]; rfl)]

/-- EV_TELEM with an own key and a period of 10 µs to 1 s starts a source, a power or temperature source without a base
(R224, log entry 62). -/
theorem bodyTelem_starts (hsrc : bits r.w18.toNat 0 8 < 7) (hon : r.w18.getLsbD 8 = true)
    (hkey : ownsKeys s (slotOfFlight s id) (bits r.w18.toNat 32 20) 1 = true)
    (hperiod : 10 ≤ r.w20.toNat ∧ r.w20.toNat ≤ 1000000) :
    bodyTelem id r s = finish id ⟨0, 0, 0⟩ 0 { s with fab := { s.fab with
      telem := mput s.fab.telem (8 * slotOfFlight s id + bits r.w18.toNat 0 8) ⟨bits r.w18.toNat 32 20, r.w20.toNat,
        if bits r.w18.toNat 0 8 = 4 ∨ bits r.w18.toNat 0 8 = 5 then none
        else some (telemValue s (slotOfFlight s id) (bits r.w18.toNat 0 8) 0), s.tb⟩ } } := by
  rw [bodyTelem, if_neg (by omega), if_neg (by simp [hon]), if_neg (by simp [hkey]; omega)]

end

/-- Settles O28: each command is the body of its ring command on the fetched state, and the body passes its checks. -/
theorem eventRingCommands : Obligations.EventRingCommands := by
  unfold Obligations.EventRingCommands
  refine ⟨?load, ?clear, ?read, ?routeEmpty, ?route, ?commit, ?inject, ?ring, ?telemEnd, ?telemStart⟩
  case load =>
    intro slot q r s w p hstart hw hp hown haxon hout
    rw [exec_evCoreLoad, execEvCoreLoad, onUnit_ringCmd_of hstart, bodyCoreLoad_begins hw hp hown haxon hout]
  case clear =>
    intro slot q r s hstart hown
    rw [exec_evCoreClear, execEvCoreClear, onUnit_ringCmd_of hstart, bodyCoreClear_own hown]
  case read =>
    intro slot q r s n hstart hn hown hlease
    rw [exec_evCoreRead, execEvCoreRead, onUnit_ringCmd_of hstart, bodyCoreRead_takes hn hown hlease]
  case routeEmpty =>
    intro slot q r s hstart hn
    rw [exec_evRoute, execEvRoute, onUnit_ringCmd_of hstart, bodyRoute_empty hn]
  case route =>
    intro slot q r s o hstart hn ho
    rw [exec_evRoute, execEvRoute, onUnit_ringCmd_of hstart, bodyRoute_entries hn ho]
  case commit =>
    intro slot q r s hstart
    rw [exec_evCommit, execEvCommit, onUnit_ringCmd_of hstart, bodyEvCommit]
  case inject =>
    intro slot q r s hstart hn henergy
    rw [exec_evInject, execEvInject, onUnit_ringCmd_of hstart, bodyInject_reads hn henergy]
  case ring =>
    intro slot q r s hstart hlog
    rw [exec_evRing, execEvRing, onUnit_ringCmd_of hstart, bodyEvRing_sets hlog]
  case telemEnd =>
    intro slot q r s hstart hsrc hoff
    rw [exec_evTelem, execEvTelem, onUnit_ringCmd_of hstart, bodyTelem_ends hsrc hoff]
  case telemStart =>
    intro slot q r s hstart hsrc hon hkey hperiod
    rw [exec_evTelem, execEvTelem, onUnit_ringCmd_of hstart, bodyTelem_starts hsrc hon hkey hperiod]

end Sys2Proof.Machine
end

section
/-! The route banks (10, Table EVF-6, R218): the flip, the drain and the resynchronisation. -/

namespace Sys2Proof.Machine

/-- A trace record leaves the fabric as it is. -/
@[simp] theorem State.traceRec_fab (s : State) (id source unit : Nat) (args : List Nat) :
    (s.traceRec id source unit args).fab = s.fab := by
  unfold State.traceRec
  split <;> rfl

theorem evStaged_eq_false {s : State} (h : 2 ≤ s.evOther) : s.evStaged = false := decide_eq_false (Nat.not_lt.mpr h)

/-- The commands that the next flip serves (R218). -/
def servedCommits (s : State) : List Nat := s.fab.commits.filter (fun f => commitReady s f)

/-- The epoch register and the flip count at a flip (R218, Table EVF-11): E takes the other bank, which was STAGED, and the
former ACTIVE bank is DRAINING. -/
def epochFlipped (s : State) : State := (s.putN Reg.EVF_EPOCH (1 - s.evE + 4)).bump32 Reg.EVF_FLIPS

theorem evE_le_one (s : State) : s.evE ≤ 1 := Nat.lt_succ_iff.mp (bits_lt _ _ _)

theorem evE_epochFlipped (s : State) : (epochFlipped s).evE = 1 - s.evE := by
  have hreg : (epochFlipped s).rdN Reg.EVF_EPOCH = 1 - s.evE + 4 := by
    have hne : Reg.EVF_EPOCH ≠ Reg.EVF_FLIPS := by decide
    rw [epochFlipped, State.bump32, State.rdN_putN, if_neg hne, State.rdN_putN, if_pos rfl, Nat.mod_eq_of_lt (by omega)]
  rw [State.evE, State.fld, hreg, bits]
  omega

/-- A flip that is requested by a waiting command or a register write, with the other bank STAGED (R218). -/
theorem bankFlip_of {s : State} (hstaged : s.evOther < 2) (hreq : servedCommits s ≠ [] ∨ s.fab.flip = true) :
    bankFlip s = (servedCommits s).foldl
      (fun v f => finish f ⟨0, 0, 0⟩ (((epochFlipped s).traceRec 0x09 9 0xFFFF [1 - s.evE]).rdN Reg.EVF_FLIPS) v)
      { (epochFlipped s).traceRec 0x09 9 0xFFFF [1 - s.evE] with
        fab := { ((epochFlipped s).traceRec 0x09 9 0xFFFF [1 - s.evE]).fab with
          commits := s.fab.commits.filter (fun f => !(servedCommits s).contains f), flip := false } } := by
  have hguard : ¬ ((!s.evStaged || ((servedCommits s).isEmpty && !s.fab.flip)) = true) := by
    have hst : s.evStaged = true := decide_eq_true hstaged
    rcases hreq with h | h <;> simp [hst, h]
  rw [← evE_epochFlipped s]
  refine (if_neg hguard).trans ?_
  simp only [State.traceRec_fab]
  rfl

/-- Without a request, or with the other bank not STAGED, there is no flip (R218). -/
theorem bankFlip_idle {s : State} (h : 2 ≤ s.evOther ∨ (servedCommits s = [] ∧ s.fab.flip = false)) : bankFlip s = s := by
  refine if_pos ?_
  rcases h with h | ⟨hnone, hflip⟩
  · rw [evStaged_eq_false h]
    rfl
  · rw [hflip, show s.fab.commits.filter (fun f => commitReady s f) = [] from hnone]
    exact Bool.or_true _

/-- Settles O29: each of a bank's steps acts in the bank state that it is for, and in no other. -/
theorem eventBanks : Obligations.EventBanks := by
  unfold Obligations.EventBanks
  refine ⟨?write, ?flip, ?flipIdle, ?drained, ?drainedIdle, ?resync, ?resyncIdle⟩
  case write =>
    exact fun w s => exec_evfCommit w s
  case flip =>
    exact fun s hstaged hreq => ⟨_, rfl, (exec_eventBankFlip s).trans (congrArg _ (bankFlip_of hstaged hreq))⟩
  case flipIdle =>
    exact fun s hidle => (exec_eventBankFlip s).trans (congrArg _ (bankFlip_idle hidle))
  case drained =>
    exact fun s hst hzero => (exec_eventBankDrained s).trans (congrArg _ (if_pos ⟨hst, hzero⟩))
  case drainedIdle =>
    exact fun s hnot => (exec_eventBankDrained s).trans (congrArg _ (if_neg fun h => hnot.elim (· h.1) (· h.2)))
  case resync =>
    exact fun s hst => (exec_eventBankResyncDone s).trans (congrArg _ (if_neg (not_not_intro hst)))
  case resyncIdle =>
    exact fun s hst => (exec_eventBankResyncDone s).trans (congrArg _ (if_pos hst))

end Sys2Proof.Machine
end

section
/-! Events on the move (10, R209 to R224): hops, neuron inputs, batches, spill and replay, telemetry and ring vectors. -/

namespace Sys2Proof.Machine

/-! ### Hops (R209, R213, R226) -/

section
variable {s : State} {e : Ev}

/-- A word at the head of a cluster's port is injected through the tenant of its launch (R209). -/
theorem hop_cluster {k : Nat} {c : Cluster} {l : Launch} {w : Word} {ws : List Word} (hc : s.clu k = some c)
    (hport : c.port = w :: ws) (hl : s.lch c.launch = some l) :
    hop (.cluster k) s = (inject l.slot w none (s.updClu k (fun c => { c with port := ws }))).2 := by
  simp only [hop, hc, hport, hl]

theorem hop_ingress (he : s.evHead .ingress = some e) : hop .ingress s = routeAt 512 e (s.evPop .ingress) := by
  simp only [hop, he]

theorem hop_routerIn {r : Nat} (he : s.evHead (.routerIn r) = some e) :
    hop (.routerIn r) s = routeAt r e (s.evPop (.routerIn r)) := by
  simp only [hop, he]

theorem hop_coreOut {c : Nat} (he : s.evHead (.coreOut c) = some e) :
    hop (.coreOut c) s = routeAt c e (s.evPop (.coreOut c)) := by
  simp only [hop, he]

/-- A core that is awake, takes no load and has room takes the event its router delivers (R213, R226). -/
theorem hop_toCore {r : Nat} (he : s.evHead (.routerOut r 4) = some e) (hload : (s.core r).loading = none)
    (hroom : s.evCount (.coreIn r) < 32) (hawake : (s.core r).asleep = false) :
    hop (.routerOut r 4) s = ((s.evPop (.routerOut r 4)).evPut (.coreIn r) e).updCore r
      (fun x => { x with asleep := false, lastIn := s.tb }) := by
  simp only [hop, he, hload, hawake, Option.isSome_none, Bool.false_eq_true, if_false, if_neg (Nat.not_le.mpr hroom)]
  rfl

end

/-! ### Neuron inputs (R210 to R212) -/

/-- A core just changed reads the change. -/
theorem core_updCore_same (s : State) (k : Nat) (f : ECore → ECore) : (s.updCore k f).core k = f (s.core k) := by
  rw [State.updCore, State.setCore, State.core, mgetD_mputD, if_pos rfl]
  split
  · rename_i h
    exact h.symm
  · rfl

/-- The neurons of a core after an input event that does `xs` to them. -/
def neuronsAfter (xs : List (Nat × NOut)) (m : Map Neuron) : Map Neuron := xs.foldl (fun m x => mput m x.1 x.2.neuron) m

theorem mget_neuronsAfter_of_not_mem {xs : List (Nat × NOut)} {n : Nat} (h : n ∉ xs.map (·.1)) (m : Map Neuron) :
    mget (neuronsAfter xs m) n = mget m n := by
  induction xs generalizing m with
  | nil => rfl
  | cons y ys ih =>
    rw [List.map_cons, List.mem_cons, not_or] at h
    exact (ih h.2 _).trans (mget_mput_ne m _ h.1)

/-- Each neuron is changed once, and reads its change. -/
theorem mget_neuronsAfter_of_mem {xs : List (Nat × NOut)} (hnd : (xs.map (·.1)).Nodup) {n : Nat} {x : NOut}
    (hx : (n, x) ∈ xs) (m : Map Neuron) : mget (neuronsAfter xs m) n = some x.neuron := by
  induction xs generalizing m with
  | nil => exact absurd hx List.not_mem_nil
  | cons y ys ih =>
    rw [List.map_cons, List.nodup_cons] at hnd
    rcases List.mem_cons.mp hx with rfl | hx
    · exact (mget_neuronsAfter_of_not_mem hnd.1 _).trans (mget_mput_same m n x.neuron)
    · exact ih hnd.2 hx _

theorem coreIn_nodup (c : ECore) (a t : Nat) (x : Int) : ((coreIn c a t x).map (·.1)).Nodup := by
  have hnums : (coreIn c a t x).map (·.1) = (List.range 256).filter (fun n => (c.param n).en) :=
    List.map_map.trans (List.map_id _)
  rw [hnums]
  exact List.Pairwise.filter _ List.nodup_range

/-- The counts and charges of an input event that does `xs` to a core's neurons (R209, R211, Table EVF-12). -/
def countInput (slot : Nat) (xs : List (Nat × NOut)) (s : State) : State :=
  let s := (s.bump Reg.EVF_CORE_EVENTS).bumpBy Reg.EVF_SYN_UPDATES xs.length
  let s := charge slot 5 xs.length (s.twBump slot Reg.TW_EV_SYN xs.length)
  let s := s.bumpBy Reg.EVF_SAT (xs.filter (fun x => x.2.sat)).length
  s.twBump slot Reg.TW_EV_REFRAC (xs.filter (fun x => x.2.refrac)).length

/-- A core's input event taken: off its queue, in the neurons, and counted. Its emissions follow. -/
def inputTaken (k slot : Nat) (xs : List (Nat × NOut)) (s : State) : State :=
  countInput slot xs ((s.evPop (.coreIn k)).updCore k (fun c => { c with neurons := neuronsAfter xs c.neurons }))

theorem queued_inputTaken (k slot : Nat) (xs : List (Nat × NOut)) (s : State) :
    (inputTaken k slot xs s).fab.queued = (s.evPop (.coreIn k)).fab.queued := rfl

theorem neurons_inputTaken (k slot : Nat) (xs : List (Nat × NOut)) (s : State) :
    ((inputTaken k slot xs s).core k).neurons = neuronsAfter xs (s.core k).neurons :=
  congrArg ECore.neurons (core_updCore_same (s.evPop (.coreIn k)) k (fun c => { c with neurons := neuronsAfter xs c.neurons }))

section
variable {k slot : Nat} {e : Ev} {s : State} (he : s.evHead (.coreIn k) = some e)
include he

theorem neuronEvent_unowned (hslot : (s.core k).slot = none) :
    neuronEvent k s = (s.evPop (.coreIn k)).bump Reg.EVF_AXON_MISS := by
  simp only [neuronEvent, he, hslot]

theorem neuronEvent_marker (hslot : (s.core k).slot = some slot) (hmark : evMark e.word = true) :
    neuronEvent k s = (s.evPop (.coreIn k)).bump Reg.EVF_MARKER_IN := by
  simp only [neuronEvent, he, hslot, hmark, if_true]

theorem neuronEvent_miss (hslot : (s.core k).slot = some slot) (hmark : evMark e.word = false)
    (hmiss : (s.core k).axonBlk ≠ some (evKey e.word / 512) ∨ ownsKeys s slot (evKey e.word) 1 = false) :
    neuronEvent k s = (s.evPop (.coreIn k)).bump Reg.EVF_AXON_MISS := by
  simp only [neuronEvent, he, hslot, hmark, Bool.false_eq_true, if_false]
  exact if_pos (hmiss.imp_right (fun h => by rw [h]; rfl))

/-- An event for the core's axons whose emissions its output queue can hold is taken, and then the emissions leave (R211). -/
theorem neuronEvent_taken {xs : List (Nat × NOut)} (hslot : (s.core k).slot = some slot) (hmark : evMark e.word = false)
    (hblk : (s.core k).axonBlk = some (evKey e.word / 512)) (hkey : ownsKeys s slot (evKey e.word) 1 = true)
    (hxs : xs = coreIn (s.core k) (evKey e.word % 512) (e.time s.tb e.since) (evPay e.word))
    (hroom : s.evCount (.coreOut k) + (xs.filter (fun x => x.2.pay.isSome)).length ≤ 256) :
    neuronEvent k s = emitSpikes k slot (s.core k).outBlk xs (inputTaken k slot xs s) := by
  have haxon : ¬ ((s.core k).axonBlk ≠ some (evKey e.word / 512) ∨ (!ownsKeys s slot (evKey e.word) 1) = true) := by
    simp [hblk, hkey]
  subst hxs
  simp only [neuronEvent, he, hslot, hmark, Bool.false_eq_true, if_false, if_neg haxon]
  exact if_neg fun h => absurd h.1 (Nat.not_lt.mpr hroom)

end

/-! ### Spills (R220) -/

/-- A core output whose head has waited 20 µs spills every event of its tenant there (R220). -/
theorem spillWait_coreOut {k : Nat} {e : Ev} {s : State} (he : s.evHead (.coreOut k) = some e) (hdue : e.since + 20 ≤ s.tb) :
    spillWait (.coreOut k) s = (s.fab.queued.filter (fun x => x.1 == .coreOut k && x.2.slot == e.slot)).foldl
      (fun s x => spillEv (.coreOut k) { x.2 with ts := some (BitVec.ofNat 32 (x.2.time s.tb x.2.since)) } s)
      { s with fab := { s.fab with queued := s.fab.queued.filter (fun x => !(x.1 == .coreOut k && x.2.slot == e.slot)) } } := by
  simp only [spillWait, he, if_neg (Nat.not_lt.mpr hdue)]

/-! ### Telemetry (R224, R229) -/

section
variable {slot src : Nat} {m : Int} {s : State} {x : Telem} {t : Tenant}
  (hx : mget s.fab.telem (8 * slot + src) = some x) (ht : s.ten slot = some t)
include hx ht

/-- A source does nothing before its period ends, or while its tenant is parked (R224, R229). -/
theorem telemTick_idle (h : t.st ≠ .active ∨ s.tb < x.since + x.period) : telemTick slot src m s = s := by
  simp only [telemTick, hx, ht, if_pos h]

/-- A delta source emits its change since its last event, clamped, and keeps the remainder (R224). -/
theorem telemTick_delta {v d : Int} (hdelta : 4 ≤ src) (hact : t.st = .active) (hdue : x.since + x.period ≤ s.tb)
    (hv : v = telemValue s slot src m) (hd : d = v - x.seen.getD v) :
    telemTick slot src m s = (inject slot (evWord x.key (max (-127) (min 127 d)) 0 false true) (some (BitVec.ofNat 32 s.tb))
      { s with fab := { s.fab with
        telem := mput s.fab.telem (8 * slot + src)
          { x with seen := some (v - d + max (-127) (min 127 d)), since := s.tb } } }).2 := by
  have hnow : ¬ (t.st ≠ .active ∨ s.tb < x.since + x.period) := by simp [hact]; omega
  have hdelta1 : ¬ src = 1 := by omega
  have hdelta3 : ¬ src ≤ 3 := by omega
  subst hv hd
  simp only [telemTick, hx, ht, if_neg hnow, if_neg hdelta1, hdelta3, false_and, if_false]

end

/-! ### Ring vectors (R216) -/

/-- The vector of a ring may be raised once 10 µs have passed since the last time (R216). -/
theorem ringVector_of {slot : Nat} {r : EvRing} {s : State} (h : ∀ x, r.lastVec = some x → x + 10 ≤ s.tb) :
    ringVector slot r s = some (raiseTen slot r.vec s) := by
  refine if_pos ?_
  cases hlast : r.lastVec with
  | none => rfl
  | some x => exact decide_eq_true (h x hlast)

section
variable {slot : Nat} {s : State} {t : Tenant} (ht : s.ten slot = some t) (hwin : t.winRing = none)
include ht hwin

theorem ringTick_no_ring (hring : t.evRing = none) : ringTick slot s = s := by
  simp only [ringTick, ht, hring, hwin]

theorem ringTick_raises {r : EvRing} (hring : t.evRing = some r) (hlive : r.live = true)
    (hfull : s.twRd slot Reg.TW_EV_TAIL ≠ s.twRd slot Reg.TW_EV_HEAD) (hlast : ∀ x, r.lastVec = some x → x + 10 ≤ s.tb) :
    ringTick slot s = (raiseTen slot r.vec s).updTen slot
      (fun t => { t with evRing := some { r with lastVec := some (raiseTen slot r.vec s).tb } }) := by
  simp only [ringTick, ht, hring, hwin, ringVector_of hlast]
  exact if_neg (by simp [hlive, hfull])

end

/-- Settles O30: a hop by the point that the event stands at, a neuron input by whose event it is, and a timer by whether its time
has come. -/
theorem eventMovement : Obligations.EventMovement := by
  unfold Obligations.EventMovement
  refine ⟨?cluster, ?routed, ?toCore, ?miss, ?marker, ?taken, ?sleep, ?batchLeaves, ?batchKnown, ?batchUnknown, ?spill, ?replay,
    ?replayFull, ?telemIdle, ?telemDelta, ?head, ?vectorNone, ?vector⟩
  case cluster =>
    intro k s c l w ws hc hport hl
    rw [exec_eventRouteHop, execEventRouteHop, hop_cluster hc hport hl]
  case routed =>
    rintro p e s he (rfl | ⟨r, rfl | rfl⟩) <;> rw [exec_eventRouteHop, execEventRouteHop]
    · rw [hop_ingress he]
    · rw [hop_routerIn he]
    · rw [hop_coreOut he]
  case toCore =>
    intro r e s he hload hroom hawake
    rw [exec_eventRouteHop, execEventRouteHop, hop_toCore he hload hroom hawake]
  case miss =>
    intro k slot e s hk he hmiss
    rw [exec_neuronInputEvent, execNeuronInputEvent, onUnit_next (decide_eq_true hk)]
    rcases hmiss with hnone | ⟨hslot, hmark, hmiss⟩
    · rw [neuronEvent_unowned he hnone]
    · rw [neuronEvent_miss he hslot hmark hmiss]
  case marker =>
    intro k slot e s hk he hslot hmark
    rw [exec_neuronInputEvent, execNeuronInputEvent, onUnit_next (decide_eq_true hk), neuronEvent_marker he hslot hmark]
  case taken =>
    intro k slot e s xs hk he hslot hmark hblk hkey hxs hroom
    refine ⟨_, (exec_neuronInputEvent k s).trans (onUnit_next (decide_eq_true hk)), inputTaken k slot xs s,
      neuronEvent_taken he hslot hmark hblk hkey hxs hroom, fun n x hx => ?_, queued_inputTaken k slot xs s⟩
    rw [neurons_inputTaken]
    exact mget_neuronsAfter_of_mem (hxs ▸ coreIn_nodup ..) hx _
  case sleep =>
    intro k s hk hempty hidle hawake
    rw [exec_neuronSleep, execNeuronSleep, onUnit_next (decide_eq_true hk), if_pos ⟨hempty, hidle, by rw [hawake]; rfl⟩]
  case batchLeaves =>
    intro node slot s b hslot hb hover
    rw [exec_evBatchTimeout, execEvBatchTimeout, onUnit_next (decide_eq_true hslot), hb]
    exact congrArg _ (if_pos hover)
  case batchKnown =>
    intro id slot ws s hslot
    rw [exec_evBatch, execEvBatch, evBatch, hslot]
  case batchUnknown =>
    intro id ws s hslot
    rw [exec_evBatch, execEvBatch, evBatch, hslot]
  case spill =>
    intro k e s he hdue
    rw [exec_spillWaitExpire, execSpillWaitExpire, spillWait_coreOut he hdue]
  case replay =>
    intro p slot s hslot hroom
    rw [exec_spillReplay, execSpillReplay, onUnit_next (decide_eq_true hslot), if_pos hroom]
  case replayFull =>
    intro p slot s hslot hfull
    rw [exec_spillReplay, execSpillReplay, onUnit_next (decide_eq_true hslot), if_neg (Bool.eq_false_iff.mp hfull)]
  case telemIdle =>
    intro slot src m s x t hslot hsrc hx ht hidle
    rw [exec_telemetryTick, execTelemetryTick, onUnit_next (by simp [hslot, hsrc]), telemTick_idle hx ht hidle]
  case telemDelta =>
    intro slot src m v d s x t hslot hsrc hdelta hx ht hact hdue hv hd
    rw [exec_telemetryTick, execTelemetryTick, onUnit_next (by simp [hslot, hsrc]), telemTick_delta hx ht hdelta hact hdue hv hd]
  case head =>
    intro f win value s slot hf hwin
    rw [exec_twEvHeadWrite, execTwEvHeadWrite, onWindow, onUnit_next (decide_eq_true hf), hwin]
  case vectorNone =>
    intro slot s t hslot ht hring hwin
    rw [exec_evRingVectorTick, execEvRingVectorTick, onUnit_next (decide_eq_true hslot), ringTick_no_ring ht hwin hring]
  case vector =>
    intro slot s t r hslot ht hring hwin hlive hfull hlast
    rw [exec_evRingVectorTick, execEvRingVectorTick, onUnit_next (decide_eq_true hslot),
      ringTick_raises ht hwin hring hlive hfull hlast]

end Sys2Proof.Machine
end

section
/-! Sensor ports (11, Tables ESP-1 to ESP-3, R231 to R243): who owns a port and its supply, the words of the wire, ESP_MAP and the
I3C lists, and the window groups. -/

namespace Sys2Proof.Machine

/-! ### Owner and supply (R231, R243) -/

section
variable {p v : Nat} {s : State}

theorem portOwner_unowned (h : s.rdN (Reg.ESP_OWNER p) = 0) : portOwner s p = none := if_pos h

theorem ownerWrite_held (h : s.rdN (Reg.ESP_OWNER p) = v) : ownerWrite p v s = s := if_pos h.symm

/-- A write of 0 clears an owned port, and keys of its tenant that nothing needs any more are given back (R231). -/
theorem ownerWrite_releases {b : Nat} (h : s.rdN (Reg.ESP_OWNER p) ≠ 0) (hb : portOwner s p = some b) :
    ownerWrite p 0 s =
      dropKeys b (portClear p ((notePst s (Reg.ESP_OWNER p) (s.rd (Reg.ESP_OWNER p))).putN (Reg.ESP_OWNER p) 0)) := by
  simp only [ownerWrite, if_neg h.symm, hb, if_true]

/-- A tenant with keys takes an unowned port (R231). -/
theorem ownerWrite_assigns {slot : Nat} (h : s.rdN (Reg.ESP_OWNER p) = 0) (hv : v ≠ 0) (hslot : s.slotOf v = some slot)
    (hkeys : keyLog s slot ≠ 0) :
    ownerWrite p v s = portClear p ((notePst s (Reg.ESP_OWNER p) (s.rd (Reg.ESP_OWNER p))).putN (Reg.ESP_OWNER p) v) := by
  simp only [ownerWrite, h, if_neg hv, hslot, if_pos hkeys, portOwner_unowned h]

theorem ownerWrite_refused (h : s.rdN (Reg.ESP_OWNER p) ≠ v) (hv : v ≠ 0) (hslot : s.slotOf v = none) :
    ownerWrite p v s = s.setBit (Reg.ESP_STATUS p) 3 true := by
  simp only [ownerWrite, if_neg h.symm, if_neg hv, hslot]

end

/-! ### Words of the wire (R233 to R235) -/

section
variable {p : Nat} {s : State}

theorem onWord_off (hp : p < 2) (hoff : s.bit (Reg.ESP_CTRL p) 1 = false) (body : State → State) : onWord p body s = .next s := by
  rw [onWord, onUnit_next (decide_eq_true hp), hoff]
  rfl

/-- An unlocked port counts a word that is not SYNC, discards it and starts its run of SYNC words again (R233). -/
theorem onWord_unlocked (hp : p < 2) (hon : s.bit (Reg.ESP_CTRL p) 1 = true)
    (hlock : portLocked (s.bump (Reg.ESP_WORDS p)) p = false) (body : State → State) :
    onWord p body s = .next ((s.bump (Reg.ESP_WORDS p)).updPort p (fun x => { x with syncRun := 0 })) := by
  simp only [onWord, onUnit_next (decide_eq_true hp), hon, hlock, Bool.not_true, Bool.false_eq_true, if_false]

/-- A locked port counts the word, and the word has its effect (R233). -/
theorem onWord_locked (hp : p < 2) (hon : s.bit (Reg.ESP_CTRL p) 1 = true)
    (hlock : portLocked (s.bump (Reg.ESP_WORDS p)) p = true) (body : State → State) :
    onWord p body s = .next (body (s.bump (Reg.ESP_WORDS p))) := by
  simp only [onWord, onUnit_next (decide_eq_true hp), hon, hlock, Bool.not_true, Bool.false_eq_true, if_false, if_true]

/-- What a STATUS word does to a locked port (R234). -/
def statusWord (p : Nat) (v : BitVec 30) (s : State) : State :=
  if v.getLsbD 29 then (s.putN (Reg.ESP_SENSOR_STATUS p) v.toNat).setBit (Reg.ESP_STATUS p) 4 true
  else s.putN (Reg.ESP_SENSOR_STATUS p) v.toNat

/-- The five words that are not SYNC differ only in their effect on a locked port. -/
theorem wordCommands_of {f : (State → State) → State} (h : ∀ body, onWord p body s = .next (f body)) (v : BitVec 30) :
    exec (.espIdleWord p) s = .next (f id) ∧
    exec (.espExtWord p) s = .next (f (fun s => s.bump (Reg.ESP_EXT_WORDS p))) ∧
    exec (.espPixelWord p v) s = .next (f (pixelWord p v.toNat)) ∧
    exec (.espTimeHighWord p v) s = .next (f (timeWord p v.toNat)) ∧
    exec (.espStatusWord p v) s = .next (f (statusWord p v)) :=
  ⟨h id, h (fun s => s.bump (Reg.ESP_EXT_WORDS p)), h (pixelWord p v.toNat), h (timeWord p v.toNat), h (statusWord p v)⟩

theorem syncWord_off (hoff : s.bit (Reg.ESP_CTRL p) 1 = false) (aligned : Bool) : syncWord p aligned s = s := by
  rw [syncWord, hoff]
  rfl

section
variable (hon : s.bit (Reg.ESP_CTRL p) 1 = true)
include hon

theorem syncWord_locked (hlock : portLocked (s.bump (Reg.ESP_WORDS p)) p = true) (aligned : Bool) :
    syncWord p aligned s =
      if aligned then s.bump (Reg.ESP_WORDS p) else loseLock p (s.bump (Reg.ESP_WORDS p)) := by
  simp only [syncWord, hon, hlock, Bool.not_true, Bool.false_eq_true, if_false, if_true]

variable (hlock : portLocked (s.bump (Reg.ESP_WORDS p)) p = false) (aligned : Bool)
include hlock

theorem syncWord_counts (hrun : ((s.bump (Reg.ESP_WORDS p)).port p).syncRun < 15) :
    syncWord p aligned s = (s.bump (Reg.ESP_WORDS p)).updPort p
      (fun x => { x with syncRun := ((s.bump (Reg.ESP_WORDS p)).port p).syncRun + 1 }) := by
  simp only [syncWord, hon, hlock, Bool.not_true, Bool.false_eq_true, if_false, if_pos (Nat.succ_lt_succ hrun)]

/-- The sixteenth SYNC word in a row locks the port; after an earlier lock a marker becomes due (R233, R237). -/
theorem syncWord_locks (hrun : 15 ≤ ((s.bump (Reg.ESP_WORDS p)).port p).syncRun) :
    syncWord p aligned s = putMarker p (((s.bump (Reg.ESP_WORDS p)).updPort p (fun x => { x with
      syncRun := 0, everLocked := true,
      above := if x.everLocked && x.above.isNone then some ((s.bump (Reg.ESP_WORDS p)).tb, 0) else x.above })).setBit
        (Reg.ESP_STATUS p) 2 true) := by
  simp only [syncWord, hon, hlock, Bool.not_true, Bool.false_eq_true, if_false, if_neg (Nat.not_lt.mpr (Nat.succ_le_succ hrun))]

end

end

section
variable {p w slot : Nat} {s u : State} {m : PixMap} (hu : u = putMarker p (s.bump (Reg.ESP_PIX p)))
  (hown : portOwner u p = some slot) (hmap : (u.port p).map = some m) (hroom : (u.port p).fifo.length < 65536)
  (hgap : (u.port p).settling = false)
include hu hown hmap hroom hgap

/-- A PIXEL word outside the region or of the wrong polarity is counted by the reason, and nothing more (R235). -/
theorem pixelWord_dropped {d : PixDrop} (hpix : mapPixel m w = .error d) :
    pixelWord p w s = u.bump (match d with | .roi => Reg.ESP_ROI_DROP p | .pol => Reg.ESP_POL_DROP p) := by
  subst hu
  cases d <;>
    simp only [pixelWord, hown, hmap, portDepth, if_neg (Nat.not_le.mpr hroom), hgap, Bool.false_eq_true, if_false, hpix]

theorem pixelWord_queued {key : Nat} {pay : Int} (hpix : mapPixel m w = .ok (key, pay)) :
    pixelWord p w s = u.updPort p (fun x => { x with fifo := x.fifo ++
      [{ word := evWord key pay 0 false true, ts := some (BitVec.ofNat 32 u.tb), slot := slot }] }) := by
  subst hu
  simp only [pixelWord, hown, hmap, portDepth, if_neg (Nat.not_le.mpr hroom), hgap, Bool.false_eq_true, if_false, hpix]

end

/-! ### ESP_MAP and the I3C lists (R236, R242) -/

section
variable {id : Nat} {r : CmdRec} {s : State}

/-- ESP_MAP of an own port, group and keys, in range, on a port with no mapping staged (R242). -/
theorem bodyEspMap_stages {m : PixMap}
    (hm : m = {
      sx := bits r.w18.toNat 4 4, sy := bits r.w18.toNat 8 4, pol := bits r.w18.toNat 12 2, group := bits r.w18.toNat 16 6
      base := bits r.w18.toNat 32 20, marker := bits r.w28.toNat 0 20, settle := bits r.w28.toNat 32 16
      x0 := bits r.w20.toNat 0 14, x1 := bits r.w20.toNat 16 14, y0 := bits r.w20.toNat 32 14, y1 := bits r.w20.toNat 48 14 })
    (hport : holdsPort s (slotOfFlight s id) (bits r.w18.toNat 0 1) = true)
    (hgroup : holdsGroup s (slotOfFlight s id) m.group = true)
    (hrange : m.x0 ≤ m.x1 ∧ m.y0 ≤ m.y1 ∧ m.sx ≤ 13 ∧ m.sy ≤ 13 ∧ m.settle ≤ 10000)
    (hkeys : ownsKeys s (slotOfFlight s id) m.base (m.top - m.base + 1) = true)
    (hmark : ownsKeys s (slotOfFlight s id) m.marker 1 = true)
    (hnone : (s.port (bits r.w18.toNat 0 1)).nextMap = none) :
    bodyEspMap id r s = s.updPort (bits r.w18.toNat 0 1) (fun x => { x with nextMap := some (id, s.tb, m) }) := by
  have hok : ¬ (m.x1 < m.x0 ∨ m.y1 < m.y0 ∨ 13 < m.sx ∨ 13 < m.sy ∨ 10000 < m.settle) := by omega
  subst hm
  simp only [bodyEspMap, hport, hgroup, hkeys, hmark, hnone, if_neg hok, Bool.not_true, Bool.or_self, Bool.false_eq_true, if_false]

/-- ESP_I3C of 1 to 64 entries for an own port promotes its list (R236). -/
theorem bodyEspI3c_reads {n : Named} (hlen : 1 ≤ bits r.w18.toNat 8 7 ∧ bits r.w18.toNat 8 7 ≤ 64)
    (hn : (checkHandle s (slotOfFlight s id) r.w08 false 0 (8 * bits r.w18.toNat 8 7) 0xFFFF 0xFFFF).toOption = some n)
    (hport : holdsPort s (slotOfFlight s id) (bits r.w18.toNat 0 1) = true) :
    bodyEspI3c id r s = accessReady id (promoteFor id n.slot n.idx (mustPromote n.obj 0 (8 * bits r.w18.toNat 8 7) false)
      (s.updFlight id (fun f => { f with
        args := [n.slot, n.idx, bits r.w18.toNat 0 1, bits r.w18.toNat 8 7, b2n (r.w18.getLsbD 1)] }))) := by
  rw [bodyEspI3c, if_neg (by omega), withObj_of_named hn, hport]
  rfl

end

section
variable {p : Nat} {s : State} {l : I3cList} (hrun : (s.port p).run = some l)
include hrun

theorem i3cNack_fails (hover : l.since + 1000 ≤ s.tb) :
    i3cNack p s = closeList p l ⟨0x44, 6, 1⟩ 0 (s.setFld (Reg.ESP_I3C_STATUS p) 1 6 l.idx) := by
  simp only [i3cNack, hrun, if_pos hover]

theorem i3cNack_retries (hearly : s.tb < l.since + 1000) : i3cNack p s = s.emit (.i3c p (l.entries[l.idx]?.getD 0)) := by
  simp only [i3cNack, hrun, if_neg (Nat.not_le.mpr hearly)]

end

/-- A list after the transfer that it stands at has ended with data `w` at time `now`: the bytes that a read gave are taken
(R236). -/
def afterTransfer (l : I3cList) (w : Word) (now : Nat) : I3cList :=
  { l with
    idx := l.idx + 1
    data := l.data ++ (if bits (l.entries[l.idx]?.getD 0).toNat 0 4 = 1 then
      (leBytes w.toNat (bits (l.entries[l.idx]?.getD 0).toNat 24 3)).map (·.toNat) else [])
    since := now }

section
variable {p : Nat} {w : Word} {s : State} {l m : I3cList} (hrun : (s.port p).run = some l) (hm : m = afterTransfer l w s.tb)
include hrun hm

theorem i3cDone_next (hmore : m.idx < m.entries.length) :
    i3cDone p w s = (s.updPort p (fun x => { x with run := some m })).emit (.i3c p (m.entries[m.idx]?.getD 0)) := by
  subst hm
  simp only [i3cDone, hrun]
  exact if_pos hmore

theorem i3cDone_last (hend : m.entries.length ≤ m.idx) :
    i3cDone p w s = closeList p m ⟨0, 0, 0⟩
      (if m.immediate && !m.data.isEmpty then (m.data.take 8).foldr (fun b n => b + 256 * n) 0 else m.epoch) s := by
  subst hm
  simp only [i3cDone, hrun]
  exact if_neg (Nat.not_lt.mpr hend)

end

section
variable {p : Nat} {s : State}

theorem exec_espSettleEnd_over {t : Nat} (hp : p < 2) (hend : (s.port p).settleEnd = some t) (hover : t ≤ s.tb) :
    exec (.espSettleEnd p) s = .next (s.updPort p (fun x => { x with settling := false, settleEnd := none })) := by
  simp only [exec_espSettleEnd, execEspSettleEnd, onUnit_next (decide_eq_true hp), hend, if_pos hover]

theorem exec_espSettleEnd_early (hp : p < 2) (h : ∀ t, (s.port p).settleEnd = some t → s.tb < t) :
    exec (.espSettleEnd p) s = .next s := by
  rw [exec_espSettleEnd, execEspSettleEnd, onUnit_next (decide_eq_true hp)]
  cases hend : (s.port p).settleEnd with
  | none => rfl
  | some t => exact congrArg _ (if_neg (Nat.not_le.mpr (h t hend)))

end

/-! ### Window groups (R238 to R241) -/

section
variable {id : Nat} {r : CmdRec} {s : State}

/-- WIN_CFG of a group nobody holds, in range and on free taps: the group is in the window that holds the moment (R239, log
entry 68). -/
theorem bodyWinCfg_enters {c : GroupCfg}
    (hc : c = ⟨bits r.w18.toNat 32 12, bits r.w18.toNat 48 13, bits r.w20.toNat 0 24, bits r.w20.toNat 32 24, bits r.w28.toNat 0 10⟩)
    (hfree : mget s.groups (bits r.w18.toNat 0 6) = none) (hset : r.w18.getLsbD 6 = false) (htaps : c.first + c.count ≤ 4096)
    (hrange : 10 ≤ c.period ∧ c.period ≤ 10000000 ∧ c.phase < c.period ∧ c.late ≤ min 1000 (c.period / 2))
    (huntaken : tapsTaken s (bits r.w18.toNat 0 6) c = false) :
    bodyWinCfg id r s = finish id ⟨0, 0, 0⟩ 0 { s with groups := mput s.groups (bits r.w18.toNat 0 6) {
      slot := slotOfFlight s id, cfg := c,
      cur := newBank c (lastBoundary c s.tb) (settlingFor s (slotOfFlight s id)) } } := by
  have hok : ¬ (c.period < 10 ∨ 10000000 < c.period ∨ c.period ≤ c.phase ∨ min 1000 (c.period / 2) < c.late) := by omega
  subst hc
  simp only [bodyWinCfg, hfree, hset, if_neg (Nat.not_lt.mpr htaps), if_neg hok, huntaken, Bool.false_eq_true, if_false]

/-- WIN_CFG with RELEASE of an own group stages the release (R239). -/
theorem bodyWinCfg_releases {x : Group} (hx : mget s.groups (bits r.w18.toNat 0 6) = some x) (hrel : r.w18.getLsbD 6 = true)
    (hown : x.slot = slotOfFlight s id) :
    bodyWinCfg id r s =
      finish id ⟨0, 0, 0⟩ 0 (s.updGroup (bits r.w18.toNat 0 6) (fun x => { x with next := some none })) := by
  simp only [bodyWinCfg, hx, hrel]
  exact if_neg (not_not_intro hown)

/-- WIN_RING of 2^6 to 2^16 entries sets the ring and starts its indices again at 0 (R241). -/
theorem bodyWinRing_sets (hlog : 6 ≤ bits r.w20.toNat 0 5 ∧ bits r.w20.toNat 0 5 ≤ 16) :
    bodyWinRing id r s = finish id ⟨0, 0, 0⟩ 0 (((s.updTen (slotOfFlight s id) (fun t => { t with
      winRing := some ({ base := r.w10.toNat, wb := r.w18.toNat, log := bits r.w20.toNat 0 5, vec := bits r.w20.toNat 8 6 } : EvRing)
      })).twPut (slotOfFlight s id) Reg.TW_WIN_HEAD 0).twPut (slotOfFlight s id) Reg.TW_WIN_TAIL 0) :=
  if_neg (by omega)

end

section
variable {g : Nat} {s : State} {x : Group} (hx : mget s.groups g = some x)
include hx

theorem groupBoundary_early (h : s.tb < x.cur.start + x.cur.len) : groupBoundary g s = s := by
  simp only [groupBoundary, hx, if_pos h]

theorem exec_windowFinalise_over {b : Bank} (hg : g < 64) (hb : x.closing = some b) (hover : b.start + b.len + b.cfg.late ≤ s.tb) :
    exec (.windowFinalise g) s = .next (finalise g s) := by
  simp only [exec_windowFinalise, execWindowFinalise, onUnit_next (decide_eq_true hg), hx, Option.bind_some, hb, if_pos hover]

theorem exec_windowFinalise_early (hg : g < 64) (h : ∀ b, x.closing = some b → s.tb < b.start + b.len + b.cfg.late) :
    exec (.windowFinalise g) s = .next s := by
  rw [exec_windowFinalise, execWindowFinalise, onUnit_next (decide_eq_true hg), hx, Option.bind_some]
  cases hb : x.closing with
  | none => rfl
  | some b => exact congrArg _ (if_neg (Nat.not_le.mpr (h b hb)))

end

/-- Settles O34: a wire word by whether the receiver is on and the port locked, a ring command by the body that passes its checks, a
timer by whether its time has come. -/
theorem sensorPortCommands : Obligations.SensorPortCommands := by
  unfold Obligations.SensorPortCommands
  refine ⟨?ownerHeld, ?ownerReleases, ?ownerAssigns, ?ownerRefused, ?trip, ?tripOff, ?presence, ?off, ?unlocked, ?locked, ?syncLocked,
    ?syncCounts, ?syncLocks, ?clockLoss, ?marker, ?pixel, ?map, ?i3c, ?winEnters, ?winReleases, ?winRing, ?nackFails, ?nackRetries,
    ?doneNext, ?doneLast, ?settleOver, ?settleEarly, ?ibi, ?hotJoin, ?boundary, ?boundaryEarly, ?finalised, ?finaliseEarly⟩
  case ownerHeld =>
    intro p v s hp hheld
    rw [exec_espOwnerWrite, execEspOwnerWrite, onUnit_next (decide_eq_true hp), ownerWrite_held hheld]
  case ownerReleases =>
    intro p b s hp hold hb
    exact (onUnit_next (decide_eq_true hp)).trans (congrArg _ (ownerWrite_releases hold hb))
  case ownerAssigns =>
    intro p slot v s hp hold hv hslot hkeys
    rw [exec_espOwnerWrite, execEspOwnerWrite, onUnit_next (decide_eq_true hp),
      ownerWrite_assigns hold (BitVec.toNat_ne.mp hv) hslot hkeys]
  case ownerRefused =>
    intro p v s hp hv hnew hslot
    rw [exec_espOwnerWrite, execEspOwnerWrite, onUnit_next (decide_eq_true hp),
      ownerWrite_refused hnew (BitVec.toNat_ne.mp hv) hslot]
  case trip =>
    intro p s hp hon
    rw [exec_espOvercurrentTrip, execEspOvercurrentTrip, onUnit_next (decide_eq_true hp), if_pos hon]
  case tripOff =>
    intro p s hp hoff
    rw [exec_espOvercurrentTrip, execEspOvercurrentTrip, onUnit_next (decide_eq_true hp), if_neg (Bool.eq_false_iff.mp hoff)]
  case presence =>
    intro p on s hp
    rw [exec_camPresenceChange, execCamPresenceChange, onUnit_next (decide_eq_true hp)]
  case off =>
    intro p v a s hp hoff
    refine ⟨?_, wordCommands_of (f := fun _ => s) (onWord_off hp hoff) v⟩
    rw [exec_espSyncWord, execEspSyncWord, onUnit_next (decide_eq_true hp), syncWord_off hoff]
  case unlocked =>
    rintro p v s u hp hon rfl hlock
    exact wordCommands_of (onWord_unlocked hp hon hlock) v
  case locked =>
    rintro p v s u hp hon rfl hlock
    exact wordCommands_of (onWord_locked hp hon hlock) v
  case syncLocked =>
    rintro p a s u hp hon rfl hlock
    rw [exec_espSyncWord, execEspSyncWord, onUnit_next (decide_eq_true hp), syncWord_locked hon hlock]
  case syncCounts =>
    rintro p a s u hp hon rfl hlock hrun
    rw [exec_espSyncWord, execEspSyncWord, onUnit_next (decide_eq_true hp), syncWord_counts hon hlock a hrun]
  case syncLocks =>
    rintro p a s u hp hon rfl hlock hrun
    rw [exec_espSyncWord, execEspSyncWord, onUnit_next (decide_eq_true hp), syncWord_locks hon hlock a hrun]
  case clockLoss =>
    intro p s hp
    rw [exec_espClockLoss, execEspClockLoss, onUnit_next (decide_eq_true hp)]
  case marker =>
    intro p s hp
    rw [exec_espOverrunMarker, execEspOverrunMarker, onUnit_next (decide_eq_true hp)]
  case pixel =>
    intro p w slot s u m hu hown hmap hroom hgap
    match hpix : mapPixel m w with
    | .error .roi => exact pixelWord_dropped hu hown hmap hroom hgap hpix
    | .error .pol => exact pixelWord_dropped hu hown hmap hroom hgap hpix
    | .ok (key, pay) => exact pixelWord_queued hu hown hmap hroom hgap hpix
  case map =>
    intro slot q r s m hstart hm hport hgroup hrange hkeys hmark hnone
    rw [exec_espMap, execEspMap, onUnit_ringCmd_of hstart, bodyEspMap_stages hm hport hgroup hrange hkeys hmark hnone]
  case i3c =>
    intro slot q r s n hstart hlen hn hport
    rw [exec_espI3c, execEspI3c, onUnit_ringCmd_of hstart, bodyEspI3c_reads hlen hn hport]
  case winEnters =>
    intro slot q r s c hstart hc hfree hset htaps hrange huntaken
    rw [exec_winCfg, execWinCfg, onUnit_ringCmd_of hstart, bodyWinCfg_enters hc hfree hset htaps hrange huntaken]
  case winReleases =>
    intro slot q r s x hstart hx hrel hown
    rw [exec_winCfg, execWinCfg, onUnit_ringCmd_of hstart, bodyWinCfg_releases hx hrel hown]
  case winRing =>
    intro slot q r s hstart hlog
    rw [exec_winRing, execWinRing, onUnit_ringCmd_of hstart, bodyWinRing_sets hlog]
  case nackFails =>
    intro p s l hp hrun hover
    rw [exec_i3cNackRetry, execI3cNackRetry, onUnit_next (decide_eq_true hp), i3cNack_fails hrun hover]
  case nackRetries =>
    intro p s l hp hrun hearly
    rw [exec_i3cNackRetry, execI3cNackRetry, onUnit_next (decide_eq_true hp), i3cNack_retries hrun hearly]
  case doneNext =>
    intro p w s l m hp hrun hm hmore
    rw [exec_i3cTransferDone, execI3cTransferDone, onUnit_next (decide_eq_true hp), i3cDone_next hrun hm hmore]
  case doneLast =>
    intro p w s l m hp hrun hm hend
    rw [exec_i3cTransferDone, execI3cTransferDone, onUnit_next (decide_eq_true hp), i3cDone_last hrun hm hend]
  case settleOver =>
    exact fun p t s hp hend hover => exec_espSettleEnd_over hp hend hover
  case settleEarly =>
    exact fun p s hp hearly => exec_espSettleEnd_early hp hearly
  case ibi =>
    intro p w s hp
    rw [exec_espIbi, execEspIbi, onUnit_next (decide_eq_true hp)]
  case hotJoin =>
    intro p s hp
    rw [exec_espHotJoin, execEspHotJoin, onUnit_next (decide_eq_true hp)]
  case boundary =>
    intro g s hg
    rw [exec_windowBoundary, execWindowBoundary, onUnit_next (decide_eq_true hg)]
  case boundaryEarly =>
    intro g s x hx hearly
    rw [exec_windowBoundary, execWindowBoundary, groupBoundary_early hx hearly, onUnit]
    simp only [decide_eq_true_eq]
  case finalised =>
    exact fun g s x b hg hx hb hover => exec_windowFinalise_over hx hg hb hover
  case finaliseEarly =>
    exact fun g s x hg hx hearly => exec_windowFinalise_early hx hg hearly

end Sys2Proof.Machine
end

section
/-! STALE, PING and PONG, and the pages that peers put into this sled and fetch from it (12, R258, R263). -/

namespace Sys2Proof.Machine

section
variable {src tag mv : Nat} {s : State}

/-! ### STALE (R258) -/

/-- A STALE that names a request of this sled to its sender ends it under the epoch that the request carried. -/
theorem staleIn_of_request {e : Nat} {u : State} {r : Req} (hu : u = (hear src s).updPeer src (fun p => { p with epoch := e }))
    (hr : u.lnk.reqs.find? (fun (r : Req) => r.tag == tag && r.dest == src) = some r) :
    staleIn src tag e s = abortReq r ⟨0x30, 7, r.epoch⟩ u := by
  subst hu
  simp only [staleIn, hr]

theorem staleIn_of_no_request {e : Nat} {u : State} (hu : u = (hear src s).updPeer src (fun p => { p with epoch := e }))
    (hr : u.lnk.reqs.find? (fun (r : Req) => r.tag == tag && r.dest == src) = none) : staleIn src tag e s = u := by
  subst hu
  simp only [staleIn, hr]

/-! ### PAGE_PUT (R263) -/

section
variable {hd : DWord} {page st : Nat} {crc : Word}

theorem pagePut_of_bad_length (h : st < 64 ∨ 65600 < st) :
    pagePut src tag mv hd page st crc s = sendMoveDone src tag (hTenant hd) mv badPage 0 0 (hear src s) := if_pos h

theorem pagePut_of_no_room (hlow : 64 ≤ st) (hhigh : st ≤ 65600) (hT1 : lendRoom (hear src s) 1 < round4K st)
    (hT2 : lendRoom (hear src s) 2 < round4K st) :
    pagePut src tag mv hd page st crc s = sendMoveDone src tag (hTenant hd) mv ⟨0x20, 7, 1⟩ 0 0 (hear src s) := by
  have hlength : ¬(st < 64 ∨ 65600 < st) := by omega
  simp only [pagePut, if_neg hlength, if_neg (Nat.not_le.mpr hT1), if_neg (Nat.not_le.mpr hT2)]

/-- T1 comes first: with room there the page is opened in it, in place of the sender's former copy. -/
theorem pagePut_of_room (hlow : 64 ≤ st) (hhigh : st ≤ 65600) (hT1 : round4K st ≤ lendRoom (hear src s) 1) :
    pagePut src tag mv hd page st crc s = { (hear src s) with lnk := { (hear src s).lnk with
      lent := (hear src s).lnk.lent.filter (fun (y : Xfer) => !(y.node == src && y.handle == hd && y.page == page)) ++
        [{ node := src, move := mv, handle := hd, page := page, stored := st, crc := crc, tag := tag, tier := 1,
           heard := (hear src s).tb }] } } := by
  have hlength : ¬(st < 64 ∨ 65600 < st) := by omega
  simp only [pagePut, if_neg hlength, if_pos hT1]

/-! ### PAGE_GET (R263) -/

theorem pageGet_of_not_held
    (h : (hear src s).lnk.lent.find? (fun (x : Xfer) => x.node == src && x.handle == hd && x.page == page && x.whole) = none) :
    pageGet src tag false mv hd page s = sendMoveDone src tag (hTenant hd) mv ⟨0x42, 0, 0xFFFF⟩ 0 0 (hear src s) := by
  simp only [pageGet, h, Bool.false_eq_true, if_false]

theorem pageGet_of_not_leased (h : leasedPage (hear src s) (bits hd.toNat 0 32) src page = none) :
    pageGet src tag true mv hd page s = sendMoveDone src tag 0 mv ⟨0x42, 0, 0xFFFF⟩ 0 0 (hear src s) := by
  simp only [pageGet, h, if_true]

theorem pageGet_of_held {x : Xfer}
    (h : (hear src s).lnk.lent.find? (fun (x : Xfer) => x.node == src && x.handle == hd && x.page == page && x.whole) = some x) :
    pageGet src tag false mv hd page s = sendMoveDone src tag (hTenant hd) mv ⟨0, 0, 0⟩ x.bytes.length (crcOf x.bytes).toNat
      (sendBulk (hTenant hd) tag src mv x.bytes (hear src s)) := by
  simp only [pageGet, h, Bool.false_eq_true, if_false]

end

/-! ### MOVE_DONE (R263) -/

section
variable {st crc : Word} {n : Nat} {u : State} {m : Move}

/-- The request that a MOVE_DONE answers is over, whatever it says. -/
def requestEnded (src tag : Nat) (s : State) : State :=
  { (hear src s) with lnk := { (hear src s).lnk with reqs := (hear src s).lnk.reqs.filter (fun (r : Req) => !(r.tag == tag && r.dest == src)) } }

theorem moveDone_of_unknown (hm : (requestEnded src tag s).move mv = none) :
    moveDone src tag mv st n crc s = requestEnded src tag s := by
  unfold requestEnded at hm
  simp only [moveDone, hm, requestEnded]

/-- An error ends a move from or to a peer with its status. -/
theorem moveDone_of_error (hm : (requestEnded src tag s).move mv = some m) (hpeer : m.dst = 4 ∨ m.src = 4)
    (herror : bits st.toNat 0 8 ≠ 0) :
    moveDone src tag mv st n crc s =
      failMove m ⟨bits st.toNat 0 8, bits st.toNat 8 8, bits st.toNat 16 16⟩ (requestEnded src tag s) := by
  have hfar : ¬((!(m.dst == 4 || m.src == 4)) = true) := by rcases hpeer with h | h <;> simp [h]
  unfold requestEnded at hm
  simp only [moveDone, hm, if_neg hfar, if_pos herror, requestEnded]

/-- DONE for a page that this sled sent commits its part. -/
theorem moveDone_of_sent (hm : (requestEnded src tag s).move mv = some m) (hdst : m.dst = 4) (hdone : bits st.toNat 0 8 = 0) :
    moveDone src tag mv st n crc s = peerPart m n (requestEnded src tag s) := by
  have hfar : ¬((!(m.dst == 4 || m.src == 4)) = true) := by simp [hdst]
  unfold requestEnded at hm
  simp only [moveDone, hm, if_neg hfar, if_neg (Decidable.not_not.mpr hdone), if_pos hdst, requestEnded]

end

/-! ### BULK_DATA of a page put here (R263) -/

section
variable {off : Nat} {d : List Byte} {x : Xfer}
  (hx : (hear src s).lnk.lent.find? (fun (x : Xfer) => x.node == src && x.move == mv && x.tag == tag && !x.whole) = some x)
include hx

theorem bulkData_of_partial (hpart : (x.put (hear src s).tb off d).complete = false) :
    bulkData src tag mv off d s = { (hear src s) with lnk := { (hear src s).lnk with
      lent := (hear src s).lnk.lent.filter (fun (z : Xfer) => z != x) ++ [x.put (hear src s).tb off d] } } := by
  simp only [bulkData, hx, hpart, Bool.not_false, if_true]

/-- The chunk that completes a page with the CRC-32 announced for it makes it whole. -/
theorem bulkData_of_sound (hall : (x.put (hear src s).tb off d).complete = true)
    (hcrc : crcOf (x.put (hear src s).tb off d).bytes = x.crc) :
    bulkData src tag mv off d s = sendMoveDone src tag (hTenant x.handle) mv ⟨0, 0, 0⟩ x.stored x.crc.toNat
      { (hear src s) with lnk := { (hear src s).lnk with
        lent := (hear src s).lnk.lent.filter (fun (z : Xfer) => z != x) ++ [{ x.put (hear src s).tb off d with whole := true }] } } := by
  have hsame : crcOf (x.put (hear src s).tb off d).bytes = (x.put (hear src s).tb off d).crc := hcrc
  simp only [bulkData, hx, hall, Bool.not_true, Bool.false_eq_true, if_false, if_pos hsame]
  rfl

theorem bulkData_of_corrupt (hall : (x.put (hear src s).tb off d).complete = true)
    (hcrc : crcOf (x.put (hear src s).tb off d).bytes ≠ x.crc) :
    bulkData src tag mv off d s = sendMoveDone src tag (hTenant x.handle) mv badPage 0 0
      { (hear src s) with lnk := { (hear src s).lnk with lent := (hear src s).lnk.lent.filter (fun (z : Xfer) => z != x) } } := by
  have hdiff : crcOf (x.put (hear src s).tb off d).bytes ≠ (x.put (hear src s).tb off d).crc := hcrc
  simp only [bulkData, hx, hall, Bool.not_true, Bool.false_eq_true, if_false, if_neg hdiff]
  rfl

end
end

/-- Settles O53, each message by the lemma of the case it is in. -/
theorem peerTierMessages : Obligations.PeerTierMessages := by
  unfold Obligations.PeerTierMessages
  refine ⟨?stale, ?staleUnasked, ?ping, ?pong, ?putLength, ?putNoRoom, ?put, ?getMissing, ?getUnleased, ?get, ?doneUnknown,
    ?doneError, ?doneSent, ?release, ?bulkPart, ?bulkWhole, ?bulkBad, ?stall⟩
  case stale =>
    intro src tag e s u r hu hr
    rw [exec_stale, execStale, staleIn_of_request hu hr]
  case staleUnasked =>
    intro src tag e s u hu hr
    rw [exec_stale, execStale, staleIn_of_no_request hu hr]
  case ping => exact fun src tag t s => rfl
  case pong => exact fun src tag t s => rfl
  case putLength =>
    intro src tag mv hd page st crc s h
    exact ⟨badPage, rfl, by rw [exec_pagePut, execPagePut, pagePut_of_bad_length h]⟩
  case putNoRoom =>
    intro src tag mv hd page st crc s hlow hhigh hT1 hT2
    rw [exec_pagePut, execPagePut, pagePut_of_no_room hlow hhigh hT1 hT2]
  case put =>
    intro src tag mv hd page st crc s hlow hhigh hT1
    exact ⟨_, by rw [exec_pagePut, execPagePut, pagePut_of_room hlow hhigh hT1], rfl, rfl, rfl, rfl, rfl, rfl⟩
  case getMissing =>
    intro src tag mv hd page s h
    rw [exec_pageGet, execPageGet, pageGet_of_not_held h]
  case getUnleased =>
    intro src tag mv hd page s h
    rw [exec_pageGet, execPageGet, pageGet_of_not_leased h]
  case get =>
    intro src tag mv hd page s x h
    rw [exec_pageGet, execPageGet, pageGet_of_held h]
  case doneUnknown =>
    rintro src tag mv st n crc s _ rfl hm
    rw [exec_moveDone, execMoveDone, moveDone_of_unknown hm, requestEnded]
  case doneError =>
    rintro src tag mv st n crc s _ m rfl hm hpeer herror
    rw [exec_moveDone, execMoveDone, moveDone_of_error hm hpeer herror, requestEnded]
  case doneSent =>
    rintro src tag mv st n crc s _ m rfl hm hdst hdone
    rw [exec_moveDone, execMoveDone, moveDone_of_sent hm hdst hdone, requestEnded]
  case release => exact fun src mv hd a n s => rfl
  case bulkPart =>
    intro src tag mv off d s x hx hpart
    rw [exec_bulkData, execBulkData, bulkData_of_partial hx hpart]
  case bulkWhole =>
    intro src tag mv off d s x hx hall hcrc
    rw [exec_bulkData, execBulkData, bulkData_of_sound hx hall hcrc]
  case bulkBad =>
    intro src tag mv off d s x hx hall hcrc
    exact ⟨badPage, rfl, by rw [exec_bulkData, execBulkData, bulkData_of_corrupt hx hall hcrc]⟩
  case stall => exact fun src mv s => rfl

end Sys2Proof.Machine
end

section
/-! The link ports and the route banks (12, R246 to R262, Tables LNK-1 to LNK-4): the retry state, credits, waits, HELLO, the
width, the port states, flits as they arrive, and the flip of routes. -/

namespace Sys2Proof.Machine

/-! ### Fields of a register after a write to another of its fields, or to another register -/

/-- A field below the one just set is unchanged. -/
theorem State.fld_setFld_below (s : State) (a v : Nat) {lo len lo2 len2 : Nat} (h : lo2 + len2 ≤ lo) (h64 : lo2 + len2 ≤ 64) :
    (s.setFld a lo len v).fld a lo2 len2 = s.fld a lo2 len2 := by
  rw [State.fld, State.setFld, State.rdN_putN, if_pos rfl, bits_mod_two_pow _ h64, bits_setBits_below _ _ _ _ _ _ h, State.fld]

theorem State.fld_setBit_ne (s : State) {a b : Nat} (h : b ≠ a) (i lo len : Nat) (v : Bool) :
    (s.setBit a i v).fld b lo len = s.fld b lo len := by
  rw [State.fld, State.setBit, State.setFld, State.rdN_putN, if_neg h, State.fld]

theorem State.fld_bump_ne (s : State) {a b : Nat} (h : b ≠ a) (lo len : Nat) : (s.bump a).fld b lo len = s.fld b lo len := by
  rw [State.fld, State.rdN, State.rd_bump, if_neg h, State.fld, State.rdN]

/-! ### A command on a port -/

section
variable {p : Nat} {s : State}

/-- A command acts on a fitted port in a state that it belongs to. -/
theorem onPort_of_in {sts : List Nat} {f : State → State} {st : Nat} (hp : p < 18) (hfit : s.fitted p = true)
    (hst : s.portState p = st) (hin : sts.contains st = true) : onPort p sts f s = .next (f s) := by
  have hact : (s.fitted p && sts.contains (s.portState p)) = true := by rw [hfit, hst, hin]; rfl
  rw [onPort, onUnit_next (decide_eq_true hp), if_pos hact]

theorem onPort_of_out {sts : List Nat} {f : State → State} (hp : p < 18)
    (hout : (s.fitted p && sts.contains (s.portState p)) = false) : onPort p sts f s = .next s := by
  rw [onPort, onUnit_next (decide_eq_true hp), hout]
  rfl

theorem portState_setPort (s : State) (p : Nat) {st : Nat} (h : st < 8) : (s.setPort p st).portState p = st :=
  (State.fld_setFld_same s _ st (by decide)).trans (Nat.mod_eq_of_lt h)

/-- Hearing the peer of a port leaves the registers and the time as they are. -/
theorem rd_hearPort (p : Nat) (s : State) (a : Nat) : (hearPort p s).rd a = s.rd a := by
  unfold hearPort
  split <;> rfl

theorem tb_hearPort (p : Nat) (s : State) : (hearPort p s).tb = s.tb := by
  unfold hearPort
  split <;> rfl

theorem portState_hearPort (p : Nat) (s : State) : (hearPort p s).portState p = s.portState p := by
  rw [State.portState, State.fld, State.rdN, rd_hearPort]
  rfl

/-! ### Retry (R249 to R251) -/

theorem applyAck_of_unheld {ack : Nat} (h : (s.lport p).unacked.findIdx? (fun u => u.1 == ack) = none) :
    applyAck p ack s = s := by
  simp only [applyAck, h]

/-- An acknowledgement of a SEQ in the retry buffer takes out the flits up to it; the measured loop is a free value. -/
theorem applyAck_of_held {ack i : Nat} {u : State} (hi : (s.lport p).unacked.findIdx? (fun u => u.1 == ack) = some i)
    (hu : u = s.updLport p (fun l => { l with unacked := l.unacked.drop (i + 1), replays := 0, ackAt := s.tb })) :
    applyAck p ack s = pumpPort p (u.draw.2.putN (Reg.LNK_LOOP_NS p) (u.draw.1 % 65536)) := by
  subst hu
  simp only [applyAck, hi]

/-- The place in the retry buffer from which a replay sends: that of the SEQ named, else the oldest flit. -/
def replayStart (l : LPort) (x : Option Nat) : Nat := (x.bind (fun q => l.unacked.findIdx? (fun u => u.1 == q))).getD 0

theorem replayFrom_of_nothing {x : Option Nat} (h : (s.lport p).unacked.drop (replayStart (s.lport p) x) = []) :
    replayFrom p x s = s := by
  unfold replayStart at h
  simp only [replayFrom]
  generalize x.bind (fun q => (s.lport p).unacked.findIdx? (fun u => u.1 == q)) = o at h ⊢
  cases o <;> exact if_pos (List.isEmpty_iff.mpr h)

theorem portState_retrain (p : Nat) (full : Bool) (s : State) : (retrain p full s).portState p = 6 := by
  have hne : Reg.LNK_PORT_STATUS p ≠ Reg.LNK_RETRAIN p := by
    intro h
    simp only [Reg.LNK_PORT_STATUS, Reg.LNK_RETRAIN] at h
    omega
  rw [retrain, State.portState, State.fld_bump_ne _ hne]
  exact portState_setPort s p (by decide)

/-- The eighth replay without an advance retrains the port (R250). -/
theorem portState_replayFrom_eighth {x : Option Nat} (h : (s.lport p).unacked.drop (replayStart (s.lport p) x) ≠ [])
    (hmany : 7 ≤ (s.lport p).replays) : (replayFrom p x s).portState p = 6 := by
  obtain ⟨t, ht⟩ : ∃ t, replayFrom p x s = retrain p false t := by
    unfold replayStart at h
    simp only [replayFrom]
    generalize x.bind (fun q => (s.lport p).unacked.findIdx? (fun u => u.1 == q)) = o at h ⊢
    cases o <;> exact ⟨_, (if_neg (mt List.isEmpty_iff.mp h)).trans (if_pos (Nat.succ_le_succ hmany))⟩
  rw [ht, portState_retrain]

/-! ### Waits at an output (R254, R255) -/

theorem waiting_eq_none {f : QFlit → Bool} (h : ∀ q ∈ (s.lport p).queue, f q = false) : waiting s p f = none :=
  List.find?_eq_none.mpr (fun q hq => by rw [h q hq]; exact Bool.false_ne_true)

/-! ### HELLO (R259) -/

section
variable {v node pp ln ep st : Nat} {cold : Bool} {fs : List Nat}

theorem helloIn_of_foreign (h : v ≠ 1 ∨ 0x8000 ≤ node) : helloIn p v node pp ln ep cold st fs s = s := if_pos h

/-- The node ID is this sled's, or that of another sled: the port fails as a duplicate. -/
theorem helloIn_of_duplicate (hnode : node < 0x8000) (hdup : node = ownNode s ∨ dupPeer s p node st = true) :
    helloIn p 1 node pp ln ep cold st fs s = (s.setBit (Reg.LNK_PORT_STATUS p) 25 true).setPort p 7 :=
  (if_neg (by omega)).trans (if_pos hdup)

theorem helloIn_of_other_width (hown : node ≠ ownNode s) (hdup : dupPeer s p node st = false)
    (hwidth : ln ≠ s.fld (Reg.LNK_PORT_STATUS p) 3 4) : helloIn p v node pp ln ep cold st fs s = s := by
  by_cases hforeign : v ≠ 1 ∨ 0x8000 ≤ node
  · exact helloIn_of_foreign hforeign
  · exact (if_neg hforeign).trans ((if_neg (by simp [hown, hdup])).trans (if_pos hwidth))

theorem helloIn_ignored (h : v ≠ 1 ∨ 0x8000 ≤ node ∨
    (node ≠ ownNode s ∧ dupPeer s p node st = false ∧ ln ≠ s.fld (Reg.LNK_PORT_STATUS p) 3 4)) :
    helloIn p v node pp ln ep cold st fs s = s := by
  rcases h with hversion | hrange | ⟨hown, hdup, hwidth⟩
  · exact helloIn_of_foreign (.inl hversion)
  · exact helloIn_of_foreign (.inr hrange)
  · exact helloIn_of_other_width hown hdup hwidth

end

/-! ### Leaving a state (Table LNK-4) -/

theorem leavePort_of_up {n : Nat} (h : s.portState p = 5) : leavePort p n s = freeDup (dropPort p n s) := if_pos (.inl h)

theorem leavePort_of_training {n : Nat} (h : s.portState p = 3) : leavePort p n s = s.setPort p n :=
  if_neg (by rw [h]; decide)

/-- A port that is enabled and not retired goes back to DETECT. -/
theorem restPort_of_enabled (h : s.bit (Reg.LNK_PORT_CTRL p) 0 = true) (hlive : s.flt.retired.contains (2, p) = false) :
    restPort s p = 1 := if_pos (by rw [h, hlive]; rfl)

theorem portEn_of_unfitted {en : Bool} (h : s.fitted p = false) : portEn p en s = s := if_pos (by rw [h]; rfl)

/-- EN takes a port that is DOWN and not retired to DETECT. -/
theorem portEn_of_down (hfit : s.fitted p = true) (hdown : (s.setBit (Reg.LNK_PORT_CTRL p) 0 true).portState p = 0)
    (hlive : s.flt.retired.contains (2, p) = false) :
    portEn p true s = (s.setBit (Reg.LNK_PORT_CTRL p) 0 true).setPort p 1 := by
  have hrest : restPort (s.setBit (Reg.LNK_PORT_CTRL p) 0 true) p = 1 :=
    restPort_of_enabled (State.bit_setBit_same s _ true (by decide)) hlive
  simp only [portEn, hfit, hdown, hrest, Bool.not_true, Bool.false_eq_true, if_false, if_true]

/-- EN 0 takes a port that is UP to DOWN behind a DOWN_NOTICE. -/
theorem portEn_of_up {u : State} (hfit : s.fitted p = true) (hu : u = s.setBit (Reg.LNK_PORT_CTRL p) 0 false)
    (hup : u.portState p = 5) : portEn p false s = leavePort p 0 (sendLink p 2 5 u) := by
  subst hu
  have hnotice : sendDown p 0 (s.setBit (Reg.LNK_PORT_CTRL p) 0 false) = sendLink p 2 5 (s.setBit (Reg.LNK_PORT_CTRL p) 0 false) :=
    if_pos (.inl hup)
  have hlive : ¬((s.setBit (Reg.LNK_PORT_CTRL p) 0 false).portState p = 7) := by rw [hup]; decide
  simp only [portEn, hfit, hnotice, if_neg hlive, Bool.not_true, Bool.false_eq_true, if_false]

/-! ### Alignment (R260) -/

theorem alignDone_of_no_width (h : lanesOf s p = none) : alignDone p s = leavePort p 0 s := by
  simp only [alignDone, h]

/-- The width that an aligned port has chosen; its full equalisation is over, and its lanes are named no more. -/
def widthChosen (p n : Nat) (s : State) : State :=
  let t := (s.setFld (Reg.LNK_PORT_STATUS p) 3 4 n).updLport p (fun l => { l with fullEq := false })
  { t with flt := { t.flt with laneNamed := t.flt.laneNamed.filter (fun x => x.1 / 8 != p) } }

theorem portState_widthChosen (p n : Nat) (s : State) : (widthChosen p n s).portState p = s.portState p :=
  State.fld_setFld_below s _ n (by decide) (by decide)

theorem fld_widthChosen (p n : Nat) (s : State) : (widthChosen p n s).fld (Reg.LNK_PORT_STATUS p) 3 4 = n % 16 :=
  State.fld_setFld_same s _ n (by decide)

/-- Training ends with the width chosen, and LANE_MAP and HELLO sent. -/
theorem alignDone_of_training {m n : Nat} (hst : s.portState p = 3) (hl : lanesOf s p = some (m, n)) :
    alignDone p s = sendHello p (sendLaneMap p ((widthChosen p n s).setPort p 4)) := by
  have hfirst : ¬((widthChosen p n s).portState p = 6) := by rw [portState_widthChosen, hst]; decide
  unfold widthChosen at hfirst
  simp only [alignDone, hl, if_neg hfirst, widthChosen]

/-! ### DATA flits (R248 to R253) -/

section
variable {hdr : BitVec 128} {pay : BitVec 864} {crc : Word}

theorem dataFlit_of_bad_crc (h : crc ≠ flitCrc hdr pay) :
    dataFlit p hdr pay crc s = discardFlit p (s.bump (Reg.LNK_CRC_ERR p)) := if_pos h

/-- The acknowledgement that a sound DATA flit carries is taken whether the flit is or not. -/
def flitHeard (p : Nat) (hdr : BitVec 128) (s : State) : State :=
  if bits hdr.toNat 7 1 = 1 then applyAck p (bits hdr.toNat 20 12) (hearPort p s) else hearPort p s

theorem dataFlit_of_sound (hcrc : crc = flitCrc hdr pay) (hsound : flitSound hdr = true) :
    dataFlit p hdr pay crc s =
      if bits hdr.toNat 8 12 ≠ ((flitHeard p hdr s).lport p).rxSeq then discardFlit p (flitHeard p hdr s)
      else sendLink p 0 0 (routeIn p (flitOf hdr pay) (bits hdr.toNat 112 1 == 1)
        (((flitHeard p hdr s).updLport p (fun l => { l with rxSeq := (bits hdr.toNat 8 12 + 1) % 4096, seeking := false })).bump
          (Reg.LNK_FLITS_RX p))) :=
  (if_neg (Decidable.not_not.mpr hcrc)).trans (if_neg (by rw [hsound]; decide))

theorem discardFlit_of_seeking (h : (s.lport p).seeking = true) : discardFlit p s = s := if_pos h

theorem discardFlit_of_first (h : (s.lport p).seeking = false) :
    discardFlit p s = sendRetry p (s.updLport p (fun l => { l with seeking := true })) := if_neg (by rw [h]; decide)

end

section
variable {f : Flit} {r : Bool}

theorem routeIn_of_here (h : f.dst = ownNode s ∨ f.cls = 6) :
    routeIn p f r s = freeBuf (some (p, f.chan)) (deliverFlit p f r s) := if_pos h

theorem routeIn_of_last_hop (hdst : f.dst ≠ ownNode s) (hcls : f.cls ≠ 6) (hhops : f.hops = 15) :
    routeIn p f r s = freeBuf (some (p, f.chan)) (s.bump Reg.LNK_HOP_DROP) :=
  (if_neg (not_or.mpr ⟨hdst, hcls⟩)).trans (if_pos hhops)

theorem routeIn_of_transit (hdst : f.dst ≠ ownNode s) (hcls : f.cls ≠ 6) (hhops : f.hops < 15) :
    routeIn p f r s = routeFlit ⟨{ f with hops := f.hops + 1 }, s.tb, some (p, f.chan)⟩ s :=
  (if_neg (not_or.mpr ⟨hdst, hcls⟩)).trans (if_neg (Nat.ne_of_lt hhops))

end

/-! ### Route writes (R261, R262) -/

section
variable {i : Nat} {v : DWord}

theorem routeWriteAt_of_bad (h : rtEntryOk s (v &&& 0x1FFFFFF) = false) :
    routeWriteAt i v s = s.setBit Reg.LNK_RT_STATUS 2 true := if_pos (by rw [h]; rfl)

theorem routeWriteAt_of_staged (h : rtEntryOk s (v &&& 0x1FFFFFF) = true) (hbank : s.fld Reg.LNK_EPOCH 1 2 < 2) :
    routeWriteAt i v s = setRoute (1 - s.lnkE) i (v &&& 0x1FFFFFF) s :=
  (if_neg (by rw [h]; decide)).trans (if_pos (decide_eq_true hbank))

theorem routeWriteAt_of_draining (h : rtEntryOk s (v &&& 0x1FFFFFF) = true) (hbank : 2 ≤ s.fld Reg.LNK_EPOCH 1 2) :
    routeWriteAt i v s = State.setBit { s with lnk := { s.lnk with held := s.lnk.held ++ [(i, v &&& 0x1FFFFFF)] } } Reg.LNK_RT_STATUS 1 true :=
  (if_neg (by rw [h]; decide)).trans (if_neg (fun hst => absurd (of_decide_eq_true hst) (Nat.not_lt.mpr hbank)))

end

/-! ### The flip of routes (R262) -/

section
variable {t : Nat} {e : Option Nat}

theorem routeFlipTime_of_unset (h : s.lnk.flipAt = none) : routeFlipTime s = s := by
  simp only [routeFlipTime, h]

theorem routeFlipTime_of_early (h : s.lnk.flipAt = some (t, e)) (hearly : s.tb < t) : routeFlipTime s = s := by
  simp only [routeFlipTime, h, if_pos hearly]

/-- The flip that was set is over, whatever becomes of it. -/
def flipCleared (s : State) : State :=
  State.setBit { s with lnk := { s.lnk with flipAt := none } } Reg.LNK_RT_STATUS 0 false

theorem routeFlipTime_of_unready (h : s.lnk.flipAt = some (t, e)) (hdue : t ≤ s.tb) (hother : e ≠ some (flipCleared s).lnkE)
    (hready : flipReady (flipCleared s) e = false) : routeFlipTime s = (flipCleared s).bump Reg.HIE_FLIP_MISS := by
  have hlack : (!flipReady (flipCleared s) e) = true := by rw [hready]; rfl
  simp only [routeFlipTime, h]
  exact (if_neg (Nat.not_lt.mpr hdue)).trans ((if_neg hother).trans (if_pos hlack))

/-- E takes the other bank, the former one is DRAINING from now, and no entry of a next generation has come. -/
def banksFlipped (s : State) : State :=
  let t := s.putN Reg.LNK_EPOCH ((1 - s.lnkE) + 2 * 2)
  { t with lnk := { t.lnk with flippedAt := t.tb, rtHave := [] } }

theorem rdN_banksFlipped (s : State) : (banksFlipped s).rdN Reg.LNK_EPOCH = 1 - s.lnkE + 4 := by
  change (s.putN Reg.LNK_EPOCH (1 - s.lnkE + 4)).rdN Reg.LNK_EPOCH = _
  rw [State.rdN_putN, if_pos rfl, Nat.mod_eq_of_lt (by omega)]

theorem lnkE_banksFlipped (s : State) : (banksFlipped s).lnkE = 1 - s.lnkE := by
  rw [State.lnkE, State.fld, rdN_banksFlipped, bits]
  omega

theorem fld_banksFlipped (s : State) : (banksFlipped s).fld Reg.LNK_EPOCH 1 2 = 2 := by
  rw [State.fld, rdN_banksFlipped, bits]
  omega

theorem routeFlipTime_of_ready (h : s.lnk.flipAt = some (t, e)) (hdue : t ≤ s.tb) (hother : e ≠ some (flipCleared s).lnkE)
    (hready : flipReady (flipCleared s) e = true) :
    routeFlipTime s = followTime ((banksFlipped (flipCleared s)).traceRec 0x08 0x0B 0xFFFF [1 - (flipCleared s).lnkE]) := by
  rw [← lnkE_banksFlipped]
  have hall : ¬((!flipReady (flipCleared s) e) = true) := by rw [hready]; decide
  simp only [routeFlipTime, h]
  exact (if_neg (Nat.not_lt.mpr hdue)).trans ((if_neg hother).trans (if_neg hall))

end

/-! ### The release of the draining bank (R262) -/

theorem bankRelease_of_draining (h : s.fld Reg.LNK_EPOCH 1 2 ≠ 2 ∨ bankFlits s (1 - s.lnkE) ≠ 0 ∨ s.tb < s.lnk.flippedAt + 4000) :
    bankRelease s = s :=
  if_neg (by omega)

/-- The released bank is STAGED again, with nothing held. -/
def bankStaged (s : State) : State :=
  (State.setFld { s with lnk := { s.lnk with held := [] } } Reg.LNK_EPOCH 1 2 1).setBit Reg.LNK_RT_STATUS 1 false

theorem bankRelease_of_drained (hdrain : s.fld Reg.LNK_EPOCH 1 2 = 2) (hempty : bankFlits s (1 - s.lnkE) = 0)
    (hold : s.lnk.flippedAt + 4000 ≤ s.tb) :
    bankRelease s = s.lnk.held.foldl (fun s w => setRoute (1 - s.lnkE) w.1 w.2 s) (bankStaged s) :=
  if_pos ⟨hdrain, hempty, hold⟩

theorem fld_bankStaged (s : State) : (bankStaged s).fld Reg.LNK_EPOCH 1 2 = 1 :=
  (State.fld_setBit_ne _ (by decide) 1 1 2 false).trans (State.fld_setFld_same _ _ 1 (by decide))

theorem bit_bankStaged (s : State) : (bankStaged s).bit Reg.LNK_RT_STATUS 1 = false :=
  State.bit_setBit_same _ _ false (by decide)

/-- The held writes change the routes alone. -/
theorem heldWrites_only_routes (ws : List (Nat × DWord)) (s : State) :
    ∃ r, ws.foldl (fun s w => setRoute (1 - s.lnkE) w.1 w.2 s) s = { s with lnk := { s.lnk with routes := r } } := by
  induction ws generalizing s with
  | nil => exact ⟨s.lnk.routes, rfl⟩
  | cons w ws ih =>
    obtain ⟨r, hr⟩ := ih (setRoute (1 - s.lnkE) w.1 w.2 s)
    exact ⟨r, hr⟩

end

/-- Settles O52: a command out of place by `onPort_of_out`, every other by the lemma of the case it is in. -/
theorem linkPortsAndRoutes : Obligations.LinkPortsAndRoutes := by
  unfold Obligations.LinkPortsAndRoutes
  refine ⟨?outside, ?codeword, ?ackUnheld, ?ackHeld, ?retryReq, ?replayLate, ?replayEarly, ?replayNothing, ?replayEighth, ?credit,
    ?creditSend, ?escape, ?escapeNone, ?age, ?ageNone, ?helloIgnored, ?helloDuplicate, ?hello, ?laneMap, ?down, ?enable, ?disable,
    ?unfitted, ?retrain, ?fullEq, ?lockLoss, ?detectRetry, ?detect, ?lock, ?alignNone, ?align, ?alignTraining, ?flitBad,
    ?flitOther, ?flitNext, ?discardAgain, ?discard, ?hopDrop, ?transit, ?deliver, ?writeBad, ?writeStaged, ?writeHeld, ?commitNot,
    ?commit, ?flipSet, ?flipUnset, ?flipEarly, ?flipMissed, ?flip, ?releaseNot, ?release⟩
  case outside =>
    intro p ack x v node pp ln ep st cold fs m hdr pay crc s c hc hp hout
    simp only [List.mem_cons, List.not_mem_nil, or_false] at hc
    rcases hc with rfl | rfl | rfl | rfl | rfl | rfl | rfl | rfl | rfl | rfl | rfl | rfl | rfl | rfl | rfl | rfl | rfl | rfl | rfl
    · exact (exec_codewordUncorrectable ..).trans (onPort_of_out hp hout)
    · exact (exec_idleFlit ..).trans (onPort_of_out hp hout)
    · exact (exec_retryReq ..).trans (onPort_of_out hp hout)
    · exact (exec_retryAckTimeout ..).trans (onPort_of_out hp hout)
    · exact (exec_credit ..).trans (onPort_of_out hp hout)
    · exact (exec_creditPeriodicSend ..).trans (onPort_of_out hp hout)
    · exact (exec_escapeWaitExpire ..).trans (onPort_of_out hp hout)
    · exact (exec_flitAgeExpire ..).trans (onPort_of_out hp hout)
    · exact (exec_hello ..).trans (onPort_of_out hp hout)
    · exact (exec_laneMap ..).trans (onPort_of_out hp hout)
    · exact (exec_downNotice ..).trans (onPort_of_out hp hout)
    · exact (exec_lnkPortRetrain ..).trans (onPort_of_out hp hout)
    · exact (exec_lnkPortFullEq ..).trans (onPort_of_out hp hout)
    · exact (exec_portDetectRetry ..).trans (onPort_of_out hp hout)
    · exact (exec_portSignalDetect ..).trans (onPort_of_out hp hout)
    · exact (exec_portLanesLock ..).trans (onPort_of_out hp hout)
    · exact (exec_portAlignDone ..).trans (onPort_of_out hp hout)
    · exact (exec_portLockLoss ..).trans (onPort_of_out hp hout)
    · exact (exec_dataFlit ..).trans (onPort_of_out hp hout)
  case codeword =>
    intro p s hp hfit hst
    rw [exec_codewordUncorrectable, execCodewordUncorrectable, onPort_of_in hp hfit hst rfl]
  case ackUnheld =>
    rintro p ack s _ hp hfit hst rfl hack
    rw [exec_idleFlit, execIdleFlit, onPort_of_in hp hfit hst rfl, applyAck_of_unheld hack]
  case ackHeld =>
    rintro p ack i s _ u hp hfit hst rfl hack hu
    rw [← tb_hearPort p s] at hu
    rw [exec_idleFlit, execIdleFlit, onPort_of_in hp hfit hst rfl, applyAck_of_held hack hu]
  case retryReq =>
    intro p ack x s hp hfit hst
    rw [exec_retryReq, execRetryReq, onPort_of_in hp hfit hst rfl]
  case replayLate =>
    intro p s hp hfit hst hlate
    rw [exec_retryAckTimeout, execRetryAckTimeout, onPort_of_in hp hfit hst rfl, if_neg (Nat.not_lt.mpr hlate)]
  case replayEarly =>
    intro p s hp hfit hst hearly
    rw [exec_retryAckTimeout, execRetryAckTimeout, onPort_of_in hp hfit hst rfl, if_pos hearly]
  case replayNothing => exact fun p _ x s h => replayFrom_of_nothing h
  case replayEighth => exact fun p x s _ h hmany => portState_replayFrom_eighth h hmany
  case credit =>
    rintro p ack fs s _ hp hfit hst rfl
    rw [exec_credit, execCredit, onPort_of_in hp hfit hst rfl]
  case creditSend =>
    intro p s hp hfit hst
    rw [exec_creditPeriodicSend, execCreditPeriodicSend, onPort_of_in hp hfit hst rfl]
  case escape =>
    intro p s q hp hfit hst hq
    rw [exec_escapeWaitExpire, execEscapeWaitExpire, onPort_of_in hp hfit hst rfl]
    simp only [waiting, hq, unqueue]
  case escapeNone =>
    intro p s hp hfit hst hq
    rw [exec_escapeWaitExpire, execEscapeWaitExpire, onPort_of_in hp hfit hst rfl]
    simp only [waiting, hq]
  case age =>
    intro p s q hp hfit hst hq
    rw [exec_flitAgeExpire, execFlitAgeExpire, onPort_of_in hp hfit hst rfl]
    simp only [waiting, hq, unqueue]
  case ageNone =>
    intro p s hp hfit hst hyoung
    have hnone : waiting s p (fun q => decide (q.since + 100 ≤ s.tb)) = none :=
      waiting_eq_none (fun q hq => decide_eq_false (Nat.not_le.mpr (hyoung q hq)))
    rw [exec_flitAgeExpire, execFlitAgeExpire, onPort_of_in hp hfit hst rfl]
    simp only [hnone]
  case helloIgnored =>
    intro p v node pp ln ep st cold fs s hp hfit hst h
    rw [exec_hello, execHello, onPort_of_in hp hfit hst rfl, helloIn_ignored h]
  case helloDuplicate =>
    intro p node pp ln ep st cold fs s hp hfit hst hnode hdup
    rw [exec_hello, execHello, onPort_of_in hp hfit hst rfl, helloIn_of_duplicate hnode hdup]
  case hello =>
    intro p node pp ln ep st cold fs s hp hfit hst _ _ _ _
    rw [exec_hello, execHello, onPort_of_in hp hfit hst rfl]
  case laneMap =>
    rintro p m s _ hp hfit hst rfl
    rw [exec_laneMap, execLaneMap, onPort_of_in hp hfit hst rfl]
  case down =>
    intro p x s hp hfit hst
    rw [exec_downNotice, execDownNotice, onPort_of_in hp hfit hst rfl, leavePort_of_up ((portState_hearPort p s).trans hst)]
  case enable =>
    intro p s hp hfit _ hdown hlive
    rw [exec_lnkPortEn, execLnkPortEn, onUnit_next (decide_eq_true hp), portEn_of_down hfit hdown hlive]
  case disable =>
    intro p s u hp hfit hu hup
    rw [exec_lnkPortEn, execLnkPortEn, onUnit_next (decide_eq_true hp), portEn_of_up hfit hu hup]
  case unfitted =>
    intro p en s hp hfit
    rw [exec_lnkPortEn, execLnkPortEn, onUnit_next (decide_eq_true hp), portEn_of_unfitted hfit]
  case retrain =>
    intro p s hp hfit hst
    rw [exec_lnkPortRetrain, execLnkPortRetrain, onPort_of_in hp hfit hst rfl, retrain]
  case fullEq =>
    intro p s hp hfit hst
    rw [exec_lnkPortFullEq, execLnkPortFullEq, onPort_of_in hp hfit hst rfl, if_pos hst, retrain]
  case lockLoss =>
    intro p s hp hfit hst
    rw [exec_portLockLoss, execPortLockLoss, onPort_of_in hp hfit hst rfl, retrain]
  case detectRetry =>
    intro p s hp
    rw [exec_portDetectRetry, execPortDetectRetry, onPort, ite_self, onUnit_next (decide_eq_true hp)]
  case detect =>
    intro p m s hp hfit hst
    rw [exec_portSignalDetect, execPortSignalDetect, onPort_of_in hp hfit hst rfl]
  case lock =>
    intro p s hp hfit hst
    rw [exec_portLanesLock, execPortLanesLock, onPort_of_in hp hfit hst rfl]
  case alignNone =>
    intro p s hp hfit hst hnone
    rw [exec_portAlignDone, execPortAlignDone, onPort_of_in hp hfit hst rfl, alignDone_of_no_width hnone,
      leavePort_of_training hst]
  case align =>
    intro p s hp hfit hst _
    rw [exec_portAlignDone, execPortAlignDone, onPort_of_in hp hfit hst rfl]
  case alignTraining =>
    exact fun p n m s _ hst hl => ⟨widthChosen p n s, alignDone_of_training hst hl, fld_widthChosen p n s⟩
  case flitBad =>
    intro p hdr pay crc s hp hfit hst hcrc
    rw [exec_dataFlit, execDataFlit, onPort_of_in hp hfit hst rfl, dataFlit_of_bad_crc hcrc]
  case flitOther =>
    rintro p hdr pay crc s _ hp hfit hst hcrc hsound rfl hseq
    rw [exec_dataFlit, execDataFlit, onPort_of_in hp hfit hst rfl, dataFlit_of_sound hcrc hsound]
    exact congrArg Host.Outcome.next (if_pos hseq)
  case flitNext =>
    rintro p hdr pay crc s _ hp hfit hst hcrc hsound rfl hseq
    rw [exec_dataFlit, execDataFlit, onPort_of_in hp hfit hst rfl, dataFlit_of_sound hcrc hsound]
    exact congrArg Host.Outcome.next (if_neg (Decidable.not_not.mpr hseq))
  case discardAgain => exact fun p s h => discardFlit_of_seeking h
  case discard => exact fun p s h => discardFlit_of_first h
  case hopDrop => exact fun p f r s hdst hcls hhops => routeIn_of_last_hop hdst hcls hhops
  case transit => exact fun p f r s hdst hcls hhops => routeIn_of_transit hdst hcls hhops
  case deliver => exact fun p f r s h => routeIn_of_here h
  case writeBad =>
    intro i v s hi hbad
    rw [exec_lnkRtWrite, execLnkRtWrite, onUnit_next (decide_eq_true hi), routeWriteAt_of_bad hbad]
  case writeStaged =>
    intro i v s hi hok hbank
    rw [exec_lnkRtWrite, execLnkRtWrite, onUnit_next (decide_eq_true hi), routeWriteAt_of_staged hok hbank, setRoute]
  case writeHeld =>
    intro i v s hi hok hbank
    rw [exec_lnkRtWrite, execLnkRtWrite, onUnit_next (decide_eq_true hi), routeWriteAt_of_draining hok hbank]
  case commitNot =>
    intro v s hv
    rw [exec_lnkRtCommit, execLnkRtCommit, hv]
    rfl
  case commit =>
    intro v s hv
    rw [exec_lnkRtCommit, execLnkRtCommit, if_pos hv, rtCommit, setFlip]
    exact ⟨_, rfl, rfl, mget_mdel_same ..⟩
  case flipSet =>
    intro src e t s
    rw [exec_routeFlip, execRouteFlip, setFlip]
    exact ⟨_, rfl, rfl⟩
  case flipUnset =>
    intro s h
    rw [exec_routeFlipTime, execRouteFlipTime, routeFlipTime_of_unset h]
  case flipEarly =>
    intro t e s h hearly
    rw [exec_routeFlipTime, execRouteFlipTime, routeFlipTime_of_early h hearly]
  case flipMissed =>
    rintro t e s _ h hdue rfl hother hready
    rw [exec_routeFlipTime, execRouteFlipTime, routeFlipTime_of_unready h hdue hother hready, flipCleared]
  case flip =>
    rintro t e s _ h hdue rfl hother hready
    refine ⟨banksFlipped (flipCleared s), ?_, lnkE_banksFlipped _, fld_banksFlipped _, rfl⟩
    rw [exec_routeFlipTime, execRouteFlipTime, routeFlipTime_of_ready h hdue hother hready, flipCleared]
  case releaseNot =>
    intro s h
    rw [exec_routeBankRelease, execRouteBankRelease, bankRelease_of_draining h]
  case release =>
    intro s hdrain hempty hold
    obtain ⟨r, hr⟩ := heldWrites_only_routes s.lnk.held (bankStaged s)
    rw [exec_routeBankRelease, execRouteBankRelease, bankRelease_of_drained hdrain hempty hold, hr]
    exact ⟨_, rfl, fld_bankStaged s, bit_bankStaged s, rfl⟩

end Sys2Proof.Machine
end

section
/-! What leaves HIE_STATUS, and with it this sled's role, and the generation of its routes as they are (13, R270, R278): messages
as they go out, parking, the deferral queue and the reserve. -/

namespace Sys2Proof.Machine

/-- HIE_STATUS and the generation of routes are as before. -/
structure HieKept (s t : State) : Prop where
  status : t.rd Reg.HIE_STATUS = s.rd Reg.HIE_STATUS
  gen : t.hie.gen = s.hie.gen

namespace HieKept

theorem refl (s : State) : HieKept s s := ⟨rfl, rfl⟩

/-- The change of `k` comes after that of `h`. -/
theorem after {s t u : State} (k : HieKept t u) (h : HieKept s t) : HieKept s u :=
  ⟨k.status.trans h.status, k.gen.trans h.gen⟩

theorem role_eq {s t : State} (h : HieKept s t) : role t = role s := by
  rw [role, role, State.fld, State.fld, State.rdN, State.rdN, h.status]

/-- A write of another register. -/
theorem put (s : State) {a : Nat} (v : DWord) (h : Reg.HIE_STATUS ≠ a) : HieKept s (s.put a v) := ⟨State.rd_put_ne s v h, rfl⟩

theorem emit (s : State) (o : Output) : HieKept s (s.emit o) := ⟨rfl, rfl⟩

theorem setLnk (s : State) (l : Lnk) : HieKept s { s with lnk := l } := ⟨rfl, rfl⟩

theorem foldl {α : Type} {f : State → α → State} (hf : ∀ s a, HieKept s (f s a)) (l : List α) (s : State) :
    HieKept s (l.foldl f s) := by
  induction l generalizing s with
  | nil => exact refl s
  | cons a l ih => exact (ih (f s a)).after (hf s a)

theorem foldr {α : Type} {f : α → State → State} (hf : ∀ a s, HieKept s (f a s)) (l : List α) (s : State) :
    HieKept s (l.foldr f s) := by
  induction l with
  | nil => exact refl s
  | cons a l ih => exact (hf a _).after ih

theorem ite {c : Prop} [Decidable c] {s t u : State} (ht : HieKept s t) (hu : HieKept s u) : HieKept s (if c then t else u) := by
  split
  · exact ht
  · exact hu

end HieKept

/-! ### Flits and messages -/

theorem hieKept_freeBuf (o : Option (Nat × Nat)) (s : State) : HieKept s (freeBuf o s) := by
  cases o with
  | none => exact .refl s
  | some b => exact .ite ⟨rfl, rfl⟩ ⟨rfl, rfl⟩

theorem hieKept_transmit (p : Nat) (q : QFlit) (s : State) : HieKept s (transmit p q s) := by
  have hne : Reg.HIE_STATUS ≠ Reg.LNK_FLITS_TX p := by simp only [Reg.HIE_STATUS, Reg.LNK_FLITS_TX]; omega
  have hport (f : LPort → LPort) : HieKept s (s.updLport p f) := ⟨rfl, rfl⟩
  exact (hieKept_freeBuf q.origin _).after ((HieKept.emit _ _).after ((HieKept.put _ _ hne).after (hport _)))

theorem hieKept_pump (p n : Nat) (s : State) : HieKept s (pump p n s) := by
  induction n generalizing s with
  | zero => exact .refl s
  | succ n ih =>
    rw [pump]
    split
    · exact .refl s
    · split
      · exact .refl s
      · exact (ih _).after (hieKept_transmit p _ s)

theorem hieKept_atOutput (p : Nat) (q : QFlit) (s : State) : HieKept s (atOutput p q s) :=
  (hieKept_pump p _ _).after ⟨rfl, rfl⟩

/-- The choice of an output takes at most a free value. -/
theorem hieKept_routeOf (s : State) (f : Flit) : HieKept s (routeOf s f).2 := by
  unfold routeOf
  dsimp only
  split
  · exact .refl s
  · split
    · split <;> exact .refl s
    · split
      · exact .refl s
      · split
        · exact .refl s
        · exact .refl s
        · exact ⟨rfl, rfl⟩

theorem hieKept_routeFlit (q : QFlit) (s : State) : HieKept s (routeFlit q s) := by
  have hroute := hieKept_routeOf s q.flit
  rw [routeFlit]
  generalize routeOf s q.flit = r at hroute ⊢
  obtain ⟨_ | ⟨p, v⟩, t⟩ := r
  · exact ((hieKept_freeBuf q.origin _).after (.put t _ (by decide))).after hroute
  · exact (hieKept_atOutput p _ t).after hroute

theorem hieKept_sendAs (s : State) (tenant rtag type dest : Nat) (xs : List Nat) : HieKept s (s.sendAs tenant rtag type dest xs) := by
  rw [State.sendAs]
  split
  · exact ⟨rfl, rfl⟩
  · split
    · exact .refl s
    · refine (hieKept_routeFlit _ _).after ?_
      split <;> exact ⟨rfl, rfl⟩

theorem hieKept_hieReq (type dest : Nat) (xs : List Nat) (s : State) : HieKept s (hieReq type dest xs s) :=
  .after (t := (sendReq (.hier 0) 0 type dest (fun _ => xs) s).2) ⟨rfl, rfl⟩ ((hieKept_sendAs ..).after ⟨rfl, rfl⟩)

theorem hieKept_spanOp (slot op : Nat) (s : State) : HieKept s (spanOp slot op s) := by
  unfold spanOp
  split
  · exact .refl s
  · exact .foldl (fun _ _ => hieKept_hieReq ..) _ s

theorem hieKept_routeWriteAt (i : Nat) (v : DWord) (s : State) : HieKept s (routeWriteAt i v s) :=
  .ite (.put _ _ (by decide)) (.ite ⟨rfl, rfl⟩ ((HieKept.put _ _ (by decide)).after ⟨rfl, rfl⟩))

/-! ### Notices and tenants -/

theorem hieKept_sendHost (f : Nat) (w : HostWrite) (s : State) : HieKept s (sendHost f w s) := by
  cases w with
  | data flight a bytes =>
    simp only [sendHost]
    split <;> exact ⟨rfl, rfl⟩
  | _ => exact ⟨rfl, rfl⟩

theorem hieKept_postWrite (f : Nat) (w : HostWrite) (s : State) : HieKept s (postWrite f w s) :=
  .ite (.ite (.refl s) ⟨rfl, rfl⟩) (hieKept_sendHost f w s)

theorem hieKept_raiseVec (f v : Nat) (s : State) : HieKept s (raiseVec f v s) := .ite ⟨rfl, rfl⟩ (hieKept_postWrite ..)

theorem hieKept_notice (f : Nat) (r : Reply) (s : State) : HieKept s (notice f r s) := (hieKept_raiseVec f 0 _).after ⟨rfl, rfl⟩

theorem hieKept_deferRefused (d : Deferred) (st : Status) (n : Nat) (s : State) : HieKept s (deferRefused d st n s) :=
  (hieKept_notice ..).after (.ite ⟨rfl, rfl⟩ ⟨rfl, rfl⟩)

theorem hieKept_dropKeys (slot : Nat) (s : State) : HieKept s (dropKeys slot s) := .ite ⟨rfl, rfl⟩ (.refl s)

theorem hieKept_outcome (s : State) (slot : Nat) (st : Status) : HieKept s (s.outcome slot st) := .ite ⟨rfl, rfl⟩ ⟨rfl, rfl⟩

theorem hieKept_evResize (slot : Nat) (s : State) : HieKept s (evResize slot s) := by
  have hcores (x : ECore → ECore) (l : List Nat) (t : State) : HieKept t (l.foldl (fun t c => t.updCore c x) t) :=
    .foldl (f := fun t c => t.updCore c x) (fun _ _ => ⟨rfl, rfl⟩) l t
  unfold evResize
  split
  · exact .refl s
  · refine .ite ((hcores ..).after ?keys) ((hieKept_dropKeys slot _).after ((hcores ..).after ?keys))
    refine .ite ?_ (.refl s)
    split <;> exact ⟨rfl, rfl⟩

theorem hieKept_traceRec (s : State) (id src unit : Nat) (args : List Nat) : HieKept s (s.traceRec id src unit args) :=
  .ite (.after (t := s.bump Reg.FW_TRACE_SEQ) ⟨rfl, rfl⟩ (.put s _ (by decide))) (.refl s)

theorem hieKept_rehold (f : Nat) (p : Nat → Bool) (s : State) : HieKept s (rehold f p s) := by
  refine HieKept.after (.foldr (fun w t => ?_) _ _) (t := s.updFn f _) ⟨rfl, rfl⟩
  cases w with
  | entry slot q index irq c => exact .ite ⟨rfl, rfl⟩ (.refl t)
  | _ => exact .refl t

theorem hieKept_parkTenant (slot : Nat) (s : State) : HieKept s (parkTenant slot s) := by
  have hflush (u : State) (o : Nat × Obj) : HieKept u (autoFlush slot o.1 u) := ⟨rfl, rfl⟩
  unfold parkTenant
  split
  · exact .refl s
  · rename_i t _
    refine .ite (.refl s) ((hieKept_spanOp slot 1 _).after ?_)
    refine .after (t := List.foldl _ _ _) ⟨rfl, rfl⟩ ((HieKept.foldl hflush _ _).after ?_)
    exact .after (t := rehold (t.fn.getD 0) (· == slot) (s.traceRec 4 3 0xFFFF [t.id, slot])) ⟨rfl, rfl⟩
      ((hieKept_rehold ..).after (hieKept_traceRec ..))

/-! ### The deferral queue and the reserve -/

theorem hieKept_enter (f slot id : Nat) (r : AdmReq) (s : State) : HieKept s (enter f slot id r s) :=
  (hieKept_evResize slot _).after ⟨rfl, rfl⟩

theorem hieKept_settle (f slot : Nat) (s : State) : HieKept s (settle f slot s) := .ite (.refl s) (hieKept_parkTenant slot s)

theorem hieKept_reevaluate (k : Nat) (s : State) : HieKept s (reevaluate k s) := by
  induction k generalizing s with
  | zero => exact .refl s
  | succ k ih =>
    unfold reevaluate
    split
    · exact .refl s
    · refine .ite (((ih _).after (hieKept_deferRefused ..)).after ⟨rfl, rfl⟩) ?_
      split
      · refine (ih _).after ((hieKept_notice ..).after ((hieKept_outcome ..).after ?_))
        exact (hieKept_settle ..).after ((hieKept_enter ..).after ⟨rfl, rfl⟩)
      · exact .refl s

theorem hieKept_reevaluateAll (s : State) : HieKept s (reevaluateAll s) := by
  have hcap : HieKept s (withholdLent s) :=
    .after (t := State.putN _ _ _) ⟨rfl, rfl⟩ ((HieKept.put _ _ (by decide)).after (.put s _ (by decide)))
  exact .ite (.refl s) ((hieKept_reevaluate ..).after hcap)

theorem hieKept_showReserve (s : State) : HieKept s (showReserve s) :=
  .foldl (fun t i => .put t _ (by simp only [Reg.HIE_STATUS, Reg.HIE_RESERVE]; omega)) _ s

theorem hieKept_dropReserve (s : State) : HieKept s (dropReserve s) := by
  refine .ite (.refl s) ((hieKept_reevaluateAll _).after ?_)
  refine (HieKept.put _ _ (by decide)).after ((HieKept.put _ _ (by decide)).after ?_)
  exact (hieKept_showReserve _).after ⟨rfl, rfl⟩

end Sys2Proof.Machine
end

section
/-! Elections, beacons and roles (13, R270 to R274, R288, R290): who follows, who waits, who wins and who steps down. -/

namespace Sys2Proof.Machine

/-! ### Floods of other sleds (R272) -/

/-- A flood of this sled's own, or under the sequence number last seen of its node, is not new. -/
theorem floodOn_of_seen {l type hops node seq : Nat} {xs : List Nat} {s : State}
    (h : mget s.hie.seen node = some seq ∨ node = ownNode s) : floodOn l type hops node seq xs s = (false, s) := if_pos h

/-! ### Roles -/

/-- The bits of HIE_STATUS above the role leave it as it is. -/
theorem role_hieBit {i : Nat} (b : Bool) (s : State) (hi : 4 ≤ i) : role (hieBit i b s) = role s :=
  State.fld_setFld_below s _ _ hi (by decide)

theorem hieKept_setMgr (s : State) (l v : Nat) : HieKept s (s.setFld (Reg.HIE_MGR l) 16 1 v) :=
  .put s _ (by simp only [Reg.HIE_STATUS, Reg.HIE_MGR]; omega)

/-- A level without its manager changes no role. -/
theorem role_loseManager (l : Nat) (s : State) : role (loseManager l s) = role s := by
  have hhie (t : State) (h : Hie) : role { t with hie := h } = role t := rfl
  have hdraw (t : State) (h : Hie) : role { t with free := t.free + 1, hie := h } = role t := rfl
  simp only [loseManager, showStall, State.draw, apply_ite role, hhie, hdraw, role_hieBit _ _ (Nat.le_refl 4),
    role_hieBit _ _ (show 4 ≤ 5 by decide), role_hieBit _ _ (show 4 ≤ 7 by decide), (hieKept_setMgr s l 0).role_eq, ite_self]

theorem role_loseManagers (ls : List Nat) (s : State) : role (ls.foldl (fun s l => loseManager l s) s) = role s := by
  induction ls generalizing s with
  | nil => rfl
  | cons l ls ih => exact (ih _).trans (role_loseManager l s)

/-- A sled that steps down keeps the levels below the one given up (R274). -/
theorem role_stepDown (l : Nat) (s : State) : role (stepDown l s) = min (role s) l := by
  by_cases hrole : role s ≤ l
  · rw [stepDown, if_pos hrole, Nat.min_eq_left hrole]
  · have hlow : l < 4 := by
      have := bits_lt (s.rdN Reg.HIE_STATUS) 2 2
      rw [role, State.fld] at hrole
      omega
    have hset (t : State) : role (t.setFld Reg.HIE_STATUS 2 2 l) = l :=
      (State.fld_setFld_same t _ l (by decide)).trans (Nat.mod_eq_of_lt hlow)
    have hroot (t : State) : HieKept t (t.setFld Reg.LNK_TIME_PARENT 5 1 0) := .put t _ (by decide)
    rw [stepDown, if_neg hrole, Nat.min_eq_right (by omega)]
    refine HieKept.role_eq (.ite ((hieKept_dropReserve _).after (hroot _)) (hroot _)) |>.trans (hset _)

/-- A sled that resigns manages nothing (R273). -/
theorem role_resign (s : State) : role (resign s) = 0 := by
  rw [resign, role_loseManagers, role_stepDown, Nat.min_zero]

/-! ### Beacons (R272, R274) -/

section
variable {hops l node term key gen str roll seq : Nat} {st lk rs : Bool} {s v : State}

/-- The highest term heard of at a level is kept. -/
def termHeard (l term : Nat) (s : State) : State :=
  { s with hie := { s.hie with term := mput s.hie.term l (max term (lvl s.hie.term l)) } }

theorem beacon_of_known (h : inScope s l node = false ∨ mget s.hie.seen node = some seq ∨ node = ownNode s) :
    beacon hops l rs st node term key gen str roll seq lk s = s := by
  cases hscope : inScope s l node with
  | false => simp only [beacon, hscope, Bool.not_false, if_true]
  | true =>
    have hseen := h.resolve_left (by simp [hscope])
    simp only [beacon, hscope, floodOn_of_seen hseen, Bool.not_true, Bool.not_false, Bool.false_eq_true, if_false, if_true]

/-- A resignation counts where it is that of the manager followed. -/
theorem beacon_of_resignation (hscope : inScope s l node = true)
    (hnew : floodOn l 0x70 hops node seq [l + 4 + 8 * b2n st, node, term, key, str + 16 * b2n lk, gen, roll, seq] s = (true, v)) :
    beacon hops l true st node term key gen str roll seq lk s =
      if mgrNode (termHeard l term v) l = some node then loseManager l (termHeard l term v) else termHeard l term v := by
  simp only [beacon, hscope, Bool.not_true, Bool.false_eq_true, if_false, if_true]
  have hxs : l + 4 * b2n true + 8 * b2n st = l + 4 + 8 * b2n st := rfl
  simp only [hxs, hnew, Bool.not_true, Bool.false_eq_true, if_false]
  rfl

/-- A level without a manager follows the one that a new beacon shows. -/
theorem beacon_of_first (hscope : inScope s l node = true)
    (hnew : floodOn l 0x70 hops node seq [l, node, term, key, str + 16 * b2n lk, gen, roll, seq] s = (true, v))
    (hworker : manages v l = false) (hnone : mgrNode v l = none) :
    beacon hops l false false node term key gen str roll seq lk s = adopt l node term key (termHeard l term v) := by
  have hxs : l + 4 * b2n false + 8 * b2n false = l := rfl
  have hwork : manages (termHeard l term v) l = false := hworker
  have hno : mgrNode (termHeard l term v) l = none := hnone
  unfold termHeard at hwork hno
  simp only [beacon, hscope, hxs, hnew, hwork, hno, Bool.not_true, Bool.false_eq_true, if_false, reduceCtorEq, Option.isNone_none, true_or, if_true]
  rfl

end

/-! ### The loss of a manager (R272, R290) -/

section
variable {l : Nat} {s : State}

theorem managerLoss_of_settled (h : manages s l = true ∨ (mget s.hie.waits l).isSome = true ∨ (mget s.hie.elect l).isSome = true) :
    managerLoss l s = s := if_pos (h.imp_right (.imp_right .inl))

/-- Beacons came within 30 ms, and none says STALL. -/
theorem managerLoss_of_early (hstall : mget s.hie.stall l = none) (hearly : s.tb < lvl s.hie.heard l + 30000) :
    managerLoss l s = s := by
  by_cases hsettled : manages s l ∨ (mget s.hie.waits l).isSome ∨ (mget s.hie.elect l).isSome ∨ !s.bit Reg.RST_START_STATUS 15
  · exact if_pos hsettled
  · simp only [managerLoss, if_neg hsettled, hstall, decide_eq_false (Nat.not_le.mpr hearly), Bool.or_false, Bool.not_false, Bool.true_or, if_true]

/-- The chassis manager has been silent for 30 ms. -/
theorem managerLoss_of_silent_chassis (hworker : manages s 0 = false) (hwait : mget s.hie.waits 0 = none)
    (helect : mget s.hie.elect 0 = none) (hstart : s.bit Reg.RST_START_STATUS 15 = true) (hlate : lvl s.hie.heard 0 + 30000 ≤ s.tb) :
    managerLoss 0 s = loseManager 0 (if (mgrNode s 0).isSome then s.bump Reg.HIE_BEACON_MISS else s) := by
  have hunsettled : ¬(manages s 0 = true ∨ (mget s.hie.waits 0).isSome = true ∨ (mget s.hie.elect 0).isSome = true ∨
      (!s.bit Reg.RST_START_STATUS 15) = true) := by simp [hworker, hwait, helect, hstart]
  simp only [managerLoss, if_neg hunsettled, decide_eq_true hlate, BEq.rfl, Bool.true_or, Bool.not_true, Bool.or_false,
    Bool.false_eq_true, if_false]

end

/-! ### Candidates (R273) -/

section
variable {hops l node term key seq : Nat} {s v : State}

theorem candidateIn_of_known (h : inScope s l node = false ∨ mget s.hie.seen node = some seq ∨ node = ownNode s) :
    candidateIn hops l node term key seq s = s := by
  cases hscope : inScope s l node with
  | false => simp only [candidateIn, hscope, Bool.not_false, if_true]
  | true =>
    have hseen := h.resolve_left (by simp [hscope])
    simp only [candidateIn, hscope, floodOn_of_seen hseen, Bool.not_true, Bool.not_false, Bool.false_eq_true, if_false, if_true]

/-- A candidate was heard: the highest term of the level is kept, and a higher one ends a wait. -/
def candidateHeard (l term : Nat) (s : State) : State :=
  { s with hie := { s.hie with
    term := mput s.hie.term l (max term (lvl s.hie.term l)),
    waits := if decide (lvl s.hie.term l < term) then mdel s.hie.waits l else s.hie.waits } }

/-- This sled's election at a level is over. -/
def electionEnded (l : Nat) (s : State) : State := hieBit 1 false { s with hie := { s.hie with elect := mdel s.hie.elect l } }

/-- A candidate of a later term ends this sled's election. -/
theorem candidateIn_of_later {e : Election} (hscope : inScope s l node = true)
    (hnew : floodOn l 0x71 hops node seq [l, node, term, key, seq] s = (true, v)) (helect : mget v.hie.elect l = some e)
    (hterm : e.term < term) : candidateIn hops l node term key seq s = electionEnded l (candidateHeard l term v) := by
  simp only [candidateIn, hscope, hnew, helect, hterm, Bool.not_true, Bool.false_eq_true, if_false, if_true]
  rfl

end

/-- Settles O42, each command by the lemma of the case it is in. -/
theorem electionRules : Obligations.ElectionRules := by
  unfold Obligations.ElectionRules
  refine ⟨?tick, ?beaconKnown, ?resignation, ?beaconFirst, ?lossSettled, ?loss, ?lossEarly, ?waitEarly, ?wait, ?timeout,
    ?timeoutEarly, ?candidateKnown, ?candidateLater, ?resignWorker, ?resignManager, ?resigned⟩
  case tick => exact fun s => rfl
  case beaconKnown =>
    intro src hops l rs st node term key gen str roll seq lk s hl h
    rw [exec_beacon, execBeacon, onUnit_next (decide_eq_true hl), beacon_of_known h]
  case resignation =>
    intro src hops l st node term key gen str roll seq lk s v hl hscope hnew
    refine ⟨termHeard l term v, rfl, ?_⟩
    rw [exec_beacon, execBeacon, onUnit_next (decide_eq_true hl), beacon_of_resignation hscope hnew]
  case beaconFirst =>
    intro src hops l node term key gen str roll seq lk s v hl hscope hnew hworker hnone
    rw [exec_beacon, execBeacon, onUnit_next (decide_eq_true hl), beacon_of_first hscope hnew hworker hnone, termHeard]
  case lossSettled =>
    intro l s hl h
    rw [exec_managerLoss, execManagerLoss, onUnit_next (decide_eq_true hl), managerLoss_of_settled h]
  case loss =>
    intro s hworker hwait helect hstart hlate
    rw [exec_managerLoss, execManagerLoss, onUnit_next (decide_eq_true (by decide)), managerLoss_of_silent_chassis hworker hwait helect hstart hlate]
  case lossEarly =>
    intro l s hl hstall hearly
    rw [exec_managerLoss, execManagerLoss, onUnit_next (decide_eq_true hl), managerLoss_of_early hstall hearly]
  case waitEarly =>
    intro l t s hl hwait hearly
    simp only [exec_candidateWaitExpire, execCandidateWaitExpire, onUnit_next (decide_eq_true hl), hwait, if_pos hearly]
  case wait =>
    rintro l t s _ hl hwait hdue rfl
    simp only [exec_candidateWaitExpire, execCandidateWaitExpire, onUnit_next (decide_eq_true hl), hwait,
      if_neg (Nat.not_lt.mpr hdue), Bool.not_eq_true', ← Bool.not_eq_true, ite_not]
  case timeout =>
    intro l s e hl helect hdue
    simp only [exec_electionTimeout, execElectionTimeout, onUnit_next (decide_eq_true hl), helect, if_neg (Nat.not_lt.mpr hdue)]
  case timeoutEarly =>
    intro l s e hl helect hearly
    simp only [exec_electionTimeout, execElectionTimeout, onUnit_next (decide_eq_true hl), helect, if_pos hearly]
  case candidateKnown =>
    intro src hops l node term key seq s hl h
    rw [exec_candidate, execCandidate, onUnit_next (decide_eq_true hl), candidateIn_of_known h]
  case candidateLater =>
    intro src hops l node term key seq s v e hl hscope hnew helect hterm
    refine ⟨electionEnded l (candidateHeard l term v), ?_, mget_mdel_same .., State.bit_setBit_same _ _ _ (by decide)⟩
    rw [exec_candidate, execCandidate, onUnit_next (decide_eq_true hl), candidateIn_of_later hscope hnew helect hterm]
  case resignWorker =>
    intro s hrole
    rw [exec_hieResign, execHieResign, if_pos hrole]
  case resignManager =>
    intro s hrole
    rw [exec_hieResign, execHieResign, if_neg hrole]
  case resigned => exact fun s _ => role_resign s

end Sys2Proof.Machine
end

section
/-! Spanning tenants at members and managers, routes and the 1PPS pins (13, R278, R279, R282, R283, R289). -/

namespace Sys2Proof.Machine

/-! ### Votes and the end of a transaction (R282, R289) -/

/-- The transaction with a member's vote in place of an earlier one of it. -/
def SpanTxn.voted (t : SpanTxn) (v : Nat × Status × Nat) : SpanTxn :=
  { t with votes := t.votes.filter (fun (w : Nat × Status × Nat) => w.1 != v.1) ++ [v] }

/-- The transaction stands for the one of its number. -/
def spanNoted (txn : Nat) (t : SpanTxn) (s : State) : State :=
  { s with hie := { s.hie with spans := updWhere s.hie.spans (fun x => x.txn == txn) (fun _ => t) } }

/-- The status that a vote's word carries. -/
def voteStatus (w : Word) : Status := ⟨bits w.toNat 0 8, bits w.toNat 8 8, bits w.toNat 16 16⟩

section
variable {src rtag txn x : Nat} {st : Word} {s : State} {t : SpanTxn}

theorem spanVote_of_unknown (h : (takeReq src rtag s).2.hie.spans.find? (fun t => t.txn == txn) = none) :
    spanVote src rtag txn st x s = (takeReq src rtag s).2 := by
  simp only [spanVote, h]

/-- With every vote in and none failing the transaction commits. -/
theorem spanVote_of_all_done (ht : (takeReq src rtag s).2.hie.spans.find? (fun t => t.txn == txn) = some t)
    (hall : ∀ n ∈ t.members, (t.voted (src, voteStatus st, x)).votes.any (fun v => v.1 == n) = true)
    (hdone : ∀ v ∈ (t.voted (src, voteStatus st, x)).votes, v.2.1.code = 0) :
    spanVote src rtag txn st x s =
      decide_ (t.voted (src, voteStatus st, x)) true none (spanNoted txn (t.voted (src, voteStatus st, x)) (takeReq src rtag s).2) := by
  have hin : t.members.all (fun n => ((t.voted (src, voteStatus st, x)).votes.find? (fun v => v.1 == n)).isSome) = true :=
    List.all_eq_true.mpr (fun n hn => List.find?_isSome.mpr (List.any_eq_true.mp (hall n hn)))
  have hnone : t.members.findSome? (fun n => ((t.voted (src, voteStatus st, x)).votes.find? (fun v => v.1 == n)).bind
      (fun v => if v.2.1.code = 0 then none else some v)) = none := by
    refine List.findSome?_eq_none_iff.mpr (fun n _ => Option.bind_eq_none_iff.mpr (fun v hv => if_pos ?_))
    exact hdone v (List.mem_of_find?_eq_some hv)
  unfold SpanTxn.voted voteStatus at hin hnone
  simp only [spanVote, ht, hin, hnone, if_true]
  rfl

end

/-! ### Members (R282, R283) -/

section
variable {s : State}

/-- A hold that stands for no request of this sled takes effect as a member's, or is dropped. -/
theorem spanCommit_of_member {m txn : Nat} {h : SpanHold} (hh : holdOf s m txn = some h) (hask : askOf s h = none) :
    spanCommit m txn true s = commitMember h m s ∧ spanCommit m txn false s = dropHold m txn s := by
  constructor <;> simp only [spanCommit, hh, hask]

theorem exec_tenantOp_of_unknown {src rtag id op home : Nat} (h : (hear src s).slotOf id = none) :
    exec (.tenantOp src rtag id op home) s = .next (hieAck src rtag 0x7B ⟨0, 0, 0⟩ (hear src s)) := by
  simp only [exec_tenantOp, execTenantOp, h]

/-- The home sled's transition is applied unless the slot is already RELEASING (R283). -/
theorem exec_tenantOp_of_home {src rtag id op home slot : Nat} {t : Tenant} (hslot : (hear src s).slotOf id = some slot)
    (ht : (hear src s).ten slot = some t) (hhome : t.home = some src) (hst : t.st ≠ .releasing) :
    exec (.tenantOp src rtag id op home) s = .next (hieAck src rtag 0x7B ⟨0, 0, 0⟩ (tenantOp slot op (hear src s))) := by
  simp only [exec_tenantOp, execTenantOp, hslot, ht, hhome, Option.bind_some, Option.map_some]
  rw [if_pos ⟨.inl trivial, fun h => hst (Option.some.inj h)⟩]

end

/-! ### Routes (R278) -/

section
variable {s : State}

theorem recompute_of_managed (h : role s = 0 ∨ (managerAbove s).isSome = true) : recompute s = s := if_pos h

/-- The highest manager's routes are a new generation, and their flip is set. -/
theorem recompute_of_highest (hrole : role s ≠ 0) (habove : managerAbove s = none) :
    (recompute s).hie.gen = s.hie.gen + 1 ∧ (recompute s).bit Reg.LNK_RT_STATUS 0 = true := by
  have hhighest : ¬(role s = 0 ∨ (managerAbove s).isSome = true) := by simp [hrole, habove]
  rw [recompute, if_neg hhighest]
  refine ⟨?_, State.bit_setBit_same _ _ _ (by decide)⟩
  refine HieKept.gen (s := { s with hie := { s.hie with gen := s.hie.gen + 1 } }) ?_
  refine (HieKept.put _ _ (by decide)).after ((HieKept.setLnk _ _).after ((HieKept.put _ _ (by decide)).after ?_))
  refine (HieKept.foldl (fun _ _ => hieKept_sendAs ..) _ _).after (.foldl (fun t x => ?_) _ _)
  exact .ite ((HieKept.foldl (fun _ _ => hieKept_routeWriteAt ..) _ _).after ⟨rfl, rfl⟩) (.foldl (fun _ _ => hieKept_hieReq ..) _ t)

theorem routeSet_of_older {k f g : Nat} {es : List DWord} (h : g < s.lnk.rtGen) : routeSet k f g es s = s := by
  rw [routeSet, if_neg (Nat.lt_asymm h), if_pos h]

end

/-- Settles O44, each command by the lemma of the case it is in. -/
theorem spansRoutesAndSiteTime : Obligations.SpansRoutesAndSiteTime := by
  unfold Obligations.SpansRoutesAndSiteTime
  refine ⟨?hold, ?commit, ?member, ?commitTimeout, ?voteUnknown, ?vote, ?voteTimeout, ?requestTimeout, ?opUnknown, ?op,
    ?homeLoss, ?atHome, ?recomputeNot, ?recompute, ?routeSet, ?routeOlder, ?ppsNot, ?pps, ?ppsOut⟩
  case hold =>
    rintro src rtag id txn md cls ws dom keys s _ st x u rfl hin heval
    simp only [exec_spanHold, execSpanHold, hin, heval, Bool.false_eq_true, if_false]
  case commit => exact fun src rtag txn c s => rfl
  case member => exact fun m txn s h hh hask => spanCommit_of_member hh hask
  case commitTimeout =>
    intro m txn s h hh
    simp only [exec_spanCommitTimeout, execSpanCommitTimeout, hh]
  case voteUnknown =>
    rintro src rtag txn st x s _ rfl h
    rw [exec_spanVote, execSpanVote, spanVote_of_unknown h]
  case vote =>
    rintro src rtag txn _ x s _ t rfl ht hall rfl hdone
    refine ⟨t.voted (src, voteStatus 0, x), spanNoted txn (t.voted (src, voteStatus 0, x)) (takeReq src rtag (hear src s)).2,
      ?_, rfl, rfl⟩
    have hcodes : ∀ v ∈ (t.voted (src, voteStatus 0, x)).votes, v.2.1.code = 0 := by
      intro v hv
      rcases List.mem_append.mp hv with hv | hv
      · exact hdone v ((List.mem_filter.mp hv).1)
      · rw [List.mem_singleton.mp hv]
        rfl
    rw [exec_spanVote, execSpanVote, spanVote_of_all_done ht hall hcodes]
  case voteTimeout =>
    intro txn s t ht
    simp only [exec_spanVoteTimeout, execSpanVoteTimeout, ht]
  case requestTimeout =>
    intro f s a hf ha
    simp only [exec_spanRequestTimeout, execSpanRequestTimeout, onUnit_next (decide_eq_true hf), ha]
  case opUnknown => exact fun src rtag id op home s h => exec_tenantOp_of_unknown h
  case op => exact fun src rtag id op home slot t s hslot ht hhome hst => exec_tenantOp_of_home hslot ht hhome hst
  case homeLoss =>
    intro slot h s t hslot ht hhome
    simp only [exec_spanHomeLoss, execSpanHomeLoss, onUnit_next (decide_eq_true hslot), ht, hhome, Option.bind_some]
  case atHome =>
    intro slot s t hslot ht hhome
    simp only [exec_spanHomeLoss, execSpanHomeLoss, onUnit_next (decide_eq_true hslot), ht, hhome, Option.bind_some]
  case recomputeNot =>
    intro s h
    rw [exec_topologyRecompute, execTopologyRecompute, recompute_of_managed h]
  case recompute => exact fun s hrole habove => ⟨_, rfl, recompute_of_highest hrole habove⟩
  case routeSet =>
    intro src rtag k f g es s hk
    rw [exec_routeSet, execRouteSet, onUnit_next (decide_eq_true hk)]
  case routeOlder => exact fun k f g es s h => routeSet_of_older h
  case ppsNot =>
    intro s h
    rw [exec_ppsInPulse, execPpsInPulse, if_neg (by rcases h with h | h <;> simp [h])]
  case pps =>
    intro s hrole hen
    rw [exec_ppsInPulse, execPpsInPulse, if_pos ⟨hrole, hen⟩]
    rfl
  case ppsOut => exact fun s => rfl

end Sys2Proof.Machine
end

section
/-! Short forms of steps that many proofs take, fields of registers, and what records and notices leave as they are (23, R482, R483;
24, R494, R498; 15, R312). -/

namespace Sys2Proof.Machine

theorem next_of_eq {t u : State} (h : t = u) : (.next t : Out) = .next u := congrArg Host.Outcome.next h

theorem not_bnot_of_true {b : Bool} (h : b = true) : ¬ (!b) = true := by simp [h]

theorem bnot_of_false {b : Bool} (h : b = false) : (!b) = true := by simp [h]

theorem ne_true_of_false {b : Bool} (h : b = false) : ¬ b = true := by simp [h]

/-! ### Fields of a register after a write of another of its fields, or of another register -/

/-- A field that lies above or below the one just set is unchanged. -/
theorem State.fld_setFld_other (s : State) (a v : Nat) {lo len lo2 len2 : Nat} (h : lo2 + len2 ≤ lo ∨ lo + len ≤ lo2)
    (h64 : lo2 + len2 ≤ 64) : (s.setFld a lo len v).fld a lo2 len2 = s.fld a lo2 len2 := by
  rw [State.fld, State.setFld, State.rdN_putN, if_pos rfl, bits_mod_two_pow _ h64, State.fld]
  rcases h with h | h
  · exact bits_setBits_below _ _ _ _ _ _ h
  · exact bits_setBits_above _ _ _ _ _ _ h

theorem State.bit_setBit_other (s : State) (a : Nat) {i j : Nat} (v : Bool) (h : j ≠ i) (h64 : j < 64) :
    (s.setBit a i v).bit a j = s.bit a j :=
  congrArg (· == 1) (State.fld_setFld_other s a _ (by omega) h64)

theorem State.rdN_setFld_ne (s : State) {a b : Nat} (h : b ≠ a) (lo len v : Nat) : (s.setFld a lo len v).rdN b = s.rdN b := by
  rw [State.rdN, State.rd_setFld, if_neg h, State.rdN]

theorem State.fld_setFld_ne (s : State) {a b : Nat} (h : b ≠ a) (lo len v lo2 len2 : Nat) :
    (s.setFld a lo len v).fld b lo2 len2 = s.fld b lo2 len2 := by
  rw [State.fld, State.rdN_setFld_ne s h, State.fld]

theorem State.bit_setBit_ne (s : State) {a b : Nat} (h : b ≠ a) (i j : Nat) (v : Bool) : (s.setBit a i v).bit b j = s.bit b j :=
  congrArg (· == 1) (State.fld_setFld_ne s h i 1 _ j 1)

theorem State.rdN_putN_same (s : State) (a : Nat) {n : Nat} (h : n < 2 ^ 64) : (s.putN a n).rdN a = n := by
  rw [State.rdN_putN, if_pos rfl, Nat.mod_eq_of_lt h]

theorem State.rdN_putN_ne (s : State) {a b : Nat} (n : Nat) (h : b ≠ a) : (s.putN a n).rdN b = s.rdN b := by
  rw [State.rdN_putN, if_neg h]

theorem State.rdN_bump_ne (s : State) {a b : Nat} (h : b ≠ a) : (s.bump a).rdN b = s.rdN b := by
  rw [State.rdN, State.rd_bump, if_neg h, State.rdN]

theorem State.fld_putN_ne (s : State) {a b : Nat} (n : Nat) (h : b ≠ a) (lo len : Nat) : (s.putN a n).fld b lo len = s.fld b lo len := by
  rw [State.fld, State.rdN_putN_ne s n h, State.fld]

/-- A log record changes no register but the log's sequence number. -/
theorem State.rdN_logRec_ne (s : State) {a : Nat} (h : a ≠ Reg.FW_LOG_SEQ) (sev code : Nat) (args : List Nat) (unit : Nat)
    (status : Word) (tenant : Nat) : (s.logRec sev code args unit status tenant).rdN a = s.rdN a := by
  rw [State.logRec]
  split
  · rfl
  · exact State.rdN_putN_ne s _ h

theorem State.bit_logRec_ne (s : State) {a : Nat} (h : a ≠ Reg.FW_LOG_SEQ) (sev code : Nat) (args : List Nat) (unit : Nat)
    (status : Word) (tenant i : Nat) : (s.logRec sev code args unit status tenant).bit a i = s.bit a i :=
  congrArg (bits · i 1 == 1) (State.rdN_logRec_ne s h ..)

/-! ### Words shown in a row of registers -/

/-- Writing a list to the registers of an array from its number `n` on. -/
theorem rdN_foldl_putN {reg : Nat → Nat} (hinj : ∀ i j, reg i = reg j → i = j) (l : List Nat) (n k : Nat) (s : State) :
    ((l.zipIdx n).foldl (fun s x => s.putN (reg x.2) x.1) s).rdN (reg k) =
      if n ≤ k ∧ k < n + l.length then l.getD (k - n) 0 % 2 ^ 64 else s.rdN (reg k) := by
  induction l generalizing n s with
  | nil => exact (if_neg (by simp)).symm
  | cons x l ih =>
    rw [List.zipIdx_cons, List.foldl_cons, ih, List.length_cons]
    by_cases hk : k = n
    · subst hk
      rw [if_neg (by omega), if_pos (by omega), State.rdN_putN, if_pos rfl, Nat.sub_self, List.getD_cons_zero]
    · rw [State.rdN_putN_ne _ _ (fun h => hk (hinj _ _ h))]
      by_cases hin : n + 1 ≤ k ∧ k < n + 1 + l.length
      · rw [if_pos hin, if_pos (by omega), show k - n = (k - (n + 1)) + 1 by omega, List.getD_cons_succ]
      · rw [if_neg hin, if_neg (by omega)]

/-- A register outside the array is as before. -/
theorem rdN_foldl_putN_ne {reg : Nat → Nat} {a : Nat} (hne : ∀ i, a ≠ reg i) (l : List (Nat × Nat)) (s : State) :
    (l.foldl (fun s x => s.putN (reg x.2) x.1) s).rdN a = s.rdN a := by
  induction l generalizing s with
  | nil => rfl
  | cons x l ih => rw [List.foldl_cons, ih, State.rdN_putN_ne _ _ (hne x.2)]

/-! ### What records and notices leave as they are -/

/-- The state with other registers, records, outputs, functions, tenants, fault records and free values; all else is as before. -/
def Noted (s t : State) : Prop :=
  ∃ regs nvOld out log trace fns adm flt free, t = { s with
    regs := regs, nvOld := nvOld, out := out, log := log, trace := trace, fns := fns, adm := adm, flt := flt, free := free }

namespace Noted

theorem refl (s : State) : Noted s s := ⟨_, _, _, _, _, _, _, _, _, rfl⟩

/-- The change of `k` comes after that of `h`. -/
theorem after {s t u : State} (k : Noted t u) (h : Noted s t) : Noted s u := by
  obtain ⟨_, _, _, _, _, _, _, _, _, rfl⟩ := h
  obtain ⟨_, _, _, _, _, _, _, _, _, rfl⟩ := k
  exact ⟨_, _, _, _, _, _, _, _, _, rfl⟩

theorem ite {c : Prop} {inst : Decidable c} {s t u : State} (ht : Noted s t) (hu : Noted s u) : Noted s (if c then t else u) := by
  split
  · exact ht
  · exact hu

theorem put (s : State) (a : Nat) (v : DWord) : Noted s (s.put a v) := ⟨_, _, _, _, _, _, _, _, _, rfl⟩

theorem bump (s : State) (a : Nat) : Noted s (s.bump a) := put s a _

theorem setFlt (s : State) (x : Flt) : Noted s { s with flt := x } := ⟨_, _, _, _, _, _, _, _, _, rfl⟩

theorem updFn (s : State) (f : Nat) (g : Fn → Fn) : Noted s (s.updFn f g) := ⟨_, _, _, _, _, _, _, _, _, rfl⟩

theorem foldl {α : Type} {f : State → α → State} (hf : ∀ s a, Noted s (f s a)) (l : List α) (s : State) :
    Noted s (l.foldl f s) := by
  induction l generalizing s with
  | nil => exact refl s
  | cons a l ih => exact (ih (f s a)).after (hf s a)

theorem sendHost (f : Nat) (w : HostWrite) (s : State) : Noted s (sendHost f w s) := by
  cases w with
  | data flight a bytes =>
    simp only [Machine.sendHost]
    split <;> exact ⟨_, _, _, _, _, _, _, _, _, rfl⟩
  | _ => exact ⟨_, _, _, _, _, _, _, _, _, rfl⟩

theorem postWrite (f : Nat) (w : HostWrite) (s : State) : Noted s (postWrite f w s) :=
  .ite (.ite (.refl s) (.updFn ..)) (.sendHost f w s)

theorem raiseVec (f v : Nat) (s : State) : Noted s (raiseVec f v s) := .ite (.updFn ..) (.postWrite ..)

theorem pfNotice (r i : Nat) (s : State) : Noted s (pfNotice r i s) := (Noted.raiseVec ..).after (.put ..)

theorem traceRec (s : State) (id src unit : Nat) (args : List Nat) : Noted s (s.traceRec id src unit args) :=
  .ite ⟨_, _, _, _, _, _, _, _, _, rfl⟩ (.refl s)

theorem logRec (s : State) (sev code : Nat) (args : List Nat) (unit : Nat) (status : Word) (tenant : Nat) :
    Noted s (s.logRec sev code args unit status tenant) :=
  .ite (.refl s) ⟨_, _, _, _, _, _, _, _, _, rfl⟩

theorem ledgerAdd (r : LedgerRec) (s : State) : Noted s (ledgerAdd r s) :=
  .ite ⟨_, _, _, _, _, _, _, _, _, rfl⟩ (.ite (.bump ..) (.ite ⟨_, _, _, _, _, _, _, _, _, rfl⟩ ⟨_, _, _, _, _, _, _, _, _, rfl⟩))

/-- The drawn words of a hub fault's block state. -/
theorem drawn (l : List Nat) (r : List Nat × State) :
    Noted r.2 (l.foldl (fun (r : List Nat × State) _ => (r.1 ++ [r.2.draw.1 % 2 ^ 32], r.2.draw.2)) r).2 := by
  induction l generalizing r with
  | nil => exact .refl _
  | cons _ _ ih => exact (ih _).after ⟨_, _, _, _, _, _, _, _, _, rfl⟩

theorem hubFault (src : Nat) (st : Status) (s : State) : Noted s (hubFault src st s) := by
  have hdrawn := drawn (List.range 5) ([], s)
  unfold Machine.hubFault
  refine (Noted.pfNotice ..).after ((Noted.ite (.put ..) (.refl _)).after ((Noted.setFlt ..).after ((Noted.ledgerAdd ..).after
    ((Noted.bump ..).after ((Noted.logRec ..).after hdrawn)))))

variable {s t : State}

theorem fw_eq (h : Noted s t) : t.fw = s.fw := by obtain ⟨_, _, _, _, _, _, _, _, _, rfl⟩ := h; rfl
theorem fwDown_eq (h : Noted s t) : t.fwDown = s.fwDown := by obtain ⟨_, _, _, _, _, _, _, _, _, rfl⟩ := h; rfl

end Noted

end Sys2Proof.Machine
end

section
/-! The words of the program instructions (08, Tables CLU-12 and CLU-13; 09, Table QUE-7): a major and the 56 bits below it. -/

namespace Sys2Proof

/-- A word is its major with its low 56 bits. -/
theorem append_low_of_major {w : BitVec 64} {n : Nat} (h : (w.extractLsb' 56 8).toNat = n) :
    BitVec.ofNat 8 n ++ w.extractLsb' 0 56 = w := by
  rw [← h, BitVec.ofNat_toNat, BitVec.setWidth_eq]
  exact BitVec.extractLsb'_append_extractLsb' (w := 8) (len := 56)

/-- Each row of the encoder is undone by the row of the decoder with its major. -/
theorem decodeProgram_of_encodeProgram {i : Instr} {u : Nat} {w : BitVec 64} (h : encodeProgram i = some (u, w)) :
    decodeProgram u w = some i := by
  unfold encodeProgram at h
  split at h
  case h_129 => cases h
  all_goals
    cases h
    rw [decodeProgram, BitVec.extractLsb'_append_eq_left, BitVec.extractLsb'_append_eq_right]
    rfl

/-- Each row of the decoder is undone by the encoder on its instruction. -/
theorem encodeProgram_of_decodeProgram {i : Instr} {u : Nat} {w : BitVec 64} (h : decodeProgram u w = some i) :
    encodeProgram i = some (u, w) := by
  unfold decodeProgram at h
  split at h
  case h_129 => cases h
  all_goals
    rename_i hmajor
    cases h
    exact congrArg (fun x => some (u, x)) (append_low_of_major hmajor)

/-- Settles O8, in either direction by the rows of the definition that answers. -/
theorem instructionWordsRoundTrip : Obligations.InstructionWordsRoundTrip := by
  unfold Obligations.InstructionWordsRoundTrip
  exact ⟨fun _ _ _ => decodeProgram_of_encodeProgram, fun _ _ _ => encodeProgram_of_decodeProgram⟩

end Sys2Proof
end

section
/-! A well-formed command answers a next state: every meaning names one state, or the state of a unit that the hardware has, or one
of several by a condition. -/

namespace Sys2Proof.Machine

/-- The outcome is a next state. -/
def Answers (o : Out) : Prop := ∃ t, o = .next t

theorem answers_next (t : State) : Answers (.next t) := ⟨t, rfl⟩

theorem answers_onUnit {ok : Bool} {t : State} (h : ok = true) : Answers (onUnit ok t) := ⟨t, onUnit_next h⟩

theorem answers_ite {c : Prop} {inst : Decidable c} {a b : Out} (ha : Answers a) (hb : Answers b) : Answers (if c then a else b) := by
  split
  · exact ha
  · exact hb

/-- A condition that the operands do not meet leaves the other outcome. -/
theorem answers_of_not {c : Prop} {inst : Decidable c} {a b : Out} (hc : ¬ c) (hb : Answers b) : Answers (if c then a else b) := by
  rwa [if_neg hc]

theorem targetOk_eq_wfTarget (t : RegTarget) : targetOk t = wfTarget t := by
  cases t with
  | bar0 off => exact rfl
  | window f win off => exact rfl
  | msix f off => exact rfl
  | cfgCommand f => exact rfl
  | cfgMsix f => exact rfl
  | cfgPower f => exact rfl
  | cfgAerUnc f => exact rfl
  | cfgAerCor f => exact rfl
  | cfgSriov => exact rfl
  | cfgRebar => exact rfl

theorem urgUnit_eq_wfConv (c : Option Nat) : urgUnit c = wfConv c := by cases c <;> rfl

theorem answers_exec {i : Instr} {s : State} (h : i.wellFormed = true) : Answers (exec i s) := by
  cases i
  -- One state follows.
  case stagedCommitApply | deferMaxWaitExpire | attachLockoutExpire | zeroiseComplete | flushJournalCommit | moveCommit |
    demotionScan | t3MoveStallTimeout | peerMoveTimeout | peerLossTimeout | peerHoldExpire | pfxTtlEvict | kvMoveIssue |
    kvPageDeadline | dirAnnounce | dirQuery | dirAnswer | remotePin | pinAnswer | remoteUnpin | remoteLeaseExpire |
    directoryAnnounceDue | stepPlan | preemptExpire | stepStart | stepEnd | reserveWindowBoundary | launchEnd | timeLimitExpire
    | kvPageDelivered | qprogFenceTimeout | qpQop | qpAddi | qpLi | qpLih | qpCmp | qpCmpi | qpHset | qpHget | qpBr | qpBz |
    qpBnz | qpLoop | qpCall | qpJr | qpEnd | qpLd | qpSt | qpCmd | qpCwait | qpCres | qpLaunch | qpLaunchs | qpLwait | qpLrep |
    qpSignal | qpSwait | qpFence | qpPark | parkWake | qpTime | qpKvres | qpPost | evfCommit | eventRouteHop | evBatch |
    eventBankFlip | eventBankDrained | eventBankResyncDone | spillWaitExpire | stale | lnkRtCommit | routeFlip | routeFlipTime |
    routeBankRelease | ping | pong | pagePut | pageGet | moveDone | pageRelease | bulkData | peerMoveStall | collPart | collData
    | spanPut | spanGet | spanSignal | spanBar | spanData | spanAck | timeSyncTick | beaconTick | hieResign | joinAck |
    joinSeriesTimeout | statusTick | status | topologyRecompute | poolReq | poolGrant | poolBlockReturn | poolMapReplicate |
    spanHold | spanVote | spanCommit | spanVoteTimeout | spanCommitTimeout | tenantOp | keyWrap | lendQuery | ledgerFwd | ack |
    hieRequestTimeout | rollStart | rollHalt | rollResume | rollOffer | rollActivate | rollConfirm | rollReport |
    rollDrainExpire | rollSoakExpire | rollReportTimeout | ppsInPulse | ppsOutSecond | pfLeaseExpire | readStallTimeout |
    dmaReadComplete | hostRequestError | poisonedCompletion | vfEnableClear | pfFlr | ideKmKeyProg | spdmGetVersion |
    spdmGetCapabilities | spdmNegotiateAlgorithms | spdmGetDigests | spdmGetCertificate | spdmChallenge | spdmGetMeasurements |
    spdmKeyExchange | spdmFinish | spdmKeyUpdate | spdmHeartbeat | spdmEndSession | hifRestartWarm | hifRestartCold | mainGood |
    sledEnDeassert | overtempClear | thermalTick | rstUnit | watchdogExpire | watchdogReadyTimeout | adcSdCommit | adcSdCalStart
    | adcIcCalStart | decCtrlSync | mtrFramFlushTick | mtrEclr | mtrCommit | mtrCycSeqRead | panelRailStep | panelRailFault |
    pnlCommit | pnlWakePress | auxLoss | lodgeLoss | auxReturn | lodgePowerUp | holdupStoreRefresh | mainStoreCheck | updBegin |
    updWrite | updEnd | updVerify | updActivate | updConfirm | updAbort | updRevert | fwTraceSelWrite | flashOpTimeout |
    fltUnitSelWrite | fltLdgSelWrite | strapSample | ldgLocationWrite | sidebandAddressWrite | sidebandRead | setdasa | setaasa
    | entdaa | rstdaa | getpid | getbcr | getdcr | getstatus | svcPresenceChange | extest | idcode | samplePreload | regacc |
    unlock | bypass | persistWriteComplete | xtalStop | xtalReturn =>
    exact answers_next _
  -- The operands are checked as `wellFormed` says them.
  case gateAdmit | modify | attach | detach | release | query | withdraw | twNtcConsWrite | graceExpire | alloc | free | place |
    flush | regHost | deregHost | queryObj | write | read | t3BackoffExpire | pfxLookup | blockPublish | pfxDomRotate |
    pfxDomPurge | modelLoad | modelUnload | ctxOpen | ctxClear | ctxClose | turn | cancel | twCtxSelWrite | waitLimitExpire |
    tileMoveComplete | clNop | clAdd | clSub | clMul | clMulh | clMulhu | clDiv | clDivu | clRem | clRemu | clAnd | clOr | clXor
    | clShl | clShr | clSar | clMin | clMax | clMinu | clMaxu | clAddi | clAndi | clOri | clXori | clShli | clShri | clSari |
    clLi | clLih | clCmp | clCmpi | clPlog | clMovsys | clClrfl | clTdset | clTdget | clTdadd | clHset | clHget | clHmov | clBr
    | clBz | clBnz | clLoop | clCall | clJr | clEnd | clTld | clTst | clTcp | clTput | clTget | clTzero | clTwait | clSadv |
    clMma | clMmaz | clAzero | clAld | clAst | clVadd | clVsub | clVmul | clVfma | clVdiv | clVsqrt | clVmin | clVmax | clVsgn |
    clVsfu | clVlog | clVcmp | clVsel | clVmov | clVcvt | clVld | clVst | clVlda | clVsta | clVred | clAred | clFence | clSignal
    | clSwait | clSread | clBar | clKvwait | clKvrel | clKvinfo | clEvinj | clEvinjv | clCallr | clCbcast | clCagath | clCrdsc |
    clTokout | clEot | vectorModerationExpire | heldSlotFreed | qprogRun | qprogStop | evCoreLoad | evCoreClear | evRoute |
    evCommit | evInject | evRing | evTelem | evCoreRead | neuronInputEvent | evRingVectorTick | twEvHeadWrite | evBatchTimeout |
    spillReplay | neuronSleep | telemetryTick | espOwnerWrite | espSyncWord | espIdleWord | espExtWord | espClockLoss |
    espPixelWord | espTimeHighWord | espStatusWord | espOverrunMarker | espMap | espI3c | i3cNackRetry | i3cTransferDone |
    espSettleEnd | espIbi | espHotJoin | winCfg | winRing | windowBoundary | windowFinalise | espOvercurrentTrip |
    camPresenceChange | codewordUncorrectable | dataFlit | retryAckTimeout | creditPeriodicSend | laneMap | escapeWaitExpire |
    flitAgeExpire | lnkPortEn | lnkPortRetrain | lnkPortFullEq | portDetectRetry | portSignalDetect | portLanesLock |
    portAlignDone | portRetrainTimeout | portLockLoss | lnkRtWrite | managerLoss | candidateWaitExpire | electionTimeout |
    spanRequestTimeout | spanHomeLoss | hieSiteSecretWrite | twLeaseWrite | twLeasePeriodWrite | writeStallTimeout |
    writeStallExit | unexpectedCompletion | bmeClear | d3hotEntry | ideStreamInsecure | icConversionEnd | sdModulatorClip |
    autorangeUp | mtrHalfCycle | cfPulseEnd | twNrgSeqRead | hbmCorrectedError | rowRepairComplete | hbmUncorrectedError |
    laneSerInterval | hubDieFault | laneEyeCheck =>
    exact answers_onUnit h
  -- A part of the operands is checked.
  case wideRegisterLowRead | registerWrite => exact answers_onUnit ((targetOk_eq_wfTarget _).trans h)
  case launchStart => exact answers_onUnit (decide_eq_true (Nat.le_of_lt_succ (of_decide_eq_true h)))
  case twDbProdWrite | twCqHeadWrite | twQsigWrite | twQCommit | idleFlit | downNotice | credit | syncReq | mtrCalGain | mtrCalPhase |
      pnlUpdateFull | pnlUpdatePartial | pnlUpdateClear =>
    exact answers_onUnit (Bool.and_eq_true_iff.mp h).1
  case retryReq | syncResp => exact answers_onUnit (Bool.and_eq_true_iff.mp (Bool.and_eq_true_iff.mp h).1).1
  case join | routeSet | targetedTestComplete | istSliceStart | istSliceEnd => exact answers_onUnit (Bool.and_eq_true_iff.mp h).2
  case leaseExpire | vfFlr => exact answers_onUnit ((Bool.and_comm ..).trans h)
  case hello | beacon | candidate =>
    simp only [Instr.wellFormed, Bool.and_eq_true, decide_eq_true_eq] at h
    exact answers_onUnit (decide_eq_true (by omega))
  case conventionalReset | waitMonitorThreshold | adcSyscalZero | adcSyscalFull | msixUnmask =>
    simp only [Instr.wellFormed, Bool.and_eq_true, decide_eq_true_eq] at h
    exact answers_onUnit (by simp only [Bool.and_eq_true, decide_eq_true_eq]; omega)
  case adcUrgFinish | adcUrgDrop =>
    simp only [Instr.wellFormed, Bool.and_eq_true, decide_eq_true_eq] at h
    obtain ⟨⟨hinput, _⟩, hconv⟩ := h
    exact answers_onUnit (Bool.and_eq_true_iff.mpr ⟨(urgUnit_eq_wfConv _).trans hconv, decide_eq_true hinput⟩)
  case unitFault type index block lost slot obj page =>
    simp only [Instr.wellFormed, Bool.and_eq_true, Bool.or_eq_true, beq_iff_eq, decide_eq_true_eq] at h
    obtain ⟨⟨_, hindex⟩, htype⟩ := h
    exact answers_onUnit (decide_eq_true ⟨hindex, (or_assoc ..).mp htype⟩)
  case patrolScrubRead corrected =>
    refine answers_ite (answers_next _) ?_
    cases corrected with
    | none => exact answers_next _
    | some word => exact answers_onUnit h
  -- One of several states follows, and a unit that the hardware does not have is none of the operands'.
  case adcIcCommit | startLimitExpire | rstSafeExit | rootLockLoss | overtempTrip | sdCalComplete | adcSyscalSave | decCommit | decCtrlArm |
      decCaptureStart | freqLossTimeout | sledP1msTick | reconcileTick | accountingPeriodBoundary | overheadMissTimeout | nrgCommit |
      panelFrameBoundary | pnlBodyOwnWrite | mainLoss | updSessionIdleTimeout =>
    exact answers_ite (answers_next _) (answers_next _)
  case fwReadySet | mtrSyncEdge | pnlTblCommit | fwCertCommit | ledgerProgramComplete =>
    exact answers_ite (answers_next _) (answers_ite (answers_next _) (answers_next _))
  case mtrCycleEnd =>
    exact answers_ite (answers_next _) (answers_ite (answers_next _) (answers_ite (answers_next _)
      (answers_ite (answers_next _) (answers_next _))))
  case hkTransaction =>
    have two : ∀ {c d : Prop} {_ : Decidable c} {_ : Decidable d} {t u v : State},
        Answers (if c then .next t else if d then .next u else .next v) :=
      answers_ite (answers_next _) (answers_ite (answers_next _) (answers_next _))
    exact answers_ite (answers_next _) (answers_ite two two)
  case quiesceTimeout =>
    rw [exec_quiesceTimeout, execQuiesceTimeout]
    cases s.rst.quiesce with
    | none => exact answers_next _
    | some q => exact answers_ite (answers_next _) (answers_next _)
  case startRetry =>
    rw [exec_startRetry, execStartRetry]
    cases s.rst.retry with
    | none => exact answers_next _
    | some r => exact answers_ite (answers_next _) (answers_ite (answers_next _) (answers_next _))
  case powerCapTick =>
    rw [exec_powerCapTick, execPowerCapTick]
    split
    · exact answers_next _
    · exact answers_next _
  case referenceCheckTick =>
    rw [exec_referenceCheckTick, execReferenceCheckTick]
    split
    · exact answers_next _
    · exact answers_next _
  case syscalPhaseComplete =>
    rw [exec_syscalPhaseComplete, execSyscalPhaseComplete]
    cases s.adc.syscal with
    | none => exact answers_next _
    | some x => exact answers_ite (answers_next _) (answers_ite (answers_next _) (answers_next _))
  case decSyncInstant =>
    rw [exec_decSyncInstant, execDecSyncInstant]
    cases s.dec.syncs.filter (fun x => decide (x.1 / 640 ≤ s.tb)) with
    | nil => exact answers_next _
    | cons x r => exact answers_next _
  case overheadRound =>
    refine answers_ite (answers_next _) ?_
    cases overheadOf s (s.tb / 1000000 - 1) with
    | none => exact answers_next _
    | some o => exact answers_next _
  case panelRailHoldExpire =>
    rw [exec_panelRailHoldExpire, execPanelRailHoldExpire]
    cases s.pnl.holdAt with
    | none => exact answers_next _
    | some t => exact answers_ite (answers_next _) (answers_next _)
  case panelRailRetry =>
    rw [exec_panelRailRetry, execPanelRailRetry]
    cases s.pnl.failAt with
    | none => exact answers_next _
    | some t => exact answers_ite (answers_next _) (answers_next _)
  case pnlWakeExpire =>
    rw [exec_pnlWakeExpire, execPnlWakeExpire]
    cases s.pnl.wakeUntil with
    | none => exact answers_next _
    | some t => exact answers_ite (answers_next _) (answers_next _)
  case autoConfirmExpire =>
    rw [exec_autoConfirmExpire, execAutoConfirmExpire]
    cases s.fw.trialDone with
    | none => exact answers_next _
    | some t => exact answers_next _
  case ledgerRetryTick =>
    rw [exec_ledgerRetryTick, execLedgerRetryTick]
    cases s.flt.ldgFailAt with
    | none => exact answers_next _
    | some t => exact answers_next _
  case railRegulationTimeout =>
    exact answers_of_not (Nat.not_le.mpr (of_decide_eq_true h))
      (answers_ite (answers_next _) (answers_ite (answers_next _) (answers_next _)))
  case startStepComplete =>
    refine answers_of_not (Nat.not_le.mpr (of_decide_eq_true h)) (answers_ite ?_ (answers_ite (answers_next _) (answers_next _)))
    cases s.rst.quiesce with
    | none => exact answers_next _
    | some q => exact answers_next _
  case unitResetDeferred =>
    exact answers_of_not (Nat.not_le.mpr (of_decide_eq_true (Bool.and_eq_true_iff.mp h).2)) (answers_ite (answers_next _) (answers_next _))
  case resetNotice type index =>
    refine answers_of_not (Nat.not_le.mpr (of_decide_eq_true (Bool.and_eq_true_iff.mp h).2)) ?_
    cases s.rst.notices.find? (fun n => n.type == type && n.index == index) with
    | none => exact answers_next _
    | some n => exact answers_next _
  case decOutput | cfPulseEmit =>
    exact answers_of_not (Nat.not_le.mpr (of_decide_eq_true h)) (answers_ite (answers_next _) (answers_next _))
  case pnlFbWrite =>
    simp only [Instr.wellFormed, Bool.and_eq_true, decide_eq_true_eq] at h
    exact answers_of_not (by omega) (answers_ite (answers_next _) (answers_ite (answers_next _) (answers_next _)))

/-- Settles O7, command by command in `answers_exec`. -/
theorem wellFormedCommandsComplete : Obligations.WellFormedCommandsComplete := fun _ _ h => answers_exec h

end Sys2Proof.Machine
end

section
/-! The step of the block (log entry 3) and the values right after reset (log entry 1). -/

namespace Sys2Proof.Machine

/-- Settles O1: `step` takes the command at the front. -/
theorem stepTakesTheFrontCommand : Obligations.StepTakesTheFrontCommand := fun _ _ _ => rfl

/-! ### A microsecond -/

section
variable {s : State}

theorem step_of_empty (h : s.pending = []) : step s = .next (tick s) := by rw [step, h]

theorem tick_of_stopped (h : s.hld.ph = .off ∨ s.rst.xtalOk = false) : tick s = s := by
  rw [tick, if_pos (by simpa using h)]

/-- With no slew and the phase short of a microsecond, TB advances by 1 (12, R266). -/
theorem tb_advance (hslew : s.lnk.sync.slew = 0) (hphase : s.lnk.sync.phase.natAbs < 100 * ticksPerUs) :
    (advance s).tb = s.tb + 1 := by
  have hbelow : ¬ (100 * (ticksPerUs : Int) ≤ s.lnk.sync.phase + max (-32) (min 32 0)) := by omega
  have habove : ¬ (s.lnk.sync.phase + max (-32) (min 32 0) ≤ -(100 * (ticksPerUs : Int))) := by omega
  simp only [advance, hslew, if_neg hbelow, if_neg habove]

/-- Outside RUN a microsecond only lets TB advance and watches what tenants hold (20, R420). -/
theorem tick_outside_run (hph : s.hld.ph ≠ .off) (hxtal : s.rst.xtalOk = true) (hrun : s.rdN Reg.PWR_STATE ≠ 3) :
    tick s = watchEnergy (advance s) := by
  have hgoing : ¬ (s.hld.ph = .off ∨ (!s.rst.xtalOk) = true) := by simp [hph, hxtal]
  have hstate : (watchEnergy (advance s)).rdN Reg.PWR_STATE ≠ 3 := hrun
  simp only [tick, if_neg hgoing, if_neg hstate]

end

/-- Settles O2: a microsecond, none while stopped, and the advance of TB. -/
theorem emptyQueueLetsTimePass : Obligations.EmptyQueueLetsTimePass := by
  unfold Obligations.EmptyQueueLetsTimePass
  refine ⟨fun s => step_of_empty, fun s => tick_of_stopped, fun s hph hxtal hrun hslew hphase => ?_⟩
  rw [tick_outside_run hph hxtal hrun]
  exact tb_advance hslew hphase

/-! ### The reset state -/

/-- Settles O9: a register at reset is its row's reset value, which the register map holds as a number. -/
theorem resetValues : Obligations.ResetValues := by
  unfold Obligations.ResetValues
  refine ⟨by decide, by decide, ?meter, fun f _ => ?lease, rfl, rfl, rfl, rfl, rfl, rfl⟩
  case meter =>
    have h : ∀ i, i < 4 → ∀ j, j < 6 → State.reset.rdN (Reg.MTR_VAL i j) = 0x80000000 := by decide
    exact fun i j hi hj => h i hi j hj
  case lease =>
    have h : (twInit Reg.TW_LEASE_PERIOD).toNat = 2000 := by decide
    exact h

end Sys2Proof.Machine
end

section
/-! Attestation over the PF's DOE mailbox (15, R316, R317; 23, R481, R484): what the responder answers while firmware is up. -/

namespace Sys2Proof.Machine

section
variable {s : State}

/-- A request is served at once while firmware is up and ready. -/
theorem doeRequest_of_ready (hup : s.fwDown = false) (hready : s.rdN Reg.FW_READY ≠ 0) (code : Nat) (fields : List Nat) :
    doeRequest code fields s = doeServe ⟨code, fields⟩ s := if_neg (by simp [hup, hready])

theorem doeRequest_of_down (hdown : s.fwDown = true) (code : Nat) (fields : List Nat) :
    doeRequest code fields s = (s.bump Reg.HIF_DOE_BUSY).updHif (fun h => { h with held := h.held ++ [⟨code, fields⟩] }) := by
  simp only [doeRequest, hdown, Bool.true_or, if_true]

/-! ### Answers -/

theorem serveCertificate {slot off len : Nat} {c : List Nat} (halg : s.hif.algOk = true) (hc : certChain s slot = some c) :
    doeServe ⟨0x82, [slot, off, len]⟩ s = doeAnswer 0x02 (slot :: chainPart c off len) s := by
  refine (if_neg (not_bnot_of_true halg)).trans ?_
  simp only [List.getD_cons_zero, hc]
  rfl

theorem serveChallenge {slot nonce : Nat} {c : List Nat} (halg : s.hif.algOk = true) (hc : certChain s slot = some c) :
    doeServe ⟨0x83, [slot, nonce]⟩ s = doeAnswer 0x03 ([slot, digestOf c, s.draw.1] ++
      [Config.signature slot (nonce :: [slot, digestOf c, s.draw.1])]) s.draw.2 := by
  refine (if_neg (not_bnot_of_true halg)).trans ?_
  simp only [List.getD_cons_zero, hc]
  rfl

theorem serveKeyExchange {slot ex : Nat} {c : List Nat} (halg : s.hif.algOk = true) (hc : certChain s slot = some c) :
    doeServe ⟨0xE4, [slot, ex]⟩ s = doeAnswer 0x64 ([s.draw.1 % 65536, s.draw.2.draw.1] ++
      [Config.signature slot (ex :: [s.draw.1 % 65536, s.draw.2.draw.1])])
      { s.draw.2.draw.2 with hif := { s.hif with exchanging := true } } := by
  refine (if_neg (not_bnot_of_true halg)).trans (if_neg ?_)
  simp [hc]

/-- A slot without a certificate is answered ERROR 1. -/
theorem serve_empty_slot {slot : Nat} (halg : s.hif.algOk = true) (hc : certChain s slot = none) (off len nonce ex : Nat) :
    doeServe ⟨0x82, [slot, off, len]⟩ s = doeError 1 s ∧ doeServe ⟨0x83, [slot, nonce]⟩ s = doeError 1 s ∧
      doeServe ⟨0xE4, [slot, ex]⟩ s = doeError 1 s := by
  refine ⟨(if_neg (not_bnot_of_true halg)).trans ?_, (if_neg (not_bnot_of_true halg)).trans ?_,
    (if_neg (not_bnot_of_true halg)).trans (if_pos ?_)⟩
  · simp only [List.getD_cons_zero, hc]
  · simp only [List.getD_cons_zero, hc]
  · simp [hc]

theorem serveMeasurement {i slot nonce : Nat} (halg : s.hif.algOk = true) (hi : 1 ≤ i ∧ i ≤ 8) :
    doeServe ⟨0xE0, [i, b2n false, slot, nonce]⟩ s = doeAnswer 0x60 (1 :: i :: measurement s i) s := by
  have hwhich : (if i = 0xFF then [1, 2, 3, 4, 5, 6, 7, 8] else if i ≤ 8 then [i] else []) = [i] := by
    rw [if_neg (by omega), if_pos hi.2]
  refine (if_neg (not_bnot_of_true halg)).trans ((if_neg (by simp; omega)).trans ?_)
  simp only [List.getD_cons_zero, hwhich]
  simp [b2n]

/-- A request that comes before the exchange has reached it. -/
theorem serve_out_of_order (hver : s.hif.verOk = false) (halg : s.hif.algOk = false) (hex : s.hif.exchanging = false)
    (hses : s.hif.session = false) {code : Nat} (hcode : code ∈ [0xE1, 0xE3, 0x81, 0x82, 0x83, 0xE0, 0xE4, 0xE5, 0xE9, 0xE8, 0xEC, 0xFE])
    (fields : List Nat) : doeServe ⟨code, fields⟩ s = doeError 4 s := by
  simp only [List.mem_cons, List.not_mem_nil, or_false] at hcode
  rcases hcode with rfl | rfl | rfl | rfl | rfl | rfl | rfl | rfl | rfl | rfl | rfl | rfl
  all_goals simp [doeServe, hver, halg, hex, hses]

/-! ### FW_READY_SET (R481) -/

theorem fwReadySet_of_not_starting (h : s.rdN Reg.PWR_STATE ≤ 1 ∨ s.rdN Reg.PWR_STATE = 4) : exec .fwReadySet s = .next s := if_pos h

/-- With nothing held and no mailbox waiting, only FW_READY and the mark of the restart change. -/
theorem fwReadySet_of_idle (hrun : s.rdN Reg.PWR_STATE = 3) (hheld : s.hif.held = []) (hwait : s.adm.waiting = []) :
    exec .fwReadySet s = .next { (s.putN Reg.FW_READY 1) with fwDown := false, hif := { s.hif with held := [] }, adm := { s.adm with waiting := [] } } := by
  refine (if_neg (by rw [hrun]; decide)).trans ?_
  simp only [hheld, List.foldl_nil]
  refine (if_pos ?_).trans ?_
  · exact beq_iff_eq.mpr ((State.rdN_putN s Reg.FW_READY Reg.PWR_STATE 1).trans ((if_neg (by decide)).trans hrun))
  · show Host.Outcome.next (s.adm.waiting.foldl _ _) = _
    rw [hwait]
    rfl

end

/-- Settles O35: each request by the row of `doeServe` for its code. -/
theorem attestationAnswers : Obligations.AttestationAnswers := by
  unfold Obligations.AttestationAnswers
  refine ⟨?version, ?capabilities, ?algorithms, ?digests, ?certificate, ?challenge, ?emptySlot, ?count, ?measurement, ?keyExchange,
    ?finish, ?keyUpdate, ?heartbeat, ?endSession, ?keyProg, ?outOfOrder, ?held, ?readyNot, ?ready⟩
  case version =>
    intro s hup hready
    rw [exec_spdmGetVersion, execSpdmGetVersion, doeRequest_of_ready hup hready]
    rfl
  case capabilities =>
    intro s hup hready hver
    rw [exec_spdmGetCapabilities, execSpdmGetCapabilities, doeRequest_of_ready hup hready]
    exact next_of_eq (if_pos hver)
  case algorithms =>
    intro a h d e s hup hready hver
    rw [exec_spdmNegotiateAlgorithms, execSpdmNegotiateAlgorithms, doeRequest_of_ready hup hready]
    exact next_of_eq (if_pos hver)
  case digests =>
    intro s hup hready halg
    rw [exec_spdmGetDigests, execSpdmGetDigests, doeRequest_of_ready hup hready]
    exact next_of_eq (if_neg (not_bnot_of_true halg))
  case certificate =>
    intro slot off len c s hup hready halg hc
    rw [exec_spdmGetCertificate, execSpdmGetCertificate, doeRequest_of_ready hup hready, serveCertificate halg hc]
  case challenge =>
    intro slot nonce c s hup hready halg hc
    rw [exec_spdmChallenge, execSpdmChallenge, doeRequest_of_ready hup hready, serveChallenge halg hc]
  case emptySlot =>
    intro slot off len nonce ex s hup hready halg hc
    obtain ⟨hcertificate, hchallenge, hexchange⟩ := serve_empty_slot halg hc off len nonce ex
    rw [exec_spdmGetCertificate, execSpdmGetCertificate, exec_spdmChallenge, execSpdmChallenge, exec_spdmKeyExchange,
      execSpdmKeyExchange, doeRequest_of_ready hup hready, doeRequest_of_ready hup hready, doeRequest_of_ready hup hready,
      hcertificate, hchallenge, hexchange]
    exact ⟨rfl, rfl, rfl⟩
  case count =>
    intro sg slot nonce s hup hready halg
    rw [exec_spdmGetMeasurements, execSpdmGetMeasurements, doeRequest_of_ready hup hready]
    exact next_of_eq ((if_neg (not_bnot_of_true halg)).trans (if_pos rfl))
  case measurement =>
    intro i slot nonce s hup hready halg hi
    rw [exec_spdmGetMeasurements, execSpdmGetMeasurements, doeRequest_of_ready hup hready, serveMeasurement halg hi]
  case keyExchange =>
    intro slot ex c s hup hready halg hc
    refine ⟨_, ?_, rfl⟩
    rw [exec_spdmKeyExchange, execSpdmKeyExchange, doeRequest_of_ready hup hready, serveKeyExchange halg hc]
  case finish =>
    intro v s hup hready hex
    rw [exec_spdmFinish, execSpdmFinish, doeRequest_of_ready hup hready]
    refine next_of_eq ((if_neg (not_bnot_of_true hex)).trans ?_)
    cases v <;> rfl
  case keyUpdate =>
    intro op tag s hup hready hses hop
    rw [exec_spdmKeyUpdate, execSpdmKeyUpdate, doeRequest_of_ready hup hready]
    refine next_of_eq ((if_neg (not_bnot_of_true hses)).trans (if_neg ?_))
    simp only [List.getD_cons_zero]
    omega
  case heartbeat =>
    intro s hup hready hses
    rw [exec_spdmHeartbeat, execSpdmHeartbeat, doeRequest_of_ready hup hready]
    exact next_of_eq (if_pos hses)
  case endSession =>
    intro s hup hready hses
    rw [exec_spdmEndSession, execSpdmEndSession, doeRequest_of_ready hup hready]
    exact next_of_eq (if_pos hses)
  case keyProg =>
    intro st ks k s hup hready hses hkeys
    rw [exec_ideKmKeyProg, execIdeKmKeyProg, doeRequest_of_ready hup hready]
    exact next_of_eq ((if_neg (not_bnot_of_true hses)).trans (if_pos hkeys))
  case outOfOrder =>
    intro i s hup hready hver halg hex hses hi
    have answer : ∀ code ∈ [0xE1, 0xE3, 0x81, 0x82, 0x83, 0xE0, 0xE4, 0xE5, 0xE9, 0xE8, 0xEC, 0xFE], ∀ fields,
        Host.Outcome.next (doeRequest code fields s) = (.next (doeError 4 s) : Out) := by
      intro code hcode fields
      rw [doeRequest_of_ready hup hready, serve_out_of_order hver halg hex hses hcode]
    rcases hi with rfl | ⟨_, _, _, _, rfl⟩ | rfl | ⟨_, _, _, rfl⟩ | ⟨_, _, rfl⟩ | ⟨_, _, _, _, rfl⟩ | ⟨_, _, rfl⟩ | ⟨_, rfl⟩ |
      ⟨_, _, rfl⟩ | rfl | rfl | ⟨_, _, _, rfl⟩
    all_goals exact answer _ (by decide) _
  case held => exact fun code fields s hdown => ⟨_, doeRequest_of_down hdown code fields, rfl⟩
  case readyNot => exact fun s h => fwReadySet_of_not_starting h
  case ready =>
    intro s hrun hheld hwait
    refine ⟨_, fwReadySet_of_idle hrun hheld hwait, rfl, ?_, rfl⟩
    exact (State.rdN_putN s Reg.FW_READY Reg.FW_READY 1).trans (if_pos rfl)

end Sys2Proof.Machine
end

section
/-! The update operations of firmware (23, Tables FW-6 and FW-7, R473 to R479): refused, or done for the party that commands. -/

namespace Sys2Proof.Machine

section
variable {op party : Nat} {pre : Option Nat} {done : State → State} {s : State}

theorem updOp_of_busy (h : updBusy party s = true) : updOp op party pre done s = updRefuse op ⟨0x24, 0, 0⟩ s := if_pos h

/-- An operation whose precondition fails is refused with the DETAIL of its case. -/
theorem updOp_of_failing {d : Nat} (h : updBusy party s = false) (hpre : pre = some d) :
    updOp op party pre done s = updRefuse op ⟨0x22, 0, d⟩ s := by
  subst hpre
  exact if_neg (by rw [h]; exact Bool.false_ne_true)

theorem updOp_of_ready (h : updBusy party s = false) (hpre : pre = none) : updOp op party pre done s = done s := by
  subst hpre
  exact if_neg (by rw [h]; exact Bool.false_ne_true)

end

/-! ### The operations of Table FW-6 -/

section
variable {p now : Bool} {s : State}

theorem updWrite_of_busy {party : Nat} (h : updBusy party s = true) : updWrite party p s = updRefuse 2 ⟨0x24, 0, 0⟩ s := by
  rw [updWrite, updOp_of_busy h]

theorem updWrite_of_closed {party : Nat} (h : updBusy party s = false) (hclosed : updOwner s = 0) :
    updWrite party p s = updRefuse 2 ⟨0x22, 0, 1⟩ s := by
  rw [updWrite, updOp_of_failing h (if_pos hclosed)]

theorem updWrite_of_fitting {party : Nat} (h : updBusy party s = false) (hopen : updOwner s ≠ 0)
    (hofs : s.rdN Reg.FW_UPD_OFS = s.rdN Reg.FW_UPD_WRITTEN)
    (hlen : 4096 ≤ s.rdN Reg.FW_UPD_LEN ∧ s.rdN Reg.FW_UPD_LEN ≤ 1048576 ∧ s.rdN Reg.FW_UPD_LEN % 4096 = 0 ∧
      s.rdN Reg.FW_UPD_OFS + s.rdN Reg.FW_UPD_LEN ≤ 25165824) :
    updWrite party p s = readBlock { s.setBit Reg.FW_UPD_STATUS 0 true with
      fw := { s.fw with opAt := s.rdN Reg.FW_UPD_SRC, opLeft := s.rdN Reg.FW_UPD_LEN, programOk := p } } := by
  rw [updWrite]
  refine updOp_of_ready h ((if_neg hopen).trans (if_neg ?_))
  simp only [Bool.not_eq_true', Bool.and_eq_false_iff, beq_eq_false_iff_ne, decide_eq_false_iff_not, not_or, not_not]
  exact ⟨hofs, hlen⟩

theorem updClose_of_busy {party : Nat} (h : updBusy party s = true) : updClose party s = updRefuse 3 ⟨0x24, 0, 0⟩ s := by
  rw [updClose, updOp_of_busy h]

theorem updClose_of_closed {party : Nat} (h : updBusy party s = false) (hclosed : updOwner s = 0) :
    updClose party s = updRefuse 3 ⟨0x22, 0, 1⟩ s := by
  rw [updClose, updOp_of_failing h (if_pos hclosed)]

theorem updClose_of_written {party : Nat} {m : Memory} (h : updBusy party s = false) (hopen : updOwner s ≠ 0)
    (hm : m = s.fw.image (inactiveSlot s)) (hsize : imageSize m ≤ 25161728) (hwritten : s.rdN Reg.FW_UPD_WRITTEN = imageSize m + 4096) :
    updClose party s = updEnd 3 ⟨0, 0, 0⟩ (setOwner 0
      (markInactive (fun i => { i with st := 2, version := readLE m 8 4, epoch := imageEpoch m, code := 0 }) s)) := by
  subst hm
  rw [updClose]
  exact updOp_of_ready h ((if_neg hopen).trans ((if_neg (Nat.not_lt.mpr hsize)).trans (if_neg (not_not_intro hwritten))))

theorem updActivate_of_busy {party : Nat} (h : updBusy party s = true) : updActivate party now s = updRefuse 5 ⟨0x24, 0, 0⟩ s := by
  rw [updActivate, updOp_of_busy h]

theorem updActivate_of_unverified {party : Nat} (h : updBusy party s = false) (hst : (inactiveInfo s).st ≠ 3) :
    updActivate party now s = updRefuse 5 ⟨0x22, 0, 1⟩ s := by
  rw [updActivate, updOp_of_failing h (if_pos hst)]

theorem updActivate_of_verified {party : Nat} (h : updBusy party s = false) (hst : (inactiveInfo s).st = 3)
    (hmarker : s.fw.validMarker = none) (hepoch : s.fw.fuse ≤ imageEpoch (s.fw.image (inactiveSlot s))) :
    updActivate party now s =
      if now && inRun (updEnd 5 ⟨0, 0, 0⟩ (markInactive (fun i => { i with st := 4 }) (setMarker (some (inactiveSlot s, 3)) s))) then
        beginQuiesce 4 (updEnd 5 ⟨0, 0, 0⟩ (markInactive (fun i => { i with st := 4 }) (setMarker (some (inactiveSlot s, 3)) s)))
      else updEnd 5 ⟨0, 0, 0⟩ (markInactive (fun i => { i with st := 4 }) (setMarker (some (inactiveSlot s, 3)) s)) := by
  rw [updActivate]
  exact updOp_of_ready h ((if_neg (not_not_intro hst)).trans ((if_neg (by simp [hmarker])).trans (if_neg (Nat.not_lt.mpr hepoch))))

theorem updConfirm_of_not_busy {party : Nat} (h : updBusy party s = false) :
    updConfirm party s = if mayConfirm s then confirmNow s else updRefuse 6 ⟨0x22, 0, 5⟩ s := by
  by_cases hmay : mayConfirm s = true
  · rw [if_pos hmay]
    exact updOp_of_ready h (if_pos hmay)
  · rw [if_neg hmay]
    exact updOp_of_failing h (if_neg hmay)

theorem updRevert_of_marker {party n c : Nat} (h : updBusy party s = false) (hmarker : s.fw.validMarker = some (n, c)) :
    updRevert party s = updEnd 8 ⟨0, 0, 0⟩ (setMarker (some (n, 0)) s) := by
  refine (updOp_of_ready h (if_neg (by simp [hmarker]))).trans ?_
  rw [hmarker]
  rfl

end

/-- Settles O36: each operation by whether `updOp` refuses it as busy, refuses it by its precondition or does it, and the two timers
by their time. -/
theorem updateOperations : Obligations.UpdateOperations := by
  unfold Obligations.UpdateOperations
  refine ⟨?busy, ?begin, ?beginOpen, ?closed, ?write, ?close, ?verify, ?verifyNot, ?activate, ?activateNot, ?confirm, ?abort, ?revert,
    ?revertNot, ?idle, ?idleNot, ?auto, ?autoNot⟩
  case busy =>
    intro p n s h
    have refused : ∀ {op pre done}, Host.Outcome.next (updOp op (cmdParty s) pre done s) = (.next (updRefuse op ⟨0x24, 0, 0⟩ s) : Out) :=
      next_of_eq (updOp_of_busy h)
    exact ⟨refused, next_of_eq (updWrite_of_busy h), next_of_eq (updClose_of_busy h), refused,
      next_of_eq (updActivate_of_busy h), refused, refused, refused⟩
  case begin =>
    intro s h hclosed hmarker
    exact next_of_eq (updOp_of_ready h ((if_neg (not_not_intro hclosed)).trans (if_neg (by simp [hmarker]))))
  case beginOpen => exact fun s h hopen => next_of_eq (updOp_of_failing h (if_pos hopen))
  case closed =>
    intro p s h hclosed
    exact ⟨next_of_eq (updWrite_of_closed h hclosed), next_of_eq (updClose_of_closed h hclosed),
      next_of_eq (updOp_of_failing h (if_pos hclosed))⟩
  case write =>
    intro p s h hopen hofs hlen
    rw [exec_updWrite, execUpdWrite, updWrite_of_fitting h hopen hofs hlen]
  case close =>
    intro s m h hopen hm hsize hwritten
    rw [exec_updEnd, execUpdEnd, updClose_of_written h hopen hm hsize hwritten]
  case verify =>
    rintro ok s _ _ h hst rfl rfl
    exact next_of_eq (updOp_of_ready h (if_neg (not_not_intro hst)))
  case verifyNot => exact fun ok s h hst => next_of_eq (updOp_of_failing h (if_pos hst))
  case activate =>
    rintro now s _ h hst hmarker hepoch rfl
    rw [exec_updActivate, execUpdActivate, updActivate_of_verified h hst hmarker hepoch]
  case activateNot => exact fun now s h hst => next_of_eq (updActivate_of_unverified h hst)
  case confirm =>
    intro s h
    rw [exec_updConfirm, execUpdConfirm, updConfirm_of_not_busy h]
  case abort => exact fun s h hopen => next_of_eq (updOp_of_ready h (if_neg hopen))
  case revert =>
    intro s n c h hmarker
    rw [exec_updRevert, execUpdRevert, updRevert_of_marker h hmarker]
  case revertNot => exact fun s h hmarker => next_of_eq (updOp_of_failing h (if_pos (by simp [hmarker])))
  case idle => exact fun s howner hbusy htime => if_pos ⟨howner, by simp [hbusy], htime⟩
  case idleNot =>
    intro s h
    refine if_neg ?_
    rintro ⟨howner, hbusy, htime⟩
    rcases h with h | h | h
    · exact h howner
    · simp [h] at hbusy
    · omega
  case auto =>
    intro s t hdone hset hmay hup htime
    rw [exec_autoConfirmExpire, execAutoConfirmExpire]
    simp only [hdone]
    exact next_of_eq (if_pos ⟨hset, hmay, by simp [hup], htime⟩)
  case autoNot =>
    intro s hdone
    rw [exec_autoConfirmExpire, execAutoConfirmExpire]
    simp only [hdone]

end Sys2Proof.Machine
end

section
/-! Trace selection, the certificate commit and the watchdog of firmware (23, R481, R483, R484; 16, R354). -/

namespace Sys2Proof.Machine

/-! ### Trace selection (R483) -/

/-- The eight words that show a record, or zeros where there is none. -/
def shownRecord : Option TraceRec → List Nat
  | some r => [r.seq, r.id + 256 * r.source + 65536 * r.unit, r.tb % 2 ^ 32, r.tb / 2 ^ 32, r.args.getD 0 0 % 2 ^ 32,
      r.args.getD 1 0 % 2 ^ 32, r.args.getD 2 0 % 2 ^ 32, r.args.getD 3 0 % 2 ^ 32]
  | none => List.replicate 8 0

theorem length_shownRecord (o : Option TraceRec) : (shownRecord o).length = 8 := by cases o <;> rfl

theorem fwTraceSelWrite_eq (i : Nat) (s : State) : exec (.fwTraceSelWrite i) s =
    .next ((shownRecord (s.trace.find? (fun r => r.seq % 32768 == i % 32768))).zipIdx.foldl
      (fun s x => s.putN (Reg.FW_TRACE_DATA x.2) x.1) (s.putN Reg.FW_TRACE_SEL (i % 32768))) := by
  have htrace : (s.putN Reg.FW_TRACE_SEL (i % 32768)).trace = s.trace := rfl
  simp only [exec_fwTraceSelWrite, execFwTraceSelWrite, htrace]
  cases s.trace.find? (fun r => r.seq % 32768 == i % 32768) <;> rfl

/-! ### The watchdog (R481) -/

section
variable {s : State}

/-- The management core as it restarts with no operation in progress. -/
def coreRestarted (s : State) : State :=
  { (setOwner 0 s).putN Reg.FW_READY 0 with fwDown := true, fw := { s.fw with
    restarts := s.tb :: s.fw.restarts.filter (fun t => decide (s.tb ≤ t + 60000000)), wdtMs := s.rdN Reg.FW_WDT_MS } }

/-- The hub fault, the notice and the check of the image leave the restart as it is. -/
theorem noted_watchdog (hop : s.bit Reg.FW_UPD_STATUS 0 = false)
    (hfew : (s.fw.restarts.filter (fun t => decide (s.tb ≤ t + 60000000))).length < 3) : Noted (coreRestarted s) (watchdog s) := by
  have hcheck : ∀ k t, Noted t (copyAndCheck k true t).2 := fun k t => .ite (.refl t) ((Noted.put ..).after (.bump ..))
  have htold : ∀ n, Noted (coreRestarted s) (pfNotice Reg.FW_NOTICE 3
      ((hubFault 0xE ⟨0, 0, 0⟩ ((coreRestarted s).bump Reg.FW_WDT_RESTARTS)).traceRec 0x0D 0xE 0xFFFF [n])) :=
    fun n => (Noted.pfNotice ..).after ((Noted.traceRec ..).after ((Noted.hubFault ..).after (.bump ..)))
  rw [watchdog, if_neg (ne_true_of_false hop), if_neg (by omega)]
  refine .after ?_ (htold ((s.fw.restarts.filter (fun t => decide (s.tb ≤ t + 60000000))).length + 1))
  split
  · exact hcheck ..
  · exact .refl _

theorem watchdog_restarts (hop : s.bit Reg.FW_UPD_STATUS 0 = false)
    (hfew : (s.fw.restarts.filter (fun t => decide (s.tb ≤ t + 60000000))).length < 3) :
    (watchdog s).fwDown = true ∧ (watchdog s).fw.restarts.head? = some s.tb := by
  rw [(noted_watchdog hop hfew).fwDown_eq, (noted_watchdog hop hfew).fw_eq]
  exact ⟨rfl, rfl⟩

end

/-- Settles O37: the shown words by `rdN_foldl_putN`, the commit by its key and the leaf key, and the watchdog and its timer by the
state they act in. -/
theorem firmwareWatchdogCertificatesAndTrace : Obligations.FirmwareWatchdogCertificatesAndTrace := by
  unfold Obligations.FirmwareWatchdogCertificatesAndTrace
  refine ⟨?trace, ?certNot, ?cert, ?watchdog, ?watchdogNot, ?restarts, ?late, ?lateNot⟩
  case trace =>
    intro i s
    refine ⟨_, fwTraceSelWrite_eq i s, ?_, fun k hk => ?_⟩
    · rw [rdN_foldl_putN_ne (reg := Reg.FW_TRACE_DATA) (fun j => by simp only [Reg.FW_TRACE_SEL, Reg.FW_TRACE_DATA]; omega),
        State.rdN_putN_same _ _ (by omega)]
    · rw [rdN_foldl_putN (reg := Reg.FW_TRACE_DATA) (fun _ _ h => by simpa using h), length_shownRecord, if_pos (by omega), Nat.sub_zero]
      cases s.trace.find? (fun r => r.seq % 32768 == i % 32768) <;> rfl
  case certNot => exact fun k s h => if_pos h
  case cert =>
    intro s
    rw [exec_fwCertCommit, execFwCertCommit, if_neg (not_not_intro rfl)]
    by_cases h : Config.leafKey (stagedChain s) = Config.aliasKey (runningDigest s)
    · rw [if_pos h]
      exact if_pos h
    · rw [if_neg h]
      exact if_neg h
  case watchdog => exact fun s h => next_of_eq (if_pos h)
  case watchdogNot => exact fun s h => next_of_eq (if_neg (by omega))
  case restarts => exact fun s hop hfew => watchdog_restarts hop hfew
  case late =>
    intro s t r hdown hrestarts htime hrun
    rw [exec_watchdogReadyTimeout, execWatchdogReadyTimeout, hrestarts]
    exact next_of_eq (if_pos (by simp [hdown, htime, hrun]))
  case lateNot =>
    intro s h
    rw [exec_watchdogReadyTimeout, execWatchdogReadyTimeout]
    refine next_of_eq (if_neg ?_)
    rcases h with h | h | h <;> simp [h]

end Sys2Proof.Machine
end

section
/-! The ticks of the power cap and of the compute dies' temperature (16, R335 to R338): CAP_K and THERM_K in CLK_THR_SRC. -/

namespace Sys2Proof.Machine

theorem State.fld_lt (s : State) (a lo len : Nat) : s.fld a lo len < 2 ^ len := bits_lt _ _ _

/-- A field takes a value that its width holds. -/
theorem State.fld_setFld_of_lt (s : State) (a : Nat) {lo len v : Nat} (h : lo + len ≤ 64) (hv : v < 2 ^ len) :
    (s.setFld a lo len v).fld a lo len = v :=
  (State.fld_setFld_same s a v h).trans (Nat.mod_eq_of_lt hv)

/-! ### The power cap (R337) -/

/-- CAP_K after a tick, of CAP_K `k`, the power `mw` and the limits. -/
def capStep (mw cap hyst : Int) (k : Nat) : Nat :=
  if cap < mw then min 60 (k + (if 1250000 < mw then 4 else 1)) else if mw < cap - hyst then k - 1 else k

theorem capStep_lt (mw cap hyst : Int) {k : Nat} (h : k < 64) : capStep mw cap hyst k < 64 := by
  unfold capStep
  split
  · omega
  · split <;> omega

/-- The state after a tick that is metered: CAP_BLIND is clear, CAP_K is `k`, and PWR_STATUS shows whether it throttles. -/
def capTicked (k : Nat) (u : State) : State :=
  (((({ u with mtr := { u.mtr with toCap := none } } : State).setBit Reg.PWR_STATUS 1 false).setFld Reg.CLK_THR_SRC 0 6 k).setBit
    Reg.PWR_STATUS 2 (decide (0 < k)))

theorem fld_capTicked (u : State) {k : Nat} (h : k < 64) : (capTicked k u).fld Reg.CLK_THR_SRC 0 6 = k := by
  rw [capTicked, State.fld_setBit_ne _ (by decide), State.fld_setFld_of_lt _ _ (by decide) h]

theorem blind_capTicked (k : Nat) (u : State) : (capTicked k u).bit Reg.PWR_STATUS 1 = false := by
  rw [capTicked, State.bit_setBit_other _ _ _ (by decide) (by decide), State.bit, State.fld_setFld_ne _ (by decide)]
  exact State.bit_setBit_same _ _ _ (by decide)

theorem powerCapTick_of_metered {s u : State} {mw : Int} (hu : u = commitApply s Reg.PWR_CAP_COMMIT)
    (hlink : u.bit Reg.PWR_HK_STATUS 0 = true) (hp : u.mtr.toCap = some mw) :
    exec .powerCapTick s = .next (capTicked
      (capStep mw (1000 * u.rdN Reg.PWR_CAP_W) (1000 * u.rdN Reg.PWR_CAP_HYST_W) (u.fld Reg.CLK_THR_SRC 0 6)) u) := by
  subst hu
  simp only [exec_powerCapTick, execPowerCapTick, hlink, hp, if_true]
  rfl

theorem powerCapTick_of_blind {s u : State} (hu : u = commitApply s Reg.PWR_CAP_COMMIT)
    (h : u.bit Reg.PWR_HK_STATUS 0 = false ∨ u.mtr.toCap = none) : exec .powerCapTick s = .next (u.setBit Reg.PWR_STATUS 1 true) := by
  subst hu
  have hnone : (if (commitApply s Reg.PWR_CAP_COMMIT).bit Reg.PWR_HK_STATUS 0 then (commitApply s Reg.PWR_CAP_COMMIT).mtr.toCap else none)
      = none := by
    rcases h with h | h <;> simp [h]
  simp only [exec_powerCapTick, execPowerCapTick, hnone]

/-- Settles O46: CAP_K takes `capStep`, by the branch that the power is in. -/
theorem powerCapTickMovesCapK : Obligations.PowerCapTickMovesCapK := by
  unfold Obligations.PowerCapTickMovesCapK
  refine ⟨?metered, ?blind⟩
  case metered =>
    rintro s u mw _ _ hu hlink hp rfl rfl
    refine ⟨_, powerCapTick_of_metered hu hlink hp, blind_capTicked .., ?_⟩
    rw [fld_capTicked _ (capStep_lt _ _ _ (State.fld_lt ..))]
    refine ⟨fun habove hhigh => ?_, fun habove hlow => ?_, fun hunder hbelow => ?_, fun hunder hwithin => ?_⟩
    · rw [capStep, if_pos habove, if_pos hhigh]
    · rw [capStep, if_pos habove, if_neg (Int.not_lt.mpr hlow)]
    · rw [capStep, if_neg (Int.not_lt.mpr hunder), if_pos hbelow]
    · rw [capStep, if_neg (Int.not_lt.mpr hunder), if_neg (Int.not_lt.mpr hwithin)]
  case blind =>
    intro s u hu h
    exact ⟨_, powerCapTick_of_blind hu h, State.bit_setBit_same _ _ _ (by decide), State.fld_setBit_ne _ (by decide) ..⟩

/-! ### Temperature (R338) -/

theorem thermStep_lt (s : State) {k : Nat} (t : Int) (h : k < 64) : thermStep s k t < 64 := by
  simp only [thermStep]
  split
  · omega
  · split <;> omega

/-- The three cases of a die's temperature against PWR_THERM_C. -/
theorem thermStep_cases (s : State) (k : Nat) {t c : Int} (hc : c = 16 * s.rdN Reg.PWR_THERM_C) :
    (c < t → thermStep s k t = min 60 (k + 1)) ∧ (t < c - 48 → thermStep s k t = k - 1) ∧
      (c - 48 ≤ t → t ≤ c → thermStep s k t = k) := by
  subst hc
  refine ⟨fun habove => if_pos habove, fun hbelow => ?_, fun hlow hhigh => ?_⟩
  · exact (if_neg (by omega)).trans (if_pos hbelow)
  · exact (if_neg (by omega)).trans (if_neg (by omega))

/-- Settles O47: the two fields take `thermStep` of their die, and CAP_K lies below both. -/
theorem thermalTickMovesThermK : Obligations.ThermalTickMovesThermK := by
  unfold Obligations.ThermalTickMovesThermK
  intro w e c s hc
  obtain ⟨hw1, hw2, hw3⟩ := thermStep_cases s (s.fld Reg.CLK_THR_SRC 8 6) (t := w) hc
  obtain ⟨he1, he2, he3⟩ := thermStep_cases s (s.fld Reg.CLK_THR_SRC 16 6) (t := e) hc
  refine ⟨_, rfl, ?_⟩
  rw [State.fld_setFld_of_lt _ _ (by decide) (thermStep_lt s e (State.fld_lt ..)), State.fld_setFld_other _ _ _ (.inl (by decide)) (by decide),
    State.fld_setFld_of_lt _ _ (by decide) (thermStep_lt s w (State.fld_lt ..)), State.fld_setFld_other _ _ _ (.inl (by decide)) (by decide),
    State.fld_setFld_other _ _ _ (.inl (by decide)) (by decide)]
  exact ⟨hw1, hw2, hw3, he1, he2, he3, rfl⟩

end Sys2Proof.Machine
end

section
/-! Losses and returns of the supplies (22, R459, R463 to R466, R470) and the events of energy attribution (20, R421 to R435). -/

namespace Sys2Proof.Machine

section
variable {s : State}

/-! ### Supplies -/

theorem auxGone_bits (s : State) : (auxGone s).bit Reg.PWR_DOMAIN 0 = false ∧ (auxGone s).bit Reg.HLD_STATUS 1 = false ∧
    (auxGone s).bit Reg.PWR_DOMAIN 1 = s.bit Reg.PWR_DOMAIN 1 ∧ (auxGone s).bit Reg.PWR_DOMAIN 2 = s.bit Reg.PWR_DOMAIN 1 := by
  refine ⟨?_, ?_, ?_, State.bit_setBit_same _ _ _ (by decide)⟩
  · rw [auxGone, State.bit_setBit_other _ _ _ (by decide) (by decide), State.bit_setBit_ne _ (by decide)]
    exact State.bit_setBit_same _ _ _ (by decide)
  · rw [auxGone, State.bit_setBit_ne _ (by decide)]
    exact State.bit_setBit_same _ _ _ (by decide)
  · rw [auxGone, State.bit_setBit_other _ _ _ (by decide) (by decide), State.bit_setBit_ne _ (by decide),
      State.bit_setBit_other _ _ _ (by decide) (by decide)]

/-- A supply that returns during the panel's last update or the banner is noted in the record of the loss (R470), and otherwise
changes nothing. -/
theorem supplyBack_cases (s : State) :
    supplyBack s = lastFlag 3 true s ∨ (supplyBack s = s ∧ s.hld.ph ≠ .panel ∧ s.hld.ph ≠ .banner) := by
  cases h : s.hld.ph <;> simp [supplyBack, h]

/-- The note in the record leaves every other register as it is. -/
theorem bit_supplyBack_ne (s : State) {a : Nat} (h : a ≠ Reg.HLD_LAST 5) (i : Nat) : (supplyBack s).bit a i = s.bit a i := by
  rcases supplyBack_cases s with hback | ⟨hback, _⟩
  · rw [hback]
    exact State.bit_setBit_ne s h ..
  · rw [hback]

theorem noted_supplyBack (s : State) (h : s.hld.ph = .panel ∨ s.hld.ph = .banner) : (supplyBack s).bit (Reg.HLD_LAST 5) 3 = true := by
  rcases supplyBack_cases s with hback | ⟨_, hpanel, hbanner⟩
  · rw [hback]
    exact State.bit_setBit_same s _ _ (by decide)
  · exact absurd h (by simp [hpanel, hbanner])

theorem mainLoss_of_absent (h : s.bit Reg.PWR_DOMAIN 1 = false) : exec .mainLoss s = .next s := if_pos (bnot_of_false h)

theorem mainLoss_of_present (h : s.bit Reg.PWR_DOMAIN 1 = true) : exec .mainLoss s =
    .next (if (mainSequence (lastLoss 1 0 (mainGone s))).bit Reg.PWR_DOMAIN 0 then mainSequence (lastLoss 1 0 (mainGone s))
      else lodgeLoss (mainSequence (lastLoss 1 0 (mainGone s)))) := if_neg (not_bnot_of_true h)

/-! ### Attribution -/

theorem reconcileTick_of_whole_second (htime : s.tb % 1000000 = 0) (hrun : inRun s = true) : exec .reconcileTick s =
    .next (showCap (commitPart (if s.nrg.fresh then nextSecond { s with nrg := { s.nrg with fresh := false } } else reconcile s)
      Reg.NRG_COMMIT notPeriod)) := if_neg (by simp [htime, hrun])

theorem overheadRound_of_manager (hmanages : manages s 0 = true) (htime : 1000000 ≤ s.tb) : exec .overheadRound s =
    match overheadOf s (s.tb / 1000000 - 1) with
    | none => .next s
    | some (r, neg) => .next (applyOverhead ((s.tb / 1000000 - 1) % 2 ^ 32) r
        { (if neg then s.bump Reg.NRG_OVH_NEG else s) with nrg := { s.nrg with ratio := some (s.tb / 1000000 - 1, r) } }) := by
  have hgoing : ¬ ((!manages s 0) = true ∨ s.tb < 1000000) := by simp [hmanages, htime]
  rw [exec_overheadRound, execOverheadRound, if_neg hgoing]
  cases h : overheadOf s (s.tb / 1000000 - 1) with
  | none => simp only [h]
  | some x =>
    obtain ⟨r, neg⟩ := x
    simp only [h]
    cases neg <;> rfl

end

/-- Settles O41: a supply event by which supplies are left, and an event of attribution by whether its time has come. -/
theorem supplyLossAndEnergyEvents : Obligations.SupplyLossAndEnergyEvents := by
  unfold Obligations.SupplyLossAndEnergyEvents
  refine ⟨?mainNot, ?main, ?aux, ?lodge, ?auxReturn, ?powerUp, ?powerUpNot, ?refresh, ?storeCheck, ?reconcileNot, ?reconcile,
    ?periodNot, ?period, ?overheadNot, ?overheadNone, ?overhead, ?miss, ?missNot, ?commitRefused, ?commit, ?read⟩
  case mainNot => exact fun s h => mainLoss_of_absent h
  case main =>
    intro s u h hu
    rw [hu, mainLoss_of_present h]
  case aux =>
    intro s
    rw [exec_auxLoss, execAuxLoss]
    exact ⟨rfl, auxGone_bits s⟩
  case lodge =>
    intro s
    rw [exec_lodgeLoss, execLodgeLoss]
  case auxReturn =>
    intro s
    refine ⟨_, rfl, ?_, ?_, ?_, fun h => noted_supplyBack _ h⟩
    · rw [bit_supplyBack_ne _ (by decide), State.bit_setBit_other _ _ _ (by decide) (by decide), State.bit_setBit_ne _ (by decide)]
      exact State.bit_setBit_same _ _ _ (by decide)
    · rw [bit_supplyBack_ne _ (by decide), State.bit_setBit_ne _ (by decide)]
      exact State.bit_setBit_same _ _ _ (by decide)
    · rw [bit_supplyBack_ne _ (by decide)]
      exact State.bit_setBit_same _ _ _ (by decide)
  case powerUp => exact fun a m s hoff hsupply => next_of_eq (if_pos (by simpa [hoff] using hsupply))
  case powerUpNot =>
    intro a m s h
    refine next_of_eq (if_neg ?_)
    rcases h with hon | ⟨haux, hmain⟩
    · simp [hon]
    · simp [haux, hmain]
  case refresh => exact fun s => rfl
  case storeCheck => exact fun ok s => ⟨_, rfl, State.bit_setBit_same _ _ _ (by decide)⟩
  case reconcileNot => exact fun s h => if_pos (by simpa using h)
  case reconcile => exact fun s htime hrun => reconcileTick_of_whole_second htime hrun
  case periodNot => exact fun s h => if_pos (h.imp_left (fun h0 => by rw [h0, Nat.zero_mul]))
  case period =>
    intro s u hset htime hu
    have hdue : ¬ (s.rdN Reg.NRG_PERIOD_S * 1000000 = 0 ∨ s.tb % (s.rdN Reg.NRG_PERIOD_S * 1000000) ≠ 0) := by omega
    have hseq : ∀ old, (notePst u Reg.NRG_PERIOD_SEQ old).rdN Reg.NRG_PERIOD_SEQ = u.rdN Reg.NRG_PERIOD_SEQ :=
      fun old => congrArg BitVec.toNat (rd_notePst ..)
    rw [exec_accountingPeriodBoundary, execAccountingPeriodBoundary, if_neg hdue, hseq, hu]
  case overheadNot => exact fun s h => if_pos (by simpa using h)
  case overheadNone =>
    intro s hmanages htime hnone
    rw [overheadRound_of_manager hmanages htime, hnone]
  case overhead =>
    intro s r neg hmanages htime hsome
    rw [overheadRound_of_manager hmanages htime, hsome]
  case miss => exact fun sec s hwait htime => if_pos (by rw [hwait, decide_eq_true htime]; rfl)
  case missNot =>
    intro sec s h
    refine if_neg ?_
    rcases h with h | h
    · simp [h]
    · simp [Nat.not_le.mpr h]
  case commitRefused => exact fun s h => if_pos h
  case commit => exact fun s h => if_neg (Nat.not_lt.mpr h)
  case read =>
    intro f win rq slot s hf hslot
    rw [exec_twNrgSeqRead, execTwNrgSeqRead, onWindow, onUnit_next (decide_eq_true hf), hslot]

end Sys2Proof.Machine
end

section
/-! Errors of HBM, lanes and flash (24, R488 to R491, Tables FLT-1 and FLT-2; 14, R300). -/

namespace Sys2Proof.Machine

section
variable {s : State}

/-! ### HBM (R488, R489) -/

theorem hbmCorrected_of_retired {p row : Nat} (h : s.flt.retired.contains (0, p) = true) :
    hbmCorrected p row s = (s.bump Reg.FLT_HBM_CE).bump Reg.FLT_UNIT_FAULTS := if_pos h

theorem hbmCorrected_of_live {p row : Nat} {u : State} (h : s.flt.retired.contains (0, p) = false)
    (hu : u = { ((s.bump Reg.FLT_HBM_CE).bump Reg.FLT_UNIT_FAULTS) with flt := { s.flt with
      corrections := (p, row, s.tb) :: s.flt.corrections.filter (fun c => within s hour c.2.2) } }) :
    hbmCorrected p row s = if 8 ≤ correctedIn u p row then needRepair p row u else u := by
  subst hu
  exact if_neg (ne_true_of_false h)

/-- Queueing a record changes the queue and the records that wait for it, and no other fault record. -/
theorem flt_ledgerAdd (r : LedgerRec) (s : State) : ∃ q l, (ledgerAdd r s).flt = { s.flt with queue := q, late := l } := by
  simp only [ledgerAdd]
  split
  · exact ⟨_, _, rfl⟩
  · split
    · exact ⟨_, _, rfl⟩
    · split
      · exact ⟨_, _, rfl⟩
      · exact ⟨_, _, rfl⟩

/-- The end of a repair under way (R488): its record goes to the ledger, and a fifth in 24 h retires the pseudo-channel. -/
theorem repairDone_of_repairing {p row : Nat} (h : s.flt.repairing.contains (p, row) = true) :
    ∃ u ev, repairDone p row s = (if 5 ≤ repairsIn u p then retire 0 p 2 ev u else u) ∧
      u.flt.repairing = s.flt.repairing.filter (· != (p, row)) ∧ u.flt.repaired = (p, row, s.tb) :: s.flt.repaired ∧
      mgetD u.flt.sparesUsed 0 p = mgetD s.flt.sparesUsed 0 p + 1 := by
  refine ⟨_, _, if_neg (not_bnot_of_true h), ?_⟩
  obtain ⟨q, l, hflt⟩ := flt_ledgerAdd _ _
  rw [hflt]
  exact ⟨rfl, rfl, by simp only [mgetD, mget_mput_same, Option.getD_some]⟩

/-! ### Lanes (R491) -/

theorem laneSerInterval_of_out {l n : Nat} (hl : l < 144) (h : s.fitted (l / 8) = false ∨ s.flt.retired.contains (1, l) = true) :
    exec (.laneSerInterval l n) s = .next s := by
  rw [exec_laneSerInterval, execLaneSerInterval, onUnit_next (decide_eq_true hl)]
  refine next_of_eq (if_neg ?_)
  rcases h with h | h
  · rw [h, Bool.false_and]
    exact Bool.false_ne_true
  · rw [h, Bool.not_true, Bool.and_false]
    exact Bool.false_ne_true

/-- The lane's name in a failure of its port: the count of failures in a row that named it, and with two its retirement. -/
theorem laneNamed_step (named : Bool) (l : Nat) (s : State) :
    (let n := if named then mgetD s.flt.laneNamed 0 l + 1 else 0
      let s := { s with flt := { s.flt with laneNamed := if n = 0 then mdel s.flt.laneNamed l else mput s.flt.laneNamed l n } }
      if 2 ≤ n then retireLane l 2 s else s) =
    (fun s : State => if 2 ≤ (if named then mgetD s.flt.laneNamed 0 l else 0) then retireLane l 2 s else s)
      { s with flt := { s.flt with laneNamed :=
        if named = true then (mput s.flt.laneNamed l (mgetD s.flt.laneNamed 0 l + 1)) else mdel s.flt.laneNamed l } } := by
  cases named with
  | false => rfl
  | true => simp only [if_true, Nat.add_one_ne_zero, if_false, mgetD, mget_mput_same, Option.getD_some]

end

/-- Settles O38, each command by the lemma of the case it is in. -/
theorem memoryAndLaneFaults : Obligations.MemoryAndLaneFaults := by
  unfold Obligations.MemoryAndLaneFaults
  refine ⟨?correctedRetired, ?corrected, ?need, ?repairNot, ?repair, ?uncorrectedRetired, ?uncorrected, ?laneOut, ?lane, ?retrain,
    ?flashNot, ?flash⟩
  case correctedRetired =>
    intro p row s hp h
    rw [exec_hbmCorrectedError, execHbmCorrectedError, onUnit_next (decide_eq_true hp), hbmCorrected_of_retired h]
  case corrected =>
    intro p row s u hp h hu
    rw [exec_hbmCorrectedError, execHbmCorrectedError, onUnit_next (decide_eq_true hp), hbmCorrected_of_live h hu]
  case need => exact fun p row s h => if_neg (ne_true_of_false h)
  case repairNot =>
    intro p row s hp h
    rw [exec_rowRepairComplete, execRowRepairComplete, onUnit_next (decide_eq_true hp)]
    exact next_of_eq (if_pos (bnot_of_false h))
  case repair =>
    intro p row s hp h
    obtain ⟨u, ev, hdone, hkept⟩ := repairDone_of_repairing h
    refine ⟨u, ev, ?_, hkept⟩
    rw [exec_rowRepairComplete, execRowRepairComplete, onUnit_next (decide_eq_true hp), hdone]
  case uncorrectedRetired =>
    intro p row slot obj page s u hp hu h
    rw [exec_hbmUncorrectedError, execHbmUncorrectedError, onUnit_next (decide_eq_true hp), hbmUncorrected, ← hu, if_pos h]
  case uncorrected =>
    intro p row slot obj page s u v hp hu h hv
    rw [exec_hbmUncorrectedError, execHbmUncorrectedError, onUnit_next (decide_eq_true hp), hbmUncorrected, ← hu,
      if_neg (ne_true_of_false h), ← hv]
  case laneOut => exact fun l n s hl h => laneSerInterval_of_out hl h
  case lane =>
    intro l n s u hl hfit hlive hu
    subst hu
    refine ⟨_, ?_, rfl⟩
    rw [exec_laneSerInterval, execLaneSerInterval, onUnit_next (decide_eq_true hl)]
    exact next_of_eq (if_pos (by rw [hfit, hlive]; rfl))
  case retrain =>
    intro p a b s hp hfit hst
    refine ⟨_, rfl, ?_⟩
    have hin : (s.fitted p && [2, 6].contains (s.portState p)) = true := by rcases hst with h | h <;> simp [hfit, h]
    rw [exec_portRetrainTimeout, execPortRetrainTimeout, onPort, onUnit_next (decide_eq_true hp), if_pos hin]
    exact next_of_eq (congrArg (fun f => List.foldl f _ _) (funext fun t => funext fun k => laneNamed_step _ _ t))
  case flashNot =>
    intro id s m hm h
    simp only [exec_flashOpTimeout, execFlashOpTimeout, hm]
    exact next_of_eq (if_pos h)
  case flash =>
    intro id s m hm hflash hold
    simp only [exec_flashOpTimeout, execFlashOpTimeout, hm]
    exact next_of_eq (if_neg (by omega))

end Sys2Proof.Machine
end

section
/-! Faults of units and hub dies, tests, the in-service test and the ledger (24, R492 to R505, Tables FLT-3 to FLT-8). -/

namespace Sys2Proof.Machine

section
variable {s : State}

/-! ### Faults of units (R492, R493) -/

theorem unitFault_of_counted {ty i : Nat} (hi : i < fltCount ty) (hty : (3 ≤ ty ∧ ty ≤ 6) ∨ ty = 11 ∨ ty = 12) (blk : Nat) (lost : Bool)
    (slot obj page : Nat) : exec (.unitFault ty i blk lost slot obj page) s = .next (
      if ty = 11 then terraceFault i s
      else if ty = 12 then (if s.fitted (6 * i) then pergolaFault i s else s)
      else if ty = 6 then blockFault i blk lost (if lost then poisonPage slot obj page s else s)
      else coreFault ty i s) :=
  onUnit_next (decide_eq_true ⟨hi, hty⟩)

/-- A fault of a unit in service: a reset, with the second in 24 h a test, and the third is permanent. -/
theorem coreFault_of_live {ty i : Nat} (h : s.flt.retired.contains (ty, i) = false) : coreFault ty i s =
    if 3 ≤ (faultsOf (noteFault ty i s) ty i).length then
      fillQuarantine ty (retire ty i 2 (unitEvidence (noteFault ty i s) ty i 0xFFFF) (noteFault ty i s))
    else if (faultsOf (noteFault ty i s) ty i).length = 2 then quarantine ty i (resetUnit (resetType ty) i (noteFault ty i s))
    else resetUnit (resetType ty) i (noteFault ty i s) :=
  if_neg (ne_true_of_false h)

theorem hubDieFault_of_die {src : Nat} (hsrc : src < 16) (hcore : src ≠ 0xE) (flight : Option Nat) :
    exec (.hubDieFault src flight none none) s = .next (hubFault src ⟨0x40, blockRes src, 0⟩
      (match flight with | some f => finish f ⟨0x40, blockRes src, 0⟩ 0 s | none => s)) := by
  refine (onUnit_next (decide_eq_true hsrc)).trans (next_of_eq ((if_neg hcore).trans ?_))
  cases flight <;> rfl

/-! ### The ledger (R498, R499) -/

theorem ledgerProgram_of_waiting (h : s.flt.queue = [] ∨ s.flt.ldgFailAt.isSome = true ∨ ledgerWaits s = true) (ok : Bool) :
    exec (.ledgerProgramComplete ok) s = .next s := if_pos (h.imp_left (fun h => by rw [h]; rfl))

theorem ledgerProgram_of_begun (hqueue : s.flt.queue ≠ []) (hfail : s.flt.ldgFailAt = none) (hport : ledgerWaits s = false) (ok : Bool) :
    exec (.ledgerProgramComplete ok) s = if ok then .next (recordTold ((programHead s).setBit Reg.FLT_STATUS 1 false))
      else .next { (s.setBit Reg.FLT_STATUS 1 true) with flt := { s.flt with ldgFailAt := some s.tb } } :=
  if_neg (by simp [hqueue, hfail, hport])

/-! ### Tests (R500 to R504) -/

theorem sliceStart_of_idle {ty i : Nat} (hlive : s.flt.retired.contains (ty, i) = false)
    (hquar : s.flt.quarantined.contains (ty, i) = false) (hslice : mget s.flt.slices (testKey ty i) = none)
    (hidle : unitIdle s ty i = true) (hen : s.bit Reg.IST_CTRL 0 = true) :
    sliceStart ty i false s = { s with flt := { s.flt with slices := mput s.flt.slices (testKey ty i) s.tb } } := by
  refine (if_neg ?_).trans (if_neg Bool.false_ne_true)
  rw [hlive, hquar, hslice, hidle, if_neg Bool.false_ne_true, hen]
  decide

theorem sliceStart_of_busy {ty i : Nat} (h : unitIdle s ty i = false ∨ s.bit Reg.IST_CTRL 0 = false) :
    sliceStart ty i false s = s := by
  refine if_pos ?_
  rw [if_neg Bool.false_ne_true]
  rcases h with h | h
  · rw [h, Bool.not_false, Bool.or_true, Bool.true_or]
  · rw [h, Bool.not_false, Bool.or_true]

theorem laneEyeCheck_of_weak {l m t : Nat} (hl : l < 144) (hfit : s.fitted (l / 8) = true) (hlive : s.flt.retired.contains (1, l) = false)
    (hweak : 2 * m < t) {u : State} (hu : u = s.bump Reg.IST_LANE_MARGIN) : exec (.laneEyeCheck l m t) s =
      .next (retrainWeak { u with flt := { u.flt with
        weak := if u.flt.weak.contains (l / 8) then u.flt.weak else u.flt.weak ++ [l / 8] } }) := by
  subst hu
  rw [exec_laneEyeCheck, execLaneEyeCheck, onUnit_next (decide_eq_true hl)]
  exact next_of_eq (if_pos (by rw [hfit, hlive, decide_eq_true hweak]; rfl))

theorem laneEyeCheck_of_good {l m t : Nat} (hl : l < 144) (hgood : t ≤ 2 * m) : exec (.laneEyeCheck l m t) s = .next s := by
  rw [exec_laneEyeCheck, execLaneEyeCheck, onUnit_next (decide_eq_true hl)]
  refine next_of_eq (if_neg ?_)
  rw [decide_eq_false (Nat.not_lt.mpr hgood), Bool.and_false]
  exact Bool.false_ne_true

/-! ### Selections (R505) -/

theorem flt_foldl_putN (reg : Nat → Nat) (l : List (Nat × Nat)) (s : State) :
    (l.foldl (fun s x => s.putN (reg x.2) x.1) s).flt = s.flt := by
  induction l generalizing s with
  | nil => rfl
  | cons x l ih => exact ih _

theorem fltLdgSelWrite_of_record {i : Nat} {r : LedgerRec} (hr : s.flt.nor.find? (fun r => r.index == i) = some r) :
    exec (.fltLdgSelWrite i) s = .next ((r.words.map (·.toNat)).zipIdx.foldl (fun s x => s.putN (Reg.FLT_LDG_DATA x.2) x.1)
      ((s.putN Reg.FLT_LDG_SEL (i % 2 ^ 32)).putN Reg.FLT_LDG_STATUS (1 + 2 * s.flt.nor.length))) := by
  have hflt : (s.putN Reg.FLT_LDG_SEL (i % 2 ^ 32)).flt = s.flt := rfl
  simp only [exec_fltLdgSelWrite, execFltLdgSelWrite, hflt, hr]

theorem fltLdgSelWrite_of_none {i : Nat} (hr : s.flt.nor.find? (fun r => r.index == i) = none) :
    exec (.fltLdgSelWrite i) s = .next ((List.replicate 16 0).zipIdx.foldl (fun s x => s.putN (Reg.FLT_LDG_DATA x.2) x.1)
      ((s.putN Reg.FLT_LDG_SEL (i % 2 ^ 32)).putN Reg.FLT_LDG_STATUS 0)) := by
  have hflt : (s.putN Reg.FLT_LDG_SEL (i % 2 ^ 32)).flt = s.flt := rfl
  simp only [exec_fltLdgSelWrite, execFltLdgSelWrite, hflt, hr]

/-- The data registers lie apart from the status. -/
theorem rdN_status_foldl (l : List (Nat × Nat)) (s : State) :
    (l.foldl (fun s x => s.putN (Reg.FLT_LDG_DATA x.2) x.1) s).rdN Reg.FLT_LDG_STATUS = s.rdN Reg.FLT_LDG_STATUS :=
  rdN_foldl_putN_ne (reg := Reg.FLT_LDG_DATA) (fun j => by simp only [Reg.FLT_LDG_STATUS, Reg.FLT_LDG_DATA]; omega) l s

end

/-- Settles O39: a fault by the type of its unit, and every other command by the lemma of the case it is in. -/
theorem unitFaultsTestsAndLedger : Obligations.UnitFaultsTestsAndLedger := by
  unfold Obligations.UnitFaultsTestsAndLedger
  refine ⟨?core, ?coreFault, ?block, ?terrace, ?pergola, ?test, ?testNot, ?hubCore, ?hub, ?hubFlight, ?ledgerNot, ?ledger, ?retry,
    ?slice, ?sliceNot, ?sliceEnd, ?patrolOff, ?patrol, ?eye, ?eyeGood, ?selNone, ?sel, ?record, ?recordNone⟩
  case core =>
    intro ty i blk lost slot obj page s ⟨hlow, hhigh, hi⟩
    rw [unitFault_of_counted hi (.inl ⟨hlow, by omega⟩), if_neg (by omega), if_neg (by omega), if_neg (by omega)]
  case coreFault =>
    intro ty i s u hlive hu
    rw [hu, coreFault_of_live hlive]
  case block => exact fun i blk lost slot obj page s hi => unitFault_of_counted hi (.inl (by decide)) blk lost slot obj page
  case terrace => exact fun i blk lost slot obj page s hi => unitFault_of_counted hi (.inr (.inl rfl)) blk lost slot obj page
  case pergola => exact fun i blk lost slot obj page s hi => unitFault_of_counted hi (.inr (.inr rfl)) blk lost slot obj page
  case test => exact fun ty i ok s h => onUnit_next (decide_eq_true h)
  case testNot => exact fun ty i ok s h => if_pos (bnot_of_false h)
  case hubCore => exact fun f c p s => rfl
  case hub => exact fun src s hsrc hcore => hubDieFault_of_die hsrc hcore none
  case hubFlight => exact fun src f s hsrc hcore => hubDieFault_of_die hsrc hcore (some f)
  case ledgerNot => exact fun ok s h => ledgerProgram_of_waiting h ok
  case ledger => exact fun s hqueue hfail hport => ⟨ledgerProgram_of_begun hqueue hfail hport true, ledgerProgram_of_begun hqueue hfail hport false⟩
  case retry =>
    intro s t h
    simp only [exec_ledgerRetryTick, execLedgerRetryTick, h]
  case slice =>
    intro ty i s h hlive hquar hslice hidle hen
    rw [exec_istSliceStart, execIstSliceStart, onUnit_next (decide_eq_true h), sliceStart_of_idle hlive hquar hslice hidle hen]
  case sliceNot =>
    intro ty i s h hbusy
    rw [exec_istSliceStart, execIstSliceStart, onUnit_next (decide_eq_true h), sliceStart_of_busy hbusy]
  case sliceEnd =>
    intro ty i f s u h hu
    rw [exec_istSliceEnd, execIstSliceEnd, onUnit_next (decide_eq_true h), hu]
  case patrolOff => exact fun c s h => if_pos (bnot_of_false h)
  case patrol =>
    intro p row s hen hp
    exact ⟨if_neg (not_bnot_of_true hen), (if_neg (not_bnot_of_true hen)).trans (onUnit_next (decide_eq_true hp))⟩
  case eye => exact fun l m t s u hl hfit hlive hweak hu => laneEyeCheck_of_weak hl hfit hlive hweak hu
  case eyeGood => exact fun l m t s hl hgood => laneEyeCheck_of_good hl hgood
  case selNone =>
    intro ty i s h
    rw [exec_fltUnitSelWrite, execFltUnitSelWrite, if_pos h]
  case sel =>
    intro ty i s u hty hi hu
    have hcounted : ¬ (11 ≤ ty ∨ fltCount ty ≤ i) := by omega
    rw [exec_fltUnitSelWrite, execFltUnitSelWrite, if_neg hcounted, hu]
    simp only [if_neg (show ¬ ty = 0 by omega), Nat.mul_zero, Nat.add_zero]
    rfl
  case record =>
    intro i s r hr
    refine ⟨_, fltLdgSelWrite_of_record hr, ?_, flt_foldl_putN Reg.FLT_LDG_DATA _ _⟩
    rw [rdN_status_foldl, State.rdN_putN, if_pos rfl]
  case recordNone =>
    intro i s hr
    refine ⟨_, fltLdgSelWrite_of_none hr, ?_, fun k hk => ?_⟩
    · rw [rdN_status_foldl, State.rdN_putN_same _ _ (by decide)]
    · rw [rdN_foldl_putN (reg := Reg.FLT_LDG_DATA) (fun _ _ h => by simpa using h), List.length_replicate, if_pos (by omega),
        List.getD_replicate _ (by omega), Nat.zero_mod]

end Sys2Proof.Machine
end

section
/-! Straps, the I3C sideband and the scans of the service port (25, R510 to R523; 27, R548 to R550). -/

namespace Sys2Proof.Machine

/-! ### What power and a probe decide -/

theorem powered_of_on {s : State} (h : s.hld.ph ≠ .off) (f : State → State) : powered f s = .next (f s) := next_of_eq (if_neg h)

theorem scanned_of_absent {s : State} (h : s.tap.present = false) (f : State → State) : scanned f s = .next s := by
  rw [scanned, powered, if_neg (ne_true_of_false h), ite_self]

theorem scanned_of_present {s : State} (hon : s.hld.ph ≠ .off) (h : s.tap.present = true) (f : State → State) :
    scanned f s = .next (f s) :=
  (powered_of_on hon _).trans (next_of_eq (if_pos h))

/-! ### Straps (R510 to R512) -/

theorem sampleElig_of_change {e : Bool} {u : State} (h : u.rst.elig ≠ e) :
    sampleElig e u = { u with rst := { u.rst with elig := e } } := by
  have hne : (u.rst.elig == e) = false := by simpa using h
  simp only [sampleElig, hne, Bool.false_and, Bool.false_eq_true, if_false]

theorem sampleElig_of_kept {e : Bool} {u : State} (h : u.rst.elig = e) (hbit : u.bit Reg.LDG_STRAP 6 = e) : sampleElig e u = u := by
  subst h
  exact if_neg (by
    have hsame : ({ u with rst := { u.rst with elig := u.rst.elig } } : State).bit Reg.LDG_STRAP 6 = u.rst.elig := hbit
    simp [hsame])

theorem sampleSlot_of_change {st : Nat} {s : State} (h : st ≠ s.rst.straps) :
    (sampleSlot st s).rst.straps = st ∧ (sampleSlot st s).bit Reg.LDG_STRAP 15 = true := by
  rw [sampleSlot, if_neg h]
  refine ⟨?_, ?_⟩
  · rw [State.logRec]
    split <;> rfl
  · rw [State.bit_logRec_ne _ (by decide)]
    exact State.bit_setBit_same _ _ _ (by decide)

/-! ### The sideband (R513 to R515) -/

theorem rdN_writeLocation (v : Word) (s : State) : (writeLocation v s).rdN Reg.LDG_LOCATION = (v &&& 0x87FF).toNat :=
  State.rdN_putN_same _ _ (Nat.lt_trans (v &&& 0x87FF).isLt (by decide))

theorem addressWrite_of_read (a b c : Byte) {d : Byte} (h : d.toNat < 128) (s : State) : addressWrite [a, b, c, d] s =
    { s with sb := { s.sb with addr := some ((a.toNat + 256 * b.toNat + 65536 * c.toNat) / 4 * 4, d.toNat % 16 + 1) } } := by
  have hlen : ¬ [a, b, c, d].length < 4 := Nat.lt_irrefl 4
  have hread : ¬ 128 ≤ ([a, b, c, d].getD 3 0).toNat := Nat.not_le.mpr h
  rw [addressWrite, if_neg hlen, if_neg hread]
  rfl

theorem sidebandRead_of_none {s : State} (h : s.sb.addr = none) (n : Nat) :
    sidebandRead n s = s.emit (.serial sbReq (List.replicate n 0xFF)) := by
  have hsame : ({ s with sb := { s.sb with addr := none } } : State) = s := by rw [← h]
  simp [sidebandRead, h, sbSend, hsame]

theorem takeAddr_of_none {s : State} (h : s.sb.dyn = none) (d : Nat) : takeAddr d s = { s with sb := { s.sb with dyn := some d } } :=
  if_neg (by simp [h])

theorem takeAddr_of_some {s : State} (h : s.sb.dyn.isSome = true) (d : Nat) : takeAddr d s = s := if_pos h

theorem ccRead_of_some {s : State} (hon : s.hld.ph ≠ .off) (h : s.sb.dyn.isSome = true) (l : List Nat) :
    ccRead l s = .next (s.emit (.serial 32 l)) :=
  (powered_of_on hon _).trans (next_of_eq (if_pos h))

theorem ccRead_of_none {s : State} (hon : s.hld.ph ≠ .off) (h : s.sb.dyn = none) (l : List Nat) : ccRead l s = .next s :=
  (powered_of_on hon _).trans (next_of_eq (if_neg (by simp [h])))

/-! ### Scans (R521, R522, Table CON-12) -/

theorem boundary_of_bypass {p : Bool} {s : State} (h : p = false ∨ (mainUp s = true ∧ unlocked s = false)) (drive : Bool)
    (dn : List Bool) : boundary drive p dn s = bypass p dn s := by
  rcases h with rfl | ⟨hmain, hlocked⟩
  · rfl
  · rw [boundary, hmain, hlocked, Bool.not_true, Bool.and_false, Bool.not_false, Bool.or_true, if_neg Bool.false_ne_true, if_pos rfl]

theorem boundary_of_unlocked {s : State} (hmain : mainUp s = true) (hopen : unlocked s = true) (drive : Bool) (dn : List Bool) :
    boundary drive true dn s = tdo (bitList dn.length s.draw.1) { s.draw.2 with tap := { s.draw.2.tap with
      cells := dn, drives := drive } } := by
  rw [boundary, hmain, hopen, Bool.not_true, Bool.and_false, Bool.or_false, if_neg Bool.false_ne_true, if_neg Bool.false_ne_true]

theorem boundary_of_down {s : State} (hmain : mainUp s = false) (drive : Bool) (dn : List Bool) : boundary drive true dn s = s :=
  if_pos (by rw [hmain]; rfl)

theorem length_bitList (n x : Nat) : (bitList n x).length = n := by simp [bitList]

theorem regacc_of_denied {w : DWord} {s : State} (hlocked : unlocked s = false)
    (h : servedInSafe (bits w.toNat 0 26 / 4 * 4) = false) : regacc w s =
      State.emit { s with tap := { s.tap with capture := 0x30000000 } } (.serial 33 ((bitList 64 s.tap.capture.toNat).map b2n)) := by
  have hlocked' : unlocked (tdo (bitList 64 s.tap.capture.toNat) s) = false := hlocked
  simp only [regacc, hlocked', h, Bool.not_false, Bool.and_self, Bool.true_or, if_true]
  rfl

theorem regacc_of_unlocked {w : DWord} {s u : State} {x : Word} (hopen : unlocked s = true) (hmain : mainUp s = true)
    (h : svcAccess (bits w.toNat 0 26 / 4 * 4) (w.getLsbD 26) (w.extractLsb' 32 32) (tdo (bitList 64 s.tap.capture.toNat) s) = (x, u)) :
    regacc w s = { u with tap := { u.tap with capture := BitVec.ofNat 64 (0x10000000 + 2 ^ 32 * x.toNat) } } := by
  have hopen' : unlocked (tdo (bitList 64 s.tap.capture.toNat) s) = true := hopen
  have hmain' : mainUp (tdo (bitList 64 s.tap.capture.toNat) s) = true := hmain
  simp only [regacc, hopen', hmain', Bool.not_true, Bool.false_and, Bool.or_false, Bool.false_eq_true, if_false, h]
  rfl

/-! ### UNLOCK (R523) -/

theorem unlock_of_empty {n : Nat} {s : State} (h : s.tap.nonce = some n) : unlock [] s =
    tdo (bitList 256 n ++ bitList 32 (s.rdN Reg.DEV_BUILD) ++ bitList 32 (s.rdN Reg.DEV_REV)) s := by
  have hsame : ({ s with tap := { s.tap with nonce := some n } } : State) = s := by rw [← h]
  simp only [unlock, h, hsame]
  rfl

/-- A scan with a signature spends the nonce, and unlocks the sled when it is in STANDBY or SAFE and the signature checks. -/
theorem unlock_of_signature {n : Nat} {sg : List Byte} {s : State} (h : s.tap.nonce = some n) (hsg : sg ≠ []) :
    (unlock sg s).tap.nonce = none ∧ unlocked (unlock sg s) =
      ((s.rdN Reg.PWR_STATE == 1 || s.rdN Reg.PWR_STATE == 5) &&
        Config.debugSignature n (s.rdN Reg.DEV_BUILD) (s.rdN Reg.DEV_REV) sg || unlocked s) := by
  have hne : sg.isEmpty = false := by simpa using hsg
  simp only [unlock, h, hne, Bool.false_eq_true, if_false]
  split
  case isTrue hgood =>
    refine ⟨?_, ?_⟩
    · rw [State.logRec]
      split <;> rfl
    · rw [unlocked, State.bit_logRec_ne _ (by decide), State.bit_setBit_same _ _ _ (by decide)]
      exact (Bool.or_eq_true_iff.mpr (.inl hgood)).symm
  case isFalse hbad => 
    exact ⟨rfl, (Bool.or_eq_right_iff_imp.mpr (fun h => absurd h hbad)).symm⟩

/-- Settles O60: each command by whether the Lodge die has power and a probe is present, then by what it finds there. -/
theorem sidebandAndServicePort : Obligations.SidebandAndServicePort := by
  unfold Obligations.SidebandAndServicePort
  refine ⟨?off, ?absent, ?eligOnce, ?eligKept, ?slot, ?location, ?addressShort, ?addressRead, ?readNone, ?setdasa, ?setdasaNot, ?setaasa,
    ?entdaa, ?addressed, ?rstdaa, ?getNone, ?get, ?getstatus, ?plug, ?unplug, ?bypassLodge, ?bypassPackage, ?chainless, ?idcode, ?scanBypass,
    ?extest, ?sample, ?regaccDenied, ?regacc, ?unlockRead, ?unlockNot, ?unlock⟩
  case off =>
    intro st a d n e cb v bs dn dw s c hc hoff
    simp only [List.mem_cons, List.not_mem_nil, or_false] at hc
    rcases hc with rfl | rfl | rfl | rfl | rfl | rfl | rfl | rfl | rfl | rfl | rfl | rfl | rfl | rfl | rfl | rfl | rfl | rfl | rfl <;>
      exact next_of_eq (if_pos hoff)
  case absent =>
    intro e bs dn dw s c hc habsent
    simp only [List.mem_cons, List.not_mem_nil, or_false] at hc
    rcases hc with rfl | rfl | rfl | rfl | rfl | rfl
    · rw [exec_bypass, execBypass, scanned_of_absent habsent]
    · rw [exec_idcode, execIdcode, scanned_of_absent habsent]
    · rw [exec_extest, execExtest, scanned_of_absent habsent]
    · rw [exec_samplePreload, execSamplePreload, scanned_of_absent habsent]
    · rw [exec_regacc, execRegacc, scanned_of_absent habsent]
    · rw [exec_unlock, execUnlock, scanned_of_absent habsent]
  case eligOnce =>
    intro st e cb s u hon hu helig
    rw [exec_strapSample, execStrapSample, powered_of_on hon, ← hu, sampleElig_of_change helig]
  case eligKept =>
    intro st e cb s u hon hu helig hbit
    rw [exec_strapSample, execStrapSample, powered_of_on hon, ← hu, sampleElig_of_kept helig hbit]
  case slot => exact fun st s => sampleSlot_of_change
  case location => exact fun v s hon => ⟨_, powered_of_on hon _, rdN_writeLocation v s⟩
  case addressShort => exact fun bs s hon hshort => (powered_of_on hon _).trans (next_of_eq (if_pos hshort))
  case addressRead => exact fun a b c d s hon hd => (powered_of_on hon _).trans (next_of_eq (addressWrite_of_read a b c hd s))
  case readNone => exact fun n s hon hnone => (powered_of_on hon _).trans (next_of_eq (sidebandRead_of_none hnone n))
  case setdasa =>
    exact fun a d s hon ha hdyn => (powered_of_on hon _).trans (next_of_eq ((if_pos ha).trans (takeAddr_of_none hdyn d)))
  case setdasaNot =>
    intro a d s hon hother
    refine (powered_of_on hon _).trans (next_of_eq ?_)
    by_cases ha : a = s.fld Reg.LDG_STRAP 16 7
    · exact (if_pos ha).trans (takeAddr_of_some (hother.resolve_left (not_not.mpr ha)) d)
    · exact if_neg ha
  case setaasa => exact fun s hon hdyn => (powered_of_on hon _).trans (next_of_eq (takeAddr_of_none hdyn _))
  case entdaa =>
    intro d s hon hdyn
    have hnot : ¬ s.sb.dyn.isSome = true := by simp [hdyn]
    rw [exec_entdaa, execEntdaa, powered_of_on hon, if_neg hnot, takeAddr_of_none (by exact hdyn)]
    exact ⟨_, rfl, rfl⟩
  case addressed =>
    intro d s hon hdyn
    rw [exec_setaasa, execSetaasa, exec_entdaa, execEntdaa, powered_of_on hon, powered_of_on hon, takeAddr_of_some hdyn, if_pos hdyn]
    exact ⟨rfl, rfl⟩
  case rstdaa => exact fun s hon => next_of_eq (if_neg hon)
  case getNone =>
    intro s c hon hc hdyn
    simp only [List.mem_cons, List.not_mem_nil, or_false] at hc
    rcases hc with rfl | rfl | rfl | rfl
    · exact ccRead_of_none hon hdyn _
    · exact ccRead_of_none hon hdyn _
    · exact ccRead_of_none hon hdyn _
    · exact (powered_of_on hon _).trans (next_of_eq (if_neg (by simp [hdyn])))
  case get => exact fun s hon hdyn => ⟨ccRead_of_some hon hdyn _, ccRead_of_some hon hdyn _, ccRead_of_some hon hdyn _⟩
  case getstatus =>
    exact fun s hon hdyn => ⟨_, _, (powered_of_on hon _).trans (next_of_eq (if_pos hdyn)), Nat.mod_lt _ (by decide),
      Nat.mod_lt _ (by decide)⟩
  case plug => exact fun s hon => next_of_eq (if_neg hon)
  case unplug => exact fun s hon => next_of_eq (if_neg hon)
  case bypassLodge =>
    intro dn s hon hprobe
    rw [exec_bypass, execBypass, scanned_of_present hon hprobe]
    rfl
  case bypassPackage =>
    intro dn s hon hprobe hmain
    rw [exec_bypass, execBypass, scanned_of_present hon hprobe, hmain]
    rfl
  case chainless =>
    intro dn s c hc hon hprobe hmain
    simp only [List.mem_cons, List.not_mem_nil, or_false] at hc
    rcases hc with rfl | rfl | rfl | rfl
    · rw [exec_bypass, execBypass, scanned_of_present hon hprobe, hmain]
      rfl
    · rw [exec_idcode, execIdcode, scanned_of_present hon hprobe, hmain]
      rfl
    · exact (scanned_of_present hon hprobe _).trans (next_of_eq (boundary_of_down hmain true dn))
    · exact (scanned_of_present hon hprobe _).trans (next_of_eq (boundary_of_down hmain false dn))
  case idcode =>
    intro s hon hprobe
    rw [exec_idcode, execIdcode, scanned_of_present hon hprobe]
    rfl
  case scanBypass =>
    exact fun e dn s hon hprobe h => ⟨(scanned_of_present hon hprobe _).trans (next_of_eq (boundary_of_bypass h true dn)),
      (scanned_of_present hon hprobe _).trans (next_of_eq (boundary_of_bypass h false dn))⟩
  case extest =>
    exact fun dn s hon hprobe hmain hopen => ⟨_, length_bitList .., (scanned_of_present hon hprobe _).trans
      (next_of_eq (boundary_of_unlocked hmain hopen true dn))⟩
  case sample =>
    exact fun dn s hon hprobe hmain hopen => ⟨_, length_bitList .., (scanned_of_present hon hprobe _).trans
      (next_of_eq (boundary_of_unlocked hmain hopen false dn))⟩
  case regaccDenied =>
    exact fun w s hon hprobe hlocked h => (scanned_of_present hon hprobe _).trans (next_of_eq (regacc_of_denied hlocked h))
  case regacc =>
    exact fun w s x u hon hprobe hopen hmain h => (scanned_of_present hon hprobe _).trans (next_of_eq (regacc_of_unlocked hopen hmain h))
  case unlockRead => exact fun n s hon hprobe hnonce => (scanned_of_present hon hprobe _).trans (next_of_eq (unlock_of_empty hnonce))
  case unlockNot =>
    intro sg n s hon hprobe hnonce hsg hstandby hsafe
    obtain ⟨hspent, hopen⟩ := unlock_of_signature hnonce hsg
    refine ⟨_, scanned_of_present hon hprobe _, hspent, hopen.trans ?_⟩
    simp [hstandby, hsafe]
  case unlock =>
    intro sg n s hon hprobe hnonce hsg hcalm
    obtain ⟨hspent, hopen⟩ := unlock_of_signature hnonce hsg
    have hcalm' : (s.rdN Reg.PWR_STATE == 1 || s.rdN Reg.PWR_STATE == 5) = true := by simpa using hcalm
    rw [hcalm', Bool.true_and] at hopen
    exact ⟨_, scanned_of_present hon hprobe _, hspent, hopen⟩

end Sys2Proof.Machine
end

section
/-! The panel's updates, frames, rails, pixels, tables and wake button (21, R438 to R456, Tables PNL-5 and PNL-6). -/

namespace Sys2Proof.Machine

section
variable {s : State}

/-! ### Updates (R443) -/

/-- A write of PNL_UPDATE in one of the three modes. -/
theorem exec_pnlUpdate {c : (Nat → Nat → Instr) × Nat}
    (hc : c ∈ ([(.pnlUpdateFull, 0), (.pnlUpdatePartial, 1), (.pnlUpdateClear, 2)] : List ((Nat → Nat → Instr) × Nat))) {p : Nat}
    (hp : p < 3) (z : Nat) (s : State) :
    exec (c.1 p z) s = .next (if (zonesOf z).isEmpty then s else requestUpdate p c.2 (zonesOf z) s) := by
  have hunit : ∀ mode, pnlUpdate p mode z s = .next (if (zonesOf z).isEmpty then s else requestUpdate p mode (zonesOf z) s) :=
    fun mode => onUnit_next (decide_eq_true hp)
  simp only [List.mem_cons, List.not_mem_nil, or_false] at hc
  rcases hc with rfl | rfl | rfl
  · exact hunit 0
  · exact hunit 1
  · exact hunit 2

theorem exec_pnlUpdate_of_zones {c : (Nat → Nat → Instr) × Nat}
    (hc : c ∈ ([(.pnlUpdateFull, 0), (.pnlUpdatePartial, 1), (.pnlUpdateClear, 2)] : List ((Nat → Nat → Instr) × Nat))) {p z : Nat}
    (hp : p < 3) (hz : zonesOf z ≠ []) (s : State) : exec (c.1 p z) s = .next (requestUpdate p c.2 (zonesOf z) s) :=
  (exec_pnlUpdate hc hp z s).trans (next_of_eq (if_neg (by simpa using hz)))

theorem requestUpdate_of_refused {p mode d : Nat} {zs : List Nat} (h : updRefusal p mode zs s = some d) : requestUpdate p mode zs s =
    zs.foldl (fun s z => updStatus z ⟨0x22, 0, d⟩ s) ((if d = 3 then s.bump Reg.PNL_FB_DENIED else s).bump Reg.PNL_REFUSED) := by
  simp only [requestUpdate, h]

theorem requestUpdate_of_allowed {p mode : Nat} {zs : List Nat} (h : updRefusal p mode zs s = none) : requestUpdate p mode zs s =
    if zs.any (fun z => (mget s.pnl.run z).isSome && (mget s.pnl.pend z).isSome) then
      zs.foldl (fun s z => updStatus z ⟨0x24, 0, 0⟩ s) (s.bump Reg.PNL_REFUSED)
    else showPnl (wakePanel (zs.foldl (takeSlot mode []) s)) := by
  simp only [requestUpdate, h]

/-! ### Frames and rails (R441, R446, R456) -/

theorem panelFrameBoundary_of_up (hup : s.pnl.rails = .up) (hcheck : s.pnl.checking = []) :
    exec .panelFrameBoundary s = .next (frameBoundary s) := by
  have hsame : ({ s with pnl := { s.pnl with checking := [] } } : State) = s := by rw [← hcheck]
  have hrails : ¬ s.pnl.rails ≠ .up := not_not.mpr hup
  rw [exec_panelFrameBoundary, execPanelFrameBoundary, if_neg hrails]
  simp only [hcheck, List.any_nil, List.filter_nil, hsame]
  rfl

theorem panelRailHoldExpire_of_hold {t : Nat} (h : s.pnl.holdAt = some t) : exec .panelRailHoldExpire s =
    if s.pnl.rails = .up ∧ !scanning s ∧ s.pnl.run.isEmpty ∧ t + 1000 * s.fld Reg.PNL_CFG 16 14 ≤ s.tb then
      .next (showPnl (lowerRails s)) else .next s := by
  simp only [exec_panelRailHoldExpire, execPanelRailHoldExpire, h]

theorem panelRailRetry_of_fail {t : Nat} (h : s.pnl.failAt = some t) : exec .panelRailRetry s =
    if t + 100000 ≤ s.tb ∧ s.pnl.rails = .down then
      .next { s with pnl := { s.pnl with failAt := none, retrying := true, rails := .rising 1 } } else .next s := by
  simp only [exec_panelRailRetry, execPanelRailRetry, h]

/-! ### Words of NEXT (R447, R451) -/

/-- Setting the keys `a + k` for `k` of a list, each in its own default. -/
theorem mgetD_foldl_mputD (d v : Nat → Nat) (a j : Nat) (l : List Nat) (m : Map Nat) :
    mgetD (l.foldl (fun m k => mputD m (d k) (a + k) (v k)) m) (d j) (a + j) = if j ∈ l then v j else mgetD m (d j) (a + j) := by
  induction l generalizing m with
  | nil => exact (if_neg (List.not_mem_nil)).symm
  | cons k l ih =>
    rw [List.foldl_cons, ih, mgetD_mputD]
    by_cases hj : j = k
    · subst hj
      have hset : (if v j = d j then d j else v j) = v j := by
        split
        case isTrue h => exact h.symm
        case isFalse => rfl
      rw [if_pos rfl, hset, ite_self, if_pos (List.mem_cons_self)]
    · rw [if_neg (fun h => hj (Nat.add_left_cancel h))]
      simp only [List.mem_cons, hj, false_or]

theorem pnlFbWrite_of_body {p o : Nat} (hrange : o < 30000) (hbody : 4000 ≤ o) (hp : p < 3) (hown : p = s.rdN Reg.PNL_BODY_OWN)
    (hlodge : p ≠ 0) (v : Word) : exec (.pnlFbWrite p o v) s = if (mget s.pnl.run 1).isSome then .next (s.bump Reg.PNL_FB_BUSY_DROP)
      else .next { s with pnl := { s.pnl with next := mput s.pnl.next 1 { s.pnlNext 1 with
        px := (List.range 16).foldl (fun (m : Map Nat) k => mputD m ((s.pnlNext 1).base.level (4 * (o / 4 * 4) + k)) (4 * (o / 4 * 4) + k)
          (bits v.toNat (2 * k) 2)) (s.pnlNext 1).px } } } := by
  have hzone : ¬ o / 4 * 4 < 4000 := by omega
  have hserved : ¬ (30000 ≤ o ∨ 3 ≤ p) := by omega
  have howner : ¬ ((1 : Nat) = 0 ∨ p ≠ s.rdN Reg.PNL_BODY_OWN ∨ p = 0) := by simp [← hown, hlodge]
  simp only [exec_pnlFbWrite, execPnlFbWrite, if_neg hzone]
  rw [if_neg hserved, if_neg howner]

theorem pnlFbWrite_of_denied {p o : Nat} (hrange : o < 30000) (hp : p < 3) (h : o < 4000 ∨ p ≠ s.rdN Reg.PNL_BODY_OWN ∨ p = 0)
    (v : Word) : exec (.pnlFbWrite p o v) s = .next (s.bump Reg.PNL_FB_DENIED) := by
  have hserved : ¬ (30000 ≤ o ∨ 3 ≤ p) := by omega
  have hdenied : (if o / 4 * 4 < 4000 then 0 else 1) = 0 ∨ p ≠ s.rdN Reg.PNL_BODY_OWN ∨ p = 0 :=
    h.imp_left (fun h => if_pos (by omega))
  simp only [exec_pnlFbWrite, execPnlFbWrite]
  rw [if_neg hserved, if_pos hdenied]

theorem pnlTblCommit_of_key : exec (.pnlTblCommit 0x7AB1) s =
    .next (if setAccepted (some (stagedSet s)) then
        (if scanning (State.setBit { s with pnl := { s.pnl with waiting := some (stagedSet s) } } Reg.PNL_TBL_STATUS 17 true)
          then State.setBit { s with pnl := { s.pnl with waiting := some (stagedSet s) } } Reg.PNL_TBL_STATUS 17 true
          else tableApply (State.setBit { s with pnl := { s.pnl with waiting := some (stagedSet s) } } Reg.PNL_TBL_STATUS 17 true))
      else s.setBit Reg.PNL_TBL_STATUS 16 true) := by
  rw [exec_pnlTblCommit, execPnlTblCommit, if_neg (by decide)]
  cases h : setAccepted (some (stagedSet s)) <;> simp [h]

end

/-- Settles O59: a request by its refusal and the slots, a rail event by the rails' state, and a write of the panel by its party, its
zone and its key. -/
theorem panelCommands : Obligations.PanelCommands := by
  unfold Obligations.PanelCommands
  refine ⟨?noZone, ?refused, ?denied, ?busy, ?taken, ?frameDown, ?frame, ?stepDown, ?stepFault, ?stepUp, ?stepFall, ?holdNone, ?hold,
    ?holdEarly, ?fault, ?faultDown, ?retryNone, ?retry, ?retryEarly, ?fbDenied, ?fbBusy, ?fb, ?tableKey, ?table, ?commit, ?owner,
    ?ownerNone, ?press, ?wake, ?wakeNot⟩
  case noZone => exact fun c p z s hc hp hz => (exec_pnlUpdate hc hp z s).trans (next_of_eq (if_pos (by rw [hz]; rfl)))
  case refused =>
    intro c p z s d hc hp hz hrefused hd
    rw [exec_pnlUpdate_of_zones hc hp hz, requestUpdate_of_refused hrefused, if_neg hd]
  case denied =>
    intro c p z s hc hp hz hrefused
    rw [exec_pnlUpdate_of_zones hc hp hz, requestUpdate_of_refused hrefused, if_pos rfl]
  case busy =>
    intro c p z s hc hp hz hallowed hbusy
    rw [exec_pnlUpdate_of_zones hc hp hz, requestUpdate_of_allowed hallowed, if_pos hbusy]
  case taken =>
    intro c p z s hc hp hz hallowed hfree
    rw [exec_pnlUpdate_of_zones hc hp hz, requestUpdate_of_allowed hallowed, if_neg (ne_true_of_false hfree)]
  case frameDown => exact fun s h => if_pos h
  case frame => exact fun s => panelFrameBoundary_of_up
  case stepDown =>
    intro ok s h
    simp only [exec_panelRailStep, execPanelRailStep, h]
  case stepFault =>
    intro n s h
    simp only [exec_panelRailStep, execPanelRailStep, h]
    rfl
  case stepUp =>
    intro n s h
    simp only [exec_panelRailStep, execPanelRailStep, h]
    rfl
  case stepFall =>
    intro ok n s h hn
    simp only [exec_panelRailStep, execPanelRailStep, h, if_pos hn]
  case holdNone =>
    intro s h
    simp only [exec_panelRailHoldExpire, execPanelRailHoldExpire, h]
  case hold =>
    intro t s h hup hidle hrun htime
    rw [panelRailHoldExpire_of_hold h, if_pos ⟨hup, bnot_of_false hidle, by rw [hrun]; rfl, htime⟩]
  case holdEarly =>
    intro t s h htime
    rw [panelRailHoldExpire_of_hold h, if_neg (fun hend => absurd hend.2.2.2 (Nat.not_le.mpr htime))]
  case fault =>
    rintro s (h | ⟨n, h⟩) <;> simp only [exec_panelRailFault, execPanelRailFault, h]
  case faultDown =>
    intro s h
    simp only [exec_panelRailFault, execPanelRailFault, h]
  case retryNone =>
    intro s h
    simp only [exec_panelRailRetry, execPanelRailRetry, h]
  case retry =>
    intro t s h htime hdown
    rw [panelRailRetry_of_fail h, if_pos ⟨htime, hdown⟩]
  case retryEarly =>
    intro t s h htime
    rw [panelRailRetry_of_fail h, if_neg (fun hend => absurd hend.1 (Nat.not_le.mpr htime))]
  case fbDenied => exact fun p o v s hrange hp h => pnlFbWrite_of_denied hrange hp h v
  case fbBusy =>
    intro p o v s hrange hbody hp hown hlodge hrun
    rw [pnlFbWrite_of_body hrange hbody hp hown hlodge, if_pos hrun]
  case fb =>
    intro p o v s hrange hbody hp hown hlodge hrun
    rw [pnlFbWrite_of_body hrange hbody hp hown hlodge, if_neg (by simp [hrun])]
    refine ⟨_, rfl, fun k hk => ?_⟩
    exact (mgetD_foldl_mputD (fun k => (s.pnlNext 1).base.level (4 * (o / 4 * 4) + k)) (fun k => bits v.toNat (2 * k) 2) _ k _ _).trans
      (if_pos (List.mem_range.mpr hk))
  case tableKey => exact fun k s h => if_pos h
  case table =>
    intro s u hu
    rw [pnlTblCommit_of_key, ← hu]
  case commit =>
    intro s u hu
    rw [hu]
    rfl
  case owner =>
    exact fun o s ho => ⟨_, if_neg (Nat.not_lt.mpr ho), State.rdN_putN_same _ _ (Nat.lt_of_le_of_lt ho (by decide))⟩
  case ownerNone => exact fun o s ho => if_pos ho
  case press =>
    intro s u hu
    rw [hu]
    rfl
  case wake =>
    intro t s h htime
    simp only [exec_pnlWakeExpire, execPnlWakeExpire, h, if_pos htime]
  case wakeNot =>
    intro s h
    cases hwake : s.pnl.wakeUntil with
    | none => simp only [exec_pnlWakeExpire, execPnlWakeExpire, hwake]
    | some t => simp only [exec_pnlWakeExpire, execPnlWakeExpire, hwake, if_neg (Nat.not_le.mpr (h t hwake))]

end Sys2Proof.Machine
end

section
/-! Conversions, urgent requests, commits and calibrations of the converters (17, R363 to R376). -/

namespace Sys2Proof.Machine

section
variable {s : State}

/-! ### Urgent requests (R367 to R369) -/

theorem adcUrgFinish_of_period {n i p : Nat} (hn : n < 4) (hi : i < 16) (hp : p ≤ 4) :
    exec (.adcUrgFinish (some n) i p) s = .next (urgFinish .pf (some n) i p s) :=
  (onUnit_next (by simp [urgUnit, hn, hi])).trans (next_of_eq (if_neg (Nat.not_lt.mpr hp)))

theorem adcUrgDrop_of_period {n i p : Nat} (hn : n < 4) (hi : i < 16) (hp : p ≤ 4) :
    exec (.adcUrgDrop (some n) i p) s = .next (urgDrop .pf (some n) i p s) :=
  (onUnit_next (by simp [urgUnit, hn, hi])).trans (next_of_eq (if_neg (Nat.not_lt.mpr hp)))

theorem abandon_tb (n : Nat) (s : State) : (abandon n s).tb = s.tb := by
  unfold abandon
  split <;> rfl

theorem urgFinish_of_free {n i p : Nat} (hn : n < 4) (hlive : icRetired s n = false) (hfree : urgHeld s n = false) :
    ∃ u : State, urgFinish .pf (some n) i p s = fill n (pll s) (u.updIc n (fun c => { c with urg := some ⟨.pf, i, p, pll s⟩ })) ∧
      u.rdN Reg.ADC_URG_STATUS = 1 + 65536 * n := by
  have hstatus : ∀ t : State, (t.putN Reg.ADC_URG_STATUS (1 + 65536 * n)).rdN Reg.ADC_URG_STATUS = 1 + 65536 * n :=
    fun t => State.rdN_putN_same t _ (by omega)
  simp only [urgFinish, hlive, hfree, Bool.false_eq_true, if_false, if_true]
  split
  case isTrue =>
    have hpll : pll ((abandon n s).putN Reg.ADC_URG_STATUS (1 + 65536 * n)) = pll s := congrArg (640 * ·) (abandon_tb n s)
    rw [hpll]
    exact ⟨_, rfl, hstatus _⟩
  case isFalse => exact ⟨_, rfl, hstatus s⟩

theorem icRetired_of_idle {n : Nat} (h : icIdle s n = true) : icRetired s n = false := by
  obtain ⟨⟨⟨⟨hlive, _⟩, _⟩, _⟩, _⟩ : (((icRetired s n = false ∧ _) ∧ _) ∧ _) ∧ _ := by
    simpa only [icIdle, Bool.and_eq_true, Bool.not_eq_true'] using h
  exact hlive

/-! ### Self-calibrations (R370 to R374) -/

theorem unsettle_adc (ch : Nat) (s : State) : (unsettle ch s).adc = s.adc := by
  unfold unsettle
  split <;> rfl

theorem capEnd_adc (trunc : Bool) (s : State) : (capEnd trunc s).adc = s.adc := by
  unfold capEnd
  split
  · simp only [State.setBit_adc]
  · rfl

theorem foldl_adc {f : State → Nat → State} (hf : ∀ s ch, (f s ch).adc = s.adc) (l : List Nat) (s : State) :
    (l.foldl f s).adc = s.adc := by
  induction l generalizing s with
  | nil => rfl
  | cons ch l ih => exact (ih (f s ch)).trans (hf s ch)

theorem decStep_adc (t : Nat) (s : State) : (decStep t s).adc = s.adc :=
  (capEnd_adc ..).trans (foldl_adc (f := fun s ch => unsettle ch (s.updDch ch (fun c => { c with
    seq := 0, winLen := 0, winOnes := 0, ovrSpan := false, byGain := false, taps := [], fir := [] }))) (fun _ ch => unsettle_adc ch _) _ _)

theorem decStart_adc (s : State) : (decStart s).adc = s.adc := by
  unfold decStart
  split
  · rfl
  · exact decStep_adc ..

theorem foldl_of_fixed {α : Type} {f : State → α → State} {l : List α} (h : ∀ a ∈ l, f s a = s) : l.foldl f s = s := by
  induction l with
  | nil => rfl
  | cons a l ih => rw [List.foldl_cons, h a List.mem_cons_self, ih (fun b hb => h b (List.mem_cons_of_mem a hb))]

/-- Where every channel is retired, the end of a self-calibration only ends it. -/
theorem sdCalComplete_of_retired (hcal : s.adc.sdCal.isSome = true) (hret : ∀ ch, ch < 8 → sdRetired s ch = true) (z r : List Nat) :
    ∃ t, exec (.sdCalComplete z r) s = .next t ∧ t.adc = { s.adc with sdCal := none } := by
  have hkept : (List.range 8).foldl (sdCalCh z r) { s with adc := { s.adc with sdCal := none } } =
      { s with adc := { s.adc with sdCal := none } } :=
    foldl_of_fixed (fun ch hch => if_pos (hret ch (List.mem_range.mp hch)))
  have hrun : ¬ s.adc.sdCal.isNone = true := by
    rw [Option.isNone_iff_eq_none, ← Option.not_isSome_iff_eq_none]
    exact not_not.mpr hcal
  refine ⟨_, if_neg hrun, ?_⟩
  rw [hkept]
  refine (decStart_adc _).trans ?_
  exact foldl_adc (fun s ch => unsettle_adc ch s) ..

/-- Counts of 12,288 ones on zero and 22,118 on the reference: no offset, and a gain within 3 % of 1. -/
theorem sdCalCh_of_good {z r : List Nat} {ch : Nat} (hlive : sdRetired s ch = false) (hz : z.getD ch 0 = 12288)
    (hr : r.getD ch 0 = 22118) (hclip : s.adc.sdClip.contains ch = false) : sdCalCh z r s ch =
      { checkPassed 8 ch s with adc := { s.adc with
          sdOff := mput s.adc.sdOff ch ⟨0, 24576⟩
          sdGain := mput s.adc.sdGain ch ⟨98304, 98300⟩
          sdUncal := s.adc.sdUncal.filter (· != ch) } } := by
  simp only [sdCalCh, hz, hr, hclip, if_neg (ne_true_of_false hlive)]
  rfl

/-! ### The reference check (R374) -/

theorem referenceCheckTick_of_live (hn : s.adc.refNext < 4) (hlive : icRetired s s.adc.refNext = false) : exec .referenceCheckTick s =
    .next (if ((s.updIc s.adc.refNext (fun c => { c with refDue := true })).ic s.adc.refNext).slot.isNone then
        fill s.adc.refNext (pll (s.updIc s.adc.refNext (fun c => { c with refDue := true })))
          (s.updIc s.adc.refNext (fun c => { c with refDue := true }))
      else s.updIc s.adc.refNext (fun c => { c with refDue := true })) := by
  have hfirst : ((List.range 4).map (fun k => (s.adc.refNext + k) % 4)).find? (fun n => !icRetired s n) = some s.adc.refNext := by
    have hhead : (List.range 4).map (fun k => (s.adc.refNext + k) % 4) =
        s.adc.refNext :: [1, 2, 3].map (fun k => (s.adc.refNext + k) % 4) := by
      rw [show List.range 4 = 0 :: [1, 2, 3] from rfl, List.map_cons, Nat.add_zero, Nat.mod_eq_of_lt hn]
    exact hhead ▸ List.find?_cons_of_pos (p := fun n => !icRetired s n) (bnot_of_false hlive)
  simp only [exec_referenceCheckTick, execReferenceCheckTick, hfirst]

theorem referenceCheckTick_of_retired (h : ∀ n, n < 4 → icRetired s n = true) : exec .referenceCheckTick s = .next s := by
  have hnone : ((List.range 4).map (fun k => (s.adc.refNext + k) % 4)).find? (fun n => !icRetired s n) = none := by
    rw [List.find?_eq_none]
    intro n hn
    obtain ⟨k, _, rfl⟩ := List.mem_map.mp hn
    exact not_bnot_of_true (h _ (Nat.mod_lt _ (by decide)))
  simp only [exec_referenceCheckTick, execReferenceCheckTick, hnone]

/-! ### System calibrations (R375) -/

theorem adcSyscalZero_of_unit {t i : Nat} (ht : t < 8) (hi : i < 16) (ic : Bool) (g : Nat) :
    exec (.adcSyscalZero ic t i g) s = .next (sysStart false ic t i g s) := onUnit_next (decide_eq_true ⟨ht, hi⟩)

theorem adcSyscalFull_of_unit {t i : Nat} (ht : t < 8) (hi : i < 16) (ic : Bool) (g : Nat) :
    exec (.adcSyscalFull ic t i g) s = .next (sysStart true ic t i g s) := onUnit_next (decide_eq_true ⟨ht, hi⟩)

theorem sysStart_of_rejected {full ic : Bool} {t i g : Nat} (hidle : s.bit Reg.ADC_SYSCAL_STATUS 0 = false)
    (h : ((ic && decide (3 < t)) || (full && (!s.adc.zeroOk.contains (sysKey ic t i g) ||
      decide ((signed 24 (s.rdN Reg.ADC_SYSCAL_REF)).natAbs < 2 ^ 21)))) = true) :
    sysStart full ic t i g s = s.putN Reg.ADC_SYSCAL_STATUS 6 :=
  (if_neg (ne_true_of_false hidle)).trans (if_pos h)

/-- A phase of a ΣΔ channel's system calibration runs. -/
theorem sysStart_of_channel {full : Bool} {t i g : Nat} (hidle : s.bit Reg.ADC_SYSCAL_STATUS 0 = false)
    (h : (full && (!s.adc.zeroOk.contains (sysKey false t i g) ||
      decide ((signed 24 (s.rdN Reg.ADC_SYSCAL_REF)).natAbs < 2 ^ 21))) = false) :
    sysStart full false t i g s = { s.putN Reg.ADC_SYSCAL_STATUS 1 with adc := { s.adc with
      syscal := some ⟨false, t, i, g, full, settleCount (respOf s t), 0, ⟨0, 1⟩, false⟩ } } := by
  refine (if_neg (ne_true_of_false hidle)).trans ((if_neg ?_).trans (if_neg Bool.false_ne_true))
  rw [Bool.false_and, Bool.false_or, h]
  exact Bool.false_ne_true

theorem respOf_putN_syscalStatus {t : Nat} (ht : t < 8) (n : Nat) : respOf (s.putN Reg.ADC_SYSCAL_STATUS n) t = respOf s t :=
  State.fld_putN_ne s n (by simp only [Reg.DEC_CFG, Reg.ADC_SYSCAL_STATUS]; omega) 0 3

theorem fld_status_of_bad (s : State) (k : Nat) : (s.putN Reg.ADC_SYSCAL_STATUS (2 * 3 + 256 * k)).fld Reg.ADC_SYSCAL_STATUS 1 2 = 3 := by
  rw [State.fld, State.rdN_putN, if_pos rfl, bits_mod_two_pow _ (by decide), bits]
  omega

/-- Either of two next states has what both have. -/
theorem exists_next_ite {c : Prop} {inst : Decidable c} {a b : State} {P : State → Prop} (ha : P a) (hb : P b) :
    ∃ t, (if c then (.next a : Out) else .next b) = .next t ∧ P t := by
  by_cases h : c
  · exact ⟨a, if_pos h, ha⟩
  · exact ⟨b, if_neg h, hb⟩

/-- A phase with 16 outputs ends; one with an unusable output keeps no result. -/
theorem syscalPhaseComplete_of_done {x : SysCal} (hx : s.adc.syscal = some x) (hcount : 16 ≤ x.count) :
    ∃ t, exec .syscalPhaseComplete s = .next t ∧ t.adc.syscal = none ∧
      (x.bad = true → t.adc.sys = s.adc.sys ∧ t.fld Reg.ADC_SYSCAL_STATUS 1 2 = 3) := by
  simp only [exec_syscalPhaseComplete, execSyscalPhaseComplete, hx, if_neg (Nat.not_lt.mpr hcount)]
  cases hbad : x.bad with
  | false =>
    exact exists_next_ite ⟨rfl, fun h => absurd h Bool.false_ne_true⟩ ⟨rfl, fun h => absurd h Bool.false_ne_true⟩
  | true =>
    simp only [if_true]
    refine ⟨_, if_pos (by decide), ?_, fun _ => ⟨?_, ?_⟩⟩
    · rfl
    · rfl
    · exact fld_status_of_bad s _

/-! ### Autoranging (R376) -/

theorem autorangeUp_of_kept {ch : Nat} (hch : ch < 8) (h : ch < 3 ∨ ch = 7 ∨ s.bit (Reg.ADC_SD_CFG ch) 3 = false ∨
    s.fld (Reg.ADC_SD_CFG ch) 19 3 ≤ gainOf s ch ∨ mget s.adc.low ch = none) : exec (.autorangeUp ch) s = .next s := by
  refine (onUnit_next (decide_eq_true hch)).trans (next_of_eq (if_neg ?_))
  simp only [Bool.and_eq_true, decide_eq_true_eq]
  rintro ⟨⟨⟨hrange, hauto⟩, hgain⟩, hlow⟩
  rcases h with h | h | h | h | h
  · omega
  · omega
  · exact ne_true_of_false h hauto
  · omega
  · rw [h] at hlow
    exact Bool.false_ne_true hlow

theorem autorangeUp_of_low {ch t : Nat} (hlo : 3 ≤ ch) (hhi : ch < 7) (hauto : s.bit (Reg.ADC_SD_CFG ch) 3 = true)
    (hgain : gainOf s ch < s.fld (Reg.ADC_SD_CFG ch) 19 3) (hlow : mget s.adc.low ch = some t) (htime : t + 1000000 ≤ s.tb) :
    exec (.autorangeUp ch) s = .next (changeGain ch (gainOf s ch + 1) { s with adc := { s.adc with low := mdel s.adc.low ch } }) := by
  refine (onUnit_next (decide_eq_true (by omega))).trans (next_of_eq (if_pos ?_))
  simp only [Bool.and_eq_true, decide_eq_true_eq, hlow]
  exact ⟨⟨⟨⟨hlo, hhi⟩, hauto⟩, hgain⟩, htime⟩

end

/-- Settles O56: each event by what the converter, its request or the calibration is at. -/
theorem convertersAndCalibration : Obligations.ConvertersAndCalibration := by
  unfold Obligations.ConvertersAndCalibration
  refine ⟨?conversion, ?conversionNot, ?clip, ?finishReserved, ?finishRetired, ?finishBusy, ?finish, ?dropReserved, ?dropBusy, ?drop,
    ?sdCommit, ?icIgnored, ?icCommit, ?sdCalBusy, ?sdCal, ?sdNone, ?sdRetired, ?sdGood, ?icCalBusy, ?icCal, ?refNone, ?ref, ?sysBusy,
    ?zero, ?zeroBad, ?fullBad, ?full, ?phaseOn, ?phase, ?save, ?rangeNot, ?range⟩
  case conversion => exact fun n nv s hn h => (onUnit_next (decide_eq_true hn)).trans (next_of_eq (if_pos h))
  case conversionNot => exact fun n nv s hn h => (onUnit_next (decide_eq_true hn)).trans (next_of_eq (if_neg h))
  case clip =>
    intro ch s u hch hu hcal
    refine (onUnit_next (decide_eq_true hch)).trans (next_of_eq ?_)
    rw [← hu, hcal]
    rfl
  case finishReserved =>
    exact fun cv i p s hunit hi hp => (onUnit_next (by rw [hunit, decide_eq_true hi]; rfl)).trans (next_of_eq (if_pos hp))
  case finishRetired =>
    exact fun n i p s hn hi hp h => (adcUrgFinish_of_period hn hi hp).trans (next_of_eq (if_pos h))
  case finishBusy =>
    intro n i p s hn hi hp hlive hheld
    exact (adcUrgFinish_of_period hn hi hp).trans (next_of_eq ((if_neg (ne_true_of_false hlive)).trans (if_pos hheld)))
  case finish =>
    intro n i p s hn hi hp hlive hfree
    obtain ⟨u, hu, hstatus⟩ := urgFinish_of_free (i := i) (p := p) hn hlive hfree
    exact ⟨u, (adcUrgFinish_of_period hn hi hp).trans (next_of_eq hu), hstatus⟩
  case dropReserved =>
    exact fun cv i p s hunit hi hp => (onUnit_next (by rw [hunit, decide_eq_true hi]; rfl)).trans (next_of_eq (if_pos hp))
  case dropBusy =>
    intro n i p s hn hi hp hlive hbusy
    exact (adcUrgDrop_of_period hn hi hp).trans (next_of_eq ((if_neg (ne_true_of_false hlive)).trans (if_pos (bnot_of_false hbusy))))
  case drop =>
    intro n i p s hn hi hp hidle
    exact (adcUrgDrop_of_period hn hi hp).trans
      (next_of_eq ((if_neg (ne_true_of_false (icRetired_of_idle hidle))).trans (if_neg (not_bnot_of_true hidle))))
  case sdCommit =>
    exact fun s h => next_of_eq (foldl_of_fixed (fun ch hch => if_pos (h ch (List.mem_range.mp hch))))
  case icIgnored => exact fun s h => if_pos h
  case icCommit => exact fun s h => if_neg (ne_true_of_false h)
  case sdCalBusy => exact fun s h => next_of_eq (if_pos h)
  case sdCal => exact fun s h => next_of_eq (if_neg (by simp [h]))
  case sdNone => exact fun z r s h => if_pos (by rw [h]; rfl)
  case sdRetired =>
    intro z r s hcal hret
    obtain ⟨t, ht, hadc⟩ := sdCalComplete_of_retired hcal hret z r
    exact ⟨t, ht, (congrArg Adc.sdCal hadc).trans rfl, (congrArg Adc.sdOff hadc).trans rfl, (congrArg Adc.sdGain hadc).trans rfl⟩
  case sdGood =>
    intro z r s ch hlive hz hr hclip
    rw [sdCalCh_of_good hlive hz hr hclip]
    exact ⟨_, rfl, rfl, by simp⟩
  case icCalBusy => exact fun s h => next_of_eq (if_pos (by simpa using h))
  case icCal => exact fun s h => next_of_eq (if_neg (by simp [h]))
  case refNone => exact fun s h => referenceCheckTick_of_retired h
  case ref =>
    intro s u hn hlive hu
    rw [referenceCheckTick_of_live hn hlive, ← hu]
  case sysBusy =>
    exact fun _ ic t i g s ht hi hbusy => ⟨(adcSyscalZero_of_unit ht hi ic g).trans (next_of_eq (if_pos hbusy)),
      (adcSyscalFull_of_unit ht hi ic g).trans (next_of_eq (if_pos hbusy))⟩
  case zero =>
    intro t i g s ht hi hidle
    rw [adcSyscalZero_of_unit ht hi, sysStart_of_channel hidle (Bool.false_and _), respOf_putN_syscalStatus ht]
  case zeroBad =>
    intro t i g s h3 ht hi hidle
    rw [adcSyscalZero_of_unit ht hi, sysStart_of_rejected hidle (by rw [decide_eq_true h3]; rfl)]
  case fullBad =>
    intro ic t i g s ht hi hidle h
    refine (adcSyscalFull_of_unit ht hi ic g).trans (next_of_eq (sysStart_of_rejected hidle ?_))
    rw [Bool.true_and, Bool.or_eq_true, Bool.or_eq_true]
    exact .inr (h.imp bnot_of_false decide_eq_true)
  case full =>
    intro t i g s ht hi hidle hzero href
    refine ⟨_, (adcSyscalFull_of_unit ht hi false g).trans (next_of_eq (sysStart_of_channel hidle ?_)), rfl, rfl, rfl, rfl⟩
    rw [hzero, decide_eq_false (Nat.not_lt.mpr href)]
    rfl
  case phaseOn =>
    intro s h
    cases hx : s.adc.syscal with
    | none => simp only [exec_syscalPhaseComplete, execSyscalPhaseComplete, hx]
    | some x => simp only [exec_syscalPhaseComplete, execSyscalPhaseComplete, hx, if_pos (h x hx)]
  case phase => exact fun s x => syscalPhaseComplete_of_done
  case save =>
    intro k s
    rw [exec_adcSyscalSave, execAdcSyscalSave]
    split <;> rfl
  case rangeNot => exact fun ch s hch h => autorangeUp_of_kept hch h
  case range => exact fun ch t s hlo hhi hauto hgain hlow htime => autorangeUp_of_low hlo hhi hauto hgain hlow htime

end Sys2Proof.Machine
end

section
/-! Outputs, commits, synchronisation and captures of the decimation chain (18, R381 to R393). -/

namespace Sys2Proof.Machine

section
variable {s : State}

/-! ### Outputs (R381 to R387) -/

/-- The guard of an output that is delivered. -/
theorem decOutput_delivers {ch : Nat} (hen : decEn s ch = true) (hdue : decDue s ch / 640 ≤ s.tb) (hph : s.hld.ph = .supplied)
    (hrun : s.dec.stopped = false) :
    ¬ ((!decEn s ch) = true ∨ s.tb < decDue s ch / 640 ∨ s.hld.ph ≠ .supplied ∨ s.dec.stopped = true) := by
  simp [hen, hdue, hph, hrun]

theorem decOutput_of_kept {ch : Nat} (hch : ch < 8) (h : decEn s ch = false ∨ s.tb < decDue s ch / 640 ∨ s.hld.ph ≠ .supplied ∨
    s.dec.stopped = true) (ones : List Bool) : exec (.decOutput ch ones) s = .next s :=
  (if_neg (Nat.not_le.mpr hch)).trans (if_pos (h.imp_left bnot_of_false))

section
variable {ch : Nat} (hch : ch < 8) (hen : decEn s ch = true) (hdue : decDue s ch / 640 ≤ s.tb) (hph : s.hld.ph = .supplied)
  (hrun : s.dec.stopped = false) (hother : ch ≠ 0)
include hch hen hdue hph hrun hother

theorem decOutput_of_calibration (hcal : s.adc.sdCal.isSome = true) (ones : List Bool) : exec (.decOutput ch ones) s =
    .next (applySd ch (decDeliver ch (decDue s ch) missingWord ⟨0, 1⟩ (s.updDch ch (fun d => { d with
      winLen := (windows ones (s.dch ch)).winLen, winOnes := (windows ones (s.dch ch)).winOnes,
      ovrSpan := (windows ones (s.dch ch)).ovrSpan })))) := by
  rw [exec_decOutput, execDecOutput, if_neg (Nat.not_le.mpr hch), if_neg (decOutput_delivers hen hdue hph hrun)]
  simp only [hcal, Bool.true_or, if_true, if_neg hother]

theorem decOutput_of_bits (hcal : s.adc.sdCal = none) (hlive : sdRetired s ch = false) (hresp : respOf s ch = 7) (ones : List Bool) :
    exec (.decOutput ch ones) s = .next (applySd ch (decDeliver ch (decDue s ch)
      (BitVec.ofNat 32 (256 * (ones.take 16).foldl (fun n b => 2 * n + b2n b) 0)) ⟨0, 1⟩ s)) := by
  rw [exec_decOutput, execDecOutput, if_neg (Nat.not_le.mpr hch), if_neg (decOutput_delivers hen hdue hph hrun)]
  simp only [hcal, hlive, hresp, Option.isSome_none, Bool.or_self, Bool.false_eq_true, if_false, if_true, if_neg hother]

theorem decOutput_of_filters (hcal : s.adc.sdCal = none) (hlive : sdRetired s ch = false) (hresp : respOf s ch ≠ 7) (ones : List Bool) :
    exec (.decOutput ch ones) s = .next (rangeDown ch (wordFlag (formed ch ones s).2.1 2) (endMark ch (countMark ch
      (decDeliver ch (decDue s ch) (formed ch ones s).2.1 (formed ch ones s).2.2 (formed ch ones s).1)))) := by
  rw [exec_decOutput, execDecOutput, if_neg (Nat.not_le.mpr hch), if_neg (decOutput_delivers hen hdue hph hrun)]
  simp only [hcal, hlive, if_neg hresp, Option.isSome_none, Bool.or_self, Bool.false_eq_true, if_false, if_neg hother]

end

/-! ### Synchronisation (R388 to R390) -/

theorem mtrSyncEdge_of_near {f : Nat} (hon : s.bit Reg.DEC_MODE 1 = true)
    (hnear : s.dec.syncs.any (fun x => decide (pll s + f < x.1 + 3200 ∧ x.1 ≤ pll s + f + 3200)) = true) :
    exec (.mtrSyncEdge f) s = .next (s.bump Reg.DEC_SYNC_IGNORED) :=
  (if_neg (not_bnot_of_true hon)).trans (if_pos (.inr hnear))

theorem addSync_of_none (h : s.dec.syncs = []) (t : Nat) (arm : Bool) :
    addSync t arm s = { s with dec := { s.dec with syncs := [(t, arm)] } } := by
  rw [addSync, h]
  rfl

theorem mtrSyncEdge_of_first {f : Nat} (hon : s.bit Reg.DEC_MODE 1 = true) (hsyncs : s.dec.syncs = [])
    (hsteps : s.rdN Reg.DEC_SYNC_STEPS = 0) (haligned : s.rdN Reg.DEC_SYNC_ALIGNED = 0) :
    exec (.mtrSyncEdge f) s = .next { s with dec := { s.dec with syncs := [(cdiv (pll s + f) 50 * 50 + 100, false)] } } := by
  rw [← modEdge, ← addSync_of_none hsyncs]
  exact (if_neg (not_bnot_of_true hon)).trans (if_neg (by simp [hsyncs, hsteps, haligned]))

/-- Arming takes the place of what was armed before. -/
theorem decCtrlArm_eq (s : State) : exec .decCtrlArm s =
    if s.rdN Reg.DEC_SYNC_AT < s.tb then
      .next (addSync (cdiv (pll s) 50 * 50) true (State.setBit (State.setBit
        { s with dec := { s.dec with syncs := s.dec.syncs.filter (fun x => !x.2) } } Reg.DEC_CTRL 1 true) Reg.DEC_STATUS 1 true))
    else .next (addSync (cdiv (640 * s.rdN Reg.DEC_SYNC_AT) 50 * 50) true (State.setBit
      { s with dec := { s.dec with syncs := s.dec.syncs.filter (fun x => !x.2) } } Reg.DEC_CTRL 1 true)) := by
  simp only [exec_decCtrlArm, execDecCtrlArm, State.setBit_tb, modEdge, pll]
  rfl

/-- One request that is due takes effect; an armed one is armed no longer. -/
theorem decSyncInstant_of_one {a : Nat} {arm : Bool} (hsyncs : s.dec.syncs = [(a, arm)]) (hdue : a / 640 ≤ s.tb) :
    exec .decSyncInstant s = .next (decSync a (if arm then State.setBit { s with dec := { s.dec with syncs := [] } } Reg.DEC_CTRL 1 false
      else { s with dec := { s.dec with syncs := [] } })) := by
  simp [exec_decSyncInstant, execDecSyncInstant, hsyncs, hdue]

theorem dch_updDch (s : State) (ch j : Nat) (f : DecCh → DecCh) : (s.updDch ch f).dch j = if j = ch then f (s.dch ch) else s.dch j := by
  rw [State.dch, State.updDch, mgetD_mputD]
  by_cases hj : j = ch
  · rw [if_pos hj, if_pos hj]
    split
    case isTrue h => exact h.symm
    case isFalse => rfl
  · rw [if_neg hj, if_neg hj, State.dch]

theorem unsettle_dec (ch : Nat) (s : State) : (unsettle ch s).dec = s.dec := by
  unfold unsettle
  split <;> rfl

theorem capEnd_dec (trunc : Bool) (s : State) : (capEnd trunc s).dec = s.dec := by
  unfold capEnd
  split
  · simp only [State.setBit_dec]
  · rfl

/-- A channel begins again at a stepping sync instant. -/
def restartCh (s : State) (ch : Nat) : State :=
  unsettle ch (s.updDch ch (fun c => { c with
    seq := 0, winLen := 0, winOnes := 0, ovrSpan := false, byGain := false, taps := [], fir := [] }))

theorem restartCh_origin (s : State) (ch : Nat) : (restartCh s ch).dec.origin = s.dec.origin := by
  rw [restartCh, unsettle_dec, State.updDch]

theorem restartCh_seq (s : State) (ch j : Nat) : ((restartCh s ch).dch j).seq = if j = ch then 0 else (s.dch j).seq := by
  have hkept : (restartCh s ch).dch j = (s.updDch ch (fun c => { c with
      seq := 0, winLen := 0, winOnes := 0, ovrSpan := false, byGain := false, taps := [], fir := [] })).dch j :=
    congrArg (fun d => mgetD (Dec.chs d) {} j) (unsettle_dec ch _)
  rw [hkept, dch_updDch]
  split <;> rfl

theorem foldl_restartCh (l : List Nat) (s : State) : (l.foldl restartCh s).dec.origin = s.dec.origin ∧
    ∀ j, ((l.foldl restartCh s).dch j).seq = if j ∈ l then 0 else (s.dch j).seq := by
  induction l generalizing s with
  | nil => exact ⟨rfl, fun j => (if_neg List.not_mem_nil).symm⟩
  | cons ch l ih =>
    obtain ⟨horigin, hseq⟩ := ih (restartCh s ch)
    refine ⟨horigin.trans (restartCh_origin s ch), fun j => (hseq j).trans ?_⟩
    rw [restartCh_seq]
    by_cases hch : j = ch <;> by_cases hl : j ∈ l <;> simp [hch, hl]

theorem decStep_restarts (t : Nat) (s : State) : (decStep t s).dec.origin = t ∧ ∀ ch, ch < 8 → ((decStep t s).dch ch).seq = 0 := by
  obtain ⟨horigin, hseq⟩ := foldl_restartCh (List.range 8) { s with dec := { s.dec with origin := t } }
  have hdec : (decStep t s).dec = ((List.range 8).foldl restartCh { s with dec := { s.dec with origin := t } }).dec := capEnd_dec ..
  refine ⟨(congrArg Dec.origin hdec).trans horigin, fun ch hch => ?_⟩
  exact (congrArg (fun d => (mgetD (Dec.chs d) {} ch).seq) hdec).trans ((hseq ch).trans (if_pos (List.mem_range.mpr hch)))

/-- A sync instant off the boundaries of channel 0 is a stepping one. -/
theorem decSync_of_step {a : Nat} (h : (a - s.dec.origin) % (50 * decRatio (respOf s 0)) ≠ 0) :
    decSync a s = (decStep a ((s.putN Reg.DEC_SYNC_TB (a / 640)).putN Reg.DEC_SYNC_FRAC (a % 640))).bump Reg.DEC_SYNC_STEPS := by
  refine if_neg (fun hall => h ?_)
  obtain ⟨_, hmod⟩ := Bool.and_eq_true_iff.mp hall
  exact eq_of_beq hmod

end

/-- Settles O57: an output by the channel, the calibration and the response, an edge and a request by what waits already. -/
theorem decimationChain : Obligations.DecimationChain := by
  unfold Obligations.DecimationChain
  refine ⟨?kept, ?calibration, ?bits, ?filters, ?rejected, ?commit, ?edgeOff, ?edgeNear, ?edge, ?ctrl, ?arm, ?armLate, ?none, ?instant,
    ?armed, ?step, ?captureRuns, ?capture⟩
  case kept => exact fun ch ones s hch h => decOutput_of_kept hch h ones
  case calibration =>
    intro ch ones s u hch hen hdue hph hrun hother hcal hu
    rw [decOutput_of_calibration hch hen hdue hph hrun hother hcal, ← hu]
  case bits =>
    exact fun ch ones s hch hen hdue hph hrun hother hcal hlive hresp => decOutput_of_bits hch hen hdue hph hrun hother hcal hlive hresp ones
  case filters =>
    exact fun ch ones s hch hen hdue hph hrun hother hcal hlive hresp =>
      decOutput_of_filters hch hen hdue hph hrun hother hcal hlive hresp ones
  case rejected => exact fun s h => if_pos h
  case commit => exact fun s h hen => (if_neg (ne_true_of_false h)).trans (next_of_eq (if_pos hen))
  case edgeOff => exact fun f s h => if_pos (bnot_of_false h)
  case edgeNear => exact fun f s => mtrSyncEdge_of_near
  case edge => exact fun f s => mtrSyncEdge_of_first
  case ctrl => exact fun s => rfl
  case arm =>
    intro s u hu htime
    rw [decCtrlArm_eq, if_neg (Nat.not_lt.mpr htime), ← hu]
  case armLate =>
    intro s u hu htime
    rw [decCtrlArm_eq, if_pos htime, ← hu]
  case none =>
    intro s h
    simp only [exec_decSyncInstant, execDecSyncInstant, h]
  case instant =>
    intro a s hsyncs hdue
    rw [decSyncInstant_of_one hsyncs hdue, if_neg Bool.false_ne_true]
  case armed =>
    intro a s hsyncs hdue
    rw [decSyncInstant_of_one hsyncs hdue, if_pos rfl]
  case step =>
    intro a s _ _ h
    rw [decSync_of_step h]
    exact decStep_restarts a _
  case captureRuns => exact fun m s h => if_pos h
  case capture =>
    intro m s u h hu hchans
    rw [hu] at hchans ⊢
    exact (if_neg (ne_true_of_false h)).trans (next_of_eq (if_neg (by simpa using hchans)))

end Sys2Proof.Machine
end

section
/-! Cycles, events, pulses, commits and calibrations of the metering engine (19, R399 to R415). -/

namespace Sys2Proof.Machine

section
variable {s : State}

/-! ### Cycles and the frequency (R399, R402) -/

theorem mtrCycleEnd_of_feed (h : s.hld.ph = .supplied) (n : Nat) (l : List (List Int)) : exec (.mtrCycleEnd false false n l) s =
    if s.tb % 20000 ≠ 0 ∨ s.tb = 0 ∨ (mtrAc s && freqValid s) = true then .next s
    else .next (feedEnd (pll s - 12800000) 12800000 l s) :=
  (if_neg (not_not.mpr h)).trans ((if_neg Bool.false_ne_true).trans (if_neg Bool.false_ne_true))

theorem feedCycle_of_off (h : mtrElems (mtrMode s) = []) (st n : Nat) (l : List (List Int)) : feedCycle st n l s = s :=
  if_pos (by rw [h]; rfl)

theorem feedEnd_of_off {st : Nat} (hat : s.mtr.cycAt = st) (h : mtrElems (mtrMode s) = []) (n : Nat) (l : List (List Int)) :
    feedEnd st n l s = feedBoundary (st + n) false s := by
  simp only [feedEnd, if_pos hat, feedCycle_of_off h, Bool.and_not_self]

/-- An event record changes no register but its own. -/
theorem rdN_evtRecord_ne {a : Nat} (hevt : ∀ i j, a ≠ Reg.MTR_EVT i j) (hprod : a ≠ Reg.MTR_EVT_PROD) (hdrop : a ≠ Reg.MTR_EVT_DROP)
    (type phase cfgSeq start dur extreme : Nat) (s : State) : (evtRecord type phase cfgSeq start dur extreme s).rdN a = s.rdN a := by
  have hwords : ∀ (i : Nat) (v : Nat → Nat) (l : List Nat) (s : State),
      (l.foldl (fun (s : State) j => s.putN (Reg.MTR_EVT i j) (v j)) s).rdN a = s.rdN a := by
    intro i v l
    induction l with
    | nil => exact fun _ => rfl
    | cons j l ih => exact fun s => (ih _).trans (State.rdN_putN_ne s _ (hevt i j))
  simp only [evtRecord]
  split
  · exact (State.rdN_putN_ne _ _ hprod).trans (hwords ..)
  · exact State.rdN_bump_ne s hdrop

theorem freqValid_freqChange (v : Bool) (n : Nat) (s : State) : freqValid (freqChange v n s) = v := by
  have hevt : ∀ i j, Reg.MTR_STATUS ≠ Reg.MTR_EVT i j := fun i j => by simp only [Reg.MTR_STATUS, Reg.MTR_EVT]; omega
  have hkept : (freqChange v n s).rdN Reg.MTR_STATUS = (s.setBit Reg.MTR_STATUS 2 v).rdN Reg.MTR_STATUS := by
    refine (rdN_evtRecord_ne hevt (by decide) (by decide) ..).trans ((State.rdN_putN_ne _ _ (by decide)).trans ?_)
    split
    · rfl
    · exact State.rdN_bump_ne _ (by decide)
  exact (congrArg (bits · 2 1 == 1) hkept).trans (State.bit_setBit_same s _ v (by decide))

/-! ### Half cycles (R410) -/

theorem mtrHalfCycle_of_kept {e : Nat} (he : e < 3) (h : s.hld.ph ≠ .supplied ∨ mtrAc s = false ∨
    (mtrElems (mtrMode s)).any (fun x => x.1 == e) = false) (l : List Int) : exec (.mtrHalfCycle e l) s = .next s := by
  refine (onUnit_next (decide_eq_true he)).trans (next_of_eq (if_neg ?_))
  rw [Bool.and_eq_true, Bool.and_eq_true, beq_iff_eq]
  rintro ⟨⟨hph, hac⟩, helem⟩
  rcases h with h | h | h
  · exact h hph
  · exact ne_true_of_false h hac
  · exact ne_true_of_false h helem

theorem mtrHalfCycle_of_first {e : Nat} (he : e < 3) (hph : s.hld.ph = .supplied) (hac : mtrAc s = true)
    (helem : (mtrElems (mtrMode s)).any (fun x => x.1 == e) = true) (hhalf : mget s.mtr.half e = none) (l : List Int) :
    exec (.mtrHalfCycle e l) s = .next { s with mtr := { s.mtr with half := mput s.mtr.half e (dot l l).natAbs } } := by
  refine (onUnit_next (decide_eq_true he)).trans (next_of_eq ((if_pos ?_).trans ?_))
  · rw [hph, hac, helem]
    rfl
  · rw [hhalf]

/-! ### Pulses (R407, R408) -/

theorem cfPulseEmit_of_kept {k : Nat} (hk : k < 3) (h : s.hld.ph ≠ .supplied ∨ s.bit Reg.MTR_CFG 6 = false ∨ cfFree s k = false ∨
    ((s.cfo k).due = false ∧ s.rdN (Reg.MTR_CF_BACKLOG k) = 0)) : exec (.cfPulseEmit k) s = .next s := by
  refine (if_neg (Nat.not_le.mpr hk)).trans (if_pos ?_)
  rw [Bool.or_eq_true, Bool.or_eq_true, Bool.or_eq_true]
  rcases h with h | h | h | ⟨hdue, hlog⟩
  · exact .inl (.inl (.inl (bne_iff_ne.mpr h)))
  · exact .inl (.inl (.inr (bnot_of_false h)))
  · exact .inl (.inr (bnot_of_false h))
  · exact .inr (by rw [hdue, hlog]; rfl)

theorem cfPulseEmit_of_due {k : Nat} (hk : k < 3) (hph : s.hld.ph = .supplied) (hen : s.bit Reg.MTR_CFG 6 = true)
    (hfree : cfFree s k = true) (hdue : (s.cfo k).due = true) : ∃ w, exec (.cfPulseEmit k) s =
      .next (cfPin k true (State.bump (s.updCf k (fun c => { c with due := false, high := true, width := w, rise := some s.tb }))
        (Reg.MTR_CF_CNT k))) := by
  have hemit : ¬ (s.hld.ph != .supplied || !s.bit Reg.MTR_CFG 6 || !cfFree s k ||
      !((s.cfo k).due || decide (0 < s.rdN (Reg.MTR_CF_BACKLOG k)))) = true := by simp [hph, hen, hfree, hdue]
  rw [exec_cfPulseEmit, execCfPulseEmit, if_neg (Nat.not_le.mpr hk), if_neg hemit]
  exact ⟨_, by rw [if_pos hdue]⟩

/-! ### Calibrations and the 1 ms power (R413, R414) -/

theorem calStart_of_kept {n : Nat} (h : s.mtr.cal.isSome = true ∨ (n ≠ 0 ∧ n < 10) ∨ 250 < n) (phase : Bool) (e : Nat) :
    calStart phase e n s = s := by
  refine if_pos (h.imp_right ?_)
  rintro (⟨h0, h10⟩ | h250)
  · exact .inl (by rwa [if_neg h0])
  · exact .inr (by rwa [if_neg (by omega)])

theorem calStart_of_cycles {n : Nat} (hcal : s.mtr.cal = none) (hlo : 10 ≤ n) (hhi : n ≤ 250) (phase : Bool) (e : Nat) :
    calStart phase e n s = State.putN { s with mtr := { s.mtr with
      cal := some { phase := phase, elem := e, n := n }, saving := false } } Reg.MTR_CAL_STATUS 1 := by
  have hn : n ≠ 0 := by omega
  have hstart : ¬ (s.mtr.cal.isSome = true ∨ n < 10 ∨ 250 < n) := by simp [hcal, hlo, hhi]
  simp only [calStart, if_neg hn, if_neg hstart]

theorem sledP1msTick_of_samples (hon : sledMeterOn s = true) (hdata : s.bit Reg.MTR_STATUS 9 = false) (hn : s.mtr.msN ≠ 0)
    (hph : s.hld.ph = .supplied) : exec .sledP1msTick s =
      .next (putVal Reg.MTR_SLED_P1MS (milli (meanOf (sledScale s) (chScale s 7) s.mtr.ms s.mtr.msN))
        { s with mtr := { s.mtr with ms := 0, msN := 0, toCap := some (milli (meanOf (sledScale s) (chScale s 7) s.mtr.ms s.mtr.msN)) } }) := by
  have hshow : ¬ (!sledMeterOn s || s.bit Reg.MTR_STATUS 9 || s.mtr.msN == 0 || s.hld.ph != .supplied) = true := by
    simp [hon, hdata, hn, hph]
  exact if_neg hshow

end

/-- Settles O58: each event by the supply, the mode and whether its time has come. -/
theorem meteringCommands : Obligations.MeteringCommands := by
  unfold Obligations.MeteringCommands
  refine ⟨?unsupplied, ?sled, ?cross, ?feedNot, ?feed, ?feedOff, ?loss, ?lossNot, ?valid, ?halfNot, ?half, ?pulseNot, ?pulse, ?pulseEnd,
    ?pulseHeld, ?flush, ?clear, ?rejected, ?commit, ?calNot, ?calGain, ?calPhase, ?powerNone, ?power, ?read⟩
  case unsupplied => exact fun sl cr n l s h => if_pos h
  case sled => exact fun cr n l s h => (if_neg (not_not.mpr h)).trans (if_pos rfl)
  case cross => exact fun n l s h => (if_neg (not_not.mpr h)).trans ((if_neg Bool.false_ne_true).trans (if_pos rfl))
  case feedNot =>
    intro n l s hph h
    rw [mtrCycleEnd_of_feed hph, if_pos (h.imp_right (fun h => h.imp_right Bool.and_eq_true_iff.mpr))]
  case feed =>
    intro n l s hph htime hzero hmode
    rw [mtrCycleEnd_of_feed hph, if_neg, pll]
    rintro (h | h | h)
    · exact h htime
    · exact hzero h
    · obtain ⟨hac, hvalid⟩ := Bool.and_eq_true_iff.mp h
      exact hmode.elim (fun h => ne_true_of_false h hac) (fun h => ne_true_of_false h hvalid)
  case feedOff => exact fun st n l s hat h => ⟨feedCycle_of_off h st n l, feedEnd_of_off hat h n l⟩
  case loss => exact fun s hvalid htime => if_pos (Bool.and_eq_true_iff.mpr ⟨hvalid, decide_eq_true htime⟩)
  case lossNot =>
    intro s h
    refine if_neg (fun hlost => ?_)
    obtain ⟨hvalid, htime⟩ := Bool.and_eq_true_iff.mp hlost
    exact h.elim (fun h => ne_true_of_false h hvalid) (fun h => Nat.not_le.mpr h (of_decide_eq_true htime))
  case valid => exact fun v n s => freqValid_freqChange v n s
  case halfNot => exact fun e l s he h => mtrHalfCycle_of_kept he h l
  case half => exact fun e l s he hph hac helem hhalf => mtrHalfCycle_of_first he hph hac helem hhalf l
  case pulseNot => exact fun k s hk h => cfPulseEmit_of_kept hk h
  case pulse =>
    intro k s hk hph hen hfree hdue
    obtain ⟨w, hw⟩ := cfPulseEmit_of_due hk hph hen hfree hdue
    exact ⟨_, w, hw, rfl⟩
  case pulseEnd =>
    exact fun k s hk hhigh htime => (onUnit_next (decide_eq_true hk)).trans
      (next_of_eq (if_pos (Bool.and_eq_true_iff.mpr ⟨hhigh, decide_eq_true htime⟩)))
  case pulseHeld =>
    intro k s hk h
    refine (onUnit_next (decide_eq_true hk)).trans (next_of_eq (if_neg (fun hend => ?_)))
    obtain ⟨hhigh, htime⟩ := Bool.and_eq_true_iff.mp hend
    exact h.elim (fun h => ne_true_of_false h hhigh) (fun h => Nat.not_le.mpr h (of_decide_eq_true htime))
  case flush => exact fun s h => next_of_eq (if_neg h)
  case clear => exact fun k s => rfl
  case rejected => exact fun s h => next_of_eq (if_pos h)
  case commit => exact fun s h => next_of_eq (if_neg (ne_true_of_false h))
  case calNot =>
    exact fun e n s he h => ⟨(onUnit_next (decide_eq_true he)).trans (next_of_eq (calStart_of_kept h false e)),
      (onUnit_next (decide_eq_true he)).trans (next_of_eq (calStart_of_kept h true e))⟩
  case calGain =>
    exact fun e n s he hcal hlo hhi => (onUnit_next (decide_eq_true he)).trans (next_of_eq (calStart_of_cycles hcal hlo hhi false e))
  case calPhase =>
    intro e s he hcal
    exact (onUnit_next (decide_eq_true he)).trans
      (next_of_eq (calStart_of_cycles (n := 50) hcal (by decide) (by decide) true e))
  case powerNone =>
    intro s h
    exact if_pos (by simp [h])
  case power =>
    intro s u hu hon hdata hn hph
    refine ⟨_, ?_, rfl⟩
    rw [sledP1msTick_of_samples hon hdata hn hph, hu]
    rfl
  case read => exact fun r s => rfl

end Sys2Proof.Machine
end

section
/-! Power states, starts, supplies, the housekeeping link and the resets of units (16, R330 to R356). -/

namespace Sys2Proof.Machine

section
variable {s : State}

/-! ### Requests of starts (R330, R340) -/

/-- What MAIN_GOOD notes before a start that is due may begin. -/
def mainNoted (en : Bool) (s : State) : State :=
  let s := { s with rst := { s.rst with mainGood := true, sledEn := en, due := some (s.rst.due.getD 1) } }
  let s := (s.setBit Reg.PWR_DOMAIN 1 true).setBit Reg.HLD_STATUS 2 true
  supplyBack ((s.setBit Reg.PWR_DOMAIN 2 (!s.bit Reg.PWR_DOMAIN 0)).setBit Reg.LDG_STRAP 7 en)

theorem mainGood_eq (en : Bool) (s : State) : exec (.mainGood en) s = .next (tryStart (mainNoted en s)) := rfl

theorem supplyBack_rst (s : State) : (supplyBack s).rst = s.rst := by
  rcases supplyBack_cases s with hback | ⟨hback, _⟩
  · rw [hback]
    rfl
  · rw [hback]

theorem mainNoted_rst (en : Bool) (s : State) : (mainNoted en s).rst =
    { s.rst with mainGood := true, sledEn := en, due := some (s.rst.due.getD 1) } :=
  (supplyBack_rst _).trans rfl

theorem mainNoted_bits (en : Bool) (s : State) : (mainNoted en s).bit Reg.PWR_DOMAIN 1 = true ∧ (mainNoted en s).bit Reg.LDG_STRAP 7 = en := by
  refine ⟨(bit_supplyBack_ne _ (by decide) 1).trans ?_, (bit_supplyBack_ne _ (by decide) 7).trans ?_⟩
  · rw [State.bit_setBit_ne _ (by decide), State.bit_setBit_other _ _ _ (by decide) (by decide), State.bit_setBit_ne _ (by decide),
      State.bit_setBit_same _ _ _ (by decide)]
  · exact State.bit_setBit_same _ _ _ (by decide)

theorem tryStart_of_due {c : Nat} (h : s.rst.due = some c) : tryStart s =
    if s.rdN Reg.PWR_STATE = 1 ∧ s.rst.mainGood ∧ s.rst.sledEn ∧ s.rst.xtalOk ∧ !s.bit Reg.PWR_STATUS 0 then beginStart c false s else s := by
  simp only [tryStart, h]

theorem tryStart_of_waiting (h : s.rst.due = none ∨ s.rdN Reg.PWR_STATE ≠ 1 ∨ s.rst.mainGood = false ∨ s.rst.sledEn = false ∨
    s.rst.xtalOk = false ∨ s.bit Reg.PWR_STATUS 0 = true) : tryStart s = s := by
  cases hdue : s.rst.due with
  | none => simp only [tryStart, hdue]
  | some c =>
    rw [tryStart_of_due hdue, if_neg]
    rintro ⟨hstate, hgood, hsled, hxtal, hcool⟩
    rcases h with h | h | h | h | h | h
    · rw [hdue] at h
      exact absurd h (Option.some_ne_none c)
    · exact h hstate
    · exact ne_true_of_false h hgood
    · exact ne_true_of_false h hsled
    · exact ne_true_of_false h hxtal
    · exact not_bnot_of_true h hcool

/-! ### Steps of a start (R341, R345 to R348) -/

theorem quiesceTimeout_of_some {t c : Nat} (h : s.rst.quiesce = some (t, c)) : exec .quiesceTimeout s =
    .next (if t + 50000 ≤ s.tb then beginStart 12 false s else s) := by
  simp only [exec_quiesceTimeout, execQuiesceTimeout, h]
  split <;> rfl

theorem railRegulationTimeout_of_step {r t : Nat} (hr : r < 12) (h : mget s.rst.steps 1 = some t) : exec (.railRegulationTimeout r) s =
    .next (if s.rst.railRetry.contains r then failStart 1 1 (r + 1) s
      else { s with rst := { s.rst with railRetry := r :: s.rst.railRetry } }) := by
  rw [exec_railRegulationTimeout, execRailRegulationTimeout, if_neg (Nat.not_le.mpr hr), if_neg (by simp [h])]
  split <;> rfl

theorem startStepComplete_of_none {n : Nat} (hn : 1 ≤ n ∧ n < 15) (h : mget s.rst.steps n = none) (ok : Bool) (l : List Nat) :
    exec (.startStepComplete n ok l) s = .next s :=
  (if_neg (by omega)).trans ((if_neg (by omega)).trans (if_pos (by rw [h]; rfl)))

theorem startStepComplete_of_some {n t : Nat} (hn : 1 ≤ n ∧ n < 15) (h : mget s.rst.steps n = some t) (ok : Bool) (l : List Nat) :
    exec (.startStepComplete n ok l) s = .next (endStep n ok l s) :=
  (if_neg (by omega)).trans ((if_neg (by omega)).trans (if_neg (by simp [h])))

theorem startRetry_of_some {t c : Nat} {w : Bool} (h : s.rst.retry = some (t, c, w)) : exec .startRetry s =
    .next (if s.tb < t + 1000000 then s else if c = 16 then enterSafe s else beginStart c w s) := by
  simp only [exec_startRetry, execStartRetry, h]
  split
  · rfl
  · split <;> rfl

/-! ### The housekeeping link (R343) -/

theorem hkTransaction_of_retrain (hup : s.bit Reg.PWR_HK_STATUS 0 = true) (hretrain : s.bit Reg.PWR_HK_STATUS 1 = true) :
    exec (.hkTransaction false) s = .next (if 3 ≤ s.fld Reg.PWR_HK_STATUS 2 2 + 1
      then hubFault 1 ⟨0, 0, 0⟩ { (s.putN Reg.PWR_HK_STATUS (4 * (s.fld Reg.PWR_HK_STATUS 2 2 + 1))) with
        rst := { s.rst with hkRetries := 0 } }
      else hkRetrain (s.putN Reg.PWR_HK_STATUS (1 + 4 * (s.fld Reg.PWR_HK_STATUS 2 2 + 1)))) := by
  rw [exec_hkTransaction, execHkTransaction, if_neg (not_bnot_of_true hup), if_pos hretrain, if_neg Bool.false_ne_true]
  dsimp only
  split <;> rfl

theorem hkTransaction_of_crc (hup : s.bit Reg.PWR_HK_STATUS 0 = true) (hlink : s.bit Reg.PWR_HK_STATUS 1 = false) :
    exec (.hkTransaction false) s = .next (if 8 ≤ (s.bump Reg.PWR_HK_CRC_ERR).rst.hkRetries
      then hkRetrain { (s.bump Reg.PWR_HK_CRC_ERR) with rst := { (s.bump Reg.PWR_HK_CRC_ERR).rst with hkRetries := 0 } }
      else { (s.bump Reg.PWR_HK_CRC_ERR) with rst := { (s.bump Reg.PWR_HK_CRC_ERR).rst with
        hkRetries := (s.bump Reg.PWR_HK_CRC_ERR).rst.hkRetries + 1 } }) := by
  rw [exec_hkTransaction, execHkTransaction, if_neg (not_bnot_of_true hup), if_neg (ne_true_of_false hlink), if_neg Bool.false_ne_true]
  dsimp only
  split <;> rfl

/-! ### Resets of units (R351 to R353) -/

theorem rstUnit_of_refused {t i : Nat} (h : unitAbsent s t i = true ∨ unitRetired s t i = true ∨ s.rdN Reg.PWR_STATE ≠ 3 ∨
    s.tb < s.rst.busyUntil) : exec (.rstUnit t i 0x7E57) s = .next (s.setBit Reg.RST_UNIT_STATUS 1 true) := by
  refine next_of_eq ((if_neg (not_not.mpr rfl)).trans (if_pos ?_))
  rw [Bool.or_eq_true, Bool.or_eq_true, Bool.or_eq_true, decide_eq_true_eq, decide_eq_true_eq]
  exact or_assoc.mpr (or_assoc.mpr h)

theorem rstUnit_of_ready {t i : Nat} (habsent : unitAbsent s t i = false) (hret : unitRetired s t i = false)
    (hrun : s.rdN Reg.PWR_STATE = 3) (hready : s.rst.busyUntil ≤ s.tb) : exec (.rstUnit t i 0x7E57) s =
      .next { resetUnit t i s with rst := { (resetUnit t i s).rst with
        busyUntil := if (resetUnit t i s).rst.deferred.contains (unitKey t i)
          then mgetD (resetUnit t i s).rst.resetAt (resetUnit t i s).tb (unitKey t i) + 1000 + resetTime t
          else mgetD (resetUnit t i s).rst.resetAt (resetUnit t i s).tb (unitKey t i) } } := by
  refine next_of_eq ((if_neg (not_not.mpr rfl)).trans (if_neg ?_))
  rw [habsent, hret, hrun]
  simpa using hready

theorem unitResetDeferred_of_kept {t i : Nat} (hi : i < unitCount t) (h : s.rst.deferred.contains (unitKey t i) = false ∨
    s.tb < mgetD s.rst.resetAt 0 (unitKey t i) + 1000) : exec (.unitResetDeferred t i) s = .next s := by
  refine (if_neg (Nat.not_le.mpr hi)).trans (if_neg ?_)
  rintro ⟨hdeferred, htime⟩
  exact h.elim (fun h => ne_true_of_false h hdeferred) (fun h => Nat.not_le.mpr h htime)

end

/-- Settles O48: each event by the power state, the time and what is under way. -/
theorem startsAndResets : Obligations.StartsAndResets := by
  unfold Obligations.StartsAndResets
  refine ⟨?restartKey, ?restart, ?restartIgnored, ?mainGood, ?begins, ?waits, ?sledEn, ?quiesce, ?quiesceNot, ?railNot, ?rail, ?stepNot,
    ?step, ?stepEnds, ?quiesceEnds, ?limitNot, ?limit, ?retryNot, ?retry, ?safeNot, ?safe, ?lockOff, ?lock, ?xtalStop, ?xtalReturn,
    ?trip, ?cool, ?hkDown, ?hkGood, ?hkBad, ?hkTrained, ?hkRetrain, ?unitKey, ?unitRefused, ?unitReset, ?spacing, ?deferred,
    ?deferredNot, ?noticeNot, ?notice⟩
  case restartKey => exact fun k s hk => ⟨next_of_eq (if_pos hk), next_of_eq (if_pos hk)⟩
  case restart =>
    exact fun s hrun => ⟨next_of_eq ((if_neg (not_not.mpr rfl)).trans (if_pos hrun)),
      next_of_eq ((if_neg (not_not.mpr rfl)).trans (if_pos hrun))⟩
  case restartIgnored =>
    exact fun s hrun => ⟨next_of_eq ((if_neg (not_not.mpr rfl)).trans (if_neg hrun)),
      next_of_eq ((if_neg (not_not.mpr rfl)).trans (if_neg hrun))⟩
  case mainGood =>
    intro en s
    obtain ⟨hdomain, hstrap⟩ := mainNoted_bits en s
    refine ⟨_, mainGood_eq en s, ?_, ?_, ?_, hdomain, hstrap⟩ <;> rw [mainNoted_rst]
  case begins =>
    intro s c hdue hstate hgood hsled hxtal hcool
    rw [tryStart_of_due hdue, if_pos ⟨hstate, hgood, hsled, hxtal, bnot_of_false hcool⟩]
  case waits => exact fun s => tryStart_of_waiting
  case sledEn =>
    intro s u hu
    rw [hu]
    rfl
  case quiesce => exact fun s t c => quiesceTimeout_of_some
  case quiesceNot =>
    intro s h
    simp only [exec_quiesceTimeout, execQuiesceTimeout, h]
  case railNot => exact fun r s hr h => (if_neg (Nat.not_le.mpr hr)).trans (if_pos (by rw [h]; rfl))
  case rail => exact fun r t s => railRegulationTimeout_of_step
  case stepNot => exact fun n ok l s hn h => startStepComplete_of_none hn h ok l
  case step => exact fun n t ok l s hn h => startStepComplete_of_some hn h ok l
  case stepEnds => exact fun s => ⟨rfl, rfl, rfl, rfl⟩
  case quiesceEnds =>
    intro ok l s t c h
    simp only [exec_startStepComplete, execStartStepComplete, h]
    rfl
  case limitNot =>
    intro s h
    refine if_neg ?_
    rintro ⟨hstate, hretry, htime⟩
    rcases h with h | h | h
    · exact h hstate
    · rw [Option.isNone_iff_eq_none.mp hretry] at h
      exact Bool.false_ne_true h
    · exact Nat.not_le.mpr h htime
  case limit => exact fun s hstate hretry htime => if_pos ⟨hstate, by rw [hretry]; rfl, htime⟩
  case retryNot =>
    intro s h
    simp only [exec_startRetry, execStartRetry, h]
  case retry => exact fun s t c w => startRetry_of_some
  case safeNot => exact fun k s h => if_pos h
  case safe => exact fun s h => if_neg (by simp [h])
  case lockOff => exact fun s h => if_pos h
  case lock => exact fun s h => if_neg (Nat.not_le.mpr h)
  case xtalStop =>
    refine fun s => ⟨_, rfl, rfl, ?_, State.bit_setBit_same _ _ _ (by decide)⟩
    exact (State.bit_setBit_other _ _ _ (by decide) (by decide)).trans (State.bit_setBit_same _ _ _ (by decide))
  case xtalReturn =>
    refine fun s => ⟨_, rfl, rfl, ?_, State.bit_setBit_same _ _ _ (by decide)⟩
    exact (State.bit_setBit_other _ _ _ (by decide) (by decide)).trans (State.bit_setBit_same _ _ _ (by decide))
  case trip =>
    intro s u hu
    rw [exec_overtempTrip, execOvertempTrip, ← hu]
    by_cases hoff : u.rdN Reg.PWR_STATE ≤ 1
    · exact ⟨u, if_pos hoff, fun _ => rfl, fun hon => absurd hoff (Nat.not_le.mpr hon)⟩
    · exact ⟨_, if_neg hoff, fun h => absurd h hoff, fun _ => rfl⟩
  case cool => exact fun s => rfl
  case hkDown => exact fun ok s h => if_pos (bnot_of_false h)
  case hkGood =>
    exact fun s hup hlink => (if_neg (not_bnot_of_true hup)).trans ((if_neg (ne_true_of_false hlink)).trans (if_pos rfl))
  case hkBad =>
    intro s u hup hlink hu
    rw [hkTransaction_of_crc hup hlink, ← hu]
  case hkTrained => exact fun s hup hretrain => (if_neg (not_bnot_of_true hup)).trans ((if_pos hretrain).trans (if_pos rfl))
  case hkRetrain =>
    intro s n hup hretrain hn
    rw [hkTransaction_of_retrain hup hretrain, ← hn]
  case unitKey => exact fun t i k s hk => next_of_eq (if_pos hk)
  case unitRefused => exact fun t i s => rstUnit_of_refused
  case unitReset =>
    intro t i s u habsent hret hrun hready hu
    rw [rstUnit_of_ready habsent hret hrun hready, ← hu]
    exact ⟨_, rfl, rfl⟩
  case spacing => exact fun t i s => rfl
  case deferred => exact fun t i s hi hdeferred htime => (if_neg (Nat.not_le.mpr hi)).trans (if_pos ⟨hdeferred, htime⟩)
  case deferredNot => exact fun t i s => unitResetDeferred_of_kept
  case noticeNot =>
    intro t i s hi h
    simp only [exec_resetNotice, execResetNotice, if_neg (Nat.not_le.mpr hi), h]
  case notice =>
    intro t i s n hi h
    simp only [exec_resetNotice, execResetNotice, if_neg (Nat.not_le.mpr hi), h]

end Sys2Proof.Machine
end

section
/-! What leaves the state of the host interface and HIF_HOST_ABSENT as they are (15, R320, R328, R329): messages, completions, moves,
turns and tenants, as far as the end of a function's work reaches them. -/

namespace Sys2Proof.Machine

/-- The host interface's own state and HIF_HOST_ABSENT are as before. -/
structure HostKept (s t : State) : Prop where
  absent : t.rd Reg.HIF_HOST_ABSENT = s.rd Reg.HIF_HOST_ABSENT
  hif : t.hif = s.hif

namespace HostKept

theorem refl (s : State) : HostKept s s := ⟨rfl, rfl⟩

/-- The change of `k` comes after that of `h`. -/
theorem after {s t u : State} (k : HostKept t u) (h : HostKept s t) : HostKept s u :=
  ⟨k.absent.trans h.absent, k.hif.trans h.hif⟩

theorem hostAbsent_eq {s t : State} (h : HostKept s t) : hostAbsent t = hostAbsent s := by
  rw [hostAbsent, hostAbsent, State.bit, State.bit, State.fld, State.fld, State.rdN, State.rdN, h.absent]

/-- A write of another register. -/
theorem put (s : State) {a : Nat} (v : DWord) (h : Reg.HIF_HOST_ABSENT ≠ a) : HostKept s (s.put a v) := ⟨State.rd_put_ne s v h, rfl⟩

theorem foldl {α : Type} {f : State → α → State} (hf : ∀ s a, HostKept s (f s a)) (l : List α) (s : State) :
    HostKept s (l.foldl f s) := by
  induction l generalizing s with
  | nil => exact refl s
  | cons a l ih => exact (ih (f s a)).after (hf s a)

theorem foldr {α : Type} {f : α → State → State} (hf : ∀ a s, HostKept s (f a s)) (l : List α) (s : State) :
    HostKept s (l.foldr f s) := by
  induction l with
  | nil => exact refl s
  | cons a l ih => exact (hf a _).after ih

theorem ite {c : Prop} {inst : Decidable c} {s t u : State} (ht : HostKept s t) (hu : HostKept s u) :
    HostKept s (if c then t else u) := by
  by_cases h : c
  · rwa [if_pos h]
  · rwa [if_neg h]

/-- A step that is taken or not, after what comes before it in either case. -/
theorem afterIte {c : Prop} {inst : Decidable c} {s t u : State} (k : HostKept t u) (h : HostKept s t) :
    HostKept s (if c then u else t) := .ite (k.after h) h

end HostKept

/-! ### Records, flits and messages -/

theorem hostKept_traceRec (s : State) (id src unit : Nat) (args : List Nat) : HostKept s (s.traceRec id src unit args) :=
  .ite (.after (t := s.bump Reg.FW_TRACE_SEQ) ⟨rfl, rfl⟩ (.put s _ (by decide))) (.refl s)

theorem hostKept_outcome (s : State) (slot : Nat) (st : Status) : HostKept s (s.outcome slot st) := .ite ⟨rfl, rfl⟩ ⟨rfl, rfl⟩

theorem hostKept_freeBuf (o : Option (Nat × Nat)) (s : State) : HostKept s (freeBuf o s) := by
  cases o with
  | none => exact .refl s
  | some b => exact .ite ⟨rfl, rfl⟩ ⟨rfl, rfl⟩

theorem hostKept_transmit (p : Nat) (q : QFlit) (s : State) : HostKept s (transmit p q s) := by
  have hne : Reg.HIF_HOST_ABSENT ≠ Reg.LNK_FLITS_TX p := by simp only [Reg.HIF_HOST_ABSENT, Reg.LNK_FLITS_TX]; omega
  have hport (f : LPort → LPort) : HostKept s (s.updLport p f) := ⟨rfl, rfl⟩
  have hemit (t : State) (o : Output) : HostKept t (t.emit o) := ⟨rfl, rfl⟩
  exact (hostKept_freeBuf q.origin _).after ((hemit _ _).after ((HostKept.put _ _ hne).after (hport _)))

theorem hostKept_pump (p n : Nat) (s : State) : HostKept s (pump p n s) := by
  induction n generalizing s with
  | zero => exact .refl s
  | succ n ih =>
    rw [pump]
    split
    · exact .refl s
    · split
      · exact .refl s
      · exact (ih _).after (hostKept_transmit p _ s)

theorem hostKept_atOutput (p : Nat) (q : QFlit) (s : State) : HostKept s (atOutput p q s) :=
  (hostKept_pump p _ _).after ⟨rfl, rfl⟩

theorem hostKept_routeOf (s : State) (f : Flit) : HostKept s (routeOf s f).2 := by
  unfold routeOf
  dsimp only
  split
  · exact .refl s
  · split
    · split <;> exact .refl s
    · split
      · exact .refl s
      · split
        · exact .refl s
        · exact .refl s
        · exact ⟨rfl, rfl⟩

theorem hostKept_routeFlit (q : QFlit) (s : State) : HostKept s (routeFlit q s) := by
  have hroute := hostKept_routeOf s q.flit
  rw [routeFlit]
  generalize routeOf s q.flit = r at hroute ⊢
  obtain ⟨_ | ⟨p, v⟩, t⟩ := r
  · exact ((hostKept_freeBuf q.origin _).after (.put t _ (by decide))).after hroute
  · exact (hostKept_atOutput p _ t).after hroute

theorem hostKept_sendAs (s : State) (tenant rtag type dest : Nat) (xs : List Nat) : HostKept s (s.sendAs tenant rtag type dest xs) := by
  rw [State.sendAs]
  split
  · exact ⟨rfl, rfl⟩
  · split
    · exact .refl s
    · refine (hostKept_routeFlit _ _).after ?_
      split <;> exact ⟨rfl, rfl⟩

theorem hostKept_sendReq (use : ReqFor) (tenant type dest : Nat) (xs : Nat → List Nat) (s : State) :
    HostKept s (sendReq use tenant type dest xs s).2 := (hostKept_sendAs ..).after ⟨rfl, rfl⟩

theorem hostKept_hieReq (type dest : Nat) (xs : List Nat) (s : State) : HostKept s (hieReq type dest xs s) :=
  .after (t := (sendReq (.hier 0) 0 type dest (fun _ => xs) s).2) ⟨rfl, rfl⟩ (hostKept_sendReq ..)

theorem hostKept_spanOp (slot op : Nat) (s : State) : HostKept s (spanOp slot op s) := by
  unfold spanOp
  split
  · exact .refl s
  · exact .foldl (fun _ _ => hostKept_hieReq ..) _ s

theorem hostKept_sendBulk (tenant tag dest move : Nat) (bs : List Byte) (s : State) : HostKept s (sendBulk tenant tag dest move bs s) :=
  .foldl (fun _ _ => hostKept_sendAs ..) _ s

/-! ### Writes to the host, notices and tenants -/

theorem hostKept_sendHost (f : Nat) (w : HostWrite) (s : State) : HostKept s (sendHost f w s) := by
  cases w with
  | data flight a bytes =>
    simp only [sendHost]
    split <;> exact ⟨rfl, rfl⟩
  | _ => exact ⟨rfl, rfl⟩

theorem hostKept_postWrite (f : Nat) (w : HostWrite) (s : State) : HostKept s (postWrite f w s) :=
  .ite (.ite (.refl s) ⟨rfl, rfl⟩) (hostKept_sendHost f w s)

theorem hostKept_raiseVec (f v : Nat) (s : State) : HostKept s (raiseVec f v s) := .ite ⟨rfl, rfl⟩ (hostKept_postWrite ..)

theorem hostKept_raiseTen (slot v : Nat) (s : State) : HostKept s (raiseTen slot v s) := by
  unfold raiseTen
  split
  · exact hostKept_raiseVec ..
  · exact hostKept_raiseVec ..
  · exact .refl s

theorem hostKept_notice (f : Nat) (r : Reply) (s : State) : HostKept s (notice f r s) := (hostKept_raiseVec f 0 _).after ⟨rfl, rfl⟩

theorem hostKept_deferRefused (d : Deferred) (st : Status) (n : Nat) (s : State) : HostKept s (deferRefused d st n s) :=
  (hostKept_notice ..).after (.ite ⟨rfl, rfl⟩ ⟨rfl, rfl⟩)

theorem hostKept_dropKeys (slot : Nat) (s : State) : HostKept s (dropKeys slot s) := .ite ⟨rfl, rfl⟩ (.refl s)

theorem hostKept_evResize (slot : Nat) (s : State) : HostKept s (evResize slot s) := by
  have hcores (x : ECore → ECore) (l : List Nat) (t : State) : HostKept t (l.foldl (fun t c => t.updCore c x) t) :=
    .foldl (f := fun t c => t.updCore c x) (fun _ _ => ⟨rfl, rfl⟩) l t
  unfold evResize
  split
  · exact .refl s
  · refine .ite ((hcores ..).after ?keys) ((hostKept_dropKeys slot _).after ((hcores ..).after ?keys))
    refine .ite ?_ (.refl s)
    split <;> exact ⟨rfl, rfl⟩

theorem hostKept_rehold (f : Nat) (p : Nat → Bool) (s : State) : HostKept s (rehold f p s) := by
  refine HostKept.after (.foldr (fun w t => ?_) _ _) (t := s.updFn f _) ⟨rfl, rfl⟩
  cases w with
  | entry slot q index irq c => exact .ite ⟨rfl, rfl⟩ (.refl t)
  | _ => exact .refl t

theorem hostKept_parkTenant (slot : Nat) (s : State) : HostKept s (parkTenant slot s) := by
  have hflush (u : State) (o : Nat × Obj) : HostKept u (autoFlush slot o.1 u) := ⟨rfl, rfl⟩
  unfold parkTenant
  split
  · exact .refl s
  · rename_i t _
    refine .ite (.refl s) ((hostKept_spanOp slot 1 _).after ?_)
    refine .after (t := List.foldl _ _ _) ⟨rfl, rfl⟩ ((HostKept.foldl hflush _ _).after ?_)
    exact .after (t := rehold (t.fn.getD 0) (· == slot) (s.traceRec 4 3 0xFFFF [t.id, slot])) ⟨rfl, rfl⟩
      ((hostKept_rehold ..).after (hostKept_traceRec ..))

/-! ### The deferral queue -/

theorem hostKept_settle (f slot : Nat) (s : State) : HostKept s (settle f slot s) := .ite (.refl s) (hostKept_parkTenant slot s)

theorem hostKept_enter (f slot id : Nat) (r : AdmReq) (s : State) : HostKept s (enter f slot id r s) :=
  (hostKept_evResize slot _).after ⟨rfl, rfl⟩

theorem hostKept_reevaluate (k : Nat) (s : State) : HostKept s (reevaluate k s) := by
  induction k generalizing s with
  | zero => exact .refl s
  | succ k ih =>
    unfold reevaluate
    split
    · exact .refl s
    · refine .ite (((ih _).after (hostKept_deferRefused ..)).after ⟨rfl, rfl⟩) ?_
      split
      · refine (ih _).after ((hostKept_notice ..).after ((hostKept_outcome ..).after ?_))
        exact (hostKept_settle ..).after ((hostKept_enter ..).after ⟨rfl, rfl⟩)
      · exact .refl s

theorem hostKept_reevaluateAll (s : State) : HostKept s (reevaluateAll s) := by
  have hcap : HostKept s (withholdLent s) :=
    .after (t := State.putN _ _ _) ⟨rfl, rfl⟩ ((HostKept.put _ _ (by decide)).after (.put s _ (by decide)))
  exact .ite (.refl s) ((hostKept_reevaluate ..).after hcap)

/-! ### Moves, objects and regions -/

theorem hostKept_dropMove (m : Move) (s : State) : HostKept s (dropMove m s) := by
  refine (HostKept.put _ _ (by decide)).after ?_
  split <;> exact ⟨rfl, rfl⟩

theorem hostKept_dropMoves (p : Move → Bool) (s : State) : HostKept s (dropMoves p s) :=
  .foldl (fun t m => hostKept_dropMove m t) _ s

theorem hostKept_poisonPage (slot idx page : Nat) (s : State) : HostKept s (poisonPage slot idx page s) := by
  unfold poisonPage
  split
  · exact .refl s
  · exact .ite (.refl s) (.after (t := State.bump _ Reg.TIER_POISONED) ⟨rfl, rfl⟩ ((HostKept.put _ _ (by decide)).after ⟨rfl, rfl⟩))

theorem hostKept_poisonWhere (slot : Nat) (p : Page → Bool) (s : State) : HostKept s (poisonWhere slot p s) := by
  unfold poisonWhere
  split
  · exact .refl s
  · exact .foldl (fun t _ => .foldl (fun t _ => hostKept_poisonPage ..) _ t) _ s

theorem hostKept_revokeRegions (slot : Nat) (p : Region → Bool) (s : State) : HostKept s (revokeRegions slot p s) := by
  unfold revokeRegions
  split
  · exact .refl s
  · exact (hostKept_poisonWhere ..).after ((hostKept_dropMoves ..).after ⟨rfl, rfl⟩)

theorem hostKept_revokeFn (f : Nat) (s : State) : HostKept s (revokeFn f s) := .foldl (fun _ _ => hostKept_revokeRegions ..) _ s

/-- Every tenant is parked and its regions are revoked, and what was deferred is evaluated again. -/
def parkAll (s : State) : State :=
  reevaluateAll ((s.adm.tenants.map (·.1)).foldl (fun s i => revokeRegions i (fun _ => true) (parkTenant i s)) s)

theorem hostKept_parkAll (s : State) : HostKept s (parkAll s) :=
  (hostKept_reevaluateAll _).after (.foldl (fun t i => (hostKept_revokeRegions i _ _).after (hostKept_parkTenant i t)) _ s)

theorem enterHostAbsent_eq (s : State) : enterHostAbsent s =
    parkAll (if hostAbsent s then s else (s.setBit Reg.HIF_HOST_ABSENT 0 true).putN Reg.HIF_ABSENT_SINCE s.tb) := rfl

/-- Host-absent mode is shown, and leaves the VFs as they are. -/
theorem enterHostAbsent_shows (s : State) : hostAbsent (enterHostAbsent s) = true ∧ (enterHostAbsent s).hif = s.hif := by
  have hkept := hostKept_parkAll (if hostAbsent s then s else (s.setBit Reg.HIF_HOST_ABSENT 0 true).putN Reg.HIF_ABSENT_SINCE s.tb)
  rw [enterHostAbsent_eq, hkept.hostAbsent_eq, hkept.hif]
  split
  case isTrue habsent => exact ⟨habsent, rfl⟩
  case isFalse =>
    refine ⟨?_, rfl⟩
    rw [hostAbsent, State.bit, State.fld_putN_ne _ _ (by decide)]
    exact State.bit_setBit_same s _ _ (by decide)

end Sys2Proof.Machine
end

section
/-! What the reset of a function leaves as it is (15, R328): the ends of commands, turns and moves that it brings about. -/

namespace Sys2Proof.Machine

/-! ### Completions and turns -/

theorem hostKept_raiseQueue (slot q : Nat) (irq : Bool) (s : State) : HostKept s (raiseQueue slot q irq s) :=
  .ite (.refl s) (.ite (hostKept_raiseTen ..) (.ite ⟨rfl, rfl⟩ ((hostKept_raiseTen ..).after ⟨rfl, rfl⟩)))

theorem hostKept_deliver (slot q : Nat) (irq : Bool) (c : Completion) (s : State) : HostKept s (deliver slot q irq c s) := by
  unfold deliver
  split
  · exact .refl s
  · refine (hostKept_raiseQueue ..).after (.after (t := postWrite _ _ (postWrite _ _ s)) ⟨rfl, rfl⟩ ?_)
    exact (hostKept_postWrite ..).after (hostKept_postWrite ..)

theorem hostKept_produce (slot q : Nat) (irq : Bool) (c : Completion) (s : State) : HostKept s (produce slot q irq c s) :=
  .ite ((hostKept_deliver ..).after ⟨rfl, rfl⟩) ⟨rfl, rfl⟩

theorem hostKept_endToken (key : Nat) (launch : Bool) (num : Nat) (st : Word) (result : Nat) (report : List Word) (s : State) :
    HostKept s (endToken key launch num st result report s) := .ite (.refl s) ⟨rfl, rfl⟩

theorem hostKept_finish (id : Nat) (t : Status) (result : Nat) (s : State) : HostKept s (finish id t result s) := by
  have houtcome (u : State) (f : Flight) : HostKept u (unreserve f.slot 1 (u.outcome f.slot t)) :=
    .after (t := u.outcome f.slot t) ⟨rfl, rfl⟩ (hostKept_outcome ..)
  unfold finish
  split
  · exact .refl s
  · dsimp only
    split
    · exact ⟨rfl, rfl⟩
    · exact (hostKept_produce ..).after ((houtcome ..).after ⟨rfl, rfl⟩)
    · exact .afterIte (hostKept_produce ..) ((hostKept_endToken ..).after ((houtcome ..).after ⟨rfl, rfl⟩))

theorem hostKept_partDone (id : Nat) (t : Status) (s : State) : HostKept s (partDone id t s) := by
  unfold partDone
  dsimp only
  split
  · exact .ite ((hostKept_finish ..).after ⟨rfl, rfl⟩) ⟨rfl, rfl⟩
  · exact ⟨rfl, rfl⟩

theorem hostKept_cancelDone (cid seq : Nat) (s : State) : HostKept s (cancelDone cid seq s) :=
  .foldl (fun _ _ => hostKept_partDone ..) _ s

theorem hostKept_updCtx (s : State) (cid : Nat) (f : Ctx → Ctx) : HostKept s (s.updCtx cid f) := ⟨rfl, rfl⟩

/-- The flight of a turn goes out of the list. -/
theorem hostKept_unreserve (slot n : Nat) (l : List Flight) (s : State) :
    HostKept s (unreserve slot n { s with flights := l }) := ⟨rfl, rfl⟩

theorem hostKept_turnEnd (cid : Nat) (c : Ctx) (t : Turn) (all : List Status) (stop new : Nat) (s : State) :
    HostKept s (turnEnd cid c t all stop new s) := by
  have houtcomes : HostKept s (if all.isEmpty then s.outcome c.slot ⟨0, 0, 0⟩ else all.foldl (fun s o => s.outcome c.slot o) s) :=
    .ite (hostKept_outcome ..) (.foldl (fun _ _ => hostKept_outcome ..) _ s)
  unfold turnEnd
  refine (hostKept_cancelDone ..).after ?_
  dsimp only
  split
  · exact (hostKept_updCtx ..).after houtcomes
  · split
    · refine .afterIte (hostKept_produce ..) ((hostKept_endToken ..).after ?_)
      exact (hostKept_unreserve ..).after ((hostKept_updCtx ..).after houtcomes)
    · exact (hostKept_produce ..).after ((hostKept_unreserve ..).after ((hostKept_updCtx ..).after houtcomes))

theorem hostKept_endTurn (cid : Nat) (extra : List Status) (stop : Nat) (s : State) : HostKept s (endTurn cid extra stop s) := by
  unfold endTurn
  split
  · exact .refl s
  · split
    · exact .refl s
    · dsimp only
      split
      · exact (hostKept_updCtx ..).after (hostKept_turnEnd ..)
      · exact (hostKept_updCtx ..).after ((hostKept_updCtx ..).after (hostKept_turnEnd ..))

theorem hostKept_turnFail (id : Nat) (st : Status) (s : State) : HostKept s (turnFail id st s) := by
  unfold turnFail
  split
  · exact hostKept_finish ..
  · split
    · exact .refl s
    · exact .ite (hostKept_endTurn ..) ((hostKept_turnEnd ..).after ⟨rfl, rfl⟩)

/-! ### Moves that start again -/

theorem hostKept_drawSize (o : Obj) (s : State) : HostKept s (drawSize o s).2 := by
  unfold drawSize
  split <;> exact ⟨rfl, rfl⟩

theorem hostKept_splitStored (k total : Nat) (s : State) : HostKept s (splitStored k total s).2 := by
  induction k using Nat.strongRecOn generalizing total s with
  | _ k ih =>
    match k with
    | 0 => exact .refl s
    | 1 => exact .refl s
    | k + 2 => exact (ih (k + 1) (Nat.lt_succ_self _) _ _).after ⟨rfl, rfl⟩

theorem hostKept_setMoves (s : State) (l : List Move) : HostKept s { s with moves := l } := ⟨rfl, rfl⟩

theorem hostKept_peerMove (m : Move) (o : Obj) (s : State) : HostKept s (peerMove m o s) := by
  have hsize : HostKept s (if m.src = 1 then drawSize o s
      else (max (64 * (pieces o m.page).length) (o.page m.page).stored, s)).2 := by
    split
    · exact hostKept_drawSize o s
    · exact .refl s
  unfold peerMove
  refine .ite ?_ (.ite (.after (.foldl (fun _ _ => hostKept_sendReq ..) _ _) (hostKept_setMoves ..)) (.refl s))
  dsimp only
  generalize (if m.src = 1 then drawSize o s else (max (64 * (pieces o m.page).length) (o.page m.page).stored, s)) = r at hsize ⊢
  obtain ⟨n, u⟩ := r
  refine .after (.foldl (fun _ _ => (hostKept_sendBulk ..).after (hostKept_sendReq ..)) _ _) ((hostKept_setMoves ..).after ?_)
  exact (hostKept_splitStored ..).after hsize

theorem hostKept_startMove (slot obj page dst loc : Nat) (cause : MoveFor) (s : State) :
    HostKept s (startMove slot obj page dst loc cause s) := by
  unfold startMove
  split
  · exact .refl s
  · exact (hostKept_peerMove ..).after ⟨rfl, rfl⟩

theorem hostKept_cancelMove (m : Move) (s : State) : HostKept s (cancelMove m s) := by
  have hdrop : HostKept s ((dropMove m s).bump Reg.TIER_MOVE_CANCEL) := (HostKept.put _ _ (by decide)).after (hostKept_dropMove m s)
  have hstart := (hostKept_startMove m.slot m.obj m.page m.dst m.dstLoc m.cause _).after hdrop
  unfold cancelMove
  dsimp only
  split
  · exact .ite ((hostKept_partDone ..).after hdrop) ((hostKept_setMoves ..).after hstart)
  · exact (hostKept_setMoves ..).after hstart
  · exact (hostKept_setMoves ..).after hstart
  · exact hdrop

theorem hostKept_cancelMoves (slot obj : Nat) (pages : List Nat) (s : State) : HostKept s (cancelMoves slot obj pages s) :=
  .foldl (fun t m => hostKept_cancelMove m t) _ s

/-! ### Objects and blocks that are given back -/

theorem hostKept_releasePeers (handle : DWord) (o : Obj) (s : State) : HostKept s (releasePeers handle o s) :=
  .foldl (fun t _ => .foldl (fun _ _ => hostKept_sendAs ..) _ t) _ s

theorem hostKept_startZero (z : ZeroJob) (s : State) : HostKept s (startZero z s) := ⟨rfl, rfl⟩

theorem hostKept_updObj (slot idx : Nat) (f : Obj → Obj) (s : State) : HostKept s (s.updObj slot idx f) := ⟨rfl, rfl⟩

theorem hostKept_setObj (slot idx : Nat) (o : Obj) (s : State) : HostKept s (s.setObj slot idx o) := ⟨rfl, rfl⟩

theorem hostKept_updTen (slot : Nat) (f : Tenant → Tenant) (s : State) : HostKept s (s.updTen slot f) := ⟨rfl, rfl⟩

theorem hostKept_releaseObj (slot idx : Nat) (s : State) : HostKept s (releaseObj slot idx s) := by
  have hdrop := hostKept_dropMoves (fun m => m.slot == slot && m.obj == idx) s
  unfold releaseObj
  refine .ite hdrop ((hostKept_startZero ..).after ((hostKept_updObj ..).after ?_))
  split
  · exact (hostKept_releasePeers ..).after hdrop
  · exact hdrop

theorem hostKept_freeObj (slot idx : Nat) (s : State) : HostKept s (freeObj slot idx s) := by
  unfold freeObj
  split
  · exact .refl s
  · refine .ite (.refl s) (.ite ?_ ((hostKept_releaseObj ..).after (hostKept_updTen ..)))
    exact (hostKept_dropMoves ..).after ((hostKept_setObj ..).after (hostKept_updTen ..))

theorem hostKept_settleEntry (n : Nat) (s : State) : HostKept s (settleEntry n s) := by
  unfold settleEntry
  split
  · exact .refl s
  · refine .ite ?_ (.refl s)
    split
    · exact hostKept_freeObj ..
    · refine .ite (.refl s) ((hostKept_startZero ..).after ?_)
      split
      · exact hostKept_releasePeers ..
      · exact .refl s

theorem hostKept_dropBlock (slot : Nat) (s : State) (b : BlockRef) : HostKept s (dropBlock slot s b) := by
  cases b with
  | entry n => exact (hostKept_settleEntry ..).after ⟨rfl, rfl⟩
  | remote _ _ _ => exact .refl s
  | priv o => exact hostKept_freeObj slot o s

theorem hostKept_setPfx (s : State) (x : Pfx) : HostKept s { s with pfx := x } := ⟨rfl, rfl⟩

theorem hostKept_dropBlocks (slot : Nat) (gone kept : List BlockRef) (s : State) : HostKept s (dropBlocks slot gone kept s) :=
  .after (.foldl (fun _ _ => (hostKept_setPfx ..).after (hostKept_sendAs ..)) _ _)
    (.foldl (fun t b => hostKept_dropBlock slot t b) gone s)

theorem hostKept_remoteFail (cid b : Nat) (s : State) : HostKept s (remoteFail cid b s) := by
  unfold remoteFail
  split
  · exact .refl s
  · refine (hostKept_updCtx ..).after ((HostKept.put _ _ (by decide)).after ?_)
    exact (hostKept_updCtx ..).after (hostKept_dropBlocks ..)

theorem hostKept_endWaiters (slot obj : Nat) (st : Status) (s : State) : HostKept s (endWaiters slot obj st s) :=
  .foldl (fun _ _ => hostKept_endTurn ..) _ s

/-! ### Bytes read and stored -/

theorem hostKept_charge (slot i n : Nat) (s : State) : HostKept s (charge slot i n s) := ⟨rfl, rfl⟩

theorem hostKept_chargeWrite (slot n : Nat) (s : State) : HostKept s (chargeWrite slot n s) := ⟨rfl, rfl⟩

theorem hostKept_hostOut (slot n : Nat) (s : State) : HostKept s (hostOut slot n s) := ⟨rfl, rfl⟩

theorem hostKept_chargeAccess (slot : Nat) (p : Page) (n : Nat) (w : Bool) (s : State) : HostKept s (chargeAccess slot p n w s) :=
  .ite ⟨rfl, rfl⟩ (.ite ⟨rfl, rfl⟩ (.ite ⟨rfl, rfl⟩ (.refl s)))

theorem hostKept_writePage (slot idx : Nat) (whole : Bool) (part : Nat) (s : State) (i : Nat) :
    HostKept s (writePage slot idx whole part s i) := by
  unfold writePage
  split
  · exact .refl s
  · rename_i o _
    have hsize := hostKept_drawSize o s
    dsimp only
    generalize drawSize o s = r at hsize ⊢
    obtain ⟨n, u⟩ := r
    have hset (x : Obj) : HostKept s (u.setObj slot idx x) := (hostKept_setObj slot idx x u).after hsize
    have hraw (x : Obj) (a b : Nat) :
        HostKept s (((u.setObj slot idx x).bumpBy Reg.TIER_RAW_BYTES a).bumpBy Reg.TIER_STORED_BYTES b) :=
      (HostKept.put _ _ (by decide)).after ((HostKept.put _ _ (by decide)).after (hset x))
    refine .ite ?poisoned (.ite ?lower ((hostKept_chargeAccess ..).after (hostKept_setObj ..)))
    · exact .ite ((hostKept_charge ..).after (hset _)) (.ite ((hostKept_chargeWrite ..).after (hset _))
        (.ite ((hostKept_hostOut ..).after (hset _)) (hset _)))
    · exact .ite ((hostKept_chargeWrite ..).after (hraw ..)) (.ite ((hostKept_hostOut ..).after (hraw ..)) (hraw ..))

theorem hostKept_storeBytes (slot idx off : Nat) (bytes : List Byte) (s : State) : HostKept s (storeBytes slot idx off bytes s) := by
  unfold storeBytes
  split
  · exact .refl s
  · exact (hostKept_updObj ..).after (.after (.foldl (fun _ _ => hostKept_writePage ..) _ _) (hostKept_cancelMoves ..))

theorem hostKept_tokensArrive (id : Nat) (toks : List Nat) (s : State) : HostKept s (tokensArrive id toks s) := by
  unfold tokensArrive
  split
  · exact .refl s
  · exact hostKept_updCtx ..

theorem hostKept_readReady {k : Memory → State → State} (hk : ∀ m t, HostKept t (k m t)) (id slot idx off len : Nat) (s : State) :
    HostKept s (readReady id slot idx off len k s) := by
  unfold readReady
  split
  · exact hostKept_finish ..
  · dsimp only
    split
    · exact hostKept_finish ..
    · exact (hk _ _).after (.foldl (fun _ _ => (hostKept_chargeAccess ..).after (hostKept_updObj ..)) _ s)

theorem hostKept_loadOver (id : Nat) (s : State) : HostKept s (loadOver id s) := ⟨rfl, rfl⟩

/-! ### Commands of the event fabric and of the sensor ports -/

theorem hostKept_updCore (s : State) (c : Nat) (f : ECore → ECore) : HostKept s (s.updCore c f) := ⟨rfl, rfl⟩

theorem hostKept_updPort (s : State) (p : Nat) (f : Port → Port) : HostKept s (s.updPort p f) := by
  have hne : Reg.HIF_HOST_ABSENT ≠ Reg.ESP_STATUS p := by simp only [Reg.HIF_HOST_ABSENT, Reg.ESP_STATUS]; omega
  exact (HostKept.put _ _ hne).after ⟨rfl, rfl⟩

theorem hostKept_setFab (s : State) (x : Fab) : HostKept s { s with fab := x } := ⟨rfl, rfl⟩

theorem hostKept_coreLoaded (id c axon out : Nat) (w p : Memory) (s : State) : HostKept s (coreLoaded id c axon out w p s) :=
  (hostKept_finish ..).after (hostKept_updCore ..)

theorem hostKept_routeWrite (w : RouteWrite) (s : State) : HostKept s (routeWrite w s) := by
  have hdone (st : Status) (n : Nat) (t : State) :
      HostKept t (match w.flight with | some f => finish f st n t | none => t) := by
    split
    · exact hostKept_finish ..
    · exact .refl t
  refine .ite ?_ (hostKept_setFab ..)
  unfold applyRoutes
  dsimp only
  split
  · exact hdone ..
  · exact (hdone ..).after (hostKept_setFab ..)

theorem hostKept_setGroups (s : State) (g : Map Group) : HostKept s { s with groups := g } := ⟨rfl, rfl⟩

theorem hostKept_advanceEpoch (p at_ : Nat) (s : State) : HostKept s (advanceEpoch p at_ s) := by
  have hne : Reg.HIF_HOST_ABSENT ≠ Reg.ESP_SET_EPOCH p := by simp only [Reg.HIF_HOST_ABSENT, Reg.ESP_SET_EPOCH]; omega
  exact (hostKept_setGroups ..).after ((hostKept_updPort ..).after (.put s _ hne))

theorem hostKept_runList (p : Nat) (l : I3cList) (s : State) : HostKept s (runList p l s) := by
  have hne : Reg.HIF_HOST_ABSENT ≠ Reg.ESP_I3C_STATUS p := by simp only [Reg.HIF_HOST_ABSENT, Reg.ESP_I3C_STATUS]; omega
  have hemit (t : State) (o : Output) : HostKept t (t.emit o) := ⟨rfl, rfl⟩
  exact (hemit ..).after ((HostKept.put _ _ hne).after (hostKept_updPort ..))

theorem hostKept_startList (p at_ : Nat) (l : I3cList) (s : State) : HostKept s (startList p at_ l s) := by
  have hepoch := hostKept_advanceEpoch p at_ s
  unfold startList
  dsimp only
  split
  · exact .ite ((hostKept_updPort ..).after hepoch) ((hostKept_runList ..).after hepoch)
  · refine .ite ((hostKept_updPort ..).after ?settles) ((hostKept_runList ..).after ?settles)
    exact (hostKept_setGroups ..).after ((hostKept_updPort ..).after hepoch)

theorem hostKept_acceptList (id p : Nat) (l : List DWord) (now : Bool) (s : State) : HostKept s (acceptList id p l now s) := by
  unfold acceptList
  split
  · exact hostKept_finish ..
  · refine .ite (.ite (hostKept_finish ..) (hostKept_startList ..)) ((hostKept_updPort ..).after ?_)
    split
    · exact hostKept_finish ..
    · exact .refl s

theorem hostKept_eventReady (id : Nat) (f : Flight) (s : State) : HostKept s (eventReady id f s) := by
  unfold eventReady
  split
  · refine (hostKept_loadOver ..).after (hostKept_readReady (fun _ _ => hostKept_readReady (fun _ _ => ?_) ..) ..)
    exact hostKept_coreLoaded ..
  · refine hostKept_readReady (fun _ t => ?_) ..
    dsimp only
    split
    · exact hostKept_finish ..
    · exact hostKept_routeWrite ..
  · exact (hostKept_finish ..).after (hostKept_storeBytes ..)
  · exact hostKept_readReady (fun _ _ => hostKept_acceptList ..) ..
  · exact .refl s

/-! ### Accesses, moves and stalls -/

theorem hostKept_postData (id fn iova : Nat) (bytes : List Nat) (s : State) : HostKept s (postData id fn iova bytes s) :=
  .ite ⟨rfl, rfl⟩ ((hostKept_finish ..).after (hostKept_sendHost ..))

theorem hostKept_accessReady (id : Nat) (s : State) : HostKept s (accessReady id s) := by
  unfold accessReady
  split
  · exact .refl s
  · refine .ite (.refl s) (.ite (.ite (hostKept_turnFail ..) ((hostKept_finish ..).after (hostKept_loadOver ..))) ?_)
    refine .ite (hostKept_eventReady ..) ?_
    split
    · split
      · dsimp only
        split
        · exact hostKept_turnFail ..
        · exact (hostKept_tokensArrive ..).after (.foldl (fun _ _ => hostKept_chargeAccess ..) _ s)
      · exact hostKept_turnFail ..
    · exact (hostKept_finish ..).after (hostKept_storeBytes ..)
    · split
      · dsimp only
        split
        · exact hostKept_finish ..
        · exact (hostKept_postData ..).after (.foldl (fun _ _ => (hostKept_chargeAccess ..).after (hostKept_updObj ..)) _ s)
      · exact hostKept_finish ..
    · exact .refl s

theorem hostKept_accessPart (id : Nat) (st : Status) (s : State) : HostKept s (accessPart id st s) :=
  (hostKept_accessReady ..).after ⟨rfl, rfl⟩

theorem hostKept_tileMoveFailed (k n : Nat) (st : Status) (s : State) : HostKept s (tileMoveFailed k n st s) := ⟨rfl, rfl⟩

theorem hostKept_failMove (m : Move) (st : Status) (s : State) : HostKept s (failMove m st s) := by
  have hwaiters : HostKept s (m.waiters.foldl (fun s f => accessPart f st s) (dropMove m s)) :=
    .after (.foldl (fun _ _ => hostKept_accessPart ..) _ _) (hostKept_dropMove m s)
  unfold failMove
  dsimp only
  split
  · exact (hostKept_outcome ..).after hwaiters
  · exact (hostKept_outcome ..).after hwaiters
  · exact .ite ((hostKept_endWaiters ..).after hwaiters) ((hostKept_outcome ..).after hwaiters)
  · exact (hostKept_partDone ..).after hwaiters
  · exact (hostKept_partDone ..).after hwaiters
  · exact (hostKept_partDone ..).after hwaiters
  · exact (hostKept_accessPart ..).after hwaiters
  · exact (hostKept_remoteFail ..).after hwaiters
  · exact (hostKept_tileMoveFailed ..).after hwaiters

theorem hostKept_countStall (slot : Nat) (s : State) : HostKept s (countStall slot s) :=
  .after (t := s.bump Reg.HIF_STALL_ABORT) ⟨rfl, rfl⟩ (.put s _ (by decide))

theorem hostKept_t3Stall (m : Move) (s : State) : HostKept s (t3Stall m s) := by
  have hcount : HostKept s (((s.bump Reg.TIER_T3_STALLS).bump Reg.HIF_STALL_ABORT).twBump m.slot Reg.TW_HIF_STALLS) :=
    (hostKept_countStall m.slot (s.bump Reg.TIER_T3_STALLS)).after (.put s _ (by decide))
  exact (hostKept_failMove ..).after (.ite ((hostKept_updTen ..).after hcount) hcount)

theorem hostKept_stallFlight (id : Nat) (s : State) : HostKept s (stallFlight id s) := by
  unfold stallFlight
  split
  · exact .refl s
  · exact .ite ((hostKept_turnFail ..).after (hostKept_countStall ..)) ((hostKept_finish ..).after (hostKept_countStall ..))

theorem hostKept_updFn (s : State) (f : Nat) (g : Fn → Fn) : HostKept s (s.updFn f g) := ⟨rfl, rfl⟩

theorem hostKept_stallWrites (f : Nat) (s : State) : HostKept s (stallWrites f s) := by
  refine .after (.foldl (fun t m => hostKept_t3Stall m t) _ _) (.after (.foldl (fun t w => ?_) _ _)
    ((hostKept_updFn ..).after (hostKept_rehold ..)))
  cases w with
  | data id _ _ => exact hostKept_stallFlight id t
  | _ => exact .refl t

theorem hostKept_updEnd (op : Nat) (st : Status) (s : State) : HostKept s (updEnd op st s) := by
  refine (hostKept_raiseVec ..).after ((HostKept.put _ _ (by decide)).after ((hostKept_traceRec ..).after ?_))
  exact .after (t := State.setBit _ Reg.FW_UPD_STATUS 0 false) ⟨rfl, rfl⟩ ((HostKept.put _ _ (by decide)).after (.put s _ (by decide)))

theorem hostKept_readFails (r : HostRead) (st : Status) (s : State) : HostKept s (readFails r st s) := by
  unfold readFails
  split
  · exact hostKept_finish ..
  · exact hostKept_turnFail ..
  · exact hostKept_finish ..
  · exact hostKept_updEnd ..

/-- A read that is abandoned ends what waits on it. -/
theorem hostKept_abandonRead (r : HostRead) (s : State) : HostKept s (
    let s := dropRead r.tag s
    let s := match r.use with | .update => s.bump Reg.HIF_STALL_ABORT | _ => countStall r.slot s
    readFails r (stallStatus s) s) := by
  have hdrop : HostKept s (dropRead r.tag s) := ⟨rfl, rfl⟩
  refine (hostKept_readFails ..).after ?_
  split
  · exact (HostKept.put _ _ (by decide)).after hdrop
  · exact (hostKept_countStall ..).after hdrop

theorem hostKept_fnPut (s : State) (f a v : Nat) : HostKept s (s.fnPut f a v) := ⟨rfl, rfl⟩

theorem hostKept_resetFn (f : Nat) (s : State) : HostKept s (resetFn f s) := by
  unfold resetFn
  extract_lets parked stalled abandoned moved revoked cleared
  have hparked : HostKept s parked := .foldl (fun t i => hostKept_parkTenant i t) _ s
  have hstalled : HostKept s stalled := (hostKept_stallWrites ..).after hparked
  have habandoned : HostKept s abandoned := .after (.foldl (fun t r => hostKept_abandonRead r t) _ _) hstalled
  have hmoved : HostKept s moved := .after (.foldl (fun t m => hostKept_t3Stall m t) _ _) habandoned
  have hrevoked : HostKept s revoked := (hostKept_revokeFn ..).after hmoved
  have hcleared : HostKept s cleared := (hostKept_updFn ..).after hrevoked
  exact (hostKept_fnPut ..).after hcleared

end Sys2Proof.Machine
end

section
/-! Leases, stalls, completions, errors, power states and resets of the host interface (15, R317 to R331). -/

namespace Sys2Proof.Machine

section
variable {s : State}

/-! ### A function's state and window -/

theorem fn_updFn (s : State) (f j : Nat) (g : Fn → Fn) : (s.updFn f g).fn j = if j = f then g (s.fn f) else s.fn j := by
  rw [State.fn, State.updFn, mgetD, mget_mput]
  split <;> rfl

theorem fnRd_fnPut_same (s : State) (f a v : Nat) : (s.fnPut f a v).fnRd f a = v % 2 ^ 64 := by
  rw [State.fnRd, State.fnPut, fn_updFn, if_pos rfl, mgetD_mputD, if_pos rfl, ← BitVec.toNat_ofNat]
  split
  case isTrue h => rw [h]
  case isFalse => rfl

/-! ### Leases (R318 to R320) -/

theorem twLeasePeriodWrite_of_reach {f : Nat} {win : Option Nat} (hf : f < 32) (h : reaches s f win = true) (v : Word) :
    exec (.twLeasePeriodWrite f win v) s = .next (leaseWrite f (if 100 ≤ bits v.toNat 0 16 ∧ bits v.toNat 0 16 ≤ 60000
      then s.fnPut f Reg.TW_LEASE_PERIOD (bits v.toNat 0 16) else s)) :=
  (onUnit_next (decide_eq_true hf)).trans (next_of_eq (if_pos h))

theorem leaseOver_of_late {f : Nat} (hlive : (s.fn f).leaseLive = true)
    (htime : (s.fn f).leaseAt + 1000 * s.fnRd f Reg.TW_LEASE_PERIOD < s.tb) : leaseOver s f = true :=
  Bool.and_eq_true_iff.mpr ⟨hlive, decide_eq_true htime⟩

theorem leaseOver_of_kept {f : Nat} (h : (s.fn f).leaseLive = false ∨
    s.tb ≤ (s.fn f).leaseAt + 1000 * s.fnRd f Reg.TW_LEASE_PERIOD) : ¬ leaseOver s f = true := by
  intro hover
  obtain ⟨hlive, htime⟩ := Bool.and_eq_true_iff.mp hover
  exact h.elim (fun h => ne_true_of_false h hlive) (fun h => Nat.not_lt.mpr h (of_decide_eq_true htime))

theorem leaseExpire_eq {f : Nat} (hpos : 0 < f) (hf : f < 32) : exec (.leaseExpire f) s =
    .next (if leaseOver s f then (tenantsOf s f).foldl (fun s i => revokeRegions i (fun _ => true) (parkTenant i s)) (leaseGone f s)
      else s) :=
  onUnit_next (Bool.and_eq_true_iff.mpr ⟨decide_eq_true hpos, decide_eq_true hf⟩)

/-! ### Stalls (R324 to R326) -/

theorem writeStallTimeout_eq {f : Nat} (hf : f < 32) (w : Bool) : exec (.writeStallTimeout f w) s = .next (writeStall f w s) :=
  onUnit_next (decide_eq_true hf)

theorem writeStall_of_stalled {f : Nat} (h : (s.fn f).wrStalled = true) (w : Bool) : writeStall f w s = s :=
  if_pos (by rw [h, Bool.true_or])

theorem writeStall_of_empty {f : Nat} (h : (s.fn f).wq = []) : writeStall f false s = s :=
  if_pos (by simp [h])

theorem writeStall_of_withheld {f : Nat} (h : (s.fn f).wrStalled = false) : writeStall f true s =
    stallWrites f (((s.bump Reg.HIF_WR_STALL).traceRec 0x0C 2 f [f, 1]).updFn f (fun n => { n with wrStalled := true })) :=
  if_neg (by simp [h])

theorem stallExit_of_stalled {f : Nat} (hopen : (s.fn f).blocked = false) (h : (s.fn f).wrStalled = true) :
    ∃ t, stallExit f s = sendPending f t := by
  have hexit : ¬ ((s.fn f).blocked || !(s.fn f).wrStalled) = true := by simp [hopen, h]
  exact ⟨_, if_neg hexit⟩

/-! ### Reads and their completions (R315, R325) -/

theorem readStallTimeout_of_some {tag : Nat} {r : HostRead} (h : s.hostReadOf tag = some r) : exec (.readStallTimeout tag) s =
    .next (if r.since + 1000 * s.rdN Reg.HIF_STALL_TO ≤ s.tb then readStall r s else s) := by
  simp only [exec_readStallTimeout, execReadStallTimeout, h]

theorem readStallTimeout_of_none {tag : Nat} (h : s.hostReadOf tag = none) : exec (.readStallTimeout tag) s = .next s := by
  simp only [exec_readStallTimeout, execReadStallTimeout, h]

theorem dmaReadComplete_of_some {tag : Nat} {r : HostRead} (h : s.hostReadOf tag = some r) (d : List Nat) :
    exec (.dmaReadComplete tag d) s = .next (if (s.fn r.fn).blocked = true ∨ d.length ≠ r.len then s else readDone r d s) := by
  simp only [exec_dmaReadComplete, execDmaReadComplete, h]

theorem dmaReadComplete_of_none {tag : Nat} (h : s.hostReadOf tag = none) (d : List Nat) :
    exec (.dmaReadComplete tag d) s = .next s := by
  simp only [exec_dmaReadComplete, execDmaReadComplete, h]

/-! ### Errors of requests (R327) -/

theorem hostReadOf_bump (s : State) (a tag : Nat) : (s.bump a).hostReadOf tag = s.hostReadOf tag := rfl

theorem move_bump (s : State) (a id : Nat) : (s.bump a).move id = s.move id := rfl

theorem requestError_of_none {acc : HostAccess} (h : (∃ tag, acc = .read tag ∧ s.hostReadOf tag = none) ∨
    (∃ id, acc = .move id ∧ s.move id = none)) : exec (.hostRequestError acc) s = .next (s.bump Reg.HIF_UR_CA) ∧
      exec (.poisonedCompletion acc) s = .next (s.bump Reg.HIF_POISON_RX) := by
  rcases h with ⟨tag, rfl, hnone⟩ | ⟨id, rfl, hnone⟩
  · simp only [exec_hostRequestError, execHostRequestError, exec_poisonedCompletion, execPoisonedCompletion, hostReadOf_bump, hnone,
      and_self]
  · simp only [exec_hostRequestError, execHostRequestError, exec_poisonedCompletion, execPoisonedCompletion, move_bump, hnone, and_self]

theorem hostRequestError_of_write {tag id : Nat} {r : HostRead} (h : s.hostReadOf tag = some r) (huse : r.use = .write id) :
    exec (.hostRequestError (.read tag)) s = .next (finish id ⟨0x40, 0, 3⟩ 0 (revokeAt r.slot r.iova
      (aer r.fn 20 true (dropRead tag (s.bump Reg.HIF_UR_CA))))) := by
  simp only [exec_hostRequestError, execHostRequestError, hostReadOf_bump, h, huse, regionFault]

theorem poisonedCompletion_of_write {tag id : Nat} {r : HostRead} (h : s.hostReadOf tag = some r) (huse : r.use = .write id) :
    exec (.poisonedCompletion (.read tag)) s =
      .next (finish id ⟨0x40, 0, 3⟩ 0 (aer r.fn 12 true (dropRead tag (s.bump Reg.HIF_POISON_RX)))) := by
  simp only [exec_poisonedCompletion, execPoisonedCompletion, hostReadOf_bump, h, readFails, huse, regionFault]

theorem poisonedCompletion_of_move {id : Nat} {m : Move} (h : s.move id = some m) (hsrc : m.src = 3) :
    exec (.poisonedCompletion (.move id)) s = .next (failMove m ⟨0x40, 0, 3⟩ (poisonPage m.slot m.obj m.page
      (aer (fnOf (s.bump Reg.HIF_POISON_RX) m.slot) 12 true (s.bump Reg.HIF_POISON_RX)))) := by
  simp only [exec_poisonedCompletion, execPoisonedCompletion, move_bump, h, if_pos hsrc, regionFault]

/-- A ring of an ACTIVE queue whose access fails is in ERROR. -/
theorem que_ringError {sl q : Nat} (h : (s.que sl q).st = .active) : ((ringError sl q s).que sl q).st = .error := by
  rw [ringError, if_pos (.inl h)]
  cases hten : s.ten sl with
  | none =>
    rw [State.que, hten, Option.map_none, Option.getD_none] at h
    exact absurd h (by decide)
  | some t => rw [que_updQue_same hten]

/-! ### IDE streams (R317) -/

theorem foldl_ideInsecure (a b : Nat) (l : List Nat) (s : State) (f : Nat) :
    ((l.foldl (fun s f => if a ≤ f ∧ f ≤ b then s.updFn f (fun n => { n with ideInsecure := true }) else s) s).fn f).ideInsecure =
      (decide (f ∈ l ∧ a ≤ f ∧ f ≤ b) || (s.fn f).ideInsecure) := by
  induction l generalizing s with
  | nil => simp
  | cons k l ih =>
    rw [List.foldl_cons, ih]
    by_cases hrange : a ≤ k ∧ k ≤ b
    · rw [if_pos hrange, fn_updFn]
      by_cases hk : f = k
      · simp [hk, hrange]
      · simp [hk]
    · rw [if_neg hrange]
      by_cases hk : f = k
      · simp [hk, hrange]
      · simp [hk]

theorem foldl_ide_rdN (a b c : Nat) (l : List Nat) (s : State) :
    (l.foldl (fun s f => if a ≤ f ∧ f ≤ b then s.updFn f (fun n => { n with ideInsecure := true }) else s) s).rdN c = s.rdN c := by
  induction l generalizing s with
  | nil => rfl
  | cons k l ih =>
    rw [List.foldl_cons, ih]
    split
    · exact State.rdN_updFn ..
    · rfl

/-! ### Resets (R328, R329) -/

theorem vfFlr_eq {f : Nat} (hpos : 0 < f) (hf : f < 32) : exec (.vfFlr f) s =
    .next (if f ≤ s.hif.vfs then (resetFn f s).bump Reg.HIF_FLR else s) :=
  onUnit_next (Bool.and_eq_true_iff.mpr ⟨decide_eq_true hpos, decide_eq_true hf⟩)

theorem resetPf_shows (s : State) : hostAbsent (resetPf s) = true ∧ (resetPf s).hif.vfs = 0 := by
  have hreset : (resetFn 0 (clearVfs s)).hif.vfs = 0 := by
    rw [(hostKept_resetFn 0 (clearVfs s)).hif]
    rfl
  rw [resetPf]
  generalize resetFn 0 (clearVfs s) = t at hreset ⊢
  obtain ⟨habsent, hhif⟩ := enterHostAbsent_shows { t with bar2 := t.hif.bar2Next }
  rw [hhif]
  exact ⟨habsent, hreset⟩

/-- What a reset leaves of its function. -/
theorem resetFn_fn (f : Nat) (s : State) : ((resetFn f s).fn f).leaseLive = false ∧ ((resetFn f s).fn f).bme = false ∧
    ((resetFn f s).fn f).mse = false ∧ ((resetFn f s).fn f).msixEn = false ∧ (resetFn f s).fnRd f Reg.TW_LEASE_PERIOD = 2000 := by
  unfold resetFn
  extract_lets _ _ _ _ revoked cleared
  clear_value revoked
  have hfn (a v : Nat) : ((cleared.fnPut f a v).fn f).leaseLive = (cleared.fn f).leaseLive ∧
      ((cleared.fnPut f a v).fn f).bme = (cleared.fn f).bme ∧ ((cleared.fnPut f a v).fn f).mse = (cleared.fn f).mse ∧
      ((cleared.fnPut f a v).fn f).msixEn = (cleared.fn f).msixEn := by
    rw [State.fnPut, fn_updFn, if_pos rfl]
    exact ⟨rfl, rfl, rfl, rfl⟩
  obtain ⟨hlive, hbme, hmse, hmsix⟩ := hfn Reg.TW_LEASE_PERIOD 2000
  rw [hlive, hbme, hmse, hmsix, fnRd_fnPut_same]
  simp only [cleared, fn_updFn, if_true]
  decide

end

/-- Settles O55: each event by the function, the read or the tag that it names. -/
theorem hostInterfaceEvents : Obligations.HostInterfaceEvents := by
  unfold Obligations.HostInterfaceEvents
  refine ⟨?lease, ?leaseNot, ?period, ?periodOut, ?periodNot, ?expire, ?expireNot, ?pfExpire, ?pfExpireNot, ?absent, ?stalled, ?stall,
    ?stallEmpty, ?exitNot, ?exit, ?readStall, ?readStallNot, ?readStallNone, ?complete, ?completeNot, ?completeNone, ?unexpected,
    ?errorNone, ?errorWrite, ?poisonWrite, ?poisonMove, ?ring, ?unmask, ?bme, ?d3hot, ?ide, ?vfFlr, ?vfFlrNot, ?vfClear, ?pfFlr,
    ?conventional, ?reset⟩
  case lease =>
    exact fun f win v s hf h => ⟨_, rfl, (onUnit_next (decide_eq_true hf)).trans (next_of_eq (if_pos h))⟩
  case leaseNot =>
    exact fun f win v s hf h => (onUnit_next (decide_eq_true hf)).trans (next_of_eq (if_neg (ne_true_of_false h)))
  case period =>
    intro f win v s hf h hlo hhi
    rw [twLeasePeriodWrite_of_reach hf h, if_pos ⟨hlo, hhi⟩]
  case periodOut =>
    intro f win v s hf h hout
    rw [twLeasePeriodWrite_of_reach hf h, if_neg (by omega)]
  case periodNot =>
    exact fun f win v s hf h => (onUnit_next (decide_eq_true hf)).trans (next_of_eq (if_neg (ne_true_of_false h)))
  case expire =>
    intro f s hpos hf hlive htime
    rw [leaseExpire_eq hpos hf, if_pos (leaseOver_of_late hlive htime)]
  case expireNot =>
    intro f s hpos hf h
    rw [leaseExpire_eq hpos hf, if_neg (leaseOver_of_kept h)]
  case pfExpire => exact fun s hlive htime => next_of_eq (if_pos (leaseOver_of_late hlive htime))
  case pfExpireNot => exact fun s h => next_of_eq (if_neg (leaseOver_of_kept h))
  case absent => exact fun s => (enterHostAbsent_shows s).1
  case stalled => exact fun f w s hf h => (writeStallTimeout_eq hf w).trans (next_of_eq (writeStall_of_stalled h w))
  case stall => exact fun f s hf h => (writeStallTimeout_eq hf true).trans (next_of_eq (writeStall_of_withheld h))
  case stallEmpty => exact fun f s hf h => (writeStallTimeout_eq hf false).trans (next_of_eq (writeStall_of_empty h))
  case exitNot =>
    exact fun f s hf h => (onUnit_next (decide_eq_true hf)).trans (next_of_eq (if_pos (by rw [h, Bool.not_false, Bool.or_true])))
  case exit =>
    intro f s hf hopen h
    obtain ⟨t, ht⟩ := stallExit_of_stalled hopen h
    exact ⟨t, (onUnit_next (decide_eq_true hf)).trans (next_of_eq ht)⟩
  case readStall =>
    intro tag s r h htime
    rw [readStallTimeout_of_some h, if_pos htime]
  case readStallNot =>
    intro tag s r h htime
    rw [readStallTimeout_of_some h, if_neg (Nat.not_le.mpr htime)]
  case readStallNone => exact fun tag s h => readStallTimeout_of_none h
  case complete =>
    intro tag d s r h hopen hlen
    rw [dmaReadComplete_of_some h, if_neg (by simp [hopen, hlen])]
  case completeNot =>
    intro tag d s r h hnot
    rw [dmaReadComplete_of_some h, if_pos hnot]
  case completeNone => exact fun tag d s h => dmaReadComplete_of_none h d
  case unexpected => exact fun f s hf => onUnit_next (decide_eq_true hf)
  case errorNone => exact fun acc s h => requestError_of_none h
  case errorWrite => exact fun tag id s r h huse => ⟨_, hostRequestError_of_write h huse, rfl⟩
  case poisonWrite => exact fun tag id s r h huse => ⟨_, poisonedCompletion_of_write h huse, rfl⟩
  case poisonMove => exact fun id s m h hsrc => ⟨_, poisonedCompletion_of_move h hsrc, rfl⟩
  case ring => exact fun sl q s h => ⟨_, _, rfl, rfl, que_ringError h, que_ringError h⟩
  case unmask =>
    exact fun f v s hf hv => onUnit_next (Bool.and_eq_true_iff.mpr ⟨decide_eq_true hf, decide_eq_true hv⟩)
  case bme => exact fun f s hf => onUnit_next (decide_eq_true hf)
  case d3hot => exact fun f s hf => onUnit_next (decide_eq_true hf)
  case ide =>
    intro st a b f s hst ha hb hf
    refine ⟨_, onUnit_next (by simp [hst, ha, hb]), (foldl_ideInsecure a b _ _ f).trans ?_, foldl_ide_rdN ..⟩
    simp only [List.mem_range, hf, true_and]
    rfl
  case vfFlr =>
    intro f s hpos hf hvf
    rw [vfFlr_eq hpos hf, if_pos hvf]
  case vfFlrNot =>
    intro f s hpos hf hvf
    rw [vfFlr_eq hpos hf, if_neg (Nat.not_le.mpr hvf)]
  case vfClear => exact fun s => ⟨_, rfl, rfl, rfl⟩
  case pfFlr => exact fun s => ⟨rfl, resetPf_shows s⟩
  case conventional =>
    exact fun k sp w s hsp hw => onUnit_next (Bool.and_eq_true_iff.mpr ⟨decide_eq_true hsp, decide_eq_true hw⟩)
  case reset => exact fun f s _ => resetFn_fn f s

end Sys2Proof.Machine
end
